-- ==== Sys2Proof/Word.lean ====
section
/-!
DEFINITION. The words the commands and the state are written with: bytes, 64-bit register words, and
the small operand types of the commands.
-/

namespace Sys2Proof

/-- One byte of memory or of a message. -/
abbrev Byte := BitVec 8

/-- One 64-bit register word (R30). -/
abbrev Word := BitVec 64

/-- A run of bytes, byte 0 first (R6). -/
abbrev Bytes := List Byte

/-- What the error-correcting code finds when memory is read (R208 to R210, R227): nothing, an error it
corrects, or an error it cannot correct. -/
inductive Ecc where
  | clean
  | corrected
  | uncorrectable
deriving DecidableEq, Repr

/-- The four traffic classes of the ring fabric (R250). -/
inductive Traffic where
  | control
  | guaranteed
  | reduction
  | bestEffort
deriving DecidableEq, Repr

/-- A unit of the package that sends or receives packets (R238, R241): a cluster, a sweep engine, a slice's ring port, a
partition's scheduler and manifest, a controller, a chiplet site, the endpoint with its DMA channels, and the management
island. -/
inductive FabUnit where
  | cluster (c : Nat)
  | engine (e : Nat)
  | quay (k : Nat)
  | sched (k : Nat)
  | mc (m : Nat)
  | site (t : Nat)
  | host
  | mgmt
deriving DecidableEq, Repr

/-- What a packet carries, which gives its class (R241, R250): traffic of a context, of a DMA channel, of a chiplet as its
header marks it; control messages, pot records, copies of PREFETCH, anything else; or what an earlier packet or broadcast
caused, with whether it is the last answer to that. -/
inductive Cargo where
  | work (ctx : Nat)
  | dma (c : Nat)
  | chiplet (cls : Traffic)
  | control
  | pot
  | prefetch
  | other
  | caused (id : Nat) (last : Bool)
deriving DecidableEq, Repr

/-- Where among the security core's fuse writes power fails: between them; when the count of a setting is burnt and its value is
not yet programmed (R49); or inside the ROM's commit, with the token burnt or not and some bits of the row burnt (R403). -/
inductive PowerCut where
  | none
  | counted
  | commit (token : Bool) (bits : Nat)
deriving DecidableEq, Repr

/-- How a host completion of a DMA request arrives (R363). -/
inductive HostError where
  | unsupportedRequest
  | completerAbort
  | poisoned
  | malformed
  | replayed
deriving DecidableEq, Repr

/-- A host configuration write (R345, R347, R350, R363): the setting it changes and its new value. -/
inductive CfgWrite where
  | interruptDisable (b : Bool)
  | pmeEn (b : Bool)
  | pmeStatusClear
  | relaxedOrdering (b : Bool)
  | maxPayload (bytes : Nat)
  | maxReadRequest (bytes : Nat)
  | completionTimeout (code : Nat)
deriving DecidableEq, Repr

/-- What the power manager measures over one period (R329 to R339).  Powers in units of 0.1 W, the 80
sensor readings in tenths of a degree Celsius, `bad` the sensors that fail their self-check. -/
structure PowerReadings where
  hub : Nat
  other : Nat
  part : Nat
  hbm : Nat
  sites : List Nat
  temps : List Int
  bad : List Nat
deriving DecidableEq, Repr

end Sys2Proof
end

