-- ==== Sys2Proof/Syntax.lean ====
section
/-!
DEFINITION. The commands the block takes: one constructor per row of spec/opcode_table.json, in the
table's order.  Operands: `fn` the function that issues a register access (0 to 16), `p` a page index
(R43), `k` a partition, `x` a local context, `q` a sequence number, `c` a cluster or a DMA channel,
`e` a sweep engine, `m` a memory controller or a cluster of a partition, `t` a chiplet site, `v` the
value written to the register the row names.
-/

namespace Sys2Proof

/-- The commands of the block (spec/opcode_table.json). -/
inductive Instr where
  /-- POWER_ON (R486): The rising edge of PWR_OK (1.8 V power-good) starts the ROM, fuse sensing and bring-up. -/
  | powerOn (strap : Nat) (perst : Bool)
  /-- ROM_BOOT (R465): Once fuse sensing completes, the ROM loads PCIe presets, scans intents, checks certificates, copies and checks the image, and releases the management cores or enters recovery. -/
  | romBoot (flashAnswers : Bool)
  /-- SETTINGS (R474): Tuiner reads and checks the saved training records against their CRC and bindings. -/
  | settings
  /-- TRAINING_PHASE (R472): Tuiner trains the HBM stacks, sites and PCIe, and sites are identified and admitted. -/
  | trainingPhase (shortFail : Nat) (sidebandUp : Nat)
  /-- DEFECTS (R478): Tuiner applies the union of the factory and field defect maps in the fixed order. -/
  | defects (mapOk : Bool)
  /-- CORES (R95): Tuiner runs the broadcast tests, builds the logical-to-physical maps and tests the spares. -/
  | cores
  /-- ROUTES (R40): Tuiner loads the route tables, sets ROUTE_MODE, writes the RWL fields from the boot configuration and sets LOCK. -/
  | routes (timing0 timing1 : List Word) (routes : List (Nat × Nat × Nat))
  /-- SCRUB_PHASE (R373): Tuiner enables and scrubs every available partition. -/
  | scrubPhase
  /-- BRINGUP_END (R480): Bring-up ends when every available partition is READY or FAULT, which sets PART_STATE_CHANGED and clears the boot-loop count. -/
  | bringupEnd
  /-- ROM_CHECK (R479): This broadcast command has each unit return the CRC-32C of its micro-sequence mask ROM. -/
  | romCheck (u : Nat) (value : Word)
  /-- SELF_TEST (R479): This broadcast command runs built-in self-test on a core or engine; a failure adds the unit to the field map. -/
  | selfTest (u : Nat) (pass : Bool)
  /-- CLEAR (R479): This broadcast command writes zeros to a unit's scratch, pot banks and buffers. -/
  | clear (u : Nat)
  /-- BROADCAST_ANSWER_TIMEOUT (R479): A unit that does not answer a broadcast command within 5 ms counts as failed. -/
  | broadcastAnswerTimeout (u : Nat)
  /-- REGISTER_WRITE (R9): A write to a register field that has no row of its own takes effect according to the field's access code. -/
  | registerWrite (fn off : Nat) (v : Word)
  /-- NARROW_ACCESS (R30): A narrower or unaligned register access reads zero, writes nothing and is counted under R4. -/
  | narrowAccess (fn off len : Nat) (wr : Bool)
  /-- RC_READ (R10): A read of an RC counter returns the value and clears it, keeping an increment that arrives in the same cycle. -/
  | rcRead (fn off : Nat) (coincide : Bool)
  /-- PAGE_ENABLE (R35): PAGE_CTL.ENABLE 0 to 1 takes a block from OFF to RESET, then TRAINING, then READY. -/
  | pageEnable (fn p : Nat) (v : Word)
  /-- PAGE_DISABLE (R35): PAGE_CTL.ENABLE 1 to 0 takes a QUIESCED or FAULT block to OFF. -/
  | pageDisable (fn p : Nat) (v : Word)
  /-- QUIESCE_REQUEST (R35): PAGE_CTL.QUIESCE 0 to 1 asks a READY block to drain its accepted work. -/
  | quiesceRequest (fn p : Nat) (v : Word)
  /-- QUIESCE_DRAINED (R35): A quiescing block reaches QUIESCED once its accepted work has drained. -/
  | quiesceDrained (p : Nat)
  /-- QUIESCE_RESUME (R35): PAGE_CTL.QUIESCE 1 to 0 returns a QUIESCED block to READY. -/
  | quiesceResume (fn p : Nat) (v : Word)
  /-- RESET_REQ (R41): A RESET_REQ resets a block's state and non-sticky registers, keeping the header evidence and locked fields. -/
  | resetReq (fn p : Nat) (v : Word)
  /-- BLOCK_TRAINED (R35): A training block completes training and passes to READY. -/
  | blockTrained (p : Nat)
  /-- ERR_REARM (R39): An ERR_REARM write clears ERR_FIRST so that the next error can be captured. -/
  | errRearm (fn p : Nat) (v : Word)
  /-- EVT_SET (R36): A write to EVT_SET sets the chosen EVT_STAT bits for test. -/
  | evtSet (fn p : Nat) (v : Word)
  /-- LOCK (R40): A write to LOCK.LOCKED locks the page's RWL fields until whole-device reset. -/
  | lock (fn p : Nat)
  /-- CORE_FAULT (R99): A core fault cause (TU_RESIDUE, SCRATCH_UE, VU_PARITY, SFU_CHECK, POT_BANK_UE) stops the core, sets its logical ID to FENCING and starts the drain. -/
  | coreFault (phys cause : Nat)
  /-- SEQ_STALL (R98): No micro-operation retired for 2^20 island cycles while the core was not waiting on memory, so the core is fenced. -/
  | seqStall (phys : Nat)
  /-- CORE_FENCE (R103): The OPERATOR's CORE_FENCE command fences a named ACTIVE or SPARE core with cause OPERATOR_FENCE. -/
  | coreFence (fn c : Nat) (v : Word)
  /-- CORE_FENCE_DRAINED (R99): Once the fenced core's last write is acknowledged, the map entry moves to the spare or becomes DOWN, the core becomes FENCED and its descriptors are dispatched again. -/
  | coreFenceDrained (c j : Nat)
  /-- SPARE_TEST (R104): The SPARE_TEST command starts built-in self-test on a spare in state SPARE. -/
  | spareTest (fn c : Nat)
  /-- SPARE_TEST_DONE (R104): The spare test ends with a pass, which returns the spare to SPARE, or a failure, which fences it with SPARE_TEST_FAIL. -/
  | spareTestDone (c : Nat) (pass : Bool)
  /-- CACHE_ACCESS_ERROR (R91): A cluster-cache access detects a corrected or uncorrectable error in data or tag. -/
  | cacheAccessError (c bank : Nat) (tag ue : Bool)
  /-- CTX_OPEN (R117): The OPEN command takes a FREE context with valid ring registers to OPEN. -/
  | ctxOpen (fn k x : Nat)
  /-- CTX_RUN (R117): The RUN command takes an OPEN or PAUSED context to RUNNING. -/
  | ctxRun (fn k x : Nat)
  /-- CTX_PAUSE (R117): The PAUSE command takes a RUNNING context to PAUSED and stops further dispatch. -/
  | ctxPause (fn k x : Nat)
  /-- CTX_CLOSE (R117): The CLOSE command takes an OPEN, PAUSED or ABORTED context to DRAINING. -/
  | ctxClose (fn k x : Nat)
  /-- CTX_ABORT (R117): The ABORT command makes a context ABORTED with cause JOB_ABORTED and begins teardown. -/
  | ctxAbort (fn k x : Nat)
  /-- CTX_TAIL (R118): A write to CTX_TAIL announces descriptors below the value, unless a ring rule rejects it. -/
  | ctxTail (fn k x tail : Nat)
  /-- CONTEXT_FREED (R421): When a DRAINING context's outstanding counter reaches zero, the context scrub takes it to FREE and sets CTX_FREED. -/
  | contextFreed (k x : Nat)
  /-- DISPATCH (R121): In a dispatch cycle the scheduler reads and decodes the chosen context's next descriptor, admits it against the energy bucket and dispatches it. -/
  | dispatch (k x u : Nat)
  /-- GEMM (R114): A core computes D as round(A × B) from exact pots. -/
  | gemm (k x q : Nat)
  /-- GEMM_POT (R114): A core writes the unrounded pot records of A × B. -/
  | gemmPot (k x q : Nat)
  /-- POT_MERGE (R62): A core merges rows of pot records into pot-640 records. -/
  | potMerge (k x q : Nat)
  /-- POT_ROUND (R114): A core rounds pot records into elements. -/
  | potRound (k x q : Nat)
  /-- POT_MERGE_ROUND (R114): A core merges rows of pot records and rounds the results. -/
  | potMergeRound (k x q : Nat)
  /-- REDUCE_ROWS (R114): A core writes the rounded exact sum of each row. -/
  | reduceRows (k x q : Nat)
  /-- REDUCE_ROWS_POT (R114): A core writes the row sums as pot records. -/
  | reduceRowsPot (k x q : Nat)
  /-- REDUCE_COLS (R114): A core writes the rounded exact sum of each column. -/
  | reduceCols (k x q : Nat)
  /-- REDUCE_COLS_POT (R114): A core writes the column sums as pot records. -/
  | reduceColsPot (k x q : Nat)
  /-- DOT_ROWS (R114): A core writes the rounded dot product of each row pair. -/
  | dotRows (k x q : Nat)
  /-- SUMSQ_ROWS (R114): A core writes the rounded sum of squares of each row. -/
  | sumsqRows (k x q : Nat)
  /-- MAX_ROWS (R114): A core writes the exact maximum of each row. -/
  | maxRows (k x q : Nat)
  /-- MIN_ROWS (R114): A core writes the exact minimum of each row. -/
  | minRows (k x q : Nat)
  /-- REDUCE_COLLECT (R320): The scheduler arms a reduction slot, waits for every chiplet record, then has a core merge and round them. -/
  | reduceCollect (k x q : Nat)
  /-- RED_SLOT_FULL (R320): When every bitmap bit is set, the merge is dispatched to a core. -/
  | redSlotFull (k slot u : Nat)
  /-- RED_SLOT_TIMEOUT (R321): A slot that is not full within CTX_CFG.TIMEOUT completes with TIMEOUT and is disarmed. -/
  | redSlotTimeout (k slot : Nat)
  /-- ATTN_PARTIAL (R147): A sweep engine derives anchors from the whole KV list, sweeps a token range and writes exact partials. -/
  | attnPartial (k x q : Nat)
  /-- ATTN_MERGE (R155): A core checks and merges attention partials, then rounds the output or writes a merged partial. -/
  | attnMerge (k x q : Nat)
  /-- KV_STORE (R159): A sweep engine converts and writes key and value rows, then raises COUNT and BOUND. -/
  | kvStore (k x q : Nat)
  /-- KV_BOUND (R160): A sweep engine recomputes the key bounds of consecutive KV list entries. -/
  | kvBound (k x q : Nat)
  /-- EW_ADD (R114): A core computes the elementwise rounded sum. -/
  | ewAdd (k x q : Nat)
  /-- EW_SUB (R114): A core computes the elementwise rounded difference. -/
  | ewSub (k x q : Nat)
  /-- EW_MUL (R114): A core computes the elementwise rounded product. -/
  | ewMul (k x q : Nat)
  /-- EW_MAX (R114): A core computes the elementwise maximum. -/
  | ewMax (k x q : Nat)
  /-- EW_MIN (R114): A core computes the elementwise minimum. -/
  | ewMin (k x q : Nat)
  /-- EW_UNARY (R114): A core applies the unary or special function selected by OPF. -/
  | ewUnary (k x q : Nat)
  /-- CONVERT (R56): A core converts A into FMT_D, choosing MX scales where needed. -/
  | convert (k x q : Nat)
  /-- EW_CLAMP (R114): A core clamps A between lo and hi. -/
  | ewClamp (k x q : Nat)
  /-- FENCE (R122): The scheduler completes the FENCE once earlier descriptors complete, after writing dirty lines back if FLUSH is set. -/
  | fence (k x q : Nat)
  /-- BARRIER (R123): A BARRIER acts as a FENCE, then arrives at the barrier and waits for GEN to change. -/
  | barrier (k x q : Nat)
  /-- BARRIER_TIMEOUT (R124): The barrier's timeout fires, and the generation fails with TIMEOUT or PARTNER_RESET. -/
  | barrierTimeout (glob : Bool) (k b : Nat)
  /-- BARRIER_TARGET_WRITE (R125): A write of BAR_TARGET or GBAR_CFG changes TARGET only while COUNT is zero. -/
  | barrierTargetWrite (fn : Nat) (glob : Bool) (k b : Nat) (v : Word)
  /-- SIGNAL (R126): After acting as a FENCE, a SIGNAL atomically adds SEED to the word at D_ADDR. -/
  | signal (k x q : Nat)
  /-- WAIT (R127): The scheduler reads the word at A_ADDR at dispatch and completes the WAIT once the word is at least SEED. -/
  | wait (k x q : Nat)
  /-- WAIT_POLL (R127): Every 1 µs the scheduler reads a WAIT's word again. -/
  | waitPoll (k x q : Nat)
  /-- WAIT_TIMEOUT (R127): A WAIT completes with TIMEOUT after CTX_CFG.TIMEOUT. -/
  | waitTimeout (k x q : Nat)
  /-- NOP (R114): The scheduler completes a NOP with OK. -/
  | nop (k x q : Nat)
  /-- COPY (R114): A core copies A to D bit for bit. -/
  | copy (k x q : Nat)
  /-- GATHER_ROWS (R114): A core gathers the rows of A by index. -/
  | gatherRows (k x q : Nat)
  /-- SCATTER_ROWS (R114): A core scatters the rows of A by index. -/
  | scatterRows (k x q : Nat)
  /-- TRANSPOSE (R114): A core writes the transpose of A. -/
  | transpose (k x q : Nat)
  /-- FILL (R114): A core fills D with one element. -/
  | fill (k x q : Nat)
  /-- COMPARE (R114): A core counts the positions whose bits differ and reports the count in RESULT. -/
  | compare (k x q : Nat)
  /-- PREFETCH_TRANSLATE (R189): The scheduler walks each mapped page of the range and fills the slice. -/
  | prefetchTranslate (k x q : Nat)
  /-- PREFETCH_MIGRATE (R191): The scheduler moves each leaf of the range to a new physical place and rewrites its leaf. -/
  | prefetchMigrate (k x q : Nat)
  /-- ADVISE_UNPIN (R190): The scheduler removes the pins in the range. -/
  | adviseUnpin (k x q : Nat)
  /-- ADVISE_PIN (R190): The scheduler walks the range and pins its translations, up to 1,024 pinned entries. -/
  | advisePin (k x q : Nat)
  /-- ADVISE_DONT_NEED (R189): The scheduler drops the range's cached entries, pins included, without draining. -/
  | adviseDontNeed (k x q : Nat)
  /-- ENGINE_FAULT (R138): A sweep engine fault cause (SE_RESIDUE, SE_BUFFER_UE, SE_WEIGHT_CHECK) stops the engine and starts its fence. -/
  | engineFault (e cause : Nat)
  /-- SE_STALL (R137): No progress for 2^20 island cycles while the engine was not waiting on memory, so the engine is fenced. -/
  | seStall (e : Nat)
  /-- ENGINE_FENCE (R163): The OPERATOR's ENGINE_FENCE command fences an engine. -/
  | engineFence (fn e : Nat)
  /-- ENGINE_FENCE_DRAINED (R138): After the drain, the engine becomes FENCED and its descriptors return to the scheduler. -/
  | engineFenceDrained (e : Nat)
  /-- ENGINE_TEST (R163): The ENGINE_TEST command starts self-test on a QUIESCED engine. -/
  | engineTest (fn e : Nat)
  /-- ENGINE_TEST_DONE (R163): The engine self-test ends with a pass or a failure; a failure fences the engine with TEST_FAIL. -/
  | engineTestDone (e : Nat) (pass : Bool)
  /-- WALK_END (R177): A manifest walk ends with a translation or with a fault KIND, in the stated order of causes. -/
  | walkEnd (k req va : Nat) (wr parity : Bool)
  /-- FAULT_RECORD_RELEASE (R182): A fault waiting for a record or a ring slot is written once space frees. -/
  | faultRecordRelease (k : Nat)
  /-- FAULT_RESOLVE_RETRY (R181): FAULT_RESOLVE with FAIL 0 releases every held requester to walk again. -/
  | faultResolveRetry (fn k id : Nat)
  /-- FAULT_RESOLVE_FAIL (R181): FAULT_RESOLVE with FAIL 1 completes the held descriptors with FAULT_TRANSLATION. -/
  | faultResolveFail (fn k id : Nat)
  /-- FAULT_TIMEOUT (R183): An open record older than FAULT_TIMEOUT is resolved as FAIL, with error code 0x0A. -/
  | faultTimeout (k id : Nat)
  /-- FAULT_RING_WRITE (R182): A write to FAULT_RING completes once every earlier record is written, and applies to later records. -/
  | faultRingWrite (fn k : Nat) (v : Word)
  /-- FAULT_CONS_WRITE (R182): Advancing FAULT_CONS frees ring slots for waiting faults. -/
  | faultConsWrite (fn k : Nat) (v : Word)
  /-- INV_CMD_RANGE (R185): INV_CMD KIND 0x1 broadcasts the invalidation of a page range. -/
  | invCmdRange (fn k vpn pagesM1 : Nat)
  /-- INV_CMD_PARTITION (R185): INV_CMD KIND 0x2 broadcasts the invalidation of the whole partition. -/
  | invCmdPartition (fn k : Nat)
  /-- INV_COMPLETE (R186): Once entries are dropped and accesses under them have drained, INV_DONE advances. -/
  | invComplete (k : Nat)
  /-- MF_ROOT_WRITE (R194): A write changing ROOT or EN invalidates the whole partition and ends every pin. -/
  | mfRootWrite (fn k : Nat) (v : Word)
  /-- SHARE_WIN_WRITE (R169): An OPERATOR write of a share window invalidates the partition first, then takes effect. -/
  | shareWinWrite (fn k n : Nat) (v : Word)
  /-- HOT_RING_WRITE (R194): A write to HOT_RING is checked against the partition's own memory. -/
  | hotRingWrite (fn k : Nat) (v : Word)
  /-- MICROTLB_COUNT_REPORT (R192): A micro-TLB reports its access counts to the slice every 4,096 accesses or when it drops an entry. -/
  | microtlbCountReport (k req va : Nat)
  /-- HOT_EPOCH_END (R192): At the end of each epoch every access counter halves and every mark clears. -/
  | hotEpochEnd (k : Nat)
  /-- MC_READ (R209): A controller serves a read: corrected, uncorrectable, or clean. -/
  | mcRead (dpa len : Nat) (ctx : Option Nat) (ecc : Ecc)
  /-- MC_WRITE (R202): A controller accepts a whole-burst write into the write-combining buffer and acknowledges it. -/
  | mcWrite (dpa : Nat) (data : Bytes)
  /-- MC_PARTIAL_WRITE (R203): A write covering part of a burst is acknowledged after its read-modify-write completes. -/
  | mcPartialWrite (dpa : Nat) (data : Bytes) (ecc : Ecc)
  /-- WC_ENTRY_AGED (R202): A write-combining entry that is 10 µs old drains to DRAM. -/
  | wcEntryAged (m granule : Nat)
  /-- ROW_REPAIR_COMPLETE (R213): After the drain, the row is copied to its reserve row, the pool entry becomes valid and accesses are released. -/
  | rowRepairComplete (m pc : Nat)
  /-- REFRESH (R205): A per-bank refresh command is issued at the refresh interval. -/
  | refresh (m pc : Nat)
  /-- REFRESH_MANAGEMENT (R206): A bank's activate count reaches the stack's threshold and refresh management is issued. -/
  | refreshManagement (m pc bank : Nat)
  /-- TEMP_SAMPLE (R207): Every 100 µs the controller reads the stack temperature, setting TEMP_HIGH or tripping at 105 °C. -/
  | tempSample (m : Nat) (degC : Int)
  /-- PATROL_READ (R216): Patrol scrub reads the next burst at its constant rate and writes back a corrected burst. -/
  | patrolRead (m : Nat) (ecc : Ecc)
  /-- MC_ZF_CMD (R217): MC_ZF_CMD starts a zero fill of one partition's pseudo-channels on the stack. -/
  | mcZfCmd (fn m : Nat) (v : Word)
  /-- MC_ZF_DONE (R217): The zero fill ends, releases held requests and sets ZF_DONE. -/
  | mcZfDone (m row : Nat) (ok : Bool)
  /-- MC_INJECT (R219): MC_INJECT arms corruption of the next read of a pseudo-channel. -/
  | mcInject (fn m : Nat) (v : Word)
  /-- CA_PARITY (R220): A command-bus parity error is retried once, and a second failure puts the controller in FAULT. -/
  | caParity (m : Nat) (retryOk : Bool)
  /-- QUAY_READ (R227): A quay slice serves a read: corrected, uncorrectable, or clean. -/
  | quayRead (k off len p : Nat) (ring : Bool) (ecc : Ecc)
  /-- QUAY_WRITE (R224): A quay slice writes granules and acknowledges, with read-modify-write for partial words. -/
  | quayWrite (k off p : Nat) (ring : Bool) (data : Bytes) (ecc : Ecc)
  /-- BANK_REPLACE_COMPLETE (R228): The bank is copied to a spare, the spare serves it and accesses are released. -/
  | bankReplaceComplete (k bank : Nat)
  /-- QUAY_STRICT_SET (R233): A QUAY_CFG write setting STRICT invalidates other partitions' translations into the slice and waits for the drain. -/
  | quayStrictSet (fn k : Nat) (v : Word)
  /-- STRICT_DONE (R233): The STRICT write completes once the drain ends. -/
  | strictDone (k : Nat)
  /-- QUAY_ZF_CMD (R235): QUAY_ZF_CMD starts a zero fill of the whole slice. -/
  | quayZfCmd (fn k : Nat)
  /-- QUAY_ZF_DONE (R235): The slice fill ends and both ports resume. -/
  | quayZfDone (k : Nat) (ok : Bool)
  /-- QUAY_INJECT (R236): QUAY_INJECT arms corruption of the next read of a bank. -/
  | quayInject (fn k : Nat) (v : Word)
  /-- PORT_PARITY (R237): A port parity error is retried once, and a second failure puts the slice in FAULT. -/
  | portParity (k : Nat) (retryOk : Bool)
  /-- PACKET_INJECT (R243): A packet holding its credits and tokens is injected into a deal slot it may use. -/
  | packetInject (src dst : FabUnit) (p : Nat) (cargo : Cargo) (bytes n cycle : Nat) (again : Option Nat)
  /-- PACKET_TURN (R245): A packet at a turn buffer takes a slot on the next ring. -/
  | packetTurn (id cycle : Nat)
  /-- PACKET_DELIVER (R243): A packet is ejected into its destination island and its credit returned. -/
  | packetDeliver (id cycle : Nat)
  /-- ISLAND_WAKE (R258): A packet for a sleeping island requests a wake, and the island accepts it within 2 µs. -/
  | islandWake (island cycle : Nat)
  /-- ISLAND_SLEEP (R331): An island with no work for 5 µs stops its clock. -/
  | islandSleep (island cycle : Nat)
  /-- BROADCAST (R249): A broadcast packet travels its X-ring and is copied round each Y-ring. -/
  | broadcast (src : FabUnit) (p cycle : Nat)
  /-- BROADCAST_COMPLETE (R249): The broadcast completes when every acknowledgement has arrived. -/
  | broadcastComplete (id : Nat)
  /-- DEAL_COMMIT (R255): DEAL_COMMIT.GO requests copying the shadow deals into the active tables. -/
  | dealCommit (fn r : Nat)
  /-- COMMIT_DONE (R255): At the frame boundary every link's shadow becomes active. -/
  | commitDone (r : Nat)
  /-- ROUTE_MODE_WRITE (R248): A ROUTE_MODE write takes effect in each network interface at its next packet boundary. -/
  | routeModeWrite (fn : Nat) (v : Word)
  /-- ROUTE_DATA_WRITE (R247): A route-table entry write is checked for a valid route and reaches every copy at the source stop. -/
  | routeDataWrite (fn : Nat) (v : Word)
  /-- CRC_REPLAY (R263): A slot failing its CRC is resent from the replay buffer one frame later. -/
  | crcReplay (r link : Nat) (dir : Bool) (lane group wire : Nat) (id : Option Nat) (again : Nat)
  /-- LANE_SPARE (R263): A bit lane with over 16 failures in 1 ms is steered to a spare at the next frame. -/
  | laneSpare (r link : Nat) (dir : Bool) (lane group wire cycle : Nat)
  /-- RD_S (R279): The home accepts a read for sharing and grants under the directory transitions. -/
  | rdS (k pos line : Nat) (retried more : Bool)
  /-- RD_X (R279): The home accepts a read for ownership, snoops the holders and grants DATA_E. -/
  | rdX (k pos line : Nat) (retried more : Bool)
  /-- UPG (R279): The home grants ownership of an S line, or treats the request as RD_X for a non-holder. -/
  | upg (k pos line : Nat) (retried more : Bool)
  /-- RD_ONCE (R279): The home serves a non-caching read of a line. -/
  | rdOnce (k pos line : Nat) (retried more : Bool)
  /-- WR_LINE (R280): The home invalidates the holders and writes or places a whole line. -/
  | wrLine (k pos line hint : Nat) (data : Bytes) (retried more : Bool)
  /-- WR_PART (R280): The home merges a masked write into the current bytes of the line. -/
  | wrPart (k pos line hint mask : Nat) (data : Bytes) (retried more : Bool)
  /-- ATOM_ADD (R280): The home adds a 64-bit value to the line within one transaction. -/
  | atomAdd (k pa : Nat) (v : Word) (retried more : Bool)
  /-- WB (R284): The home accepts a writeback of an M line and writes its data to memory. -/
  | wb (k pos line : Nat) (data : Bytes) (arrives : Bool)
  /-- EVICT_CLEAN (R284): The home accepts the eviction notice of an E line. -/
  | evictClean (k pos line : Nat) (arrives : Bool)
  /-- GRANT_ACK (R276): The requester's grant acknowledgement closes the transaction, and waiting reserved retries may be accepted. -/
  | grantAck (k pos line : Nat)
  /-- ACK_MISS (R273): A snooped agent answers that it does not hold the line. -/
  | ackMiss (k pos line : Nat)
  /-- ACK_CLEAN (R279): A snooped agent answers that it holds the line clean. -/
  | ackClean (k pos line : Nat)
  /-- DATA_DIRTY (R279): A snooped agent returns dirty data. -/
  | dataDirty (k pos line : Nat) (data : Bytes)
  /-- WB_IN_FLIGHT (R283): A snooped agent reports that the line is EVICTING, and the home waits for the writeback or notice. -/
  | wbInFlight (k pos line : Nat)
  /-- DATA_S (R279): A cluster cache receives a grant in S. -/
  | dataS (k m line : Nat)
  /-- DATA_E (R279): A cluster cache receives a grant in E and sends GRANT_ACK. -/
  | dataE (k m line : Nat)
  /-- GRANT_UPG (R279): A cluster cache's S line becomes E. -/
  | grantUpg (k m line : Nat)
  /-- FILL_HINT (R281): A hinted cluster takes a written line in M, evicting a victim if needed. -/
  | fillHint (k m line : Nat)
  /-- SNP_SHR (R279): A cluster cache downgrades a line to S and returns data if it is M. -/
  | snpShr (k m line : Nat)
  /-- SNP_INV (R279): A cluster cache invalidates a line and returns data if it is M. -/
  | snpInv (k m line : Nat)
  /-- RD_DATA (R279): A non-caching agent receives the data of its read. -/
  | rdData (k pos line : Nat)
  /-- WR_ACK (R280): A non-caching agent's write is acknowledged as written or placed. -/
  | wrAck (k pos line : Nat)
  /-- SNOOP_TIMEOUT (R287): An agent fails to answer a snoop, or to resend a retry, in time, and the domain is lost. -/
  | snoopTimeout (k pos line : Nat)
  /-- DOMAIN_LOST (R289): Loss of the coherent domain stops the homes, aborts every context and puts the partition in FAULT. -/
  | domainLost (k : Nat)
  /-- SIDEBAND_TRAINED (R296): A site's sideband trains and identification begins. -/
  | sidebandTrained (t : Nat)
  /-- SITE_EMPTY (R294): No sideband answer within 1 ms declares the site EMPTY. -/
  | siteEmpty (t : Nat)
  /-- ID_DATA (R300): The hub receives one identity word from the chiplet. -/
  | idData (t i : Nat) (v : Word)
  /-- MAINBAND_TRAINED (R296): The mainband finishes training, and the site becomes ADMITTED and sends ADMIT. -/
  | mainbandTrained (t up x32 gts : Nat)
  /-- SIDEBAND_UNKNOWN (R300): Any other sideband message from the chiplet is discarded and counted. -/
  | sidebandUnknown (t : Nat)
  /-- SITE_ASSIGN (R306): A SITE_ASSIGN write invalidates the site micro-TLB and waits for removed partitions' requests to drain. -/
  | siteAssign (fn t : Nat) (v : Word)
  /-- ASSIGN_DONE (R306): After the drain, ASSIGN is sent and the write completes. -/
  | assignDone (t : Nat)
  /-- SITE_CMD_RETRAIN (R324): SITE_CMD RETRAIN retrains the selected module. -/
  | siteCmdRetrain (fn t : Nat)
  /-- MODULE_RETRAIN (R297): Over 16 CRC failures in 1 ms, or a lane fault, starts retraining of a module, and its flits move to other modules. -/
  | moduleRetrain (t m : Nat)
  /-- MODULE_RETRAIN_DONE (R297): The module returns at x64 or x32, or is marked down, and capacity is recounted. -/
  | moduleRetrainDone (t m : Nat) (loBad hiBad : Nat)
  /-- FLIT_RECEIVE (R312): The hub accepts, reorders, CRC-checks and acknowledges a flit, or raises FLIT_PROTOCOL. -/
  | flitReceive (t m : Nat) (flit : Bytes)
  /-- MEM_RD (R315): The ingress checks and translates a chiplet read and issues it. -/
  | memRd (t : Nat) (h0 h1 : Word)
  /-- MEM_WR (R315): The ingress checks and translates a chiplet write and issues it. -/
  | memWr (t : Nat) (h0 h1 : Word) (data : Bytes)
  /-- MEM_WR_MASK (R315): The ingress checks and translates a masked line write. -/
  | memWrMask (t : Nat) (h0 h1 : Word) (mask data : Bytes)
  /-- RD_RSP (R315): A chiplet read's data or status returns and is sent under its TAG. -/
  | rdRsp (t tag : Nat)
  /-- WR_RSP (R315): A chiplet write's status is sent once the write is acknowledged. -/
  | wrRsp (t tag : Nat)
  /-- CRD_S (R315): A caching chiplet's read for sharing enters the home as RD_S. -/
  | crdS (t : Nat) (h0 h1 : Word)
  /-- CRD_X (R315): A caching chiplet's read for ownership enters the home as RD_X. -/
  | crdX (t : Nat) (h0 h1 : Word)
  /-- C_UPG (R315): A caching chiplet's upgrade enters the home as UPG. -/
  | cUpg (t : Nat) (h0 h1 : Word)
  /-- C_WB (R315): A chiplet writeback enters the home as WB. -/
  | cWb (t : Nat) (h0 h1 : Word) (data : Bytes)
  /-- C_EVICT (R315): A chiplet eviction notice enters the home as EVICT_CLEAN. -/
  | cEvict (t : Nat) (h0 h1 : Word)
  /-- C_GACK (R315): A chiplet grant acknowledgement enters the home as GRANT_ACK. -/
  | cGack (t : Nat) (h0 h1 : Word)
  /-- SNP_RSP (R314): A chiplet's snoop answer is checked by the home. -/
  | snpRsp (t : Nat) (h0 h1 : Word) (data : Bytes)
  /-- RED_SUBMIT (R319): A chiplet's pot records are checked, bits reserved and records written to the slot, answered by RED_RSP. -/
  | redSubmit (t : Nat) (h0 h1 : Word) (data : Bytes)
  /-- PART_RESET_ACK (R316): The chiplet acknowledges that it has dropped the partition's lines. -/
  | partResetAck (t k : Nat)
  /-- PART_RESET_ACK_TIMEOUT (R316): No PART_RESET_ACK within 20 µs puts the site in FAULT with LINK_LOST. -/
  | partResetAckTimeout (t k : Nat)
  /-- SITE_RESET (R295): A site reset or fault completes accepted writes, absorbs responses, loses caching domains and fails reduction slots. -/
  | siteReset (t code : Nat)
  /-- POWER_PERIOD (R330): At each 10 µs boundary the power manager refills buckets, sets clocks and adjusts site caps. -/
  | powerPeriod (r : PowerReadings)
  /-- VOLTAGE_SETTLED (R336): A rail reaches its new voltage, and a raised clock follows. -/
  | voltageSettled (k : Nat)
  /-- REGULATOR_FAULT (R343): A regulator misses its voltage within the latest time, and its partition enters FAULT. -/
  | regulatorFault (k : Nat)
  /-- PWR_CTL_FIXED (R333): A write setting or clearing FIXED is checked against refills and seals. -/
  | pwrCtlFixed (fn : Nat) (v : Word)
  /-- PART_ALLOC_WRITE (R333): A write of a partition's allocation is checked against seal and takes effect at the next boundary. -/
  | partAllocWrite (fn p : Nat) (v : Word)
  /-- SITE_RELEASE (R338): SITE_RELEASE releases a site cap held at 0. -/
  | siteRelease (fn : Nat) (v : Word)
  /-- THERMAL_TRIP (R492): THERMTRIP# asserts, island clocks stop, site credits are withheld and the stacks enter self-refresh. -/
  | thermalTrip
  /-- FLR (R351): An Initiate FLR stops the function's DMA, clears its mailboxes and zeroises its keys. -/
  | flr (fn : Nat)
  /-- FLR_DONE (R351): The FLR finishes and configuration requests are answered normally. -/
  | flrDone (fn : Nat)
  /-- POWER_STATE_CHANGE (R349): A function enters D0, D1 or D3hot, pausing or resuming its channels. -/
  | powerStateChange (fn d : Nat)
  /-- HOST_LINK_RESET (R351): A hot reset or DL_Down acts as an FLR of all 17 functions, followed by link training. -/
  | hostLinkReset
  /-- LINK_UP (R476): The endpoint completes training and reaches DL_Up. -/
  | linkUp (rate width : Nat) (flit : Bool)
  /-- DMA_ASSIGN (R352): A DMA_ASSIGN write assigns an OFF channel to a function and sets its page OWNER. -/
  | dmaAssign (fn c : Nat) (v : Word)
  /-- DMA_TAIL (R354): A write of DMA_TAIL announces DMA descriptors. -/
  | dmaTail (fn c tail : Nat)
  /-- H2D (R357): A channel moves host data into device memory, decrypting and hashing as asked. -/
  | h2d (c : Nat) (host : List (Nat × Byte))
  /-- D2H (R355): A channel moves device data to host memory. -/
  | d2h (c : Nat) (host : List (Nat × Byte))
  /-- IMM (R355): A channel writes an immediate 64-bit value to device memory. -/
  | imm (c : Nat) (host : List (Nat × Byte))
  /-- HOST_COMPLETION (R363): A host read completion arrives, possibly UR, CA or poisoned. -/
  | hostCompletion (c : Nat) (kind : HostError)
  /-- CPL_TIMEOUT (R363): A host request times out and the channel enters FAULT. -/
  | cplTimeout (c : Nat)
  /-- DMA_CTL_STRICT (R365): A write of DMA_CTL.STRICT switches the channels to the fixed frame or back. -/
  | dmaCtlStrict (fn : Nat) (v : Word)
  /-- IDE_FAULT (R367): An IDE integrity check fails and IDE_CHECK is recorded. -/
  | ideFault (stream : Nat)
  /-- LOAD_KEY (R361): The tenant's command places a key LIVE in the lowest free slot with a new GEN. -/
  | loadKey (fn : Nat)
  /-- RETIRE_KEY (R362): The tenant's command makes a slot RETIRING. -/
  | retireKey (fn : Nat)
  /-- KEY_SLOT_FREED (R362): When the outstanding count reaches zero, the key is zeroised, the slot freed and the response sent. -/
  | keySlotFreed (k i : Nat)
  /-- PART_CMD_ENABLE (R372): PART_CMD ENABLE takes an OFF partition to SCRUBBING. -/
  | partCmdEnable (fn k : Nat)
  /-- PART_CMD_DISABLE (R372): PART_CMD DISABLE takes a READY partition to OFF. -/
  | partCmdDisable (fn k : Nat)
  /-- PART_CMD_ASSIGN (R372): PART_CMD ASSIGN takes a READY partition to ASSIGNED. -/
  | partCmdAssign (fn k : Nat)
  /-- PART_CMD_RESET (R427): PART_CMD RESET closes the locks, aborts jobs, kills contexts and sends PART_RESET. -/
  | partCmdReset (fn k : Nat)
  /-- PARTITION_RESET_DRAINED (R427): When the last outbound write is acknowledged, the adapters are held in reset and the context counters zeroed. -/
  | partitionResetDrained (k : Nat)
  /-- PARTITION_RESET_COMPLETE (R427): Directories are cleared, islands reset and contexts freed, and the partition leaves RESETTING. -/
  | partitionResetComplete (k : Nat)
  /-- PART_CMD_RELEASE (R389): PART_CMD RELEASE starts a scrub with its drain phase. -/
  | partCmdRelease (fn k : Nat)
  /-- SCRUB_DRAIN_END (R389): The scrub's drain ends at T_S, and the fixed phase starts the zero fills and clears. -/
  | scrubDrainEnd (k : Nat)
  /-- SCRUB_DONE (R389): The fixed phase ends at T_S + 45 ms, and the partition becomes READY. -/
  | scrubDone (k : Nat) (writesOk : Bool)
  /-- SEAL (R376): SEAL limits the operator, drops foreign translations and fences F0 DMA. -/
  | sealCmd (fn : Nat)
  /-- SEAL_COMPLETE (R376): After the drains, the partition is SEALED, an audit entry is written, the response is sent and sessions end. -/
  | sealComplete (k : Nat)
  /-- UNSEAL (R372): UNSEAL returns a SEALED partition to ASSIGNED and clears SEAL_HELD. -/
  | unsealCmd (fn : Nat)
  /-- EXTEND (R381): EXTEND extends a measurement register with a value. -/
  | extend (fn : Nat)
  /-- GET_VERSION (R383): The SPDM responder answers GET_VERSION. -/
  | getVersion (fn : Nat)
  /-- GET_CAPABILITIES (R383): The SPDM responder answers GET_CAPABILITIES. -/
  | getCapabilities (fn : Nat)
  /-- NEGOTIATE_ALGORITHMS (R383): The SPDM responder negotiates algorithms. -/
  | negotiateAlgorithms (fn : Nat) (asym hash dhe aead : Nat)
  /-- GET_DIGESTS (R383): The SPDM responder returns certificate digests. -/
  | getDigests (fn : Nat)
  /-- GET_CERTIFICATE (R385): The SPDM responder returns the slot 0 certificate chain. -/
  | getCertificate (fn slot offset len : Nat)
  /-- CHALLENGE (R383): The SPDM responder answers a CHALLENGE. -/
  | challenge (fn slot : Nat) (nonce : Bytes)
  /-- GET_MEASUREMENTS (R387): The responder takes a snapshot and returns the AK-signed attestation report. -/
  | getMeasurements (fn index : Nat) (nonce : Bytes)
  /-- KEY_EXCHANGE (R384): The responder starts a session, requiring mutual authentication when the partition is SEALED. -/
  | keyExchange (fn : Nat) (share : Bytes)
  /-- FINISH (R384): The responder completes a session, verifying TENANT_KEY where required. -/
  | finish (fn : Nat) (verify sig : Bytes)
  /-- KEY_UPDATE (R383): The responder updates session keys. -/
  | keyUpdate (fn op : Nat)
  /-- HEARTBEAT (R383): The responder answers a session heartbeat. -/
  | heartbeat (fn : Nat)
  /-- END_SESSION (R383): The responder ends the session. -/
  | endSession (fn : Nat)
  /-- VENDOR_DEFINED_REQUEST (R383): Session application data carrying partition or key commands reaches the secure mailbox. -/
  | vendorDefinedRequest (fn vendor : Nat) (payload : Bytes)
  /-- QUERY (R386): IDE_KM QUERY on F0's session. -/
  | query (fn : Nat)
  /-- KEY_PROG (R386): IDE_KM KEY_PROG programs an IDE key set. -/
  | keyProg (fn stream set : Nat) (key : Bytes)
  /-- K_SET_GO (R386): IDE_KM K_SET_GO activates a key set. -/
  | kSetGo (fn stream set : Nat)
  /-- K_SET_STOP (R386): IDE_KM K_SET_STOP stops a key set. -/
  | kSetStop (fn stream set : Nat)
  /-- GET_NONCE (R398): The security core returns a fresh 32-byte nonce that replaces the earlier one. -/
  | getNonce
  /-- LC_TRANSITION (R401): A signed transition request is checked and written as an intent row for the next reset. -/
  | lcTransition (rowIntact : Bool)
  /-- INSTALL_OWNER_KEY (R400): A signed command installs an owner key, consuming a count. -/
  | installOwnerKey (fuseOk : Bool)
  /-- RAISE_SEC_VERSION (R400): A signed command raises the fused security version. -/
  | raiseSecVersion (fuseOk : Bool)
  /-- SET_ADMISSION_LIST (R303): A signed command installs the staged chiplet admission list. -/
  | setAdmissionList (fuseOk flashOk : Bool)
  /-- SET_GEOMETRY (R400): A signed command sets PART_AVAIL for the next reset. -/
  | setGeometry (fuseOk : Bool)
  /-- RAISE_DEBUG_EPOCH (R407): A signed command raises the epoch and drops stale certificates. -/
  | raiseDebugEpoch (fuseOk : Bool)
  /-- INSTALL_DEBUG_CERT (R405): The staged certificate is verified and installed in a free slot. -/
  | installDebugCert (flashOk : Bool)
  /-- REMOVE_DEBUG_CERT (R405): A certificate slot is freed at once. -/
  | removeDebugCert (flashOk : Bool)
  /-- CLEAR_AUDIT (R455): A signed command zeroes audit entries below UPTO and moves the base. -/
  | clearAudit
  /-- STAGE_DATA (R399): Data is written into the 2 KiB staging buffer. -/
  | stageData
  /-- ERROR_REPORT (R413): The collector folds a report into its key's entry or creates a new entry with NEW_KEY. -/
  | errorReport (badParity : Bool)
  /-- COLL_CLEAR (R415): COLL_CLEAR frees one or every collector entry. -/
  | collClear (fn : Nat) (v : Word)
  /-- HANG (R418): A descriptor older than HANG_MS is recorded as a hang, and its context is aborted if HANG_ABORT is set. -/
  | hang (k x q waitPage : Nat)
  /-- TEARDOWN_STUCK (R421): A dead context's counter not at zero after 10 ms is recorded as TEARDOWN_STUCK. -/
  | teardownStuck (k x : Nat)
  /-- JOB_ABORT_CMD (R423): The OPERATOR's command triggers an abort of a job. -/
  | jobAbortCmd (fn j : Nat)
  /-- JOB_ABORT (R424): A trigger at the job table broadcasts a job abort that aborts member contexts and resets the job's global barriers. -/
  | jobAbort (j : Nat)
  /-- DEV_RESET (R428): DEV_RESET with CONFIRM starts the whole-device reset sequence. -/
  | devReset (fn : Nat) (v : Word)
  /-- DEVICE_RESET_DRAINED (R428): Once outbound writes and the write-combining buffers have drained, the dump is written and the islands reset. -/
  | deviceResetDrained
  /-- WDOG_TUINER (R429): A missed watchdog kick dumps and restarts the management cores, or resets the whole device on a second expiry. -/
  | wdogTuiner (second : Bool)
  /-- DUMP_ACK (R432): DUMP_ACK frees crash dump slots. -/
  | dumpAck (fn : Nat) (v : Word)
  /-- PERST_ASSERT (R487): A falling PERST# after PWR_OK starts a whole-device reset. -/
  | perstAssert (cut : Bool)
  /-- PERST_RELEASE (R476): The release of PERST# starts link training and lets bring-up continue. -/
  | perstRelease
  /-- POWER_LOSS (R488): VIN_HUB below 1.65 V for over 1 µs holds every island in reset as at power-off. -/
  | powerLoss (cut : PowerCut)
  /-- SYSCLK_STOP (R491): SYSCLK stopped for over 2 µs holds every island in reset without a drain. -/
  | sysclkStop
  /-- SYSCLK_RETURN (R491): When SYSCLK returns, the ROM starts as at power-on. -/
  | sysclkReturn
  /-- SITE_RAIL_LOST (R489): A site rail leaving its range puts an ADMITTED site in FAULT with LINK_LOST. -/
  | siteRailLost (t : Nat)
  /-- RAIL_LOST (R489): An HBM rail leaving its range puts the controller in FAULT. -/
  | railLost (m : Nat)
  /-- TRAINING_FAIL (R486): Stack rails not in range within 1 s of training put the controller in FAULT. -/
  | trainingFail (m : Nat)
  /-- ENTDAA (R436): The I3C target takes part in dynamic address assignment once its PID is complete. -/
  | entdaa (da : Nat)
  /-- RSTDAA (R435): The I3C target drops its dynamic address. -/
  | rstdaa
  /-- ENEC (R440): The I3C target enables in-band interrupts. -/
  | enec
  /-- DISEC (R435): The I3C target disables in-band interrupts. -/
  | disec
  /-- SETMWL (R435): The I3C target sets its maximum write length. -/
  | setmwl (n : Nat)
  /-- SETMRL (R435): The I3C target sets its maximum read length. -/
  | setmrl (n : Nat)
  /-- GETMWL (R435): The I3C target returns its maximum write length. -/
  | getmwl
  /-- GETMRL (R435): The I3C target returns its maximum read length. -/
  | getmrl
  /-- GETPID (R436): The I3C target returns its provisional ID. -/
  | getpid
  /-- GETBCR (R436): The I3C target returns its BCR. -/
  | getbcr
  /-- GETDCR (R436): The I3C target returns its DCR. -/
  | getdcr
  /-- GETSTATUS (R435): The I3C target returns its status. -/
  | getstatus
  /-- STATUS (R439): The I3C private command returns 16 bytes of package status. -/
  | status
  /-- IDENT (R439): The I3C private command returns DEV_IDENT and UNIT_ID. -/
  | ident
  /-- THERMAL (R439): The I3C private command returns thermal readings. -/
  | thermal
  /-- POWER (R439): The I3C private command returns power readings. -/
  | power
  /-- MBX_WRITE (R438): The I3C command writes bytes into the I3C staging buffer. -/
  | mbxWrite (off : Nat) (data : Bytes) (badParity : Bool)
  /-- MBX_SEND (R446): The I3C command copies the staging buffer into F0's secure mailbox and sends it. -/
  | mbxSend (pcieSameCycle : Bool)
  /-- MBX_READ (R438): The I3C command reads the response of F0's secure mailbox. -/
  | mbxRead
  /-- MBX_STAT (R438): The I3C command reads MBX_STAT of F0's secure mailbox. -/
  | mbxStat
  /-- MBX_ACK (R438): The I3C command acknowledges the response and returns the mailbox to IDLE. -/
  | mbxAck
  /-- UNKNOWN_I3C_COMMAND (R438): An unlisted code, or a read with no command, returns one byte 0xFF. -/
  | unknownI3cCommand (code : Option Byte)
  /-- REC_STATUS (R470): The I3C recovery command returns the recovery mode, cause and load state. -/
  | recStatus
  /-- REC_RESET (R470): The I3C recovery command triggers a whole-device reset where legal. -/
  | recReset (b : Byte)
  /-- IBI (R440): The I3C target raises an in-band interrupt at a bus-free condition, retrying after a lost arbitration. -/
  | ibi (won : Bool)
  /-- SEND (R443): MBX_CTL.SEND moves an IDLE mailbox to FULL and interrupts the receiver. -/
  | send (fn : Nat) (sec : Bool)
  /-- MBX_TAKE (R443): The receiver takes a FULL message, and the mailbox becomes TAKEN. -/
  | mbxTake (sec : Bool) (f : Nat)
  /-- MBX_RESPONSE (R443): The receiver writes the response, and the mailbox becomes RESP_READY. -/
  | mbxResponse (sec : Bool) (f : Nat)
  /-- ACK (R443): MBX_CTL.ACK returns a RESP_READY mailbox to IDLE. -/
  | ack (fn : Nat) (sec : Bool)
  /-- MBX_TIMEOUT (R444): A FULL mailbox not taken in time is withdrawn and returned to IDLE. -/
  | mbxTimeout (sec : Bool) (f : Nat)
  /-- TRIGGER_ENABLE (R451): Setting a trigger's EN writes a CONFIG entry describing it. -/
  | triggerEnable (fn t : Nat) (v : Word)
  /-- RECORDER_FENCE (R454): EVR_FENCE.GO starts a fence of the recorder's pending events. -/
  | recorderFence (fn : Nat)
  /-- FENCE_DONE (R454): Earlier events are written or counted, and EPOCH advances. -/
  | fenceDone
  /-- EVR_CLEAR (R453): EVR_CLEAR zeroes the general part and writes the audit and CONFIG entries. -/
  | evrClear (fn : Nat)
  /-- AUDIT_MIRROR (R456): Tuiner mirrors audit entries to flash and advances AUDIT_MIRRORED. -/
  | auditMirror
  /-- SECONDS_SAVE (R449): The security core saves operating time to flash every 60 s. -/
  | secondsSave
  /-- CVU_OPEN (R459): CVU_CMD OPEN loads the running value and feeds the alive counter. -/
  | cvuOpen (fn u : Nat)
  /-- CVU_CLOSE (R459): CVU_CMD CLOSE finishes the value and compares it, updating RESULT and ALIVE. -/
  | cvuClose (fn u : Nat)
  /-- CVU_FEED (R460): CVU_FEED feeds bytes of CVU_DATA into the running value. -/
  | cvuFeed (fn u : Nat) (v : Word)
  /-- CVU_ASSIGN (R461): CVU_ASSIGN assigns a unit to a function while no block is open. -/
  | cvuAssign (fn u : Nat) (v : Word)
  /-- CVU_RUN_WRITE (R461): A write to CVU_RUN or CVU_ALIVE is accepted only while no block is open. -/
  | cvuRunWrite (fn u : Nat) (alive : Bool) (v : Word)
  /-- IMG_BEGIN (R468): IMG_BEGIN erases the image region and opens a load. -/
  | imgBegin (flashOk : Bool)
  /-- IMG_CHUNK (R468): IMG_CHUNK writes image data to flash at the next offset. -/
  | imgChunk (flashOk : Bool)
  /-- IMG_COMMIT (R468): IMG_COMMIT reads the region back and checks the image. -/
  | imgCommit
  /-- BOOT_STATUS (R482): Tuiner returns the bring-up phase and training paths. -/
  | bootStatus (f : Nat)
  /-- FORCE_FULL_TRAINING (R482): Tuiner discards the named training records. -/
  | forceFullTraining (f : Nat)
  /-- BAD_PAGES_BEGIN (R482): Tuiner starts a new bad-page list. -/
  | badPagesBegin (f : Nat)
  /-- BAD_PAGES_APPEND (R482): Tuiner appends pages to the bad-page list. -/
  | badPagesAppend (f : Nat)
  /-- BAD_PAGES_COMMIT (R482): Tuiner writes the bad-page list to flash. -/
  | badPagesCommit (f : Nat)
  /-- SHUTDOWN (R482): Tuiner saves operating time, tables, field map and audit mirror, then answers. -/
  | shutdown (f : Nat)
  /-- BOOT_CONFIG_READ (R483): Tuiner returns the boot configuration record. -/
  | bootConfigRead (f : Nat)
  /-- BOOT_CONFIG_WRITE (R483): Tuiner checks and stores a new boot configuration for the next reset. -/
  | bootConfigWrite (f : Nat)
  /-- WATCHDOG_KICK (R429): Tuiner kicks the security core's watchdog, restarting its 1 s interval. -/
  | watchdogKick
  /-- PWR_OK_FALL (R492): PWR_OK falls, which releases a latched THERMTRIP# and begins the orderly power-down of R488. -/
  | pwrOkFall
  /-- RAIL_RESTORED (R489): A removed or out-of-range HBM or site rail returns to its range, ending the hold in reset that the rail's absence imposed. -/
  | railRestored (site : Bool) (i : Nat)
  /-- CONFIGURATION_WRITE (R347): A host configuration write changes a function's Interrupt Disable, PME_En or Device Control settings, which can raise or drop the INTA wire. -/
  | configurationWrite (fn : Nat) (w : CfgWrite)
  /-- PME_TURN_OFF (R350): The host's PME_Turn_Off message takes the link to L2 ahead of D3cold. -/
  | pmeTurnOff
deriving DecidableEq, Repr

end Sys2Proof
end

