-- ==== Sys2Proof/Decode.lean ====
section
/-!
DEFINITION. Commands as words of the opcode table.  The table gives no row bits, so no word spells a command.
-/

namespace Sys2Proof

/-- The command that a word spells by the bits of spec/opcode_table.json: the table gives none. -/
def decodeTableWord (_nbits _w : Nat) : Option Instr := none

end Sys2Proof
end

