-- ==== Sys2Proof/Config.lean ====
section
/-!
DEFINITION. What one implementation fixes and the spec does not give, and the free values.  Every constant
here is opaque: no proof can see a value of it, so a claim that holds, holds whatever the value is.
-/

namespace Sys2Proof

/-- A value the spec leaves open, drawn afresh: the model applies it to `State.free`, which it advances
(log entry 7). -/
opaque Config.freeWord : Nat → Word

/-- A run of bytes the spec leaves open: draw number, then length (log entry 7). -/
opaque Config.freeBytes : Nat → Nat → Bytes

/-- The VENDOR key in security-core ROM (R2, R397; log entry 9). -/
opaque Config.vendorKey : Bytes

/-- The alias key AK, derived from the unit secret of the unit, the image digest and the security version
(R385; log entry 9). -/
opaque Config.deriveAk : Word → Bytes → Nat → Bytes

/-- An SPDM message the spec gives no bytes for: request code, function, payload (R383; log entry 9). -/
opaque Config.spdmBytes : Nat → Nat → Bytes → Bytes

/-- The secrets of a session's key exchange (R383; log entry 9): function, the requester's share, draw. -/
opaque Config.sessionSecret : Nat → Bytes → Nat → Bytes

/-- Whether the requester's FINISH verifies the handshake (R384; log entry 9): session secret, verify
data. -/
opaque Config.finishVerify : Bytes → Bytes → Bool

/-- What Tuiner holds as the ROM check value of a hub stepping (R479): stepping. -/
opaque Config.romCheckValue : Nat → Word

/-- The rise in tenths of a degree that the fused thermal coefficients predict at a point from the measured powers
(R329): point, powers. -/
opaque Config.thermalRise : Nat → List Nat → Int

/-- The neighbours of a temperature sensor (R329; log entry 7): point. -/
opaque Config.neighbours : Nat → List Nat

/-- Which entry a full translation structure gives up (R174; log entry 11): draw, entries. -/
opaque Config.tlbVictim : Nat → Nat → Nat

/-- How a line picks its set of the manifest cache slice: level, page number (R174; log entry 11). -/
opaque Config.sliceSet : Nat → Nat → Nat

/-- How an entry picks its set of the walk cache: level, index (R174; log entry 11). -/
opaque Config.walkSet : Nat → Nat → Nat

/-- How a line picks its set of a cluster cache: line number (R89; log entry 13). -/
opaque Config.cacheSet : Nat → Nat

/-- How a line picks its set of a home's directory: line number (R273; log entry 13). -/
opaque Config.dirSet : Nat → Nat

/-- Which line a full set of a cluster cache gives up: draw, ways (R89, R272; log entry 13). -/
opaque Config.cacheVictim : Nat → Nat → Nat

/-- The activates after which a stack asks for refresh management of a bank: stack (R206). -/
opaque Config.rfmThreshold : Nat → Nat

/-- How many packets beyond the first a pool of a stop's buffer holds: node, ring (R244; log entry 35). -/
opaque Config.poolDepth : Nat → Nat → Nat

/-- Which neighbour a log2 or an rsqrt of ARITH_VER 2 is rounded to (R72): function, output format, and the
operand's sign, magnitude and exponent. -/
opaque Config.faithfulUp : Nat → Nat → Bool → Nat → Int → Bool

/-- Bytes of the sections of a crash dump whose form the spec does not give (R431): dump number, offset. -/
opaque Config.dumpByte : Nat → Nat → Byte

end Sys2Proof
end

