-- ==== Sys2Proof/Machine/Bits.lean ====
section
/-!
DEFINITION. Bit fields of a register word, and words laid out as little-endian bytes (R6).
-/

namespace Sys2Proof.Machine

/-- The field of `n` bits of `w` whose lowest bit is bit `lo`, as a number. -/
def fld (w : Word) (lo n : Nat) : Nat := (w.toNat >>> lo) % 2 ^ n

/-- Bit `i` of `w`. -/
def bit (w : Word) (i : Nat) : Bool := w.getLsbD i

/-- A register word with the bits of a field, `n` bits from bit `lo`, set to 1. -/
def fldMask (lo n : Nat) : Word := BitVec.ofNat 64 ((2 ^ n - 1) <<< lo)

/-- `w` with the field of `n` bits from bit `lo` replaced by `v` modulo `2 ^ n`. -/
def setFld (w : Word) (lo n v : Nat) : Word :=
  (w &&& ~~~(fldMask lo n)) ||| BitVec.ofNat 64 ((v % 2 ^ n) <<< lo)

/-- `w` with bit `i` set to `b`. -/
def setBit (w : Word) (i : Nat) (b : Bool) : Word := setFld w i 1 b.toNat

/-- A word with bit `i` alone set. -/
def bitW (i : Nat) : Word := BitVec.ofNat 64 (1 <<< i)

/-- The number `v` as a register word. -/
def w64 (v : Nat) : Word := BitVec.ofNat 64 v

/-- The field value `v` placed at bit `lo`. -/
def at' (lo v : Nat) : Word := BitVec.ofNat 64 (v <<< lo)

/-- The number of ones among the low `n` bits of `m`. -/
def popCount (m n : Nat) : Nat := (List.range n).countP fun i => m.testBit i

/-- The numbers below `n` whose bit is set in `m`, rising. -/
def bitsOf (m n : Nat) : List Nat := (List.range n).filter fun i => m.testBit i

/-- The number whose bits are the members of `l`. -/
def maskOf (l : List Nat) : Nat := l.foldl (fun m i => m ||| (1 <<< i)) 0

/-- The number that the bytes spell, byte 0 least significant (R6). -/
def bytesNat : Bytes → Nat
  | [] => 0
  | b :: t => b.toNat + 256 * bytesNat t

/-- The number `v` as `n` bytes, byte 0 least significant (R6). -/
def natBytes (v : Nat) : Nat → Bytes
  | 0 => []
  | n + 1 => BitVec.ofNat 8 v :: natBytes (v / 256) n

/-- A register word as eight bytes (R6). -/
def wordBytes (w : Word) : Bytes := natBytes w.toNat 8

/-- The word that the first eight bytes spell (R6); missing bytes are zero. -/
def bytesWord (b : Bytes) : Word := BitVec.ofNat 64 (bytesNat (b.take 8))

/-- The words that a run of bytes spells, eight bytes each; `n` words. -/
def bytesWords (b : Bytes) : Nat → List Word
  | 0 => []
  | n + 1 => bytesWord b :: bytesWords (b.drop 8) n

/-- `n` zero bytes. -/
def zeroBytes (n : Nat) : Bytes := List.replicate n 0

/-- Bytes `off` to `off + n - 1` of a message, zero where the message is shorter. -/
def slice (b : Bytes) (off n : Nat) : Bytes :=
  let t := (b.drop off).take n
  t ++ zeroBytes (n - t.length)

/-- The number in `n` little-endian bytes of a message from byte `off`. -/
def leAt (b : Bytes) (off n : Nat) : Nat := bytesNat (slice b off n)

/-- `b` padded with zeros, or cut, to `n` bytes. -/
def fitBytes (b : Bytes) (n : Nat) : Bytes := slice b 0 n

/-- `b` with the bytes of `d` placed from byte `off`. -/
def putBytes (b : Bytes) (off : Nat) (d : Bytes) : Bytes :=
  fitBytes b off ++ d ++ b.drop (off + d.length)

/-- Replace element `i` of a list; the list is unchanged where it has no element `i`. -/
def upd {α : Type} (l : List α) (i : Nat) (v : α) : List α := l.set i v

/-- The smallest `d` with `d * b ≥ a`. -/
def ceilDiv (a b : Nat) : Nat := (a + b - 1) / b

end Sys2Proof.Machine
end

