-- ==== Sys2Proof/Machine/State.lean ====
section
/-!
DEFINITION. The state of the package: every register, memory, queue and mode the spec gives it, as plain
data, the reasons a step can stop, and the state before the first rise of PWR_OK.
-/

namespace Sys2Proof.Machine

/-- Why the machine stops with a fault. -/
inductive Fault where
  /-- Raised by a memory controller asked for a device physical address that R167 reserves: no such memory
  exists.  Safe: the machine stops. -/
  | reservedAddress
deriving DecidableEq, Repr

/-- Why a command has no meaning. -/
inductive Refusal where
  /-- Raised by an arm of `exec` whose command has no meaning yet.  Safe: the machine stops. -/
  | notModelled (mnemonic : String)
deriving DecidableEq, Repr

/-- The block types of R43. -/
inductive Block where
  | devinfo | lc | sec | pwr | err | evr | i3c | pcie | mbx | cvu | dma | manifest | partition | cluster
  | sweep | mc | quay | ring | site
deriving DecidableEq, Repr

/-- One row of a register table: `count` registers `stride` bytes apart from `base`, each of `count2` words
`stride2` bytes apart, with the masks of its RW, RWL and W1C bits, and whether a read clears it (R9). -/
structure RegRow where
  base : Nat
  count : Nat
  stride : Nat
  count2 : Nat
  stride2 : Nat
  rw : Nat
  rwl : Nat
  w1c : Nat
  rc : Bool
deriving DecidableEq, Repr


/-- One configuration-space of a function (R345, R347, R350, R363). -/
structure CfgFn where
  intDisable : Bool
  pmeEn : Bool
  pmeStatus : Bool
  relaxed : Bool
  maxPayload : Nat
  maxRead : Nat
  cplTimeout : Nat
deriving DecidableEq, Repr

/-- One IDE stream: the keys of its two sets and the set in force (R386). -/
structure IdeStream where
  keys : List Bytes
  active : Option Nat
deriving DecidableEq, Repr

/-- The PCIe endpoint beside its registers (R344 to R351). -/
structure Pcie where
  cfg : List CfgFn
  wire : Bool
  levels : Nat
  link : Bool
  l2 : Bool
  d3cold : Bool
  recovery : Bool
  ide : List IdeStream
deriving DecidableEq, Repr

/-- A report that waits at its source (R412): the page index of the unit that failed, of the block that
detected the error, its code, shared status, class, context and count. -/
structure Report where
  origin : Nat
  reporter : Nat
  code : Nat
  status : Nat
  cls : Nat
  ctx : Option Nat
  count : Nat
deriving DecidableEq, Repr

/-- One crash dump (R431): its slot, cause, DEV_IDENT, tick, whether it was written whole, and the registers and collector
entries it shows. -/
structure Dump where
  slot : Nat
  cause : Nat
  ident : Word
  tick : Nat
  whole : Bool
  regs : List (Nat × Word)
  coll : List (List Word)
deriving DecidableEq, Repr

/-- The error collector and the job table's triggers (R412 to R424, R428, R429); `stuck` holds the contexts, by partition and
local number, whose teardown is stuck (R421). -/
structure Err where
  reports : List Report
  dumps : List Dump
  jobTriggers : List (Nat × Nat × Nat)
  stuck : List (Nat × Nat)
  wdogTick : Option Nat
  wdogBoots : Nat
  resetting : Option Nat
  dumpWanted : Bool
deriving DecidableEq, Repr

/-- One entry of the event recorder: its eight words (R449). -/
abbrev Entry := List Word

/-- The event recorder beside its registers (R448 to R456): the general part, the audit part by sequence
number, the mirror in flash and the saved operating time. -/
structure Evr where
  gen : List Entry
  audit : List (Nat × Entry)
  fence : Bool
  seconds : Nat
  mirror : List (Nat × Entry)
  mirrorBase : Nat
  savedSeconds : Nat
deriving DecidableEq, Repr

/-- A response that waits to be written into a mailbox (R443): the page, the function, and the 256 bytes. -/
structure Pending where
  sec : Bool
  fn : Nat
  bytes : Bytes
deriving DecidableEq, Repr

/-- The I3C target beside its page (R435 to R440). -/
structure I3c where
  staging : Bytes
  last : Option Byte
  ibis : List Byte
  mwl : Nat
  mrl : Nat
deriving DecidableEq, Repr

/-- One commit row of the fuses (R402). -/
structure CommitRow where
  target : Nat
  targetN : Nat
  tag : Bytes
  void : Bool
  done : Bool
deriving DecidableEq, Repr

/-- A defect map (R463, R478): the factory map in the fuses, or the field map of the flash.  `halves` names the halves of site
modules that are lost (R299), `spares` the groups of bit lanes that have taken a spare, once for each (R263). -/
structure FieldMap where
  cores : List Nat
  engines : List Nat
  cacheBanks : List (Nat × Nat)
  quayBanks : List (Nat × Nat)
  links : List Nat
  modules : List (Nat × Nat)
  halves : List (Nat × Nat × Nat)
  spares : List Nat
deriving DecidableEq, Repr

/-- The fuses: what each die and the security core record for good (R25, R48, R402, R400, R478). -/
structure Fuse where
  hubStep : Nat
  baseStep : Nat
  hubArith : Nat
  baseArith : Nat
  hubReads : Bool
  baseReads : Bool
  unitId : Word
  rows : List CommitRow
  tokens : Nat
  ownerKeys : List Bytes
  ownerKeyUsed : Nat
  secVersion : Nat
  secVersionUsed : Nat
  admitDigests : List Bytes
  admitUsed : Nat
  geometry : Nat
  geometryUsed : Nat
  debugEpoch : Nat
  debugEpochUsed : Nat
  badCores : List Nat
  badEngines : List Nat
  factory : FieldMap
deriving DecidableEq, Repr

/-- One intent row of the flash (R401). -/
structure Intent where
  tag : Nat
  pwrCycles : Nat
  request : Bytes
  crc : Nat
deriving DecidableEq, Repr

/-- The SPI flash (R463): the Tuiner image, which training records are good, the field map and whether its
CRC holds, debug certificates by slot, the admission list, the bad-page list, the boot configuration, and
the intent rows.  The audit mirror and operating time stand in `Evr`. -/
structure Flash where
  image : Bytes
  stackRecords : Nat
  siteRecords : Nat
  pcieRecord : Bool
  fieldMap : FieldMap
  fieldMapOk : Bool
  certs : List (Option Bytes)
  admission : Bytes
  badPages : List Nat
  bootConfig : Option Bytes
  intents : List (Option Intent)
deriving DecidableEq, Repr

/-- The balls of the package (R484 to R493). -/
structure Board where
  pwrOk : Bool
  sysclk : Bool
  perst : Bool
  strap : Nat
  hbmRails : Nat
  siteRails : Nat
  thermtrip : Bool
  wake : Bool
deriving DecidableEq, Repr

/-- Where bring-up stands (R472). -/
inductive BootPhase where
  | off | rom | recovery | scrap | settings | training | defects | cores | routes | scrub | ready
deriving DecidableEq, Repr

/-- The firmware working store of the system region (R20, R465, R469, R481): the ROM's copy of the image, and which stacks and
sites have training settings in force.  It outlives every reset short of loss of the 1.8 V input. -/
structure WorkStore where
  image : Bytes
  hbmSet : Nat
  siteSet : Nat
deriving DecidableEq, Repr

/-- Bring-up and firmware (R463 to R483): the phase, the recovery cause, whether this is a warm start, what
was fully trained, the running image with the security versions of it and of the AK (R385), the answers of units to the broadcast (three times the unit, plus the command), the units added to the field map, an image load
that is open, a bad-page list being built, and the working store.  `railFaults` holds the pages of the stacks and sites that
lost a rail in service (R489). -/
structure Boot where
  phase : BootPhase
  cause : Nat
  warm : Bool
  fwIf : Nat
  imageVersion : Nat
  akVersion : Nat
  imageDigest : Bytes
  sensed : Bool
  fullHbm : Nat
  fullSites : Nat
  fullPcie : Bool
  lostRails : Nat
  lostSiteRails : Nat
  railFaults : List Nat
  answered : List Nat
  failedUnits : List Nat
  added : Nat
  endMs : Nat
  loadState : Nat
  loadLen : Nat
  badList : Option (List Nat)
  shutdown : Bool
  holdPerst : Bool
  store : WorkStore
deriving DecidableEq, Repr

/-- A session of a function's SPDM responder (R383, R384). -/
structure Session where
  fn : Nat
  secret : Bytes
  mutualAuth : Bool
  established : Bool
deriving DecidableEq, Repr

/-- The SPDM responder of a function (R383): how far its negotiation has gone. -/
structure Spdm where
  version : Bool
  caps : Bool
  algs : Bool
deriving DecidableEq, Repr

/-- The security core beside its registers (R398, R399, R405). -/
structure Sec where
  nonce : Option Bytes
  stage : Bytes
  certs : List (Option Bytes)
  sessions : List Session
  spdm : List Spdm
deriving DecidableEq, Repr

/-- A key held in a key slot (R360, R361). -/
structure KeyMat where
  part : Nat
  slot : Nat
  key : Bytes
deriving DecidableEq, Repr

/-- Tenancy beside the PARTITION registers (R361, R372, R376, R391, R427): key material, the highest generation ever
loaded per KEY_ID, the RETIRE_KEY responses that wait on a slot, the partitions whose SEAL is under way with what it
carried, the partitions whose scrub has met a write that did not complete, and the tick at which the fixed phase of a
partition's scrub began (R389, R392). -/
structure Tenancy where
  keys : List KeyMat
  gens : List (Nat × Nat)
  retireWaits : List (Nat × Nat)
  sealing : List (Nat × Bytes)
  scrubFail : List Nat
  scrubs : List (Nat × Nat)
deriving DecidableEq, Repr

/-- A DMA channel beside its page (R353 to R363, R460): the plaintext of the open digest, none when it was
discarded, the descriptor in progress with its SEQ, the bytes it has moved, the bytes it has read from its source, the
slot it is bound to, the fault it is held on or waits to record, and the status a resolution has given it. -/
structure Chan where
  digest : Option Bytes
  cur : Option (Nat × List Word)
  moved : Nat
  text : Bytes
  bound : Option Nat
  held : Option Nat
  waiting : Bool
  ended : Option Nat
deriving DecidableEq, Repr

/-- The power manager beside its page (R326 to R339): EU charged in the present period, failed sensors, the
consecutive periods over 520 W, the readings and estimates of the 80 points, the sites whose cap is held at 0, the
partitions whose clocks wait for their voltage, and whether the thermal trip has been decided. -/
structure Power where
  charged : Nat
  failed : List Nat
  overRun : Nat
  reads : List Int
  model : List Int
  stopped : List Nat
  raising : List Nat
  tripDue : Bool
deriving DecidableEq, Repr

/-- An entry of a controller's remap pool (R211 to R213): controller, pseudo-channel, entry number, the row it
replaces and its bank, its reserve row, cause, whether the row had been repaired before, and whether the copy is
complete. -/
structure PoolEntry where
  m : Nat
  pc : Nat
  slot : Nat
  row : Nat
  bank : Nat
  spare : Nat
  cause : Nat
  again : Bool
  valid : Bool
deriving DecidableEq, Repr

/-- An entry of a controller's retire table (R214): controller, device physical page, BLOCKED or SOFT. -/
structure Retired where
  m : Nat
  page : Nat
  blocked : Bool
deriving DecidableEq, Repr

/-- The controllers beside their pages (R196 to R217): remap pools, the repairs queued (controller,
pseudo-channel, entry), reserve rows used per bank, rows hard-repaired at bring-up (controller, pseudo-channel, bank,
row), retire tables in order, corrected errors per row in the present patrol pass, granules in the write-combining
buffers, oldest first, injections armed, activates per bank, refresh commands per pseudo-channel modulo 32, and the
next burst of each patrol. -/
structure Hbm where
  pool : List PoolEntry
  repairs : List (Nat × Nat × Nat)
  spares : List (Nat × Nat)
  hard : List (Nat × Nat × Nat × Nat)
  retired : List Retired
  ce : List (Nat × Nat × Nat)
  wc : List (Nat × Nat)
  inject : List (Nat × Nat × Bool)
  acts : List (Nat × Nat)
  refreshes : List (Nat × Nat)
  patrol : List Nat
deriving DecidableEq, Repr

/-- The quay slices beside their pages (R228, R233, R236): corrected errors per bank since power-on, banks being
replaced, injections armed, the `QUAY_CFG` writes that set STRICT and wait for the drain, and the slices that Tuiner left
OFF at power-on (R229). -/
structure Quay where
  errs : List (Nat × Nat)
  replacing : List (Nat × Nat)
  inject : List (Nat × Nat × Bool)
  strict : List (Nat × Word)
  off : List Nat
deriving DecidableEq, Repr

/-- One leg of a route (R245): the ring (0 to 3 X0 to X3, 4 to 7 Y0 to Y3), whether it goes west or north, the stops
it leaves and reaches, as places in the ring's order. -/
structure Leg where
  ring : Nat
  back : Bool
  src : Nat
  dst : Nat
deriving DecidableEq, Repr

/-- What a packet carries (R241): its number, the units it comes from and goes to, class, PART, the bytes of its one data
transfer, else 0, how many transfers without data, the packet or broadcast that caused it, and whether it is the last answer
to that. -/
structure Parcel where
  id : Nat
  src : FabUnit
  dst : FabUnit
  cls : Traffic
  part : Nat
  bytes : Nat
  count : Nat
  cause : Option Nat
  last : Bool
deriving DecidableEq, Repr

/-- A packet on the fabric (R245): what it carries, the leg it is on, the ring cycle at which it took its slot, and the legs
to come. -/
structure Packet where
  load : Parcel
  leg : Leg
  cycle : Nat
  rest : List Leg
deriving DecidableEq, Repr

/-- A broadcast in flight (R249): its number, source and PART, the copies yet to take a slot (ring, place of the stop, and the
cycle from which one waits), the stops that have their copy, and those whose acknowledgement has arrived. -/
structure Cast where
  id : Nat
  src : FabUnit
  part : Nat
  copies : List (Nat × Nat × Nat)
  got : List Nat
  acked : List Nat
deriving DecidableEq, Repr

/-- The ring fabric beside its pages (R238 to R266): active and shadow deal entries by ring, link, direction and index
(unlisted: IDLE), rings whose commit is pending, the route table by source and destination (unlisted: 0), spares used by
link, lane and group, disabled lanes and down links by ring, link and direction, packets, the requests held at their
sources' ports (R243), requests delivered and not answered, broadcasts in flight, the tokens in bytes of each BEST_EFFORT
regulator that was drawn on, the islands asleep, the next packet number, the ring cycle counter (R251), the slots taken since
it last moved and those ahead of it (link and cycle), the partition last served of a link's shared slots (R253), CRC failures
by bit lane with their tick (R263), and the rings in FAULT until power-on (R266). -/
structure Fab where
  active : List (Nat × Nat)
  shadow : List (Nat × Nat)
  commits : List Nat
  routes : List (Nat × Nat)
  spares : List (Nat × Nat)
  lanesOff : List (Nat × Nat)
  down : List Nat
  packets : List Packet
  ports : List Parcel
  served : List Parcel
  casts : List Cast
  tokens : List (Nat × Nat)
  asleep : List Nat
  nextId : Nat
  clock : Nat
  used : List (Nat × Nat)
  rotate : List (Nat × Nat)
  laneErrs : List (Nat × Nat)
  faulted : List Nat
deriving DecidableEq, Repr

/-- Where a dispatched descriptor stands: to be executed; held on a translation fault record, or waiting for
one (R182); returned to the scheduler by a fence (R99, R137); waiting at a barrier for a generation to pass; waiting for its word; waiting for its reduction
slot. -/
inductive Phase where
  | run
  | held (id : Nat)
  | heldNew
  | returned
  | barrier (gen : Nat)
  | waiting
  | collect
deriving DecidableEq, Repr

/-- A descriptor dispatched and not complete (R120): the partition, the local context, its SEQ, the
requester index of the unit it runs on (R166), its eight words, its phase, and its completion record where
that waits on a translation fault (R501), else empty. -/
structure Work where
  part : Nat
  ctx : Nat
  seq : Nat
  unit : Nat
  desc : List Word
  phase : Phase
  record : List Word
  moved : Nat
deriving DecidableEq, Repr

/-- Why an access of a tile stops (R177, R178): a page faults with a KIND at a level, or data cannot be
corrected. -/
inductive Stop where
  | fault (page kind level : Nat)
  | ue
deriving DecidableEq, Repr

/-- A tile (R178): its first byte, pitch, rows, bytes per row, and the operand it belongs to (R179). -/
structure Tile where
  va : Nat
  pitch : Nat
  rows : Nat
  rowBytes : Nat
  operand : Nat
deriving DecidableEq, Repr

/-- How a translation ends (R177): the physical address, whether the access is coherent, or a fault KIND and
the level it ended at. -/
inductive XRes where
  | ok (pa : Nat) (nc : Bool)
  | fault (kind level : Nat)
deriving DecidableEq, Repr

/-- A leaf translation held by a partition's manifest slice (R174, R190, R192): the first virtual byte it
maps, its level (1 to 3), the leaf entry, the access counter, the hot mark and the pin. -/
structure SliceEntry where
  part : Nat
  va : Nat
  level : Nat
  leaf : Word
  count : Nat
  hot : Bool
  pin : Bool
deriving DecidableEq, Repr

/-- A leaf translation held by a requester's micro-TLB (R174), with the bytes it has served since it last
reported (R192). -/
structure MicroEntry where
  part : Nat
  req : Nat
  va : Nat
  level : Nat
  leaf : Word
  bytes : Nat
deriving DecidableEq, Repr

/-- A non-leaf entry held by a partition's walk cache (R174). -/
structure WalkEntry where
  part : Nat
  va : Nat
  level : Nat
  entry : Word
deriving DecidableEq, Repr

/-- What a translation fault says of itself (R177 to R179). -/
structure FaultInfo where
  part : Nat
  req : Nat
  page : Nat
  level : Nat
  kind : Nat
  write : Bool
  ctx : Nat
  opcode : Nat
  operand : Nat
  seq : Nat
  tileVa : Nat
  pitch : Nat
  rows : Nat
  rowBytes : Nat
deriving DecidableEq, Repr

/-- An open fault record (R179, R180): its number, the fault that made it, the access bits, the requesters
held and merges so far, the ring that was described when it was allocated, and the tick of allocation. -/
structure FaultRec where
  id : Nat
  info : FaultInfo
  read : Bool
  write : Bool
  reqs : Nat
  merged : Nat
  ringBase : Nat
  ringLog : Nat
  tick : Nat
deriving DecidableEq, Repr

/-- An invalidation accepted and not complete (R185 to R187): the partition, the range in bytes (the whole
partition where `len` is 0), its ticket. -/
structure InvCmd where
  part : Nat
  va : Nat
  len : Nat
  ticket : Nat
deriving DecidableEq, Repr

/-- The manifest beside its registers (R165 to R193): the three cache levels, open records and the faults
that wait for one, invalidations in flight, the next ticket of each partition, INV_LAST by partition and
function, the epoch number since partition reset, and the share-window writes, by partition and window, that wait for
accesses to drain, and the MANIFEST pages whose RESET_REQ waits for them, with the ENABLE it was written with. -/
structure Xlat where
  slice : List SliceEntry
  micro : List MicroEntry
  walk : List WalkEntry
  recs : List FaultRec
  waiting : List FaultInfo
  invs : List InvCmd
  tickets : List Nat
  invLast : List (Nat × Nat)
  epochs : List Nat
  shareWaits : List (Nat × Nat × Word)
  resets : List (Nat × Bool)
deriving DecidableEq, Repr

/-- The states of a cached line (R272). -/
inductive LineState where
  | shared | exclusive | modified | evicting
deriving DecidableEq, Repr

/-- A line held by a caching agent: partition, ring position, line number (physical address over 128), state
and the 128 bytes. -/
structure CLine where
  part : Nat
  pos : Nat
  line : Nat
  st : LineState
  data : Bytes
deriving DecidableEq, Repr

/-- A directory entry, with its way of its set (R273). -/
structure DirEntry where
  part : Nat
  line : Nat
  way : Nat
  owned : Bool
  holders : Nat
deriving DecidableEq, Repr

/-- A request a home serves (R274); `evict` is the home's own snoop of a line, for sharing or not: of a displaced entry
(R274), or ahead of an access of a cluster or engine that waits for a chiplet's answer (log entry 37). -/
inductive CohReq where
  | rdS | rdX | upg | rdOnce
  | wrLine (data : Bytes) (hint : Nat)
  | wrPart (mask : Nat) (data : Bytes) (hint : Nat)
  | atomAdd (pa : Nat) (v : Word)
  | evict (shr : Bool)
deriving DecidableEq, Repr

/-- An open transaction (R276, R279, R283): the line, the requester, its request, the snooped agents yet to
answer, those whose notice is in flight, those whose notice came before their answer, the dirty data returned or the
line's bytes once known, whether the snoop is for sharing, its phase (0 snooping, 1 a hinted fill on its way, 3 taken and not acknowledged, 2 granted
or placed), and whether it uses a reserved entry. -/
structure Txn where
  part : Nat
  line : Nat
  pos : Nat
  req : CohReq
  await : Nat
  notices : Nat
  arrived : Nat
  dirty : Option Bytes
  shr : Bool
  phase : Nat
  res : Bool
deriving DecidableEq, Repr

/-- A reserved retry (R277): the credit's line and position, whether the request has come again, and the
request. -/
structure RetryRes where
  part : Nat
  line : Nat
  pos : Nat
  req : CohReq
  back : Bool
deriving DecidableEq, Repr

/-- An answer of a snooped cluster on its way to the home (R274). -/
inductive Answer where
  | miss | clean | dirty (data : Bytes) | inFlight
deriving DecidableEq, Repr

/-- The coherent domains (R267 to R291): cached lines, directories, open transactions in the order they
opened, reserved retries in the order of their credits, the position that last won per partition and home,
answers on their way, notices on their way (with the data of a WB), partitions whose domain is lost, requests that arrive in
one home cycle and are yet to be arbitrated, requests whose position's reserved entry is in use (both: partition, position,
line, request), and the accesses of clusters and engines that lost and wait (partition, position, line; R276, R277). -/
structure Coh where
  lines : List CLine
  dir : List DirEntry
  txns : List Txn
  retries : List RetryRes
  rank : List (Nat × Nat)
  answers : List (Nat × Nat × Nat × Answer)
  flight : List (Nat × Nat × Nat × Option Bytes)
  lost : List Nat
  arrivals : List (Nat × Nat × Nat × CohReq)
  waits : List (Nat × Nat × Nat × CohReq)
  stuck : List (Nat × Nat × Nat)
deriving DecidableEq, Repr

/-- An armed reduction slot (R318 to R321): the partition, the slot, the local context and SEQ that armed it, and
the agents, by site and agent ordinal, that had a submission accepted. -/
structure RedSlot where
  part : Nat
  slot : Nat
  ctx : Nat
  seq : Nat
  agents : List (Nat × Nat)
deriving DecidableEq, Repr

/-- A chiplet's request that the ingress has taken and not answered (R307 to R315): the site, its tag, header
words, data and mask, the partition, the record it is held on, the fault that waits for one, the status it has
ended with, the data it returns, the physical address it has accessed, and whether its denial is yet to be counted. -/
structure SiteReq where
  site : Nat
  tag : Nat
  h0 : Word
  h1 : Word
  data : Bytes
  mask : Bytes
  part : Nat
  held : Option Nat
  waiting : Option FaultInfo
  ended : Option Nat
  resp : Bytes
  pa : Option Nat
  owed : Bool
deriving DecidableEq, Repr

/-- A chiplet site beside its page (R297, R300, R306, R312, R316): the identity words read, SITE_MOD_STAT of
each module, the halves of modules that are lost, the modules that are retraining, the partitions removed by a SITE_ASSIGN
write that has not completed, the partitions whose PART_RESET is not answered, sideband messages discarded, and the link
layer: the last SEQ received in order, the flits held for reordering, the next SEQ to send and the last one the chiplet
acknowledged; `sent` the flits held for replay, by SEQ and the module each was dealt to, `crcErrs` the CRC failures of the
last millisecond, by module and tick, `toSend` the messages that wait for room among the 4,096 flits unacknowledged or for
the end of a scrub (R297, R312, R313), `list` the admission list of its last reset (R303), and `kept` the request credits, by partition, that the ingress has not returned
though the request is answered (R294, R313, R337). -/
structure Site where
  idSeen : List Nat
  modStat : List Word
  lostHalves : List (Nat × Nat)
  retrain : List Nat
  assigning : Option Nat
  resetWait : List Nat
  unknown : Nat
  rxAck : Nat
  rxHeld : List Nat
  txNext : Nat
  txAck : Nat
  sent : List (Nat × Nat)
  crcErrs : List (Nat × Nat)
  toSend : List (String × List Nat × Bytes)
  kept : List Nat
  list : List Bytes
deriving DecidableEq, Repr

/-- What the package sends: what leaves it by a pin, a link or a read. -/
inductive Out where
  | assertInta
  | deassertInta
  | pmPme (fn : Nat)
  | readData (fn off : Nat) (v : Word)
  | i3c (bytes : Bytes)
  | ibi (b : Byte)
  | spdm (fn : Nat) (bytes : Bytes)
  | spdmError (fn : Nat)
  | coh (part pos line : Nat) (msg : String) (data : Bytes)
  | packet (id dst status : Nat)
  | mem (dpa status : Nat) (data : Bytes)
  | site (site : Nat) (msg : String) (fields : List Nat) (data : Bytes)
deriving DecidableEq, Repr

/-- A place whose accesses wait: every stack, in self-refresh at a thermal trip (R492), a row of a bank under repair (R213), a row's pseudo-channels of a controller being filled
(R217), a bank of a slice being replaced (R228), a slice being filled (R235). -/
inductive Hold where
  | stacks
  | row (m pc row bank : Nat)
  | fill (m row : Nat)
  | bank (k bank : Nat)
  | slice (k : Nat)
deriving DecidableEq, Repr

/-- Why a unit's command waits: an access of it is held (R213, R217, R228, R235), or loses to an open transaction of its line
(R276), or must wait for a chiplet's answer to a snoop (R279). -/
inductive Stall where
  | held
  | lost (k pos line : Nat)
  | snoop (k pos line : Nat) (shr : Bool)
deriving DecidableEq, Repr

/-- The whole package.  `regs` is the register file, keyed by the byte address in F0 BAR0; `mem` is device
memory, keyed by device physical address; `hostMem` is host memory, keyed by bus address; `free` counts the
free values drawn (the model's own); `ue` lists the bursts and words of device memory that cannot be
corrected, and `weak` those that carry an error the code corrects, by their first byte; `heldPorts` the requests at the
ports of controllers and slices that wait for a repair, a replacement or a fill, oldest first, with the slice in whose
ring-port queue one stands (R213, R217, R228, R232, R235); `gate` and `stalled`, the model's own, hold within one unit's
command what was held when it began and why it is to wait, and are empty between commands; `fetchHeld` the contexts whose descriptor read is held on a fault (R501); `holds` the context whose next
descriptor the energy bucket did not cover, by partition, with its charge, and `turns` the dispatches each context has
had in the present round of its class, by partition and context (R121); `fencing` the cores being
fenced with cluster, physical core, cause and the tick of detection, `seFencing` the engines; `bankErrs` and `bankMarks` a cluster
cache's corrected errors by bank and the banks marked (R90); `barMarks` the barriers, by partition (16 for the
global ones) and number, that a partition reset has touched since their generation began (R124); `pending` is the queue of commands, first in, first out. -/
structure State where
  regs : List (Nat × Word)
  mem : List Host.Cell
  hostMem : List Host.Cell
  fuse : Fuse
  flash : Flash
  board : Board
  boot : Boot
  pcie : Pcie
  err : Err
  evr : Evr
  mbx : List Pending
  i3c : I3c
  sec : Sec
  ten : Tenancy
  chans : List Chan
  pwr : Power
  work : List Work
  ue : List Nat
  weak : List Nat
  heldPorts : List (Option Nat × Instr)
  gate : Option (List Hold)
  stalled : Option Stall
  hbm : Hbm
  quay : Quay
  fab : Fab
  fetchHeld : List (Nat × Nat × Option Nat)
  holds : List (Nat × Nat × Nat)
  turns : List (Nat × Nat × Nat)
  xlat : Xlat
  coh : Coh
  fencing : List (Nat × Nat × Nat × Nat)
  seFencing : List (Nat × Nat)
  bankErrs : List (Nat × Nat)
  bankMarks : List (Nat × Nat)
  slots : List RedSlot
  barMarks : List (Nat × Nat)
  siteReqs : List SiteReq
  sites : List Site
  out : List Out
  free : Nat
  pending : List Instr
deriving DecidableEq, Repr

/-- A function's configuration space at reset (R344, R345, R363): interrupts enabled, 128-byte payloads,
512-byte read requests, the default completion timeout. -/
def cfgReset : CfgFn := ⟨false, false, false, true, 128, 512, 0⟩

/-- No sessions, nothing negotiated. -/
def spdmReset : Spdm := ⟨false, false, false⟩

/-- A channel with nothing open. -/
def chanReset : Chan := ⟨none, none, 0, [], none, none, false, none⟩

/-- A site before it has trained. -/
def siteReset : Site :=
  ⟨[], List.replicate 16 0, [], [], none, [], 0, 0xFFFF, [], 0, 0xFFFF, [], [], [], List.replicate 16 0, []⟩

/-- An empty field defect map. -/
def fieldMapEmpty : FieldMap := ⟨[], [], [], [], [], [], [], []⟩

/-- The machine before PWR_OK first rises (R486): VIN_HUB is up and SYSCLK stable, every register reads its
reset value, the flash is erased, and the fuses are those of a production part with nothing provisioned
(log entries 4 and 5). -/
def State.reset : State :=
  { regs := []
    mem := []
    hostMem := []
    fuse := ⟨0xB1, 0xA1, 3, 3, true, true, 0, [], 0, [], 0, 0, 0, [], 0, 0xFFFF, 0, 0, 0, [], [], fieldMapEmpty⟩
    flash := ⟨[], 0, 0, false, fieldMapEmpty, true, List.replicate 4 none, [], [], none, List.replicate 8 none⟩
    board := ⟨false, true, false, 0, 0xFF, 0xF, false, false⟩
    boot := ⟨.off, 0, false, 0, 0, 0, [], false, 0, 0, false, 0, 0, [], [], [], 0, 0, 0, 0, none, false, false, ⟨[], 0, 0⟩⟩
    pcie := ⟨List.replicate 17 cfgReset, false, 0, false, false, false, false, List.replicate 3 ⟨[[], []], none⟩⟩
    err := ⟨[], [], [], [], none, 0, none, false⟩
    evr := ⟨[], [], false, 0, [], 0, 0⟩
    mbx := []
    i3c := ⟨List.replicate 256 0, none, [], 256, 256⟩
    sec := ⟨none, [], List.replicate 4 none, [], List.replicate 17 spdmReset⟩
    ten := ⟨[], [], [], [], [], []⟩
    chans := List.replicate 32 chanReset
    pwr := ⟨0, [], 0, List.replicate 80 0, List.replicate 80 0, [], [], false⟩
    work := []
    ue := []
    weak := []
    heldPorts := []
    gate := none
    stalled := none
    hbm := ⟨[], [], [], [], [], [], [], [], [], [], List.replicate 8 0⟩
    quay := ⟨[], [], [], [], []⟩
    fab := ⟨[], [], [], [], [], [], [], [], [], [], [], [], [], 0, 0, [], [], [], []⟩
    fetchHeld := []
    holds := []
    turns := []
    xlat := ⟨[], [], [], [], [], [], List.replicate 16 0, [], List.replicate 16 0, [], []⟩
    coh := ⟨[], [], [], [], [], [], [], [], [], [], []⟩
    fencing := []
    seFencing := []
    bankErrs := []
    bankMarks := []
    slots := []
    barMarks := []
    siteReqs := []
    sites := List.replicate 4 siteReset
    out := []
    free := 0
    pending := [] }

end Sys2Proof.Machine
end

