-- ==== Sys2Proof/Machine/RegMap.lean ====
section
/-!
DEFINITION. The register map: the block each page belongs to (R43), the offsets of the registers, the
values they hold at reset, and which of their bits software writes and how (R9).  The offsets and the
masks are those of the chapters' register tables.
-/

namespace Sys2Proof.Machine

/-- DEVINFO.DEV_IDENT (R47). -/
abbrev Reg.DEV_IDENT : Nat := 0x100
/-- DEVINFO.UNIT_ID (R47). -/
abbrev Reg.UNIT_ID : Nat := 0x108
/-- DEVINFO.PWR_CYCLES (R47). -/
abbrev Reg.PWR_CYCLES : Nat := 0x110
/-- DEVINFO.CALLER (R47). -/
abbrev Reg.CALLER : Nat := 0x118
/-- DEVINFO.OTP_REMAIN_A (R47). -/
abbrev Reg.OTP_REMAIN_A : Nat := 0x120
/-- DEVINFO.OTP_REMAIN_B (R47). -/
abbrev Reg.OTP_REMAIN_B : Nat := 0x128
/-- CLUSTER.L2P_LO (R105). -/
abbrev Reg.L2P_LO : Nat := 0x100
/-- CLUSTER.L2P_HI (R105). -/
abbrev Reg.L2P_HI : Nat := 0x108
/-- CLUSTER.CORE_STATE_LO (R105). -/
abbrev Reg.CORE_STATE_LO : Nat := 0x110
/-- CLUSTER.CORE_STATE_HI (R105). -/
abbrev Reg.CORE_STATE_HI : Nat := 0x118
/-- CLUSTER.FAULT_LAST (R105). -/
abbrev Reg.CORE_FAULT_LAST : Nat := 0x120
/-- CLUSTER.CORE_FENCE (R105). -/
abbrev Reg.CORE_FENCE : Nat := 0x128
/-- CLUSTER.SPARE_TEST (R105). -/
abbrev Reg.SPARE_TEST : Nat := 0x130
/-- CLUSTER.BANK_REMAP (R105). -/
abbrev Reg.BANK_REMAP : Nat := 0x138
/-- CLUSTER.CACHE_CORR (R105). -/
abbrev Reg.CACHE_CORR : Nat := 0x140
/-- CLUSTER.SCRATCH_CORR (R105). -/
abbrev Reg.SCRATCH_CORR : Nat := 0x148
/-- CLUSTER.DESC_RETIRED (R105). -/
abbrev Reg.DESC_RETIRED : Nat := 0x150
/-- CLUSTER.TU_BUSY (R105). -/
abbrev Reg.TU_BUSY : Nat := 0x158
/-- CLUSTER.ISLAND_CLK (R105). -/
abbrev Reg.ISLAND_CLK : Nat := 0x160
/-- PARTITION.CLUSTER_STATE (R108). -/
abbrev Reg.CLUSTER_STATE : Nat := 0x100
/-- PARTITION.CORES_UP (R108). -/
abbrev Reg.CORES_UP : Nat := 0x108
/-- PARTITION.DOWN_MASK_LO (R108). -/
abbrev Reg.DOWN_MASK_LO : Nat := 0x110
/-- PARTITION.DOWN_MASK_HI (R108). -/
abbrev Reg.DOWN_MASK_HI : Nat := 0x118
/-- PARTITION.FENCE_TOTAL (R108). -/
abbrev Reg.FENCE_TOTAL : Nat := 0x120
/-- PARTITION.SCHED_STAT (R132). -/
abbrev Reg.SCHED_STAT : Nat := 0x200
/-- PARTITION.SCHED_DISPATCHED (R132). -/
abbrev Reg.SCHED_DISPATCHED : Nat := 0x208
/-- PARTITION.SCHED_HELD (R132). -/
abbrev Reg.SCHED_HELD : Nat := 0x210
/-- PARTITION.CPL_PEND0–3 (R132). -/
abbrev Reg.CPL_PEND (i : Nat) : Nat := 0x220 + 8 * i
/-- PARTITION.ABORT_PEND0–3 (R132). -/
abbrev Reg.ABORT_PEND (i : Nat) : Nat := 0x240 + 8 * i
/-- PARTITION.CTX_STATE (R132). -/
abbrev Reg.CTX_STATE (x : Nat) : Nat := 0x1000 + 0x40 * x
/-- PARTITION.CTX_CMD (R132). -/
abbrev Reg.CTX_CMD (x : Nat) : Nat := 0x1008 + 0x40 * x
/-- PARTITION.CTX_RING (R132). -/
abbrev Reg.CTX_RING (x : Nat) : Nat := 0x1010 + 0x40 * x
/-- PARTITION.CTX_CPL (R132). -/
abbrev Reg.CTX_CPL (x : Nat) : Nat := 0x1018 + 0x40 * x
/-- PARTITION.CTX_CFG (R132). -/
abbrev Reg.CTX_CFG (x : Nat) : Nat := 0x1020 + 0x40 * x
/-- PARTITION.CTX_TAIL (R132). -/
abbrev Reg.CTX_TAIL (x : Nat) : Nat := 0x1028 + 0x40 * x
/-- PARTITION.CTX_HEAD (R132). -/
abbrev Reg.CTX_HEAD (x : Nat) : Nat := 0x1030 + 0x40 * x
/-- PARTITION.CTX_JOB (R132). -/
abbrev Reg.CTX_JOB (x : Nat) : Nat := 0x1038 + 0x40 * x
/-- PARTITION.BAR_b (R132). -/
abbrev Reg.BAR (b : Nat) : Nat := 0x5000 + 8 * b
/-- PARTITION.GBAR_g (R132). -/
abbrev Reg.GBAR (g : Nat) : Nat := 0x5200 + 8 * g
/-- SWEEP.SE_INFO (R163). -/
abbrev Reg.SE_INFO : Nat := 0x100
/-- SWEEP.SE_RUN (R163). -/
abbrev Reg.SE_RUN : Nat := 0x108
/-- SWEEP.BYTES_READ (R163). -/
abbrev Reg.BYTES_READ : Nat := 0x110
/-- SWEEP.TOKENS_SWEPT (R163). -/
abbrev Reg.TOKENS_SWEPT : Nat := 0x118
/-- SWEEP.PARTIALS_WRITTEN (R163). -/
abbrev Reg.PARTIALS_WRITTEN : Nat := 0x120
/-- SWEEP.ISLAND_CLK (R163). -/
abbrev Reg.SE_ISLAND_CLK : Nat := 0x160
/-- SWEEP.BUSY_CYCLES (R163). -/
abbrev Reg.BUSY_CYCLES : Nat := 0x128
/-- SWEEP.MEM_WAIT (R163). -/
abbrev Reg.MEM_WAIT : Nat := 0x130
/-- SWEEP.WSAT_PARTIALS (R163). -/
abbrev Reg.WSAT_PARTIALS : Nat := 0x138
/-- SWEEP.READ_CAP (R163). -/
abbrev Reg.READ_CAP : Nat := 0x140
/-- SWEEP.FAULT_LAST (R163). -/
abbrev Reg.SE_FAULT_LAST : Nat := 0x148
/-- SWEEP.ENGINE_FENCE (R163). -/
abbrev Reg.ENGINE_FENCE : Nat := 0x150
/-- SWEEP.ENGINE_TEST (R163). -/
abbrev Reg.ENGINE_TEST : Nat := 0x158
/-- MANIFEST.MF_ROOT (R194). -/
abbrev Reg.MF_ROOT : Nat := 0x100
/-- MANIFEST.MF_CFG (R194). -/
abbrev Reg.MF_CFG : Nat := 0x108
/-- MANIFEST.FAULT_RING (R194). -/
abbrev Reg.FAULT_RING : Nat := 0x110
/-- MANIFEST.FAULT_PROD (R194). -/
abbrev Reg.FAULT_PROD : Nat := 0x118
/-- MANIFEST.FAULT_CONS (R194). -/
abbrev Reg.FAULT_CONS : Nat := 0x120
/-- MANIFEST.FAULT_RESOLVE (R194). -/
abbrev Reg.FAULT_RESOLVE : Nat := 0x128
/-- MANIFEST.FAULT_STAT (R194). -/
abbrev Reg.FAULT_STAT : Nat := 0x130
/-- MANIFEST.HOT_RING (R194). -/
abbrev Reg.HOT_RING : Nat := 0x138
/-- MANIFEST.HOT_PROD (R194). -/
abbrev Reg.HOT_PROD : Nat := 0x140
/-- MANIFEST.HOT_CONS (R194). -/
abbrev Reg.HOT_CONS : Nat := 0x148
/-- MANIFEST.HOT_LOST (R194). -/
abbrev Reg.HOT_LOST : Nat := 0x150
/-- MANIFEST.INV_CMD (R194). -/
abbrev Reg.INV_CMD : Nat := 0x158
/-- MANIFEST.INV_LAST (R194). -/
abbrev Reg.INV_LAST : Nat := 0x160
/-- MANIFEST.INV_DONE (R194). -/
abbrev Reg.INV_DONE : Nat := 0x168
/-- MANIFEST.SHARE_WIN_n (R194). -/
abbrev Reg.SHARE_WIN (n : Nat) : Nat := 0x170 + 8 * n
/-- MANIFEST.PINNED (R194). -/
abbrev Reg.PINNED : Nat := 0x190
/-- MANIFEST.PIN_REFUSED (R194). -/
abbrev Reg.PIN_REFUSED : Nat := 0x198
/-- MANIFEST.LOOKUPS (R194). -/
abbrev Reg.LOOKUPS : Nat := 0x1A0
/-- MANIFEST.SLICE_MISSES (R194). -/
abbrev Reg.SLICE_MISSES : Nat := 0x1A8
/-- MANIFEST.WALKS (R194). -/
abbrev Reg.WALKS : Nat := 0x1B0
/-- MANIFEST.FAULTS (R194). -/
abbrev Reg.FAULTS : Nat := 0x1B8
/-- MANIFEST.PARITY_DROPS (R194). -/
abbrev Reg.PARITY_DROPS : Nat := 0x1C0
/-- MANIFEST.PAGES_MIGRATED (R194). -/
abbrev Reg.PAGES_MIGRATED : Nat := 0x1C8
/-- MC.MC_INFO (R219). -/
abbrev Reg.MC_INFO : Nat := 0x100
/-- MC.MC_CFG (R219). -/
abbrev Reg.MC_CFG : Nat := 0x108
/-- MC.MC_TIMING0 (R219). -/
abbrev Reg.MC_TIMING0 : Nat := 0x110
/-- MC.MC_TIMING1 (R219). -/
abbrev Reg.MC_TIMING1 : Nat := 0x118
/-- MC.MC_TEMP (R219). -/
abbrev Reg.MC_TEMP : Nat := 0x120
/-- MC.MC_SHARE (R219). -/
abbrev Reg.MC_SHARE : Nat := 0x128
/-- MC.MC_RD_BYTES_i (R219). -/
abbrev Reg.MC_RD_BYTES (i : Nat) : Nat := 0x130 + 8 * i
/-- MC.MC_WR_BYTES_i (R219). -/
abbrev Reg.MC_WR_BYTES (i : Nat) : Nat := 0x150 + 8 * i
/-- MC.MC_CORR_COUNT (R219). -/
abbrev Reg.MC_CORR_COUNT : Nat := 0x170
/-- MC.MC_UE_COUNT (R219). -/
abbrev Reg.MC_UE_COUNT : Nat := 0x178
/-- MC.MC_REMAP_SEL (R219). -/
abbrev Reg.MC_REMAP_SEL : Nat := 0x180
/-- MC.MC_REMAP_ENTRY (R219). -/
abbrev Reg.MC_REMAP_ENTRY : Nat := 0x188
/-- MC.MC_REPAIR_LEFT (R219). -/
abbrev Reg.MC_REPAIR_LEFT : Nat := 0x190
/-- MC.MC_RETIRE_SEL (R219). -/
abbrev Reg.MC_RETIRE_SEL : Nat := 0x198
/-- MC.MC_RETIRE_ENTRY (R219). -/
abbrev Reg.MC_RETIRE_ENTRY : Nat := 0x1A0
/-- MC.MC_RETIRE_COUNT (R219). -/
abbrev Reg.MC_RETIRE_COUNT : Nat := 0x1A8
/-- MC.MC_PATROL (R219). -/
abbrev Reg.MC_PATROL : Nat := 0x1B0
/-- MC.MC_ZF_CMD (R219). -/
abbrev Reg.MC_ZF_CMD : Nat := 0x1B8
/-- MC.MC_ZF_STAT (R219). -/
abbrev Reg.MC_ZF_STAT : Nat := 0x1C0
/-- MC.MC_INJECT (R219). -/
abbrev Reg.MC_INJECT : Nat := 0x1C8
/-- QUAY.QUAY_INFO (R236). -/
abbrev Reg.QUAY_INFO : Nat := 0x100
/-- QUAY.QUAY_CFG (R236). -/
abbrev Reg.QUAY_CFG : Nat := 0x108
/-- QUAY.QUAY_SHARE (R236). -/
abbrev Reg.QUAY_SHARE : Nat := 0x110
/-- QUAY.QUAY_BOND_RD (R236). -/
abbrev Reg.QUAY_BOND_RD : Nat := 0x118
/-- QUAY.QUAY_BOND_WR (R236). -/
abbrev Reg.QUAY_BOND_WR : Nat := 0x120
/-- QUAY.QUAY_CORR_COUNT (R236). -/
abbrev Reg.QUAY_CORR_COUNT : Nat := 0x128
/-- QUAY.QUAY_UE_COUNT (R236). -/
abbrev Reg.QUAY_UE_COUNT : Nat := 0x130
/-- QUAY.QUAY_BANK_MAP (R236). -/
abbrev Reg.QUAY_BANK_MAP : Nat := 0x138
/-- QUAY.QUAY_SPARE (R236). -/
abbrev Reg.QUAY_SPARE : Nat := 0x140
/-- QUAY.QUAY_PORT_STAT (R236). -/
abbrev Reg.QUAY_PORT_STAT : Nat := 0x148
/-- QUAY.QUAY_ZF_CMD (R236). -/
abbrev Reg.QUAY_ZF_CMD : Nat := 0x150
/-- QUAY.QUAY_ZF_STAT (R236). -/
abbrev Reg.QUAY_ZF_STAT : Nat := 0x158
/-- QUAY.QUAY_INJECT (R236). -/
abbrev Reg.QUAY_INJECT : Nat := 0x160
/-- QUAY.QUAY_RING_BYTES_p (R236). -/
abbrev Reg.QUAY_RING_BYTES (p : Nat) : Nat := 0x180 + 8 * p
/-- RING.RING_INFO (R265). -/
abbrev Reg.RING_INFO : Nat := 0x100
/-- RING.RING_CTL (R265). -/
abbrev Reg.RING_CTL : Nat := 0x108
/-- RING.DEAL_SEL (R265). -/
abbrev Reg.DEAL_SEL : Nat := 0x110
/-- RING.DEAL_DATA (R265). -/
abbrev Reg.DEAL_DATA : Nat := 0x118
/-- RING.DEAL_COMMIT (R265). -/
abbrev Reg.DEAL_COMMIT : Nat := 0x120
/-- RING.DEAL_STAT (R265). -/
abbrev Reg.DEAL_STAT : Nat := 0x128
/-- RING.FLITS_c (R265). -/
abbrev Reg.FLITS (c : Nat) : Nat := 0x130 + 8 * c
/-- RING.IDLE_OWNED (R265). -/
abbrev Reg.IDLE_OWNED : Nat := 0x150
/-- RING.CRC_REPLAYS (R265). -/
abbrev Reg.CRC_REPLAYS : Nat := 0x158
/-- RING.LANE_SEL (R265). -/
abbrev Reg.LANE_SEL : Nat := 0x160
/-- RING.RING_LANE_STAT (R265). -/
abbrev Reg.RING_LANE_STAT : Nat := 0x168
/-- RING.BE_LIMIT_p (R265). -/
abbrev Reg.BE_LIMIT (p : Nat) : Nat := 0x180 + 8 * p
/-- RING.FAB_CTL (R265). -/
abbrev Reg.FAB_CTL : Nat := 0x300
/-- RING.ROUTE_SEL (R265). -/
abbrev Reg.ROUTE_SEL : Nat := 0x308
/-- RING.ROUTE_DATA (R265). -/
abbrev Reg.ROUTE_DATA : Nat := 0x310
/-- RING.WAKES (R265). -/
abbrev Reg.WAKES : Nat := 0x318
/-- PARTITION.COH_CFG (R290). -/
abbrev Reg.COH_CFG : Nat := 0x300
/-- PARTITION.COH_HINT (R290). -/
abbrev Reg.COH_HINT : Nat := 0x308
/-- PARTITION.COH_STAT (R290). -/
abbrev Reg.COH_STAT : Nat := 0x310
/-- PARTITION.COH_FAULT (R290). -/
abbrev Reg.COH_FAULT : Nat := 0x318
/-- PARTITION.COH_REQUESTS (R290). -/
abbrev Reg.COH_REQUESTS : Nat := 0x320
/-- PARTITION.COH_RETRIES (R290). -/
abbrev Reg.COH_RETRIES : Nat := 0x328
/-- PARTITION.COH_SNOOPS (R290). -/
abbrev Reg.COH_SNOOPS : Nat := 0x330
/-- PARTITION.COH_CROSSINGS (R290). -/
abbrev Reg.COH_CROSSINGS : Nat := 0x338
/-- PARTITION.COH_BACK_INV (R290). -/
abbrev Reg.COH_BACK_INV : Nat := 0x340
/-- PARTITION.COH_HINT_PLACED (R290). -/
abbrev Reg.COH_HINT_PLACED : Nat := 0x348
/-- PARTITION.COH_HINT_DROPPED (R290). -/
abbrev Reg.COH_HINT_DROPPED : Nat := 0x350
/-- PARTITION.FLUSH_LINES (R290). -/
abbrev Reg.FLUSH_LINES : Nat := 0x358
/-- SITE.SITE_INFO (R324). -/
abbrev Reg.SITE_INFO : Nat := 0x100
/-- SITE.SITE_CFG (R324). -/
abbrev Reg.SITE_CFG : Nat := 0x108
/-- SITE.SITE_ASSIGN (R324). -/
abbrev Reg.SITE_ASSIGN : Nat := 0x110
/-- SITE.SITE_SHARE (R324). -/
abbrev Reg.SITE_SHARE : Nat := 0x118
/-- SITE.SITE_LINK (R324). -/
abbrev Reg.SITE_LINK : Nat := 0x120
/-- SITE.SITE_MOD_SEL (R324). -/
abbrev Reg.SITE_MOD_SEL : Nat := 0x128
/-- SITE.SITE_MOD_STAT (R324). -/
abbrev Reg.SITE_MOD_STAT : Nat := 0x130
/-- SITE.SITE_ADMIT (R324). -/
abbrev Reg.SITE_ADMIT : Nat := 0x138
/-- SITE.SITE_IDENT_i (R324). -/
abbrev Reg.SITE_IDENT (i : Nat) : Nat := 0x140 + 8 * i
/-- SITE.SITE_CMD (R324). -/
abbrev Reg.SITE_CMD : Nat := 0x1C0
/-- SITE.SITE_RX_BYTES (R324). -/
abbrev Reg.SITE_RX_BYTES : Nat := 0x1C8
/-- SITE.SITE_TX_BYTES (R324). -/
abbrev Reg.SITE_TX_BYTES : Nat := 0x1D0
/-- SITE.SITE_REPLAYS (R324). -/
abbrev Reg.SITE_REPLAYS : Nat := 0x1D8
/-- SITE.SITE_DENIED (R324). -/
abbrev Reg.SITE_DENIED : Nat := 0x1E0
/-- SITE.SITE_HELD (R324). -/
abbrev Reg.SITE_HELD : Nat := 0x1E8
/-- SITE.SITE_RED_ACCEPTED (R324). -/
abbrev Reg.SITE_RED_ACCEPTED : Nat := 0x1F0
/-- SITE.SITE_RED_REJECTED (R324). -/
abbrev Reg.SITE_RED_REJECTED : Nat := 0x1F8
/-- PARTITION.EBUCKET (R341). -/
abbrev Reg.EBUCKET : Nat := 0x500
/-- PARTITION.EBUCKET_MAX (R341). -/
abbrev Reg.EBUCKET_MAX : Nat := 0x508
/-- PARTITION.EREFILL_LAST (R341). -/
abbrev Reg.EREFILL_LAST : Nat := 0x510
/-- PARTITION.ECHARGED (R341). -/
abbrev Reg.ECHARGED : Nat := 0x518
/-- PARTITION.ECLOCKS (R341). -/
abbrev Reg.ECLOCKS : Nat := 0x520
/-- PWR.PWR_CTL (R342). -/
abbrev Reg.PWR_CTL : Nat := 0x100
/-- PWR.PWR_LIMITS (R342). -/
abbrev Reg.PWR_LIMITS : Nat := 0x108
/-- PWR.PWR_RESERVE (R342). -/
abbrev Reg.PWR_RESERVE : Nat := 0x110
/-- PWR.THERM_CFG (R342). -/
abbrev Reg.THERM_CFG : Nat := 0x118
/-- PWR.THERM_STAT (R342). -/
abbrev Reg.THERM_STAT : Nat := 0x120
/-- PWR.SENSOR_SEL (R342). -/
abbrev Reg.SENSOR_SEL : Nat := 0x128
/-- PWR.SENSOR_DATA (R342). -/
abbrev Reg.SENSOR_DATA : Nat := 0x130
/-- PWR.PWR_MEAS (R342). -/
abbrev Reg.PWR_MEAS : Nat := 0x138
/-- PWR.PWR_TOTAL (R342). -/
abbrev Reg.PWR_TOTAL : Nat := 0x140
/-- PWR.PWR_PERIODS (R342). -/
abbrev Reg.PWR_PERIODS : Nat := 0x148
/-- PWR.PWR_OVER (R342). -/
abbrev Reg.PWR_OVER : Nat := 0x150
/-- PWR.PWR_STAT (R342). -/
abbrev Reg.PWR_STAT : Nat := 0x158
/-- PWR.HBM_PWR (R342). -/
abbrev Reg.HBM_PWR : Nat := 0x160
/-- PWR.PART_ALLOC_p (R342). -/
abbrev Reg.PART_ALLOC (p : Nat) : Nat := 0x180 + 8 * p
/-- PWR.SITE_BUDGET_s (R342). -/
abbrev Reg.SITE_BUDGET (t : Nat) : Nat := 0x280 + 8 * t
/-- PWR.SITE_PWR_s (R342). -/
abbrev Reg.SITE_PWR (t : Nat) : Nat := 0x2A0 + 8 * t
/-- PWR.SITE_RELEASE (R342). -/
abbrev Reg.SITE_RELEASE : Nat := 0x2C0
/-- PCIE.LINK_STAT (R367). -/
abbrev Reg.LINK_STAT : Nat := 0x100
/-- PCIE.LINK_CTL (R367). -/
abbrev Reg.LINK_CTL : Nat := 0x108
/-- PCIE.DMA_CTL (R367). -/
abbrev Reg.DMA_CTL : Nat := 0x110
/-- PCIE.INTX_FUNC (R367). -/
abbrev Reg.INTX_FUNC : Nat := 0x118
/-- PCIE.IRQ_PEND_i (R367). -/
abbrev Reg.IRQ_PEND (i : Nat) : Nat := 0x120 + 8 * i
/-- PCIE.FLR_STAT (R367). -/
abbrev Reg.FLR_STAT : Nat := 0x180
/-- PCIE.FLR_COUNT (R367). -/
abbrev Reg.FLR_COUNT : Nat := 0x188
/-- PCIE.DSTATE (R367). -/
abbrev Reg.DSTATE : Nat := 0x190
/-- PCIE.DMA_ASSIGN_c (R367). -/
abbrev Reg.DMA_ASSIGN (c : Nat) : Nat := 0x200 + 8 * c
/-- PCIE.RX_BYTES (R367). -/
abbrev Reg.RX_BYTES : Nat := 0x300
/-- PCIE.TX_BYTES (R367). -/
abbrev Reg.TX_BYTES : Nat := 0x308
/-- PCIE.REPLAYS (R367). -/
abbrev Reg.REPLAYS : Nat := 0x310
/-- PCIE.CPL_TIMEOUTS (R367). -/
abbrev Reg.CPL_TIMEOUTS : Nat := 0x318
/-- PCIE.UR_RECEIVED (R367). -/
abbrev Reg.UR_RECEIVED : Nat := 0x320
/-- PCIE.POISON_RECEIVED (R367). -/
abbrev Reg.POISON_RECEIVED : Nat := 0x328
/-- DMA.DMA_INFO (R368). -/
abbrev Reg.DMA_INFO : Nat := 0x100
/-- DMA.DMA_RING (R368). -/
abbrev Reg.DMA_RING : Nat := 0x108
/-- DMA.DMA_CPL (R368). -/
abbrev Reg.DMA_CPL : Nat := 0x110
/-- DMA.DMA_RCFG (R368). -/
abbrev Reg.DMA_RCFG : Nat := 0x118
/-- DMA.DMA_CFG (R368). -/
abbrev Reg.DMA_CFG : Nat := 0x120
/-- DMA.DMA_TAIL (R368). -/
abbrev Reg.DMA_TAIL : Nat := 0x128
/-- DMA.DMA_HEAD (R368). -/
abbrev Reg.DMA_HEAD : Nat := 0x130
/-- DMA.DMA_STAT (R368). -/
abbrev Reg.DMA_STAT : Nat := 0x138
/-- DMA.DMA_DIGEST_i (R368). -/
abbrev Reg.DMA_DIGEST (i : Nat) : Nat := 0x140 + 8 * i
/-- DMA.DMA_DIGEST_SEQ (R368). -/
abbrev Reg.DMA_DIGEST_SEQ : Nat := 0x180
/-- DMA.H2D_BYTES (R368). -/
abbrev Reg.H2D_BYTES : Nat := 0x188
/-- DMA.D2H_BYTES (R368). -/
abbrev Reg.D2H_BYTES : Nat := 0x190
/-- DMA.DESC_DONE (R368). -/
abbrev Reg.DESC_DONE : Nat := 0x198
/-- DMA.GCM_FAIL (R368). -/
abbrev Reg.GCM_FAIL : Nat := 0x1A0
/-- PARTITION.IRQ_SUMMARY (R369). -/
abbrev Reg.IRQ_SUMMARY : Nat := 0x600
/-- PARTITION.KEY_SLOT_s (R369). -/
abbrev Reg.KEY_SLOT (i : Nat) : Nat := 0x700 + 8 * i
/-- PARTITION.PART_STATE (R392). -/
abbrev Reg.PART_STATE : Nat := 0x780
/-- PARTITION.PART_CMD (R392). -/
abbrev Reg.PART_CMD : Nat := 0x788
/-- PARTITION.ISO_STAT (R392). -/
abbrev Reg.ISO_STAT : Nat := 0x790
/-- PARTITION.SCRUB_STAT (R392). -/
abbrev Reg.SCRUB_STAT : Nat := 0x798
/-- PARTITION.TENANT_KEY_j (R392). -/
abbrev Reg.TENANT_KEY (j : Nat) : Nat := 0x7A0 + 8 * j
/-- PARTITION.EXT_COUNT_j (R392). -/
abbrev Reg.EXT_COUNT (j : Nat) : Nat := 0x7C0 + 8 * j
/-- PARTITION.MR_m_j (R392). -/
abbrev Reg.MR (m : Nat) (j : Nat) : Nat := 0x800 + 0x40 * m + 8 * j
/-- LC.LC_STATE (R409). -/
abbrev Reg.LC_STATE : Nat := 0x100
/-- LC.LC_ROWS (R409). -/
abbrev Reg.LC_ROWS : Nat := 0x108
/-- LC.LC_BOOT (R409). -/
abbrev Reg.LC_BOOT : Nat := 0x110
/-- LC.LC_TOKENS (R409). -/
abbrev Reg.LC_TOKENS : Nat := 0x118
/-- SEC.SEC_VERSION (R410). -/
abbrev Reg.SEC_VERSION : Nat := 0x100
/-- SEC.OWNER_SLOT (R410). -/
abbrev Reg.OWNER_SLOT : Nat := 0x108
/-- SEC.OWNER_KEY_j (R410). -/
abbrev Reg.OWNER_KEY (j : Nat) : Nat := 0x110 + 8 * j
/-- SEC.DEBUG_EPOCH (R410). -/
abbrev Reg.DEBUG_EPOCH : Nat := 0x130
/-- SEC.GEOMETRY (R410). -/
abbrev Reg.GEOMETRY : Nat := 0x138
/-- SEC.ADMIT_DIGEST_j (R410). -/
abbrev Reg.ADMIT_DIGEST (j : Nat) : Nat := 0x140 + 8 * j
/-- SEC.SEC_LAST (R410). -/
abbrev Reg.SEC_LAST : Nat := 0x180
/-- SEC.CERT_k (R410). -/
abbrev Reg.CERT (k : Nat) : Nat := 0x188 + 8 * k
/-- SEC.STAGE_LEN (R410). -/
abbrev Reg.STAGE_LEN : Nat := 0x1A8
/-- SEC.STAGE_i (R410). -/
abbrev Reg.STAGE (i : Nat) : Nat := 0x800 + 8 * i
/-- ERR.ERR_CFG (R433). -/
abbrev Reg.ERR_CFG : Nat := 0x100
/-- ERR.ERR_TIME (R433). -/
abbrev Reg.ERR_TIME : Nat := 0x108
/-- ERR.COLL_STAT (R433). -/
abbrev Reg.COLL_STAT : Nat := 0x110
/-- ERR.COLL_LOST (R433). -/
abbrev Reg.COLL_LOST : Nat := 0x118
/-- ERR.COLL_REPORTS (R433). -/
abbrev Reg.COLL_REPORTS : Nat := 0x120
/-- ERR.COLL_CLEAR (R433). -/
abbrev Reg.COLL_CLEAR : Nat := 0x128
/-- ERR.DEV_RESET (R433). -/
abbrev Reg.DEV_RESET : Nat := 0x130
/-- ERR.RESET_CAUSE (R433). -/
abbrev Reg.RESET_CAUSE : Nat := 0x138
/-- ERR.WDOG (R433). -/
abbrev Reg.WDOG : Nat := 0x140
/-- ERR.DUMP_STAT (R433). -/
abbrev Reg.DUMP_STAT : Nat := 0x148
/-- ERR.DUMP_SEL (R433). -/
abbrev Reg.DUMP_SEL : Nat := 0x150
/-- ERR.DUMP_ACK (R433). -/
abbrev Reg.DUMP_ACK : Nat := 0x158
/-- ERR.JOB_ABORT_CMD (R433). -/
abbrev Reg.JOB_ABORT_CMD : Nat := 0x160
/-- ERR.JOB_ABORTS (R433). -/
abbrev Reg.JOB_ABORTS : Nat := 0x168
/-- ERR.JOB_j (R433). -/
abbrev Reg.JOB (j : Nat) : Nat := 0x800 + 8 * j
/-- ERR.COLL_i (R433). -/
abbrev Reg.COLL (i : Nat) (w : Nat) : Nat := 0x1000 + 32 * i + 8 * w
/-- ERR.DUMP_WINDOW (R433). -/
abbrev Reg.DUMP_WINDOW : Nat := 0x8000
/-- PARTITION.CTX_OUT_x (R434). -/
abbrev Reg.CTX_OUT (x : Nat) : Nat := 0x6000 + 8 * x
/-- PARTITION.HANG_LAST (R434). -/
abbrev Reg.HANG_LAST : Nat := 0x6800
/-- PARTITION.HANG_WAIT (R434). -/
abbrev Reg.HANG_WAIT : Nat := 0x6808
/-- I3C.I3C_CFG (R441). -/
abbrev Reg.I3C_CFG : Nat := 0x100
/-- I3C.I3C_STAT (R441). -/
abbrev Reg.I3C_STAT : Nat := 0x108
/-- I3C.I3C_PID (R441). -/
abbrev Reg.I3C_PID : Nat := 0x110
/-- I3C.I3C_RX_BYTES (R441). -/
abbrev Reg.I3C_RX_BYTES : Nat := 0x118
/-- I3C.I3C_TX_BYTES (R441). -/
abbrev Reg.I3C_TX_BYTES : Nat := 0x120
/-- I3C.I3C_IBIS (R441). -/
abbrev Reg.I3C_IBIS : Nat := 0x128
/-- MBX.MBX_CTL (R447). -/
abbrev Reg.MBX_CTL (f : Nat) : Nat := 0x1000 + 0x400 * f
/-- MBX.MBX_STAT (R447). -/
abbrev Reg.MBX_STAT (f : Nat) : Nat := 0x1008 + 0x400 * f
/-- MBX.MBX_TIMEOUT (R447). -/
abbrev Reg.MBX_TIMEOUT (f : Nat) : Nat := 0x1010 + 0x400 * f
/-- MBX.REQ_i (R447). -/
abbrev Reg.REQ (f : Nat) (i : Nat) : Nat := 0x1100 + 0x400 * f + 8 * i
/-- MBX.RESP_i (R447). -/
abbrev Reg.RESP (f : Nat) (i : Nat) : Nat := 0x1200 + 0x400 * f + 8 * i
/-- EVR.EVR_STAT (R457). -/
abbrev Reg.EVR_STAT : Nat := 0x100
/-- EVR.EVR_LOST (R457). -/
abbrev Reg.EVR_LOST : Nat := 0x108
/-- EVR.EVR_FIRST_LOST (R457). -/
abbrev Reg.EVR_FIRST_LOST : Nat := 0x110
/-- EVR.EVR_EPOCH (R457). -/
abbrev Reg.EVR_EPOCH : Nat := 0x118
/-- EVR.EVR_FENCE (R457). -/
abbrev Reg.EVR_FENCE : Nat := 0x120
/-- EVR.EVR_CLEAR (R457). -/
abbrev Reg.EVR_CLEAR : Nat := 0x128
/-- EVR.EVR_TIME (R457). -/
abbrev Reg.EVR_TIME : Nat := 0x130
/-- EVR.AUDIT_BASE (R457). -/
abbrev Reg.AUDIT_BASE : Nat := 0x138
/-- EVR.AUDIT_NEXT (R457). -/
abbrev Reg.AUDIT_NEXT : Nat := 0x140
/-- EVR.AUDIT_MIRRORED (R457). -/
abbrev Reg.AUDIT_MIRRORED : Nat := 0x148
/-- EVR.AUDIT_LOST (R457). -/
abbrev Reg.AUDIT_LOST : Nat := 0x150
/-- EVR.EVR_CURSOR (R457). -/
abbrev Reg.EVR_CURSOR : Nat := 0x158
/-- EVR.EVR_TRIG_t (R457). -/
abbrev Reg.EVR_TRIG (t : Nat) : Nat := 0x200 + 8 * t
/-- EVR.EVR_SEL_t_i (R457). -/
abbrev Reg.EVR_SEL (t : Nat) (i : Nat) : Nat := 0x400 + 0x40 * t + 8 * i
/-- EVR.EVR_WINDOW (R457). -/
abbrev Reg.EVR_WINDOW : Nat := 0x2000
/-- CVU.CVU_ASSIGN (R462). -/
abbrev Reg.CVU_ASSIGN : Nat := 0x100
/-- CVU.CVU_CFG (R462). -/
abbrev Reg.CVU_CFG : Nat := 0x108
/-- CVU.CVU_CMD (R462). -/
abbrev Reg.CVU_CMD : Nat := 0x110
/-- CVU.CVU_DATA (R462). -/
abbrev Reg.CVU_DATA : Nat := 0x118
/-- CVU.CVU_FEED (R462). -/
abbrev Reg.CVU_FEED : Nat := 0x120
/-- CVU.CVU_EXPECT (R462). -/
abbrev Reg.CVU_EXPECT : Nat := 0x128
/-- CVU.CVU_RUN (R462). -/
abbrev Reg.CVU_RUN : Nat := 0x130
/-- CVU.CVU_ALIVE (R462). -/
abbrev Reg.CVU_ALIVE : Nat := 0x138
/-- CVU.CVU_STAT (R462). -/
abbrev Reg.CVU_STAT : Nat := 0x140
/-- CVU.CVU_BLOCKS (R462). -/
abbrev Reg.CVU_BLOCKS : Nat := 0x148
/-- CVU.CVU_MISMATCHES (R462). -/
abbrev Reg.CVU_MISMATCHES : Nat := 0x150

/-- PARTITION.RED_ARMED (R323). -/
abbrev Reg.RED_ARMED : Nat := 0x400
/-- The header registers every page carries (R34). -/
abbrev Reg.PAGE_ID : Nat := 0x000
/-- R34, R35. -/
abbrev Reg.PAGE_CTL : Nat := 0x010
/-- R34, R35. -/
abbrev Reg.PAGE_STAT : Nat := 0x018
/-- R36, R37. -/
abbrev Reg.EVT_STAT : Nat := 0x020
/-- R38. -/
abbrev Reg.EVT_EN : Nat := 0x028
/-- R36. -/
abbrev Reg.EVT_SET : Nat := 0x030
/-- R39. -/
abbrev Reg.ERR_FIRST : Nat := 0x038
/-- R39. -/
abbrev Reg.ERR_COUNT : Nat := 0x040
/-- R4, R36. -/
abbrev Reg.REJECT_COUNT : Nat := 0x048
/-- R40. -/
abbrev Reg.LOCK : Nat := 0x050
/-- R38. -/
abbrev Reg.OWNER : Nat := 0x058

/-- The block whose instance page `p` is (R43); none where the page index is reserved. -/
def blockOf (p : Nat) : Option Block :=
  if p = 0 then some .devinfo
  else if p = 1 then some .lc
  else if p = 2 then some .sec
  else if p = 3 then some .pwr
  else if p = 4 then some .err
  else if p = 5 then some .evr
  else if p = 6 then some .i3c
  else if p = 7 then some .pcie
  else if p < 8 then none
  else if p < 10 then some .mbx
  else if p < 16 then none
  else if p < 24 then some .cvu
  else if p < 32 then none
  else if p < 64 then some .dma
  else if p < 80 then some .manifest
  else if p < 128 then none
  else if p < 144 then some .partition
  else if p < 256 then none
  else if p < 384 then some .cluster
  else if p < 512 then none
  else if p < 576 then some .sweep
  else if p < 640 then none
  else if p < 648 then some .mc
  else if p < 656 then none
  else if p < 672 then some .quay
  else if p < 680 then none
  else if p < 688 then some .ring
  else if p < 700 then none
  else if p < 704 then some .site
  else none

/-- The first page of a block (R43). -/
def firstPage : Block → Nat
  | .devinfo => 0
  | .lc => 1
  | .sec => 2
  | .pwr => 3
  | .err => 4
  | .evr => 5
  | .i3c => 6
  | .pcie => 7
  | .mbx => 8
  | .cvu => 16
  | .dma => 32
  | .manifest => 64
  | .partition => 128
  | .cluster => 256
  | .sweep => 512
  | .mc => 640
  | .quay => 656
  | .ring => 680
  | .site => 700

/-- How many pages a block has (R43). -/
def pageCount : Block → Nat
  | .devinfo | .lc | .sec | .pwr | .err | .evr | .i3c | .pcie => 1
  | .mbx => 2
  | .cvu => 8
  | .dma => 32
  | .manifest | .partition | .quay => 16
  | .cluster => 128
  | .sweep => 64
  | .mc | .ring => 8
  | .site => 4

/-- Every block of R43. -/
def allBlocks : List Block :=
  [.devinfo, .lc, .sec, .pwr, .err, .evr, .i3c, .pcie, .mbx, .cvu, .dma, .manifest, .partition, .cluster,
   .sweep, .mc, .quay, .ring, .site]

/-- Every page present (R43), in page order within each block. -/
def allPages : List Nat := allBlocks.flatMap fun b => (List.range (pageCount b)).map fun i => firstPage b + i

/-- Block type code and revision (R43). -/
def blockIdent : Block → Nat × Nat
  | .devinfo => (0x01, 0x0201)
  | .lc => (0x13, 0x0200)
  | .sec => (0x0B, 0x0200)
  | .pwr => (0x0C, 0x0302)
  | .err => (0x0D, 0x0201)
  | .evr => (0x0E, 0x0200)
  | .i3c => (0x12, 0x0101)
  | .pcie => (0x09, 0x0203)
  | .mbx => (0x0F, 0x0100)
  | .cvu => (0x10, 0x0100)
  | .dma => (0x0A, 0x0202)
  | .manifest => (0x11, 0x0301)
  | .partition => (0x02, 0x0302)
  | .cluster => (0x03, 0x0300)
  | .sweep => (0x04, 0x0301)
  | .mc => (0x05, 0x0203)
  | .quay => (0x06, 0x0201)
  | .ring => (0x07, 0x0202)
  | .site => (0x08, 0x0300)

/-- The page of an instance of a block. -/
abbrev pgPart (k : Nat) : Nat := 128 + k
/-- The MANIFEST page of partition `k`. -/
abbrev pgMf (k : Nat) : Nat := 64 + k
/-- The CLUSTER page of global cluster `c`. -/
abbrev pgCl (c : Nat) : Nat := 256 + c
/-- The SWEEP page of engine `e`. -/
abbrev pgSe (e : Nat) : Nat := 512 + e
/-- The MC page of controller `m`. -/
abbrev pgMc (m : Nat) : Nat := 640 + m
/-- The QUAY page of slice `k`. -/
abbrev pgQuay (k : Nat) : Nat := 656 + k
/-- The RING page of ring `r`. -/
abbrev pgRing (r : Nat) : Nat := 680 + r
/-- The SITE page of site `t`. -/
abbrev pgSite (t : Nat) : Nat := 700 + t
/-- The DMA page of channel `c`. -/
abbrev pgDma (c : Nat) : Nat := 32 + c
/-- The CVU page of unit `u`. -/
abbrev pgCvu (u : Nat) : Nat := 16 + u
/-- The LC page. -/
abbrev pgLc : Nat := 1
/-- The SEC page. -/
abbrev pgSec : Nat := 2
/-- The PWR page. -/
abbrev pgPwr : Nat := 3
/-- The ERR page. -/
abbrev pgErr : Nat := 4
/-- The EVR page. -/
abbrev pgEvr : Nat := 5
/-- The I3C page. -/
abbrev pgI3c : Nat := 6
/-- The PCIE page. -/
abbrev pgPcie : Nat := 7
/-- The secure (8) and non-secure (9) MBX pages. -/
abbrev pgMbx (sec : Bool) : Nat := if sec then 8 else 9

/-- The byte address in F0 BAR0 of the register at offset `off` of page `p` (R30). -/
abbrev regAddr (p off : Nat) : Nat := p * 0x10000 + off

/-- The partition a page belongs to from the block map alone (R32, R43): the PARTITION, MANIFEST, QUAY,
CLUSTER and SWEEP pages.  DMA and CVU pages belong to what they are assigned to. -/
def pagePart (p : Nat) : Option Nat :=
  match blockOf p with
  | some .manifest => some (p - 64)
  | some .partition => some (p - 128)
  | some .quay => some (p - 656)
  | some .cluster => some ((p - 256) / 8)
  | some .sweep => some ((p - 512) / 4)
  | _ => none

/-- The controller beside which engine `e` sits (R134). -/
def engineMc (e : Nat) : Nat :=
  let k := e / 4
  if e % 4 < 2 then k % 4 else 4 + k % 4

/-- The block-specific registers that do not read zero at reset. -/
def resetBlock (b : Block) (i off : Nat) : Word :=
  match b with
  | .cluster =>
    -- R95 with no defective core: logical index i is served by physical core i.
    if off = Reg.L2P_LO then 0x0706050403020100
    else if off = Reg.L2P_HI then 0x0F0E0D0C0B0A0908
    else 0
  | .partition =>
    if 0x1000 ≤ off ∧ off < 0x5000 ∧ off % 0x40 = 0x20 then 0x03E80108
    else if off = Reg.COH_CFG then 0x10014
    else if off = Reg.EBUCKET_MAX then 0x8000
    else 0
  | .sweep =>
    if off = Reg.SE_INFO then w64 (engineMc i + (i / 4) <<< 8 + (i % 4) <<< 12)
    else if off = Reg.READ_CAP then 0x27100
    else 0
  | .manifest => if off = Reg.MF_CFG then 0x000A0000 else 0
  | .mc =>
    if off = Reg.MC_INFO then w64 (i + (i % 4) <<< 4 + (i / 4) <<< 6 + 0x2000)
    else if off = Reg.MC_CFG then 0x180402
    -- R204: TRCD 34, TRP 34, TRAS 70, TRRDS 5, TRRDL 10, TFAW 29, TWR 39, TRTP 12; TWTRS 8, TWTRL 22.
    else if off = Reg.MC_TIMING0 then 0x0C271D0A05462222
    else if off = Reg.MC_TIMING1 then 0x12401801608
    else if off = Reg.MC_SHARE then 0x1111
    else if off = Reg.MC_REPAIR_LEFT then w64 (64 <<< 8)
    else 0
  | .quay =>
    if off = Reg.QUAY_INFO then w64 (i + 0x08404000)
    else if off = Reg.QUAY_CFG then 0x04208000
    else if off = Reg.QUAY_SHARE then setFld 0x1111111111111111 (4 * i) 4 0xF
    else 0
  | .ring =>
    -- R238: rings 0 to 3 are X0 to X3, rings 4 to 7 are Y0 to Y3.
    if off = Reg.RING_INFO then
      w64 ((if i < 4 then 0 else 1) + (i % 4) <<< 2 + (if i = 1 ∨ i = 2 then 8 else 6) <<< 8)
    else if 0x180 ≤ off ∧ off < 0x200 ∧ off % 8 = 0 then 0x400800
    else 0
  | .site =>
    if off = Reg.SITE_INFO then w64 (i + (i / 2) <<< 2 + 0x201000)
    else if off = Reg.SITE_CFG then 0x2000
    else if off = Reg.SITE_SHARE then 0x1111111111111111
    else 0
  | .pwr =>
    if off = Reg.PWR_LIMITS then 0x12C01000208
    else if off = Reg.PWR_RESERVE then 0x78
    else if off = Reg.THERM_CFG then 0x6E645A
    else if off = Reg.THERM_STAT then 0x80000
    else if off = Reg.PWR_MEAS then 0x0100000000000000
    else if 0x180 ≤ off ∧ off < 0x200 ∧ off % 8 = 0 then 0x0C1101
    else if 0x280 ≤ off ∧ off < 0x2A0 ∧ off % 8 = 0 then 0x12C
    else 0
  | .pcie => if off = Reg.LINK_CTL then 6 else 0
  | .dma => if off = Reg.DMA_INFO then w64 i else if off = Reg.DMA_CFG then 0x100 else 0
  | .err => if off = Reg.ERR_CFG then 0xFA0000 else 0
  | .i3c => if off = Reg.I3C_CFG then 0x701 else 0
  | .mbx => if 0x1000 ≤ off ∧ (off - 0x1000) / 0x400 < 17 ∧ off % 0x400 = 0x10 then 0x32 else 0
  | .cvu => if off = Reg.CVU_CFG then 0x20 else 0
  | .devinfo | .lc | .sec | .evr => 0

/-- The pages that cannot be disabled, quiesced or reset through their headers (R35): DEVINFO, LC, SEC, ERR
and EVR. -/
def fixedPage (p : Nat) : Bool := p = 0 || p = 1 || p = 2 || p = 4 || p = 5

/-- The header registers at reset (R34, R43): `PAGE_ID`, ENABLE of the fixed pages, and `OWNER`.  The header's table gives
`OWNER` the reset value 0xFF and the chapters a page of a partition the OWNER Pk: it names the partition from reset on (log
entry 63). -/
def resetHeader (b : Block) (p off : Nat) : Word :=
  if off = Reg.PAGE_ID then w64 ((blockIdent b).1 <<< 48 + (p - firstPage b) <<< 40 + (blockIdent b).2 <<< 24)
  else if off = Reg.PAGE_CTL then (if fixedPage p then 1 else 0)
  else if off = Reg.OWNER then w64 ((pagePart p).getD 0xFF)
  else 0

/-- What the register at a byte address of F0 BAR0 holds at reset. -/
def regReset (a : Nat) : Word :=
  let p := a / 0x10000
  let off := a % 0x10000
  match blockOf p with
  | none => 0
  | some b => if off < 0x100 then resetHeader b p off else resetBlock b (p - firstPage b) off


/-- The registers of the CLUSTER page with bits that software writes through REGISTER_WRITE, or that a read
clears. -/
def rows_cluster : List RegRow :=
  [
    ⟨0x140, 1, 8, 1, 8, 0x0, 0x0, 0x0, true⟩,
    ⟨0x148, 1, 8, 1, 8, 0x0, 0x0, 0x0, true⟩,
    ⟨0x150, 1, 8, 1, 8, 0x0, 0x0, 0x0, true⟩,
    ⟨0x158, 1, 8, 1, 8, 0x0, 0x0, 0x0, true⟩
  ]

/-- The registers of the PARTITION page with bits that software writes through REGISTER_WRITE, or that a read
clears. -/
def rows_partition : List RegRow :=
  [
    ⟨0x208, 1, 8, 1, 8, 0x0, 0x0, 0x0, true⟩,
    ⟨0x210, 1, 8, 1, 8, 0x0, 0x0, 0x0, true⟩,
    ⟨0x220, 4, 8, 1, 8, 0x0, 0x0, 0xFFFFFFFFFFFFFFFF, false⟩,
    ⟨0x240, 4, 8, 1, 8, 0x0, 0x0, 0xFFFFFFFFFFFFFFFF, false⟩,
    ⟨0x1010, 256, 64, 1, 8, 0x1FFFFFFFFFFFFFF, 0x0, 0x0, false⟩,
    ⟨0x1018, 256, 64, 1, 8, 0xFFFFFFFFFFFFF, 0x0, 0x0, false⟩,
    ⟨0x1020, 256, 64, 1, 8, 0xFFFF3FFF, 0x0, 0x0, false⟩,
    ⟨0x1038, 256, 64, 1, 8, 0xFF, 0x0, 0x0, false⟩,
    ⟨0x5200, 32, 8, 1, 8, 0xFF000000000000, 0x0, 0x0, false⟩,
    ⟨0x300, 1, 8, 1, 8, 0x1FFFF, 0x0, 0x0, false⟩,
    ⟨0x308, 1, 8, 1, 8, 0xFFFF, 0x0, 0x0, false⟩,
    ⟨0x320, 1, 8, 1, 8, 0x0, 0x0, 0x0, true⟩,
    ⟨0x328, 1, 8, 1, 8, 0x0, 0x0, 0x0, true⟩,
    ⟨0x330, 1, 8, 1, 8, 0x0, 0x0, 0x0, true⟩,
    ⟨0x338, 1, 8, 1, 8, 0x0, 0x0, 0x0, true⟩,
    ⟨0x340, 1, 8, 1, 8, 0x0, 0x0, 0x0, true⟩,
    ⟨0x348, 1, 8, 1, 8, 0x0, 0x0, 0x0, true⟩,
    ⟨0x350, 1, 8, 1, 8, 0x0, 0x0, 0x0, true⟩,
    ⟨0x358, 1, 8, 1, 8, 0x0, 0x0, 0x0, true⟩,
    ⟨0x508, 1, 8, 1, 8, 0xFFFFFF, 0x0, 0x0, false⟩,
    ⟨0x518, 1, 8, 1, 8, 0x0, 0x0, 0x0, true⟩
  ]

/-- The registers of the SWEEP page with bits that software writes through REGISTER_WRITE, or that a read
clears. -/
def rows_sweep : List RegRow :=
  [
    ⟨0x110, 1, 8, 1, 8, 0x0, 0x0, 0x0, true⟩,
    ⟨0x118, 1, 8, 1, 8, 0x0, 0x0, 0x0, true⟩,
    ⟨0x120, 1, 8, 1, 8, 0x0, 0x0, 0x0, true⟩,
    ⟨0x128, 1, 8, 1, 8, 0x0, 0x0, 0x0, true⟩,
    ⟨0x130, 1, 8, 1, 8, 0x0, 0x0, 0x0, true⟩,
    ⟨0x138, 1, 8, 1, 8, 0x0, 0x0, 0x0, true⟩,
    ⟨0x140, 1, 8, 1, 8, 0x3FFFF, 0x0, 0x0, false⟩
  ]

/-- The registers of the MANIFEST page with bits that software writes through REGISTER_WRITE, or that a read
clears. -/
def rows_manifest : List RegRow :=
  [
    ⟨0x108, 1, 8, 1, 8, 0xFFFFFFFFFFFF, 0x0, 0x0, false⟩,
    ⟨0x148, 1, 8, 1, 8, 0xFFFFFFFF, 0x0, 0x0, false⟩,
    ⟨0x150, 1, 8, 1, 8, 0x0, 0x0, 0x0, true⟩,
    ⟨0x198, 1, 8, 1, 8, 0x0, 0x0, 0x0, true⟩,
    ⟨0x1A0, 1, 8, 1, 8, 0x0, 0x0, 0x0, true⟩,
    ⟨0x1A8, 1, 8, 1, 8, 0x0, 0x0, 0x0, true⟩,
    ⟨0x1B0, 1, 8, 1, 8, 0x0, 0x0, 0x0, true⟩,
    ⟨0x1B8, 1, 8, 1, 8, 0x0, 0x0, 0x0, true⟩,
    ⟨0x1C0, 1, 8, 1, 8, 0x0, 0x0, 0x0, true⟩,
    ⟨0x1C8, 1, 8, 1, 8, 0x0, 0x0, 0x0, true⟩
  ]

/-- The registers of the MC page with bits that software writes through REGISTER_WRITE, or that a read
clears. -/
def rows_mc : List RegRow :=
  [
    ⟨0x108, 1, 8, 1, 8, 0x0, 0xFF0F03, 0x0, false⟩,
    ⟨0x110, 1, 8, 1, 8, 0x0, 0xFFFFFFFFFFFFFFFF, 0x0, false⟩,
    ⟨0x118, 1, 8, 1, 8, 0x0, 0xFFF0FFFFFFF, 0x0, false⟩,
    ⟨0x128, 1, 8, 1, 8, 0xFFFF, 0x0, 0x0, false⟩,
    ⟨0x130, 4, 8, 1, 8, 0x0, 0x0, 0x0, true⟩,
    ⟨0x150, 4, 8, 1, 8, 0x0, 0x0, 0x0, true⟩,
    ⟨0x170, 1, 8, 1, 8, 0x0, 0x0, 0x0, true⟩,
    ⟨0x178, 1, 8, 1, 8, 0x0, 0x0, 0x0, true⟩,
    ⟨0x180, 1, 8, 1, 8, 0x3F1F, 0x0, 0x0, false⟩,
    ⟨0x198, 1, 8, 1, 8, 0xFF, 0x0, 0x0, false⟩
  ]

/-- The registers of the QUAY page with bits that software writes through REGISTER_WRITE, or that a read
clears. -/
def rows_quay : List RegRow :=
  [
    ⟨0x108, 1, 8, 1, 8, 0x0, 0xFFFFF01, 0x0, false⟩,
    ⟨0x110, 1, 8, 1, 8, 0xFFFFFFFFFFFFFFFF, 0x0, 0x0, false⟩,
    ⟨0x118, 1, 8, 1, 8, 0x0, 0x0, 0x0, true⟩,
    ⟨0x120, 1, 8, 1, 8, 0x0, 0x0, 0x0, true⟩,
    ⟨0x128, 1, 8, 1, 8, 0x0, 0x0, 0x0, true⟩,
    ⟨0x130, 1, 8, 1, 8, 0x0, 0x0, 0x0, true⟩,
    ⟨0x180, 16, 8, 1, 8, 0x0, 0x0, 0x0, true⟩
  ]

/-- The registers of the RING page with bits that software writes through REGISTER_WRITE, or that a read
clears. -/
def rows_ring : List RegRow :=
  [
    ⟨0x108, 1, 8, 1, 8, 0x0, 0x1, 0x0, false⟩,
    ⟨0x110, 1, 8, 1, 8, 0x737, 0x0, 0x0, false⟩,
    ⟨0x118, 1, 8, 1, 8, 0xFFFFFFFFFFFFFFFF, 0x0, 0x0, false⟩,
    ⟨0x130, 4, 8, 1, 8, 0x0, 0x0, 0x0, true⟩,
    ⟨0x150, 1, 8, 1, 8, 0x0, 0x0, 0x0, true⟩,
    ⟨0x158, 1, 8, 1, 8, 0x0, 0x0, 0x0, true⟩,
    ⟨0x160, 1, 8, 1, 8, 0x317, 0x0, 0x0, false⟩,
    ⟨0x180, 16, 8, 1, 8, 0xFF0FFF, 0x0, 0x0, false⟩,
    ⟨0x308, 1, 8, 1, 8, 0x3F3F, 0x0, 0x0, false⟩,
    ⟨0x318, 1, 8, 1, 8, 0x0, 0x0, 0x0, true⟩
  ]

/-- The registers of the SITE page with bits that software writes through REGISTER_WRITE, or that a read
clears. -/
def rows_site : List RegRow :=
  [
    ⟨0x108, 1, 8, 1, 8, 0x0, 0xFF03, 0x0, false⟩,
    ⟨0x118, 1, 8, 1, 8, 0xFFFFFFFFFFFFFFFF, 0x0, 0x0, false⟩,
    ⟨0x128, 1, 8, 1, 8, 0xF, 0x0, 0x0, false⟩,
    ⟨0x1C8, 1, 8, 1, 8, 0x0, 0x0, 0x0, true⟩,
    ⟨0x1D0, 1, 8, 1, 8, 0x0, 0x0, 0x0, true⟩,
    ⟨0x1D8, 1, 8, 1, 8, 0x0, 0x0, 0x0, true⟩,
    ⟨0x1E0, 1, 8, 1, 8, 0x0, 0x0, 0x0, true⟩,
    ⟨0x1E8, 1, 8, 1, 8, 0x0, 0x0, 0x0, true⟩,
    ⟨0x1F0, 1, 8, 1, 8, 0x0, 0x0, 0x0, true⟩,
    ⟨0x1F8, 1, 8, 1, 8, 0x0, 0x0, 0x0, true⟩
  ]

/-- The registers of the PWR page with bits that software writes through REGISTER_WRITE, or that a read
clears. -/
def rows_pwr : List RegRow :=
  [
    ⟨0x110, 1, 8, 1, 8, 0x3FF, 0x0, 0x0, false⟩,
    ⟨0x118, 1, 8, 1, 8, 0x0, 0xFFFF, 0x0, false⟩,
    ⟨0x128, 1, 8, 1, 8, 0x7F, 0x0, 0x0, false⟩,
    ⟨0x150, 1, 8, 1, 8, 0x0, 0x0, 0x0, true⟩,
    ⟨0x158, 1, 8, 1, 8, 0x0, 0x0, 0x1, false⟩,
    ⟨0x280, 4, 8, 1, 8, 0x1FF, 0x0, 0x0, false⟩
  ]

/-- The registers of the PCIE page with bits that software writes through REGISTER_WRITE, or that a read
clears. -/
def rows_pcie : List RegRow :=
  [
    ⟨0x108, 1, 8, 1, 8, 0x0, 0x7, 0x0, false⟩,
    ⟨0x188, 1, 8, 1, 8, 0x0, 0x0, 0x0, true⟩,
    ⟨0x300, 1, 8, 1, 8, 0x0, 0x0, 0x0, true⟩,
    ⟨0x308, 1, 8, 1, 8, 0x0, 0x0, 0x0, true⟩,
    ⟨0x310, 1, 8, 1, 8, 0x0, 0x0, 0x0, true⟩,
    ⟨0x318, 1, 8, 1, 8, 0x0, 0x0, 0x0, true⟩,
    ⟨0x320, 1, 8, 1, 8, 0x0, 0x0, 0x0, true⟩,
    ⟨0x328, 1, 8, 1, 8, 0x0, 0x0, 0x0, true⟩
  ]

/-- The registers of the DMA page with bits that software writes through REGISTER_WRITE, or that a read
clears. -/
def rows_dma : List RegRow :=
  [
    ⟨0x108, 1, 8, 1, 8, 0xFFFFFFFFFFFFFFC0, 0x0, 0x0, false⟩,
    ⟨0x110, 1, 8, 1, 8, 0xFFFFFFFFFFFFFFC0, 0x0, 0x0, false⟩,
    ⟨0x118, 1, 8, 1, 8, 0x1F, 0x0, 0x0, false⟩,
    ⟨0x120, 1, 8, 1, 8, 0x1F01, 0x0, 0x0, false⟩,
    ⟨0x188, 1, 8, 1, 8, 0x0, 0x0, 0x0, true⟩,
    ⟨0x190, 1, 8, 1, 8, 0x0, 0x0, 0x0, true⟩,
    ⟨0x198, 1, 8, 1, 8, 0x0, 0x0, 0x0, true⟩,
    ⟨0x1A0, 1, 8, 1, 8, 0x0, 0x0, 0x0, true⟩
  ]

/-- The registers of the ERR page with bits that software writes through REGISTER_WRITE, or that a read
clears. -/
def rows_err : List RegRow :=
  [
    ⟨0x100, 1, 8, 1, 8, 0xFFFF0001, 0x0, 0x0, false⟩,
    ⟨0x118, 1, 8, 1, 8, 0x0, 0x0, 0x0, true⟩,
    ⟨0x120, 1, 8, 1, 8, 0x0, 0x0, 0x0, true⟩,
    ⟨0x150, 1, 8, 1, 8, 0x1FFF003, 0x0, 0x0, false⟩,
    ⟨0x168, 1, 8, 1, 8, 0x0, 0x0, 0x0, true⟩,
    ⟨0x800, 256, 8, 1, 8, 0xF, 0x0, 0x0, false⟩
  ]

/-- The registers of the I3C page with bits that software writes through REGISTER_WRITE, or that a read
clears. -/
def rows_i3c : List RegRow :=
  [
    ⟨0x100, 1, 8, 1, 8, 0x700, 0x1, 0x0, false⟩,
    ⟨0x118, 1, 8, 1, 8, 0x0, 0x0, 0x0, true⟩,
    ⟨0x120, 1, 8, 1, 8, 0x0, 0x0, 0x0, true⟩,
    ⟨0x128, 1, 8, 1, 8, 0x0, 0x0, 0x0, true⟩
  ]

/-- The registers of the MBX page with bits that software writes through REGISTER_WRITE, or that a read
clears. -/
def rows_mbx : List RegRow :=
  [
    ⟨0x1008, 17, 1024, 1, 8, 0x0, 0x0, 0x20, false⟩,
    ⟨0x1010, 17, 1024, 1, 8, 0x3FF, 0x0, 0x0, false⟩,
    ⟨0x1100, 17, 1024, 32, 8, 0xFFFFFFFFFFFFFFFF, 0x0, 0x0, false⟩
  ]

/-- The registers of the EVR page with bits that software writes through REGISTER_WRITE, or that a read
clears. -/
def rows_evr : List RegRow :=
  [
    ⟨0x158, 1, 8, 1, 8, 0x1FFC0, 0x0, 0x0, false⟩,
    ⟨0x200, 64, 8, 1, 8, 0x1073F07FF, 0x0, 0x0, false⟩,
    ⟨0x400, 64, 64, 6, 8, 0xFFFFFF, 0x0, 0x0, false⟩
  ]

/-- The registers of the CVU page with bits that software writes through REGISTER_WRITE, or that a read
clears. -/
def rows_cvu : List RegRow :=
  [
    ⟨0x108, 1, 8, 1, 8, 0x1F33, 0x0, 0x0, false⟩,
    ⟨0x118, 1, 8, 1, 8, 0xFFFFFFFFFFFFFFFF, 0x0, 0x0, false⟩,
    ⟨0x128, 1, 8, 1, 8, 0xFFFFFFFFFFFFFFFF, 0x0, 0x0, false⟩,
    ⟨0x148, 1, 8, 1, 8, 0x0, 0x0, 0x0, true⟩,
    ⟨0x150, 1, 8, 1, 8, 0x0, 0x0, 0x0, true⟩
  ]

/-- The rows of a block's page. -/
def blockRows : Block → List RegRow
  | .devinfo => []
  | .lc => []
  | .sec => []
  | .pwr => rows_pwr
  | .err => rows_err
  | .evr => rows_evr
  | .i3c => rows_i3c
  | .pcie => rows_pcie
  | .mbx => rows_mbx
  | .cvu => rows_cvu
  | .dma => rows_dma
  | .manifest => rows_manifest
  | .partition => rows_partition
  | .cluster => rows_cluster
  | .sweep => rows_sweep
  | .mc => rows_mc
  | .quay => rows_quay
  | .ring => rows_ring
  | .site => rows_site

/-- The row a register at offset `off` belongs to. -/
def rowMatches (off : Nat) (r : RegRow) : Bool :=
  decide (r.base ≤ off) &&
    (let d := off - r.base
     decide (d / r.stride < r.count) && decide ((d % r.stride) / r.stride2 < r.count2) &&
       decide ((d % r.stride) % r.stride2 = 0))

/-- How many block events a block has; they are the lowest bits of BLOCK_EVT, and the rest are reserved (R107, R109, R133,
R164, R195, R220, R237, R266, R291, R325, R341, R343, R367 to R369, R393, R409, R410, R433, R434, R441, R447, R457, R461). -/
def blockEvents : Block → Nat
  | .devinfo => 0
  | .lc => 3
  | .sec => 3
  | .pwr => 7
  | .err => 6
  | .evr => 3
  | .i3c => 2
  | .pcie => 5
  | .mbx => 34
  | .cvu => 2
  | .dma => 4
  | .manifest => 6
  | .partition => 12
  | .cluster => 5
  | .sweep => 4
  | .mc => 6
  | .quay => 4
  | .ring => 4
  | .site => 7

/-- The bits of a block's event registers that exist (R7, R36): its block events and bits 63 to 61. -/
def evtBits (b : Block) : Nat := 0xE000000000000000 + (2 ^ blockEvents b - 1)

/-- The header rows of a block's page: `EVT_STAT` is W1C, `EVT_EN` RW, and `ERR_COUNT` and `REJECT_COUNT` are RC (R34,
R36). -/
def rows_header (b : Block) : List RegRow :=
  [
    ⟨0x20, 1, 8, 1, 8, 0, 0, evtBits b, false⟩,
    ⟨0x28, 1, 8, 1, 8, evtBits b, 0, 0, false⟩,
    ⟨0x40, 1, 8, 1, 8, 0, 0, 0, true⟩,
    ⟨0x48, 1, 8, 1, 8, 0, 0, 0, true⟩
  ]

/-- The row of the register at offset `off` of page `p`, if it has writable or read-cleared bits. -/
def regRow (p off : Nat) : Option RegRow :=
  match blockOf p with
  | none => none
  | some b => if off < 0x100 then (rows_header b).find? (rowMatches off) else (blockRows b).find? (rowMatches off)

end Sys2Proof.Machine
end

