-- ==== Sys2Proof/Machine/Sparse.lean ====
section
/-!
DEFINITION. Sparse maps in one canonical form: keys strictly rising, no entry equal to what its key
reads as when it is not listed.  The register file, device memory and host memory are held so.
-/

namespace Sys2Proof.Machine

/-- What key `a` reads as: its entry, or `d a` where none is listed. -/
def sparseGet {α : Type} (d : Nat → α) : List (Nat × α) → Nat → α
  | [], a => d a
  | (b, v) :: t, a => if a = b then v else if a < b then d a else sparseGet d t a

/-- The map with key `a` reading as `v`, and every other key as before. -/
def sparseSet {α : Type} [DecidableEq α] (d : Nat → α) : List (Nat × α) → Nat → α → List (Nat × α)
  | [], a, v => if v = d a then [] else [(a, v)]
  | (b, w) :: t, a, v =>
    if a < b then (if v = d a then (b, w) :: t else (a, v) :: (b, w) :: t)
    else if a = b then (if v = d a then t else (a, v) :: t)
    else (b, w) :: sparseSet d t a v

/-- The map with every key from `lo` up to and not including `hi` reading as unlisted. -/
def sparseDrop {α : Type} (l : List (Nat × α)) (lo hi : Nat) : List (Nat × α) :=
  l.filter fun e => !(decide (lo ≤ e.1) && decide (e.1 < hi))

/-- The map with each entry as `f` makes it; one that `f` drops, or brings back to what its key reads as, is no longer
listed. -/
def sparseKeep {α : Type} [DecidableEq α] (d : Nat → α) (f : Nat → α → Option α) (l : List (Nat × α)) : List (Nat × α) :=
  l.filterMap fun e =>
    match f e.1 e.2 with
    | some v => if v = d e.1 then none else some (e.1, v)
    | none => none

/-- Every listed key is above `lo`, keys rise strictly, and no entry reads as unlisted. -/
def sparseWfFrom {α : Type} [DecidableEq α] (d : Nat → α) : Nat → List (Nat × α) → Bool
  | _, [] => true
  | lo, (b, v) :: t => decide (lo ≤ b) && !(decide (v = d b)) && sparseWfFrom d (b + 1) t

/-- The canonical form. -/
def sparseWf {α : Type} [DecidableEq α] (d : Nat → α) (l : List (Nat × α)) : Bool := sparseWfFrom d 0 l

/-- Write a run of values at consecutive keys from `a`. -/
def sparsePut {α : Type} [DecidableEq α] (d : Nat → α) : List (Nat × α) → Nat → List α → List (Nat × α)
  | l, _, [] => l
  | l, a, v :: t => sparsePut d (sparseSet d l a v) (a + 1) t

/-- Read `n` values at consecutive keys from `a`. -/
def sparseRun {α : Type} (d : Nat → α) (l : List (Nat × α)) (a n : Nat) : List α :=
  (List.range n).map fun i => sparseGet d l (a + i)

end Sys2Proof.Machine
end

