-- ==== Sys2Proof/Machine/View.lean ====
section
/-!
DEFINITION. Reading the package: the register file, the values that registers compute from other state, and
the roles of a requester (R2 to R5, R43 to R45).
-/

namespace Sys2Proof.Machine

/-- What the register at offset `off` of page `p` holds. -/
def rd (s : State) (p off : Nat) : Word := sparseGet regReset s.regs (regAddr p off)

/-- A field of a register. -/
def rf (s : State) (p off lo n : Nat) : Nat := fld (rd s p off) lo n

/-- One bit of a register. -/
def rb (s : State) (p off i : Nat) : Bool := bit (rd s p off) i

/-- `PAGE_STAT.STATE` of a page (R34). -/
def pageState (s : State) (p : Nat) : Nat := rf s p Reg.PAGE_STAT 0 4

/-- ENABLE of a page. -/
def enabled (s : State) (p : Nat) : Bool := rb s p Reg.PAGE_CTL 0

/-- Whether the page's LOCK is set (R40). -/
def locked (s : State) (p : Nat) : Bool := rb s p Reg.LOCK 0

/-- The state code of partition `k` (R370). -/
def partState (s : State) (k : Nat) : Nat := rf s (pgPart k) Reg.PART_STATE 0 4

/-- Whether partition `k` counts as sealed (R371). -/
def sealHeld (s : State) (k : Nat) : Bool := rb s (pgPart k) Reg.PART_STATE 4

/-- The operator's sight of partition `k` is withdrawn: it counts as SEALED, or a SEAL has been accepted (R376). -/
def sealedNow (s : State) (k : Nat) : Bool := sealHeld s k || s.ten.sealing.any fun e => e.1 = k

/-- Contexts may be open: ASSIGNED or SEALED (R370). -/
def partLive (s : State) (k : Nat) : Bool := partState s k = 3 || partState s k = 4

/-- The function that serves partition `k` (R5). -/
def partFn (k : Nat) : Nat := k + 1

/-- The partition a page belongs to as things stand: from the block map, or from the assignment of a DMA
channel or check-value unit, whose `OWNER` names it. -/
def ownerPart (s : State) (p : Nat) : Option Nat :=
  match pagePart p with
  | some k => some k
  | none =>
    match blockOf p with
    | some .dma | some .cvu => let o := rf s p Reg.OWNER 0 8; if o < 16 then some o else none
    | _ => none

/-- The life-cycle state: the TARGET of the highest committed row, or RAW (R402). -/
def lcState (s : State) : Nat :=
  ((s.fuse.rows.filter fun r => r.done && !r.void).getLast?.map (·.target)).getD 0

/-- `LC_ROWS.NEXT`: the lowest row with neither DONE nor VOID (R402). -/
def lcNext (s : State) : Nat := (s.fuse.rows.takeWhile fun r => r.done || r.void).length

/-- The hub and base-layer pairing (R25, R464): its bit of PAIRINGS; none where it is not listed. -/
def pairing (s : State) : Option Nat :=
  if s.fuse.hubStep = 0xB1 ∧ s.fuse.baseStep = 0xA1 then some 0
  else if s.fuse.hubStep = 0xB1 ∧ s.fuse.baseStep = 0xA0 then some 1
  else if s.fuse.hubStep = 0xB0 ∧ s.fuse.baseStep = 0xA1 then some 2
  else if s.fuse.hubStep = 0xB0 ∧ s.fuse.baseStep = 0xA0 then some 3
  else none

/-- `DEVINFO.DEV_IDENT` (R1, R26, R28, R47): fields that were not sensed read zero, and so does ARITH_VER of a pairing that
is not listed. -/
def devIdent (s : State) : Word :=
  let f := s.fuse
  let hub := if s.boot.sensed && f.hubReads then f.hubStep else 0
  let base := if s.boot.sensed && f.baseReads then f.baseStep else 0
  let ver := if s.boot.sensed && f.hubReads && f.baseReads && (pairing s).isSome then min f.hubArith f.baseArith else 0
  w64 (0xB4A7 <<< 48 + 0x0816 <<< 32 + hub <<< 24 + base <<< 16 + ver <<< 8 + s.boot.fwIf)

/-- The package's ARITH_VER (R26). -/
def arithVer (s : State) : Nat := min s.fuse.hubArith s.fuse.baseArith

/-- `OTP_REMAIN_A` (R47): geometry, security version, admission and owner-key changes left. -/
def otpRemainA (s : State) : Word :=
  w64 ((64 - s.fuse.geometryUsed) + (256 - s.fuse.secVersionUsed) <<< 16 + (32 - s.fuse.admitUsed) <<< 32 +
    (4 - s.fuse.ownerKeyUsed) <<< 48)

/-- `OTP_REMAIN_B` (R47): unlock tokens and epoch changes left. -/
def otpRemainB (s : State) : Word :=
  w64 ((8 - popCount s.fuse.tokens 8) + (64 - s.fuse.debugEpochUsed) <<< 16)

/-- The grants of a debug certificate (R404): function, rights, first page, last page. -/
def certGrants (c : Bytes) : List (Nat × Nat × Nat × Nat) :=
  (List.range (leAt c 3 1)).map fun g =>
    (leAt c (64 + 8 * g) 1, leAt c (65 + 8 * g) 1, leAt c (66 + 8 * g) 2, leAt c (68 + 8 * g) 2)

/-- Every grant of every installed certificate. -/
def allGrants (s : State) : List (Nat × Nat × Nat × Nat) :=
  s.sec.certs.flatMap fun c => match c with
    | some b => certGrants b
    | none => []

/-- Whether page `p` is shown to function `fn` (R30 to R32): every present page to F0; to Fn the pages of its
partition's window, with the DMA channels and check-value units assigned to it, and its mailbox view. -/
def visible (s : State) (fn p : Nat) : Bool :=
  if fn = 0 then (blockOf p).isSome
  else if 16 < fn then false
  else
    match blockOf p with
    | some .devinfo => true
    | some .mbx => true
    | some .partition | some .manifest | some .quay | some .cluster | some .sweep => pagePart p = some (fn - 1)
    | some .dma =>
      rb s pgPcie (Reg.DMA_ASSIGN (p - 32)) 7 && rf s pgPcie (Reg.DMA_ASSIGN (p - 32)) 0 5 = fn
    | some .cvu => rb s p Reg.CVU_ASSIGN 7 && rf s p Reg.CVU_ASSIGN 0 5 = fn
    | _ => false

/-- Whether page `p` answers at all as bring-up stands: on the recovery path DEVINFO, LC, SEC and F0's secure
mailbox alone (R28, R466), in SCRAP DEVINFO and LC alone (R394). -/
def responds (s : State) (p : Nat) : Bool :=
  match s.boot.phase with
  | .off => false
  | .recovery => p = 0 || p = 1 || p = 2 || p = 8
  | .scrap => p = 0 || p = 1
  | _ => (blockOf p).isSome

/-- Whether a valid certificate grants `fn` reading (`wr` false) or writing on page `p` (R408). -/
def debugRight (s : State) (fn p : Nat) (wr : Bool) : Bool :=
  visible s fn p &&
    (match blockOf p with
     | some .mbx => false
     | some .devinfo => false
     | _ => true) &&
    (match ownerPart s p with
     | some k => !sealedNow s k
     | none => true) &&
    (allGrants s).any fun g => g.1 = fn && g.2.1.testBit (if wr then 1 else 0) && g.2.2.1 ≤ p && p ≤ g.2.2.2

/-- `fn` acts with the OPERATOR's right on page `p`: as F0, or by a certificate that lists the access (R3, R408). -/
def actsOn (s : State) (fn p : Nat) (wr : Bool) : Bool := fn = 0 || debugRight s fn p wr

/-- Whether a certificate grants `fn` any right at all (`CALLER.DEBUGGER`, R47). -/
def isDebugger (s : State) (fn : Nat) : Bool := (allGrants s).any fun g => g.1 = fn

/-- The blocks a function may write by its own role (R43): the OPERATOR every block but DEVINFO, LC and
SEC; a TENANT the pages of its window but DEVINFO. -/
def roleWrites (b : Block) (fn : Nat) : Bool :=
  if fn = 0 then
    match b with
    | .devinfo | .lc | .sec => false
    | _ => true
  else
    match b with
    | .cvu | .dma | .manifest | .partition | .cluster | .sweep | .quay | .mbx => true
    | _ => false

/-- The registers the OPERATOR may still write while a partition is sealed (R45, R235, R392): `PAGE_CTL`,
`EVT_STAT`, `EVT_EN`, `EVT_SET`, `PART_CMD` and `QUAY_ZF_CMD`. -/
def sealedWrites (p off : Nat) : Bool :=
  off = Reg.PAGE_CTL || off = Reg.EVT_STAT || off = Reg.EVT_EN || off = Reg.EVT_SET ||
    (blockOf p = some .partition && off = Reg.PART_CMD) || (blockOf p = some .quay && off = Reg.QUAY_ZF_CMD)

/-- The registers the OPERATOR may still read while a partition is sealed (R45, R235, R392): the header,
`PART_STATE`, `ISO_STAT` and `QUAY_ZF_STAT`. -/
def sealedReads (p off : Nat) : Bool :=
  off < 0x100 || (blockOf p = some .partition && (off = Reg.PART_STATE || off = Reg.ISO_STAT)) ||
    (blockOf p = some .quay && off = Reg.QUAY_ZF_STAT)

/-- The partition states in which a tenant reaches only the DEVINFO and PARTITION pages (R370). -/
def tenantLimited (s : State) (k : Nat) : Bool :=
  partState s k = 0 || partState s k = 1 || partState s k = 2 || partState s k = 6

/-- Whether the roles of `fn` permit a write of the register at `off` of page `p` (R3, R43 to R45, R236, R370). -/
def mayWrite (s : State) (fn p off : Nat) : Bool :=
  debugRight s fn p true ||
    (match blockOf p with
     | none => false
     | some b =>
       roleWrites b fn &&
         (if fn = 0 then
            match ownerPart s p with
            | some k =>
              if sealedNow s k then sealedWrites p off
              else if partState s k = 1 then off < 0x100 || (b = .partition && off = Reg.PART_CMD)
              else true
            | none => !(b = .mbx) || off < 0x1400
          else !(b = .quay) && (b = .partition || !tenantLimited s (fn - 1))))

/-- Whether the roles of `fn` permit a read of the register at `off` of page `p` (R3, R43 to R45, R370): no certificate reaches
the staging buffer (R408). -/
def mayRead (s : State) (fn p off : Nat) : Bool :=
  (debugRight s fn p false && !(decide (p = pgSec) && decide (0x800 ≤ off))) ||
    (match blockOf p with
     | none => false
     | some b =>
       if fn = 0 then
         match ownerPart s p with
         | some k =>
           if sealedNow s k then sealedReads p off
           else if partState s k = 1 then
             off < 0x100 || (b = .partition && (off = Reg.PART_STATE || off = Reg.ISO_STAT))
           else true
         | none => !(b = .mbx) || off < 0x1400
       else b = .devinfo || (roleWrites b fn && (b = .partition || !tenantLimited s (fn - 1))))

/-- Function `f` serves a partition that is SCRUBBING, so that its level comes from its PARTITION page alone (R390). -/
def scrubbed (s : State) (f : Nat) : Bool := decide (f ≠ 0) && decide (partState s (f - 1) = 1)

/-- The levels of the functions (R38, R347, R390): a page whose `EVT_STAT AND EVT_EN` is not zero raises the level
of the function its `OWNER` names; the MBX pages raise each function's level from its own two bits (R445). -/
def levelMask (s : State) : Nat :=
  s.regs.foldl
    (fun m e =>
      if e.1 % 0x10000 = Reg.EVT_EN then
        let p := e.1 / 0x10000
        let act := rd s p Reg.EVT_STAT &&& e.2
        if act = 0 then m
        else if blockOf p = some .mbx then
          m ||| maskOf ((List.range 17).filter fun f => (bit act f || bit act (17 + f)) && !(scrubbed s f))
        else
          let o := rf s p Reg.OWNER 0 8
          let f := if o < 16 then o + 1 else 0
          if scrubbed s f && blockOf p ≠ some .partition then m else m ||| (1 <<< f)
      else m) 0

/-- Whether page `p` holds its own level raised (R38). -/
def pageRaised (s : State) (p : Nat) : Bool := !(decide (rd s p Reg.EVT_STAT &&& rd s p Reg.EVT_EN = 0))

/-- The power state of function `f` (R349). -/
def dState (s : State) (f : Nat) : Nat := rf s pgPcie Reg.DSTATE (2 * f) 2

/-- Register writes of function `f` reach the package (R346, R351, R466): the link is up, the function is in D0 and not
under an FLR, and on the recovery path it is F0. -/
def barOpen (s : State) (f : Nat) : Bool :=
  s.pcie.link && decide (dState s f = 0) && !(rb s pgPcie Reg.FLR_STAT f) &&
    (decide (f = 0) || !(decide (s.boot.phase = .recovery)))

/-- Operating time in the form of W0 of R449: seconds, and the fraction in units of `2^-24` s. -/
def evrNow (s : State) : Word :=
  let t := (rd s pgErr Reg.ERR_TIME).toNat
  w64 ((s.evr.seconds + t / 25000000) % 2 ^ 40 + ((t % 25000000) * 2 ^ 24 / 25000000) <<< 40)

/-- The logical cores of partition `k` that are not DOWN, as a mask over its 128 (R108). -/
def downMask (s : State) (k : Nat) : Nat :=
  maskOf ((List.range 128).filter fun b =>
    let c := 8 * k + b / 16
    let i := b % 16
    rb s (pgCl c) (if i < 8 then Reg.L2P_LO else Reg.L2P_HI) (8 * (i % 8) + 7))

/-- The state of local physical core `j` of cluster `c` (R105). -/
def coreState (s : State) (c j : Nat) : Nat :=
  if j < 16 then rf s (pgCl c) Reg.CORE_STATE_LO (4 * j) 4 else rf s (pgCl c) Reg.CORE_STATE_HI 0 4

/-- The map entry of logical local index `i` of cluster `c` (R105): physical core, and DOWN. -/
def mapEntry (s : State) (c i : Nat) : Nat × Bool :=
  let off := if i < 8 then Reg.L2P_LO else Reg.L2P_HI
  (rf s (pgCl c) off (8 * (i % 8)) 5, rb s (pgCl c) off (8 * (i % 8) + 7))

/-- `CORES_UP` (R108): logical cores not DOWN, and clusters whose spare is available. -/
def coresUp (s : State) (k : Nat) : Word :=
  w64 ((128 - popCount (downMask s k) 128) +
    ((List.range 8).countP fun m => coreState s (8 * k + m) 16 = 1) <<< 8)

/-- The collector entries in use (R416). -/
def collUsed (s : State) : Nat :=
  (List.range 256).countP fun i => rb s pgErr (Reg.COLL i 0) 63

/-- The state of local context `x` of partition `k` (R117). -/
def ctxState (s : State) (k x : Nat) : Nat := rf s (pgPart k) (Reg.CTX_STATE x) 0 3

/-- A context is dead in DRAINING and ABORTED (R419). -/
def ctxDead (s : State) (k x : Nat) : Bool := ctxState s k x = 4 || ctxState s k x = 5

/-- A site is ADMITTED, READY or QUIESCED (R294). -/
def siteAdmitted (s : State) (t : Nat) : Bool :=
  (pageState s (pgSite t) = 3 || pageState s (pgSite t) = 4) && rf s (pgSite t) Reg.PAGE_STAT 8 8 = 4

/-- The members of job `j`: partition and local context (R422). -/
def jobMembers (s : State) (j : Nat) : List (Nat × Nat) :=
  s.regs.filterMap fun e =>
    let p := e.1 / 0x10000
    let off := e.1 % 0x10000
    if 128 ≤ p ∧ p < 144 ∧ 0x1000 ≤ off ∧ off < 0x5000 ∧ off % 0x40 = 0x38 ∧ fld e.2 0 8 = j ∧ j ≠ 0 then
      some (p - 128, (off - 0x1000) / 0x40)
    else none

end Sys2Proof.Machine
end

