-- ==== Sys2Proof/Machine/Show.lean ====
section
/-!
DEFINITION. What registers show when they are read: the value the register file holds, or the value that other state of
the package gives (R34, R47, R106, R108, R132, R163, R194, R219, R265, R324, R342, R367, R392, R409, R410, R432, R434,
R447, R457).
-/

namespace Sys2Proof.Machine

/-! ### Parts of registers that several commands use -/

/-- The value of a key of a count list. -/
def tally (l : List (Nat × Nat)) (i : Nat) : Nat := ((l.find? fun e => e.1 = i).map (·.2)).getD 0

/-- `MC_REMAP_ENTRY` of a pool entry (R219). -/
def remapWord (e : PoolEntry) : Word :=
  w64 (e.row + e.bank <<< 15 + e.spare <<< 21 + e.cause <<< 24 + e.again.toNat <<< 26 + e.valid.toNat <<< 63)

/-- Free pool entries of a pseudo-channel. -/
def poolFree (s : State) (m pc : Nat) : Nat := 64 - s.hbm.pool.countP fun e => e.m = m && e.pc = pc

/-- The key of a link in one direction, numbered by its upstream stop. -/
def linkKey (r link : Nat) (back : Bool) : Nat := (r * 8 + link) * 2 + back.toNat

/-- The value of a key of a deal table. -/
def dealAt (t : List (Nat × Nat)) (key : Nat) : Nat := ((t.find? fun e => e.1 = key).map (·.2)).getD 0x1F

/-- What `DEAL_DATA` shows (R265). -/
def readDeal (s : State) (r : Nat) : Word :=
  let sel := rd s (pgRing r) Reg.DEAL_SEL
  let base := linkKey r (fld sel 0 3) (bit sel 4) * 64 + 8 * fld sel 8 3
  let t := if bit sel 5 then s.fab.active else s.fab.shadow
  w64 ((List.range 8).foldl (fun n g => n + dealAt t (base + g) <<< (8 * g)) 0)

/-- `RING_LANE_STAT` of a link with the spares of one lane (R265). -/
def laneWord (s : State) (r link : Nat) (back : Bool) (lane : Nat) : Word :=
  let k := linkKey r link back
  w64 ((List.range 8).foldl (fun n g => n + (tally s.fab.spares ((k * 4 + lane) * 8 + g) % 4) <<< (2 * g)) 0 +
    tally s.fab.lanesOff k <<< 16 + (s.fab.down.contains k).toNat <<< 20)

/-- A temperature as a signed byte. -/
def toByte (t : Int) : Nat := (t % 256).toNat

/-- `CERT_k` as the SEC page shows a slot (R410). -/
def certWord (c : Option Bytes) : Word :=
  match c with
  | none => 0
  | some b => w64 (1 + (leAt b 2 1) <<< 1 + (leAt b 3 1) <<< 8 + (leAt b 4 4 % 256) <<< 16 + (leAt b 16 4) <<< 32)

/-- The provisional ID (R436). -/
def i3cPid (s : State) : Nat := 0x0B4A <<< 33 + 0x0816 <<< 16 + (s.board.strap % 16) <<< 12 + s.fuse.unitId.toNat % 4096

/-- A mask of 64 bits from a test of each. -/
def mask64 (f : Nat → Bool) : Word := w64 (maskOf ((List.range 64).filter f))

/-! ### PARTITION, SWEEP, CLUSTER -/

/-- The descriptor an engine holds: the first dispatched to it and not returned. -/
def engineWork (s : State) (e : Nat) : Option Work :=
  s.work.find? fun w => w.part = e / 4 && w.unit = 128 + e % 4 && w.phase ≠ .returned

/-- `SE_RUN.PHASE` (R163): a descriptor that has not run shows the first phase of its opcode (log entry 60). -/
def enginePhase (w : Work) : Nat :=
  match w.phase with
  | .held _ | .heldNew => 4
  | _ =>
    let op := fld (w.desc.getD 0 0) 0 8
    if op = 0x22 then 5 else if op = 0x23 then 6 else 1

/-- `SE_RUN` (R163). -/
def seRun (s : State) (e : Nat) : Word :=
  match engineWork s e with
  | none => 0
  | some w =>
    w64 (enginePhase w + (fld (w.desc.getD 0 0) 0 8) <<< 8 + (256 * w.part + w.ctx) <<< 16 + 1 <<< 28 + (w.seq % 2 ^ 32) <<< 32)

/-- Whether a context has an announced descriptor that is not dispatched (R132). -/
def announced (s : State) (k x : Nat) : Bool :=
  decide (rf s (pgPart k) (Reg.CTX_TAIL x) 0 32 ≠ rf s (pgPart k) (Reg.CTX_HEAD x) 0 32)

/-- `SCHED_STAT` (R132). -/
def schedStat (s : State) (k : Nat) : Word :=
  w64 (((List.range 256).countP fun x => ctxState s k x = 2) + ((List.range 256).countP fun x => announced s k x) <<< 16)

/-- `COH_STAT` (R290): the domain is in service while the partition is READY, ASSIGNED or SEALED and the domain is not
lost (log entry 60). -/
def cohStat (s : State) (k : Nat) : Word :=
  let up := (partState s k = 2 || partLive s k) && !(s.coh.lost.contains k)
  w64 (up.toNat + (min 255 (s.coh.txns.countP fun t => t.part = k)) <<< 8)

/-- The window page of R32 that shows page `p` to its partition's function. -/
def windowOf (p : Nat) : Option Nat :=
  match blockOf p with
  | some .devinfo => some 0
  | some .partition => some 1
  | some .manifest => some 2
  | some .quay => some 3
  | some .mbx => some 4
  | some .cluster => some (8 + (p - 256) % 8)
  | some .sweep => some (16 + (p - 512) % 4)
  | some .cvu => some (24 + (p - 16))
  | some .dma => some p
  | _ => none

/-- Page `p` holds the level of function `f` raised (R38, R347, R445). -/
def raisesFor (s : State) (f p : Nat) : Bool :=
  if blockOf p = some .mbx then
    let act := rd s p Reg.EVT_STAT &&& rd s p Reg.EVT_EN
    bit act f || bit act (17 + f)
  else
    let o := rf s p Reg.OWNER 0 8
    pageRaised s p && decide ((if o < 16 then o + 1 else 0) = f)

/-- `IRQ_SUMMARY` (R348): bit w stands for window page w. -/
def irqSummary (s : State) (k : Nat) : Word :=
  mask64 fun w => allPages.any fun p => visible s (k + 1) p && decide (windowOf p = some w) && raisesFor s (k + 1) p

/-- `IRQ_PEND_i` (R348): bit p mod 64 of register p div 64 stands for page p of F0. -/
def irqPend (s : State) (i : Nat) : Word := mask64 fun b => (blockOf (64 * i + b)).isSome && raisesFor s 0 (64 * i + b)

/-! ### MC, SITE, DMA, PWR -/

/-- `MC_REMAP_ENTRY` (R219). -/
def remapEntry (s : State) (m : Nat) : Word :=
  let sel := rd s (pgMc m) Reg.MC_REMAP_SEL
  match s.hbm.pool.find? fun e => e.m = m && e.pc = fld sel 0 5 && e.slot = fld sel 8 6 with
  | some e => remapWord e
  | none => 0

/-- `MC_REPAIR_LEFT` (R219): free pool entries, and the banks whose hard row is unused. -/
def repairLeft (s : State) (m : Nat) : Word :=
  let pc := rf s (pgMc m) Reg.MC_REMAP_SEL 0 5
  w64 (poolFree s m pc + (64 - s.hbm.hard.countP fun h => h.1 = m && h.2.1 = pc) <<< 8)

/-- `MC_RETIRE_ENTRY` (R219). -/
def retireEntry (s : State) (m : Nat) : Word :=
  match (s.hbm.retired.filter fun r => r.m = m)[rf s (pgMc m) Reg.MC_RETIRE_SEL 0 8]? with
  | some r => w64 ((r.page % 2 ^ 30) <<< 16 + r.blocked.toNat <<< 48 + (!r.blocked).toNat <<< 49 + 1 <<< 63)
  | none => 0

/-- The refresh rate of a controller (R219): fixed in strict mode, doubled when HOT. -/
def refreshRate (s : State) (m : Nat) : Nat :=
  if rb s (pgMc m) Reg.MC_CFG 0 then 2 else if rb s (pgMc m) Reg.MC_TEMP 8 then 1 else 0

/-- `DMA_STAT.RUN` (R368). -/
def dmaPhase (s : State) (c : Nat) : Nat :=
  let ch := s.chans.getD c chanReset
  if pageState s (pgDma c) = 5 then 4
  else if ch.held.isSome || ch.waiting then 2
  else if rb s pgPcie (Reg.DMA_ASSIGN c) 7 && !(decide (dState s (rf s pgPcie (Reg.DMA_ASSIGN c) 0 5) = 0)) then 3
  else if ch.cur.isSome then 1 else 0

/-- `DMA_STAT` (R368): a host read of the model returns within the command that makes it, so none is outstanding. -/
def dmaStat (s : State) (c : Nat) : Word :=
  let ch := s.chans.getD c chanReset
  let seq := match ch.cur with
    | some w => w.1
    | none => 0
  w64 (dmaPhase s c + ch.digest.isSome.toNat <<< 8 + (seq % 2 ^ 32) <<< 32)

/-- `SENSOR_DATA` (R329, R342): whole degrees, rounded down (log entry 39). -/
def sensorData (s : State) : Word :=
  let i := rf s pgPwr Reg.SENSOR_SEL 0 7
  if i < 80 then
    w64 (toByte (s.pwr.reads.getD i 0 / 10) + toByte (s.pwr.model.getD i 0 / 10) <<< 8 + (s.pwr.failed.contains i).toNat <<< 16)
  else 0

/-! ### ERR, EVR, SEC -/

/-- A byte of a dump slot (R431): the header; the sections' form is not given (log entry 7). -/
def dumpAt (s : State) (d : Dump) (i : Nat) : Byte :=
  let head : Bytes := natBytes 0x5A484430 4 ++ (List.range 4).map (fun j => Config.dumpByte (4 * d.tick + d.slot) (4 + j)) ++
    wordBytes s.fuse.unitId ++ wordBytes d.ident ++ natBytes (rf s 0 Reg.PWR_CYCLES 0 32) 4 ++
    [BitVec.ofNat 8 d.cause, if d.whole then 1 else 2, 0, 0] ++ natBytes d.tick 8
  if i < 40 then head.getD i 0 else if i < 64 then 0 else Config.dumpByte (4 * d.tick + d.slot) i

/-- A word of the dump window (R432): the slot and page that `DUMP_SEL` names. -/
def dumpWord (s : State) (off : Nat) : Word :=
  let sel := rd s pgErr Reg.DUMP_SEL
  match s.err.dumps.find? fun d => d.slot = fld sel 0 2 with
  | some d => bytesWord ((List.range 8).map fun j => dumpAt s d (4096 * fld sel 12 13 + off + j))
  | none => 0

/-- An entry of the recorder by its number: general entries, then the audit part (R448, R455). -/
def entryAt (s : State) (i : Nat) : Entry :=
  if i < 0x1C000 then s.evr.gen.getD i []
  else ((s.evr.audit.find? fun e => e.1 % 16384 = i - 0x1C000).map (·.2)).getD []

/-- A word of the recorder's window (R457). -/
def evrWord (s : State) (off : Nat) : Word := (entryAt s (rf s pgEvr Reg.EVR_CURSOR 0 17 + off / 64)).getD (off / 8 % 8) 0

/-- `LC_ROWS` (R409). -/
def lcRows (s : State) : Word :=
  w64 (lcNext s + (s.fuse.rows.countP fun r => r.void) <<< 8 + (48 - lcNext s) <<< 16)

/-- Words of the SEC page that show fuses, certificates and the staging buffer (R410). -/
def secWord (s : State) (off : Nat) : Word :=
  let f := s.fuse
  if off = Reg.SEC_VERSION then w64 (f.secVersion + s.boot.imageVersion <<< 16)
  else if off = Reg.OWNER_SLOT then (if f.ownerKeys.isEmpty then 0 else w64 (f.ownerKeys.length - 1 + 1 <<< 7))
  else if Reg.OWNER_KEY 0 ≤ off ∧ off < Reg.OWNER_KEY 4 then
    bytesWord (slice (f.ownerKeys.getLast?.getD []) (off - Reg.OWNER_KEY 0) 8)
  else if off = Reg.DEBUG_EPOCH then w64 f.debugEpoch
  else if off = Reg.GEOMETRY then setFld (rd s pgSec off) 16 16 f.geometry
  else if Reg.ADMIT_DIGEST 0 ≤ off ∧ off < Reg.ADMIT_DIGEST 8 then
    bytesWord (slice (f.admitDigests.getLast?.getD []) (off - Reg.ADMIT_DIGEST 0) 8)
  else if Reg.CERT 0 ≤ off ∧ off < Reg.CERT 4 then certWord (s.sec.certs.getD ((off - Reg.CERT 0) / 8) none)
  else if off = Reg.STAGE_LEN then w64 s.sec.stage.length
  else if 0x800 ≤ off ∧ off < 0x1000 then bytesWord (slice s.sec.stage (off - 0x800) 8)
  else rd s pgSec off

/-- `SCRUB_STAT` (R389, R392): while the fixed phase runs, its time in units of 100 µs, which is 2,500 ticks. -/
def scrubStat (s : State) (k : Nat) : Word :=
  let v := rd s (pgPart k) Reg.SCRUB_STAT
  match s.ten.scrubs.find? fun e => e.1 = k with
  | none => v
  | some e => setFld v 16 16 (min 450 (((rd s pgErr Reg.ERR_TIME).toNat - e.2) / 2500))

/-! ### A page's registers -/

/-- `PAGE_STAT.SUBSTATE` (R34, R106, R164, R219, R236, R294, R368, R370). -/
def substate (s : State) (p : Nat) : Nat :=
  match blockOf p with
  | some .cluster =>
    let c := p - 256
    (decide (coreState s c 16 = 1)).toNat + 2 * ((List.range 16).countP fun i => (mapEntry s c i).2)
  | some .sweep => fld (seRun s (p - 512)) 0 3
  | some .mc => refreshRate s (p - 640)
  | some .quay => (rb s p Reg.QUAY_SPARE 8).toNat
  | some .partition => rf s p Reg.PART_STATE 0 5
  | some .dma => dmaPhase s (p - 32)
  | some .site => rf s p Reg.PAGE_STAT 8 8
  | _ => 0

/-- What the register at `off` of page `p` shows to function `fn` (R9). -/
def showReg (s : State) (fn p off : Nat) : Word :=
  let v := rd s p off
  if off = Reg.PAGE_STAT then w64 (fld v 0 4 + substate s p <<< 8)
  else if off < 0x100 then v
  else
    match blockOf p with
    | none => 0
    | some .devinfo =>
      if off = Reg.DEV_IDENT then devIdent s
      else if off = Reg.UNIT_ID then (if s.boot.sensed then s.fuse.unitId else 0)
      else if off = Reg.CALLER then
        w64 ((decide (fn = 0)).toNat + (decide (fn ≠ 0)).toNat <<< 1 + (isDebugger s fn).toNat <<< 2 + fn <<< 8)
      else if off = Reg.OTP_REMAIN_A then otpRemainA s
      else if off = Reg.OTP_REMAIN_B then otpRemainB s
      else v
    | some .lc =>
      if off = Reg.LC_STATE then setFld v 0 8 (lcState s)
      else if off = Reg.LC_ROWS then lcRows s
      else if off = Reg.LC_TOKENS then w64 s.fuse.tokens
      else v
    | some .sec => secWord s off
    | some .pwr => if off = Reg.SENSOR_DATA then sensorData s else v
    | some .err =>
      if off = Reg.COLL_STAT then setFld v 0 9 (collUsed s)
      else if Reg.JOB 1 ≤ off ∧ off < Reg.JOB 256 then setFld v 8 1 (!(jobMembers s ((off - Reg.JOB 0) / 8)).isEmpty).toNat
      else if Reg.DUMP_WINDOW ≤ off ∧ off < Reg.DUMP_WINDOW + 0x1000 then dumpWord s (off - Reg.DUMP_WINDOW)
      else v
    | some .evr =>
      if off = Reg.EVR_TIME then evrNow s
      else if Reg.EVR_WINDOW ≤ off ∧ off < Reg.EVR_WINDOW + 0x1000 then evrWord s (off - Reg.EVR_WINDOW)
      else v
    | some .i3c => if off = Reg.I3C_PID then w64 (i3cPid s) else v
    | some .pcie =>
      if off = Reg.INTX_FUNC then w64 (levelMask s % 2 ^ 17 + s.pcie.wire.toNat <<< 32)
      else if Reg.IRQ_PEND 0 ≤ off ∧ off < Reg.IRQ_PEND 11 then irqPend s ((off - Reg.IRQ_PEND 0) / 8)
      else v
    | some .mbx =>
      -- R446: the response of a request that came by the I3C port reads zero.
      if 0x1000 ≤ off ∧ 0x200 ≤ off % 0x400 ∧ off % 0x400 < 0x300 ∧ rb s p (Reg.MBX_STAT ((off - 0x1000) / 0x400)) 4 then 0
      else v
    | some .cvu => v
    | some .dma => if off = Reg.DMA_STAT then dmaStat s (p - 32) else v
    | some .manifest =>
      let k := p - 64
      if off = Reg.FAULT_STAT then
        w64 ((s.xlat.recs.countP fun r => r.info.part = k) +
          (min 255 (s.xlat.waiting.countP fun i => i.part = k)) <<< 8)
      else if off = Reg.PINNED then w64 (s.xlat.slice.countP fun e => e.part = k && e.pin)
      else if off = Reg.INV_LAST then w64 (tally s.xlat.invLast (17 * k + fn))
      else v
    | some .partition =>
      if off = Reg.SCRUB_STAT then scrubStat s (p - 128)
      else
      let k := p - 128
      if off = Reg.CLUSTER_STATE then
        w64 ((List.range 8).foldl (fun n m => n + pageState s (pgCl (8 * k + m)) <<< (4 * m)) 0)
      else if off = Reg.CORES_UP then coresUp s k
      else if off = Reg.DOWN_MASK_LO then w64 (downMask s k % 2 ^ 64)
      else if off = Reg.DOWN_MASK_HI then w64 (downMask s k / 2 ^ 64)
      else if off = Reg.SCHED_STAT then schedStat s k
      else if off = Reg.COH_STAT then cohStat s k
      else if off = Reg.IRQ_SUMMARY then irqSummary s k
      else if Reg.GBAR 0 ≤ off ∧ off < Reg.GBAR 32 then rd s (pgPart 0) off
      else if Reg.CTX_OUT 0 ≤ off ∧ off < Reg.CTX_OUT 256 then
        setFld v 31 1 (ctxDead s k ((off - Reg.CTX_OUT 0) / 8)).toNat
      else v
    | some .sweep => if off = Reg.SE_RUN then seRun s (p - 512) else v
    | some .cluster => v
    | some .mc =>
      let m := p - 640
      if off = Reg.MC_REMAP_ENTRY then remapEntry s m
      else if off = Reg.MC_REPAIR_LEFT then repairLeft s m
      else if off = Reg.MC_RETIRE_ENTRY then retireEntry s m
      else v
    | some .quay =>
      if off = Reg.QUAY_PORT_STAT then w64 (s.heldPorts.countP fun e => e.1 = some (p - 656)) else v
    | some .ring =>
      let r := p - 680
      let sel := rd s p Reg.LANE_SEL
      if off = Reg.DEAL_DATA then readDeal s r
      else if off = Reg.RING_LANE_STAT then laneWord s r (fld sel 0 3) (bit sel 4) (fld sel 8 2)
      else if off = Reg.ROUTE_DATA ∧ r = 0 then
        w64 (tally s.fab.routes (rf s p Reg.ROUTE_SEL 0 6 * 64 + rf s p Reg.ROUTE_SEL 8 6))
      else v
    | some .site =>
      if off = Reg.SITE_MOD_STAT then ((s.sites[p - 700]?).bind fun x => x.modStat[rf s p Reg.SITE_MOD_SEL 0 4]?).getD 0
      else v

end Sys2Proof.Machine
end

