-- ==== Sys2Proof/Machine/Ops.lean ====
section
/-!
DEFINITION. The named operations the commands share: register and memory writes, page events and the
interrupt wire, the error record, rejection, the event recorder, page states, and the check of a requester.
-/

namespace Sys2Proof.Machine

/-! ### Registers -/

/-- Write the register at offset `off` of page `p`. -/
def wr (s : State) (p off : Nat) (v : Word) : State :=
  { s with regs := sparseSet regReset s.regs (regAddr p off) v }

/-- Write one field of a register. -/
def wf (s : State) (p off lo n v : Nat) : State := wr s p off (setFld (rd s p off) lo n v)

/-- Write one bit of a register. -/
def wb (s : State) (p off i : Nat) (b : Bool) : State := wf s p off i 1 b.toNat

/-- Add to a counter of 64 bits. -/
def addReg (s : State) (p off n : Nat) : State := wr s p off (rd s p off + w64 n)

/-- Write consecutive words from a register. -/
def wrWords (s : State) (p : Nat) : Nat → List Word → State
  | _, [] => s
  | off, v :: t => wrWords (wr s p off v) p (off + 8) t

/-- Return every register of page `p` with an offset from `lo` up to `hi` to its reset value. -/
def resetRegs (s : State) (p lo hi : Nat) : State :=
  { s with regs := sparseDrop s.regs (regAddr p lo) (regAddr p hi) }

/-- Put what the package sends on its output. -/
def emit (s : State) (o : Out) : State := { s with out := s.out ++ [o] }

/-- Draw a free value: the number to apply a free constant of `Config` to (log entry 7). -/
def draw (s : State) : Nat × State := (s.free, { s with free := s.free + 1 })

/-! ### Device memory, host memory -/

/-- What a byte of device memory that nothing has written reads as (log entry 3). -/
def memZero (_ : Nat) : Byte := 0

/-- The byte of device memory at a device physical address. -/
def readMem (s : State) (a : Nat) : Byte := sparseGet memZero s.mem a

/-- `n` bytes of device memory. -/
def readBytes (s : State) (a n : Nat) : Bytes := sparseRun memZero s.mem a n

/-- Write bytes of device memory. -/
def writeBytes (s : State) (a : Nat) (b : Bytes) : State := { s with mem := sparsePut memZero s.mem a b }

/-- Write zeros to device memory from `lo` up to `hi`. -/
def clearMem (s : State) (lo hi : Nat) : State := { s with mem := sparseDrop s.mem lo hi }

/-- `n` bytes of host memory. -/
def readHost (s : State) (a n : Nat) : Bytes := sparseRun memZero s.hostMem a n

/-- Write bytes of host memory. -/
def writeHost (s : State) (a : Nat) (b : Bytes) : State := { s with hostMem := sparsePut memZero s.hostMem a b }

/-- Host memory after the host has written single bytes of it. -/
def hostWrites (s : State) (l : List (Nat × Byte)) : State :=
  l.foldl (fun s e => writeHost s e.1 [e.2]) s

/-! ### Page events and the interrupt wire (R36 to R38, R347, R350) -/

/-- Set a bit of `EVT_STAT` and nothing else. -/
def rawEvt (s : State) (p b : Nat) : State := wb s p Reg.EVT_STAT b true

/-- The pages of the management island, which alone raise a level in D3cold (R350). -/
def mgmtPage (p : Nat) : Bool := p = 1 || p = 2 || p = 4 || p = 5 || p = 6 || p = 8 || p = 9

/-- Send PM_PME and set PME_Status for every function of `rising` that is in D1 or D3hot with PME_En
(R350). -/
def sendPme (s : State) (rising : Nat) : State :=
  (bitsOf rising 17).foldl
    (fun s f =>
      match s.pcie.cfg[f]? with
      | some c =>
        if c.pmeEn && !(decide (dState s f = 0)) then
          emit { s with pcie := { s.pcie with cfg := s.pcie.cfg.set f { c with pmeStatus := true } } } (.pmPme f)
        else s
      | none => s) s

/-- Bring the wire, the messages, PME and WAKE# up to date with the levels (R347, R350): the wire is asserted
while a function with a raised level is in D0 with Interrupt Disable clear. -/
def updWire (s : State) : State :=
  let lv := levelMask s
  let rising := maskOf ((bitsOf lv 17).filter fun f => !s.pcie.levels.testBit f)
  let s := sendPme { s with pcie := { s.pcie with levels := lv } } rising
  let wire := (bitsOf lv 17).any fun f =>
    decide (dState s f = 0) && !((s.pcie.cfg[f]?.map (·.intDisable)).getD false)
  let s :=
    if wire = s.pcie.wire || !s.pcie.link then s
    else emit { s with pcie := { s.pcie with wire := wire } } (if wire then .assertInta else .deassertInta)
  if s.pcie.d3cold && s.board.perst && (allPages.any fun p => mgmtPage p && pageRaised s p) then
    { s with board := { s.board with wake := true } }
  else s

/-- A cause of an in-band interrupt occurs (R440): it waits to be raised if its bit of `I3C_CFG` is set; byte 0x04 has no
bit. -/
def queueIbi (s : State) (b : Nat) : State :=
  if b = 4 ∨ rb s pgI3c Reg.I3C_CFG (7 + b) then { s with i3c := { s.i3c with ibis := s.i3c.ibis ++ [BitVec.ofNat 8 b] } }
  else s

/-! ### The event recorder (R448 to R456) -/

/-- One entry of R449: its kind, code, count of snapshots and the six words. -/
def mkEntry (s : State) (kind code nsnap : Nat) (snaps : List Word) : Entry :=
  [evrNow s,
   w64 ((rd s 0 Reg.PWR_CYCLES).toNat % 2 ^ 32 + (rf s pgEvr Reg.EVR_EPOCH 0 16) <<< 32 + (code % 64) <<< 48 +
     (nsnap % 8) <<< 54 + (kind % 4) <<< 57 + 1 <<< 63)] ++ (snaps ++ List.replicate 6 0).take 6

/-- Add a report to those that wait: at one source a further error with the same ORIGIN and CODE adds to its count, which
saturates (R412). -/
def addReport : List Report → Report → List Report
  | [], r => [r]
  | q :: t, r =>
    if q.reporter = r.reporter ∧ q.origin = r.origin ∧ q.code = r.code then { q with count := min (q.count + r.count) 65535 } :: t
    else q :: addReport t r

/-- Record an error of the EVR page in its own header, without a trigger (R39); the interrupt wire follows the bits that
have been set there (R38). -/
def evrErr (s : State) (code : Nat) : State :=
  let s := addReg s pgEvr Reg.ERR_COUNT 1
  let s :=
    if rb s pgEvr Reg.ERR_FIRST 63 then wb s pgEvr Reg.ERR_FIRST 62 true
    else wr s pgEvr Reg.ERR_FIRST (bitW 63 ||| w64 code)
  let s := rawEvt s pgEvr 62
  updWire { s with err := { s.err with reports := addReport s.err.reports ⟨pgEvr, pgEvr, code, 0, 0, none, 1⟩ } }

/-- Write one entry to the general part, or count it as lost once the part is full (R453). -/
def genWrite (s : State) (e : Entry) : State :=
  if s.evr.gen.length < 114688 then
    let s := { s with evr := { s.evr with gen := s.evr.gen ++ [e] } }
    let s := wf s pgEvr Reg.EVR_STAT 0 17 s.evr.gen.length
    if s.evr.gen.length = 114688 then evrErr (rawEvt (wb s pgEvr Reg.EVR_STAT 31 true) pgEvr 0) 1 else s
  else
    let s := if rd s pgEvr Reg.EVR_LOST = 0 then wr s pgEvr Reg.EVR_FIRST_LOST (evrNow s) else s
    addReg s pgEvr Reg.EVR_LOST 1

/-- Audit entries in use (R455). -/
def auditUsed (s : State) : Nat :=
  ((rd s pgEvr Reg.AUDIT_NEXT).toNat - (rd s pgEvr Reg.AUDIT_BASE).toNat)

/-- At least 64 audit entries are free, so a command that would write one may run (R455). -/
def auditRoom (s : State) : Bool := decide (auditUsed s + 64 ≤ 16384)

/-- Write one audit entry (R455): the next sequence number, or a count in `AUDIT_LOST` when none is free.
AUDIT_LOW is recorded when 64 remain free. -/
def audit (s : State) (code : Nat) (snaps : List Word) : State :=
  if auditUsed s < 16384 then
    let n := rd s pgEvr Reg.AUDIT_NEXT
    let e := mkEntry s 2 code snaps.length snaps
    let s := { s with evr := { s.evr with audit := s.evr.audit ++ [(n.toNat, e)] } }
    let s := wr s pgEvr Reg.AUDIT_NEXT (n + 1)
    if 16384 - auditUsed s = 64 then evrErr (rawEvt s pgEvr 1) 2 else s
  else addReg s pgEvr Reg.AUDIT_LOST 1

/-- Write one SYSTEM entry (R450): SNAP_0 holds the source page. -/
def systemEntry (s : State) (code page : Nat) (snaps : List Word) : State :=
  genWrite s (mkEntry s 1 code (1 + snaps.length) (w64 page :: snaps))

/-- What a snapshot selector shows (R451, R452): the register, without side effect; zero for a partition's
block-specific register under seal, for key material and the staging buffer, and where no register is. -/
def snapshot (s : State) (sel : Nat) : Word :=
  let p := sel % 2048
  let off := (sel / 2048 % 8192) * 8
  let hidden := match ownerPart s p with
    | some k => sealHeld s k && decide (0x100 ≤ off)
    | none => decide (p = pgSec) && decide (0x800 ≤ off)
  if hidden then 0 else showReg s 0 p off

/-- Fire trigger `t` (R451): a TRIGGER entry with the snapshots its selectors name. -/
def fireTrigger (s : State) (t : Nat) : State :=
  let n := min 6 (rf s pgEvr (Reg.EVR_TRIG t) 24 3)
  genWrite s (mkEntry s 0 t n ((List.range n).map fun i => snapshot s (rf s pgEvr (Reg.EVR_SEL t i) 0 24)))

/-- Fire every enabled trigger that watches bit `b` of page `p` (R451). -/
def fireTriggers (s : State) (p b : Nat) : State :=
  (List.range 64).foldl
    (fun s t =>
      let v := rd s pgEvr (Reg.EVR_TRIG t)
      if bit v 32 && decide (fld v 0 11 = p) && decide (fld v 16 6 = b) then fireTrigger s t else s) s

/-- Raise an event (R36): set the bit, and on its rising edge fire the triggers that watch it; the
interrupt wire follows. -/
def raiseEvt (s : State) (p b : Nat) : State :=
  if rb s p Reg.EVT_STAT b then s else updWire (fireTriggers (rawEvt s p b) p b)

/-! ### Errors, rejection, page states -/

/-- An error that page `p` detects (R39, R412): counted, captured or marked MORE, raised as ERROR, and
reported with its class (R411) and origin. -/
def countErrorAt (s : State) (p code status cls : Nat) (ctx : Option Nat) (origin : Nat) : State :=
  let s := addReg s p Reg.ERR_COUNT 1
  let s :=
    if rb s p Reg.ERR_FIRST 63 then wb s p Reg.ERR_FIRST 62 true
    else wr s p Reg.ERR_FIRST
      (bitW 63 ||| w64 (code % 256 + (status % 256) <<< 8 +
        (match ctx with
         | some c => (c % 4096) <<< 16 + 1 <<< 28
         | none => 0)))
  let s := { s with err := { s.err with reports := addReport s.err.reports ⟨origin, p, code, status, cls, ctx, 1⟩ } }
  raiseEvt s p 62

/-- An error whose origin is the page that detects it. -/
def countError (s : State) (p code status cls : Nat) (ctx : Option Nat) : State :=
  countErrorAt s p code status cls ctx p

/-- A rejection on page `p` (R4, R36): `REJECT_COUNT` rises and `EVT_STAT.REJECT` is set, nothing else. -/
def reject (s : State) (p : Nat) : State := raiseEvt (addReg s p Reg.REJECT_COUNT 1) p 63

/-- Set `PAGE_STAT.STATE`, raising STATE_CHANGE when it changes (R34, R36). -/
def setState (s : State) (p st : Nat) : State :=
  if pageState s p = st then s else raiseEvt (wf s p Reg.PAGE_STAT 0 4 st) p 61

/-- A ring with a link that was marked down stays in FAULT until power-on (R266). -/
def ringFaulted (s : State) (p : Nat) : Bool := decide (680 ≤ p) && s.fab.faulted.contains (p - 680)

/-- The STATE in which a page is in service: READY, but for a ring whose link went down. -/
def readyState (s : State) (p : Nat) : Nat := if ringFaulted s p then 5 else 3

/-- Bring a page into service as Tuiner does during bring-up (R35): ENABLE set, READY, unless it is FENCED. -/
def pageUp (s : State) (p : Nat) : State :=
  let s := wb s p Reg.PAGE_CTL 0 true
  if pageState s p = 6 ∨ pageState s p = 5 then s else setState s p (readyState s p)

/-- Clear bits of `EVT_STAT`; the wire follows (R37, R38). -/
def clearEvts (s : State) (p : Nat) (m : Word) : State :=
  updWire (wr s p Reg.EVT_STAT (rd s p Reg.EVT_STAT &&& ~~~m))

/-! ### Requesters -/

/-- The roles of `fn` permit the write, and bring-up has ended or is over the recovery path, or the page is one the
OPERATOR may write before that (R3, R4, R477). -/
abbrev gateOk (s : State) (fn p off : Nat) : Bool :=
  mayWrite s fn p off &&
    (s.boot.phase = .ready || s.boot.phase = .recovery || fn ≠ 0 ||
      (match blockOf p with
       | some .err | some .evr | some .mbx => true
       | _ => false))

/-- A register write by function `fn` (R4, R31, R36, R346, R477): discarded where the page does not exist for the
function or the function does not answer; rejected where its role does not permit it or bring-up has not ended; else `k`. -/
def withWrite (s : State) (fn p off : Nat) (k : State → State) : State :=
  if !(barOpen s fn && visible s fn p && responds s p) then s
  else if gateOk s fn p off then k s
  else reject s p

/-- A register write that only the OPERATOR may make, or a DEBUGGER whose certificate lists it (R3, R4). -/
def withOperator (s : State) (fn p off : Nat) (k : State → State) : State :=
  withWrite s fn p off fun s => if actsOn s fn p true then k s else reject s p

/-- A write that is legal only under `ok`, else rejected under R36. -/
def guarded (s : State) (p : Nat) (ok : Bool) (k : State → State) : State := if ok then k s else reject s p

/-! ### Partitions -/

/-- Set a partition's state, raising PART_STATE_CHANGED when it changes (R370, R393). -/
def setPart (s : State) (k st : Nat) : State :=
  if partState s k = st then s else raiseEvt (wf s (pgPart k) Reg.PART_STATE 0 4 st) (pgPart k) 9

/-- Set SEAL_HELD, raising PART_STATE_CHANGED when it changes (R371, R393). -/
def setSeal (s : State) (k : Nat) (b : Bool) : State :=
  if sealHeld s k = b then s else raiseEvt (wb s (pgPart k) Reg.PART_STATE 4 b) (pgPart k) 9

/-- A share window: valid, write, first byte and size in bytes (R169). -/
def shareWin (s : State) (k n : Nat) : Bool × Bool × Nat × Nat :=
  let v := rd s (pgMf k) (Reg.SHARE_WIN n)
  (bit v 0, bit v 1, (fld v 21 25) * 2 ^ 21, (fld v 2 14 + 1) * 2 ^ 21)

/-- The first byte of the HBM group of partition `k` (R167). -/
def groupBase (k : Nat) : Nat := k * 0x800000000

/-- The addressable bytes of a group: 366,210 pages of 64 KiB (R167). -/
def groupSize : Nat := 0x596820000

/-- The first byte of quay slice `k` (R167). -/
def quayBase (k : Nat) : Nat := 0x10000000000 + k * 0x4000000

/-- The bytes of a quay slice (R19, R167). -/
def quaySize : Nat := 0x4000000

/-- `a` lies in the `n` bytes from `b`. -/
def inRange (a b n : Nat) : Bool := decide (b ≤ a) && decide (a < b + n)

/-- A device physical address lies in the HBM group or the quay slice of partition `k` (R167). -/
def inPartition (k a : Nat) : Bool := inRange a (groupBase k) groupSize || inRange a (quayBase k) quaySize

/-- The partition whose group or slice holds a device physical address; none where it is reserved (R167). -/
def partOfAddr (a : Nat) : Option Nat := (List.range 16).find? fun k => inPartition k a

/-- The conditions of `ISO_STAT` for partition `k`, bits 0 to 7 (R378). -/
def isoConds (s : State) (k : Nat) : List Bool :=
  [ (List.range 8).all fun r => rb s (pgRing r) Reg.RING_CTL 0,
    (List.range 8).all fun m => rb s (pgMc m) Reg.MC_CFG 0,
    rb s (pgQuay k) Reg.QUAY_CFG 0,
    (List.range 16).all fun j => (List.range 4).all fun n =>
      let w := shareWin s j n
      !w.1 || (decide (j ≠ k) && !(inPartition k w.2.2.1)),
    (List.range 4).all fun t =>
      !(rf s (pgSite t) Reg.SITE_ASSIGN 0 16).testBit k || rb s (pgSite t) Reg.SITE_CFG 0,
    rb s pgPwr Reg.PWR_CTL 0,
    rb s pgPcie Reg.DMA_CTL 0,
    !(allGrants s).any fun g =>
      allPages.any fun p => decide (g.2.2.1 ≤ p) && decide (p ≤ g.2.2.2) && decide (g.2.1 % 4 ≠ 0) &&
        (match ownerPart s p with
         | some j => decide (partFn j ≠ g.1)
         | none => false) ]

/-- `ISO_STAT` of partition `k` as the present configuration gives it: the eight conditions and GUARANTEED
(R378). -/
def isoValue (s : State) (k : Nat) : Nat :=
  let c := isoConds s k
  maskOf ((List.range 8).filter fun i => c.getD i false) + (if c.all id then 0x8000 else 0)

/-- Bring every partition's `ISO_STAT` up to date, raising ISO_CHANGED where it changes (R378, R393). -/
def updIso (s : State) : State :=
  (List.range 16).foldl
    (fun s k =>
      let v := isoValue s k
      if rf s (pgPart k) Reg.ISO_STAT 0 16 = v then s
      else raiseEvt (wf s (pgPart k) Reg.ISO_STAT 0 16 v) (pgPart k) 8) s

/-! ### What a reset of a page keeps (R40, R41) -/

/-- A register that its chapter marks sticky. -/
def stickyReg (b : Block) (off : Nat) : Bool :=
  match b with
  | .cluster => decide (0x100 ≤ off) && decide (off ≤ 0x120) || off = Reg.BANK_REMAP
  | .partition => off = Reg.COH_FAULT || off = Reg.HANG_LAST || off = Reg.HANG_WAIT || off = Reg.FENCE_TOTAL
  | .sweep => off = Reg.SE_FAULT_LAST
  | .mc => off = Reg.MC_RETIRE_COUNT
  | .quay => off = Reg.QUAY_BANK_MAP || off = Reg.QUAY_SPARE
  | .ring => decide (0x180 ≤ off) && decide (off < 0x200)
  | .site => off = Reg.SITE_ASSIGN || off = Reg.SITE_SHARE
  | .pwr => off = Reg.PWR_CTL || off = Reg.PWR_RESERVE || (decide (0x180 ≤ off) && decide (off < 0x2A0)) ||
      off = Reg.PWR_STAT
  | .pcie => off = Reg.DMA_CTL || (decide (0x200 ≤ off) && decide (off < 0x300))
  | _ => false

/-- What a register of the page holds after a RESET_REQ (R40, R41): sticky fields and, under LOCK, RWL fields stay. -/
def resetWord (s : State) (p off : Nat) (b : Block) (v : Word) : Word :=
  let r := regReset (regAddr p off)
  if off = Reg.PWR_STAT ∧ b = .pwr then v &&& 1
  else if stickyReg b off then v
  else
    match b with
    | .pwr => if off = Reg.PWR_PERIODS then v else r &&& ~~~(lockedMask p off) ||| v &&& lockedMask p off
    | .partition => if (0x700 ≤ off ∧ off < 0x1000) ∨ (Reg.GBAR 0 ≤ off ∧ off < Reg.GBAR 32) then v else r
    | .i3c => if off = Reg.I3C_STAT then v &&& 0xF00 else r &&& ~~~(lockedMask p off) ||| v &&& lockedMask p off
    | _ => r &&& ~~~(lockedMask p off) ||| v &&& lockedMask p off
where
  lockedMask (p off : Nat) : Word :=
    if locked s p then
      match regRow p off with
      | some row => w64 row.rwl
      | none => 0
    else 0

/-- The block-specific registers of a page return to what `resetWord` says. -/
def resetPageRegs (s : State) (p : Nat) : State :=
  match blockOf p with
  | none => s
  | some b =>
    (s.regs.filter fun e => decide (e.1 / 0x10000 = p) && decide (0x100 ≤ e.1 % 0x10000)).foldl
      (fun t e => wr t p (e.1 % 0x10000) (resetWord s p (e.1 % 0x10000) b e.2)) s

/-- The union of two defect maps. -/
def joinMaps (a b : FieldMap) : FieldMap :=
  ⟨a.cores ++ b.cores, a.engines ++ b.engines, a.cacheBanks ++ b.cacheBanks, a.quayBanks ++ b.quayBanks, a.links ++ b.links,
    a.modules ++ b.modules, a.halves ++ b.halves, a.spares ++ b.spares⟩

/-- The defect map that applies (R478): the factory map and the field map; the factory map alone where the field map's CRC
fails. -/
def mapInForce (s : State) : FieldMap :=
  if s.flash.fieldMapOk then joinMaps s.fuse.factory s.flash.fieldMap else s.fuse.factory

end Sys2Proof.Machine
end

