-- ==== Sys2Proof/Machine/Store.lean ====
section
/-!
DEFINITION. Where device memory lies, and what its errors do: the address decodes of the controllers and slices
(R196 to R198, R222), row repair and page retirement (R210 to R214), bank replacement (R228, R229), the byte counters.
-/

namespace Sys2Proof.Machine

/-- The bytes of one side of an HBM group (R197). -/
def sideSize : Nat := 0x2CB410000

/-- The bytes of a pseudo-channel that addresses reach (R197, R198). -/
def pcSize : Nat := 1499996160

/-- The partition whose HBM group holds a device physical address (R167). -/
def groupOf (a : Nat) : Option Nat := (List.range 16).find? fun k => inRange a (groupBase k) groupSize

/-- The partition whose quay slice holds a device physical address (R167). -/
def quayOf (a : Nat) : Option Nat := (List.range 16).find? fun k => inRange a (quayBase k) quaySize

/-- The controller, pseudo-channel and address within it of an HBM address (R197). -/
def hbmPlace (a : Nat) : Option (Nat × Nat × Nat) :=
  match groupOf a with
  | none => none
  | some k =>
    let g := a - groupBase k
    let side := if g < sideSize then 0 else 1
    let o := g - side * sideSize
    some (k % 4 + 4 * side, 8 * (k / 4) + ((o / 256 % 8) ^^^ (o / 2048 % 8)), o % 256 + o / 2048 * 256)

/-- The device physical address of an address within a pseudo-channel: the inverse of `hbmPlace`. -/
def hbmAddr (m pc q : Nat) : Nat :=
  groupBase (4 * (pc / 8) + m % 4) + m / 4 * sideSize +
    (q % 256 + ((pc % 8) ^^^ (q / 256 % 8)) * 256 + q / 256 * 2048)

/-- Row of an address within a pseudo-channel (R198). -/
def hbmRow (q : Nat) : Nat := q / 65536

/-- Bank index of an address within a pseudo-channel (R198). -/
def hbmBank (q : Nat) : Nat := q / 1024 % 64

/-- The bank of a slice offset (R222). -/
def quayBank (o : Nat) : Nat := (o / 128 % 64) ^^^ (o / 8192 % 64)

/-- The bytes that one check covers: a 32-byte burst of HBM (R208), a 64-bit word of a slice (R221). -/
def unitSize (a : Nat) : Nat := if a < 0x10000000000 then 32 else 8

/-- The first byte of the burst or word that holds `a`. -/
def unitOf (a : Nat) : Nat := a / unitSize a * unitSize a

/-- The bursts or words of the range that cannot be corrected. -/
def badUnits (s : State) (a n : Nat) : List Nat :=
  s.ue.filter fun g => decide (g < a + n) && decide (a < g + unitSize g)

/-- Some page of the range is BLOCKED (R214), or its stack has lost a rail (R489). -/
def blockedRange (s : State) (a n : Nat) : Bool :=
  (decide (s.boot.lostRails ≠ 0) &&
    (match hbmPlace a with
     | some (m, _, _) => s.boot.lostRails.testBit m
     | none => false)) ||
  s.hbm.retired.any fun r => r.blocked && decide (r.page * 65536 < a + n) && decide (a < r.page * 65536 + 65536)

/-- An access of the range cannot be completed: a burst or word that cannot be corrected, or a BLOCKED page. -/
def rangeUe (s : State) (a n : Nat) : Bool := !(badUnits s a n).isEmpty || blockedRange s a n

/-- A count list with one more for a key. -/
def tallyUp (l : List (Nat × Nat)) (i : Nat) : List (Nat × Nat) :=
  (l.filter fun e => e.1 ≠ i) ++ [(i, tally l i + 1)]

/-! ### Row repair and retirement -/

/-- A retirement (R214): by an uncorrectable read the page becomes BLOCKED, by the corrected threshold SOFT; a full
table records RETIRE_FULL and blocks nothing. -/
def retirePage (s : State) (m page : Nat) (byUe : Bool) : State :=
  let st := if byUe then 4 else 0
  let p := pgMc m
  if s.hbm.retired.any fun r => r.m = m && r.page = page then
    if byUe && s.hbm.retired.any fun r => r.m = m && r.page = page && !r.blocked then
      let l := s.hbm.retired.map fun r => if r.m = m && r.page = page then { r with blocked := true } else r
      countError { s with hbm := { s.hbm with retired := l } } p 4 st 1 none
    else s
  else if (s.hbm.retired.countP fun r => r.m = m) < 256 then
    let s := countError { s with hbm := { s.hbm with retired := s.hbm.retired ++ [⟨m, page, byUe⟩] } } p 4 st 1 none
    raiseEvt (wr s p Reg.MC_RETIRE_COUNT (rd s p Reg.MC_RETIRE_COUNT + 1)) p 1
  else countError s p 5 st 1 none

/-- A row needs repair (R211, R212, R214): one repair of a row at a time; it takes a free pool entry and the bank's
next reserve row, or its page is retired. -/
def needRepair (s : State) (m pc q page cause : Nat) : State :=
  let row := hbmRow q
  let bank := hbmBank q
  let same (e : PoolEntry) : Bool := e.m = m && e.pc = pc && e.row = row && e.bank = bank
  if s.hbm.pool.any fun e => same e && !e.valid then s
  else
    let key := (m * 32 + pc) * 64 + bank
    let again := s.hbm.pool.any same || s.hbm.hard.contains (m, pc, bank, row)
    match (List.range 64).find? fun i => !(s.hbm.pool.any fun e => e.m = m && e.pc = pc && e.slot = i) with
    | none => retirePage s m page (cause = 1)
    | some slot =>
      if tally s.hbm.spares key < 7 then
        let ne : PoolEntry := ⟨m, pc, slot, row, bank, tally s.hbm.spares key, cause, again, false⟩
        let s := { s with hbm := { s.hbm with
            pool := s.hbm.pool ++ [ne]
            repairs := s.hbm.repairs ++ [(m, pc, slot)]
            spares := tallyUp s.hbm.spares key } }
        if poolFree s m pc = 8 then raiseEvt s (pgMc m) 2 else s
      else retirePage s m page (cause = 1)

/-- A read, or the read of a read-modify-write, finds an HBM burst that cannot be corrected (R209, R212). -/
def mcUe (s : State) (a code : Nat) (ctx : Option Nat) : State :=
  match hbmPlace a with
  | none => s
  | some (m, pc, q) =>
    let s := addReg s (pgMc m) Reg.MC_UE_COUNT 1
    needRepair (countError s (pgMc m) code 4 1 ctx) m pc q (a / 65536) 1

/-- `CE_THRESH`, where 0 is taken as 4 (R219, R236). -/
def ceThresh (v : Nat) : Nat := if v = 0 then 4 else v

/-- A corrected burst (R210): counted, and per row in the 256-entry table, where the row with the lowest count gives
way; at the threshold the row is repaired. -/
def mcCorr (s : State) (a : Nat) : State :=
  match hbmPlace a with
  | none => s
  | some (m, pc, q) =>
    let s := addReg s (pgMc m) Reg.MC_CORR_COUNT 1
    let key := (pc * 32768 + hbmRow q) * 64 + hbmBank q
    let mine := s.hbm.ce.filter fun e => e.1 = m
    let n := ((mine.find? fun e => e.2.1 = key).map (·.2.2)).getD 0 + 1
    let low := mine.foldl (fun b e => min b e.2.2) 65536
    let drop := if n = 1 ∧ 256 ≤ mine.length then mine.find? fun e => e.2.2 = low else none
    let ce := (s.hbm.ce.filter fun e => !(e.1 = m && e.2.1 = key) && some e ≠ drop) ++ [(m, key, n)]
    let s := { s with hbm := { s.hbm with ce := ce } }
    if ceThresh (rf s (pgMc m) Reg.MC_CFG 8 4) ≤ n then needRepair s m pc q (a / 65536) 2 else s

/-! ### Bank replacement -/

/-- The field map keeps a bank that failed (R228, R229). -/
def saveQuayBank (s : State) (k bank : Nat) : State :=
  { s with flash := { s.flash with fieldMap := { s.flash.fieldMap with
      quayBanks := s.flash.fieldMap.quayBanks ++ [(k, bank)] } } }

/-- A bank of slice `k` needs replacement (R228, R229): one replacement of a bank at a time; without a spare the slice
becomes DEGRADED, and the field map keeps the bank for the next power-on. -/
def needBank (s : State) (k bank : Nat) : State :=
  if s.quay.replacing.contains (k, bank) then s
  else if rf s (pgQuay k) Reg.QUAY_SPARE 0 4 + (s.quay.replacing.countP fun e => e.1 = k) < 8 then
    { s with quay := { s.quay with replacing := s.quay.replacing ++ [(k, bank)] } }
  else if rb s (pgQuay k) Reg.QUAY_SPARE 8 then
    (if s.flash.fieldMap.quayBanks.contains (k, bank) then s else saveQuayBank s k bank)
  else
    raiseEvt (countError (wb (saveQuayBank s k bank) (pgQuay k) Reg.QUAY_SPARE 8 true) (pgQuay k) 3 0 1 none) (pgQuay k) 1

/-- The bank of the slice word at `a` fails (R228). -/
def bankFails (s : State) (a : Nat) : State :=
  match quayOf a with
  | none => s
  | some k => needBank s k (quayBank (a - quayBase k))

/-- A read, or the read of a read-modify-write, finds a slice word that cannot be corrected (R227, R228). -/
def quayUe (s : State) (a code : Nat) (ctx : Option Nat) : State :=
  match quayOf a with
  | none => s
  | some k =>
    bankFails (countError (addReg s (pgQuay k) Reg.QUAY_UE_COUNT 1) (pgQuay k) code 4 1 ctx) a

/-- A corrected word (R227, R228): counted, and per bank since power-on. -/
def quayCorr (s : State) (a : Nat) : State :=
  match quayOf a with
  | none => s
  | some k =>
    let s := addReg s (pgQuay k) Reg.QUAY_CORR_COUNT 1
    let bank := quayBank (a - quayBase k)
    let s := { s with quay := { s.quay with errs := tallyUp s.quay.errs (64 * k + bank) } }
    if 16 * ceThresh (rf s (pgQuay k) Reg.QUAY_CFG 24 4) ≤ tally s.quay.errs (64 * k + bank) then needBank s k bank
    else s

/-! ### Reads and writes as the memory sees them -/

/-- The 256-byte granules that hold the bursts and words of the range that cannot be corrected: one failing request
each (R199, R223). -/
def badGranules (s : State) (a n : Nat) : List Nat := ((badUnits s a n).map fun u => u / 256).eraseDups

/-- A request that meets bursts or words it cannot correct in granule `g` is counted and recorded once; every bank that
holds one of them fails (R209, R227, R228). -/
def granuleUe (s : State) (a n g code : Nat) (ctx : Option Nat) : State :=
  let us := (badUnits s a n).filter fun u => u / 256 = g
  let u := us.headD (g * 256)
  (us.drop 1).foldl bankFails (quayUe (mcUe s u code ctx) u code ctx)

/-- The failing reads of a range, each counted, recorded and repaired (R209, R227). -/
def ueSeen (s : State) (a n code : Nat) (ctx : Option Nat) : State :=
  (badGranules s a n).foldl (fun s g => granuleUe s a n g code ctx) s

/-- The context of the descriptor that a requester executes. -/
def ctxOf (s : State) (k req : Nat) : Option Nat :=
  (s.work.find? fun w => w.part = k && w.unit = req && w.phase = .run).map fun w => 256 * k + w.ctx

/-- The port number of a partition's own manifest, beside the requester indices of R166: its walker, and its writes of
fault and hot-page records, reach the slice through the bond port (R223; log entry 65). -/
abbrev walkerPort : Nat := 192

/-- Bytes read or written for a requester are counted at the controller or slice that holds them (R219, R236): at the
bond port for the owner's cores and manifest (R223), else at the ring port for the requester's partition, where it has
one. -/
def countBytes (s : State) (k req a n : Nat) (write : Bool) : State :=
  match groupOf a, quayOf a with
  | some j, _ =>
    let m := if a - groupBase j < sideSize then j % 4 else 4 + j % 4
    addReg s (pgMc m) (if write then Reg.MC_WR_BYTES (j / 4) else Reg.MC_RD_BYTES (j / 4)) n
  | none, some j =>
    if j = k ∧ (req < 128 ∨ req = walkerPort) then addReg s (pgQuay j) (if write then Reg.QUAY_BOND_WR else Reg.QUAY_BOND_RD) n
    else if k < 16 then addReg s (pgQuay j) (Reg.QUAY_RING_BYTES k) n
    else s
  | none, none => s

/-- The armed injections that a read of the range strikes, with the first address each strikes (R219, R236). -/
def struck (s : State) (a n : Nat) : List (Nat × Nat × Nat × Bool × Bool) :=
  let gs := (List.range ((a + n - 1) / 128 + 1 - a / 128)).map fun i => max a ((a / 128 + i) * 128)
  (s.hbm.inject.filterMap fun e =>
    (gs.find? fun g =>
      match hbmPlace g with
      | some (m, pc, _) => m = e.1 && pc = e.2.1
      | none => false).map fun g => (g, e.1, e.2.1, e.2.2, true)) ++
  (s.quay.inject.filterMap fun e =>
    (gs.find? fun g =>
      match quayOf g with
      | some k => k = e.1 && quayBank (g - quayBase k) = e.2.1
      | none => false).map fun g => (g, e.1, e.2.1, e.2.2, false))

/-- A read meets one armed injection: it is spent, and is counted as the error it stands for. -/
def spendInject (s : State) (code : Nat) (ctx : Option Nat) (e : Nat × Nat × Nat × Bool × Bool) : State :=
  match e with
  | (g, x, y, ue, true) =>
    let s := { s with hbm := { s.hbm with inject := s.hbm.inject.erase (x, y, ue) } }
    if ue then mcUe s g code ctx else mcCorr s g
  | (g, x, y, ue, false) =>
    let s := { s with quay := { s.quay with inject := s.quay.inject.erase (x, y, ue) } }
    if ue then quayUe s g code ctx else quayCorr s g

/-- A read of the range meets the armed injections it strikes (R219, R236): each is spent, and corrupts the read it meets
alone.  The answer says whether that read cannot be corrected. -/
def meetInject (s : State) (a n code : Nat) (ctx : Option Nat) : Bool × State :=
  let hits := if n = 0 then [] else struck s a n
  (hits.any fun e => e.2.2.2.1, hits.foldl (fun s e => spendInject s code ctx e) s)

/-- The 256-byte granules that a range touches: one request each (R199, R223). -/
def granules (a n : Nat) : List Nat :=
  if n = 0 then [] else (List.range ((a + n - 1) / 256 + 1 - a / 256)).map fun i => a / 256 + i

/-- Each request activates a row of its bank (R206). -/
def activateRange (s : State) (a n : Nat) : State :=
  (granules a n).foldl
    (fun s g =>
      match hbmPlace (g * 256) with
      | some (m, pc, q) => { s with hbm := { s.hbm with acts := tallyUp s.hbm.acts ((m * 32 + pc) * 64 + hbmBank q) } }
      | none => s) s

/-- The bursts or words of the range that carry an error the code corrects (R208, R221). -/
def weakUnits (s : State) (a n : Nat) : List Nat :=
  s.weak.filter fun g => decide (g < a + n) && decide (a < g + unitSize g)

/-- What the check bits find at a read of a range (R208 to R210, R214, R219, R227): whether it can be answered.  An error
that is corrected is counted and stays in memory. -/
def sense (s : State) (a n code : Nat) (ctx : Option Nat) : Bool × State :=
  if blockedRange s a n then (false, s)
  else if !(badUnits s a n).isEmpty then (false, ueSeen s a n code ctx)
  else
    let r := meetInject s a n code ctx
    (!r.1, (weakUnits s a n).foldl (fun s u => quayCorr (mcCorr s u) u) r.2)

/-! ### Accesses that are held (R213, R217, R228, R235) -/

/-- The row, bank, pseudo-channels or slice whose accesses wait. -/
def heldAt (h : Hold) (a : Nat) : Bool :=
  match h with
  | .stacks => (hbmPlace a).isSome
  | .row m pc r b =>
    match hbmPlace a with
    | some (m', pc', q) => m' = m && pc' = pc && hbmRow q = r && hbmBank q = b
    | none => false
  | .fill m row =>
    match hbmPlace a with
    | some (m', pc, _) => m' = m && pc / 8 = row
    | none => false
  | .bank k b =>
    match quayOf a with
    | some j => j = k && quayBank (a - quayBase k) = b
    | none => false
  | .slice k => quayOf a = some k

/-- What is held now: rows that wait for their repair or undergo it (R213), pseudo-channels being filled (R217), banks being
replaced (R228), slices being filled (R235), and the stacks at a thermal trip (R492). -/
def holdsOn (s : State) : List Hold :=
  (if s.board.thermtrip then [.stacks] else []) ++ (s.hbm.repairs.filterMap fun r =>
    (s.hbm.pool.find? fun e => e.m = r.1 && e.pc = r.2.1 && e.slot = r.2.2).map fun e => Hold.row e.m e.pc e.row e.bank) ++
  ((List.range 8).flatMap fun m =>
    ((List.range 4).filter fun r => rb s (pgMc m) Reg.MC_ZF_STAT r).map fun r => Hold.fill m r) ++
  (s.quay.replacing.map fun b => Hold.bank b.1 b.2) ++
  ((List.range 16).filter fun k => rb s (pgQuay k) Reg.QUAY_ZF_STAT 0).map fun k => Hold.slice k

/-- A unit's command is to wait; its first reason stands. -/
def stallOn (s : State) (x : Stall) : State := if s.stalled.isNone then { s with stalled := some x } else s

/-- An access of a unit's command reaches something that was held when the command began: the command is to wait. -/
def meetHolds (s : State) (a n : Nat) : State :=
  match s.gate with
  | none => s
  | some g =>
    if g.isEmpty || n = 0 then s
    else
      let at128 := (List.range ((a + n - 1) / 128 + 1 - a / 128)).map fun i => (a / 128 + i) * 128
      if g.any fun h => at128.any fun b => heldAt h b then stallOn s .held else s

/-- Read `n` bytes of device memory through a port for a context; none where an error cannot be corrected (R209, R227) or
the page is BLOCKED (R214). -/
def readAs (s : State) (k port : Nat) (ctx : Option Nat) (a n : Nat) : Option Bytes × State :=
  let r := sense (meetHolds (activateRange (countBytes s k port a n false) a n) a n) a n 1 ctx
  (if r.1 then some (readBytes r.2 a n) else none, r.2)

/-- Read `n` bytes of device memory for requester `req` of partition `k`. -/
def devRead (s : State) (k req a n : Nat) : Option Bytes × State := readAs s k req (ctxOf s k req) a n

/-- The range from `a` to `a + n` covers the whole burst or word that starts at `g`. -/
def coversUnit (a n g : Nat) : Bool := decide (a ≤ g) && decide (g + unitSize g ≤ a + n)

/-- The bursts or words of a range that it covers in part. -/
def partUnits (a n : Nat) : List Nat :=
  if n = 0 then [] else (([unitOf a, unitOf (a + n - 1)].eraseDups).filter fun g => !(coversUnit a n g))

/-! ### The write-combining buffers (R201, R202) -/

/-- Entries of the write-combining buffer of controller `m`. -/
def wcCount (s : State) (m : Nat) : Nat := s.hbm.wc.countP fun e => e.1 = m

/-- The entry belongs to controller `m` and, where a partition is named, to a granule of its group. -/
def wcMine (m : Nat) (k : Option Nat) (e : Nat × Nat) : Bool :=
  e.1 = m && (k.isNone || groupOf (e.2 * 256) = k)

/-- Drain the oldest entries of a part of the buffer until `keep` are left (R202). -/
def wcDrain (mine : Nat × Nat → Bool) (keep : Nat) : List (Nat × Nat) → List (Nat × Nat)
  | [] => []
  | e :: t => if mine e && decide (keep < (e :: t).countP mine) then wcDrain mine keep t else e :: wcDrain mine keep t

/-- A write enters the buffer: writes to one granule merge, and past 75 % the buffer drains to 25 % (R202).  In strict
mode each partition of the column has 256 entries of its own, which drain by themselves (R201; log entry 14). -/
def wcAdd (s : State) (m granule : Nat) : State :=
  let wc := if s.hbm.wc.contains (m, granule) then s.hbm.wc else s.hbm.wc ++ [(m, granule)]
  let part := if rb s (pgMc m) Reg.MC_CFG 0 then groupOf (granule * 256) else none
  let size := if part.isSome then 256 else 1024
  { s with hbm := { s.hbm with
      wc := if size * 3 / 4 < wc.countP (wcMine m part) then wcDrain (wcMine m part) (size / 4) wc else wc } }

/-- The granules of a write enter the buffers of their controllers. -/
def wcRange (s : State) (a n : Nat) : State :=
  (granules a n).foldl
    (fun s g =>
      match hbmPlace (g * 256) with
      | some (m, _, _) => wcAdd s m g
      | none => s) s

/-- Write bytes of device memory through a port for a context.  The bursts or words it covers in part are read first; where
one cannot be corrected the write fails and leaves memory as it is (R203, R224; log entry 66), as does a write into a
BLOCKED page (R214).  What is written has fresh check bits (R209, R227). -/
def writeAs (s : State) (k port : Nat) (ctx : Option Nat) (a : Nat) (b : Bytes) : Bool × State :=
  let n := b.length
  let s := meetHolds (activateRange (countBytes s k port a n true) a n) a n
  if blockedRange s a n then (false, s)
  else
    let r := (partUnits a n).foldl
      (fun (r : Bool × State) g => if r.1 then sense r.2 g (unitSize g) 2 ctx else r) (true, s)
    if r.1 then
      let bad := badUnits r.2 a n
      let weak := weakUnits r.2 a n
      (true, wcRange (writeBytes { r.2 with
        ue := r.2.ue.filter fun g => !(bad.contains g)
        weak := r.2.weak.filter fun g => !(weak.contains g) } a b) a n)
    else r

/-- Write bytes of device memory for requester `req` of partition `k`. -/
def devWrite (s : State) (k req a : Nat) (b : Bytes) : Bool × State := writeAs s k req (ctxOf s k req) a b

/-- The partition's leaf into slice `j` is refused: the slice is OFF (R229), or STRICT, or becoming so, and another's
(R233). -/
def sliceShut (s : State) (k a : Nat) : Bool :=
  match quayOf a with
  | none => false
  | some j =>
    decide (pageState s (pgQuay j) = 0) ||
      (decide (j ≠ k) && (rb s (pgQuay j) Reg.QUAY_CFG 0 || s.quay.strict.any fun e => e.1 = j))

end Sys2Proof.Machine
end

