-- ==== Sys2Proof/Machine/Xlat.lean ====
section
/-!
DEFINITION. The manifest: walking the page tables, the three levels of cache, faults and their records, and
invalidation (R165 to R195).
-/

namespace Sys2Proof.Machine

/-- The bytes a leaf at a level maps (R170). -/
def levelSize : Nat → Nat
  | 1 => 2 ^ 30
  | 2 => 2 ^ 21
  | _ => 2 ^ 16

/-- The byte address of the entry for `va` in a table at a level (R170). -/
def entryAddr (level table va : Nat) : Nat :=
  match level with
  | 0 => table + 8 * (va / 2 ^ 39 % 8192)
  | 1 => table + 8 * (va / 2 ^ 30 % 512)
  | 2 => table + 8 * (va / 2 ^ 21 % 512)
  | _ => table + 8 * (va / 2 ^ 16 % 32)

/-- The range of `n` bytes at `a` lies wholly in the group or wholly in the slice of partition `k` (R168). -/
def ownRange (k a n : Nat) : Bool :=
  (decide (groupBase k ≤ a) && decide (a + n ≤ groupBase k + groupSize)) ||
    (decide (quayBase k ≤ a) && decide (a + n ≤ quayBase k + quaySize))

/-- Whether partition `k` may reach the range through a share window (R168, R169): a valid window wholly
holds it, permits the access, and the partition it lies in is not sealed. -/
def windowRange (s : State) (k a n : Nat) (write : Bool) : Bool :=
  (List.range 4).any fun i =>
    let w := shareWin s k i
    w.1 && (w.2.1 || !write) && decide (w.2.2.1 ≤ a) && decide (a + n ≤ w.2.2.1 + w.2.2.2) &&
      (match partOfAddr a with
       | some j => ownRange j a n && !sealedNow s j
       | none => false)

/-- The physical address of a leaf's page (R171). -/
def leafPa (e : Word) : Nat := fld e 12 34 * 4096

/-- Whether an entry that is not a leaf keeps R170 and R171 at its level. -/
def tableEntryOk (level : Nat) (e : Word) : Bool :=
  decide (level < 3) && decide (fld e 2 6 = 0) && decide (fld e 46 18 = 0)

/-- Whether a leaf keeps R170 and R171 at its level. -/
def leafOk (level : Nat) (e : Word) : Bool :=
  decide (0 < level) && decide (fld e 46 18 = 0) && decide (leafPa e % levelSize level = 0)

/-- What a requester may do through a leaf (R168, R177, R229, R233): none, or the KIND that stops it, in the order
of R177.  Requesters 132 to 163 are DMA channels, 164 to 167 chiplet sites (R166). -/
def leafFault (s : State) (k req level : Nat) (e : Word) (write : Bool) : Option Nat :=
  let a := leafPa e
  let n := levelSize level
  if !(ownRange k a n || windowRange s k a n write) || sliceShut s k a then some 4
  else if 132 ≤ req ∧ req < 164 ∧ !bit e 4 then some 7
  else if 164 ≤ req ∧ req < 168 ∧ !bit e 5 then some 8
  else if write then (if bit e 3 then none else some 6)
  else if bit e 2 then none else some 5

/-- The walker reads the table entry at `a` (R173): none where it cannot be corrected. -/
def readEntry (s : State) (k req a : Nat) : Option Word × State :=
  match readAs s k walkerPort (ctxOf s k req) a 8 with
  | (none, s) => (none, s)
  | (some b, s) => (some (bytesWord b), s)

/-- How a walk of the tables ends: a leaf with its level and the address of its entry, or the KIND and level of the fault;
and the non-leaf entries it read. -/
abbrev WalkEnd := Except (Nat × Nat) (Nat × Word × Nat) × List WalkEntry

/-- The walk's steps from a table at a level (R170 to R172, R177). -/
def walkFrom (s : State) (k req va : Nat) : Nat → Nat → Nat → WalkEnd × State
  | 0, level, _ => ((.error (2, level), []), s)
  | fuel + 1, level, table =>
    let a := entryAddr level table va
    if !(ownRange k a 8) then ((.error (3, level), []), s)
    else
      match readEntry s k req a with
      | (none, s) => ((.error (9, level), []), s)
      | (some e, s) =>
        if !bit e 0 then ((.error (1, level), []), s)
        else if bit e 1 then
          ((if leafOk level e then .ok (level, e, a) else .error (2, level), []), s)
        else if tableEntryOk level e then
          match walkFrom s k req va fuel (level + 1) (leafPa e) with
          | (r, s) => ((r.1, ⟨k, va, level, e⟩ :: r.2), s)
        else ((.error (2, level), []), s)

/-- Whether two virtual addresses share the entry of a level. -/
def sameEntry (level va vb : Nat) : Bool :=
  match level with
  | 0 => va / 2 ^ 39 = vb / 2 ^ 39
  | 1 => va / 2 ^ 30 = vb / 2 ^ 30
  | 2 => va / 2 ^ 21 = vb / 2 ^ 21
  | _ => va / 2 ^ 16 = vb / 2 ^ 16

/-- The deepest entry of the walk cache for `va` (R174): the level to go on at and its table. -/
def walkStart (s : State) (k va : Nat) : Nat × Nat :=
  let hit (l : Nat) := s.xlat.walk.find? fun w => w.part = k && w.level = l && sameEntry l w.va va
  match hit 2, hit 1, hit 0 with
  | some w, _, _ => (3, leafPa w.entry)
  | none, some w, _ => (2, leafPa w.entry)
  | none, none, some w => (1, leafPa w.entry)
  | none, none, none => (0, fld (rd s (pgMf k) Reg.MF_ROOT) 16 30 * 65536)

/-- Remove one element of a full list, as the implementation chooses (R174; log entry 11). -/
def evictOne {α : Type} (s : State) (l : List α) : List α × State :=
  let d := draw s
  (l.eraseIdx (Config.tlbVictim d.1 l.length % l.length), d.2)

/-- The set of the walk cache that holds an entry of a level for `va` (R174: 64 sets of 8 ways). -/
def walkSet (level va : Nat) : Nat := Config.walkSet level (va / (if level = 0 then 2 ^ 39 else if level = 1 then 2 ^ 30 else 2 ^ 21)) % 64

/-- Fill the walk cache with the entries a walk read (R174). -/
def fillWalk (s : State) (k : Nat) (l : List WalkEntry) : State :=
  l.foldl
    (fun s w =>
      let here (v : WalkEntry) : Bool := v.part = k && walkSet v.level v.va = walkSet w.level w.va
      let mine := s.xlat.walk.filter here
      if mine.any fun v => v.level = w.level && sameEntry w.level v.va w.va then s
      else
        let rest := s.xlat.walk.filter fun v => !(here v)
        let r := if mine.length < 8 then (mine, s) else evictOne s mine
        { r.2 with xlat := { r.2.xlat with walk := rest ++ r.1 ++ [w] } }) s

/-- The first virtual byte of the page of a level that holds `va`. -/
def pageVa (level va : Nat) : Nat := va / levelSize level * levelSize level

/-- The set of a slice that holds the leaf of a level for `va` (R174: 256 sets of 16 ways). -/
def sliceSet (level va : Nat) : Nat := Config.sliceSet level (va / levelSize level) % 256

/-- Fill the slice with a leaf (R174, R190): a pinned entry is never given up; where every entry of the set is pinned the
leaf is not held. -/
def fillSlice (s : State) (k va level : Nat) (e : Word) : State :=
  let here (v : SliceEntry) : Bool := v.part = k && sliceSet v.level v.va = sliceSet level va
  let mine := s.xlat.slice.filter here
  let rest := s.xlat.slice.filter fun v => !(here v)
  let ne : SliceEntry := ⟨k, pageVa level va, level, e, 0, false, false⟩
  if mine.length < 16 then { s with xlat := { s.xlat with slice := rest ++ mine ++ [ne] } }
  else if mine.all (·.pin) then s
  else
    let r := evictOne s (mine.filter fun v => !v.pin)
    { r.2 with xlat := { r.2.xlat with slice := rest ++ (mine.filter (·.pin)) ++ r.1 ++ [ne] } }

/-- The entries a requester's micro-TLB holds (R174). -/
def microSize (req : Nat) : Nat :=
  if req < 128 then 32 else if req < 132 then 128 else if req < 164 then 64 else if req < 168 then 256 else 16

/-- Append a hot-page record, or count it as lost when the ring is full (R192, R193), as it is where memory does not take
it (log entry 67).  With no ring (`HOT_RING.LOG2` 0) nothing is written or counted (log entry 63). -/
def hotRecord (s : State) (k : Nat) (e : SliceEntry) : State :=
  let p := pgMf k
  let log := rf s p Reg.HOT_RING 52 5
  if log = 0 then s
  else
    let prod := rf s p Reg.HOT_PROD 0 32
    let cons := rf s p Reg.HOT_CONS 0 32
    if (prod + 2 ^ 32 - cons) % 2 ^ 32 = 2 ^ log then raiseEvt (addReg s p Reg.HOT_LOST 1) p 3
    else
      let base := rf s p Reg.HOT_RING 12 40 * 4096
      let size := if e.level = 3 then 0 else if e.level = 2 then 1 else 2
      let inQuay := inRange (leafPa e.leaf) (quayBase k) quaySize
      let w0 := w64 (e.va % 2 ^ 52 + size <<< 52 + inQuay.toNat <<< 54)
      let w1 := w64 (e.count % 65536 + (s.xlat.epochs.getD k 0 % 2 ^ 32) <<< 16)
      let r := devWrite s k walkerPort (base + 16 * (prod % 2 ^ log)) (wordBytes w0 ++ wordBytes w1)
      if r.1 then raiseEvt (wf r.2 p Reg.HOT_PROD 0 32 (prod + 1)) p 2
      else raiseEvt (addReg r.2 p Reg.HOT_LOST 1) p 3

/-- A report of `units` of 4 KiB to the slice entry that holds `va` (R192): the counter saturates, and on
reaching `HOT_THRESH` the entry is recorded once in the epoch. -/
def countSlice (s : State) (k va units : Nat) : State :=
  match s.xlat.slice.find? fun e => e.part = k && e.va = pageVa e.level va with
  | none => s
  | some e =>
    if bit e.leaf 7 then s
    else
      let c := min (e.count + units) 65535
      let thresh := rf s (pgMf k) Reg.MF_CFG 0 16
      let mark := !e.hot && decide (thresh ≠ 0) && decide (thresh ≤ c)
      let ne := { e with count := c, hot := e.hot || mark }
      let s := { s with xlat := { s.xlat with slice := s.xlat.slice.map fun v => if v = e then ne else v } }
      if mark then hotRecord s k ne else s

/-- A micro-TLB entry reports what it has served and starts again; bytes short of 4 KiB carry over
(R192). -/
def microReport (s : State) (e : MicroEntry) : State :=
  let s := { s with xlat := { s.xlat with
    micro := s.xlat.micro.map fun v => if v = e then { v with bytes := v.bytes % 4096 } else v } }
  countSlice s e.part e.va (e.bytes / 4096)

/-- Micro-TLB entries are dropped; each reports its counts first (R192). -/
def dropMicro (s : State) (out : MicroEntry → Bool) : State :=
  let s := (s.xlat.micro.filter out).foldl (fun s e => countSlice s e.part e.va (e.bytes / 4096)) s
  { s with xlat := { s.xlat with micro := s.xlat.micro.filter fun e => !(out e) } }

/-- Fill a requester's micro-TLB with a leaf that has served `n` bytes; an entry it gives up reports its counts first
(R174, R192). -/
def fillMicro (s : State) (k req va level : Nat) (e : Word) (n : Nat) : State :=
  let mine := s.xlat.micro.filter fun v => v.part = k && v.req = req
  let ne : MicroEntry := ⟨k, req, pageVa level va, level, e, n⟩
  if mine.length < microSize req then { s with xlat := { s.xlat with micro := s.xlat.micro ++ [ne] } }
  else
    let d := draw s
    match mine[Config.tlbVictim d.1 mine.length % mine.length]? with
    | none => d.2
    | some v =>
      let s := dropMicro d.2 fun x => x = v
      { s with xlat := { s.xlat with micro := s.xlat.micro ++ [ne] } }

/-- Use a leaf for an access at `va`: the address, or the fault (R168, R177, R268).  A target in a share
window is never coherent. -/
def useLeaf (s : State) (k req va level : Nat) (e : Word) (write : Bool) : XRes :=
  match leafFault s k req level e write with
  | some kind => .fault kind level
  | none => .ok (leafPa e + va % levelSize level) (bit e 6 || !(ownRange k (leafPa e) (levelSize level)))

/-- A walk of the tables for `va` (R170 to R177): how it ends, and the table entries it read. -/
def walk (s : State) (k req va : Nat) : (Except (Nat × Nat) (Nat × Word) × List WalkEntry) × State :=
  let s := addReg s (pgMf k) Reg.WALKS 1
  if !(rb s (pgMf k) Reg.MF_ROOT 0) then ((.error (1, 0), []), s)
  else
    let st := walkStart s k va
    let r := walkFrom s k req va 4 st.1 st.2
    ((match r.1.1 with
      | .ok (level, e, _) => .ok (level, e)
      | .error f => .error f, r.1.2), r.2)

/-- What a lookup answers, with the state whose translation caches it filled where it ends without a fault (R174,
R175). -/
def filledIf (r : XRes) (filled s : State) : XRes × State :=
  match r with
  | .ok pa nc => (.ok pa nc, filled)
  | .fault kind level => (.fault kind level, s)

/-- After a walk that a lookup made (R174, R175): the fills of the walk cache, the slice and the micro-TLB; a walk that ends
with a fault is held nowhere. -/
def afterWalk (r : (Except (Nat × Nat) (Nat × Word) × List WalkEntry) × State) (k req va n : Nat) (write : Bool) :
    XRes × State :=
  match r.1.1 with
  | .error f => (.fault f.1 f.2, r.2)
  | .ok l =>
    filledIf (useLeaf r.2 k req va l.1 l.2 write)
      (fillMicro (fillSlice (fillWalk r.2 k r.1.2) k va l.1 l.2) k req va l.1 l.2 n) r.2

/-- A lookup that missed the micro-TLB (R174): the slice, else a walk. -/
def translateSlice (s : State) (k req va n : Nat) (write : Bool) : XRes × State :=
  match s.xlat.slice.find? fun e => e.part = k && e.va = pageVa e.level va with
  | some e => filledIf (useLeaf s k req va e.level e.leaf write) (fillMicro s k req va e.level e.leaf n) s
  | none => afterWalk (walk (addReg s (pgMf k) Reg.SLICE_MISSES 1) k req va) k req va n write

/-- Translate one address of `n` bytes within a page for requester `req` of partition `k` (R165, R174, R175):
its micro-TLB, else the slice, else a walk; a translation that ends with a fault is held nowhere. -/
def translate (s : State) (k req va n : Nat) (write : Bool) : XRes × State :=
  match s.xlat.micro.find? fun e => e.part = k && e.req = req && e.va = pageVa e.level va with
  | some e =>
    (useLeaf s k req va e.level e.leaf write,
     { s with xlat := { s.xlat with
        micro := s.xlat.micro.map fun v => if v = e then { v with bytes := v.bytes + n } else v } })
  | none => translateSlice (addReg s (pgMf k) Reg.LOOKUPS 1) k req va n write

/-! ### Fault records -/

/-- The words of a fault record (R179). -/
def faultWords (r : FaultRec) : List Word :=
  let i := r.info
  [ w64 (i.page % 2 ^ 52 + (i.level % 4) <<< 52 + (i.kind % 16) <<< 56 + r.read.toNat <<< 60 +
      r.write.toNat <<< 61 + (if i.kind = 1 then 0 else 1) <<< 62 +
      (if r.id.testBit r.ringLog then 0 else 1) <<< 63),
    w64 (i.ctx % 4096 + (i.opcode % 256) <<< 16 + (i.operand % 8) <<< 24 + (i.seq % 2 ^ 32) <<< 32),
    w64 (i.tileVa % 2 ^ 52 + (i.pitch % 4096) <<< 52),
    w64 (i.rows % 2 ^ 24 + (i.rowBytes % 2 ^ 24) <<< 24 + (min r.merged 65535) <<< 48),
    w64 (r.reqs % 2 ^ 64),
    w64 (r.reqs / 2 ^ 64 % 2 ^ 64),
    w64 (r.reqs / 2 ^ 128),
    w64 (r.id % 2 ^ 32) ]

/-- The ring `FAULT_RING` describes: base and LOG2 (R179, R194). -/
def faultRing (s : State) (k : Nat) : Nat × Nat :=
  (rf s (pgMf k) Reg.FAULT_RING 12 40 * 4096, rf s (pgMf k) Reg.FAULT_RING 52 4)

/-- Write a record, or write it again, in the ring described when it was allocated, unless `FAULT_RING` has
changed since or the ring is off (R180, R182), or memory does not take it (log entry 67). -/
def writeFault (s : State) (r : FaultRec) : State :=
  let k := r.info.part
  if r.ringLog = 0 ∨ faultRing s k ≠ (r.ringBase, r.ringLog) then s
  else
    let w := devWrite s k walkerPort (r.ringBase + 64 * (r.id % 2 ^ r.ringLog)) ((faultWords r).flatMap wordBytes)
    if w.1 then raiseEvt w.2 (pgMf k) 0 else w.2

/-- The fault ring of partition `k` is full (R182). -/
def ringFull (s : State) (k : Nat) : Bool :=
  let log := (faultRing s k).2
  decide (log ≠ 0) &&
    decide ((rf s (pgMf k) Reg.FAULT_PROD 0 32 + 2 ^ 32 - rf s (pgMf k) Reg.FAULT_CONS 0 32) % 2 ^ 32 = 2 ^ log)

/-- Whether a new record has room (R182): fewer than 64 open for one that opens, and a free ring slot where
the ring is on. -/
def faultRoom (s : State) (i : FaultInfo) : Bool :=
  (i.kind ≠ 1 || decide ((s.xlat.recs.countP fun r => r.info.part = i.part) < 64)) && !(ringFull s i.part)

/-- A record waits for ring space (R195). -/
def markFull (s : State) (k : Nat) : State := if ringFull s k then raiseEvt s (pgMf k) 1 else s

/-- The open record that a fault merges into (R180). -/
def openFor (s : State) (i : FaultInfo) : Option FaultRec :=
  if i.kind = 1 then s.xlat.recs.find? fun r => r.info.part = i.part && r.info.page = i.page else none

/-- Merge a fault into an open record and write the record again (R180). -/
def mergeFault (s : State) (r : FaultRec) (i : FaultInfo) : State :=
  let nr := { r with
    read := r.read || !i.write, write := r.write || i.write,
    reqs := r.reqs ||| (1 <<< i.req), merged := r.merged + 1 }
  writeFault { s with xlat := { s.xlat with recs := s.xlat.recs.map fun v => if v = r then nr else v } } nr

/-- Give a fault a new record (R179, R182): it takes the next FAULT_ID, and stays open if it is
NOT_VALID. -/
def allocFault (s : State) (i : FaultInfo) : Nat × State :=
  let k := i.part
  let id := rf s (pgMf k) Reg.FAULT_PROD 0 32
  let ring := faultRing s k
  let r : FaultRec := ⟨id, i, !i.write, i.write, 1 <<< i.req, 0, ring.1, ring.2, (rd s pgErr Reg.ERR_TIME).toNat⟩
  let s := wf s (pgMf k) Reg.FAULT_PROD 0 32 (id + 1)
  let s := writeFault s r
  (id, if i.kind = 1 then { s with xlat := { s.xlat with recs := s.xlat.recs ++ [r] } } else s)

/-- The fault was met by this descriptor, on its unit (R182). -/
def faultOf (w : Work) (i : FaultInfo) : Bool :=
  i.part = w.part && i.req = w.unit && i.seq = w.seq && i.ctx = 256 * w.part + w.ctx

/-- Record a fault (R177, R179 to R182): counted; a FINAL kind is also an error of the MANIFEST page.  The
answer is the record it is held on, none where it waits for one. -/
def recordFault (s : State) (i : FaultInfo) : Option Nat × State :=
  let k := i.part
  let s := addReg s (pgMf k) Reg.FAULTS 1
  let s := if i.kind = 1 then s
    else countError s (pgMf k) i.kind (if i.kind = 9 then 4 else 2) 1 (if i.req < 132 ∨ i.req = 168 then some i.ctx else none)
  match openFor s i with
  | some r => (some r.id, mergeFault s r i)
  | none =>
    if faultRoom s i then
      let r := allocFault s i
      (some r.1, r.2)
    else
      let s := markFull s k
      (none, { s with xlat := { s.xlat with waiting := s.xlat.waiting ++ [i] } })

/-! ### Invalidation -/

/-- Drop every cached translation of partition `k` that overlaps `len` bytes from `va`, or every one where
`len` is 0 (R185); a micro-TLB entry that is dropped reports its counts (R192). -/
def dropXlat (s : State) (k va len : Nat) : State :=
  let hit (pva level : Nat) : Bool :=
    len = 0 || (decide (pva < va + len) && decide (va < pva + levelSize level))
  let s := dropMicro s fun e => e.part = k && hit e.va e.level
  { s with xlat := { s.xlat with
      slice := s.xlat.slice.filter fun e => !(e.part = k && hit e.va e.level)
      walk := s.xlat.walk.filter fun e =>
        !(e.part = k && (len = 0 ||
          (let n := if e.level = 0 then 2 ^ 39 else levelSize e.level
           decide (e.va / n * n < va + len) && decide (va < e.va / n * n + n)))) } }

/-- Drop, in every partition but `k`, every cached translation whose leaf targets an address of `here`. -/
def dropLeaves (s : State) (k : Nat) (here : Nat → Bool) : State :=
  let into (j : Nat) (leaf : Word) : Bool := j ≠ k && here (leafPa leaf)
  let s := dropMicro s fun e => into e.part e.leaf
  { s with xlat := { s.xlat with slice := s.xlat.slice.filter fun e => !(into e.part e.leaf) } }

/-- Drop, in every partition but `k`, every cached translation into the group or slice of `k` (R169). -/
def dropInto (s : State) (k : Nat) : State := dropLeaves s k (inPartition k)

/-- An access of partition `k` made under a cached translation of `len` bytes from `va`, every one where `len` is 0, is not
complete (R169, R186): a transaction or retry of a line of a page the entries map, or a chiplet's request not answered. -/
def accessUnder (s : State) (k va len : Nat) : Bool :=
  let hit (pva level : Nat) : Bool := len = 0 || (decide (pva < va + len) && decide (va < pva + levelSize level))
  let pages := ((s.xlat.slice.filter fun e => e.part = k && hit e.va e.level).map fun e => (e.level, e.leaf)) ++
    ((s.xlat.micro.filter fun e => e.part = k && hit e.va e.level).map fun e => (e.level, e.leaf))
  let under (line : Nat) : Bool := pages.any fun p => inRange (line * 128) (leafPa p.2) (levelSize p.1)
  (s.coh.txns.any fun t => t.part = k && under t.line) || (s.coh.retries.any fun t => t.part = k && under t.line) ||
    s.siteReqs.any fun q => q.part = k && q.pa.isSome &&
      (len = 0 || (decide (fld q.h1 0 52 < va + len) && decide (va < fld q.h1 0 52 + 256)))

/-- A chiplet's request of another partition has reached `n` bytes from `a` and is not answered (R169, R233). -/
def accessInto (s : State) (k a n : Nat) : Bool :=
  s.siteReqs.any fun q => q.part ≠ k && q.pa.any fun x => inRange x a n

/-- The 64 KiB pages that the rows of a tile touch, rising (R178). -/
def tilePages (va pitch rows rowBytes : Nat) : List Nat :=
  let row (r : Nat) : List Nat :=
    let a := va + r * pitch
    let p0 := a / 65536
    let p1 := (a + rowBytes - 1) / 65536
    (List.range (p1 + 1 - p0)).map fun i => p0 + i
  ((List.range rows).flatMap row).foldl
    (fun l p => if l.getLast? = some p || l.contains p then l else l ++ [p]) []

/-- The pages of a tile translated in rising order (R178): the physical page of each with whether it is not
coherent, or the lowest-addressed page that faults with its KIND and level. -/
def translatePages (s : State) (k req : Nat) (write : Bool) :
    List Nat → (Except (Nat × Nat × Nat) (List (Nat × Nat × Bool))) × State
  | [] => (.ok [], s)
  | p :: t =>
    match translate s k req (p * 65536) 0 write with
    | (.fault kind level, s) => (.error (p * 65536, kind, level), s)
    | (.ok pa nc, s) =>
      match translatePages s k req write t with
      | (.ok l, s) => (.ok ((p, pa, nc) :: l), s)
      | (.error f, s) => (.error f, s)

/-- Bytes that a requester's micro-TLB entry has served (R192), within one page. -/
def serveMicro (s : State) (k req va n : Nat) : State :=
  { s with xlat := { s.xlat with
      micro := s.xlat.micro.map fun v =>
        if v.part = k && v.req = req && v.va = pageVa v.level va then { v with bytes := v.bytes + n } else v } }

/-- Bytes from `va` served for a requester, page by page (R192). -/
def serveRow (s : State) (k req : Nat) : Nat → Nat → Nat → State
  | 0, _, _ => s
  | fuel + 1, va, n =>
    if n = 0 then s
    else
      let m := min n (65536 - va % 65536)
      serveRow (serveMicro s k req va m) k req fuel (va + m) (n - m)

end Sys2Proof.Machine
end

