-- ==== Sys2Proof/Machine/Coh.lean ====
section
/-!
DEFINITION. Partition coherence (R267 to R291): cached lines and directories, what a home does with a transaction, and the
accesses that cores and engines make whole.  The messages of the protocol, one by one, stand in CohMsg.lean.
-/

namespace Sys2Proof.Machine

/-- The ring position of a requester (R166, R267). -/
def posOf (req : Nat) : Nat :=
  if req < 128 then req / 16
  else if req < 132 then 8 + (req - 128)
  else if req < 164 then 16
  else if req < 168 then 12 + (req - 164)
  else 17

/-- A requester at a ring position, for the ports and counters its accesses use. -/
def reqOf (pos : Nat) : Nat :=
  if pos < 8 then 16 * pos else if pos < 12 then 128 + (pos - 8) else if pos < 16 then 164 + (pos - 12)
  else if pos = 16 then 132 else 168

/-- The home of a line (R270). -/
def homeOf (line : Nat) : Nat := (line % 8) ^^^ (line / 64 % 8)

/-- The domain of partition `k` is lost (R289). -/
def domainLost (s : State) (k : Nat) : Bool := s.coh.lost.contains k

/-- The line as position `pos` holds it. -/
def cached (s : State) (k pos line : Nat) : Option CLine :=
  s.coh.lines.find? fun l => l.part = k && l.pos = pos && l.line = line

/-- A position's copy of a line is gone. -/
def dropLine (s : State) (k pos line : Nat) : State :=
  { s with coh := { s.coh with
      lines := s.coh.lines.filter fun l => !(l.part = k && l.pos = pos && l.line = line) } }

/-- A position holds a line in a state with these bytes. -/
def setLine (s : State) (k pos line : Nat) (st : LineState) (d : Bytes) : State :=
  let s := dropLine s k pos line
  { s with coh := { s.coh with lines := s.coh.lines ++ [⟨k, pos, line, st, d⟩] } }

/-- The directory entry of a line; none where it is UNCACHED (R273). -/
def dirOf (s : State) (k line : Nat) : Option DirEntry :=
  s.coh.dir.find? fun d => d.part = k && d.line = line

/-- The directory set of a line: one of 2,048 of its home (R273). -/
def dirSetOf (line : Nat) : Nat := Config.dirSet line % 2048

/-- The entries of a home's directory. -/
def homeDir (s : State) (k line : Nat) : List DirEntry :=
  s.coh.dir.filter fun d => d.part = k && homeOf d.line = homeOf line

/-- The entries of the set that a line picks. -/
def dirSetEntries (s : State) (k line : Nat) : List DirEntry :=
  (homeDir s k line).filter fun d => dirSetOf d.line = dirSetOf line

/-- The lowest free way of the set that a line picks. -/
def freeWay (s : State) (k line : Nat) : Nat :=
  ((List.range 12).find? fun w => !((dirSetEntries s k line).any fun d => d.way = w)).getD 12

/-- Set a line's directory entry; with no holder it becomes UNCACHED (R273). -/
def setDir (s : State) (k line : Nat) (owned : Bool) (holders : Nat) : State :=
  let rest := s.coh.dir.filter fun d => !(d.part = k && d.line = line)
  let way := ((dirOf s k line).map fun d => d.way).getD (freeWay s k line)
  { s with coh := { s.coh with dir := if holders = 0 then rest else rest ++ [⟨k, line, way, owned, holders⟩] } }

/-- The holders of a line, as a mask over positions. -/
def holdersOf (s : State) (k line : Nat) : Nat := ((dirOf s k line).map (·.holders)).getD 0

/-- The line is OWNED. -/
def ownedLine (s : State) (k line : Nat) : Bool := ((dirOf s k line).map (·.owned)).getD false

/-- Replace what stands beside the page of site `t`. -/
def setSite (s : State) (t : Nat) (f : Site → Site) : State :=
  { s with sites := s.sites.set t (f (s.sites.getD t siteReset)) }

/-- What stands beside the page of site `t`. -/
def siteOf (s : State) (t : Nat) : Site := s.sites.getD t siteReset

/-- Only IDLE flits leave the hub, and no request credits, while a partition of the mask is SCRUBBING (R313). -/
def siteQuiet (s : State) (t : Nat) : Bool :=
  (bitsOf (rf s (pgSite t) Reg.SITE_ASSIGN 0 16) 16).any fun k => decide (partState s k = 1)

/-- The modules that carry flits: up, and not retraining (R297, R312). -/
def activeModules (s : State) (t : Nat) : List Nat :=
  (bitsOf (rf s (pgSite t) Reg.SITE_LINK 0 16) 16).filter fun m => !((siteOf s t).retrain.contains m)

/-- The flits sent and not yet acknowledged (R312). -/
def unacked (x : Site) : Nat := (x.txNext + 65535 - x.txAck) % 65536

/-- Deal a flit to an active module that has room (R312): which one is a free value (log entry 69). -/
def dealFlit (s : State) (t seq : Nat) : State :=
  let l := activeModules s t
  if l.isEmpty then s
  else
    match draw s with
    | (n, s) => setSite s t fun x => { x with
        sent := (x.sent.filter fun f => f.1 ≠ seq) ++ [(seq, l.getD ((Config.freeWord n).toNat % l.length) 0)] }

/-- Flits held for replay that `which` names are sent again, each on an active module, and counted (R297, R312, R324). -/
def sendAgain (s : State) (t : Nat) (which : Nat × Nat → Bool) : State :=
  if (activeModules s t).isEmpty then s
  else
    let l := (siteOf s t).sent.filter which
    l.foldl (fun s f => dealFlit s t f.1) (addReg s (pgSite t) Reg.SITE_REPLAYS l.length)

/-- The chunks of a message: its header and its data (R311). -/
def chunksOf (data : Bytes) : Nat := 1 + ceilDiv data.length 16

/-- A message leaves: its bytes counted, and its flits numbered, dealt and held for replay, each message in flits of its own
(R311, R312). -/
def transmit (s : State) (t : Nat) (m : String × List Nat × Bytes) : State :=
  let chunks := chunksOf m.2.2
  let s := addReg (emit s (.site t m.1 m.2.1 m.2.2)) (pgSite t) Reg.SITE_TX_BYTES (16 * chunks)
  (List.range (ceilDiv chunks 15)).foldl
    (fun s _ => setSite (dealFlit s t (siteOf s t).txNext) t fun x => { x with txNext := (x.txNext + 1) % 65536 }) s

/-- Send what waits, in order, while the flits not acknowledged stay within 4,096, a module carries flits and no partition
is being scrubbed (R312, R313); `n` bounds the messages. -/
def pumpSite (s : State) (t : Nat) : Nat → State
  | 0 => s
  | n + 1 =>
    match (siteOf s t).toSend with
    | [] => s
    | m :: rest =>
      if siteQuiet s t || (activeModules s t).isEmpty || decide (4096 < unacked (siteOf s t) + ceilDiv (chunksOf m.2.2) 15) then s
      else pumpSite (transmit (setSite s t fun x => { x with toSend := rest }) t m) t n

/-- Send what waits at a site. -/
def pumpAll (s : State) (t : Nat) : State := pumpSite s t (siteOf s t).toSend.length

/-- A mainband message to a chiplet (R311, R312, R315), behind those that wait. -/
def siteSend (s : State) (t : Nat) (msg : String) (fields : List Nat) (data : Bytes) : State :=
  pumpAll (setSite s t fun x => { x with toSend := x.toSend ++ [(msg, fields, data)] }) t

/-- The ingress returns no request credits: the site is being quiesced or is QUIESCED (R294), a partition of its mask is
SCRUBBING (R313), its power cap is 0 (R337, R338), or the thermal trip is asserted (R492). -/
def creditsKept (s : State) (t : Nat) : Bool :=
  rb s (pgSite t) Reg.PAGE_CTL 1 || siteQuiet s t || s.pwr.stopped.contains t || s.board.thermtrip

/-- The entry of a request leaves the pool of partition `k`, and its credit goes back to the chiplet or is kept (R310). -/
def returnCredit (s : State) (t k : Nat) : State :=
  if creditsKept s t then setSite s t fun x => { x with kept := x.kept.set k (x.kept.getD k 0 + 1) } else s

/-- What the end of a scrub, of a quiesce or of a stop for power lets go: messages that waited, and credits kept. -/
def wakeSite (s : State) (t : Nat) : State :=
  let s := pumpAll s t
  if creditsKept s t then s else setSite s t fun x => { x with kept := List.replicate 16 0 }

/-- `wakeSite` at every site. -/
def wakeSites (s : State) : State := (List.range 4).foldl wakeSite s

/-- A message of a home to an agent (R274, R315): to a chiplet under its Aethoz name. -/
def sendAgent (s : State) (k pos line : Nat) (msg : String) (d : Bytes) : State :=
  if 12 ≤ pos ∧ pos < 16 then
    siteSend s (pos - 12) (if msg = "WB_CREDIT" then msg else "C_" ++ msg) [k, line * 128, homeOf line] d
  else emit s (.coh k pos line msg d)

/-! ### Transactions (R275 to R284) -/

/-- A position caches lines (R267): a cluster, or a site admitted to the partition as a caching agent. -/
def cachingPos (s : State) (k pos : Nat) : Bool :=
  decide (pos < 8) ||
    (decide (12 ≤ pos) && decide (pos < 16) && siteAdmitted s (pos - 12) &&
      rb s (pgSite (pos - 12)) Reg.SITE_ASSIGN (16 + k) && rb s (pgSite (pos - 12)) Reg.SITE_ADMIT 15)

/-- A request only a caching agent may send (R275). -/
def cachingReq : CohReq → Bool
  | .rdS | .rdX | .upg => true
  | _ => false

/-- A request that writes (R280). -/
def writingReq : CohReq → Bool
  | .wrLine .. | .wrPart .. | .atomAdd .. => true
  | _ => false

/-- A snoop of the home's own (R274). -/
def evictReq : CohReq → Bool
  | .evict _ => true
  | _ => false

/-- The hint of a write (R281). -/
def reqHint : CohReq → Nat
  | .wrLine _ h => h
  | .wrPart _ _ h => h
  | _ => 0

/-- The transaction open for a line (R276). -/
def lineTxn (s : State) (k line : Nat) : Option Txn := s.coh.txns.find? fun t => t.part = k && t.line = line

/-- Replace a transaction. -/
def setTxn (s : State) (t v : Txn) : State :=
  { s with coh := { s.coh with txns := s.coh.txns.map fun u => if u = t then v else u } }

/-- A transaction closes. -/
def closeTxn (s : State) (t : Txn) : State := { s with coh := { s.coh with txns := s.coh.txns.erase t } }

/-- A write's bytes over what the line held (R280). -/
def mergeReq (req : CohReq) (old : Bytes) : Bytes :=
  match req with
  | .wrLine d _ => fitBytes d 128
  | .wrPart mask d _ => (List.range 128).map fun i => if mask.testBit i then d.getD i 0 else old.getD i 0
  | .atomAdd pa v => putBytes old (pa % 128) (wordBytes (bytesWord (old.drop (pa % 128)) + v))
  | _ => old

/-- A snoop is counted. -/
def countSnoop (s : State) (k : Nat) : State := addReg s (pgPart k) Reg.COH_SNOOPS 1

/-- Whether a hint can be honoured (R281): VALID, HINT_EN, and the cluster not FENCED. -/
def hintUsable (s : State) (k hint : Nat) : Bool :=
  hint.testBit 3 && rb s (pgPart k) Reg.COH_CFG 16 && decide (pageState s (pgCl (8 * k + hint % 8)) ≠ 6)

/-- A hint not honoured (R281, R291). -/
def hintDropped (s : State) (k : Nat) : State :=
  raiseEvt (addReg s (pgPart k) Reg.COH_HINT_DROPPED 1) (pgPart k) 5

/-- Snoops are sent to positions (R279). -/
def sendSnoops (s : State) (k line : Nat) (shr : Bool) (l : List Nat) : State :=
  l.foldl (fun s p => sendAgent (countSnoop s k) k p line (if shr then "SNP_SHR" else "SNP_INV") []) s

/-- The home opens a snoop of its own for holders of a line (R274). -/
def openEvict (s : State) (k pos line : Nat) (shr : Bool) (l : List Nat) : State :=
  if l.isEmpty then s
  else
    sendSnoops { s with coh := { s.coh with
      txns := s.coh.txns ++ [⟨k, line, pos, .evict shr, maskOf l, 0, 0, none, shr, 0, false⟩] } } k line shr l

/-- Snoop one cluster whole (R272, R279): dirty data goes to memory; the cluster keeps the line shared under SNP_SHR, or
drops it under SNP_INV.  A chiplet's copy is snooped by messages alone. -/
def snoopOne (s : State) (k line pos : Nat) (inv : Bool) : State :=
  if pos < 8 then
    let s := countSnoop s k
    match cached s k pos line with
    | none => s
    | some l =>
      let s := if l.st = .modified then (devWrite s k (reqOf pos) (line * 128) l.data).2 else s
      if inv then dropLine s k pos line else setLine s k pos line .shared l.data
  else s

/-- Snoop every cluster that holds a line but one (R279). -/
def snoopAll (s : State) (k line : Nat) (except : Nat) (inv : Bool) : State :=
  ((bitsOf (holdersOf s k line) 18).filter fun p => p ≠ except).foldl (fun s p => snoopOne s k line p inv) s

/-- Something is under way for a line at its home: a transaction, a reserved retry, an arrival, or a notice in flight. -/
def lineBusy (s : State) (k line : Nat) : Bool :=
  (lineTxn s k line).isSome || (s.coh.retries.any fun r => r.part = k && r.line = line) ||
    (s.coh.arrivals.any fun r => r.1 = k && r.2.2.1 = line) || s.coh.flight.any fun e => e.1 = k && e.2.2.1 = line

/-- A displaced directory entry (R274): counted, its line UNCACHED; each holder is invalidated, clusters at once where `whole`,
and dirty data goes to memory. -/
def displace (s : State) (k : Nat) (v : DirEntry) (whole : Bool) : State :=
  let l := bitsOf v.holders 18
  let s := if whole then l.foldl (fun s p => snoopOne s k v.line p true) s else s
  let s := addReg (setDir s k v.line false 0) (pgPart k) Reg.COH_BACK_INV 1
  openEvict s k 18 v.line false (if whole then l.filter fun p => decide (8 ≤ p) else l)

/-- A new directory entry needs a way (R273, R274): of a full set, the entry with the fewest holders gives way, the lowest way
among equals; entries with something under way stay. -/
def makeWay (s : State) (k line : Nat) (whole : Bool) : State :=
  if (dirOf s k line).isSome || decide ((homeDir s k line).length < 12) then s
  else
    let set := dirSetEntries s k line
    if set.length < 12 then s
    else
      let n (d : DirEntry) : Nat := 12 * popCount d.holders 18 + d.way
      match (set.filter fun d => !(lineBusy s k d.line)).foldl (fun (b : Option DirEntry) d =>
          match b with
          | none => some d
          | some e => if n d < n e then some d else b) none with
      | none => s
      | some v => displace s k v whole

/-- A request ends without its data (R209): its snooped holders stay as they are left. -/
def failTxn (s : State) (t : Txn) : State :=
  let s := if writingReq t.req || t.req = .rdX then setDir s t.part t.line false 0
    else setDir s t.part t.line false (holdersOf s t.part t.line)
  closeTxn (sendAgent s t.part t.pos t.line "UNCORRECTABLE" []) t

/-- The line is written to memory and becomes UNCACHED; a hint that could not be honoured is counted (R281). -/
def placeInMemory (s : State) (t : Txn) (d : Bytes) : State :=
  let s := (devWrite (setDir s t.part t.line false 0) t.part (reqOf t.pos) (t.line * 128) d).2
  let s := if (reqHint t.req).testBit 3 then hintDropped s t.part else s
  setTxn s t { t with phase := 2, dirty := some d }

/-- A grant is sent (R279). -/
def grantTxn (s : State) (t : Txn) (d : Bytes) (msg : String) : State :=
  setTxn (sendAgent s t.part t.pos t.line msg d) t { t with phase := 2, dirty := some d }

/-- A transaction whose snoops are all answered, and whose notices have all come, goes on (R279 to R283). -/
def advance (s : State) (t : Txn) : State :=
  if t.await ≠ 0 ∨ t.notices ≠ 0 ∨ t.phase ≠ 0 then s
  else
    let k := t.part
    let req := reqOf t.pos
    let s := match t.dirty with
      | some d => (devWrite s k req (t.line * 128) d).2
      | none => s
    match t.req with
    | .evict shr =>
      let h := holdersOf s k t.line
      closeTxn (if shr then setDir s k t.line false h
        else setDir s k t.line (ownedLine s k t.line && decide (h &&& 0xF000 = 0)) (h &&& 0xFFF)) t
    | .upg => grantTxn (setDir s k t.line true (1 <<< t.pos)) t [] "GRANT_UPG"
    | .wrLine d h =>
      if hintUsable s k h then
        setTxn (sendAgent s k (h % 8) t.line "FILL_HINT" d) t { t with phase := 1, dirty := some (fitBytes d 128) }
      else placeInMemory s t (fitBytes d 128)
    | r =>
      match devRead s k req (t.line * 128) 128 with
      | (none, s) => failTxn s t
      | (some d, s) =>
        match r with
        | .rdS =>
          match dirOf s k t.line with
          | none => grantTxn (setDir (makeWay s k t.line false) k t.line true (1 <<< t.pos)) t d "DATA_E"
          | some e => grantTxn (setDir s k t.line false (e.holders ||| (1 <<< t.pos))) t d "DATA_S"
        | .rdX => grantTxn (setDir (makeWay s k t.line false) k t.line true (1 <<< t.pos)) t d "DATA_E"
        | .rdOnce => setTxn (setDir s k t.line false (if ownedLine s k t.line ∨ (dirOf s k t.line).isSome then
            holdersOf s k t.line else 0)) t { t with phase := 2, dirty := some d }
        | r =>
          if hintUsable s k (reqHint r) then
            setTxn (sendAgent s k (reqHint r % 8) t.line "FILL_HINT" (mergeReq r d)) t
              { t with phase := 1, dirty := some (mergeReq r d) }
          else placeInMemory s t (mergeReq r d)

/-- The home accepts a request (R276, R279): the directory decides the snoops; an UPG of a position that does not hold
the line shared is served as RD_X. -/
def openTxn (s : State) (k pos line : Nat) (req : CohReq) (res : Bool) : State :=
  let h := holdersOf s k line
  let owned := ownedLine s k line
  let req := if req = .upg ∧ !(h.testBit pos && !owned) then .rdX else req
  let others := (bitsOf h 18).filter fun p => p ≠ pos
  let targets :=
    match req with
    | .rdS | .rdOnce => if owned then others else []
    | _ => others
  let shr := decide (req = .rdS) || decide (req = .rdOnce)
  let t : Txn := ⟨k, line, pos, req, maskOf targets, 0, 0, none, shr, 0, res⟩
  let s := { addReg s (pgPart k) Reg.COH_REQUESTS 1 with coh := { s.coh with txns := s.coh.txns ++ [t] } }
  advance (sendSnoops s k line shr targets) t

/-- Reserved retries that wait for a line are accepted in the order of their credits, as soon as no transaction is open
(R276, R277); `n` bounds those looked at. -/
def pumpLine (s : State) (k line : Nat) : Nat → State
  | 0 => s
  | n + 1 =>
    match lineTxn s k line, s.coh.retries.find? fun r => r.part = k && r.line = line && r.back with
    | none, some r =>
      pumpLine (openTxn { s with coh := { s.coh with retries := s.coh.retries.erase r } } k r.pos line r.req true) k line n
    | _, _ => s

/-- The general entries of a home's table in use (R278). -/
def homeLoad (s : State) (k home : Nat) : Nat :=
  s.coh.txns.countP fun t => t.part = k && homeOf t.line = home && !t.res

/-- The reserved entry of a position at the home of a line is in use (R277). -/
def entryUsed (s : State) (k pos line : Nat) : Bool :=
  (s.coh.retries.any fun r => r.part = k && homeOf r.line = homeOf line && r.pos = pos) ||
    s.coh.txns.any fun t => t.part = k && homeOf t.line = homeOf line && t.pos = pos && t.res

/-- A request cannot be accepted now (R276, R278): a transaction of its line is open, a reserved retry waits, or the general
entries are full. -/
def blockedLine (s : State) (k line : Nat) : Bool :=
  (lineTxn s k line).isSome || (s.coh.retries.any fun r => r.part = k && r.line = line && r.back) ||
    decide (78 ≤ homeLoad s k (homeOf line))

/-- A request loses (R276, R277): it receives RETRY with its position's reserved credit; where that is in use it waits for it
(log entry 36). -/
def loseReq (s : State) (k pos line : Nat) (req : CohReq) : State :=
  if entryUsed s k pos line then { s with coh := { s.coh with waits := s.coh.waits ++ [(k, pos, line, req)] } }
  else
    let s := { s with coh := { s.coh with retries := s.coh.retries ++ [⟨k, line, pos, req, false⟩] } }
    sendAgent (addReg s (pgPart k) Reg.COH_RETRIES 1) k pos line "RETRY" []

/-- A request that waited for its position's reserved entry is presented again. -/
def presentWait (s : State) (w : Nat × Nat × Nat × CohReq) : State :=
  let s := { s with coh := { s.coh with waits := s.coh.waits.erase w } }
  if blockedLine s w.1 w.2.2.1 then loseReq s w.1 w.2.1 w.2.2.1 w.2.2.2 else openTxn s w.1 w.2.1 w.2.2.1 w.2.2.2 false

/-- What a line's home does once a command has run. -/
def settle (s : State) (k line : Nat) : State :=
  let s := pumpLine s k line s.coh.retries.length
  (s.coh.waits.filter fun w => w.1 = k && homeOf w.2.2.1 = homeOf line && !(entryUsed s k w.2.1 w.2.2.1)).foldl presentWait s

/-- A WB or EVICT_CLEAN of a caching agent reaches the home (R276, R279, R283, R284): with no transaction open, from the owner,
the line becomes UNCACHED; with one that awaits it, its data is the snooped data.  Its writeback credit returns.  None where
nothing awaits it (R275). -/
def takeNotice (s : State) (k pos line : Nat) (data : Option Bytes) : Option State :=
  let write (s : State) : State :=
    match data with
    | some d => (devWrite s k (reqOf pos) (line * 128) (fitBytes d 128)).2
    | none => s
  let credit (s : State) : State := if 12 ≤ pos then sendAgent s k pos line "WB_CREDIT" [] else s
  match lineTxn s k line with
  | none =>
    if ownedLine s k line && decide (holdersOf s k line = 1 <<< pos) then
      some (settle (credit (write (setDir s k line false 0))) k line)
    else none
  | some t =>
    let dirty := match data with
      | some d => some (fitBytes d 128)
      | none => t.dirty
    if t.notices.testBit pos then
      let v := { t with notices := t.notices ^^^ (1 <<< pos), dirty := dirty }
      some (settle (advance (credit (write (setTxn s t v))) v) k line)
    else if t.await.testBit pos && !(t.arrived.testBit pos) then
      some (credit (write (setTxn s t { t with arrived := t.arrived ||| (1 <<< pos), dirty := dirty })))
    else none

/-! ### What the caches hold (R89, R272) -/

/-- The set of a cluster cache that a line picks: one of 1,024 (R89). -/
def cacheSetOf (line : Nat) : Nat := Config.cacheSet line % 1024

/-- A cluster cache makes room for a line (R89, R272): of a full set of 12 ways a victim is evicted, a shared line silently, an
exclusive or modified one with its notice.  A line that is EVICTING, or whose grant the cluster has not acknowledged, is no
victim. -/
def evictFor (s : State) (k pos line : Nat) : State :=
  let mine := s.coh.lines.filter fun l => l.part = k && l.pos = pos
  if mine.length < 12 then s
  else
    let set := mine.filter fun l => cacheSetOf l.line = cacheSetOf line
    if set.length < 12 then s
    else
      let cand := set.filter fun l =>
        decide (l.st ≠ .evicting) &&
          (match lineTxn s k l.line with
           | some t => decide (t.pos ≠ pos)
           | none => true)
      let d := draw s
      match cand[Config.cacheVictim d.1 cand.length % cand.length]? with
      | none => d.2
      | some v =>
        let s := dropLine d.2 k pos v.line
        match v.st with
        | .shared => s
        | .modified => (takeNotice s k pos v.line (some v.data)).getD s
        | _ => (takeNotice s k pos v.line none).getD s

/-- A cluster takes a line into its cache. -/
def takeLine (s : State) (k pos line : Nat) (st : LineState) (d : Bytes) : State :=
  setLine (if (cached s k pos line).isSome then s else evictFor s k pos line) k pos line st d

/-! ### Accesses made whole -/

/-- The line as a position may use it: a line that is EVICTING is none. -/
def usable (s : State) (k pos line : Nat) : Option CLine :=
  match cached s k pos line with
  | some l => if l.st = .evicting then none else some l
  | none => none

/-- Why an access of a line by a position has to wait: something is under way for the line, or a chiplet's copy must be
snooped first. -/
def lineStall (s : State) (k pos line : Nat) (inv : Bool) : Option Stall :=
  if lineBusy s k line then some (.lost k pos line)
  else
    let far := holdersOf s k line &&& (0xF000 ^^^ (0xF000 &&& 1 <<< pos))
    if far = 0 then none
    else if inv then some (.snoop k pos line false)
    else if ownedLine s k line then some (.snoop k pos line true)
    else none

/-- A unit's access comes to the home of a line; it waits, or is served with the commands of no other agent between. -/
def meetLine (s : State) (k pos line : Nat) (inv : Bool) : State :=
  if s.gate.isNone then s
  else
    match lineStall s k pos line inv with
    | some x => stallOn s x
    | none => { s with coh := { s.coh with stuck := s.coh.stuck.filter fun e => e ≠ (k, pos, line) } }

/-- A caching position reads a line it does not hold, for sharing or for ownership (R279): the bytes and
whether the grant is exclusive; none where memory cannot be corrected. -/
def fetchLine (s : State) (k req line : Nat) (excl : Bool) : Option (Bytes × Bool) × State :=
  let pos := posOf req
  let s := addReg (meetLine s k pos line excl) (pgPart k) Reg.COH_REQUESTS 1
  match dirOf s k line with
  | none =>
    let s := makeWay s k line true
    match devRead s k req (line * 128) 128 with
    | (none, s) => (none, s)
    | (some d, s) => (some (d, true), setDir s k line true (1 <<< pos))
  | some e =>
    let s := if excl then snoopAll s k line pos true else if e.owned then snoopAll s k line pos false else s
    match devRead s k req (line * 128) 128 with
    | (none, s) => (none, s)
    | (some d, s) =>
      if excl then (some (d, true), setDir s k line true (1 <<< pos))
      else (some (d, false), setDir s k line false (e.holders ||| (1 <<< pos)))

/-- The bytes of a line as a cluster loads it (R268, R279). -/
def loadLine (s : State) (k req line : Nat) : Option Bytes × State :=
  let pos := posOf req
  match usable s k pos line with
  | some l => (some l.data, s)
  | none =>
    match fetchLine s k req line false with
    | (none, s) => (none, s)
    | (some (d, e), s) => (some d, takeLine s k pos line (if e then .exclusive else .shared) d)

/-- A cluster stores bytes at an offset of a line (R272, R279): to a line it owns at once, else after an UPG
or an RD_X. -/
def storeLine (s : State) (k req line off : Nat) (b : Bytes) : Bool × State :=
  let pos := posOf req
  match usable s k pos line with
  | some l =>
    if l.st = .shared then
      let s := addReg (meetLine s k pos line true) (pgPart k) Reg.COH_REQUESTS 1
      let s := setDir (snoopAll s k line pos true) k line true (1 <<< pos)
      (true, setLine s k pos line .modified (putBytes l.data off b))
    else (true, setLine s k pos line .modified (putBytes l.data off b))
  | none =>
    match fetchLine s k req line true with
    | (none, s) => (false, s)
    | (some (d, _), s) => (true, takeLine s k pos line .modified (putBytes d off b))

/-- Non-caching read of a line (R279): the owner is snooped for sharing. -/
def onceLine (s : State) (k req line : Nat) : Option Bytes × State :=
  let s := addReg (meetLine s k (posOf req) line false) (pgPart k) Reg.COH_REQUESTS 1
  let s := if ownedLine s k line then
      let h := holdersOf s k line
      setDir (snoopAll s k line 99 false) k line false h
    else s
  devRead s k req (line * 128) 128

/-- Place the bytes of a line a non-caching agent has written (R281): in the hinted cluster in M, or in
memory, where it becomes UNCACHED. -/
def placeLine (s : State) (k req line hint : Nat) (d : Bytes) : State :=
  if hintUsable s k hint then
    let s := takeLine (setDir (makeWay s k line true) k line true (1 <<< (hint % 8))) k (hint % 8) line .modified d
    addReg s (pgPart k) Reg.COH_HINT_PLACED 1
  else
    let s := (devWrite (setDir s k line false 0) k req (line * 128) d).2
    if hint.testBit 3 then hintDropped s k else s

/-- Non-caching write at an offset of a line (R280): every holder is invalidated, the bytes merged into what
the owner or memory held, and the line placed; it fails where a part write's memory cannot be corrected. -/
def writeLineNc (s : State) (k req line off hint : Nat) (b : Bytes) : Bool × State :=
  let s := addReg (meetLine s k (posOf req) line true) (pgPart k) Reg.COH_REQUESTS 1
  let s := snoopAll s k line 99 true
  if b.length = 128 then (true, placeLine s k req line hint b)
  else
    match devRead s k req (line * 128) 128 with
    | (none, s) => (false, s)
    | (some d, s) => (true, placeLine s k req line hint (putBytes d off b))

/-- Read `n` bytes from `a` for a requester: line by line through the domain, or straight from memory where the
access is not coherent (R268); none where data cannot be corrected or the domain is lost (R289). -/
def readLines (s : State) (k req : Nat) : Nat → Nat → Nat → Option Bytes × State
  | 0, _, _ => (some [], s)
  | fuel + 1, a, n =>
    if n = 0 then (some [], s)
    else
      let off := a % 128
      let m := min n (128 - off)
      let r := if req < 128 then loadLine s k req (a / 128) else onceLine s k req (a / 128)
      match r with
      | (none, s) => (none, s)
      | (some d, s) =>
        match readLines s k req fuel (a + m) (n - m) with
        | (none, s) => (none, s)
        | (some t, s) => (some (slice d off m ++ t), s)

/-- Read `n` bytes of device memory for requester `req`. -/
def memRead (s : State) (k req a n : Nat) (nc : Bool) : Option Bytes × State :=
  if nc then devRead s k req a n
  else if domainLost s k then (none, s)
  else readLines s k req (n + 1) a n

/-- Write bytes line by line through the domain. -/
def writeLines (s : State) (k req hint : Nat) : Nat → Nat → Bytes → Bool × State
  | 0, _, _ => (true, s)
  | fuel + 1, a, b =>
    if b.isEmpty then (true, s)
    else
      let off := a % 128
      let m := min b.length (128 - off)
      let r := if req < 128 then storeLine s k req (a / 128) off (b.take m)
        else writeLineNc s k req (a / 128) off hint (b.take m)
      if r.1 then writeLines r.2 k req hint fuel (a + m) (b.drop m) else r

/-- Write bytes of device memory for requester `req`, with a write hint. -/
def memWrite (s : State) (k req a hint : Nat) (b : Bytes) (nc : Bool) : Bool × State :=
  if nc then devWrite s k req a b
  else if domainLost s k then (false, s)
  else writeLines s k req hint (b.length + 1) a b

/-- Add to an 8-byte word in one indivisible operation (R126, R280): of a coherent line, in one transaction at its home. -/
def memAdd (s : State) (k req a : Nat) (v : Word) (nc : Bool) : Bool × State :=
  if nc then
    match devRead s k req a 8 with
    | (none, s) => (false, s)
    | (some d, s) => devWrite s k req a (wordBytes (bytesWord d + v))
  else if domainLost s k then (false, s)
  else
    let line := a / 128
    let s := addReg (meetLine s k (posOf req) line true) (pgPart k) Reg.COH_REQUESTS 1
    match devRead (snoopAll s k line 99 true) k req (line * 128) 128 with
    | (none, s) => (false, s)
    | (some d, s) => (true, placeLine s k req line 0 (mergeReq (.atomAdd a v) d))

/-- The hint of what a unit writes (R282): a sweep engine's field of `COH_HINT`. -/
def engineHint (s : State) (k req : Nat) : Nat :=
  if 128 ≤ req ∧ req < 132 then rf s (pgPart k) Reg.COH_HINT (4 * (req - 128)) 4 else 0

/-- An access of a unit loses to what is under way for its line (R276, R277): one RETRY is counted, and the unit's command,
sent again, is the retried request. -/
def countLost (s : State) (k pos line : Nat) : State :=
  if s.coh.stuck.contains (k, pos, line) then s
  else addReg { s with coh := { s.coh with stuck := s.coh.stuck ++ [(k, pos, line)] } } (pgPart k) Reg.COH_RETRIES 1

/-- Run the whole effect of a unit's command; where one of its accesses has to wait, nothing of it has happened yet and the
command is to be sent again: what it waits for is held (R213, R217, R228, R235; log entry 68), under way at its line's home
(R276), or a chiplet's answer to a snoop that is sent now (R279; log entry 37). -/
def gated (s : State) (f : State → State) : State :=
  let t := f { s with gate := some (holdsOn s), stalled := none }
  match t.stalled with
  | none => { t with gate := none }
  | some .held => s
  | some (.lost k pos line) => countLost s k pos line
  | some (.snoop k pos line shr) => openEvict s k pos line shr (bitsOf (holdersOf s k line &&& 0xF000) 18)

/-- Write back every line a partition's clusters hold in M and keep it in E (R286); a writeback in flight is awaited. -/
def flushLines (s : State) (k : Nat) : State :=
  let s := if s.gate.isSome && s.coh.flight.any fun e => e.1 = k then stallOn s .held else s
  (s.coh.lines.filter fun l => l.part = k && decide (l.pos < 8) && l.st = .modified).foldl
    (fun s l =>
      let s := setLine (devWrite s k (reqOf l.pos) (l.line * 128) l.data).2 k l.pos l.line .exclusive l.data
      addReg s (pgPart k) Reg.FLUSH_LINES 1) s

/-- Write back and drop every line of a range that a partition's clusters hold (R191). -/
def evictRange (s : State) (k a n : Nat) : State :=
  (s.coh.lines.filter fun l => l.part = k && decide (l.pos < 8) && inRange (l.line * 128) a n).foldl
    (fun s l =>
      let s := if l.st = .modified then (devWrite s k (reqOf l.pos) (l.line * 128) l.data).2 else s
      let s := dropLine s k l.pos l.line
      setDir s k l.line false (holdersOf s k l.line &&& ((2 ^ 18 - 1) ^^^ (1 <<< l.pos)))) s

/-- A cluster of partition `k` is FENCED (R92). -/
def clusterFenced (s : State) (k : Nat) : Bool := (List.range 8).any fun m => pageState s (pgCl (8 * k + m)) = 6

/-- Every directory entry of a partition UNCACHED, every cluster cache invalid, nothing written back, every
transaction gone (R289, R427); the domain stays lost where one of its homes is FENCED (R92). -/
def clearDomain (s : State) (k : Nat) : State :=
  { s with coh := { s.coh with
      lines := s.coh.lines.filter fun l => l.part ≠ k
      dir := s.coh.dir.filter fun d => d.part ≠ k
      txns := s.coh.txns.filter fun t => t.part ≠ k
      retries := s.coh.retries.filter fun t => t.part ≠ k
      answers := s.coh.answers.filter fun t => t.1 ≠ k
      flight := s.coh.flight.filter fun t => t.1 ≠ k
      arrivals := s.coh.arrivals.filter fun t => t.1 ≠ k
      waits := s.coh.waits.filter fun t => t.1 ≠ k
      stuck := s.coh.stuck.filter fun t => t.1 ≠ k
      lost := s.coh.lost.filter fun j => j ≠ k || clusterFenced s k } }

end Sys2Proof.Machine
end

