-- ==== Sys2Proof/Machine/Ctx.lean ====
section
/-!
DEFINITION. Contexts, dispatched descriptors and completion (R110, R117 to R120, R129 to R131, R419 to R421,
R501), and the access of tiles (R178).
-/

namespace Sys2Proof.Machine

/-- What every meaning answers. -/
abbrev Res := Host.Outcome State Fault Refusal

/-! ### Descriptor fields (R110) -/

/-- Word `i` of a descriptor. -/
def dw (d : List Word) (i : Nat) : Word := d.getD i 0
/-- OPCODE. -/
def dOp (d : List Word) : Nat := fld (dw d 0) 0 8
/-- ECLASS. -/
def dClass (d : List Word) : Nat := fld (dw d 0) 8 3
/-- SAT. -/
def dSat (d : List Word) : Bool := bit (dw d 0) 11
/-- RMODE: stochastic. -/
def dStoch (d : List Word) : Bool := bit (dw d 0) 12
/-- POT. -/
def dPot (d : List Word) : Bool := bit (dw d 0) 13
/-- IRQ. -/
def dIrq (d : List Word) : Bool := bit (dw d 0) 14
/-- TAG. -/
def dTag (d : List Word) : Nat := fld (dw d 0) 16 16
/-- FMT_A. -/
def dFmtA (d : List Word) : Nat := fld (dw d 0) 32 4
/-- FMT_B. -/
def dFmtB (d : List Word) : Nat := fld (dw d 0) 36 4
/-- FMT_D. -/
def dFmtD (d : List Word) : Nat := fld (dw d 0) 40 4
/-- MX_A. -/
def dMxA (d : List Word) : Bool := bit (dw d 0) 44
/-- MX_B. -/
def dMxB (d : List Word) : Bool := bit (dw d 0) 45
/-- MX_D. -/
def dMxD (d : List Word) : Bool := bit (dw d 0) 46
/-- OPF. -/
def dOpf (d : List Word) : Nat := fld (dw d 0) 48 16
/-- SEED. -/
def dSeed (d : List Word) : Word := dw d 1
/-- A_ADDR. -/
def dA (d : List Word) : Nat := fld (dw d 2) 0 52
/-- A's pitch in bytes. -/
def dAPitch (d : List Word) : Nat := fld (dw d 2) 52 12 * 64
/-- B_ADDR. -/
def dB (d : List Word) : Nat := fld (dw d 3) 0 52
/-- B's pitch in bytes. -/
def dBPitch (d : List Word) : Nat := fld (dw d 3) 52 12 * 64
/-- D_ADDR. -/
def dD (d : List Word) : Nat := fld (dw d 4) 0 52
/-- D's pitch in bytes. -/
def dDPitch (d : List Word) : Nat := fld (dw d 4) 52 12 * 64
/-- M. -/
def dM (d : List Word) : Nat := fld (dw d 5) 0 24
/-- N. -/
def dN (d : List Word) : Nat := fld (dw d 5) 24 24
/-- K. -/
def dK (d : List Word) : Nat := fld (dw d 6) 0 32
/-- D_COLS. -/
def dCols (d : List Word) : Nat := fld (dw d 6) 32 24
/-- ROW0. -/
def dRow0 (d : List Word) : Nat := fld (dw d 7) 0 32
/-- COL0. -/
def dCol0 (d : List Word) : Nat := fld (dw d 7) 32 24

/-! ### The context table -/

/-- A context ID from its partition and local number. -/
def ctxId (k x : Nat) : Nat := 256 * k + x

/-- `CTX_RING.LOG2_SIZE` (R118). -/
def ctxLog (s : State) (k x : Nat) : Nat := rf s (pgPart k) (Reg.CTX_RING x) 52 5

/-- `CTX_HEAD.HEAD` (R132). -/
def ctxHead (s : State) (k x : Nat) : Nat := rf s (pgPart k) (Reg.CTX_HEAD x) 0 32

/-- Set a context's state. -/
def setCtx (s : State) (k x st : Nat) : State := wf s (pgPart k) (Reg.CTX_STATE x) 0 3 st

/-- The dispatched descriptors of a context. -/
def ctxWork (s : State) (k x : Nat) : List Work := s.work.filter fun w => w.part = k && w.ctx = x

/-- Bring INFLIGHT and FIRST_OPEN up to date with the descriptors dispatched and not complete (R130, R132). -/
def updCtx (s : State) (k x : Nat) : State :=
  let ws := ctxWork s k x
  let head := ctxHead s k x
  let first := ws.foldl (fun m w =>
    if (w.seq + 2 ^ 32 - head) % 2 ^ 32 < (m + 2 ^ 32 - head) % 2 ^ 32 ∨ m = head then w.seq else m) head
  let s := wf s (pgPart k) (Reg.CTX_STATE x) 16 16 ws.length
  wf s (pgPart k) (Reg.CTX_STATE x) 32 32 first

/-- Add to a context's outstanding-transaction counter (R420). -/
def outUp (s : State) (k x : Nat) : State :=
  wf s (pgPart k) (Reg.CTX_OUT x) 0 24 (rf s (pgPart k) (Reg.CTX_OUT x) 0 24 + 1)

/-- Take `n` from a context's outstanding-transaction counter (R420). -/
def outDown (s : State) (k x n : Nat) : State :=
  wf s (pgPart k) (Reg.CTX_OUT x) 0 24 (rf s (pgPart k) (Reg.CTX_OUT x) 0 24 - n)

/-- Take a descriptor off its unit. -/
def dropWork (s : State) (w : Work) : State := { s with work := s.work.erase w }

/-- Replace a dispatched descriptor. -/
def setWork (s : State) (w v : Work) : State := { s with work := s.work.map fun u => if u = w then v else u }

/-- A descriptor is released: off its unit, no longer outstanding (R420). -/
def releaseWork (s : State) (w : Work) : State := updCtx (outDown (dropWork s w) w.part w.ctx 1) w.part w.ctx

/-- Every descriptor of a context released without a record (R419). -/
def releaseAll (s : State) (k x : Nat) : State :=
  let s := (ctxWork s k x).foldl releaseWork s
  { s with fetchHeld := s.fetchHeld.filter fun f => !(f.1 = k && f.2.1 = x) }

/-- An armed reduction slot of a context is disarmed, and no longer outstanding (R321, R419, R420). -/
def disarmCtx (s : State) (k x : Nat) : State :=
  let mine := s.slots.filter fun r => r.part = k && r.ctx = x
  mine.foldl
    (fun s r =>
      let s := { s with slots := s.slots.erase r }
      outDown (wb s (pgPart k) Reg.RED_ARMED r.slot false) k x 1) s

/-- A context becomes dead: its descriptors are released and its reduction slots disarmed (R419).  FIRST_OPEN
keeps the lowest SEQ without a record. -/
def killCtx (s : State) (k x : Nat) : State :=
  let first := rf s (pgPart k) (Reg.CTX_STATE x) 32 32
  wf (disarmCtx (releaseAll s k x) k x) (pgPart k) (Reg.CTX_STATE x) 32 32 first

/-- A trigger to the job table (R423): a member of job `j` fails with a cause, at a page. -/
def triggerJob (s : State) (j cause page : Nat) : State :=
  if j = 0 ∨ (s.err.jobTriggers.any fun t => t.1 = j && t.2.1 = cause) then s
  else { s with err := { s.err with jobTriggers := s.err.jobTriggers ++ [(j, cause, page)] } }

/-- A context enters ABORTED with a cause (R117, R130, R132, R133, R419); a context already dead does not
change.  Any cause but a job abort triggers its job (R423). -/
def abortCtx (s : State) (k x cause : Nat) (byJob : Bool) : State :=
  if ctxState s k x = 0 ∨ ctxDead s k x then s
  else
    let s := wf (setCtx s k x 5) (pgPart k) (Reg.CTX_STATE x) 8 8 cause
    let s := killCtx s k x
    let s := wb s (pgPart k) (Reg.ABORT_PEND (x / 64)) (x % 64) true
    let s := raiseEvt s (pgPart k) 2
    if byJob then s else triggerJob s (rf s (pgPart k) (Reg.CTX_JOB x) 0 8) 1 (pgPart k)

/-! ### Tiles (R178) -/

/-- The physical segments of `n` bytes at `va`: address, bytes, coherent or not, in address order. -/
def segments (pages : List (Nat × Nat × Bool)) : Nat → Nat → Nat → List (Nat × Nat × Bool)
  | 0, _, _ => []
  | fuel + 1, va, n =>
    if n = 0 then []
    else
      let off := va % 65536
      let m := min n (65536 - off)
      match pages.find? fun p => p.1 = va / 65536 with
      | none => []
      | some p => (p.2.1 + off, m, p.2.2) :: segments pages fuel (va + m) (n - m)

/-- Read segments in order. -/
def readSegs (s : State) (k req : Nat) : List (Nat × Nat × Bool) → Option Bytes × State
  | [] => (some [], s)
  | (a, n, nc) :: t =>
    match memRead s k req a n nc with
    | (none, s) => (none, s)
    | (some b, s) =>
      match readSegs s k req t with
      | (none, s) => (none, s)
      | (some c, s) => (some (b ++ c), s)

/-- Write segments in order. -/
def writeSegs (s : State) (k req hint : Nat) : List (Nat × Nat × Bool) → Bytes → Bool × State
  | [], _ => (true, s)
  | (a, n, nc) :: t, b =>
    let r := memWrite s k req a hint (b.take n) nc
    if r.1 then writeSegs r.2 k req hint t (b.drop n) else r

/-- The rows of a tile read once its pages are translated. -/
def readRows (s : State) (k req : Nat) (pages : List (Nat × Nat × Bool)) (t : Tile) :
    List Nat → Option (List Bytes) × State
  | [] => (some [], s)
  | r :: rs =>
    let va := t.va + r * t.pitch
    match readSegs (serveRow s k req (t.rowBytes / 65536 + 2) va t.rowBytes) k req (segments pages (t.rowBytes + 1) va t.rowBytes) with
    | (none, s) => (none, s)
    | (some b, s) =>
      match readRows s k req pages t rs with
      | (none, s) => (none, s)
      | (some l, s) => (some (b :: l), s)

/-- The rows of a tile written once its pages are translated. -/
def writeRows (s : State) (k req hint : Nat) (pages : List (Nat × Nat × Bool)) (t : Tile) :
    Nat → List Bytes → Bool × State
  | _, [] => (true, s)
  | r, b :: bs =>
    let va := t.va + r * t.pitch
    let w := writeSegs (serveRow s k req (b.length / 65536 + 2) va b.length) k req hint (segments pages (b.length + 1) va b.length) b
    if w.1 then writeRows w.2 k req hint pages t (r + 1) bs else w

/-- Read a tile (R178): every page it touches is translated first; a fault delivers no byte. -/
def readTile (s : State) (k req : Nat) (t : Tile) : Except Stop (List Bytes) × State :=
  match translatePages s k req false (tilePages t.va t.pitch t.rows t.rowBytes) with
  | (.error (page, kind, level), s) => (.error (.fault page kind level), s)
  | (.ok pages, s) =>
    match readRows s k req pages t (List.range t.rows) with
    | (none, s) => (.error .ue, s)
    | (some l, s) => (.ok l, s)

/-- Write a tile (R178): every page it touches is translated first; a fault writes no byte. -/
def writeTile (s : State) (k req hint : Nat) (t : Tile) (rows : List Bytes) : Except Stop Unit × State :=
  match translatePages s k req true (tilePages t.va t.pitch t.rows t.rowBytes) with
  | (.error (page, kind, level), s) => (.error (.fault page kind level), s)
  | (.ok pages, s) =>
    match writeRows s k req hint pages t 0 rows with
    | (false, s) => (.error .ue, s)
    | (true, s) => (.ok (), s)

/-! ### Completion (R86, R129, R130, R501) -/

/-- What a fault of a descriptor's tile says of itself (R179). -/
def workFault (w : Work) (t : Tile) (write : Bool) (page kind level : Nat) : FaultInfo :=
  ⟨w.part, w.unit, page, level, kind, write, ctxId w.part w.ctx, dOp w.desc, t.operand, w.seq, t.va,
    if t.rows ≤ 1 then 0 else t.pitch / 64, t.rows, t.rowBytes⟩

/-- The words of a completion record (R129). -/
def recordWords (s : State) (w : Work) (status detail faultAddr flags : Nat) (result : Word) : List Word :=
  let d := w.desc
  [ w64 (status % 256 + (detail % 256) <<< 8 + dTag d <<< 16 + ctxId w.part w.ctx <<< 32 +
      (if w.seq.testBit (ctxLog s w.part w.ctx) then 0 else 1) <<< 44 + dOp d <<< 48 + arithVer s <<< 56),
    w64 (w.seq % 2 ^ 32), w64 (faultAddr % 2 ^ 52), w64 (flags % 8), result, 0, 0, 0 ]

/-- The tile of a descriptor's completion record (R118, R501). -/
def recordTile (s : State) (w : Work) : Tile :=
  ⟨rf s (pgPart w.part) (Reg.CTX_CPL w.ctx) 0 52 + 64 * (w.seq % 2 ^ ctxLog s w.part w.ctx), 64, 1, 64, 7⟩

/-- A reduction slot whose descriptor has completed is disarmed, and RED_DONE with its status goes to every agent
that had a submission accepted and whose site is admitted (R320, R321). -/
def endSlot (s : State) (w : Work) (status : Nat) : State :=
  match s.slots.find? fun r => r.part = w.part && r.ctx = w.ctx && r.seq = w.seq with
  | none => s
  | some r =>
    let s := outDown (wb { s with slots := s.slots.erase r } (pgPart w.part) Reg.RED_ARMED r.slot false) w.part w.ctx 1
    (r.agents.filter fun a => siteAdmitted s a.1).foldl
      (fun s a => siteSend s a.1 "RED_DONE" [w.part, a.2, r.slot, status] []) s

/-- A descriptor whose record is written is complete (R86, R132): DONE rises, it is released, `CPL_PEND` is
set where it and its context ask, the cluster of its core counts it, and an aborting status takes the
context to ABORTED (R130). -/
def retire (s : State) (w : Work) (status : Nat) : State :=
  let p := pgPart w.part
  let s := wf s p (Reg.CTX_HEAD w.ctx) 32 32 (rf s p (Reg.CTX_HEAD w.ctx) 32 32 + 1)
  let s := endSlot (releaseWork s w) w status
  let s := if w.unit < 128 then addReg s (pgCl (8 * w.part + w.unit / 16)) Reg.DESC_RETIRED 1 else s
  let s := if dIrq w.desc && rb s p (Reg.CTX_CFG w.ctx) 12 then
      raiseEvt (wb s p (Reg.CPL_PEND (w.ctx / 64)) (w.ctx % 64) true) p 1
    else s
  if status = 2 ∨ status = 4 then abortCtx s w.part w.ctx status false else s

/-- An engine is held on a fault (R164). -/
def holdEvt (s : State) (w : Work) : State :=
  if 128 ≤ w.unit ∧ w.unit < 132 then raiseEvt s (pgSe (4 * w.part + (w.unit - 128))) 2 else s

/-- Hold a descriptor on a fault that software may resolve (R131, R164, R177, R180, R182). -/
def holdWork (s : State) (w : Work) (i : FaultInfo) : State :=
  match recordFault (holdEvt s w) i with
  | (some id, s) => setWork s w { w with phase := .held id }
  | (none, s) => setWork s w { w with phase := .heldNew }

/-- Record a FINAL fault of a descriptor, and end it with `fin` once it has its record; until the ring has room the
descriptor is held (R177, R182). -/
def recordFinal (s : State) (w : Work) (i : FaultInfo) (fin : State → State) : State :=
  match recordFault s i with
  | (some _, s) => fin s
  | (none, s) => setWork (holdEvt s w) w { w with phase := .heldNew }

/-- Write a descriptor's completion record through the manifest (R86, R501).  A NOT_VALID fault holds the
record; any other fault takes the context to ABORTED. -/
def writeRecord (s : State) (w : Work) (words : List Word) : State :=
  let t := recordTile s w
  match writeTile s w.part w.unit 0 t [words.flatMap wordBytes] with
  | (.ok (), s) => retire s w (fld (words.getD 0 0) 0 8)
  | (.error (.fault page kind level), s) =>
    let v := { w with record := words }
    let i := workFault w t true page kind level
    if kind = 1 then holdWork (setWork s w v) v i
    else recordFinal (setWork s w v) v i fun s => abortCtx s w.part w.ctx (if kind = 9 then 4 else 2) false
  | (.error .ue, s) => abortCtx s w.part w.ctx 4 false

/-- Complete a descriptor: its record is written unless its context is dead, whose descriptors are released
without one (R130, R419). -/
def complete (s : State) (w : Work) (status detail faultAddr flags : Nat) (result : Word) : State :=
  if ctxDead s w.part w.ctx then releaseWork s w
  else writeRecord s w (recordWords s w status detail faultAddr flags result)

/-- Complete with a status alone. -/
def completeSt (s : State) (w : Work) (status : Nat) : State := complete s w status 0 0 0 0

/-- A descriptor ends on a FINAL fault (R130, R177): UNCORRECTABLE for WALK_UE, else FAULT_PERMISSION; where it was its
record that could not be written, its context is aborted (R501). -/
def endFault (s : State) (w : Work) (page kind : Nat) : State :=
  if !(w.record.isEmpty) then abortCtx s w.part w.ctx (if kind = 9 then 4 else 2) false
  else if kind = 9 then completeSt s w 4
  else complete s w 2 0 page 0 0

/-- A descriptor's access stops (R130, R131, R177): held on a page software may map; otherwise completed with
FAULT_PERMISSION or UNCORRECTABLE. -/
def stopWork (s : State) (w : Work) (t : Tile) (write : Bool) : Stop → State
  | .ue => completeSt s w 4
  | .fault page kind level =>
    let i := workFault w t write page kind level
    if kind = 1 then holdWork s w i else recordFinal s w i fun s => endFault s w page kind

/-- The unit a descriptor is on has stopped for a fence (R99, R138), or its clock for the thermal trip (R492). -/
def unitStopped (s : State) (w : Work) : Bool :=
  if s.board.thermtrip && decide (w.unit < 132) then true
  else if w.unit < 128 then
    let c := 8 * w.part + w.unit / 16
    decide (coreState s c (mapEntry s c (w.unit % 16)).1 = 3)
  else if w.unit < 132 then s.seFencing.any fun f => f.1 = 4 * w.part + (w.unit - 128)
  else false

/-- A core and an engine execute one descriptor, the staged one after it (R85, R135): `w` is the oldest on its
unit.  The scheduler's own operations do not wait for one another. -/
def unitFirst (s : State) (w : Work) : Bool :=
  decide (132 ≤ w.unit) || decide ((s.work.find? fun v => v.part = w.part && v.unit = w.unit && v.phase ≠ .returned) = some w)

/-- The descriptor a command names, if it is dispatched, awaits execution on a unit that is not stopped, and
has the operation. -/
def findWork (s : State) (k x q op : Nat) : Option Work :=
  s.work.find? fun w => w.part = k && w.ctx = x && w.seq = q && w.phase = .run && w.record.isEmpty &&
    dOp w.desc = op && unitFirst s w && !unitStopped s w

/-- Run the meaning of an operation on the descriptor a command names, unless an access of it has to wait; without one
nothing happens (log entries 2, 68). -/
def onWork (s : State) (k x q op : Nat) (f : State → Work → State) : State :=
  match findWork s k x q op with
  | some w => gated s fun s => f s w
  | none => s

/-- The mode a PREFETCH or an ADVISE names in OPF[1:0] (R189). -/
def onMode (s : State) (k x q op mode : Nat) (f : State → Work → State) : State :=
  onWork s k x q op fun s w => if dOpf w.desc % 4 = mode then f s w else s

/-- A descriptor waits on a translation fault. -/
def heldPhase (w : Work) : Bool :=
  match w.phase with
  | .held _ | .heldNew => true
  | _ => false

/-- Descriptors start again from the beginning (R85, R99, R138, R151): what they waited for on a fault is forgotten, a
completion record not accepted among it; with `back` they go to the scheduler. -/
def rerun (s : State) (mine : Work → Bool) (back : Bool) : State :=
  let go (w : Work) : Bool := mine w && w.phase ≠ .returned
  { s with
    work := s.work.map fun w => if go w then { w with phase := if back then .returned else .run, record := [] } else w
    xlat := { s.xlat with
      waiting := s.xlat.waiting.filter fun i => !(s.work.any fun w => go w && w.phase = .heldNew && faultOf w i) } }

/-- A descriptor held on a record is released (R99, R181): on a unit that has stopped it writes nothing and will run
again; else with RETRY it runs again or writes its record again, and with FAIL it completes with FAULT_TRANSLATION. -/
def releaseHeld (s : State) (page : Nat) (retry : Bool) (w : Work) : State :=
  if !(s.work.contains w) then s
  else
    let v := { w with phase := .run }
    if unitStopped s v then setWork s w { v with record := [] }
    else
      let s := setWork s w v
      if v.record.isEmpty then (if retry then s else complete s v 1 0 page 0 0)
      else if retry then writeRecord s v v.record
      else abortCtx s v.part v.ctx 1 false

/-- The descriptor read of a context waits with this fault (R182, R501): the scheduler's read, which has no opcode. -/
def fetchOf (f : Nat × Nat × Option Nat) (i : FaultInfo) : Bool :=
  f.1 = i.part && i.req = 168 && i.opcode = 0 && f.2.1 = i.ctx % 256 && f.2.2 = none

/-- The channel that waits with this fault, changed. -/
def setChans (s : State) (i : FaultInfo) (f : Chan → Chan) : List Chan :=
  if 132 ≤ i.req ∧ i.req < 164 then
    (match s.chans[i.req - 132]? with
     | some c => s.chans.set (i.req - 132) (if c.waiting then f c else c)
     | none => s.chans)
  else s.chans

/-- What waits for a record is set on the record it has been given (R182): the descriptor, the descriptor read, the DMA
channel, the chiplet's request. -/
def setHeld (s : State) (i : FaultInfo) (id : Nat) : State :=
  { s with
    work := s.work.map fun w =>
      if faultOf w i && w.phase = .heldNew then { w with phase := .held id } else w
    fetchHeld := s.fetchHeld.map fun f =>
      if fetchOf f i then (f.1, f.2.1, some id) else f
    chans := setChans s i fun c => { c with held := some id, waiting := false }
    siteReqs := s.siteReqs.map fun q =>
      if q.waiting = some i then { q with held := some id, waiting := none } else q }

/-- What waits with a FINAL fault ends, now that its fault has been recorded (R177, R182). -/
def endFinal (s : State) (i : FaultInfo) : State :=
  let st := if i.kind = 9 then 4 else 2
  let s := (s.work.filter fun w => faultOf w i && w.phase = .heldNew).foldl
    (fun s w =>
      let v := { w with phase := .run }
      if unitStopped s v then setWork s w { v with record := [] } else endFault (setWork s w v) v i.page i.kind) s
  let fetch := s.fetchHeld.filter fun f => fetchOf f i
  let s := { s with
    fetchHeld := s.fetchHeld.filter fun f => !(fetchOf f i)
    chans := setChans s i fun c => { c with waiting := false, ended := some st }
    siteReqs := s.siteReqs.map fun q =>
      if q.waiting = some i then { q with waiting := none, ended := some st, owed := true } else q }
  fetch.foldl (fun s f => abortCtx s f.1 f.2.1 st false) s

/-- Write or merge what waits for a record, in order, for as long as there is room (R182); `n` bounds the
faults looked at. -/
def pumpFaults (s : State) (k : Nat) : Nat → State
  | 0 => s
  | n + 1 =>
    match s.xlat.waiting.find? fun i => i.part = k with
    | none => s
    | some i =>
      let rest := s.xlat.waiting.erase i
      match openFor s i with
      | some r =>
        let s := mergeFault { s with xlat := { s.xlat with waiting := rest } } r i
        pumpFaults (setHeld s i r.id) k n
      | none =>
        if faultRoom s i then
          let a := allocFault { s with xlat := { s.xlat with waiting := rest } } i
          pumpFaults (if i.kind = 1 then setHeld a.2 i a.1 else endFinal a.2 i) k n
        else markFull s k

/-- End a fault record (R181, R499): with RETRY each held requester walks again; otherwise held descriptors
complete with FAULT_TRANSLATION, and held channels and chiplets with the statuses given.  Whatever waits for
room is then recorded (R182). -/
def closeRecord (s : State) (r : FaultRec) (retry : Bool) (chan site : Nat) : State :=
  let k := r.info.part
  let s := { s with xlat := { s.xlat with recs := s.xlat.recs.erase r } }
  let held := s.work.filter fun w => w.part = k && w.phase = .held r.id
  let s := held.foldl (fun s w => releaseHeld s r.info.page retry w) s
  let fetch := s.fetchHeld.filter fun f => f.1 = k && f.2.2 = some r.id
  let s := { s with fetchHeld := s.fetchHeld.filter fun f => !(f.1 = k && f.2.2 = some r.id) }
  let s := if retry then s else fetch.foldl (fun s f => abortCtx s f.1 f.2.1 1 false) s
  let s := { s with
    chans := (List.range s.chans.length).map fun c =>
      let ch := s.chans.getD c chanReset
      if ch.held = some r.id && ownerPart s (pgDma c) = some k then
        { ch with held := none, ended := if retry then none else some chan }
      else ch
    siteReqs := s.siteReqs.map fun q =>
      if q.part = k && q.held = some r.id then { q with held := none, ended := if retry then none else some site }
      else q }
  pumpFaults s k (s.xlat.waiting.length)

/-! ### Loss of the domain, partition FAULT (R289, R372) -/

/-- Every job with a member context in partition `k` is triggered with a cause (R423). -/
def triggerJobsOf (s : State) (k cause : Nat) : State :=
  (List.range 256).foldl
    (fun s x =>
      if ctxState s k x = 0 then s else triggerJob s (rf s (pgPart k) (Reg.CTX_JOB x) 0 8) cause (pgPart k)) s

/-- A partition enters FAULT from ASSIGNED or SEALED (R372); its jobs are triggered (R423). -/
def faultPart (s : State) (k : Nat) : State :=
  if partLive s k then triggerJobsOf (setPart s k 5) k 3 else s

/-- The contexts of partition `k` that have left FREE. -/
def openCtxs (s : State) (k : Nat) : List Nat := (List.range 256).filter fun x => decide (ctxState s k x ≠ 0)

/-- The domain of partition `k` is lost (R288, R289): recorded, every context ABORTED, the partition in
FAULT; no line is written back and every open request ends. -/
def loseDomain (s : State) (k code pos home line : Nat) : State :=
  if domainLost s k then s
  else
    let s := wr s (pgPart k) Reg.COH_FAULT
      (w64 (code + pos <<< 8 + home <<< 13 + (line % 2 ^ 39) <<< 16 + 1 <<< 63))
    let open' := ((s.coh.txns.filter fun t =>
        t.part = k && !(evictReq t.req) && (decide (t.phase ≠ 2) || !(cachingReq t.req))).map fun t => (t.pos, t.line)) ++
      ((s.coh.retries.filter fun t => t.part = k).map fun t => (t.pos, t.line)) ++
      (((s.coh.arrivals ++ s.coh.waits).filter fun t => t.1 = k).map fun t => (t.2.1, t.2.2.1))
    let s := open'.foldl (fun s t => sendAgent s k t.1 t.2 "UNCORRECTABLE" []) s
    let s := { s with coh := { s.coh with
        lost := s.coh.lost ++ [k]
        txns := s.coh.txns.filter fun t => t.part ≠ k
        retries := s.coh.retries.filter fun t => t.part ≠ k
        arrivals := s.coh.arrivals.filter fun t => t.1 ≠ k
        waits := s.coh.waits.filter fun t => t.1 ≠ k
        stuck := s.coh.stuck.filter fun t => t.1 ≠ k } }
    let s := countError s (pgPart k) code 4 2 none
    let s := raiseEvt s (pgPart k) 4
    let s := (openCtxs s k).foldl (fun s x => abortCtx s k x 4 false) s
    faultPart s k

end Sys2Proof.Machine
end

