-- ==== Sys2Proof/Machine/Num.lean ====
section
/-!
DEFINITION. Number formats, the pots, rounding and the special functions (R50 to R72).
-/

namespace Sys2Proof.Machine

/-! ### Values -/

/-- An exact value: NaN, an infinity, or `m * 2 ^ e` with its sign, which a zero keeps (R50, R52). -/
inductive Num where
  | nan
  | inf (neg : Bool)
  | fin (neg : Bool) (m : Nat) (e : Int)
deriving DecidableEq, Repr

/-- The element formats (R50, R111): width, exponent bits, mantissa bits, bias. -/
structure Fmt where
  w : Nat
  eb : Nat
  mb : Nat
  bias : Int
deriving DecidableEq, Repr

/-- A format code is an element format (R111). -/
def isElem (f : Nat) : Bool := decide (f < 9)

/-- A format code is a pot-record format (R111). -/
def isRecord (f : Nat) : Bool := f = 9 || f = 10

/-- A format may carry MX scales (R53). -/
def isNarrow (f : Nat) : Bool := decide (3 ≤ f) && decide (f ≤ 8)

/-- The layout of a format code (R50). -/
def fmtOf : Nat → Fmt
  | 0 => ⟨32, 8, 23, 127⟩
  | 1 => ⟨16, 8, 7, 127⟩
  | 2 => ⟨16, 5, 10, 15⟩
  | 3 => ⟨8, 5, 2, 15⟩
  | 4 => ⟨8, 4, 3, 7⟩
  | 5 => ⟨6, 3, 2, 3⟩
  | 6 => ⟨6, 2, 3, 1⟩
  | 7 => ⟨4, 2, 1, 1⟩
  | 8 => ⟨8, 0, 0, 0⟩
  | 9 => ⟨256, 0, 0, 0⟩
  | 10 => ⟨768, 0, 0, 0⟩
  | _ => ⟨32, 0, 0, 0⟩

/-- The all-ones exponent holds infinity and NaN (R50). -/
def isIeee (f : Nat) : Bool := decide (f < 4)

/-- The value of an element code (R50, R51, R53): an INT8 of an MX tensor counts `2 ^ -6`. -/
def decodeElem (f : Nat) (mx : Bool) (code : Nat) : Num :=
  if f = 8 then
    if code < 128 then .fin false code (if mx then -6 else 0) else .fin true (256 - code) (if mx then -6 else 0)
  else
    let t := fmtOf f
    let s := code.testBit (t.w - 1)
    let e := code / 2 ^ t.mb % 2 ^ t.eb
    let m := code % 2 ^ t.mb
    if isIeee f && e = 2 ^ t.eb - 1 then (if m = 0 then .inf s else .nan)
    else if f = 4 && e = 15 && m = 7 then .nan
    else if e = 0 then .fin s m (1 - t.bias - t.mb)
    else .fin s (2 ^ t.mb + m) (e - t.bias - t.mb)

/-- A value times `2 ^ k`. -/
def Num.scale (k : Int) : Num → Num
  | .fin s m e => .fin s m (e + k)
  | x => x

/-- The other sign (R66). -/
def Num.neg : Num → Num
  | .nan => .nan
  | .inf s => .inf (!s)
  | .fin s m e => .fin (!s) m e

/-- The magnitude (R66). -/
def Num.abs : Num → Num
  | .nan => .nan
  | .inf _ => .inf false
  | .fin _ m e => .fin false m e

/-- `max(x, +0)` (R66, R114). -/
def Num.relu : Num → Num
  | .nan => .nan
  | .inf s => if s then .fin false 0 0 else .inf false
  | .fin s m e => if s || m = 0 then .fin false 0 0 else .fin false m e

/-- A product (R60): NaN where an operand is NaN, or infinity meets zero. -/
def Num.mul : Num → Num → Num
  | .nan, _ => .nan
  | _, .nan => .nan
  | .inf s, .inf t => .inf (s != t)
  | .inf s, .fin t m _ => if m = 0 then .nan else .inf (s != t)
  | .fin s m _, .inf t => if m = 0 then .nan else .inf (s != t)
  | .fin s m e, .fin t n f => .fin (s != t) (m * n) (e + f)

/-- The integer `m * 2 ^ k`, zero bits dropped where `k` is negative. -/
def shl (m : Nat) (k : Int) : Nat := if 0 ≤ k then m <<< k.toNat else m >>> (-k).toNat

/-- The signed integer of a finite value in units of `2 ^ -u`. -/
def units (u : Nat) : Num → Int
  | .fin s m e => if s then -(shl m (e + u) : Int) else shl m (e + u)
  | _ => 0

/-- Ranks of MAX and MIN (R114): by value, `+0` above `-0`.  `a` ranks at or below `b`; neither is NaN. -/
def Num.le : Num → Num → Bool
  | .inf s, b => s || b = .inf false
  | .fin _ _ _, .inf t => !t
  | .fin s m e, .fin t n f =>
    let lo := min e f
    let x : Int := if s then -(shl m (e - lo) : Int) else shl m (e - lo)
    let y : Int := if t then -(shl n (f - lo) : Int) else shl n (f - lo)
    decide (x < y) || (decide (x = y) && (s || !t))
  | .nan, _ => false
  | .fin _ _ _, .nan => false

/-! ### Pots (R57 to R61) -/

/-- A pot: its value in units of `2 ^ -320`, the products absorbed, and its flags (R57, R60). -/
structure Pot where
  v : Int
  terms : Nat
  posInf : Bool
  negInf : Bool
  nan : Bool
  range : Bool
deriving DecidableEq, Repr

/-- An empty pot. -/
def potZero : Pot := ⟨0, 0, false, false, false, false⟩

/-- Two's complement of `n` bits (R59). -/
def wrapInt (n : Nat) (v : Int) : Int := (v + 2 ^ (n - 1)) % 2 ^ n - 2 ^ (n - 1)

/-- A pot with `t` terms; TERMS saturates, RANGE follows (R60). -/
def potTerms (p : Pot) (t : Nat) : Pot :=
  { p with terms := min t (2 ^ 48 - 1), range := p.range || decide (2 ^ 32 < t) }

/-- A term enters a pot (R58 to R60). -/
def potAdd (p : Pot) (x : Num) : Pot :=
  let p := potTerms p (p.terms + 1)
  match x with
  | .nan => { p with nan := true }
  | .inf s => if s then { p with negInf := true } else { p with posInf := true }
  | .fin s m e => { p with v := wrapInt 640 (p.v + units 320 (.fin s m e)) }

/-- Merge of two pots (R60, R62). -/
def potMerge (p q : Pot) : Pot :=
  potTerms
    { v := wrapInt 640 (p.v + q.v), terms := 0, posInf := p.posInf || q.posInf, negInf := p.negInf || q.negInf,
      nan := p.nan || q.nan, range := p.range || q.range }
    (p.terms + q.terms)

/-- The value a pot rounds as (R65). -/
def potNum (p : Pot) : Num :=
  if p.nan || p.range || (p.posInf && p.negInf) then .nan
  else if p.posInf then .inf false
  else if p.negInf then .inf true
  else .fin (decide (p.v < 0)) p.v.natAbs (-320)

/-- Bytes of a record of a pot-record format (R61). -/
def recordSize (f : Nat) : Nat := if f = 9 then 32 else 96

/-- A pot's record (R61), stamped with an ARITH_VER. -/
def potRecord (f ver : Nat) (p : Pot) : Bytes :=
  let attr := p.terms + p.posInf.toNat <<< 48 + p.negInf.toNat <<< 49 + p.nan.toNat <<< 50 + p.range.toNat <<< 51 +
    (f - 8) <<< 52 + ver <<< 56
  (if f = 9 then natBytes ((p.v / 2 ^ 272) % 2 ^ 128).toNat 16 else natBytes (p.v % 2 ^ 640).toNat 80) ++
    natBytes attr 8 ++ zeroBytes 8

/-- The pot of a record (R57, R60, R61), its KIND and its ARITH_VER. -/
def readRecord (f : Nat) (b : Bytes) : Pot × Nat × Nat :=
  let n := if f = 9 then 16 else 80
  let raw : Int := leAt b 0 n
  let attr := leAt b n 8
  let terms := attr % 2 ^ 48
  let v := if f = 9 then wrapInt 128 raw * 2 ^ 272 else wrapInt 640 raw
  (⟨v, terms, attr.testBit 48, attr.testBit 49, attr.testBit 50,
    attr.testBit 51 || decide (2 ^ (if f = 9 then 47 else 32) < terms)⟩, attr / 2 ^ 52 % 16, attr / 2 ^ 56 % 256)

/-! ### Rounding (R64 to R69) -/

/-- How a result is rounded: to nearest even, stochastically under a random number, or to the neighbour an
implementation of ARITH_VER 2 picks (R65, R72). -/
inductive RMode where
  | rne
  | sr (r bits : Nat)
  | pick (up : Bool)
deriving DecidableEq, Repr

/-- `srand` of a seed and an element index, 32 bits (R68). -/
def srand (seed : Word) (index : Nat) : Nat :=
  let x := seed ^^^ (w64 index * 0x9E3779B97F4A7C15)
  let x := (x ^^^ (x >>> 30)) * 0xBF58476D1CE4E5B9
  let x := (x ^^^ (x >>> 27)) * 0x94D049BB133111EB
  let x := x ^^^ (x >>> 31)
  x.toNat >>> 32

/-- The largest finite magnitude of a format: `m * 2 ^ e` (R50, R65). -/
def maxFinite (f : Nat) (mx neg : Bool) : Nat × Int :=
  if f = 8 then (if neg then 128 else 127, if mx then -6 else 0)
  else
    let t := fmtOf f
    if isIeee f then (2 ^ (t.mb + 1) - 1, 2 ^ t.eb - 2 - t.bias - t.mb)
    else if f = 4 then (14, 5)
    else (2 ^ (t.mb + 1) - 1, 2 ^ t.eb - 1 - t.bias - t.mb)

/-- `nan_result` of a format (R52, R67). -/
def nanCode : Nat → Nat
  | 0 => 0x7FC00000
  | 1 => 0x7FC0
  | 2 => 0x7E00
  | 3 => 0x7E
  | 4 => 0x7F
  | _ => 0

/-- `overflow_result` of a format (R67). -/
def overflowCode (f : Nat) (sat neg : Bool) : Nat :=
  if f = 8 then (if neg then 0x80 else 0x7F)
  else
    let t := fmtOf f
    let s := neg.toNat <<< (t.w - 1)
    if isIeee f then
      if sat then s + ((2 ^ t.eb - 2) <<< t.mb) + (2 ^ t.mb - 1) else s + ((2 ^ t.eb - 1) <<< t.mb)
    else if f = 4 then (if sat then s + 0x7E else 0x7F)
    else s + 2 ^ (t.w - 1) - 1

/-- The code of `k * 2 ^ q`, which is in range (R65). -/
def encodeElem (f : Nat) (neg : Bool) (k : Nat) (q : Int) : Nat :=
  if f = 8 then (if neg then (256 - k) % 256 else k % 256)
  else
    let t := fmtOf f
    let s := neg.toNat <<< (t.w - 1)
    if k = 0 then s
    else
      let c := decide (2 ^ (t.mb + 1) ≤ k)
      let k := if c then k / 2 else k
      let q := if c then q + 1 else q
      if 2 ^ t.mb ≤ k then s + (q + t.mb + t.bias).toNat * 2 ^ t.mb + (k - 2 ^ t.mb) else s + k

/-- Whether the dropped part `rem / 2 ^ sh` rounds the kept `k` up (R65, R72). -/
def roundUp (mode : RMode) (k rem sh : Nat) : Bool :=
  match mode with
  | .rne => decide (2 ^ sh < 2 * rem) || (decide (2 * rem = 2 ^ sh) && decide (k % 2 = 1))
  | .sr r bits => decide (r < (rem <<< bits) >>> sh)
  | .pick up => decide (rem ≠ 0) && up

/-- Round a non-zero magnitude `m * 2 ^ e` (R65): the code, and whether it overflowed. -/
def roundMag (mode : RMode) (f : Nat) (mx sat neg : Bool) (m : Nat) (e : Int) : Nat × Bool :=
  let t := fmtOf f
  let q : Int := if f = 8 then (if mx then -6 else 0) else max ((Nat.log2 m : Int) + e) (1 - t.bias) - t.mb
  let sh := (q - e).toNat
  let k := if q ≤ e then m <<< (e - q).toNat else m >>> sh
  let rem := if q ≤ e then 0 else m % 2 ^ sh
  let k := if roundUp mode k rem sh then k + 1 else k
  let mf := maxFinite f mx neg
  let lo := min q mf.2
  if shl mf.1 (mf.2 - lo) < shl k (q - lo) then (overflowCode f sat neg, true) else (encodeElem f neg k q, false)

/-- Round a value to a format (R65 to R67). -/
def roundNum (mode : RMode) (f : Nat) (mx sat : Bool) : Num → Nat × Bool
  | .nan => (nanCode f, false)
  | .inf s => (overflowCode f sat s, true)
  | .fin s m e => if m = 0 then (if f = 8 then 0 else s.toNat <<< ((fmtOf f).w - 1), false)
      else roundMag mode f mx sat s m e

/-- `emax` of an MX element format (R56). -/
def mxEmax : Nat → Int
  | 3 => 15
  | 4 => 8
  | 5 => 4
  | 6 => 2
  | 7 => 2
  | _ => 0

/-- `floor(log2)` of what an element counts toward `amax` (R56). -/
def amaxLog (f : Nat) : Num → Option Int
  | .nan => none
  | .inf _ => let mf := maxFinite f true false; some ((Nat.log2 mf.1 : Int) + mf.2 + 1)
  | .fin _ m e => if m = 0 then none else some ((Nat.log2 m : Int) + e)

/-- The scale byte of a block (R56). -/
def blockScale (f : Nat) (l : List Num) : Nat :=
  if l.any fun x => x = .nan then 0xFF
  else
    match l.foldl (fun (a : Option Int) x =>
        match a, amaxLog f x with
        | none, b => b
        | some a, none => some a
        | some a, some b => some (max a b)) none with
    | none => 0
    | some g => (max (-127) (min 127 (g - mxEmax f)) + 127).toNat

/-! ### Special functions (R70) -/

/-- A positive irrational value between `m * 2 ^ e` and `(m + 1) * 2 ^ e`, in a form that rounds as it does:
`2 m + 1` units of half the weight. -/
def sticky (neg : Bool) (m : Nat) (e : Int) : Num := .fin neg (2 * m + 1) (e - 1)

/-- Fraction bits of the fixed-point kernels. -/
def fracBits : Nat := 320

/-- `2 ^ (fr / 2 ^ S)` in units of `2 ^ -fracBits`, for `0 ≤ fr < 2 ^ S`: the product of the roots
`2 ^ (2 ^ -j)` whose bit of `fr` is set. -/
def exp2Frac (fr : Nat) (S : Nat) : Nat :=
  ((List.range S).foldl
    (fun (a : Nat × Nat) j =>
      let root := Nat.sqrt (a.1 <<< fracBits)
      (root, if fr.testBit (S - 1 - j) then (a.2 * root) >>> fracBits else a.2))
    (2 <<< fracBits, 1 <<< fracBits)).2

/-- exp2 of a value (R70), exact for an integer.  Below `-2 ^ 12` and above `2 ^ 12` the result lies outside
every format's range and is stood for by a value that does. -/
def exp2Num : Num → Num
  | .nan => .nan
  | .inf s => if s then .fin false 0 0 else .inf false
  | .fin s m e =>
    if m = 0 then .fin false 1 0
    else if 12 ≤ (Nat.log2 m : Int) + e then .fin false 1 (if s then -4096 else 4096)
    else if 0 ≤ e then .fin false 1 (if s then -(shl m e : Int) else shl m e)
    else
      let S := (-e).toNat
      let n : Int := if s then -(m : Int) else m
      let i := n / 2 ^ S
      let fr := (n % 2 ^ S).toNat
      if fr = 0 then .fin false 1 i
      else sticky false (exp2Frac fr S >>> 64) (i - (fracBits - 64 : Nat))

/-- The binary digits of `log2 y`, 200 of them, for `y` in `[1, 2)` in units of `2 ^ -512`. -/
def log2Frac (y : Nat) : Nat :=
  ((List.range 200).foldl
    (fun (a : Nat × Nat) _ =>
      let z := (a.1 * a.1) >>> 512
      if 2 <<< 512 ≤ z then (z >>> 1, 2 * a.2 + 1) else (z, 2 * a.2)) (y, 0)).2

/-- log2 of a value (R70), exact for a power of two. -/
def log2Num : Num → Num
  | .nan => .nan
  | .inf s => if s then .nan else .inf false
  | .fin s m e =>
    if m = 0 then .inf true
    else if s then .nan
    else
      let g := Nat.log2 m
      let i : Int := g + e
      if m = 2 ^ g then .fin (decide (i < 0)) i.natAbs 0
      else
        let f := log2Frac ((m <<< 512) >>> g)
        if 0 ≤ i then sticky false (i.toNat * 2 ^ 200 + f) (-200)
        else sticky true (i.natAbs * 2 ^ 200 - f - 1) (-200)

/-- recip of a value (R70). -/
def recipNum : Num → Num
  | .nan => .nan
  | .inf s => .fin s 0 0
  | .fin s m e =>
    if m = 0 then .inf s
    else
      let q := 2 ^ fracBits / m
      if q * m = 2 ^ fracBits then .fin s q (-e - fracBits) else sticky s q (-e - fracBits)

/-- rsqrt of a value (R70). -/
def rsqrtNum : Num → Num
  | .nan => .nan
  | .inf s => if s then .nan else .fin false 0 0
  | .fin s m e =>
    if m = 0 then .inf s
    else if s then .nan
    else
      let odd := decide (e % 2 ≠ 0)
      let m := if odd then 2 * m else m
      let e := if odd then e - 1 else e
      let q := Nat.sqrt (2 ^ (2 * fracBits) / m)
      if q * q * m = 2 ^ (2 * fracBits) then .fin false q (-(e / 2) - fracBits) else sticky false q (-(e / 2) - fracBits)

/-- exp2q of a value (R70): the 40-bit weight; none where it is NaN. -/
def exp2q (t : Num) : Option Nat :=
  match exp2Num t with
  | .nan => none
  | .inf _ => some (2 ^ 40 - 1)
  | .fin _ m e =>
    if m = 0 then some 0
    else if 8 ≤ (Nat.log2 m : Int) + e then some (2 ^ 40 - 1)
    else
      let sh := (-32 - e).toNat
      let k := if -32 ≤ e then m <<< (e + 32).toNat else m >>> sh
      let rem := if -32 ≤ e then 0 else m % 2 ^ sh
      some (if roundUp .rne k rem sh then k + 1 else k)

/-- The exact quotient of two pots' values, the second not zero, in a form that rounds as it does (R155). -/
def quotient (n d : Int) : Num :=
  let neg := decide (n < 0) != decide (d < 0)
  if n = 0 then .fin false 0 0
  else
    let num := n.natAbs <<< 512
    let q := num / d.natAbs
    if q * d.natAbs = num then .fin neg q (-512) else sticky neg q (-512)

/-! ### Packing (R54, R55) -/

/-- Bytes and elements of one packing group of elements of `w` bits. -/
def packGroup (w : Nat) : Nat × Nat := if w = 4 then (1, 2) else if w = 6 then (3, 4) else (w / 8, 1)

/-- Bytes of a packed row of `n` elements of `w` bits (R55). -/
def packedBytes (w n : Nat) : Nat := ceilDiv (n * w) 8

/-- The element codes of packed bytes, group by group. -/
def unpackGo (w g c : Nat) : Nat → Bytes → List Nat
  | 0, _ => []
  | k + 1, b =>
    let v := bytesNat (b.take g)
    ((List.range c).map fun i => (v >>> (w * i)) % 2 ^ w) ++ unpackGo w g c k (b.drop g)

/-- The first `n` element codes of a packed row (R54). -/
def unpack (w n : Nat) (b : Bytes) : List Nat :=
  let g := packGroup w
  (unpackGo w g.1 g.2 (ceilDiv n g.2) b).take n

/-- Element codes packed group by group. -/
def packGo (w g c : Nat) : Nat → List Nat → Bytes
  | 0, _ => []
  | k + 1, l =>
    let v := ((l.take c).zipIdx).foldl (fun a x => a + x.1 <<< (w * x.2)) 0
    natBytes v g ++ packGo w g c k (l.drop c)

/-- A packed row of element codes; bits beyond the last are zero (R55). -/
def pack (w : Nat) (l : List Nat) : Bytes :=
  let g := packGroup w
  (packGo w g.1 g.2 (ceilDiv l.length g.2) l).take (packedBytes w l.length)

/-- Blocks of a row (R53). -/
def mxBlocks (n : Nat) : Nat := ceilDiv n 32

/-- Bytes of a stored row of `n` elements (R54, R55): whole blocks where it carries MX scales. -/
def rowBytes (f : Nat) (mx : Bool) (n : Nat) : Nat := packedBytes (fmtOf f).w (if mx then 32 * mxBlocks n else n)

/-- Bytes of a scale row (R112): one per block, padded to 64. -/
def scaleRow (n : Nat) : Nat := ceilDiv (mxBlocks n) 64 * 64

/-- The values of a row (R53 to R55): a scale byte 0xFF makes its block read as NaN. -/
def rowNums (f : Nat) (mx : Bool) (n : Nat) (b scales : Bytes) : List Num :=
  let codes := unpack (fmtOf f).w n b
  if mx then
    let x := scales.map (·.toNat)
    codes.zipIdx.map fun c =>
      let sc := x.getD (c.2 / 32) 0
      if sc = 0xFF then .nan else (decodeElem f true c.1).scale ((sc : Int) - 127)
  else codes.map (decodeElem f false)

end Sys2Proof.Machine
end

