-- ==== Sys2Proof/Machine/Flags.lean ====
section
/-!
DEFINITION. The flags of a completion record (R129) and the rounding of a destination's elements (R56, R64 to
R69, R113).
-/

namespace Sys2Proof.Machine

/-- ANY_NAN, ANY_RANGE and ANY_OVERFLOW (R129). -/
structure Flags where
  nan : Bool
  range : Bool
  ovf : Bool
deriving DecidableEq, Repr

/-- No flag set. -/
def noFlags : Flags := ⟨false, false, false⟩

/-- Flags combine by OR. -/
def Flags.or (a b : Flags) : Flags := ⟨a.nan || b.nan, a.range || b.range, a.ovf || b.ovf⟩

/-- W3 of a completion record (R129). -/
def flagBits (f : Flags) : Nat := f.nan.toNat + 2 * f.range.toNat + 4 * f.ovf.toNat

/-- A value to be delivered into a destination element: its value, whether its pot held RANGE, and the
neighbour an ARITH_VER 2 implementation picks where rounding is only faithful (R72). -/
structure Elem where
  num : Num
  range : Bool
  pick : Option Bool
deriving DecidableEq, Repr

/-- The element a pot delivers (R65, R66). -/
def potElem (p : Pot) : Elem := ⟨potNum p, p.range, none⟩

/-- The element a single value delivers (R66). -/
def numElem (x : Num) : Elem := ⟨x, false, none⟩

/-- What a destination's rounding depends on: the format, MX, SAT, stochastic rounding with its seed, and the
ARITH_VER (R65, R72). -/
structure Rounding where
  fmt : Nat
  mx : Bool
  sat : Bool
  stoch : Bool
  seed : Word
  ver : Nat
deriving DecidableEq, Repr

/-- The mode for one element with its index (R65, R68, R72). -/
def elemMode (r : Rounding) (index : Nat) (e : Elem) : RMode :=
  match e.pick with
  | some up => .pick up
  | none =>
    if r.stoch then
      let x := srand r.seed index
      if r.ver = 2 then .sr (x / 256) 24 else .sr x 32
    else .rne

/-- Deliver one element in plain form: its code and flags (R65, R67, R129). -/
def deliver (r : Rounding) (index : Nat) (e : Elem) : Nat × Flags :=
  let c := roundNum (elemMode r index e) r.fmt r.mx r.sat e.num
  (c.1, ⟨e.num = .nan || decodeElem r.fmt r.mx c.1 = .nan, e.range, c.2⟩)

/-- Deliver one MX block (R56, R67): the scale byte, the codes, the flags; `i0` is the first element's
index. -/
def deliverBlock (r : Rounding) (i0 : Nat) (l : List Elem) : Nat × List Nat × Flags :=
  let x := blockScale r.fmt (l.map (·.num))
  let rng := l.any (·.range)
  if x = 0xFF then (x, l.map fun _ => 0, ⟨true, rng, false⟩)
  else
    let d := l.zipIdx.map fun e => deliver r (i0 + e.2) { e.1 with num := e.1.num.scale (127 - (x : Int)) }
    (x, d.map (·.1), d.foldl (fun f c => f.or c.2) noFlags)

/-- A list cut into pieces of `n`; `k` bounds the pieces. -/
def chunks {α : Type} (n : Nat) : Nat → List α → List (List α)
  | 0, _ => []
  | k + 1, l => l.take n :: chunks n k (l.drop n)

/-- Deliver a row (R55, R113): its bytes, its scale bytes, the flags. -/
def deliverRow (r : Rounding) (i0 : Nat) (l : List Elem) : Bytes × Bytes × Flags :=
  let w := (fmtOf r.fmt).w
  if r.mx then
    let bs := (chunks 32 (mxBlocks l.length) l).zipIdx.map fun b => deliverBlock r (i0 + 32 * b.2) b.1
    (pack w (bs.flatMap fun b => b.2.1 ++ List.replicate (32 - b.2.1.length) 0),
      bs.map fun b => BitVec.ofNat 8 b.1,
      bs.foldl (fun f b => f.or b.2.2) noFlags)
  else
    let d := l.zipIdx.map fun e => deliver r (i0 + e.2) e.1
    (pack w (d.map (·.1)), [], d.foldl (fun f c => f.or c.2) noFlags)

/-- The best of several codes of one format under MAX or MIN (R114, R500): the code, and whether it is NaN,
which any NaN makes it. -/
def bestCode (f : Nat) (hi : Bool) : List Nat → Nat × Bool
  | [] => (0, false)
  | c :: t =>
    if (c :: t).any fun x => decodeElem f false x = .nan then (nanCode f, true)
    else
      (t.foldl (fun a x =>
        let le := (decodeElem f false a).le (decodeElem f false x)
        if le = hi then x else a) c, false)

end Sys2Proof.Machine
end

