-- ==== Sys2Proof/Machine/Operands.lean ====
section
/-!
DEFINITION. The operands of descriptors: their extents (R112, R115), the checks at decode (R116, R500), the
energy floor (R327), and the access of tensors.
-/

namespace Sys2Proof.Machine

/-! ### Fields of the attention descriptors (R144, R159) -/

/-- CAUSAL. -/
def dCausal (d : List Word) : Bool := bit (dw d 0) 48
/-- GM1. -/
def dGm1 (d : List Word) : Nat := fld (dw d 0) 49 4
/-- SCALE. -/
def dScale (d : List Word) : Nat := fld (dw d 1) 0 32
/-- ANCHOR_DROP. -/
def dDrop (d : List Word) : Nat := fld (dw d 1) 32 8
/-- KV_HEAD. -/
def dHead (d : List Word) : Nat := fld (dw d 1) 40 5
/-- LIST_ID. -/
def dListId (d : List Word) : Nat := fld (dw d 1) 48 16
/-- LIST_ADDR. -/
def dList (d : List Word) : Nat := fld (dw d 3) 0 52
/-- L_TOTAL, and POS of KV_STORE. -/
def dTotal (d : List Word) : Nat := fld (dw d 6) 0 23
/-- QPOS0. -/
def dQpos (d : List Word) : Nat := fld (dw d 6) 32 22
/-- T0. -/
def dT0 (d : List Word) : Nat := fld (dw d 7) 0 23
/-- T1. -/
def dT1 (d : List Word) : Nat := fld (dw d 7) 32 23
/-- PSIZE of head dimension `n` (R144). -/
def psize (n : Nat) : Nat := 128 + 96 * n

/-! ### Operations by code (R114) -/

/-- The operation codes. -/
def opKnown (op : Nat) : Bool :=
  [0x01, 0x02, 0x10, 0x11, 0x12, 0x13, 0x14, 0x15, 0x16, 0x17, 0x18, 0x19, 0x1A, 0x1B, 0x20, 0x21, 0x22, 0x23,
    0x30, 0x31, 0x32, 0x33, 0x34, 0x35, 0x36, 0x37, 0x40, 0x41, 0x42, 0x43, 0x44, 0x50, 0x51, 0x52, 0x53, 0x54,
    0x55, 0x56, 0x57].contains op

/-- Operations of the sweep engines. -/
def opEngine (op : Nat) : Bool := op = 0x20 || op = 0x22 || op = 0x23

/-- Operations that run in the scheduler; REDUCE_COLLECT is armed there (R318). -/
def opSched (op : Nat) : Bool := op = 0x1B || (decide (0x40 ≤ op) && decide (op ≤ 0x44)) || op = 0x55 || op = 0x56

/-- Operations exempt from energy admission (R121). -/
def opExempt (op : Nat) : Bool := (decide (0x40 ≤ op) && decide (op ≤ 0x44)) || op = 0x55 || op = 0x56

/-- Operations that act as a FENCE before their own effect (R122, R123, R126). -/
def opFences (op : Nat) : Bool := op = 0x40 || op = 0x41 || op = 0x42

/-- EW_ADD to EW_MIN, with a B that may be broadcast. -/
def opPair (op : Nat) : Bool := decide (0x30 ≤ op) && decide (op ≤ 0x34)

/-! ### Extents (R112, R115) -/

/-- An operand as the descriptor names it: its number in a fault record (R179), first byte, pitch in bytes,
rows, bytes per row, bytes per scale row (0 without scales), elements, whether it has a pitch field, and its
alignment. -/
structure Opd where
  role : Nat
  addr : Nat
  pitch : Nat
  rows : Nat
  rb : Nat
  sb : Nat
  el : Nat
  pitched : Bool
  align : Nat
deriving DecidableEq, Repr

/-- A tensor of `rows` by `cols` elements. -/
def tensor (role f : Nat) (mx : Bool) (addr pitch rows cols : Nat) : Opd :=
  ⟨role, addr, pitch, rows, rowBytes f mx cols, if mx then scaleRow cols else 0, rows * cols, true, 32⟩

/-- A with its shape. -/
def opdA (d : List Word) (rows cols : Nat) : Opd := tensor 0 (dFmtA d) (dMxA d) (dA d) (dAPitch d) rows cols
/-- B with its shape. -/
def opdB (d : List Word) (rows cols : Nat) : Opd := tensor 1 (dFmtB d) (dMxB d) (dB d) (dBPitch d) rows cols
/-- D with its shape. -/
def opdD (d : List Word) (rows cols : Nat) : Opd := tensor 2 (dFmtD d) (dMxD d) (dD d) (dDPitch d) rows cols

/-- A run of bytes that is no tensor. -/
def run (role addr n align : Nat) : Opd := ⟨role, addr, 0, 1, n, 0, 0, false, align⟩

/-- The shape of B under the broadcast flags of EW_ADD (R114). -/
def pairShape (d : List Word) : Nat × Nat :=
  if (dOpf d).testBit 0 then (1, dN d) else if (dOpf d).testBit 1 then (1, 1) else (dM d, dN d)

/-- A of GEMM (R114). -/
def gemmA (d : List Word) : Opd := if (dOpf d).testBit 0 then opdA d (dK d) (dM d) else opdA d (dM d) (dK d)
/-- B of GEMM (R114). -/
def gemmB (d : List Word) : Opd := if (dOpf d).testBit 1 then opdB d (dN d) (dK d) else opdB d (dK d) (dN d)

/-- The KV list entries a KV_STORE writes: first, and how many (R159). -/
def storeEntries (d : List Word) : Nat × Nat :=
  let e0 := dTotal d / 256
  (e0, (dTotal d + dM d - 1) / 256 + 1 - e0)

/-- The operands of a descriptor, sources before the destination (R114, R144, R153, R159, R160, R317). -/
def operands (d : List Word) : List Opd :=
  let m := dM d
  let n := dN d
  let k := dK d
  match dOp d with
  | 0x01 | 0x02 => [gemmA d, gemmB d, opdD d m n]
  | 0x10 | 0x12 | 0x13 | 0x14 | 0x18 | 0x19 | 0x1A => [opdA d m k, opdD d m 1]
  | 0x11 | 0x35 | 0x36 | 0x50 => [opdA d m n, opdD d m n]
  | 0x15 | 0x16 => [opdA d m k, opdD d 1 k]
  | 0x17 => [opdA d m k, opdB d m k, opdD d m 1]
  | 0x1B =>
    [ { opdA d m (n * k) with el := m * n * k },
      ⟨1, dB d, dBPitch d, m, ceilDiv (n * k) 8, 0, 0, true, 32⟩, opdD d m n ]
  | 0x20 =>
    [ opdA d m n, run 3 (dList d) (64 * ceilDiv (dTotal d) 256) 64,
      ⟨2, dD d, dDPitch d, m, psize n, 0, 0, true, 64⟩ ]
  | 0x21 =>
    [ ⟨0, dA d, dAPitch d, m, k * psize n, 0, 0, true, 64⟩,
      if dFmtD d = 10 then ⟨2, dD d, dDPitch d, m, psize n, 0, 0, true, 64⟩ else opdD d m n ]
  | 0x22 =>
    let e := storeEntries d
    [opdA d m n, opdB d m n, run 2 (dD d + 64 * e.1) (64 * e.2) 64]
  | 0x23 => [run 2 (dD d + 64 * k) (64 * m) 64]
  | 0x30 | 0x31 | 0x32 | 0x33 | 0x34 => [opdA d m n, opdB d (pairShape d).1 (pairShape d).2, opdD d m n]
  | 0x37 => [opdA d m n, tensor 1 (dFmtA d) false (dB d) (dBPitch d) 1 2, opdD d m n]
  | 0x51 => [opdA d k n, opdB d m 1, opdD d m n]
  | 0x52 => [opdA d m n, opdB d m 1, opdD d k n]
  | 0x53 => [opdA d m n, opdD d n m]
  | 0x54 => [opdB d 1 1, opdD d m n]
  | 0x57 => [opdA d m n, opdB d m n]
  | 0x42 => [run 2 (dD d) 8 8]
  | 0x43 => [run 0 (dA d) 8 8]
  | _ => []

/-- The byte ranges of an operand's extent: first byte to last byte of the last row, and its scale array
(R115). -/
def spans (o : Opd) : List (Nat × Nat) :=
  (o.addr, o.addr + (o.rows - 1) * o.pitch + o.rb) ::
    (if o.sb = 0 then [] else [(o.addr + o.rows * o.pitch, o.addr + o.rows * o.pitch + o.rows * o.sb)])

/-- Two extents share a byte. -/
def meets (a b : Opd) : Bool :=
  (spans a).any fun x => (spans b).any fun y => decide (x.1 < y.2) && decide (y.1 < x.2)

/-- The destination overlaps a source (R115, R317). -/
def overlaps (d : List Word) : Bool :=
  let os := operands d
  (os.filter fun o => o.role = 2).any (fun t => (os.filter fun o => o.role ≠ 2).any (meets t)) ||
    (decide (dOp d = 0x1B) &&
      match os with
      | a :: b :: _ => meets a b
      | _ => false)

/-! ### Decode (R111, R116, R500) -/

/-- MX_A or MX_B is allowed on the operation and the format (R500; KV_STORE by R159). -/
def mxSource (op f : Nat) : Bool :=
  isNarrow f &&
    [0x01, 0x02, 0x13, 0x14, 0x15, 0x16, 0x17, 0x18, 0x22, 0x30, 0x31, 0x32, 0x35, 0x36].contains op

/-- The operation rounds into FMT_D, so MX_D is allowed on a narrow format (R500, R153, R317). -/
def rounds (op : Nat) : Bool :=
  [0x01, 0x11, 0x12, 0x13, 0x15, 0x17, 0x18, 0x1B, 0x21, 0x30, 0x31, 0x32, 0x35, 0x36].contains op

/-- The MX flags are those R500 allows. -/
def mxOk (d : List Word) : Bool :=
  let op := dOp d
  if op = 0x50 ∨ op = 0x51 ∨ op = 0x52 then
    !dMxB d && dMxA d = dMxD d && (!dMxA d || isNarrow (dFmtA d))
  else
    (!dMxA d || mxSource op (dFmtA d)) && (!dMxB d || mxSource op (dFmtB d)) &&
      (!dMxD d || (rounds op && isNarrow (dFmtD d))) &&
      (!(op = 0x01 || op = 0x02) ||
        ((!dMxA d || !(dOpf d).testBit 0) && (!dMxB d || (dOpf d).testBit 1)))

/-- A term of a format enters a pot-128 (R58). -/
def inPot128 (f : Nat) (mx : Bool) : Bool := decide (2 ≤ f) && decide (f ≤ 8) && !mx

/-- An element format, or a record format. -/
def movable (f : Nat) : Bool := isElem f || isRecord f

/-- The format codes are those R111, R114 and R500 allow: every field holds a code of the table, and those of the operands
what the operation takes. -/
def fmtsOk (d : List Word) : Bool :=
  let a := dFmtA d
  let b := dFmtB d
  let r := dFmtD d
  decide (a ≤ 11) && decide (b ≤ 11) && decide (r ≤ 11) &&
  match dOp d with
  | 0x01 | 0x17 | 0x30 | 0x31 | 0x32 => isElem a && isElem b && isElem r
  | 0x02 => isElem a && isElem b && (r = 10 || (r = 9 && inPot128 a (dMxA d) && inPot128 b (dMxB d)))
  | 0x10 => isRecord a && r = 10
  | 0x11 | 0x12 => isRecord a && isElem r
  | 0x13 | 0x15 | 0x18 | 0x35 | 0x36 => isElem a && isElem r
  | 0x14 | 0x16 => isElem a && (r = 10 || (r = 9 && inPot128 a (dMxA d)))
  | 0x19 | 0x1A => isElem a && r = a
  | 0x33 | 0x34 | 0x37 => isElem a && b = a && r = a
  | 0x1B => isRecord a && (isElem r || r = 10)
  | 0x20 => (a = 1 || a = 2 || a = 3 || a = 4) && r = 10
  | 0x21 => a = 10 && (isElem r || r = 10)
  | 0x22 => isElem a && isElem b
  | 0x50 | 0x53 => movable a && r = a
  | 0x51 | 0x52 => movable a && r = a && b = 11
  | 0x54 => movable r && b = r
  | 0x57 => movable a && b = a
  | _ => true

/-- Operation flags and parameters within their limits (R114, R144, R159, R189).  The spec names no DETAIL for a KV_STORE
whose D_PITCH is not 0; it is reported here, as 0x02 (log entry 63). -/
def paramsOk (d : List Word) : Bool :=
  match dOp d with
  | 0x30 | 0x31 | 0x32 | 0x33 | 0x34 => dOpf d % 4 ≠ 3
  | 0x35 => decide (3 < dOpf d % 16) || decide (dFmtD d ≤ 2)
  | 0x55 => decide (dOpf d % 4 ≤ 1)
  | 0x56 => decide (dOpf d % 4 ≤ 2)
  | 0x22 => decide (dDPitch d = 0)
  | 0x20 => !dStoch d && decide (dScale d ≠ 0) && decide (dScale d < 0x7F800000)
  | _ => true

/-- Dimensions within their limits (R112, R144, R153, R159, R160, R317).  Whether M, N or K must be non-zero for an operation
that does not use it is open: only the dimensions in use are checked (log entry 63). -/
def dimsOk (d : List Word) : Bool :=
  let m := dM d
  let n := dN d
  let k := dK d
  match dOp d with
  | 0x01 | 0x02 | 0x51 | 0x52 => m ≠ 0 && n ≠ 0 && k ≠ 0
  | 0x10 | 0x12 | 0x13 | 0x14 | 0x15 | 0x16 | 0x17 | 0x18 | 0x19 | 0x1A => m ≠ 0 && k ≠ 0
  | 0x11 | 0x30 | 0x31 | 0x32 | 0x33 | 0x34 | 0x35 | 0x36 | 0x37 | 0x50 | 0x53 | 0x54 | 0x57 => m ≠ 0 && n ≠ 0
  | 0x1B =>
    m ≠ 0 && n ≠ 0 && k ≠ 0 && decide (k ≤ 64) && decide (m * n * k ≤ 2 ^ 22) && decide (n * k ≤ 4096)
  | 0x20 =>
    m ≠ 0 && n ≠ 0 && decide (m ≤ 64) && m % (dGm1 d + 1) = 0 && decide (m * n ≤ 4096) &&
      decide (1 ≤ dTotal d) && decide (dTotal d ≤ 4194304) && decide (dT0 d < dT1 d) && decide (dT1 d ≤ dTotal d)
  | 0x21 => m ≠ 0 && n ≠ 0 && k ≠ 0 && decide (k ≤ 256)
  | 0x22 => m ≠ 0 && n ≠ 0 && decide (m ≤ 256) && decide (dTotal d + m ≤ 4194304)
  | 0x23 => m ≠ 0 && decide (m ≤ 16384)
  | _ => true

/-! ### The energy floor (R327), in units of 0.05 pJ -/

/-- One multiply-accumulate of an operand pair. -/
def macWeight (a b : Nat) : Nat :=
  if a = 0 ∨ b = 0 then 70 else if a ≤ 2 ∨ b ≤ 2 then 22 else if a = 7 ∧ b = 7 then 7 else 12

/-- The estimate of a descriptor. -/
def estimate (d : List Word) : Nat :=
  let m := dM d
  let n := dN d
  let k := dK d
  let os := operands d
  let named := ((os.filter fun o => o.role ≠ 3).flatMap spans).foldl (fun t x => t + (x.2 - x.1)) 0
  match dOp d with
  | 0x01 | 0x02 => m * n * k * macWeight (dFmtA d) (dFmtB d) + 100 * named
  | 0x17 => m * k * macWeight (dFmtA d) (dFmtB d) + 100 * named
  | 0x18 => m * k * macWeight (dFmtA d) (dFmtA d) + 100 * named
  | 0x20 =>
    let t := dT1 d - dT0 d
    2 * t * m * n * 12 + 100 * (2 * t * n + 64 * ceilDiv (dTotal d) 256 + named)
  | 0x10 | 0x12 => 400 * (m * k) + 100 * named
  | 0x11 => 400 * (m * n) + 100 * named
  | 0x1B => 400 * (m * n * k) + 100 * named
  | 0x21 => 400 * (m * k * (n + 1)) + 100 * named
  | 0x22 => 10 * (2 * m * n) + 100 * named
  | 0x23 => 100 * (m * 65536 + m * 64)
  | _ => 10 * os.foldl (fun t o => max t o.el) 0 + 100 * named

/-- The floor class of a descriptor; 8 where no class covers it. -/
def floorClass (d : List Word) : Nat :=
  if opExempt (dOp d) then 0
  else (((List.range 8).find? fun n => estimate d ≤ 4 ^ n * 20000000).getD 8)

/-- The check at decode (R116): the DETAIL of the first check that fails in the order of its table, 0 where none
does. -/
def decodeCheck (d : List Word) : Nat :=
  let op := dOp d
  let os := operands d
  if !opKnown op then 0x01
  else if !(mxOk d && fmtsOk d && paramsOk d) then 0x02
  else if !dimsOk d then 0x03
  else if os.any (fun o => o.pitched && decide (o.pitch = 0 ∨ o.pitch < o.rb)) then 0x04
  else if os.any (fun o => decide (o.addr % o.align ≠ 0)) then 0x05
  else if floorClass d = 8 ∨ dClass d < floorClass d then 0x06
  else if overlaps d then 0x07
  else if op = 0x41 ∧ (dOpf d).testBit 8 ∧ 32 ≤ dOpf d % 64 then 0x0A
  else if op = 0x1B ∧ 64 ≤ dOpf d % 256 then 0x0A
  else if op = 0x35 ∧ 6 < dOpf d % 16 then 0x0A
  else if (op = 0x55 ∨ op = 0x56) ∧
      (dA d % 65536 ≠ 0 ∨ dK d = 0 ∨ (if op = 0x55 ∧ dOpf d % 4 = 1 then 512 else 2 ^ 20) < dK d) then 0x10
  else 0

/-- The energy a descriptor's dispatch is charged (R326). -/
def charge (d : List Word) : Nat := if opExempt (dOp d) then 0 else 4 ^ dClass d

/-! ### Access of tensors -/

/-- The tile of an operand's rows (R178).  The spec gives no size to the tiles of a core's load/store engine: an operand is
one tile (log entry 63). -/
def opdTile (o : Opd) : Tile := ⟨o.addr, o.pitch, o.rows, o.rb, o.role⟩

/-- The tile of an operand's scale array (R112). -/
def scaleTile (o : Opd) (cols : Nat) : Tile := ⟨o.addr + o.rows * o.pitch, scaleRow cols, o.rows, mxBlocks cols, o.role⟩

/-- Read a tile for a descriptor and go on, or stop (R131, R177). -/
def withTile (s : State) (w : Work) (t : Tile) (k : State → List Bytes → State) : State :=
  match readTile s w.part w.unit t with
  | (.ok rows, s) => k s rows
  | (.error e, s) => stopWork s w t false e

/-- Write a tile for a descriptor with a write hint and go on, or stop. -/
def putHinted (s : State) (w : Work) (hint : Nat) (t : Tile) (rows : List Bytes) (k : State → State) : State :=
  match writeTile s w.part w.unit hint t rows with
  | (.ok (), s) => k s
  | (.error e, s) => stopWork s w t true e

/-- Write a tile for a descriptor and go on, or stop. -/
def putTile (s : State) (w : Work) (t : Tile) (rows : List Bytes) (k : State → State) : State := putHinted s w 0 t rows k

/-- Read the values of a tensor of `cols` columns, with its scales (R53 to R55). -/
def withTensor (s : State) (w : Work) (o : Opd) (f : Nat) (mx : Bool) (cols : Nat)
    (k : State → List (List Num) → State) : State :=
  withTile s w (opdTile o) fun s rows =>
    if mx then
      withTile s w (scaleTile o cols) fun s sc => k s ((rows.zip sc).map fun p => rowNums f true cols p.1 p.2)
    else k s (rows.map fun r => rowNums f false cols r [])

/-- Read the element codes of a tensor. -/
def withCodes (s : State) (w : Work) (o : Opd) (f cols : Nat) (k : State → List (List Nat) → State) : State :=
  withTile s w (opdTile o) fun s rows => k s (rows.map fun r => unpack (fmtOf f).w cols r)

/-- Read pot records (R61, R62): the DETAIL of a bad KIND or ARITH_VER completes the descriptor with
CHECK_MISMATCH. -/
def withRecords (s : State) (w : Work) (o : Opd) (f cols : Nat) (k : State → List (List Pot) → State) : State :=
  withTile s w (opdTile o) fun s rows =>
    let rs := rows.map fun r => (List.range cols).map fun i => readRecord f (slice r (i * recordSize f) (recordSize f))
    if rs.any (fun l => l.any fun p => p.2.1 ≠ f - 8) then complete s w 3 0x08 0 0 0
    else if rs.any (fun l => l.any fun p => p.2.2 ≠ arithVer s) then complete s w 3 0x09 0 0 0
    else k s (rs.map fun l => l.map (·.1))

/-- How a descriptor rounds into D (R65). -/
def rounding (s : State) (d : List Word) : Rounding := ⟨dFmtD d, dMxD d, dSat d, dStoch d, dSeed d, arithVer s⟩

/-- Deliver rows of elements into D and complete with the flags (R113, R129). -/
def storeElems (s : State) (w : Work) (cols : Nat) (rows : List (List Elem)) : State :=
  let d := w.desc
  let o := opdD d rows.length cols
  let r := rounding s d
  let out := rows.zipIdx.map fun l => deliverRow r ((dRow0 d + l.2) * dCols d + dCol0 d) l.1
  let fl := out.foldl (fun f x => f.or x.2.2) noFlags
  putTile s w (opdTile o) (out.map (·.1)) fun s =>
    if dMxD d then
      putTile s w (scaleTile o cols) (out.map (·.2.1)) fun s =>
        complete s w 0 0 0 (flagBits fl) 0
    else complete s w 0 0 0 (flagBits fl) 0

/-- Deliver pots into D: records, or one rounding for each element (R61, R64, R129). -/
def storePots (s : State) (w : Work) (cols : Nat) (rows : List (List Pot)) : State :=
  let f := dFmtD w.desc
  if isRecord f then
    let o := opdD w.desc rows.length cols
    let fl : Flags := ⟨rows.any fun l => l.any (·.nan), rows.any fun l => l.any (·.range), false⟩
    putTile s w (opdTile o) (rows.map fun l => l.flatMap (potRecord f (arithVer s))) fun s =>
      complete s w 0 0 0 (flagBits fl) 0
  else storeElems s w cols (rows.map fun l => l.map potElem)

/-- Write rows of element codes into D and complete. -/
def storeCodes (s : State) (w : Work) (cols : Nat) (rows : List (List Nat)) (fl : Flags) : State :=
  let o := opdD w.desc rows.length cols
  putTile s w (opdTile o) (rows.map fun l => pack (fmtOf (dFmtD w.desc)).w l) fun s =>
    complete s w 0 0 0 (flagBits fl) 0

end Sys2Proof.Machine
end

