-- ==== Sys2Proof/Machine/Tensor.lean ====
section
/-!
DEFINITION. The operations of the tensor cores (R114): products, sums, pot records, element-wise work and
moves.  Each reads its operands, computes, writes D and completes; an access that faults holds or ends it
(R131).
-/

namespace Sys2Proof.Machine

/-- Rows to columns, for rows of `n` elements. -/
def transposed {α : Type} (n : Nat) (rows : List (List α)) : List (List α) :=
  (List.range n).map fun c => rows.filterMap fun r => r[c]?

/-- The pot of the products of two vectors (R58 to R60). -/
def dotPot (a b : List Num) : Pot := (a.zip b).foldl (fun p x => potAdd p (x.1.mul x.2)) potZero

/-- The pot of the terms of a vector. -/
def sumPot (a : List Num) : Pot := a.foldl potAdd potZero

/-- The merge of a list of pots (R62). -/
def mergePots (l : List Pot) : Pot := l.foldl potMerge potZero

/-- GEMM and GEMM_POT: every element of D is the pot of a row of A and a column of B. -/
def gemmWork (s : State) (w : Work) : State :=
  let d := w.desc
  let (m, n, k) := (dM d, dN d, dK d)
  let ta := (dOpf d).testBit 0
  let tb := (dOpf d).testBit 1
  withTensor s w (gemmA d) (dFmtA d) (dMxA d) (if ta then m else k) fun s a =>
  withTensor s w (gemmB d) (dFmtB d) (dMxB d) (if tb then k else n) fun s b =>
    let a := if ta then transposed m a else a
    let b := if tb then b else transposed n b
    storePots s w n (a.map fun r => b.map (dotPot r))

/-- GEMM (R114). -/
def execGemm (k x q : Nat) (s : State) : Res := .next (onWork s k x q 0x01 gemmWork)

/-- GEMM_POT (R114). -/
def execGemmPot (k x q : Nat) (s : State) : Res := .next (onWork s k x q 0x02 gemmWork)

/-- POT_MERGE (R62, R114): the merge of each row of records, as a pot-640 record. -/
def mergeWork (s : State) (w : Work) : State :=
  let d := w.desc
  withRecords s w (opdA d (dM d) (dK d)) (dFmtA d) (dK d) fun s a => storePots s w 1 (a.map fun r => [mergePots r])

/-- POT_MERGE (R114). -/
def execPotMerge (k x q : Nat) (s : State) : Res := .next (onWork s k x q 0x10 mergeWork)

/-- POT_ROUND (R114): each record rounded. -/
def execPotRound (k x q : Nat) (s : State) : Res :=
  .next (onWork s k x q 0x11 fun s w =>
    withRecords s w (opdA w.desc (dM w.desc) (dN w.desc)) (dFmtA w.desc) (dN w.desc) fun s a =>
      storePots s w (dN w.desc) a)

/-- POT_MERGE_ROUND (R114). -/
def execPotMergeRound (k x q : Nat) (s : State) : Res := .next (onWork s k x q 0x12 mergeWork)

/-- The sums of the rows of A. -/
def sumRowsWork (s : State) (w : Work) : State :=
  let d := w.desc
  withTensor s w (opdA d (dM d) (dK d)) (dFmtA d) (dMxA d) (dK d) fun s a => storePots s w 1 (a.map fun r => [sumPot r])

/-- The sums of the columns of A. -/
def sumColsWork (s : State) (w : Work) : State :=
  let d := w.desc
  withTensor s w (opdA d (dM d) (dK d)) (dFmtA d) (dMxA d) (dK d) fun s a =>
    storePots s w (dK d) [(transposed (dK d) a).map sumPot]

/-- REDUCE_ROWS (R114). -/
def execReduceRows (k x q : Nat) (s : State) : Res := .next (onWork s k x q 0x13 sumRowsWork)

/-- REDUCE_ROWS_POT (R114). -/
def execReduceRowsPot (k x q : Nat) (s : State) : Res := .next (onWork s k x q 0x14 sumRowsWork)

/-- REDUCE_COLS (R114). -/
def execReduceCols (k x q : Nat) (s : State) : Res := .next (onWork s k x q 0x15 sumColsWork)

/-- REDUCE_COLS_POT (R114). -/
def execReduceColsPot (k x q : Nat) (s : State) : Res := .next (onWork s k x q 0x16 sumColsWork)

/-- DOT_ROWS (R114): the products of each row of A with the row of B. -/
def execDotRows (k x q : Nat) (s : State) : Res :=
  .next (onWork s k x q 0x17 fun s w =>
    let d := w.desc
    withTensor s w (opdA d (dM d) (dK d)) (dFmtA d) (dMxA d) (dK d) fun s a =>
    withTensor s w (opdB d (dM d) (dK d)) (dFmtB d) (dMxB d) (dK d) fun s b =>
      storePots s w 1 ((a.zip b).map fun r => [dotPot r.1 r.2]))

/-- SUMSQ_ROWS (R114): the squares of each row of A. -/
def execSumsqRows (k x q : Nat) (s : State) : Res :=
  .next (onWork s k x q 0x18 fun s w =>
    let d := w.desc
    withTensor s w (opdA d (dM d) (dK d)) (dFmtA d) (dMxA d) (dK d) fun s a =>
      storePots s w 1 (a.map fun r => [dotPot r r]))

/-- The best of each row of A (R114, R129). -/
def bestRowsWork (hi : Bool) (s : State) (w : Work) : State :=
  let d := w.desc
  withCodes s w (opdA d (dM d) (dK d)) (dFmtA d) (dK d) fun s a =>
    let r := a.map (bestCode (dFmtA d) hi)
    storeCodes s w 1 (r.map fun c => [c.1]) { noFlags with nan := r.any (·.2) }

/-- MAX_ROWS (R114). -/
def execMaxRows (k x q : Nat) (s : State) : Res := .next (onWork s k x q 0x19 (bestRowsWork true))

/-- MIN_ROWS (R114). -/
def execMinRows (k x q : Nat) (s : State) : Res := .next (onWork s k x q 0x1A (bestRowsWork false))

/-! ### Element-wise -/

/-- Element `(r, c)` of a B that may be one row or one element (R114). -/
def broadcast {α : Type} (shape : Nat × Nat) (b : List (List α)) (r c : Nat) (z : α) : α :=
  (b.getD (if shape.1 = 1 then 0 else r) []).getD (if shape.2 = 1 then 0 else c) z

/-- EW_ADD, EW_SUB and EW_MUL: `f` gives the terms of one element's pot (R66). -/
def pairWork (f : Num → Num → List Num) (s : State) (w : Work) : State :=
  let d := w.desc
  let sh := pairShape d
  withTensor s w (opdA d (dM d) (dN d)) (dFmtA d) (dMxA d) (dN d) fun s a =>
  withTensor s w (opdB d sh.1 sh.2) (dFmtB d) (dMxB d) sh.2 fun s b =>
    storePots s w (dN d)
      (a.zipIdx.map fun r => r.1.zipIdx.map fun x => sumPot (f x.1 (broadcast sh b r.2 x.2 .nan)))

/-- EW_ADD (R114). -/
def execEwAdd (k x q : Nat) (s : State) : Res := .next (onWork s k x q 0x30 (pairWork fun a b => [a, b]))

/-- EW_SUB (R114). -/
def execEwSub (k x q : Nat) (s : State) : Res := .next (onWork s k x q 0x31 (pairWork fun a b => [a, b.neg]))

/-- EW_MUL (R114). -/
def execEwMul (k x q : Nat) (s : State) : Res := .next (onWork s k x q 0x32 (pairWork fun a b => [a.mul b]))

/-- EW_MAX and EW_MIN: the better of two codes (R114, R129). -/
def pickWork (hi : Bool) (s : State) (w : Work) : State :=
  let d := w.desc
  let sh := pairShape d
  withCodes s w (opdA d (dM d) (dN d)) (dFmtA d) (dN d) fun s a =>
  withCodes s w (opdB d sh.1 sh.2) (dFmtB d) sh.2 fun s b =>
    let r := a.zipIdx.map fun r => r.1.zipIdx.map fun x =>
      bestCode (dFmtA d) hi [x.1, broadcast sh b r.2 x.2 0]
    storeCodes s w (dN d) (r.map fun l => l.map (·.1)) { noFlags with nan := r.any fun l => l.any (·.2) }

/-- EW_MAX (R114). -/
def execEwMax (k x q : Nat) (s : State) : Res := .next (onWork s k x q 0x33 (pickWork true))

/-- EW_MIN (R114). -/
def execEwMin (k x q : Nat) (s : State) : Res := .next (onWork s k x q 0x34 (pickWork false))

/-- What EW_UNARY delivers for a value (R66, R70, R114). -/
def unaryNum (f : Nat) (x : Num) : Num :=
  match f with
  | 0 => exp2Num x
  | 1 => log2Num x
  | 2 => recipNum x
  | 3 => rsqrtNum x
  | 4 => x.neg
  | 5 => x.abs
  | _ => x.relu

/-- The element EW_UNARY delivers: log2 and rsqrt of ARITH_VER 2 are faithfully rounded, to the neighbour the
implementation picks (R72). -/
def unaryElem (ver f fmt : Nat) (x : Num) : Elem :=
  let y := unaryNum f x
  let v := match x with
    | .fin s m e => (s, m, e)
    | _ => (false, 0, 0)
  ⟨y, false, if ver = 2 ∧ (f = 1 ∨ f = 3) then some (Config.faithfulUp f fmt v.1 v.2.1 v.2.2) else none⟩

/-- EW_UNARY (R114). -/
def execEwUnary (k x q : Nat) (s : State) : Res :=
  .next (onWork s k x q 0x35 fun s w =>
    let d := w.desc
    withTensor s w (opdA d (dM d) (dN d)) (dFmtA d) (dMxA d) (dN d) fun s a =>
      storeElems s w (dN d) (a.map fun r => r.map (unaryElem (arithVer s) (dOpf d % 16) (dFmtD d))))

/-- CONVERT (R56, R114). -/
def execConvert (k x q : Nat) (s : State) : Res :=
  .next (onWork s k x q 0x36 fun s w =>
    let d := w.desc
    withTensor s w (opdA d (dM d) (dN d)) (dFmtA d) (dMxA d) (dN d) fun s a =>
      storeElems s w (dN d) (a.map fun r => r.map numElem))

/-- EW_CLAMP (R114): the maximum with `lo`, then the minimum with `hi`. -/
def execEwClamp (k x q : Nat) (s : State) : Res :=
  .next (onWork s k x q 0x37 fun s w =>
    let d := w.desc
    let f := dFmtA d
    withCodes s w (opdA d (dM d) (dN d)) f (dN d) fun s a =>
    withCodes s w (tensor 1 f false (dB d) (dBPitch d) 1 2) f 2 fun s b =>
      let lo := (b.getD 0 []).getD 0 0
      let hi := (b.getD 0 []).getD 1 0
      let r := a.map fun r => r.map fun x =>
        let m := bestCode f true [x, lo]
        let n := bestCode f false [m.1, hi]
        (n.1, m.2 || n.2)
      storeCodes s w (dN d) (r.map fun l => l.map fun c => if c.2 then nanCode f else c.1)
        { noFlags with nan := r.any fun l => l.any (·.2) })

/-! ### Moves (R114, R500) -/

/-- The bytes of a stored row with the bits beyond its last element zero (R55). -/
def cleanRow (f : Nat) (mx : Bool) (n : Nat) (b : Bytes) : Bytes :=
  let l := unpack (fmtOf f).w n b
  pack (fmtOf f).w (if mx then l ++ List.replicate (32 * mxBlocks n - n) 0 else l)

/-- Write whole rows, and their scale rows, to D, then complete. -/
def moveRows (s : State) (w : Work) (o : Opd) (rows scales : List Bytes) : State :=
  let d := w.desc
  putTile s w (opdTile o) (rows.map (cleanRow (dFmtD d) (dMxD d) (dN d))) fun s =>
    if dMxD d then putTile s w (scaleTile o (dN d)) scales fun s => completeSt s w 0
    else completeSt s w 0

/-- Read the stored rows of A and their scale rows. -/
def withRows (s : State) (w : Work) (o : Opd) (k : State → List Bytes → List Bytes → State) : State :=
  withTile s w (opdTile o) fun s rows =>
    if dMxA w.desc then withTile s w (scaleTile o (dN w.desc)) fun s sc => k s rows sc
    else k s rows []

/-- COPY (R114). -/
def execCopy (k x q : Nat) (s : State) : Res :=
  .next (onWork s k x q 0x50 fun s w =>
    let d := w.desc
    withRows s w (opdA d (dM d) (dN d)) fun s rows sc => moveRows s w (opdD d (dM d) (dN d)) rows sc)

/-- The value of an INT32 index; none where it is negative. -/
def indexOf (c : Nat) : Option Nat := if c < 2 ^ 31 then some c else none

/-- Read the indices of B; one outside 0 to K − 1 completes the descriptor with DETAIL 0x0B (R116). -/
def withIndices (s : State) (w : Work) (k : State → List Nat → State) : State :=
  let d := w.desc
  withCodes s w (opdB d (dM d) 1) 11 1 fun s b =>
    let l := b.map fun r => indexOf (r.getD 0 0)
    if l.any fun i => match i with
      | none => true
      | some i => decide (dK d ≤ i) then complete s w 3 0x0B 0 0 0
    else k s (l.map fun i => i.getD 0)

/-- The one-row piece of an operand at row `i`. -/
def rowOf (o : Opd) (i : Nat) : Opd := { o with addr := o.addr + i * o.pitch, rows := 1 }

/-- The scale row of row `i` of an operand (R112). -/
def scaleOf (o : Opd) (cols i : Nat) : Tile :=
  ⟨o.addr + o.rows * o.pitch + i * scaleRow cols, scaleRow cols, 1, mxBlocks cols, o.role⟩

/-- Read chosen rows of an operand, each with its scale row. -/
def gatherFrom (s : State) (w : Work) (o : Opd) : List Nat → (State → List (Bytes × Bytes) → State) → State
  | [], k => k s []
  | i :: t, k =>
    withTile s w (opdTile (rowOf o i)) fun s r =>
      let go (s : State) (sc : Bytes) : State :=
        gatherFrom s w o t fun s l => k s ((r.getD 0 [], sc) :: l)
      if dMxA w.desc then withTile s w (scaleOf o (dN w.desc) i) fun s sc => go s (sc.getD 0 [])
      else go s []

/-- GATHER_ROWS (R114). -/
def execGatherRows (k x q : Nat) (s : State) : Res :=
  .next (onWork s k x q 0x51 fun s w =>
    let d := w.desc
    withIndices s w fun s idx =>
      gatherFrom s w (opdA d (dK d) (dN d)) idx fun s l =>
        moveRows s w (opdD d (dM d) (dN d)) (l.map (·.1)) (l.map (·.2)))

/-- Write rows to chosen rows of D, in order, so that the highest source row of an index stays (R114). -/
def scatterTo (s : State) (w : Work) (o : Opd) : List (Nat × Bytes × Bytes) → State
  | [] => completeSt s w 0
  | (i, r, sc) :: t =>
    let d := w.desc
    putTile s w (opdTile (rowOf o i)) [cleanRow (dFmtD d) (dMxD d) (dN d) r] fun s =>
      if dMxD d then putTile s w (scaleOf o (dN d) i) [sc] fun s => scatterTo s w o t
      else scatterTo s w o t

/-- SCATTER_ROWS (R114): on equal indices the row with the higher `m` is written. -/
def execScatterRows (k x q : Nat) (s : State) : Res :=
  .next (onWork s k x q 0x52 fun s w =>
    let d := w.desc
    withIndices s w fun s idx =>
      withRows s w (opdA d (dM d) (dN d)) fun s rows sc =>
        let l := idx.zipIdx.filterMap fun i =>
          if (idx.drop (i.2 + 1)).contains i.1 then none
          else some (i.1, rows.getD i.2 [], sc.getD i.2 [])
        scatterTo s w (opdD d (dK d) (dN d)) l)

/-- TRANSPOSE (R114). -/
def execTranspose (k x q : Nat) (s : State) : Res :=
  .next (onWork s k x q 0x53 fun s w =>
    let d := w.desc
    withCodes s w (opdA d (dM d) (dN d)) (dFmtA d) (dN d) fun s a =>
      storeCodes s w (dM d) (transposed (dN d) a) noFlags)

/-- FILL (R114). -/
def execFill (k x q : Nat) (s : State) : Res :=
  .next (onWork s k x q 0x54 fun s w =>
    let d := w.desc
    withCodes s w (opdB d 1 1) (dFmtD d) 1 fun s b =>
      storeCodes s w (dN d) (List.replicate (dM d) (List.replicate (dN d) ((b.getD 0 []).getD 0 0))) noFlags)

/-- COMPARE (R114): RESULT counts the positions whose bits differ. -/
def execCompare (k x q : Nat) (s : State) : Res :=
  .next (onWork s k x q 0x57 fun s w =>
    let d := w.desc
    withCodes s w (opdA d (dM d) (dN d)) (dFmtA d) (dN d) fun s a =>
    withCodes s w (opdB d (dM d) (dN d)) (dFmtB d) (dN d) fun s b =>
      let n := ((a.zip b).map fun r => (r.1.zip r.2).countP fun c => c.1 ≠ c.2).foldl (· + ·) 0
      complete s w 0 0 0 0 (w64 n))

end Sys2Proof.Machine
end

