-- ==== Sys2Proof/Machine/Cores.lean ====
section
/-!
DEFINITION. Tensor cores and clusters: faults and fences of cores, the spare's self-test, errors of the
cluster caches (R90 to R109).
-/

namespace Sys2Proof.Machine

/-- Set the state of local physical core `j` of cluster `c` (R105). -/
def setCore (s : State) (c j st : Nat) : State :=
  if j < 16 then wf s (pgCl c) Reg.CORE_STATE_LO (4 * j) 4 st else wf s (pgCl c) Reg.CORE_STATE_HI 0 4 st

/-- The logical local index that physical core `j` of cluster `c` serves (R94, R95). -/
def servedBy (s : State) (c j : Nat) : Option Nat :=
  (List.range 16).find? fun i => decide ((mapEntry s c i).1 = j) && !(mapEntry s c i).2

/-- Set a map entry (R96). -/
def setMap (s : State) (c i phys : Nat) (down : Bool) : State :=
  let off := if i < 8 then Reg.L2P_LO else Reg.L2P_HI
  wf s (pgCl c) off (8 * (i % 8)) 8 (phys + (if down then 128 else 0))

/-- The descriptors on partition logical core `b` of partition `k`, oldest first. -/
def unitWork (s : State) (k b : Nat) : List Work :=
  s.work.filter fun w => w.part = k && w.unit = b && w.phase ≠ .returned

/-- What a change of a cluster's cores or of their states does to `CORES_UP` of partition `k` sets CAPACITY_CHANGED
(R109). -/
def withCapacity (s : State) (k : Nat) (f : State → State) : State :=
  let t := f s
  if coresUp t k = coresUp s k then t else raiseEvt t (pgPart k) 0

/-- A fence begins (R99 steps 1 and 2): the core is FENCING, and its cause and the time of its detection wait for the
drain. -/
def startFence (s : State) (c j cause : Nat) : State :=
  withCapacity s (c / 8) fun s =>
    setCore { s with fencing := s.fencing ++ [(c, j, cause, (rd s pgErr Reg.ERR_TIME).toNat)] } c j 3

/-- The record of a fence (R105): physical core, logical index, cause, context, replay, and where the logical
index went. -/
def faultLastWord (j i cause : Nat) (ctx : Option Nat) (spare down : Bool) : Word :=
  w64 (j + i <<< 8 + cause <<< 16 + (ctx.getD 0) <<< 24 + ctx.isSome.toNat <<< 36 + ctx.isSome.toNat <<< 37 +
    spare.toNat <<< 38 + down.toNat <<< 39 + 1 <<< 63)

/-- The spare's self-test in progress leaves BUSY with RESULT 0x3, abandoned (R104, R105, R107). -/
def abandonSpareTest (s : State) (c : Nat) : State :=
  raiseEvt (wf (wb s (pgCl c) Reg.SPARE_TEST 1 false) (pgCl c) Reg.SPARE_TEST 2 2 3) (pgCl c) 4

/-- A reset abandons a self-test in progress; the spare stays in SPARE (R105). -/
def endTest (s : State) (c : Nat) : State :=
  if coreState s c 16 = 5 then withCapacity s (c / 8) fun s => setCore (abandonSpareTest s c) c 16 1 else s

/-- The core becomes FENCED and is recorded (R99 steps 5 and 6, R108): for good, and in the field map. -/
def finishFence (s : State) (c j i cause : Nat) (ctx : Option Nat) (spare down : Bool) : State :=
  let k := c / 8
  let s := setCore s c j 4
  let s := wr s (pgCl c) Reg.CORE_FAULT_LAST (faultLastWord j i cause ctx spare down)
  let s := addReg s (pgPart k) Reg.FENCE_TOTAL 1
  let s := { s with flash := { s.flash with fieldMap := { s.flash.fieldMap with
      cores := s.flash.fieldMap.cores ++ [17 * c + j] } } }
  let s := countError s (pgCl c) cause 0x10 1 ctx
  raiseEvt s (pgCl c) 0

/-- Another core of the cluster faulted at the same time as core `j`, which serves index `i`, and serves a lower index: the
spare is that one's (R100). -/
def spareOwed (s : State) (c j i : Nat) : Bool :=
  match s.fencing.find? fun f => f.1 = c && f.2.1 = j with
  | none => false
  | some f =>
    s.fencing.any fun g => g.1 = c && g.2.2.2 = f.2.2.2 &&
      (match servedBy s c g.2.1 with
       | some n => decide (n < i)
       | none => false)

/-- The logical index `i` of the fenced core `j` moves to the spare, or becomes DOWN; the descriptors on it run again
there, or go back to the scheduler (R99 steps 4 to 7). -/
def moveIndex (s : State) (c j i cause : Nat) : State :=
  let k := c / 8
  let b := 16 * (c % 8) + i
  let ctx := ((unitWork s k b).head?).map fun w => ctxId k w.ctx
  let spare := decide (coreState s c 16 = 1 ∨ coreState s c 16 = 5) && !(spareOwed s c j i)
  let s := rerun s (fun w => w.part = k && w.unit = b) (!spare)
  if spare then
    let s := if coreState s c 16 = 5 then abandonSpareTest s c else s
    finishFence (raiseEvt (setCore (setMap s c i 16 false) c 16 2) (pgCl c) 1) c j i cause ctx true false
  else finishFence (raiseEvt (setMap s c i j true) (pgCl c) 2) c j i cause ctx false true

/-- A fence ends (R99 steps 4 to 7): the logical index moves to the spare where it is in state SPARE, or in
TEST, whose test is abandoned; otherwise it is DOWN and its descriptors go back to the scheduler.  A core that serves no
index records LOGICAL as 0, a value the spec leaves open (log entry 63). -/
def drainFence (s : State) (c j cause : Nat) : State :=
  withCapacity s (c / 8) fun s =>
    let t := match servedBy s c j with
      | none => finishFence s c j 0 cause none false false
      | some i => moveIndex s c j i cause
    { t with fencing := t.fencing.filter fun f => !(f.1 = c && f.2.1 = j) }

/-- A cause of R98 is detected in a physical core (R98, R99, R104): ignored in OFF, FENCING or FENCED; in TEST
the test is abandoned and the spare fenced with the cause; else the fence begins. -/
def coreCause (s : State) (c j cause : Nat) : State :=
  if c < 128 ∧ j < 17 then
    let st := coreState s c j
    if st = 5 then drainFence (abandonSpareTest s c) c j cause
    else if st = 1 ∨ st = 2 then startFence s c j cause
    else s
  else s

/-- CORE_FAULT (R83, R99): a core detects one of the causes 0x01, 0x02, 0x04, 0x05, 0x06; 0 stands for a scratch error that
the core corrects, which is counted and faults nothing. -/
def execCoreFault (phys cause : Nat) (s : State) : Res :=
  .next (if cause = 0 ∧ phys < 2176 then addReg s (pgCl (phys / 17)) Reg.SCRATCH_CORR 1
    else if cause = 1 ∨ cause = 2 ∨ cause = 4 ∨ cause = 5 ∨ cause = 6 then coreCause s (phys / 17) (phys % 17) cause else s)

/-- Physical core `j` of cluster `c` waits on memory: its descriptor is held on a translation fault (R183). -/
def coreHeld (s : State) (c j : Nat) : Bool :=
  match servedBy s c j with
  | none => false
  | some i => ((unitWork s (c / 8) (16 * (c % 8) + i)).head?).any heldPhase

/-- SEQ_STALL (R98, R183): a core retires nothing for 2^20 island cycles while not waiting on memory. -/
def execSeqStall (phys : Nat) (s : State) : Res :=
  .next (if coreHeld s (phys / 17) (phys % 17) then s else coreCause s (phys / 17) (phys % 17) 3)

/-- CORE_FENCE (R103): the OPERATOR fences a core in ACTIVE or SPARE. -/
def execCoreFence (fn c : Nat) (v : Word) (s : State) : Res :=
  .next (withOperator s fn (pgCl c) Reg.CORE_FENCE fun s =>
    if bit v 63 then
      let j := fld v 0 5
      guarded s (pgCl c) (decide (coreState s c j = 1 ∨ coreState s c j = 2) && decide (j < 17))
        fun s => startFence s c j 7
    else s)

/-- CORE_FENCE_DRAINED (R99): the fenced core's last write is acknowledged. -/
def execCoreFenceDrained (c j : Nat) (s : State) : Res :=
  .next (match s.fencing.find? fun f => f.1 = c && f.2.1 = j with
    | some f => drainFence s c j f.2.2.1
    | none => s)

/-- SPARE_TEST (R104): the OPERATOR starts the spare's self-test, in state SPARE only. -/
def execSpareTest (fn c : Nat) (s : State) : Res :=
  .next (withOperator s fn (pgCl c) Reg.SPARE_TEST fun s =>
    guarded s (pgCl c) (decide (coreState s c 16 = 1)) fun s =>
      withCapacity s (c / 8) fun s => wb (setCore s c 16 5) (pgCl c) Reg.SPARE_TEST 1 true)

/-- SPARE_TEST_DONE (R104): a pass returns the spare to SPARE; a failure fences it with SPARE_TEST_FAIL. -/
def execSpareTestDone (c : Nat) (pass : Bool) (s : State) : Res :=
  .next (if coreState s c 16 = 5 then
      let s := wf (wb s (pgCl c) Reg.SPARE_TEST 1 false) (pgCl c) Reg.SPARE_TEST 2 2 (if pass then 1 else 2)
      let s := if pass then withCapacity s (c / 8) fun s => setCore s c 16 1 else drainFence s c 16 8
      raiseEvt s (pgCl c) 4
    else s)

/-! ### Cluster caches (R90 to R92) -/

/-- Banks of cluster `c` marked for replacement and not yet replaced (R90). -/
def marksOf (s : State) (c : Nat) : Nat := s.bankMarks.countP fun m => m.1 = c

/-- A cluster that needs a seventh replacement bank is FENCED, its home is lost and its partition is in FAULT
until power-on; the bank goes to the field map (R92). -/
def fenceCluster (s : State) (c bank : Nat) : State :=
  let s := { s with flash := { s.flash with fieldMap := { s.flash.fieldMap with
      cacheBanks := s.flash.fieldMap.cacheBanks ++ [(c, bank)] } } }
  loseDomain (setState s (pgCl c) 6) (c / 8) 0x25 0x1F (c % 8) 0

/-- A data bank is marked for replacement at the partition's next reset (R90, R92). -/
def markBank (s : State) (c bank : Nat) : State :=
  if s.bankMarks.contains (c, bank) then s
  else
    let s := raiseEvt { s with bankMarks := s.bankMarks ++ [(c, bank)] } (pgCl c) 3
    if 6 < rf s (pgCl c) Reg.BANK_REMAP 48 3 + marksOf s c then fenceCluster s c bank else s

/-- A corrected error of a data bank: the 64th since power-on marks the bank (R90). -/
def bankCorrected (s : State) (c bank : Nat) : State :=
  let i := c * 48 + bank
  let n := ((s.bankErrs.find? fun e => e.1 = i).map (·.2)).getD 0 + 1
  let s := { s with bankErrs := (s.bankErrs.filter fun e => e.1 ≠ i) ++ [(i, n)] }
  if n = 64 then markBank s c bank else s

/-- CACHE_ACCESS_ERROR (R90, R91, R288): a corrected error is counted; an uncorrectable one loses the partition's domain,
marks its data bank, and fences no core.  Whether `FAULT_LAST` takes the codes 0x10 and 0x11 is open: it keeps the latest
fence (log entry 63). -/
def execCacheAccessError (c bank : Nat) (tag ue : Bool) (s : State) : Res :=
  .next (if c < 128 ∧ bank < 48 then
      if ue then
        let s := countError s (pgCl c) (if tag then 0x11 else 0x10) 4 2 none
        let s := loseDomain s (c / 8) 0x21 (c % 8) (c % 8) 0
        if tag then s else markBank s c bank
      else
        let s := addReg s (pgCl c) Reg.CACHE_CORR 1
        if tag then s else bankCorrected s c bank
    else s)

end Sys2Proof.Machine
end

