-- ==== Sys2Proof/Machine/Crypto.lean ====
section
/-!
DEFINITION. The digests, checks and ciphers the spec names by their published standards: SHA-512 (R359,
R381, R397), Ed25519 (R383, R397), AES-256-GCM (R357), and the CRCs of R150 and R458 (log entry 10).
-/

namespace Sys2Proof.Machine

/-! ### SHA-512 -/

/-- The round constants of SHA-512, the first half. -/
def shaK0 : List Word :=
  [0x428A2F98D728AE22, 0x7137449123EF65CD, 0xB5C0FBCFEC4D3B2F, 0xE9B5DBA58189DBBC,
   0x3956C25BF348B538, 0x59F111F1B605D019, 0x923F82A4AF194F9B, 0xAB1C5ED5DA6D8118,
   0xD807AA98A3030242, 0x12835B0145706FBE, 0x243185BE4EE4B28C, 0x550C7DC3D5FFB4E2,
   0x72BE5D74F27B896F, 0x80DEB1FE3B1696B1, 0x9BDC06A725C71235, 0xC19BF174CF692694,
   0xE49B69C19EF14AD2, 0xEFBE4786384F25E3, 0x0FC19DC68B8CD5B5, 0x240CA1CC77AC9C65,
   0x2DE92C6F592B0275, 0x4A7484AA6EA6E483, 0x5CB0A9DCBD41FBD4, 0x76F988DA831153B5,
   0x983E5152EE66DFAB, 0xA831C66D2DB43210, 0xB00327C898FB213F, 0xBF597FC7BEEF0EE4,
   0xC6E00BF33DA88FC2, 0xD5A79147930AA725, 0x06CA6351E003826F, 0x142929670A0E6E70,
   0x27B70A8546D22FFC, 0x2E1B21385C26C926, 0x4D2C6DFC5AC42AED, 0x53380D139D95B3DF,
   0x650A73548BAF63DE, 0x766A0ABB3C77B2A8, 0x81C2C92E47EDAEE6, 0x92722C851482353B]

/-- The round constants of SHA-512, the second half. -/
def shaK1 : List Word :=
  [0xA2BFE8A14CF10364, 0xA81A664BBC423001, 0xC24B8B70D0F89791, 0xC76C51A30654BE30,
   0xD192E819D6EF5218, 0xD69906245565A910, 0xF40E35855771202A, 0x106AA07032BBD1B8,
   0x19A4C116B8D2D0C8, 0x1E376C085141AB53, 0x2748774CDF8EEB99, 0x34B0BCB5E19B48A8,
   0x391C0CB3C5C95A63, 0x4ED8AA4AE3418ACB, 0x5B9CCA4F7763E373, 0x682E6FF3D6B2B8A3,
   0x748F82EE5DEFB2FC, 0x78A5636F43172F60, 0x84C87814A1F0AB72, 0x8CC702081A6439EC,
   0x90BEFFFA23631E28, 0xA4506CEBDE82BDE9, 0xBEF9A3F7B2C67915, 0xC67178F2E372532B,
   0xCA273ECEEA26619C, 0xD186B8C721C0C207, 0xEADA7DD6CDE0EB1E, 0xF57D4F7FEE6ED178,
   0x06F067AA72176FBA, 0x0A637DC5A2C898A6, 0x113F9804BEF90DAE, 0x1B710B35131C471B,
   0x28DB77F523047D84, 0x32CAAB7B40C72493, 0x3C9EBE0A15C9BEBC, 0x431D67C49C100D4C,
   0x4CC5D4BECB3E42B6, 0x597F299CFC657E2A, 0x5FCB6FAB3AD6FAEC, 0x6C44198C4A475817]

/-- The initial hash value of SHA-512. -/
def shaH0 : List Word :=
  [0x6A09E667F3BCC908, 0xBB67AE8584CAA73B, 0x3C6EF372FE94F82B, 0xA54FF53A5F1D36F1,
   0x510E527FADE682D1, 0x9B05688C2B3E6C1F, 0x1F83D9ABFB41BD6B, 0x5BE0CD19137E2179]

/-- The message padded to whole 128-byte blocks (SHA-512). -/
def shaPad (m : Bytes) : Bytes :=
  let z := (239 - m.length % 128) % 128
  m ++ [0x80] ++ zeroBytes z ++ (natBytes (8 * m.length) 16).reverse

/-- The big-endian word of eight bytes. -/
def beWord (b : Bytes) : Word := BitVec.ofNat 64 (bytesNat ((b.take 8).reverse))

/-- The message schedule, newest word first, extended by `n` words. -/
def shaExtend : Nat → List Word → List Word
  | 0, w => w
  | n + 1, w =>
    let x := w.getD 1 0
    let y := w.getD 14 0
    let s1 := x.rotateRight 19 ^^^ x.rotateRight 61 ^^^ (x >>> 6)
    let s0 := y.rotateRight 1 ^^^ y.rotateRight 8 ^^^ (y >>> 7)
    shaExtend n ((s1 + w.getD 6 0 + s0 + w.getD 15 0) :: w)

/-- One round of SHA-512 over the eight working words. -/
def shaRound (v : List Word) (kw : Word × Word) : List Word :=
  match v with
  | [a, b, c, d, e, f, g, h] =>
    let s1 := e.rotateRight 14 ^^^ e.rotateRight 18 ^^^ e.rotateRight 41
    let ch := (e &&& f) ^^^ (~~~e &&& g)
    let t1 := h + s1 + ch + kw.1 + kw.2
    let s0 := a.rotateRight 28 ^^^ a.rotateRight 34 ^^^ a.rotateRight 39
    let mj := (a &&& b) ^^^ (a &&& c) ^^^ (b &&& c)
    [t1 + s0 + mj, a, b, c, d + t1, e, f, g]
  | _ => v

/-- One block of SHA-512. -/
def shaBlock (h : List Word) (b : Bytes) : List Word :=
  let w0 := (List.range 16).map fun i => beWord (b.drop (8 * i))
  let w := (shaExtend 64 w0.reverse).reverse
  let v := ((shaK0 ++ shaK1).zip w).foldl shaRound h
  (h.zip v).map fun p => p.1 + p.2

/-- The blocks of a padded message, `n` of them. -/
def shaBlocks : Nat → List Word → Bytes → List Word
  | 0, h, _ => h
  | n + 1, h, m => shaBlocks n (shaBlock h (m.take 128)) (m.drop 128)

/-- The SHA-512 digest, 64 bytes. -/
def sha512 (m : Bytes) : Bytes :=
  let p := shaPad m
  (shaBlocks (p.length / 128) shaH0 p).flatMap fun w => (natBytes w.toNat 8).reverse

/-! ### Ed25519 -/

/-- The prime of Ed25519's field. -/
def edP : Nat := 2 ^ 255 - 19

/-- The order of its base point. -/
def edL : Nat := 2 ^ 252 + 27742317777372353535851937790883648493

/-- The constant `d` of its curve. -/
def edD : Nat := 37095705934669439343138083508754565189542113879843219016388785533085940283555

/-- A square root of −1 in the field. -/
def edI : Nat := 19681161376707505956807079304988542015446066515923890162744021073123829784752

/-- The difference of two field elements. -/
def edSub (a b : Nat) : Nat := (a + edP - b) % edP

/-- A power in the field, for exponents below `2 ^ n`: base, exponent, product so far. -/
def edPow : Nat → Nat → Nat → Nat → Nat
  | 0, _, _, r => r
  | n + 1, b, e, r =>
    match r with
    | 0 => 0
    | r' + 1 =>
      match b with
      | 0 => if e = 0 then r' + 1 else 0
      | b' + 1 => edPow n ((b' + 1) * (b' + 1) % edP) (e / 2) (if e % 2 = 1 then (r' + 1) * (b' + 1) % edP else r' + 1)

/-- A point in extended coordinates. -/
structure EdPoint where
  x : Nat
  y : Nat
  z : Nat
  t : Nat
deriving DecidableEq, Repr

/-- A point whose coordinates have been computed. -/
def edPoint (x y z t : Nat) : EdPoint :=
  match x, y, z, t with
  | 0, y, z, t => ⟨0, y, z, t⟩
  | x + 1, 0, z, t => ⟨x + 1, 0, z, t⟩
  | x + 1, y + 1, 0, t => ⟨x + 1, y + 1, 0, t⟩
  | x + 1, y + 1, z + 1, 0 => ⟨x + 1, y + 1, z + 1, 0⟩
  | x + 1, y + 1, z + 1, t + 1 => ⟨x + 1, y + 1, z + 1, t + 1⟩

/-- The sum of two points. -/
def edAdd (p q : EdPoint) : EdPoint :=
  let a := edSub p.y p.x * edSub q.y q.x % edP
  let b := (p.y + p.x) * (q.y + q.x) % edP
  let c := 2 * edD * p.t * q.t % edP
  let d := 2 * p.z * q.z % edP
  let e := edSub b a
  let f := edSub d c
  let g := (d + c) % edP
  let h := (b + a) % edP
  edPoint (e * f % edP) (g * h % edP) (f * g % edP) (e * h % edP)

/-- The neutral point. -/
def edZero : EdPoint := ⟨0, 1, 1, 0⟩

/-- The base point. -/
def edBase : EdPoint :=
  ⟨15112221349535400772501151409588531511454012693041857206046113283949847762202,
   46316835694926478169428394003475163141307993866256225615783033603165251855960, 1,
   46827403850823179245072216630277197565144205554125654976674165829533817101731⟩

/-- A multiple of a point, for multipliers below `2 ^ n`: multiplier, point, sum so far. -/
def edMul : Nat → Nat → EdPoint → EdPoint → EdPoint
  | 0, _, _, r => r
  | n + 1, k, ⟨a, b, c, d⟩, ⟨x, y, z, t⟩ =>
    edMul n (k / 2) (edAdd ⟨a, b, c, d⟩ ⟨a, b, c, d⟩)
      (if k % 2 = 1 then edAdd ⟨x, y, z, t⟩ ⟨a, b, c, d⟩ else ⟨x, y, z, t⟩)

/-- The 32 bytes of a point. -/
def edEncode (p : EdPoint) : Bytes :=
  let i := edPow 255 p.z (edP - 2) 1
  natBytes (p.y * i % edP + p.x * i % edP % 2 * 2 ^ 255) 32

/-- The point that 32 bytes encode, if they do. -/
def edDecode (b : Bytes) : Option EdPoint :=
  let v := bytesNat (fitBytes b 32)
  let y := v % 2 ^ 255
  let sign := v / 2 ^ 255
  let u := edSub (y * y % edP) 1
  let w := (edD * (y * y % edP) + 1) % edP
  let w3 := w * w % edP * w % edP
  let r := u * w3 % edP * edPow 255 (u * (w3 * w3 % edP * w % edP) % edP) ((edP - 5) / 8) 1 % edP
  let q := w * (r * r % edP) % edP
  if edP ≤ y ∨ (q ≠ u ∧ q ≠ edSub 0 u) then none
  else
    let r := if q = u then r else r * edI % edP
    if r = 0 ∧ sign = 1 then none
    else
      let x := if r % 2 = sign then r else edSub 0 r
      some (edPoint x y 1 (x * y % edP))

/-- Two points are the same. -/
def edSame (p q : EdPoint) : Bool :=
  decide (p.x * q.z % edP = q.x * p.z % edP) && decide (p.y * q.z % edP = q.y * p.z % edP)

/-- The number of a digest, byte 0 least significant, modulo the order of the base point. -/
def edScalar (b : Bytes) : Nat := bytesNat (sha512 b) % edL

/-- Ed25519 verification (RFC 8032): public key, message, signature. -/
def edVerify (key msg sig : Bytes) : Bool :=
  let s := bytesNat (slice sig 32 32)
  match edDecode key, edDecode (slice sig 0 32) with
  | some a, some r =>
    decide (s < edL) &&
      edSame (edMul 256 (8 * s) edBase edZero)
        (edMul 4 8 (edAdd r (edMul 253 (edScalar (slice sig 0 32 ++ fitBytes key 32 ++ msg)) a edZero)) edZero)
  | _, _ => false

/-- The secret scalar of a private key, and the prefix of its nonces. -/
def edSecret (key : Bytes) : Nat × Bytes :=
  let h := sha512 (fitBytes key 32)
  (bytesNat (h.take 32) % 2 ^ 254 / 8 * 8 + 2 ^ 254, h.drop 32)

/-- The public key of a private key. -/
def edPublic (key : Bytes) : Bytes := edEncode (edMul 255 (edSecret key).1 edBase edZero)

/-- The Ed25519 signature of a message (RFC 8032): private key, message. -/
def edSign (key msg : Bytes) : Bytes :=
  let s := edSecret key
  let a := edPublic key
  let n := edScalar (s.2 ++ msg)
  let r := edEncode (edMul 253 n edBase edZero)
  r ++ natBytes ((n + edScalar (r ++ a ++ msg) * s.1) % edL) 32

/-! ### CRCs -/

/-- One bit of a CRC whose register shifts right (reflected): polynomial in reflected form. -/
def crcBitR (poly r : Nat) : Nat := if r % 2 = 1 then (r / 2) ^^^ poly else r / 2

/-- One byte of a reflected CRC. -/
def crcByteR (poly : Nat) (r : Nat) (b : Byte) : Nat :=
  (List.range 8).foldl (fun r _ => crcBitR poly r) (r ^^^ b.toNat)

/-- One bit of a CRC of `w` bits that shifts left. -/
def crcBitL (w poly r : Nat) : Nat :=
  if r.testBit (w - 1) then ((r <<< 1) % 2 ^ w) ^^^ poly else (r <<< 1) % 2 ^ w

/-- One byte of a CRC of `w` bits that shifts left. -/
def crcByteL (w poly : Nat) (r : Nat) (b : Byte) : Nat :=
  (List.range 8).foldl (fun r _ => crcBitL w poly r) (r ^^^ (b.toNat <<< (w - 8)))

/-- The parameters of a check-value algorithm (R458): width, polynomial as the register uses it, Init,
whether it is reflected, final xor. -/
def crcParams (alg : Nat) : Nat × Nat × Nat × Bool × Nat :=
  match alg with
  | 0 => (32, 0x82F63B78, 0xFFFFFFFF, true, 0xFFFFFFFF)
  | 1 => (32, 0xEDB88320, 0xFFFFFFFF, true, 0xFFFFFFFF)
  | 2 => (64, 0x42F0E1EBA9EA3693, 0, false, 0)
  | _ => (16, 0x1021, 0xFFFF, false, 0)

/-- The running value after more bytes (R458). -/
def crcFeed (alg r : Nat) (b : Bytes) : Nat :=
  let q := crcParams alg
  if q.2.2.2.1 then b.foldl (crcByteR q.2.1) r else b.foldl (crcByteL q.1 q.2.1) r

/-- The finished value of a running value (R458, R459). -/
def crcFinish (alg r : Nat) : Nat := r ^^^ (crcParams alg).2.2.2.2

/-- CRC-32C with the parameters of R150 and R458. -/
def crc32c (b : Bytes) : Nat := crcFinish 0 (crcFeed 0 (crcParams 0).2.2.1 b)

/-! ### AES-256-GCM -/

/-- Multiply by x in the field of AES. -/
def xtime (a : Nat) : Nat := if a < 128 then 2 * a else (2 * a % 256) ^^^ 0x1B

/-- The product in the field of AES. -/
def aesMul (a b : Nat) : Nat :=
  ((List.range 8).foldl (fun (s : Nat × Nat) i => (if b.testBit i then s.1 ^^^ s.2 else s.1, xtime s.2)) (0, a)).1

/-- The inverse in the field of AES: the 254th power; 0 for 0. -/
def aesInv (a : Nat) : Nat :=
  let a2 := aesMul a a
  let a4 := aesMul a2 a2
  let a8 := aesMul a4 a4
  let a16 := aesMul a8 a8
  let a32 := aesMul a16 a16
  let a64 := aesMul a32 a32
  let a128 := aesMul a64 a64
  aesMul a2 (aesMul a4 (aesMul a8 (aesMul a16 (aesMul a32 (aesMul a64 a128)))))

/-- The substitution of AES. -/
def aesSub (a : Nat) : Nat :=
  let b := aesInv a
  let rot (n : Nat) := ((b <<< n) ||| (b >>> (8 - n))) % 256
  b ^^^ rot 1 ^^^ rot 2 ^^^ rot 3 ^^^ rot 4 ^^^ 0x63

/-- The key schedule of AES-256, newest word first, grown to `n` more words; `i` counts words so far. -/
def aesExpand : Nat → Nat → Nat → List (List Nat) → List (List Nat)
  | 0, _, _, w => w
  | n + 1, i, rc, w =>
    let t := w.getD 0 []
    let t' :=
      if i % 8 = 0 then
        let r := (t.drop 1 ++ t.take 1).map aesSub
        (r.take 1).map (fun x => x ^^^ rc) ++ r.drop 1
      else if i % 8 = 4 then t.map aesSub
      else t
    let nw := ((w.getD 7 []).zip t').map fun p => p.1 ^^^ p.2
    aesExpand n (i + 1) (if i % 8 = 0 then xtime rc else rc) (nw :: w)

/-- The 60 round-key words of a 32-byte key. -/
def aesKeys (key : Bytes) : List (List Nat) :=
  let k := key.map (·.toNat)
  let w0 := (List.range 8).map fun i => (k.drop (4 * i)).take 4
  (aesExpand 52 8 1 w0.reverse).reverse

/-- Exclusive or of two runs of bytes. -/
def xorL (a b : List Nat) : List Nat := (a.zip b).map fun p => p.1 ^^^ p.2

/-- The row shift of AES on 16 bytes held column by column. -/
def aesShift (b : List Nat) : List Nat := (List.range 16).map fun i => b.getD ((i + 4 * (i % 4)) % 16) 0

/-- The column mix of AES. -/
def aesMix (b : List Nat) : List Nat :=
  (List.range 16).map fun i =>
    let c := 4 * (i / 4)
    let r := i % 4
    let x (j : Nat) := b.getD (c + (r + j) % 4) 0
    xtime (x 0) ^^^ xtime (x 1) ^^^ x 1 ^^^ x 2 ^^^ x 3

/-- AES-256 of one 16-byte block. -/
def aesBlock (keys : List (List Nat)) (b : List Nat) : List Nat :=
  let rk (r : Nat) := ((keys.drop (4 * r)).take 4).flatten
  let s := (List.range 13).foldl (fun s r => xorL (aesMix (aesShift (s.map aesSub))) (rk (r + 1))) (xorL b (rk 0))
  xorL (aesShift (s.map aesSub)) (rk 14)

/-- The product in the field of GCM, on 128-bit numbers whose bit 127 is the first bit. -/
def gMul (x y : Nat) : Nat :=
  ((List.range 128).foldl
    (fun (s : Nat × Nat) i =>
      (if x.testBit (127 - i) then s.1 ^^^ s.2 else s.1,
       if s.2.testBit 0 then (s.2 / 2) ^^^ (0xE1 <<< 120) else s.2 / 2)) (0, y)).1

/-- The number of 16 bytes, first byte most significant. -/
def beNat (b : List Nat) : Nat := b.foldl (fun a x => 256 * a + x) 0

/-- GHASH over `n` blocks of a padded run of bytes. -/
def gHash (h : Nat) : Nat → List Nat → Nat → Nat
  | 0, _, y => y
  | n + 1, b, y => gHash h n (b.drop 16) (gMul (y ^^^ beNat (b.take 16)) h)

/-- A run of bytes padded with zeros to whole 16-byte blocks. -/
def pad16 (b : List Nat) : List Nat := b ++ List.replicate ((16 - b.length % 16) % 16) 0

/-- A number as `n` bytes, most significant first. -/
def beList (v n : Nat) : List Nat := ((natBytes v n).map (·.toNat)).reverse

/-- Counter-mode key stream from counter `c`, `n` blocks. -/
def ctrStream (keys : List (List Nat)) (iv : List Nat) : Nat → Nat → List Nat
  | 0, _ => []
  | n + 1, c => aesBlock keys (iv ++ beList c 4) ++ ctrStream keys iv n (c + 1)

/-- AES-256-GCM decryption (R357): the plaintext, and whether the tag verifies. -/
def gcmDecrypt (key iv aad ct tag : Bytes) : Bytes × Bool :=
  let keys := aesKeys key
  let ivn := iv.map (·.toNat)
  let c := ct.map (·.toNat)
  let pt := xorL c (ctrStream keys ivn ((c.length + 15) / 16) 2)
  let h := beNat (aesBlock keys (List.replicate 16 0))
  let body := pad16 (aad.map (·.toNat)) ++ pad16 c ++ beList (8 * aad.length) 8 ++ beList (8 * c.length) 8
  let y := gHash h (body.length / 16) body 0
  let t := xorL (beList y 16) (aesBlock keys (ivn ++ beList 1 4))
  (pt.map (BitVec.ofNat 8), decide (t = tag.map (·.toNat)))

end Sys2Proof.Machine
end

