-- ==== Sys2Proof/Machine/Mail.lean ====
section
/-!
DEFINITION. The mailboxes as their receivers see them (R442 to R447), key slots (R361, R369), measurement registers
(R381) and the end of SPDM sessions (R383).
-/

namespace Sys2Proof.Machine

/-! ### Mailboxes -/

/-- The state code of a mailbox (R447). -/
def mbxState (s : State) (sec : Bool) (f : Nat) : Nat := rf s (pgMbx sec) (Reg.MBX_STAT f) 0 3

/-- The 256 bytes of a request. -/
def reqBytes (s : State) (sec : Bool) (f : Nat) : Bytes :=
  (List.range 32).flatMap fun i => wordBytes (rd s (pgMbx sec) (Reg.REQ f i))

/-- CODE of a message (R360). -/
def msgCode (b : Bytes) : Nat := leAt b 0 2

/-- The request that a receiver has taken and not answered, if its CODE is `code`. -/
def takenReq (s : State) (sec : Bool) (f code : Nat) : Option Bytes :=
  if f < 17 ∧ mbxState s sec f = 2 ∧ msgCode (reqBytes s sec f) = code ∧
      (s.mbx.all fun p => !(p.sec = sec && p.fn = f)) ∧ (s.ten.retireWaits.all fun w => !(sec && w.1 + 1 = f)) ∧
      (s.ten.sealing.all fun w => !(sec && w.1 + 1 = f)) then
    some (reqBytes s sec f)
  else none

/-- Answer a request (R360): CODE with bit 15 set, STATUS in byte 2, and the bytes from byte 4 on.  An answer to a request
that has been withdrawn is discarded (R445). -/
def reply (s : State) (sec : Bool) (f code status : Nat) (body : Bytes) : State :=
  if mbxState s sec f = 2 ∧ msgCode (reqBytes s sec f) = code then
    { s with mbx := s.mbx ++
        [⟨sec, f, fitBytes (natBytes (code % 0x8000 + 0x8000) 2 ++ [BitVec.ofNat 8 status, 0] ++ body) 256⟩] }
  else s

/-- The receiver of a mailbox handles the request it has taken; without one nothing happens (log entry 2). -/
def onTaken (s : State) (sec : Bool) (f code : Nat) (k : State → Bytes → State) : State :=
  match takenReq s sec f code with
  | some b => k s b
  | none => s

/-- Words of a mailbox set to zero. -/
def zeroWords (s : State) (p : Nat) (off : Nat → Nat) : State :=
  (List.range 32).foldl (fun s i => wr s p (off i) 0) s

/-- A mailbox returns to IDLE, its request withdrawn and what waits to answer it discarded (R351, R445). -/
def clearMbx (s : State) (sec : Bool) (f : Nat) : State :=
  let p := pgMbx sec
  let s := zeroWords (zeroWords s p (Reg.REQ f)) p (Reg.RESP f)
  let s := wf (wb s p (Reg.MBX_STAT f) 4 false) p (Reg.MBX_STAT f) 0 3 0
  { s with
    mbx := s.mbx.filter fun q => !(q.sec = sec && q.fn = f)
    ten := { s.ten with
      retireWaits := s.ten.retireWaits.filter fun w => !(sec && w.1 + 1 = f) } }

/-! ### SPDM sessions -/

/-- The session of a function, if it is established or being set up. -/
def sessionOf (s : State) (f : Nat) : Option Session := s.sec.sessions.find? fun e => e.fn = f

/-- Every session of a function ends (R351, R376, R383, R389). -/
def endSessions (s : State) (f : Nat) : State :=
  { s with sec := { s.sec with sessions := s.sec.sessions.filter fun e => e.fn ≠ f } }

/-! ### Key slots (R361, R362, R369) -/

/-- STATE of key slot `i` of partition `k`. -/
def keyState (s : State) (k i : Nat) : Nat := rf s (pgPart k) (Reg.KEY_SLOT i) 0 2

/-- The key material of a slot. -/
def keyOf (s : State) (k i : Nat) : Bytes := ((s.ten.keys.find? fun e => e.part = k && e.slot = i).map (·.key)).getD []

/-- Zeroise a slot and mark it FREE (R362), setting KEY_CHANGED where its state changes (R369). -/
def freeKey (s : State) (k i : Nat) : State :=
  let was := keyState s k i
  let s := wr { s with ten := { s.ten with keys := s.ten.keys.filter fun e => !(e.part = k && e.slot = i) } }
    (pgPart k) (Reg.KEY_SLOT i) 0
  if was = 0 then s else raiseEvt s (pgPart k) 7

/-- Zeroise every slot of a partition (R351, R369, R389). -/
def zeroiseKeys (s : State) (k : Nat) : State := (List.range 8).foldl (fun s i => freeKey s k i) s

/-- The LIVE slot that holds (KEY_ID, GEN) (R361). -/
def liveSlot (s : State) (k id gen : Nat) : Option Nat :=
  (List.range 8).find? fun i =>
    let v := rd s (pgPart k) (Reg.KEY_SLOT i)
    decide (fld v 0 2 = 1) && decide (fld v 4 4 = id) && decide (fld v 16 16 = gen)

/-- One descriptor more outstanding on a slot. -/
def bindKey (s : State) (k i : Nat) : State :=
  wf s (pgPart k) (Reg.KEY_SLOT i) 32 16 (rf s (pgPart k) (Reg.KEY_SLOT i) 32 16 + 1)

/-- One descriptor fewer outstanding on a slot (R362). -/
def unbindKey (s : State) (k i : Nat) : State :=
  wf s (pgPart k) (Reg.KEY_SLOT i) 32 16 (rf s (pgPart k) (Reg.KEY_SLOT i) 32 16 - 1)

/-! ### Measurement registers (R381) -/

/-- `EXT_COUNT` of a measurement register. -/
def extCount (s : State) (k m : Nat) : Nat := rf s (pgPart k) (Reg.EXT_COUNT (m / 4)) (16 * (m % 4)) 16

/-- The 64 bytes of a measurement register. -/
def mrBytes (s : State) (k m : Nat) : Bytes := (List.range 8).flatMap fun j => wordBytes (rd s (pgPart k) (Reg.MR m j))

/-- Extend measurement register `m` of partition `k` with a 64-byte value (R381). -/
def extendMr (s : State) (k m : Nat) (v : Bytes) : State :=
  let s := wrWords s (pgPart k) (Reg.MR m 0) (bytesWords (sha512 (mrBytes s k m ++ fitBytes v 64)) 8)
  wf s (pgPart k) (Reg.EXT_COUNT (m / 4)) (16 * (m % 4)) 16 (min (extCount s k m + 1) 0xFFFF)

end Sys2Proof.Machine
end

