-- ==== Sys2Proof/Machine/Lc.lean ====
section
/-!
DEFINITION. Life cycle, counted settings and debug certificates (R48, R49, R394 to R410): the security core's commands in
F0's secure mailbox, and what the ROM does with intents and certificates at a boot.
-/

namespace Sys2Proof.Machine

/-! ### The states (R394, R395) -/

/-- A TEST_UNLOCKED state. -/
def isUnlocked (st : Nat) : Bool := decide (0x10 ≤ st) && decide (st ≤ 0x17)

/-- A state from which an OWNER, or a VENDOR, may send signed commands; the other may then ask for SCRAP alone (R394). -/
def signerOf (st : Nat) : Nat := if st = 0x30 ∨ st = 0x40 then 2 else if st = 0x60 then 0 else 1

/-- SIGNER may send LC_TRANSITION to `target` in state `st` (R394). -/
def mayTransit (st signer target : Nat) : Bool :=
  decide (st ≠ 0x60) &&
    (decide (signer = signerOf st) ||
      (decide (target = 0x60) && (decide (signer = 1) || (decide (signer = 2) && decide (st = 0x50)))))

/-- The issuer of the certificates a state honours (R394); 0 for none. -/
def honours (st : Nat) : Nat :=
  if isUnlocked st ∨ st = 0x50 then 1 else if st = 0x30 ∨ st = 0x40 then 2 else 0

/-- Unlock tokens burnt. -/
def tokensBurnt (s : State) : Nat := popCount s.fuse.tokens 8

/-- A transition of R395 that the conditions of its row allow. -/
def legalTransit (s : State) (st target : Nat) : Bool :=
  let owner := !s.fuse.ownerKeys.isEmpty
  if target = 0x60 then st ≠ 0x60
  else if st = 0 then target = 1
  else if st = 1 then target = 0x20 || (decide (tokensBurnt s < 8) && decide (target = 0x10 + tokensBurnt s))
  else if isUnlocked st then target = 1 || target = 0x20
  else if st = 0x20 then decide (target = 0x30) && owner
  else if st = 0x30 then target = 0x40 || target = 0x50
  else if st = 0x40 then target = 0x30 || target = 0x50
  else if st = 0x50 then decide (target = 0x30) && owner
  else false

/-! ### Signed commands (R397, R398) -/

/-- The public key that SIGNER or ISSUER names; none where no owner key is installed. -/
def keyNamed (s : State) (signer : Nat) : Option Bytes :=
  if signer = 1 then some Config.vendorKey else if signer = 2 then s.fuse.ownerKeys.getLast? else none

/-- The signature of a request verifies: over the digest of bytes 0 to 191, byte 2 taken as zero (R397). -/
def requestSigned (s : State) (b : Bytes) : Bool :=
  match keyNamed s (leAt b 3 1) with
  | some key => edVerify key (sha512 (putBytes (slice b 0 192) 2 [0])) (slice b 192 64)
  | none => false

/-- Every byte of 0 to 191 that is in none of the named fields (first byte, length) is zero. -/
def restZero (b : Bytes) (named : List (Nat × Nat)) : Bool :=
  (List.range 192).all fun i => (named.any fun f => decide (f.1 ≤ i) && decide (i < f.1 + f.2)) || decide (leAt b i 1 = 0)

/-- The fields every signed request has (R397). -/
def headFields : List (Nat × Nat) := [(0, 2), (3, 1), (8, 45)]

/-- The security core ends a command (R360, R410): SEC_LAST, CMD_DONE and the response. -/
def secDone (s : State) (b : Bytes) (status : Nat) (body : Bytes) : State :=
  let code := msgCode b
  let s := wr s pgSec Reg.SEC_LAST (w64 (code + status <<< 16 + (leAt b 3 1) <<< 24))
  reply (raiseEvt s pgSec 0) true 0 code status body

/-- A signed command fails a check of R398: a rejection on the SEC page, and an audit entry. -/
def signedFail (s : State) (b : Bytes) (status : Nat) : State :=
  let s := audit (reject s pgSec) 4 [w64 (msgCode b + (leAt b 3 1) <<< 16 + status <<< 24)]
  secDone s b status []

/-- What R399 and R395 say of one signed command: its named argument fields, whether its arguments meet R399, which SIGNER
may send it, the COUNTER it must carry, and whether it is legal with a count left. -/
structure Rule where
  args : List (Nat × Nat)
  argsOk : Bool
  signer : Nat → Bool
  counter : Nat
  legal : Bool

/-- A signed command (R397 to R399, R455): the checks of R398 in order; the nonce is consumed whatever the outcome. -/
def signed (code : Nat) (rule : State → Bytes → Rule) (k : State → Bytes → State) (s : State) : State :=
  onTaken s true 0 code fun s b =>
    let nonce := s.sec.nonce
    let s := { s with sec := { s.sec with nonce := none } }
    let r := rule s b
    if !(auditRoom s) then secDone (reject s pgSec) b 0x0B []
    else if !(restZero b (headFields ++ r.args) && r.argsOk) then signedFail s b 3
    else if !(r.signer (leAt b 3 1)) then signedFail s b 0xF
    else if leAt b 8 8 ≠ s.fuse.unitId.toNat then signedFail s b 0xF
    else if !(requestSigned s b) then signedFail (countError s pgSec 1 0xF 0 none) b 0xF
    else if nonce ≠ some (slice b 16 32) ∨ leAt b 52 1 ≠ lcState s ∨ leAt b 48 4 ≠ r.counter ∨ r.legal = false then
      signedFail s b 0x0B
    else k s b

/-- SIGNER is OWNER in `own`, or VENDOR in `ven`. -/
def signerIn (s : State) (own ven : Nat → Bool) (signer : Nat) : Bool :=
  let st := lcState s
  (decide (signer = 2) && own st) || (decide (signer = 1) && ven st)

/-- A count is burnt and recorded before the value takes effect (R48, R49): setting, count left, the new value's bytes. -/
def useCount (s : State) (setting left : Nat) (v : Bytes) : State :=
  raiseEvt (audit s 1 (w64 (setting + left <<< 16) :: bytesWords (fitBytes v 32) 4)) pgSec 2

/-- A fuse write, code 2, or a flash write, code 3, of a command failed (R410): it completes with UNCORRECTABLE. -/
def writeFails (s : State) (b : Bytes) (code : Nat) : State := secDone (countError s pgSec code 4 0 none) b 4 []

/-- A counted setting (R48, R49, R400): the value it already holds uses no count and writes no audit entry; otherwise the count
is spent first and the value programmed after it.  Where the fuse write fails it is the value's (DESIGN CHOICE, log entry 63). -/
def setCounted (s : State) (b : Bytes) (same fuseOk : Bool) (count value : State → State) : State :=
  if same then secDone s b 0 []
  else if fuseOk then secDone (value (count s)) b 0 []
  else writeFails (count s) b 2

/-- INSTALL_OWNER_KEY (R399, R400): the key goes to slot n of the n installations used; a slot whose count was spent without its
value stays empty. -/
def execInstallOwnerKey (fuseOk : Bool) (s : State) : Res :=
  .next (signed 0x0303
    (fun s _ => ⟨[(56, 32)], true, signerIn s (fun st => st = 0x30) (fun st => st = 0x20 || st = 0x50), s.fuse.ownerKeyUsed,
      decide (s.fuse.ownerKeyUsed < 4)⟩)
    (fun s b =>
      let key := slice b 56 32
      let n := s.fuse.ownerKeyUsed
      setCounted s b (decide (s.fuse.ownerKeys.getLast? = some key)) fuseOk
        (fun s => useCount { s with fuse := { s.fuse with ownerKeyUsed := n + 1 } } 4 (3 - n) key)
        (fun s => { s with fuse := { s.fuse with
          ownerKeys := s.fuse.ownerKeys ++ List.replicate (n - s.fuse.ownerKeys.length) [] ++ [key] } })) s)

/-- RAISE_SEC_VERSION (R399, R400). -/
def execRaiseSecVersion (fuseOk : Bool) (s : State) : Res :=
  .next (signed 0x0304
    (fun s b => ⟨[(56, 2)], decide (leAt b 56 2 = s.fuse.secVersion + 1) && decide (leAt b 56 2 ≤ s.boot.imageVersion),
      signerIn s (fun st => st = 0x30 || st = 0x40) (fun st => st = 1 || isUnlocked st || st = 0x20 || st = 0x50),
      s.fuse.secVersionUsed, decide (s.fuse.secVersionUsed < 256)⟩)
    (fun s b =>
      let n := s.fuse.secVersionUsed + 1
      setCounted s b false fuseOk
        (fun s => useCount { s with fuse := { s.fuse with secVersionUsed := n } } 2 (256 - n) (slice b 56 2))
        (fun s => { s with fuse := { s.fuse with secVersion := s.fuse.secVersion + 1 } })) s)

/-- OWNER in PROVISIONED or DEPLOYED, VENDOR in RMA (R399). -/
def ownerOrRma (s : State) : Nat → Bool := signerIn s (fun st => st = 0x30 || st = 0x40) (fun st => st = 0x50)

/-- SET_ADMISSION_LIST (R303, R399, R400): the staged list, whose digest is fused and which Tuiner then writes to flash. -/
def execSetAdmissionList (fuseOk flashOk : Bool) (s : State) : Res :=
  .next (signed 0x0305
    (fun s b => ⟨[(56, 1), (64, 64)],
      decide (leAt b 56 1 ≤ 16) && decide (s.sec.stage.length = 128 * leAt b 56 1) &&
        decide (slice b 64 64 = fitBytes (sha512 s.sec.stage) 64),
      ownerOrRma s, s.fuse.admitUsed, decide (s.fuse.admitUsed < 32)⟩)
    (fun s b =>
      let list := s.sec.stage
      let dig := sha512 list
      let s := { s with sec := { s.sec with stage := [] } }
      let n := s.fuse.admitUsed + 1
      let count (s : State) : State := useCount { s with fuse := { s.fuse with admitUsed := n } } 3 (32 - n) dig
      let value (s : State) : State := { s with fuse := { s.fuse with admitDigests := s.fuse.admitDigests ++ [dig] } }
      let same := decide (s.fuse.admitDigests.getLast? = some dig)
      if same || !fuseOk then setCounted s b same fuseOk count value
      else if flashOk then
        let s := value (count s)
        secDone { s with flash := { s.flash with admission := list } } b 0 []
      else writeFails (value (count s)) b 3) s)

/-- SET_GEOMETRY (R399, R400): the mask from the next whole-device reset. -/
def execSetGeometry (fuseOk : Bool) (s : State) : Res :=
  .next (signed 0x0306
    (fun s b => ⟨[(56, 2)], decide (leAt b 56 2 ≠ 0), signerIn s (fun st => st = 0x30) (fun st => st = 0x20),
      s.fuse.geometryUsed, decide (s.fuse.geometryUsed < 64)⟩)
    (fun s b =>
      let n := s.fuse.geometryUsed + 1
      setCounted s b (decide (s.fuse.geometry = leAt b 56 2)) fuseOk
        (fun s => useCount { s with fuse := { s.fuse with geometryUsed := n } } 1 (64 - n) (slice b 56 2))
        (fun s => { s with fuse := { s.fuse with geometry := leAt b 56 2 } })) s)

/-! ### Debug certificates (R404 to R407) -/

/-- A slot loses its certificate, with an audit entry that gives the reason (R396, R406, R407). -/
def dropCert (s : State) (slot reason : Nat) : State :=
  match (s.sec.certs.getD slot none), (s.flash.certs.getD slot none) with
  | none, none => s
  | _, _ =>
    let s := { s with
      sec := { s.sec with certs := s.sec.certs.set slot none }
      flash := { s.flash with certs := s.flash.certs.set slot none } }
    raiseEvt (audit s 8 [w64 (slot + reason <<< 8)]) pgSec 1

/-- A certificate has the layout of R404. -/
def certLaid (c : Bytes) : Bool :=
  let g := leAt c 3 1
  decide (leAt c 0 2 = 1) && decide (1 ≤ g) && decide (g ≤ 32) && decide (c.length = 128 + 8 * g) &&
    ((List.range 44).all fun i => decide (leAt c (20 + i) 1 = 0)) &&
    (List.range g).all fun i =>
      decide (leAt c (64 + 8 * i) 1 ≤ 16) && decide (leAt c (65 + 8 * i) 1 < 4) && decide (leAt c (70 + 8 * i) 2 = 0)

/-- A certificate's signature verifies. -/
def certSigned (s : State) (c : Bytes) : Bool :=
  match keyNamed s (leAt c 2 1) with
  | some key =>
    let n := 64 + 8 * leAt c 3 1
    edVerify key (sha512 (slice c 0 n)) (slice c n 64)
  | none => false

/-- The conditions of R405 that end in ACCESS_DENIED, the signature apart: the unit and the issuer. -/
def certMine (s : State) (c : Bytes) : Bool :=
  decide (leAt c 8 8 = s.fuse.unitId.toNat) && decide (leAt c 2 1 ≠ 0) && decide (leAt c 2 1 = honours (lcState s))

/-- The epoch and the limit of a certificate hold. -/
def certCurrent (s : State) (c : Bytes) : Bool :=
  decide (s.fuse.debugEpoch ≤ leAt c 4 4) && decide (rf s 0 Reg.PWR_CYCLES 0 32 ≤ leAt c 16 4)

/-- An unsigned command of R399: served unless the hub is on the recovery path and the command is not one of those R466
names. -/
def unsigned (s : State) (code : Nat) (recovery : Bool) (k : State → Bytes → State) : State :=
  onTaken s true 0 code fun s b =>
    if !recovery && decide (s.boot.phase = .recovery) then secDone (reject s pgSec) b 0x0B [] else k s b

/-- GET_NONCE (R398). -/
def execGetNonce (s : State) : Res :=
  .next (unsigned s 0x0301 true fun s b =>
    let d := draw s
    let nonce := fitBytes (Config.freeBytes d.1 32) 32
    secDone { d.2 with sec := { d.2.sec with nonce := some nonce } } b 0 (zeroBytes 12 ++ nonce))

/-- STAGE_DATA (R399). -/
def execStageData (s : State) : Res :=
  .next (unsigned s 0x030B true fun s b =>
    let off := leAt b 4 2
    let len := leAt b 6 2
    if off % 8 = 0 ∧ off < 2048 ∧ 1 ≤ len ∧ len ≤ 192 ∧ off + len ≤ 2048 then
      secDone { s with sec := { s.sec with stage := putBytes s.sec.stage off (slice b 8 len) } } b 0 []
    else secDone s b 3 [])

/-- INSTALL_DEBUG_CERT (R399, R405, R410): where the flash write fails the certificate is not installed (DESIGN CHOICE, log entry 63). -/
def execInstallDebugCert (flashOk : Bool) (s : State) : Res :=
  .next (unsigned s 0x0308 false fun s b =>
    let slot := leAt b 56 1
    let c := s.sec.stage
    if !(auditRoom s) then secDone (reject s pgSec) b 0x0B []
    else if 3 < slot ∨ certLaid c = false then secDone s b 3 []
    else if !(certMine s c) then secDone s b 0xF []
    else if !(certSigned s c) then secDone (countError s pgSec 1 0xF 0 none) b 0xF []
    else if !(certCurrent s c) || (s.sec.certs.getD slot none).isSome then secDone (reject s pgSec) b 0x0B []
    else if !flashOk then writeFails { s with sec := { s.sec with stage := [] } } b 3
    else
      let s := { s with
        sec := { s.sec with certs := s.sec.certs.set slot (some c), stage := [] }
        flash := { s.flash with certs := s.flash.certs.set slot (some c) } }
      secDone (updIso (raiseEvt (audit s 7 [certWord (some c)]) pgSec 1)) b 0 [])

/-- REMOVE_DEBUG_CERT (R399, R405, R410): where the flash write fails the slot is free and the saved copy stays (DESIGN CHOICE,
log 63). -/
def execRemoveDebugCert (flashOk : Bool) (s : State) : Res :=
  .next (unsigned s 0x0309 false fun s b =>
    let slot := leAt b 56 1
    if !(auditRoom s) then secDone (reject s pgSec) b 0x0B []
    else if 3 < slot then secDone s b 3 []
    else
      let t := updIso (dropCert s slot 3)
      if flashOk then secDone t b 0 [] else writeFails { t with flash := s.flash } b 3)

/-- Every installed certificate below the fused epoch is dropped (R407). -/
def dropStale (s : State) : State :=
  updIso ((List.range 4).foldl
    (fun s i =>
      match s.sec.certs.getD i none with
      | some c => if leAt c 4 4 < s.fuse.debugEpoch then dropCert s i 1 else s
      | none => s) s)

/-- RAISE_DEBUG_EPOCH (R399, R407): every certificate below the new epoch is dropped. -/
def execRaiseDebugEpoch (fuseOk : Bool) (s : State) : Res :=
  .next (signed 0x0307
    (fun s b => ⟨[(56, 4)], decide (leAt b 56 4 = s.fuse.debugEpoch + 1), ownerOrRma s, s.fuse.debugEpochUsed,
      decide (s.fuse.debugEpochUsed < 64)⟩)
    (fun s b =>
      let n := s.fuse.debugEpochUsed + 1
      setCounted s b false fuseOk
        (fun s => useCount { s with fuse := { s.fuse with debugEpochUsed := n } } 6 (64 - n) (slice b 56 4))
        (fun s => dropStale { s with fuse := { s.fuse with debugEpoch := s.fuse.debugEpoch + 1 } })) s)

/-- The state that a command answers. -/
def nextOf (r : Res) (s : State) : State :=
  match r with
  | .next t => t
  | _ => s

/-- The count of the setting that the security core is changing is spent, and the value is not written (R49). -/
def burnOnly (s : State) : State :=
  let t := [execInstallOwnerKey false, execRaiseSecVersion false, execSetAdmissionList false true, execSetGeometry false,
      execRaiseDebugEpoch false].foldl
    (fun t f => nextOf (f t) t) s
  { s with fuse := { s.fuse with
    ownerKeyUsed := t.fuse.ownerKeyUsed, secVersionUsed := t.fuse.secVersionUsed, admitUsed := t.fuse.admitUsed
    geometryUsed := t.fuse.geometryUsed, debugEpochUsed := t.fuse.debugEpochUsed } }

/-- CLEAR_AUDIT (R399, R455): the entries below UPTO are zeroed and the base moves. -/
def execClearAudit (s : State) : Res :=
  .next (signed 0x030A
    (fun s b =>
      let base := (rd s pgEvr Reg.AUDIT_BASE).toNat
      ⟨[(56, 8)], true, ownerOrRma s, 0, decide (leAt b 60 4 = base) && decide (base < leAt b 56 4) &&
        decide (leAt b 56 4 ≤ (rd s pgEvr Reg.AUDIT_MIRRORED).toNat)⟩)
    (fun s b =>
      let upto := leAt b 56 4
      let old := rd s pgEvr Reg.AUDIT_BASE
      let keep (l : List (Nat × Entry)) : List (Nat × Entry) := l.filter fun e => decide (upto ≤ e.1)
      let s := { s with evr := { s.evr with
        audit := keep s.evr.audit
        mirror := keep s.evr.mirror
        mirrorBase := upto } }
      secDone (audit (wr s pgEvr Reg.AUDIT_BASE (w64 upto)) 0x0B [old, w64 upto]) b 0 []) s)

/-! ### Intent and commit (R401 to R403) -/

/-- The bytes of an intent row that its CRC covers (R401). -/
def intentBytes (pwr : Nat) (req : Bytes) : Bytes := natBytes 0x4C430001 4 ++ natBytes pwr 4 ++ fitBytes req 256

/-- The tag of a request: the first 8 bytes of its digest (R402). -/
def requestTag (req : Bytes) : Bytes := (sha512 (fitBytes req 256)).take 8

/-- A row whose TAG and CRC are correct. -/
def intentWhole (r : Intent) : Bool := decide (r.tag = 0x4C430001) && decide (r.crc = crc32c (intentBytes r.pwrCycles r.request))

/-- A committed row names this request. -/
def committedReq (s : State) (req : Bytes) : Bool := s.fuse.rows.any fun r => r.done && decide (r.tag = requestTag req)

/-- The row the next intent takes: the lowest that is erased, else the lowest whose request is committed, else row 0. -/
def nextIntent (s : State) : Nat :=
  let i := s.flash.intents.findIdx fun r => r.isNone
  if i < 8 then i
  else
    let j := s.flash.intents.findIdx fun r =>
      match r with
      | some r => committedReq s r.request
      | none => false
    if j < 8 then j else 0

/-- LC_TRANSITION (R395, R401, R402): the request waits as an intent for the next reset. -/
def execLcTransition (rowIntact : Bool) (s : State) : Res :=
  .next (signed 0x0302
    (fun s b =>
      let st := lcState s
      let target := leAt b 53 1
      ⟨[(53, 1)], true, fun g => mayTransit st g target, lcNext s,
        legalTransit s st target && !(rb s pgLc Reg.LC_STATE 8) && decide (lcNext s < 48) &&
          (decide (target = 0x60) || decide (lcNext s ≠ 47))⟩)
    (fun s b =>
      let row := nextIntent s
      let pwr := rf s 0 Reg.PWR_CYCLES 0 32
      let crc := crc32c (intentBytes pwr b)
      let s := { s with flash := { s.flash with
        intents := s.flash.intents.set row (some ⟨0x4C430001, pwr, b, if rowIntact then crc else crc ^^^ 1⟩) } }
      if rowIntact then
        let target := leAt b 53 1
        let signer := leAt b 3 1
        let s := wr s pgLc Reg.LC_STATE (w64 (1 <<< 8 + target <<< 16 + signer <<< 24 + row <<< 32))
        secDone (audit (raiseEvt s pgLc 0) 2 [w64 (row + target <<< 8 + signer <<< 16)]) b 0 []
      else writeFails s b 3) s)

/-- The intent the ROM takes (R403): its row number and itself, the highest PWR_CYCLES among the whole rows no DONE row
names. -/
def scanIntents (s : State) : Option (Nat × Intent) :=
  (s.flash.intents.zipIdx.filterMap fun e =>
    match e.1 with
    | some r => if intentWhole r && !(committedReq s r.request) then some (e.2, r) else none
    | none => none).foldl
    (fun best e =>
      match best with
      | some b => if b.2.pwrCycles < e.2.pwrCycles then some e else best
      | none => some e) none

/-- Voiding erases the flash sector of a row. -/
def eraseIntent (s : State) (i : Nat) : State := { s with flash := { s.flash with intents := s.flash.intents.set i none } }

/-- A commit row with nothing burnt. -/
def rowBlank : CommitRow := ⟨0, 0, zeroBytes 8, false, false⟩

/-- A commit row has some bit burnt. -/
def rowBurnt (r : CommitRow) : Bool := decide (r.target ≠ 0) || decide (r.targetN ≠ 0) || r.tag.any fun b => decide (b ≠ 0)

/-- Every burnt bit of a row belongs to the intended pattern. -/
def rowFits (r want : CommitRow) : Bool :=
  decide (r.target &&& want.target = r.target) && decide (r.targetN &&& want.targetN = r.targetN) &&
    (r.tag.zip want.tag).all fun e => decide (e.1 &&& e.2 = e.1)

/-- Commit row `n` becomes `r`; rows below it that do not exist are blank. -/
def putRow (s : State) (n : Nat) (r : CommitRow) : State :=
  let rows := s.fuse.rows ++ List.replicate (n + 1 - s.fuse.rows.length) rowBlank
  { s with fuse := { s.fuse with rows := rows.set n r } }

/-- VOID is burnt on a row (R403, R409). -/
def voidRow (s : State) (n : Nat) : State :=
  let r := s.fuse.rows.getD n rowBlank
  raiseEvt (countError (putRow s n { r with void := true }) pgLc 1 0 0 none) pgLc 2

/-- The intent verifies (R403). -/
def intentHolds (s : State) (r : Intent) : Bool :=
  requestSigned s r.request && decide (leAt r.request 8 8 = s.fuse.unitId.toNat) &&
    decide (leAt r.request 52 1 = lcState s) && decide (leAt r.request 48 4 = lcNext s) &&
    decide (rf s 0 Reg.PWR_CYCLES 0 32 ≤ r.pwrCycles + 1)

/-- ROWS_LOW is recorded when LEFT falls to 4 (R409): `was` is NEXT before the rows were burnt. -/
def rowsLow (was : Nat) (s : State) : State :=
  if was < 44 ∧ 44 ≤ lcNext s then countError s pgLc 3 0 0 none else s

/-- The commit row an intended request burns (R402). -/
def wantedRow (r : Intent) : CommitRow :=
  let target := leAt r.request 53 1
  ⟨target, 255 - target % 256, requestTag r.request, false, true⟩

/-- Token n is burnt for a target of TEST_UNLOCKED_n (R403). -/
def burnToken (s : State) (target : Nat) : State :=
  if isUnlocked target then { s with fuse := { s.fuse with tokens := s.fuse.tokens ||| (1 <<< (target - 0x10)) } } else s

/-- `LC_BOOT` of this boot. -/
def setLcBoot (s : State) (result row : Nat) : State :=
  wr s pgLc Reg.LC_BOOT (w64 (result + row <<< 8 + (rf s 0 Reg.PWR_CYCLES 0 32) <<< 32))

/-- A commit (R396, R402, R403). -/
def commitIntent (s : State) (r : Intent) : State :=
  let target := leAt r.request 53 1
  let want := wantedRow r
  let next := lcNext s
  let have0 := s.fuse.rows.getD next rowBlank
  let fits := rowFits have0 want
  let s := if fits then s else voidRow s next
  let n := if fits then next else next + 1
  let again := fits && rowBurnt have0
  let token := isUnlocked target && s.fuse.tokens.testBit (target - 0x10)
  let s := putRow (burnToken s target) n want
  let s := setLcBoot s (if again || token then 2 else 1) n
  let s := raiseEvt (audit s 3 [rd s pgLc Reg.LC_BOOT]) pgLc 1
  let s := rowsLow next s
  (List.range 4).foldl (fun s i => dropCert s i 4) s

/-- An intent is voided: its sector erased, and VOID burnt on row NEXT if that row holds any burnt bit (R403). -/
def voidIntent (s : State) (i result : Nat) : State :=
  let next := lcNext s
  let s := setLcBoot (eraseIntent s i) result next
  let s := raiseEvt (countError s pgLc 2 0 0 none) pgLc 2
  if rowBurnt (s.fuse.rows.getD next rowBlank) then rowsLow next (voidRow s next) else s

/-- Power fails inside the ROM's commit (R403): VOID is burnt on a row NEXT that does not fit; with `token` the token is burnt
too; and with `bits` those bits of the row's pattern, TARGET lowest, then TARGET_N and TAG. -/
def cutCommit (s : State) (token : Bool) (bits : Nat) : State :=
  match scanIntents s with
  | some (_, r) =>
    if s.boot.phase = .rom ∧ intentHolds s r = true then
      let want := wantedRow r
      let next := lcNext s
      let have0 := s.fuse.rows.getD next rowBlank
      let fits := rowFits have0 want
      let s := if fits then s else voidRow s next
      let s := if token then burnToken s want.target else s
      if bits = 0 then s
      else
        let have1 := if fits then have0 else rowBlank
        putRow s (if fits then next else next + 1)
          { have1 with
            target := have1.target ||| (want.target &&& bits)
            targetN := have1.targetN ||| (want.targetN &&& (bits >>> 8))
            tag := (want.tag.zip have1.tag).zipIdx.map fun e =>
              e.1.2 ||| (e.1.1 &&& BitVec.ofNat 8 (bits >>> (16 + 8 * e.2))) }
    else s
  | none => s

/-- The ROM's intent scan and commit (R403): partial rows are erased; the intent taken commits or is voided. -/
def intentScan (s : State) : State :=
  let s := setLcBoot (wr s pgLc Reg.LC_STATE 0) 0 0
  let s := (List.range 8).foldl
    (fun s i =>
      match s.flash.intents.getD i none with
      | some r => if intentWhole r then s else voidIntent s i 4
      | none => s) s
  match scanIntents s with
  | none => s
  | some (i, r) => if intentHolds s r then commitIntent s r else voidIntent s i 3

/-- The certificates saved in flash, verified afresh (R406). -/
def checkCerts (s : State) : State :=
  updIso ((List.range 4).foldl
    (fun s i =>
      match s.flash.certs.getD i none with
      | some c =>
        if certLaid c && certMine s c && certSigned s c && certCurrent s c then
          { s with sec := { s.sec with certs := s.sec.certs.set i (some c) } }
        else dropCert s i 2
      | none => s) s)

end Sys2Proof.Machine
end

