-- ==== Sys2Proof/Machine/Cvu.lean ====
section
/-!
DEFINITION. The check-value units (R458 to R462).
-/

namespace Sys2Proof.Machine

/-- ALG of a unit (R462). -/
def cvuAlg (s : State) (u : Nat) : Nat := rf s (pgCvu u) Reg.CVU_CFG 0 2

/-- A block is open in a unit. -/
def cvuIsOpen (s : State) (u : Nat) : Bool := rb s (pgCvu u) Reg.CVU_STAT 8

/-- Feed bytes to a unit's running value (R458). -/
def cvuBytes (s : State) (u : Nat) (b : Bytes) : State :=
  wr s (pgCvu u) Reg.CVU_RUN (w64 (crcFeed (cvuAlg s u) (rd s (pgCvu u) Reg.CVU_RUN).toNat b))

/-- Begin a block (R459): Init, and the alive counter first where ALIVE_EN is set. -/
def cvuBegin (s : State) (u : Nat) : State :=
  let p := pgCvu u
  let s := wb (wr s p Reg.CVU_RUN (w64 (crcParams (cvuAlg s u)).2.2.1)) p Reg.CVU_STAT 8 true
  if rb s p Reg.CVU_CFG 5 then cvuBytes s u [BitVec.ofNat 8 (rf s p Reg.CVU_ALIVE 0 8)] else s

/-- The finished value of the running block (R458). -/
def cvuFinal (s : State) (u : Nat) : Nat := crcFinish (cvuAlg s u) (rd s (pgCvu u) Reg.CVU_RUN).toNat

/-- End a block (R459): the finished value stands in `CVU_RUN`; a match advances the alive counter, a mismatch holds it
and is counted; `res` none closes without a comparison, and advances the counter (log entry 52). -/
def cvuEnd (s : State) (u : Nat) (res : Option Bool) : State :=
  let p := pgCvu u
  let s := wr s p Reg.CVU_RUN (w64 (cvuFinal s u))
  let s := raiseEvt (addReg (wb s p Reg.CVU_STAT 8 false) p Reg.CVU_BLOCKS 1) p 1
  let s := match res with
    | none => s
    | some b => wf s p Reg.CVU_STAT 0 2 (if b then 1 else 2)
  if res = some false then raiseEvt (addReg s p Reg.CVU_MISMATCHES 1) p 0
  else wf s p Reg.CVU_ALIVE 0 8 (rf s p Reg.CVU_ALIVE 0 8 + 1)

/-- CVU_OPEN (R459, R462): legal with PATH 0. -/
def execCvuOpen (fn u : Nat) (s : State) : Res :=
  .next (if 8 ≤ u then s else withWrite s fn (pgCvu u) Reg.CVU_CMD fun s =>
    guarded s (pgCvu u) (!(rb s (pgCvu u) Reg.CVU_CFG 4)) fun s => cvuBegin s u)

/-- CVU_CLOSE (R459, R462): compares with `CVU_EXPECT`; rejected with PATH 1 or without an open block. -/
def execCvuClose (fn u : Nat) (s : State) : Res :=
  .next (if 8 ≤ u then s else withWrite s fn (pgCvu u) Reg.CVU_CMD fun s =>
    guarded s (pgCvu u) (!(rb s (pgCvu u) Reg.CVU_CFG 4) && cvuIsOpen s u) fun s =>
      cvuEnd s u (some (decide (w64 (cvuFinal s u) = rd s (pgCvu u) Reg.CVU_EXPECT))))

/-- CVU_FEED (R460, R462): GO feeds the low BYTES bytes of `CVU_DATA`, 1 to 8, byte 0 first. -/
def execCvuFeed (fn u : Nat) (v : Word) (s : State) : Res :=
  .next (if 8 ≤ u then s else withWrite s fn (pgCvu u) Reg.CVU_FEED fun s =>
    if bit v 63 then
      let n := fld v 0 4
      guarded s (pgCvu u) (!(rb s (pgCvu u) Reg.CVU_CFG 4) && cvuIsOpen s u && decide (1 ≤ n) && decide (n ≤ 8))
        fun s => cvuBytes s u ((wordBytes (rd s (pgCvu u) Reg.CVU_DATA)).take n)
    else s)

/-- CVU_ASSIGN (R461): the OPERATOR assigns a unit while no block is open; the page's `OWNER` follows. -/
def execCvuAssign (fn u : Nat) (v : Word) (s : State) : Res :=
  .next (if 8 ≤ u then s else withOperator s fn (pgCvu u) Reg.CVU_ASSIGN fun s =>
    let f := fld v 0 5
    let ok := !(cvuIsOpen s u) && (!(bit v 7) || decide (f ≤ 16))
    guarded s (pgCvu u) ok fun s =>
      updWire (wr (wr s (pgCvu u) Reg.CVU_ASSIGN (v &&& 0x9F)) (pgCvu u) Reg.OWNER
        (w64 (if bit v 7 ∧ f ≠ 0 then f - 1 else 0xFF))))

/-- CVU_RUN_WRITE (R461): `CVU_RUN` or `CVU_ALIVE`, while no block is open. -/
def execCvuRunWrite (fn u : Nat) (alive : Bool) (v : Word) (s : State) : Res :=
  .next (if 8 ≤ u then s else
    withWrite s fn (pgCvu u) (if alive then Reg.CVU_ALIVE else Reg.CVU_RUN) fun s =>
      guarded s (pgCvu u) (!(cvuIsOpen s u)) fun s =>
        if alive then wr s (pgCvu u) Reg.CVU_ALIVE (v &&& 0xFF) else wr s (pgCvu u) Reg.CVU_RUN v)

/-! ### Units bound to a DMA channel (R460) -/

/-- The unit bound to channel `c` of function `f`: in service, assigned to the same function, with PATH 1. -/
def cvuFor (s : State) (c f : Nat) : Option Nat :=
  (List.range 8).find? fun u =>
    let cfg := rd s (pgCvu u) Reg.CVU_CFG
    decide (pageState s (pgCvu u) = 3) && rb s (pgCvu u) Reg.CVU_ASSIGN 7 &&
      decide (rf s (pgCvu u) Reg.CVU_ASSIGN 0 5 = f) && bit cfg 4 && decide (fld cfg 8 5 = c)

/-- The bytes of a trailer: 12 for CRC-64, else 8 (R460). -/
def trailerLen (s : State) (u : Nat) : Nat := if cvuAlg s u = 2 then 12 else 8

/-- The trailer a unit gives a block that is not closed yet (R460): byte 0 holds ALIVE, the value follows from byte
4. -/
def trailer (s : State) (u : Nat) : Bytes :=
  fitBytes (natBytes (rf s (pgCvu u) Reg.CVU_ALIVE 0 8) 4 ++ natBytes (cvuFinal s u) ((crcParams (cvuAlg s u)).1 / 8))
    (trailerLen s u)

/-- A bound descriptor ends without its block being compared: the block is closed and not counted. -/
def cvuDrop (s : State) (u : Nat) : State := wb s (pgCvu u) Reg.CVU_STAT 8 false

end Sys2Proof.Machine
end

