-- ==== Sys2Proof/Machine/Dma.lean ====
section
/-!
DEFINITION. The DMA channels (R352 to R365, R460): descriptors taken from the ring in host memory, moved in bursts of
up to 4 KiB, and completed by a record.
-/

namespace Sys2Proof.Machine

/-! ### A channel -/

/-- A channel's record. -/
def chanOf (s : State) (c : Nat) : Chan := s.chans.getD c chanReset

/-- Replace a channel's record. -/
def setChan (s : State) (c : Nat) (ch : Chan) : State := { s with chans := s.chans.set c ch }

/-- The function channel `c` is assigned to (R352). -/
def chanFn (s : State) (c : Nat) : Option Nat :=
  let v := rd s pgPcie (Reg.DMA_ASSIGN c)
  if bit v 7 then some (fld v 0 5) else none

/-- `DMA_RCFG.LOG2_SIZE`. -/
def dmaLog (s : State) (c : Nat) : Nat := rf s (pgDma c) Reg.DMA_RCFG 0 5

/-- `DMA_HEAD.HEAD`: the next SEQ to start. -/
def dmaHead (s : State) (c : Nat) : Nat := rf s (pgDma c) Reg.DMA_HEAD 0 32

/-- `DMA_HEAD.DONE`: records written, which is the first SEQ without one. -/
def dmaDone (s : State) (c : Nat) : Nat := rf s (pgDma c) Reg.DMA_HEAD 32 32

/-- OP of a DMA descriptor. -/
def mOp (w : List Word) : Nat := fld (dw w 0) 0 4
/-- IRQ. -/
def mIrq (w : List Word) : Bool := bit (dw w 0) 5
/-- DECRYPT. -/
def mDecrypt (w : List Word) : Bool := bit (dw w 0) 6
/-- HASH. -/
def mHash (w : List Word) : Bool := bit (dw w 0) 7
/-- HASH_START. -/
def mHashStart (w : List Word) : Bool := bit (dw w 0) 8
/-- HASH_END. -/
def mHashEnd (w : List Word) : Bool := bit (dw w 0) 9
/-- MR. -/
def mMr (w : List Word) : Nat := fld (dw w 0) 10 5
/-- CONTEXT, where CTX_VALID. -/
def mCtx (w : List Word) : Option Nat := if bit (dw w 0) 44 then some (fld (dw w 0) 32 12) else none
/-- HINT. -/
def mHint (w : List Word) : Nat := fld (dw w 0) 45 4
/-- KEY_ID. -/
def mKeyId (w : List Word) : Nat := fld (dw w 0) 49 4
/-- HOST_ADDR. -/
def mHost (w : List Word) : Nat := (dw w 1).toNat
/-- DEV_ADDR. -/
def mDev (w : List Word) : Nat := fld (dw w 2) 0 52
/-- LEN. -/
def mLen (w : List Word) : Nat := fld (dw w 3) 0 32
/-- GEN. -/
def mGen (w : List Word) : Nat := fld (dw w 3) 32 16
/-- IV: 96 bits, byte 0 in W4 [7:0]. -/
def mIv (w : List Word) : Bytes := wordBytes (dw w 4) ++ (wordBytes (dw w 5)).take 4
/-- Bytes that a descriptor moves: 8 for IMM. -/
def mBytes (w : List Word) : Nat := if mOp w = 3 then 8 else mLen w

/-- The additional authenticated data of a descriptor (R357). -/
def mAad (w : List Word) : Bytes :=
  natBytes (mDev w) 8 ++ natBytes (mLen w) 4 ++ natBytes (mGen w) 2 ++ natBytes (mKeyId w) 1 ++ [0]

/-- A reserved bit of a descriptor is set (R355, R358). -/
def mReserved (w : List Word) : Bool :=
  !(decide (fld (dw w 0) 15 1 = 0) && decide (fld (dw w 0) 53 11 = 0) && decide (fld (dw w 2) 52 12 = 0) &&
    decide (fld (dw w 3) 48 16 = 0) && decide (fld (dw w 5) 32 32 = 0) && decide (dw w 7 = 0))

/-- The check of a descriptor before any request (R358): the DETAIL, 0 where it passes. -/
def dmaCheck (ch : Chan) (f : Nat) (w : List Word) : Nat :=
  let op := mOp w
  if !(op = 1 || op = 2 || op = 3) then 1
  else if (mDecrypt w || mHash w) && !(op = 1) || mDecrypt w && f = 0 || mReserved w then 2
  else if !(op = 3) && (mLen w < 4 || 2 ^ 26 < mLen w || mLen w % 4 ≠ 0) || mHost w % 4 ≠ 0 ||
      mDev w % (if op = 3 then 8 else 4) ≠ 0 then 3
  else if (mHashStart w || mHashEnd w) && !(mHash w) || mHash w && !(mHashStart w) && ch.digest.isNone then 5
  else 0

/-- Channel `c` may start a descriptor (R349, R351, R353, R354, R363): in service and not quiescing, assigned to a
function in D0 with the link up, its partition not under scrub or reset, with a descriptor announced. -/
def chanGo (s : State) (c : Nat) : Bool :=
  match chanFn s c with
  | none => false
  | some f =>
    decide (pageState s (pgDma c) = 3) && !(rb s (pgDma c) Reg.PAGE_CTL 1) && barOpen s f &&
      s.err.resetting.isNone && decide (6 ≤ dmaLog s c) && decide (dmaLog s c ≤ 16) &&
      (decide (f = 0) || !(partState s (f - 1) = 1 || partState s (f - 1) = 6)) &&
      (let d := (rf s (pgDma c) Reg.DMA_TAIL 0 32 + 2 ^ 32 - dmaHead s c) % 2 ^ 32
       decide (0 < d) && decide (d < 2 ^ 31))

/-- The descriptor at HEAD, from host memory. -/
def dmaFetch (s : State) (c : Nat) : List Word :=
  bytesWords (readHost s ((rd s (pgDma c) Reg.DMA_RING).toNat / 64 * 64 + 64 * (dmaHead s c % 2 ^ dmaLog s c)) 64) 8

/-- A context the descriptor names is dead (R364). -/
def mDead (s : State) (w : List Word) : Bool :=
  match mCtx w with
  | some x => ctxDead s (x / 256) (x % 256)
  | none => false

/-! ### Completion (R356, R359, R363) -/

/-- Close the digest of a HASH_END descriptor that completed with OK, extending the measurement register of the
channel's partition (R359, R381). -/
def closeDigest (s : State) (c f seq : Nat) (w : List Word) (text : Bytes) : State :=
  let d := sha512 text
  let s := wrWords s (pgDma c) (Reg.DMA_DIGEST 0) (bytesWords d 8)
  let s := wr s (pgDma c) Reg.DMA_DIGEST_SEQ (w64 seq ||| bitW 63)
  if f ≠ 0 ∧ partLive s (f - 1) then raiseEvt (extendMr s (f - 1) (mMr w) d) (pgDma c) 3 else s

/-- The running digest after a descriptor (R359): a HASH descriptor that did not complete with OK discards it. -/
def digestAfter (s : State) (c f seq status : Nat) (w : List Word) (plain : Bytes) : State :=
  let ch := chanOf s c
  if !(mHash w) then s
  else if status ≠ 0 then setChan s c { ch with digest := none }
  else
    let text := ch.digest.getD [] ++ plain
    if mHashEnd w then closeDigest (setChan s c { ch with digest := none }) c f seq w text
    else setChan s c { ch with digest := some text }

/-- The statuses after which a channel is in FAULT (R363): permission, uncorrectable data, timeout, access denied. -/
def dmaHalts (status : Nat) : Bool := status = 2 || status = 4 || status = 5 || status = 0xF

/-- Words of a DMA completion record (R356). -/
def dmaRecord (s : State) (c seq : Nat) (w : List Word) (status detail page bytes : Nat) : List Word :=
  [ w64 (status + detail <<< 8 + fld (dw w 0) 16 16 <<< 16 + fld (dw w 0) 32 12 <<< 32 +
      (if seq.testBit (dmaLog s c) then 0 else 1) <<< 44 + c <<< 48 + mOp w <<< 56),
    w64 (seq % 2 ^ 32), w64 (page % 2 ^ 52), w64 (bytes % 2 ^ 32), 0, 0, 0, 0 ]

/-- Complete the descriptor in progress (R356, R359, R361 to R364, R420): the record is written, DONE rises, the key slot
is let go, the context counts one fewer; a status that halts puts the channel in FAULT with the page's error `code`. -/
def dmaEnd (s : State) (c status detail page bytes code : Nat) (plain : Bytes) : State :=
  let ch := chanOf s c
  let f := (chanFn s c).getD 0
  let p := pgDma c
  match ch.cur with
  | none => s
  | some (seq, w) =>
    let s := writeHost s ((rd s p Reg.DMA_CPL).toNat / 64 * 64 + 64 * (seq % 2 ^ dmaLog s c))
      ((dmaRecord s c seq w status detail page bytes).flatMap wordBytes)
    let s := addReg s pgPcie Reg.TX_BYTES 64
    let s := wf (addReg s p Reg.DESC_DONE 1) p Reg.DMA_HEAD 32 32 (seq + 1)
    let s := setChan s c { chanReset with digest := ch.digest }
    let s := match ch.bound with
      | some i => unbindKey s (f - 1) i
      | none => s
    let s := match mCtx w with
      | some x => outDown s (x / 256) (x % 256) 1
      | none => s
    let s := match cvuFor s c f with
      | some u => if cvuIsOpen s u && !(mDecrypt w) && !(mOp w = 3) then cvuDrop s u else s
      | none => s
    let s := digestAfter s c f seq status w plain
    let s := if mIrq w && rb s p Reg.DMA_CFG 12 then raiseEvt s p 0 else s
    if dmaHalts status then
      let s := raiseEvt (setState s p 5) p 1
      countError s p code status (if rf s p Reg.OWNER 0 8 = 0xFF then 3 else 1) (mCtx w)
    else s

/-! ### Device accesses -/

/-- The requester index of channel `c` (R166). -/
def chanReq (c : Nat) : Nat := 132 + c

/-- The tile of a burst (R178, R179): operand 5. -/
def burstTile (va n : Nat) : Tile := ⟨va, 0, 1, n, 5⟩

/-- Read a burst of device memory: through the manifest of the function's partition, or physical for F0 (R353,
R354). -/
def dmaRead (s : State) (c f dev n : Nat) : Except Stop Bytes × State :=
  if f = 0 then
    match devRead s 16 (chanReq c) (dev % 2 ^ 46) n with
    | (some b, s) => (.ok b, s)
    | (none, s) => (.error .ue, s)
  else
    match readTile s (f - 1) (chanReq c) (burstTile dev n) with
    | (.ok rows, s) => (.ok rows.flatten, s)
    | (.error e, s) => (.error e, s)

/-- Write a burst of device memory (R353, R354). -/
def dmaWrite (s : State) (c f dev hint : Nat) (b : Bytes) : Except Stop Unit × State :=
  if f = 0 then
    let r := devWrite s 16 (chanReq c) (dev % 2 ^ 46) b
    (if r.1 then .ok () else .error .ue, r.2)
  else writeTile s (f - 1) (chanReq c) hint (burstTile dev b.length) [b]

/-- The checks of an F0 access (R354): ACCESS_DENIED at a reserved address or in a SEALED partition, PARTNER_RESET in
one that is OFF, SCRUBBING or RESETTING; 0 where it passes. -/
def physStatus (s : State) (a n : Nat) : Nat :=
  let st (x : Nat) : Nat := match partOfAddr x with
    | none => 0xF
    | some k => if sealedNow s k then 0xF
      else if partState s k = 0 ∨ partState s k = 1 ∨ partState s k = 6 then 0xD else 0
  if st a ≠ 0 then st a else st (a + n - 1)

/-- A burst's access stops (R363): held on a page software may map, else the descriptor fails. -/
def dmaStop (s : State) (c f va n : Nat) (write : Bool) (e : Stop) : State :=
  let ch := chanOf s c
  match e, ch.cur with
  | .ue, _ => dmaEnd s c 4 0 0 ch.moved 2 []
  | .fault page kind level, some (seq, w) =>
    let i : FaultInfo :=
      ⟨f - 1, chanReq c, page, level, kind, write, 0, mOp w, 5, seq, va, 0, 1, n⟩
    if kind = 1 then
      let s := raiseEvt s (pgDma c) 2
      match recordFault s i with
      | (some id, s) => setChan s c { chanOf s c with held := some id }
      | (none, s) => setChan s c { chanOf s c with waiting := true }
    else
      match recordFault s i with
      | (some _, s) => if kind = 9 then dmaEnd s c 4 0 0 ch.moved 2 [] else dmaEnd s c 2 0 page ch.moved 1 []
      | (none, s) => setChan s c { chanOf s c with waiting := true }
  | .fault _ _ _, none => s

/-! ### Bursts -/

/-- The bytes of the next burst: to the end, but within 4 KiB of device addresses (R363). -/
def burstLen (w : List Word) (moved : Nat) : Nat := min (mBytes w - moved) (4096 - (mDev w + moved) % 4096)

/-- The host data of a descriptor as plaintext: decrypted under the bound slot (R357), or as it came. -/
def plainOf (s : State) (f : Nat) (ch : Chan) (w : List Word) (text : Bytes) : Bytes :=
  match ch.bound with
  | some i => (gcmDecrypt (keyOf s (f - 1) i) (mIv w) [] text []).1
  | none => text

/-- Feed a burst to the check-value unit bound to the channel (R460). -/
def burstCvu (s : State) (c f : Nat) (w : List Word) (b : Bytes) : State :=
  match cvuFor s c f with
  | some u => if !(mDecrypt w) && cvuIsOpen s u then cvuBytes s u b else s
  | none => s

/-- Move at most `n` bursts of an H2D descriptor: whether all of LEN is moved; where it is not, the descriptor is held,
complete, or short of bursts. -/
def h2dBursts : Nat → State → Nat → Nat → Nat → List Word → Bool × State
  | 0, s, c, _, _, w => (decide (mLen w ≤ (chanOf s c).moved) && (chanOf s c).cur.isSome, s)
  | n + 1, s, c, f, seq, w =>
    let ch := chanOf s c
    let len := burstLen w ch.moved
    if mLen w ≤ ch.moved then (true, s)
    else
      let want := ch.moved + len - ch.text.length
      let text := ch.text ++ readHost s (mHost w + ch.text.length) want
      let s := setChan (addReg s pgPcie Reg.RX_BYTES want) c { ch with text := text }
      let b := slice (plainOf s f ch w text) ch.moved len
      match dmaWrite s c f (mDev w + ch.moved) (mHint w) b with
      | (.error e, s) => (false, dmaStop s c f (mDev w + ch.moved) len true e)
      | (.ok (), s) =>
        let s := burstCvu (addReg s (pgDma c) Reg.H2D_BYTES len) c f w b
        h2dBursts n (setChan s c { chanOf s c with moved := ch.moved + len }) c f seq w

/-- Move at most `n` bursts of a D2H descriptor. -/
def d2hBursts : Nat → State → Nat → Nat → Nat → List Word → Bool × State
  | 0, s, c, _, _, w => (decide (mLen w ≤ (chanOf s c).moved) && (chanOf s c).cur.isSome, s)
  | n + 1, s, c, f, seq, w =>
    let ch := chanOf s c
    let len := burstLen w ch.moved
    if mLen w ≤ ch.moved then (true, s)
    else
      match dmaRead s c f (mDev w + ch.moved) len with
      | (.error e, s) => (false, dmaStop s c f (mDev w + ch.moved) len false e)
      | (.ok b, s) =>
        let s := addReg (writeHost s (mHost w + ch.moved) b) pgPcie Reg.TX_BYTES len
        let s := burstCvu (addReg s (pgDma c) Reg.D2H_BYTES len) c f w b
        d2hBursts n (setChan s c { chanOf s c with moved := ch.moved + len }) c f seq w

/-- Overwrite the whole destination of an H2D descriptor with zeros (R357, R460), `n` bursts from `off`. -/
def zeroDest : Nat → State → Nat → Nat → List Word → Nat → State
  | 0, s, _, _, _, _ => s
  | n + 1, s, c, f, w, off =>
    if mLen w ≤ off then s
    else
      let len := burstLen w off
      zeroDest n (dmaWrite s c f (mDev w + off) 0 (zeroBytes len)).2 c f w (off + len)

/-- Bursts that are left once `moved` bytes have moved. -/
def burstsLeft (w : List Word) (moved : Nat) : Nat := ((mDev w + moved) % 4096 + (mLen w - moved) + 4095) / 4096

/-- Bursts that any descriptor needs, at most. -/
def burstMax (w : List Word) : Nat := mLen w / 4096 + 2

/-- An H2D descriptor whose data has all arrived: the tag (R357) or the trailer (R460) is checked, then it completes. -/
def h2dFinish (s : State) (c f : Nat) (w : List Word) : State :=
  let ch := chanOf s c
  let plain := plainOf s f ch w ch.text
  match ch.bound with
  | some i =>
    let tag := readHost s (mHost w + mLen w) 16
    let s := addReg s pgPcie Reg.RX_BYTES 16
    if (gcmDecrypt (keyOf s (f - 1) i) (mIv w) (mAad w) ch.text tag).2 then dmaEnd s c 0 0 0 (mLen w) 0 plain
    else dmaEnd (addReg (zeroDest (burstMax w) s c f w 0) (pgDma c) Reg.GCM_FAIL 1) c 3 4 0 0 0 []
  | none =>
    match cvuFor s c f with
    | some u =>
      if cvuIsOpen s u then
        let t := readHost s (mHost w + mLen w) (trailerLen s u)
        let s := addReg s pgPcie Reg.RX_BYTES (trailerLen s u)
        if t = trailer s u then dmaEnd (cvuEnd s u (some true)) c 0 0 0 (mLen w) 0 plain
        else dmaEnd (zeroDest (burstMax w) (cvuEnd s u (some false)) c f w 0) c 3 6 0 0 0 []
      else dmaEnd s c 0 0 0 (mLen w) 0 plain
    | none => dmaEnd s c 0 0 0 (mLen w) 0 plain

/-- A D2H descriptor whose data has all been written: a bound unit's trailer follows it (R460), then it completes. -/
def d2hFinish (s : State) (c f : Nat) (w : List Word) : State :=
  match cvuFor s c f with
  | some u =>
    if cvuIsOpen s u then
      let s := addReg (writeHost s (mHost w + mLen w) (trailer s u)) pgPcie Reg.TX_BYTES (trailerLen s u)
      dmaEnd (cvuEnd s u none) c 0 0 0 (mLen w) 0 []
    else dmaEnd s c 0 0 0 (mLen w) 0 []
  | none => dmaEnd s c 0 0 0 (mLen w) 0 []

/-- Move what is left of the descriptor in progress, at most `n` bursts of it. -/
def dmaMove (s : State) (c f n : Nat) : State :=
  match (chanOf s c).cur with
  | none => s
  | some (seq, w) =>
    if mOp w = 1 then
      let r := h2dBursts n s c f seq w
      if r.1 then h2dFinish r.2 c f w else r.2
    else if mOp w = 2 then
      let r := d2hBursts n s c f seq w
      if r.1 then d2hFinish r.2 c f w else r.2
    else
      match dmaWrite s c f (mDev w) (mHint w) (wordBytes (dw w 6)) with
      | (.ok (), s) => dmaEnd (addReg s (pgDma c) Reg.H2D_BYTES 8) c 0 0 0 8 0 []
      | (.error e, s) => dmaStop s c f (mDev w) 8 true e

/-! ### Start and resumption -/

/-- Take the descriptor at HEAD (R354, R357, R358, R361, R364, R420): it counts at its context, and completes at once
where its context is dead, a check fails, an F0 access is refused, or no LIVE slot holds its key.  The answer says
whether it goes on. -/
def dmaTake (s : State) (c f : Nat) (w : List Word) : Bool × State :=
  let seq := dmaHead s c
  let ch := chanOf s c
  let s := wf (addReg s pgPcie Reg.RX_BYTES 64) (pgDma c) Reg.DMA_HEAD 0 32 (seq + 1)
  let s := setChan s c { chanReset with digest := ch.digest, cur := some (seq, w) }
  let s := match mCtx w with
    | some x => outUp s (x / 256) (x % 256)
    | none => s
  let d := dmaCheck ch f w
  if mDead s w then (false, dmaEnd s c 0xE 0 0 0 0 [])
  else if d ≠ 0 then (false, dmaEnd s c 3 d 0 0 0 [])
  else
    let ps := if f = 0 then physStatus s (mDev w % 2 ^ 46) (mBytes w) else 0
    if ps ≠ 0 then (false, dmaEnd s c ps 0 0 0 1 [])
    else
      let s := if mHashStart w then setChan s c { chanOf s c with digest := some [] } else s
      if mDecrypt w then
        match liveSlot s (f - 1) (mKeyId w) (mGen w) with
        | none => (false, dmaEnd s c 0xC 0 0 0 0 [])
        | some i => (true, bindKey (setChan s c { chanOf s c with bound := some i }) (f - 1) i)
      else
        (true, match cvuFor s c f with
          | some u => if mOp w = 3 then s else cvuBegin s u
          | none => s)

/-- The operation a command names is the descriptor's, or the descriptor's is none of R355. -/
def opIs (w : List Word) (op : Nat) : Bool := mOp w = op || !(mOp w = 1 || mOp w = 2 || mOp w = 3)

/-- A channel acts on the descriptor in progress, or else on the one at HEAD, if its operation is `op`: `n` bursts of
it at most.  Held on a fault it does nothing until the fault is resolved, unless its context is dead; nor while an access of
its bursts has to wait (log entry 68). -/
def dmaRun (s : State) (c op : Nat) (n : List Word → Nat) : State := gated s fun s =>
  let ch := chanOf s c
  match ch.cur, chanFn s c with
  | some (_, w), some f =>
    if !(opIs w op) then s
    else if mDead s w then dmaEnd s c 0xE 0 0 ch.moved 0 []
    else match ch.ended with
      | some st =>
        dmaEnd s c st 0 (if st = 4 then 0 else (mDev w + ch.moved) / 65536 * 65536) ch.moved
          (if st = 2 then 1 else if st = 4 then 2 else 0) []
      | none => if ch.held.isSome || ch.waiting then s else dmaMove s c f (n w)
  | none, some f =>
    if chanGo s c then
      let w := dmaFetch s c
      if opIs w op then
        let r := dmaTake s c f w
        if r.1 then dmaMove r.2 c f (n w) else r.2
      else s
    else s
  | _, none => s

/-- H2D (R357, R359, R363): `host` is what the host has written to its memory first. -/
def execH2d (c : Nat) (host : List (Nat × Byte)) (s : State) : Res := .next (dmaRun (hostWrites s host) c 1 burstMax)

/-- D2H (R355, R363). -/
def execD2h (c : Nat) (host : List (Nat × Byte)) (s : State) : Res := .next (dmaRun (hostWrites s host) c 2 burstMax)

/-- IMM (R355): W6 to DEV_ADDR. -/
def execImm (c : Nat) (host : List (Nat × Byte)) (s : State) : Res := .next (dmaRun (hostWrites s host) c 3 burstMax)

/-! ### Failures on the host's side (R363) -/

/-- The host data of the H2D descriptor in progress fails to come after some of its bursts: it completes with `status`
and the channel's error `code`; the endpoint counts it by `mark`. -/
def failData (s : State) (c f status code : Nat) (w : List Word) (mark : State → State) : State :=
  let d := draw s
  let s := dmaMove d.2 c f ((Config.freeWord d.1).toNat % burstsLeft w (chanOf s c).moved)
  let ch := chanOf s c
  if ch.cur.isSome && !(ch.held.isSome || ch.waiting) then dmaEnd (mark s) c status 0 0 ch.moved code [] else s

/-- A host request of channel `c` fails: that for the data of an H2D descriptor, else the read of the descriptor at HEAD,
whose words are then not known. -/
def hostFail (s : State) (c status code : Nat) (mark : State → State) : State :=
  let ch := chanOf s c
  match ch.cur, chanFn s c with
  | some (_, w), some f =>
    if mOp w = 1 && !(ch.held.isSome || ch.waiting || ch.ended.isSome) then failData s c f status code w mark else s
  | none, some f =>
    if chanGo s c then
      let w := dmaFetch s c
      if mOp w = 1 then
        let r := dmaTake s c f w
        if r.1 then failData r.2 c f status code w mark else r.2
      else
        let seq := dmaHead s c
        let s := wf s (pgDma c) Reg.DMA_HEAD 0 32 (seq + 1)
        dmaEnd (mark (setChan s c { chanReset with digest := ch.digest, cur := some (seq, []) })) c status 0 0 0 code []
    else s
  | _, none => s

/-- HOST_COMPLETION (R363, R367): one that brings no good data; a malformed TLP is dropped, and one sent again after a
replay is counted. -/
def execHostCompletion (c : Nat) (kind : HostError) (s : State) : Res :=
  .next (match kind with
    | .unsupportedRequest | .completerAbort => hostFail s c 0xF 3 fun s => addReg s pgPcie Reg.UR_RECEIVED 1
    | .malformed => countError s pgPcie 5 0 1 none
    | .replayed => addReg s pgPcie Reg.REPLAYS 1
    | .poisoned => hostFail s c 4 3 fun s => countError (addReg s pgPcie Reg.POISON_RECEIVED 1) pgPcie 3 4 1 none)

/-- CPL_TIMEOUT (R363, R367). -/
def execCplTimeout (c : Nat) (s : State) : Res :=
  .next (hostFail s c 5 4 fun s =>
    raiseEvt (countError (addReg s pgPcie Reg.CPL_TIMEOUTS 1) pgPcie 2 5 1 none) pgPcie 3)

/-! ### Assignment, tail, reset (R352, R354, R363, R365) -/

/-- Reset a channel (R41, R351, R363): the descriptor in progress completes with JOB_ABORTED, and every block-specific
register but `DMA_INFO` returns to its reset value; with `keep`, after a RESET_REQ, HEAD is the first SEQ without a
record. -/
def resetChan (s : State) (c : Nat) (keep : Bool) : State :=
  let p := pgDma c
  let s := dmaEnd s c 0xE 0 0 (chanOf s c).moved 0 []
  let done := dmaDone s c
  let info := rd s p Reg.DMA_INFO
  let s := wr (resetRegs s p 0x100 0x10000) p Reg.DMA_INFO info
  let s := if keep then wr s p Reg.DMA_HEAD (w64 (done + done <<< 32)) else s
  setChan s c chanReset

/-- DMA_ASSIGN (R352). -/
def execDmaAssign (fn c : Nat) (v : Word) (s : State) : Res :=
  .next (if 32 ≤ c then s else withOperator s fn pgPcie (Reg.DMA_ASSIGN c) fun s =>
    let old := chanFn s c
    let new := if bit v 7 then some (fld v 0 5) else none
    let sealed (f : Option Nat) : Bool := match f with
      | some (k + 1) => sealedNow s k
      | _ => false
    let scrubbing : Bool := match new with
      | some (k + 1) => decide (partState s k = 1)
      | _ => false
    guarded s pgPcie (decide (pageState s (pgDma c) = 0) && !(sealed old) && !(sealed new) && !scrubbing &&
      decide (new.getD 0 ≤ 16)) fun s =>
      let s := wr s pgPcie (Reg.DMA_ASSIGN c) (v &&& 0x9F)
      if old = new then s
      else
        let p := pgDma c
        let s := setChan (resetRegs s p 0x100 0x10000) c chanReset
        let s := wr s p Reg.DMA_INFO (w64 (c + new.getD 0 <<< 8 + new.isSome.toNat <<< 13))
        updWire (wr s p Reg.OWNER (w64 (match new with
          | some (k + 1) => k
          | _ => 0xFF))))

/-- DMA_TAIL (R118, R354). -/
def execDmaTail (fn c tail : Nat) (s : State) : Res :=
  .next (if 32 ≤ c then s else withWrite s fn (pgDma c) Reg.DMA_TAIL fun s =>
    let v := tail % 2 ^ 32
    guarded s (pgDma c)
      (decide (pageState s (pgDma c) = 3 ∨ pageState s (pgDma c) = 4) &&
        decide ((v + 2 ^ 32 - dmaHead s c) % 2 ^ 32 < 2 ^ 31) &&
        decide ((v + 2 ^ 32 - dmaDone s c) % 2 ^ 32 ≤ 2 ^ dmaLog s c))
      fun s => wf s (pgDma c) Reg.DMA_TAIL 0 32 v)

/-- DMA_CTL_STRICT (R365): STRICT cannot be cleared while a partition is SEALED. -/
def execDmaCtlStrict (fn : Nat) (v : Word) (s : State) : Res :=
  .next (withOperator s fn pgPcie Reg.DMA_CTL fun s =>
    guarded s pgPcie
      (bit v 0 || !(rb s pgPcie Reg.DMA_CTL 0) || !((List.range 16).any fun k => partState s k = 4))
      fun s => updIso (wb s pgPcie Reg.DMA_CTL 0 (bit v 0)))

end Sys2Proof.Machine
end

