-- ==== Sys2Proof/Machine/Power.lean ====
section
/-!
DEFINITION. Energy-admitted scheduling (R326 to R343): the 10 µs power period, clocks and voltages, site caps, and
the thermal trip (R492).
-/

namespace Sys2Proof.Machine

/-! ### Temperatures (R329) -/

/-- A signed byte as a number. -/
def sByte (v : Nat) : Int := if v < 128 then (v : Int) else (v : Int) - 256

/-- The greatest of a list, at least `b`. -/
def maxInt (b : Int) (l : List Int) : Int := l.foldl max b

/-- The sensors that fail in a period: those named, and those that read outside −40 °C to 150 °C. -/
def failing (r : PowerReadings) : List Nat :=
  (List.range 80).filter fun i =>
    r.bad.contains i || decide (r.temps.getD i 0 < -400) || decide (1500 < r.temps.getD i 0)

/-- The reading used for a point: its sensor's own, or for a failed sensor the highest of its neighbours that work
plus 5 °C. -/
def readingOf (r : PowerReadings) (failed : List Nat) (i : Nat) : Int :=
  if failed.contains i then
    let near := ((Config.neighbours i).filter fun n => decide (n < 80) && !failed.contains n).map (r.temps.getD · 0)
    let all := ((List.range 80).filter fun n => !failed.contains n).map (r.temps.getD · 0)
    maxInt (-400) (if near.isEmpty then all else near) + 50
  else r.temps.getD i 0

/-- The powers the model works from. -/
def powersOf (r : PowerReadings) : List Nat := [r.hub, r.other, r.part, r.hbm] ++ r.sites

/-! ### Clocks (R25, R331, R332, R336, R389) -/

/-- The stepping's limit on compute islands (R25): 1.8 GHz on base layer A0. -/
def stepLimit (s : State) : Nat := if s.fuse.baseStep = 0xA0 then 1800 else 2000

/-- The thermal cap of an amount in tenths of a degree above `T_SOFT` (R331). -/
def thermalCap (d : Int) : Nat := if d ≤ 0 then 2000 else max 600 ((2000 - 140 * ((d + 9) / 10)).toNat / 100 * 100)

/-- The cluster and sweep clocks of partition `k` (R331, R332, R389). -/
def clocksOf (s : State) (k : Nat) (d : Int) (steps : Nat) (fixed : Bool) : Nat × Nat :=
  let cl := rf s pgPwr (Reg.PART_ALLOC k) 8 5 * 100
  let se := rf s pgPwr (Reg.PART_ALLOC k) 16 5 * 100
  if rb s (pgPart k) Reg.SCRUB_STAT 1 then (1000, 600)
  else if fixed then (min cl (stepLimit s), se)
  else
    let down (v : Nat) : Nat := max 600 (v - 100 * steps)
    (down (min cl (min (stepLimit s) (thermalCap d))), down (min se (min 1200 (thermalCap d))))

/-- The eight cluster islands and the four sweep islands of partition `k` run at these frequencies (R105, R163). -/
def setIslands (s : State) (k : Nat) (c : Nat × Nat) : State :=
  let s := (List.range 8).foldl (fun s m => wf s (pgCl (8 * k + m)) Reg.ISLAND_CLK 0 12 c.1) s
  (List.range 4).foldl (fun s i => wf s (pgSe (4 * k + i)) Reg.SE_ISLAND_CLK 0 12 c.2) s

/-- The frequencies that the islands of partition `k` run at: clusters, then engines. -/
def islandsOf (s : State) (k : Nat) : Nat × Nat :=
  (rf s (pgCl (8 * k)) Reg.ISLAND_CLK 0 12, rf s (pgSe (4 * k)) Reg.SE_ISLAND_CLK 0 12)

/-- New clocks of partition `k` (R336): a fall takes effect at once, a raise once its voltage has settled. -/
def setClocks (s : State) (k : Nat) (c : Nat × Nat) : State :=
  let cur := islandsOf s k
  let now := (min cur.1 c.1, min cur.2 c.2)
  let s := wf (wf s (pgPart k) Reg.ECLOCKS 0 12 c.1) (pgPart k) Reg.ECLOCKS 16 12 c.2
  let rest := s.pwr.raising.filter fun j => j ≠ k
  setIslands { s with pwr := { s.pwr with raising := if now = c then rest else rest ++ [k] } } k now

/-! ### The period -/

/-- The thermal factor in eighths (R330), of temperatures in tenths of a degree. -/
def thermalFactor (t soft hard : Int) : Nat :=
  if t ≤ soft then 8
  else
    let n := ((t - soft) * 7).toNat
    let d := (hard - soft).toNat
    max 1 (8 - ceilDiv n (max d 1))

/-- rho in 1/256 (R330): measured over charged watts, from 0.5 to 2; unchanged where nothing was charged. -/
def rhoOf (prev part charged : Nat) : Nat := if charged = 0 then prev else min 512 (max 128 (256 * part / charged))

/-- A partition is refilled in this state (R328, R330). -/
def refilled (s : State) (k : Nat) : Bool :=
  !(decide (partState s k = 0) || decide (partState s k = 1) || decide (partState s k = 6))

/-- `WEIGHT` of a partition; 0 is taken as 1. -/
def weightOf (s : State) (k : Nat) : Nat := max 1 (rf s pgPwr (Reg.PART_ALLOC k) 0 4)

/-- Add a refill to a bucket and clip it (R328). -/
def refill (s : State) (k eu : Nat) : State :=
  let p := pgPart k
  let lv := min (rf s p Reg.EBUCKET 0 24 + eu) (rf s p Reg.EBUCKET_MAX 0 24)
  wf (wf s p Reg.EBUCKET 0 24 lv) p Reg.EREFILL_LAST 0 24 eu

/-- The refills of a boundary (R330, R332). -/
def refillAll (s : State) (total : Nat) (fixed : Bool) : State :=
  let ps := (List.range 16).filter (refilled s)
  let sum := (ps.map (weightOf s)).sum
  (List.range 16).foldl
    (fun s k =>
      if ps.contains k then
        refill s k (if fixed then rf s pgPwr (Reg.PART_ALLOC k) 32 16 else total * weightOf s k / max 1 sum)
      else refill s k 0) s

/-- `SITE_BUDGET` in watts, and the 300 W ceiling (R22, R337, R342). -/
def siteBudget (s : State) (t : Nat) : Nat :=
  let v := rf s pgPwr (Reg.SITE_BUDGET t) 0 9
  if v = 0 ∨ 300 < v then 300 else v

/-- cap_max of a site in whole GB/s (R337). -/
def siteCapMax (s : State) (t : Nat) : Nat :=
  3840 * rf s (pgSite t) Reg.SITE_LINK 40 8 * rf s (pgSite t) Reg.SITE_LINK 32 6 / 1024

/-- The cap of one site at a boundary (R337, R338). -/
def sitePeriod (s : State) (t : Nat) (meas : Nat) : State :=
  let off := Reg.SITE_PWR t
  let s := wf s pgPwr off 0 16 meas
  if !(siteAdmitted s t) then s
  else if s.pwr.stopped.contains t then s
  else
    let cmax := siteCapMax s t
    let low := cmax / 64
    let cap := if rf s pgPwr off 32 12 = 0 then cmax else rf s pgPwr off 16 12
    let run := rf s pgPwr off 48 16
    let budget := siteBudget s t * 10
    let hot := decide (budget < meas)
    let run := if hot && decide (cap = low) then run + 1 else 0
    let new := if hot then max low (cap * 7 / 8) else if meas * 100 < 95 * budget then min cmax (cap + low) else cap
    let new := min new cmax
    let s := wf (wf s pgPwr off 32 12 cmax) pgPwr off 48 16 (min run 65535)
    if run = 100 then
      let s := { wf s pgPwr off 16 12 0 with pwr := { s.pwr with stopped := s.pwr.stopped ++ [t] } }
      raiseEvt (countError s pgPwr 2 0 1 none) pgPwr 4
    else
      let s := wf s pgPwr off 16 12 new
      if new = low ∧ cap ≠ low then raiseEvt s pgPwr 3 else s

/-- Fixed budgets are left (R334): FIXED clears, and the lapse is recorded everywhere. -/
def breakFixed (s : State) : State :=
  let s := wb (wb s pgPwr Reg.PWR_CTL 0 false) pgPwr Reg.PWR_STAT 0 true
  let s := raiseEvt (countError s pgPwr 3 0 1 none) pgPwr 2
  let s := audit s 9 [rd s pgPwr Reg.THERM_STAT]
  updIso ((List.range 16).foldl (fun s k => raiseEvt s (pgPart k) 6) s)

/-- The sensors of a period, and what they make of the 80 points (R329). -/
def sensePoints (s : State) (r : PowerReadings) : State :=
  let fresh := (failing r).filter fun i => !s.pwr.failed.contains i
  let s := fresh.foldl (fun s _ => raiseEvt (countError s pgPwr 1 0 0 none) pgPwr 5) s
  let failed := s.pwr.failed ++ fresh
  let hard : Int := 10 * rf s pgPwr Reg.THERM_CFG 8 8
  let reads := (List.range 80).map (readingOf r failed)
  let model := (List.range 80).map fun i =>
    if 8 < failed.length then hard else reads.getD i 0 + Config.thermalRise i (powersOf r)
  { s with pwr := { s.pwr with failed := failed, reads := reads, model := model } }

/-- POWER_PERIOD (R329 to R334, R337 to R339): the boundary that ends a period of these readings. -/
def powerPeriod (r : PowerReadings) (s : State) : State :=
  let s := addReg (sensePoints s r) pgPwr Reg.PWR_PERIODS 1
  let soft : Int := 10 * rf s pgPwr Reg.THERM_CFG 0 8
  let hard : Int := 10 * rf s pgPwr Reg.THERM_CFG 8 8
  let model := s.pwr.model
  let t := maxInt (model.headD 0) model
  let e := thermalFactor t soft hard
  let point := (model.findIdx? fun v => v = t).getD 0
  let was := rf s pgPwr Reg.THERM_STAT 16 4
  let s := wr s pgPwr Reg.THERM_STAT (w64 (toByte (t / 10) + point <<< 8 + e <<< 16 + s.pwr.failed.length <<< 24))
  let s := if e < 8 ∧ 8 ≤ was then queueIbi (raiseEvt s pgPwr 0) 2 else s
  let charged := s.pwr.charged
  let hot := decide (5200 < r.hub)
  let run := if hot then s.pwr.overRun + 1 else 0
  let s := { s with pwr := { s.pwr with charged := 0, overRun := run } }
  let s := if hot then raiseEvt (addReg s pgPwr Reg.PWR_OVER 1) pgPwr 1 else s
  let s := wf s pgPwr Reg.HBM_PWR 0 16 r.hbm
  let s := if 2560 < r.hbm then raiseEvt s pgPwr 6 else s
  let fixed := rb s pgPwr Reg.PWR_CTL 0
  let broken := fixed && (decide (hard ≤ t) || decide (10 ≤ run))
  let s := if broken then breakFixed s else s
  let fixed := fixed && !broken
  let prev := rf s pgPwr Reg.PWR_MEAS 48 16
  let rho := if fixed then prev else rhoOf prev r.part charged
  let s := wr s pgPwr Reg.PWR_MEAS (w64 (r.hub % 65536 + (r.other % 65536) <<< 16 + (r.part % 65536) <<< 32 + rho <<< 48))
  let total := (5200 - r.other) * e * 256 / (8 * max rho 1)
  let s := if fixed then s else wf s pgPwr Reg.PWR_TOTAL 0 24 total
  let s := refillAll s total fixed
  let steps := rf s pgPwr Reg.PWR_STAT 8 8
  let steps := if fixed then 0 else if hot then min 14 (steps + 1) else if r.hub < 5200 then steps - 1 else steps
  let s := if !fixed && hot then countError s pgPwr 4 0 0 none else s
  let s := wf s pgPwr Reg.PWR_STAT 8 8 steps
  let s := (List.range 16).foldl
    (fun s k =>
      let pts := [4 * k, 4 * k + 1, 4 * k + 2, 4 * k + 3, 64 + k].map fun i => model.getD i 0
      if s.board.thermtrip then s
      else setClocks s k (clocksOf s k (maxInt (pts.headD 0) pts - soft) steps fixed)) s
  let s := (List.range 4).foldl (fun s i => sitePeriod s i (r.sites.getD i 0)) s
  if 1100 ≤ t then { s with pwr := { s.pwr with tripDue := true } } else s

/-- POWER_PERIOD (R330). -/
def execPowerPeriod (r : PowerReadings) (s : State) : Res := .next (powerPeriod r s)

/-- VOLTAGE_SETTLED (R336): the clock that waited for the rail of partition `k` is raised. -/
def execVoltageSettled (k : Nat) (s : State) : Res :=
  .next (if s.pwr.raising.contains k && !s.board.thermtrip then
      let s := { s with pwr := { s.pwr with raising := s.pwr.raising.filter fun j => j ≠ k } }
      setIslands s k (rf s (pgPart k) Reg.ECLOCKS 0 12, rf s (pgPart k) Reg.ECLOCKS 16 12)
    else s)

/-- REGULATOR_FAULT (R343): the raise is given up and the partition enters FAULT. -/
def execRegulatorFault (k : Nat) (s : State) : Res :=
  .next (if k < 16 then
      let s := { s with pwr := { s.pwr with raising := s.pwr.raising.filter fun j => j ≠ k } }
      faultPart (countError s pgPwr 5 0 2 none) k
    else s)

/-- Some partition counts as SEALED. -/
def anySealed (s : State) : Bool := (List.range 16).any (sealHeld s)

/-- Whether FIXED may be set (R333). -/
def fixOk (s : State) : Bool :=
  let f (k : Nat) : Nat := rf s pgPwr (Reg.PART_ALLOC k) 32 16
  decide (((List.range 16).map f).sum ≤ 10 * (520 - rf s pgPwr Reg.PWR_RESERVE 0 10)) &&
    (List.range 16).all fun k => decide (partState s k = 0) || decide (partState s k = 1) || decide (f k ≠ 0)

/-- PWR_CTL_FIXED (R333): a write of `PWR_CTL`. -/
def execPwrCtlFixed (fn : Nat) (v : Word) (s : State) : Res :=
  .next (withWrite s fn pgPwr Reg.PWR_CTL fun s =>
    let old := rb s pgPwr Reg.PWR_CTL 0
    guarded s pgPwr (bit v 0 = old || (if bit v 0 then fixOk s else !(anySealed s))) fun s =>
      updIso (wb s pgPwr Reg.PWR_CTL 0 (bit v 0)))

/-- PART_ALLOC_WRITE (R333, R342).  R333 checks the sum of the refills at the write that sets FIXED; what a later write that
raises it above the ceiling does is open beside R23: it is accepted, and the partition is refilled by it (log entry 63). -/
def execPartAllocWrite (fn p : Nat) (v : Word) (s : State) : Res :=
  .next (if p < 16 then withWrite s fn pgPwr (Reg.PART_ALLOC p) fun s =>
      let v := v &&& 0x0000FFFF001F1F0F
      let same := decide (v = rd s pgPwr (Reg.PART_ALLOC p))
      let ok := decide (6 ≤ fld v 8 5) && decide (fld v 8 5 ≤ 20) && decide (6 ≤ fld v 16 5) && decide (fld v 16 5 ≤ 12)
      guarded s pgPwr (same || (ok && !(rb s pgPwr Reg.PWR_CTL 0 && sealHeld s p))) fun s =>
        wr s pgPwr (Reg.PART_ALLOC p) v
    else s)

/-- SITE_RELEASE (R338): caps held at 0 start again from the floor. -/
def execSiteRelease (fn : Nat) (v : Word) (s : State) : Res :=
  .next (withWrite s fn pgPwr Reg.SITE_RELEASE fun s =>
    (bitsOf (fld v 0 4) 4).foldl
      (fun s t =>
        if s.pwr.stopped.contains t then
          let s := wakeSite { s with pwr := { s.pwr with stopped := s.pwr.stopped.filter fun x => x ≠ t } } t
          wf (wf s pgPwr (Reg.SITE_PWR t) 16 12 (siteCapMax s t / 64)) pgPwr (Reg.SITE_PWR t) 48 16 0
        else s) s)

/-- The controller whose stack is hottest. -/
def hottestMc (s : State) : Nat :=
  (List.range 8).foldl
    (fun b m => if sByte (rf s (pgMc b) Reg.MC_TEMP 0 8) < sByte (rf s (pgMc m) Reg.MC_TEMP 0 8) then m else b) 0

/-- THERMAL_TRIP (R492): THERMTRIP# is asserted after a decision of R207 or R335; it stays asserted until PWR_OK
falls. -/
def execThermalTrip (s : State) : Res :=
  .next (if s.pwr.tripDue && !s.board.thermtrip then
      let s := queueIbi { s with board := { s.board with thermtrip := true } } 2
      let s := (List.range 16).foldl
        (fun s k => wr (setIslands s k (0, 0)) (pgPart k) Reg.ECLOCKS 0) { s with pwr := { s.pwr with raising := [] } }
      let s := (List.range 4).foldl (fun s t => wf s pgPwr (Reg.SITE_PWR t) 16 12 0) s
      genWrite s (mkEntry s 1 5 2 [rd s pgPwr Reg.THERM_STAT, rd s (pgMc (hottestMc s)) Reg.MC_TEMP])
    else s)

end Sys2Proof.Machine
end

