-- ==== Sys2Proof/Machine/Ports.lean ====
section
/-!
DEFINITION. Requests at the ports of the controllers and slices: what each does when it is served (R199 to R203, R208 to
R214, R223 to R228), and when it is held first: for a row under repair (R213), a pseudo-channel or slice being filled
(R217, R235), a bank being replaced (R228), and the slice's request queue meanwhile (R232, R234).
-/

namespace Sys2Proof.Machine

/-- A request of at most 256 bytes that stays within 256 bytes (R199, R223). -/
def oneRequest (a n : Nat) : Bool := decide (0 < n) && decide (a / 256 = (a + n - 1) / 256)

/-- What the check bits of the first burst or word of a request hold, as its command says (R208, R221): an error it cannot
correct stays until the burst or word is written whole (R209, R227), one it corrects until that or a write-back (R210). -/
def markEcc (s : State) (a : Nat) (ecc : Ecc) : State :=
  let u := unitOf a
  match ecc with
  | .clean => s
  | .corrected => if s.weak.contains u || s.ue.contains u then s else { s with weak := s.weak ++ [u] }
  | .uncorrectable => if s.ue.contains u then s else { s with ue := s.ue ++ [u], weak := s.weak.filter fun w => w ≠ u }

/-- The group's partition, for the byte counters. -/
def groupReq (dpa : Nat) : Nat := (groupOf dpa).getD 0

/-! ### Requests as they are served -/

/-- A read is served (R199, R200, R208 to R210, R223, R227): the data, or UNCORRECTABLE. -/
def readNow (s : State) (k port : Nat) (ctx : Option Nat) (a n : Nat) (ecc : Ecc) : State :=
  let r := readAs (markEcc s a ecc) k port ctx a n
  emit r.2 (match r.1 with
    | some b => .mem a 0 b
    | none => .mem a 4 [])

/-- A write is served (R200, R202, R203, R224): acknowledged, or UNCORRECTABLE. -/
def writeNow (s : State) (k port a : Nat) (data : Bytes) (ecc : Ecc) : State :=
  let s := match partUnits a data.length with
    | [] => s
    | u :: _ => markEcc s u ecc
  let r := writeAs s k port none a data
  emit r.2 (.mem a (if r.1 then 0 else 4) [])

/-- A held request is served. -/
def portNow (s : State) (c : Instr) : State :=
  match c with
  | .mcRead dpa len ctx ecc => readNow s (groupReq dpa) 168 ctx dpa len ecc
  | .mcWrite dpa data => writeNow s (groupReq dpa) 168 dpa data .clean
  | .mcPartialWrite dpa data ecc => writeNow s (groupReq dpa) 168 dpa data ecc
  | .quayRead k off len p ring ecc => readNow s p (if ring then 168 else 0) none (quayBase k + off) len ecc
  | .quayWrite k off p ring data ecc => writeNow s p (if ring then 168 else 0) (quayBase k + off) data ecc
  | _ => s

/-! ### Requests that are held -/

/-- The first byte that a request reaches. -/
def portAddr (c : Instr) : Option Nat :=
  match c with
  | .mcRead dpa _ _ _ => some dpa
  | .mcWrite dpa _ => some dpa
  | .mcPartialWrite dpa _ _ => some dpa
  | .quayRead k off _ _ _ _ => some (quayBase k + off)
  | .quayWrite k off _ _ _ _ => some (quayBase k + off)
  | _ => none

/-- The request waits for a repair, a replacement or a fill. -/
def portHeld (s : State) (c : Instr) : Bool :=
  match portAddr c with
  | none => false
  | some a => (holdsOn s).any fun h => heldAt h a

/-- The slice and partition of a request at a slice's ring port. -/
def ringPort (c : Instr) : Option (Nat × Nat) :=
  match c with
  | .quayRead k _ _ p true _ => some (k, p)
  | .quayWrite k _ p true _ _ => some (k, p)
  | _ => none

/-- Entries of slice `k`'s request queue that partitions of a kind hold. -/
def queueUsed (s : State) (k : Nat) (mine : Nat → Bool) : Nat :=
  s.heldPorts.countP fun e =>
    match ringPort e.2 with
    | some (j, p) => e.1 = some k && j = k && mine p
    | none => false

/-- The request queue of slice `k` has an entry for partition `p` (R232, R234): any free entry for the owner; for another,
one below its cap and not reserved. -/
def queueRoom (s : State) (k p : Nat) : Bool :=
  decide (queueUsed s k (fun _ => true) < 256) &&
    (decide (p = k) ||
      (decide (queueUsed s k (fun q => q = p) < rf s (pgQuay k) Reg.QUAY_CFG 16 8) &&
        decide (queueUsed s k (fun q => q ≠ k) + rf s (pgQuay k) Reg.QUAY_CFG 8 8 < 256)))

/-- The queue entry that a held request takes: none where it waits at its requester (R232) or comes by another port. -/
def queueEntry (s : State) (c : Instr) : Option Nat :=
  match ringPort c with
  | none => none
  | some (k, p) => if queueRoom s k p then some k else none

/-- A request is held, in order behind those before it. -/
def holdPort (s : State) (e : Option Nat × Instr) : State :=
  { s with heldPorts := s.heldPorts ++ [(if e.1.isSome then e.1 else queueEntry s e.2, e.2)] }

/-- Held requests whose cause has ended are served, in their order; the others keep their entries, and free entries go to
those that wait at their requesters (R213, R217, R228, R232, R235). -/
def runHeld (s : State) : State :=
  s.heldPorts.foldl (fun s e => if portHeld s e.2 then holdPort s e else portNow s e.2) { s with heldPorts := [] }

/-- A request at a port: served, or held. -/
def atPort (s : State) (c : Instr) : State := if portHeld s c then holdPort s (none, c) else portNow s c

end Sys2Proof.Machine
end

