-- ==== Sys2Proof/Machine/Hbm.lean ====
section
/-!
DEFINITION. The commands of the HBM controllers (R196 to R220): reads and writes one by one, the write-combining
buffer, refresh, patrol, zero fill, row repair and injection.
-/

namespace Sys2Proof.Machine

/-- A request at the controller that serves `dpa`; an address that R167 reserves does not exist. -/
def atController (s : State) (dpa n : Nat) (c : Instr) : Res :=
  match hbmPlace dpa with
  | some _ => .next (if oneRequest dpa n then atPort s c else s)
  | none => if (quayOf dpa).isSome then .next s else .fault .reservedAddress

/-- MC_READ (R199, R200, R208 to R210, R212, R214): the data, or UNCORRECTABLE. -/
def execMcRead (dpa len : Nat) (ctx : Option Nat) (ecc : Ecc) (s : State) : Res :=
  atController s dpa len (.mcRead dpa len ctx ecc)

/-- Every entry of every buffer drains (R202, R428). -/
def wcFlush (s : State) : State := { s with hbm := { s.hbm with wc := [] } }

/-- MC_WRITE (R200, R202): whole bursts, acknowledged when the buffer accepts them; to a BLOCKED page UNCORRECTABLE
(R214). -/
def execMcWrite (dpa : Nat) (data : Bytes) (s : State) : Res :=
  atController s dpa (if dpa % 32 = 0 ∧ data.length % 32 = 0 then data.length else 0) (.mcWrite dpa data)

/-- MC_PARTIAL_WRITE (R203). -/
def execMcPartialWrite (dpa : Nat) (data : Bytes) (ecc : Ecc) (s : State) : Res :=
  atController s dpa data.length (.mcPartialWrite dpa data ecc)

/-- WC_ENTRY_AGED (R202): the entry of a granule drains to DRAM. -/
def execWcEntryAged (m granule : Nat) (s : State) : Res :=
  .next { s with hbm := { s.hbm with wc := s.hbm.wc.filter fun e => e ≠ (m, granule) } }

/-- The repair that runs on a pseudo-channel: the first queued (R213). -/
def runningRepair (s : State) (m pc : Nat) : Option PoolEntry :=
  match s.hbm.repairs.find? fun r => r.1 = m && r.2.1 = pc with
  | none => none
  | some r => s.hbm.pool.find? fun e => e.m = m && e.pc = pc && e.slot = r.2.2

/-- The address lies in the row that a pool entry replaces. -/
def inRow (e : PoolEntry) (a : Nat) : Bool := heldAt (Hold.row e.m e.pc e.row e.bank) a

/-- ROW_REPAIR_COMPLETE (R212, R213): the buffered writes of the row have drained and its bursts are copied, those that can
be corrected as they should be and the others as they are; the pool entry becomes valid in place of an earlier one, REPAIRED
is set, the recorder writes HBM_REPAIRED, and held accesses are served.  The reserve row has no corrected errors counted
(DESIGN CHOICE, log entry 63). -/
def execRowRepairComplete (m pc : Nat) (s : State) : Res :=
  .next (match runningRepair s m pc with
    | none => s
    | some e =>
      let ne := { e with valid := true }
      let old (v : PoolEntry) : Bool := v.m = m && v.pc = pc && v.row = e.row && v.bank = e.bank && v ≠ e
      let pool := (s.hbm.pool.filter fun v => !(old v)).map fun v => if v = e then ne else v
      let s := { s with
        weak := s.weak.filter fun g => !(inRow e g)
        hbm := { s.hbm with
          pool := pool
          repairs := s.hbm.repairs.erase (m, pc, e.slot)
          ce := s.hbm.ce.filter fun c => !(c.1 = m && c.2.1 = (pc * 32768 + e.row) * 64 + e.bank)
          wc := s.hbm.wc.filter fun w => !(w.1 = m && inRow e (w.2 * 256)) } }
      runHeld (systemEntry (raiseEvt s (pgMc m) 0) 1 (pgMc m) [remapWord ne]))

/-- REFRESH (R205): one per-bank refresh command, for the next pair of banks. -/
def execRefresh (m pc : Nat) (s : State) : Res :=
  .next (if m < 8 ∧ pc < 32 then
      let i := m * 32 + pc
      { s with hbm := { s.hbm with
          refreshes := (s.hbm.refreshes.filter fun e => e.1 ≠ i) ++ [(i, (tally s.hbm.refreshes i + 1) % 32)] } }
    else s)

/-- REFRESH_MANAGEMENT (R206): once a bank's activates have reached the threshold its stack reports, they are counted
afresh. -/
def execRefreshManagement (m pc bank : Nat) (s : State) : Res :=
  .next (if Config.rfmThreshold m ≤ tally s.hbm.acts ((m * 32 + pc) * 64 + bank) then
      { s with hbm := { s.hbm with acts := s.hbm.acts.filter fun e => e.1 ≠ (m * 32 + pc) * 64 + bank } }
    else s)

/-- TEMP_SAMPLE (R207, R219): the stack's temperature; TEMP_HIGH above 95 °C, the thermal trip from 105 °C. -/
def execTempSample (m : Nat) (degC : Int) (s : State) : Res :=
  .next (if m < 8 then
      let s := wr s (pgMc m) Reg.MC_TEMP
        (w64 (toByte degC + (decide (85 < degC)).toNat <<< 8 + (decide (105 ≤ degC)).toNat <<< 9))
      let s := if 95 < degC then raiseEvt s (pgMc m) 3 else s
      if 105 ≤ degC then
        countError { s with pwr := { s.pwr with tripDue := true } } (pgMc m) 8 0 3 none
      else s
    else s)

/-- The addressed bursts of a pseudo-channel. -/
def pcBursts : Nat := pcSize / 32

/-- PATROL_READ (R209, R210, R212, R216): the next burst of the pass; a corrected burst is written back, and at the end
of a pass the rows' counts start afresh.  A read that R214 blocks finds nothing; patrol waits at a row under repair and
pauses where a fill runs (R213). -/
def execPatrolRead (m : Nat) (ecc : Ecc) (s : State) : Res :=
  .next (if m < 8 ∧ rb s (pgMc m) Reg.MC_CFG 1 then
      let i := s.hbm.patrol.getD m 0
      let pc := i / pcBursts
      let a := hbmAddr m pc (i % pcBursts * 32)
      if (holdsOn s).any fun h => heldAt h a then s
      else
        let s := (sense (activateRange (markEcc s a ecc) a 32) a 32 3 none).2
        let s := { s with weak := s.weak.filter fun g => g ≠ a }
        let j := i + 1
        if j = 32 * pcBursts then
          let s := { s with hbm := { s.hbm with
              patrol := s.hbm.patrol.set m 0
              ce := s.hbm.ce.filter fun e => e.1 ≠ m } }
          raiseEvt (wr s (pgMc m) Reg.MC_PATROL (w64 ((rf s (pgMc m) Reg.MC_PATROL 0 32 + 1) % 2 ^ 32))) (pgMc m) 5
        else
          wf { s with hbm := { s.hbm with patrol := s.hbm.patrol.set m j } } (pgMc m) Reg.MC_PATROL 32 7
            (j * 100 / (32 * pcBursts))
    else s)

/-- The first byte of the side of partition `k` on controller `m`. -/
def sideBase (k m : Nat) : Nat := groupBase k + m / 4 * sideSize

/-- Every byte of a range of device memory is written as zero, with its check bits (R217, R235). -/
def zeroRange (s : State) (lo n : Nat) : State :=
  clearMem { s with
    ue := s.ue.filter fun g => !(inRange g lo n)
    weak := s.weak.filter fun g => !(inRange g lo n) } lo (lo + n)

/-- A zero fill of the pseudo-channels of P(4·row + c) starts on controller `m` (R217).  Requests to them wait for its
end, so its zeros stand from its start. -/
def startFill (s : State) (m row : Nat) : State :=
  let p := pgMc m
  let s := wf (wf (wb s p Reg.MC_ZF_STAT row true) p Reg.MC_ZF_STAT 4 2 row) p Reg.MC_ZF_STAT 8 31 0
  zeroRange s (sideBase (4 * row + m % 4) m) sideSize

/-- MC_ZF_CMD (R217, R219): rejected while a fill of the same row runs. -/
def execMcZfCmd (fn m : Nat) (v : Word) (s : State) : Res :=
  .next (if m < 8 then withWrite s fn (pgMc m) Reg.MC_ZF_CMD fun s =>
      if bit v 63 then
        guarded s (pgMc m) (!(rb s (pgMc m) Reg.MC_ZF_STAT (fld v 0 2))) fun s => startFill s m (fld v 0 2)
      else s
    else s)

/-- A zero fill ends (R217, R220). -/
def endFill (s : State) (m row : Nat) : State :=
  let p := pgMc m
  if rb s p Reg.MC_ZF_STAT row then
    let s := wb s p Reg.MC_ZF_STAT row false
    let s := if rf s p Reg.MC_ZF_STAT 4 2 = row then wf s p Reg.MC_ZF_STAT 8 31 (sideSize / 32) else s
    runHeld (raiseEvt s p 4)
  else s

/-- The scrub of partition `k` meets a write that did not complete (R391): it will end in SCRUB_FAIL. -/
def fillFailed (s : State) (k : Nat) : State :=
  if partState s k = 1 ∧ !(s.ten.scrubFail.contains k) then
    { s with ten := { s.ten with scrubFail := s.ten.scrubFail ++ [k] } }
  else s

/-- MC_ZF_DONE (R217, R391). -/
def execMcZfDone (m row : Nat) (ok : Bool) (s : State) : Res :=
  .next (if m < 8 ∧ row < 4 ∧ rb s (pgMc m) Reg.MC_ZF_STAT row then
      let s := endFill s m row
      if ok then s else fillFailed s (4 * row + m % 4)
    else s)

/-- MC_INJECT (R219): arms corruption of the next read of a pseudo-channel; rejected for one of a SEALED partition. -/
def execMcInject (fn m : Nat) (v : Word) (s : State) : Res :=
  .next (if m < 8 then withWrite s fn (pgMc m) Reg.MC_INJECT fun s =>
      if bit v 63 then
        let pc := fld v 0 5
        guarded s (pgMc m) (!(sealHeld s (4 * (pc / 8) + m % 4))) fun s =>
          { s with hbm := { s.hbm with
              inject := (s.hbm.inject.filter fun e => !(e.1 = m && e.2.1 = pc)) ++ [(m, pc, bit v 5)] } }
      else s
    else s)

/-- CA_PARITY (R220): a second failure puts the controller in FAULT. -/
def execCaParity (m : Nat) (retryOk : Bool) (s : State) : Res :=
  .next (if m < 8 ∧ !retryOk then setState (countError s (pgMc m) 6 3 3 none) (pgMc m) 5 else s)

end Sys2Proof.Machine
end

