-- ==== Sys2Proof/Machine/Quay.lean ====
section
/-!
DEFINITION. The commands of the quay slices (R221 to R237): reads and writes one by one, bank replacement, STRICT,
the zero fill, injection and parity.
-/

namespace Sys2Proof.Machine

/-- A request of partition `p` at a port of slice `k` is served: within the slice, at the owner's bond port or the ring port,
which in strict mode serves the owner alone (R223, R233). -/
def quayServes (s : State) (k off n p : Nat) (ring : Bool) : Bool :=
  decide (k < 16) && decide (off + n ≤ quaySize) && oneRequest off n &&
    (decide (p = k) || (ring && !(rb s (pgQuay k) Reg.QUAY_CFG 0)))

/-- QUAY_READ (R223, R227, R228, R233): the data, or UNCORRECTABLE. -/
def execQuayRead (k off len p : Nat) (ring : Bool) (ecc : Ecc) (s : State) : Res :=
  .next (if quayServes s k off len p ring then atPort s (.quayRead k off len p ring ecc) else s)

/-- QUAY_WRITE (R223, R224): acknowledged when the granules are written, after a read-modify-write for words it covers
in part. -/
def execQuayWrite (k off p : Nat) (ring : Bool) (data : Bytes) (ecc : Ecc) (s : State) : Res :=
  .next (if quayServes s k off data.length p ring then atPort s (.quayWrite k off p ring data ecc) else s)

/-- The address lies in the bank of the slice. -/
def inBank (k bank a : Nat) : Bool := heldAt (Hold.bank k bank) a

/-- BANK_REPLACE_COMPLETE (R228, R463): the spare serves the bank; words that can be corrected are copied so and the others
as they are, held accesses are served, and the field map keeps the bank, whose errors are counted afresh (DESIGN CHOICE, log
entry 63). -/
def execBankReplaceComplete (k bank : Nat) (s : State) : Res :=
  .next (if s.quay.replacing.contains (k, bank) then
      let p := pgQuay k
      let s := saveQuayBank { s with
        weak := s.weak.filter fun g => !(inBank k bank g)
        quay := { s.quay with
          replacing := s.quay.replacing.erase (k, bank)
          errs := s.quay.errs.filter fun e => e.1 ≠ 64 * k + bank } } k bank
      let s := wf (wb s p Reg.QUAY_BANK_MAP bank true) p Reg.QUAY_SPARE 0 4 (rf s p Reg.QUAY_SPARE 0 4 + 1)
      runHeld (systemEntry (raiseEvt s p 0) 2 p [rd s p Reg.QUAY_BANK_MAP])
    else s)

/-- The writable bits of `QUAY_CFG`. -/
def quayCfgMask : Word := 0xFFFFF01

/-- A write of `QUAY_CFG` keeps R234 and the page's LOCK (R36). -/
def quayCfgOk (s : State) (k : Nat) (v : Word) : Bool :=
  decide (fld v 8 8 + fld v 16 8 ≤ 256) &&
    (!(locked s (pgQuay k)) || decide (v &&& quayCfgMask = rd s (pgQuay k) Reg.QUAY_CFG))

/-- A pending write of `QUAY_CFG` gives way to a later one that is accepted (R233; log entry 63). -/
def dropStrict (s : State) (k : Nat) : State :=
  { s with quay := { s.quay with strict := s.quay.strict.filter fun e => e.1 ≠ k } }

/-- QUAY_STRICT_SET (R233, R234): a write of `QUAY_CFG` that sets STRICT first drops every other partition's
translations into the slice, and completes once their accesses have drained. -/
def execQuayStrictSet (fn k : Nat) (v : Word) (s : State) : Res :=
  .next (if k < 16 then withOperator s fn (pgQuay k) Reg.QUAY_CFG fun s =>
      guarded s (pgQuay k) (quayCfgOk s k v) fun s =>
        let s := dropStrict s k
        if bit v 0 && !(rb s (pgQuay k) Reg.QUAY_CFG 0) then
          dropLeaves { s with quay := { s.quay with strict := s.quay.strict ++ [(k, v &&& quayCfgMask)] } } k
            fun a => inRange a (quayBase k) quaySize
        else updIso (wr s (pgQuay k) Reg.QUAY_CFG (v &&& quayCfgMask))
    else s)

/-- Another partition's access to the slice has not drained (R233). -/
def strictWaits (s : State) (k : Nat) : Bool :=
  accessInto s k (quayBase k) quaySize ||
    s.heldPorts.any fun e =>
      match ringPort e.2 with
      | some (j, p) => j = k && decide (p ≠ k)
      | none => false

/-- STRICT_DONE (R233, R237). -/
def execStrictDone (k : Nat) (s : State) : Res :=
  .next (match s.quay.strict.find? fun e => e.1 = k with
    | none => s
    | some e =>
      if strictWaits s k then s
      else raiseEvt (updIso (wr (dropStrict s k) (pgQuay k) Reg.QUAY_CFG e.2)) (pgQuay k) 3)

/-- A zero fill of slice `k` starts (R235).  Both ports hold requests until its end, so its zeros stand from its
start. -/
def startQuayFill (s : State) (k : Nat) : State :=
  zeroRange (wr s (pgQuay k) Reg.QUAY_ZF_STAT 1) (quayBase k) quaySize

/-- QUAY_ZF_CMD (R235): rejected while a fill runs. -/
def execQuayZfCmd (fn k : Nat) (s : State) : Res :=
  .next (if k < 16 then withOperator s fn (pgQuay k) Reg.QUAY_ZF_CMD fun s =>
      guarded s (pgQuay k) (!(rb s (pgQuay k) Reg.QUAY_ZF_STAT 0)) fun s => startQuayFill s k
    else s)

/-- A zero fill of a slice ends (R235 to R237): 524,288 granules are written. -/
def endQuayFill (s : State) (k : Nat) : State :=
  if rb s (pgQuay k) Reg.QUAY_ZF_STAT 0 then
    runHeld (raiseEvt (wr s (pgQuay k) Reg.QUAY_ZF_STAT (w64 (524288 <<< 8))) (pgQuay k) 2)
  else s

/-- QUAY_ZF_DONE (R235, R391): a fill asked for during a bank replacement has waited for that. -/
def execQuayZfDone (k : Nat) (ok : Bool) (s : State) : Res :=
  .next (if k < 16 ∧ rb s (pgQuay k) Reg.QUAY_ZF_STAT 0 ∧ (s.quay.replacing.all fun e => decide (e.1 ≠ k)) then
      let s := endQuayFill s k
      if ok then s else fillFailed s k
    else s)

/-- QUAY_INJECT (R236): arms corruption of the next read of a bank. -/
def execQuayInject (fn k : Nat) (v : Word) (s : State) : Res :=
  .next (if k < 16 then withOperator s fn (pgQuay k) Reg.QUAY_INJECT fun s =>
      if bit v 63 then
        let b := fld v 0 6
        { s with quay := { s.quay with
            inject := (s.quay.inject.filter fun e => !(e.1 = k && e.2.1 = b)) ++ [(k, b, bit v 6)] } }
      else s
    else s)

/-- PORT_PARITY (R237): a second failure puts the slice in FAULT. -/
def execPortParity (k : Nat) (retryOk : Bool) (s : State) : Res :=
  .next (if k < 16 ∧ !retryOk then setState (countError s (pgQuay k) 4 3 1 none) (pgQuay k) 5 else s)

end Sys2Proof.Machine
end

