-- ==== Sys2Proof/Machine/Ring.lean ====
section
/-!
DEFINITION. The ring fabric and the deal (R238 to R266): stops and rings, routes, the deal and the slots it grants,
regulators, broadcasts, sleeping islands, lanes and links.
-/

namespace Sys2Proof.Machine

/-! ### Topology (R238) -/

/-- The stops of a ring in order. -/
def ringStops (r : Nat) : List Nat :=
  match r with
  | 0 => [0x18, 0, 1, 2, 3, 0x1A]
  | 1 => [0x1C, 0x18, 4, 5, 6, 7, 0x1A, 0x1D]
  | 2 => [0x1C, 0x19, 8, 9, 10, 11, 0x1B, 0x1D]
  | 3 => [0x19, 12, 13, 14, 15, 0x1B]
  | _ => let c := r - 4; [0x10 + c, c, c + 4, c + 8, c + 12, 0x14 + c]

/-- The place of a node on a ring. -/
def stopAt (r n : Nat) : Option Nat := (ringStops r).findIdx? fun m => m = n

/-- The links of a ring per direction. -/
def ringLinks (r : Nat) : Nat := (ringStops r).length

/-- The home row of a node; none for a controller or an unused number. -/
def homeRow (n : Nat) : Option Nat :=
  if n < 16 then some (n / 4)
  else if n = 0x18 ∨ n = 0x1A then some 0
  else if n = 0x19 ∨ n = 0x1B then some 2
  else if n = 0x1C ∨ n = 0x1D then some 1
  else none

/-- The second X-ring of an edge stop. -/
def otherRow (n : Nat) : Option Nat :=
  if n = 0x18 ∨ n = 0x1A then some 1
  else if n = 0x19 ∨ n = 0x1B then some 3
  else if n = 0x1C ∨ n = 0x1D then some 2
  else none

/-- The column of a node: 0 on the west edge and 3 on the east edge (R246). -/
def colOf (n : Nat) : Nat :=
  if n < 16 then n % 4
  else if n < 0x18 then n % 4
  else if n = 0x18 ∨ n = 0x19 ∨ n = 0x1C then 0
  else 3

/-- A memory controller's stop. -/
def isMcNode (n : Nat) : Bool := decide (0x10 ≤ n) && decide (n < 0x18)

/-! ### Units (R238, R241, R259) -/

/-- The unit exists. -/
def unitOk (u : FabUnit) : Bool :=
  match u with
  | .cluster c => decide (c < 128)
  | .engine e => decide (e < 64)
  | .quay k => decide (k < 16)
  | .sched k => decide (k < 16)
  | .mc m => decide (m < 8)
  | .site t => decide (t < 4)
  | .host => true
  | .mgmt => true

/-- The stop of a unit: a sweep engine's is that of the controller it sits beside, a slice's its partition's (R134, R223,
R238). -/
def stopOf (u : FabUnit) : Nat :=
  match u with
  | .cluster c => c / 8
  | .engine e => 0x10 + e / 4 % 4 + (if e % 4 < 2 then 0 else 4)
  | .quay k => k
  | .sched k => k
  | .mc m => 0x10 + m
  | .site t => 0x18 + t
  | .host => 0x1C
  | .mgmt => 0x1D

/-- The island of a unit that may sleep: clusters from 0, engines from 128 (R258, R331). -/
def islandOf (u : FabUnit) : Option Nat :=
  match u with
  | .cluster c => some c
  | .engine e => some (128 + e)
  | _ => none

/-- The partition in whose reset domain a unit lies (R225, R259). -/
def domainOf (u : FabUnit) : Option Nat :=
  match u with
  | .cluster c => some (c / 8)
  | .engine e => some (e / 4)
  | .sched k => some k
  | _ => none

/-- The locks of the unit's partition are closed: it is being reset (R261). -/
def lockedUnit (s : State) (u : FabUnit) : Bool :=
  match domainOf u with
  | some k => decide (partState s k = 6)
  | none => false

/-- In the fixed phase of a partition's scrub only CONTROL traffic of the partition rides (R390). -/
def scrubStops (s : State) (q : Parcel) : Bool :=
  decide (q.part < 16) && rb s (pgPart q.part) Reg.SCRUB_STAT 1 && decide (q.cls ≠ .control)

/-! ### Legs and routes (R245 to R247) -/

/-- The links a leg crosses: its upstream stops in order. -/
def legLinks (l : Leg) : List Nat :=
  let n := ringLinks l.ring
  let len := if l.back then (l.src + n - l.dst) % n else (l.dst + n - l.src) % n
  (List.range len).map fun i => if l.back then (l.src + n - i) % n else (l.src + i) % n

/-- The leg crosses a link that is down. -/
def legDown (s : State) (l : Leg) : Bool :=
  (legLinks l).any fun i => s.fab.down.contains (linkKey l.ring i l.back)

/-- A leg between two nodes of a ring the shorter way round, avoiding a link marked down; ties go east or south. -/
def shortLeg (s : State) (r a b : Nat) : Option Leg :=
  match stopAt r a, stopAt r b with
  | some i, some j =>
    let f : Leg := ⟨r, false, i, j⟩
    let w : Leg := ⟨r, true, i, j⟩
    let first := if (legLinks f).length ≤ (legLinks w).length then f else w
    let other := if first = f then w else f
    some (if legDown s first then other else first)
  | _, _ => none

/-- Empty hops are dropped, and two consecutive hops on one ring are joined. -/
def joinHops : List (Nat × Nat × Nat) → List (Nat × Nat × Nat)
  | [] => []
  | (r, a, b) :: t =>
    if a = b then joinHops t
    else
      match joinHops t with
      | (q, _, d) :: u => if q = r then (if a = d then u else (r, a, d) :: u) else (r, a, b) :: (q, b, d) :: u
      | [] => [(r, a, b)]

/-- The X-first route between two nodes, as ring, from and to (R246). -/
def xFirst (src dst : Nat) : List (Nat × Nat × Nat) :=
  let c := colOf src
  let r := if isMcNode src then (if src < 0x14 then 0 else 3) else (homeRow src).getD 0
  let at0 := if isMcNode src then 4 * r + c else src
  let pre := if isMcNode src then [(4 + c, src, at0)] else []
  let onX := (stopAt r dst).isSome
  pre ++
    (if isMcNode dst ∨ dst < 16 then
      let turn := 4 * r + colOf dst
      [(r, at0, turn), (4 + colOf dst, turn, dst)]
    else if onX then [(r, at0, dst)]
    else
      let h := (homeRow dst).getD 0
      [(r, at0, 4 * r + c), (4 + c, 4 * r + c, 4 * h + c), (h, 4 * h + c, dst)])

/-- The X-first route as legs. -/
def xFirstLegs (s : State) (src dst : Nat) : List Leg :=
  (joinHops (xFirst src dst)).filterMap fun h => shortLeg s h.1 h.2.1 h.2.2

/-- The X-ring a node uses by its port bit, which only a node on two X-rings has. -/
def portRow (n : Nat) (other : Bool) : Option Nat := if other && (otherRow n).isSome then otherRow n else homeRow n

/-- A last leg on X-ring `r` reaches a node on two X-rings by the port its entry names. -/
def portFits (dst e r : Nat) : Bool := (otherRow dst).isNone || decide (portRow dst (e.testBit 11) = some r)

/-- The legs a route-table entry describes, if it describes a route of at most three legs from `src` to `dst` turning
only at partition stops (R247).  A first leg that ends at an edge stop is the whole route. -/
def entryLegs (src dst : Nat) (e : Nat) : Option (List Leg) :=
  let t1 := e / 4 % 4
  let t2 := e / 16 % 4
  let three := e.testBit 6
  let leg (i r a b : Nat) : Option (List Leg) :=
    match stopAt r a, stopAt r b with
    | some x, some y => some (if x = y then [] else [⟨r, e.testBit (7 + i), x, y⟩])
    | _, _ => none
  if e.testBit 1 then
    if src < 16 ∨ isMcNode src then
      let y := 4 + colOf src
      let turn := 4 * t1 + colOf src
      if !three && isMcNode dst then leg 0 y src dst
      else
        match leg 0 y src turn with
        | none => none
        | some a =>
          if three then
            match leg 1 t1 turn (4 * t1 + t2), leg 2 (4 + t2) (4 * t1 + t2) dst with
            | some b, some c => some (a ++ b ++ c)
            | _, _ => none
          else
            match leg 1 t1 turn dst with
            | some b => if portFits dst e t1 then some (a ++ b) else none
            | none => none
    else none
  else
    match portRow src (e.testBit 10) with
    | none => none
    | some r =>
      if !three && (otherRow dst).isSome then (if portFits dst e r then leg 0 r src dst else none)
      else
        let turn := 4 * r + t1
        match leg 0 r src turn with
        | none => none
        | some a =>
          if three then
            match leg 1 (4 + t1) turn (4 * t2 + t1), leg 2 t2 (4 * t2 + t1) dst with
            | some b, some c => if portFits dst e t2 then some (a ++ b ++ c) else none
            | _, _ => none
          else
            match leg 1 (4 + t1) turn dst with
            | some b => some (a ++ b)
            | none => none

/-- The route from one node to another as things stand (R246, R247, R264): the table's where ROUTE_MODE is 1, its entry
is valid and it crosses no link that is down; else X-first. -/
def routeOf (s : State) (src dst : Nat) : List Leg :=
  let e := tally s.fab.routes (src * 64 + dst)
  if rb s (pgRing 0) Reg.FAB_CTL 0 && e.testBit 0 then
    match entryLegs src dst e with
    | some l => if l.any (legDown s) then xFirstLegs s src dst else l
    | none => xFirstLegs s src dst
  else xFirstLegs s src dst

/-! ### The deal (R250 to R256) -/

/-- The rank of a class within one partition's traffic (R253). -/
def classRank : Traffic → Nat
  | .control => 0
  | .guaranteed => 1
  | .reduction => 2
  | .bestEffort => 3

/-- The rank at which a packet may use a slot of a deal entry, lower first; none where it may not (R252 to R254). -/
def slotRank (strict : Bool) (entry : Nat) (cls : Traffic) (part : Nat) : Option Nat :=
  let owner := entry % 32
  if owner < 16 then
    if part = owner then some (classRank cls)
    else if !strict && entry.testBit 5 && cls = .bestEffort then some 4
    else none
  else if owner = 0x11 then
    if cls ≠ .control then none
    else if part = 0x1F then some 0
    else if strict then none
    else some 1
  else if owner = 0x10 then
    if strict then none
    else if cls = .control then some 0
    else if cls = .bestEffort then some 1
    else none
  else none

/-- A deal entry of a table; unlisted entries are IDLE. -/
def dealEntry (t : List (Nat × Nat)) (r link : Nat) (back : Bool) (i : Nat) : Nat :=
  ((t.find? fun e => e.1 = linkKey r link back * 64 + i).map (·.2)).getD 0x1F

/-- The lanes a link carries (R239, R264). -/
def lanesOn (s : State) (r link : Nat) (back : Bool) : Nat :=
  if s.fab.down.contains (linkKey r link back) then 0
  else 4 - popCount (tally s.fab.lanesOff (linkKey r link back)) 4

/-- The place of a stop on its ring, counted the way the packets go (R251; log entry 35). -/
def placeOf (r stop : Nat) (back : Bool) : Nat := if back then ringLinks r - 1 - stop else stop

/-- The deal entry that governs a slot leaving a stop at a ring cycle (R251). -/
def dealFor (s : State) (r stop : Nat) (back : Bool) (cycle : Nat) : Nat :=
  dealEntry s.fab.active r stop back ((cycle + 64 - 4 * placeOf r stop back % 64) % 64)

/-! ### Regulators (R256) -/

/-- The key of a BEST_EFFORT regulator: source node, ring, direction, partition (R256). -/
def beKey (node r : Nat) (back : Bool) (p : Nat) : Nat := ((node * 8 + r) * 2 + back.toNat) * 32 + p

/-- The bytes a regulator holds when full. -/
def beFull (s : State) (r p : Nat) : Nat := rf s (pgRing r) (Reg.BE_LIMIT (p % 16)) 16 8 * 256

/-- The tokens a regulator holds, in bytes. -/
def beTokens (s : State) (node r : Nat) (back : Bool) (p : Nat) : Nat :=
  match s.fab.tokens.find? fun e => e.1 = beKey node r back p with
  | some e => min e.2 (beFull s r p)
  | none => beFull s r p

/-- Every partition's BEST_EFFORT is regulated; device-wide traffic is not a partition's (R256). -/
def regulated (q : Parcel) : Bool := q.cls = .bestEffort && decide (q.part < 16)

/-- A parcel's regulator has a token for it, on the leg it joins the ring by. -/
def tokenOk (s : State) (q : Parcel) (l : Leg) : Bool :=
  !(regulated q) ||
    (decide (256 ≤ beTokens s (stopOf q.src) l.ring l.back q.part) &&
      decide (rf s (pgRing l.ring) (Reg.BE_LIMIT (q.part % 16)) 0 12 ≠ 0))

/-- A parcel takes its token. -/
def takeToken (s : State) (q : Parcel) (l : Leg) : State :=
  if regulated q then
    let key := beKey (stopOf q.src) l.ring l.back q.part
    let left := beTokens s (stopOf q.src) l.ring l.back q.part - 256
    { s with fab := { s.fab with tokens := (s.fab.tokens.filter fun e => e.1 ≠ key) ++ [(key, left)] } }
  else s

/-- The regulators over one 40 ns tick (R256): RATE in GB/s is 40 bytes for each unit. -/
def refillTokens (s : State) : State :=
  let step (e : Nat × Nat) : Nat × Nat :=
    let p := e.1 % 32
    let r := e.1 / 64 % 8
    (e.1, min (beFull s r p) (e.2 + 40 * rf s (pgRing r) (Reg.BE_LIMIT (p % 16)) 0 12))
  { s with fab := { s.fab with tokens := s.fab.tokens.map step } }

/-! ### Credits (R243, R244) -/

/-- The buffers that legs end in: the turn buffers, then the ejection buffer, by ring and place, with whether it is the
last. -/
def buffersOf : List Leg → List (Nat × Nat × Bool)
  | [] => []
  | l :: t => (l.ring, l.dst, t.isEmpty) :: buffersOf t

/-- The entries of a partition's pool of a buffer that are taken: by packets in it, and by those on their way to it, which
hold its credits (R243, R244). -/
def poolUsed (s : State) (b : Nat × Nat × Bool) (part : Nat) : Nat :=
  s.fab.packets.countP fun p => p.load.part = part && (buffersOf (p.leg :: p.rest)).contains b

/-- The source holds a credit for every buffer of the route (R243, R244). -/
def creditsOk (s : State) (legs : List Leg) (part : Nat) : Bool :=
  (buffersOf legs).all fun b =>
    decide (poolUsed s b part ≤ Config.poolDepth (((ringStops b.1)[b.2.1]?).getD 0) b.1)

/-- The legs of a parcel's route; between two units of one stop, a leg of no links. -/
def parcelLegs (s : State) (q : Parcel) : List Leg :=
  match routeOf s (stopOf q.src) (stopOf q.dst) with
  | [] =>
    match (List.range 8).findSome? fun r => (stopAt r (stopOf q.src)).map fun i => (r, i) with
    | some (r, i) => [⟨r, false, i, i⟩]
    | none => []
  | l :: t => l :: t

/-! ### Slots (R251 to R254) -/

/-- A packet has reached the end of its leg. -/
def arrived (p : Packet) (cycle : Nat) : Bool := decide (p.cycle + 4 * (legLinks p.leg).length ≤ cycle)

/-- A packet has reached the end of its leg and waits in the turn buffer of the stop for this ring and direction. -/
def waitsTurn (p : Packet) (r stop : Nat) (back : Bool) (cycle : Nat) : Bool :=
  match p.rest with
  | l :: _ => l.ring = r && l.back = back && l.src = stop && arrived p cycle
  | [] => false

/-- A request held at its port could join the ring here: it has its credits and its token, and its partition's locks are
open (R243, R256, R261). -/
def waitsPort (s : State) (q : Parcel) (r stop : Nat) (back : Bool) : Bool :=
  match parcelLegs s q with
  | l :: t =>
    l.ring = r && l.back = back && l.src = stop && !(legLinks l).isEmpty && creditsOk s (l :: t) q.part && tokenOk s q l &&
      !(lockedUnit s q.src)
  | [] => false

/-- What waits at a stop for a slot of a ring and direction. -/
def waitingAt (s : State) (r stop : Nat) (back : Bool) (cycle : Nat) : List Parcel :=
  ((s.fab.packets.filter fun p => waitsTurn p r stop back cycle).map fun p => p.load) ++
    s.fab.ports.filter fun q => waitsPort s q r stop back

/-- The order in which packets of a rank go: of a slot that any partition's BEST_EFFORT may use, the partitions in rotating
priority after the last served; then the oldest request first (R253). -/
def turnOf (s : State) (r stop : Nat) (back : Bool) (entry : Nat) (q : Parcel) : Nat × Nat :=
  let shared := q.cls = .bestEffort && decide (entry % 32 ≠ q.part)
  (if shared then (q.part + 63 - tally s.fab.rotate (linkKey r stop back)) % 32 else 0, q.id)

/-- One packet goes before another at a slot (R253, R254). -/
def before (a b : Nat × Nat × Nat) : Bool :=
  decide (a.1 < b.1) || (decide (a.1 = b.1) && (decide (a.2.1 < b.2.1) || (decide (a.2.1 = b.2.1) && decide (a.2.2 < b.2.2))))

/-- Slots of a link that are taken at a ring cycle (R239, R253). -/
def slotsUsed (s : State) (r stop : Nat) (back : Bool) (cycle : Nat) : Nat :=
  s.fab.used.countP fun u => u.1 = linkKey r stop back && u.2 = cycle

/-- Whether a packet may take a slot leaving a stop at a ring cycle (R251 to R254): its entry permits it, and a lane is
left beside the packets in transit and those waiting that go before it. -/
def slotFree (s : State) (r stop : Nat) (back : Bool) (cycle : Nat) (q : Parcel) : Bool :=
  let strict := rb s (pgRing r) Reg.RING_CTL 0
  let e := dealFor s r stop back cycle
  let key (q : Parcel) : Option (Nat × Nat × Nat) :=
    (slotRank strict e q.cls q.part).map fun n => (n, turnOf s r stop back e q)
  match key q with
  | none => false
  | some n =>
    let ahead := (waitingAt s r stop back cycle).countP fun w =>
      decide (w.id ≠ q.id) &&
        (match key w with
         | some m => before m n
         | none => false)
    decide (slotsUsed s r stop back cycle + ahead < lanesOn s r stop back)

/-- The index of a class's slot counter (R265). -/
abbrev flitsOf (c : Traffic) : Nat := Reg.FLITS (classRank c)

/-- The slots of a run of links that a packet uses from a ring cycle: four cycles from stop to stop (R251). -/
def slotsFrom (r : Nat) (back : Bool) (cycle : Nat) : Nat → List Nat → List (Nat × Nat)
  | _, [] => []
  | n, i :: t => (linkKey r i back, cycle + 4 * n) :: slotsFrom r back cycle (n + 1) t

/-- A parcel takes the slots of a run of links from a ring cycle (R251, R253): counted, and its partition is the last served
where it takes a shared slot. -/
def takeSlots (s : State) (q : Parcel) (r : Nat) (back : Bool) (links : List Nat) (cycle : Nat) : State :=
  match links with
  | [] => s
  | i :: t =>
    let k := linkKey r i back
    let shared := q.cls = .bestEffort && decide (dealFor s r i back cycle % 32 ≠ q.part)
    let rot := if shared then (s.fab.rotate.filter fun e => e.1 ≠ k) ++ [(k, q.part)] else s.fab.rotate
    addReg { s with fab := { s.fab with
        used := s.fab.used ++ slotsFrom r back cycle 0 (i :: t)
        rotate := rot } } (pgRing r) (flitsOf q.cls) 1

/-- Owner slots of a link's entry left idle in the 80 ring cycles of a tick (R265). -/
def idleOf (s : State) (e : Nat × Nat) : Nat :=
  let link := e.1 / 64
  let r := link / 16
  let i := link / 2 % 8
  let back := decide (link % 2 = 1)
  if r < 8 ∧ i < ringLinks r ∧ e.2 % 32 < 16 then
    let off := (e.1 % 64 + 4 * placeOf r i back + 64 - s.fab.clock % 64) % 64
    ([off, off + 64].filter fun d => decide (d < 80)).foldl
      (fun n d => n + (lanesOn s r i back - slotsUsed s r i back (s.fab.clock + d))) 0
  else 0

/-- The fabric over one 40 ns tick (R251, R256, R265): 80 ring cycles pass. -/
def tickFabric (s : State) : State :=
  let s := refillTokens s
  let s := s.fab.active.foldl (fun s e => addReg s (pgRing (e.1 / 1024)) Reg.IDLE_OWNED (idleOf s e)) s
  { s with fab := { s.fab with
      clock := s.fab.clock + 80
      used := s.fab.used.filter fun u => decide (s.fab.clock + 80 ≤ u.2) } }

/-! ### Packets -/

/-- The class of what a unit sends for a partition (R250). -/
def classOf (s : State) (part : Nat) (c : Cargo) : Traffic :=
  match c with
  | .work ctx => if rb s (pgPart part) (Reg.CTX_CFG ctx) 13 then .guaranteed else .bestEffort
  | .dma c => if rb s (pgDma c) Reg.DMA_CFG 0 then .guaranteed else .bestEffort
  | .chiplet cls => cls
  | .control => .control
  | .pot => .reduction
  | _ => .bestEffort

/-- A packet or a broadcast that has reached the stop of `src` and may cause another there: its PART and class (R241). -/
def causeOf (s : State) (src : FabUnit) (id : Nat) : Option (Nat × Traffic) :=
  match s.fab.served.find? fun q => q.id = id && stopOf q.dst = stopOf src with
  | some q => some (q.part, q.cls)
  | none =>
    (s.fab.casts.find? fun c => c.id = id && c.got.contains (stopOf src) && !(c.acked.contains (stopOf src))).map fun c =>
      (c.part, .control)

/-- What a unit asks to send (R241, R250): at most 256 bytes in one transfer, or up to four transfers without data.  PART is
the partition's of a unit that belongs to one; what a request causes carries the request's PART and class. -/
def parcelOf (s : State) (src dst : FabUnit) (p : Nat) (cargo : Cargo) (bytes n : Nat) : Option Parcel :=
  if !(unitOk src && unitOk dst) || lockedUnit s src || decide (256 < bytes) ||
      !(if bytes = 0 then decide (1 ≤ n) && decide (n ≤ 4) else decide (n = 1)) then none
  else
    match cargo with
    | .caused id last =>
      (causeOf s src id).map fun c => ⟨s.fab.nextId, src, dst, c.2, c.1, bytes, n, some id, last⟩
    | c =>
      if (p < 16 ∨ p = 0x1F) ∧ ((domainOf src).isNone ∨ domainOf src = some p) then
        some ⟨s.fab.nextId, src, dst, classOf s p c, p, bytes, n, none, false⟩
      else none

/-- A request leaves its port (R243, R251 to R256): with its credits and its token, in a slot of its first leg that the deal
grants it. -/
def tryInject (s : State) (q : Parcel) (cycle : Nat) : State :=
  match parcelLegs s q with
  | [] => s
  | l :: rest =>
    let here := (legLinks l).isEmpty
    if !(lockedUnit s q.src) && !(scrubStops s q) && creditsOk s (l :: rest) q.part &&
        (here || (tokenOk s q l && slotFree s l.ring l.src l.back cycle q)) then
      let s := if here then s else takeSlots (takeToken s q l) q l.ring l.back (legLinks l) cycle
      { s with fab := { s.fab with
          ports := s.fab.ports.erase q
          packets := s.fab.packets ++ [⟨q, l, cycle, rest⟩] } }
    else s

/-- PACKET_INJECT (R241 to R244, R246, R247, R250 to R256, R261): a request comes to its source's port and leaves it if it
can; else it is held there, and the command with its number tries `again`. -/
def execPacketInject (src dst : FabUnit) (p : Nat) (cargo : Cargo) (bytes n cycle : Nat) (again : Option Nat) (s : State) : Res :=
  .next (match again with
    | some id =>
      match s.fab.ports.find? fun q => q.id = id with
      | some q => tryInject s q (s.fab.clock + cycle)
      | none => s
    | none =>
      match parcelOf s src dst p cargo bytes n with
      | some q =>
        tryInject { s with fab := { s.fab with ports := s.fab.ports ++ [q], nextId := s.fab.nextId + 1 } } q
          (s.fab.clock + cycle)
      | none => s)

/-- The links of a whole ring from a stop. -/
def loopLinks (r stop : Nat) : List Nat := (List.range (ringLinks r)).map fun i => (stop + i) % ringLinks r

/-- The parcel that a broadcast's copy is (R249, R250). -/
def castParcel (c : Cast) : Parcel := ⟨c.id, c.src, c.src, .control, c.part, 0, 1, none, false⟩

/-- The stops of a ring that a broadcast has newly reached. -/
def castStops (c : Cast) (r : Nat) : List Nat := (ringStops r).filter fun n => !(c.got.contains n)

/-- A copy of a broadcast takes its slot (R249): a controller's first goes to the edge row of its column and on round that
X-ring; round an X-ring, each partition stop it passes copies it round its Y-ring. -/
def copyTaken (c : Cast) (v : Nat × Nat × Nat) (cycle : Nat) : Cast :=
  let left := c.copies.erase v
  if c.got.isEmpty && decide (4 ≤ v.1) then
    let row := if v.2.1 = 0 then 0 else 3
    let turn := 4 * row + (v.1 - 4)
    { c with copies := left ++ ((stopAt row turn).map fun i => (row, i, cycle + 4)).toList, got := [stopOf c.src] }
  else if v.1 < 4 then
    let ys := (List.range (ringLinks v.1)).filterMap fun i =>
      let n := ((ringStops v.1)[(v.2.1 + i) % ringLinks v.1]?).getD 0
      if n < 16 then (stopAt (4 + n % 4) n).map fun j => (4 + n % 4, j, cycle + 4 * i) else none
    { c with copies := left ++ ys, got := c.got ++ castStops c v.1 }
  else { c with copies := left, got := c.got ++ castStops c v.1 }

/-- The links that a copy of a broadcast crosses. -/
def copyLinks (c : Cast) (v : Nat × Nat × Nat) : List Nat × Bool :=
  if c.got.isEmpty && decide (4 ≤ v.1) then ([v.2.1], decide (v.2.1 ≠ 0)) else (loopLinks v.1 v.2.1, false)

/-- A waiting copy of a broadcast takes a slot that the deal grants it at a ring cycle. -/
def tryCopy (s : State) (c : Cast) (cycle : Nat) : State :=
  match c.copies.find? fun v =>
      decide (v.2.2 ≤ cycle) && slotFree s v.1 v.2.1 (copyLinks c v).2 cycle (castParcel c) with
  | none => s
  | some v =>
    let l := copyLinks c v
    let s := takeSlots s (castParcel c) v.1 l.2 l.1 cycle
    { s with fab := { s.fab with casts := s.fab.casts.map fun d => if d = c then copyTaken c v cycle else d } }

/-- PACKET_TURN (R245, R249, R253, R254, R264): a packet that has reached its turn, or a broadcast's copy, takes a slot on
the next ring. -/
def execPacketTurn (id cycle : Nat) (s : State) : Res :=
  .next (
    let now := s.fab.clock + cycle
    match s.fab.packets.find? fun p => p.load.id = id with
    | none =>
      (match s.fab.casts.find? fun c => c.id = id with
       | some c => tryCopy s c now
       | none => s)
    | some p =>
      match p.rest with
      | [] => s
      | l :: rest =>
        if waitsTurn p l.ring l.src l.back now && slotFree s l.ring l.src l.back now p.load then
          let v := { p with leg := l, cycle := now, rest := rest }
          takeSlots { s with fab := { s.fab with packets := s.fab.packets.map fun q => if q = p then v else q } } p.load
            l.ring l.back (legLinks l) now
        else s)

/-- The unit's island is asleep. -/
def asleepUnit (s : State) (u : FabUnit) : Bool :=
  match islandOf u with
  | some i => s.fab.asleep.contains i
  | none => false

/-- What an answer that has arrived ends: its request is served no more; a broadcast has one more acknowledgement (R241,
R249). -/
def answered (f : Fab) (q : Parcel) : Fab :=
  { f with
    served := if q.last then f.served.filter fun r => some r.id ≠ q.cause else f.served
    casts := f.casts.map fun c =>
      if q.last && decide (q.cause = some c.id) then { c with acked := c.acked ++ [stopOf q.src] } else c }

/-- PACKET_DELIVER (R243, R258, R261): a packet that has reached its destination's stop leaves for its island, which is
awake.  The lock of a partition under reset absorbs an answer and answers a request with PARTNER_RESET. -/
def execPacketDeliver (id cycle : Nat) (s : State) : Res :=
  .next (match s.fab.packets.find? fun p => p.load.id = id with
    | none => s
    | some p =>
      let q := p.load
      if p.rest.isEmpty && arrived p (s.fab.clock + cycle) && (lockedUnit s q.dst || !(asleepUnit s q.dst)) then
        let f := answered { s.fab with packets := s.fab.packets.erase p } q
        if lockedUnit s q.dst then
          (if q.last then { s with fab := f } else emit { s with fab := f } (.packet id (stopOf q.dst) 0x0D))
        else
          emit { s with fab := { f with served := if q.last then f.served else f.served ++ [q] } } (.packet id (stopOf q.dst) 0)
      else s)

/-- A packet for an island has reached its stop. -/
def waitsIsland (s : State) (island now : Nat) : Bool :=
  s.fab.packets.any fun p => p.rest.isEmpty && decide (islandOf p.load.dst = some island) && arrived p now

/-- ISLAND_WAKE (R258): a packet waits at the stop of a sleeping island, and the island wakes. -/
def execIslandWake (island cycle : Nat) (s : State) : Res :=
  .next (if s.fab.asleep.contains island ∧ waitsIsland s island (s.fab.clock + cycle) then
      addReg { s with fab := { s.fab with asleep := s.fab.asleep.filter fun i => i ≠ island } } (pgRing 0) Reg.WAKES 1
    else s)

/-- The descriptors on the units of a cluster island (0 to 127) or a sweep island (128 to 191). -/
def islandBusy (s : State) (island : Nat) : Bool :=
  s.work.any fun w =>
    if w.unit < 128 then decide (8 * w.part + w.unit / 16 = island)
    else if w.unit < 132 then decide (128 + 4 * w.part + (w.unit - 128) = island)
    else false

/-- ISLAND_SLEEP (R258, R331): a cluster or sweep island with no work stops its clock; a packet that has arrived for it
abandons the sleep. -/
def execIslandSleep (island cycle : Nat) (s : State) : Res :=
  .next (if island < 192 ∧ !(s.fab.asleep.contains island) ∧ !(islandBusy s island) ∧
      !(waitsIsland s island (s.fab.clock + cycle)) then
      { s with fab := { s.fab with asleep := s.fab.asleep ++ [island] } }
    else s)

/-- Where a broadcast starts: round the source's X-ring, or from a controller along its Y-ring (R249; log entry 35). -/
def castStart (src : FabUnit) (cycle : Nat) : Option (Nat × Nat × Nat) :=
  let n := stopOf src
  match homeRow n with
  | some r => (stopAt r n).map fun i => (r, i, cycle)
  | none => (stopAt (4 + colOf n) n).map fun i => (4 + colOf n, i, cycle)

/-- BROADCAST (R249): a packet round the source's X-ring, copied round the Y-ring of each partition stop it passes; each
takes a slot that the deal grants it. -/
def execBroadcast (src : FabUnit) (p cycle : Nat) (s : State) : Res :=
  .next (
    let now := s.fab.clock + cycle
    match castStart src now with
    | none => s
    | some v =>
      if unitOk src && !(lockedUnit s src) && (decide (p < 16) || decide (p = 0x1F)) then
        let c : Cast := ⟨s.fab.nextId, src, p, [v], [], []⟩
        tryCopy { s with fab := { s.fab with casts := s.fab.casts ++ [c], nextId := s.fab.nextId + 1 } } c now
      else s)

/-- Every copy of a broadcast has been taken, and every stop but the source's has acknowledged; for the units of a partition
under reset its lock does (R249, R261). -/
def castDone (s : State) (c : Cast) : Bool :=
  c.copies.isEmpty &&
    c.got.all fun n => decide (n = stopOf c.src) || c.acked.contains n || (decide (n < 16) && decide (partState s n = 6))

/-- BROADCAST_COMPLETE (R249): every acknowledgement has arrived. -/
def execBroadcastComplete (id : Nat) (s : State) : Res :=
  .next { s with fab := { s.fab with casts := s.fab.casts.filter fun c => !(c.id = id && castDone s c) } }

/-- The slots of a broadcast that another command stands for as a whole, from the stop of a node on an X-ring (R185, R249,
R479; log entry 35). -/
def castFlits (s : State) (node : Nat) : State :=
  [(homeRow node).getD 0, 4, 5, 6, 7].foldl (fun s q => addReg s (pgRing q) (flitsOf .control) 1) s

/-- Something of partition `k` is on its way out of its units (R261): a write that is not acknowledged, or an answer not
delivered. -/
def outbound (s : State) (k : Nat) : Bool :=
  (s.fab.packets.any fun p => decide (domainOf p.load.src = some k)) ||
    s.fab.served.any fun q => decide (domainOf q.src = some k) && decide (q.bytes ≠ 0)

/-- A partition's units are reset: the requests held at their ports are gone (R261). -/
def dropPorts (s : State) (k : Nat) : State :=
  { s with fab := { s.fab with ports := s.fab.ports.filter fun q => decide (domainOf q.src ≠ some k) } }

/-! ### Deal and route writes -/

/-- The entries of ring `r` listed in a table, with their keys. -/
def ringEntries (t : List (Nat × Nat)) (r : Nat) : List (Nat × Nat) := t.filter fun e => e.1 / 1024 = r

/-- A write of the shadow entries that `DEAL_SEL` names (R255, R265). -/
def writeDeal (s : State) (r : Nat) (v : Word) : State :=
  let sel := rd s (pgRing r) Reg.DEAL_SEL
  let base := linkKey r (fld sel 0 3) (bit sel 4) * 64 + 8 * fld sel 8 3
  let keep := s.fab.shadow.filter fun e => !(decide (base ≤ e.1) && decide (e.1 < base + 8))
  let fresh := ((List.range 8).map fun g => (base + g, fld v (8 * g) 6)).filter fun e => e.2 ≠ 0x1F
  { s with fab := { s.fab with shadow := keep ++ fresh } }

/-- A commit of ring `r` would change an entry whose old or new OWNER is a SEALED partition (R255). -/
def movesSealed (s : State) (r : Nat) : Bool :=
  let held (e : Nat) : Bool := decide (e % 32 < 16) && sealHeld s (e % 32)
  ((ringEntries s.fab.active r ++ ringEntries s.fab.shadow r).map (·.1)).any fun k =>
    let a := dealAt s.fab.active k
    let b := dealAt s.fab.shadow k
    decide (a ≠ b) && (held a || held b)

/-- DEAL_COMMIT (R255): rejected while one is pending, and in strict mode where it would move a sealed partition. -/
def execDealCommit (fn r : Nat) (s : State) : Res :=
  .next (if r < 8 then withWrite s fn (pgRing r) Reg.DEAL_COMMIT fun s =>
      guarded s (pgRing r)
        (!(s.fab.commits.contains r) && !(rb s (pgRing r) Reg.RING_CTL 0 && movesSealed s r)) fun s =>
        wb { s with fab := { s.fab with commits := s.fab.commits ++ [r] } } (pgRing r) Reg.DEAL_STAT 16 true
    else s)

/-- COMMIT_DONE (R255, R266): at the frame boundary the shadows of the ring become active; a commit that would move a sealed
partition's entries by then is rejected, as when it was asked for. -/
def execCommitDone (r : Nat) (s : State) : Res :=
  .next (if s.fab.commits.contains r then
      let p := pgRing r
      let s := { s with fab := { s.fab with commits := s.fab.commits.filter fun q => q ≠ r } }
      if rb s p Reg.RING_CTL 0 && movesSealed s r then reject (wb s p Reg.DEAL_STAT 16 false) p
      else
      let s := { s with fab := { s.fab with
          active := (s.fab.active.filter fun e => e.1 / 1024 ≠ r) ++ ringEntries s.fab.shadow r } }
      raiseEvt (wf (wb s p Reg.DEAL_STAT 16 false) p Reg.DEAL_STAT 0 16 (rf s p Reg.DEAL_STAT 0 16 + 1)) p 3
    else s)

/-- ROUTE_MODE_WRITE (R246, R248): packets injected from now on take the new mode; those on the ring keep their
route. -/
def execRouteModeWrite (fn : Nat) (v : Word) (s : State) : Res :=
  .next (withWrite s fn (pgRing 0) Reg.FAB_CTL fun s => wb s (pgRing 0) Reg.FAB_CTL 0 (bit v 0))

/-- Set an entry of the route table. -/
def setRoute (s : State) (src dst e : Nat) : State :=
  let key := src * 64 + dst
  { s with fab := { s.fab with
      routes := (s.fab.routes.filter fun x => x.1 ≠ key) ++ (if e = 0 then [] else [(key, e)]) } }

/-- An entry may be written (R247): it is not in use, or describes a route that crosses no link marked down. -/
def routeOk (s : State) (src dst e : Nat) : Bool :=
  !(e.testBit 0) ||
    (match entryLegs src dst e with
     | some l => !l.isEmpty && !(l.any (legDown s))
     | none => false)

/-- ROUTE_DATA_WRITE (R40, R247): the entry that `ROUTE_SEL` names; locked, only its present value may be written. -/
def execRouteDataWrite (fn : Nat) (v : Word) (s : State) : Res :=
  .next (withWrite s fn (pgRing 0) Reg.ROUTE_DATA fun s =>
    let src := rf s (pgRing 0) Reg.ROUTE_SEL 0 6
    let dst := rf s (pgRing 0) Reg.ROUTE_SEL 8 6
    let e := fld v 0 12
    guarded s (pgRing 0)
      (if e = tally s.fab.routes (src * 64 + dst) then true else !(locked s (pgRing 0)) && routeOk s src dst e) fun s =>
      setRoute s src dst e)

/-! ### Lanes and links (R263, R264, R266) -/

/-- The key of a bit lane (R263). -/
def wireKey (r link : Nat) (back : Bool) (lane group wire : Nat) : Nat :=
  ((linkKey r link back * 4 + lane) * 8 + group) * 64 + wire

/-- The failures of a bit lane in the last millisecond, which is 25,000 ticks (R263). -/
def wireErrs (s : State) (key : Nat) : Nat :=
  let now := (rd s pgErr Reg.ERR_TIME).toNat
  s.fab.laneErrs.countP fun e => e.1 = key && decide (now < e.2 + 25000)

/-- A failure of a bit lane is noted; those a millisecond old are forgotten. -/
def noteWire (s : State) (key : Nat) : State :=
  let now := (rd s pgErr Reg.ERR_TIME).toNat
  { s with fab := { s.fab with laneErrs := (s.fab.laneErrs.filter fun e => decide (now < e.2 + 25000)) ++ [(key, now)] } }

/-- The slots that a packet has yet to leave on its leg, from place `n` of it. -/
def slotsAfter (p : Packet) (n : Nat) : List (Nat × Nat) :=
  slotsFrom p.leg.ring p.leg.back p.cycle n ((legLinks p.leg).drop n)

/-- A replayed packet takes the same index one frame later, on this link and those after it (R263). -/
def replayPacket (s : State) (id k : Nat) : State :=
  match s.fab.packets.find? fun p => p.load.id = id with
  | none => s
  | some p =>
    match (legLinks p.leg).findIdx? fun i => linkKey p.leg.ring i p.leg.back = k with
    | none => s
    | some n =>
      let v := { p with cycle := p.cycle + 64 }
      { s with fab := { s.fab with
          packets := s.fab.packets.map fun q => if q = p then v else q
          used := (slotsAfter p n).foldl (fun u e => u.erase e) s.fab.used ++ slotsAfter v n } }

/-- CRC_REPLAY (R263, R266): a slot that fails its check is sent again; `again` 1 fails after its replay too, CRC_PERSIST, and
2 is a credit that fails its parity, CREDIT_PARITY (log entry 35). -/
def execCrcReplay (r link : Nat) (dir : Bool) (lane group wire : Nat) (id : Option Nat) (again : Nat) (s : State) : Res :=
  .next (
    let k := linkKey r link dir
    if r < 8 ∧ link < ringLinks r ∧ lane < 4 ∧ group < 8 ∧ wire < 34 ∧ !(s.fab.down.contains k) then
      if again = 2 then countError s (pgRing r) 4 3 0 none
      else
        let s := addReg (noteWire s (wireKey r link dir lane group wire)) (pgRing r) Reg.CRC_REPLAYS 1
        let s := match id with
          | some n => replayPacket s n k
          | none => s
        if again = 1 then countError s (pgRing r) 1 3 0 none else s
    else s)

/-- A leg to come that would cross a link that goes down goes the other way round its ring (R264). -/
def turnLeg (r link : Nat) (back : Bool) (l : Leg) : Leg :=
  if l.ring = r && l.back = back && (legLinks l).contains link then { l with back := !back } else l

/-- A packet that has yet to cross a link that goes down turns back at the upstream stop, where it waits for a slot the other
way round (R264). -/
def turnBack (r link : Nat) (back : Bool) (now : Nat) (p : Packet) : Packet :=
  let rest := p.rest.map (turnLeg r link back)
  if p.leg.ring = r ∧ p.leg.back = back then
    match (legLinks p.leg).findIdx? fun i => i = link with
    | some n =>
      if now ≤ p.cycle + 4 * n then
        { p with leg := { p.leg with dst := link }, rest := ⟨r, !back, link, p.leg.dst⟩ :: rest }
      else { p with rest := rest }
    | none => { p with rest := rest }
  else { p with rest := rest }

/-- A link is marked down (R264, R266): recorded, its ring in FAULT until power-on, packets turned back, and the field map
keeps it. -/
def linkDown (s : State) (r link : Nat) (back : Bool) (now : Nat) : State :=
  let k := linkKey r link back
  let s := { s with
    fab := { s.fab with
      down := s.fab.down ++ [k]
      packets := s.fab.packets.map (turnBack r link back now)
      used := s.fab.used.filter fun u => !(u.1 = k && decide (now ≤ u.2))
      faulted := if s.fab.faulted.contains r then s.fab.faulted else s.fab.faulted ++ [r] }
    flash := { s.flash with fieldMap := { s.flash.fieldMap with links := s.flash.fieldMap.links ++ [k] } } }
  setState (raiseEvt (countError s (pgRing r) 3 0 3 none) (pgRing r) 2) (pgRing r) 5

/-- A lane is disabled on a link (R264); the second one takes the link down. -/
def laneOff (s : State) (r link : Nat) (back : Bool) (lane now : Nat) : State :=
  let k := linkKey r link back
  let m := tally s.fab.lanesOff k ||| (1 <<< lane)
  let s := { s with fab := { s.fab with lanesOff := (s.fab.lanesOff.filter fun e => e.1 ≠ k) ++ [(k, m)] } }
  let s := raiseEvt (countError s (pgRing r) 2 0 0 none) (pgRing r) 1
  if 2 ≤ popCount m 4 then linkDown s r link back now else s

/-- LANE_SPARE (R263, R264): a bit lane with more than 16 failures in 1 ms is steered to a spare of its group; a third need
disables the lane. -/
def execLaneSpare (r link : Nat) (dir : Bool) (lane group wire cycle : Nat) (s : State) : Res :=
  .next (
    let k := linkKey r link dir
    let w := wireKey r link dir lane group wire
    if r < 8 ∧ link < ringLinks r ∧ lane < 4 ∧ group < 8 ∧ !(s.fab.down.contains k) ∧
        !((tally s.fab.lanesOff k).testBit lane) ∧ 16 < wireErrs s w then
      let g := (k * 4 + lane) * 8 + group
      let s := { s with fab := { s.fab with laneErrs := s.fab.laneErrs.filter fun e => e.1 ≠ w } }
      let s :=
        if tally s.fab.spares g < 2 then
          raiseEvt { s with
            fab := { s.fab with spares := tallyUp s.fab.spares g }
            flash := { s.flash with fieldMap := { s.flash.fieldMap with spares := s.flash.fieldMap.spares ++ [g] } } } (pgRing r) 0
        else laneOff s r link dir lane (s.fab.clock + cycle)
      systemEntry s 3 (pgRing r) [laneWord s r link dir lane]
    else s)

end Sys2Proof.Machine
end

