-- ==== Sys2Proof/Machine/Manifest.lean ====
section
/-!
DEFINITION. The manifest's commands (R169, R174 to R195, R499): walks, fault records, invalidations, rings, hot
pages, prefetch, advice and migration.
-/

namespace Sys2Proof.Machine

/-- A parity error in the entry that a lookup of `va` meets first, in the requester's micro-TLB, the slice or the walk
cache: that entry is dropped and counted (R174). -/
def parityDrop (s : State) (k req va : Nat) : State :=
  let mine (e : MicroEntry) : Bool := e.part = k && e.req = req && e.va = pageVa e.level va
  let leaf (e : SliceEntry) : Bool := e.part = k && e.va = pageVa e.level va
  let table (l : Nat) (e : WalkEntry) : Bool := e.part = k && e.level = l && sameEntry l e.va va
  let dropped (s : State) : State := addReg s (pgMf k) Reg.PARITY_DROPS 1
  if s.xlat.micro.any mine then dropped (dropMicro s mine)
  else if s.xlat.slice.any leaf then
    dropped { s with xlat := { s.xlat with slice := s.xlat.slice.filter fun e => !(leaf e) } }
  else
    match [2, 1, 0].find? fun l => s.xlat.walk.any (table l) with
    | none => s
    | some l => dropped { s with xlat := { s.xlat with walk := s.xlat.walk.filter fun e => !(table l e) } }

/-- The descriptor executing on a requester's unit. -/
def unitWorkOf (s : State) (k req : Nat) : Option Work :=
  s.work.find? fun w => w.part = k && w.unit = req && w.phase = .run

/-- WALK_END (R174, R177, R180): requester `req` translates `va`; with `parity`, an entry held for it is dropped
and walked afresh.  A fault is recorded and holds or ends the descriptor on the unit. -/
def execWalkEnd (k req va : Nat) (wr parity : Bool) (s : State) : Res :=
  .next (if k < 16 ∧ req < 169 then
      match translate (if parity then parityDrop s k req va else s) k req (va % 2 ^ 52) 0 wr with
      | (.ok _ _, s) => s
      | (.fault kind level, s) =>
        let t : Tile := ⟨va % 2 ^ 52, 0, 1, 1, if req < 128 ∨ req = 168 then 7 else if req < 132 then 4 else if req < 164 then 5 else 6⟩
        match unitWorkOf s k req with
        | some w => stopWork s w t wr (.fault (va % 2 ^ 52 / 65536 * 65536) kind level)
        | none =>
          (recordFault s ⟨k, req, va % 2 ^ 52 / 65536 * 65536, level, kind, wr, 0, 0, t.operand, 0, t.va, 0, 1, 1⟩).2
    else s)

/-- FAULT_RECORD_RELEASE (R182): a waiting fault is recorded or merged once there is room. -/
def execFaultRecordRelease (k : Nat) (s : State) : Res := .next (pumpFaults s k s.xlat.waiting.length)

/-- The open record of partition `k` with this FAULT_ID. -/
def openRec (s : State) (k id : Nat) : Option FaultRec := s.xlat.recs.find? fun r => r.info.part = k && r.id = id

/-- A write of `FAULT_RESOLVE` with GO (R181): rejected where the record is not open. -/
def resolveFault (s : State) (fn k id : Nat) (retry : Bool) : State :=
  withWrite s fn (pgMf k) Reg.FAULT_RESOLVE fun s =>
    match openRec s k id with
    | some r => closeRecord s r retry 1 1
    | none => reject s (pgMf k)

/-- FAULT_RESOLVE_RETRY (R181). -/
def execFaultResolveRetry (fn k id : Nat) (s : State) : Res := .next (resolveFault s fn k id true)

/-- FAULT_RESOLVE_FAIL (R181). -/
def execFaultResolveFail (fn k id : Nat) (s : State) : Res := .next (resolveFault s fn k id false)

/-- FAULT_TIMEOUT (R183): with a timeout set, an open record is resolved as FAIL and error 0x0A recorded. -/
def execFaultTimeout (k id : Nat) (s : State) : Res :=
  .next (match openRec s k id with
    | some r =>
      if rf s (pgMf k) Reg.MF_CFG 32 16 = 0 then s
      else raiseEvt (countError (closeRecord s r false 1 1) (pgMf k) 0x0A 1 1 none) (pgMf k) 5
    | none => s)

/-- The records of a ring of `n` bytes a record lie in the partition's own group or slice (R194). -/
def ringIn (k : Nat) (v : Word) (n log : Nat) : Bool := ownRange k (fld v 12 40 * 4096) (n * 2 ^ log)

/-- FAULT_RING_WRITE (R182, R194). -/
def execFaultRingWrite (fn k : Nat) (v : Word) (s : State) : Res :=
  .next (withWrite s fn (pgMf k) Reg.FAULT_RING fun s =>
    let log := fld v 52 4
    guarded s (pgMf k) (log = 0 || (decide (6 ≤ log) && decide (log ≤ 12) && ringIn k v 64 log)) fun s =>
      let s := wf (wf s (pgMf k) Reg.FAULT_RING 12 40 (fld v 12 40)) (pgMf k) Reg.FAULT_RING 52 4 log
      pumpFaults s k s.xlat.waiting.length)

/-- FAULT_CONS_WRITE (R182). -/
def execFaultConsWrite (fn k : Nat) (v : Word) (s : State) : Res :=
  .next (withWrite s fn (pgMf k) Reg.FAULT_CONS fun s =>
    pumpFaults (wf s (pgMf k) Reg.FAULT_CONS 0 32 (fld v 0 32)) k s.xlat.waiting.length)

/-! ### Invalidation (R185 to R187) -/

/-- An accepted command takes the next ticket of its partition and goes out by broadcast (R187, R249); the queue holds
16. -/
def invQueue (s : State) (fn k va len : Nat) : State :=
  withWrite s fn (pgMf k) Reg.INV_CMD fun s =>
    guarded s (pgMf k) (decide ((s.xlat.invs.countP fun c => c.part = k) < 16)) fun s =>
      let t := s.xlat.tickets.getD k 0
      let s := castFlits s k
      { s with xlat := { s.xlat with
          invs := s.xlat.invs ++ [⟨k, va, len, t⟩]
          tickets := s.xlat.tickets.set k ((t + 1) % 2 ^ 32)
          invLast := (s.xlat.invLast.filter fun e => e.1 ≠ 17 * k + fn) ++ [(17 * k + fn, t)] } }

/-- INV_CMD_RANGE (R185): 1 to 4,096 pages from VPN. -/
def execInvCmdRange (fn k vpn pagesM1 : Nat) (s : State) : Res :=
  .next (invQueue s fn k (vpn % 2 ^ 36 * 65536) ((pagesM1 % 4096 + 1) * 65536))

/-- INV_CMD_PARTITION (R185): the whole partition. -/
def execInvCmdPartition (fn k : Nat) (s : State) : Res := .next (invQueue s fn k 0 0)

/-- The share-window writes that wait are made, each once no access of its partition is open under a cached translation
(R169). -/
def settleShares (s : State) : State :=
  s.xlat.shareWaits.foldl
    (fun s w =>
      if accessUnder s w.1 0 0 then s
      else
        let s := { s with xlat := { s.xlat with shareWaits := s.xlat.shareWaits.erase w } }
        updIso (wr (dropXlat s w.1 0 0) (pgMf w.1) (Reg.SHARE_WIN w.2.1) w.2.2)) s

/-- The MANIFEST pages whose RESET_REQ waits (R499): each drops its caches and pins and leaves RESET once no access is open
under them. -/
def settleResets (s : State) : State :=
  s.xlat.resets.foldl
    (fun s r =>
      if accessUnder s r.1 0 0 then s
      else
        let s := { s with xlat := { s.xlat with resets := s.xlat.resets.erase r } }
        setState (dropXlat s r.1 0 0) (pgMf r.1) (if r.2 then 3 else 0)) s

/-- What waits for accesses of the manifest to drain. -/
def settleManifest (s : State) : State := settleResets (settleShares s)

/-- INV_COMPLETE (R185, R186): the oldest command of the partition drops what it overlaps, and completes once every access
made under what it drops has. -/
def execInvComplete (k : Nat) (s : State) : Res :=
  .next (match s.xlat.invs.find? fun c => c.part = k with
    | none => s
    | some c =>
      if accessUnder s k c.va c.len then s
      else
        let s := dropXlat { s with xlat := { s.xlat with invs := s.xlat.invs.erase c } } k c.va c.len
        settleManifest (raiseEvt (wf s (pgMf k) Reg.INV_DONE 0 32 (c.ticket + 1)) (pgMf k) 4))

/-- Every context of the partition is FREE. -/
def allFree (s : State) (k : Nat) : Bool := (openCtxs s k).isEmpty

/-- MF_ROOT_WRITE (R194): ROOT changes only while every context is FREE; a change of ROOT or EN invalidates the
whole partition and ends every pin. -/
def execMfRootWrite (fn k : Nat) (v : Word) (s : State) : Res :=
  .next (withWrite s fn (pgMf k) Reg.MF_ROOT fun s =>
    let p := pgMf k
    let root := fld v 16 30
    guarded s p (root = rf s p Reg.MF_ROOT 16 30 || allFree s k) fun s =>
      if root = rf s p Reg.MF_ROOT 16 30 ∧ bit v 0 = rb s p Reg.MF_ROOT 0 then s
      else dropXlat (wf (wb s p Reg.MF_ROOT 0 (bit v 0)) p Reg.MF_ROOT 16 30 root) k 0 0)

/-- SHARE_WIN_WRITE (R169): the OPERATOR's write invalidates the whole partition first, and is made when the accesses
under what it drops are complete. -/
def execShareWinWrite (fn k n : Nat) (v : Word) (s : State) : Res :=
  .next (if n < 4 then withOperator s fn (pgMf k) (Reg.SHARE_WIN n) fun s =>
      settleShares { s with xlat := { s.xlat with
        shareWaits := s.xlat.shareWaits ++ [(k, n, v &&& (fldMask 0 16 ||| fldMask 21 25))] } }
    else s)

/-- HOT_RING_WRITE (R194). -/
def execHotRingWrite (fn k : Nat) (v : Word) (s : State) : Res :=
  .next (withWrite s fn (pgMf k) Reg.HOT_RING fun s =>
    let log := fld v 52 5
    guarded s (pgMf k) (log = 0 || (decide (8 ≤ log) && decide (log ≤ 16) && ringIn k v 16 log)) fun s =>
      wf (wf s (pgMf k) Reg.HOT_RING 12 40 (fld v 12 40)) (pgMf k) Reg.HOT_RING 52 5 log)

/-- MICROTLB_COUNT_REPORT (R192). -/
def execMicrotlbCountReport (k req va : Nat) (s : State) : Res :=
  .next (match s.xlat.micro.find? fun e => e.part = k && e.req = req && e.va = pageVa e.level va with
    | some e => microReport s e
    | none => s)

/-- HOT_EPOCH_END (R192): every counter halves and every mark clears. -/
def execHotEpochEnd (k : Nat) (s : State) : Res :=
  .next { s with xlat := { s.xlat with
    slice := s.xlat.slice.map fun e => if e.part = k then { e with count := e.count / 2, hot := false } else e
    epochs := s.xlat.epochs.set k ((s.xlat.epochs.getD k 0 + 1) % 2 ^ 32) } }

/-- Every fault of a partition ends (R499): every record closes, and whatever is held ends without a walk. -/
def endFaults (s : State) (k : Nat) : State :=
  let s := (s.xlat.waiting.filter fun i => i.part = k).foldl
    (fun s i =>
      let s := { s with xlat := { s.xlat with waiting := s.xlat.waiting.erase i } }
      let s := (s.work.filter fun w => w.phase = .heldNew && faultOf w i).foldl (fun s w => releaseHeld s i.page false w) s
      { s with
        chans := setChans s i fun c => { c with waiting := false, ended := some 1 }
        siteReqs := s.siteReqs.map fun q =>
          if q.waiting = some i then { q with waiting := none, ended := some 0x0D } else q }) s
  let lost := s.fetchHeld.filter fun f => f.1 = k && f.2.2 = none
  let s := lost.foldl (fun s f => abortCtx { s with fetchHeld := s.fetchHeld.erase f } f.1 f.2.1 1 false) s
  (s.xlat.recs.filter fun r => r.info.part = k).foldl (fun s r => closeRecord s r false 1 0x0D) s

/-- MANIFEST_RESET (R499): every record closes, whatever is held ends without a walk, and the caches are
dropped. -/
def manifestReset (s : State) (k : Nat) : State := dropXlat (endFaults s k) k 0 0

/-! ### PREFETCH and ADVISE (R189 to R191) -/

/-- A leaf whose pages the partition may read, with no shut slice under them (R177, R189). -/
def quietOk (s : State) (k : Nat) (l : Nat × Word) : Bool :=
  (ownRange k (leafPa l.2) (levelSize l.1) || windowRange s k (leafPa l.2) (levelSize l.1) false) &&
    !(sliceShut s k (leafPa l.2))

/-- A translation fault that holds no requester is counted (R189). -/
def quietFault (s : State) (k kind : Nat) : State :=
  countError (addReg s (pgMf k) Reg.FAULTS 1) (pgMf k) kind (if kind = 9 then 4 else 2) 1 none

/-- What a walk that holds no requester answers (R189): the leaf and its level; a fault other than NOT_VALID is
counted. -/
def quietLeaf (r : (Except (Nat × Nat) (Nat × Word) × List WalkEntry) × State) (k : Nat) :
    Option (Nat × Word) × State :=
  match r.1.1 with
  | .ok l => if quietOk r.2 k l then (some l, fillWalk r.2 k r.1.2) else (none, quietFault r.2 k 4)
  | .error f => (none, if f.1 = 1 then r.2 else quietFault r.2 k f.1)

/-- A walk that holds no requester (R189). -/
def quietWalk (s : State) (k va : Nat) : Option (Nat × Word) × State := quietLeaf (walk s k 168 va) k

/-- The slice entry that holds `va`. -/
def sliceOf (s : State) (k va : Nat) : Option SliceEntry :=
  s.xlat.slice.find? fun e => e.part = k && e.va = pageVa e.level va

/-- Pin an entry (R190): at most 1,024 of the slice are pinned. -/
def pinEntry (s : State) (k : Nat) (e : SliceEntry) : State :=
  if e.pin then s
  else if (s.xlat.slice.countP fun v => v.part = k && v.pin) < 1024 then
    { s with xlat := { s.xlat with slice := s.xlat.slice.map fun v => if v = e then { e with pin := true } else v } }
  else addReg s (pgMf k) Reg.PIN_REFUSED 1

/-- Walk a range of 64 KiB pages leaf by leaf, filling the slice, and pin where asked (R189, R190). -/
def walkRange (s : State) (k : Nat) (pin : Bool) : Nat → Nat → Nat → State
  | 0, _, _ => s
  | fuel + 1, va, pages =>
    if pages = 0 then s
    else
      match quietWalk s k va with
      | (none, s) => walkRange s k pin fuel (va + 65536) (pages - 1)
      | (some (level, e), s) =>
        let s := if (sliceOf s k va).isSome then s else fillSlice s k va level e
        let s := match pin, sliceOf s k va with
          | true, some v => pinEntry s k v
          | true, none => addReg s (pgMf k) Reg.PIN_REFUSED 1
          | false, _ => s
        let next := pageVa level va + levelSize level
        walkRange s k pin fuel next (pages - (next - va) / 65536)

/-- PREFETCH_TRANSLATE (R189). -/
def execPrefetchTranslate (k x q : Nat) (s : State) : Res :=
  .next (onMode s k x q 0x55 0 fun s w => completeSt (walkRange s k false (dK w.desc) (dA w.desc) (dK w.desc)) w 0)

/-- An entry of the slice lies in a range. -/
def inEntry (e : SliceEntry) (va n : Nat) : Bool := decide (e.va < va + n) && decide (va < e.va + levelSize e.level)

/-- ADVISE_UNPIN (R189, R190). -/
def execAdviseUnpin (k x q : Nat) (s : State) : Res :=
  .next (onMode s k x q 0x56 0 fun s w =>
    let unpin (v : SliceEntry) : SliceEntry :=
      if v.part = k && inEntry v (dA w.desc) (dK w.desc * 65536) then { v with pin := false } else v
    completeSt { s with xlat := { s.xlat with slice := s.xlat.slice.map unpin } } w 0)

/-- ADVISE_PIN (R189, R190). -/
def execAdvisePin (k x q : Nat) (s : State) : Res :=
  .next (onMode s k x q 0x56 1 fun s w => completeSt (walkRange s k true (dK w.desc) (dA w.desc) (dK w.desc)) w 0)

/-- ADVISE_DONT_NEED (R189): the range leaves the slice and the micro-TLBs. -/
def execAdviseDontNeed (k x q : Nat) (s : State) : Res :=
  .next (onMode s k x q 0x56 2 fun s w =>
    let walks := s.xlat.walk
    let s := dropXlat s k (dA w.desc) (dK w.desc * 65536)
    completeSt { s with xlat := { s.xlat with walk := walks } } w 0)

/-- The leaf that maps `va` and where its entry stands, read from the tables from their root (R170 to R172), or the KIND
and level of the fault. -/
def leafAt (s : State) (k va : Nat) : Except (Nat × Nat) (Nat × Word × Nat) × State :=
  if !(rb s (pgMf k) Reg.MF_ROOT 0) then (.error (1, 0), s)
  else
    match walkFrom s k 168 va 4 0 (rf s (pgMf k) Reg.MF_ROOT 16 30 * 65536) with
    | ((.ok l, _), s) => (if quietOk s k (l.1, l.2.1) then .ok l else .error (4, l.1), s)
    | ((.error f, _), s) => (.error f, s)

/-- The DETAIL that a MIGRATE's mapped leaves earn before anything moves (R191), 0 where none does. -/
def migrateCheck (s : State) (k va0 n dst : Nat) : Nat → Nat → Nat × State
  | 0, _ => (0, s)
  | fuel + 1, i =>
    if n ≤ i then (0, s)
    else
      let va := va0 + i * 65536
      match leafAt s k va with
      | (.error _, s) => migrateCheck s k va0 n dst fuel (i + 1)
      | (.ok (level, e, _), s) =>
        let size := levelSize level
        if level = 1 ∨ pageVa level va ≠ va ∨ va0 + n * 65536 < va + size ∨ (dst + i * 65536) % size ≠ 0 then (2, s)
        else if leafPa e < dst + n * 65536 ∧ dst < leafPa e + size then (7, s)
        else migrateCheck s k va0 n dst fuel (i + size / 65536)

/-- An access of partition `k` to a page of `size` bytes at `a`, mapped at `va`, is not complete (R186, R191): a transaction
or a retry of one of its lines, data of one on its way to the home, a chiplet's request not answered. -/
def pageBusy (s : State) (k va a size : Nat) : Bool :=
  let here (line : Nat) : Bool := inRange (line * 128) a size
  (s.coh.txns.any fun t => t.part = k && here t.line) || (s.coh.retries.any fun t => t.part = k && here t.line) ||
    (s.coh.flight.any fun t => t.1 = k && here t.2.2.1) || accessUnder s k va size

/-- Move leaf after leaf, from page `i` (R191).  At a page whose accesses are not complete the move waits, and goes on from
there when the command is given again. -/
def migrateFrom (s : State) (k : Nat) (w : Work) (dst : Nat) : Nat → Nat → State
  | 0, _ => s
  | fuel + 1, i =>
    if dK w.desc ≤ i then completeSt s w 0
    else
      let va := dA w.desc + i * 65536
      let t : Tile := ⟨va, 0, 1, 65536, 7⟩
      let v := { w with moved := i }
      match leafAt s k va with
      | (.error (kind, level), s) => stopWork (setWork s w v) v t false (.fault va kind level)
      | (.ok (level, e, a), s) =>
        let size := levelSize level
        if pageBusy s k va (leafPa e) size then setWork s w v
        else
        match devRead (evictRange s k (leafPa e) size) k 168 (leafPa e) size with
        | (none, s) => completeSt s w 4
        | (some b, s) =>
          let r := devWrite s k 168 (dst + i * 65536) b
          if !r.1 then completeSt r.2 w 4
          else
          let r := devWrite r.2 k walkerPort a (wordBytes (setFld e 12 34 ((dst + i * 65536) / 4096)))
          if !r.1 then completeSt r.2 w 4
          else
          let s := addReg (dropXlat r.2 k va size) (pgMf k) Reg.PAGES_MIGRATED (size / 65536)
          migrateFrom s k w dst fuel (i + size / 65536)

/-- PREFETCH_MIGRATE (R191): checked before anything moves, then moved leaf by leaf; after a fault it resumes at
the page it reached. -/
def execPrefetchMigrate (k x q : Nat) (s : State) : Res :=
  .next (onMode s k x q 0x55 1 fun s w =>
    let d := w.desc
    let dst := dB d
    let n := dK d
    if 2 ^ 46 ≤ dst ∨ dst % 65536 ≠ 0 ∨ !(ownRange k dst (n * 65536)) then complete s w 3 2 0 0 0
    else
      match migrateCheck s k (dA d) n dst (n + 1) w.moved with
      | (0, s) => migrateFrom s k w dst (n + 1) w.moved
      | (c, s) => complete s w 3 c 0 0 0)

end Sys2Proof.Machine
end

