-- ==== Sys2Proof/Machine/CohMsg.lean ====
section
/-!
DEFINITION. The messages of the coherence protocol, one by one (R267 to R291): requests at a home, snoops and their
answers, grants, notices, and the loss of the domain.
-/

namespace Sys2Proof.Machine

/-- A message that R275 forbids loses the domain. -/
def protocolLoss (s : State) (k pos line : Nat) : State := loseDomain s k 0x23 pos (homeOf line) line

/-- A position is an agent of the domain (R267): a site's only while a chiplet there is admitted to the partition. -/
def agentPos (s : State) (k pos : Nat) : Bool :=
  !(decide (12 ≤ pos) && decide (pos < 16)) ||
    (siteAdmitted s (pos - 12) && rb s (pgSite (pos - 12)) Reg.SITE_ASSIGN (16 + k))

/-- How far a position ranks behind the one after the last winner at the home of a line (R276); before any, position 0 ranks
highest (log entry 36). -/
def rankOf (s : State) (k line pos : Nat) : Nat :=
  let last := ((s.coh.rank.find? fun e => e.1 = 8 * k + homeOf line).map fun e => e.2).getD 17
  (pos + 17 - last) % 18

/-- The requests for a line that came in one home cycle are arbitrated (R276, R278): where none is open and no retry waits the
highest ranked is accepted; the others lose. -/
def arbitrate (s : State) (k line : Nat) : State :=
  let come := s.coh.arrivals.filter fun r => r.1 = k && r.2.2.1 = line
  let s := { s with coh := { s.coh with arrivals := s.coh.arrivals.filter fun r => !(r.1 = k && r.2.2.1 = line) } }
  let best := if blockedLine s k line then none
    else come.foldl (fun (b : Option (Nat × Nat × Nat × CohReq)) r =>
      match b with
      | none => some r
      | some w => if rankOf s k line r.2.1 < rankOf s k line w.2.1 then some r else b) none
  match best with
  | none => settle (come.foldl (fun s r => loseReq s k r.2.1 line r.2.2.2) s) k line
  | some w =>
    let key := 8 * k + homeOf line
    let s := { s with coh := { s.coh with rank := (s.coh.rank.filter fun e => e.1 ≠ key) ++ [(key, w.2.1)] } }
    let s := openTxn s k w.2.1 line w.2.2.2 false
    settle ((come.erase w).foldl (fun s r => loseReq s k r.2.1 line r.2.2.2) s) k line

/-- A request at the home of its line (R267, R268, R275 to R279): it waits for the others of its home cycle where there are
`more`, then is accepted or loses; sent again under its credit, it is kept until it can be accepted. -/
def cohRequest (s : State) (k pos line : Nat) (req : CohReq) (retried more : Bool) : State :=
  if 16 ≤ k ∨ 18 ≤ pos then s
  else if !(ownRange k (line * 128) 128) then s
  else if domainLost s k then sendAgent s k pos line "UNCORRECTABLE" []
  else if !(agentPos s k pos) then s
  else if cachingReq req && !(cachingPos s k pos) then protocolLoss s k pos line
  else if retried then
    match s.coh.retries.find? fun r => r.part = k && r.line = line && r.pos = pos && r.req = req && !r.back with
    | none => s
    | some r =>
      settle { s with coh := { s.coh with
        retries := s.coh.retries.map fun v => if v = r then { v with back := true } else v } } k line
  else
    let s := { s with coh := { s.coh with arrivals := s.coh.arrivals ++ [(k, pos, line, req)] } }
    if more then s else arbitrate s k line

/-- RD_S (R279). -/
def execRdS (k pos line : Nat) (retried more : Bool) (s : State) : Res := .next (cohRequest s k pos line .rdS retried more)

/-- RD_X (R279). -/
def execRdX (k pos line : Nat) (retried more : Bool) (s : State) : Res := .next (cohRequest s k pos line .rdX retried more)

/-- UPG (R279). -/
def execUpg (k pos line : Nat) (retried more : Bool) (s : State) : Res := .next (cohRequest s k pos line .upg retried more)

/-- RD_ONCE (R279). -/
def execRdOnce (k pos line : Nat) (retried more : Bool) (s : State) : Res :=
  .next (cohRequest s k pos line .rdOnce retried more)

/-- WR_LINE (R280, R281). -/
def execWrLine (k pos line hint : Nat) (data : Bytes) (retried more : Bool) (s : State) : Res :=
  .next (cohRequest s k pos line (.wrLine data hint) retried more)

/-- WR_PART (R280, R281). -/
def execWrPart (k pos line hint mask : Nat) (data : Bytes) (retried more : Bool) (s : State) : Res :=
  .next (cohRequest s k pos line (.wrPart mask data hint) retried more)

/-- ATOM_ADD (R280): the scheduler's SIGNAL, at position 17. -/
def execAtomAdd (k pa : Nat) (v : Word) (retried more : Bool) (s : State) : Res :=
  .next (cohRequest s k 17 (pa / 128) (.atomAdd pa v) retried more)

/-! ### Answers and notices -/

/-- A snooped agent's answer reaches the home (R273, R279, R283); one that nothing awaits, from a chiplet, is a mismatch
(R309). -/
def cohAnswer (s : State) (k pos line : Nat) (a : Answer) : State :=
  match lineTxn s k line with
  | none => if 12 ≤ pos then protocolLoss s k pos line else s
  | some t =>
    if t.await.testBit pos then
      let rest := t.await ^^^ (1 <<< pos)
      match a with
      | .miss | .clean =>
        let v := { t with await := rest }
        settle (advance (setTxn s t v) v) k line
      | .dirty d =>
        let v := { t with await := rest, dirty := some (fitBytes d 128) }
        settle (advance (setTxn s t v) v) k line
      | .inFlight =>
        let come := t.arrived.testBit pos
        let v := { t with
          await := rest
          arrived := if come then t.arrived ^^^ (1 <<< pos) else t.arrived
          notices := if come then t.notices else t.notices ||| (1 <<< pos) }
        settle (advance (setTxn (addReg s (pgPart k) Reg.COH_CROSSINGS 1) t v) v) k line
    else if 12 ≤ pos then protocolLoss s k pos line
    else s

/-- The kind of an answer. -/
def Answer.kind : Answer → Nat
  | .miss => 0
  | .clean => 1
  | .dirty _ => 2
  | .inFlight => 3

/-- A cluster's answer on its way arrives (R274); a chiplet's comes with the message. -/
def takeAnswer (s : State) (k pos line kind : Nat) (a : Answer) : State :=
  if pos < 8 then
    match s.coh.answers.find? fun e => e.1 = k && e.2.1 = pos && e.2.2.1 = line && e.2.2.2.kind = kind with
    | none => s
    | some e => cohAnswer { s with coh := { s.coh with answers := s.coh.answers.erase e } } k pos line e.2.2.2
  else if k < 16 ∧ 12 ≤ pos ∧ pos < 16 ∧ !(domainLost s k) then cohAnswer s k pos line a
  else s

/-- ACK_MISS (R273). -/
def execAckMiss (k pos line : Nat) (s : State) : Res := .next (takeAnswer s k pos line 0 .miss)

/-- ACK_CLEAN (R279). -/
def execAckClean (k pos line : Nat) (s : State) : Res := .next (takeAnswer s k pos line 1 .clean)

/-- DATA_DIRTY (R279). -/
def execDataDirty (k pos line : Nat) (data : Bytes) (s : State) : Res := .next (takeAnswer s k pos line 2 (.dirty data))

/-- The notice of a cluster for a line, on its way (R283). -/
def flightOf (s : State) (k pos line : Nat) : Option (Nat × Nat × Nat × Option Bytes) :=
  s.coh.flight.find? fun e => e.1 = k && e.2.1 = pos && e.2.2.1 = line

/-- A cluster holds one of its two writeback credits of the line's home (R278). -/
def wbCredit (s : State) (k pos line : Nat) : Bool :=
  decide ((s.coh.flight.countP fun e => e.1 = k && e.2.1 = pos && homeOf e.2.2.1 = homeOf line) < 2)

/-- A cluster sends its WB or EVICT_CLEAN under a writeback credit (R272, R278): the line is EVICTING until the notice has
arrived, and the data of a modified line is on its way.  None where it holds the line in no state that needs one. -/
def sendNotice (s : State) (k pos line : Nat) (wb : Bool) : Option State :=
  match cached s k pos line with
  | none => none
  | some l =>
    if decide (l.st = if wb then .modified else .exclusive) && wbCredit s k pos line then
      some (setLine { s with coh := { s.coh with
        flight := s.coh.flight ++ [(k, pos, line, if wb then some l.data else none)] } } k pos line .evicting l.data)
    else none

/-- WB_IN_FLIGHT (R283): the cluster has sent its notice just before the snoop reached it, and drops the line. -/
def execWbInFlight (k pos line : Nat) (s : State) : Res :=
  .next (if pos < 8 ∧ !(s.coh.answers.any fun e => e.1 = k && e.2.1 = pos && e.2.2.1 = line) then
      match lineTxn s k line with
      | none => s
      | some t =>
        if t.await.testBit pos then
          let sent := if (flightOf s k pos line).isSome then some s
            else match sendNotice s k pos line true with
              | some v => some v
              | none => sendNotice s k pos line false
          match sent with
          | none => s
          | some s => cohAnswer (dropLine s k pos line) k pos line .inFlight
        else s
    else takeAnswer s k pos line 3 .inFlight)

/-- A WB or EVICT_CLEAN reaches the home; one that R275 does not await loses the domain. -/
def homeNotice (s : State) (k pos line : Nat) (data : Option Bytes) : State :=
  if !(cachingPos s k pos) then protocolLoss s k pos line
  else
    match takeNotice s k pos line data with
    | some s => s
    | none => protocolLoss s k pos line

/-- A notice of a cluster's arrives; the line it was EVICTING is gone (R272). -/
def noticeArrives (s : State) (e : Nat × Nat × Nat × Option Bytes) : State :=
  let s := { s with coh := { s.coh with flight := s.coh.flight.erase e } }
  let s := match cached s e.1 e.2.1 e.2.2.1 with
    | some l => if l.st = .evicting then dropLine s e.1 e.2.1 e.2.2.1 else s
    | none => s
  homeNotice s e.1 e.2.1 e.2.2.1 e.2.2.2

/-- WB and EVICT_CLEAN of a cluster: sent, or sent and arriving in one; the notice that is on its way arrives; and a notice of a
line that the cluster does not own is what R275 calls PROTOCOL. -/
def clusterNotice (s : State) (k pos line : Nat) (wb arrives : Bool) (data : Option Bytes) : State :=
  match flightOf s k pos line with
  | some e => if arrives && e.2.2.2.isSome = wb then noticeArrives s e else s
  | none =>
    match sendNotice s k pos line wb with
    | some v =>
      if arrives then
        (match flightOf v k pos line with
         | some e => noticeArrives v e
         | none => v)
      else v
    | none => if arrives && !(ownedLine s k line && decide (holdersOf s k line = 1 <<< pos)) then homeNotice s k pos line data else s

/-- WB (R272, R278, R283, R284): a cluster's line that it holds modified; a chiplet's data comes with the message. -/
def execWb (k pos line : Nat) (data : Bytes) (arrives : Bool) (s : State) : Res :=
  .next (if 16 ≤ k ∨ 18 ≤ pos ∨ domainLost s k then s
    else if pos < 8 then clusterNotice s k pos line true arrives (some data)
    else homeNotice s k pos line (some data))

/-- EVICT_CLEAN (R272, R278, R283, R284): a cluster gives up a line it holds exclusive. -/
def execEvictClean (k pos line : Nat) (arrives : Bool) (s : State) : Res :=
  .next (if 16 ≤ k ∨ 18 ≤ pos ∨ domainLost s k then s
    else if pos < 8 then clusterNotice s k pos line false arrives none
    else homeNotice s k pos line none)

/-- GRANT_ACK (R276, R279, R281): the grant has arrived; the transaction closes and waiting retries are accepted.  A hinted
cluster's says that it has taken the line. -/
def execGrantAck (k pos line : Nat) (s : State) : Res :=
  .next (match lineTxn s k line with
    | none => if 12 ≤ pos ∧ pos < 16 ∧ k < 16 then protocolLoss s k pos line else s
    | some t =>
      if t.phase = 3 ∧ reqHint t.req % 8 = pos then setTxn s t { t with phase := 2 }
      else if t.pos = pos && cachingReq t.req && decide (t.phase = 2) && (decide (8 ≤ pos) || (cached s k pos line).isSome) then
        settle (closeTxn s t) k line
      else if 12 ≤ pos then protocolLoss s k pos line
      else s)

/-! ### Messages to agents -/

/-- A grant of this kind waits for cluster `m`: the transaction, and the bytes it carries. -/
def grantFor (s : State) (k m line : Nat) (excl upg : Bool) : Option Bytes :=
  match lineTxn s k line with
  | some t =>
    if m < 8 ∧ t.pos = m ∧ cachingReq t.req ∧ t.phase = 2 ∧ (t.req = .upg) = upg ∧ (upg ∨ ownedLine s k line = excl) then
      t.dirty
    else none
  | none => none

/-- DATA_S (R279): the cluster takes the line in S. -/
def execDataS (k m line : Nat) (s : State) : Res :=
  .next (match grantFor s k m line false false with
    | some d => takeLine s k m line .shared d
    | none => s)

/-- DATA_E (R279): the cluster takes the line in E, which may be written at once. -/
def execDataE (k m line : Nat) (s : State) : Res :=
  .next (match grantFor s k m line true false with
    | some d => takeLine s k m line .exclusive d
    | none => s)

/-- GRANT_UPG (R279): S becomes E. -/
def execGrantUpg (k m line : Nat) (s : State) : Res :=
  .next (match grantFor s k m line true true, cached s k m line with
    | some _, some l => if l.st = .shared then setLine s k m line .exclusive l.data else s
    | _, _ => s)

/-- FILL_HINT (R281): the hinted cluster takes the line in M; one that can take it no longer leaves it to memory. -/
def execFillHint (k m line : Nat) (s : State) : Res :=
  .next (match lineTxn s k line with
    | none => s
    | some t =>
      if t.phase = 1 ∧ reqHint t.req % 8 = m then
        let d := t.dirty.getD []
        if hintUsable s k (reqHint t.req) then
          let s := takeLine (setDir (makeWay s k line false) k line true (1 <<< m)) k m line .modified d
          setTxn (addReg s (pgPart k) Reg.COH_HINT_PLACED 1) t { t with phase := 3 }
        else placeInMemory s t d
      else s)

/-- A snoop reaches cluster `m` (R272, R279, R283): its answer is on its way; one whose notice has come before answers
WB_IN_FLIGHT. -/
def snoopCluster (s : State) (k m line : Nat) (inv : Bool) : State :=
  let due := match lineTxn s k line with
    | some t => t.await.testBit m && t.shr = !inv
    | none => false
  let asked := s.coh.answers.any fun e => e.1 = k && e.2.1 = m && e.2.2.1 = line
  if m < 8 && due && !asked then
    let put (s : State) (a : Answer) : State := { s with coh := { s.coh with answers := s.coh.answers ++ [(k, m, line, a)] } }
    let come := match lineTxn s k line with
      | some t => t.arrived.testBit m
      | none => false
    match cached s k m line with
    | none => put s (if come then .inFlight else .miss)
    | some l =>
      let after := if inv then dropLine s k m line else setLine s k m line .shared l.data
      match l.st with
      | .evicting => put (dropLine s k m line) .inFlight
      | .modified => put after (.dirty l.data)
      | _ => put after .clean
  else s

/-- SNP_SHR (R279). -/
def execSnpShr (k m line : Nat) (s : State) : Res := .next (snoopCluster s k m line false)

/-- SNP_INV (R279). -/
def execSnpInv (k m line : Nat) (s : State) : Res := .next (snoopCluster s k m line true)

/-- RD_DATA (R276, R279): a non-caching read is answered, which closes its transaction. -/
def execRdData (k pos line : Nat) (s : State) : Res :=
  .next (match lineTxn s k line with
    | none => s
    | some t =>
      if t.pos = pos ∧ t.req = .rdOnce ∧ t.phase = 2 then
        settle (closeTxn (emit s (.coh k pos line "RD_DATA" (t.dirty.getD []))) t) k line
      else s)

/-- WR_ACK (R276, R280): a write is acknowledged as written or placed, which closes its transaction. -/
def execWrAck (k pos line : Nat) (s : State) : Res :=
  .next (match lineTxn s k line with
    | none => s
    | some t =>
      if t.pos = pos ∧ writingReq t.req ∧ t.phase = 2 then
        settle (closeTxn (emit s (.coh k pos line "WR_ACK" [])) t) k line
      else s)

/-- SNOOP_TIMEOUT (R277, R287, R288): an agent that owes an answer, or a request sent again, stays silent. -/
def execSnoopTimeout (k pos line : Nat) (s : State) : Res :=
  .next (let owes := match lineTxn s k line with
      | some t => t.await.testBit pos || t.notices.testBit pos
      | none => false
    let late := s.coh.retries.any fun r => r.part = k && r.line = line && r.pos = pos && !r.back
    if k < 16 && (owes || late) then loseDomain s k 0x22 pos (homeOf line) line else s)

/-- DOMAIN_LOST (R288, R289): the loss whose cause has no command of its own, a directory entry that cannot be corrected
(DIR_UE), of a line of the partition's own choosing by no rule: a free one (log entry 36). -/
def execDomainLost (k : Nat) (s : State) : Res :=
  .next (if k < 16 ∧ !(domainLost s k) then
      let d := draw s
      let line := fld (Config.freeWord d.1) 0 39
      loseDomain d.2 k 0x20 0x1F (homeOf line) line
    else s)

end Sys2Proof.Machine
end

