-- ==== Sys2Proof/Machine/Sched.lean ====
section
/-!
DEFINITION. Contexts (R117, R118), the scheduler's dispatch (R120, R121) and the operations it runs itself:
fences, barriers, signals, waits and the reduction service's descriptor (R122 to R128, R317 to R321).
-/

namespace Sys2Proof.Machine

/-! ### Context commands (R117) -/

/-- A command of local context `x` of partition `k`, legal in the states of `from` (R36, R117). -/
def ctxCommand (s : State) (fn k x : Nat) (ok : State → Bool) (f : State → State) : State :=
  withWrite s fn (pgPart k) (Reg.CTX_CMD x) fun s => guarded s (pgPart k) (ok s) f

/-- The ring registers are valid for OPEN (R117, R132). -/
def ringOk (s : State) (k x : Nat) : Bool :=
  let p := pgPart k
  decide (6 ≤ ctxLog s k x) && decide (ctxLog s k x ≤ 16) && rf s p (Reg.CTX_RING x) 0 6 = 0 &&
    rf s p (Reg.CTX_CPL x) 0 6 = 0 && decide (1 ≤ rf s p (Reg.CTX_CFG x) 0 8) && decide (rf s p (Reg.CTX_CFG x) 0 8 ≤ 128)

/-- CTX_OPEN (R117): FREE to OPEN, in a partition that permits contexts, with valid ring registers. -/
def execCtxOpen (fn k x : Nat) (s : State) : Res :=
  .next (ctxCommand s fn k x (fun s => decide (x < 256) && partLive s k && ctxState s k x = 0 && ringOk s k x)
    fun s => setCtx s k x 1)

/-- CTX_RUN (R117): OPEN or PAUSED to RUNNING. -/
def execCtxRun (fn k x : Nat) (s : State) : Res :=
  .next (ctxCommand s fn k x (fun s => decide (x < 256) && (ctxState s k x = 1 || ctxState s k x = 3))
    fun s => setCtx s k x 2)

/-- CTX_PAUSE (R117): RUNNING to PAUSED. -/
def execCtxPause (fn k x : Nat) (s : State) : Res :=
  .next (ctxCommand s fn k x (fun s => decide (x < 256) && ctxState s k x = 2) fun s => setCtx s k x 3)

/-- CTX_CLOSE (R117, R419): OPEN, PAUSED or ABORTED to DRAINING, which is dead. -/
def execCtxClose (fn k x : Nat) (s : State) : Res :=
  .next (ctxCommand s fn k x
    (fun s => decide (x < 256) && (ctxState s k x = 1 || ctxState s k x = 3 || ctxState s k x = 5))
    fun s => killCtx (setCtx s k x 4) k x)

/-- CTX_ABORT (R117): OPEN, RUNNING or PAUSED to ABORTED with JOB_ABORTED. -/
def execCtxAbort (fn k x : Nat) (s : State) : Res :=
  .next (ctxCommand s fn k x
    (fun s => decide (x < 256) && (ctxState s k x = 1 || ctxState s k x = 2 || ctxState s k x = 3))
    fun s => abortCtx s k x 0x0E false)

/-- CTX_TAIL (R118): announces every descriptor below the value. -/
def execCtxTail (fn k x tail : Nat) (s : State) : Res :=
  .next (withWrite s fn (pgPart k) (Reg.CTX_TAIL x) fun s =>
    let v := tail % 2 ^ 32
    let st := ctxState s k x
    guarded s (pgPart k)
      (decide (x < 256) && !(st = 0 || st = 4 || st = 5) && decide ((v + 2 ^ 32 - ctxHead s k x) % 2 ^ 32 < 2 ^ 31) &&
        decide ((v + 2 ^ 32 - rf s (pgPart k) (Reg.CTX_STATE x) 32 32) % 2 ^ 32 ≤ 2 ^ ctxLog s k x))
      fun s => wf s (pgPart k) (Reg.CTX_TAIL x) 0 32 v)

/-- What the scheduler remembers of the contexts that `mine` names is forgotten. -/
def forgetTurns (s : State) (mine : Nat → Nat → Bool) : State :=
  { s with
    holds := s.holds.filter fun h => !(mine h.1 h.2.1)
    turns := s.turns.filter fun h => !(mine h.1 h.2.1) }

/-- The context scrub (R421): the entry and its counter return to their reset values. -/
def freeCtx (s : State) (k x : Nat) : State :=
  let p := pgPart k
  let s := forgetTurns s fun j y => j = k && y = x
  let s := { s with err := { s.err with stuck := s.err.stuck.filter fun e => e ≠ (k, x) } }
  resetRegs (resetRegs s p (Reg.CTX_STATE x) (Reg.CTX_STATE x + 0x40)) p (Reg.CTX_OUT x) (Reg.CTX_OUT x + 8)

/-- CONTEXT_FREED (R117, R421): DRAINING to FREE once nothing is outstanding, unless the teardown was recorded as stuck. -/
def execContextFreed (k x : Nat) (s : State) : Res :=
  .next (if x < 256 ∧ ctxState s k x = 4 ∧ rf s (pgPart k) (Reg.CTX_OUT x) 0 24 = 0 ∧ !(s.err.stuck.contains (k, x)) then
      raiseEvt (freeCtx s k x) (pgPart k) 3
    else s)

/-! ### Dispatch (R116, R120, R121, R130) -/

/-- A block takes new work: READY, with no quiesce requested (R35). -/
def inService (s : State) (p : Nat) : Bool := decide (pageState s p = 3) && !(rb s p Reg.PAGE_CTL 1)

/-- Whether a core or an engine of partition `k` is up. -/
def unitUp (s : State) (k u : Nat) : Bool :=
  if u < 128 then
    let c := 8 * k + u / 16
    let e := mapEntry s c (u % 16)
    !e.2 && inService s (pgCl c) && coreState s c e.1 ≠ 3
  else if u < 132 then
    inService s (pgSe (4 * k + (u - 128))) && !(s.seFencing.any fun f => f.1 = 4 * k + (u - 128))
  else u = 168

/-- A logical core of partition `k` that is not DOWN (R130). -/
def anyCore (s : State) (k : Nat) : Bool := downMask s k ≠ 2 ^ 128 - 1

/-- A unit of the kind an operation needs is up in partition `k` (R130): a logical core that is not DOWN, for REDUCE_COLLECT
too, whose merge a core makes (R320), or an engine that is neither OFF nor FENCED. -/
def anyUnit (s : State) (k op : Nat) : Bool :=
  if op = 0x1B then anyCore s k
  else if opSched op then true
  else if opEngine op then
    (List.range 4).any fun i => pageState s (pgSe (4 * k + i)) ≠ 6 && pageState s (pgSe (4 * k + i)) ≠ 0
  else anyCore s k

/-- Descriptors on a unit: one executing and one staged (R135). -/
def unitLoad (s : State) (k u : Nat) : Nat :=
  s.work.countP fun w => w.part = k && w.unit = u && w.phase ≠ .returned

/-- ATTN_PARTIAL goes to the engine it names (R145), unless that is not up, or is busy while another is idle: then to another,
an idle one where there is one. -/
def enginePick (s : State) (k u : Nat) (d : List Word) : Bool :=
  let idle (i : Nat) : Bool := unitUp s k i && unitLoad s k i = 0
  let named := 128 + dOpf d / 32 % 4
  let other := (List.range 4).any fun i => idle (128 + i)
  if !unitUp s k named then idle u || !other
  else if unitLoad s k named = 0 then u = named
  else if other then idle u
  else u = named || decide (2 ≤ unitLoad s k named)

/-- Unit `u` may take an operation (R114, R145): of its kind, up, with room. -/
def unitFits (s : State) (k u : Nat) (d : List Word) : Bool :=
  let op := dOp d
  if opSched op then u = 168
  else if opEngine op then
    decide (128 ≤ u) && decide (u < 132) && unitUp s k u && decide (unitLoad s k u < 2) && (op ≠ 0x20 || enginePick s k u d)
  else decide (u < 128) && unitUp s k u && decide (unitLoad s k u < 2)

/-- A FENCE, BARRIER or SIGNAL that is not complete holds back every later descriptor of its queue (R122, R123,
R126). -/
def queueHeld (s : State) (k x : Nat) : Bool :=
  ((ctxWork s k x).any fun w => opFences (dOp w.desc) && dOp w.desc ≠ 0) ||
    s.fetchHeld.any fun f => f.1 = k && f.2.1 = x

/-- A context the scheduler considers (R121): RUNNING, its next descriptor announced and within the window, and
nothing earlier holding it back. -/
def ready (s : State) (k x : Nat) : Bool :=
  inService s (pgPart k) && ctxState s k x = 2 && rf s (pgPart k) (Reg.CTX_TAIL x) 0 32 ≠ ctxHead s k x &&
    decide ((ctxWork s k x).length < rf s (pgPart k) (Reg.CTX_CFG x) 0 8) && !queueHeld s k x

/-- The context is of class GUARANTEED. -/
def guaranteed (s : State) (k x : Nat) : Bool := rb s (pgPart k) (Reg.CTX_CFG x) 13

/-- A GUARANTEED context waits before a BEST_EFFORT one (R121). -/
def outranked (s : State) (k x : Nat) : Bool :=
  !guaranteed s k x && (List.range 256).any fun y => guaranteed s k y && ready s k y

/-- The dispatches a context has had in the present round of its class. -/
def turnsOf (s : State) (k x : Nat) : Nat :=
  ((s.turns.find? fun e => e.1 = k && e.2.1 = x).map (·.2.2)).getD 0

/-- The context has had as many dispatches in this round as its WEIGHT, 0 taken as 1 (R121, R132). -/
def turnSpent (s : State) (k x : Nat) : Bool :=
  decide (max 1 (rf s (pgPart k) (Reg.CTX_CFG x) 8 4) ≤ turnsOf s k x)

/-- No ready context of the class of `x` has a dispatch left in this round. -/
def roundOver (s : State) (k x : Nat) : Bool :=
  (List.range 256).all fun y => guaranteed s k y != guaranteed s k x || !ready s k y || turnSpent s k y

/-- The weighted round robin comes to context `x` (R121): it has a dispatch left in the round, or a new round begins. -/
def hasTurn (s : State) (k x : Nat) : Bool := !turnSpent s k x || roundOver s k x

/-- A dispatch of context `x` is counted in its round (R121), and its hold for energy ends. -/
def takeTurn (s : State) (k x : Nat) : State :=
  let fresh := turnSpent s k x
  let kept := s.turns.filter fun e =>
    !(e.1 = k && (e.2.1 = x || (fresh && guaranteed s k e.2.1 = guaranteed s k x)))
  { s with
    turns := kept ++ [(k, x, if fresh then 1 else turnsOf s k x + 1)]
    holds := s.holds.filter fun h => !(h.1 = k && h.2.1 = x) }

/-- Another context of the partition was chosen, is still ready, and the bucket does not yet cover its descriptor: nothing
is dispatched (R121). -/
def energyHeld (s : State) (k x : Nat) : Bool :=
  s.holds.any fun h => h.1 = k && h.2.1 ≠ x && ready s k h.2.1 && decide ((rd s (pgPart k) Reg.EBUCKET).toNat < h.2.2)

/-- The bucket does not cover the descriptor of the chosen context: nothing is dispatched in the partition until it does,
and the dispatch cycle is counted (R121). -/
def holdEnergy (s : State) (k x n : Nat) : State :=
  addReg { s with holds := (s.holds.filter fun h => h.1 ≠ k) ++ [(k, x, n)] } (pgPart k) Reg.SCHED_HELD 1

/-- The next descriptor of a context leaves the ring (R120, R121, R420): HEAD advances, it is outstanding, and it counts in
the round robin. -/
def takeNext (s : State) (k x u : Nat) (d : List Word) : Work × State :=
  let p := pgPart k
  let s := takeTurn s k x
  let w : Work := ⟨k, x, ctxHead s k x, u, d, .run, [], 0⟩
  let s := wf s p (Reg.CTX_HEAD x) 0 32 (ctxHead s k x + 1)
  let s := addReg (outUp { s with work := s.work ++ [w] } k x) p Reg.SCHED_DISPATCHED 1
  (w, updCtx s k x)

/-- The scheduler's read of a context's next descriptor meets a fault (R501). -/
def fetchFault (s : State) (k x : Nat) (t : Tile) (page kind level : Nat) : State :=
  let i : FaultInfo := ⟨k, 168, page, level, kind, false, ctxId k x, 0, 7, ctxHead s k x, t.va, 0, 1, 64⟩
  let r := recordFault s i
  if kind = 1 ∨ r.1.isNone then { r.2 with fetchHeld := r.2.fetchHeld ++ [(k, x, r.1)] }
  else abortCtx r.2 k x (if kind = 9 then 4 else 2) false

/-- Dispatch the next descriptor of a context to unit `u`: decoded (R116), completed at once where it fails or
no unit of its kind is up (R130), admitted against the energy bucket (R121, R326, R328). -/
def dispatchNext (s : State) (k x u : Nat) : State :=
  let p := pgPart k
  let t : Tile := ⟨rf s p (Reg.CTX_RING x) 0 52 + 64 * (ctxHead s k x % 2 ^ ctxLog s k x), 64, 1, 64, 7⟩
  match readTile s k 168 t with
  | (.error .ue, s) => abortCtx s k x 4 false
  | (.error (.fault page kind level), s) => fetchFault s k x t page kind level
  | (.ok rows, s) =>
    let d := bytesWords (rows.getD 0 []) 8
    let c := decodeCheck d
    if c ≠ 0 then
      let n := takeNext s k x 168 d
      complete n.2 n.1 3 c 0 0 0
    else if !anyUnit s k (dOp d) then
      let n := takeNext s k x 168 d
      completeSt n.2 n.1 0x10
    else if !unitFits s k u d then s
    else if (rd s p Reg.EBUCKET).toNat < charge d then holdEnergy s k x (charge d)
    else
      let s := wr s p Reg.EBUCKET (rd s p Reg.EBUCKET - w64 (charge d))
      let s := addReg { s with pwr := { s.pwr with charged := s.pwr.charged + charge d } } p Reg.ECHARGED (charge d)
      (takeNext s k x u d).2

/-- Dispatch a descriptor that a fence gave back (R99, R138): it keeps its place and is charged nothing. -/
def redispatch (s : State) (w : Work) (u : Nat) : State :=
  if !anyUnit s w.part (dOp w.desc) then
    let v := { w with phase := .run, unit := 168 }
    completeSt (setWork s w v) v 0x10
  else if unitFits s w.part u w.desc then
    { s with work := s.work.erase w ++ [{ w with phase := .run, unit := u }] }
  else s

/-- DISPATCH (R120, R121): context `x` of partition `k` is chosen, for unit `u`, requester index within the
partition (R166). -/
def execDispatch (k x u : Nat) (s : State) : Res :=
  .next (if k < 16 ∧ x < 256 ∧ partLive s k ∧ pageState s (pgPart k) = 3 then
      match s.work.find? fun w => w.part = k && w.ctx = x && w.phase = .returned with
      | some w => gated s fun s => redispatch s w u
      | none =>
        if ready s k x ∧ energyHeld s k x then addReg s (pgPart k) Reg.SCHED_HELD 1
        else if ready s k x ∧ !outranked s k x ∧ hasTurn s k x then gated s fun s => dispatchNext s k x u else s
    else s)

/-! ### FENCE, NOP, SIGNAL, WAIT -/

/-- Every earlier descriptor of the queue has completed (R122). -/
def fenceMet (s : State) (w : Work) : Bool := ctxWork s w.part w.ctx = [w]

/-- FENCE (R122): completes once every earlier descriptor has; FLUSH writes back what they left dirty (R286). -/
def execFence (k x q : Nat) (s : State) : Res :=
  .next (onWork s k x q 0x40 fun s w =>
    if fenceMet s w then completeSt (if (dOpf w.desc).testBit 0 then flushLines s k else s) w 0 else s)

/-- NOP (R114). -/
def execNop (k x q : Nat) (s : State) : Res := .next (onWork s k x q 0x44 fun s w => completeSt s w 0)

/-- The tile of the 8-byte word of SIGNAL and WAIT (R179). -/
def wordTile (a : Nat) : Tile := ⟨a, 0, 1, 8, 7⟩

/-- SIGNAL (R126): after the fence, adds SEED to the word at D_ADDR in one indivisible operation. -/
def execSignal (k x q : Nat) (s : State) : Res :=
  .next (onWork s k x q 0x42 fun s w =>
    if fenceMet s w then
      let a := dD w.desc
      match translatePages s k w.unit true [a / 65536] with
      | (.error (page, kind, level), s) => stopWork s w (wordTile a) true (.fault page kind level)
      | (.ok pages, s) =>
        match segments pages 9 a 8 with
        | (pa, _, nc) :: _ =>
          let r := memAdd (serveMicro s k w.unit a 8) k w.unit pa (dSeed w.desc) nc
          if r.1 then completeSt r.2 w 0 else completeSt r.2 w 4
        | [] => s
    else s)

/-- Read the word of a WAIT (R127): OK once it is at least SEED, else the descriptor waits. -/
def pollWait (s : State) (w : Work) : State :=
  withTile s w (wordTile (dA w.desc)) fun s rows =>
    if (dSeed w.desc).toNat ≤ (bytesWord (rows.getD 0 [])).toNat then completeSt s w 0
    else setWork s w { w with phase := .waiting }

/-- WAIT (R127): the read at dispatch. -/
def execWait (k x q : Nat) (s : State) : Res := .next (onWork s k x q 0x43 pollWait)

/-- The waiting descriptor a command names. -/
def findWaiting (s : State) (k x q : Nat) : Option Work :=
  s.work.find? fun w => w.part = k && w.ctx = x && w.seq = q && w.phase = .waiting && w.record.isEmpty

/-- WAIT_POLL (R127): the read every 1 µs. -/
def execWaitPoll (k x q : Nat) (s : State) : Res :=
  .next (match findWaiting s k x q with
    | some w => gated s fun s => pollWait s w
    | none => s)

/-- WAIT_TIMEOUT (R127).  What a WAIT held on a translation fault does when its TIMEOUT passes is open: the timeout ends a
WAIT only while it waits for its word (log entry 63). -/
def execWaitTimeout (k x q : Nat) (s : State) : Res :=
  .next (match findWaiting s k x q with
    | some w => gated s fun s => completeSt s w 5
    | none => s)

/-! ### Barriers (R123 to R125) -/

/-- The register of a barrier: its page and offset.  A global barrier is one counter seen from every page
(R132); it is kept on page 128. -/
def barReg (glob : Bool) (k b : Nat) : Nat × Nat :=
  if glob then (pgPart 0, Reg.GBAR b) else (pgPart k, Reg.BAR b)

/-- A dispatched descriptor is a BARRIER at this barrier. -/
def atBarrier (glob : Bool) (k b : Nat) (w : Work) : Bool :=
  dOp w.desc = 0x41 && (dOpf w.desc).testBit 8 = glob && dOpf w.desc % 64 = b && (glob || w.part = k)

/-- The barrier's generation ends: GEN advances, COUNT becomes 0, and every waiter completes with a status
(R123, R124). -/
def releaseBarrier (s : State) (glob : Bool) (k b status : Nat) : State :=
  let r := barReg glob k b
  let gen := rf s r.1 r.2 32 16
  let s := wf (wf s r.1 r.2 16 16 0) r.1 r.2 32 16 (gen + 1)
  let s := { s with barMarks := s.barMarks.filter fun m => m ≠ (if glob then 16 else k, b) }
  (s.work.filter fun w => atBarrier glob k b w && w.phase = .barrier gen).foldl
    (fun s w => let v := { w with phase := .run }; completeSt (setWork s w v) v status) s

/-- BARRIER (R123, R125): acts as a FENCE, arrives, and waits for GEN to change; the arrival that brings COUNT to
TARGET releases every waiter.  Which of a JOB that does not match and a TARGET of 0 applies first is open: the JOB does (log
entry 63). -/
def execBarrier (k x q : Nat) (s : State) : Res :=
  .next (onWork s k x q 0x41 fun s w =>
    if !fenceMet s w then s
    else
      let glob := (dOpf w.desc).testBit 8
      let b := dOpf w.desc % 64
      let r := barReg glob k b
      let job := rf s r.1 r.2 48 8
      if glob ∧ (job = 0 ∨ job ≠ rf s (pgPart k) (Reg.CTX_JOB x) 0 8) then completeSt s w 0x0F
      else if rf s r.1 r.2 0 16 = 0 then completeSt (reject s (pgPart k)) w 0x0B
      else
        let n := rf s r.1 r.2 16 16 + 1
        let s := wf s r.1 r.2 16 16 n
        let s := setWork s w { w with phase := .barrier (rf s r.1 r.2 32 16) }
        if n = rf s r.1 r.2 0 16 then releaseBarrier s glob k b 0 else s)

/-- BARRIER_TIMEOUT (R124): a barrier with arrivals fails as a whole, with PARTNER_RESET where a partition
concerned has been reset since its generation began. -/
def execBarrierTimeout (glob : Bool) (k b : Nat) (s : State) : Res :=
  .next (let r := barReg glob k b
    if rf s r.1 r.2 16 16 = 0 then s
    else gated s fun s => releaseBarrier s glob k b (if s.barMarks.contains (if glob then 16 else k, b) then 0x0D else 5))

/-- BARRIER_TARGET_WRITE (R125): a change of TARGET is rejected while COUNT is not zero; a global barrier is the
OPERATOR's alone. -/
def execBarrierTargetWrite (fn : Nat) (glob : Bool) (k b : Nat) (v : Word) (s : State) : Res :=
  .next (let r := barReg glob k b
    let p := pgPart k
    let go (s : State) : State :=
      guarded s p (fld v 0 16 = rf s r.1 r.2 0 16 || rf s r.1 r.2 16 16 = 0) fun s =>
        let s := wf s r.1 r.2 0 16 (fld v 0 16)
        if glob then wf s r.1 r.2 48 8 (fld v 48 8) else s
    if glob then (if b < 32 then withOperator s fn p (Reg.GBAR b) go else s)
    else if b < 64 then withWrite s fn p (Reg.BAR b) go else s)

/-! ### REDUCE_COLLECT (R317 to R321) -/

/-- The reduction slot that a descriptor has armed. -/
def slotOf (s : State) (w : Work) : Option RedSlot :=
  s.slots.find? fun r => r.part = w.part && r.ctx = w.ctx && r.seq = w.seq

/-- The tile of the arrival bitmap (R317). -/
def bitmapTile (d : List Word) : Tile := ⟨dB d, dBPitch d, dM d, ceilDiv (dN d * dK d) 8, 1⟩

/-- REDUCE_COLLECT (R317, R318): the scheduler zeroes the bitmap rows and arms the slot. -/
def execReduceCollect (k x q : Nat) (s : State) : Res :=
  .next (onWork s k x q 0x1B fun s w =>
    let d := w.desc
    let slot := dOpf d % 256
    if (slotOf s w).isSome then setWork s w { w with phase := .collect }
    else if rb s (pgPart k) Reg.RED_ARMED slot then complete s w 3 0x11 0 0 0
    else
      let t := bitmapTile d
      putTile s w t (List.replicate t.rows (zeroBytes t.rowBytes)) fun s =>
        let s := outUp (wb s (pgPart k) Reg.RED_ARMED slot true) k x
        setWork { s with slots := s.slots ++ [⟨k, slot, x, q, []⟩] } w { w with phase := .collect })

/-- The descriptor that collects a slot. -/
def collector (s : State) (k slot : Nat) : Option Work :=
  match s.slots.find? fun r => r.part = k && r.slot = slot with
  | none => none
  | some r => s.work.find? fun w => w.part = k && w.ctx = r.ctx && w.seq = r.seq && w.phase = .collect

/-- Every bit of the bitmap rows is set. -/
def bitmapFull (n : Nat) (rows : List Bytes) : Bool :=
  rows.all fun r => (List.range n).all fun i => (leAt r (i / 8) 1).testBit (i % 8)

/-- The merge of a full slot on its core (R62, R320). -/
def collectWork (s : State) (w : Work) : State :=
  let d := w.desc
  let (n, c) := (dN d, dK d)
  withRecords s w { opdA d (dM d) (n * c) with rb := n * c * recordSize (dFmtA d) } (dFmtA d) (n * c) fun s a =>
    storePots s w n (a.map fun r => (List.range n).map fun i =>
      mergePots ((List.range c).map fun j => r.getD (j * n + i) potZero))

/-- RED_SLOT_FULL (R130, R320): once every bit is set, core `u` merges the records; with no core up the descriptor completes
with FENCED_UNIT. -/
def execRedSlotFull (k slot u : Nat) (s : State) : Res :=
  .next (match collector s k slot with
    | none => s
    | some w => gated s fun s =>
      if u < 128 ∧ unitUp s k u then
        match readTile s k 168 (bitmapTile w.desc) with
        | (.error e, s) => stopWork s w (bitmapTile w.desc) false e
        | (.ok rows, s) =>
          if bitmapFull (dN w.desc * dK w.desc) rows then
            let v := { w with unit := u, phase := .run }
            collectWork (setWork s w v) v
          else s
      else if !anyCore s k then let v := { w with phase := .run }; completeSt (setWork s w v) v 0x10
      else s)

/-- Every bit of a slot's bitmap rows is set (R320, R321). -/
def slotFull (s : State) (w : Work) : Bool :=
  match (readTile s w.part 168 (bitmapTile w.desc)).1 with
  | .ok rows => bitmapFull (dN w.desc * dK w.desc) rows
  | .error _ => false

/-- RED_SLOT_TIMEOUT (R321): the descriptor of a slot that is not full completes with TIMEOUT; a full one is merged. -/
def execRedSlotTimeout (k slot : Nat) (s : State) : Res :=
  .next (match collector s k slot with
    | none => s
    | some w =>
      if slotFull s w then s
      else gated s fun s => let v := { w with phase := .run }; completeSt (setWork s w v) v 5)

end Sys2Proof.Machine
end

