-- ==== Sys2Proof/Machine/Sites.lean ====
section
/-!
DEFINITION. Chiplet sites and Aethoz (R292 to R325): training, identity and admission, assignment, the ingress and
its requests, coherence messages of chiplets, the reduction service, modules, the link layer, and the loss of a site.
-/

namespace Sys2Proof.Machine

/-! ### States of a site (R294, R295) -/

/-- The substate of a site. -/
def siteSub (s : State) (t : Nat) : Nat := rf s (pgSite t) Reg.PAGE_STAT 8 8

/-- The site stands in a state and substate. -/
def siteAt (s : State) (t st sub : Nat) : Bool := decide (t < 4) && decide (pageState s (pgSite t) = st) && decide (siteSub s t = sub)

/-- Move a site to a state and substate. -/
def moveSite (s : State) (t st sub : Nat) : State := setState (wf s (pgSite t) Reg.PAGE_STAT 8 8 sub) (pgSite t) st

/-- The admission list in force (R303, R400): refused where its digest is not the fused one. -/
def admitList (s : State) : List Bytes :=
  let l := s.flash.admission
  if l.isEmpty || s.fuse.admitDigests.getLast? ≠ some (sha512 l) then []
  else (List.range (l.length / 128)).map fun i => slice l (128 * i) 128

/-- A site begins to train (R294), under the admission list now in force (R303). -/
def trainStart (s : State) (t : Nat) : State :=
  setSite (moveSite s t 2 1) t fun x => { x with list := admitList s }

/-- A reduction slot fails at once with PARTNER_RESET (R321). -/
def failSlot (s : State) (r : RedSlot) : State :=
  match s.work.find? fun w => w.part = r.part && w.ctx = r.ctx && w.seq = r.seq with
  | none => s
  | some w => let v := { w with phase := .run }; completeSt (setWork s w v) v 0x0D

/-- A site that was ADMITTED is lost to the package (R295, R338): requests held are discarded and responses absorbed,
its caching domains are lost, reduction slots fail, and its link and power cap start afresh. -/
def dropSite (s : State) (t : Nat) : State :=
  let v := rd s (pgSite t) Reg.SITE_ASSIGN
  let s := dropMicro s fun e => e.req = 164 + t
  let s := { s with
    siteReqs := s.siteReqs.filter fun q => q.site ≠ t
    pwr := { s.pwr with stopped := s.pwr.stopped.filter fun x => x ≠ t } }
  let s := wf (wf s pgPwr (Reg.SITE_PWR t) 16 12 0) pgPwr (Reg.SITE_PWR t) 32 32 0
  let hit := s.slots.filter fun r => (fld v 0 16).testBit r.part || r.agents.any fun a => a.1 = t
  let s := hit.foldl failSlot s
  let s := (bitsOf (fld v 16 16) 16).foldl (fun s k => loseDomain s k 0x24 (12 + t) 0 0) s
  let s := wr s (pgSite t) Reg.SITE_LINK 0
  setSite s t fun x => { siteReset with modStat := x.modStat, lostHalves := x.lostHalves, unknown := x.unknown }

/-- The jobs that site `t` is a member of are triggered: it is reset, or enters QUARANTINE or FAULT (R423). -/
def siteJobs (s : State) (t : Nat) : State :=
  s.regs.foldl
    (fun s e =>
      if regAddr pgErr (Reg.JOB 1) ≤ e.1 ∧ e.1 < regAddr pgErr (Reg.JOB 256) ∧ bit e.2 t then
        triggerJob s ((e.1 - regAddr pgErr (Reg.JOB 0)) / 8) 4 (pgSite t)
      else s) s

/-- A site enters FAULT with an error code (R294, R298, R312, R316). -/
def siteFault (s : State) (t code : Nat) : State :=
  let up := siteAdmitted s t
  let s := siteJobs s t
  let s := moveSite (countError s (pgSite t) code 0 3 none) t 5 7
  if up then dropSite s t else wr s (pgSite t) Reg.SITE_LINK 0

/-- A chiplet is held in QUARANTINE and sent the result code (R305, R308). -/
def quarantine (s : State) (t : Nat) : State :=
  let up := siteAdmitted s t
  let s := raiseEvt (moveSite (siteJobs s t) t 3 5) (pgSite t) 1
  let s := emit s (.site t "QUARANTINE" [rf s (pgSite t) Reg.SITE_ADMIT 0 3] [])
  if up then dropSite s t else s

/-- A site is reset (R41, R295, R324, R495): identified and admitted afresh; its page's registers return to their reset
values, but for its assignment, its shares and locked fields. -/
def resetSite (s : State) (t : Nat) : State :=
  let up := siteAdmitted s t
  let s := setState (siteJobs s t) (pgSite t) 1
  let s := if up then dropSite s t else s
  let s := resetPageRegs (wb s (pgSite t) Reg.PAGE_CTL 1 false) (pgSite t)
  let s := setSite s t fun x => { siteReset with modStat := x.modStat, lostHalves := x.lostHalves, unknown := x.unknown }
  trainStart s t

/-- SITE_RESET (R295, R305, R325): the site is reset (code 0), enters FAULT with a code of R325, or is held in QUARANTINE
because its identity cannot be read (SB_TIMEOUT, code 1). -/
def execSiteReset (t code : Nat) (s : State) : Res :=
  .next (if t < 4 ∧ pageState s (pgSite t) ≠ 0 then
      if code = 0 then resetSite s t
      else if code = 1 ∧ siteAt s t 2 2 then quarantine (countError (wr s (pgSite t) Reg.SITE_ADMIT 7) (pgSite t) 1 5 1 none) t
      else if siteAdmitted s t ∧ 5 ≤ code ∧ code ≤ 7 then siteFault s t code
      else s
    else s)

/-! ### Training, identity, admission (R296 to R305) -/

/-- SIDEBAND_TRAINED (R296, R300, R486, R489): identification begins, unless a rail is out of range, or went so in service and no
whole-device reset has followed. -/
def execSidebandTrained (t : Nat) (s : State) : Res :=
  .next (if siteAt s t 2 1 ∧ s.board.siteRails.testBit t ∧ !(s.boot.railFaults.contains (pgSite t)) then
      let s := setSite s t fun x => { x with idSeen := [] }
      emit (moveSite s t 2 2) (.site t "ID_REQ" [0] [])
    else s)

/-- SITE_EMPTY (R294). -/
def execSiteEmpty (t : Nat) (s : State) : Res := .next (if siteAt s t 2 1 then moveSite s t 3 6 else s)

/-- SIDEBAND_UNKNOWN (R300): discarded and counted. -/
def execSidebandUnknown (t : Nat) (s : State) : Res :=
  .next (if t < 4 ∧ pageState s (pgSite t) ≠ 0 then setSite s t fun x => { x with unknown := x.unknown + 1 } else s)

/-- The identity record as read (R301). -/
def identity (s : State) (t : Nat) : Bytes := (List.range 16).flatMap fun i => wordBytes (rd s (pgSite t) (Reg.SITE_IDENT i))

/-- The agents that declare themselves caching (R301). -/
def cachers (r : Bytes) : List Nat := (List.range (leAt r 7 1)).filter fun j => (leAt r (16 + j) 1).testBit 0

/-- The record is well formed (R301, R304). -/
def identOk (r : Bytes) : Bool :=
  let n := leAt r 7 1
  let az := leAt r 6 1
  decide (1 ≤ n) && decide (n ≤ 8) && decide ((cachers r).length ≤ 1) && decide (leAt r 24 2 ≤ 300) &&
    (decide (az = 1) || decide (az = 2)) && ((cachers r).isEmpty || decide (az = 2))

/-- How far an entry matches a record (R304): 0 not by maker and part, 1 not by revision, 2 not by measurement, 3 not by
site or caching, 4 wholly. -/
def entryMatch (t : Nat) (r e : Bytes) : Nat :=
  if leAt e 0 4 ≠ leAt r 0 4 then 0
  else if leAt r 4 2 < leAt e 4 2 ∨ leAt e 6 2 < leAt r 4 2 then 1
  else if slice e 64 64 ≠ slice r 64 64 then 2
  else if !((leAt e 8 1).testBit t) || !((leAt e 9 1).testBit 0 || (cachers r).isEmpty) then 3
  else 4

/-- The admission decision once the record is read (R302, R304, R305, R324). -/
def decideSite (s : State) (t : Nat) : State :=
  let r := identity s t
  let p := pgSite t
  let l := (siteOf s t).list.map (entryMatch t r)
  if !(identOk r) then quarantine (countError (wr s p Reg.SITE_ADMIT 6) p 2 3 1 none) t
  else
    match l.findIdx? fun m => m = 4 with
    | some i =>
      let c := cachers r
      let n := leAt r 7 1
      let s := wr s p Reg.SITE_ADMIT
        (w64 (1 + i <<< 4 + n <<< 8 + (c.headD 0) <<< 12 + (if c.isEmpty then 0 else 1) <<< 15))
      let s := (List.range n).foldl (fun s j => emit s (.site t "SET_AGENT" [j, j] [])) s
      moveSite s t 2 3
    | none => quarantine (wr s p Reg.SITE_ADMIT (w64 (2 + l.foldl max 0))) t

/-- ID_DATA (R300 to R305): one identity word; after the last the chiplet is admitted or held in QUARANTINE. -/
def execIdData (t i : Nat) (v : Word) (s : State) : Res :=
  .next (if siteAt s t 2 2 ∧ i < 16 then
      let s := wr s (pgSite t) (Reg.SITE_IDENT i) v
      let s := setSite s t fun x => { x with idSeen := if x.idSeen.contains i then x.idSeen else x.idSeen ++ [i] }
      let seen := (siteOf s t).idSeen
      if seen.length = 16 then decideSite s t
      else
        match (List.range 16).find? fun j => !(seen.contains j) with
        | some j => emit s (.site t "ID_REQ" [j] [])
        | none => s
    else s)

/-- The capacity in half-modules of modules up and of those at x32 (R298). -/
def halvesOf (up x32 : Nat) : Nat := ((List.range 16).map fun m => if up.testBit m then (if x32.testBit m then 1 else 2) else 0).sum

/-- The highest rate a site may train at (R292, R324): `MAX_GTS`, and 16 GT/s on hub stepping B0. -/
def maxGts (s : State) (t : Nat) : Nat :=
  let v := rf s (pgSite t) Reg.SITE_CFG 8 8
  let v := if v = 4 ∨ v = 8 ∨ v = 12 ∨ v = 16 ∨ v = 24 ∨ v = 32 then v else 32
  if s.fuse.hubStep = 0xB0 then min v 16 else v

/-- The site is in full training at power-on, which tries again what the defect map names (R299). -/
def fullyTrained (s : State) (t : Nat) : Bool := s.boot.fullSites.testBit t && !s.boot.warm && decide (s.boot.phase ≠ .ready)

/-- The modules that the defect map bars from training, and those it holds to x32 (R299, R478). -/
def barred (s : State) (t : Nat) : Nat × Nat :=
  if fullyTrained s t then (0, 0)
  else
    let f := mapInForce s
    (maskOf ((f.modules.filter fun b => b.1 = t).map (·.2)), maskOf ((f.halves.filter fun b => b.1 = t).map (·.2.1)))

/-- Full training at power-on clears from the map what came up (R299). -/
def clearMap (s : State) (t up x32 : Nat) : State :=
  if fullyTrained s t then
    { s with flash := { s.flash with fieldMap := { s.flash.fieldMap with
      modules := s.flash.fieldMap.modules.filter fun b => !(b.1 = t && up.testBit b.2)
      halves := s.flash.fieldMap.halves.filter fun b => !(b.1 = t && up.testBit b.2.1 && !(x32.testBit b.2.1)) } } }
  else s

/-- MAINBAND_TRAINED (R296, R298, R299, R300, R304, R324, R325): the site becomes ADMITTED on the modules that trained and
that the defect map does not bar; below the floor it enters FAULT. -/
def execMainbandTrained (t up x32 gts : Nat) (s : State) : Res :=
  .next (if siteAt s t 2 3 then
      let off := barred s t
      let s := clearMap s t up x32
      let up := up &&& (65535 ^^^ off.1)
      let x32 := x32 ||| off.2
      let h := halvesOf up x32
      let ok := [4, 8, 12, 16, 24, 32].contains gts && decide (gts ≤ maxGts s t)
      if h = 0 ∨ !ok then siteFault s t 3
      else if h < 16 then siteFault s t 5
      else
        let az := min 2 (leAt (identity s t) 6 1)
        let p := pgSite t
        let lost := (mapInForce s).halves.filter fun b => b.1 = t
        let s := setSite s t fun x => { x with lostHalves := lost.map (·.2) }
        let s := wr s p Reg.SITE_LINK
          (w64 (up % 65536 + ((x32 &&& up) % 65536) <<< 16 + h <<< 32 + gts <<< 40 + az <<< 48))
        let s := setSite s t fun x => { x with
          modStat := (List.range 16).map fun m =>
            setFld (x.modStat.getD m 0) 4 2 (if up.testBit m then (if x32.testBit m then 1 else 2) else 0) }
        let s := wf s p Reg.SITE_ADMIT 56 8 (arithVer s)
        let s := moveSite s t 3 4
        let s := emit s (.site t "ADMIT" [arithVer s, az, t, 2] [])
        let s := emit s (.site t "ASSIGN" [rf s p Reg.SITE_ASSIGN 0 16, rf s p Reg.SITE_ASSIGN 16 16] [])
        let cap := siteCapMax s t
        let s := wf (wf s pgPwr (Reg.SITE_PWR t) 16 12 cap) pgPwr (Reg.SITE_PWR t) 32 12 cap
        raiseEvt s p 0
    else s)

/-! ### Assignment (R306) -/

/-- SITE_ASSIGN (R306): the masks change at once; the write completes when the requests of every partition removed have
drained. -/
def execSiteAssign (fn t : Nat) (v : Word) (s : State) : Res :=
  .next (if t < 4 then withWrite s fn (pgSite t) Reg.SITE_ASSIGN fun s =>
      let p := pgSite t
      let old := rf s p Reg.SITE_ASSIGN 0 32
      let new := fld v 0 32
      let part := new % 65536
      let cache := new / 65536
      let held := (List.range 16).any fun k =>
        (partState s k = 3 || partState s k = 4 || sealHeld s k) &&
          (old.testBit k != new.testBit k || old.testBit (16 + k) != new.testBit (16 + k))
      let sets := (List.range 16).any fun k => cache.testBit k && !(old.testBit (16 + k))
      let ok := !held && decide (cache &&& part = cache) &&
        (!sets || (siteAdmitted s t && rb s p Reg.SITE_ADMIT 15)) &&
        (!(rb s p Reg.SITE_CFG 0) || decide (popCount part 16 ≤ 1))
      guarded s p ok fun s =>
        let s := dropMicro (wf s p Reg.SITE_ASSIGN 0 32 new) fun e => e.req = 164 + t
        let gone := old % 65536 &&& (65535 ^^^ part)
        updIso (setSite s t fun x => { x with assigning := some (gone ||| x.assigning.getD 0) })
    else s)

/-- ASSIGN_DONE (R306, R325). -/
def execAssignDone (t : Nat) (s : State) : Res :=
  .next (match (siteOf s t).assigning with
    | none => s
    | some gone =>
      if s.siteReqs.any fun q => q.site = t && gone.testBit q.part then s
      else
        let p := pgSite t
        let s := setSite s t fun x => { x with assigning := none }
        let s := if siteAdmitted s t then
            emit s (.site t "ASSIGN" [rf s p Reg.SITE_ASSIGN 0 16, rf s p Reg.SITE_ASSIGN 16 16] [])
          else s
        raiseEvt s p 6)

/-! ### Modules (R297 to R299) -/

/-- Flits whose module no longer carries them are sent again on the others (R297). -/
def moveFlits (s : State) (t : Nat) : State :=
  let l := activeModules s t
  sendAgain s t fun f => !(l.contains f.2)

/-- A module leaves service to retrain (R297): new flits go to the others, and those it left unacknowledged are sent again
on them. -/
def startRetrain (s : State) (t m : Nat) : State :=
  if siteAdmitted s t ∧ m < 16 ∧ rb s (pgSite t) Reg.SITE_LINK m ∧ !((siteOf s t).retrain.contains m) then
    moveFlits (setSite s t fun x => { x with
      retrain := x.retrain ++ [m]
      crcErrs := x.crcErrs.filter fun e => e.1 ≠ m
      modStat := x.modStat.set m (let w := x.modStat.getD m 0; setFld w 16 16 (fld w 16 16 + 1)) }) t
  else s

/-- A flit of module `m` fails its CRC (R297): over 16 failures of a module within 1 ms, which is 25,000 ticks, retrain
it. -/
def crcFails (s : State) (t m : Nat) : State :=
  let now := (rd s pgErr Reg.ERR_TIME).toNat
  let s := setSite s t fun x => { x with crcErrs := (x.crcErrs.filter fun e => decide (now < e.2 + 25000)) ++ [(m, now)] }
  if 16 < ((siteOf s t).crcErrs.countP fun e => e.1 = m) then startRetrain s t m else s

/-- SITE_CMD_RETRAIN (R324): legal in READY with ADMITTED. -/
def execSiteCmdRetrain (fn t : Nat) (s : State) : Res :=
  .next (if t < 4 then withWrite s fn (pgSite t) Reg.SITE_CMD fun s =>
      guarded s (pgSite t) (siteAt s t 3 4) fun s => startRetrain s t (rf s (pgSite t) Reg.SITE_MOD_SEL 0 4)
    else s)

/-- MODULE_RETRAIN (R297): too many CRC failures, or a lane fault. -/
def execModuleRetrain (t m : Nat) (s : State) : Res := .next (if t < 4 then startRetrain s t m else s)

/-- The redundant lanes of a half after `bad` more lanes fail, and whether the half is lost (R297): each half has two. -/
def useSpares (used bad : Nat) : Nat × Bool := if used + bad ≤ 2 then (used + bad, false) else (2, true)

/-- A step of a module's loss is saved in the defect map (R299). -/
def saveModule (s : State) (t : Nat) (down : Option Nat) (halves : List (Nat × Nat)) : State :=
  let f := s.flash.fieldMap
  { s with flash := { s.flash with fieldMap := { f with
      modules := f.modules ++ down.toList.map fun m => (t, m)
      halves := f.halves ++ halves.map fun b => (t, b.1, b.2) } } }

/-- MODULE_RETRAIN_DONE (R297 to R299, R325, R450): the module returns at x64 or x32, or is marked down, and the capacity
is counted again. -/
def execModuleRetrainDone (t m : Nat) (loBad hiBad : Nat) (s : State) : Res :=
  .next (let x := siteOf s t
    if t < 4 ∧ x.retrain.contains m then
      let p := pgSite t
      let w := x.modStat.getD m 0
      let lo := useSpares (fld w 0 2) loBad
      let hi := useSpares (fld w 2 2) hiBad
      let wasLo := x.lostHalves.contains (m, 0)
      let wasHi := x.lostHalves.contains (m, 1)
      let lostLo := wasLo || lo.2
      let lostHi := wasHi || hi.2
      let width := if lostLo && lostHi then 0 else if lostLo || lostHi || decide (fld w 4 2 = 1) then 1 else 2
      let w := setFld (setFld (setFld w 0 2 lo.1) 2 2 hi.1) 4 2 width
      let halves := (if lostLo && !wasLo then [(m, 0)] else []) ++ (if lostHi && !wasHi then [(m, 1)] else [])
      let s := setSite s t fun x => { x with
        retrain := x.retrain.filter fun j => j ≠ m
        modStat := x.modStat.set m w
        lostHalves := x.lostHalves ++ halves }
      let up := rf s p Reg.SITE_LINK 0 16
      let up := if width = 0 ∧ up.testBit m then up ^^^ (1 <<< m) else up
      let x32 := (List.range 16).foldl (fun a j => if fld ((siteOf s t).modStat.getD j 0) 4 2 = 1 ∧ up.testBit j then a ||| (1 <<< j) else a) 0
      let h := halvesOf up x32
      let s := wf (wf (wf s p Reg.SITE_LINK 0 16 up) p Reg.SITE_LINK 16 16 x32) p Reg.SITE_LINK 32 6 h
      let s := if (0 < loBad ∧ !lo.2) ∨ (0 < hiBad ∧ !hi.2) then raiseEvt s p 2 else s
      let s := if halves.isEmpty then s
        else
          let s := saveModule (countError s p 4 0 0 none) t (if width = 0 then some m else none) halves
          raiseEvt s p (if width = 0 then 4 else 3)
      let s := pumpAll (moveFlits s t) t
      let s := systemEntry s 4 p [w, rd s p Reg.SITE_LINK]
      if h < 16 then siteFault s t 5 else s
    else s)

/-! ### The link layer (R311 to R313) -/

/-- Deliver held flits in order from the last acknowledged (R312); `n` bounds them. -/
def deliverFlits (x : Site) : Nat → Site
  | 0 => x
  | n + 1 =>
    let q := (x.rxAck + 1) % 65536
    if x.rxHeld.contains q then deliverFlits { x with rxAck := q, rxHeld := x.rxHeld.filter fun f => f ≠ q } n else x

/-- The chiplet has every flit up to `ack`: those are held no longer; the rest are sent again if it asks (R312). -/
def ackFlits (s : State) (t ack : Nat) (again : Bool) : State :=
  let s := setSite s t fun x =>
    let left := (x.txNext + 65535 - ack) % 65536
    { x with txAck := ack, sent := x.sent.filter fun f => decide ((f.1 + 65535 - ack) % 65536 < left) }
  pumpAll (if again then sendAgain s t fun _ => true else s) t

/-- FLIT_RECEIVE (R297, R311, R312): a flit arrives on module `m`; one of a bad CRC counts against its module and is
answered with NAK; a NAK of the chiplet's makes the hub send again; a copy is discarded; a SEQ beyond the window or a chunk
count above 15 is FLIT_PROTOCOL; any other flit is taken in SEQ order and acknowledged. -/
def execFlitReceive (t m : Nat) (flit : Bytes) (s : State) : Res :=
  .next (if t < 4 ∧ siteAdmitted s t ∧ flit.length = 256 ∧ (activeModules s t).contains m then
      let x := siteOf s t
      if crc32c (slice flit 0 252) ≠ leAt flit 252 4 then crcFails (emit s (.site t "NAK" [x.rxAck] [])) t m
      else
        let seq := leAt flit 0 2
        let ack := leAt flit 2 2
        let flags := leAt flit 4 1
        let known := decide ((ack + 65536 - x.txAck) % 65536 ≤ unacked x)
        let s := if known then ackFlits s t ack (flags.testBit 0) else s
        let d := (seq + 65536 - x.rxAck) % 65536
        if 15 < leAt flit 5 1 then siteFault s t 6
        else if flags.testBit 1 then s
        else if d = 0 ∨ 32768 ≤ d then s
        else if 4096 < d then siteFault s t 6
        else
          let s := setSite s t fun x =>
            let h := if x.rxHeld.contains seq then x.rxHeld else x.rxHeld ++ [seq]
            deliverFlits { x with rxHeld := h } (h.length)
          emit s (.site t "ACK" [(siteOf s t).rxAck] [])
    else s)

/-! ### The ingress (R307 to R310, R314, R315) -/

/-- Header fields (R314). -/
def hPart (h0 : Word) : Nat := fld h0 8 4
/-- AGENT. -/
def hAgent (h0 : Word) : Nat := fld h0 12 3
/-- TC. -/
def hTc (h0 : Word) : Nat := fld h0 16 2
/-- TAG. -/
def hTag (h0 : Word) : Nat := fld h0 20 12
/-- LEN. -/
def hLen (h0 : Word) : Nat := fld h0 32 9
/-- HINT. -/
def hHint (h0 : Word) : Nat := fld h0 41 4
/-- ADDR of a request. -/
def hAddr (h1 : Word) : Nat := fld h1 0 52

/-- A response of ACCESS_DENIED or FAULT_PERMISSION, or a walk that ends in a fault, is counted (R308, R324, R325). -/
def countDenied (s : State) (t : Nat) : State := raiseEvt (addReg s (pgSite t) Reg.SITE_DENIED 1) (pgSite t) 5

/-- TRIP_ON_DENY (R308): the site enters QUARANTINE. -/
def tripSite (s : State) (t status : Nat) : State :=
  if (status = 0x0F ∨ status = 2) ∧ rb s (pgSite t) Reg.SITE_CFG 1 ∧ siteAdmitted s t then quarantine s t else s

/-- Checks 1 to 4 of R307, in order: the status of the first that fails. -/
def ingressCheck (s : State) (t : Nat) (h0 : Word) (caching : Bool) : Option Nat :=
  let p := pgSite t
  let k := hPart h0
  if rf s p Reg.SITE_ADMIT 8 4 ≤ hAgent h0 then some 0x0F
  else if !((rf s p Reg.SITE_ASSIGN 0 16).testBit k) then some 0x0F
  else if partState s k = 0 ∨ partState s k = 1 ∨ partState s k = 6 then some 0x0D
  else if hTc h0 = 3 then some 0x0F
  else if caching && !(rb s p Reg.SITE_ADMIT 15 && decide (rf s p Reg.SITE_ADMIT 12 3 = hAgent h0) &&
      (rf s p Reg.SITE_ASSIGN 16 16).testBit k && decide (rf s p Reg.SITE_LINK 48 4 = 2)) then some 0x0F
  else none

/-- The requests a chiplet may make, by TYPE (R315). -/
def isRead (ty : Nat) : Bool := ty = 0x01
/-- Requests that only a caching agent makes. -/
def isCaching (ty : Nat) : Bool := ty = 0x10 || ty = 0x11 || ty = 0x12

/-- A TYPE that R315 gives a message from the chiplet; any other completes with ACCESS_DENIED. -/
def knownType (ty : Nat) : Bool := [0x01, 0x02, 0x03, 0x10, 0x11, 0x12, 0x13, 0x14, 0x15, 0x16, 0x20].contains ty

/-- Check 5 of R307: LEN, alignment and the 256-byte boundary as R314 requires. -/
def shapeOk (ty : Nat) (h0 h1 : Word) (n m : Nat) : Bool :=
  let len := hLen h0
  let a := hAddr h1
  if ty = 0x01 then decide (1 ≤ len) && decide (len ≤ 256) && oneRequest a len
  else if ty = 0x02 then
    decide (32 ≤ len) && decide (len ≤ 256) && decide (len % 32 = 0) && decide (a % 32 = 0) && oneRequest a len &&
      decide (n = len)
  else if ty = 0x03 then decide (len = 128) && decide (a % 128 = 0) && decide (n = 128) && decide (m = 16)
  else decide (a % 128 = 0)

/-- The runs of bytes that a mask of 128 bytes names: first byte and length. -/
def maskRuns (mask : Nat) : List (Nat × Nat) :=
  (List.range 128).foldl
    (fun l i =>
      if mask.testBit i then
        (match l.getLast? with
         | some e => if e.1 + e.2 = i then l.dropLast ++ [(e.1, e.2 + 1)] else l ++ [(i, 1)]
         | none => [(i, 1)])
      else l) []

/-- A masked write of a line from a non-caching agent (R280, R315): coherent through the home, else straight to
memory. -/
def writeMasked (s : State) (k req pa hint mask : Nat) (d : Bytes) (nc : Bool) : Bool × State :=
  if nc then
    (maskRuns mask).foldl
      (fun (r : Bool × State) e => if r.1 then devWrite r.2 k req (pa + e.1) (slice d e.1 e.2) else r) (true, s)
  else if domainLost s k then (false, s)
  else
    let line := pa / 128
    let s := snoopAll (addReg (meetLine s k (posOf req) line true) (pgPart k) Reg.COH_REQUESTS 1) k line (posOf req) true
    match devRead s k req (line * 128) 128 with
    | (none, s) => (false, s)
    | (some old, s) => (true, placeLine s k req line hint (mergeReq (.wrPart mask d hint) old))

/-- The record that a submission names (R319): its slot's descriptor, row, first index, count and record size. -/
def redPlace (w : Work) (h0 h1 : Word) : Option (Nat × Nat × Nat × Nat) :=
  let d := w.desc
  let rs := if dFmtA d = 9 then 32 else 96
  let row := dN d * dK d
  let pos := fld h1 16 24
  let n := hLen h0 / rs
  if row = 0 ∨ hLen h0 % rs ≠ 0 ∨ n = 0 ∨ 256 < hLen h0 then none
  else if dM d ≤ pos / row ∨ row < pos % row + n then none
  else some (pos / row, pos % row, n, rs)

/-- A submission that came before `q` and is held has reserved one of the records `i` to `i + n - 1` of row `m` (R319). -/
def reserved (s : State) (w : Work) (slot : RedSlot) (q : SiteReq) (m i n : Nat) : Bool :=
  (s.siteReqs.takeWhile fun x => x ≠ q).any fun x =>
    fld x.h0 0 8 = 0x20 && x.part = slot.part && decide (fld x.h1 0 6 = slot.slot) && x.ended.isNone &&
      (match redPlace w x.h0 x.h1 with
       | none => false
       | some (m', i', n', _) => decide (m' = m) && decide (i' < i + n) && decide (i < i' + n'))

/-- How a submission to an armed slot ends (R319): a status, or a fault it is held on. -/
def runSubmit (s : State) (w : Work) (slot : RedSlot) (q : SiteReq) : Except (Stop × Tile × Bool) Nat × State :=
  match redPlace w q.h0 q.h1 with
  | none => (.ok 3, s)
  | some (m, i, n, rs) =>
    let d := w.desc
    let k := w.part
    let bt : Tile := ⟨dB d + dBPitch d * m, dBPitch d, 1, ceilDiv (dN d * dK d) 8, 1⟩
    let at' : Tile := ⟨dA d + dAPitch d * m + i * rs, dAPitch d, 1, n * rs, 0⟩
    match readTile s k 168 bt with
    | (.error e, s) => (.error (e, bt, false), s)
    | (.ok rows, s) =>
      let bits := bytesNat (rows.headD [])
      let mine := ((2 ^ n - 1) <<< i)
      if bits &&& mine ≠ 0 ∨ reserved s w slot q m i n then (.ok 3, s)
      else
        match writeTile s k 168 0 at' [fitBytes q.data (n * rs)] with
        | (.error e, s) => (.error (e, at', true), s)
        | (.ok _, s) =>
          match writeTile s k 168 0 bt [natBytes (bits ||| mine) bt.rowBytes] with
          | (.error e, s) => (.error (e, bt, true), s)
          | (.ok _, s) =>
            let a := (q.site, hAgent q.h0)
            let ns := { slot with agents := if slot.agents.contains a then slot.agents else slot.agents ++ [a] }
            (.ok 0, addReg { s with slots := s.slots.map fun r => if r = slot then ns else r } (pgSite q.site)
              Reg.SITE_RED_ACCEPTED 1)

/-- The entry of a request, ended with a status and the data it returns. -/
def endReq (s : State) (q : SiteReq) (status : Nat) (data : Bytes) : State :=
  let v := { q with held := none, waiting := none, ended := some status, resp := data }
  { s with siteReqs := s.siteReqs.map fun x => if x = q then v else x }

/-- The entry of a request that has accessed memory at `pa`. -/
def endAccess (s : State) (q : SiteReq) (pa status : Nat) (data : Bytes) : State :=
  let v := { q with ended := some status, resp := data, pa := some pa }
  { s with siteReqs := s.siteReqs.map fun x => if x = q then v else x }

/-- A request ends in a fault (R308): held on a page software may map, else denied. -/
def stopReq (s : State) (q : SiteReq) (req : Nat) (tile : Tile) (write : Bool) (page kind level : Nat) : State :=
  let t := q.site
  let i : FaultInfo := ⟨q.part, req, page, level, kind, write, 0, 0, tile.operand, 0, tile.va, 0, 1, tile.rowBytes⟩
  match recordFault s i with
  | (r, s) =>
    if kind = 1 ∨ r.isNone then
      let v := { q with held := r, waiting := if r.isNone then some i else none, ended := none }
      addReg { s with siteReqs := s.siteReqs.map fun x => if x = q then v else x } (pgSite t) Reg.SITE_HELD 1
    else
      let st := if kind = 9 then 4 else 2
      tripSite (countDenied (endReq s q st []) t) t st

/-- A request that is refused under R307. -/
def denyReq (s : State) (q : SiteReq) (status : Nat) : State :=
  let s := endReq s q status []
  if status = 0x0F then tripSite (countDenied s q.site) q.site status else s

/-- Translate, and run what the request asks (R307 steps 6 and 7, R308, R315); a coherence request enters the home and
leaves the ingress. -/
def runReq (s : State) (q : SiteReq) : State :=
  let ty := fld q.h0 0 8
  let k := q.part
  let t := q.site
  let req := 164 + t
  let a := hAddr q.h1
  let n := if isCaching ty then 128 else hLen q.h0
  let tile : Tile := ⟨a, 0, 1, n, 6⟩
  let page := a / 65536 * 65536
  let write := ty = 0x02 || ty = 0x03
  let own := ty = 0x11 || ty = 0x12
  match translate s k req a n write with
  | (.fault kind level, s) => stopReq s q req tile write page kind level
  | (.ok pa nc, s) =>
    match if own then translate s k req a 0 true else (XRes.ok pa nc, s) with
    | (.fault kind level, s) => stopReq s q req tile true page kind level
    | (.ok _ _, s) =>
      if isCaching ty then
        if nc then denyReq s q 0x0F
        else
          cohRequest (returnCredit { s with siteReqs := s.siteReqs.erase q } t k) k (12 + t) (pa / 128)
            (if ty = 0x10 then .rdS else if ty = 0x11 then .rdX else .upg) (bit q.h0 15) false
      else if ty = 0x01 then
        match memRead s k req pa n nc with
        | (some d, s) => endAccess s q pa 0 d
        | (none, s) => endAccess s q pa 4 []
      else
        let r := if ty = 0x02 then memWrite s k req pa (hHint q.h0) q.data nc
          else writeMasked s k req pa (hHint q.h0) (bytesNat q.mask) q.data nc
        endAccess r.2 q pa (if r.1 then 0 else 4) []

/-- The chiplet holds no credit for the pool of partition `k` (R310): its 32 are taken by requests or kept. -/
def noCredit (s : State) (t k : Nat) : Bool :=
  decide (32 ≤ (s.siteReqs.countP fun q => q.site = t && q.part = k) + (siteOf s t).kept.getD k 0)

/-- A request message arrives at the ingress (R307, R310, R312); one for which the chiplet holds no credit breaks the
protocol. -/
def ingress (s : State) (t : Nat) (h0 h1 : Word) (mask data : Bytes) (ty : Nat) : State :=
  if 4 ≤ t ∨ !(siteAdmitted s t) then s
  else
    let k := hPart h0
    let s := addReg s (pgSite t) Reg.SITE_RX_BYTES (16 + mask.length + data.length)
    if noCredit s t k then siteFault s t 6
    else
      let known := knownType (fld h0 0 8)
      let q : SiteReq := ⟨t, hTag h0, if known then setFld h0 0 8 ty else h0, h1, data, mask, k, none, none, none, [], none, false⟩
      let s := { s with siteReqs := s.siteReqs ++ [q] }
      if !known then denyReq s q 0x0F
      else match ingressCheck s t h0 (isCaching ty) with
      | some st => denyReq s q st
      | none => if shapeOk ty h0 h1 data.length mask.length then gated s fun s => runReq s q else denyReq s q 3

/-- MEM_RD (R315). -/
def execMemRd (t : Nat) (h0 h1 : Word) (s : State) : Res := .next (ingress s t h0 h1 [] [] 0x01)

/-- MEM_WR (R315). -/
def execMemWr (t : Nat) (h0 h1 : Word) (data : Bytes) (s : State) : Res := .next (ingress s t h0 h1 [] data 0x02)

/-- MEM_WR_MASK (R315). -/
def execMemWrMask (t : Nat) (h0 h1 : Word) (mask data : Bytes) (s : State) : Res := .next (ingress s t h0 h1 mask data 0x03)

/-- CRD_S (R315). -/
def execCrdS (t : Nat) (h0 h1 : Word) (s : State) : Res := .next (ingress s t h0 h1 [] [] 0x10)

/-- CRD_X (R315). -/
def execCrdX (t : Nat) (h0 h1 : Word) (s : State) : Res := .next (ingress s t h0 h1 [] [] 0x11)

/-- C_UPG (R315). -/
def execCUpg (t : Nat) (h0 h1 : Word) (s : State) : Res := .next (ingress s t h0 h1 [] [] 0x12)

/-- The submission a slot holds for re-examination, or fresh (R319): checked, written, answered by RED_RSP; a fault
that software may resolve holds it. -/
def submitReq (s : State) (q : SiteReq) : State :=
  let t := q.site
  let k := q.part
  let rsp (s : State) (st : Nat) : State :=
    siteSend (returnCredit { s with siteReqs := s.siteReqs.filter fun x => x ≠ q } t k) t "RED_RSP" [k, q.tag, st] []
  match ingressCheck s t q.h0 false with
  | some st =>
    let s := rsp s st
    if st = 0x0F then tripSite (countDenied s t) t st else s
  | none =>
    let n := fld q.h1 0 6
    match s.slots.find? fun r => r.part = k && r.slot = n, collector s k n with
    | some slot, some w =>
      match runSubmit s w slot q with
      | (.ok st, s) => rsp s st
      | (.error (.ue, _, _), s) => rsp s 4
      | (.error (.fault page kind level, tile, write), s) =>
        let i : FaultInfo := ⟨k, 168, page, level, kind, write, ctxId k w.ctx, dOp w.desc, tile.operand, w.seq, tile.va, 0, 1,
          tile.rowBytes⟩
        match recordFault s i with
        | (r, s) =>
          if kind = 1 ∨ r.isNone then
            let v := { q with held := r, waiting := if r.isNone then some i else none, ended := none }
            addReg { s with siteReqs := s.siteReqs.map fun x => if x = q then v else x } (pgSite t) Reg.SITE_HELD 1
          else
            let st := if kind = 9 then 4 else 2
            tripSite (countDenied (rsp s st) t) t st
    | _, _ => rsp (addReg s (pgSite t) Reg.SITE_RED_REJECTED 1) 0x0B

/-- RED_SUBMIT (R319). -/
def execRedSubmit (t : Nat) (h0 h1 : Word) (data : Bytes) (s : State) : Res :=
  .next (if 4 ≤ t ∨ !(siteAdmitted s t) then s
    else
      let k := hPart h0
      let s := addReg s (pgSite t) Reg.SITE_RX_BYTES (16 + data.length)
      if noCredit s t k then siteFault s t 6
      else
        let q : SiteReq := ⟨t, hTag h0, setFld h0 0 8 0x20, h1, data, [], k, none, none, none, [], none, false⟩
        gated { s with siteReqs := s.siteReqs ++ [q] } fun s => submitReq s q)

/-- The request of a site under a tag of one of these types. -/
def findReq (s : State) (t tag : Nat) (f : Nat → Bool) : Option SiteReq :=
  s.siteReqs.find? fun q => q.site = t && q.tag = tag && f (fld q.h0 0 8)

/-- A request that is done is answered once, under its TAG (R314, R315); one released to be translated again runs
first (R308). -/
def respond (s : State) (t tag : Nat) (f : Nat → Bool) (msg : String) : State :=
  match findReq s t tag f with
  | none => s
  | some q =>
    if q.held.isSome || q.waiting.isSome then s
    else
      let s := if q.ended.isNone then
          gated s fun s => (if fld q.h0 0 8 = 0x20 then submitReq s q else runReq s q) else s
      match findReq s t tag f with
      | none => s
      | some q =>
        match q.ended with
        | none => s
        | some st =>
          let s := siteSend (returnCredit { s with siteReqs := s.siteReqs.erase q } t q.part) t
            (if fld q.h0 0 8 = 0x20 then "RED_RSP" else msg) [q.part, q.tag, st] q.resp
          if q.owed then tripSite (countDenied s t) t st else s

/-- RD_RSP (R315): data and STATUS of a read, of a coherence request that did not reach the home, or of a message of no known
TYPE. -/
def execRdRsp (t tag : Nat) (s : State) : Res :=
  .next (respond s t tag (fun ty => isRead ty || isCaching ty || !(knownType ty)) "RD_RSP")

/-- WR_RSP (R315): the STATUS of a write, or the outcome of a submission that was held. -/
def execWrRsp (t tag : Nat) (s : State) : Res :=
  .next (respond s t tag (fun ty => ty = 0x02 || ty = 0x03 || ty = 0x20) "WR_RSP")

/-! ### Coherence responses of chiplets (R309, R314 to R316) -/

/-- A coherence response bypasses translation and goes to the home of its line; one that names an agent identity not
assigned, or is for a partition outside `CACHE_MASK`, reaches none (R302, R309). -/
def cohResponse (s : State) (t : Nat) (h0 h1 : Word) (n : Nat) (f : State → Nat → Nat → State) : State :=
  if 4 ≤ t ∨ !(siteAdmitted s t) then s
  else
    let s := addReg s (pgSite t) Reg.SITE_RX_BYTES (16 + n)
    let k := hPart h0
    if rf s (pgSite t) Reg.SITE_ADMIT 8 4 ≤ hAgent h0 then tripSite (countDenied s t) t 0x0F
    else if !((rf s (pgSite t) Reg.SITE_ASSIGN 16 16).testBit k) then tripSite (countDenied s t) t 0x0F
    else if domainLost s k then s
    else f s k (fld h1 0 46 / 128)

/-- C_WB (R283, R284, R315). -/
def execCWb (t : Nat) (h0 h1 : Word) (data : Bytes) (s : State) : Res :=
  .next (cohResponse s t h0 h1 data.length fun s k line => homeNotice s k (12 + t) line (some data))

/-- C_EVICT (R283, R284, R315). -/
def execCEvict (t : Nat) (h0 h1 : Word) (s : State) : Res :=
  .next (cohResponse s t h0 h1 0 fun s k line => homeNotice s k (12 + t) line none)

/-- C_GACK (R276, R315): the chiplet has its grant. -/
def execCGack (t : Nat) (h0 h1 : Word) (s : State) : Res :=
  .next (cohResponse s t h0 h1 0 fun s k line =>
    match lineTxn s k line with
    | some u =>
      if u.pos = 12 + t && cachingReq u.req && decide (u.phase = 2) then settle (closeTxn s u) k line
      else protocolLoss s k (12 + t) line
    | none => protocolLoss s k (12 + t) line)

/-- SNP_RSP (R273, R279, R283, R314): the snoop answer its STATUS names. -/
def execSnpRsp (t : Nat) (h0 h1 : Word) (data : Bytes) (s : State) : Res :=
  .next (cohResponse s t h0 h1 data.length fun s k line =>
    match fld h0 48 8 with
    | 0 => cohAnswer s k (12 + t) line .miss
    | 1 => cohAnswer s k (12 + t) line .clean
    | 2 => cohAnswer s k (12 + t) line (.dirty data)
    | 3 => cohAnswer s k (12 + t) line .inFlight
    | _ => protocolLoss s k (12 + t) line)

/-! ### Partition reset at a site (R316) -/

/-- PART_RESET_ACK (R300, R316). -/
def execPartResetAck (t k : Nat) (s : State) : Res :=
  .next (if t < 4 then setSite s t fun x => { x with resetWait := x.resetWait.filter fun j => j ≠ k } else s)

/-- PART_RESET_ACK_TIMEOUT (R316): the site enters FAULT with LINK_LOST, and the reset proceeds. -/
def execPartResetAckTimeout (t k : Nat) (s : State) : Res :=
  .next (if t < 4 ∧ (siteOf s t).resetWait.contains k then
      siteFault (setSite s t fun x => { x with resetWait := x.resetWait.filter fun j => j ≠ k }) t 7
    else s)

end Sys2Proof.Machine
end

