-- ==== Sys2Proof/Machine/Tenancy.lean ====
section
/-!
DEFINITION. Tenancy (R370 to R382, R389 to R393, R427): the partition's states, reset, scrub, seal, and the commands of
its tenant.
-/

namespace Sys2Proof.Machine

/-! ### Steps that a reset and a scrub share -/

/-- `SEC.GEOMETRY.AVAIL` names partition `k` (R400). -/
def available (s : State) (k : Nat) : Bool := rb s pgSec Reg.GEOMETRY k

/-- Every context of partition `k` that is not FREE becomes dead (R389, R427), with ABORT_CAUSE PARTNER_RESET; a member of
a job is reported as the job's abort reports it (R424). -/
def killContexts (s : State) (k : Nat) : State :=
  (openCtxs s k).foldl
    (fun s x =>
      if ctxDead s k x then s
      else
        let j := rf s (pgPart k) (Reg.CTX_JOB x) 0 8
        let s := abortCtx s k x 0x0D true
        if j = 0 then s else countErrorAt s (pgPart k) 0x41 0x0D 1 (some (ctxId k x)) (pgPart k)) s

/-- The global barriers whose JOB a context of partition `k` holds in its `CTX_JOB` (R124). -/
def jobBarriers (s : State) (k : Nat) : List Nat :=
  (List.range 32).filter fun g =>
    let j := rf s (pgPart 0) (Reg.GBAR g) 48 8
    decide (j ≠ 0) && (List.range 256).any fun x => rf s (pgPart k) (Reg.CTX_JOB x) 0 8 = j

/-- Barriers that a reset of partition `k` touches are marked until their generation ends (R124). -/
def markBarriers (s : State) (k : Nat) : State :=
  let new := ((List.range 64).map fun b => (k, b)) ++ (jobBarriers s k).map fun g => (16, g)
  { s with barMarks := s.barMarks ++ new.filter fun m => !(s.barMarks.contains m) }

/-- PART_RESET to every admitted site whose `CACHE_MASK` names partition `k` (R316, R427). -/
def sendPartReset (s : State) (k : Nat) : State :=
  (List.range 4).foldl
    (fun s t =>
      if siteAdmitted s t && (rf s (pgSite t) Reg.SITE_ASSIGN 16 16).testBit k then
        setSite (emit s (.site t "PART_RESET" [k] [])) t fun x =>
          { x with resetWait := if x.resetWait.contains k then x.resetWait else x.resetWait ++ [k] }
      else s) s

/-- The channels assigned to the function of partition `k`. -/
def partChans (s : State) (k : Nat) : List Nat := (List.range 32).filter fun c => chanFn s c = some (partFn k)

/-- Nothing of partition `k` is in flight any longer: no descriptor of its channels, no request of a chiplet, no
PART_RESET unanswered, no fence under way, no packet of its units (R100, R138, R261). -/
def partQuiet (s : State) (k : Nat) : Bool :=
  ((partChans s k).all fun c => (chanOf s c).cur.isNone) && (s.siteReqs.all fun q => q.part ≠ k) &&
    (s.sites.all fun x => !(x.resetWait.contains k)) && (s.fencing.all fun f => f.1 / 8 ≠ k) &&
    (s.seFencing.all fun f => f.1 / 4 ≠ k) && !(outbound s k)

/-- Every `CTX_OUT_x` of partition `k` is set to zero (R427). -/
def zeroOut (s : State) (k : Nat) : State := resetRegs s (pgPart k) (Reg.CTX_OUT 0) (Reg.CTX_OUT 256)

/-- Every context passes through the context scrub to FREE (R421, R427), CTX_FREED set where one was not. -/
def freeContexts (s : State) (k : Nat) : State :=
  let any := !(openCtxs s k).isEmpty
  let s := forgetTurns s fun j _ => j = k
  let s := zeroOut (resetRegs s (pgPart k) (Reg.CTX_STATE 0) (Reg.CTX_STATE 256)) k
  if any then raiseEvt s (pgPart k) 3 else s

/-- A bank of a cluster cache joins the field map (R478). -/
def saveBank (s : State) (m : Nat × Nat) : State :=
  if s.flash.fieldMap.cacheBanks.contains m then s
  else { s with flash := { s.flash with fieldMap := { s.flash.fieldMap with
      cacheBanks := s.flash.fieldMap.cacheBanks ++ [m] } } }

/-- A marked bank is served by a spare, while one of the cluster's 6 is left (R90, R92). -/
def replaceBank (s : State) (m : Nat × Nat) : State :=
  let p := pgCl m.1
  if rb s p Reg.BANK_REMAP m.2 ∨ 6 ≤ rf s p Reg.BANK_REMAP 48 3 then s
  else wf (wb s p Reg.BANK_REMAP m.2 true) p Reg.BANK_REMAP 48 3 (rf s p Reg.BANK_REMAP 48 3 + 1)

/-- Data banks marked for replacement are replaced by spares (R90). -/
def applyBanks (s : State) (k : Nat) : State :=
  let mine := s.bankMarks.filter fun m => m.1 / 8 = k
  let s := mine.foldl (fun s m => saveBank (replaceBank s m) m) s
  { s with bankMarks := s.bankMarks.filter fun m => m.1 / 8 ≠ k }

/-- The read-cleared counters among the block-specific registers of a page return to zero (R389, R499). -/
def clearCounters (s : State) (p : Nat) : State :=
  match blockOf p with
  | none => s
  | some b =>
    ((blockRows b).filter fun r => r.rc).foldl
      (fun s r => (List.range r.count).foldl (fun s i => wr s p (r.base + i * r.stride) 0) s) s

/-- The pages of partition `k`: its PARTITION, MANIFEST, CLUSTER and SWEEP pages, and those of its channels. -/
def scrubPages (s : State) (k : Nat) : List Nat :=
  [pgPart k, pgMf k] ++ (List.range 8).map (fun m => pgCl (8 * k + m)) ++ (List.range 4).map (fun i => pgSe (4 * k + i)) ++
    (partChans s k).map pgDma

/-! ### How the security core answers a tenant -/

/-- A partition or key command of the tenant, as the security core takes it from function `fn`'s secure mailbox (R383):
through any mailbox but a partition function's it completes with ACCESS_DENIED and counts as a rejection of the mailbox
page (R4). -/
def tenantCommand (s : State) (fn code : Nat) (f : State → Nat → Bytes → State) : State :=
  onTaken s true fn code fun s b => if fn = 0 then reply (reject s (pgMbx true)) true fn code 0xF [] else f s (fn - 1) b

/-- A command rejected in the present state (R36, R382): STATE_REJECT, counted on the PARTITION page. -/
def tenantReject (s : State) (k code : Nat) (body : Bytes) : State :=
  reply (reject s (pgPart k)) true (partFn k) code 0x0B body

/-- `ISO_STAT`[15:0] as response bytes 4 and 5. -/
def isoBytes (s : State) (k : Nat) : Bytes := natBytes (rf s (pgPart k) Reg.ISO_STAT 0 16) 2

/-- A SEAL under way is rejected when a reset or a release is accepted (R375). -/
def dropSeal (s : State) (k : Nat) : State :=
  if s.ten.sealing.any fun e => e.1 = k then
    tenantReject { s with ten := { s.ten with sealing := s.ten.sealing.filter fun e => e.1 ≠ k } } k 0x0101 (isoBytes s k)
  else s

/-! ### Partition reset (R372, R427) -/

/-- PART_CMD_ENABLE, ASSIGN and the rest: a command of the OPERATOR, legal in the states `ok` (R372, R392). -/
def partCommand (s : State) (fn k : Nat) (ok : State → Bool) (f : State → State) : State :=
  if k < 16 then withOperator s fn (pgPart k) Reg.PART_CMD fun s => guarded s (pgPart k) (ok s) f else s

/-- The states in which RESET and RELEASE are legal (R372). -/
def resettable (s : State) (k : Nat) : Bool := partState s k = 3 || partState s k = 4 || partState s k = 5

/-- PART_CMD_RESET (R427, steps 1 to 3). -/
def execPartCmdReset (fn k : Nat) (s : State) : Res :=
  .next (partCommand s fn k (fun s => resettable s k) fun s =>
    let s := markBarriers (setPart (triggerJobsOf (dropSeal s k) k 2) k 6) k
    let s := sendPartReset (manifestReset (killContexts s k) k) k
    { s with xlat := { s.xlat with epochs := s.xlat.epochs.set k 0 } })

/-- PARTITION_RESET_DRAINED (R427, step 4). -/
def execPartitionResetDrained (k : Nat) (s : State) : Res :=
  .next (if k < 16 ∧ partState s k = 6 ∧ partQuiet s k then zeroOut s k else s)

/-- The block-specific registers of the PARTITION page that a partition reset returns to their reset values (R41, R430):
the scheduler's and the domain's counters, barriers, armed slots and the bucket. -/
def resetPartPage (s : State) (k : Nat) : State :=
  let p := pgPart k
  let s := resetRegs (clearCounters s p) p (Reg.BAR 0) (Reg.BAR 64)
  let s := { s with barMarks := s.barMarks.filter fun m => m.1 ≠ k }
  let s := wr s p Reg.RED_ARMED 0
  wr (wf s p Reg.EBUCKET 0 24 0) p Reg.EREFILL_LAST 0

/-- The registers of the CLUSTER and SWEEP pages that a reset returns to their reset values (R41): all but the core maps
and states, the fault records and the bank masks; a spare self-test in progress is abandoned (R105). -/
def resetUnits (s : State) (k : Nat) : State :=
  let s := (List.range 8).foldl (fun s m => endTest (clearCounters s (pgCl (8 * k + m))) (8 * k + m)) s
  (List.range 4).foldl
    (fun s i =>
      let p := pgSe (4 * k + i)
      wr (clearCounters s p) p Reg.READ_CAP (resetBlock .sweep (4 * k + i) Reg.READ_CAP)) s

/-- PARTITION_RESET_COMPLETE (R427, steps 5 and 6; R90, R92, R372). -/
def execPartitionResetComplete (k : Nat) (s : State) : Res :=
  .next (if k < 16 ∧ partState s k = 6 ∧ partQuiet s k then
      let s := dropPorts (freeContexts (dropXlat (applyBanks (clearDomain s k) k) k 0 0) k) k
      let s := resetUnits (resetPartPage s k) k
      setPart s k (if clusterFenced s k then 5 else if sealHeld s k then 4 else 3)
    else s)

/-! ### Scrub (R372, R389, R391) -/

/-- A scrub begins (R389): its drain phase. -/
def beginScrub (s : State) (k : Nat) : State :=
  let s := setPart (triggerJobsOf (dropSeal s k) k 3) k 1
  let s := (partChans s k).foldl (fun s c => setState (resetChan s c false) (pgDma c) 1) s
  let s := endSessions (sendPartReset (manifestReset (killContexts s k) k) k) (partFn k)
  wr s (pgPart k) Reg.SCRUB_STAT (setFld (rd s (pgPart k) Reg.SCRUB_STAT &&& 0xFFFFFFFF00000000) 0 1 1)

/-- PART_CMD_ENABLE (R372, R400). -/
def execPartCmdEnable (fn k : Nat) (s : State) : Res :=
  .next (partCommand s fn k (fun s => decide (partState s k = 0) && available s k) fun s => beginScrub s k)

/-- PART_CMD_DISABLE (R372). -/
def execPartCmdDisable (fn k : Nat) (s : State) : Res :=
  .next (partCommand s fn k (fun s => decide (partState s k = 2)) fun s => setPart s k 0)

/-- PART_CMD_ASSIGN (R372). -/
def execPartCmdAssign (fn k : Nat) (s : State) : Res :=
  .next (partCommand s fn k (fun s => decide (partState s k = 2)) fun s => setPart s k 3)

/-- PART_CMD_RELEASE (R372). -/
def execPartCmdRelease (fn k : Nat) (s : State) : Res :=
  .next (partCommand s fn k (fun s => resettable s k) fun s => beginScrub s k)

/-- The running values of the check-value units assigned to a function are zeroed (R389, R461). -/
def clearCvus (s : State) (f : Nat) : State :=
  (List.range 8).foldl
    (fun s u =>
      if rb s (pgCvu u) Reg.CVU_ASSIGN 7 && decide (rf s (pgCvu u) Reg.CVU_ASSIGN 0 5 = f) then
        wr s (pgCvu u) Reg.CVU_RUN 0
      else s) s

/-- The clears of the fixed phase (R389, R434) but the zero fills. -/
def scrubClears (s : State) (k : Nat) : State :=
  let p := pgPart k
  let s := freeContexts (applyBanks (clearDomain s k) k) k
  let s := resetRegs (dropXlat s k 0 0) (pgMf k) 0x100 0x10000
  let s := { s with xlat := { s.xlat with
      tickets := s.xlat.tickets.set k 0
      invLast := s.xlat.invLast.filter fun e => e.1 / 17 ≠ k
      invs := s.xlat.invs.filter fun c => c.part ≠ k
      epochs := s.xlat.epochs.set k 0 } }
  let s := resetPartPage s k
  let s := resetRegs s p Reg.COH_CFG (Reg.COH_HINT + 8)
  let s := setSeal (zeroiseKeys s k) k false
  let s := resetRegs s p (Reg.TENANT_KEY 0) (Reg.MR 32 0)
  let s := resetRegs s p Reg.HANG_LAST (Reg.HANG_WAIT + 8)
  (scrubPages s k).foldl clearCounters (clearCvus s (partFn k))

/-- SCRUB_DRAIN_END (R389): T_S; the fixed phase begins at its fixed clocks. -/
def execScrubDrainEnd (k : Nat) (s : State) : Res :=
  .next (if k < 16 ∧ partState s k = 1 ∧ rb s (pgPart k) Reg.SCRUB_STAT 0 ∧ partQuiet s k then
      let s := wf s (pgPart k) Reg.SCRUB_STAT 0 2 2
      let s := { s with ten := { s.ten with
        scrubs := (s.ten.scrubs.filter fun e => e.1 ≠ k) ++ [(k, (rd s pgErr Reg.ERR_TIME).toNat)] } }
      let s := setClocks (scrubClears s k) k (1000, 600)
      updIso (startQuayFill (startFill (startFill s (k % 4) (k / 4)) (k % 4 + 4) (k / 4)) k)
    else s)

/-- A channel held in RESET for a scrub returns to READY or OFF (R35, R353). -/
def releaseChan (s : State) (c : Nat) : State :=
  if pageState s (pgDma c) = 1 then setState s (pgDma c) (if enabled s (pgDma c) then 3 else 0) else s

/-- SCRUB_DONE (R372, R389, R391): T_S + 45 ms, or a write that failed. -/
def execScrubDone (k : Nat) (writesOk : Bool) (s : State) : Res :=
  .next (let p := pgPart k
    if k < 16 ∧ partState s k = 1 ∧ rb s p Reg.SCRUB_STAT 1 then
      let bad := !writesOk || s.ten.scrubFail.contains k
      let s := endQuayFill (endFill (endFill s (k % 4) (k / 4)) (k % 4 + 4) (k / 4)) k
      let s := { s with ten := { s.ten with
          scrubFail := s.ten.scrubFail.filter fun j => j ≠ k
          scrubs := s.ten.scrubs.filter fun e => e.1 ≠ k
          gens := s.ten.gens.filter fun e => e.1 / 16 ≠ k } }
      let s := (partChans (wf s p Reg.SCRUB_STAT 0 2 0) k).foldl releaseChan (wf s p Reg.SCRUB_STAT 0 2 0)
      wakeSites <|
        if bad then setSeal (setPart (countError s p 0x30 4 2 none) k 5) k false
        else
          let s := wf (wf s p Reg.SCRUB_STAT 16 16 450) p Reg.SCRUB_STAT 32 32 (rf s p Reg.SCRUB_STAT 32 32 + 1)
          raiseEvt (setPart s k (if clusterFenced s k then 5 else 2)) p 10
    else s)

/-! ### The tenant's commands (R360 to R362, R374 to R377, R381, R382) -/

/-- SEAL (R375, R376, steps 1 to 3): the operator's access is limited, and other partitions' translations into this one
are dropped. -/
def execSeal (fn : Nat) (s : State) : Res :=
  .next (tenantCommand s fn 0x0101 fun s k b =>
    if decide (partState s k = 3) && auditRoom s && (!((leAt b 2 1).testBit 0) || rb s (pgPart k) Reg.ISO_STAT 15) then
      dropInto { s with ten := { s.ten with sealing := s.ten.sealing ++ [(k, slice b 8 32)] } } k
    else tenantReject s k 0x0101 (isoBytes s k))

/-- SEAL_COMPLETE (R169; R376, steps 4 and 5): once every access made into the partition has drained, it is SEALED under the
key the command carried. -/
def execSealComplete (k : Nat) (s : State) : Res :=
  .next (match s.ten.sealing.find? fun e => e.1 = k with
    | none => s
    | some e =>
      if accessInto s k (groupBase k) groupSize || accessInto s k (quayBase k) quaySize then s
      else
      let s := { s with ten := { s.ten with sealing := s.ten.sealing.filter fun e => e.1 ≠ k } }
      if partState s k = 3 then
        let s := setPart (setSeal (wrWords s (pgPart k) (Reg.TENANT_KEY 0) (bytesWords e.2 4)) k true) k 4
        let s := audit s 5 (w64 (k + rf s (pgPart k) Reg.ISO_STAT 0 16 <<< 16) :: bytesWords e.2 4)
        endSessions (reply s true (partFn k) 0x0101 0 (isoBytes s k)) (partFn k)
      else tenantReject s k 0x0101 (isoBytes s k))

/-- UNSEAL (R372): in a mutually authenticated session. -/
def execUnseal (fn : Nat) (s : State) : Res :=
  .next (tenantCommand s fn 0x0102 fun s k _ =>
    if !(((sessionOf s fn).map (·.mutualAuth)).getD false) && decide (partState s k = 4) then
      reply (reject s (pgPart k)) true fn 0x0102 0xF []
    else if decide (partState s k = 4) && auditRoom s then
      reply (audit (setSeal (setPart s k 3) k false) 6 [w64 k]) true fn 0x0102 0 []
    else tenantReject s k 0x0102 [])

/-- EXTEND (R381, R382). -/
def execExtend (fn : Nat) (s : State) : Res :=
  .next (tenantCommand s fn 0x0103 fun s k b =>
    let m := leAt b 2 1
    if 31 < m then reply s true fn 0x0103 3 []
    else if partLive s k then
      let s := extendMr s k m (slice b 8 64)
      reply s true fn 0x0103 0 (natBytes (extCount s k m) 2)
    else tenantReject s k 0x0103 [])

/-- The highest GEN ever loaded for a KEY_ID since the partition left SCRUBBING (R361). -/
def lastGen (s : State) (k id : Nat) : Nat := tally s.ten.gens (16 * k + id)

/-- LOAD_KEY (R361). -/
def execLoadKey (fn : Nat) (s : State) : Res :=
  .next (tenantCommand s fn 0x0201 fun s k b =>
    let id := leAt b 2 1
    if 15 < id then reply s true fn 0x0201 3 []
    else
      match if partLive s k then (List.range 8).find? fun i => keyState s k i = 0 else none with
      | none => tenantReject s k 0x0201 []
      | some i =>
        let gen := (lastGen s k id + 1) % 2 ^ 16
        let s := { s with ten := { s.ten with
            keys := (s.ten.keys.filter fun e => !(e.part = k && e.slot = i)) ++ [⟨k, i, slice b 8 32⟩]
            gens := (s.ten.gens.filter fun e => e.1 ≠ 16 * k + id) ++ [(16 * k + id, gen)] } }
        let s := raiseEvt (wr s (pgPart k) (Reg.KEY_SLOT i) (w64 (1 + id <<< 4 + gen <<< 16))) (pgPart k) 7
        reply s true fn 0x0201 0 (natBytes gen 2 ++ natBytes i 1))

/-- RETIRE_KEY (R362): the slot is RETIRING at once; the response waits for its outstanding descriptors. -/
def execRetireKey (fn : Nat) (s : State) : Res :=
  .next (tenantCommand s fn 0x0202 fun s k b =>
    match if partLive s k then liveSlot s k (leAt b 2 1) (leAt b 4 2) else none with
    | none => tenantReject s k 0x0202 []
    | some i =>
      let s := raiseEvt (wf s (pgPart k) (Reg.KEY_SLOT i) 0 2 2) (pgPart k) 7
      { s with ten := { s.ten with retireWaits := s.ten.retireWaits ++ [(k, i)] } })

/-- KEY_SLOT_FREED (R362): a RETIRING slot with nothing outstanding is zeroised and FREE, and RETIRE_KEY answered. -/
def execKeySlotFreed (k i : Nat) (s : State) : Res :=
  .next (if k < 16 ∧ i < 8 ∧ keyState s k i = 2 ∧ rf s (pgPart k) (Reg.KEY_SLOT i) 32 16 = 0 then
      let gen := rf s (pgPart k) (Reg.KEY_SLOT i) 16 16
      let wait := s.ten.retireWaits.contains (k, i)
      let s := freeKey { s with ten := { s.ten with retireWaits := s.ten.retireWaits.erase (k, i) } } k i
      if wait then reply s true (partFn k) 0x0202 0 (natBytes gen 2) else s
    else s)

end Sys2Proof.Machine
end

