-- ==== Sys2Proof/Machine/Spdm.lean ====
section
/-!
DEFINITION. The SPDM responders and the attestation report (R383 to R388).
-/

namespace Sys2Proof.Machine

/-! ### The report (R388) -/

/-- Fields placed at offsets of a body of `n` bytes. -/
def layOut (n : Nat) (l : List (Nat × Bytes)) : Bytes := l.foldl (fun b e => putBytes b e.1 e.2) (zeroBytes n)

/-- AK's private key, as the name the model gives it (R385). -/
def akKey (s : State) : Bytes := Config.deriveAk s.fuse.unitId s.boot.imageDigest s.boot.akVersion

/-- The site section of the report (R388). -/
def siteSection (s : State) (t : Nat) : Bytes :=
  let p := pgSite t
  let sub := siteSub s t
  layOut 160 [(0, natBytes sub 1), (1, natBytes (rf s p Reg.SITE_ADMIT 0 4) 1), (2, natBytes (rf s p Reg.SITE_LINK 32 6) 1),
    (3, natBytes (rf s p Reg.SITE_LINK 48 4) 1), (4, natBytes (rf s p Reg.SITE_ASSIGN 0 32) 4),
    (8, natBytes (rf s p Reg.SITE_CFG 0 1) 1),
    (32, if pageState s p = 3 ∧ sub = 6 then zeroBytes 128 else identity s t)]

/-- The partition section of the report (R388). -/
def partSection (s : State) (k : Nat) : Bytes :=
  let p := pgPart k
  let up := (List.range 4).countP fun i => pageState s (pgSe (4 * k + i)) ≠ 6
  layOut 2176 [(0, natBytes k 1), (1, natBytes (rf s p Reg.PART_STATE 0 5) 1), (2, isoBytes s k),
    (4, natBytes (fld (coresUp s k) 0 8) 1), (5, natBytes up 1),
    (8, if sealHeld s k then (List.range 4).flatMap fun j => wordBytes (rd s p (Reg.TENANT_KEY j)) else zeroBytes 32),
    (40, (List.range 8).flatMap fun j => wordBytes (rd s p (Reg.EXT_COUNT j))),
    (128, (List.range 32).flatMap fun m => mrBytes s k m)]

/-- The report body for a function (R387, R388): the package for F0, partition P(n−1) for Fn. -/
def reportBody (s : State) (fn : Nat) (nonce : Bytes) : Bytes :=
  let parts := if fn = 0 then List.range 16 else [fn - 1]
  let len := 896 + 2176 * parts.length
  let rings := maskOf ((List.range 8).filter fun r => rb s (pgRing r) Reg.RING_CTL 0)
  let mcs := maskOf ((List.range 8).filter fun m => rb s (pgMc m) Reg.MC_CFG 0)
  let flags := maskOf ([(0, rb s pgPwr Reg.PWR_CTL 0), (1, rb s pgPwr Reg.PWR_STAT 0), (2, rb s pgPcie Reg.DMA_CTL 0),
    (3, s.sec.certs.any (·.isSome))].filterMap fun e => if e.2 then some e.1 else none)
  layOut len ([(0, natBytes 1 2), (2, natBytes (if fn = 0 then 0xFF else fn - 1) 1), (3, natBytes parts.length 1),
    (4, natBytes len 4), (8, wordBytes s.fuse.unitId), (16, wordBytes (devIdent s)), (24, natBytes (lcState s) 1),
    (26, natBytes s.fuse.secVersion 2), (28, natBytes (rf s 0 Reg.PWR_CYCLES 0 32) 4), (32, fitBytes s.boot.imageDigest 64),
    (96, fitBytes nonce 32), (128, natBytes rings 1), (129, natBytes mcs 1), (130, natBytes flags 1),
    (132, natBytes s.fuse.debugEpoch 4), (144, wordBytes (otpRemainA s)), (152, wordBytes (otpRemainB s)),
    (160, fitBytes (edPublic (akKey s)) 32)] ++
    ((List.range 4).map fun t => (256 + 160 * t, siteSection s t)) ++
    (parts.zipIdx.map fun e => (896 + 2176 * e.2, partSection s e.1)))

/-- The report (R387): the body and AK's signature over its bytes. -/
def report (s : State) (fn : Nat) (nonce : Bytes) : Bytes :=
  let b := reportBody s fn nonce
  b ++ fitBytes (edSign (akKey s) b) 64

/-! ### Negotiation -/

/-- The DOE instance of a function answers (R345, R351, R383): Tuiner runs, and configuration requests reach it. -/
def doeOpen (s : State) (fn : Nat) : Bool :=
  decide (fn ≤ 16) && s.pcie.link && !(rb s pgPcie Reg.FLR_STAT fn) &&
    (match s.boot.phase with
     | .off | .rom | .recovery | .scrap => false
     | _ => true)

/-- An SPDM request (R383): answered with an error unless `ok`; without a DOE instance that answers nothing happens. -/
def spdmAsk (s : State) (fn : Nat) (ok : Bool) (f : State → State) : State :=
  if doeOpen s fn then (if ok then f s else emit s (.spdmError fn)) else s

/-- A response the spec gives no bytes for. -/
def spdmSend (s : State) (fn code : Nat) (payload : Bytes) : State := emit s (.spdm fn (Config.spdmBytes code fn payload))

/-- How far the responder of a function has negotiated. -/
def spdmOf (s : State) (fn : Nat) : Spdm := s.sec.spdm.getD fn spdmReset

/-- Set how far it has. -/
def setSpdm (s : State) (fn : Nat) (v : Spdm) : State := { s with sec := { s.sec with spdm := s.sec.spdm.set fn v } }

/-- GET_VERSION: negotiation begins again. -/
def execGetVersion (fn : Nat) (s : State) : Res :=
  .next (spdmAsk s fn true fun s => spdmSend (setSpdm s fn ⟨true, false, false⟩) fn 0x84 [])

/-- GET_CAPABILITIES, after GET_VERSION. -/
def execGetCapabilities (fn : Nat) (s : State) : Res :=
  .next (spdmAsk s fn (spdmOf s fn).version fun s => spdmSend (setSpdm s fn ⟨true, true, false⟩) fn 0xE1 [])

/-- NEGOTIATE_ALGORITHMS (R383): the operands are the bit masks the requester offers; each must hold the one the
responder supports. -/
def execNegotiateAlgorithms (fn asym hash dhe aead : Nat) (s : State) : Res :=
  .next (spdmAsk s fn ((spdmOf s fn).caps && asym.testBit 9 && hash.testBit 2 && dhe.testBit 4 && aead.testBit 1) fun s =>
    spdmSend (setSpdm s fn ⟨true, true, true⟩) fn 0x63 [])

/-- GET_DIGESTS (R385). -/
def execGetDigests (fn : Nat) (s : State) : Res :=
  .next (spdmAsk s fn (spdmOf s fn).algs fun s => spdmSend s fn 0x01 [])

/-- GET_CERTIFICATE (R385): slot 0 holds the chain, and no other slot one. -/
def execGetCertificate (fn slot offset len : Nat) (s : State) : Res :=
  .next (spdmAsk s fn ((spdmOf s fn).algs && decide (slot = 0)) fun s =>
    spdmSend s fn 0x02 (natBytes offset 4 ++ natBytes len 4))

/-- CHALLENGE (R385): AK signs. -/
def execChallenge (fn slot : Nat) (nonce : Bytes) (s : State) : Res :=
  .next (spdmAsk s fn ((spdmOf s fn).algs && decide (slot = 0)) fun s =>
    spdmSend s fn 0x03 (nonce ++ edSign (akKey s) nonce))

/-- GET_MEASUREMENTS (R387): index 0 counts one block, 0xF0 and 0xFF return the report. -/
def execGetMeasurements (fn index : Nat) (nonce : Bytes) (s : State) : Res :=
  .next (spdmAsk s fn ((spdmOf s fn).algs && decide (index = 0 ∨ index = 0xF0 ∨ index = 0xFF)) fun s =>
    if index = 0 then spdmSend s fn 0x60 [1] else emit s (.spdm fn (report s fn nonce)))

/-! ### Sessions -/

/-- KEY_EXCHANGE (R383, R384): it ends any earlier session of the function, and asks for mutual authentication where the
function's partition is SEALED. -/
def execKeyExchange (fn : Nat) (share : Bytes) (s : State) : Res :=
  .next (spdmAsk s fn (spdmOf s fn).algs fun s =>
    let d := draw (endSessions s fn)
    let e : Session := ⟨fn, Config.sessionSecret fn share d.1, decide (fn ≠ 0) && decide (partState s (fn - 1) = 4), false⟩
    spdmSend { d.2 with sec := { d.2.sec with sessions := d.2.sec.sessions ++ [e] } } fn 0x64 share)

/-- The bytes of `TENANT_KEY`. -/
def tenantKey (s : State) (k : Nat) : Bytes := (List.range 4).flatMap fun j => wordBytes (rd s (pgPart k) (Reg.TENANT_KEY j))

/-- FINISH (R384): a handshake or a signature that does not verify ends the session with an error. -/
def execFinish (fn : Nat) (verify sig : Bytes) (s : State) : Res :=
  .next (match sessionOf s fn with
    | none => spdmAsk s fn false id
    | some e =>
      spdmAsk s fn true fun s =>
        if e.established then emit s (.spdmError fn)
        else if Config.finishVerify e.secret verify &&
            (!e.mutualAuth || edVerify (tenantKey s (fn - 1)) (e.secret ++ verify) sig) then
          spdmSend { s with sec := { s.sec with
            sessions := s.sec.sessions.map fun x => if x.fn = fn then { x with established := true } else x } } fn 0x65 []
        else emit (endSessions s fn) (.spdmError fn))

/-- An established session of a function. -/
def inSession (s : State) (fn : Nat) : Bool := ((sessionOf s fn).map (·.established)).getD false

/-- KEY_UPDATE: operations 1 to 3; 1 and 2 give the session new secrets. -/
def execKeyUpdate (fn op : Nat) (s : State) : Res :=
  .next (spdmAsk s fn (inSession s fn && decide (1 ≤ op) && decide (op ≤ 3)) fun s =>
    let d := draw s
    let s := if op = 3 then s else { d.2 with sec := { d.2.sec with
      sessions := d.2.sec.sessions.map fun x =>
        if x.fn = fn then { x with secret := Config.sessionSecret fn x.secret d.1 } else x } }
    spdmSend s fn 0x69 [BitVec.ofNat 8 op])

/-- HEARTBEAT. -/
def execHeartbeat (fn : Nat) (s : State) : Res := .next (spdmAsk s fn (inSession s fn) fun s => spdmSend s fn 0x68 [])

/-- END_SESSION. -/
def execEndSession (fn : Nat) (s : State) : Res :=
  .next (spdmAsk s fn (inSession s fn) fun s => spdmSend (endSessions s fn) fn 0x6C [])

/-- VENDOR_DEFINED_REQUEST (R383, R442, R443): vendor 0xB4A7, in a session of a partition function, becomes the request of
its secure mailbox; outside IDLE the request is rejected. -/
def execVendorDefinedRequest (fn vendor : Nat) (payload : Bytes) (s : State) : Res :=
  .next (spdmAsk s fn (inSession s fn && decide (vendor = 0xB4A7) && decide (fn ≠ 0)) fun s =>
    if mbxState s true fn = 0 then
      let s := wrWords s (pgMbx true) (Reg.REQ fn 0) (bytesWords (fitBytes payload 256) 32)
      wf (wb s (pgMbx true) (Reg.MBX_STAT fn) 4 false) (pgMbx true) (Reg.MBX_STAT fn) 0 3 1
    else emit (reject s (pgMbx true)) (.spdmError fn))

/-! ### IDE (R386) -/

/-- An IDE_KM message: in a session on F0's DOE, naming a stream and a key set that exist. -/
def ideKm (s : State) (fn stream set : Nat) (f : State → IdeStream → State) : State :=
  match s.pcie.ide[stream]? with
  | none => spdmAsk s fn false id
  | some v => spdmAsk s fn (inSession s fn && decide (fn = 0) && decide (set < 2)) fun s => f s v

/-- Replace a stream. -/
def setIde (s : State) (stream : Nat) (v : IdeStream) : State := { s with pcie := { s.pcie with ide := s.pcie.ide.set stream v } }

/-- The link stream's state shows in `LINK_STAT.IDE` (R367). -/
def showIde (s : State) (stream : Nat) (on : Bool) : State :=
  if stream = 0 ∧ rb s pgPcie Reg.LINK_STAT 13 ≠ on then raiseEvt (wb s pgPcie Reg.LINK_STAT 13 on) pgPcie 0 else s

/-- QUERY. -/
def execQuery (fn : Nat) (s : State) : Res :=
  .next (spdmAsk s fn (inSession s fn && decide (fn = 0)) fun s => spdmSend s fn 0x7E [1])

/-- KEY_PROG: the key of a set. -/
def execKeyProg (fn stream set : Nat) (key : Bytes) (s : State) : Res :=
  .next (ideKm s fn stream set fun s v =>
    spdmSend (setIde s stream { v with keys := v.keys.set set (fitBytes key 32) }) fn 0x7E [3])

/-- K_SET_GO: a set that holds a key comes into force. -/
def execKSetGo (fn stream set : Nat) (s : State) : Res :=
  .next (ideKm s fn stream set fun s v =>
    if (v.keys.getD set []).isEmpty then emit s (.spdmError fn)
    else spdmSend (showIde (setIde s stream { v with active := some set }) stream true) fn 0x7E [5])

/-- K_SET_STOP: the set is no longer in force. -/
def execKSetStop (fn stream set : Nat) (s : State) : Res :=
  .next (ideKm s fn stream set fun s v =>
    let s := if v.active = some set then showIde (setIde s stream { v with active := none }) stream false else s
    spdmSend s fn 0x7E [5])

end Sys2Proof.Machine
end

