-- ==== Sys2Proof/Machine/Mgmt.lean ====
section
/-!
DEFINITION. The management interfaces: mailboxes (R442 to R447), the I3C target (R435 to R441) and the event recorder's
commands (R448 to R457).
-/

namespace Sys2Proof.Machine

/-! ### Mailboxes -/

/-- The bring-up phases in which Tuiner runs (R472). -/
def tuinerRuns (s : State) : Bool :=
  match s.boot.phase with
  | .off | .rom | .recovery | .scrap => false
  | _ => true

/-- The security core takes messages: in service, during bring-up by Tuiner, and on the recovery path (R466). -/
def secRuns (s : State) : Bool := tuinerRuns s || decide (s.boot.phase = .recovery)

/-- The receiver of a mailbox takes messages (R442, R466, R482). -/
def receives (s : State) (sec : Bool) : Bool := if sec then secRuns s else tuinerRuns s && !s.boot.shutdown

/-- A message becomes FULL, by port 0 (PCIe) or 1 (I3C) (R443, R446). -/
def fillMbx (s : State) (sec : Bool) (f port : Nat) : State :=
  let p := pgMbx sec
  wf (wf s p (Reg.MBX_STAT f) 0 3 1) p (Reg.MBX_STAT f) 4 1 port

/-- SEND (R443).  The secure mailbox of F1 to F16 is the SPDM responder's to send from (R442): a SEND by the function is
handled under R4. -/
def execSend (fn : Nat) (sec : Bool) (s : State) : Res :=
  .next (let p := pgMbx sec
    if fn ≤ 16 then
      withWrite s fn p (Reg.MBX_CTL fn) fun s =>
        guarded s p (!(sec && decide (fn ≠ 0)) && decide (mbxState s sec fn = 0)) fun s => fillMbx s sec fn 0
    else s)

/-- MBX_TAKE (R443). -/
def execMbxTake (sec : Bool) (f : Nat) (s : State) : Res :=
  .next (if f ≤ 16 ∧ receives s sec ∧ mbxState s sec f = 1 then wf s (pgMbx sec) (Reg.MBX_STAT f) 0 3 2 else s)

/-- A response is written (R443, R446): RESP, RESP_READY, the last code and status, the sender's event; the I3C port's
in-band interrupt; for the secure mailbox of F1 to F16 the session carries it. -/
def respond' (s : State) (sec : Bool) (f : Nat) (b : Bytes) : State :=
  let p := pgMbx sec
  let s := wrWords s p (Reg.RESP f 0) (bytesWords (fitBytes b 256) 32)
  let st := (rd s p (Reg.MBX_STAT f)).toNat
  let port := st / 16 % 2
  let s := wr s p (Reg.MBX_STAT f) (w64 (3 + st / 8 % 8 * 8 + (leAt b 2 1) <<< 8 + (msgCode b) <<< 16))
  let s := raiseEvt s p f
  let s := if sec ∧ 0 < f then emit s (.spdm f (fitBytes b 256)) else s
  if port = 1 then queueIbi s 3 else s

/-- The codes of F0's commands in its secure mailbox (R399, R468). -/
def packageCode (c : Nat) : Bool := (decide (0x0301 ≤ c) && decide (c ≤ 0x030B)) || (decide (0x0401 ≤ c) && decide (c ≤ 0x0403))

/-- The codes of a tenant's commands (R360, R374). -/
def tenantCode (c : Nat) : Bool := c = 0x0101 || c = 0x0102 || c = 0x0103 || c = 0x0201 || c = 0x0202

/-- What a receiver answers to a message it has no command for: CHECK_MISMATCH to an unknown code (R398, R482),
ACCESS_DENIED to a command of F0's mailbox in another (R44), which counts as a rejection of the mailbox page (R4); none where a command is to answer. -/
def refusalOf (sec : Bool) (f : Nat) (b : Bytes) : Option Nat :=
  let c := msgCode b
  let sub := leAt b 3 1
  if sec then
    if tenantCode c then none
    else if packageCode c then (if f = 0 then none else some 0xF)
    else some 3
  else if c = 0x0501 ∨ c = 0x0502 ∨ c = 0x0504 then none
  else if c = 0x0503 then (if sub ≤ 2 then none else some 3)
  else if c = 0x0505 then (if sub ≤ 1 then none else some 3)
  else some 3

/-- MBX_RESPONSE (R443, R445): the response that waits is written, or a message without a command is refused. -/
def execMbxResponse (sec : Bool) (f : Nat) (s : State) : Res :=
  .next (match s.mbx.find? fun q => q.sec = sec && q.fn = f with
    | some q =>
      let s := { s with mbx := s.mbx.filter fun q => !(q.sec = sec && q.fn = f) }
      if mbxState s sec f = 2 then respond' s sec f q.bytes else s
    | none =>
      if f ≤ 16 ∧ mbxState s sec f = 2 then
        let b := reqBytes s sec f
        match refusalOf sec f b with
        | some st =>
          let s := if st = 0xF then reject s (pgMbx sec) else s
          respond' s sec f (natBytes (msgCode b % 0x8000 + 0x8000) 2 ++ [BitVec.ofNat 8 st])
        | none => s
      else s)

/-- A mailbox with a response returns to IDLE (R443). -/
def ackMbx (s : State) (sec : Bool) (f : Nat) : State := wf s (pgMbx sec) (Reg.MBX_STAT f) 0 3 0

/-- ACK (R443). -/
def execAck (fn : Nat) (sec : Bool) (s : State) : Res :=
  .next (let p := pgMbx sec
    if fn ≤ 16 then
      withWrite s fn p (Reg.MBX_CTL fn) fun s => guarded s p (decide (mbxState s sec fn = 3)) fun s => ackMbx s sec fn
    else s)

/-- MBX_TIMEOUT (R444). -/
def execMbxTimeout (sec : Bool) (f : Nat) (s : State) : Res :=
  .next (if f ≤ 16 ∧ mbxState s sec f = 1 then
      let p := pgMbx sec
      raiseEvt (wb (wf s p (Reg.MBX_STAT f) 0 3 0) p (Reg.MBX_STAT f) 5 true) p (17 + f)
    else s)

/-! ### The I3C target -/

/-- The target acts on the bus (R441). -/
def i3cOn (s : State) : Bool :=
  rb s pgI3c Reg.I3C_CFG 0 &&
    (match s.boot.phase with
     | .off | .scrap => false
     | _ => true)

/-- It has a dynamic address (R436). -/
def i3cAddr (s : State) : Bool := i3cOn s && rb s pgI3c Reg.I3C_STAT 7

/-- The target answers a read, of at most its maximum read length (R435, R441). -/
def i3cSend (s : State) (b : Bytes) : State :=
  let b := b.take s.i3c.mrl
  addReg (emit s (.i3c b)) pgI3c Reg.I3C_TX_BYTES b.length

/-- ENTDAA (R436): the target takes part once its PID is complete. -/
def execEntdaa (da : Nat) (s : State) : Res :=
  .next (if i3cOn s && s.boot.sensed && !(rb s pgI3c Reg.I3C_STAT 7) then
      raiseEvt (wf s pgI3c Reg.I3C_STAT 0 8 (da % 128 + 128)) pgI3c 0
    else s)

/-- RSTDAA (R435, R436). -/
def execRstdaa (s : State) : Res :=
  .next (if i3cAddr s then raiseEvt (wf s pgI3c Reg.I3C_STAT 0 8 0) pgI3c 1 else s)

/-- ENEC (R440). -/
def execEnec (s : State) : Res := .next (if i3cOn s then wb s pgI3c Reg.I3C_STAT 16 true else s)

/-- DISEC (R435). -/
def execDisec (s : State) : Res := .next (if i3cOn s then wb s pgI3c Reg.I3C_STAT 16 false else s)

/-- SETMWL (R435): at most 256. -/
def execSetmwl (n : Nat) (s : State) : Res :=
  .next (if i3cOn s then { s with i3c := { s.i3c with mwl := min n 256 } } else s)

/-- SETMRL (R435): at most 256. -/
def execSetmrl (n : Nat) (s : State) : Res :=
  .next (if i3cOn s then { s with i3c := { s.i3c with mrl := min n 256 } } else s)

/-- A common command that reads: its bytes are sent whole and not counted as private data. -/
def cccSend (s : State) (b : Bytes) : State := if i3cAddr s then emit s (.i3c b) else s

/-- GETMWL (R435): most significant byte first. -/
def execGetmwl (s : State) : Res := .next (cccSend s (natBytes s.i3c.mwl 2).reverse)

/-- GETMRL (R435): most significant byte first, then the one byte of an IBI's payload. -/
def execGetmrl (s : State) : Res := .next (cccSend s ((natBytes s.i3c.mrl 2).reverse ++ [1]))

/-- GETPID (R436): most significant byte first. -/
def execGetpid (s : State) : Res := .next (cccSend s (natBytes (i3cPid s) 6).reverse)

/-- GETBCR (R436). -/
def execGetbcr (s : State) : Res := .next (cccSend s [0x0E])

/-- GETDCR (R436). -/
def execGetdcr (s : State) : Res := .next (cccSend s [0x00])

/-- GETSTATUS (R435): two bytes whose content the spec does not give. -/
def execGetstatus (s : State) : Res :=
  .next (if i3cAddr s then
      let d := draw s
      emit d.2 (.i3c (fitBytes (Config.freeBytes d.1 2) 2))
    else s)

/-- The PHASE of bring-up (R439, R472). -/
def phaseCode (s : State) : Nat :=
  match s.boot.phase with
  | .off | .rom | .recovery | .scrap => 0
  | .settings => 4
  | .training => 5
  | .defects => 6
  | .cores => 7
  | .routes => 8
  | .scrub => 9
  | .ready => 0xF

/-- The number with the bits of `l` that hold. -/
def flagByte (l : List Bool) : Nat := maskOf ((List.range l.length).filter fun i => l.getD i false)

/-- STATUS (R439). -/
def statusBytes (s : State) : Bytes :=
  natBytes (lcState s) 1 ++ natBytes (rf s pgLc Reg.LC_STATE 8 1) 1 ++
    natBytes (maskOf ((List.range 16).filter (sealHeld s))) 2 ++ natBytes (collUsed s) 2 ++
    natBytes (flagByte [rb s pgErr Reg.EVT_STAT 5, rb s pgErr Reg.COLL_STAT 16, rb s pgPwr Reg.PWR_STAT 0,
      s.board.thermtrip]) 1 ++
    natBytes (rf s pgErr Reg.RESET_CAUSE 0 4) 1 ++ natBytes (fld (devIdent s) 0 8) 1 ++ natBytes (phaseCode s) 1 ++
    zeroBytes 6

/-- THERMAL (R439). -/
def thermalBytes (s : State) : Bytes :=
  let m := hottestMc s
  natBytes (rf s pgPwr Reg.THERM_STAT 0 8) 1 ++ natBytes (rf s pgPwr Reg.THERM_STAT 8 7) 1 ++
    natBytes (rf s pgPwr Reg.THERM_STAT 16 4) 1 ++ natBytes (rf s pgPwr Reg.THERM_STAT 24 7) 1 ++
    natBytes (rf s (pgMc m) Reg.MC_TEMP 0 8) 1 ++ natBytes m 1 ++ zeroBytes 2

/-- POWER (R439). -/
def powerBytes (s : State) : Bytes :=
  natBytes (rf s pgPwr Reg.PWR_MEAS 0 16) 2 ++ natBytes (rf s pgPwr Reg.HBM_PWR 0 16) 2 ++
    ((List.range 4).flatMap fun t => natBytes (rf s pgPwr (Reg.SITE_PWR t) 0 16) 2) ++ zeroBytes 4

/-- The response of F0's secure mailbox is the I3C port's to read (R438, R446). -/
def i3cResponse (s : State) : Bool := decide (mbxState s true 0 = 3) && rb s (pgMbx true) (Reg.MBX_STAT 0) 4

/-- REC_STATUS (R470). -/
def recBytes (s : State) : Bytes :=
  let rec? := decide (s.boot.phase = .recovery)
  natBytes (if rec? then 1 else 0) 1 ++ natBytes s.boot.cause 1 ++ natBytes s.boot.loadState 1 ++ [0] ++
    natBytes (if s.boot.loadState = 0 then 0 else s.flash.image.length) 4 ++ wordBytes (devIdent s)

/-- What a private read returns after the command `c` (R438, R470). -/
def i3cData (s : State) (c : Byte) : Bytes :=
  if c = 0x01 then statusBytes s
  else if c = 0x02 then wordBytes (devIdent s) ++ wordBytes s.fuse.unitId
  else if c = 0x03 then thermalBytes s
  else if c = 0x04 then powerBytes s
  else if c = 0x12 then
    (if i3cResponse s then (List.range 32).flatMap fun i => wordBytes (rd s (pgMbx true) (Reg.RESP 0 i)) else [0xFF])
  else if c = 0x13 then wordBytes (rd s (pgMbx true) (Reg.MBX_STAT 0))
  else if c = 0x20 then recBytes s
  else [0xFF]

/-- A command byte, with what follows it, is written (R438, R441). -/
def i3cWrite (s : State) (c : Byte) (n : Nat) : State :=
  addReg { s with i3c := { s.i3c with last := some c } } pgI3c Reg.I3C_RX_BYTES (1 + n)

/-- A command that writes, to a target with an address. -/
def i3cCommand (s : State) (c : Byte) (n : Nat) (k : State → State) : State :=
  if i3cAddr s then k (i3cWrite s c n) else s

/-- A command that reads. -/
def i3cRead (s : State) (c : Byte) : State := i3cCommand s c 0 fun s => i3cSend s (i3cData s c)

/-- STATUS (R439). -/
def execStatus (s : State) : Res := .next (i3cRead s 0x01)

/-- IDENT (R439). -/
def execIdent (s : State) : Res := .next (i3cRead s 0x02)

/-- THERMAL (R439). -/
def execThermal (s : State) : Res := .next (i3cRead s 0x03)

/-- POWER (R439). -/
def execPower (s : State) : Res := .next (i3cRead s 0x04)

/-- MBX_WRITE (R438, R441): an offset that is no multiple of 8 changes nothing; data past the buffer, or past the maximum write
length, is an OVERRUN; a parity error on the bus is recorded and the data dropped (DESIGN CHOICE, log entry 63). -/
def execMbxWrite (off : Nat) (data : Bytes) (badParity : Bool) (s : State) : Res :=
  .next (i3cCommand s 0x10 (1 + data.length) fun s =>
    if badParity then countError s pgI3c 1 0 0 none
    else if 248 < data.length ∨ 256 < off + data.length ∨ s.i3c.mwl < 2 + data.length then countError s pgI3c 2 0 0 none
    else if off % 8 = 0 then { s with i3c := { s.i3c with staging := putBytes s.i3c.staging off data } }
    else s)

/-- MBX_SEND (R446): in the cycle of a SEND from the PCIe port it is rejected. -/
def execMbxSend (pcieSameCycle : Bool) (s : State) : Res :=
  .next (i3cCommand s 0x11 0 fun s =>
    guarded s (pgMbx true) (!pcieSameCycle && decide (mbxState s true 0 = 0)) fun s =>
      let s := wrWords s (pgMbx true) (Reg.REQ 0 0) (bytesWords (fitBytes s.i3c.staging 256) 32)
      fillMbx { s with i3c := { s.i3c with staging := zeroBytes 256 } } true 0 1)

/-- MBX_READ (R438). -/
def execMbxRead (s : State) : Res := .next (i3cRead s 0x12)

/-- MBX_STAT (R438). -/
def execMbxStat (s : State) : Res := .next (i3cRead s 0x13)

/-- MBX_ACK (R438). -/
def execMbxAck (s : State) : Res :=
  .next (i3cCommand s 0x14 0 fun s => if i3cResponse s then ackMbx s true 0 else s)

/-- The codes that R438 and R470 list a command for. -/
def i3cListed (c : Byte) : Bool :=
  c = 0x01 || c = 0x02 || c = 0x03 || c = 0x04 || c = 0x10 || c = 0x11 || c = 0x12 || c = 0x13 || c = 0x14 || c = 0x20 ||
    c = 0x21

/-- UNKNOWN_I3C_COMMAND (R438, R470): a code that is not listed, or a read by itself, which returns the data of the last
command, or 0xFF without one. -/
def execUnknownI3cCommand (code : Option Byte) (s : State) : Res :=
  .next (match code with
    | some c => if i3cListed c then s else i3cRead s c
    | none => if i3cAddr s then i3cSend s ((s.i3c.last.map (i3cData s)).getD [0xFF]) else s)

/-- REC_STATUS (R470). -/
def execRecStatus (s : State) : Res := .next (i3cRead s 0x20)

/-- IBI (R440): one that loses arbitration waits for the next bus-free condition. -/
def execIbi (won : Bool) (s : State) : Res :=
  .next (match s.i3c.ibis with
    | [] => s
    | b :: t =>
      if won && i3cAddr s && rb s pgI3c Reg.I3C_STAT 16 then
        addReg (emit { s with i3c := { s.i3c with ibis := t } } (.ibi b)) pgI3c Reg.I3C_IBIS 1
      else s)

/-! ### The event recorder's commands -/

/-- The CONFIG entry of trigger `t` (R451). -/
def configEntry (s : State) (t : Nat) : State :=
  let v := rd s pgEvr (Reg.EVR_TRIG t)
  let n := min 6 (fld v 24 3)
  let w (i : Nat) : Word :=
    w64 (rf s pgEvr (Reg.EVR_SEL t i) 0 24 + (if i < n then 1 <<< 24 else 0) +
      (if i = 0 then (fld v 0 11) <<< 32 + (fld v 16 6) <<< 48 else 0))
  genWrite s (mkEntry s 3 t 6 ((List.range 6).map w))

/-- A write of `EVR_TRIG_t` (R451): SOURCE, EVENT and NSNAP hold while EN is 1; setting EN writes a CONFIG entry. -/
def writeTrig (s : State) (t : Nat) (v : Word) : State :=
  let off := Reg.EVR_TRIG t
  let old := rd s pgEvr off
  let v := v &&& 0x1073F07FF
  guarded s pgEvr (!(bit old 32) || decide (setBit v 32 true = old)) fun s =>
    let s := wr s pgEvr off v
    if bit v 32 && !(bit old 32) then configEntry s t else s

/-- TRIGGER_ENABLE (R451). -/
def execTriggerEnable (fn t : Nat) (v : Word) (s : State) : Res :=
  .next (if t < 64 then withWrite s fn pgEvr (Reg.EVR_TRIG t) fun s => writeTrig s t v else s)

/-- RECORDER_FENCE (R454): one may be pending. -/
def execRecorderFence (fn : Nat) (s : State) : Res :=
  .next (withWrite s fn pgEvr Reg.EVR_FENCE fun s =>
    guarded s pgEvr (!s.evr.fence) fun s => { s with evr := { s.evr with fence := true } })

/-- The fence epoch advances, modulo 2^16 (R449, R454). -/
def nextEpoch (s : State) : State := wf s pgEvr Reg.EVR_EPOCH 0 16 (rf s pgEvr Reg.EVR_EPOCH 0 16 + 1)

/-- FENCE_DONE (R454). -/
def execFenceDone (s : State) : Res :=
  .next (if s.evr.fence then raiseEvt (nextEpoch { s with evr := { s.evr with fence := false } }) pgEvr 2 else s)

/-- EVR_CLEAR (R453, R455). -/
def execEvrClear (fn : Nat) (s : State) : Res :=
  .next (withWrite s fn pgEvr Reg.EVR_CLEAR fun s =>
    guarded s pgEvr (auditRoom s) fun s =>
      let n := s.evr.gen.length
      let lost := rd s pgEvr Reg.EVR_LOST
      let s := wb (wf { s with evr := { s.evr with gen := [] } } pgEvr Reg.EVR_STAT 0 17 0) pgEvr Reg.EVR_STAT 31 false
      let s := audit (wr s pgEvr Reg.EVR_LOST 0) 0x0C [w64 n, lost]
      (List.range 64).foldl (fun s t => if rb s pgEvr (Reg.EVR_TRIG t) 32 then configEntry s t else s) s)

/-- Tuiner writes the audit entries to the mirror in flash (R456). -/
def mirrorAudit (s : State) : State :=
  let s := wr s pgEvr Reg.AUDIT_MIRRORED (rd s pgEvr Reg.AUDIT_NEXT)
  { s with evr := { s.evr with mirror := s.evr.audit, mirrorBase := (rd s pgEvr Reg.AUDIT_BASE).toNat } }

/-- AUDIT_MIRROR (R456). -/
def execAuditMirror (s : State) : Res := .next (if tuinerRuns s then mirrorAudit s else s)

/-- The operating time goes to flash (R449). -/
def saveSeconds (s : State) : State :=
  { s with evr := { s.evr with savedSeconds := s.evr.seconds + (rd s pgErr Reg.ERR_TIME).toNat / 25000000 } }

/-- SECONDS_SAVE (R449). -/
def execSecondsSave (s : State) : Res := .next (if secRuns s then saveSeconds s else s)

/-! ### The watchdog -/

/-- WATCHDOG_KICK (R429): the 1 s interval starts again. -/
def execWatchdogKick (s : State) : Res :=
  .next (if tuinerRuns s then { s with err := { s.err with wdogTick := some (rd s pgErr Reg.ERR_TIME).toNat } } else s)

end Sys2Proof.Machine
end

