-- ==== Sys2Proof/Machine/Pcie.lean ====
section
/-!
DEFINITION. The PCIe endpoint (R344 to R351, R367): function-level reset, device states, the link, configuration writes
and integrity failures.
-/

namespace Sys2Proof.Machine

/-! ### What a function is (R345) -/

/-- The configuration values that a function presents beside its settings (R345): `barLog` the base-two logarithm of the size
of BAR0, `pme` the states it signals PME from (1 D1, 3 D3hot, 4 D3cold), `next` the ARI Next Function Number. -/
structure CfgIdent where
  vendor : Nat
  device : Nat
  revision : Nat
  classCode : Nat
  barLog : Nat
  pin : Nat
  serial : Word
  doe : Bool
  ide : Bool
  flr : Bool
  pme : List Nat
  next : Nat
deriving DecidableEq, Repr

/-- The values of function `f` (R345); on the recovery path F0 stands alone (R466). -/
def cfgIdent (s : State) (f : Nat) : Option CfgIdent :=
  let alone := decide (s.boot.phase = .recovery)
  if 16 < f ∨ (alone ∧ f ≠ 0) then none
  else some {
    vendor := 0xB4A7
    device := if f = 0 then 0x0816 else 0x0817
    revision := fld (devIdent s) 24 8
    classCode := 0x120000
    barLog := if f = 0 then 27 else 22
    pin := 1
    serial := rd s 0 Reg.UNIT_ID
    doe := true
    ide := decide (f = 0)
    flr := true
    pme := if f = 0 then [1, 3, 4] else [1, 3]
    next := if f = 16 ∨ alone then 0 else f + 1 }

/-- A function under an FLR (R351): its channels stop and return to OFF, its mailboxes are cleared, the key slots of its
partition are zeroised, its sessions end, and its configuration space and power state return to their reset values. -/
def flrStart (s : State) (f : Nat) : State :=
  let s := (List.range 32).foldl
    (fun s c =>
      if chanFn s c = some f then setState (wf (resetChan s c false) (pgDma c) Reg.PAGE_CTL 0 2 0) (pgDma c) 0 else s) s
  let s := clearMbx (clearMbx s true f) false f
  let s := if f = 0 then s else zeroiseKeys s (f - 1)
  let s := endSessions s f
  let s := { s with
    pcie := { s.pcie with cfg := s.pcie.cfg.set f cfgReset }
    sec := { s.sec with spdm := s.sec.spdm.set f spdmReset } }
  wb (wf s pgPcie Reg.DSTATE (2 * f) 2 0) pgPcie Reg.FLR_STAT f true

/-- FLR (R351): one under way is not started again. -/
def execFlr (fn : Nat) (s : State) : Res :=
  .next (if fn ≤ 16 ∧ s.pcie.link ∧ rb s pgPcie Reg.FLR_STAT fn = false then updWire (flrStart s fn) else s)

/-- The FLR of a function ends (R351, R367). -/
def flrEnd (s : State) (f : Nat) : State :=
  updWire (raiseEvt (addReg (wb s pgPcie Reg.FLR_STAT f false) pgPcie Reg.FLR_COUNT 1) pgPcie 1)

/-- FLR_DONE (R351). -/
def execFlrDone (fn : Nat) (s : State) : Res :=
  .next (if fn ≤ 16 ∧ rb s pgPcie Reg.FLR_STAT fn then flrEnd s fn else s)

/-- POWER_STATE_CHANGE (R349): D0, D1 or D3hot; from D3hot a function returns to D0 alone (PRESUMED, log entry 70: PCI power
management).  Nothing is reset. -/
def execPowerStateChange (fn d : Nat) (s : State) : Res :=
  .next (if fn ≤ 16 ∧ s.pcie.link ∧ rb s pgPcie Reg.FLR_STAT fn = false ∧ (d = 0 ∨ d = 1 ∨ d = 3) ∧ dState s fn ≠ d ∧
      ¬(dState s fn = 3 ∧ d = 1) then
    updWire (raiseEvt (wf s pgPcie Reg.DSTATE (2 * fn) 2 d) pgPcie 2)
  else s)

/-- The link goes down (R351, R367, R476): LINK_STAT clears, the wire's messages are forgotten, the endpoint trains
again, and no IDE stream is secure any longer (PRESUMED, log entry 70: PCIe 6.0). -/
def pcieDown (s : State) : State :=
  let was := rb s pgPcie Reg.LINK_STAT 16
  let s := { s with pcie := { s.pcie with
    link := false, wire := false, l2 := false, ide := s.pcie.ide.map fun _ => ⟨[[], []], none⟩ } }
  let s := wr s pgPcie Reg.LINK_STAT 0
  if was then raiseEvt s pgPcie 0 else s

/-- HOST_LINK_RESET (R351, R425, R426): an FLR of all 17 functions together, then training; LINK_DOWN is recorded. -/
def execHostLinkReset (s : State) : Res :=
  .next (if s.pcie.link then
    let s := (List.range 17).foldl (fun s f => if rb s pgPcie Reg.FLR_STAT f then s else flrStart s f) s
    let s := countError (pcieDown s) pgPcie 1 0 3 none
    updWire (setState s pgPcie 2)
  else s)

/-- A rate, a width and a mode the endpoint supports (R344): 64 GT/s runs in FLIT mode alone. -/
def linkModeOk (s : State) (rate width : Nat) (flit : Bool) : Bool :=
  decide (4 ≤ rate) && decide (rate ≤ 6) && decide (rate ≤ rf s pgPcie Reg.LINK_CTL 0 3) &&
    (width = 1 || width = 2 || width = 4 || width = 8 || width = 16) && (flit || decide (rate ≠ 6))

/-- LINK_UP (R344, R367, R476): training ends in DL_Up, once presets are loaded and PERST# is released. -/
def execLinkUp (rate width : Nat) (flit : Bool) (s : State) : Res :=
  .next (if ¬s.pcie.link ∧ ¬s.board.perst ∧ s.boot.phase ≠ .off ∧ linkModeOk s rate width flit then
    let s := { s with pcie := { s.pcie with link := true, l2 := false, d3cold := false } }
    let s := raiseEvt (wr s pgPcie Reg.LINK_STAT (w64 (rate + width <<< 4 + flit.toNat <<< 12 + 1 <<< 16))) pgPcie 0
    let s := if pageState s pgPcie = 2 then setState s pgPcie 3 else s
    updWire s
  else s)

/-- IDE_FAULT (R386, R367): an integrity check fails; the stream is no longer secure, and IDE_CHECK is recorded. -/
def execIdeFault (stream : Nat) (s : State) : Res :=
  .next (match s.pcie.ide[stream]? with
    | none => s
    | some v =>
      if v.active.isNone then s
      else
        let s := { s with pcie := { s.pcie with ide := s.pcie.ide.set stream { v with active := none } } }
        let s := if stream = 0 then raiseEvt (wb s pgPcie Reg.LINK_STAT 13 false) pgPcie 0 else s
        raiseEvt (countError s pgPcie 4 0 1 none) pgPcie 4)

/-- A configuration space after one of its settings is written (R344, R347, R350, R363); a value the endpoint does not
support changes nothing. -/
def cfgSet (c : CfgFn) : CfgWrite → CfgFn
  | .interruptDisable b => { c with intDisable := b }
  | .pmeEn b => { c with pmeEn := b }
  | .pmeStatusClear => { c with pmeStatus := false }
  | .relaxedOrdering b => { c with relaxed := b }
  | .maxPayload n => if n = 128 ∨ n = 256 ∨ n = 512 then { c with maxPayload := n } else c
  | .maxReadRequest n =>
    if n = 128 ∨ n = 256 ∨ n = 512 ∨ n = 1024 ∨ n = 2048 ∨ n = 4096 then { c with maxRead := n } else c
  | .completionTimeout n =>
    if n = 0 ∨ n = 5 ∨ n = 6 ∨ n = 9 ∨ n = 10 ∨ n = 13 ∨ n = 14 then { c with cplTimeout := n } else c

/-- Configuration requests are answered other than with Request Retry Status: Tuiner has loaded configuration space, as the
SETTINGS step ends (DESIGN CHOICE, log entry 63), or the ROM presents F0 on the recovery path (R466, R476). -/
def cfgLoaded (s : State) (fn : Nat) : Bool :=
  match s.boot.phase with
  | .off | .rom | .settings | .scrap => false
  | .recovery => fn = 0
  | _ => true

/-- CONFIGURATION_WRITE (R347, R350, R476): answered while the link is up, configuration space is loaded and the function is
not under an FLR; INTA follows. -/
def execConfigurationWrite (fn : Nat) (w : CfgWrite) (s : State) : Res :=
  .next (match s.pcie.cfg[fn]? with
    | none => s
    | some c =>
      if s.pcie.link && cfgLoaded s fn && !(rb s pgPcie Reg.FLR_STAT fn) then
        updWire { s with pcie := { s.pcie with cfg := s.pcie.cfg.set fn (cfgSet c w) } }
      else s)

/-- PME_TURN_OFF (R350): the link reaches L2, and goes down. -/
def execPmeTurnOff (s : State) : Res :=
  .next (if s.pcie.link then
    let s := pcieDown s
    { s with pcie := { s.pcie with l2 := true } }
  else s)

end Sys2Proof.Machine
end

