-- ==== Sys2Proof/Machine/Sweep.lean ====
section
/-!
DEFINITION. The attention sweep engines (R134 to R164): partials and their merge, key and value stores and
bounds, faults, fences and tests of engines.
-/

namespace Sys2Proof.Machine

/-! ### Exact helpers -/

/-- The exact sum of two values. -/
def numAdd : Num → Num → Num
  | .nan, _ => .nan
  | _, .nan => .nan
  | .inf s, .inf t => if s = t then .inf s else .nan
  | .inf s, .fin _ _ _ => .inf s
  | .fin _ _ _, .inf t => .inf t
  | .fin s m e, .fin t n f =>
    let lo := min e f
    let x : Int := if s then -(shl m (e - lo) : Int) else shl m (e - lo)
    let y : Int := if t then -(shl n (f - lo) : Int) else shl n (f - lo)
    .fin (decide (x + y < 0)) (x + y).natAbs lo

/-- The least integer `b` with `m * 2 ^ e ≤ 4 ^ b`, for a non-zero `m` (R142, R146). -/
def log4Up (m : Nat) (e : Int) : Int :=
  let g : Int := (Nat.log2 m : Int) + e
  if m = 2 ^ Nat.log2 m then (g + 1) / 2 else (g + 2) / 2

/-- The exact sum of squares of a row, as it is without wrapping. -/
def sumSquares (l : List Num) : Num := l.foldl (fun a x => numAdd a (x.mul x)) (.fin false 0 0)

/-- The exact dot product of two rows. -/
def exactDot (a b : List Num) : Num := (a.zip b).foldl (fun t x => numAdd t (x.1.mul x.2)) (.fin false 0 0)

/-- A key row's bound (R142): none where it is zero; an error where it has no finite bound below 128. -/
def keyBound (l : List Num) : Except Unit (Option Int) :=
  match sumSquares l with
  | .fin _ m e =>
    if m = 0 then .ok none
    else if 127 < log4Up m e then .error () else .ok (some (max (-127) (log4Up m e)))
  | _ => .error ()

/-! ### KV list entries (R139, R140) -/

/-- An entry's eight words. -/
def entryOf (b : Bytes) (e : Nat) : List Word := bytesWords (slice b (64 * e) 64) 8
/-- DATA_VA. -/
def kvVa (e : List Word) : Nat := fld (dw e 0) 0 52
/-- COUNT. -/
def kvCount (e : List Word) : Nat := fld (dw e 1) 0 9
/-- H. -/
def kvHeads (e : List Word) : Nat := fld (dw e 1) 9 5 + 1
/-- DCODE. -/
def kvDcode (e : List Word) : Nat := fld (dw e 1) 14 2
/-- The head dimension. -/
def kvDim (e : List Word) : Nat := 64 * 2 ^ kvDcode e
/-- K_FMT or V_FMT. -/
def kvFmt (e : List Word) (v : Bool) : Nat := fld (dw e 1) (if v then 21 else 16) 4
/-- K_MX or V_MX. -/
def kvMx (e : List Word) (v : Bool) : Bool := bit (dw e 1) (if v then 25 else 20)
/-- BOUND_h as its byte. -/
def kvBoundByte (e : List Word) (h : Nat) : Nat := fld (dw e (4 + h / 8)) (8 * (h % 8)) 8
/-- BOUND_h; none where it is EMPTY. -/
def kvBoundOf (e : List Word) (h : Nat) : Option Int :=
  let b := kvBoundByte e h
  if b = 0x80 then none else some (if b < 128 then b else (b : Int) - 256)

/-- An entry keeps R140 against entry 0, its COUNT apart. -/
def entryOk (e e0 : List Word) : Bool :=
  bit (dw e 0) 52 && kvVa e % 4096 = 0 && kvDcode e ≠ 3 &&
    [false, true].all (fun v => decide (1 ≤ kvFmt e v) && decide (kvFmt e v ≤ 8) && (!kvMx e v || decide (3 ≤ kvFmt e v))) &&
    fld (dw e 1) 9 17 = fld (dw e0 1) 9 17

/-- Bytes of a stored row and of its scales (R141): RB and SB. -/
def kvRow (e : List Word) (v : Bool) : Nat × Nat :=
  (kvDim e * (fmtOf (kvFmt e v)).w / 8, if kvMx e v then kvDim e / 32 else 0)

/-- The first byte of a slab of head `h` (R141). -/
def kvSlab (e : List Word) (v : Bool) (h : Nat) : Nat :=
  let k := kvRow e false
  let r := kvRow e v
  kvVa e + (if v then kvHeads e * 256 * (k.1 + k.2) else 0) + h * 256 * (r.1 + r.2)

/-- The tile of rows `j0` to `j0 + n - 1` of a slab: one run of bytes. -/
def kvTile (e : List Word) (v : Bool) (h j0 n : Nat) : Tile :=
  let r := kvRow e v
  ⟨kvSlab e v h + j0 * r.1, 0, 1, n * r.1, 4⟩

/-- The tile of their scale rows. -/
def kvScaleTile (e : List Word) (v : Bool) (h j0 n : Nat) : Tile :=
  let r := kvRow e v
  ⟨kvSlab e v h + 256 * r.1 + j0 * r.2, 0, 1, n * r.2, 4⟩

/-- The engine's page. -/
def sePage (w : Work) : Nat := pgSe (4 * w.part + (w.unit - 128))

/-- Read a tile of list or KV bytes, counted in `BYTES_READ` (R163). -/
def withKvTile (s : State) (w : Work) (t : Tile) (k : State → Bytes → State) : State :=
  withTile s w t fun s rows => k (addReg s (sePage w) Reg.BYTES_READ t.rowBytes) (rows.getD 0 [])

/-- Read `n` bytes of a KV list from `va` in tiles of 4 KiB, the last one shorter (R178; log entry 64). -/
def withListBytes (s : State) (w : Work) : Nat → Nat → Nat → (State → Bytes → State) → State
  | 0, _, _, k => k s []
  | fuel + 1, va, n, k =>
    if n = 0 then k s []
    else
      let m := min n 4096
      withKvTile s w ⟨va, 0, 1, m, 3⟩ fun s b => withListBytes s w fuel (va + m) (n - m) fun s t => k s (b ++ t)

/-- Read entries `e0` to `e0 + n - 1` of a KV list. -/
def withList (s : State) (w : Work) (base e0 n : Nat) (k : State → List (List Word) → State) : State :=
  withListBytes s w (n / 64 + 1) (base + 64 * e0) (64 * n) fun s b => k s ((List.range n).map (entryOf b))

/-- Read rows `j0` to `j0 + n - 1` of a slab, with their scales applied. -/
def withSlab (s : State) (w : Work) (e : List Word) (v : Bool) (h j0 n : Nat)
    (k : State → List (List Num) → State) : State :=
  let r := kvRow e v
  let d := kvDim e
  let go (s : State) (b sc : Bytes) : State :=
    k s ((List.range n).map fun j => rowNums (kvFmt e v) (kvMx e v) d (slice b (j * r.1) r.1) (slice sc (j * r.2) r.2))
  withKvTile s w (kvTile e v h j0 n) fun s b =>
    if kvMx e v then withKvTile s w (kvScaleTile e v h j0 n) fun s sc => go s b sc else go s b []

/-! ### ATTN_PARTIAL (R144 to R151) -/

/-- The pieces of a token range: entry number, first slot, slots. -/
def kvPieces (t0 t1 : Nat) : List (Nat × Nat × Nat) :=
  (List.range ((t1 - 1) / 256 + 1 - t0 / 256)).map fun i =>
    let e := t0 / 256 + i
    let a := max t0 (256 * e)
    (e, a - 256 * e, min t1 (256 * e + 256) - a)

/-- Read the keys and values of one head over pieces of its range, in order. -/
def withRange (s : State) (w : Work) (list : List (List Word)) (h : Nat) :
    List (Nat × Nat × Nat) → (State → List (List Num × List Num) → State) → State
  | [], k => k s []
  | (i, j0, n) :: t, k =>
    let e := list.getD i []
    withSlab s w e false h j0 n fun s ks =>
    withSlab s w e true h j0 n fun s vs =>
    withRange s w list h t fun s l => k s (ks.zip vs ++ l)

/-- The tiles that hold the rows of one head over pieces of its range, in the order they are read (R141). -/
def rangeTiles (list : List (List Word)) (h : Nat) (pieces : List (Nat × Nat × Nat)) : List Tile :=
  pieces.flatMap fun p =>
    let e := list.getD p.1 []
    [false, true].flatMap fun v =>
      kvTile e v h p.2.1 p.2.2 :: (if kvMx e v then [kvScaleTile e v h p.2.1 p.2.2] else [])

/-- Probe the translation pages of tiles before any of them is read (R146): a probe that finds none faults. -/
def withProbe (s : State) (w : Work) : List Tile → (State → State) → State
  | [], k => k s
  | t :: l, k =>
    match translatePages s w.part w.unit false (tilePages t.va t.pitch t.rows t.rowBytes) with
    | (.error (page, kind, level), s) => stopWork s w t false (.fault page kind level)
    | (.ok _, s) => withProbe s w l k

/-- Every entry of the sequence keeps R140 and R146 for the descriptor. -/
def listOk (d : List Word) (list : List (List Word)) : Bool :=
  let e0 := list.getD 0 []
  let np := list.length
  (list.zipIdx.all fun e =>
    entryOk e.1 e0 && kvCount e.1 = (if e.2 + 1 = np then dTotal d - 256 * (np - 1) else 256)) &&
  kvDim e0 = dN d && decide (dHead d < kvHeads e0)

/-- The anchor of a query row (R146). -/
def anchor (d : List Word) (bmax : Option Int) (q : List Num) : Int :=
  let scale := decodeElem 0 false (dScale d)
  let u : Int := match sumSquares q, bmax, scale with
    | .fin _ m e, some b, .fin _ sm se =>
      if m = 0 then 0
      else
        let p := se + (log4Up m e + b)
        if 0 ≤ p then (shl sm p : Int) else ((sm + 2 ^ (-p).toNat - 1) / 2 ^ (-p).toNat : Nat)
    | _, _, _ => 0
  max (-2147483648) (min (u - dDrop d) 2147483647)

/-- A row's running result (R147). -/
structure SweepRow where
  den : Pot
  num : List Pot
  tmax : Nat
  wsat : Bool
  attended : Bool
deriving DecidableEq, Repr

/-- One attended token of a row (R147). -/
def sweepToken (scale : Num) (m : Int) (q : List Num) (r : SweepRow) (kv : List Num × List Num) : SweepRow :=
  let sc := scale.mul (exactDot q kv.1)
  let code := (roundNum .rne 0 false false (numAdd sc (.fin (decide (0 < m)) m.natAbs 0))).1
  let t := decodeElem 0 false code
  match exp2q t with
  | none =>
    { r with den := potAdd r.den .nan, num := r.num.map fun p => potAdd p .nan, attended := true }
  | some w =>
    let x : Num := .fin false w (-32)
    { den := potAdd r.den x
      num := (r.num.zip kv.2).map fun p => potAdd p.1 (x.mul p.2)
      tmax := if (decodeElem 0 false r.tmax).le t then code else r.tmax
      wsat := r.wsat || (Num.fin false 8 0).le t
      attended := true }

/-- The position of a query row (R145). -/
def rowPos (d : List Word) (r : Nat) : Nat := dQpos d + r / (dGm1 d + 1)

/-- A row swept over its whole range (R147). -/
def sweepRow (d : List Word) (m : Int) (q : List Num) (r : Nat) (kv : List (List Num × List Num)) : SweepRow :=
  let scale := decodeElem 0 false (dScale d)
  kv.zipIdx.foldl
    (fun a x => if dCausal d && decide (rowPos d r < dT0 d + x.2) then a else sweepToken scale m q a x.1)
    ⟨potZero, List.replicate (dN d) potZero, 0xFF800000, false, false⟩

/-- LIST_CRC (R150). -/
def listCrc (list : List (List Word)) : Nat :=
  crc32c (list.flatMap fun e => wordBytes (dw e 1) ++ ([4, 5, 6, 7].flatMap fun i => wordBytes (dw e i)))

/-- FINGERPRINT of row `r` (R150). -/
def fingerprint (d : List Word) (dcode crc r : Nat) (row : Bytes) : Nat :=
  crc32c (natBytes (dTotal d) 4 ++ natBytes (dScale d) 4 ++
    natBytes (if dCausal d then rowPos d r else 0xFFFFFFFF) 4 ++
    natBytes (dDrop d) 1 ++ natBytes (dHead d) 1 ++ natBytes (r % (dGm1 d + 1)) 1 ++
    natBytes (dGm1 d + dcode <<< 4 + (dCausal d).toNat <<< 6) 1 ++ natBytes (dListId d) 2 ++ zeroBytes 2 ++
    natBytes crc 4 ++ row)

/-- The bytes of a partial (R149). -/
def partialBytes (ver : Nat) (m : Int) (tmax t0 t1 fp total dcode : Nat) (wsat empty : Bool) (den : Pot)
    (num : List Pot) : Bytes :=
  natBytes ((m % 2 ^ 32).toNat + tmax <<< 32) 8 ++ natBytes (t0 + t1 <<< 32) 8 ++
    natBytes (fp + 3 <<< 32 + wsat.toNat <<< 36 + empty.toNat <<< 37 + dcode <<< 38 + ver <<< 56) 8 ++
    natBytes total 8 ++ potRecord 10 ver den ++ num.flatMap (potRecord 10 ver)

/-- Write the partials of a sweep, count them, and complete (R129, R151, R163, R164, R282).  Whether TOKENS_SWEPT counts the tokens
of a sweep that writes no partials is open: it counts once they are written (log entry 63). -/
def writePartials (s : State) (w : Work) (parts : List Bytes) (nan range : Bool) (wsats : Nat) : State :=
  let d := w.desc
  putHinted s w (engineHint s w.part w.unit) ⟨dD d, dDPitch d, dM d, psize (dN d), 2⟩ parts fun s =>
    let p := sePage w
    let s := addReg s p Reg.TOKENS_SWEPT (dT1 d - dT0 d)
    let s := addReg s p Reg.PARTIALS_WRITTEN parts.length
    let s := addReg s p Reg.WSAT_PARTIALS wsats
    let s := if wsats = 0 then s else raiseEvt s p 1
    complete s w 0 0 0 (flagBits ⟨nan, range, false⟩) 0

/-- A `READ_CAP` of 0 stops an engine's reads, and the engine holds its descriptor (R163). -/
def engineReads (s : State) (w : Work) : Bool := rf s (sePage w) Reg.READ_CAP 0 18 ≠ 0

/-- ATTN_PARTIAL (R144 to R151). -/
def partialWork (s : State) (w : Work) : State :=
  let d := w.desc
  if !engineReads s w then s
  else
    withList s w (dList d) 0 (ceilDiv (dTotal d) 256) fun s list =>
      if !listOk d list then complete s w 3 0x0E 0 0 0
      else
        let e0 := list.getD 0 []
        let bmax := list.foldl (fun (m : Option Int) e =>
          match m, kvBoundOf e (dHead d) with
          | none, b => b
          | some a, none => some a
          | some a, some b => some (max a b)) none
        withProbe s w (rangeTiles list (dHead d) (kvPieces (dT0 d) (dT1 d))) fun s =>
        withTile s w (opdTile (opdA d (dM d) (dN d))) fun s qrows =>
        withRange s w list (dHead d) (kvPieces (dT0 d) (dT1 d)) fun s kv =>
          let crc := listCrc list
          let rows := qrows.zipIdx.map fun q =>
            let qn := rowNums (dFmtA d) false (dN d) q.1 []
            let m := anchor d bmax qn
            (m, sweepRow d m qn q.2 kv, fingerprint d (kvDcode e0) crc q.2 q.1)
          let parts := rows.map fun r =>
            partialBytes (arithVer s) r.1 r.2.1.tmax (dT0 d) (dT1 d) r.2.2 (dTotal d) (kvDcode e0) r.2.1.wsat
              (!r.2.1.attended) r.2.1.den r.2.1.num
          let pots (r : SweepRow) := r.den :: r.num
          writePartials s w parts (rows.any fun r => (pots r.2.1).any (·.nan))
            (rows.any fun r => r.2.1.wsat || (pots r.2.1).any (·.range)) (rows.countP fun r => r.2.1.wsat)

/-- ATTN_PARTIAL (R144). -/
def execAttnPartial (k x q : Nat) (s : State) : Res := .next (onWork s k x q 0x20 partialWork)

/-! ### ATTN_MERGE (R153 to R156) -/

/-- A partial as its bytes are read (R149). -/
structure Part where
  anchor : Nat
  tmax : Nat
  t0 : Nat
  t1 : Nat
  fp : Nat
  form : Nat
  wsat : Bool
  empty : Bool
  dcode : Nat
  ver : Nat
  total : Nat
  recs : List (Pot × Nat × Nat)
deriving DecidableEq, Repr

/-- Read a partial of head dimension `n`. -/
def readPart (n : Nat) (b : Bytes) : Part :=
  let w := leAt b 16 8
  { anchor := leAt b 0 4, tmax := leAt b 4 4, t0 := leAt b 8 4 % 2 ^ 23, t1 := leAt b 12 4 % 2 ^ 23, fp := leAt b 16 4,
    form := w / 2 ^ 32 % 16, wsat := w.testBit 36, empty := w.testBit 37, dcode := w / 2 ^ 38 % 4,
    ver := w / 2 ^ 56 % 256, total := leAt b 24 3 % 2 ^ 23,
    recs := (List.range (n + 1)).map fun i => readRecord 10 (slice b (32 + 96 * i) 96) }

/-- Partials in order of their first token. -/
def sortParts (l : List Part) : List Part := l.mergeSort fun a b => decide (a.t0 ≤ b.t0)

/-- Sorted ranges that are not empty, do not overlap and leave no gap (R154). -/
def unbroken : List Part → Bool
  | [] => true
  | [p] => decide (p.t0 < p.t1)
  | p :: q :: t => decide (p.t0 < p.t1) && decide (p.t1 = q.t0) && unbroken (q :: t)

/-- The DETAIL of the first check of R154 that one merge's rows of partials fail, 0 where none does.  The spec gives the
checks no order: 0x08, 0x09, 0x0C and 0x0D are taken in turn, each over all rows (log entry 63). -/
def mergeCheck (ver : Nat) (d : List Word) (rows : List (List Part)) : Nat :=
  let all := rows.flatMap id
  if all.any fun p => p.form ≠ 3 || p.recs.any fun r => r.2.1 ≠ 2 then 0x08
  else if all.any fun p => p.ver ≠ ver || p.recs.any fun r => r.2.2 ≠ ver then 0x09
  else if rows.any fun l =>
      let h := l.headD (readPart 0 [])
      64 * 2 ^ h.dcode ≠ dN d || h.dcode = 3 ||
        l.any fun p => p.anchor ≠ h.anchor || p.fp ≠ h.fp || p.total ≠ h.total || p.dcode ≠ h.dcode then 0x0C
  else if rows.any fun l =>
      let t := sortParts l
      !unbroken t ||
        (dFmtD d ≠ 10 &&
          (((t.head?.map (·.t0)).getD 1 ≠ 0) || (t.getLast?.map (·.t1)).getD 0 ≠ (t.head?.map (·.total)).getD 1)) then 0x0D
  else 0

/-- Pot `i` of a row of partials, merged: 0 the denominator, `i + 1` the numerator of element `i`. -/
def mergedPot (l : List Part) (i : Nat) : Pot :=
  mergePots (l.map fun p => ((p.recs[i]?).map (·.1)).getD potZero)

/-- The elements of a row for element output (R155). -/
def mergeElems (n : Nat) (l : List Part) : List Elem :=
  let wsat := l.any (·.wsat)
  let den := mergedPot l 0
  (List.range n).map fun i =>
    let num := mergedPot l (i + 1)
    let rng := wsat || den.range || num.range
    if rng || den.nan || num.nan || den.v = 0 || (num.posInf && num.negInf) then ⟨.nan, rng, none⟩
    else if num.posInf then ⟨.inf false, false, none⟩
    else if num.negInf then ⟨.inf true, false, none⟩
    else ⟨quotient num.v den.v, false, none⟩

/-- The merged partial of a row (R156). -/
def mergePart (ver n : Nat) (l : List Part) : Bytes :=
  let h := l.headD (readPart 0 [])
  let tmax := l.foldl (fun a p => if (decodeElem 0 false a).le (decodeElem 0 false p.tmax) then p.tmax else a) 0xFF800000
  partialBytes ver h.anchor tmax (l.foldl (fun a p => min a p.t0) h.t0) (l.foldl (fun a p => max a p.t1) 0) h.fp h.total
    h.dcode (l.any (·.wsat)) (l.all (·.empty)) (mergedPot l 0) ((List.range n).map fun i => mergedPot l (i + 1))

/-- ATTN_MERGE (R153 to R156). -/
def attnMergeWork (s : State) (w : Work) : State :=
  let d := w.desc
  let n := dN d
  withTile s w ⟨dA d, dAPitch d, dM d, dK d * psize n, 0⟩ fun s bytes =>
    let rows := bytes.map fun b => (List.range (dK d)).map fun j => readPart n (slice b (j * psize n) (psize n))
    let c := mergeCheck (arithVer s) d rows
    if c ≠ 0 then complete s w 3 c 0 0 0
    else if dFmtD d = 10 then
      let pots := rows.flatMap fun l => (List.range (n + 1)).map (mergedPot l)
      let fl : Flags := ⟨pots.any (·.nan), (rows.any fun l => l.any (·.wsat)) || pots.any (·.range), false⟩
      putTile s w ⟨dD d, dDPitch d, dM d, psize n, 2⟩ (rows.map (mergePart (arithVer s) n)) fun s =>
        complete s w 0 0 0 (flagBits fl) 0
    else storeElems s w n (rows.map (mergeElems n))

/-- ATTN_MERGE (R153). -/
def execAttnMerge (k x q : Nat) (s : State) : Res := .next (onWork s k x q 0x21 attnMergeWork)

/-! ### KV_STORE and KV_BOUND (R159, R160) -/

/-- Write runs of bytes one after another with a write hint, then go on. -/
def putRuns (s : State) (w : Work) (hint : Nat) : List (Tile × Bytes) → (State → State) → State
  | [], k => k s
  | (t, b) :: l, k => putHinted s w hint t [b] fun s => putRuns s w hint l k

/-- Row `j` of a converted source (R159): bytes and scale bytes of all heads, and its flags. -/
def convertRow (s : State) (d e : List Word) (v : Bool) (j : Nat) (row : List Num) : Bytes × Bytes × Flags :=
  let r : Rounding := { rounding s d with fmt := kvFmt e v, mx := kvMx e v }
  deliverRow r ((if v then 2 ^ 40 else 0) + (dTotal d + j) * dN d) (row.map numElem)

/-- The runs that store converted rows of one kind into the entries (R141, R159). -/
def storeRuns (d : List Word) (entries : List (List Word)) (v : Bool) (rows : List (Bytes × Bytes × Flags)) :
    List (Tile × Bytes) :=
  (kvPieces (dTotal d) (dTotal d + dM d)).flatMap fun p =>
    let e := entries.getD (p.1 - dTotal d / 256) []
    let r := kvRow e v
    let mine := (rows.drop (256 * p.1 + p.2.1 - dTotal d)).take p.2.2
    (List.range (kvHeads e)).flatMap fun h =>
      (kvTile e v h p.2.1 p.2.2, mine.flatMap fun x => slice x.1 (h * r.1) r.1) ::
        (if kvMx e v then [(kvScaleTile e v h p.2.1 p.2.2, mine.flatMap fun x => slice x.2.1 (h * r.2) r.2)] else [])

/-- A bound byte raised to a new bound (R142). -/
def raiseBound (byte : Nat) (b : Option Int) : Nat :=
  let old : Option Int := if byte = 0x80 then none else some (if byte < 128 then byte else (byte : Int) - 256)
  match old, b with
  | none, none => 0x80
  | none, some n => (n % 256).toNat
  | some o, none => (o % 256).toNat
  | some o, some n => (max o n % 256).toNat

/-- An entry with its COUNT and bounds replaced (R139): `f` maps a head to its bound byte. -/
def setEntry (e : List Word) (count : Nat) (f : Nat → Nat) : Bytes :=
  (wordBytes (dw e 0) ++ wordBytes (setFld (dw e 1) 0 9 count) ++ wordBytes (dw e 2) ++ wordBytes (dw e 3)) ++
    ((List.range 32).map fun h => BitVec.ofNat 8 (if h < kvHeads e then f h else kvBoundByte e h))

/-- The greatest of several bounds. -/
def maxBound (l : List (Option Int)) : Option Int :=
  l.foldl (fun a b => match a, b with
    | none, b => b
    | some a, none => some a
    | some a, some b => some (max a b)) none

/-- The bounds of rows, or an error where one has none (R142). -/
def boundsOf : List (List Num) → Except Unit (List (Option Int))
  | [] => .ok []
  | r :: t =>
    match keyBound r, boundsOf t with
    | .ok b, .ok l => .ok (b :: l)
    | _, _ => .error ()

/-- The keys of head `h` as a converted row stores them. -/
def storedKey (e : List Word) (x : Bytes × Bytes × Flags) (h : Nat) : List Num :=
  let r := kvRow e false
  rowNums (kvFmt e false) (kvMx e false) (kvDim e) (slice x.1 (h * r.1) r.1) (slice x.2.1 (h * r.2) r.2)

/-- KV_STORE (R159, R282). -/
def storeWork (s : State) (w : Work) : State :=
  let d := w.desc
  let ent := storeEntries d
  if !engineReads s w then s
  else
    withTensor s w (opdA d (dM d) (dN d)) (dFmtA d) (dMxA d) (dN d) fun s keys =>
    withTensor s w (opdB d (dM d) (dN d)) (dFmtB d) (dMxB d) (dN d) fun s vals =>
    withList s w (dD d) 0 1 fun s first =>
    withList s w (dD d) ent.1 ent.2 fun s entries =>
      let e0 := first.getD 0 []
      if !(entryOk e0 e0 && entries.all (fun e => entryOk e e0) && kvHeads e0 * kvDim e0 = dN d) then
        complete s w 3 0x0E 0 0 0
      else
        let ks := keys.zipIdx.map fun r => convertRow s d e0 false r.2 r.1
        let vs := vals.zipIdx.map fun r => convertRow s d e0 true r.2 r.1
        let heads := List.range (kvHeads e0)
        let bounds := ks.map fun r => boundsOf (heads.map (storedKey e0 r))
        if bounds.any fun b => match b with
          | .ok _ => false
          | .error _ => true then complete s w 3 0x0F 0 0 0
        else
          let bs := bounds.map fun b => match b with
            | .ok l => l
            | .error _ => []
          let upds := (kvPieces (dTotal d) (dTotal d + dM d)).map fun p =>
            let e := entries.getD (p.1 - ent.1) []
            let mine := (bs.drop (256 * p.1 + p.2.1 - dTotal d)).take p.2.2
            ((⟨dD d + 64 * p.1, 0, 1, 64, 3⟩ : Tile),
              setEntry e (max (kvCount e) (p.2.1 + p.2.2)) fun h =>
                raiseBound (kvBoundByte e h) (maxBound (mine.map fun l => l.getD h none)))
          let fl := (ks ++ vs).foldl (fun f x => f.or x.2.2) noFlags
          putRuns s w (engineHint s w.part w.unit) (storeRuns d entries false ks ++ storeRuns d entries true vs) fun s =>
            putRuns s w 0 upds fun s => complete s w 0 0 0 (flagBits fl) 0

/-- KV_STORE (R159). -/
def execKvStore (k x q : Nat) (s : State) : Res := .next (onWork s k x q 0x22 storeWork)

/-- The bounds of every head of an entry over its present slots (R160). -/
def withBounds (s : State) (w : Work) (e : List Word) : List Nat →
    (State → Except Unit (List (Option Int)) → State) → State
  | [], k => k s (.ok [])
  | h :: t, k =>
    let n := min (kvCount e) 256
    let go (s : State) (r : Except Unit (Option Int)) : State :=
      withBounds s w e t fun s l => k s (match r, l with
        | .ok b, .ok l => .ok (b :: l)
        | _, _ => .error ())
    if n = 0 then go s (.ok none)
    else withSlab s w e false h 0 n fun s rows => go s (match boundsOf rows with
      | .ok l => .ok (maxBound l)
      | .error _ => .error ())

/-- The bounds of several entries, in order. -/
def withAllBounds (s : State) (w : Work) : List (List Word) →
    (State → Except Unit (List (List (Option Int))) → State) → State
  | [], k => k s (.ok [])
  | e :: t, k =>
    withBounds s w e (List.range (kvHeads e)) fun s b =>
      withAllBounds s w t fun s l => k s (match b, l with
        | .ok b, .ok l => .ok (b :: l)
        | _, _ => .error ())

/-- KV_BOUND (R160). -/
def boundWork (s : State) (w : Work) : State :=
  let d := w.desc
  if !engineReads s w then s
  else
    withList s w (dD d) 0 1 fun s first =>
    withList s w (dD d) (dK d) (dM d) fun s entries =>
      let e0 := first.getD 0 []
      if !(entryOk e0 e0 && entries.all fun e => entryOk e e0) then complete s w 3 0x0E 0 0 0
      else
        withAllBounds s w entries fun s r =>
          match r with
          | .error _ => complete s w 3 0x0F 0 0 0
          | .ok bs =>
            let upds := (entries.zip bs).zipIdx.map fun x =>
              ((⟨dD d + 64 * (dK d + x.2), 0, 1, 64, 3⟩ : Tile),
                setEntry x.1.1 (kvCount x.1.1) fun h => raiseBound 0x80 (x.1.2.getD h none))
            putRuns s w 0 upds fun s => completeSt s w 0

/-- KV_BOUND (R160). -/
def execKvBound (k x q : Nat) (s : State) : Res := .next (onWork s k x q 0x23 boundWork)

/-! ### Faults, fences and tests (R137, R138, R163) -/

/-- An engine becomes FENCED (R138; steps 3, 5, 6 and 7 of R99): its descriptors go back to the scheduler, the
fault is recorded and joins the field map. -/
def finishEngine (s : State) (e cause : Nat) : State :=
  let k := e / 4
  let p := pgSe e
  let ctx := (engineWork s e).map fun w => ctxId k w.ctx
  let s := rerun s (fun w => w.part = k && w.unit = 128 + e % 4) true
  let s := { s with
    seFencing := s.seFencing.filter fun f => f.1 ≠ e
    flash := { s.flash with fieldMap := { s.flash.fieldMap with engines := s.flash.fieldMap.engines ++ [e] } } }
  let s := wr s p Reg.SE_FAULT_LAST
    (w64 (cause + (ctx.getD 0) <<< 8 + ctx.isSome.toNat <<< 20 + ctx.isSome.toNat <<< 21 + 1 <<< 63))
  let s := setState s p 6
  raiseEvt (countError s p cause 0x10 1 ctx) p 0

/-- A self-test in progress is abandoned (R163). -/
def abandonTest (s : State) (e : Nat) : State :=
  if rb s (pgSe e) Reg.ENGINE_TEST 1 then
    raiseEvt (wf (wb s (pgSe e) Reg.ENGINE_TEST 1 false) (pgSe e) Reg.ENGINE_TEST 2 2 3) (pgSe e) 3
  else s

/-- A fence of an engine begins (R138): ignored where it is being fenced, FENCED, or not in service. -/
def fenceEngine (s : State) (e cause : Nat) : State :=
  if e < 64 ∧ (pageState s (pgSe e) = 3 ∨ pageState s (pgSe e) = 4) ∧ !(s.seFencing.any fun f => f.1 = e) then
    abandonTest { s with seFencing := s.seFencing ++ [(e, cause)] } e
  else s

/-- ENGINE_FAULT (R137, R138): causes 0x01, 0x02 and 0x04. -/
def execEngineFault (e cause : Nat) (s : State) : Res :=
  .next (if cause = 1 ∨ cause = 2 ∨ cause = 4 then fenceEngine s e cause else s)

/-- SE_STALL (R137, R183): no progress for 2^20 island cycles while not waiting on memory, as an engine does whose descriptor
is held on a translation fault. -/
def execSeStall (e : Nat) (s : State) : Res := .next (if (engineWork s e).any heldPhase then s else fenceEngine s e 3)

/-- ENGINE_FENCE (R163): the OPERATOR fences an engine in READY or QUIESCED. -/
def execEngineFence (fn e : Nat) (s : State) : Res :=
  .next (withOperator s fn (pgSe e) Reg.ENGINE_FENCE fun s =>
    guarded s (pgSe e) (decide (pageState s (pgSe e) = 3 ∨ pageState s (pgSe e) = 4)) fun s => fenceEngine s e 7)

/-- ENGINE_FENCE_DRAINED (R138): the fenced engine's last write is acknowledged. -/
def execEngineFenceDrained (e : Nat) (s : State) : Res :=
  .next (match s.seFencing.find? fun f => f.1 = e with
    | some f => finishEngine s e f.2
    | none => s)

/-- ENGINE_TEST (R163): the OPERATOR starts a self-test, in QUIESCED only, with none running. -/
def execEngineTest (fn e : Nat) (s : State) : Res :=
  .next (withOperator s fn (pgSe e) Reg.ENGINE_TEST fun s =>
    guarded s (pgSe e) (decide (pageState s (pgSe e) = 4) && !rb s (pgSe e) Reg.ENGINE_TEST 1) fun s =>
      wb s (pgSe e) Reg.ENGINE_TEST 1 true)

/-- ENGINE_TEST_DONE (R163): a failure fences the engine with TEST_FAIL. -/
def execEngineTestDone (e : Nat) (pass : Bool) (s : State) : Res :=
  .next (if rb s (pgSe e) Reg.ENGINE_TEST 1 then
      let s := wf (wb s (pgSe e) Reg.ENGINE_TEST 1 false) (pgSe e) Reg.ENGINE_TEST 2 2 (if pass then 1 else 2)
      let s := raiseEvt s (pgSe e) 3
      if pass then s else finishEngine s e 8
    else s)

end Sys2Proof.Machine
end

