-- ==== Sys2Proof/Machine/Errors.lean ====
section
/-!
DEFINITION. The error collector, hangs, jobs, crash dumps and the whole-device reset (R411 to R434, R487 to R491).
-/

namespace Sys2Proof.Machine

/-! ### Crash dumps (R431, R432) -/

/-- A register may appear in a dump: headers; blocks whose OWNER is 0xFF; partition pages not under seal; never the REQ
and RESP words of a tenant's secure mailbox. -/
def dumpable (s : State) (a : Nat) : Bool :=
  let p := a / 0x10000
  let off := a % 0x10000
  decide (off < 0x100) ||
    (match ownerPart s p with
     | some k => !sealHeld s k
     | none => !(decide (p = 8) && decide (0x1400 ≤ off)))

/-- The lowest free dump slot. -/
def freeSlot (s : State) : Option Nat := (List.range 3).find? fun i => !(s.err.dumps.any fun d => d.slot = i)

/-- The words of collector entry `i`. -/
def collEntry (s : State) (i : Nat) : List Word := (List.range 4).map fun w => rd s pgErr (Reg.COLL i w)

/-- A dump is written into the lowest free slot, or counted as lost (R431); it is partial where a reset cut the write short. -/
def putDump (s : State) (cause : Nat) (whole : Bool) : State :=
  match freeSlot s with
  | some i =>
    let d : Dump := ⟨i, cause, devIdent s, (rd s pgErr Reg.ERR_TIME).toNat, whole, s.regs.filter fun e => dumpable s e.1,
      (List.range 256).map (collEntry s)⟩
    let s := { s with err := { s.err with dumps := s.err.dumps ++ [d] } }
    let s := wb s pgErr Reg.DUMP_STAT i true
    if whole then raiseEvt s pgErr 4 else s
  | none =>
    countError (wf s pgErr Reg.DUMP_STAT 4 4 (min 15 (rf s pgErr Reg.DUMP_STAT 4 4 + 1))) pgErr 3 0 0 none

/-- A dump written to its end. -/
def writeDump (s : State) (cause : Nat) : State := putDump s cause true

/-- PERST# comes while a dump is being written (R431): the one a whole-device reset asked for, or else the latest. -/
def cutDump (s : State) : State :=
  if s.err.resetting.isSome && s.err.dumpWanted then putDump s 1 false
  else { s with err := { s.err with
    dumps := s.err.dumps.take (s.err.dumps.length - 1) ++
      (s.err.dumps.drop (s.err.dumps.length - 1)).map fun d => { d with whole := false } } }

/-- DUMP_ACK (R432). -/
def execDumpAck (fn : Nat) (v : Word) (s : State) : Res :=
  .next (withWrite s fn pgErr Reg.DUMP_ACK fun s =>
    if bit v 63 then
      let m := fld v 0 3
      let s := { s with err := { s.err with dumps := s.err.dumps.filter fun d => !(m.testBit d.slot) } }
      wf s pgErr Reg.DUMP_STAT 0 3 ((List.range 3).foldl (fun n i =>
        if m.testBit i || !(rb s pgErr Reg.DUMP_STAT i) then n else n + 2 ^ i) 0)
    else s)

/-! ### The collector (R413 to R416) -/

/-- Entry `i` holds the key of a report. -/
def holdsKey (s : State) (r : Report) (i : Nat) : Bool :=
  rb s pgErr (Reg.COLL i 0) 63 && decide (rf s pgErr (Reg.COLL i 0) 0 11 = r.origin) &&
    decide (rf s pgErr (Reg.COLL i 0) 16 8 = r.code)

/-- The entry a new report takes (R413): the lowest free one below 240, then for a DEVICE report one of the last 16. -/
def entryFor (s : State) (r : Report) : Option Nat :=
  let free (i : Nat) : Bool := !(rb s pgErr (Reg.COLL i 0) 63)
  match (List.range 240).find? free with
  | some i => some i
  | none => if r.cls = 3 then ((List.range 16).map (240 + ·)).find? free else none

/-- W0 and W1 of a new entry (R416). -/
def entryWords (s : State) (r : Report) : List Word :=
  let now := rd s pgErr Reg.ERR_TIME
  [ w64 (r.origin % 2048 + (r.code % 256) <<< 16 + (r.status % 256) <<< 24 + (r.cls % 4) <<< 32 +
      (match r.ctx with
       | some c => (c % 4096) <<< 36 + 1 <<< 48
       | none => 0) + 1 <<< 63),
    w64 (r.count + (r.reporter % 2048) <<< 48), now, now ]

/-- The collector takes one report (R413, R414). -/
def collect (s : State) (r : Report) : State :=
  let s := addReg s pgErr Reg.COLL_REPORTS 1
  match (List.range 256).find? (holdsKey s r) with
  | some i =>
    let s := wf s pgErr (Reg.COLL i 1) 0 48 (min (2 ^ 48 - 1) (rf s pgErr (Reg.COLL i 1) 0 48 + r.count))
    wr s pgErr (Reg.COLL i 3) (rd s pgErr Reg.ERR_TIME)
  | none =>
    match entryFor s r with
    | some i =>
      let s := raiseEvt (wrWords s pgErr (Reg.COLL i 0) (entryWords s r)) pgErr 0
      if r.cls = 3 then writeDump (queueIbi (raiseEvt s pgErr 5) 1) 2 else s
    | none =>
      let first := !(rb s pgErr Reg.COLL_STAT 16)
      let s := wb (addReg s pgErr Reg.COLL_LOST 1) pgErr Reg.COLL_STAT 16 true
      if first then raiseEvt (countError s pgErr 1 0 0 none) pgErr 1 else s

/-- ERROR_REPORT (R412, R413, R433): the report that has waited longest reaches the collector.  One that arrives with bad parity
records REPORT_PARITY and still waits, for no report is dropped (DESIGN CHOICE, log entry 63). -/
def execErrorReport (badParity : Bool) (s : State) : Res :=
  .next (if badParity then (if s.err.reports.isEmpty then s else countError s pgErr 4 0 3 none) else match s.err.reports with
    | [] => s
    | r :: t => collect { s with err := { s.err with reports := t } } r)

/-- COLL_CLEAR (R415): one entry or every entry is freed. -/
def execCollClear (fn : Nat) (v : Word) (s : State) : Res :=
  .next (withWrite s fn pgErr Reg.COLL_CLEAR fun s =>
    if bit v 63 then
      let s := wb s pgErr Reg.COLL_STAT 16 false
      if bit v 62 then resetRegs s pgErr (Reg.COLL 0 0) (Reg.COLL 256 0)
      else resetRegs s pgErr (Reg.COLL (fld v 0 8) 0) (Reg.COLL (fld v 0 8 + 1) 0)
    else s)

/-! ### Hangs and teardown (R418 to R421) -/

/-- A descriptor whose age is timed (R418): on a core or an engine, or the scheduler's MIGRATE copy. -/
def timed (w : Work) : Bool :=
  decide (w.unit < 132) || (decide (dOp w.desc = 0x55) && decide (dOpf w.desc % 4 = 1))

/-- HANG (R418, R434): a descriptor is older than `ERR_CFG.HANG_MS`; `waitPage` is the destination page of its oldest
unanswered request. -/
def execHang (k x q waitPage : Nat) (s : State) : Res :=
  .next (match s.work.find? fun w => w.part = k && w.ctx = x && w.seq = q && timed w with
    | none => s
    | some w =>
      if rf s pgErr Reg.ERR_CFG 16 16 = 0 ∨ 16 ≤ k then s
      else
        let held := match w.phase with
          | .held _ | .heldNew => true
          | _ => false
        let origin := if held then pgMf k else waitPage
        let s := countErrorAt s (pgPart k) 0x40 5 1 (some (ctxId k x)) origin
        let s := wr s (pgPart k) Reg.HANG_LAST (w64 (ctxId k x + dOp w.desc <<< 16 + w.unit <<< 24 + (q % 2 ^ 32) <<< 32))
        let s := wr s (pgPart k) Reg.HANG_WAIT (w64 (origin % 2048 + held.toNat <<< 15 + 1 <<< 63))
        let s := raiseEvt (raiseEvt s (pgPart k) 11) pgErr 2
        if rb s pgErr Reg.ERR_CFG 0 then abortCtx s k x 5 false else s)

/-- TEARDOWN_STUCK (R421): a dead context's counter has not reached zero, and only a reset frees the context. -/
def execTeardownStuck (k x : Nat) (s : State) : Res :=
  .next (if k < 16 ∧ x < 256 ∧ ctxDead s k x ∧ !(s.err.stuck.contains (k, x)) ∧ rf s (pgPart k) (Reg.CTX_OUT x) 0 24 ≠ 0 then
      countError { s with err := { s.err with stuck := s.err.stuck ++ [(k, x)] } } (pgPart k) 0x42 0 3 (some (ctxId k x))
    else s)

/-! ### Jobs (R422 to R424) -/

/-- A partition is under reset, so its members take PARTNER_RESET (R424). -/
def underReset (s : State) (k : Nat) : Bool := partState s k = 6 || partState s k = 1

/-- A member context is aborted by its job, and reported with the page of the triggering unit (R424). -/
def abortMember (s : State) (page k x : Nat) : State :=
  if ctxState s k x = 0 ∨ ctxDead s k x then s
  else
    let st := if underReset s k then 0x0D else 0x0E
    countErrorAt (abortCtx s k x st true) (pgPart k) 0x41 st 1 (some (ctxId k x)) page

/-- Every global barrier of job `j` ends its generation, and no waiter completes (R424). -/
def jobBarrierEnd (s : State) (j : Nat) : State :=
  (List.range 32).foldl
    (fun s g =>
      let r := barReg true 0 g
      if rf s r.1 r.2 48 8 = j then
        let s := wf (wf s r.1 r.2 16 16 0) r.1 r.2 32 16 (rf s r.1 r.2 32 16 + 1)
        { s with barMarks := s.barMarks.filter fun m => m ≠ (16, g) }
      else s) s

/-- Job `j` is aborted with a cause, by a page (R423, R424, R433). -/
def abortJob (s : State) (j cause page : Nat) : State :=
  let s := (jobMembers s j).foldl (fun s m => abortMember s page m.1 m.2) s
  let s := jobBarrierEnd s j
  let off := Reg.JOB j
  let s := wf (wf s pgErr off 16 8 cause) pgErr off 32 32 (rf s pgErr off 32 32 + 1)
  raiseEvt (addReg s pgErr Reg.JOB_ABORTS 1) pgErr 3

/-- JOB_ABORT_CMD (R423): the OPERATOR's trigger; job 0 is rejected. -/
def execJobAbortCmd (fn j : Nat) (s : State) : Res :=
  .next (withWrite s fn pgErr Reg.JOB_ABORT_CMD fun s =>
    guarded s pgErr (decide (1 ≤ j) && decide (j ≤ 255)) fun s => triggerJob s j 5 pgErr)

/-- JOB_ABORT (R423, R424): the triggers of a job cause one abort, and the lowest cause names it. -/
def execJobAbort (j : Nat) (s : State) : Res :=
  .next (match s.err.jobTriggers.filter fun t => t.1 = j with
    | [] => s
    | t :: ts =>
      let best := ts.foldl (fun b u => if u.2.1 < b.2.1 then u else b) t
      let s := { s with err := { s.err with jobTriggers := s.err.jobTriggers.filter fun t => t.1 ≠ j } }
      abortJob s j best.2.1 best.2.2)

/-! ### What resets keep (R41, R430) -/

/-- A block of the always-on management island, which a whole-device reset leaves running (R417, R425). -/
def alwaysOn : Block → Bool
  | .devinfo | .lc | .sec | .err | .evr | .i3c | .mbx | .cvu => true
  | _ => false

/-- What a register holds after the islands are reset (R41, R430): the header's evidence and OWNER stay, LOCK clears, a
page is OFF with ENABLE and QUIESCE clear unless it is FENCED or fixed; sticky and always-on registers stay. -/
def afterReset (a : Nat) (v : Word) : Option Word :=
  let p := a / 0x10000
  let off := a % 0x10000
  match blockOf p with
  | none => none
  | some b =>
    if off = Reg.LOCK then none
    else if fixedPage p then some v
    else if off = Reg.PAGE_CTL then none
    else if off = Reg.PAGE_STAT then (if fld v 0 4 = 6 then some (v &&& 0xF) else none)
    else if off < 0x100 ∨ alwaysOn b then some v
    else if stickyReg b off then some (if b = .pwr ∧ off = Reg.PWR_STAT then v &&& 1 else v)
    else none

/-- Fences under way end, self-tests are abandoned, and banks that wait for a reset are replaced. -/
def settleUnits (s : State) : State :=
  let s := s.fencing.foldl (fun s f => drainFence s f.1 f.2.1 f.2.2.1) s
  let s := (List.range 128).foldl endTest (s.seFencing.foldl (fun s f => finishEngine s f.1 f.2) s)
  (List.range 16).foldl applyBanks s

/-- The lists beside the registers after the islands are reset (R430): what is in flight is gone, repair tables, spares,
deal tables and sensors that failed stay. -/
def afterResetLists (s : State) : State :=
  { s with
    pcie := { s.pcie with cfg := List.replicate 17 cfgReset, wire := false, link := false, recovery := false,
                          ide := List.replicate 3 ⟨[[], []], none⟩ }
    mbx := []
    i3c := { s.i3c with staging := zeroBytes 256 }
    sec := ⟨none, [], List.replicate 4 none, [], List.replicate 17 spdmReset⟩
    ten := ⟨[], [], [], [], [], []⟩
    chans := List.replicate 32 chanReset
    pwr := { State.reset.pwr with failed := s.pwr.failed, tripDue := s.pwr.tripDue }
    work := []
    hbm := { s.hbm with ce := [], wc := [], inject := [], acts := [], refreshes := [], patrol := List.replicate 8 0 }
    quay := { s.quay with replacing := [], inject := [], strict := [] }
    fab := { s.fab with commits := [], routes := [], packets := [], ports := [], served := [], casts := [], tokens := [], asleep := [], clock := 0, used := [], rotate := [], laneErrs := [] }
    heldPorts := []
    fetchHeld := []
    holds := []
    turns := []
    xlat := State.reset.xlat
    coh := { State.reset.coh with lost := s.coh.lost.filter fun k => clusterFenced s k }
    fencing := []
    seFencing := []
    slots := []
    barMarks := []
    siteReqs := []
    sites := s.sites.map fun x => { siteReset with modStat := x.modStat, lostHalves := x.lostHalves, unknown := x.unknown } }

/-- The boot state when the ROM starts (R27, R430, R481); a third boot loop is told by the count. -/
def romStart (s : State) (warm : Bool) : State :=
  let b := s.boot
  { s with boot := { State.reset.boot with
      phase := .rom, warm := warm, sensed := true, lostRails := b.lostRails, lostSiteRails := b.lostSiteRails
      holdPerst := b.holdPerst, store := b.store } }

/-- Every page that was not OFF or FENCED shows STATE_CHANGE as it passes to OFF (R36). -/
def markStates (s : State) (was : List Nat) : State := was.foldl (fun s p => raiseEvt s p 61) s

/-- Every island but the always-on parts is reset (R27, R398, R400, R428, R430, R438, R454). -/
def islandReset (s : State) : State :=
  let s := settleUnits s
  let was := allPages.filter fun p => !(fixedPage p) && decide (pageState s p ≠ 0) && decide (pageState s p ≠ 6)
  let s := (List.range 17).foldl (fun s f => clearMbx (clearMbx s true f) false f) s
  let s := { s with regs := sparseKeep regReset afterReset s.regs }
  let s := afterResetLists s
  let s := wr (wr s pgSec Reg.SEC_LAST 0) pgSec Reg.GEOMETRY (w64 s.fuse.geometry)
  let s := updIso (markStates s was)
  { s with err := { s.err with jobTriggers := [], stuck := [], wdogTick := none, resetting := none, dumpWanted := false } }

/-! ### Whole-device reset (R428) -/

/-- A whole-device reset begins: DMA stops, every job and every context is aborted, every site is reset; the rest waits
for the drain. -/
def startReset (s : State) (cause : Nat) (dump : Bool) : State :=
  if s.err.resetting.isSome then s
  else
    let s := (List.range 32).foldl (fun s c => resetChan s c false) s
    let jobs := ((List.range 255).map (· + 1)).filter fun j => !(jobMembers s j).isEmpty
    let s := jobs.foldl (fun s j => abortJob s j 2 pgErr) s
    let s := (List.range 16).foldl (fun s k => (openCtxs s k).foldl (fun s x => abortCtx s k x 0x0E true) s) s
    let s := (List.range 4).foldl (fun s t => if siteAdmitted s t then resetSite s t else s) s
    { s with err := { s.err with resetting := some cause, dumpWanted := dump } }

/-- The OPERATOR's write of `DEV_RESET`: reached on the recovery path too (R467). -/
def resetWrite (s : State) (fn : Nat) (k : State → State) : State :=
  if s.boot.phase = .recovery ∧ fn = 0 ∧ barOpen s 0 then k s else withWrite s fn pgErr Reg.DEV_RESET k

/-- DEV_RESET (R428, R433). -/
def execDevReset (fn : Nat) (v : Word) (s : State) : Res :=
  .next (resetWrite s fn fun s =>
    if bit v 63 then guarded s pgErr (decide (fld v 0 16 = 0xDE5E)) fun s => startReset s 1 (bit v 16) else s)

/-- DEVICE_RESET_DRAINED (R202, R428, R431, R433): the write-combining buffers have drained; the dump is written unless
PERST# asked for the reset; the islands are reset and the ROM starts. -/
def execDeviceResetDrained (s : State) : Res :=
  .next (match s.err.resetting with
    | none => s
    | some cause =>
      let dump := s.err.dumpWanted && decide (cause ≠ 2)
      let s := wcFlush s
      let s := if dump then writeDump s 1 else s
      let n := rf s pgErr Reg.RESET_CAUSE 32 32 + 1
      let s := wr (romStart (islandReset s) true) pgErr Reg.RESET_CAUSE (w64 (cause + n <<< 32))
      nextEpoch s)

/-- REC_RESET (R467, R470): one byte 0xA5, on the recovery path or after a committed load. -/
def execRecReset (b : Byte) (s : State) : Res :=
  .next (i3cCommand s 0x21 1 fun s =>
    if b = 0xA5 ∧ (s.boot.phase = .recovery ∨ s.boot.loadState = 2) then startReset s 1 false else s)

/-- WDOG_TUINER (R429, R431, R471): a missed kick; a second expiry within 10 s resets the whole device, and counts toward
the boot loop before bring-up has ended. -/
def execWdogTuiner (second : Bool) (s : State) : Res :=
  .next (if tuinerRuns s then
      let s := wf (wb s pgErr Reg.WDOG 0 true) pgErr Reg.WDOG 32 32 (rf s pgErr Reg.WDOG 32 32 + 1)
      let s := writeDump (countError s pgErr 2 0 3 none) 3
      if second then
        let s := if s.boot.phase = .ready then s else { s with err := { s.err with wdogBoots := s.err.wdogBoots + 1 } }
        startReset s 3 false
      else s
    else s)

/-! ### Pins and rails (R486 to R492) -/

/-- PERST_ASSERT (R350, R428, R431, R487): after PWR_OK a falling edge resets the whole device, and bring-up then waits for the
release; with the link in L2 and every function in D3hot the package is in D3cold.  `cut` says that a dump was being written. -/
def execPerstAssert (cut : Bool) (s : State) : Res :=
  .next (if s.board.perst then s
    else
      let s := if cut then cutDump s else s
      let s := { s with board := { s.board with perst := true } }
      if s.boot.phase = .off then s
      else
        let cold := s.pcie.l2 && (List.range 17).all fun f => decide (dState s f = 3)
        let s := if s.pcie.link then pcieDown s else s
        let s := { s with
          pcie := { s.pcie with d3cold := cold, l2 := false }
          boot := { s.boot with holdPerst := true }
          err := { s.err with dumpWanted := false } }
        startReset s 2 false)

/-- PERST_RELEASE (R350, R476, R487): the link may train and bring-up may go on. -/
def execPerstRelease (s : State) : Res :=
  .next { s with
    board := { s.board with perst := false, wake := false }
    pcie := { s.pcie with d3cold := false }
    boot := { s.boot with holdPerst := false } }

/-- The repair tables as they were saved (R215): repairs that had not ended are in none of them, and the reserve rows they had
taken are free again. -/
def savedTables (h : Hbm) : Hbm :=
  let left (key : Nat) : Nat := h.pool.countP fun e => !e.valid && decide ((e.m * 32 + e.pc) * 64 + e.bank = key)
  { State.reset.hbm with
    pool := h.pool.filter fun e => e.valid
    spares := h.spares.map fun t => (t.1, t.2 - left t.1)
    hard := h.hard
    retired := h.retired }

/-- Power is off: what R430 does not keep through a loss of 1.8 V is gone.  Fuses, flash with what Tuiner saves there
(R215, R455, R456), host memory, the board's rails and `PWR_CYCLES` remain. -/
def powerLost (s : State) : State :=
  { State.reset with
    regs := s.regs.filter fun e => decide (e.1 = regAddr 0 Reg.PWR_CYCLES)
    hostMem := s.hostMem
    fuse := s.fuse
    flash := s.flash
    board := { s.board with pwrOk := false, thermtrip := false, wake := false }
    evr := { State.reset.evr with mirror := s.evr.mirror, mirrorBase := s.evr.mirrorBase, savedSeconds := s.evr.savedSeconds }
    hbm := savedTables s.hbm
    out := s.out
    free := s.free
    pending := s.pending }

/-- POWER_LOSS (R49, R403, R430, R488): the operand says where among the security core's fuse writes the power fails. -/
def execPowerLoss (cut : PowerCut) (s : State) : Res :=
  .next (powerLost (match cut with
    | .none => s
    | .counted => burnOnly s
    | .commit token bits => cutCommit s (token || decide (bits ≠ 0)) bits))

/-- Every island is held in reset: nothing responds, and evidence and sticky fields stay (R488, R491). -/
def holdReset (s : State) : State :=
  let s := islandReset s
  { s with boot := { State.reset.boot with
      phase := .off, sensed := s.boot.sensed, lostRails := s.boot.lostRails, lostSiteRails := s.boot.lostSiteRails
      store := s.boot.store } }

/-- PWR_OK_FALL (R488, R492): the hub holds every island in reset as at power-off, and THERMTRIP# is released. -/
def execPwrOkFall (s : State) : Res :=
  .next (if s.board.pwrOk then
      let s := holdReset s
      { s with
        board := { s.board with pwrOk := false, thermtrip := false }
        pwr := { s.pwr with tripDue := false } }
    else s)

/-- SYSCLK_STOP (R491): every island is held in reset with no drain. -/
def execSysclkStop (s : State) : Res :=
  .next (if s.board.sysclk then
      let s := if s.boot.phase = .off then s else holdReset s
      { s with board := { s.board with sysclk := false } }
    else s)

/-- SYSCLK_RETURN (R491): the ROM starts as at power-on, and `RESET_CAUSE` reads 0. -/
def execSysclkReturn (s : State) : Res :=
  .next (if s.board.sysclk then s
    else
      let s := { s with board := { s.board with sysclk := true } }
      if s.board.pwrOk then wf (romStart s false) pgErr Reg.RESET_CAUSE 0 4 0 else s)

/-- A part loses a rail in service, and only a whole-device reset returns it (R489). -/
def railFault (s : State) (p : Nat) : State := { s with boot := { s.boot with railFaults := s.boot.railFaults ++ [p] } }

/-- SITE_RAIL_LOST (R489): an ADMITTED site enters FAULT with LINK_LOST. -/
def execSiteRailLost (t : Nat) (s : State) : Res :=
  .next (if t < 4 then
      let s := { s with
        board := { s.board with siteRails := s.board.siteRails &&& (0xF ^^^ (1 <<< t)) }
        boot := { s.boot with lostSiteRails := s.boot.lostSiteRails ||| (1 <<< t) } }
      if siteAdmitted s t then siteFault (railFault s (pgSite t)) t 7 else s
    else s)

/-- The contents of a stack are lost with its rails (R350): its memory is as before power-on (log entry 3). -/
def loseStack (s : State) (m : Nat) : State :=
  (List.range 4).foldl (fun s row => zeroRange s (sideBase (4 * row + m % 4) m) sideSize) s

/-- RAIL_LOST (R209, R350, R489): a stack in service puts its controller in FAULT with RAIL_LOST. -/
def execRailLost (m : Nat) (s : State) : Res :=
  .next (if m < 8 then
      let s := { s with
        board := { s.board with hbmRails := s.board.hbmRails &&& (0xFF ^^^ (1 <<< m)) }
        boot := { s.boot with lostRails := s.boot.lostRails ||| (1 <<< m) } }
      let s := loseStack s m
      if pageState s (pgMc m) = 3 ∨ pageState s (pgMc m) = 4 then
        setState (countError (railFault s (pgMc m)) (pgMc m) 9 0 3 none) (pgMc m) 5
      else s
    else s)

/-- RAIL_RESTORED (R486, R489): a rail is in range again. -/
def execRailRestored (site : Bool) (i : Nat) (s : State) : Res :=
  .next (if site then (if i < 4 then { s with board := { s.board with siteRails := s.board.siteRails ||| (1 <<< i) } } else s)
    else if i < 8 then { s with board := { s.board with hbmRails := s.board.hbmRails ||| (1 <<< i) } } else s)

/-- TRAINING_FAIL (R220, R486): a stack whose rails are not in range cannot be trained, and its controller enters FAULT. -/
def execTrainingFail (m : Nat) (s : State) : Res :=
  .next (if m < 8 ∧ pageState s (pgMc m) = 2 then setState (countError s (pgMc m) 7 0 3 none) (pgMc m) 5 else s)

end Sys2Proof.Machine
end

