-- ==== Sys2Proof/Machine/Boot.lean ====
section
/-!
DEFINITION. Power-on, bring-up and firmware (R25 to R28, R40, R95, R215, R247, R456, R463 to R483).
-/

namespace Sys2Proof.Machine

/-! ### Power-on -/

/-- The audit part, its base and its next number come back from the mirror in flash, and the operating time with them
(R449, R456). -/
def restoreAudit (s : State) : State :=
  let next := s.evr.mirror.foldl (fun n e => max n (e.1 + 1)) s.evr.mirrorBase
  let s := { s with evr := { s.evr with audit := s.evr.mirror, seconds := s.evr.savedSeconds } }
  wr (wr (wr s pgEvr Reg.AUDIT_BASE (w64 s.evr.mirrorBase)) pgEvr Reg.AUDIT_NEXT (w64 next)) pgEvr Reg.AUDIT_MIRRORED (w64 next)

/-- POWER_ON (R27, R35, R436, R486, R487): PWR_OK rises; straps are sampled, fuses sensed, and the ROM starts. -/
def execPowerOn (strap : Nat) (perst : Bool) (s : State) : Res :=
  .next (if s.board.pwrOk || !s.board.sysclk then s
    else
      let s := { s with board := { s.board with pwrOk := true, strap := strap % 16, perst := perst } }
      let s := wf s 0 Reg.PWR_CYCLES 0 32 (rf s 0 Reg.PWR_CYCLES 0 32 + 1)
      let s := [0, 1, 2, 4, 5].foldl (fun s p => wf s p Reg.PAGE_STAT 0 4 3) s
      let s := wf s pgI3c Reg.I3C_STAT 8 4 strap
      let s := wr s pgSec Reg.GEOMETRY (w64 s.fuse.geometry)
      let s := wr s pgErr Reg.RESET_CAUSE 0
      let s := wr s pgErr Reg.WDOG 0
      romStart (restoreAudit { s with err := { s.err with wdogBoots := 0 } }) false)

/-! ### The image (R463 to R465) -/

/-- `n` bytes of the image region of the flash; what has not been written since an erase reads 0xFF. -/
def imageAt (img : Bytes) (off n : Nat) : Bytes :=
  let t := (img.drop off).take n
  t ++ List.replicate (n - t.length) 0xFF

/-- A number in the image region. -/
def imageNum (img : Bytes) (off n : Nat) : Nat := bytesNat (imageAt img off n)

/-- HEADER (R464, R465): MAGIC, LENGTH, FW_IF and the zero bytes. -/
def headerOk (img : Bytes) : Bool :=
  let len := imageNum img 4 4
  decide (imageNum img 0 4 = 0x5455494E) && decide (264 ≤ len) && decide (len ≤ 0x1000000) && decide (len % 8 = 0) &&
    decide (1 ≤ imageNum img 10 1) && decide (imageNum img 12 4 = 0) && decide (imageNum img 80 112 = 0)

/-- Checks 5 to 9 of R465 on an image that reads: the recovery cause of the first that fails, else 0. -/
def imageCheck (s : State) (img : Bytes) : Nat :=
  if !(headerOk img) then 2
  else if !(edVerify Config.vendorKey (sha512 (imageAt img 0 192)) (imageAt img 192 64)) then 3
  else if sha512 (imageAt img 256 (imageNum img 4 4 - 256)) ≠ imageAt img 16 64 then 4
  else if imageNum img 8 2 < s.fuse.secVersion then 5
  else
    match pairing s with
    | some i => if (imageNum img 11 1).testBit i then 0 else 6
    | none => 6

/-- The recovery cause the ROM finds (R465), 0 where every check holds. -/
def bootCause (s : State) (flashAnswers : Bool) : Nat :=
  if !(s.fuse.hubReads && s.fuse.baseReads) || (pairing s).isNone then 8
  else if lcState s = 0 then 9
  else if 3 ≤ s.err.wdogBoots then 7
  else if !flashAnswers then 1
  else imageCheck s s.boot.store.image

/-- The recovery path is entered (R466, R440): the ROM trains the link and asks for an image. -/
def enterRecovery (s : State) (cause : Nat) : State :=
  queueIbi { s with
    boot := { s.boot with phase := .recovery, cause := cause }
    pcie := { s.pcie with recovery := true } } 4

/-- How many audit entries of the audit part are of a code, with a setting where it is COUNT_USED (R450). -/
def auditCount (s : State) (code : Nat) (setting : Nat) : Nat :=
  s.evr.audit.countP fun e =>
    decide (fld (e.2.getD 1 0) 48 6 = code) && (decide (code ≠ 1) || decide (fld (e.2.getD 2 0) 0 16 = setting))

/-- The counted settings in the order of OTP_REMAIN, with the counts used; unlock tokens count as commits to
TEST_UNLOCKED (R47, R49, R456). -/
def countsUsed (s : State) : List (Nat × Nat) :=
  [(1, s.fuse.geometryUsed), (2, s.fuse.secVersionUsed), (3, s.fuse.admitUsed), (4, s.fuse.ownerKeyUsed),
    (5, tokensBurnt s), (6, s.fuse.debugEpochUsed)]

/-- One AUDIT_GAP for each setting whose fused count exceeds the entries held (R456). -/
def auditGaps (s : State) : State :=
  (countsUsed s).foldl
    (fun s e =>
      let held := if e.1 = 5 then auditCount s 3 0 else auditCount s 1 e.1
      if held < e.2 then audit s 0x0D [w64 (e.1 + (e.2 - held) <<< 16)] else s) s

/-- ROM_BOOT (R394, R403, R406, R456, R465, R466): the image is copied once into the working store; intents, certificates,
the checks of the copy; then Tuiner runs, or the recovery path. -/
def execRomBoot (flashAnswers : Bool) (s : State) : Res :=
  .next (if s.boot.phase = .rom then
      let s := if flashAnswers ∧ lcState s ≠ 0x60 then
          { s with boot := { s.boot with store := { s.boot.store with image := s.flash.image } } }
        else s
      let s := if flashAnswers then checkCerts (intentScan s) else setLcBoot (wr s pgLc Reg.LC_STATE 0) 0 0
      let s := if s.boot.warm then s else auditGaps s
      if lcState s = 0x60 then { s with boot := { s.boot with phase := .scrap } }
      else
        let c := bootCause s flashAnswers
        if c ≠ 0 then enterRecovery s c
        else
          let img := s.boot.store.image
          { s with
            boot := { s.boot with
              phase := .settings
              fwIf := imageNum img 10 1
              imageVersion := imageNum img 8 2
              akVersion := s.fuse.secVersion
              imageDigest := sha512 (imageAt img 0 (imageNum img 4 4)) }
            err := { s.err with wdogTick := some (rd s pgErr Reg.ERR_TIME).toNat } }
    else s)

/-! ### Tuiner's steps (R472 to R481) -/

/-- Tuiner moves on to a phase. -/
def setPhase (s : State) (ph : BootPhase) : State := { s with boot := { s.boot with phase := ph } }

/-- Bring several pages into service. -/
def pagesUp (s : State) (l : List Nat) : State := l.foldl pageUp s

/-- SETTINGS (R474, R481, R487): the parts whose record cannot be used are to be trained fully; a warm start uses the
settings in force that the working store holds, but for a rail that was removed.  It waits while PERST# holds bring-up. -/
def execSettings (s : State) : Res :=
  .next (if s.boot.phase = .settings ∧ s.boot.holdPerst = false then
      let need (has kept lost : Nat) (n : Nat) : Nat :=
        maskOf ((List.range n).filter fun i =>
          !(has.testBit i) && (!s.boot.warm || !(kept.testBit i) || lost.testBit i))
      let s := { s with boot := { s.boot with
        fullHbm := need s.flash.stackRecords s.boot.store.hbmSet s.boot.lostRails 8
        fullSites := need s.flash.siteRecords s.boot.store.siteSet s.boot.lostSiteRails 4
        fullPcie := !s.flash.pcieRecord && !s.boot.warm } }
      setPhase (pagesUp s ([pgPwr, pgI3c, 8, 9] ++ (List.range 8).map pgCvu)) .training
    else s)

/-- A block begins to train: ENABLE set, through RESET to TRAINING (R35). -/
def trainPage (s : State) (p : Nat) : State := setState (wb s p Reg.PAGE_CTL 0 true) p 2

/-- A site comes up (R294, R296, R486): SB_TRAIN, then IDENTIFY where it answers, else EMPTY. -/
def trainSite (s : State) (t : Nat) (up : Bool) : State :=
  let s := trainStart (wb s (pgSite t) Reg.PAGE_CTL 0 true) t
  if up && s.board.siteRails.testBit t then emit (moveSite s t 2 2) (.site t "ID_REQ" [0] [])
  else moveSite s t 3 6

/-- TRAINING_PHASE (R204, R296, R472 to R476, R481, R486): a record that fails its short check sends its part to full
training, whose new record goes to flash; stacks with their rails are READY, sites begin identification, and the endpoint
waits for its link.  `shortFail` names stacks 0 to 7, sites at 8 to 11, the link at 12. -/
def execTrainingPhase (shortFail sidebandUp : Nat) (s : State) : Res :=
  .next (if s.boot.phase = .training then
      let full := s.boot.fullHbm ||| shortFail % 256
      let sites := s.boot.fullSites ||| shortFail / 256 % 16
      let link := s.boot.fullPcie || shortFail.testBit 12
      let rails := s.board.hbmRails
      let s := { s with
        boot := { s.boot with
          fullHbm := full, fullSites := sites, fullPcie := link
          store := { s.boot.store with
            hbmSet := s.boot.store.hbmSet ||| (rails % 256), siteSet := s.boot.store.siteSet ||| (sidebandUp % 16) }
          lostRails := s.boot.lostRails &&& (0xFF ^^^ (rails % 256))
          lostSiteRails := s.boot.lostSiteRails &&& (0xF ^^^ (s.board.siteRails % 16)) }
        flash := { s.flash with
          stackRecords := s.flash.stackRecords ||| (full &&& rails)
          siteRecords := s.flash.siteRecords ||| (sites &&& sidebandUp)
          pcieRecord := s.flash.pcieRecord || link } }
      let s := (List.range 8).foldl
        (fun s m => let s := trainPage s (pgMc m); if rails.testBit m then setState s (pgMc m) 3 else s) s
      let s := (List.range 4).foldl (fun s t => trainSite s t (sidebandUp.testBit t)) s
      let s := trainPage s pgPcie
      setPhase (if s.pcie.link then setState s pgPcie 3 else s) .defects
    else s)

/-- Saved pool rows whose bank still has its hard row become hard repairs; the rest stay in the pool (R215). -/
def hardRepairs (s : State) : State :=
  s.hbm.pool.foldl
    (fun s e =>
      if s.hbm.hard.any fun h => h.1 = e.m && h.2.1 = e.pc && h.2.2.1 = e.bank then s
      else { s with hbm := { s.hbm with
        hard := s.hbm.hard ++ [(e.m, e.pc, e.bank, e.row)]
        pool := s.hbm.pool.filter fun q => q ≠ e } }) s

/-- The tables of a controller come back, without the retired pages that the OPERATOR's list omits (R215). -/
def reloadTables (s : State) : State :=
  let s := hardRepairs s
  let s := if s.flash.badPages.isEmpty then s
    else { s with hbm := { s.hbm with retired := s.hbm.retired.filter fun r => s.flash.badPages.contains r.page } }
  (List.range 8).foldl
    (fun s m => wr s (pgMc m) Reg.MC_RETIRE_COUNT (w64 (s.hbm.retired.countP fun r => r.m = m))) s

/-- Quay banks of the map are served by spares; one that needs a ninth leaves its slice DEGRADED (R228, R229, R237). -/
def applyQuay (s : State) (b : Nat × Nat) : State :=
  let p := pgQuay b.1
  if rb s p Reg.QUAY_BANK_MAP b.2 then s
  else if rf s p Reg.QUAY_SPARE 0 4 < 8 then
    wf (wb s p Reg.QUAY_BANK_MAP b.2 true) p Reg.QUAY_SPARE 0 4 (rf s p Reg.QUAY_SPARE 0 4 + 1)
  else if rb s p Reg.QUAY_SPARE 8 then s
  else raiseEvt (countError (wb s p Reg.QUAY_SPARE 8 true) p 3 0 1 none) p 1

/-- The slices with more than eight failed banks, which Tuiner leaves OFF at power-on (R229). -/
def slicesOff (f : FieldMap) : List Nat :=
  (List.range 16).filter fun k => decide (8 < ((f.quayBanks.filter fun b => b.1 = k).eraseDups).length)

/-- A down module of the map leaves a site that was not fully trained (R299). -/
def applyModule (s : State) (b : Nat × Nat) : State :=
  let t := b.1
  let p := pgSite t
  if s.boot.fullSites.testBit t then s
  else
    let s := setSite s t fun x => { x with modStat := x.modStat.set b.2 (setFld (x.modStat.getD b.2 0) 4 2 0) }
    let s := wb (wb s p Reg.SITE_LINK b.2 false) p Reg.SITE_LINK (16 + b.2) false
    if rf s p Reg.SITE_LINK 32 6 = 0 then s
    else wf s p Reg.SITE_LINK 32 6 (halvesOf (rf s p Reg.SITE_LINK 0 16) (rf s p Reg.SITE_LINK 16 16))

/-- Cache banks of the map are served by spares; a cluster that would need a seventh is FENCED and its partition's domain is
lost (R90, R92). -/
def applyCache (s : State) (b : Nat × Nat) : State :=
  let p := pgCl b.1
  if rb s p Reg.BANK_REMAP b.2 then s
  else if rf s p Reg.BANK_REMAP 48 3 < 6 then
    wf (wb s p Reg.BANK_REMAP b.2 true) p Reg.BANK_REMAP 48 3 (rf s p Reg.BANK_REMAP 48 3 + 1)
  else
    let k := b.1 / 8
    setState { s with coh := { s.coh with lost := if s.coh.lost.contains k then s.coh.lost else s.coh.lost ++ [k] } } p 6

/-- Nothing Tuiner waits for is still training. -/
def trained (s : State) : Bool :=
  ((List.range 8).all fun m => decide (pageState s (pgMc m) ≠ 2)) && (List.range 4).all fun t => decide (pageState s (pgSite t) ≠ 2)

/-- The field map's CRC fails (R478): the map and the tables saved with it are lost, and the error is recorded. -/
def loseMap (s : State) : State :=
  countError { s with
    flash := { s.flash with fieldMap := fieldMapEmpty }
    hbm := { s.hbm with pool := [], spares := [], retired := [] } } pgSec 3 4 0 none

/-- DEFECTS (R215, R228, R264, R299, R478, R481): the union of the factory and field maps, in order; not on a warm start.
`mapOk` says that the field map in flash passes its CRC. -/
def execDefects (mapOk : Bool) (s : State) : Res :=
  .next (if s.boot.phase = .defects ∧ trained s then
      let s :=
        if s.boot.warm then s
        else
          let s := { s with flash := { s.flash with fieldMapOk := mapOk } }
          let s := if mapOk then s else loseMap s
          let f := mapInForce s
          let s := { s with fab := { s.fab with
            down := s.fab.down ++ f.links.eraseDups.filter fun l => !(s.fab.down.contains l)
            spares := if s.fab.spares.isEmpty then f.spares.foldl tallyUp [] else s.fab.spares } }
          let s := f.quayBanks.foldl applyQuay { s with quay := { s.quay with off := slicesOff f } }
          let s := reloadTables s
          f.cacheBanks.foldl applyCache (f.modules.foldl applyModule s)
      setPhase (pagesUp s ((List.range 8).map pgRing ++
        ((List.range 16).filter fun k => !(s.quay.off.contains k)).map pgQuay)) .cores
    else s)

/-! ### The broadcast (R479) -/

/-- A unit's answer to a broadcast command: ROM_CHECK 0, SELF_TEST 1, CLEAR 2. -/
def answer (s : State) (u cmd : Nat) : State :=
  let a := 3 * u + cmd
  { s with boot := { s.boot with answered := if s.boot.answered.contains a then s.boot.answered else s.boot.answered ++ [a] } }

/-- Unit `u` has answered every command of the broadcast: CLEAR alone on a warm start (R479, R481). -/
def answeredAll (s : State) (u : Nat) : Bool :=
  (if s.boot.warm then [2] else [0, 1, 2]).all fun cmd => s.boot.answered.contains (3 * u + cmd)

/-- A unit fails (R137, R479, R482): cores are numbered below 2,176 and engines from there; it joins the field map, unless it is
there, and an engine is FENCED with TEST_FAIL. -/
def unitFails (s : State) (u : Nat) : State :=
  if s.boot.failedUnits.contains u then s
  else
    let m := s.flash.fieldMap
    let known := m.cores.contains u || (decide (2176 ≤ u) && m.engines.contains (u - 2176))
    let s := { s with boot := { s.boot with
      failedUnits := s.boot.failedUnits ++ [u], added := s.boot.added + (if known then 0 else 1) } }
    if 2176 ≤ u then finishEngine s (u - 2176) 8
    else if known then s
    else { s with flash := { s.flash with fieldMap := { s.flash.fieldMap with cores := s.flash.fieldMap.cores ++ [u] } } }

/-- A command of the broadcast is under way, to a unit that exists; ROM_CHECK and SELF_TEST only on a cold start
(R481). -/
def broadcasting (s : State) (u : Nat) (coldOnly : Bool) : Bool :=
  decide (s.boot.phase = .cores) && decide (u < 2240) && !(coldOnly && s.boot.warm)

/-- ROM_CHECK: the value Tuiner holds for the hub stepping. -/
def execRomCheck (u : Nat) (value : Word) (s : State) : Res :=
  .next (if broadcasting s u true then
      let s := answer s u 0
      if value = Config.romCheckValue s.fuse.hubStep then s else unitFails s u
    else s)

/-- SELF_TEST. -/
def execSelfTest (u : Nat) (pass : Bool) (s : State) : Res :=
  .next (if broadcasting s u true then
      let s := answer s u 1
      if pass then s else unitFails s u
    else s)

/-- CLEAR: the unit holds no state between descriptors that the model shows. -/
def execClear (u : Nat) (s : State) : Res := .next (if broadcasting s u false then answer s u 2 else s)

/-- BROADCAST_ANSWER_TIMEOUT: a missing answer is a failure. -/
def execBroadcastAnswerTimeout (u : Nat) (s : State) : Res :=
  .next (if broadcasting s u false && !(answeredAll s u) then unitFails s u else s)

/-- Physical core `j` of cluster `c` is in no defect map and has passed its tests. -/
def coreGood (s : State) (c j : Nat) : Bool :=
  let u := 17 * c + j
  !(s.fuse.badCores.contains u) && !((mapInForce s).cores.contains u) && !(s.boot.failedUnits.contains u)

/-- The map of a cluster (R95, R104, R478): physical core 16 serves the first index whose core does not work; any further
one is DOWN; Tuiner starts the self-test of a spare left over. -/
def buildCluster (s : State) (c : Nat) : State :=
  let bad := (List.range 16).filter fun i => !(coreGood s c i)
  let spare := coreGood s c 16
  let s := (List.range 16).foldl
    (fun s i =>
      if !(bad.contains i) then setMap (setCore s c i 2) c i i false
      else
        let s := setCore s c i 0
        if spare && bad.head? = some i then setMap s c i 16 false else setMap s c i i true) s
  if !spare then setCore s c 16 0
  else if bad.isEmpty then wb (setCore s c 16 5) (pgCl c) Reg.SPARE_TEST 1 true
  else setCore s c 16 2

/-- An engine of the maps is FENCED (R137, R478). -/
def fenceKnown (s : State) (e : Nat) : State :=
  if s.fuse.badEngines.contains e || (mapInForce s).engines.contains e then setState s (pgSe e) 6 else s

/-- CORES (R95, R104, R478, R481): the maps are built, except on a warm start, and the compute pages come up; the commands
and the code that every unit has run came by broadcast (R249, R479), and a unit that has not answered it has failed.  The DMA
channels stay OFF until software enables them (R352). -/
def execCores (s : State) : Res :=
  .next (if s.boot.phase = .cores then
      let s := ((List.range 2240).filter fun u => !(answeredAll s u)).foldl unitFails s
      let s := if s.boot.warm then s
        else (List.range 64).foldl fenceKnown ((List.range 128).foldl buildCluster s)
      let s := castFlits s 0x1D
      let s := pagesUp s ((List.range 128).map pgCl ++ (List.range 64).map pgSe)
      setPhase (pagesUp s ((List.range 16).map pgPart ++ (List.range 16).map pgMf)) .routes
    else s)

/-! ### Boot configuration (R483) -/

/-- The reset values of the fields the record names. -/
def bootDefault : Bytes :=
  [4, 4, 24, 0x5A, 0x64, 6, 1, 0] ++ ((List.range 16).flatMap fun _ => [0x40, 0x80, 0x20]) ++
    ((List.range 4).flatMap fun _ => [0, 32]) ++ zeroBytes 8

/-- Byte `i` of a record. -/
def cfgByte (r : Bytes) (i : Nat) : Nat := leAt r i 1

/-- Every value of a record is in its range (R483). -/
def bootCfgOk (r : Bytes) : Bool :=
  decide (cfgByte r 0 < 8) && decide (1 ≤ cfgByte r 1) && decide (cfgByte r 1 ≤ 15) && decide (1 ≤ cfgByte r 2) &&
    decide (cfgByte r 2 ≤ 168) && decide (60 ≤ cfgByte r 3) && decide (cfgByte r 3 ≤ 105) &&
    decide (cfgByte r 3 < cfgByte r 4) && decide (cfgByte r 4 ≤ 108) && decide (4 ≤ cfgByte r 5) &&
    decide (cfgByte r 5 ≤ 6) && decide (cfgByte r 6 < 2) && decide (cfgByte r 7 = 0) &&
    ((List.range 16).all fun k =>
      let b := cfgByte r (8 + 3 * k)
      let own := cfgByte r (9 + 3 * k)
      let cap := cfgByte r (10 + 3 * k)
      decide (b / 2 % 8 = 0) && decide (1 ≤ b / 16) && decide (0x40 ≤ own) && decide (own ≤ 0xE0) && decide (1 ≤ cap) &&
        decide (cap ≤ 0x80) && decide (own + cap ≤ 256)) &&
    ((List.range 4).all fun t =>
      decide (cfgByte r (56 + 2 * t) < 4) && [4, 8, 12, 16, 24, 32].contains (cfgByte r (57 + 2 * t))) &&
    decide (leAt r 64 8 = 0)

/-- The record's fields are written to their registers (R483). -/
def applyBootCfg (s : State) (r : Bytes) : State :=
  let b := cfgByte r
  let s := (List.range 8).foldl (fun s i => wf s (pgRing i) Reg.RING_CTL 0 1 (b 0)) s
  let s := (List.range 8).foldl
    (fun s m =>
      let p := pgMc m
      wf (wf (wf (wf s p Reg.MC_CFG 0 1 (b 0 / 2)) p Reg.MC_CFG 1 1 (b 0 / 4)) p Reg.MC_CFG 8 4 (b 1)) p Reg.MC_CFG 16 8 (b 2)) s
  let s := wf (wf s pgPwr Reg.THERM_CFG 0 8 (b 3)) pgPwr Reg.THERM_CFG 8 8 (b 4)
  let s := wf (wf s pgPcie Reg.LINK_CTL 0 3 (b 5)) pgI3c Reg.I3C_CFG 0 1 (b 6)
  let s := (List.range 16).foldl
    (fun s k =>
      let p := pgQuay k
      wf (wf (wf (wf s p Reg.QUAY_CFG 0 1 (b (8 + 3 * k))) p Reg.QUAY_CFG 24 4 (b (8 + 3 * k) / 16)) p Reg.QUAY_CFG 8 8
        (b (9 + 3 * k))) p Reg.QUAY_CFG 16 8 (b (10 + 3 * k))) s
  (List.range 4).foldl
    (fun s t =>
      let p := pgSite t
      wf (wf s p Reg.SITE_CFG 0 2 (b (56 + 2 * t))) p Reg.SITE_CFG 8 8 (b (57 + 2 * t))) s

/-- The pages that hold an RWL field (R40). -/
def rwlPages : List Nat :=
  [pgPcie, pgI3c, pgPwr] ++ (List.range 8).map pgMc ++ (List.range 16).map pgQuay ++ (List.range 8).map pgRing ++
    (List.range 4).map pgSite

/-- Every spare that Tuiner tests has ended its test (R104). -/
def sparesTested (s : State) : Bool := (List.range 128).all fun c => decide (coreState s c 16 ≠ 5)

/-- Timings of training: each field at least its value in the table of R204, which training never shortens. -/
def longer (fields : List (Nat × Nat)) (least v : Word) : Word :=
  fields.foldl (fun w f => setFld w f.1 f.2 (max (fld least f.1 f.2) (fld v f.1 f.2))) 0

/-- The fields of `MC_TIMING0` (R219). -/
def timing0Fields : List (Nat × Nat) := (List.range 8).map fun i => (8 * i, 8)

/-- The fields of `MC_TIMING1`. -/
def timing1Fields : List (Nat × Nat) := [(0, 8), (8, 8), (16, 12), (32, 12)]

/-- The boot configuration of a slice sets STRICT: the write completes at once, as no partition runs (R233, R237). -/
def strictEvents (s : State) : State :=
  (List.range 16).foldl (fun s k => if rb s (pgQuay k) Reg.QUAY_CFG 0 then raiseEvt s (pgQuay k) 3 else s) s

/-- ROUTES (R40, R104, R204, R247, R472, R483): route tables, timings of training, ROUTE_MODE, the boot configuration, LOCK. -/
def execRoutes (timing0 timing1 : List Word) (routes : List (Nat × Nat × Nat)) (s : State) : Res :=
  .next (if s.boot.phase = .routes ∧ sparesTested s then
      let table := (routes.filter fun e => decide (e.2.2 % 4096 ≠ 0) && routeOk s (e.1 % 64) (e.2.1 % 64) (e.2.2 % 4096)).map
        fun e => (e.1 % 64 * 64 + e.2.1 % 64, e.2.2 % 4096)
      let s := { s with fab := { s.fab with routes := table } }
      let s := wb s (pgRing 0) Reg.FAB_CTL 0 true
      let s := (List.range 8).foldl
        (fun s m =>
          let s := match timing0[m]? with
            | some v => wr s (pgMc m) Reg.MC_TIMING0 (longer timing0Fields (rd s (pgMc m) Reg.MC_TIMING0) v)
            | none => s
          match timing1[m]? with
          | some v => wr s (pgMc m) Reg.MC_TIMING1 (longer timing1Fields (rd s (pgMc m) Reg.MC_TIMING1) v)
          | none => s) s
      let s := strictEvents (applyBootCfg s (s.flash.bootConfig.getD bootDefault))
      let s := rwlPages.foldl (fun s p => wb s p Reg.LOCK 0 true) s
      updIso (setPhase s .scrub)
    else s)

/-- SCRUB_PHASE (R373, R472): every partition in AVAIL is enabled and scrubbed. -/
def execScrubPhase (s : State) : Res :=
  .next (if s.boot.phase = .scrub then
      (List.range 16).foldl (fun s k => if available s k && decide (partState s k = 0) then beginScrub s k else s) s
    else s)

/-- Every partition in AVAIL is READY or in FAULT (R480). -/
def partsUp (s : State) : Bool :=
  (List.range 16).all fun k => !(available s k) || decide (partState s k = 2) || decide (partState s k = 5)

/-- BRINGUP_END (R471, R480). -/
def execBringupEnd (s : State) : Res :=
  .next (if s.boot.phase = .scrub ∧ partsUp s then
      let s := { s with
        boot := { s.boot with phase := .ready, endMs := (rd s pgErr Reg.ERR_TIME).toNat / 25000 }
        err := { s.err with wdogBoots := 0 } }
      (List.range 16).foldl (fun s k => if available s k then raiseEvt s (pgPart k) 9 else s) s
    else s)

/-! ### Image commands (R468, R469) -/

/-- A TEST_ACCESS entry, whose content the spec leaves to Bamtia (R450, R468). -/
def testAccess (s : State) : State :=
  let d := draw s
  audit d.2 0x0A [Config.freeWord d.1]

/-- An image command ends. -/
def imgDone (s : State) (code status : Nat) (body : Bytes) : State := reply s true 0 code status body

/-- An image command's flash write failed (R410). -/
def imgFails (s : State) (code : Nat) : State := imgDone (countError s pgSec 3 4 0 none) code 4 []

/-- IMG_BEGIN: any open load is discarded, the region erased and a load opened.  Where the flash write fails no load is open
(DESIGN CHOICE, log entry 63). -/
def execImgBegin (flashOk : Bool) (s : State) : Res :=
  .next (onTaken s true 0 0x0401 fun s b =>
    if !(auditRoom s) then imgDone (reject s pgSec) 0x0401 0x0B []
    else if 0x1000000 < leAt b 4 4 then imgDone s 0x0401 3 []
    else if !flashOk then
      imgFails (testAccess { s with flash := { s.flash with image := [] }, boot := { s.boot with loadState := 0 } }) 0x0401
    else
      imgDone (testAccess { s with
        flash := { s.flash with image := [] }
        boot := { s.boot with loadState := 1, loadLen := leAt b 4 4 } }) 0x0401 0 [])

/-- IMG_CHUNK: where the flash write fails nothing of it is written (DESIGN CHOICE, log entry 63). -/
def execImgChunk (flashOk : Bool) (s : State) : Res :=
  .next (onTaken s true 0 0x0402 fun s b =>
    let n := leAt b 8 2
    if s.boot.loadState ≠ 1 ∨ leAt b 4 4 ≠ s.flash.image.length then imgDone (reject s pgSec) 0x0402 0x0B []
    else if n = 0 ∨ 240 < n ∨ s.boot.loadLen < s.flash.image.length + n then imgDone s 0x0402 3 []
    else if !flashOk then imgFails s 0x0402
    else imgDone { s with flash := { s.flash with image := s.flash.image ++ slice b 16 n } } 0x0402 0 [])

/-- IMG_COMMIT: the region is read back and checked. -/
def execImgCommit (s : State) : Res :=
  .next (onTaken s true 0 0x0403 fun s _ =>
    if !(auditRoom s) then imgDone (reject s pgSec) 0x0403 0x0B []
    else
      let s := testAccess s
      if s.boot.loadState ≠ 1 ∨ s.flash.image.length < s.boot.loadLen then imgDone (reject s pgSec) 0x0403 0x0B []
      else
        let c := imageCheck s s.flash.image
        imgDone { s with boot := { s.boot with loadState := if c = 0 then 2 else 3 } } 0x0403 (if c = 0 then 0 else 3)
          (natBytes c 1))

/-! ### Tuiner's mailbox commands (R482, R483) -/

/-- A command of the non-secure mailbox of `f`, of F0 alone where `f0` (R4, R482), in the form `sub` where it has one. -/
def tuiner (s : State) (f code : Nat) (f0 : Bool) (sub : Option Nat) (k : State → Bytes → State) : State :=
  onTaken s false f code fun s b =>
    match sub with
    | some n =>
      if leAt b 3 1 ≠ n then s else if f0 && decide (f ≠ 0) then reply (reject s (pgMbx false)) false f code 0xF [] else k s b
    | none => if f0 && decide (f ≠ 0) then reply (reject s (pgMbx false)) false f code 0xF [] else k s b

/-- BOOT_STATUS (R482). -/
def execBootStatus (f : Nat) (s : State) : Res :=
  .next (tuiner s f 0x0501 false none fun s _ =>
    let b := s.boot
    let path := (if b.fullHbm = 0 then 0 else 1) + (if b.fullSites = 0 then 0 else 2) + (if b.fullPcie then 4 else 0) +
      (if b.warm then 128 else 0)
    reply s false f 0x0501 0
      (natBytes (phaseCode s) 1 ++ natBytes path 1 ++ natBytes b.fullSites 1 ++ natBytes b.fullHbm 1 ++ natBytes b.endMs 4 ++
        natBytes b.added 2))

/-- FORCE_FULL_TRAINING (R482): the records named are discarded. -/
def execForceFullTraining (f : Nat) (s : State) : Res :=
  .next (tuiner s f 0x0502 true none fun s b =>
    let m := leAt b 4 1
    reply { s with flash := { s.flash with
        stackRecords := if m.testBit 0 then 0 else s.flash.stackRecords
        siteRecords := if m.testBit 1 then 0 else s.flash.siteRecords
        pcieRecord := s.flash.pcieRecord && !(m.testBit 2) } } false f 0x0502 0 [])

/-- The pages of a BAD_PAGES message; none where COUNT is out of range. -/
def pagesOf (b : Bytes) : Option (List Nat) :=
  let n := leAt b 4 2
  if 30 < n then none else some ((List.range n).map fun i => leAt b (8 + 8 * i) 8 / 65536)

/-- BAD_PAGES, BEGIN (R482): a new list, with the pages it carries. -/
def execBadPagesBegin (f : Nat) (s : State) : Res :=
  .next (tuiner s f 0x0503 true (some 0) fun s b =>
    match pagesOf b with
    | none => reply s false f 0x0503 3 []
    | some l => reply { s with boot := { s.boot with badList := some l } } false f 0x0503 0 [])

/-- BAD_PAGES, APPEND. -/
def execBadPagesAppend (f : Nat) (s : State) : Res :=
  .next (tuiner s f 0x0503 true (some 1) fun s b =>
    match s.boot.badList, pagesOf b with
    | none, _ => reply (reject s (pgMbx false)) false f 0x0503 0x0B []
    | some _, none => reply s false f 0x0503 3 []
    | some l, some m => reply { s with boot := { s.boot with badList := some (l ++ m) } } false f 0x0503 0 [])

/-- BAD_PAGES, COMMIT: the list, with the pages it carries, goes to flash. -/
def execBadPagesCommit (f : Nat) (s : State) : Res :=
  .next (tuiner s f 0x0503 true (some 2) fun s b =>
    match s.boot.badList, pagesOf b with
    | none, _ => reply (reject s (pgMbx false)) false f 0x0503 0x0B []
    | some _, none => reply s false f 0x0503 3 []
    | some l, some m =>
      reply { s with
        boot := { s.boot with badList := none }
        flash := { s.flash with badPages := l ++ m } } false f 0x0503 0 [])

/-- SHUTDOWN (R449, R456, R482): operating time and the audit mirror are saved; Tuiner takes no further command. -/
def execShutdown (f : Nat) (s : State) : Res :=
  .next (tuiner s f 0x0504 true none fun s _ =>
    let s := mirrorAudit (saveSeconds s)
    reply { s with boot := { s.boot with shutdown := true } } false f 0x0504 0 [])

/-- BOOT_CONFIG, READ (R482, R483). -/
def execBootConfigRead (f : Nat) (s : State) : Res :=
  .next (tuiner s f 0x0505 true (some 0) fun s _ => reply s false f 0x0505 0 (s.flash.bootConfig.getD bootDefault))

/-- BOOT_CONFIG, WRITE (R483): in force from the next whole-device reset. -/
def execBootConfigWrite (f : Nat) (s : State) : Res :=
  .next (tuiner s f 0x0505 true (some 1) fun s b =>
    let r := slice b 4 72
    if bootCfgOk r then reply { s with flash := { s.flash with bootConfig := some r } } false f 0x0505 0 []
    else reply s false f 0x0505 3 [])

/-! ### Time -/

/-- The island cycles of 40 ns at an engine's clock count in BUSY_CYCLES while it holds a descriptor, and in MEM_WAIT while
that is held on a translation fault (R163, R183). -/
def countBusy (s : State) (e : Nat) : State :=
  match engineWork s e with
  | none => s
  | some w =>
    let n := rf s (pgSe e) Reg.SE_ISLAND_CLK 0 12 / 25
    let s := addReg s (pgSe e) Reg.BUSY_CYCLES n
    if heldPhase w then addReg s (pgSe e) Reg.MEM_WAIT n else s

/-- One 40 ns cycle of SYSCLK (R416; log entry 1): `ERR_TIME` counts, the regulators' tokens are refilled, and busy engines
count their cycles; without the clock, or without power, nothing moves. -/
def tick (s : State) : State :=
  if s.board.pwrOk && s.board.sysclk then
    settleManifest ((List.range 64).foldl countBusy (addReg (tickFabric s) pgErr Reg.ERR_TIME 1))
  else s

end Sys2Proof.Machine
end

