-- ==== Sys2Proof/Machine/Pages.lean ====
section
/-!
DEFINITION. Register pages (R30 to R48): the windows of the functions, the common header, page states, resets of one
page, and reads and writes of registers.
-/

namespace Sys2Proof.Machine

/-! ### Windows (R30 to R32, R445) -/

/-- The page that a window slot of function `fn` shows (R32). -/
def windowPage (fn w : Nat) : Option Nat :=
  let k := fn - 1
  if w = 0 then some 0
  else if w = 1 then some (pgPart k)
  else if w = 2 then some (pgMf k)
  else if w = 3 then some (pgQuay k)
  else if w = 4 then some 8
  else if 8 ≤ w ∧ w < 16 then some (pgCl (8 * k + (w - 8)))
  else if 16 ≤ w ∧ w < 20 then some (pgSe (4 * k + (w - 16)))
  else if 24 ≤ w ∧ w < 32 then some (pgCvu (w - 24))
  else if 32 ≤ w ∧ w < 64 then some (pgDma (w - 32))
  else none

/-- The page and offset that byte `off` of function `fn`'s BAR0 names (R30, R32, R445): F0's 128 MiB show page p at
p × 0x1_0000; a partition function's 4 MiB show its window, in whose mailbox view the two blocks stand at 0x1000 and
0x1400. -/
def target (fn off : Nat) : Option (Nat × Nat) :=
  let d := off % 0x10000
  if fn = 0 then (if off < 0x8000000 then some (off / 0x10000, d) else none)
  else if 16 < fn ∨ 0x400000 ≤ off then none
  else
    match windowPage fn (off / 0x10000) with
    | none => none
    | some p =>
      if p = 8 then
        if d < 0x1000 then some (8, d)
        else if d < 0x1400 then some (8, d - 0x1000 + 0x1000 + 0x400 * fn)
        else if d < 0x1800 then some (9, d - 0x1400 + 0x1000 + 0x400 * fn)
        else none
      else some (p, d)

/-- The header of the mailbox view, as function `fn` sees it (R445). -/
def viewHeader (fn p off : Nat) : Bool := decide (fn ≠ 0) && decide (p = 8 ∨ p = 9) && decide (off < 0x1000)

/-- The four event bits of the mailbox view, as page and bit (R445). -/
def viewBits (fn : Nat) : List (Nat × Nat) := [(8, fn), (8, 17 + fn), (9, fn), (9, 17 + fn)]

/-- What the header of the mailbox view shows. -/
def viewRead (s : State) (fn off : Nat) : Word :=
  let bits (r : Nat) : Word := w64 (maskOf ((List.range 4).filter fun i =>
    match (viewBits fn)[i]? with
    | some b => rb s b.1 r b.2
    | none => false))
  if off = Reg.PAGE_ID then setFld (rd s 8 off) 40 8 fn
  else if off = Reg.OWNER then w64 (fn - 1)
  else if off = Reg.EVT_STAT ∨ off = Reg.EVT_EN then bits off
  else if off = Reg.PAGE_CTL ∨ off = Reg.PAGE_STAT then showReg s 0 8 off
  else 0

/-! ### The common header (R34 to R40) -/

/-- The bits of a page's event registers that exist (R7, R36). -/
def evtMask (p : Nat) : Word :=
  match blockOf p with
  | some b => w64 (evtBits b)
  | none => 0

/-- Every change that a write of `PAGE_CTL` requests is legal in the present STATE (R35); a site is quiesced in ADMITTED
alone, and leaves FAULT only through RESET_REQ (R294); a channel that is not assigned stays OFF (R352). -/
def ctlOk (s : State) (p : Nat) (v : Word) : Bool :=
  let st := pageState s p
  let site := blockOf p = some .site
  if fixedPage p then bit v 0 && !(bit v 1) && !(bit v 2)
  else
    (bit v 0 = enabled s p ||
      (if bit v 0 then decide (st = 0) && !(blockOf p = some .dma && (chanFn s (p - 32)).isNone) else decide (st = 4 ∨ st = 5 ∧ (!site ∨ bit v 2)))) &&
      (bit v 1 = rb s p Reg.PAGE_CTL 1 ||
        (if bit v 1 then decide (st = 3 ∧ (!site ∨ siteSub s (p - 700) = 4)) else decide (st = 4))) &&
      (!(bit v 2) || decide (st = 0 ∨ st = 2 ∨ st = 3 ∨ st = 4 ∨ st = 5))

/-- Descriptors on the units that `mine` names go back to the scheduler (R426). -/
def returnWork (s : State) (mine : Work → Bool) : State := rerun s mine true

/-- The work of the cores of cluster `c`. -/
def clusterWork (c : Nat) (w : Work) : Bool := decide (w.part = c / 8) && decide (w.unit < 128) && decide (w.unit / 16 = c % 8)

/-- The work of engine `e`. -/
def sweepWork (e : Nat) (w : Work) : Bool := decide (w.part = e / 4) && decide (w.unit = 128 + e % 4)

/-- The cores of a cluster are reset (R105, R271, R425, R426): fences under way end first, descriptors go back to the
scheduler, and a spare self-test is abandoned. -/
def resetCluster (s : State) (c : Nat) : State :=
  let s := (s.fencing.filter fun f => f.1 = c).foldl (fun s f => drainFence s f.1 f.2.1 f.2.2.1) s
  endTest (resetPageRegs (returnWork s (clusterWork c)) (pgCl c)) c

/-- An engine is reset (R425, R426). -/
def resetEngine (s : State) (e : Nat) : State :=
  let s := (s.seFencing.filter fun f => f.1 = e).foldl (fun s f => finishEngine s f.1 f.2) s
  resetPageRegs (returnWork s (sweepWork e)) (pgSe e)

/-- The scheduler of a partition is reset (R41; log entry 17): its contexts end and become FREE; keys, measurement, state
and isolation stay, and so do the global barriers, which are no partition's (R123, R132). -/
def resetSched (s : State) (k : Nat) : State :=
  let s := resetPageRegs (freeContexts (killContexts s k) k) (pgPart k)
  { s with barMarks := s.barMarks.filter fun m => m.1 ≠ k }

/-- A controller is reset: the granules of its write-combining buffer are written, injections, counts and fills end; repair
and retirement stay (R430). -/
def resetMc (s : State) (m : Nat) : State :=
  let h := s.hbm
  runHeld <| resetPageRegs { s with hbm := { h with
    wc := h.wc.filter fun e => e.1 ≠ m
    inject := h.inject.filter fun e => e.1 ≠ m
    ce := h.ce.filter fun e => e.1 ≠ m
    patrol := h.patrol.set m 0 } } (pgMc m)

/-- The MANIFEST page of a partition is reset (R499): faults end without a walk, the RC counters return to zero, and every
other register stays; the caches and pins are dropped when the accesses made under them are complete. -/
def resetManifest (s : State) (k : Nat) : State := clearCounters (endFaults s k) (pgMf k)

/-- The I3C target is reset: its address, its staging buffer and what waits on the bus are gone; DA_LOST where it had an
address. -/
def resetI3c (s : State) : State :=
  let had := rb s pgI3c Reg.I3C_STAT 7
  let s := resetPageRegs { s with i3c := State.reset.i3c } pgI3c
  if had then raiseEvt s pgI3c 1 else s

/-- What a reset of one page does to its block (R41, R425, R426). -/
def resetBlockState (s : State) (p : Nat) : State :=
  match blockOf p with
  | some .cluster => resetCluster s (p - 256)
  | some .sweep => resetEngine s (p - 512)
  | some .partition => resetSched s (p - 128)
  | some .manifest => resetManifest s (p - 64)
  | some .mc => resetMc s (p - 640)
  | some .dma => resetChan s (p - 32) true
  | some .quay =>
    let q := s.quay
    runHeld <| resetPageRegs { s with quay := { q with
      inject := q.inject.filter fun e => e.1 ≠ p - 656
      strict := q.strict.filter fun e => e.1 ≠ p - 656 } } p
  | some .ring =>
    resetPageRegs { s with fab := { s.fab with
      commits := s.fab.commits.filter fun r => r ≠ p - 680
      routes := if p = 680 ∧ !(locked s p) then [] else s.fab.routes } } p
  | some .mbx => resetPageRegs ((List.range 17).foldl (fun s f => clearMbx s (decide (p = 8)) f) s) p
  | some .i3c => resetI3c s
  | some .pwr =>
    resetPageRegs { s with pwr := { State.reset.pwr with
      failed := s.pwr.failed, tripDue := s.pwr.tripDue, stopped := s.pwr.stopped, raising := s.pwr.raising } } p
  | some .pcie => resetPageRegs (pcieDown s) p
  | some .cvu | some .site => resetPageRegs s p
  | _ => s

/-- RESET_REQ of a page (R35, R41, R295, R426): the block passes through RESET, raising STATE_CHANGE, and ends READY if
ENABLE is then 1, else OFF; a site trains afresh; a fence that ends meanwhile leaves its unit FENCED.  A controller that a rail
put in FAULT ends there (R489). -/
def resetPage (s : State) (p : Nat) (en : Bool) : State :=
  let s := wf s p Reg.PAGE_CTL 0 2 en.toNat
  if blockOf p = some .site then
    let s := resetSite s (p - 700)
    if en then s else moveSite s (p - 700) 0 0
  else
    let s := updIso (resetBlockState (setState s p 1) p)
    if blockOf p = some .manifest then settleResets { s with xlat := { s.xlat with resets := s.xlat.resets ++ [(p - 64, en)] } }
    else if pageState s p = 6 then s
    else if s.boot.railFaults.contains p then setState s p 5
    else setState s p (if en then readyState s p else 0)

/-- ENABLE 0 → 1 (R35, R294): RESET, then TRAINING where the block trains, then READY. -/
def enablePage (s : State) (p : Nat) : State :=
  let s := setState (wb s p Reg.PAGE_CTL 0 true) p 1
  match blockOf p with
  | some .site => trainStart s (p - 700)
  | some .mc | some .pcie => setState s p 2
  | _ => setState s p (readyState s p)

/-- ENABLE 1 → 0 (R35): a site in service is lost to the package (R295), and the endpoint's link goes down. -/
def disablePage (s : State) (p : Nat) : State :=
  let s := wb s p Reg.PAGE_CTL 0 false
  match blockOf p with
  | some .site =>
    let up := siteAdmitted s (p - 700)
    let s := moveSite s (p - 700) 0 0
    if up then dropSite s (p - 700) else s
  | some .pcie => setState (pcieDown s) p 0
  | _ => setState s p 0

/-- A write of `PAGE_CTL` (R35, R39): accepted or rejected as a whole. -/
def writeCtl (s : State) (p : Nat) (v : Word) : State :=
  guarded s p (ctlOk s p v) fun s =>
    let s := if bit v 8 then wr s p Reg.ERR_FIRST 0 else s
    if bit v 2 then resetPage s p (bit v 0)
    else
      let on := enabled s p
      let was := rb s p Reg.PAGE_CTL 1
      let s := wb s p Reg.PAGE_CTL 1 (bit v 1)
      if bit v 0 && !on then enablePage s p
      else if on && !(bit v 0) then disablePage s p
      else if was && !(bit v 1) then wakeSites (setState s p 3)
      else s

/-- The register form of a write to a page's header: a tenant reaches no header of the MBX pages but its view's (R445). -/
def headerWrite (s : State) (fn p off : Nat) (k : State → State) : State :=
  withWrite s fn p off fun s => if viewHeader fn p off then reject s p else k s

/-- A write of `PAGE_CTL` by function `fn`. -/
def ctlWrite (s : State) (fn p : Nat) (v : Word) : State := headerWrite s fn p Reg.PAGE_CTL fun s => writeCtl s p v

/-- PAGE_ENABLE (R35). -/
def execPageEnable (fn p : Nat) (v : Word) (s : State) : Res := .next (ctlWrite s fn p v)

/-- PAGE_DISABLE (R35). -/
def execPageDisable (fn p : Nat) (v : Word) (s : State) : Res := .next (ctlWrite s fn p v)

/-- QUIESCE_REQUEST (R35): the block drains; QUIESCE_DRAINED ends it. -/
def execQuiesceRequest (fn p : Nat) (v : Word) (s : State) : Res := .next (ctlWrite s fn p v)

/-- QUIESCE_RESUME (R35). -/
def execQuiesceResume (fn p : Nat) (v : Word) (s : State) : Res := .next (ctlWrite s fn p v)

/-- RESET_REQ (R35, R41). -/
def execResetReq (fn p : Nat) (v : Word) (s : State) : Res := .next (ctlWrite s fn p v)

/-- ERR_REARM (R35, R39): legal in every STATE. -/
def execErrRearm (fn p : Nat) (v : Word) (s : State) : Res := .next (ctlWrite s fn p v)

/-- No request is held at a port of the controller or slice of page `p`. -/
def noneHeld (s : State) (p : Nat) : Bool :=
  s.heldPorts.all fun e =>
    match portAddr e.2 with
    | none => true
    | some a =>
      (match hbmPlace a with
       | some (m, _, _) => decide (pgMc m ≠ p)
       | none => true) &&
      (match quayOf a with
       | some k => decide (pgQuay k ≠ p)
       | none => true)

/-- The work a block has accepted is done (R35). -/
def drained (s : State) (p : Nat) : Bool :=
  match blockOf p with
  | some .cluster => s.work.all fun w => !(clusterWork (p - 256) w) || w.phase = .returned
  | some .sweep => s.work.all fun w => !(sweepWork (p - 512) w) || w.phase = .returned
  | some .partition => s.work.all fun w => decide (w.part ≠ p - 128)
  | some .manifest => (s.xlat.invs.all fun c => decide (c.part ≠ p - 64)) && s.xlat.recs.all fun r => decide (r.info.part ≠ p - 64)
  | some .mc => (s.hbm.wc.all fun e => decide (e.1 ≠ p - 640)) && decide (rf s p Reg.MC_ZF_STAT 0 4 = 0) && noneHeld s p
  | some .quay => !(rb s p Reg.QUAY_ZF_STAT 0) && (s.quay.strict.all fun e => decide (e.1 ≠ p - 656)) && noneHeld s p
  | some .ring => (s.fab.packets.all fun q => decide (q.leg.ring ≠ p - 680)) && s.fab.ports.isEmpty
  | some .site => decide (siteSub s (p - 700) = 4) && s.siteReqs.all fun q => decide (q.site ≠ p - 700)
  | some .dma => (chanOf s (p - 32)).cur.isNone
  | some .cvu => !(cvuIsOpen s (p - 16))
  | some .mbx => (List.range 17).all fun f => decide (mbxState s (decide (p = 8)) f ≠ 1) && decide (mbxState s (decide (p = 8)) f ≠ 2)
  | _ => true

/-- QUIESCE_DRAINED (R35). -/
def execQuiesceDrained (p : Nat) (s : State) : Res :=
  .next (if pageState s p = 3 ∧ rb s p Reg.PAGE_CTL 1 ∧ drained s p then setState s p 4 else s)

/-- BLOCK_TRAINED (R35, R486, R489): a controller whose stack has its rails has trained; a site and the endpoint have rows of
their own (R294, R344). -/
def execBlockTrained (p : Nat) (s : State) : Res :=
  .next (if blockOf p = some .mc ∧ pageState s p = 2 ∧ s.board.hbmRails.testBit (p - 640) ∧ !(s.boot.railFaults.contains p) then
      setState s p 3
    else s)

/-- A write of `EVT_SET` (R36): the bits of `EVT_STAT` are set, each with its rising edge (R451); in the mailbox view the
function's own (R445). -/
def writeEvtSet (s : State) (fn p : Nat) (v : Word) : State :=
  if viewHeader fn p Reg.EVT_SET then
    ((List.range 4).filter fun i => bit v i).foldl
      (fun s i => match (viewBits fn)[i]? with
        | some b => raiseEvt s b.1 b.2
        | none => s) s
  else ((List.range 64).filter fun i => bit (v &&& evtMask p) i).foldl (fun s i => raiseEvt s p i) s

/-- EVT_SET (R36). -/
def execEvtSet (fn p : Nat) (v : Word) (s : State) : Res :=
  .next (withWrite s fn p Reg.EVT_SET fun s => writeEvtSet s fn p v)

/-- LOCK (R36, R40): set by a write; cleared by a whole-device reset alone. -/
def execLock (fn p : Nat) (s : State) : Res := .next (headerWrite s fn p Reg.LOCK fun s => wb s p Reg.LOCK 0 true)

/-! ### Writes of fields that have no row of their own (R9, R36) -/

/-- The registers that only the OPERATOR writes on a page its tenant may write (R103, R104, R105, R125, R132, R163, R169,
R341). -/
def operatorOnly (b : Block) (off : Nat) : Bool :=
  match b with
  | .partition =>
    (decide (0x1000 ≤ off) && decide (off < 0x5000) && decide (off % 0x40 = 0x38)) ||
      (decide (Reg.GBAR 0 ≤ off) && decide (off < Reg.GBAR 32)) || off = Reg.EBUCKET_MAX
  | .cluster => off = Reg.CORE_FENCE || off = Reg.SPARE_TEST
  | .sweep => off = Reg.READ_CAP || off = Reg.ENGINE_FENCE || off = Reg.ENGINE_TEST
  | _ => false

/-- A word of a request or a response of a secure mailbox of F1 to F16, which the SPDM responder alone uses (R442). -/
def sessionWord (fn p off : Nat) : Bool :=
  decide (p = 8) && decide (fn ≠ 0) && decide (0x1000 ≤ off) && decide (0x100 ≤ off % 0x400) && decide (off % 0x400 < 0x300)

/-- The role limits that one register has beyond its page's (R4): the TENANT writes of `COH_CFG` the bit HINT_EN alone
(R290). -/
def fieldRole (s : State) (fn p off : Nat) (v : Word) : Bool :=
  actsOn s fn p true ||
    (match blockOf p with
     | none => true
     | some b =>
       !(operatorOnly b off) && !(sessionWord fn p off) &&
         (!(b = .partition && off = Reg.COH_CFG) || decide (fld v 0 16 = rf s p off 0 16)))

/-- The number of a context or a mailbox from the offset of one of its registers. -/
def ctxIndex (off : Nat) : Nat := (off - 0x1000) / 0x40

/-- What a register would hold after the write (R9): RW and RWL bits as written, W1C bits cleared where a 1 is
written, the rest as they are. -/
def written (old v : Word) (r : RegRow) : Word :=
  let m := w64 (r.rw ||| r.rwl)
  ((old &&& ~~~m) ||| (v &&& m)) &&& ~~~(v &&& w64 r.w1c)

/-- The value may be written in the present state (R36): an RWL field of a locked page keeps its value (R40), and the
chapters' own limits hold (R132, R234, R341, R342, R368, R443, R451). -/
def valueOk (s : State) (p off : Nat) (r : RegRow) (v : Word) : Bool :=
  let new := written (rd s p off) v r
  let n := new.toNat
  (!(locked s p) || decide ((new ^^^ rd s p off) &&& w64 r.rwl = 0)) &&
    (match blockOf p with
     | some .partition =>
       let k := p - 128
       if 0x1000 ≤ off ∧ off < 0x5000 then
         let st := ctxState s k (ctxIndex off)
         let d := off % 0x40
         if d = 0x10 ∨ d = 0x18 then decide (st = 0)
         else if d = 0x20 then decide (st = 0) || (decide (1 ≤ n % 256) && decide (n % 256 ≤ 128))
         else if d = 0x38 then decide (st ≤ 1)
         else true
       else if off = Reg.EBUCKET_MAX then decide (0x4000 ≤ n)
       else true
     | some .dma => off = Reg.DMA_CFG || decide (pageState s p = 0)
     | some .quay => off ≠ Reg.QUAY_CFG || quayCfgOk s (p - 656) v
     | some .pwr =>
       off ≠ Reg.THERM_CFG ||
         (decide (60 ≤ n % 256) && decide (n % 256 ≤ 105) && decide (n % 256 < n / 256 % 256) && decide (n / 256 % 256 ≤ 108))
     | some .mbx =>
       !(decide (0x100 ≤ off % 0x400) && decide (off % 0x400 < 0x200)) ||
         decide (mbxState s (decide (p = 8)) ((off - 0x1000) / 0x400) = 0)
     | some .evr => !(decide (0x400 ≤ off) && decide (off < 0x1400)) || !(rb s pgEvr (Reg.EVR_TRIG ((off - 0x400) / 0x40)) 32)
     | _ => true)

/-- The write takes effect (R9, R37, R38, R255, R378). -/
def putReg (s : State) (p off : Nat) (r : RegRow) (v : Word) : State :=
  if off = Reg.EVT_STAT then clearEvts s p v
  else if off = Reg.EVT_EN then updWire (wr s p off (v &&& evtMask p))
  else if blockOf p = some .ring ∧ off = Reg.DEAL_DATA then writeDeal s (p - 680) v
  else
    let s := wr s p off (written (rd s p off) v r)
    match blockOf p with
    | some .quay => updIso (if off = Reg.QUAY_CFG then dropStrict s (p - 656) else s)
    | some .mc | some .ring | some .site => updIso s
    | _ => s

/-- A write to the header of the mailbox view (R445): `EVT_STAT` and `EVT_EN` of the function's own bits; other writes are
ignored. -/
def viewWrite (s : State) (fn off : Nat) (v : Word) : State :=
  if off = Reg.EVT_STAT ∨ off = Reg.EVT_EN then
    updWire (((List.range 4).foldl
      (fun s i => match (viewBits fn)[i]? with
        | some b =>
          if off = Reg.EVT_EN then wb s b.1 off b.2 (bit v i)
          else if bit v i then wb s b.1 off b.2 false else s
        | none => s) s))
  else s

/-- An offset that is present on the ring page of X0 alone (R265), or a job number that does not exist (R422). -/
def absent (p off : Nat) : Bool :=
  (decide (680 < p) && decide (p < 688) && decide (0x300 ≤ off)) || (decide (p = pgErr) && decide (off = Reg.JOB 0))

/-- A write of a register whose fields have no row of their own (R9, R36): reserved offsets and RO fields ignore it. -/
def plainWrite (s : State) (fn p off : Nat) (v : Word) : State :=
  withWrite s fn p off fun s =>
    if viewHeader fn p off then viewWrite s fn off v
    else
      match regRow p off with
      | none => s
      | some r =>
        if absent p off || (decide (r.rw ||| r.rwl ||| r.w1c = 0)) then s
        else if fieldRole s fn p off v then guarded s p (valueOk s p off r v) fun s => putReg s p off r v
        else reject s p

/-! ### Register writes whose effect is a command's -/

/-- A command that a page's `off` holds but whose bits ask for nothing, or for what does not exist; a role that may not
give the command is rejected all the same (R4). -/
def noCommand (s : State) (fn p off : Nat) (bad : Bool) : Res :=
  .next (withWrite s fn p off fun s => guarded s p (fieldRole s fn p off 0 && !bad) fun s => s)

/-- A write of a register of the PARTITION page that is a command (R125, R132, R392). -/
def routePartition (s : State) (fn k off : Nat) (v : Word) : Option Res :=
  let p := pgPart k
  let c := fld v 0 3
  if off = Reg.PART_CMD then
    some (if c = 1 then execPartCmdEnable fn k s else if c = 2 then execPartCmdDisable fn k s
      else if c = 3 then execPartCmdAssign fn k s else if c = 4 then execPartCmdReset fn k s
      else if c = 5 then execPartCmdRelease fn k s
      else .next (withOperator s fn p off fun s => reject s p))
  else if 0x1000 ≤ off ∧ off < 0x5000 ∧ off % 0x40 = 0x08 then
    let x := ctxIndex off
    some (if c = 1 then execCtxOpen fn k x s else if c = 2 then execCtxRun fn k x s
      else if c = 3 then execCtxPause fn k x s else if c = 4 then execCtxClose fn k x s
      else if c = 5 then execCtxAbort fn k x s else noCommand s fn p off true)
  else if 0x1000 ≤ off ∧ off < 0x5000 ∧ off % 0x40 = 0x28 then some (execCtxTail fn k (ctxIndex off) (fld v 0 32) s)
  else if Reg.BAR 0 ≤ off ∧ off < Reg.BAR 64 then some (execBarrierTargetWrite fn false k ((off - Reg.BAR 0) / 8) v s)
  else if Reg.GBAR 0 ≤ off ∧ off < Reg.GBAR 32 then some (execBarrierTargetWrite fn true k ((off - Reg.GBAR 0) / 8) v s)
  else none

/-- A write of a register of the MANIFEST page that is a command (R194). -/
def routeManifest (s : State) (fn k off : Nat) (v : Word) : Option Res :=
  if off = Reg.MF_ROOT then some (execMfRootWrite fn k v s)
  else if off = Reg.FAULT_RING then some (execFaultRingWrite fn k v s)
  else if off = Reg.FAULT_CONS then some (execFaultConsWrite fn k v s)
  else if off = Reg.FAULT_RESOLVE then
    some (if bit v 63 then
        (if bit v 32 then execFaultResolveFail fn k (fld v 0 32) s else execFaultResolveRetry fn k (fld v 0 32) s)
      else noCommand s fn (pgMf k) off false)
  else if off = Reg.HOT_RING then some (execHotRingWrite fn k v s)
  else if off = Reg.INV_CMD then
    some (if fld v 0 2 = 1 then execInvCmdRange fn k (fld v 16 36) (fld v 4 12) s
      else if fld v 0 2 = 2 then execInvCmdPartition fn k s
      else noCommand s fn (pgMf k) off true)
  else if Reg.SHARE_WIN 0 ≤ off ∧ off < Reg.SHARE_WIN 4 then some (execShareWinWrite fn k ((off - Reg.SHARE_WIN 0) / 8) v s)
  else none

/-- A write of a register of the device's own pages that is a command (R255, R265, R324, R342, R365, R367). -/
def routeDevice (s : State) (fn p off : Nat) (v : Word) : Option Res :=
  match blockOf p with
  | some .pwr =>
    if off = Reg.PWR_CTL then some (execPwrCtlFixed fn v s)
    else if Reg.PART_ALLOC 0 ≤ off ∧ off < Reg.PART_ALLOC 16 then some (execPartAllocWrite fn ((off - Reg.PART_ALLOC 0) / 8) v s)
    else if off = Reg.SITE_RELEASE then some (execSiteRelease fn v s)
    else none
  | some .pcie =>
    if off = Reg.DMA_CTL then some (execDmaCtlStrict fn v s)
    else if Reg.DMA_ASSIGN 0 ≤ off ∧ off < Reg.DMA_ASSIGN 32 then some (execDmaAssign fn ((off - Reg.DMA_ASSIGN 0) / 8) v s)
    else none
  | some .mc =>
    if off = Reg.MC_ZF_CMD then some (execMcZfCmd fn (p - 640) v s)
    else if off = Reg.MC_INJECT then some (execMcInject fn (p - 640) v s)
    else none
  | some .ring =>
    if off = Reg.DEAL_COMMIT then some (if bit v 63 then execDealCommit fn (p - 680) s else noCommand s fn p off false)
    else if p = 680 ∧ off = Reg.FAB_CTL then some (execRouteModeWrite fn v s)
    else if p = 680 ∧ off = Reg.ROUTE_DATA then some (execRouteDataWrite fn v s)
    else none
  | some .site =>
    if off = Reg.SITE_ASSIGN then some (execSiteAssign fn (p - 700) v s)
    else if off = Reg.SITE_CMD then
      some (if bit v 63 && bit v 0 then execSiteCmdRetrain fn (p - 700) s else noCommand s fn p off false)
    else none
  | _ => none

/-- A write of a register of the management pages that is a command (R433, R447, R451, R457, R462). -/
def routeManagement (s : State) (fn p off : Nat) (v : Word) : Option Res :=
  match blockOf p with
  | some .err =>
    if off = Reg.COLL_CLEAR then some (execCollClear fn v s)
    else if off = Reg.DEV_RESET then some (execDevReset fn v s)
    else if off = Reg.DUMP_ACK then some (execDumpAck fn v s)
    else if off = Reg.JOB_ABORT_CMD then
      some (if bit v 63 then execJobAbortCmd fn (fld v 0 8) s else noCommand s fn p off false)
    else none
  | some .evr =>
    if off = Reg.EVR_FENCE then some (if bit v 63 then execRecorderFence fn s else noCommand s fn p off false)
    else if off = Reg.EVR_CLEAR then some (if bit v 63 then execEvrClear fn s else noCommand s fn p off false)
    else if Reg.EVR_TRIG 0 ≤ off ∧ off < Reg.EVR_TRIG 64 then some (execTriggerEnable fn ((off - Reg.EVR_TRIG 0) / 8) v s)
    else none
  | some .mbx =>
    if 0x1000 ≤ off ∧ off % 0x400 = 0 ∧ (off - 0x1000) / 0x400 = fn then
      some (if bit v 0 && bit v 1 then noCommand s fn p off true
        else if bit v 0 then execSend fn (decide (p = 8)) s
        else if bit v 1 then execAck fn (decide (p = 8)) s
        else noCommand s fn p off false)
    else none
  | some .cvu =>
    let u := p - 16
    if off = Reg.CVU_ASSIGN then some (execCvuAssign fn u v s)
    else if off = Reg.CVU_CMD then
      some (if fld v 0 2 = 1 then execCvuOpen fn u s else if fld v 0 2 = 2 then execCvuClose fn u s
        else noCommand s fn p off false)
    else if off = Reg.CVU_FEED then some (execCvuFeed fn u v s)
    else if off = Reg.CVU_RUN then some (execCvuRunWrite fn u false v s)
    else if off = Reg.CVU_ALIVE then some (execCvuRunWrite fn u true v s)
    else none
  | some .dma => if off = Reg.DMA_TAIL then some (execDmaTail fn (p - 32) (fld v 0 32) s) else none
  | some .quay =>
    let k := p - 656
    if off = Reg.QUAY_CFG then
      (if bit v 0 && !(rb s p Reg.QUAY_CFG 0) then some (execQuayStrictSet fn k v s) else none)
    else if off = Reg.QUAY_ZF_CMD then some (if bit v 63 then execQuayZfCmd fn k s else noCommand s fn p off false)
    else if off = Reg.QUAY_INJECT then some (execQuayInject fn k v s)
    else none
  | _ => none

/-- A write of a register of the CLUSTER and SWEEP pages that is a command (R105, R163). -/
def routeUnits (s : State) (fn p off : Nat) (v : Word) : Option Res :=
  match blockOf p with
  | some .cluster =>
    if off = Reg.CORE_FENCE then some (execCoreFence fn (p - 256) v s)
    else if off = Reg.SPARE_TEST then some (if bit v 0 then execSpareTest fn (p - 256) s else noCommand s fn p off false)
    else none
  | some .sweep =>
    if off = Reg.ENGINE_FENCE then some (if bit v 63 then execEngineFence fn (p - 512) s else noCommand s fn p off false)
    else if off = Reg.ENGINE_TEST then some (if bit v 0 then execEngineTest fn (p - 512) s else noCommand s fn p off false)
    else none
  | _ => none

/-- The command that a register write is, where its register has one (R9). -/
def routeWrite (s : State) (fn p off : Nat) (v : Word) : Option Res :=
  if off = Reg.PAGE_CTL then some (.next (ctlWrite s fn p v))
  else if off = Reg.EVT_SET then some (execEvtSet fn p v s)
  else if off = Reg.LOCK then some (if bit v 0 then execLock fn p s else noCommand s fn p off false)
  else if off < 0x100 then none
  else
    match blockOf p with
    | some .partition => routePartition s fn (p - 128) off v
    | some .manifest => routeManifest s fn (p - 64) off v
    | some .cluster | some .sweep => routeUnits s fn p off v
    | some .pwr | some .pcie | some .mc | some .ring | some .site => routeDevice s fn p off v
    | _ => routeManagement s fn p off v

/-- REGISTER_WRITE (R9, R30, R32): an aligned 64-bit write to byte `off` of the function's BAR0.  A register with a row of
its own is that row's command. -/
def execRegisterWrite (fn off : Nat) (v : Word) (s : State) : Res :=
  if off % 8 = 0 then
    match target fn off with
    | none => .next s
    | some (p, o) =>
      match routeWrite s fn p o v with
      | some r => r
      | none => .next (plainWrite s fn p o v)
  else .next s

/-- NARROW_ACCESS (R4, R30): a read returns zero, a write does nothing, and the page counts it. -/
def execNarrowAccess (fn off len : Nat) (wr : Bool) (s : State) : Res :=
  .next (if off % 8 = 0 ∧ len = 8 then s
    else if barOpen s fn then
      let s := match target fn off with
        | some (p, _) => if visible s fn p && responds s p then reject s p else s
        | none => s
      if wr then s else emit s (.readData fn off 0)
    else s)

/-! ### Reads (R9, R10) -/

/-- A register that is not the function's to read, on a page that is (R105, R132, R236, R442). -/
def readRole (s : State) (fn p off : Nat) : Bool :=
  actsOn s fn p false ||
    (match blockOf p with
     | some .cluster => off ≠ Reg.CORE_FENCE && off ≠ Reg.SPARE_TEST
     | some .quay => off ≠ Reg.QUAY_INJECT
     | some .partition =>
       !(decide (Reg.GBAR 0 ≤ off) && decide (off < Reg.GBAR 32)) ||
         (let j := fld (rd s (pgPart 0) off) 48 8
          (List.range 256).any fun x => decide (rf s p (Reg.CTX_JOB x) 0 8 = j))
     | some .mbx => !(sessionWord fn p off)
     | _ => true)

/-- A read of a register (R4, R9, R10, R31): the value, and the state after; a read of an RC counter clears it, but for an
increment that comes in the same cycle. -/
def readReg (s : State) (fn p off : Nat) (coincide : Bool) : Word × State :=
  if !(visible s fn p && responds s p) then (0, s)
  else if viewHeader fn p off then (viewRead s fn off, s)
  else if mayRead s fn p off && readRole s fn p off then
    let rc := match regRow p off with
      | some r => r.rc && !(absent p off)
      | none => false
    (if absent p off then 0 else showReg s fn p off, if rc then wr s p off (if coincide then 1 else 0) else s)
  else (0, reject s p)

/-- RC_READ (R9, R10, R30): an aligned 64-bit read of byte `off` of the function's BAR0. -/
def execRcRead (fn off : Nat) (coincide : Bool) (s : State) : Res :=
  .next (if off % 8 = 0 ∧ barOpen s fn then
      let r := match target fn off with
        | some (p, o) => readReg s fn p o coincide
        | none => (0, s)
      emit r.2 (.readData fn off r.1)
    else s)

end Sys2Proof.Machine
end

