-- ==== Sys2Proof/Machine/Dispatch.lean ====
section
/-!
DEFINITION. The meaning of every command: one arm per constructor, each a direct call.
-/

namespace Sys2Proof.Machine

/-- The effect of a command on everything but the queue. -/
def exec (i : Instr) (s : State) : Host.Outcome State Fault Refusal :=
  match i with
  | .powerOn strap perst => Sys2Proof.Machine.execPowerOn strap perst s
  | .romBoot flashAnswers => Sys2Proof.Machine.execRomBoot flashAnswers s
  | .settings => Sys2Proof.Machine.execSettings s
  | .trainingPhase shortFail sidebandUp => Sys2Proof.Machine.execTrainingPhase shortFail sidebandUp s
  | .defects mapOk => Sys2Proof.Machine.execDefects mapOk s
  | .cores => Sys2Proof.Machine.execCores s
  | .routes timing0 timing1 routes => Sys2Proof.Machine.execRoutes timing0 timing1 routes s
  | .scrubPhase => Sys2Proof.Machine.execScrubPhase s
  | .bringupEnd => Sys2Proof.Machine.execBringupEnd s
  | .romCheck u value => Sys2Proof.Machine.execRomCheck u value s
  | .selfTest u pass => Sys2Proof.Machine.execSelfTest u pass s
  | .clear u => Sys2Proof.Machine.execClear u s
  | .broadcastAnswerTimeout u => Sys2Proof.Machine.execBroadcastAnswerTimeout u s
  | .registerWrite fn off v => Sys2Proof.Machine.execRegisterWrite fn off v s
  | .narrowAccess fn off len wr => Sys2Proof.Machine.execNarrowAccess fn off len wr s
  | .rcRead fn off coincide => Sys2Proof.Machine.execRcRead fn off coincide s
  | .pageEnable fn p v => Sys2Proof.Machine.execPageEnable fn p v s
  | .pageDisable fn p v => Sys2Proof.Machine.execPageDisable fn p v s
  | .quiesceRequest fn p v => Sys2Proof.Machine.execQuiesceRequest fn p v s
  | .quiesceDrained p => Sys2Proof.Machine.execQuiesceDrained p s
  | .quiesceResume fn p v => Sys2Proof.Machine.execQuiesceResume fn p v s
  | .resetReq fn p v => Sys2Proof.Machine.execResetReq fn p v s
  | .blockTrained p => Sys2Proof.Machine.execBlockTrained p s
  | .errRearm fn p v => Sys2Proof.Machine.execErrRearm fn p v s
  | .evtSet fn p v => Sys2Proof.Machine.execEvtSet fn p v s
  | .lock fn p => Sys2Proof.Machine.execLock fn p s
  | .coreFault phys cause => Sys2Proof.Machine.execCoreFault phys cause s
  | .seqStall phys => Sys2Proof.Machine.execSeqStall phys s
  | .coreFence fn c v => Sys2Proof.Machine.execCoreFence fn c v s
  | .coreFenceDrained c j => Sys2Proof.Machine.execCoreFenceDrained c j s
  | .spareTest fn c => Sys2Proof.Machine.execSpareTest fn c s
  | .spareTestDone c pass => Sys2Proof.Machine.execSpareTestDone c pass s
  | .cacheAccessError c bank tag ue => Sys2Proof.Machine.execCacheAccessError c bank tag ue s
  | .ctxOpen fn k x => Sys2Proof.Machine.execCtxOpen fn k x s
  | .ctxRun fn k x => Sys2Proof.Machine.execCtxRun fn k x s
  | .ctxPause fn k x => Sys2Proof.Machine.execCtxPause fn k x s
  | .ctxClose fn k x => Sys2Proof.Machine.execCtxClose fn k x s
  | .ctxAbort fn k x => Sys2Proof.Machine.execCtxAbort fn k x s
  | .ctxTail fn k x tail => Sys2Proof.Machine.execCtxTail fn k x tail s
  | .contextFreed k x => Sys2Proof.Machine.execContextFreed k x s
  | .dispatch k x u => Sys2Proof.Machine.execDispatch k x u s
  | .gemm k x q => Sys2Proof.Machine.execGemm k x q s
  | .gemmPot k x q => Sys2Proof.Machine.execGemmPot k x q s
  | .potMerge k x q => Sys2Proof.Machine.execPotMerge k x q s
  | .potRound k x q => Sys2Proof.Machine.execPotRound k x q s
  | .potMergeRound k x q => Sys2Proof.Machine.execPotMergeRound k x q s
  | .reduceRows k x q => Sys2Proof.Machine.execReduceRows k x q s
  | .reduceRowsPot k x q => Sys2Proof.Machine.execReduceRowsPot k x q s
  | .reduceCols k x q => Sys2Proof.Machine.execReduceCols k x q s
  | .reduceColsPot k x q => Sys2Proof.Machine.execReduceColsPot k x q s
  | .dotRows k x q => Sys2Proof.Machine.execDotRows k x q s
  | .sumsqRows k x q => Sys2Proof.Machine.execSumsqRows k x q s
  | .maxRows k x q => Sys2Proof.Machine.execMaxRows k x q s
  | .minRows k x q => Sys2Proof.Machine.execMinRows k x q s
  | .reduceCollect k x q => Sys2Proof.Machine.execReduceCollect k x q s
  | .redSlotFull k slot u => Sys2Proof.Machine.execRedSlotFull k slot u s
  | .redSlotTimeout k slot => Sys2Proof.Machine.execRedSlotTimeout k slot s
  | .attnPartial k x q => Sys2Proof.Machine.execAttnPartial k x q s
  | .attnMerge k x q => Sys2Proof.Machine.execAttnMerge k x q s
  | .kvStore k x q => Sys2Proof.Machine.execKvStore k x q s
  | .kvBound k x q => Sys2Proof.Machine.execKvBound k x q s
  | .ewAdd k x q => Sys2Proof.Machine.execEwAdd k x q s
  | .ewSub k x q => Sys2Proof.Machine.execEwSub k x q s
  | .ewMul k x q => Sys2Proof.Machine.execEwMul k x q s
  | .ewMax k x q => Sys2Proof.Machine.execEwMax k x q s
  | .ewMin k x q => Sys2Proof.Machine.execEwMin k x q s
  | .ewUnary k x q => Sys2Proof.Machine.execEwUnary k x q s
  | .convert k x q => Sys2Proof.Machine.execConvert k x q s
  | .ewClamp k x q => Sys2Proof.Machine.execEwClamp k x q s
  | .fence k x q => Sys2Proof.Machine.execFence k x q s
  | .barrier k x q => Sys2Proof.Machine.execBarrier k x q s
  | .barrierTimeout glob k b => Sys2Proof.Machine.execBarrierTimeout glob k b s
  | .barrierTargetWrite fn glob k b v => Sys2Proof.Machine.execBarrierTargetWrite fn glob k b v s
  | .signal k x q => Sys2Proof.Machine.execSignal k x q s
  | .wait k x q => Sys2Proof.Machine.execWait k x q s
  | .waitPoll k x q => Sys2Proof.Machine.execWaitPoll k x q s
  | .waitTimeout k x q => Sys2Proof.Machine.execWaitTimeout k x q s
  | .nop k x q => Sys2Proof.Machine.execNop k x q s
  | .copy k x q => Sys2Proof.Machine.execCopy k x q s
  | .gatherRows k x q => Sys2Proof.Machine.execGatherRows k x q s
  | .scatterRows k x q => Sys2Proof.Machine.execScatterRows k x q s
  | .transpose k x q => Sys2Proof.Machine.execTranspose k x q s
  | .fill k x q => Sys2Proof.Machine.execFill k x q s
  | .compare k x q => Sys2Proof.Machine.execCompare k x q s
  | .prefetchTranslate k x q => Sys2Proof.Machine.execPrefetchTranslate k x q s
  | .prefetchMigrate k x q => Sys2Proof.Machine.execPrefetchMigrate k x q s
  | .adviseUnpin k x q => Sys2Proof.Machine.execAdviseUnpin k x q s
  | .advisePin k x q => Sys2Proof.Machine.execAdvisePin k x q s
  | .adviseDontNeed k x q => Sys2Proof.Machine.execAdviseDontNeed k x q s
  | .engineFault e cause => Sys2Proof.Machine.execEngineFault e cause s
  | .seStall e => Sys2Proof.Machine.execSeStall e s
  | .engineFence fn e => Sys2Proof.Machine.execEngineFence fn e s
  | .engineFenceDrained e => Sys2Proof.Machine.execEngineFenceDrained e s
  | .engineTest fn e => Sys2Proof.Machine.execEngineTest fn e s
  | .engineTestDone e pass => Sys2Proof.Machine.execEngineTestDone e pass s
  | .walkEnd k req va wr parity => Sys2Proof.Machine.execWalkEnd k req va wr parity s
  | .faultRecordRelease k => Sys2Proof.Machine.execFaultRecordRelease k s
  | .faultResolveRetry fn k id => Sys2Proof.Machine.execFaultResolveRetry fn k id s
  | .faultResolveFail fn k id => Sys2Proof.Machine.execFaultResolveFail fn k id s
  | .faultTimeout k id => Sys2Proof.Machine.execFaultTimeout k id s
  | .faultRingWrite fn k v => Sys2Proof.Machine.execFaultRingWrite fn k v s
  | .faultConsWrite fn k v => Sys2Proof.Machine.execFaultConsWrite fn k v s
  | .invCmdRange fn k vpn pagesM1 => Sys2Proof.Machine.execInvCmdRange fn k vpn pagesM1 s
  | .invCmdPartition fn k => Sys2Proof.Machine.execInvCmdPartition fn k s
  | .invComplete k => Sys2Proof.Machine.execInvComplete k s
  | .mfRootWrite fn k v => Sys2Proof.Machine.execMfRootWrite fn k v s
  | .shareWinWrite fn k n v => Sys2Proof.Machine.execShareWinWrite fn k n v s
  | .hotRingWrite fn k v => Sys2Proof.Machine.execHotRingWrite fn k v s
  | .microtlbCountReport k req va => Sys2Proof.Machine.execMicrotlbCountReport k req va s
  | .hotEpochEnd k => Sys2Proof.Machine.execHotEpochEnd k s
  | .mcRead dpa len ctx ecc => Sys2Proof.Machine.execMcRead dpa len ctx ecc s
  | .mcWrite dpa data => Sys2Proof.Machine.execMcWrite dpa data s
  | .mcPartialWrite dpa data ecc => Sys2Proof.Machine.execMcPartialWrite dpa data ecc s
  | .wcEntryAged m granule => Sys2Proof.Machine.execWcEntryAged m granule s
  | .rowRepairComplete m pc => Sys2Proof.Machine.execRowRepairComplete m pc s
  | .refresh m pc => Sys2Proof.Machine.execRefresh m pc s
  | .refreshManagement m pc bank => Sys2Proof.Machine.execRefreshManagement m pc bank s
  | .tempSample m degC => Sys2Proof.Machine.execTempSample m degC s
  | .patrolRead m ecc => Sys2Proof.Machine.execPatrolRead m ecc s
  | .mcZfCmd fn m v => Sys2Proof.Machine.execMcZfCmd fn m v s
  | .mcZfDone m row ok => Sys2Proof.Machine.execMcZfDone m row ok s
  | .mcInject fn m v => Sys2Proof.Machine.execMcInject fn m v s
  | .caParity m retryOk => Sys2Proof.Machine.execCaParity m retryOk s
  | .quayRead k off len p ring ecc => Sys2Proof.Machine.execQuayRead k off len p ring ecc s
  | .quayWrite k off p ring data ecc => Sys2Proof.Machine.execQuayWrite k off p ring data ecc s
  | .bankReplaceComplete k bank => Sys2Proof.Machine.execBankReplaceComplete k bank s
  | .quayStrictSet fn k v => Sys2Proof.Machine.execQuayStrictSet fn k v s
  | .strictDone k => Sys2Proof.Machine.execStrictDone k s
  | .quayZfCmd fn k => Sys2Proof.Machine.execQuayZfCmd fn k s
  | .quayZfDone k ok => Sys2Proof.Machine.execQuayZfDone k ok s
  | .quayInject fn k v => Sys2Proof.Machine.execQuayInject fn k v s
  | .portParity k retryOk => Sys2Proof.Machine.execPortParity k retryOk s
  | .packetInject src dst p cargo bytes n cycle again => Sys2Proof.Machine.execPacketInject src dst p cargo bytes n cycle again s
  | .packetTurn id cycle => Sys2Proof.Machine.execPacketTurn id cycle s
  | .packetDeliver id cycle => Sys2Proof.Machine.execPacketDeliver id cycle s
  | .islandWake island cycle => Sys2Proof.Machine.execIslandWake island cycle s
  | .islandSleep island cycle => Sys2Proof.Machine.execIslandSleep island cycle s
  | .broadcast src p cycle => Sys2Proof.Machine.execBroadcast src p cycle s
  | .broadcastComplete id => Sys2Proof.Machine.execBroadcastComplete id s
  | .dealCommit fn r => Sys2Proof.Machine.execDealCommit fn r s
  | .commitDone r => Sys2Proof.Machine.execCommitDone r s
  | .routeModeWrite fn v => Sys2Proof.Machine.execRouteModeWrite fn v s
  | .routeDataWrite fn v => Sys2Proof.Machine.execRouteDataWrite fn v s
  | .crcReplay r link dir lane group wire id again => Sys2Proof.Machine.execCrcReplay r link dir lane group wire id again s
  | .laneSpare r link dir lane group wire cycle => Sys2Proof.Machine.execLaneSpare r link dir lane group wire cycle s
  | .rdS k pos line retried more => Sys2Proof.Machine.execRdS k pos line retried more s
  | .rdX k pos line retried more => Sys2Proof.Machine.execRdX k pos line retried more s
  | .upg k pos line retried more => Sys2Proof.Machine.execUpg k pos line retried more s
  | .rdOnce k pos line retried more => Sys2Proof.Machine.execRdOnce k pos line retried more s
  | .wrLine k pos line hint data retried more => Sys2Proof.Machine.execWrLine k pos line hint data retried more s
  | .wrPart k pos line hint mask data retried more => Sys2Proof.Machine.execWrPart k pos line hint mask data retried more s
  | .atomAdd k pa v retried more => Sys2Proof.Machine.execAtomAdd k pa v retried more s
  | .wb k pos line data arrives => Sys2Proof.Machine.execWb k pos line data arrives s
  | .evictClean k pos line arrives => Sys2Proof.Machine.execEvictClean k pos line arrives s
  | .grantAck k pos line => Sys2Proof.Machine.execGrantAck k pos line s
  | .ackMiss k pos line => Sys2Proof.Machine.execAckMiss k pos line s
  | .ackClean k pos line => Sys2Proof.Machine.execAckClean k pos line s
  | .dataDirty k pos line data => Sys2Proof.Machine.execDataDirty k pos line data s
  | .wbInFlight k pos line => Sys2Proof.Machine.execWbInFlight k pos line s
  | .dataS k m line => Sys2Proof.Machine.execDataS k m line s
  | .dataE k m line => Sys2Proof.Machine.execDataE k m line s
  | .grantUpg k m line => Sys2Proof.Machine.execGrantUpg k m line s
  | .fillHint k m line => Sys2Proof.Machine.execFillHint k m line s
  | .snpShr k m line => Sys2Proof.Machine.execSnpShr k m line s
  | .snpInv k m line => Sys2Proof.Machine.execSnpInv k m line s
  | .rdData k pos line => Sys2Proof.Machine.execRdData k pos line s
  | .wrAck k pos line => Sys2Proof.Machine.execWrAck k pos line s
  | .snoopTimeout k pos line => Sys2Proof.Machine.execSnoopTimeout k pos line s
  | .domainLost k => Sys2Proof.Machine.execDomainLost k s
  | .sidebandTrained t => Sys2Proof.Machine.execSidebandTrained t s
  | .siteEmpty t => Sys2Proof.Machine.execSiteEmpty t s
  | .idData t n v => Sys2Proof.Machine.execIdData t n v s
  | .mainbandTrained t up x32 gts => Sys2Proof.Machine.execMainbandTrained t up x32 gts s
  | .sidebandUnknown t => Sys2Proof.Machine.execSidebandUnknown t s
  | .siteAssign fn t v => Sys2Proof.Machine.execSiteAssign fn t v s
  | .assignDone t => Sys2Proof.Machine.execAssignDone t s
  | .siteCmdRetrain fn t => Sys2Proof.Machine.execSiteCmdRetrain fn t s
  | .moduleRetrain t m => Sys2Proof.Machine.execModuleRetrain t m s
  | .moduleRetrainDone t m loBad hiBad => Sys2Proof.Machine.execModuleRetrainDone t m loBad hiBad s
  | .flitReceive t m flit => Sys2Proof.Machine.execFlitReceive t m flit s
  | .memRd t h0 h1 => Sys2Proof.Machine.execMemRd t h0 h1 s
  | .memWr t h0 h1 data => Sys2Proof.Machine.execMemWr t h0 h1 data s
  | .memWrMask t h0 h1 mask data => Sys2Proof.Machine.execMemWrMask t h0 h1 mask data s
  | .rdRsp t tag => Sys2Proof.Machine.execRdRsp t tag s
  | .wrRsp t tag => Sys2Proof.Machine.execWrRsp t tag s
  | .crdS t h0 h1 => Sys2Proof.Machine.execCrdS t h0 h1 s
  | .crdX t h0 h1 => Sys2Proof.Machine.execCrdX t h0 h1 s
  | .cUpg t h0 h1 => Sys2Proof.Machine.execCUpg t h0 h1 s
  | .cWb t h0 h1 data => Sys2Proof.Machine.execCWb t h0 h1 data s
  | .cEvict t h0 h1 => Sys2Proof.Machine.execCEvict t h0 h1 s
  | .cGack t h0 h1 => Sys2Proof.Machine.execCGack t h0 h1 s
  | .snpRsp t h0 h1 data => Sys2Proof.Machine.execSnpRsp t h0 h1 data s
  | .redSubmit t h0 h1 data => Sys2Proof.Machine.execRedSubmit t h0 h1 data s
  | .partResetAck t k => Sys2Proof.Machine.execPartResetAck t k s
  | .partResetAckTimeout t k => Sys2Proof.Machine.execPartResetAckTimeout t k s
  | .siteReset t code => Sys2Proof.Machine.execSiteReset t code s
  | .powerPeriod r => Sys2Proof.Machine.execPowerPeriod r s
  | .voltageSettled k => Sys2Proof.Machine.execVoltageSettled k s
  | .regulatorFault k => Sys2Proof.Machine.execRegulatorFault k s
  | .pwrCtlFixed fn v => Sys2Proof.Machine.execPwrCtlFixed fn v s
  | .partAllocWrite fn p v => Sys2Proof.Machine.execPartAllocWrite fn p v s
  | .siteRelease fn v => Sys2Proof.Machine.execSiteRelease fn v s
  | .thermalTrip => Sys2Proof.Machine.execThermalTrip s
  | .flr fn => Sys2Proof.Machine.execFlr fn s
  | .flrDone fn => Sys2Proof.Machine.execFlrDone fn s
  | .powerStateChange fn d => Sys2Proof.Machine.execPowerStateChange fn d s
  | .hostLinkReset => Sys2Proof.Machine.execHostLinkReset s
  | .linkUp rate width flit => Sys2Proof.Machine.execLinkUp rate width flit s
  | .dmaAssign fn c v => Sys2Proof.Machine.execDmaAssign fn c v s
  | .dmaTail fn c tail => Sys2Proof.Machine.execDmaTail fn c tail s
  | .h2d c host => Sys2Proof.Machine.execH2d c host s
  | .d2h c host => Sys2Proof.Machine.execD2h c host s
  | .imm c host => Sys2Proof.Machine.execImm c host s
  | .hostCompletion c kind => Sys2Proof.Machine.execHostCompletion c kind s
  | .cplTimeout c => Sys2Proof.Machine.execCplTimeout c s
  | .dmaCtlStrict fn v => Sys2Proof.Machine.execDmaCtlStrict fn v s
  | .ideFault stream => Sys2Proof.Machine.execIdeFault stream s
  | .loadKey fn => Sys2Proof.Machine.execLoadKey fn s
  | .retireKey fn => Sys2Proof.Machine.execRetireKey fn s
  | .keySlotFreed k n => Sys2Proof.Machine.execKeySlotFreed k n s
  | .partCmdEnable fn k => Sys2Proof.Machine.execPartCmdEnable fn k s
  | .partCmdDisable fn k => Sys2Proof.Machine.execPartCmdDisable fn k s
  | .partCmdAssign fn k => Sys2Proof.Machine.execPartCmdAssign fn k s
  | .partCmdReset fn k => Sys2Proof.Machine.execPartCmdReset fn k s
  | .partitionResetDrained k => Sys2Proof.Machine.execPartitionResetDrained k s
  | .partitionResetComplete k => Sys2Proof.Machine.execPartitionResetComplete k s
  | .partCmdRelease fn k => Sys2Proof.Machine.execPartCmdRelease fn k s
  | .scrubDrainEnd k => Sys2Proof.Machine.execScrubDrainEnd k s
  | .scrubDone k writesOk => Sys2Proof.Machine.execScrubDone k writesOk s
  | .sealCmd fn => Sys2Proof.Machine.execSeal fn s
  | .sealComplete k => Sys2Proof.Machine.execSealComplete k s
  | .unsealCmd fn => Sys2Proof.Machine.execUnseal fn s
  | .extend fn => Sys2Proof.Machine.execExtend fn s
  | .getVersion fn => Sys2Proof.Machine.execGetVersion fn s
  | .getCapabilities fn => Sys2Proof.Machine.execGetCapabilities fn s
  | .negotiateAlgorithms fn asym hash dhe aead => Sys2Proof.Machine.execNegotiateAlgorithms fn asym hash dhe aead s
  | .getDigests fn => Sys2Proof.Machine.execGetDigests fn s
  | .getCertificate fn slot offset len => Sys2Proof.Machine.execGetCertificate fn slot offset len s
  | .challenge fn slot nonce => Sys2Proof.Machine.execChallenge fn slot nonce s
  | .getMeasurements fn index nonce => Sys2Proof.Machine.execGetMeasurements fn index nonce s
  | .keyExchange fn share => Sys2Proof.Machine.execKeyExchange fn share s
  | .finish fn verify sig => Sys2Proof.Machine.execFinish fn verify sig s
  | .keyUpdate fn op => Sys2Proof.Machine.execKeyUpdate fn op s
  | .heartbeat fn => Sys2Proof.Machine.execHeartbeat fn s
  | .endSession fn => Sys2Proof.Machine.execEndSession fn s
  | .vendorDefinedRequest fn vendor payload => Sys2Proof.Machine.execVendorDefinedRequest fn vendor payload s
  | .query fn => Sys2Proof.Machine.execQuery fn s
  | .keyProg fn stream set key => Sys2Proof.Machine.execKeyProg fn stream set key s
  | .kSetGo fn stream set => Sys2Proof.Machine.execKSetGo fn stream set s
  | .kSetStop fn stream set => Sys2Proof.Machine.execKSetStop fn stream set s
  | .getNonce => Sys2Proof.Machine.execGetNonce s
  | .lcTransition rowIntact => Sys2Proof.Machine.execLcTransition rowIntact s
  | .installOwnerKey fuseOk => Sys2Proof.Machine.execInstallOwnerKey fuseOk s
  | .raiseSecVersion fuseOk => Sys2Proof.Machine.execRaiseSecVersion fuseOk s
  | .setAdmissionList fuseOk flashOk => Sys2Proof.Machine.execSetAdmissionList fuseOk flashOk s
  | .setGeometry fuseOk => Sys2Proof.Machine.execSetGeometry fuseOk s
  | .raiseDebugEpoch fuseOk => Sys2Proof.Machine.execRaiseDebugEpoch fuseOk s
  | .installDebugCert flashOk => Sys2Proof.Machine.execInstallDebugCert flashOk s
  | .removeDebugCert flashOk => Sys2Proof.Machine.execRemoveDebugCert flashOk s
  | .clearAudit => Sys2Proof.Machine.execClearAudit s
  | .stageData => Sys2Proof.Machine.execStageData s
  | .errorReport badParity => Sys2Proof.Machine.execErrorReport badParity s
  | .collClear fn v => Sys2Proof.Machine.execCollClear fn v s
  | .hang k x q waitPage => Sys2Proof.Machine.execHang k x q waitPage s
  | .teardownStuck k x => Sys2Proof.Machine.execTeardownStuck k x s
  | .jobAbortCmd fn j => Sys2Proof.Machine.execJobAbortCmd fn j s
  | .jobAbort j => Sys2Proof.Machine.execJobAbort j s
  | .devReset fn v => Sys2Proof.Machine.execDevReset fn v s
  | .deviceResetDrained => Sys2Proof.Machine.execDeviceResetDrained s
  | .wdogTuiner second => Sys2Proof.Machine.execWdogTuiner second s
  | .dumpAck fn v => Sys2Proof.Machine.execDumpAck fn v s
  | .perstAssert cut => Sys2Proof.Machine.execPerstAssert cut s
  | .perstRelease => Sys2Proof.Machine.execPerstRelease s
  | .powerLoss cut => Sys2Proof.Machine.execPowerLoss cut s
  | .sysclkStop => Sys2Proof.Machine.execSysclkStop s
  | .sysclkReturn => Sys2Proof.Machine.execSysclkReturn s
  | .siteRailLost t => Sys2Proof.Machine.execSiteRailLost t s
  | .railLost m => Sys2Proof.Machine.execRailLost m s
  | .trainingFail m => Sys2Proof.Machine.execTrainingFail m s
  | .entdaa da => Sys2Proof.Machine.execEntdaa da s
  | .rstdaa => Sys2Proof.Machine.execRstdaa s
  | .enec => Sys2Proof.Machine.execEnec s
  | .disec => Sys2Proof.Machine.execDisec s
  | .setmwl n => Sys2Proof.Machine.execSetmwl n s
  | .setmrl n => Sys2Proof.Machine.execSetmrl n s
  | .getmwl => Sys2Proof.Machine.execGetmwl s
  | .getmrl => Sys2Proof.Machine.execGetmrl s
  | .getpid => Sys2Proof.Machine.execGetpid s
  | .getbcr => Sys2Proof.Machine.execGetbcr s
  | .getdcr => Sys2Proof.Machine.execGetdcr s
  | .getstatus => Sys2Proof.Machine.execGetstatus s
  | .status => Sys2Proof.Machine.execStatus s
  | .ident => Sys2Proof.Machine.execIdent s
  | .thermal => Sys2Proof.Machine.execThermal s
  | .power => Sys2Proof.Machine.execPower s
  | .mbxWrite off data badParity => Sys2Proof.Machine.execMbxWrite off data badParity s
  | .mbxSend pcieSameCycle => Sys2Proof.Machine.execMbxSend pcieSameCycle s
  | .mbxRead => Sys2Proof.Machine.execMbxRead s
  | .mbxStat => Sys2Proof.Machine.execMbxStat s
  | .mbxAck => Sys2Proof.Machine.execMbxAck s
  | .unknownI3cCommand code => Sys2Proof.Machine.execUnknownI3cCommand code s
  | .recStatus => Sys2Proof.Machine.execRecStatus s
  | .recReset b => Sys2Proof.Machine.execRecReset b s
  | .ibi won => Sys2Proof.Machine.execIbi won s
  | .send fn sec => Sys2Proof.Machine.execSend fn sec s
  | .mbxTake sec f => Sys2Proof.Machine.execMbxTake sec f s
  | .mbxResponse sec f => Sys2Proof.Machine.execMbxResponse sec f s
  | .ack fn sec => Sys2Proof.Machine.execAck fn sec s
  | .mbxTimeout sec f => Sys2Proof.Machine.execMbxTimeout sec f s
  | .triggerEnable fn t v => Sys2Proof.Machine.execTriggerEnable fn t v s
  | .recorderFence fn => Sys2Proof.Machine.execRecorderFence fn s
  | .fenceDone => Sys2Proof.Machine.execFenceDone s
  | .evrClear fn => Sys2Proof.Machine.execEvrClear fn s
  | .auditMirror => Sys2Proof.Machine.execAuditMirror s
  | .secondsSave => Sys2Proof.Machine.execSecondsSave s
  | .cvuOpen fn u => Sys2Proof.Machine.execCvuOpen fn u s
  | .cvuClose fn u => Sys2Proof.Machine.execCvuClose fn u s
  | .cvuFeed fn u v => Sys2Proof.Machine.execCvuFeed fn u v s
  | .cvuAssign fn u v => Sys2Proof.Machine.execCvuAssign fn u v s
  | .cvuRunWrite fn u alive v => Sys2Proof.Machine.execCvuRunWrite fn u alive v s
  | .imgBegin flashOk => Sys2Proof.Machine.execImgBegin flashOk s
  | .imgChunk flashOk => Sys2Proof.Machine.execImgChunk flashOk s
  | .imgCommit => Sys2Proof.Machine.execImgCommit s
  | .bootStatus f => Sys2Proof.Machine.execBootStatus f s
  | .forceFullTraining f => Sys2Proof.Machine.execForceFullTraining f s
  | .badPagesBegin f => Sys2Proof.Machine.execBadPagesBegin f s
  | .badPagesAppend f => Sys2Proof.Machine.execBadPagesAppend f s
  | .badPagesCommit f => Sys2Proof.Machine.execBadPagesCommit f s
  | .shutdown f => Sys2Proof.Machine.execShutdown f s
  | .bootConfigRead f => Sys2Proof.Machine.execBootConfigRead f s
  | .bootConfigWrite f => Sys2Proof.Machine.execBootConfigWrite f s
  | .watchdogKick => Sys2Proof.Machine.execWatchdogKick s
  | .pwrOkFall => Sys2Proof.Machine.execPwrOkFall s
  | .railRestored site n => Sys2Proof.Machine.execRailRestored site n s
  | .configurationWrite fn w => Sys2Proof.Machine.execConfigurationWrite fn w s
  | .pmeTurnOff => Sys2Proof.Machine.execPmeTurnOff s

end Sys2Proof.Machine
end

