-- ==== Sys2Proof/Safety.lean ====
section
/-!
DEFINITION. What the statements about the package are made of: the canonical form of its registers and memories,
and what it is for a command to complete.
-/

namespace Sys2Proof.Machine

open Sys2Proof

/-- A memory lists its bytes at rising addresses, and none that reads as an unlisted byte does. -/
abbrev Memory.wf (m : List Host.Cell) : Bool := sparseWf memZero m

/-- The registers, the device memory and the host memory of a state are each in their one canonical form, so that
equal contents are equal data. -/
def State.canonical (s : State) : Prop :=
  sparseWf regReset s.regs = true ∧ Memory.wf s.mem = true ∧ Memory.wf s.hostMem = true

/-- The command completes: it answers a next state, of which `P` holds. -/
def Completes (c : Instr) (s : State) (P : State → Prop) : Prop := ∃ t, exec c s = .next t ∧ P t

/-- Function `fn` reaches register `off` of page `p` and its role writes it (R3, R4, R31, R346, R477). -/
abbrev MayWrite (s : State) (fn p off : Nat) : Prop :=
  (barOpen s fn && visible s fn p && responds s p) = true ∧ gateOk s fn p off = true

/-- Neither device memory nor host memory differs between two states. -/
abbrev SameMemory (s t : State) : Prop := t.mem = s.mem ∧ t.hostMem = s.hostMem

/-- A register in which events, and the recorder that watches them, leave their marks (R36, R39, R451, R453). -/
abbrev evtReg (p off : Nat) : Prop :=
  off = Reg.EVT_STAT ∨ (p = pgEvr ∧
    (off = Reg.EVR_STAT ∨ off = Reg.EVR_LOST ∨ off = Reg.EVR_FIRST_LOST ∨ off = Reg.ERR_COUNT ∨ off = Reg.ERR_FIRST))

/-- A function's settings without PME_Status, which an event may set (R350). -/
def withoutPme (c : CfgFn) : CfgFn := { c with pmeStatus := false }

/-- `t` is `s` but for the registers that `q` names by page and offset and for what events leave behind: the event
registers, the levels, the wire, PME_Status, WAKE#, entries of the recorder, error reports on their way to the
collector, and messages sent.  Memory, the queue and everything else are as they were. -/
structure SameBut (q : Nat → Nat → Prop) (s t : State) : Prop where
  regs : ∀ p off, off < 0x10000 → ¬ evtReg p off → ¬ q p off → rd t p off = rd s p off
  rest : t = { s with regs := t.regs, pcie := t.pcie, board := t.board, evr := t.evr, err := t.err, out := t.out }
  pcie : s.pcie = { t.pcie with wire := s.pcie.wire, levels := s.pcie.levels, cfg := s.pcie.cfg }
  cfg : t.pcie.cfg.map withoutPme = s.pcie.cfg.map withoutPme
  board : s.board = { t.board with wake := s.board.wake }
  evr : s.evr = { t.evr with gen := s.evr.gen }
  err : s.err = { t.err with reports := s.err.reports }
  out : s.out <+: t.out

/-- No register but the marks of events. -/
abbrev noReg (_ _ : Nat) : Prop := False

/-- One register. -/
abbrev oneReg (p off : Nat) (q o : Nat) : Prop := q = p ∧ o = off

/-- The state in which a unit's command begins: what is held at that moment is noted (R213, R217, R228, R235; log entry 68). -/
abbrev begun (s : State) : State := { s with gate := some (holdsOn s), stalled := none }

/-- The state once a unit's command has ended: nothing is noted any longer. -/
abbrev ended (s : State) : State := { s with gate := none, stalled := none }

/-- The unit's command `c` ends in `t`, unless an access of it has had to wait. -/
def Ends (c : Instr) (s t : State) : Prop := t.stalled = none → exec c s = .next { t with gate := none }

/-- A descriptor's unit reads a tile without a stop (R178). -/
def TileRead (s : State) (w : Work) (t : Tile) (rows : List Bytes) (s' : State) : Prop :=
  readTile s w.part w.unit t = (.ok rows, s')

/-- A descriptor's unit writes a tile without a stop (R178). -/
def TileWritten (s : State) (w : Work) (t : Tile) (rows : List Bytes) (s' : State) : Prop :=
  writeTile s w.part w.unit 0 t rows = (.ok (), s')

/-- A tensor of `cols` columns, and its scales where it is MX, reads as rows of values (R53 to R55). -/
def ValuesRead (s : State) (w : Work) (o : Opd) (f : Nat) (mx : Bool) (cols : Nat) (v : List (List Num)) (s' : State) : Prop :=
  ∃ rows s1, TileRead s w (opdTile o) rows s1 ∧
    if mx then
      ∃ sc, TileRead s1 w (scaleTile o cols) sc s' ∧ v = (rows.zip sc).map fun p => rowNums f true cols p.1 p.2
    else s' = s1 ∧ v = rows.map fun r => rowNums f false cols r []

/-- A tensor reads as rows of element codes (R53). -/
def CodesRead (s : State) (w : Work) (o : Opd) (f cols : Nat) (v : List (List Nat)) (s' : State) : Prop :=
  ∃ rows, TileRead s w (opdTile o) rows s' ∧ v = rows.map fun r => unpack (fmtOf f).w cols r

/-- Rows of pot records, of the KIND and the arithmetic version they must have, read as pots (R61, R62). -/
def RecordsRead (s : State) (w : Work) (o : Opd) (f cols : Nat) (v : List (List Pot)) (s' : State) : Prop :=
  ∃ rows, TileRead s w (opdTile o) rows s' ∧
    let rs := rows.map fun r => (List.range cols).map fun i => readRecord f (slice r (i * recordSize f) (recordSize f))
    (∀ l ∈ rs, ∀ p ∈ l, p.2.1 = f - 8 ∧ p.2.2 = arithVer s') ∧ v = rs.map fun l => l.map (·.1)

/-- Rows of elements are rounded into D, with `fl` the flags of the record (R65, R113, R129). -/
def ElemsDelivered (s : State) (w : Work) (cols : Nat) (rows : List (List Elem)) (fl : Nat) (s' : State) : Prop :=
  let d := w.desc
  let o := opdD d rows.length cols
  let out := rows.zipIdx.map fun l => deliverRow (rounding s d) ((dRow0 d + l.2) * dCols d + dCol0 d) l.1
  fl = flagBits (out.foldl (fun f x => f.or x.2.2) noFlags) ∧
  ∃ s1, TileWritten s w (opdTile o) (out.map (·.1)) s1 ∧
    if dMxD d then TileWritten s1 w (scaleTile o cols) (out.map (·.2.1)) s' else s' = s1

/-- Rows of pots are delivered into D: as records, or each rounded once (R61, R64, R129). -/
def PotsDelivered (s : State) (w : Work) (cols : Nat) (rows : List (List Pot)) (fl : Nat) (s' : State) : Prop :=
  let f := dFmtD w.desc
  if isRecord f then
    fl = flagBits ⟨rows.any fun l => l.any (·.nan), rows.any fun l => l.any (·.range), false⟩ ∧
    TileWritten s w (opdTile (opdD w.desc rows.length cols)) (rows.map fun l => l.flatMap (potRecord f (arithVer s))) s'
  else ElemsDelivered s w cols (rows.map fun l => l.map potElem) fl s'

/-- Rows of element codes are written to D. -/
def CodesDelivered (s : State) (w : Work) (cols : Nat) (rows : List (List Nat)) (s' : State) : Prop :=
  TileWritten s w (opdTile (opdD w.desc rows.length cols)) (rows.map fun l => pack (fmtOf (dFmtD w.desc)).w l) s'

/-- Chosen rows of A read one after another, each with its scale row where A is MX (R55, R114). -/
def RowsRead (s : State) (w : Work) (o : Opd) : List Nat → List (Bytes × Bytes) → State → Prop
  | [], rows, s' => rows = [] ∧ s' = s
  | i :: l, rows, s' => ∃ r sc t s1 s2, TileRead s w (opdTile (rowOf o i)) r s1 ∧
      (if dMxA w.desc then TileRead s1 w (scaleOf o (dN w.desc) i) sc s2 else sc = [] ∧ s2 = s1) ∧
      RowsRead s2 w o l t s' ∧ rows = (r.getD 0 [], sc.getD 0 []) :: t

/-- Rows written one after another to chosen rows of D, each with its scale row where D is MX (R55, R114). -/
def RowsWritten (s : State) (w : Work) (o : Opd) : List (Nat × Bytes × Bytes) → State → Prop
  | [], s' => s' = s
  | e :: l, s' => ∃ s1 s2, TileWritten s w (opdTile (rowOf o e.1)) [e.2.1] s1 ∧
      (if dMxD w.desc then TileWritten s1 w (scaleOf o (dN w.desc) e.1) [e.2.2] s2 else s2 = s1) ∧ RowsWritten s2 w o l s'

/-- An engine reads a run of list or KV bytes, which its page counts (R163). -/
def KvRead (s : State) (w : Work) (t : Tile) (b : Bytes) (s' : State) : Prop :=
  ∃ rows s1, TileRead s w t rows s1 ∧ b = rows.getD 0 [] ∧ s' = addReg s1 (sePage w) Reg.BYTES_READ t.rowBytes

/-- The tiles of up to 4 KiB in which `n` bytes of a cache list are read (R178; log entry 64). -/
def listTiles (va n : Nat) : List Tile :=
  (List.range (ceilDiv n 4096)).map fun i => ⟨va + 4096 * i, 0, 1, min (n - 4096 * i) 4096, 3⟩

/-- An engine reads tiles one after another. -/
def KvTilesRead (w : Work) : List Tile → State → Bytes → State → Prop
  | [], s, b, s' => b = [] ∧ s' = s
  | t :: l, s, b, s' => ∃ c d s1, KvRead s w t c s1 ∧ KvTilesRead w l s1 d s' ∧ b = c ++ d

/-- `n` entries of a cache list read, from entry `e0` (R139). -/
def EntriesRead (s : State) (w : Work) (base e0 n : Nat) (l : List (List Word)) (s' : State) : Prop :=
  ∃ b, KvTilesRead w (listTiles (base + 64 * e0) (64 * n)) s b s' ∧ l = (List.range n).map (entryOf b)

/-- The pages of tiles are translated, none of them faulting, before any is read (R146). -/
def Probed (w : Work) : List Tile → State → State → Prop
  | [], s, s' => s' = s
  | t :: l, s, s' => ∃ pages s1,
      translatePages s w.part w.unit false (tilePages t.va t.pitch t.rows t.rowBytes) = (.ok pages, s1) ∧ Probed w l s1 s'

/-- Rows of one head's slab read, with their scales where they have them (R141). -/
def SlabRead (s : State) (w : Work) (e : List Word) (v : Bool) (h j0 n : Nat) (rows : List (List Num)) (s' : State) : Prop :=
  ∃ b sc s1, KvRead s w (kvTile e v h j0 n) b s1 ∧
    (if kvMx e v then KvRead s1 w (kvScaleTile e v h j0 n) sc s' else sc = [] ∧ s' = s1) ∧
    rows = (List.range n).map fun j => rowNums (kvFmt e v) (kvMx e v) (kvDim e)
      (slice b (j * (kvRow e v).1) (kvRow e v).1) (slice sc (j * (kvRow e v).2) (kvRow e v).2)

/-- The keys and values of one head over pieces of a token range, read in order (R144). -/
def RangeRead (w : Work) (list : List (List Word)) (h : Nat) :
    List (Nat × Nat × Nat) → State → List (List Num × List Num) → State → Prop
  | [], s, kv, s' => kv = [] ∧ s' = s
  | (i, j0, n) :: l, s, kv, s' => ∃ ks vs t s1 s2, SlabRead s w (list.getD i []) false h j0 n ks s1 ∧
      SlabRead s1 w (list.getD i []) true h j0 n vs s2 ∧ RangeRead w list h l s2 t s' ∧ kv = ks.zip vs ++ t

/-- A sweep engine writes a tile with the hint of its field of COH_HINT (R282). -/
def TileHinted (s : State) (w : Work) (t : Tile) (rows : List Bytes) (s' : State) : Prop :=
  writeTile s w.part w.unit (engineHint s w.part w.unit) t rows = (.ok (), s')

/-- Runs of bytes written one after another, with a hint (R159, R282). -/
def RunsWritten (w : Work) (hint : Nat) : List (Tile × Bytes) → State → State → Prop
  | [], s, s' => s' = s
  | e :: l, s, s' => ∃ s1, writeTile s w.part w.unit hint e.1 [e.2] = (.ok (), s1) ∧ RunsWritten w hint l s1 s'

/-- The bounds of the heads of one entry over its present slots (R160). -/
def HeadBoundsRead (w : Work) (e : List Word) : List Nat → State → List (Option Int) → State → Prop
  | [], s, b, s' => b = [] ∧ s' = s
  | h :: l, s, b, s' => ∃ m t s1, (if min (kvCount e) 256 = 0 then m = none ∧ s1 = s else
      ∃ rows bs, SlabRead s w e false h 0 (min (kvCount e) 256) rows s1 ∧ boundsOf rows = .ok bs ∧ m = maxBound bs) ∧
      HeadBoundsRead w e l s1 t s' ∧ b = m :: t

/-- The bounds of the heads of several entries (R160). -/
def BoundsRead (w : Work) : List (List Word) → State → List (List (Option Int)) → State → Prop
  | [], s, b, s' => b = [] ∧ s' = s
  | e :: l, s, b, s' => ∃ m t s1, HeadBoundsRead w e (List.range (kvHeads e)) s m s1 ∧ BoundsRead w l s1 t s' ∧ b = m :: t

/-- A range of device memory can be read: no burst, word or page of it fails, and no armed injection strikes it (R209, R214,
R219, R227, R236). -/
abbrev Clean (s : State) (a n : Nat) : Prop := rangeUe s a n = false ∧ struck s a n = []

/-- A range of device memory can be written: no page of it is BLOCKED, and the bursts and words it covers in part can be
read (R203, R214, R224). -/
abbrev Writable (s : State) (a n : Nat) : Prop :=
  blockedRange s a n = false ∧ ∀ g ∈ partUnits a n, badUnits s g (unitSize g) = [] ∧ struck s g (unitSize g) = []

/-- The last thing sent out is this answer. -/
abbrev Answers (s t : State) (r : Out) : Prop := t.out.getLast? = some r ∧ s.out <+: t.out.dropLast

/-- A command that ends what requests wait for does what it does with none waiting, and serves those then, in their order,
that nothing else holds (R213, R217, R228, R235). -/
def ThenServes (c : Instr) (s : State) : Prop :=
  ∃ u, exec c { s with heldPorts := [] } = .next u ∧
    exec c s = .next (s.heldPorts.foldl (fun t e => if portHeld t e.2 then holdPort t e else portNow t e.2) u)

/-- Device memory differs from that of `s` only in holding the bytes `b` from `a`. -/
def Stored (s t : State) (a : Nat) (b : Bytes) : Prop :=
  t.hostMem = s.hostMem ∧ ∀ x, readMem t x = if a ≤ x ∧ x < a + b.length then b.getD (x - a) 0 else readMem s x

/-- Device memory differs from that of `s` only in reading as zero from `lo` up to `hi`. -/
def Zeroed (s t : State) (lo hi : Nat) : Prop :=
  t.hostMem = s.hostMem ∧ ∀ x, readMem t x = if lo ≤ x ∧ x < hi then 0 else readMem s x

/-- Nothing waits at the home of a line for it: no transaction of the line is open, no request for it has arrived, and no retry
and no request waits for that home (R276, R277). -/
abbrev HomeQuiet (s : State) (k line : Nat) : Prop :=
  lineTxn s k line = none ∧ (∀ r ∈ s.coh.arrivals, ¬(r.1 = k ∧ r.2.2.1 = line)) ∧
  (∀ r ∈ s.coh.retries, ¬(r.part = k ∧ homeOf r.line = homeOf line)) ∧
  ∀ r ∈ s.coh.waits, ¬(r.1 = k ∧ homeOf r.2.2.1 = homeOf line)

/-- The home of a line takes a request for it at once: the line is the partition's own, its domain stands, nothing waits there,
its table has a general entry left, the line's set of the directory a way, and its memory is good (R268, R273, R276 to R278,
R289). -/
abbrev HomeReady (s : State) (k line : Nat) : Prop :=
  k < 16 ∧ ownRange k (line * 128) 128 = true ∧ domainLost s k = false ∧ HomeQuiet s k line ∧
  homeLoad s k (homeOf line) < 78 ∧ (dirSetEntries s k line).length < 12 ∧ Clean s (line * 128) 128

/-- F0's secure mailbox holds a taken request `b` of this code that the checks of R398 pass, its arguments apart: nothing
set outside the named fields, a signer that may send it, this unit, a signature that verifies, the nonce given out, the
life-cycle state and the counter. -/
abbrev SignedOk (s : State) (code : Nat) (b : Bytes) (args : List (Nat × Nat)) (signer : Nat → Bool) (counter : Nat) : Prop :=
  takenReq s true 0 code = some b ∧ auditRoom s = true ∧ restZero b (headFields ++ args) = true ∧
  signer (leAt b 3 1) = true ∧ leAt b 8 8 = s.fuse.unitId.toNat ∧ requestSigned s b = true ∧
  s.sec.nonce = some (slice b 16 32) ∧ leAt b 52 1 = lcState s ∧ leAt b 48 4 = counter

/-- What a chiplet's request of a type is to the ingress of its site (R307, R315). -/
def siteEntry (t ty : Nat) (h0 h1 : Word) (data mask : Bytes) : SiteReq :=
  ⟨t, hTag h0, if knownType (fld h0 0 8) then setFld h0 0 8 ty else h0, h1, data, mask, hPart h0, none, none, none, [], none,
    false⟩

/-- The ingress has counted the bytes of a request and taken it (R307, R325). -/
def siteTaken (s : State) (t ty : Nat) (h0 h1 : Word) (data mask : Bytes) : State :=
  let s0 := addReg s (pgSite t) Reg.SITE_RX_BYTES (16 + mask.length + data.length)
  { s0 with siteReqs := s0.siteReqs ++ [siteEntry t ty h0 h1 data mask] }

/-- A message of `n` flits leaves a site at once: none waits before it, no partition there is being scrubbed, a module carries
flits, and the window has room (R312, R313). -/
abbrev LinkOpen (s : State) (t n : Nat) : Prop :=
  (siteOf s t).toSend = [] ∧ siteQuiet s t = false ∧ activeModules s t ≠ [] ∧ unacked (siteOf s t) + n ≤ 4096

/-- The work of REDUCE_COLLECT as the core that merges its records has it (R62, R320). -/
def mergedOn (w : Work) (u : Nat) : Work := { w with unit := u, phase := .run }

/-- The records that REDUCE_COLLECT has collected, as a tensor (R317). -/
def collected (w : Work) : Opd :=
  { opdA w.desc (dM w.desc) (dN w.desc * dK w.desc) with rb := dN w.desc * dK w.desc * recordSize (dFmtA w.desc) }

/-- The highest bound of a head over the entries that give one (R146). -/
def boundOver (list : List (List Word)) (h : Nat) : Option Int :=
  list.foldl (fun (m : Option Int) e =>
    match m, kvBoundOf e h with
    | none, b => b
    | some a, none => some a
    | some a, some b => some (max a b)) none

/-- What ATTN_PARTIAL makes of each row of Q: the anchor, the sweep and the fingerprint (R145 to R149, R153). -/
def attnRows (d : List Word) (list : List (List Word)) (qrows : List Bytes) (kv : List (List Num × List Num)) :=
  qrows.zipIdx.map fun y =>
    let qn := rowNums (dFmtA d) false (dN d) y.1 []
    let a := anchor d (boundOver list (dHead d)) qn
    (a, sweepRow d a qn y.2 kv, fingerprint d (kvDcode (list.getD 0 [])) (listCrc list) y.2 y.1)

/-- The partials of those rows (R152). -/
def attnPartials (ver : Nat) (d : List Word) (list : List (List Word)) (qrows : List Bytes) (kv : List (List Num × List Num)) :
    List Bytes :=
  (attnRows d list qrows kv).map fun r => partialBytes ver r.1 r.2.1.tmax (dT0 d) (dT1 d) r.2.2 (dTotal d)
    (kvDcode (list.getD 0 [])) r.2.1.wsat (!r.2.1.attended) r.2.1.den r.2.1.num

/-- A state in which this nonce has been given out (R398). -/
def withNonce (s : State) (n : Bytes) : State := { s with sec := { s.sec with nonce := some n } }

/-- The answer a receiver puts into mailbox `fn`, the secure one where `sec`: CODE with bit 15, STATUS, and a body (R360). -/
def mbxAnswer (sec : Bool) (fn code status : Nat) (body : Bytes) : Pending :=
  ⟨sec, fn, fitBytes (natBytes (code + 0x8000) 2 ++ [BitVec.ofNat 8 status, 0] ++ body) 256⟩

end Sys2Proof.Machine
end

