-- ==== Sys2Proof/Certificates/Slice0/Obligations.lean ====
section
/-! DEFINITION. The statements of this model for the provers, one per group of commands and per kind of state, in the order
of the spec's chapters.  A clause marked in its docstring with a log entry rests on the model's choice. -/

open Sys2Proof Sys2Proof.Machine

/-- Log entry 1: one step takes the command at the front of the queue and gives the outcome of `exec` on the state with the
queue's rest.  Clauses: STEP. -/
def Obligations.AStepRunsTheFrontCommand : Prop :=
  ∀ (c : Instr) (s : State), step { s with pending := c :: s.pending } = exec c s

/-- R163, R169, R251, R256, R265, R416, R491, R499: with the queue empty, power good and the clock running, one cycle of
40 ns passes: `ERR_TIME` counts it, the rings' counter its 80 ring cycles, the regulators' tokens and the record of the
slots used follow, and owner slots left idle and the cycles of busy engines are counted.  Nothing else changes but what
waits for a manifest's accesses to drain.  Without power or clock nothing does.  That an idle step is one cycle is the
model's choice (log entry 1).  Clauses: STEP. -/
def Obligations.AnIdleStepIsOneCycle : Prop :=
  ∀ (s : State), s.canonical → s.pending = [] →
    (s.board.pwrOk = true → s.board.sysclk = true → s.xlat.shareWaits = [] → s.xlat.resets = [] →
      ∃ t, step s = .next t ∧ rd t pgErr Reg.ERR_TIME = rd s pgErr Reg.ERR_TIME + 1 ∧ t.fab.clock = s.fab.clock + 80 ∧
        (∀ p off, off < 0x10000 → ¬(p = pgErr ∧ off = Reg.ERR_TIME) → ¬(blockOf p = some .ring ∧ off = Reg.IDLE_OWNED) →
          ¬(blockOf p = some .sweep ∧ (off = Reg.BUSY_CYCLES ∨ off = Reg.MEM_WAIT)) → rd t p off = rd s p off) ∧
        (∀ e w, e < 64 → engineWork s e = some w →
          rd t (pgSe e) Reg.BUSY_CYCLES = rd s (pgSe e) Reg.BUSY_CYCLES + w64 (rf s (pgSe e) Reg.SE_ISLAND_CLK 0 12 / 25)) ∧
        t = { s with regs := t.regs, fab := { s.fab with tokens := t.fab.tokens, clock := t.fab.clock, used := t.fab.used } }) ∧
    (s.board.pwrOk = false ∨ s.board.sysclk = false → step s = .next s)

/-- R34, R43 and the reset columns of the register tables: what registers hold after reset.  The queue, the memories and what
is in flight are empty.  Clauses: RESET.

Where the rules leave a point open, the clauses rest on the choices of log entries 3, 4 and 5. -/
def Obligations.ResetHoldsTheTablesValues : Prop :=
  let r := fun p off => rd State.reset p off
  (∀ p ∈ [(0, 0x01, 0, 0x0201), (1, 0x13, 0, 0x0200), (2, 0x0B, 0, 0x0200), (3, 0x0C, 0, 0x0302), (4, 0x0D, 0, 0x0201),
      (5, 0x0E, 0, 0x0200), (6, 0x12, 0, 0x0101), (7, 0x09, 0, 0x0203), (9, 0x0F, 1, 0x0100), (23, 0x10, 7, 0x0100),
      (63, 0x0A, 31, 0x0202), (79, 0x11, 15, 0x0301), (143, 0x02, 15, 0x0302), (383, 0x03, 127, 0x0300),
      (575, 0x04, 63, 0x0301), (647, 0x05, 7, 0x0203), (671, 0x06, 15, 0x0201), (687, 0x07, 7, 0x0202),
      (703, 0x08, 3, 0x0300)],
    rf State.reset p.1 Reg.PAGE_ID 48 16 = p.2.1 ∧ rf State.reset p.1 Reg.PAGE_ID 40 8 = p.2.2.1 ∧
      rf State.reset p.1 Reg.PAGE_ID 24 16 = p.2.2.2) ∧
  rf State.reset pgPwr Reg.THERM_CFG 0 16 = 0x645A ∧ r pgPcie Reg.LINK_CTL = 0x6 ∧ r pgI3c Reg.I3C_CFG = 0x701 ∧
  (∀ m, m < 8 → rf State.reset (pgMc m) Reg.MC_CFG 0 2 = 2 ∧ rf State.reset (pgMc m) Reg.MC_CFG 8 4 = 4 ∧
    rf State.reset (pgMc m) Reg.MC_CFG 16 8 = 0x18) ∧
  (∀ k, k < 16 → rf State.reset (pgQuay k) Reg.QUAY_CFG 8 8 = 0x80 ∧ rf State.reset (pgQuay k) Reg.QUAY_CFG 16 8 = 0x20 ∧
    rf State.reset (pgQuay k) Reg.QUAY_CFG 24 4 = 4 ∧ rf State.reset (pgPart k) Reg.OWNER 0 8 = k) ∧
  (∀ i, i < 4 → rf State.reset (pgSite i) Reg.SITE_CFG 8 8 = 0x20) ∧
  State.reset.pending = [] ∧ State.reset.mem = [] ∧ State.reset.hostMem = [] ∧ State.reset.work = [] ∧
  State.reset.boot.phase = .off ∧ r pgErr Reg.ERR_TIME = 0

/-- The registers and memories of the state after reset are in their canonical form.  Clauses: RESET.

Where the rules leave a point open, the clauses rest on the choices of log entries 3, 4 and 5. -/
def Obligations.ResetIsCanonical : Prop := State.reset.canonical

/-- The invariant of every step, whatever command stands at the front of the queue: registers, device memory and host
memory keep their canonical form, in which equal contents are equal data.  Clauses: STEP, every command. -/
def Obligations.EveryStepKeepsTheCanonicalForm : Prop :=
  ∀ (s t : State), s.canonical → step s = .next t → t.canonical

/-- No command changes the queue of those that wait behind it.  Clauses: every command. -/
def Obligations.CommandsLeaveTheQueue : Prop :=
  ∀ (c : Instr) (s t : State), s.canonical → exec c s = .next t → t.pending = s.pending

/-- R167: every command answers a next state but a memory controller's read or write of a device physical address that
lies in no group and in no slice, which does not exist; none is refused.  Clauses: every command.

Where the rules leave a point open, the clauses rest on the choices of log entry 62. -/
def Obligations.OnlyReservedAddressesStop : Prop :=
  ∀ (c : Instr) (s : State),
    (∃ t, exec c s = .next t) ∨
      exec c s = .fault .reservedAddress ∧ ∃ a, groupOf a = none ∧ quayOf a = none ∧
        ((∃ n ctx ecc, c = .mcRead a n ctx ecc) ∨ (∃ b, c = .mcWrite a b) ∨ ∃ b ecc, c = .mcPartialWrite a b ecc)

/-- R59: pot addition is integer addition modulo 2^W, so a pot holds the same value for every order and every grouping of
its terms, and the true sum where that lies in its range.  W is 640 for a pot as the model keeps it; the record of a
pot-128 holds the sum, in its own unit of 2^-48, modulo 2^128.  The attributes of R60 do not depend on the order either.
Clauses: potAdd, potMerge, potRecord. -/
def Obligations.PotAdditionIsModularAndFreeOfOrder : Prop :=
  ∀ (p q r : Pot) (l l' : List Machine.Num) (ver : Nat),
    let sum := (l.map (units 320)).sum
    let pot := l.foldl potAdd potZero
    potMerge p q = potMerge q p ∧ potMerge (potMerge p q) r = potMerge p (potMerge q r) ∧
    (l.Perm l' → l'.foldl potAdd p = l.foldl potAdd p) ∧
    ((l ++ l').foldl potAdd potZero = potMerge pot (l'.foldl potAdd potZero)) ∧
    (pot.v - sum) % 2 ^ 640 = 0 ∧ -2 ^ 639 ≤ pot.v ∧ pot.v < 2 ^ 639 ∧
    (-2 ^ 639 ≤ sum → sum < 2 ^ 639 → pot.v = sum) ∧
    leAt (potRecord 9 ver pot) 0 16 = ((sum / 2 ^ 272) % 2 ^ 128).toNat ∧
    (2 ^ 272 ∣ sum → -2 ^ 399 ≤ sum → sum < 2 ^ 399 → (readRecord 9 (potRecord 9 ver pot)).1.v = sum) ∧
    pot.terms = min l.length (2 ^ 48 - 1) ∧ pot.range = decide (2 ^ 32 < l.length) ∧
    pot.nan = l.contains .nan ∧ pot.posInf = l.contains (.inf false) ∧ pot.negInf = l.contains (.inf true)

/-- R50, R64, R65, R68: the value of an element code rounds to that code again, in every mode and without overflow.
Clauses: decodeElem, roundNum. -/
def Obligations.ElementValuesRoundToThemselves : Prop :=
  ∀ (f c m : Nat) (mx sat s : Bool) (e : Int) (mode : RMode),
    f < 9 → c < 2 ^ (fmtOf f).w → decodeElem f mx c = .fin s m e → roundNum mode f mx sat (.fin s m e) = (c, false)

/-- R65: a finite value that rounds to nearest without overflow takes a code whose value is at least as near as that of
every other code of the format, and an even code where two values are equally near.  Values are compared as integers in
the unit of the smallest weight that occurs.  Clauses: roundNum, decodeElem. -/
def Obligations.RoundingTakesTheNearestEvenCode : Prop :=
  ∀ (f m c : Nat) (mx sat s : Bool) (e : Int), f < 9 → m ≠ 0 → roundNum .rne f mx sat (.fin s m e) = (c, false) →
    ∃ s1 k q, decodeElem f mx c = .fin s1 k q ∧ c < 2 ^ (fmtOf f).w ∧
      ∀ d s2 k2 q2, d < 2 ^ (fmtOf f).w → decodeElem f mx d = .fin s2 k2 q2 →
        let lo := min e (min q q2)
        let val := fun (neg : Bool) (n : Nat) (w : Int) =>
          if neg then -((n * 2 ^ (w - lo).toNat : Nat) : Int) else ((n * 2 ^ (w - lo).toNat : Nat) : Int)
        let here := (val s1 k q - val s m e).natAbs
        let there := (val s2 k2 q2 - val s m e).natAbs
        here ≤ there ∧ (here = there → val s1 k q ≠ val s2 k2 q2 → c % 2 = 0)

/-- R66, R67: a pot whose value is zero with no flag rounds to +0; a value other than zero that rounds to zero keeps its sign,
and a zero its own; NaN, RANGE or opposite infinities give the format's NaN, and an infinity its overflow result.
Clauses: potNum, roundNum. -/
def Obligations.ZerosInfinitiesAndNansAreDelivered : Prop :=
  ∀ (mode : RMode) (f : Nat) (mx sat : Bool) (p : Pot), f < 9 →
    let round := fun (x : Machine.Num) => roundNum mode f mx sat x
    let zero := fun (s : Bool) => if f < 8 ∧ s = true then 2 ^ ((fmtOf f).w - 1) else 0
    (p.nan = false → p.range = false → p.posInf = false → p.negInf = false → p.v = 0 → round (potNum p) = (0, false)) ∧
    (∀ s e, round (.fin s 0 e) = (zero s, false)) ∧
    (∀ s m e c e', m ≠ 0 → round (.fin s m e) = (c, false) → (∃ s', decodeElem f mx c = .fin s' 0 e') → c = zero s) ∧
    (p.nan = true ∨ p.range = true ∨ p.posInf = true ∧ p.negInf = true → round (potNum p) = (nanCode f, false)) ∧
    (p.nan = false → p.range = false →
      (p.posInf = true → p.negInf = false → round (potNum p) = (overflowCode f sat false, true)) ∧
      (p.posInf = false → p.negInf = true → round (potNum p) = (overflowCode f sat true, true))) ∧
    (∀ x ∈ [(0, 0x7F800000, 0xFF800000, 0x7F7FFFFF, 0xFF7FFFFF, 0x7FC00000), (1, 0x7F80, 0xFF80, 0x7F7F, 0xFF7F, 0x7FC0),
        (2, 0x7C00, 0xFC00, 0x7BFF, 0xFBFF, 0x7E00), (3, 0x7C, 0xFC, 0x7B, 0xFB, 0x7E), (4, 0x7F, 0x7F, 0x7E, 0xFE, 0x7F),
        (5, 0x1F, 0x3F, 0x1F, 0x3F, 0), (6, 0x1F, 0x3F, 0x1F, 0x3F, 0), (7, 0x7, 0xF, 0x7, 0xF, 0),
        (8, 0x7F, 0x80, 0x7F, 0x80, 0)],
      overflowCode x.1 false false = x.2.1 ∧ overflowCode x.1 false true = x.2.2.1 ∧
      overflowCode x.1 true false = x.2.2.2.1 ∧ overflowCode x.1 true true = x.2.2.2.2.1 ∧ nanCode x.1 = x.2.2.2.2.2)

/-- R35, R39, R294, R295: an accepted write of `PAGE_CTL` moves the page: ENABLE to TRAINING where the block trains and else to
READY, or to FAULT for a ring with a link down; ENABLE cleared to OFF; QUIESCE requested and withdrawn; and ERR_REARM.
A site enabled trains its sideband first, a site in service that is disabled loses its assignment's domains, the endpoint
disabled its link; messages that waited for a site go out when a quiesce ends.  Clauses: PAGE_ENABLE, PAGE_DISABLE,
QUIESCE_REQUEST, QUIESCE_RESUME, ERR_REARM.

R34, R35, R36, R40, R41, R295, R489, R499: a drained page is QUIESCED; a controller whose stack has its rails and has
trained is READY; a write of LOCK sets it; a page that is reset ends READY (a ring with a link down and a controller with
a failed rail in FAULT) where ENABLE is then 1 and else OFF, with QUIESCE 0; a unit whose fence ended meanwhile stays
FENCED, a MANIFEST page is RESET until its accesses have drained, a site trains afresh; and the registers of a vector unit
or ring hold their reset values; a write of `EVT_SET` sets each bit it names.  Clauses: QUIESCE_DRAINED, BLOCK_TRAINED,
LOCK, RESET_REQ, EVT_SET.

Where the rules leave a point open, the clauses rest on the choices of log entries 15, 17, 18 and 21. -/
def Obligations.PagesMoveAsPageCtlAsks : Prop :=
  (∀ (fn p : Nat) (v : Word) (s : State), s.canonical → MayWrite s fn p Reg.PAGE_CTL →
      viewHeader fn p Reg.PAGE_CTL = false → ctlOk s p v = true → bit v 2 = false →
      let ctlRegs := fun q o => q = p ∧ (o = Reg.PAGE_CTL ∨ o = Reg.PAGE_STAT ∨ o = Reg.ERR_FIRST)
      let site := blockOf p = some .site
      (enabled s p = false → bit v 0 = true →
        Completes (.pageEnable fn p v) s fun t =>
          pageState t p = (match blockOf p with
            | some .mc | some .pcie | some .site => 2
            | _ => readyState s p) ∧ enabled t p = true ∧ (site → siteSub t (p - 700) = 1) ∧
          SameBut ctlRegs { s with sites := t.sites } t ∧ (¬site → t.sites = s.sites)) ∧
      (enabled s p = true → bit v 0 = false →
        Completes (.pageDisable fn p v) s fun t => pageState t p = 0 ∧ enabled t p = false ∧
          (site → siteSub t (p - 700) = 0) ∧ (blockOf p = some .pcie → t.pcie.link = false) ∧
          (blockOf p ≠ some .pcie → ¬(site ∧ siteAdmitted s (p - 700) = true) → SameBut ctlRegs s t)) ∧
      (enabled s p = true → bit v 0 = true → rb s p Reg.PAGE_CTL 1 = false → bit v 1 = true →
        Completes (.quiesceRequest fn p v) s fun t =>
          pageState t p = 3 ∧ rb t p Reg.PAGE_CTL 1 = true ∧ SameBut ctlRegs s t) ∧
      (enabled s p = true → bit v 0 = true → rb s p Reg.PAGE_CTL 1 = true → bit v 1 = false →
        Completes (.quiesceResume fn p v) s fun t =>
          pageState t p = 3 ∧ rb t p Reg.PAGE_CTL 1 = false ∧ SameMemory s t ∧
          ((∀ i, i < 4 → siteOf s i = { siteOf s i with toSend := [], kept := List.replicate 16 0 }) → SameBut ctlRegs s t)) ∧
      (bit v 0 = enabled s p → bit v 1 = rb s p Reg.PAGE_CTL 1 → bit v 8 = true →
        Completes (.errRearm fn p v) s fun t =>
          rd t p Reg.ERR_FIRST = 0 ∧ pageState t p = pageState s p ∧ SameBut ctlRegs s t)) ∧
  (∀ (fn p : Nat) (v : Word) (s : State), s.canonical →
      (pageState s p = 3 → rb s p Reg.PAGE_CTL 1 = true → drained s p = true →
        Completes (.quiesceDrained p) s fun t => pageState t p = 4 ∧ SameBut (oneReg p Reg.PAGE_STAT) s t) ∧
      (blockOf p = some .mc → pageState s p = 2 → s.board.hbmRails.testBit (p - 640) = true →
        s.boot.railFaults.contains p = false →
        Completes (.blockTrained p) s fun t => pageState t p = 3 ∧ SameBut (oneReg p Reg.PAGE_STAT) s t) ∧
      (MayWrite s fn p Reg.LOCK → viewHeader fn p Reg.LOCK = false →
        Completes (.lock fn p) s fun t => locked t p = true ∧ SameBut (oneReg p Reg.LOCK) s t) ∧
      (MayWrite s fn p Reg.PAGE_CTL → viewHeader fn p Reg.PAGE_CTL = false → ctlOk s p v = true → bit v 2 = true →
        let last := if s.boot.railFaults.contains p then 5 else if bit v 0 then readyState s p else 0
        Completes (.resetReq fn p v) s fun t =>
          enabled t p = bit v 0 ∧ rb t p Reg.PAGE_CTL 1 = false ∧
          (blockOf p = some .site →
            pageState t p = (if bit v 0 then 2 else 0) ∧ siteSub t (p - 700) = (if bit v 0 then 1 else 0)) ∧
          (blockOf p = some .manifest → pageState t p = 1 ∨ pageState t p = (if bit v 0 then 3 else 0)) ∧
          (blockOf p = some .cluster ∨ blockOf p = some .sweep ∨ blockOf p = some .quay →
            pageState t p = 6 ∨ pageState t p = last) ∧
          (blockOf p ≠ some .site → blockOf p ≠ some .manifest → blockOf p ≠ some .cluster → blockOf p ≠ some .sweep →
            blockOf p ≠ some .quay → pageState t p = last) ∧
          (∀ off, 0x100 ≤ off → off < 0x10000 →
            (blockOf p = some .cvu → rd t p off = resetWord s p off .cvu (rd s p off)) ∧
            (blockOf p = some .ring → rd t p off = resetWord s p off .ring (rd s p off)))) ∧
      (MayWrite s fn p Reg.EVT_SET → viewHeader fn p Reg.EVT_SET = false →
        Completes (.evtSet fn p v) s fun t =>
          (∀ i, i < 64 → bit (v &&& evtMask p) i = true → rb t p Reg.EVT_STAT i = true) ∧ SameBut noReg s t) ∧
      (MayWrite s fn p Reg.EVT_SET → viewHeader fn p Reg.EVT_SET = true → fn < 17 →
        Completes (.evtSet fn p v) s fun t =>
          (∀ i b, bit v i = true → (viewBits fn)[i]? = some b → rb t b.1 Reg.EVT_STAT b.2 = true) ∧ SameBut noReg s t))

/-- R9, R30, R36: a write of a register that is no command leaves each RW and RWL bit as written, clears the W1C bits
written 1, and keeps the rest.

R4, R9, R10, R30: an access that is not one aligned word of 64 bits is counted on its page, and a read of that kind
returns zero; a read returns what the register shows, and clears a counter that is read with clear, but for an increment
that comes in the same cycle.  Clauses: NARROW_ACCESS, RC_READ.

Where the rules leave a point open, the clauses rest on the choices of log entries 19, 20 and 22. -/
def Obligations.RegistersAreWrittenAndRead : Prop :=
  (∀ (fn off p o : Nat) (v : Word) (r : RegRow) (s : State), s.canonical → off % 8 = 0 → target fn off = some (p, o) →
      routeWrite s fn p o v = none → MayWrite s fn p o → viewHeader fn p o = false → regRow p o = some r →
      absent p o = false → (r.rw ||| r.rwl ||| r.w1c) ≠ 0 → fieldRole s fn p o v = true → valueOk s p o r v = true →
      o ≠ Reg.EVT_STAT → o ≠ Reg.EVT_EN → ¬(blockOf p = some .ring ∧ o = Reg.DEAL_DATA) →
      Completes (.registerWrite fn off v) s fun t =>
        rd t p o = (let m := w64 (r.rw ||| r.rwl)
          ((rd s p o &&& ~~~m) ||| (v &&& m)) &&& ~~~(v &&& w64 r.w1c)) ∧
        SameBut (fun q x => (q = p ∧ x = o) ∨ x = Reg.ISO_STAT) s t) ∧
  (∀ (fn off len p o : Nat) (wr coincide : Bool) (s : State), s.canonical → barOpen s fn = true →
      target fn off = some (p, o) → visible s fn p = true → responds s p = true →
      (¬(off % 8 = 0 ∧ len = 8) →
        Completes (.narrowAccess fn off len wr) s fun t =>
          rd t p Reg.REJECT_COUNT = rd s p Reg.REJECT_COUNT + 1 ∧ rb t p Reg.EVT_STAT 63 = true ∧
          (wr = false → t.out.getLast? = some (.readData fn off 0)) ∧ SameBut (oneReg p Reg.REJECT_COUNT) s t) ∧
      (off % 8 = 0 → viewHeader fn p o = false → mayRead s fn p o = true → readRole s fn p o = true → absent p o = false →
        Completes (.rcRead fn off coincide) s fun t =>
          t.out = s.out ++ [.readData fn off (showReg s fn p o)] ∧
          (∀ r, regRow p o = some r → r.rc = true → rd t p o = if coincide then 1 else 0) ∧
          ((∀ r, regRow p o = some r → r.rc = false) → t.regs = s.regs) ∧
          t = { s with regs := t.regs, out := t.out }))

/-- R117, R132, R419: CTX_OPEN, CTX_RUN, CTX_PAUSE, CTX_CLOSE and CTX_ABORT each take a context to the state the table of
R117 gives, where the write is accepted; a context that closes or aborts keeps no descriptor dispatched. -/
def Obligations.ContextCommandsMoveTheContext : Prop :=
  ∀ (fn k x : Nat) (s : State), s.canonical → k < 16 → x < 256 → MayWrite s fn (pgPart k) (Reg.CTX_CMD x) →
    let ctx := oneReg (pgPart k) (Reg.CTX_STATE x)
    (partLive s k = true → ctxState s k x = 0 → ringOk s k x = true →
      Completes (.ctxOpen fn k x) s fun t => ctxState t k x = 1 ∧ SameBut ctx s t) ∧
    (ctxState s k x = 1 ∨ ctxState s k x = 3 →
      Completes (.ctxRun fn k x) s fun t => ctxState t k x = 2 ∧ SameBut ctx s t) ∧
    (ctxState s k x = 2 → Completes (.ctxPause fn k x) s fun t => ctxState t k x = 3 ∧ SameBut ctx s t) ∧
    (ctxState s k x = 1 ∨ ctxState s k x = 3 ∨ ctxState s k x = 5 →
      Completes (.ctxClose fn k x) s fun t =>
        ctxState t k x = 4 ∧ (∀ w ∈ t.work, ¬(w.part = k ∧ w.ctx = x)) ∧ SameMemory s t) ∧
    (ctxState s k x = 1 ∨ ctxState s k x = 2 ∨ ctxState s k x = 3 →
      Completes (.ctxAbort fn k x) s fun t =>
        ctxState t k x = 5 ∧ rf t (pgPart k) (Reg.CTX_STATE x) 8 8 = 0x0E ∧
        rb t (pgPart k) (Reg.ABORT_PEND (x / 64)) (x % 64) = true ∧
        (∀ w ∈ t.work, ¬(w.part = k ∧ w.ctx = x)) ∧ SameMemory s t)

/-- R118, R117, R125, R132, R421: a tail that announces descriptors is taken; a context that drains is free once nothing of
it is outstanding and its teardown was not recorded as stuck, its entry at its reset values; a barrier's TARGET, and a
global one's JOB, the OPERATOR's alone, are taken while nothing has arrived.  Clauses: CTX_TAIL, CONTEXT_FREED,
BARRIER_TARGET_WRITE.

R99, R120, R121, R130, R132, R138, R326: the scheduler's choice takes the next descriptor of a context that is RUNNING
with its descriptor announced, whose turn it is, and nothing holding it back; it goes to the unit, HEAD advances, and the
energy bucket pays.  Where the bucket does not cover it, it is held and counted.  A descriptor that a fence gave back goes to
another unit and pays nothing.  Clauses: DISPATCH.

Where the rules leave a point open, the clauses rest on the choices of log entries 12, 29 and 63. -/
def Obligations.TailsAreTakenAndDescriptorsDispatched : Prop :=
  (∀ (fn k x b tail : Nat) (v : Word) (s : State), s.canonical → k < 16 → x < 256 → b < 64 →
      (MayWrite s fn (pgPart k) (Reg.CTX_TAIL x) → ctxState s k x = 1 ∨ ctxState s k x = 2 ∨ ctxState s k x = 3 →
        (tail % 2 ^ 32 + 2 ^ 32 - ctxHead s k x) % 2 ^ 32 < 2 ^ 31 →
        (tail % 2 ^ 32 + 2 ^ 32 - rf s (pgPart k) (Reg.CTX_STATE x) 32 32) % 2 ^ 32 ≤ 2 ^ ctxLog s k x →
        Completes (.ctxTail fn k x tail) s fun t =>
          rf t (pgPart k) (Reg.CTX_TAIL x) 0 32 = tail % 2 ^ 32 ∧ SameBut (oneReg (pgPart k) (Reg.CTX_TAIL x)) s t) ∧
      (ctxState s k x = 4 → rf s (pgPart k) (Reg.CTX_OUT x) 0 24 = 0 → s.err.stuck.contains (k, x) = false →
        Completes (.contextFreed k x) s fun t =>
          ctxState t k x = 0 ∧ rb t (pgPart k) Reg.EVT_STAT 3 = true ∧
          (∀ off, off % 8 = 0 → Reg.CTX_STATE x ≤ off → off < Reg.CTX_STATE x + 0x40 →
            rd t (pgPart k) off = regReset (regAddr (pgPart k) off)) ∧ SameMemory s t) ∧
      (MayWrite s fn (pgPart k) (Reg.BAR b) → rf s (pgPart k) (Reg.BAR b) 16 16 = 0 →
        Completes (.barrierTargetWrite fn false k b v) s fun t =>
          rf t (pgPart k) (Reg.BAR b) 0 16 = fld v 0 16 ∧ SameBut (oneReg (pgPart k) (Reg.BAR b)) s t) ∧
      (b < 32 → MayWrite s fn (pgPart k) (Reg.GBAR b) → actsOn s fn (pgPart k) true = true →
        rf s (pgPart 0) (Reg.GBAR b) 16 16 = 0 →
        Completes (.barrierTargetWrite fn true k b v) s fun t =>
          rf t (pgPart 0) (Reg.GBAR b) 0 16 = fld v 0 16 ∧ rf t (pgPart 0) (Reg.GBAR b) 48 8 = fld v 48 8 ∧
          SameBut (oneReg (pgPart 0) (Reg.GBAR b)) s t)) ∧
  (∀ (k x u : Nat) (rows : List Bytes) (s s1 : State), s.canonical → k < 16 → x < 256 → partLive s k = true →
      pageState s (pgPart k) = 3 →
      ((∀ w ∈ s.work, ¬(w.part = k ∧ w.ctx = x ∧ w.phase = .returned)) →
        ready s k x = true → energyHeld s k x = false → outranked s k x = false → hasTurn s k x = true →
        readTile (begun s) k 168
            ⟨rf s (pgPart k) (Reg.CTX_RING x) 0 52 + 64 * (ctxHead s k x % 2 ^ ctxLog s k x), 64, 1, 64, 7⟩ = (.ok rows, s1) →
        s1.stalled = none →
        let d := bytesWords (rows.getD 0 []) 8
        decodeCheck d = 0 → anyUnit s1 k (dOp d) = true → unitFits s1 k u d = true →
        (charge d ≤ (rd s1 (pgPart k) Reg.EBUCKET).toNat →
          Completes (.dispatch k x u) s fun t =>
            t.work = s1.work ++ [⟨k, x, ctxHead s1 k x, u, d, .run, [], 0⟩] ∧
            ctxHead t k x = (ctxHead s1 k x + 1) % 2 ^ 32 ∧
            rd t (pgPart k) Reg.EBUCKET = rd s1 (pgPart k) Reg.EBUCKET - w64 (charge d) ∧
            rd t (pgPart k) Reg.ECHARGED = rd s1 (pgPart k) Reg.ECHARGED + w64 (charge d) ∧ SameMemory s1 t) ∧
        ((rd s1 (pgPart k) Reg.EBUCKET).toNat < charge d →
          Completes (.dispatch k x u) s fun t =>
            t.work = s1.work ∧ rd t (pgPart k) Reg.SCHED_HELD = rd s1 (pgPart k) Reg.SCHED_HELD + 1 ∧
            (k, x, charge d) ∈ t.holds ∧ SameMemory s1 t)) ∧
      (∀ w, s.work.find? (fun w => w.part = k && w.ctx = x && w.phase = .returned) = some w →
        anyUnit s k (dOp w.desc) = true → unitFits s k u w.desc = true →
        exec (.dispatch k x u) s =
          .next (ended { s with work := s.work.erase w ++ [{ w with phase := .run, unit := u }] })))

/-- R122, R126, R127, R129, R130, R213, R217: NOP and FENCE complete OK, FENCE once every earlier descriptor of its queue
has; SIGNAL adds SEED to its word; WAIT completes OK once the word is at least SEED and else waits, to be read again or to
time out.  A command one of whose accesses reaches what is held changes nothing, and is to come again.  Clauses: NOP, FENCE,
SIGNAL, WAIT, WAIT_POLL, WAIT_TIMEOUT.

R86, R129, R130, R132: a descriptor that completes with a status that does not abort, as a NOP does, has its record
written: STATUS, DETAIL, TAG, the context, the phase bit, the operation and the arithmetic version in the first word, SEQ in
the second; DONE rises by one and the descriptor is off its unit.

Where the rules leave a point open, the clauses rest on the choices of log entries 29 and 63. -/
def Obligations.QueueOperationsCompleteWithTheirRecord : Prop :=
  (∀ (k x q : Nat) (w : Work) (s : State),
      (findWork s k x q 0x44 = some w → Ends (.nop k x q) s (completeSt (begun s) w 0)) ∧
      (findWork s k x q 0x44 = some w → (completeSt (begun s) w 0).stalled = some .held → exec (.nop k x q) s = .next s) ∧
      (findWork s k x q 0x40 = some w → fenceMet s w = true →
        Ends (.fence k x q) s (completeSt (if (dOpf w.desc).testBit 0 then flushLines (begun s) k else begun s) w 0)) ∧
      (∀ (pages segs : List (Nat × Nat × Bool)) (pa n : Nat) (nc : Bool) (s1 s2 : State),
        findWork s k x q 0x42 = some w → fenceMet s w = true →
        translatePages (begun s) k w.unit true [dD w.desc / 65536] = (.ok pages, s1) →
        segments pages 9 (dD w.desc) 8 = (pa, n, nc) :: segs →
        memAdd (serveMicro s1 k w.unit (dD w.desc) 8) k w.unit pa (dSeed w.desc) nc = (true, s2) →
        Ends (.signal k x q) s (completeSt s2 w 0)) ∧
      (∀ (rows : List Bytes) (s1 : State), TileRead (begun s) w ⟨dA w.desc, 0, 1, 8, 7⟩ rows s1 →
        let reached := (dSeed w.desc).toNat ≤ (bytesWord (rows.getD 0 [])).toNat
        (findWork s k x q 0x43 = some w → reached → Ends (.wait k x q) s (completeSt s1 w 0)) ∧
        (findWork s k x q 0x43 = some w → ¬reached → Ends (.wait k x q) s (setWork s1 w { w with phase := .waiting })) ∧
        (findWaiting s k x q = some w → reached → Ends (.waitPoll k x q) s (completeSt s1 w 0)) ∧
        (findWaiting s k x q = some w → ¬reached →
          Ends (.waitPoll k x q) s (setWork s1 w { w with phase := .waiting }))) ∧
      (findWaiting s k x q = some w → Ends (.waitTimeout k x q) s (completeSt (begun s) w 5))) ∧
  (∀ (k x q : Nat) (w : Work) (s s1 : State), s.canonical → k < 16 → x < 256 → findWork s k x q 0x44 = some w →
      ctxDead s k x = false →
      TileWritten (begun s) w ⟨rf s (pgPart k) (Reg.CTX_CPL x) 0 52 + 64 * (q % 2 ^ ctxLog s k x), 64, 1, 64, 7⟩
        [wordBytes (w64 (0 + 0 <<< 8 + dTag w.desc <<< 16 + (256 * k + x) <<< 32 +
            (if q.testBit (ctxLog s k x) then 0 else 1) <<< 44 + 0x44 <<< 48 + arithVer s <<< 56)) ++
          wordBytes (w64 (q % 2 ^ 32)) ++ List.replicate 48 0] s1 → s1.stalled = none →
      Completes (.nop k x q) s fun t =>
        rf t (pgPart k) (Reg.CTX_HEAD x) 32 32 = (rf s1 (pgPart k) (Reg.CTX_HEAD x) 32 32 + 1) % 2 ^ 32 ∧
        t.work = s1.work.erase w ∧ t.mem = s1.mem ∧ t.hostMem = s1.hostMem)

/-- R123, R124, R125: an arrival at a barrier below TARGET, a local one or a global one of its own JOB, waits for the
generation to end; the arrival that reaches TARGET and a timeout end it: GEN advances, COUNT is zero, and every waiter
completes.  An arrival at a global barrier of another JOB completes with ACCESS_DENIED, one at a TARGET of 0 with
STATE_REJECT.  Clauses: BARRIER, BARRIER_TIMEOUT.

R130, R317, R318, R320, R321: REDUCE_COLLECT zeroes its bitmap rows and arms its slot; the last arrival has a core merge
the records, or FENCED_UNIT where no core is up; a slot that is not full in time ends with TIMEOUT.  Clauses:
REDUCE_COLLECT, RED_SLOT_FULL, RED_SLOT_TIMEOUT.

Where the rules leave a point open, the clauses rest on the choices of log entries 30 and 31. -/
def Obligations.BarriersAndCollectSlotsCountArrivals : Prop :=
  (∀ (k x q b : Nat) (glob : Bool) (w : Work) (s : State), s.canonical → k < 16 → b < 64 → (glob = true → b < 32) →
      let r := barReg glob k b
      let job := rf s r.1 r.2 48 8
      let mine := glob = false ∨ job ≠ 0 ∧ job = rf s (pgPart k) (Reg.CTX_JOB x) 0 8
      (findWork s k x q 0x41 = some w → fenceMet s w = true → (dOpf w.desc).testBit 8 = glob → dOpf w.desc % 64 = b →
        (mine → rf s r.1 r.2 16 16 + 1 < rf s r.1 r.2 0 16 →
          Completes (.barrier k x q) s fun t =>
            rf t r.1 r.2 16 16 = rf s r.1 r.2 16 16 + 1 ∧
            t.work = s.work.map (fun v => if v = w then { w with phase := .barrier (rf s r.1 r.2 32 16) } else v) ∧
            SameBut (oneReg r.1 r.2) (ended { s with work := t.work }) t) ∧
        (mine → rf s r.1 r.2 0 16 ≠ 0 → rf s r.1 r.2 16 16 + 1 = rf s r.1 r.2 0 16 →
          Ends (.barrier k x q) s (releaseBarrier
            (setWork (wf (begun s) r.1 r.2 16 16 (rf s r.1 r.2 16 16 + 1)) w { w with phase := .barrier (rf s r.1 r.2 32 16) })
            glob k b 0)) ∧
        (mine → rf s r.1 r.2 0 16 = 0 → Ends (.barrier k x q) s (completeSt (reject (begun s) (pgPart k)) w 0x0B)) ∧
        (¬mine → Ends (.barrier k x q) s (completeSt (begun s) w 0x0F))) ∧
      (rf s r.1 r.2 16 16 ≠ 0 → (∀ v ∈ s.work, v.phase ≠ .barrier (rf s r.1 r.2 32 16)) →
        Completes (.barrierTimeout glob k b) s fun t =>
          rf t r.1 r.2 16 16 = 0 ∧ rf t r.1 r.2 32 16 = (rf s r.1 r.2 32 16 + 1) % 2 ^ 16 ∧
          SameBut (oneReg r.1 r.2) (ended { s with barMarks := t.barMarks }) t) ∧
      (rf s r.1 r.2 16 16 ≠ 0 →
        Ends (.barrierTimeout glob k b) s (releaseBarrier (begun s) glob k b
          (if s.barMarks.contains (if glob then 16 else k, b) then 0x0D else 5)))) ∧
  (∀ (k x q u slot : Nat) (w : Work) (s s1 : State), s.canonical → k < 16 →
      (findWork s k x q 0x1B = some w → dOpf w.desc % 256 = slot → slot < 64 → slotOf s w = none →
        (rb s (pgPart k) Reg.RED_ARMED slot = false →
          TileWritten (begun s) w (bitmapTile w.desc)
            (List.replicate (dM w.desc) (zeroBytes (ceilDiv (dN w.desc * dK w.desc) 8))) s1 → s1.stalled = none →
          Completes (.reduceCollect k x q) s fun t =>
            rb t (pgPart k) Reg.RED_ARMED slot = true ∧ t.slots = s1.slots ++ [⟨k, slot, x, q, []⟩] ∧ t.mem = s1.mem) ∧
        (rb s (pgPart k) Reg.RED_ARMED slot = true → Ends (.reduceCollect k x q) s (complete (begun s) w 3 0x11 0 0 0))) ∧
      (∀ (rows : List Bytes) (recs : List (List Pot)) (fl : Nat) (s2 s3 : State),
        let v := mergedOn w u
        collector s k slot = some w → u < 128 → unitUp s k u = true →
        readTile (begun s) k 168 (bitmapTile w.desc) = (.ok rows, s1) → bitmapFull (dN w.desc * dK w.desc) rows = true →
        RecordsRead (setWork s1 w v) v (collected v) (dFmtA v.desc) (dN v.desc * dK v.desc) recs s2 →
        PotsDelivered s2 v (dN v.desc)
          (recs.map fun r => (List.range (dN v.desc)).map fun i =>
            ((List.range (dK v.desc)).map fun j => r.getD (j * dN v.desc + i) potZero).foldl potMerge potZero) fl s3 →
        Ends (.redSlotFull k slot u) s (complete s3 v 0 0 0 fl 0)) ∧
      (collector s k slot = some w →
        let v := { w with phase := .run }
        (anyCore s k = false → Ends (.redSlotFull k slot u) s (completeSt (setWork (begun s) w v) v 0x10)) ∧
        (slotFull s w = false → Ends (.redSlotTimeout k slot) s (completeSt (setWork (begun s) w v) v 5))))

/-- R58, R59, R60, R62, R114: the operations that contract store, for each element of D, the pot of its terms, whatever its
format: GEMM and GEMM_POT a row of A with a column of B, each as the transpose flags say; DOT_ROWS a row of A with the row
of B; SUMSQ_ROWS a row with itself; REDUCE_ROWS and REDUCE_COLS a row and a column of A; POT_MERGE and POT_MERGE_ROUND the
merge of a row of records; POT_ROUND each record.

Where the rules leave a point open, the clauses rest on the choices of log entries 25, 26, 28 and 37. -/
def Obligations.ContractionsStoreThePotOfTheirTerms : Prop :=
  ∀ (k x q : Nat) (w : Work) (s s1 s2 s3 : State) (fl : Nat) (a b : List (List Machine.Num)) (p : List (List Pot)),
    let d := w.desc
    let dot := fun r c : List Machine.Num => (r.zip c).foldl (fun z e => potAdd z (e.1.mul e.2)) potZero
    let sum := fun r : List Machine.Num => r.foldl potAdd potZero
    let done := complete s3 w 0 0 0 fl 0
    let gemm := fun c : Instr =>
      ValuesRead (begun s) w (gemmA d) (dFmtA d) (dMxA d) (if (dOpf d).testBit 0 then dM d else dK d) a s1 →
      ValuesRead s1 w (gemmB d) (dFmtB d) (dMxB d) (if (dOpf d).testBit 1 then dK d else dN d) b s2 →
      PotsDelivered s2 w (dN d)
        ((if (dOpf d).testBit 0 then transposed (dM d) a else a).map fun r =>
          (if (dOpf d).testBit 1 then b else transposed (dN d) b).map (dot r)) fl s3 → Ends c s done
    (findWork s k x q 0x01 = some w → gemm (.gemm k x q)) ∧
    (findWork s k x q 0x02 = some w → gemm (.gemmPot k x q)) ∧
    (ValuesRead (begun s) w (opdA d (dM d) (dK d)) (dFmtA d) (dMxA d) (dK d) a s1 →
      (findWork s k x q 0x13 = some w → PotsDelivered s1 w 1 (a.map fun r => [sum r]) fl s3 → Ends (.reduceRows k x q) s done) ∧
      (findWork s k x q 0x14 = some w → PotsDelivered s1 w 1 (a.map fun r => [sum r]) fl s3 → Ends (.reduceRowsPot k x q) s done) ∧
      (findWork s k x q 0x15 = some w → PotsDelivered s1 w (dK d) [(transposed (dK d) a).map sum] fl s3 →
        Ends (.reduceCols k x q) s done) ∧
      (findWork s k x q 0x16 = some w → PotsDelivered s1 w (dK d) [(transposed (dK d) a).map sum] fl s3 →
        Ends (.reduceColsPot k x q) s done) ∧
      (findWork s k x q 0x18 = some w → PotsDelivered s1 w 1 (a.map fun r => [dot r r]) fl s3 → Ends (.sumsqRows k x q) s done) ∧
      (findWork s k x q 0x17 = some w → ValuesRead s1 w (opdB d (dM d) (dK d)) (dFmtB d) (dMxB d) (dK d) b s2 →
        PotsDelivered s2 w 1 ((a.zip b).map fun r => [dot r.1 r.2]) fl s3 → Ends (.dotRows k x q) s done)) ∧
    (findWork s k x q 0x10 = some w → RecordsRead (begun s) w (opdA d (dM d) (dK d)) (dFmtA d) (dK d) p s1 →
      PotsDelivered s1 w 1 (p.map fun r => [r.foldl potMerge potZero]) fl s3 → Ends (.potMerge k x q) s done) ∧
    (findWork s k x q 0x12 = some w → RecordsRead (begun s) w (opdA d (dM d) (dK d)) (dFmtA d) (dK d) p s1 →
      PotsDelivered s1 w 1 (p.map fun r => [r.foldl potMerge potZero]) fl s3 → Ends (.potMergeRound k x q) s done) ∧
    (findWork s k x q 0x11 = some w → RecordsRead (begun s) w (opdA d (dM d) (dN d)) (dFmtA d) (dN d) p s1 →
      PotsDelivered s1 w (dN d) p fl s3 → Ends (.potRound k x q) s done)

/-- R56, R66, R70, R114: the element-wise operations deliver, for each element, what their row of the operation table says:
a sum, a difference and a product as the pot of their terms, a function or a conversion of one value, each rounded once
into D.  B may be one row or one element.

R114, R129: the operations that choose among element codes deliver the codes as they are: MAX_ROWS and MIN_ROWS the best
of each row, EW_MAX and EW_MIN the better of two, EW_CLAMP the maximum with the first and then the minimum with the second
of two bounds; the NaN flag is set where one entered.

Where the rules leave a point open, the clauses rest on the choices of log entries 25, 26, 27 and 37. -/
def Obligations.ElementOperationsDeliverTheirResults : Prop :=
  (∀ (k x q : Nat) (w : Work) (s s1 s2 s3 : State) (fl : Nat) (a b : List (List Machine.Num)),
      let d := w.desc
      let sh := pairShape d
      let sum := fun r : List Machine.Num => r.foldl potAdd potZero
      let pairs := fun f : Machine.Num → Machine.Num → List Machine.Num =>
        a.zipIdx.map fun r => r.1.zipIdx.map fun e => sum (f e.1 (broadcast sh b r.2 e.2 .nan))
      let done := complete s3 w 0 0 0 fl 0
      ValuesRead (begun s) w (opdA d (dM d) (dN d)) (dFmtA d) (dMxA d) (dN d) a s1 →
      (ValuesRead s1 w (opdB d sh.1 sh.2) (dFmtB d) (dMxB d) sh.2 b s2 →
        (findWork s k x q 0x30 = some w → PotsDelivered s2 w (dN d) (pairs fun u v => [u, v]) fl s3 → Ends (.ewAdd k x q) s done) ∧
        (findWork s k x q 0x31 = some w → PotsDelivered s2 w (dN d) (pairs fun u v => [u, v.neg]) fl s3 → Ends (.ewSub k x q) s done) ∧
        (findWork s k x q 0x32 = some w → PotsDelivered s2 w (dN d) (pairs fun u v => [u.mul v]) fl s3 → Ends (.ewMul k x q) s done)) ∧
      (findWork s k x q 0x35 = some w →
        ElemsDelivered s1 w (dN d) (a.map fun r => r.map (unaryElem (arithVer s1) (dOpf d % 16) (dFmtD d))) fl s3 →
        Ends (.ewUnary k x q) s done) ∧
      (findWork s k x q 0x36 = some w → ElemsDelivered s1 w (dN d) (a.map fun r => r.map numElem) fl s3 →
        Ends (.convert k x q) s done)) ∧
  (∀ (k x q : Nat) (w : Work) (s s1 s2 s3 : State) (a b : List (List Nat)),
      let d := w.desc
      let sh := pairShape d
      let done := fun nan : Bool => complete s3 w 0 0 0 (flagBits { noFlags with nan := nan }) 0
      let rows := fun hi => a.map (bestCode (dFmtA d) hi)
      let pairs := fun hi => a.zipIdx.map fun r => r.1.zipIdx.map fun e => bestCode (dFmtA d) hi [e.1, broadcast sh b r.2 e.2 0]
      let clamp := a.map fun r => r.map fun e =>
        let m := bestCode (dFmtA d) true [e, (b.getD 0 []).getD 0 0]
        let n := bestCode (dFmtA d) false [m.1, (b.getD 0 []).getD 1 0]
        (n.1, m.2 || n.2)
      (CodesRead (begun s) w (opdA d (dM d) (dK d)) (dFmtA d) (dK d) a s1 →
        (findWork s k x q 0x19 = some w → CodesDelivered s1 w 1 ((rows true).map fun c => [c.1]) s3 →
          Ends (.maxRows k x q) s (done ((rows true).any (·.2)))) ∧
        (findWork s k x q 0x1A = some w → CodesDelivered s1 w 1 ((rows false).map fun c => [c.1]) s3 →
          Ends (.minRows k x q) s (done ((rows false).any (·.2))))) ∧
      (CodesRead (begun s) w (opdA d (dM d) (dN d)) (dFmtA d) (dN d) a s1 →
        (CodesRead s1 w (opdB d sh.1 sh.2) (dFmtB d) sh.2 b s2 →
          (findWork s k x q 0x33 = some w → CodesDelivered s2 w (dN d) ((pairs true).map fun l => l.map (·.1)) s3 →
            Ends (.ewMax k x q) s (done ((pairs true).any fun l => l.any (·.2)))) ∧
          (findWork s k x q 0x34 = some w → CodesDelivered s2 w (dN d) ((pairs false).map fun l => l.map (·.1)) s3 →
            Ends (.ewMin k x q) s (done ((pairs false).any fun l => l.any (·.2))))) ∧
        (findWork s k x q 0x37 = some w →
          CodesRead s1 w (tensor 1 (dFmtA d) false (dB d) (dBPitch d) 1 2) (dFmtA d) 2 b s2 →
          CodesDelivered s2 w (dN d) (clamp.map fun l => l.map fun c => if c.2 then nanCode (dFmtA d) else c.1) s3 →
          Ends (.ewClamp k x q) s (done (clamp.any fun l => l.any (·.2))))))

/-- R55, R112, R114, R116: the moves copy rows as they are stored, with their scale rows where the tensor is MX: COPY every
row, GATHER_ROWS and SCATTER_ROWS those that B's indices choose, the last on equal indices; TRANSPOSE and FILL write
element codes; COMPARE counts in RESULT the positions that differ.

Where the rules leave a point open, the clauses rest on the choices of log entries 25 and 37. -/
def Obligations.MovesCopyRowsAndCompareCounts : Prop :=
  ∀ (k x q : Nat) (w : Work) (s s1 s2 s3 s4 s5 : State) (rows sc : List Bytes) (pairs : List (Bytes × Bytes))
    (a b : List (List Nat)),
    let d := w.desc
    let A := opdA d (dM d) (dN d)
    let D := opdD d (dM d) (dN d)
    let clean := cleanRow (dFmtD d) (dMxD d) (dN d)
    let idx := b.map fun r => r.getD 0 0
    let done := complete s5 w 0 0 0 0 0
    (findWork s k x q 0x50 = some w → TileRead (begun s) w (opdTile A) rows s1 →
      (if dMxA d then TileRead s1 w (scaleTile A (dN d)) sc s2 else s2 = s1 ∧ sc = []) →
      TileWritten s2 w (opdTile D) (rows.map clean) s3 →
      (if dMxD d then TileWritten s3 w (scaleTile D (dN d)) sc s5 else s5 = s3) → Ends (.copy k x q) s done) ∧
    (CodesRead (begun s) w (opdB d (dM d) 1) 11 1 b s1 → (∀ r ∈ b, r.getD 0 0 < 2 ^ 31 ∧ r.getD 0 0 < dK d) →
      (findWork s k x q 0x51 = some w → RowsRead s1 w (opdA d (dK d) (dN d)) idx pairs s3 →
        TileWritten s3 w (opdTile D) (pairs.map fun p => clean p.1) s4 →
        (if dMxD d then TileWritten s4 w (scaleTile D (dN d)) (pairs.map (·.2)) s5 else s5 = s4) →
        Ends (.gatherRows k x q) s done) ∧
      (findWork s k x q 0x52 = some w → TileRead s1 w (opdTile A) rows s2 →
        (if dMxA d then TileRead s2 w (scaleTile A (dN d)) sc s3 else s3 = s2 ∧ sc = []) →
        RowsWritten s3 w (opdD d (dK d) (dN d))
          (idx.zipIdx.filterMap fun i => if (idx.drop (i.2 + 1)).contains i.1 then none
            else some (i.1, clean (rows.getD i.2 []), sc.getD i.2 [])) s5 →
        Ends (.scatterRows k x q) s done)) ∧
    (findWork s k x q 0x53 = some w → CodesRead (begun s) w A (dFmtA d) (dN d) a s1 →
      CodesDelivered s1 w (dM d) (transposed (dN d) a) s5 → Ends (.transpose k x q) s done) ∧
    (findWork s k x q 0x54 = some w → CodesRead (begun s) w (opdB d 1 1) (dFmtD d) 1 b s1 →
      CodesDelivered s1 w (dN d) (List.replicate (dM d) (List.replicate (dN d) ((b.getD 0 []).getD 0 0))) s5 →
      Ends (.fill k x q) s done) ∧
    (findWork s k x q 0x57 = some w → CodesRead (begun s) w A (dFmtA d) (dN d) a s1 →
      CodesRead s1 w (opdB d (dM d) (dN d)) (dFmtB d) (dN d) b s5 →
      Ends (.compare k x q) s (complete s5 w 0 0 0 0
        (w64 ((a.zip b).map fun r => (r.1.zip r.2).countP fun c => c.1 ≠ c.2).sum)))

/-- R144 to R151, R163, R178, R282: ATTN_PARTIAL reads its cache list, its queries and the keys and values of its range,
whose pages are found before any of them is read, and writes one partial for each query row; R153 to R156: ATTN_MERGE merges
each row's partials into elements, or into one partial; both while their engine may read and their checks pass.

Where the rules leave a point open, the clauses rest on the choices of log entries 37, 54, 63 and 64. -/
def Obligations.AttentionWritesPartialsAndMergesThem : Prop :=
  ∀ (k x q : Nat) (w : Work) (s s1 s2 s3 s4 s5 : State) (list : List (List Word)) (qrows bytes : List Bytes)
    (kv : List (List Machine.Num × List Machine.Num)) (fl : Nat),
    let d := w.desc
    (findWork s k x q 0x20 = some w → engineReads s w = true →
      EntriesRead (begun s) w (dList d) 0 (ceilDiv (dTotal d) 256) list s1 → listOk d list = true →
      Probed w (rangeTiles list (dHead d) (kvPieces (dT0 d) (dT1 d))) s1 s2 →
      TileRead s2 w (opdTile (opdA d (dM d) (dN d))) qrows s3 →
      RangeRead w list (dHead d) (kvPieces (dT0 d) (dT1 d)) s3 kv s4 →
      TileHinted s4 w ⟨dD d, dDPitch d, dM d, psize (dN d), 2⟩ (attnPartials (arithVer s4) d list qrows kv) s5 →
      let rows := attnRows d list qrows kv
      let n := rows.countP fun r => r.2.1.wsat
      let t := addReg (addReg (addReg s5 (sePage w) Reg.TOKENS_SWEPT (dT1 d - dT0 d)) (sePage w) Reg.PARTIALS_WRITTEN
        rows.length) (sePage w) Reg.WSAT_PARTIALS n
      Ends (.attnPartial k x q) s (complete (if n = 0 then t else raiseEvt t (sePage w) 1) w 0 0 0
        (flagBits ⟨rows.any fun r => (r.2.1.den :: r.2.1.num).any (·.nan),
          rows.any fun r => r.2.1.wsat || (r.2.1.den :: r.2.1.num).any (·.range), false⟩) 0)) ∧
    (findWork s k x q 0x21 = some w → TileRead (begun s) w ⟨dA d, dAPitch d, dM d, dK d * psize (dN d), 0⟩ bytes s1 →
      let rows := bytes.map fun b => (List.range (dK d)).map fun j => readPart (dN d) (slice b (j * psize (dN d)) (psize (dN d)))
      (mergeCheck (arithVer s1) d rows ≠ 0 →
        Ends (.attnMerge k x q) s (complete s1 w 3 (mergeCheck (arithVer s1) d rows) 0 0 0)) ∧
      (mergeCheck (arithVer s1) d rows = 0 →
        (dFmtD d ≠ 10 → ElemsDelivered s1 w (dN d) (rows.map (mergeElems (dN d))) fl s2 →
          Ends (.attnMerge k x q) s (complete s2 w 0 0 0 fl 0)) ∧
        (dFmtD d = 10 → TileWritten s1 w ⟨dD d, dDPitch d, dM d, psize (dN d), 2⟩ (rows.map (mergePart (arithVer s1) (dN d))) s2 →
          let pots := rows.flatMap fun l => (List.range (dN d + 1)).map (mergedPot l)
          Ends (.attnMerge k x q) s (complete s2 w 0 0 0
            (flagBits ⟨pots.any (·.nan), (rows.any fun l => l.any (·.wsat)) || pots.any (·.range), false⟩) 0))))

/-- R139, R141, R142, R159, R160, R282: KV_STORE converts keys and values into their entries' formats, writes the rows with
the engine's hint, and raises COUNT and the bounds; KV_BOUND computes the bounds of its entries afresh; both where the
entries are well formed and every key has a bound.

Where the rules leave a point open, the clauses rest on the choices of log entries 37, 54 and 64. -/
def Obligations.KvCommandsStoreRowsAndBounds : Prop :=
  ∀ (k x q : Nat) (w : Work) (s s1 s2 s3 s4 s5 s6 : State) (keys vals : List (List Machine.Num))
    (first entries : List (List Word)) (bs : List (List (Option Int))),
    let d := w.desc
    let e0 := first.getD 0 []
    (findWork s k x q 0x22 = some w → engineReads s w = true →
      ValuesRead (begun s) w (opdA d (dM d) (dN d)) (dFmtA d) (dMxA d) (dN d) keys s1 →
      ValuesRead s1 w (opdB d (dM d) (dN d)) (dFmtB d) (dMxB d) (dN d) vals s2 →
      EntriesRead s2 w (dD d) 0 1 first s3 → EntriesRead s3 w (dD d) (storeEntries d).1 (storeEntries d).2 entries s4 →
      entryOk e0 e0 = true → (∀ e ∈ entries, entryOk e e0 = true) → kvHeads e0 * kvDim e0 = dN d →
      let ks := keys.zipIdx.map fun r => convertRow s4 d e0 false r.2 r.1
      let vs := vals.zipIdx.map fun r => convertRow s4 d e0 true r.2 r.1
      ks.map (fun r => boundsOf ((List.range (kvHeads e0)).map (storedKey e0 r))) = bs.map .ok →
      RunsWritten w (engineHint s4 w.part w.unit) (storeRuns d entries false ks ++ storeRuns d entries true vs) s4 s5 →
      RunsWritten w 0 ((kvPieces (dTotal d) (dTotal d + dM d)).map fun p =>
          let e := entries.getD (p.1 - (storeEntries d).1) []
          let mine := (bs.drop (256 * p.1 + p.2.1 - dTotal d)).take p.2.2
          ((⟨dD d + 64 * p.1, 0, 1, 64, 3⟩ : Tile), setEntry e (max (kvCount e) (p.2.1 + p.2.2)) fun h =>
            raiseBound (kvBoundByte e h) (maxBound (mine.map fun l => l.getD h none)))) s5 s6 →
      Ends (.kvStore k x q) s (complete s6 w 0 0 0 (flagBits ((ks ++ vs).foldl (fun f x => f.or x.2.2) noFlags)) 0)) ∧
    (findWork s k x q 0x23 = some w → engineReads s w = true → EntriesRead (begun s) w (dD d) 0 1 first s1 →
      EntriesRead s1 w (dD d) (dK d) (dM d) entries s2 → entryOk e0 e0 = true → (∀ e ∈ entries, entryOk e e0 = true) →
      BoundsRead w entries s2 bs s3 →
      RunsWritten w 0 ((entries.zip bs).zipIdx.map fun y => ((⟨dD d + 64 * (dK d + y.2), 0, 1, 64, 3⟩ : Tile),
        setEntry y.1.1 (kvCount y.1.1) fun h => raiseBound 0x80 (y.1.2.getD h none))) s3 s4 →
      Ends (.kvBound k x q) s (complete s4 w 0 0 0 0 0))

/-- R3, R85, R105, R137, R138, R163, R183, R425: an engine that faults or stalls, or that the OPERATOR fences, stops taking
work and becomes FENCED once its last write is acknowledged; one held on a translation fault has not stalled; a self-test
that ends reports.  Clauses: ENGINE_FAULT, SE_STALL,
ENGINE_FENCE, ENGINE_FENCE_DRAINED, ENGINE_TEST, ENGINE_TEST_DONE.

Where the rules leave a point open, the clauses rest on the choices of log entry 54. -/
def Obligations.EngineFencesAndTestsTakeEffect : Prop :=
  ∀ (fn e cause : Nat) (s : State), s.canonical → e < 64 →
    (pageState s (pgSe e) = 3 ∨ pageState s (pgSe e) = 4 → (∀ f ∈ s.seFencing, f.1 ≠ e) →
      (cause = 1 ∨ cause = 2 ∨ cause = 4 →
        Completes (.engineFault e cause) s fun t => t.seFencing = s.seFencing ++ [(e, cause)] ∧ SameMemory s t) ∧
      ((engineWork s e).any heldPhase = false →
        Completes (.seStall e) s fun t => t.seFencing = s.seFencing ++ [(e, 3)] ∧ SameMemory s t) ∧
      (MayWrite s fn (pgSe e) Reg.ENGINE_FENCE → actsOn s fn (pgSe e) true = true →
        Completes (.engineFence fn e) s fun t => t.seFencing = s.seFencing ++ [(e, 7)] ∧ SameMemory s t)) ∧
    ((engineWork s e).any heldPhase = true → exec (.seStall e) s = .next s) ∧
    (s.seFencing.find? (fun f => f.1 = e) = some (e, cause) →
      Completes (.engineFenceDrained e) s fun t => pageState t (pgSe e) = 6 ∧ (∀ f ∈ t.seFencing, f.1 ≠ e)) ∧
    (MayWrite s fn (pgSe e) Reg.ENGINE_TEST → actsOn s fn (pgSe e) true = true → pageState s (pgSe e) = 4 →
      rb s (pgSe e) Reg.ENGINE_TEST 1 = false → Completes (.engineTest fn e) s fun t =>
        rb t (pgSe e) Reg.ENGINE_TEST 1 = true ∧ SameBut (oneReg (pgSe e) Reg.ENGINE_TEST) s t) ∧
    (rb s (pgSe e) Reg.ENGINE_TEST 1 = true →
      (Completes (.engineTestDone e true) s fun t =>
        rb t (pgSe e) Reg.ENGINE_TEST 1 = false ∧ rf t (pgSe e) Reg.ENGINE_TEST 2 2 = 1 ∧
        SameBut (oneReg (pgSe e) Reg.ENGINE_TEST) s t) ∧
      (Completes (.engineTestDone e false) s fun t =>
        rb t (pgSe e) Reg.ENGINE_TEST 1 = false ∧ rf t (pgSe e) Reg.ENGINE_TEST 2 2 = 2 ∧ pageState t (pgSe e) = 6))

/-- R3, R83, R98, R99, R103, R104, R183: a cause that a core detects and the OPERATOR's command begin a fence, the core
FENCING; a corrected scratch error is counted; a core held on a translation fault has not stalled; the OPERATOR starts the
spare's self-test, whose pass returns the spare to SPARE and whose failure, like a cause detected in it, fences it.  Clauses:
CORE_FAULT, SEQ_STALL, CORE_FENCE, SPARE_TEST, SPARE_TEST_DONE.

R94, R95, R96, R99, R100, R104, R105, R108, R109: a fence that drains ends with the core FENCED for good and recorded; its
logical index moves to the spare, where that is in SPARE, or in TEST, which is abandoned, and no core that failed at the
same time serves a lower index; else it is DOWN.  The descriptors on it run again there, or return to the scheduler.

R90, R91, R92: a corrected error of a cluster cache is counted, and below the 64th of its bank changes nothing else; an
uncorrectable one loses the partition's domain and fences no core. -/
def Obligations.FencedCoresAreServedByTheSpare : Prop :=
  (∀ (fn c j cause : Nat) (v : Word) (s : State), s.canonical → c < 128 → j < 17 →
      let cores := fun q o => q = pgCl c ∧ (o = Reg.CORE_STATE_LO ∨ o = Reg.CORE_STATE_HI ∨ o = Reg.SPARE_TEST)
      let detected := cause = 1 ∨ cause = 2 ∨ cause = 4 ∨ cause = 5 ∨ cause = 6
      let fenced := fun (n : Nat) (t : State) => coreState t c j = 3 ∧
        t.fencing = s.fencing ++ [(c, j, n, (rd s pgErr Reg.ERR_TIME).toNat)] ∧
        (∀ i, i < 17 → i ≠ j → coreState t c i = coreState s c i) ∧ SameBut cores { s with fencing := t.fencing } t
      (Completes (.coreFault (17 * c + j) 0) s fun t =>
        rd t (pgCl c) Reg.SCRATCH_CORR = rd s (pgCl c) Reg.SCRATCH_CORR + 1 ∧ SameBut (oneReg (pgCl c) Reg.SCRATCH_CORR) s t) ∧
      (coreState s c j = 1 ∨ coreState s c j = 2 →
        (detected → Completes (.coreFault (17 * c + j) cause) s (fenced cause)) ∧
        (coreHeld s c j = false → Completes (.seqStall (17 * c + j)) s (fenced 3)) ∧
        (MayWrite s fn (pgCl c) Reg.CORE_FENCE → actsOn s fn (pgCl c) true = true → bit v 63 = true → fld v 0 5 = j →
          Completes (.coreFence fn c v) s (fenced 7))) ∧
      (coreHeld s c j = true → exec (.seqStall (17 * c + j)) s = .next s) ∧
      (coreState s c j = 5 → detected →
        Completes (.coreFault (17 * c + j) cause) s fun t =>
          coreState t c j = 4 ∧ rb t (pgCl c) Reg.SPARE_TEST 1 = false ∧ SameMemory s t) ∧
      (MayWrite s fn (pgCl c) Reg.SPARE_TEST → actsOn s fn (pgCl c) true = true → coreState s c 16 = 1 →
        Completes (.spareTest fn c) s fun t =>
          coreState t c 16 = 5 ∧ rb t (pgCl c) Reg.SPARE_TEST 1 = true ∧ SameBut cores s t) ∧
      (coreState s c 16 = 5 →
        Completes (.spareTestDone c true) s (fun t =>
          coreState t c 16 = 1 ∧ rb t (pgCl c) Reg.SPARE_TEST 1 = false ∧ rf t (pgCl c) Reg.SPARE_TEST 2 2 = 1 ∧
          rb t (pgCl c) Reg.EVT_STAT 4 = true ∧ SameBut cores s t) ∧
        (servedBy s c 16 = none →
          Completes (.spareTestDone c false) s fun t =>
            coreState t c 16 = 4 ∧ rf t (pgCl c) Reg.SPARE_TEST 2 2 = 2 ∧ SameMemory s t))) ∧
  (∀ (c j i cause time : Nat) (s : State), s.canonical → c < 128 → j < 17 → i < 16 →
      s.fencing.find? (fun f => decide (f.1 = c) && decide (f.2.1 = j)) = some (c, j, cause, time) →
      let regs := fun q o => (q = pgPart (c / 8) ∧ o = Reg.FENCE_TOTAL) ∨ (q = pgCl c ∧
        (o = Reg.CORE_STATE_LO ∨ o = Reg.CORE_STATE_HI ∨ o = Reg.L2P_LO ∨ o = Reg.L2P_HI ∨ o = Reg.CORE_FAULT_LAST ∨
          o = Reg.ERR_COUNT ∨ o = Reg.ERR_FIRST ∨ o = Reg.SPARE_TEST))
      let again := fun (p : Phase) (w : Work) =>
        if w.part = c / 8 ∧ w.unit = 16 * (c % 8) + i ∧ w.phase ≠ .returned then { w with phase := p, record := [] } else w
      let done := fun (t : State) =>
        coreState t c j = 4 ∧ t.fencing = s.fencing.filter (fun f => !(decide (f.1 = c) && decide (f.2.1 = j))) ∧
        t.flash = { s.flash with fieldMap := { s.flash.fieldMap with cores := s.flash.fieldMap.cores ++ [17 * c + j] } } ∧
        rb t (pgCl c) Reg.CORE_FAULT_LAST 63 = true ∧ rf t (pgCl c) Reg.CORE_FAULT_LAST 0 5 = j ∧
        rd t (pgPart (c / 8)) Reg.FENCE_TOTAL = rd s (pgPart (c / 8)) Reg.FENCE_TOTAL + 1 ∧
        (∀ n, n < 16 → n ≠ i → mapEntry t c n = mapEntry s c n) ∧
        SameBut regs { s with fencing := t.fencing, work := t.work, flash := t.flash, xlat := t.xlat } t
      (servedBy s c j = none →
        Completes (.coreFenceDrained c j) s fun t => mapEntry t c i = mapEntry s c i ∧ t.work = s.work ∧ done t) ∧
      (servedBy s c j = some i →
        let spare := (coreState s c 16 = 1 ∨ coreState s c 16 = 5) ∧ spareOwed s c j i = false
        (spare → j < 16 → Completes (.coreFenceDrained c j) s fun t =>
          mapEntry t c i = (16, false) ∧ coreState t c 16 = 2 ∧ t.work = s.work.map (again .run) ∧ done t) ∧
        (¬spare → Completes (.coreFenceDrained c j) s fun t =>
          mapEntry t c i = (j, true) ∧ t.work = s.work.map (again .returned) ∧ done t))) ∧
  (∀ (c bank : Nat) (tag : Bool) (s : State), s.canonical → c < 128 → bank < 48 →
      (((s.bankErrs.find? fun e => e.1 = c * 48 + bank).map (·.2)).getD 0 < 63 →
        Completes (.cacheAccessError c bank tag false) s fun t =>
          rd t (pgCl c) Reg.CACHE_CORR = rd s (pgCl c) Reg.CACHE_CORR + 1 ∧ (tag = true → t.bankErrs = s.bankErrs) ∧
          SameBut (oneReg (pgCl c) Reg.CACHE_CORR) { s with bankErrs := t.bankErrs } t) ∧
      Completes (.cacheAccessError c bank tag true) s fun t =>
        domainLost t (c / 8) = true ∧ rb t (pgCl c) Reg.EVT_STAT 62 = true ∧
        (∀ i, i < 17 → coreState t c i = coreState s c i) ∧ t.fencing = s.fencing)

/-- R174, R177, R179, R180, R182: a walk that succeeds answers with the caches it filled; a fault that is not a
descriptor's takes the next FAULT_ID, is counted, and stays open where it is NOT_VALID; one of a descriptor stops it; a fault
that waited for a record takes one once there is room, upon which its requester is held on it, or, where it is FINAL, ends.
Clauses: WALK_END, FAULT_RECORD_RELEASE.

R99, R181, R183, R501: an open record is closed by RETRY, upon which what it holds walks again or writes its record again,
by FAIL, upon which a descriptor completes with FAULT_TRANSLATION, or its context is aborted where it was its record, and,
where a timeout is set, by time; a descriptor on a unit that has stopped runs again.  It is said here of a record that holds
one descriptor or none.  Clauses: FAULT_RESOLVE_RETRY, FAULT_RESOLVE_FAIL, FAULT_TIMEOUT.

Where the rules leave a point open, the clauses rest on the choices of log entries 11, 29 and 68. -/
def Obligations.TranslationFaultsAreRecordedAndResolved : Prop :=
  (∀ (k req va pa level id : Nat) (nc wr : Bool) (s s1 : State), s.canonical → k < 16 → req < 169 → va < 2 ^ 52 →
      (translate s k req va 0 wr = (.ok pa nc, s1) → exec (.walkEnd k req va wr false) s = .next s1) ∧
      (translate s k req va 0 wr = (.fault 1 level, s1) →
        let page := va / 65536 * 65536
        (unitWorkOf s1 k req = none → rf s1 (pgMf k) Reg.FAULT_PROD 0 32 = id → rf s1 (pgMf k) Reg.FAULT_RING 52 4 = 0 →
          (s1.xlat.recs.countP fun r => decide (r.info.part = k)) < 64 →
          (∀ r ∈ s1.xlat.recs, ¬(r.info.part = k ∧ r.info.page = page)) →
          Completes (.walkEnd k req va wr false) s fun t =>
            rf t (pgMf k) Reg.FAULT_PROD 0 32 = (id + 1) % 2 ^ 32 ∧
            rd t (pgMf k) Reg.FAULTS = rd s1 (pgMf k) Reg.FAULTS + 1 ∧
            (∃ r, t.xlat.recs = s1.xlat.recs ++ [r] ∧ r.id = id ∧ r.info.page = page ∧ r.info.level = level ∧
              r.info.req = req ∧ r.write = wr ∧ r.read = !wr) ∧ SameMemory s1 t) ∧
        (∀ w : Work, unitWorkOf s1 k req = some w →
          exec (.walkEnd k req va wr false) s = .next (holdWork s1 w (workFault w ⟨va, 0, 1, 1,
            if req < 128 ∨ req = 168 then 7 else if req < 132 then 4 else if req < 164 then 5 else 6⟩ wr page 1 level)))) ∧
      (∀ i : FaultInfo, s.xlat.waiting.find? (fun i => decide (i.part = k)) = some i →
        (∀ j ∈ s.xlat.waiting.erase i, j.part ≠ k) → openFor s i = none → faultRoom s i = true →
        rf s (pgMf k) Reg.FAULT_RING 52 4 = 0 → rf s (pgMf k) Reg.FAULT_PROD 0 32 = id →
        let taken := fun (t : State) =>
          rf t (pgMf k) Reg.FAULT_PROD 0 32 = (id + 1) % 2 ^ 32 ∧ t.xlat.waiting = s.xlat.waiting.erase i ∧
          SameBut (oneReg (pgMf k) Reg.FAULT_PROD)
            { s with xlat := t.xlat, work := t.work, fetchHeld := t.fetchHeld, chans := t.chans, siteReqs := t.siteReqs } t
        (i.kind = 1 → Completes (.faultRecordRelease k) s fun t =>
          (∃ r, t.xlat.recs = s.xlat.recs ++ [r] ∧ r.id = id ∧ r.info = i) ∧
          t.work = s.work.map (fun w => if faultOf w i = true ∧ w.phase = .heldNew then { w with phase := .held id } else w) ∧
          t.fetchHeld = s.fetchHeld.map (fun f => if fetchOf f i then (f.1, f.2.1, some id) else f) ∧
          t.chans = setChans s i (fun c => { c with held := some id, waiting := false }) ∧
          t.siteReqs = s.siteReqs.map (fun q => if q.waiting = some i then { q with held := some id, waiting := none } else q) ∧
          taken t) ∧
        (i.kind ≠ 1 → (∀ w ∈ s.work, ¬(faultOf w i = true ∧ w.phase = .heldNew)) → (∀ f ∈ s.fetchHeld, fetchOf f i = false) →
          let status := if i.kind = 9 then 4 else 2
          Completes (.faultRecordRelease k) s fun t =>
            t.xlat.recs = s.xlat.recs ∧ t.work = s.work ∧ t.fetchHeld = s.fetchHeld ∧
            t.chans = setChans s i (fun c => { c with waiting := false, ended := some status }) ∧
            t.siteReqs = s.siteReqs.map (fun q =>
              if q.waiting = some i then { q with waiting := none, ended := some status, owed := true } else q) ∧
            taken t))) ∧
  (∀ (fn k id : Nat) (r : FaultRec) (w : Work) (s : State), s.canonical → k < 16 → openRec s k id = some r →
      let closed := { s with xlat := { s.xlat with recs := s.xlat.recs.erase r } }
      let held := s.work.filter fun v => decide (v.part = k) && decide (v.phase = .held id)
      let run := setWork closed w { w with phase := .run }
      let v := { w with phase := .run }
      let released := fun (retry : Bool) (t : State) => { t with
        fetchHeld := t.fetchHeld.filter fun f => !(decide (f.1 = k) && decide (f.2.2 = some id))
        chans := t.chans.zipIdx.map fun c => if c.1.held = some id ∧ ownerPart t (pgDma c.2) = some k then
          { c.1 with held := none, ended := if retry then none else some 1 } else c.1
        siteReqs := t.siteReqs.map fun q => if q.part = k ∧ q.held = some id then
          { q with held := none, ended := if retry then none else some 1 } else q }
      let ends := fun (retry : Bool) (t : State) =>
        (∀ i ∈ t.xlat.waiting, i.part ≠ k) → (retry = false → ∀ f ∈ t.fetchHeld, ¬(f.1 = k ∧ f.2.2 = some id)) →
        exec (if retry then .faultResolveRetry fn k id else .faultResolveFail fn k id) s = .next (released retry t)
      (MayWrite s fn (pgMf k) Reg.FAULT_RESOLVE →
        (held = [] → ends true closed ∧ ends false closed) ∧
        (held = [w] →
          (unitStopped closed v = true → ends true (setWork closed w { v with record := [] }) ∧
            ends false (setWork closed w { v with record := [] })) ∧
          (unitStopped closed v = false →
            (w.record = [] → ends true run ∧ ends false (complete run v 1 0 r.info.page 0 0)) ∧
            (w.record ≠ [] → ends true (writeRecord run v w.record) ∧ ends false (abortCtx run k w.ctx 1 false))))) ∧
      (held = [] → rf s (pgMf k) Reg.MF_CFG 32 16 ≠ 0 → (∀ i ∈ s.xlat.waiting, i.part ≠ k) →
        (∀ f ∈ s.fetchHeld, ¬(f.1 = k ∧ f.2.2 = some id)) →
        Completes (.faultTimeout k id) s fun t =>
          t.xlat = closed.xlat ∧ rb t (pgMf k) Reg.EVT_STAT 5 = true ∧
          rd t (pgMf k) Reg.ERR_COUNT = rd s (pgMf k) Reg.ERR_COUNT + 1 ∧
          SameBut (fun q o => q = pgMf k ∧ (o = Reg.ERR_COUNT ∨ o = Reg.ERR_FIRST)) (released false closed) t))

/-- R182, R192, R194: the rings of faults and of hot pages are described, and the software's count of faults taken, with
nothing waiting for room; a micro-TLB's report counts its 4 KiB units, and a counter that reaches the threshold is recorded
once in its epoch; an epoch's end halves the counters and clears the marks.  Clauses: FAULT_RING_WRITE, FAULT_CONS_WRITE,
HOT_RING_WRITE, MICROTLB_COUNT_REPORT, HOT_EPOCH_END.

Where the rules leave a point open, the clauses rest on the choices of log entries 16, 63 and 67. -/
def Obligations.FaultAndHotPageRingsAreKept : Prop :=
  ∀ (fn k req va : Nat) (v : Word) (s : State), s.canonical → k < 16 → (∀ i ∈ s.xlat.waiting, i.part ≠ k) →
    (MayWrite s fn (pgMf k) Reg.FAULT_RING →
      fld v 52 4 = 0 ∨ 6 ≤ fld v 52 4 ∧ fld v 52 4 ≤ 12 ∧ ringIn k v 64 (fld v 52 4) = true →
      Completes (.faultRingWrite fn k v) s fun t =>
        faultRing t k = (fld v 12 40 * 4096, fld v 52 4) ∧ SameBut (oneReg (pgMf k) Reg.FAULT_RING) s t) ∧
    (MayWrite s fn (pgMf k) Reg.FAULT_CONS →
      Completes (.faultConsWrite fn k v) s fun t =>
        rf t (pgMf k) Reg.FAULT_CONS 0 32 = fld v 0 32 ∧ SameBut (oneReg (pgMf k) Reg.FAULT_CONS) s t) ∧
    (MayWrite s fn (pgMf k) Reg.HOT_RING →
      fld v 52 5 = 0 ∨ 8 ≤ fld v 52 5 ∧ fld v 52 5 ≤ 16 ∧ ringIn k v 16 (fld v 52 5) = true →
      Completes (.hotRingWrite fn k v) s fun t =>
        rf t (pgMf k) Reg.HOT_RING 12 40 = fld v 12 40 ∧ rf t (pgMf k) Reg.HOT_RING 52 5 = fld v 52 5 ∧
        SameBut (oneReg (pgMf k) Reg.HOT_RING) s t) ∧
    (∀ (m : MicroEntry) (e : SliceEntry),
      s.xlat.micro.find? (fun e => decide (e.part = k) && decide (e.req = req) && decide (e.va = pageVa e.level va)) = some m →
      s.xlat.slice.find? (fun e => decide (e.part = k) && decide (e.va = pageVa e.level m.va)) = some e →
      bit e.leaf 7 = false →
      let c := min (e.count + m.bytes / 4096) 65535
      let thresh := rf s (pgMf k) Reg.MF_CFG 0 16
      let mark := e.hot = false ∧ thresh ≠ 0 ∧ thresh ≤ c
      let counted := { e with count := c, hot := e.hot || decide mark }
      let t := { s with xlat := { s.xlat with
        micro := s.xlat.micro.map fun x => if x = m then { m with bytes := m.bytes % 4096 } else x
        slice := s.xlat.slice.map fun x => if x = e then counted else x } }
      (¬mark → exec (.microtlbCountReport k req va) s = .next t) ∧
      (mark → rf s (pgMf k) Reg.HOT_RING 52 5 = 0 → exec (.microtlbCountReport k req va) s = .next t) ∧
      (mark → exec (.microtlbCountReport k req va) s = .next (hotRecord t k counted))) ∧
    Completes (.hotEpochEnd k) s fun t =>
      (∀ e ∈ t.xlat.slice, e.part = k → e.hot = false) ∧
      t.xlat.slice.map (·.count) = s.xlat.slice.map (fun e => if e.part = k then e.count / 2 else e.count) ∧
      t = { s with xlat := { s.xlat with slice := t.xlat.slice, epochs := t.xlat.epochs } }

/-- R3, R169, R185, R186, R187, R194, R249: an accepted invalidation takes the next ticket of its partition; once no access
made under what it drops is open, it completes: no cached translation of the partition overlaps it and INV_DONE counts it; a
new manifest root, and a new shared window, leave the partition no cached translation.  Clauses: INV_CMD_RANGE,
INV_CMD_PARTITION, INV_COMPLETE, MF_ROOT_WRITE, SHARE_WIN_WRITE. -/
def Obligations.InvalidationsDropWhatTheyOverlap : Prop :=
  ∀ (fn k vpn pages n : Nat) (v : Word) (s : State), s.canonical → k < 16 →
    let empty := fun (t : State) => (∀ e ∈ t.xlat.slice, e.part ≠ k) ∧ (∀ e ∈ t.xlat.micro, e.part ≠ k) ∧
      (∀ e ∈ t.xlat.walk, e.part ≠ k)
    (MayWrite s fn (pgMf k) Reg.INV_CMD → (s.xlat.invs.countP fun c => decide (c.part = k)) < 16 →
      let queued := fun va len (t : State) => t.xlat.invs = s.xlat.invs ++ [⟨k, va, len, s.xlat.tickets.getD k 0⟩] ∧
        SameBut (fun q o => (List.range 8).any (fun r => decide (q = pgRing r)) = true ∧ o = flitsOf .control)
          { s with xlat := t.xlat } t
      Completes (.invCmdRange fn k vpn pages) s (queued (vpn % 2 ^ 36 * 65536) ((pages % 4096 + 1) * 65536)) ∧
      Completes (.invCmdPartition fn k) s (queued 0 0)) ∧
    (∀ c : InvCmd, s.xlat.invs.find? (fun c => decide (c.part = k)) = some c →
      (accessUnder s k c.va c.len = true → exec (.invComplete k) s = .next s) ∧
      (accessUnder s k c.va c.len = false → Completes (.invComplete k) s fun t =>
        rf t (pgMf k) Reg.INV_DONE 0 32 = (c.ticket + 1) % 2 ^ 32 ∧ rb t (pgMf k) Reg.EVT_STAT 4 = true ∧
        t.xlat.invs = s.xlat.invs.erase c ∧
        (c.len = 0 → empty t) ∧
        (c.len ≠ 0 → ∀ e ∈ t.xlat.slice, e.part = k → e.va + levelSize e.level ≤ c.va ∨ c.va + c.len ≤ e.va) ∧
        (c.len ≠ 0 → ∀ e ∈ t.xlat.micro, e.part = k → e.va + levelSize e.level ≤ c.va ∨ c.va + c.len ≤ e.va))) ∧
    (MayWrite s fn (pgMf k) Reg.MF_ROOT → fld v 16 30 = rf s (pgMf k) Reg.MF_ROOT 16 30 ∨ allFree s k = true →
      Completes (.mfRootWrite fn k v) s fun t =>
        rf t (pgMf k) Reg.MF_ROOT 16 30 = fld v 16 30 ∧ rb t (pgMf k) Reg.MF_ROOT 0 = bit v 0 ∧
        (fld v 16 30 ≠ rf s (pgMf k) Reg.MF_ROOT 16 30 ∨ bit v 0 ≠ rb s (pgMf k) Reg.MF_ROOT 0 → empty t) ∧
        t.work = s.work) ∧
    (MayWrite s fn (pgMf k) (Reg.SHARE_WIN n) → actsOn s fn (pgMf k) true = true → n < 4 →
      let word := v &&& (fldMask 0 16 ||| fldMask 21 25)
      (accessUnder s k 0 0 = false → Completes (.shareWinWrite fn k n v) s fun t =>
        rd t (pgMf k) (Reg.SHARE_WIN n) = word ∧ empty t ∧ t.work = s.work) ∧
      (accessUnder s k 0 0 = true → Completes (.shareWinWrite fn k n v) s fun t =>
        rd t (pgMf k) (Reg.SHARE_WIN n) = rd s (pgMf k) (Reg.SHARE_WIN n) ∧ (k, n, word) ∈ t.xlat.shareWaits ∧
        t.work = s.work))

/-- R189, R190, R191: PREFETCH in translate mode fills the slice with the leaves of its range and ADVISE pins or unpins them
or drops them, and each completes OK; in migrate mode the bytes of a leaf move to B, its entry points there, its cached
translations are dropped and the pages are counted, once no access to the page is open.  What a leaf of one page gains is
said beside the walk of the range; PREFETCH_MIGRATE is stated for one leaf.  Clauses: PREFETCH_TRANSLATE, ADVISE_PIN,
ADVISE_UNPIN, ADVISE_DONT_NEED, PREFETCH_MIGRATE.

Where the rules leave a point open, the clauses rest on the choices of log entries 11 and 65. -/
def Obligations.PrefetchAndAdviceCompleteOk : Prop :=
  ∀ (k x q level a : Nat) (e : Word) (b : Bytes) (w : Work) (s s1 s2 s3 s4 s5 : State),
    let d := w.desc
    let va := dA d
    let n := dK d * 65536
    let mode := fun op m => findWork s k x q op = some w ∧ dOpf d % 4 = m
    (mode 0x55 0 →
      Ends (.prefetchTranslate k x q) s (completeSt (walkRange (begun s) k false (dK d) va (dK d)) w 0) ∧
      (dK d = 1 → quietWalk (begun s) k va = (some (level, e), s1) → sliceOf s1 k va = none →
        Ends (.prefetchTranslate k x q) s (completeSt (fillSlice s1 k va level e) w 0))) ∧
    (mode 0x56 1 →
      Ends (.advisePin k x q) s (completeSt (walkRange (begun s) k true (dK d) va (dK d)) w 0) ∧
      (∀ v : SliceEntry, dK d = 1 → quietWalk (begun s) k va = (some (level, e), s1) → sliceOf s1 k va = some v →
        v.pin = false → (s1.xlat.slice.countP fun v => decide (v.part = k) && v.pin) < 1024 →
        Ends (.advisePin k x q) s (completeSt { s1 with xlat := { s1.xlat with
          slice := s1.xlat.slice.map fun u => if u = v then { v with pin := true } else u } } w 0))) ∧
    (mode 0x56 0 →
      Ends (.adviseUnpin k x q) s (completeSt { begun s with xlat := { s.xlat with
        slice := s.xlat.slice.map fun v =>
          if v.part = k ∧ v.va < va + n ∧ va < v.va + levelSize v.level then { v with pin := false } else v } } w 0)) ∧
    (mode 0x56 2 →
      let u := dropXlat (begun s) k va n
      Ends (.adviseDontNeed k x q) s (completeSt { u with xlat := { u.xlat with walk := s.xlat.walk } } w 0) ∧
      ∀ v ∈ u.xlat.slice, v.part = k → dK d ≠ 0 → v.va + levelSize v.level ≤ va ∨ va + n ≤ v.va) ∧
    (mode 0x55 1 → w.moved = 0 → leafAt (begun s) k va = (.ok (level, e, a), s1) → level ≠ 1 → pageVa level va = va →
      levelSize level = n → 0 < dK d → dB d < 2 ^ 46 → dB d % n = 0 → ownRange k (dB d) n = true →
      ¬(leafPa e < dB d + n ∧ dB d < leafPa e + n) → leafAt s1 k va = (.ok (level, e, a), s2) →
      (pageBusy s2 k va (leafPa e) n = true → Ends (.prefetchMigrate k x q) s (setWork s2 w w)) ∧
      (pageBusy s2 k va (leafPa e) n = false →
        devRead (evictRange s2 k (leafPa e) n) k 168 (leafPa e) n = (some b, s3) →
        devWrite s3 k 168 (dB d) b = (true, s4) →
        devWrite s4 k walkerPort a (wordBytes (setFld e 12 34 (dB d / 4096))) = (true, s5) →
        Ends (.prefetchMigrate k x q) s
          (completeSt (addReg (dropXlat s5 k va n) (pgMf k) Reg.PAGES_MIGRATED (dK d)) w 0)))

/-- R167: device physical addresses are 46 bits wide; group k is the 366,210 pages of 64 KiB from k times 0x8_0000_0000, and
slice k the 64 MiB from 0x100_0000_0000 plus k times 0x400_0000; a leaf with a byte in neither is TARGET_OUTSIDE, whoever
walks.  Clauses: the address decodes, and the check of a leaf. -/
def Obligations.AddressesMapAsTheTableSays : Prop :=
  (∀ a k, groupOf a = some k ↔ k < 16 ∧ k * 0x800000000 ≤ a ∧ a ≤ k * 0x800000000 + 0x59681FFFF) ∧
  (∀ a k, quayOf a = some k ↔ k < 16 ∧ 0x10000000000 + k * 0x4000000 ≤ a ∧ a < 0x10000000000 + (k + 1) * 0x4000000) ∧
  (∀ a, groupOf a ≠ none ∨ quayOf a ≠ none → a < 2 ^ 46) ∧
  ∀ (s : State) (k req level i : Nat) (e : Word) (write : Bool),
    leafPa e < 2 ^ 46 ∧
    (k < 16 → i < levelSize level → groupOf (leafPa e + i) = none → quayOf (leafPa e + i) = none →
      leafFault s k req level e write = some 4)

/-- R199, R200, R202, R203, R208, R209, R210, R213, R214: a read that the check bits pass or correct answers its bytes; one
that they cannot correct answers UNCORRECTABLE, is counted, and its burst stays so; a write, whole or in part, is
acknowledged and changes its bytes alone, and one in part that cannot be read first changes nothing; a request to a BLOCKED
page answers UNCORRECTABLE, and one that must wait is held; an aged entry of the buffer drains; an address that R167
reserves does not exist.  Clauses: MC_READ, MC_WRITE, MC_PARTIAL_WRITE, WC_ENTRY_AGED.

R223, R224, R227, R228, R232, R233, R237: a slice answers a read with its bytes and acknowledges a write, which changes
its bytes alone, for the owner through both ports and for another partition through the ring port, unless the slice is
strict; one that must wait is held; a bank that is replaced moves to a spare, and held requests are served; a parity failure
twice in a row puts the slice, and a command failure the controller, in FAULT.  Clauses: QUAY_READ, QUAY_WRITE,
BANK_REPLACE_COMPLETE, PORT_PARITY, CA_PARITY.

Where the rules leave a point open, the clauses rest on the choices of log entries 14, 32, 33, 66 and 68. -/
def Obligations.DeviceMemoryIsReadAndWritten : Prop :=
  (∀ (a n m g : Nat) (b : Bytes) (ctx : Option Nat) (ecc : Ecc) (s : State), s.canonical →
      let whole := a % 32 = 0 ∧ b.length % 32 = 0
      let part := Instr.mcPartialWrite a b ecc
      ((hbmPlace a).isSome = true → oneRequest a n = true → portHeld s (.mcRead a n ctx ecc) = false →
        (ecc ≠ .uncorrectable → Clean s a n →
          Completes (.mcRead a n ctx ecc) s fun t =>
            Answers s t (.mem a 0 (readBytes s a n)) ∧ SameMemory s t ∧ t.ue = s.ue) ∧
        (blockedRange s a n = false →
          Completes (.mcRead a n ctx .uncorrectable) s fun t =>
            Answers s t (.mem a 4 []) ∧ unitOf a ∈ t.ue ∧ SameMemory s t) ∧
        (blockedRange s a n = true →
          Completes (.mcRead a n ctx ecc) s fun t => Answers s t (.mem a 4 []) ∧ SameMemory s t)) ∧
      ((hbmPlace a).isSome = true → oneRequest a b.length = true → portHeld s (.mcWrite a b) = false →
        (whole → blockedRange s a b.length = false →
          Completes (.mcWrite a b) s fun t => Answers s t (.mem a 0 []) ∧ Stored s t a b) ∧
        (ecc ≠ .uncorrectable → Writable s a b.length →
          Completes part s fun t => Answers s t (.mem a 0 []) ∧ Stored s t a b) ∧
        (partUnits a b.length ≠ [] → blockedRange s a b.length = false →
          Completes (.mcPartialWrite a b .uncorrectable) s fun t => Answers s t (.mem a 4 []) ∧ SameMemory s t) ∧
        (blockedRange s a b.length = true →
          (whole → Completes (.mcWrite a b) s fun t => Answers s t (.mem a 4 []) ∧ SameMemory s t) ∧
          Completes part s fun t => Answers s t (.mem a 4 []) ∧ SameMemory s t)) ∧
      ((hbmPlace a).isSome = true → portHeld s (.mcWrite a b) = true →
        (oneRequest a n = true → exec (.mcRead a n ctx ecc) s = .next (holdPort s (none, .mcRead a n ctx ecc))) ∧
        (oneRequest a b.length = true → (whole → exec (.mcWrite a b) s = .next (holdPort s (none, .mcWrite a b))) ∧
          exec part s = .next (holdPort s (none, part)))) ∧
      (Completes (.wcEntryAged m g) s fun t =>
        (m, g) ∉ t.hbm.wc ∧ t = { s with hbm := { s.hbm with wc := t.hbm.wc } }) ∧
      (groupOf a = none → quayOf a = none →
        exec (.mcRead a n ctx ecc) s = .fault .reservedAddress ∧ exec (.mcWrite a b) s = .fault .reservedAddress ∧
        exec part s = .fault .reservedAddress)) ∧
  (∀ (k off n p m bank : Nat) (ring : Bool) (b : Bytes) (ecc : Ecc) (s : State), s.canonical → k < 16 → p < 16 → m < 8 →
      bank < 64 →
      let read := Instr.quayRead k off n p ring ecc
      let write := Instr.quayWrite k off p ring b ecc
      let a := quayBase k + off
      (p = k ∨ ring = true ∧ rb s (pgQuay k) Reg.QUAY_CFG 0 = false →
        (off + n ≤ quaySize → oneRequest off n = true →
          (portHeld s read = true → exec read s = .next (holdPort s (none, read))) ∧
          (portHeld s read = false → ecc ≠ .uncorrectable → Clean s a n →
            Completes read s fun t => Answers s t (.mem a 0 (readBytes s a n)) ∧ SameMemory s t) ∧
          (portHeld s read = false → blockedRange s a n = false →
            Completes (.quayRead k off n p ring .uncorrectable) s fun t =>
              Answers s t (.mem a 4 []) ∧ unitOf a ∈ t.ue ∧ SameMemory s t)) ∧
        (off + b.length ≤ quaySize → oneRequest off b.length = true →
          (portHeld s write = true → exec write s = .next (holdPort s (none, write))) ∧
          (portHeld s write = false → ecc ≠ .uncorrectable → Writable s a b.length →
            Completes write s fun t => Answers s t (.mem a 0 []) ∧ Stored s t a b))) ∧
      (p ≠ k → rb s (pgQuay k) Reg.QUAY_CFG 0 = true → exec read s = .next s ∧ exec write s = .next s) ∧
      ((k, bank) ∈ s.quay.replacing →
        ThenServes (.bankReplaceComplete k bank) s ∧
        (s.heldPorts = [] → Completes (.bankReplaceComplete k bank) s fun t =>
          rb t (pgQuay k) Reg.QUAY_BANK_MAP bank = true ∧ rb t (pgQuay k) Reg.EVT_STAT 0 = true ∧
          rf t (pgQuay k) Reg.QUAY_SPARE 0 4 = (rf s (pgQuay k) Reg.QUAY_SPARE 0 4 + 1) % 16 ∧
          t.quay.replacing = s.quay.replacing.erase (k, bank) ∧
          (k, bank) ∈ t.flash.fieldMap.quayBanks ∧ t.ue = s.ue ∧ SameMemory s t)) ∧
      (let marks := fun pg q o => q = pg ∧ (o = Reg.PAGE_STAT ∨ o = Reg.ERR_COUNT ∨ o = Reg.ERR_FIRST);
        (Completes (.portParity k false) s fun t => pageState t (pgQuay k) = 5 ∧ SameBut (marks (pgQuay k)) s t) ∧
        exec (.portParity k true) s = .next s ∧
        (Completes (.caParity m false) s fun t => pageState t (pgMc m) = 5 ∧ SameBut (marks (pgMc m)) s t) ∧
        exec (.caParity m true) s = .next s))

/-- R205, R206, R207, R209, R210, R212, R213, R216: a row repair that completes makes its pool entry valid, in place of the
row's earlier one, and serves what was held; refresh moves to the next pair of banks; refresh management forgets the
activates of a bank that has reached its threshold; a temperature sample shows and, from 105 degrees, is the thermal trip; a
patrol read moves to the next burst, and at the end of the pass starts another; it waits where an access would.  Clauses:
ROW_REPAIR_COMPLETE, REFRESH, REFRESH_MANAGEMENT, TEMP_SAMPLE, PATROL_READ.

Where the rules leave a point open, the clauses rest on the choices of log entries 14, 32, 33 and 68. -/
def Obligations.ControllersRepairRefreshAndPatrol : Prop :=
  ∀ (m pc bank : Nat) (degC : Int) (ecc : Ecc) (e : PoolEntry) (s : State), s.canonical → m < 8 → pc < 32 →
    -128 ≤ degC → degC ≤ 127 →
    (runningRepair s m pc = some e →
      ThenServes (.rowRepairComplete m pc) s ∧
      (s.heldPorts = [] → Completes (.rowRepairComplete m pc) s fun t =>
        { e with valid := true } ∈ t.hbm.pool ∧ t.hbm.repairs = s.hbm.repairs.erase (m, pc, e.slot) ∧
        rb t (pgMc m) Reg.EVT_STAT 0 = true ∧ SameMemory s t ∧ t.ue = s.ue ∧
        (∀ v ∈ t.hbm.pool, v ∈ s.hbm.pool ∨ v = { e with valid := true }) ∧
        ∀ v ∈ s.hbm.pool, v = e ∨ v ∈ t.hbm.pool ∨ (v.m = m ∧ v.pc = pc ∧ v.row = e.row ∧ v.bank = e.bank))) ∧
    (Completes (.refresh m pc) s fun t =>
      tally t.hbm.refreshes (m * 32 + pc) = (tally s.hbm.refreshes (m * 32 + pc) + 1) % 32 ∧
      t = { s with hbm := { s.hbm with refreshes := t.hbm.refreshes } }) ∧
    (let i := (m * 32 + pc) * 64 + bank;
      Completes (.refreshManagement m pc bank) s fun t =>
        tally t.hbm.acts i = (if Config.rfmThreshold m ≤ tally s.hbm.acts i then 0 else tally s.hbm.acts i) ∧
        t = { s with hbm := { s.hbm with acts := t.hbm.acts } }) ∧
    (Completes (.tempSample m degC) s fun t =>
      rf t (pgMc m) Reg.MC_TEMP 0 8 = toByte degC ∧ rb t (pgMc m) Reg.MC_TEMP 8 = decide (85 < degC) ∧
      rb t (pgMc m) Reg.MC_TEMP 9 = decide (105 ≤ degC) ∧ (95 < degC → rb t (pgMc m) Reg.EVT_STAT 3 = true) ∧
      t.pwr.tripDue = (decide (105 ≤ degC) || s.pwr.tripDue) ∧
      SameBut (fun q o => q = pgMc m ∧ (o = Reg.MC_TEMP ∨ o = Reg.ERR_COUNT ∨ o = Reg.ERR_FIRST))
        { s with pwr := { s.pwr with tripDue := t.pwr.tripDue } } t) ∧
    (let i := s.hbm.patrol.getD m 0;
      let a := hbmAddr m (i / pcBursts) (i % pcBursts * 32);
      let waits := (holdsOn s).any fun h => heldAt h a;
      (rb s (pgMc m) Reg.MC_CFG 1 = false ∨ waits = true → exec (.patrolRead m ecc) s = .next s) ∧
      (s.hbm.patrol.length = 8 → rb s (pgMc m) Reg.MC_CFG 1 = true → waits = false → Clean s a 32 → i < 32 * pcBursts →
        (ecc = .clean → weakUnits s a 32 = [] → i + 1 < 32 * pcBursts →
          Completes (.patrolRead m ecc) s fun t =>
            t.hbm.patrol.getD m 0 = i + 1 ∧ rf t (pgMc m) Reg.MC_PATROL 32 7 = (i + 1) * 100 / (32 * pcBursts) ∧
            SameBut (oneReg (pgMc m) Reg.MC_PATROL) { s with hbm := t.hbm } t) ∧
        (ecc ≠ .uncorrectable → Completes (.patrolRead m ecc) s fun t =>
          t.hbm.patrol.getD m 0 = (i + 1) % (32 * pcBursts) ∧ a ∉ t.weak ∧ SameMemory s t ∧ t.ue = s.ue ∧
          (i + 1 = 32 * pcBursts → rb t (pgMc m) Reg.EVT_STAT 5 = true ∧ (∀ x ∈ t.hbm.ce, x.1 ≠ m) ∧
            rf t (pgMc m) Reg.MC_PATROL 0 32 = (rf s (pgMc m) Reg.MC_PATROL 0 32 + 1) % 2 ^ 32))))

/-- R3, R201, R217, R219, R232, R233, R234, R235, R236, R237, R391: a zero fill writes a side, or a slice, as zeros and nothing
else, and runs until it is done, when what was held is served; one that fails fails the scrub; an injection is armed; STRICT
drops every other partition's cached translations into the slice and stands once accesses have drained.  Clauses: MC_ZF_CMD,
MC_ZF_DONE, QUAY_ZF_CMD, QUAY_ZF_DONE, MC_INJECT, QUAY_INJECT, QUAY_STRICT_SET, STRICT_DONE.

Where the rules leave a point open, the clauses rest on the choices of log entries 33, 34, 63 and 68. -/
def Obligations.ZeroFillsInjectionsAndStrictTakeEffect : Prop :=
  ∀ (fn m k : Nat) (ok : Bool) (v : Word) (s : State), s.canonical → m < 8 → k < 16 →
    let row := fld v 0 2
    let j := 4 * row + m % 4
    let fails := fun (t : State) (p : Nat) => t.ten = { s.ten with scrubFail := s.ten.scrubFail ++
      (if ok = false ∧ partState s p = 1 ∧ s.ten.scrubFail.contains p = false then [p] else []) }
    (MayWrite s fn (pgMc m) Reg.MC_ZF_CMD → bit v 63 = true → rb s (pgMc m) Reg.MC_ZF_STAT row = false →
      Completes (.mcZfCmd fn m v) s fun t =>
        rb t (pgMc m) Reg.MC_ZF_STAT row = true ∧ Zeroed s t (sideBase j m) (sideBase j m + sideSize) ∧
        SameBut (oneReg (pgMc m) Reg.MC_ZF_STAT) { s with mem := t.mem, ue := t.ue, weak := t.weak } t) ∧
    (rb s (pgMc m) Reg.MC_ZF_STAT row = true →
      ThenServes (.mcZfDone m row true) s ∧
      (s.heldPorts = [] → Completes (.mcZfDone m row ok) s fun t =>
        rb t (pgMc m) Reg.MC_ZF_STAT row = false ∧ rb t (pgMc m) Reg.EVT_STAT 4 = true ∧ fails t j ∧
        SameBut (oneReg (pgMc m) Reg.MC_ZF_STAT) { s with ten := t.ten } t)) ∧
    (MayWrite s fn (pgQuay k) Reg.QUAY_ZF_CMD → actsOn s fn (pgQuay k) true = true →
      rb s (pgQuay k) Reg.QUAY_ZF_STAT 0 = false →
      Completes (.quayZfCmd fn k) s fun t =>
        rd t (pgQuay k) Reg.QUAY_ZF_STAT = 1 ∧ Zeroed s t (quayBase k) (quayBase k + quaySize) ∧
        SameBut (oneReg (pgQuay k) Reg.QUAY_ZF_STAT) { s with mem := t.mem, ue := t.ue, weak := t.weak } t) ∧
    (rb s (pgQuay k) Reg.QUAY_ZF_STAT 0 = true →
      ((∃ e ∈ s.quay.replacing, e.1 = k) → exec (.quayZfDone k ok) s = .next s) ∧
      ((∀ e ∈ s.quay.replacing, e.1 ≠ k) → ThenServes (.quayZfDone k true) s ∧
        (s.heldPorts = [] → Completes (.quayZfDone k ok) s fun t =>
          rd t (pgQuay k) Reg.QUAY_ZF_STAT = w64 (524288 * 256) ∧ rb t (pgQuay k) Reg.EVT_STAT 2 = true ∧ fails t k ∧
          SameBut (oneReg (pgQuay k) Reg.QUAY_ZF_STAT) { s with ten := t.ten } t))) ∧
    (MayWrite s fn (pgMc m) Reg.MC_INJECT → bit v 63 = true → sealHeld s (4 * (fld v 0 5 / 8) + m % 4) = false →
      Completes (.mcInject fn m v) s fun t =>
        (m, fld v 0 5, bit v 5) ∈ t.hbm.inject ∧ t = { s with hbm := { s.hbm with inject := t.hbm.inject } }) ∧
    (MayWrite s fn (pgQuay k) Reg.QUAY_INJECT → actsOn s fn (pgQuay k) true = true → bit v 63 = true →
      Completes (.quayInject fn k v) s fun t =>
        (k, fld v 0 6, bit v 6) ∈ t.quay.inject ∧ t = { s with quay := { s.quay with inject := t.quay.inject } }) ∧
    (MayWrite s fn (pgQuay k) Reg.QUAY_CFG → actsOn s fn (pgQuay k) true = true → quayCfgOk s k v = true →
      let inSlice := fun a => inRange a (quayBase k) quaySize
      let sets := bit v 0 = true ∧ rb s (pgQuay k) Reg.QUAY_CFG 0 = false
      (sets → Completes (.quayStrictSet fn k v) s fun t =>
        (k, v &&& quayCfgMask) ∈ t.quay.strict ∧
        (∀ e ∈ t.xlat.slice, e.part ≠ k → inSlice (leafPa e.leaf) = false) ∧
        (∀ e ∈ t.xlat.micro, e.part ≠ k → inSlice (leafPa e.leaf) = false) ∧
        rd t (pgQuay k) Reg.QUAY_CFG = rd s (pgQuay k) Reg.QUAY_CFG ∧ t.work = s.work ∧
        ((∀ e ∈ s.xlat.micro, e.part ≠ k → inSlice (leafPa e.leaf) = false) →
          t = { s with quay := t.quay, xlat := t.xlat })) ∧
      (¬sets → Completes (.quayStrictSet fn k v) s fun t =>
        rd t (pgQuay k) Reg.QUAY_CFG = v &&& quayCfgMask ∧
        SameBut (fun q o => (q = pgQuay k ∧ o = Reg.QUAY_CFG) ∨ o = Reg.ISO_STAT) { s with quay := t.quay } t)) ∧
    (∀ w : Word, s.quay.strict.find? (fun e => decide (e.1 = k)) = some (k, w) →
      (strictWaits s k = true → exec (.strictDone k) s = .next s) ∧
      (strictWaits s k = false → Completes (.strictDone k) s fun t =>
        rd t (pgQuay k) Reg.QUAY_CFG = w ∧ rb t (pgQuay k) Reg.EVT_STAT 3 = true ∧
        t.quay.strict = s.quay.strict.filter (fun e => decide (e.1 ≠ k)) ∧
        SameBut (fun q o => (q = pgQuay k ∧ o = Reg.QUAY_CFG) ∨ o = Reg.ISO_STAT) { s with quay := t.quay } t))

/-- R238, R241, R243, R244, R245, R249, R251, R253, R258, R261, R390: a request comes to its source's port and joins its route's
first leg once it has its credits, its token and a slot, and waits at the port till then; a packet takes the next leg's
slot at each turn; on its last leg it is delivered to an island that is awake, or answered for a partition under reset;
islands wake for a packet and sleep without work.  Clauses: PACKET_INJECT, PACKET_TURN, PACKET_DELIVER, ISLAND_WAKE,
ISLAND_SLEEP.

R256: a BEST_EFFORT packet of a partition takes one token of its regulator, which is 256 bytes, or waits where the
regulator holds none or RATE is 0; other classes, and device-wide traffic, enter by the deal alone; a regulator fills at
RATE, 40 bytes in each cycle of 40 ns for each GB/s, up to BURST slots.  That an idle step is one cycle is the model's choice
(log entry 1).  Clauses: PACKET_INJECT, STEP.

R249, R250, R261: a broadcast starts as a copy that waits for a slot of its source's ring; each copy that takes one is
copied on as its ring says, and the broadcast ends once every copy is taken and every stop has acknowledged.  Clauses:
BROADCAST, PACKET_TURN, BROADCAST_COMPLETE.

Where the rules leave a point open, the clauses rest on the choices of log entries 1 and 35. -/
def Obligations.PacketsCrossTheRings : Prop :=
  (∀ (src dst : FabUnit) (cargo : Cargo) (p bytes n island cycle id : Nat) (q : Parcel) (l : Leg) (rest : List Leg) (k : Packet)
      (s : State), s.canonical →
      let now := s.fab.clock + cycle
      let ask := Instr.packetInject src dst p cargo bytes n cycle
      let step := fun (x : Parcel) (t : State) =>
        rd t (pgRing l.ring) (flitsOf x.cls) = rd s (pgRing l.ring) (flitsOf x.cls) + (if legLinks l = [] then 0 else 1) ∧
        t.fab.used = s.fab.used ++ slotsFrom l.ring l.back now 0 (legLinks l) ∧
        SameBut (oneReg (pgRing l.ring) (flitsOf x.cls)) { s with fab := t.fab } t
      let may := lockedUnit s q.src = false ∧ scrubStops s q = false ∧ creditsOk s (l :: rest) q.part = true ∧
        (legLinks l = [] ∨ tokenOk s q l = true ∧ slotFree s l.ring l.src l.back now q = true)
      let joins := fun (c : Instr) (nextId : Nat) => Completes c s fun t =>
        t.fab.packets = s.fab.packets ++ [⟨q, l, now, rest⟩] ∧ t.fab.ports = s.fab.ports.erase q ∧ t.fab.nextId = nextId ∧ step q t
      (parcelLegs s q = l :: rest →
        (parcelOf s src dst p cargo bytes n = some q → q ∉ s.fab.ports →
          (may → joins (ask none) (s.fab.nextId + 1)) ∧
          (¬may → exec (ask none) s =
            .next { s with fab := { s.fab with ports := s.fab.ports ++ [q], nextId := s.fab.nextId + 1 } })) ∧
        (s.fab.ports.find? (fun q => decide (q.id = id)) = some q →
          (may → joins (ask (some id)) s.fab.nextId) ∧ (¬may → exec (ask (some id)) s = .next s))) ∧
      (s.fab.packets.find? (fun p => decide (p.load.id = id)) = some k →
        let q := k.load
        let free := waitsTurn k l.ring l.src l.back now = true ∧ slotFree s l.ring l.src l.back now q = true
        (k.rest = l :: rest →
          (free → Completes (.packetTurn id cycle) s fun t =>
            t.fab.packets = s.fab.packets.map (fun x => if x = k then { k with leg := l, cycle := now, rest := rest } else x) ∧
            step q t) ∧
          (¬free → exec (.packetTurn id cycle) s = .next s)) ∧
        (k.rest = [] → arrived k now = true →
          let left := { s.fab with
            packets := s.fab.packets.erase k
            casts := s.fab.casts.map fun c : Cast =>
              if q.last = true ∧ q.cause = some c.id then { c with acked := c.acked ++ [stopOf q.src] } else c }
          let served := if q.last then s.fab.served.filter (fun r => decide (some r.id ≠ q.cause)) else s.fab.served
          let sent := fun (code : Nat) => s.out ++ [.packet id (stopOf q.dst) code]
          (lockedUnit s q.dst = true → exec (.packetDeliver id cycle) s =
            .next { s with fab := { left with served := served }, out := if q.last then s.out else sent 0x0D }) ∧
          (lockedUnit s q.dst = false → asleepUnit s q.dst = false → exec (.packetDeliver id cycle) s =
            .next { s with fab := { left with served := if q.last then served else served ++ [q] }, out := sent 0 }) ∧
          (lockedUnit s q.dst = false → asleepUnit s q.dst = true → exec (.packetDeliver id cycle) s = .next s))) ∧
      (island ∈ s.fab.asleep → waitsIsland s island now = true →
        Completes (.islandWake island cycle) s fun t =>
          island ∉ t.fab.asleep ∧ rd t (pgRing 0) Reg.WAKES = rd s (pgRing 0) Reg.WAKES + 1 ∧
          SameBut (oneReg (pgRing 0) Reg.WAKES) { s with fab := { s.fab with asleep := t.fab.asleep } } t) ∧
      (island < 192 → island ∉ s.fab.asleep → islandBusy s island = false → waitsIsland s island now = false →
        exec (.islandSleep island cycle) s = .next { s with fab := { s.fab with asleep := s.fab.asleep ++ [island] } })) ∧
  (∀ (src dst : FabUnit) (cargo : Cargo) (p bytes n cycle ring : Nat) (q : Parcel) (l : Leg) (rest : List Leg) (s : State),
      s.canonical → p < 16 ∨ p = 0x1F → ring < 8 →
      let now := s.fab.clock + cycle
      let rate := rf s (pgRing ring) (Reg.BE_LIMIT (p % 16)) 0 12
      let full := rf s (pgRing ring) (Reg.BE_LIMIT (p % 16)) 16 8 * 256
      let node := stopOf q.src
      let ask := Instr.packetInject src dst p cargo bytes n cycle none
      (∀ node back, beTokens s node ring back p ≤ full) ∧
      (parcelOf s src dst p cargo bytes n = some q → q.part = p → parcelLegs s q = l :: rest → l.ring = ring →
        legLinks l ≠ [] → scrubStops s q = false → creditsOk s (l :: rest) p = true →
        slotFree s ring l.src l.back now q = true →
        (q.cls = .bestEffort → p < 16 →
          (256 ≤ beTokens s node ring l.back p → rate ≠ 0 →
            Completes ask s fun t =>
              t.fab.packets = s.fab.packets ++ [⟨q, l, now, rest⟩] ∧
              beTokens t node ring l.back p + 256 = beTokens s node ring l.back p ∧
              (∀ m back, (m, back) ≠ (node, l.back) → beTokens t m ring back p = beTokens s m ring back p)) ∧
          (beTokens s node ring l.back p < 256 ∨ rate = 0 →
            exec ask s = .next { s with fab := { s.fab with ports := s.fab.ports ++ [q], nextId := s.fab.nextId + 1 } })) ∧
        (q.cls ≠ .bestEffort ∨ p = 0x1F →
          Completes ask s fun t =>
            t.fab.packets = s.fab.packets ++ [⟨q, l, now, rest⟩] ∧ t.fab.tokens = s.fab.tokens)) ∧
      (s.pending = [] → s.board.pwrOk = true → s.board.sysclk = true →
        ∃ t, step s = .next t ∧
          ∀ node back, beTokens t node ring back p = min full (beTokens s node ring back p + 40 * rate))) ∧
  (∀ (src : FabUnit) (p cycle id : Nat) (v : Nat × Nat × Nat) (c : Cast) (s : State), s.canonical →
      let now := s.fab.clock + cycle
      let free := fun (c : Cast) => slotFree s v.1 v.2.1 (copyLinks c v).2 now (castParcel c) = true
      let taken := fun (casts : List Cast) (t : State) => t.fab.casts = casts ∧
        rd t (pgRing v.1) (flitsOf .control) = rd s (pgRing v.1) (flitsOf .control) + 1 ∧
        SameBut (oneReg (pgRing v.1) (flitsOf .control)) { s with fab := t.fab } t
      (unitOk src = true → lockedUnit s src = false → p < 16 ∨ p = 0x1F → castStart src now = some v →
        (∀ d ∈ s.fab.casts, d.id ≠ s.fab.nextId) →
        let c : Cast := ⟨s.fab.nextId, src, p, [v], [], []⟩
        (free c → Completes (.broadcast src p cycle) s (taken (s.fab.casts ++ [copyTaken c v now]))) ∧
        (¬free c → exec (.broadcast src p cycle) s =
          .next { s with fab := { s.fab with casts := s.fab.casts ++ [c], nextId := s.fab.nextId + 1 } })) ∧
      ((∀ k ∈ s.fab.packets, k.load.id ≠ id) → s.fab.casts.find? (fun c => decide (c.id = id)) = some c → c.copies = [v] →
        (v.2.2 ≤ now → free c → Completes (.packetTurn id cycle) s
          (taken (s.fab.casts.map fun d => if d = c then copyTaken c v now else d))) ∧
        (¬(v.2.2 ≤ now ∧ free c) → exec (.packetTurn id cycle) s = .next s)) ∧
      (Completes (.broadcastComplete id) s fun t =>
        (∀ d ∈ s.fab.casts, d ∈ t.fab.casts ↔ ¬(d.id = id ∧ castDone s d = true)) ∧
        t = { s with fab := { s.fab with casts := t.fab.casts } }))

/-- R246, R247, R255, R263, R264, R266: a deal is committed at its frame, upon which the shadow entries of the ring are the
active ones and the generation advances, unless it would move a sealed partition's; the route mode and an entry of the route
table are written; a replay is counted, and its packet goes one frame later; a bit lane takes a spare of its group, and a
second lane that a link loses takes it down.  Clauses: DEAL_COMMIT, COMMIT_DONE, ROUTE_MODE_WRITE, ROUTE_DATA_WRITE,
CRC_REPLAY, LANE_SPARE.

Where the rules leave a point open, the clauses rest on the choices of log entry 35. -/
def Obligations.DealsRoutesAndLanesAreKept : Prop :=
  ∀ (fn r link lane group wire cycle n : Nat) (dir : Bool) (id : Option Nat) (k : Packet) (v : Word) (s : State), s.canonical →
    r < 8 →
    let moves := rb s (pgRing r) Reg.RING_CTL 0 = true ∧ movesSealed s r = true
    let key := linkKey r link dir
    (MayWrite s fn (pgRing r) Reg.DEAL_COMMIT → r ∉ s.fab.commits → ¬moves →
      Completes (.dealCommit fn r) s fun t =>
        r ∈ t.fab.commits ∧ rb t (pgRing r) Reg.DEAL_STAT 16 = true ∧
        SameBut (oneReg (pgRing r) Reg.DEAL_STAT) { s with fab := { s.fab with commits := t.fab.commits } } t) ∧
    (r ∈ s.fab.commits →
      let ends := fun (t : State) => (∀ q, q ∈ t.fab.commits ↔ q ∈ s.fab.commits ∧ q ≠ r) ∧
        rb t (pgRing r) Reg.DEAL_STAT 16 = false ∧
        (∀ q, q ≠ r → ringEntries t.fab.active q = ringEntries s.fab.active q) ∧ SameMemory s t
      (¬moves → Completes (.commitDone r) s fun t =>
        ringEntries t.fab.active r = ringEntries s.fab.shadow r ∧ rb t (pgRing r) Reg.EVT_STAT 3 = true ∧
        rf t (pgRing r) Reg.DEAL_STAT 0 16 = (rf s (pgRing r) Reg.DEAL_STAT 0 16 + 1) % 2 ^ 16 ∧ ends t ∧
        SameBut (oneReg (pgRing r) Reg.DEAL_STAT)
          { s with fab := { s.fab with active := t.fab.active, commits := t.fab.commits } } t) ∧
      (moves → Completes (.commitDone r) s fun t => t.fab.active = s.fab.active ∧ ends t)) ∧
    (MayWrite s fn (pgRing 0) Reg.FAB_CTL →
      Completes (.routeModeWrite fn v) s fun t =>
        rb t (pgRing 0) Reg.FAB_CTL 0 = bit v 0 ∧ SameBut (oneReg (pgRing 0) Reg.FAB_CTL) s t) ∧
    (let src := rf s (pgRing 0) Reg.ROUTE_SEL 0 6;
      let dst := rf s (pgRing 0) Reg.ROUTE_SEL 8 6;
      let e := fld v 0 12;
      MayWrite s fn (pgRing 0) Reg.ROUTE_DATA →
      e = tally s.fab.routes (src * 64 + dst) ∨ locked s (pgRing 0) = false ∧ routeOk s src dst e = true →
      Completes (.routeDataWrite fn v) s fun t =>
        tally t.fab.routes (src * 64 + dst) = e ∧
        (∀ i, i ≠ src * 64 + dst → tally t.fab.routes i = tally s.fab.routes i) ∧
        t = { s with fab := { s.fab with routes := t.fab.routes } }) ∧
    (link < ringLinks r → lane < 4 → group < 8 → key ∉ s.fab.down →
      let w := wireKey r link dir lane group wire
      let off := tally s.fab.lanesOff key
      let g := (key * 4 + lane) * 8 + group
      let errs := fun q o => q = pgRing r ∧ (o = Reg.CRC_REPLAYS ∨ o = Reg.ERR_COUNT ∨ o = Reg.ERR_FIRST)
      (wire < 34 →
        (∀ again, again = 0 ∨ again = 1 → Completes (.crcReplay r link dir lane group wire id again) s fun t =>
          rd t (pgRing r) Reg.CRC_REPLAYS = rd s (pgRing r) Reg.CRC_REPLAYS + 1 ∧
          rd t (pgRing r) Reg.ERR_COUNT = rd s (pgRing r) Reg.ERR_COUNT + (if again = 1 then 1 else 0) ∧
          wireErrs t w = wireErrs s w + 1 ∧ (id = none → t.fab.packets = s.fab.packets) ∧
          (id.bind (fun i => s.fab.packets.find? fun p => decide (p.load.id = i)) = some k →
            (legLinks k.leg).findIdx? (fun i => decide (linkKey k.leg.ring i k.leg.back = key)) = some n →
            t.fab.packets = s.fab.packets.map fun x => if x = k then { k with cycle := k.cycle + 64 } else x) ∧
          SameBut errs { s with fab := t.fab } t) ∧
        Completes (.crcReplay r link dir lane group wire id 2) s fun t =>
          rd t (pgRing r) Reg.ERR_COUNT = rd s (pgRing r) Reg.ERR_COUNT + 1 ∧ SameBut errs s t) ∧
      (wireErrs s w ≤ 16 → exec (.laneSpare r link dir lane group wire cycle) s = .next s) ∧
      (16 < wireErrs s w → off.testBit lane = false →
        (tally s.fab.spares g < 2 →
          Completes (.laneSpare r link dir lane group wire cycle) s fun t =>
            tally t.fab.spares g = tally s.fab.spares g + 1 ∧ t.fab.lanesOff = s.fab.lanesOff ∧ wireErrs t w = 0 ∧
            rb t (pgRing r) Reg.EVT_STAT 0 = true ∧ SameBut noReg { s with fab := t.fab, flash := t.flash } t) ∧
        (2 ≤ tally s.fab.spares g → off = 0 →
          Completes (.laneSpare r link dir lane group wire cycle) s fun t =>
            tally t.fab.lanesOff key = 1 <<< lane ∧ t.fab.down = s.fab.down ∧ rb t (pgRing r) Reg.EVT_STAT 1 = true) ∧
        (2 ≤ tally s.fab.spares g → popCount off 4 = 1 →
          Completes (.laneSpare r link dir lane group wire cycle) s fun t =>
            key ∈ t.fab.down ∧ key ∈ t.flash.fieldMap.links ∧ pageState t (pgRing r) = 5 ∧
            rb t (pgRing r) Reg.EVT_STAT 2 = true)))

/-- R275, R276, R279, R280, R281: a home that is ready serves at once a request for a line that nobody holds: a caching
reader becomes the owner, whether it asked to share or to own, or to upgrade a line it does not hold; a plain reader is
answered what memory holds and the line stays UNCACHED; a write, a part write or an atomic add is done in memory; and a
request that others of its home cycle follow waits for them.
Clauses: RD_S, RD_X, UPG, RD_ONCE, WR_LINE, WR_PART, ATOM_ADD, and the same with more requests to come.

Where the rules leave a point open, the clauses rest on the choices of log entries 13, 36 and 68. -/
def Obligations.UncachedLinesAreServedFromMemory : Prop :=
  ∀ (k pos line hint mask pa : Nat) (data : Bytes) (v : Word) (s : State), s.canonical → pos < 18 → HomeReady s k line →
    agentPos s k pos = true → dirOf s k line = none → data.length = 128 →
    let old := readBytes s (line * 128) 128
    let owner := fun (r : CohReq) (t : State) =>
      dirOf t k line = some ⟨k, line, freeWay s k line, true, 1 <<< pos⟩ ∧
      lineTxn t k line = some ⟨k, line, pos, r, 0, 0, 0, some old, decide (r = .rdS), 2, false⟩ ∧
      rd t (pgPart k) Reg.COH_REQUESTS = rd s (pgPart k) Reg.COH_REQUESTS + 1 ∧ SameMemory s t
    let written := fun (p : Nat) (r : CohReq) (t : State) =>
      dirOf t k line = none ∧ (∃ x, lineTxn t k line = some x ∧ x.pos = p ∧ x.req = r ∧ x.phase = 2) ∧
      rd t (pgPart k) Reg.COH_REQUESTS = rd s (pgPart k) Reg.COH_REQUESTS + 1 ∧
      Stored s t (line * 128) (mergeReq r old)
    let comes := fun (p : Nat) (r : CohReq) =>
      Host.Outcome.next { s with coh := { s.coh with arrivals := s.coh.arrivals ++ [(k, p, line, r)] } }
    (cachingPos s k pos = true →
      Completes (.rdS k pos line false false) s (owner .rdS) ∧ Completes (.rdX k pos line false false) s (owner .rdX) ∧
      Completes (.upg k pos line false false) s (owner .rdX) ∧
      exec (.rdS k pos line false true) s = comes pos .rdS ∧ exec (.rdX k pos line false true) s = comes pos .rdX ∧
      exec (.upg k pos line false true) s = comes pos .upg) ∧
    (Completes (.rdOnce k pos line false false) s fun t =>
      dirOf t k line = none ∧ lineTxn t k line = some ⟨k, line, pos, .rdOnce, 0, 0, 0, some old, true, 2, false⟩ ∧
      SameMemory s t) ∧
    exec (.rdOnce k pos line false true) s = comes pos .rdOnce ∧
    (hintUsable s k hint = false →
      Completes (.wrLine k pos line hint data false false) s (written pos (.wrLine data hint)) ∧
      Completes (.wrPart k pos line hint mask data false false) s (written pos (.wrPart mask data hint))) ∧
    exec (.wrLine k pos line hint data false true) s = comes pos (.wrLine data hint) ∧
    exec (.wrPart k pos line hint mask data false true) s = comes pos (.wrPart mask data hint) ∧
    (pa / 128 = line →
      (pa % 8 = 0 → Completes (.atomAdd k pa v false false) s (written 17 (.atomAdd pa v))) ∧
      exec (.atomAdd k pa v false true) s = comes 17 (.atomAdd pa v))

/-- R273, R276, R277, R279: with sharers in the directory, a reader joins them without a snoop; an owner-to-be waits for the
answer of every other holder, each sent SNP_INV; the only sharer is upgraded at once; of two readers of one home cycle the
higher ranked is served and the other is sent RETRY; so is a request for a line with a transaction open; and a request sent
again under its credit is served once the line is free.  (The rank before any win is the model's choice, log entry 36.)
Clauses: joined, snooped, upgraded, two at once, blocked, sent again.

R275, R277, R287, R288, R289: an agent that stays silent past the timeout, be it with an answer or with a request to be
sent again, loses the partition's domain, as do a directory entry that cannot be corrected, a request that only a caching
agent may send, and a notice of a line that its sender does not own: no transaction and no retry of it is left, its contexts
are dead, DOMAIN_LOST is raised, nothing is written back, and the partition is in FAULT where it was in use.
Clauses: SNOOP_TIMEOUT, DOMAIN_LOST, PROTOCOL by a reader, by a WB.

Where the rules leave a point open, the clauses rest on the choices of log entry 36. -/
def Obligations.SharedLinesAreSnoopedAndLostDomainsEnd : Prop :=
  (∀ (k pos p line w h : Nat) (s : State), s.canonical → pos < 8 → p < 8 → h < 2 ^ 18 →
      let shared := dirOf s k line = some ⟨k, line, w, false, h⟩
      let others := (bitsOf h 18).filter fun q => decide (q ≠ pos)
      let sent := fun (t : State) (q : Nat) (msg : String) (d : Bytes) => Out.coh k q line msg d ∈ t.out ∧ s.out <+: t.out
      let old := readBytes s (line * 128) 128
      let retried := fun (t : State) => (⟨k, line, pos, .rdS, false⟩ : RetryRes) ∈ t.coh.retries ∧ sent t pos "RETRY" [] ∧
        rd t (pgPart k) Reg.COH_RETRIES = rd s (pgPart k) Reg.COH_RETRIES + 1
      (HomeReady s k line → shared →
        (Completes (.rdS k pos line false false) s fun t =>
          dirOf t k line = some ⟨k, line, w, false, h ||| 1 <<< pos⟩ ∧ sent t pos "DATA_S" old ∧ SameMemory s t) ∧
        (others ≠ [] → h < 2 ^ 12 →
          Completes (.rdX k pos line false false) s fun t =>
            (∃ x, lineTxn t k line = some x ∧ x.pos = pos ∧ x.req = .rdX ∧ x.phase = 0 ∧ x.await = maskOf others) ∧
            t.out = s.out ++ (others.map fun q => .coh k q line "SNP_INV" []) ∧ t.coh.dir = s.coh.dir ∧ SameMemory s t) ∧
        (h = 1 <<< pos →
          Completes (.upg k pos line false false) s fun t =>
            dirOf t k line = some ⟨k, line, w, true, 1 <<< pos⟩ ∧ sent t pos "GRANT_UPG" [] ∧ SameMemory s t) ∧
        (p ≠ pos → rankOf s k line p < rankOf s k line pos → entryUsed s k pos line = false →
          Completes (.rdS k pos line false false)
            { s with coh := { s.coh with arrivals := s.coh.arrivals ++ [(k, p, line, .rdS)] } } fun t =>
            dirOf t k line = some ⟨k, line, w, false, h ||| 1 <<< p⟩ ∧ sent t p "DATA_S" old ∧ retried t ∧
            rankOf t k line p = 17)) ∧
      (k < 16 → ownRange k (line * 128) 128 = true → domainLost s k = false →
        ((lineTxn s k line).isSome = true → (∀ e ∈ s.coh.arrivals, ¬(e.1 = k ∧ e.2.2.1 = line)) →
          entryUsed s k pos line = false → (∀ e ∈ s.coh.waits, ¬(e.1 = k ∧ homeOf e.2.2.1 = homeOf line)) →
          Completes (.rdS k pos line false false) s fun t => retried t ∧ t.coh.txns = s.coh.txns ∧ t.coh.dir = s.coh.dir) ∧
        (lineTxn s k line = none → (s.coh.retries.filter fun e => e.part = k && e.line = line) = [⟨k, line, pos, .rdS, false⟩] →
          (∀ e ∈ s.coh.waits, ¬(e.1 = k ∧ homeOf e.2.2.1 = homeOf line)) → Clean s (line * 128) 128 → shared →
          Completes (.rdS k pos line true false) s fun t =>
            (∀ e ∈ t.coh.retries, ¬(e.part = k ∧ e.line = line)) ∧ sent t pos "DATA_S" old ∧
            dirOf t k line = some ⟨k, line, w, false, h ||| 1 <<< pos⟩ ∧
            ∃ x, lineTxn t k line = some x ∧ x.pos = pos ∧ x.phase = 2 ∧ x.res = true))) ∧
  (∀ (k pos line : Nat) (x : Txn) (r : RetryRes) (d : Bytes) (s : State), s.canonical → k < 16 → pos < 18 →
      domainLost s k = false →
      let lost := fun (code : Nat) (t : State) =>
        domainLost t k = true ∧ (∀ y ∈ t.coh.txns, y.part ≠ k) ∧ (∀ v ∈ t.coh.retries, v.part ≠ k) ∧
        rf t (pgPart k) Reg.COH_FAULT 0 8 = code ∧ rb t (pgPart k) Reg.COH_FAULT 63 = true ∧
        rb t (pgPart k) Reg.EVT_STAT 4 = true ∧
        (∀ c, c < 256 → ctxState t k c = 0 ∨ ctxState t k c = 4 ∨ ctxState t k c = 5) ∧
        (partLive s k = true → partState t k = 5) ∧ SameMemory s t
      ((lineTxn s k line = some x ∧ (x.await.testBit pos = true ∨ x.notices.testBit pos = true)) ∨
          (r ∈ s.coh.retries ∧ r.part = k ∧ r.line = line ∧ r.pos = pos ∧ r.back = false) →
        Completes (.snoopTimeout k pos line) s (lost 0x22)) ∧
      (Completes (.domainLost k) s fun t =>
        lost 0x20 t ∧ rf t (pgPart k) Reg.COH_FAULT 13 3 = homeOf (rf t (pgPart k) Reg.COH_FAULT 16 39)) ∧
      (cachingPos s k pos = false →
        (agentPos s k pos = true → ownRange k (line * 128) 128 = true →
          Completes (.rdX k pos line false false) s (lost 0x23)) ∧
        (8 ≤ pos → Completes (.wb k pos line d true) s (lost 0x23))) ∧
      (pos < 8 → flightOf s k pos line = none → cached s k pos line = none → ownedLine s k line = false →
        lineTxn s k line = none → Completes (.wb k pos line d true) s (lost 0x23)))

/-- R272, R273, R278, R279, R283: a snoop that reaches a cluster puts the answer that the state of its copy calls for on its
way and leaves the copy shared or gone, WB_IN_FLIGHT where its notice has gone before; each answer clears its agent from
those awaited, dirty data is kept for the line, and a notice in flight is awaited in its stead.
Clauses: SNP_SHR, SNP_INV, of a line held and not held, ACK_MISS, ACK_CLEAN, DATA_DIRTY, WB_IN_FLIGHT.

Where the rules leave a point open, the clauses rest on the choices of log entries 7 and 36. -/
def Obligations.SnoopsAreAnswered : Prop :=
  ∀ (k m line : Nat) (d : Bytes) (x : Txn) (s : State), s.canonical → k < 16 → m < 8 →
    lineTxn s k line = some x → x.await.testBit m = true → x.phase = 0 →
    (∀ e ∈ s.coh.waits, ¬(e.1 = k ∧ homeOf e.2.2.1 = homeOf line)) →
    let asked := fun (a : Answer) => (k, m, line, a) ∈ s.coh.answers ∧
      ∀ v ∈ s.coh.answers, v.1 = k → v.2.1 = m → v.2.2.1 = line → v.2.2.2 = a
    let rest := x.await ^^^ (1 <<< m)
    let answer := fun (l : CLine) =>
      if l.st = .evicting then Answer.inFlight else if l.st = .modified then .dirty l.data else .clean
    ((∀ e ∈ s.coh.answers, ¬(e.1 = k ∧ e.2.1 = m ∧ e.2.2.1 = line)) →
      (x.shr = true → ∀ l, cached s k m line = some l →
        Completes (.snpShr k m line) s fun t =>
          t.coh.answers = s.coh.answers ++ [(k, m, line, answer l)] ∧
          cached t k m line = (if l.st = .evicting then none else some ⟨k, m, line, .shared, l.data⟩) ∧
          t = { s with coh := t.coh }) ∧
      (x.shr = true → cached s k m line = none → x.arrived.testBit m = false →
        exec (.snpShr k m line) s = .next { s with coh := { s.coh with
          answers := s.coh.answers ++ [(k, m, line, .miss)] } }) ∧
      (x.shr = false → ∀ l, cached s k m line = some l →
        Completes (.snpInv k m line) s fun t =>
          t.coh.answers = s.coh.answers ++ [(k, m, line, answer l)] ∧
          cached t k m line = none ∧ t = { s with coh := t.coh }) ∧
      (x.shr = false → cached s k m line = none →
        exec (.snpInv k m line) s = .next { s with coh := { s.coh with
          answers := s.coh.answers ++ [(k, m, line, if x.arrived.testBit m then .inFlight else .miss)] } }) ∧
      (∀ l, cached s k m line = some l → l.st = .modified → rest ≠ 0 → x.arrived.testBit m = false →
        flightOf s k m line = none → wbCredit s k m line = true →
        Completes (.wbInFlight k m line) s fun t =>
          cached t k m line = none ∧ (k, m, line, some l.data) ∈ t.coh.flight ∧
          lineTxn t k line = some { x with await := rest, notices := x.notices ||| (1 <<< m) } ∧
          rd t (pgPart k) Reg.COH_CROSSINGS = rd s (pgPart k) Reg.COH_CROSSINGS + 1)) ∧
    (rest ≠ 0 → asked .miss →
      Completes (.ackMiss k m line) s fun t => lineTxn t k line = some { x with await := rest } ∧ t = { s with coh := t.coh }) ∧
    (rest ≠ 0 → asked .clean →
      Completes (.ackClean k m line) s fun t => lineTxn t k line = some { x with await := rest } ∧ t = { s with coh := t.coh }) ∧
    (rest ≠ 0 → asked (.dirty d) →
      Completes (.dataDirty k m line d) s fun t =>
        lineTxn t k line = some { x with await := rest, dirty := some (fitBytes d 128) } ∧ t = { s with coh := t.coh }) ∧
    (rest ≠ 0 → asked .inFlight → x.arrived.testBit m = true →
      Completes (.wbInFlight k m line) s fun t =>
        lineTxn t k line = some { x with await := rest, arrived := x.arrived ^^^ (1 <<< m) } ∧
        rd t (pgPart k) Reg.COH_CROSSINGS = rd s (pgPart k) Reg.COH_CROSSINGS + 1)

/-- R272, R275, R276, R278, R279, R281, R283, R284: the owner's notice of a modified or a clean line is on its way, the line
EVICTING, and once it has arrived the line is UNCACHED and modified data in memory; a cluster takes what it is granted; a
placed line is modified at its cluster; an acknowledged grant or placement, an answered read and an acknowledged write go on
or close their transactions.
Clauses: WB and EVICT_CLEAN sent and arriving, DATA_S, DATA_E, GRANT_UPG, GRANT_ACK, RD_DATA, WR_ACK, FILL_HINT and its
GRANT_ACK.

Where the rules leave a point open, the clauses rest on the choices of log entries 13 and 36. -/
def Obligations.LinesMoveBetweenCachesAndMemory : Prop :=
  ∀ (k m line : Nat) (b : Bytes) (l : CLine) (x : Txn) (s : State), s.canonical → k < 16 → m < 8 → domainLost s k = false →
    (∀ r ∈ s.coh.retries, ¬(r.part = k ∧ r.line = line ∧ r.back = true)) →
    (∀ r ∈ s.coh.waits, ¬(r.1 = k ∧ homeOf r.2.2.1 = homeOf line)) →
    let closed := fun (t : State) => t.coh.txns = s.coh.txns.erase x ∧ SameMemory s t ∧ t.regs = s.regs
    let room := (s.coh.lines.countP fun l => l.part = k && l.pos = m) < 12 ∨ (cached s k m line).isSome = true
    let onWay := fun (d : Option Bytes) =>
      { s with coh := { s.coh with
        lines := (s.coh.lines.filter fun l => !(l.part = k && l.pos = m && l.line = line)) ++ [⟨k, m, line, .evicting, l.data⟩]
        flight := s.coh.flight ++ [(k, m, line, d)] } }
    let gone := fun (t : State) => dirOf t k line = none ∧ cached t k m line = none ∧ flightOf t k m line = none
    let written := fun (t : State) => gone t ∧ Stored s t (line * 128) (fitBytes l.data 128)
    let given := fun (t : State) => gone t ∧ t = { s with coh := t.coh }
    (lineTxn s k line = none → ownedLine s k line = true → holdersOf s k line = 1 <<< m → cached s k m line = some l →
      Clean s (line * 128) 128 → flightOf s k m line = none → wbCredit s k m line = true →
      (l.st = .modified →
        exec (.wb k m line b false) s = .next (onWay (some l.data)) ∧
        Completes (.wb k m line b true) s written ∧ Completes (.wb k m line b true) (onWay (some l.data)) written) ∧
      (l.st = .exclusive →
        exec (.evictClean k m line false) s = .next (onWay none) ∧
        Completes (.evictClean k m line true) s given ∧ Completes (.evictClean k m line true) (onWay none) given)) ∧
    (lineTxn s k line = some x → x.pos = m → x.phase = 2 → x.dirty = some b →
      (room → x.req = .rdS ∨ x.req = .rdX → ownedLine s k line = false →
        Completes (.dataS k m line) s fun t => cached t k m line = some ⟨k, m, line, .shared, b⟩ ∧ t = { s with coh := t.coh }) ∧
      (room → x.req = .rdS ∨ x.req = .rdX → ownedLine s k line = true →
        Completes (.dataE k m line) s fun t => cached t k m line = some ⟨k, m, line, .exclusive, b⟩ ∧ t = { s with coh := t.coh }) ∧
      (x.req = .upg → cached s k m line = some l → l.st = .shared →
        Completes (.grantUpg k m line) s fun t =>
          cached t k m line = some ⟨k, m, line, .exclusive, l.data⟩ ∧ t = { s with coh := t.coh }) ∧
      (x.req = .rdS ∨ x.req = .rdX ∨ x.req = .upg → (cached s k m line).isSome = true →
        Completes (.grantAck k m line) s closed) ∧
      (x.req = .rdOnce →
        Completes (.rdData k m line) s fun t => t.out = s.out ++ [.coh k m line "RD_DATA" b] ∧ closed t) ∧
      (writingReq x.req = true →
        Completes (.wrAck k m line) s fun t => t.out = s.out ++ [.coh k m line "WR_ACK" []] ∧ closed t)) ∧
    (lineTxn s k line = some x → x.phase = 1 → reqHint x.req % 8 = m → x.dirty = some b →
      hintUsable s k (reqHint x.req) = true → (dirSetEntries s k line).length < 12 → room →
      Completes (.fillHint k m line) s fun t =>
        cached t k m line = some ⟨k, m, line, .modified, b⟩ ∧ ownedLine t k line = true ∧ holdersOf t k line = 1 <<< m ∧
        lineTxn t k line = some { x with phase := 3 } ∧
        rd t (pgPart k) Reg.COH_HINT_PLACED = rd s (pgPart k) Reg.COH_HINT_PLACED + 1 ∧ SameMemory s t) ∧
    (lineTxn s k line = some x → x.phase = 3 → reqHint x.req % 8 = m →
      Completes (.grantAck k m line) s fun t => lineTxn t k line = some { x with phase := 2 } ∧ t = { s with coh := t.coh })

/-- R294, R295, R296, R298, R299, R300, R303, R304, R305, R324, R325: a site trains its sideband, reads sixteen identity words,
is admitted by a wholly matching entry and trained on the mainband, on the modules that the defect map does not bar, or is
empty; an unknown message is counted; a site that is reset starts again and keeps its assignment, and one that has been
admitted loses the domains it cached for; one whose identity cannot be read is held in QUARANTINE.
Clauses: SIDEBAND_TRAINED, SITE_EMPTY, SIDEBAND_UNKNOWN, ID_DATA, MAINBAND_TRAINED, SITE_RESET with its codes.

Where the rules leave a point open, the clauses rest on the choices of log entry 38. -/
def Obligations.SitesTrainAndAreAdmitted : Prop :=
  ∀ (t i up x32 gts : Nat) (v : Word) (s : State), s.canonical → t < 4 → i < 16 → s.sites.length = 4 →
    let p := pgSite t
    let site := siteOf s t
    let stat := oneReg p Reg.PAGE_STAT
    (siteAt s t 2 1 = true →
      (s.board.siteRails.testBit t = true → p ∉ s.boot.railFaults →
        Completes (.sidebandTrained t) s fun u =>
          siteAt u t 2 2 = true ∧ (.site t "ID_REQ" [0] []) ∈ u.out ∧ (siteOf u t).idSeen = [] ∧
          SameBut stat { s with sites := u.sites } u) ∧
      Completes (.siteEmpty t) s fun u => siteAt u t 3 6 = true ∧ SameBut stat s u) ∧
    (pageState s p ≠ 0 →
      exec (.sidebandUnknown t) s =
        .next { s with sites := s.sites.set t { site with unknown := site.unknown + 1 } }) ∧
    (siteAt s t 2 2 = true → i ∉ site.idSeen →
      (site.idSeen.length < 15 →
        Completes (.idData t i v) s fun u =>
          rd u p (Reg.SITE_IDENT i) = v ∧ (siteOf u t).idSeen = site.idSeen ++ [i] ∧
          SameBut (oneReg p (Reg.SITE_IDENT i)) { s with sites := u.sites } u) ∧
      (∀ n, site.idSeen.length = 15 →
        let r := identity (wr s p (Reg.SITE_IDENT i) v) t
        identOk r = true → (site.list.map (entryMatch t r)).findIdx? (fun m => decide (m = 4)) = some n → n < 16 →
        Completes (.idData t i v) s fun u =>
          siteAt u t 2 3 = true ∧ rf u p Reg.SITE_ADMIT 0 4 = 1 ∧ rf u p Reg.SITE_ADMIT 4 4 = n ∧
          rf u p Reg.SITE_ADMIT 8 4 = leAt r 7 1 ∧ SameMemory s u)) ∧
    (let on := up &&& (65535 ^^^ (barred s t).1)
      let half := x32 ||| (barred s t).2
      siteAt s t 2 3 = true → 16 ≤ halvesOf on half → gts ∈ [4, 8, 12, 16, 24, 32] → gts ≤ maxGts s t →
      Completes (.mainbandTrained t up x32 gts) s fun u =>
        siteAt u t 3 4 = true ∧ siteAdmitted u t = true ∧ rf u p Reg.SITE_LINK 0 16 = on % 65536 ∧
        rf u p Reg.SITE_LINK 32 8 = halvesOf on half ∧ rf u p Reg.SITE_LINK 40 8 = gts ∧
        rb u p Reg.EVT_STAT 0 = true ∧ rf u pgPwr (Reg.SITE_PWR t) 16 12 = siteCapMax u t % 4096 ∧ SameMemory s u) ∧
    (pageState s p ≠ 0 →
      Completes (.siteReset t 0) s fun u =>
        siteAt u t 2 1 = true ∧ rd u p Reg.SITE_LINK = 0 ∧ rd u p Reg.SITE_ASSIGN = rd s p Reg.SITE_ASSIGN ∧
        (siteOf u t).list = admitList s ∧
        (siteAdmitted s t = true → ∀ k, k < 16 → (rf s p Reg.SITE_ASSIGN 16 16).testBit k = true → domainLost u k = true)) ∧
    (siteAt s t 2 2 = true →
      Completes (.siteReset t 1) s fun u => siteAt u t 3 5 = true ∧ rd u p Reg.SITE_ADMIT = 7 ∧ rb u p Reg.EVT_STAT 1 = true) ∧
    (∀ c, siteAdmitted s t = true → 5 ≤ c → c ≤ 7 →
      Completes (.siteReset t c) s fun u => siteAt u t 5 7 = true ∧ rd u p Reg.SITE_LINK = 0)

/-- R297, R299, R306, R311, R312, R316: the masks of a site change at once and the write is done once the partitions
removed have drained; a module leaves to retrain, its unacknowledged flits sent again on the others, and returns with the
spares it used, a half that is lost kept in the defect map; a flit in order is acknowledged, a damaged one answered with NAK,
seventeen of one module in a millisecond retrain it, flits the chiplet misses are sent again, and a chunk count above 15
breaks the protocol; a partition reset is acknowledged, or the site is lost.
Clauses: SITE_ASSIGN, ASSIGN_DONE, SITE_CMD_RETRAIN, MODULE_RETRAIN, MODULE_RETRAIN_DONE, FLIT_RECEIVE, PART_RESET_ACK,
PART_RESET_ACK_TIMEOUT.

Where the rules leave a point open, the clauses rest on the choices of log entries 38 and 69. -/
def Obligations.SitesAreAssignedAndKeptUp : Prop :=
  ∀ (fn t m k lo hi : Nat) (v : Word) (flit : Bytes) (s : State), s.canonical → t < 4 → m < 16 → s.sites.length = 4 →
    let p := pgSite t
    let site := siteOf s t
    let lost := fun (u : State) => (siteOf u t).sent.all fun f => (activeModules u t).contains f.2
    let leaves := fun (u : State) => (siteOf u t).retrain = site.retrain ++ [m] ∧
      fld ((siteOf u t).modStat.getD m 0) 16 16 = (fld (site.modStat.getD m 0) 16 16 + 1) % 65536 ∧
      (activeModules u t ≠ [] →
        lost u = true ∧ rd u p Reg.SITE_REPLAYS = rd s p Reg.SITE_REPLAYS +
          w64 (site.sent.countP fun f => !((activeModules u t).contains f.2))) ∧
      SameBut (oneReg p Reg.SITE_REPLAYS) { s with sites := u.sites, free := u.free } u
    site.modStat.length = 16 →
    (MayWrite s fn p Reg.SITE_ASSIGN →
      (∀ k, k < 16 → partState s k ≠ 3 ∧ partState s k ≠ 4 ∧ sealHeld s k = false) →
      fld v 16 16 &&& fld v 0 16 = fld v 16 16 → siteAdmitted s t = true → rb s p Reg.SITE_ADMIT 15 = true →
      rb s p Reg.SITE_CFG 0 = false →
      Completes (.siteAssign fn t v) s fun u =>
        rf u p Reg.SITE_ASSIGN 0 16 = fld v 0 16 ∧ rf u p Reg.SITE_ASSIGN 16 16 = fld v 16 16 ∧
        (siteOf u t).assigning = some ((rf s p Reg.SITE_ASSIGN 0 16 &&& (65535 ^^^ fld v 0 16)) ||| site.assigning.getD 0) ∧
        (∀ x ∈ u.xlat.micro, x.req ≠ 164 + t) ∧
        ((∀ x ∈ s.xlat.micro, x.req ≠ 164 + t) →
          SameBut (fun q o => (q = p ∧ o = Reg.SITE_ASSIGN) ∨ o = Reg.ISO_STAT) { s with sites := u.sites, xlat := u.xlat } u)) ∧
    (∀ gone, site.assigning = some gone → (∀ q ∈ s.siteReqs, ¬(q.site = t ∧ gone.testBit q.part = true)) →
      Completes (.assignDone t) s fun u =>
        (siteOf u t).assigning = none ∧ rb u p Reg.EVT_STAT 6 = true ∧ SameBut noReg { s with sites := u.sites } u) ∧
    (m ∉ site.retrain → rb s p Reg.SITE_LINK m = true → siteAdmitted s t = true →
      Completes (.moduleRetrain t m) s leaves ∧
      (MayWrite s fn p Reg.SITE_CMD → siteAt s t 3 4 = true → rf s p Reg.SITE_MOD_SEL 0 4 = m →
        Completes (.siteCmdRetrain fn t) s leaves)) ∧
    (let w := site.modStat.getD m 0
      let after := fun (u : State) (at' : Nat) => fld ((siteOf u t).modStat.getD m 0) at' 2
      let failed := fun (u : State) (at' bad h : Nat) =>
        ((m, h) ∈ (siteOf u t).lostHalves ↔ (m, h) ∈ site.lostHalves ∨ 2 < fld w at' 2 + bad) ∧
        (2 < fld w at' 2 + bad → (m, h) ∉ site.lostHalves → (t, m, h) ∈ u.flash.fieldMap.halves)
      m ∈ site.retrain →
      Completes (.moduleRetrainDone t m lo hi) s fun u =>
        m ∉ (siteOf u t).retrain ∧ after u 0 = min 2 (fld w 0 2 + lo) ∧ after u 2 = min 2 (fld w 2 2 + hi) ∧
        failed u 0 lo 0 ∧ failed u 2 hi 1) ∧
    (siteAdmitted s t = true → flit.length = 256 → m ∈ activeModules s t →
      let now := (rd s pgErr Reg.ERR_TIME).toNat
      let recent := site.crcErrs.filter fun x => decide (now < x.2 + 25000)
      let ack := leAt flit 2 2
      let known := (ack + 65536 - site.txAck) % 65536 ≤ unacked site
      (crc32c (slice flit 0 252) ≠ leAt flit 252 4 →
        ((recent.countP fun x => decide (x.1 = m)) < 16 →
          exec (.flitReceive t m flit) s = .next { s with
            sites := s.sites.set t { site with crcErrs := recent ++ [(m, now)] }
            out := s.out ++ [.site t "NAK" [site.rxAck] []] }) ∧
        (16 ≤ (recent.countP fun x => decide (x.1 = m)) →
          Completes (.flitReceive t m flit) s fun u =>
            m ∈ (siteOf u t).retrain ∧ u.out = s.out ++ [.site t "NAK" [site.rxAck] []])) ∧
      (crc32c (slice flit 0 252) = leAt flit 252 4 →
        (15 < leAt flit 5 1 → Completes (.flitReceive t m flit) s fun u => siteAt u t 5 7 = true) ∧
        (site.toSend = [] → leAt flit 5 1 ≤ 15 → site.rxAck < 65536 →
          (leAt flit 4 1 = 0 → leAt flit 0 2 = (site.rxAck + 1) % 65536 → site.rxHeld = [] →
            Completes (.flitReceive t m flit) s fun u =>
              (siteOf u t).rxAck = leAt flit 0 2 ∧ (known → (siteOf u t).txAck = ack) ∧
              u.out = s.out ++ [.site t "ACK" [leAt flit 0 2] []] ∧ u = { s with sites := u.sites, out := u.out }) ∧
          (leAt flit 4 1 = 1 → leAt flit 0 2 = site.rxAck → known →
            Completes (.flitReceive t m flit) s fun u =>
              (siteOf u t).txAck = ack ∧ rd u p Reg.SITE_REPLAYS = rd s p Reg.SITE_REPLAYS +
                w64 (site.sent.countP fun f => decide ((f.1 + 65535 - ack) % 65536 < (site.txNext + 65535 - ack) % 65536)) ∧
              u = { s with sites := u.sites, free := u.free, regs := u.regs })))) ∧
    (exec (.partResetAck t k) s =
      .next { s with sites := s.sites.set t { site with resetWait := site.resetWait.filter fun j => decide (j ≠ k) } }) ∧
    (k ∈ site.resetWait →
      Completes (.partResetAckTimeout t k) s fun u => pageState u p = 5 ∧ siteSub u t = 7 ∧ rd u p Reg.SITE_LINK = 0)

/-- R307, R308, R310, R314, R315: a chiplet's request that passes the checks of the ingress is translated and run for its
partition; one of no known TYPE, or whose partition is not assigned, is denied with ACCESS_DENIED, and counted; one without a
credit breaks the protocol; what is done is answered once under its TAG.
Clauses: MEM_RD, MEM_WR, MEM_WR_MASK, CRD_S, CRD_X, C_UPG, denied, without a credit, RD_RSP, WR_RSP.

Where the rules leave a point open, the clauses rest on the choices of log entry 38. -/
def Obligations.ChipletRequestsRunAndAreAnswered : Prop :=
  ∀ (t pa : Nat) (h0 h1 : Word) (data mask : Bytes) (d : Option Bytes) (ok nc : Bool) (s s1 s2 : State), s.canonical →
    t < 4 → siteAdmitted s t = true →
    let k := hPart h0
    let a := hAddr h1
    let req := 164 + t
    let entry := fun ty dt mk => siteEntry t ty h0 h1 dt mk
    let taken := fun ty dt mk => begun (siteTaken s t ty h0 h1 dt mk)
    let pass := fun (ty : Nat) (dt mk : Bytes) => knownType (fld h0 0 8) = true ∧ noCredit s t k = false ∧
      ingressCheck (taken ty dt mk) t h0 (isCaching ty) = none ∧ shapeOk ty h0 h1 dt.length mk.length = true
    let status := fun (b : Bool) => if b then 0 else 4
    let home := fun (u : State) (ty : Nat) (r : CohReq) =>
      if nc then denyReq u (entry ty [] []) 0x0F
      else cohRequest (returnCredit { u with siteReqs := u.siteReqs.erase (entry ty [] []) } t k) k (12 + t) (pa / 128) r
        (bit (setFld h0 0 8 ty) 15) false
    (pass 1 [] [] → translate (taken 1 [] []) k req a (hLen (setFld h0 0 8 1)) false = (.ok pa nc, s1) →
      memRead s1 k req pa (hLen (setFld h0 0 8 1)) nc = (d, s2) →
      Ends (.memRd t h0 h1) s (endAccess s2 (entry 1 [] []) pa (status d.isSome) (d.getD []))) ∧
    (pass 2 data [] → translate (taken 2 data []) k req a (hLen (setFld h0 0 8 2)) true = (.ok pa nc, s1) →
      memWrite s1 k req pa (hHint (setFld h0 0 8 2)) data nc = (ok, s2) →
      Ends (.memWr t h0 h1 data) s (endAccess s2 (entry 2 data []) pa (status ok) [])) ∧
    (pass 3 data mask → translate (taken 3 data mask) k req a (hLen (setFld h0 0 8 3)) true = (.ok pa nc, s1) →
      writeMasked s1 k req pa (hHint (setFld h0 0 8 3)) (bytesNat mask) data nc = (ok, s2) →
      Ends (.memWrMask t h0 h1 mask data) s (endAccess s2 (entry 3 data mask) pa (status ok) [])) ∧
    (pass 0x10 [] [] → translate (taken 0x10 [] []) k req a 128 false = (.ok pa nc, s1) →
      Ends (.crdS t h0 h1) s (home s1 0x10 .rdS)) ∧
    (pass 0x11 [] [] → translate (taken 0x11 [] []) k req a 128 false = (.ok pa nc, s1) →
      translate s1 k req a 0 true = (.ok pa nc, s2) → Ends (.crdX t h0 h1) s (home s2 0x11 .rdX)) ∧
    (pass 0x12 [] [] → translate (taken 0x12 [] []) k req a 128 false = (.ok pa nc, s1) →
      translate s1 k req a 0 true = (.ok pa nc, s2) → Ends (.cUpg t h0 h1) s (home s2 0x12 .upg)) ∧
    (noCredit s t k = false → rb s (pgSite t) Reg.SITE_CFG 1 = false → entry 1 [] [] ∉ s.siteReqs →
      knownType (fld h0 0 8) = false ∨
        (hAgent h0 < rf s (pgSite t) Reg.SITE_ADMIT 8 4 ∧ (rf s (pgSite t) Reg.SITE_ASSIGN 0 16).testBit k = false) →
      Completes (.memRd t h0 h1) s fun u =>
        u.siteReqs = s.siteReqs ++ [{ entry 1 [] [] with ended := some 0x0F }] ∧
        rd u (pgSite t) Reg.SITE_DENIED = rd s (pgSite t) Reg.SITE_DENIED + 1 ∧
        rb u (pgSite t) Reg.EVT_STAT 5 = true ∧ SameMemory s u) ∧
    (noCredit s t k = true → Completes (.memWr t h0 h1 data) s fun u => siteAt u t 5 7 = true) ∧
    (∀ (q : SiteReq) (tag st : Nat), q.held = none → q.waiting = none → q.ended = some st → q.owed = false →
      LinkOpen s t (ceilDiv (chunksOf q.resp) 15) →
      let sent := fun msg (u : State) =>
        u.siteReqs = s.siteReqs.erase q ∧ u.out = s.out ++ [.site t msg [q.part, q.tag, st] q.resp] ∧
        rd u (pgSite t) Reg.SITE_TX_BYTES = rd s (pgSite t) Reg.SITE_TX_BYTES + w64 (16 * chunksOf q.resp) ∧ SameMemory s u
      (findReq s t tag (fun ty => isRead ty || isCaching ty || !(knownType ty)) = some q → fld q.h0 0 8 ≠ 0x20 →
        Completes (.rdRsp t tag) s (sent "RD_RSP")) ∧
      (findReq s t tag (fun ty => decide (ty = 2) || decide (ty = 3) || decide (ty = 0x20)) = some q →
        Completes (.wrRsp t tag) s (sent (if fld q.h0 0 8 = 0x20 then "RED_RSP" else "WR_RSP"))))

/-- R283, R302, R309, R315, R319: a coherence response of a chiplet is counted and reaches the home of its line as the message
it stands for; one that names an agent not assigned, or a partition outside CACHE_MASK, is denied; a submission to an armed
slot writes its records and sets their bits, and is answered.  Clauses: C_WB, C_EVICT, C_GACK, SNP_RSP, denied, RED_SUBMIT.

Where the rules leave a point open, the clauses rest on the choices of log entries 31, 36 and 38. -/
def Obligations.ChipletCoherenceAndSubmissions : Prop :=
  ∀ (t : Nat) (h0 h1 : Word) (data : Bytes) (x : Txn) (s : State), s.canonical → t < 4 → siteAdmitted s t = true →
    let k := hPart h0
    let line := fld h1 0 46 / 128
    let got := fun n => addReg s (pgSite t) Reg.SITE_RX_BYTES (16 + n)
    let caches := (rf s (pgSite t) Reg.SITE_ASSIGN 16 16).testBit k
    let agent := hAgent h0 < rf s (pgSite t) Reg.SITE_ADMIT 8 4
    let denied := fun (u : State) =>
      rd u (pgSite t) Reg.SITE_DENIED = rd s (pgSite t) Reg.SITE_DENIED + 1 ∧ rb u (pgSite t) Reg.EVT_STAT 5 = true ∧
      if rb s (pgSite t) Reg.SITE_CFG 1 then siteAt u t 3 5 = true else u.coh = s.coh ∧ SameMemory s u
    (agent → caches = true → domainLost s k = false →
      exec (.cWb t h0 h1 data) s = .next (homeNotice (got data.length) k (12 + t) line (some data)) ∧
      exec (.cEvict t h0 h1) s = .next (homeNotice (got 0) k (12 + t) line none) ∧
      (lineTxn s k line = some x → x.pos = 12 + t → cachingReq x.req = true → x.phase = 2 →
        exec (.cGack t h0 h1) s = .next (settle (closeTxn (got 0) x) k line)) ∧
      (fld h0 48 8 < 4 →
        exec (.snpRsp t h0 h1 data) s = .next (cohAnswer (got data.length) k (12 + t) line
          (match fld h0 48 8 with
           | 0 => .miss
           | 1 => .clean
           | 2 => .dirty data
           | _ => .inFlight)))) ∧
    (¬agent ∨ caches = false →
      Completes (.cWb t h0 h1 data) s denied ∧ Completes (.cEvict t h0 h1) s denied ∧
      Completes (.cGack t h0 h1) s denied ∧ Completes (.snpRsp t h0 h1 data) s denied) ∧
    (∀ (slot : RedSlot) (w : Work) (s1 : State) (st : Nat),
      let q := SiteReq.mk t (hTag h0) (setFld h0 0 8 0x20) h1 data [] k none none none [] none false
      let s0 := begun { got data.length with siteReqs := s.siteReqs ++ [q] }
      noCredit s t k = false → ingressCheck s0 t (setFld h0 0 8 0x20) false = none →
      s.slots.find? (fun r => decide (r.part = k) && decide (r.slot = fld h1 0 6)) = some slot →
      collector s0 k (fld h1 0 6) = some w → runSubmit s0 w slot q = (.ok st, s1) →
      Ends (.redSubmit t h0 h1 data) s
        (siteSend (returnCredit { s1 with siteReqs := s1.siteReqs.filter fun y => decide (y ≠ q) } t k) t "RED_RSP"
          [k, hTag h0, st] []))

/-- R328, R330, R332, R333, R334: at the boundary that ends a power period the energy buckets are refilled: under FIXED each by
its own share as long as FIXED lasts, else each by its weight's share of what the budget leaves at the thermal factor and ratio measured, and none
past its maximum; the period is counted and what was charged starts again from zero.

R333, R336, R338, R342, R343, R492: a raised clock takes effect once its voltage has settled, and a regulator that
fails puts its partition in FAULT; FIXED is set where its shares fit and cleared where nothing is sealed; a site held at
zero starts again from the floor, with its credits; a trip that is due asserts THERMTRIP# and stops every island.  Clauses:
VOLTAGE_SETTLED, REGULATOR_FAULT, PWR_CTL_FIXED, PART_ALLOC_WRITE, SITE_RELEASE, THERMAL_TRIP.

Where the rules leave a point open, the clauses rest on the choices of log entries 7, 39 and 63. -/
def Obligations.PowerIsMeteredAndLimited : Prop :=
  (∀ (k : Nat) (r : PowerReadings) (s : State), s.canonical → k < 16 → refilled s k = true →
      (rb s pgPwr Reg.PWR_CTL 0 = true →
        Completes (.powerPeriod r) s fun t =>
          let share := rf s pgPwr (Reg.PART_ALLOC k) 32 16
          (rb t pgPwr Reg.PWR_CTL 0 = true →
            rf t (pgPart k) Reg.EBUCKET 0 24 =
              min (rf s (pgPart k) Reg.EBUCKET 0 24 + share) (rf s (pgPart k) Reg.EBUCKET_MAX 0 24) ∧
            rf t (pgPart k) Reg.EREFILL_LAST 0 24 = share) ∧
          (rb t pgPwr Reg.PWR_CTL 0 = false → rb t pgPwr Reg.PWR_STAT 0 = true ∧ rb t (pgPart k) Reg.EVT_STAT 6 = true) ∧
          t.pwr.charged = 0 ∧ rd t pgPwr Reg.PWR_PERIODS = rd s pgPwr Reg.PWR_PERIODS + 1 ∧ SameMemory s t) ∧
      (rb s pgPwr Reg.PWR_CTL 0 = false →
        Completes (.powerPeriod r) s fun t =>
          let e := rf t pgPwr Reg.THERM_STAT 16 4
          let rho := rhoOf (rf s pgPwr Reg.PWR_MEAS 48 16) r.part s.pwr.charged
          let total := (5200 - r.other) * e * 256 / (8 * max rho 1)
          let sum := (((List.range 16).filter (refilled s)).map (weightOf s)).sum
          let share := total * weightOf s k / max 1 sum
          rf t (pgPart k) Reg.EBUCKET 0 24 =
            min (rf s (pgPart k) Reg.EBUCKET 0 24 + share) (rf s (pgPart k) Reg.EBUCKET_MAX 0 24) ∧
          rf t (pgPart k) Reg.EREFILL_LAST 0 24 = share % 2 ^ 24 ∧ rf t pgPwr Reg.PWR_MEAS 48 16 = rho ∧
          rf t pgPwr Reg.PWR_TOTAL 0 24 = total % 2 ^ 24 ∧ t.pwr.charged = 0 ∧
          rd t pgPwr Reg.PWR_PERIODS = rd s pgPwr Reg.PWR_PERIODS + 1 ∧ SameMemory s t)) ∧
  (∀ (fn k i m : Nat) (v : Word) (s : State), s.canonical → k < 16 → i < 4 → m < 8 →
      (k ∈ s.pwr.raising → s.board.thermtrip = false →
        Completes (.voltageSettled k) s fun t =>
          k ∉ t.pwr.raising ∧
          rf t (pgCl (8 * k + m)) Reg.ISLAND_CLK 0 12 = rf s (pgPart k) Reg.ECLOCKS 0 12 ∧
          rf t (pgSe (4 * k + i)) Reg.SE_ISLAND_CLK 0 12 = rf s (pgPart k) Reg.ECLOCKS 16 12 ∧
          SameBut (fun _ o => o = Reg.ISLAND_CLK ∨ o = Reg.SE_ISLAND_CLK) { s with pwr := t.pwr } t) ∧
      (Completes (.regulatorFault k) s fun t =>
        k ∉ t.pwr.raising ∧ rb t pgPwr Reg.EVT_STAT 62 = true ∧ (partLive s k = true → partState t k = 5) ∧ SameMemory s t) ∧
      (MayWrite s fn pgPwr Reg.PWR_CTL →
        (if bit v 0 then fixOk s = true else anySealed s = false) →
        Completes (.pwrCtlFixed fn v) s fun t =>
          rb t pgPwr Reg.PWR_CTL 0 = bit v 0 ∧
          SameBut (fun q o => (q = pgPwr ∧ o = Reg.PWR_CTL) ∨ o = Reg.ISO_STAT) s t) ∧
      (MayWrite s fn pgPwr (Reg.PART_ALLOC k) → 6 ≤ fld v 8 5 → fld v 8 5 ≤ 20 → 6 ≤ fld v 16 5 → fld v 16 5 ≤ 12 →
        ¬(rb s pgPwr Reg.PWR_CTL 0 = true ∧ sealHeld s k = true) →
        Completes (.partAllocWrite fn k v) s fun t =>
          rd t pgPwr (Reg.PART_ALLOC k) = v &&& 0x0000FFFF001F1F0F ∧ SameBut (oneReg pgPwr (Reg.PART_ALLOC k)) s t) ∧
      (MayWrite s fn pgPwr Reg.SITE_RELEASE → i ∈ s.pwr.stopped → fld v 0 4 = 1 <<< i →
        s.sites.length = 4 → (siteOf s i).toSend = [] →
        Completes (.siteRelease fn v) s fun t =>
          i ∉ t.pwr.stopped ∧ rf t pgPwr (Reg.SITE_PWR i) 16 12 = siteCapMax s i / 64 ∧
          (creditsKept t i = false → (siteOf t i).kept = List.replicate 16 0) ∧
          SameBut (oneReg pgPwr (Reg.SITE_PWR i)) { s with pwr := t.pwr, sites := t.sites } t) ∧
      (s.pwr.tripDue = true → s.board.thermtrip = false →
        Completes .thermalTrip s fun t =>
          t.board.thermtrip = true ∧ rf t (pgCl (8 * k + m)) Reg.ISLAND_CLK 0 12 = 0 ∧
          rf t (pgSe (4 * k + i)) Reg.SE_ISLAND_CLK 0 12 = 0 ∧ rd t (pgPart k) Reg.ECLOCKS = 0 ∧
          rf t pgPwr (Reg.SITE_PWR i) 16 12 = 0 ∧ t.pwr.raising = [] ∧ SameMemory s t))

/-- R344, R347, R349, R350, R351, R367, R386: a function-level reset clears the function's configuration, power state and
channels and ends with a count; a device state is entered; a link reset is a reset of every function; the link trains to
the rate and width given; an integrity failure ends its stream's security; a setting is written; the link turns off for
L2.  Clauses: FLR, FLR_DONE, POWER_STATE_CHANGE, HOST_LINK_RESET, LINK_UP, IDE_FAULT, CONFIGURATION_WRITE,
PME_TURN_OFF.

Where the rules leave a point open, the clauses rest on the choices of log entries 42, 63 and 70. -/
def Obligations.EndpointCommandsTakeEffect : Prop :=
  ∀ (fn d rate width stream c : Nat) (flit : Bool) (w : CfgWrite) (s : State), s.canonical → fn < 17 →
    s.pcie.cfg.length = 17 →
    (s.pcie.link = true → rb s pgPcie Reg.FLR_STAT fn = false →
      (Completes (.flr fn) s fun t =>
        rb t pgPcie Reg.FLR_STAT fn = true ∧ dState t fn = 0 ∧ t.pcie.cfg[fn]? = some cfgReset ∧ t.mem = s.mem ∧
        (c < 32 → chanFn s c = some fn → pageState t (pgDma c) = 0 ∧ rf t (pgDma c) Reg.PAGE_CTL 0 2 = 0)) ∧
      (d = 0 ∨ d = 1 ∨ d = 3 → dState s fn ≠ d → ¬(dState s fn = 3 ∧ d = 1) →
        Completes (.powerStateChange fn d) s fun t =>
          dState t fn = d ∧ rb t pgPcie Reg.EVT_STAT 2 = true ∧ SameBut (oneReg pgPcie Reg.DSTATE) s t) ∧
      (∀ cf, s.pcie.cfg[fn]? = some cf → s.pcie.levels = levelMask s → cfgLoaded s fn = true →
        Completes (.configurationWrite fn w) s fun t =>
          t.pcie.cfg = s.pcie.cfg.set fn (cfgSet cf w) ∧ SameBut noReg { s with pcie := t.pcie } t)) ∧
    (rb s pgPcie Reg.FLR_STAT fn = true →
      Completes (.flrDone fn) s fun t =>
        rb t pgPcie Reg.FLR_STAT fn = false ∧ rd t pgPcie Reg.FLR_COUNT = rd s pgPcie Reg.FLR_COUNT + 1 ∧
        rb t pgPcie Reg.EVT_STAT 1 = true ∧
        SameBut (fun q o => q = pgPcie ∧ (o = Reg.FLR_STAT ∨ o = Reg.FLR_COUNT)) s t) ∧
    (s.pcie.link = true →
      (Completes .hostLinkReset s fun t =>
        t.pcie.link = false ∧ rd t pgPcie Reg.LINK_STAT = 0 ∧ pageState t pgPcie = 2 ∧
        rb t pgPcie Reg.FLR_STAT fn = true ∧ t.mem = s.mem) ∧
      Completes .pmeTurnOff s fun t =>
        t.pcie.link = false ∧ t.pcie.l2 = true ∧ rd t pgPcie Reg.LINK_STAT = 0 ∧
        SameBut (oneReg pgPcie Reg.LINK_STAT) { s with pcie := t.pcie } t) ∧
    (s.pcie.link = false → s.board.perst = false → s.boot.phase ≠ .off → linkModeOk s rate width flit = true →
      Completes (.linkUp rate width flit) s fun t =>
        t.pcie.link = true ∧ rf t pgPcie Reg.LINK_STAT 0 4 = rate ∧ rf t pgPcie Reg.LINK_STAT 4 8 = width ∧
        rb t pgPcie Reg.LINK_STAT 12 = flit ∧ rb t pgPcie Reg.LINK_STAT 16 = true ∧
        (pageState s pgPcie = 2 → pageState t pgPcie = 3) ∧ SameMemory s t) ∧
    (∀ x, s.pcie.ide[stream]? = some x → x.active.isSome = true →
      Completes (.ideFault stream) s fun t =>
        t.pcie.ide[stream]? = some { x with active := none } ∧ rb t pgPcie Reg.EVT_STAT 4 = true ∧
        rd t pgPcie Reg.ERR_COUNT = rd s pgPcie Reg.ERR_COUNT + 1 ∧
        (stream = 0 → rb t pgPcie Reg.LINK_STAT 13 = false) ∧ SameMemory s t)

/-- R353, R354, R355, R356, R363: a descriptor of one burst on a channel of F0 moves its bytes from host memory to device
memory, or from device memory to host memory, or stores its word, and nothing else but its record; HEAD and DONE pass it
and the bytes are counted.  Clauses: H2D, D2H, IMM.

R118, R352, R354, R363, R365, R367: a failed read of the next descriptor, or of the data of one of a single burst,
completes it with its status and halts the channel; a malformed completion is dropped and a replay counted; a channel that is
OFF is assigned to a function and starts from its reset values; a tail that announces descriptors is taken; STRICT is set,
and cleared where nothing is sealed.
Clauses: HOST_COMPLETION by kind, CPL_TIMEOUT, DMA_ASSIGN, DMA_TAIL, DMA_CTL_STRICT.

Where the rules leave a point open, the clauses rest on the choices of log entries 40, 41 and 53. -/
def Obligations.DmaMovesBytesAndItsChannelsFail : Prop :=
  (∀ (c : Nat) (host : List (Nat × Byte)) (s : State), s.canonical → c < 32 → s.chans.length = 32 →
      let s0 := hostWrites s host
      let w := dmaFetch s0 c
      let dev := mDev w % 2 ^ 46
      let seq := dmaHead s0 c
      let cpl := (rd s (pgDma c) Reg.DMA_CPL).toNat / 64 * 64 + 64 * (seq % 2 ^ dmaLog s c)
      let record := fun n => (dmaRecord s c seq w 0 0 0 n).flatMap wordBytes
      chanFn s c = some 0 → chanOf s c = chanReset → chanGo s0 c = true → dmaCheck chanReset 0 w = 0 → mCtx w = none →
      mHash w = false → physStatus s dev (mBytes w) = 0 → cvuFor s c 0 = none → Clean s dev (mBytes w) →
      Writable s dev (mBytes w) → holdsOn s = [] → mBytes w ≤ 4096 - mDev w % 4096 →
      let done := fun (bytes n : Nat) (t : State) =>
        dmaHead t c = (seq + 1) % 2 ^ 32 ∧ dmaDone t c = (seq + 1) % 2 ^ 32 ∧ chanOf t c = chanReset ∧
        rd t (pgDma c) bytes = rd s (pgDma c) bytes + w64 n ∧ pageState t (pgDma c) = pageState s (pgDma c)
      (mOp w = 1 →
        Completes (.h2d c host) s fun t =>
          (∀ x, readMem t x = if dev ≤ x ∧ x < dev + mLen w then (readHost s0 (mHost w) (mLen w)).getD (x - dev) 0
            else readMem s x) ∧
          t.hostMem = (writeHost s0 cpl (record (mLen w))).hostMem ∧ done Reg.H2D_BYTES (mLen w) t) ∧
      (mOp w = 2 →
        Completes (.d2h c host) s fun t =>
          t.mem = s.mem ∧
          t.hostMem = (writeHost (writeHost s0 (mHost w) (readBytes s dev (mLen w))) cpl (record (mLen w))).hostMem ∧
          done Reg.D2H_BYTES (mLen w) t) ∧
      (mOp w = 3 →
        Completes (.imm c host) s fun t =>
          (∀ x, readMem t x = if dev ≤ x ∧ x < dev + 8 then (wordBytes (dw w 6)).getD (x - dev) 0 else readMem s x) ∧
          t.hostMem = (writeHost s0 cpl (record 8)).hostMem ∧ done Reg.H2D_BYTES 8 t)) ∧
  (∀ (fn c f tail : Nat) (v : Word) (s : State), s.canonical → c < 32 → s.chans.length = 32 →
      let p := pgDma c
      let w := dmaFetch s c
      let failed := fun (t : State) =>
        pageState t p = 5 ∧ dmaHead t c = (dmaHead s c + 1) % 2 ^ 32 ∧ dmaDone t c = (dmaHead s c + 1) % 2 ^ 32 ∧
        rb t p Reg.EVT_STAT 1 = true ∧ t.mem = s.mem
      let data := f = 0 ∧ burstsLeft w 0 = 1 ∧ dmaCheck chanReset 0 w = 0 ∧ mCtx w = none ∧ mHash w = false ∧
        physStatus s (mDev w % 2 ^ 46) (mLen w) = 0 ∧ cvuFor s c 0 = none
      (chanFn s c = some f → chanOf s c = chanReset → chanGo s c = true → mOp w ≠ 1 ∨ data →
        (Completes (.hostCompletion c .unsupportedRequest) s fun t =>
          failed t ∧ rd t pgPcie Reg.UR_RECEIVED = rd s pgPcie Reg.UR_RECEIVED + 1) ∧
        (Completes (.hostCompletion c .completerAbort) s fun t =>
          failed t ∧ rd t pgPcie Reg.UR_RECEIVED = rd s pgPcie Reg.UR_RECEIVED + 1) ∧
        (Completes (.hostCompletion c .poisoned) s fun t =>
          failed t ∧ rd t pgPcie Reg.POISON_RECEIVED = rd s pgPcie Reg.POISON_RECEIVED + 1) ∧
        Completes (.cplTimeout c) s fun t =>
          failed t ∧ rd t pgPcie Reg.CPL_TIMEOUTS = rd s pgPcie Reg.CPL_TIMEOUTS + 1 ∧ rb t pgPcie Reg.EVT_STAT 3 = true) ∧
      (Completes (.hostCompletion c .malformed) s fun t =>
        rd t pgPcie Reg.ERR_COUNT = rd s pgPcie Reg.ERR_COUNT + 1 ∧
        SameBut (fun q o => q = pgPcie ∧ (o = Reg.ERR_COUNT ∨ o = Reg.ERR_FIRST)) s t) ∧
      exec (.hostCompletion c .replayed) s = .next (addReg s pgPcie Reg.REPLAYS 1) ∧
      (MayWrite s fn pgPcie (Reg.DMA_ASSIGN c) → actsOn s fn pgPcie true = true → pageState s p = 0 → chanFn s c = none →
        bit v 7 = true → fld v 0 5 = f → f ≤ 16 → (f = 0 ∨ sealedNow s (f - 1) = false ∧ partState s (f - 1) ≠ 1) →
        Completes (.dmaAssign fn c v) s fun t =>
          chanFn t c = some f ∧ chanOf t c = chanReset ∧ rf t p Reg.OWNER 0 8 = (if f = 0 then 0xFF else f - 1) ∧
          (∀ off, off % 8 = 0 → 0x100 ≤ off → off < 0x10000 → off ≠ Reg.DMA_INFO → rd t p off = regReset (regAddr p off)) ∧
          SameMemory s t) ∧
      (MayWrite s fn p Reg.DMA_TAIL → pageState s p = 3 ∨ pageState s p = 4 →
        (tail % 2 ^ 32 + 2 ^ 32 - dmaHead s c) % 2 ^ 32 < 2 ^ 31 →
        (tail % 2 ^ 32 + 2 ^ 32 - dmaDone s c) % 2 ^ 32 ≤ 2 ^ dmaLog s c →
        Completes (.dmaTail fn c tail) s fun t =>
          rf t p Reg.DMA_TAIL 0 32 = tail % 2 ^ 32 ∧ SameBut (oneReg p Reg.DMA_TAIL) s t) ∧
      (MayWrite s fn pgPcie Reg.DMA_CTL → actsOn s fn pgPcie true = true → bit v 0 = true ∨ (∀ k, k < 16 → partState s k ≠ 4) →
        Completes (.dmaCtlStrict fn v) s fun t =>
          rb t pgPcie Reg.DMA_CTL 0 = bit v 0 ∧
          SameBut (fun q o => (q = pgPcie ∧ o = Reg.DMA_CTL) ∨ o = Reg.ISO_STAT) s t))

/-- R372, R389, R391, R392, R427: ENABLE, DISABLE, ASSIGN, RESET and RELEASE move a partition as the table of R372 says; a
reset leaves no context alive and ends with the state it had, every context FREE; a scrub zeroes the partition's memory,
keys and contexts and ends UNASSIGNED.  Clauses: PART_CMD_ENABLE, PART_CMD_DISABLE, PART_CMD_ASSIGN, PART_CMD_RESET,
PART_CMD_RELEASE, PARTITION_RESET_DRAINED, PARTITION_RESET_COMPLETE, SCRUB_DRAIN_END, SCRUB_DONE.

Where the rules leave a point open, the clauses rest on the choices of log entry 43. -/
def Obligations.PartitionsAreEnabledResetAndScrubbed : Prop :=
  ∀ (fn k x : Nat) (s : State), s.canonical → k < 16 → x < 256 →
    let p := pgPart k
    let state := oneReg p Reg.PART_STATE
    let dead := fun (t : State) => ctxState t k x = 0 ∨ ctxState t k x = 4 ∨ ctxState t k x = 5
    let scrub := fun (t : State) => partState t k = 1 ∧ rf t p Reg.SCRUB_STAT 0 2 = 1 ∧ dead t ∧
      (∀ e ∈ t.sec.sessions, e.fn ≠ k + 1) ∧ (∀ e ∈ t.ten.sealing, e.1 ≠ k)
    (MayWrite s fn p Reg.PART_CMD → actsOn s fn p true = true →
      (partState s k = 0 → available s k = true → Completes (.partCmdEnable fn k) s scrub) ∧
      (partState s k = 2 →
        (Completes (.partCmdDisable fn k) s fun t => partState t k = 0 ∧ SameBut state s t) ∧
        Completes (.partCmdAssign fn k) s fun t => partState t k = 3 ∧ SameBut state s t) ∧
      (partState s k = 3 ∨ partState s k = 4 ∨ partState s k = 5 →
        (Completes (.partCmdReset fn k) s fun t =>
          partState t k = 6 ∧ sealHeld t k = sealHeld s k ∧ dead t ∧ (∀ e ∈ t.xlat.slice, e.part ≠ k) ∧
          ∀ e ∈ t.ten.sealing, e.1 ≠ k) ∧
        Completes (.partCmdRelease fn k) s scrub)) ∧
    (partState s k = 6 → partQuiet s k = true →
      (Completes (.partitionResetDrained k) s fun t =>
        rd t p (Reg.CTX_OUT x) = regReset (regAddr p (Reg.CTX_OUT x)) ∧ partState t k = 6 ∧ SameMemory s t) ∧
      Completes (.partitionResetComplete k) s fun t =>
        partState t k = (if clusterFenced s k then 5 else if sealHeld s k then 4 else 3) ∧ ctxState t k x = 0 ∧
        domainLost t k = (domainLost s k && clusterFenced s k) ∧ (∀ l ∈ t.coh.lines, l.part ≠ k) ∧ (∀ d ∈ t.coh.dir, d.part ≠ k)) ∧
    (partState s k = 1 → rb s p Reg.SCRUB_STAT 0 = true → partQuiet s k = true →
      Completes (.scrubDrainEnd k) s fun t =>
        rf t p Reg.SCRUB_STAT 0 2 = 2 ∧ (∀ a, inPartition k a = true → readMem t a = 0) ∧ t.hostMem = s.hostMem ∧
        ctxState t k x = 0 ∧ sealHeld t k = false ∧ (∀ e ∈ t.ten.keys, e.part ≠ k ∨ 8 ≤ e.slot) ∧
        (∀ j, j < 4 → rd t p (Reg.TENANT_KEY j) = 0)) ∧
    (∀ ok, partState s k = 1 → rb s p Reg.SCRUB_STAT 1 = true →
      Completes (.scrubDone k ok) s fun t =>
        let good := ok && !(s.ten.scrubFail.contains k)
        partState t k = (if good = true ∧ clusterFenced s k = false then 2 else 5) ∧ rf t p Reg.SCRUB_STAT 0 2 = 0 ∧
        rf t p Reg.SCRUB_STAT 32 32 = (rf s p Reg.SCRUB_STAT 32 32 + good.toNat) % 2 ^ 32 ∧
        (good = true → rb t p Reg.EVT_STAT 10 = true) ∧ (good = false → sealHeld t k = false) ∧
        SameMemory s t)

/-- R361, R362, R375, R376, R381, R382: a taken request of a partition's secure mailbox seals it under the tenant's key,
unseals it in a mutually authenticated session, extends a measurement register, loads a key into the first FREE slot under
the next GEN or retires one; a retired slot with nothing outstanding is zeroised.  Clauses: SEAL, SEAL_COMPLETE, UNSEAL,
EXTEND, LOAD_KEY, RETIRE_KEY, KEY_SLOT_FREED.

Where the rules leave a point open, the clauses rest on the choices of log entries 43 and 63. -/
def Obligations.TenantsSealMeasureAndHoldKeys : Prop :=
  ∀ (k i : Nat) (b : Bytes) (s : State), s.canonical → k < 16 → i < 8 →
    let fn := k + 1
    let p := pgPart k
    (takenReq s true fn 0x0101 = some b → partState s k = 3 → auditRoom s = true →
      ((leAt b 2 1).testBit 0 = true → rb s p Reg.ISO_STAT 15 = true) →
      Completes (.sealCmd fn) s fun t =>
        t.ten.sealing = s.ten.sealing ++ [(k, slice b 8 32)] ∧
        (∀ e ∈ t.xlat.slice, e.part ≠ k → inPartition k (leafPa e.leaf) = false) ∧
        (∀ e ∈ t.xlat.micro, e.part ≠ k → inPartition k (leafPa e.leaf) = false) ∧
        ((∀ e ∈ s.xlat.micro, e.part ≠ k → inPartition k (leafPa e.leaf) = false) → t.regs = s.regs ∧ SameMemory s t)) ∧
    (s.ten.sealing.find? (fun e => decide (e.1 = k)) = some (k, b) → partState s k = 3 →
      accessInto s k (groupBase k) groupSize = false → accessInto s k (quayBase k) quaySize = false →
      Completes (.sealComplete k) s fun t =>
        partState t k = 4 ∧ sealHeld t k = true ∧ (∀ j, j < 4 → rd t p (Reg.TENANT_KEY j) = (bytesWords b 4).getD j 0) ∧
        (∀ e ∈ t.sec.sessions, e.fn ≠ fn) ∧
        (∀ e ∈ t.ten.sealing, e.1 ≠ k) ∧ SameMemory s t) ∧
    (takenReq s true fn 0x0102 = some b → partState s k = 4 → auditRoom s = true →
      (∃ e, sessionOf s fn = some e ∧ e.mutualAuth = true) →
      Completes (.unsealCmd fn) s fun t =>
        partState t k = 3 ∧ sealHeld t k = false ∧ t.mbx = s.mbx ++ [mbxAnswer true fn 0x0102 0 []] ∧ SameMemory s t) ∧
    (takenReq s true fn 0x0103 = some b → partLive s k = true → leAt b 2 1 < 32 →
      Completes (.extend fn) s fun t =>
        (∀ j, j < 8 → rd t p (Reg.MR (leAt b 2 1) j) =
          (bytesWords (sha512 (mrBytes s k (leAt b 2 1) ++ slice b 8 64)) 8).getD j 0) ∧
        (∀ m, m < 32 → m ≠ leAt b 2 1 → mrBytes t k m = mrBytes s k m) ∧ SameMemory s t) ∧
    (takenReq s true fn 0x0201 = some b → partLive s k = true → leAt b 2 1 < 16 →
      (List.range 8).find? (fun j => decide (keyState s k j = 0)) = some i →
      let gen := (lastGen s k (leAt b 2 1) + 1) % 2 ^ 16
      Completes (.loadKey fn) s fun t =>
        keyState t k i = 1 ∧ rf t p (Reg.KEY_SLOT i) 4 4 = leAt b 2 1 ∧ rf t p (Reg.KEY_SLOT i) 16 16 = gen ∧
        lastGen t k (leAt b 2 1) = gen ∧ keyOf t k i = slice b 8 32 ∧ rb t p Reg.EVT_STAT 7 = true ∧
        t.mbx = s.mbx ++ [mbxAnswer true fn 0x0201 0 (natBytes gen 2 ++ natBytes i 1)] ∧ SameMemory s t) ∧
    (takenReq s true fn 0x0202 = some b → partLive s k = true → liveSlot s k (leAt b 2 1) (leAt b 4 2) = some i →
      Completes (.retireKey fn) s fun t =>
        keyState t k i = 2 ∧ (k, i) ∈ t.ten.retireWaits ∧ t.mbx = s.mbx ∧ SameMemory s t) ∧
    (keyState s k i = 2 → rf s p (Reg.KEY_SLOT i) 32 16 = 0 →
      Completes (.keySlotFreed k i) s fun t =>
        keyState t k i = 0 ∧ (∀ e ∈ t.ten.keys, ¬(e.part = k ∧ e.slot = i)) ∧ rb t p Reg.EVT_STAT 7 = true ∧ SameMemory s t)

/-- R48, R49, R303, R397, R398, R399, R400, R407, R410, R455: a signed command that passes every check burns one count and
then takes effect, in the fuses alone but for the admission list, its digest fused and itself in flash, the certificates
below a raised epoch, dropped, and the audit entries cleared; the nonce is spent.  A value that the setting already holds uses
no count; where the value's fuse write fails the count is spent, the old value stands and the answer is UNCORRECTABLE, as it
is where the flash write of the list fails.  (That a failing fuse write is the value's is the model's choice, log entry 63.)
Clauses: INSTALL_OWNER_KEY, RAISE_SEC_VERSION, SET_ADMISSION_LIST, SET_GEOMETRY, RAISE_DEBUG_EPOCH, CLEAR_AUDIT.

Where the rules leave a point open, the clauses rest on the choices of log entries 10, 45, 46 and 63. -/
def Obligations.SignedCommandsBurnTheirSetting : Prop :=
  ∀ (b : Bytes) (ok flashOk : Bool) (s : State), s.canonical →
    let done := fun (code : Nat) (good : Bool) (t : State) =>
      let status := if good then 0 else 4
      t.sec.nonce = none ∧ t.mbx = s.mbx ++ [mbxAnswer true 0 code status []] ∧ rf t pgSec Reg.SEC_LAST 0 16 = code ∧
      rf t pgSec Reg.SEC_LAST 16 8 = status ∧ rb t pgSec Reg.EVT_STAT 0 = true ∧ SameMemory s t
    (SignedOk s 0x0303 b [(56, 32)] (signerIn s (fun st => decide (st = 0x30)) fun st => decide (st = 0x20) || decide (st = 0x50))
        s.fuse.ownerKeyUsed → s.fuse.ownerKeyUsed < 4 →
      let key := slice b 56 32
      let keys := s.fuse.ownerKeys
      (keys.getLast? = some key → Completes (.installOwnerKey ok) s fun t =>
        t.fuse = s.fuse ∧ t.flash = s.flash ∧ done 0x0303 true t) ∧
      (keys.getLast? ≠ some key → Completes (.installOwnerKey ok) s fun t =>
        t.fuse = { s.fuse with
          ownerKeyUsed := s.fuse.ownerKeyUsed + 1
          ownerKeys := if ok then keys ++ List.replicate (s.fuse.ownerKeyUsed - keys.length) [] ++ [key] else keys } ∧
        t.flash = s.flash ∧ done 0x0303 ok t)) ∧
    (SignedOk s 0x0304 b [(56, 2)] (signerIn s (fun st => decide (st = 0x30) || decide (st = 0x40))
          fun st => decide (st = 1) || isUnlocked st || decide (st = 0x20) || decide (st = 0x50)) s.fuse.secVersionUsed →
      leAt b 56 2 = s.fuse.secVersion + 1 → leAt b 56 2 ≤ s.boot.imageVersion → s.fuse.secVersionUsed < 256 →
      Completes (.raiseSecVersion ok) s fun t =>
        t.fuse = { s.fuse with
          secVersionUsed := s.fuse.secVersionUsed + 1, secVersion := s.fuse.secVersion + ok.toNat } ∧
        t.flash = s.flash ∧ done 0x0304 ok t) ∧
    (SignedOk s 0x0305 b [(56, 1), (64, 64)] (ownerOrRma s) s.fuse.admitUsed → leAt b 56 1 ≤ 16 →
      s.sec.stage.length = 128 * leAt b 56 1 → slice b 64 64 = fitBytes (sha512 s.sec.stage) 64 → s.fuse.admitUsed < 32 →
      let dig := sha512 s.sec.stage
      (s.fuse.admitDigests.getLast? = some dig → Completes (.setAdmissionList ok flashOk) s fun t =>
        t.fuse = s.fuse ∧ t.flash = s.flash ∧ t.sec.stage = [] ∧ done 0x0305 true t) ∧
      (s.fuse.admitDigests.getLast? ≠ some dig → Completes (.setAdmissionList ok flashOk) s fun t =>
        t.fuse = { s.fuse with
          admitUsed := s.fuse.admitUsed + 1
          admitDigests := if ok then s.fuse.admitDigests ++ [dig] else s.fuse.admitDigests } ∧
        t.flash = { s.flash with admission := if ok && flashOk then s.sec.stage else s.flash.admission } ∧
        t.sec.stage = [] ∧ done 0x0305 (ok && flashOk) t)) ∧
    (SignedOk s 0x0306 b [(56, 2)] (signerIn s (fun st => decide (st = 0x30)) fun st => decide (st = 0x20)) s.fuse.geometryUsed →
      leAt b 56 2 ≠ 0 → s.fuse.geometryUsed < 64 →
      (s.fuse.geometry = leAt b 56 2 → Completes (.setGeometry ok) s fun t =>
        t.fuse = s.fuse ∧ t.flash = s.flash ∧ done 0x0306 true t) ∧
      (s.fuse.geometry ≠ leAt b 56 2 → Completes (.setGeometry ok) s fun t =>
        t.fuse = { s.fuse with
          geometryUsed := s.fuse.geometryUsed + 1, geometry := if ok then leAt b 56 2 else s.fuse.geometry } ∧
        t.flash = s.flash ∧ rd t pgSec Reg.GEOMETRY = rd s pgSec Reg.GEOMETRY ∧ done 0x0306 ok t)) ∧
    (SignedOk s 0x0307 b [(56, 4)] (ownerOrRma s) s.fuse.debugEpochUsed → leAt b 56 4 = s.fuse.debugEpoch + 1 →
      s.fuse.debugEpochUsed < 64 → s.sec.certs.length = 4 →
      Completes (.raiseDebugEpoch ok) s fun t =>
        t.fuse = { s.fuse with
          debugEpochUsed := s.fuse.debugEpochUsed + 1, debugEpoch := s.fuse.debugEpoch + ok.toNat } ∧
        (∀ i c, i < 4 → t.sec.certs.getD i none = some c →
          s.sec.certs.getD i none = some c ∧ (ok = true → s.fuse.debugEpoch + 1 ≤ leAt c 4 4)) ∧
        (ok = false → t.sec.certs = s.sec.certs) ∧ done 0x0307 ok t) ∧
    (SignedOk s 0x030A b [(56, 8)] (ownerOrRma s) 0 → leAt b 60 4 = (rd s pgEvr Reg.AUDIT_BASE).toNat →
      (rd s pgEvr Reg.AUDIT_BASE).toNat < leAt b 56 4 → leAt b 56 4 ≤ (rd s pgEvr Reg.AUDIT_MIRRORED).toNat →
      Completes .clearAudit s fun t =>
        rd t pgEvr Reg.AUDIT_BASE = w64 (leAt b 56 4) ∧ (∀ e ∈ t.evr.mirror, leAt b 56 4 ≤ e.1) ∧
        t.evr.mirrorBase = leAt b 56 4 ∧ t.fuse = s.fuse ∧ t.flash = s.flash ∧ done 0x030A true t)

/-- R395, R397, R398, R399, R401, R404, R405, R406, R410: GET_NONCE gives out a nonce and STAGE_DATA fills the staging buffer;
a debug certificate that is laid out, issued, signed and current is installed in a free slot and removed; a legal transition
waits as an intent, and one whose row is not whole is answered UNCORRECTABLE; and a signed command under another nonce
changes no fuse and is answered STATE_REJECT.  (What a failing flash write of a certificate leaves is the model's choice, log
entry 63.)  Clauses: GET_NONCE, STAGE_DATA, INSTALL_DEBUG_CERT, REMOVE_DEBUG_CERT, LC_TRANSITION, another nonce.

Where the rules leave a point open, the clauses rest on the choices of log entries 7, 10, 45 and 63. -/
def Obligations.NoncesCertificatesAndIntentsAreKept : Prop :=
  ∀ (b c : Bytes) (ok : Bool) (s : State), s.canonical →
    let slot := leAt b 56 1
    let target := leAt b 53 1
    let status := if ok then 0 else 4
    (takenReq s true 0 0x0301 = some b →
      Completes .getNonce s fun t =>
        ∃ n, n.length = 32 ∧ t.sec.nonce = some n ∧ t.mbx = s.mbx ++ [mbxAnswer true 0 0x0301 0 (zeroBytes 12 ++ n)] ∧
          t.fuse = s.fuse ∧ t.flash = s.flash ∧ SameMemory s t) ∧
    (takenReq s true 0 0x030B = some b → leAt b 4 2 % 8 = 0 → leAt b 4 2 < 2048 → 1 ≤ leAt b 6 2 → leAt b 6 2 ≤ 192 →
      leAt b 4 2 + leAt b 6 2 ≤ 2048 →
      Completes .stageData s fun t =>
        t.sec = { s.sec with stage := putBytes s.sec.stage (leAt b 4 2) (slice b 8 (leAt b 6 2)) } ∧
        t.mbx = s.mbx ++ [mbxAnswer true 0 0x030B 0 []] ∧ SameMemory s t) ∧
    (takenReq s true 0 0x0308 = some b → s.boot.phase ≠ .recovery → auditRoom s = true → slot < 4 → s.sec.stage = c →
      certLaid c = true → certMine s c = true → certSigned s c = true → certCurrent s c = true →
      s.sec.certs.length = 4 → s.flash.certs.length = 4 → s.sec.certs.getD slot none = none →
      Completes (.installDebugCert ok) s fun t =>
        t.sec.certs.getD slot none = (if ok then some c else none) ∧
        t.flash.certs.getD slot none = (if ok then some c else s.flash.certs.getD slot none) ∧ t.sec.stage = [] ∧
        t.mbx = s.mbx ++ [mbxAnswer true 0 0x0308 status []] ∧ t.fuse = s.fuse ∧ SameMemory s t) ∧
    (takenReq s true 0 0x0309 = some b → s.boot.phase ≠ .recovery → auditRoom s = true → slot < 4 →
      s.sec.certs.length = 4 → s.flash.certs.length = 4 →
      Completes (.removeDebugCert ok) s fun t =>
        t.sec.certs.getD slot none = none ∧
        t.flash.certs.getD slot none = (if ok then none else s.flash.certs.getD slot none) ∧
        t.mbx = s.mbx ++ [mbxAnswer true 0 0x0309 status []] ∧ t.fuse = s.fuse ∧ SameMemory s t) ∧
    (SignedOk s 0x0302 b [(53, 1)] (fun g => mayTransit (lcState s) g target) (lcNext s) →
      legalTransit s (lcState s) target = true → rb s pgLc Reg.LC_STATE 8 = false → lcNext s < 48 →
      target = 0x60 ∨ lcNext s ≠ 47 → s.flash.intents.length = 8 →
      Completes (.lcTransition ok) s fun t =>
        (∃ r, t.flash.intents[nextIntent s]? = some (some r) ∧ intentWhole r = ok ∧ r.request = b) ∧
        rb t pgLc Reg.LC_STATE 8 = ok ∧ (ok = true → rf t pgLc Reg.LC_STATE 16 8 = target) ∧ t.fuse = s.fuse ∧
        lcState t = lcState s ∧ t.mbx = s.mbx ++ [mbxAnswer true 0 0x0302 status []] ∧ SameMemory s t) ∧
    (SignedOk (withNonce s (slice b 16 32)) 0x0306 b [(56, 2)]
        (signerIn s (fun st => decide (st = 0x30)) fun st => decide (st = 0x20)) s.fuse.geometryUsed →
      leAt b 56 2 ≠ 0 → s.sec.nonce ≠ some (slice b 16 32) →
      Completes (.setGeometry ok) s fun t =>
        t.fuse = s.fuse ∧ t.flash = s.flash ∧ t.sec.nonce = none ∧ t.mbx = s.mbx ++ [mbxAnswer true 0 0x0306 0x0B []] ∧
        rd t pgSec Reg.REJECT_COUNT = rd s pgSec Reg.REJECT_COUNT + 1)

/-- R383, R384, R385, R387: a DOE instance that answers negotiates version, capabilities and algorithms in order, and then
gives digests, certificates, challenges and the report; a key exchange replaces the function's session, which FINISH
establishes or ends; an established session updates, beats and ends.  Clauses: GET_VERSION, GET_CAPABILITIES,
NEGOTIATE_ALGORITHMS, GET_DIGESTS, GET_CERTIFICATE, CHALLENGE, GET_MEASUREMENTS, KEY_EXCHANGE, FINISH, KEY_UPDATE,
HEARTBEAT, END_SESSION.

Where the rules leave a point open, the clauses rest on the choices of log entries 9 and 44. -/
def Obligations.SpdmNegotiatesReportsAndHoldsSessions : Prop :=
  ∀ (fn off len op asym hash dhe aead : Nat) (x y : Bytes) (s : State), s.canonical → doeOpen s fn = true → s.sec.spdm.length = 17 →
    let sent := fun (p : Bytes) (t : State) => t.out = s.out ++ [.spdm fn p] ∧ SameMemory s t ∧ t.regs = s.regs
    let only := fun (t : State) => t = { s with sec := t.sec, out := t.out, free := t.free }
    (Completes (.getVersion fn) s fun t => spdmOf t fn = ⟨true, false, false⟩ ∧ sent (Config.spdmBytes 0x84 fn []) t ∧ only t) ∧
    ((spdmOf s fn).version = true →
      Completes (.getCapabilities fn) s fun t =>
        spdmOf t fn = ⟨true, true, false⟩ ∧ sent (Config.spdmBytes 0xE1 fn []) t ∧ only t) ∧
    ((spdmOf s fn).caps = true → asym.testBit 9 = true → hash.testBit 2 = true → dhe.testBit 4 = true → aead.testBit 1 = true →
      Completes (.negotiateAlgorithms fn asym hash dhe aead) s fun t =>
        spdmOf t fn = ⟨true, true, true⟩ ∧ sent (Config.spdmBytes 0x63 fn []) t ∧ only t) ∧
    ((spdmOf s fn).algs = true →
      (exec (.getDigests fn) s = .next (emit s (.spdm fn (Config.spdmBytes 0x01 fn [])))) ∧
      (exec (.getCertificate fn 0 off len) s =
        .next (emit s (.spdm fn (Config.spdmBytes 0x02 fn (natBytes off 4 ++ natBytes len 4))))) ∧
      (exec (.challenge fn 0 x) s =
        .next (emit s (.spdm fn (Config.spdmBytes 0x03 fn (x ++ edSign (akKey s) x))))) ∧
      exec (.getMeasurements fn 0 x) s = .next (emit s (.spdm fn (Config.spdmBytes 0x60 fn [1]))) ∧
      exec (.getMeasurements fn 0xF0 x) s = .next (emit s (.spdm fn (report s fn x))) ∧
      exec (.getMeasurements fn 0xFF x) s = .next (emit s (.spdm fn (report s fn x))) ∧
      (Completes (.keyExchange fn x) s fun t =>
        (∃ e, t.sec.sessions = (s.sec.sessions.filter fun e => decide (e.fn ≠ fn)) ++ [e] ∧ e.fn = fn ∧
          e.established = false ∧ e.mutualAuth = (decide (fn ≠ 0) && decide (partState s (fn - 1) = 4))) ∧
        sent (Config.spdmBytes 0x64 fn x) t ∧ only t)) ∧
    (∀ z, sessionOf s fn = some z → z.established = false →
      Completes (.finish fn x y) s fun t =>
        (if Config.finishVerify z.secret x = true ∧
            (z.mutualAuth = true → edVerify (tenantKey s (fn - 1)) (z.secret ++ x) y = true) then
          inSession t fn = true ∧ sent (Config.spdmBytes 0x65 fn []) t
        else sessionOf t fn = none ∧ t.out = s.out ++ [.spdmError fn]) ∧ only t) ∧
    (inSession s fn = true →
      (1 ≤ op ∧ op ≤ 3 →
        Completes (.keyUpdate fn op) s fun t =>
          inSession t fn = true ∧ sent (Config.spdmBytes 0x69 fn [BitVec.ofNat 8 op]) t ∧ only t) ∧
      exec (.heartbeat fn) s = .next (emit s (.spdm fn (Config.spdmBytes 0x68 fn []))) ∧
      Completes (.endSession fn) s fun t =>
        sessionOf t fn = none ∧ sent (Config.spdmBytes 0x6C fn []) t ∧ only t)

/-- R383, R386, R442, R443: in a session a vendor-defined request becomes the request of the function's secure mailbox; on
F0 an IDE stream takes the key of a set, the set comes into force and goes out of it.  Clauses:
VENDOR_DEFINED_REQUEST, QUERY, KEY_PROG, K_SET_GO, K_SET_STOP.

R458, R459, R461, R462: a block begins at Init, with the alive counter fed first where ALIVE_EN is set; fed bytes
advance the running value; closed, its finished value stands in CVU_RUN and is compared: a match advances the alive
counter, a mismatch is counted and does not; a unit is assigned, and its values written, while no block is open.
Clauses: CVU_OPEN, CVU_CLOSE, CVU_FEED, CVU_ASSIGN, CVU_RUN_WRITE.

Where the rules leave a point open, the clauses rest on the choices of log entries 9, 44 and 52. -/
def Obligations.SessionsStreamKeysAndCheckValues : Prop :=
  (∀ (fn stream set : Nat) (x : Bytes) (v : IdeStream) (s : State), s.canonical → fn < 17 → doeOpen s fn = true →
      inSession s fn = true →
      (fn ≠ 0 → mbxState s true fn = 0 →
        Completes (.vendorDefinedRequest fn 0xB4A7 x) s fun t =>
          mbxState t true fn = 1 ∧ rb t (pgMbx true) (Reg.MBX_STAT fn) 4 = false ∧
          (∀ i, i < 32 → rd t (pgMbx true) (Reg.REQ fn i) = (bytesWords (fitBytes x 256) 32).getD i 0) ∧
          SameBut (fun q o => q = pgMbx true ∧ (o = Reg.MBX_STAT fn ∨ ∃ i, i < 32 ∧ o = Reg.REQ fn i)) s t) ∧
      (fn = 0 → s.pcie.ide[stream]? = some v → set < 2 → v.keys.length = 2 →
        (exec (.query fn) s = .next (emit s (.spdm fn (Config.spdmBytes 0x7E fn [1])))) ∧
        (Completes (.keyProg fn stream set x) s fun t =>
          t.pcie.ide[stream]? = some { v with keys := v.keys.set set (fitBytes x 32) } ∧
          t = { s with pcie := t.pcie, out := s.out ++ [.spdm fn (Config.spdmBytes 0x7E fn [3])] }) ∧
        (v.keys.getD set [] ≠ [] →
          Completes (.kSetGo fn stream set) s fun t =>
            t.pcie.ide[stream]? = some { v with active := some set } ∧
            (stream = 0 → rb t pgPcie Reg.LINK_STAT 13 = true) ∧
            SameBut (oneReg pgPcie Reg.LINK_STAT) { s with pcie := t.pcie } t) ∧
        (v.active = some set →
          Completes (.kSetStop fn stream set) s fun t =>
            t.pcie.ide[stream]? = some { v with active := none } ∧
            (stream = 0 → rb t pgPcie Reg.LINK_STAT 13 = false) ∧
            SameBut (oneReg pgPcie Reg.LINK_STAT) { s with pcie := t.pcie } t))) ∧
  (∀ (fn u : Nat) (v : Word) (s : State), s.canonical → u < 8 →
      let p := pgCvu u
      let run := (rd s p Reg.CVU_RUN).toNat
      let block := fun q o => q = p ∧ (o = Reg.CVU_RUN ∨ o = Reg.CVU_STAT ∨ o = Reg.CVU_BLOCKS ∨ o = Reg.CVU_MISMATCHES ∨
        o = Reg.CVU_ALIVE)
      (MayWrite s fn p Reg.CVU_CMD → rb s p Reg.CVU_CFG 4 = false →
        (Completes (.cvuOpen fn u) s fun t =>
          cvuIsOpen t u = true ∧
          rd t p Reg.CVU_RUN = (if rb s p Reg.CVU_CFG 5 then
              w64 (crcFeed (cvuAlg s u) (w64 (crcParams (cvuAlg s u)).2.2.1).toNat [BitVec.ofNat 8 (rf s p Reg.CVU_ALIVE 0 8)])
            else w64 (crcParams (cvuAlg s u)).2.2.1) ∧ SameBut block s t) ∧
        (cvuIsOpen s u = true →
          Completes (.cvuClose fn u) s fun t =>
            let ok := decide (w64 (crcFinish (cvuAlg s u) run) = rd s p Reg.CVU_EXPECT)
            cvuIsOpen t u = false ∧ rd t p Reg.CVU_RUN = w64 (crcFinish (cvuAlg s u) run) ∧
            rf t p Reg.CVU_STAT 0 2 = (if ok then 1 else 2) ∧ rd t p Reg.CVU_BLOCKS = rd s p Reg.CVU_BLOCKS + 1 ∧
            rd t p Reg.CVU_MISMATCHES = rd s p Reg.CVU_MISMATCHES + (if ok then 0 else 1) ∧
            rf t p Reg.CVU_ALIVE 0 8 = (rf s p Reg.CVU_ALIVE 0 8 + (if ok then 1 else 0)) % 256 ∧ SameBut block s t)) ∧
      (MayWrite s fn p Reg.CVU_FEED → rb s p Reg.CVU_CFG 4 = false → cvuIsOpen s u = true → bit v 63 = true →
        1 ≤ fld v 0 4 → fld v 0 4 ≤ 8 →
        Completes (.cvuFeed fn u v) s fun t =>
          rd t p Reg.CVU_RUN = w64 (crcFeed (cvuAlg s u) run ((wordBytes (rd s p Reg.CVU_DATA)).take (fld v 0 4))) ∧
          SameBut (oneReg p Reg.CVU_RUN) s t) ∧
      (cvuIsOpen s u = false →
        (MayWrite s fn p Reg.CVU_ASSIGN → actsOn s fn p true = true → bit v 7 = true → fld v 0 5 ≤ 16 →
          Completes (.cvuAssign fn u v) s fun t =>
            rf t p Reg.CVU_ASSIGN 0 5 = fld v 0 5 ∧ rb t p Reg.CVU_ASSIGN 7 = true ∧
            rf t p Reg.OWNER 0 8 = (if fld v 0 5 = 0 then 0xFF else fld v 0 5 - 1) ∧
            SameBut (fun q o => q = p ∧ (o = Reg.CVU_ASSIGN ∨ o = Reg.OWNER)) s t) ∧
        (MayWrite s fn p Reg.CVU_RUN →
          Completes (.cvuRunWrite fn u false v) s fun t => rd t p Reg.CVU_RUN = v ∧ SameBut (oneReg p Reg.CVU_RUN) s t) ∧
        (MayWrite s fn p Reg.CVU_ALIVE →
          Completes (.cvuRunWrite fn u true v) s fun t =>
            rf t p Reg.CVU_ALIVE 0 8 = fld v 0 8 ∧ SameBut (oneReg p Reg.CVU_ALIVE) s t)))

/-- R412, R413, R415, R416, R418, R421, R423, R424, R432: an error report takes the lowest free entry of the collector, or
adds to the entry of its key, or is lost where none is free; a DEVICE report has a dump written; one of bad parity waits (the
model's choice, log entry 63); entries and dumps are freed; a hang and a stuck teardown are recorded; a job's triggers abort
its members and are counted.  Clauses: ERROR_REPORT, COLL_CLEAR, DUMP_ACK, HANG, TEARDOWN_STUCK, JOB_ABORT_CMD, JOB_ABORT.

Where the rules leave a point open, the clauses rest on the choices of log entries 50 and 63. -/
def Obligations.ErrorsAreCollectedAndJobsAborted : Prop :=
  ∀ (fn i j k x q page : Nat) (v : Word) (r : Report) (rest : List Report) (w : Work) (s : State), s.canonical →
    k < 16 → x < 256 →
    (s.err.reports = r :: rest → i < 256 →
      ((List.range 256).find? (holdsKey s r) = none → entryFor s r = some i → r.cls < 3 →
        Completes (.errorReport false) s fun t =>
          (rb s pgErr Reg.EVT_STAT 0 = true → t.err.reports = rest) ∧ (∀ n, n < 4 → rd t pgErr (Reg.COLL i n) = (entryWords s r).getD n 0) ∧
          rd t pgErr Reg.COLL_REPORTS = rd s pgErr Reg.COLL_REPORTS + 1 ∧ rb t pgErr Reg.EVT_STAT 0 = true ∧
          SameBut (fun p o => p = pgErr ∧ (o = Reg.COLL_REPORTS ∨ ∃ n, n < 4 ∧ o = Reg.COLL i n))
            { s with err := { s.err with reports := rest } } t) ∧
      ((List.range 256).find? (holdsKey s r) = some i →
        Completes (.errorReport false) s fun t =>
          t.err.reports = rest ∧
          rf t pgErr (Reg.COLL i 1) 0 48 = min (2 ^ 48 - 1) (rf s pgErr (Reg.COLL i 1) 0 48 + r.count) ∧
          rd t pgErr (Reg.COLL i 3) = rd s pgErr Reg.ERR_TIME ∧
          SameBut (fun p o => p = pgErr ∧ (o = Reg.COLL_REPORTS ∨ o = Reg.COLL i 1 ∨ o = Reg.COLL i 3))
            { s with err := { s.err with reports := rest } } t) ∧
      ((List.range 256).find? (holdsKey s r) = none → entryFor s r = some i → r.cls = 3 →
        Completes (.errorReport false) s fun t =>
          rf t pgErr (Reg.COLL i 0) 0 11 = r.origin % 2048 ∧ rf t pgErr (Reg.COLL i 0) 32 2 = 3 ∧
          rb t pgErr Reg.EVT_STAT 0 = true ∧ rb t pgErr Reg.EVT_STAT 5 = true ∧
          (∀ d, freeSlot s = some d → rb t pgErr Reg.DUMP_STAT d = true ∧ rb t pgErr Reg.EVT_STAT 4 = true) ∧ SameMemory s t) ∧
      ((List.range 256).find? (holdsKey s r) = none → entryFor s r = none →
        Completes (.errorReport false) s fun t =>
          rd t pgErr Reg.COLL_LOST = rd s pgErr Reg.COLL_LOST + 1 ∧ rb t pgErr Reg.COLL_STAT 16 = true ∧
          (rb s pgErr Reg.COLL_STAT 16 = false → rb t pgErr Reg.EVT_STAT 1 = true) ∧
          (∀ n, n < 4 → rd t pgErr (Reg.COLL i n) = rd s pgErr (Reg.COLL i n)) ∧ SameMemory s t) ∧
      (Completes (.errorReport true) s fun t =>
        s.err.reports <+: t.err.reports ∧ rd t pgErr Reg.ERR_COUNT = rd s pgErr Reg.ERR_COUNT + 1 ∧
        SameBut (fun p o => p = pgErr ∧ (o = Reg.ERR_COUNT ∨ o = Reg.ERR_FIRST)) s t)) ∧
    (MayWrite s fn pgErr Reg.COLL_CLEAR → bit v 63 = true → i < 256 → bit v 62 = true ∨ fld v 0 8 = i →
      Completes (.collClear fn v) s fun t =>
        rb t pgErr (Reg.COLL i 0) 63 = false ∧ rb t pgErr Reg.COLL_STAT 16 = false ∧
        SameBut (fun p o => p = pgErr ∧ (o = Reg.COLL_STAT ∨ Reg.COLL 0 0 ≤ o ∧ o < Reg.COLL 256 0)) s t) ∧
    (MayWrite s fn pgErr Reg.DUMP_ACK → bit v 63 = true →
      Completes (.dumpAck fn v) s fun t =>
        t.err.dumps = s.err.dumps.filter (fun d => !((fld v 0 3).testBit d.slot)) ∧
        (∀ n, n < 3 → rb t pgErr Reg.DUMP_STAT n = (rb s pgErr Reg.DUMP_STAT n && !((fld v 0 3).testBit n))) ∧
        SameBut (oneReg pgErr Reg.DUMP_STAT) { s with err := { s.err with dumps := t.err.dumps } } t) ∧
    (s.work.find? (fun w => decide (w.part = k) && decide (w.ctx = x) && decide (w.seq = q) && timed w) = some w →
      rf s pgErr Reg.ERR_CFG 16 16 ≠ 0 → page < 2048 → w.unit < 256 →
      Completes (.hang k x q page) s fun t =>
        rf t (pgPart k) Reg.HANG_LAST 0 12 = ctxId k x ∧ rf t (pgPart k) Reg.HANG_LAST 32 32 = q % 2 ^ 32 ∧
        rf t (pgPart k) Reg.HANG_WAIT 0 11 = (match w.phase with
          | .held _ => pgMf k
          | .heldNew => pgMf k
          | _ => page) ∧
        rb t (pgPart k) Reg.EVT_STAT 11 = true ∧ rb t pgErr Reg.EVT_STAT 2 = true ∧
        rd t (pgPart k) Reg.ERR_COUNT = rd s (pgPart k) Reg.ERR_COUNT + 1 ∧
        (rb s pgErr Reg.ERR_CFG 0 = true → ctxState s k x ≠ 0 → ctxState t k x = 4 ∨ ctxState t k x = 5) ∧ SameMemory s t) ∧
    (ctxDead s k x = true → (k, x) ∉ s.err.stuck → rf s (pgPart k) (Reg.CTX_OUT x) 0 24 ≠ 0 →
      Completes (.teardownStuck k x) s fun t =>
        rd t (pgPart k) Reg.ERR_COUNT = rd s (pgPart k) Reg.ERR_COUNT + 1 ∧
        SameBut (fun p o => p = pgPart k ∧ (o = Reg.ERR_COUNT ∨ o = Reg.ERR_FIRST))
          { s with err := { s.err with stuck := s.err.stuck ++ [(k, x)] } } t) ∧
    (1 ≤ j → j < 256 →
      (MayWrite s fn pgErr Reg.JOB_ABORT_CMD →
        Completes (.jobAbortCmd fn j) s fun t =>
          (∃ u ∈ t.err.jobTriggers, u.1 = j ∧ u.2.1 = 5) ∧
          t = { s with err := { s.err with jobTriggers := t.err.jobTriggers } }) ∧
      (∀ cause, s.err.jobTriggers.filter (fun u => decide (u.1 = j)) = [(j, cause, page)] → (k, x) ∈ jobMembers s j →
        Completes (.jobAbort j) s fun t =>
          (∀ u ∈ t.err.jobTriggers, u.1 ≠ j) ∧ (ctxState t k x = 0 ∨ ctxState t k x = 4 ∨ ctxState t k x = 5) ∧
          rf t pgErr (Reg.JOB j) 16 8 = cause % 256 ∧ rb t pgErr Reg.EVT_STAT 3 = true ∧
          rd t pgErr Reg.JOB_ABORTS = rd s pgErr Reg.JOB_ABORTS + 1 ∧ SameMemory s t))

/-- R49, R350, R428, R429, R430, R470, R487, R488, R491: a whole-device reset is asked for by a keyed write, by the byte 0xA5,
by a second watchdog expiry and by PERST#, and every context is then dead; once drained the ROM starts with the cause and
the count; power that is lost takes everything but what R430 keeps, and leaves a
counted setting its old value; PWR_OK and the clock hold the islands in reset.
Clauses: DEV_RESET, REC_RESET, WDOG_TUINER, PERST_ASSERT, PERST_RELEASE, DEVICE_RESET_DRAINED, POWER_LOSS, PWR_OK_FALL,
SYSCLK_STOP, SYSCLK_RETURN.

R220, R350, R486, R489: a site or a stack that loses its rail while in service enters FAULT, the contents of the stack
lost (log entry 3), a rail in range again is noted,
and a stack that cannot be trained enters FAULT.  Clauses: SITE_RAIL_LOST, RAIL_LOST, RAIL_RESTORED, TRAINING_FAIL.

Where the rules leave a point open, the clauses rest on the choices of log entries 49 and 63. -/
def Obligations.ResetsAndPowerTakeTheirEffect : Prop :=
  (∀ (fn k x : Nat) (v : Word) (cut : Bool) (c : PowerCut) (s : State), s.canonical → k < 16 → x < 256 →
      let off := fun (t : State) => pageState s (pgPart k) ≠ 6 → pageState t (pgPart k) = 0
      let dead := fun (t : State) => ctxState t k x = 0 ∨ ctxState t k x = 4 ∨ ctxState t k x = 5
      let started := fun (cause : Nat) (t : State) => t.err.resetting = some cause ∧ dead t
      (s.err.resetting = none →
        ((if s.boot.phase = .recovery then fn = 0 ∧ barOpen s 0 = true else MayWrite s fn pgErr Reg.DEV_RESET) →
          bit v 63 = true → fld v 0 16 = 0xDE5E →
          Completes (.devReset fn v) s fun t => started 1 t ∧ t.err.dumpWanted = bit v 16) ∧
        (i3cAddr s = true → s.boot.phase = .recovery ∨ s.boot.loadState = 2 → Completes (.recReset 0xA5) s (started 1)) ∧
        (tuinerRuns s = true →
          (Completes (.wdogTuiner false) s fun t =>
            rb t pgErr Reg.WDOG 0 = true ∧ t.err.resetting = none ∧
            rf t pgErr Reg.WDOG 32 32 = (rf s pgErr Reg.WDOG 32 32 + 1) % 2 ^ 32) ∧
          Completes (.wdogTuiner true) s (started 3)) ∧
        (s.board.perst = false → s.boot.phase ≠ .off →
          Completes (.perstAssert cut) s fun t =>
            started 2 t ∧ t.board.perst = true ∧ t.pcie.link = false ∧ t.boot.holdPerst = true ∧
            (cut = true → (t.err.dumps.getLast?.map fun d => d.whole) ≠ some true))) ∧
      (exec .perstRelease s = .next { s with
        board := { s.board with perst := false, wake := false }, pcie := { s.pcie with d3cold := false },
        boot := { s.boot with holdPerst := false } }) ∧
      (∀ cause, s.err.resetting = some cause → cause < 16 →
        Completes .deviceResetDrained s fun t =>
          t.boot.phase = .rom ∧ t.boot.warm = true ∧ t.err.resetting = none ∧ t.work = [] ∧ t.pcie.link = false ∧
          rf t pgErr Reg.RESET_CAUSE 0 4 = cause ∧
          rf t pgErr Reg.RESET_CAUSE 32 32 = (rf s pgErr Reg.RESET_CAUSE 32 32 + 1) % 2 ^ 32 ∧
          off t ∧ t.fuse = s.fuse ∧ SameMemory s t) ∧
      (Completes (.powerLoss c) s fun t =>
        t.mem = State.reset.mem ∧ t.hostMem = s.hostMem ∧ (c = .none → t.fuse = s.fuse) ∧
        (c = .counted → t.fuse = { s.fuse with
          ownerKeyUsed := t.fuse.ownerKeyUsed, secVersionUsed := t.fuse.secVersionUsed, admitUsed := t.fuse.admitUsed
          geometryUsed := t.fuse.geometryUsed, debugEpochUsed := t.fuse.debugEpochUsed }) ∧
        t.fuse.debugEpoch = s.fuse.debugEpoch ∧ t.fuse.secVersion = s.fuse.secVersion ∧ t.fuse.ownerKeys = s.fuse.ownerKeys ∧
          t.flash = s.flash ∧ t.boot.phase = .off ∧
        rd t 0 Reg.PWR_CYCLES = rd s 0 Reg.PWR_CYCLES ∧ rd t (pgPart k) Reg.PART_STATE = regReset (regAddr (pgPart k) Reg.PART_STATE)) ∧
      (s.board.pwrOk = true →
        Completes .pwrOkFall s fun t =>
          t.board.pwrOk = false ∧ t.boot.phase = .off ∧ t.board.thermtrip = false ∧ off t ∧ t.work = []) ∧
      (s.board.sysclk = true → s.boot.phase ≠ .off →
        Completes .sysclkStop s fun t =>
          t.board.sysclk = false ∧ t.boot.phase = .off ∧ off t ∧ t.work = []) ∧
      (s.board.sysclk = false → s.board.pwrOk = true →
        Completes .sysclkReturn s fun t =>
          t.board.sysclk = true ∧ t.boot.phase = .rom ∧ t.boot.warm = false ∧ rf t pgErr Reg.RESET_CAUSE 0 4 = 0 ∧
          SameMemory s t)) ∧
  (∀ (i m : Nat) (s : State), s.canonical → i < 4 → m < 8 →
      let marks := fun q o => q = pgMc m ∧ (o = Reg.PAGE_STAT ∨ o = Reg.ERR_COUNT ∨ o = Reg.ERR_FIRST)
      (siteAdmitted s i = true →
        Completes (.siteRailLost i) s fun t =>
          t.board.siteRails.testBit i = false ∧ t.boot.lostSiteRails.testBit i = true ∧
          pgSite i ∈ t.boot.railFaults ∧ pageState t (pgSite i) = 5) ∧
      (pageState s (pgMc m) = 3 ∨ pageState s (pgMc m) = 4 →
        Completes (.railLost m) s fun t =>
          t.board.hbmRails.testBit m = false ∧ t.boot.lostRails.testBit m = true ∧ pageState t (pgMc m) = 5 ∧
          rd t (pgMc m) Reg.ERR_COUNT = rd s (pgMc m) Reg.ERR_COUNT + 1 ∧
          (∀ a, readMem t a = if (hbmPlace a).any (fun q => decide (q.1 = m)) then 0 else readMem s a) ∧
          SameBut marks { s with
            mem := t.mem, ue := t.ue, weak := t.weak, board := { s.board with hbmRails := t.board.hbmRails }
            boot := { s.boot with lostRails := t.boot.lostRails, railFaults := s.boot.railFaults ++ [pgMc m] } } t) ∧
      (exec (.railRestored true i) s =
        .next { s with board := { s.board with siteRails := s.board.siteRails ||| (1 <<< i) } }) ∧
      (exec (.railRestored false m) s =
        .next { s with board := { s.board with hbmRails := s.board.hbmRails ||| (1 <<< m) } }) ∧
      (pageState s (pgMc m) = 2 →
        Completes (.trainingFail m) s fun t =>
          pageState t (pgMc m) = 5 ∧ rd t (pgMc m) Reg.ERR_COUNT = rd s (pgMc m) Reg.ERR_COUNT + 1 ∧ SameBut marks s t))

/-- R442, R443, R444, R446, R447: a mailbox passes from IDLE to FULL at SEND, to TAKEN, to RESP_READY with the response
written and its sender's event set, and to IDLE at ACK; a request that is not taken is withdrawn.  A message no command
answers is refused with its code.  Clauses: SEND, MBX_TAKE, MBX_RESPONSE, ACK, MBX_TIMEOUT.

Where the rules leave a point open, the clauses rest on the choices of log entry 47. -/
def Obligations.MailboxesPassThroughTheirStates : Prop :=
  ∀ (fn : Nat) (sec : Bool) (s : State), s.canonical → fn ≤ 16 →
    let p := pgMbx sec
    let answered := fun (b : Bytes) (t : State) =>
      mbxState t sec fn = 3 ∧ (∀ i, i < 32 → rd t p (Reg.RESP fn i) = w64 (leAt b (8 * i) 8)) ∧
      rf t p (Reg.MBX_STAT fn) 8 8 = leAt b 2 1 ∧ rf t p (Reg.MBX_STAT fn) 16 16 = leAt b 0 2 ∧
      rb t p Reg.EVT_STAT fn = true ∧
      SameBut (fun q o => q = p ∧ (o = Reg.MBX_STAT fn ∨ o = Reg.REJECT_COUNT ∨ ∃ i, i < 32 ∧ o = Reg.RESP fn i))
        { s with mbx := t.mbx, i3c := { s.i3c with ibis := t.i3c.ibis } } t
    (MayWrite s fn p (Reg.MBX_CTL fn) →
      ((sec = true → fn = 0) → mbxState s sec fn = 0 →
        Completes (.send fn sec) s fun t =>
          mbxState t sec fn = 1 ∧ rb t p (Reg.MBX_STAT fn) 4 = false ∧ SameBut (oneReg p (Reg.MBX_STAT fn)) s t) ∧
      (mbxState s sec fn = 3 →
        Completes (.ack fn sec) s fun t => mbxState t sec fn = 0 ∧ SameBut (oneReg p (Reg.MBX_STAT fn)) s t)) ∧
    (receives s sec = true → mbxState s sec fn = 1 →
      Completes (.mbxTake sec fn) s fun t => mbxState t sec fn = 2 ∧ SameBut (oneReg p (Reg.MBX_STAT fn)) s t) ∧
    (mbxState s sec fn = 2 →
      (∀ m, s.mbx.find? (fun q => decide (q.sec = sec) && decide (q.fn = fn)) = some m → m.bytes.length = 256 →
        Completes (.mbxResponse sec fn) s fun t =>
          answered m.bytes t ∧ rd t p Reg.REJECT_COUNT = rd s p Reg.REJECT_COUNT ∧
          t.mbx = s.mbx.filter fun q => !(decide (q.sec = sec) && decide (q.fn = fn))) ∧
      (∀ st, s.mbx.find? (fun q => decide (q.sec = sec) && decide (q.fn = fn)) = none →
        refusalOf sec fn (reqBytes s sec fn) = some st →
        Completes (.mbxResponse sec fn) s fun t =>
          rd t p Reg.REJECT_COUNT = rd s p Reg.REJECT_COUNT + (if st = 0xF then 1 else 0) ∧
          (st = 0xF → rb t p Reg.EVT_STAT 63 = true) ∧
          answered (fitBytes (natBytes (msgCode (reqBytes s sec fn) % 0x8000 + 0x8000) 2 ++ [BitVec.ofNat 8 st]) 256) t ∧
          t.mbx = s.mbx)) ∧
    (mbxState s sec fn = 1 →
      Completes (.mbxTimeout sec fn) s fun t =>
        mbxState t sec fn = 0 ∧ rb t p (Reg.MBX_STAT fn) 5 = true ∧ rb t p Reg.EVT_STAT (17 + fn) = true ∧
        SameBut (oneReg p (Reg.MBX_STAT fn)) s t)

/-- R435, R436, R438, R440, R446: the target takes an address and gives it up, takes the limits and the enables of the
common commands and answers those that read; the staging buffer is written, sent and its response acknowledged; a write
with bad parity, whose data is dropped (the model's choice, log 63), or past the buffer is recorded; one in-band interrupt is
sent for each occurrence of its cause.  The two bytes of GETSTATUS are free.  Clauses: ENTDAA, RSTDAA,
ENEC, DISEC, SETMWL, SETMRL, GETMWL, GETMRL, GETPID, GETBCR, GETDCR, GETSTATUS, MBX_WRITE (two), MBX_SEND, MBX_ACK, IBI.

Where the rules leave a point open, the clauses rest on the choices of log entries 48 and 63. -/
def Obligations.TheI3cTargetIsAddressedAndTakesCommands : Prop :=
  ∀ (n : Nat) (data rest : Bytes) (b : Byte) (s : State), s.canonical → i3cOn s = true →
    let stat := oneReg pgI3c Reg.I3C_STAT
    let sent := fun (c : Instr) (bytes : Bytes) => exec c s = .next (emit s (.i3c bytes))
    let wrote := fun (k : Nat) (c : Byte) (t : State) =>
      t.i3c.last = some c ∧ rd t pgI3c Reg.I3C_RX_BYTES = rd s pgI3c Reg.I3C_RX_BYTES + w64 (1 + k)
    (rb s pgI3c Reg.I3C_STAT 7 = false → s.boot.sensed = true →
      Completes (.entdaa n) s fun t =>
        rf t pgI3c Reg.I3C_STAT 0 7 = n % 128 ∧ rb t pgI3c Reg.I3C_STAT 7 = true ∧ rb t pgI3c Reg.EVT_STAT 0 = true ∧
        SameBut stat s t) ∧
    (Completes .enec s fun t => rb t pgI3c Reg.I3C_STAT 16 = true ∧ SameBut stat s t) ∧
    (Completes .disec s fun t => rb t pgI3c Reg.I3C_STAT 16 = false ∧ SameBut stat s t) ∧
    (exec (.setmwl n) s = .next { s with i3c := { s.i3c with mwl := min n 256 } }) ∧
    (exec (.setmrl n) s = .next { s with i3c := { s.i3c with mrl := min n 256 } }) ∧
    (rb s pgI3c Reg.I3C_STAT 7 = true →
      (Completes .rstdaa s fun t =>
        rb t pgI3c Reg.I3C_STAT 7 = false ∧ rb t pgI3c Reg.EVT_STAT 1 = true ∧ SameBut stat s t) ∧
      sent .getmwl [BitVec.ofNat 8 (s.i3c.mwl / 256), BitVec.ofNat 8 s.i3c.mwl] ∧
      sent .getmrl [BitVec.ofNat 8 (s.i3c.mrl / 256), BitVec.ofNat 8 s.i3c.mrl, 1] ∧
      sent .getbcr [0x0E] ∧ sent .getdcr [0x00] ∧ sent .getpid (natBytes (i3cPid s) 6).reverse ∧
      (∃ u, u.length = 2 ∧ exec .getstatus s = .next (emit (draw s).2 (.i3c u))) ∧
      (n % 8 = 0 → data.length ≤ 248 → n + data.length ≤ 256 → data.length + 2 ≤ s.i3c.mwl →
        Completes (.mbxWrite n data false) s fun t =>
          t.i3c.staging = putBytes s.i3c.staging n data ∧ wrote (1 + data.length) 0x10 t ∧
          SameBut (oneReg pgI3c Reg.I3C_RX_BYTES)
            { s with i3c := { s.i3c with last := some 0x10, staging := t.i3c.staging } } t) ∧
      (∀ bad, bad = true ∨ 256 < n + data.length →
        Completes (.mbxWrite n data bad) s fun t =>
          wrote (1 + data.length) 0x10 t ∧ t.i3c = { s.i3c with last := some 0x10 } ∧
          rd t pgI3c Reg.ERR_COUNT = rd s pgI3c Reg.ERR_COUNT + 1 ∧ rb t pgI3c Reg.EVT_STAT 62 = true ∧
          (rb s pgI3c Reg.ERR_FIRST 63 = false → rf t pgI3c Reg.ERR_FIRST 0 8 = if bad then 1 else 2) ∧
          SameBut (fun q o => q = pgI3c ∧ (o = Reg.I3C_RX_BYTES ∨ o = Reg.ERR_COUNT ∨ o = Reg.ERR_FIRST))
            { s with i3c := { s.i3c with last := some 0x10 } } t) ∧
      (mbxState s true 0 = 0 →
        Completes (.mbxSend false) s fun t =>
          mbxState t true 0 = 1 ∧ rb t (pgMbx true) (Reg.MBX_STAT 0) 4 = true ∧ wrote 0 0x11 t ∧
          (s.i3c.staging.length = 256 → reqBytes t true 0 = s.i3c.staging) ∧ t.i3c.staging = zeroBytes 256 ∧
          SameBut (fun q o => q = pgI3c ∧ o = Reg.I3C_RX_BYTES ∨
              q = pgMbx true ∧ (o = Reg.MBX_STAT 0 ∨ ∃ i, i < 32 ∧ o = Reg.REQ 0 i))
            { s with i3c := { s.i3c with last := some 0x11, staging := zeroBytes 256 } } t) ∧
      (mbxState s true 0 = 3 → rb s (pgMbx true) (Reg.MBX_STAT 0) 4 = true →
        Completes .mbxAck s fun t =>
          mbxState t true 0 = 0 ∧ wrote 0 0x14 t ∧
          SameBut (fun q o => q = pgI3c ∧ o = Reg.I3C_RX_BYTES ∨ q = pgMbx true ∧ o = Reg.MBX_STAT 0)
            { s with i3c := { s.i3c with last := some 0x14 } } t) ∧
      (s.i3c.ibis = b :: rest →
        (rb s pgI3c Reg.I3C_STAT 16 = true →
          Completes (.ibi true) s fun t =>
            t.i3c.ibis = rest ∧ t.out = s.out ++ [.ibi b] ∧ rd t pgI3c Reg.I3C_IBIS = rd s pgI3c Reg.I3C_IBIS + 1 ∧
            SameBut (oneReg pgI3c Reg.I3C_IBIS) { s with i3c := { s.i3c with ibis := rest }, out := t.out } t) ∧
        exec (.ibi false) s = .next s))

/-- R438, R439, R446, R470: the private reads answer the bytes of their tables, cut to the maximum read length, and count
them; the response is read only where the I3C port sent the request; a code that is not listed, and a read that no command
precedes, answer 0xFF.  Clauses: STATUS, IDENT, THERMAL, POWER, MBX_READ, MBX_STAT, REC_STATUS, UNKNOWN_I3C_COMMAND.

Where the rules leave a point open, the clauses rest on the choices of log entry 48. -/
def Obligations.I3cReadsAnswerTheirTables : Prop :=
  ∀ (code : Byte) (s : State), s.canonical → i3cAddr s = true →
    let answered := fun (c : Instr) (last : Option Byte) (k : Nat) (p : Bytes → Prop) => Completes c s fun t =>
      ∃ b, p b ∧ t.out = s.out ++ [.i3c (b.take s.i3c.mrl)] ∧ t.i3c = { s.i3c with last := last } ∧
        rd t pgI3c Reg.I3C_RX_BYTES = rd s pgI3c Reg.I3C_RX_BYTES + w64 k ∧
        rd t pgI3c Reg.I3C_TX_BYTES = rd s pgI3c Reg.I3C_TX_BYTES + w64 (min s.i3c.mrl b.length) ∧
        SameBut (fun q o => q = pgI3c ∧ (o = Reg.I3C_RX_BYTES ∨ o = Reg.I3C_TX_BYTES))
          { s with i3c := { s.i3c with last := last }, out := t.out } t
    let mine := mbxState s true 0 = 3 ∧ rb s (pgMbx true) (Reg.MBX_STAT 0) 4 = true
    answered .status (some 0x01) 1 (fun b =>
      b.length = 16 ∧ leAt b 0 1 = lcState s % 256 ∧ leAt b 1 1 = rf s pgLc Reg.LC_STATE 8 1 ∧
      (∀ k, k < 16 → (leAt b 2 2).testBit k = sealHeld s k) ∧ leAt b 4 2 = collUsed s ∧
      (leAt b 6 1).testBit 0 = rb s pgErr Reg.EVT_STAT 5 ∧ (leAt b 6 1).testBit 1 = rb s pgErr Reg.COLL_STAT 16 ∧
      (leAt b 6 1).testBit 2 = rb s pgPwr Reg.PWR_STAT 0 ∧ (leAt b 6 1).testBit 3 = s.board.thermtrip ∧
      leAt b 7 1 = rf s pgErr Reg.RESET_CAUSE 0 4 ∧ leAt b 8 1 = fld (devIdent s) 0 8 ∧ leAt b 9 1 = phaseCode s ∧
      leAt b 10 6 = 0) ∧
    answered .ident (some 0x02) 1 (fun b => b = wordBytes (devIdent s) ++ wordBytes s.fuse.unitId) ∧
    answered .thermal (some 0x03) 1 (fun b =>
      b.length = 8 ∧ leAt b 0 1 = rf s pgPwr Reg.THERM_STAT 0 8 ∧ leAt b 1 1 = rf s pgPwr Reg.THERM_STAT 8 7 ∧
      leAt b 2 1 = rf s pgPwr Reg.THERM_STAT 16 4 ∧ leAt b 3 1 = rf s pgPwr Reg.THERM_STAT 24 7 ∧
      leAt b 4 1 = rf s (pgMc (leAt b 5 1)) Reg.MC_TEMP 0 8 ∧ leAt b 5 1 < 8 ∧
      (∀ m, m < 8 → sByte (rf s (pgMc m) Reg.MC_TEMP 0 8) ≤ sByte (leAt b 4 1)) ∧ leAt b 6 2 = 0) ∧
    answered .power (some 0x04) 1 (fun b =>
      b.length = 16 ∧ leAt b 0 2 = rf s pgPwr Reg.PWR_MEAS 0 16 ∧ leAt b 2 2 = rf s pgPwr Reg.HBM_PWR 0 16 ∧
      (∀ i, i < 4 → leAt b (4 + 2 * i) 2 = rf s pgPwr (Reg.SITE_PWR i) 0 16) ∧ leAt b 12 4 = 0) ∧
    (mine → answered .mbxRead (some 0x12) 1 (fun b =>
      b.length = 256 ∧ ∀ i, i < 32 → w64 (leAt b (8 * i) 8) = rd s (pgMbx true) (Reg.RESP 0 i))) ∧
    (¬ mine → answered .mbxRead (some 0x12) 1 (fun b => b = [0xFF])) ∧
    answered .mbxStat (some 0x13) 1 (fun b => b = wordBytes (rd s (pgMbx true) (Reg.MBX_STAT 0))) ∧
    answered .recStatus (some 0x20) 1 (fun b =>
      b.length = 16 ∧ (s.boot.phase = .recovery → leAt b 0 1 = 1) ∧ (s.boot.phase ≠ .recovery → leAt b 0 1 = 0) ∧
      leAt b 1 1 = s.boot.cause % 256 ∧ leAt b 2 1 = s.boot.loadState % 256 ∧ leAt b 3 1 = 0 ∧
      leAt b 4 4 = (if s.boot.loadState = 0 then 0 else s.flash.image.length % 2 ^ 32) ∧ leAt b 8 8 = (devIdent s).toNat) ∧
    (i3cListed code = false → answered (.unknownI3cCommand (some code)) (some code) 1 (fun b => b = [0xFF])) ∧
    (s.i3c.last = none → answered (.unknownI3cCommand none) none 0 (fun b => b = [0xFF])) ∧
    (s.i3c.last = some 0x01 → answered (.unknownI3cCommand none) (some 0x01) 0 (fun b => b = statusBytes s))

/-- R429, R449, R451, R453, R454, R455, R456: enabling a trigger writes its CONFIG entry; a fence advances the epoch when it
completes; clearing empties the general part, writes an EVR_CLEAR audit entry and a CONFIG entry for each enabled trigger;
the audit part and the operating time go to flash; a kick starts the watchdog's interval again.  Clauses: TRIGGER_ENABLE,
RECORDER_FENCE, FENCE_DONE, EVR_CLEAR, AUDIT_MIRROR, SECONDS_SAVE, WATCHDOG_KICK.

Where the rules leave a point open, the clauses rest on the choices of log entries 46 and 50. -/
def Obligations.TheRecorderIsConfiguredFencedAndCleared : Prop :=
  ∀ (fn i : Nat) (v : Word) (s : State), s.canonical →
    (MayWrite s fn pgEvr (Reg.EVR_TRIG i) → i < 64 → rb s pgEvr (Reg.EVR_TRIG i) 32 = false → bit v 32 = true →
      s.evr.gen.length + 1 < 114688 →
      Completes (.triggerEnable fn i v) s fun t =>
        rd t pgEvr (Reg.EVR_TRIG i) = v &&& 0x1073F07FF ∧ rf t pgEvr Reg.EVR_STAT 0 17 = s.evr.gen.length + 1 ∧
        (∃ e, t.evr.gen = s.evr.gen ++ [e] ∧ e.length = 8 ∧ e.getD 0 0 = evrNow s ∧ fld (e.getD 1 0) 57 4 = 3 ∧
          fld (e.getD 1 0) 48 6 = i ∧ bit (e.getD 1 0) 63 = true ∧ fld (e.getD 2 0) 32 11 = fld v 0 11 ∧
          fld (e.getD 2 0) 48 6 = fld v 16 6 ∧
          ∀ j, j < 6 → fld (e.getD (2 + j) 0) 0 24 = rf s pgEvr (Reg.EVR_SEL i j) 0 24 ∧
            bit (e.getD (2 + j) 0) 24 = decide (j < fld v 24 3)) ∧
        SameBut (fun q o => q = pgEvr ∧ (o = Reg.EVR_TRIG i ∨ o = Reg.EVR_STAT)) s t) ∧
    (MayWrite s fn pgEvr Reg.EVR_FENCE → s.evr.fence = false →
      exec (.recorderFence fn) s = .next { s with evr := { s.evr with fence := true } }) ∧
    (s.evr.fence = true →
      Completes .fenceDone s fun t =>
        t.evr.fence = false ∧ rf t pgEvr Reg.EVR_EPOCH 0 16 = (rf s pgEvr Reg.EVR_EPOCH 0 16 + 1) % 65536 ∧
        rb t pgEvr Reg.EVT_STAT 2 = true ∧
        SameBut (oneReg pgEvr Reg.EVR_EPOCH) { s with evr := { s.evr with fence := false } } t) ∧
    (MayWrite s fn pgEvr Reg.EVR_CLEAR → auditRoom s = true →
      Completes (.evrClear fn) s fun t =>
        (∃ e, t.evr.audit = s.evr.audit ++ [((rd s pgEvr Reg.AUDIT_NEXT).toNat, e)] ∧ fld (e.getD 1 0) 48 6 = 0x0C ∧
          e.getD 2 0 = w64 s.evr.gen.length ∧ e.getD 3 0 = rd s pgEvr Reg.EVR_LOST) ∧
        rd t pgEvr Reg.EVR_LOST = 0 ∧
        t.evr.gen.length = (List.range 64).countP (fun j => rb s pgEvr (Reg.EVR_TRIG j) 32) ∧
        (∀ e ∈ t.evr.gen, fld (e.getD 1 0) 57 4 = 3) ∧ SameMemory s t) ∧
    (tuinerRuns s = true →
      (Completes .auditMirror s fun t =>
        t.evr.mirror = s.evr.audit ∧ rd t pgEvr Reg.AUDIT_MIRRORED = rd s pgEvr Reg.AUDIT_NEXT ∧
        SameBut (oneReg pgEvr Reg.AUDIT_MIRRORED)
          { s with evr := { s.evr with mirror := s.evr.audit, mirrorBase := (rd s pgEvr Reg.AUDIT_BASE).toNat } } t) ∧
      (exec .secondsSave s = .next { s with evr := { s.evr with
        savedSeconds := s.evr.seconds + (rd s pgErr Reg.ERR_TIME).toNat / 25000000 } }) ∧
      (exec .watchdogKick s =
        .next { s with err := { s.err with wdogTick := some (rd s pgErr Reg.ERR_TIME).toNat } }))

/-- R20, R25, R27, R403, R406, R465, R466, R471, R481, R486: power-good samples the straps, senses the fuses and starts the ROM;
the first check of R465 that fails names the cause with which the ROM enters the recovery path, a package in SCRAP stops,
and else Tuiner runs.  The checks are of the copy of the image that ROM_BOOT makes in the working store (R20).  ROM_BOOT is
stated where flash does not answer, and where it holds no intent and no certificate.
Clauses: POWER_ON, ROM_BOOT.

Where the rules leave a point open, the clauses rest on the choices of log entries 4, 9 and 51. -/
def Obligations.PowerOnStartsTheRomAndItsChecksDecide : Prop :=
  ∀ (strap : Nat) (perst flash : Bool) (s : State), s.canonical →
    (s.board.pwrOk = false → s.board.sysclk = true →
      Completes (.powerOn strap perst) s fun t =>
        t.board = { s.board with pwrOk := true, strap := strap % 16, perst := perst } ∧ t.boot.phase = .rom ∧
        t.boot.warm = false ∧ t.boot.sensed = true ∧ t.err.wdogBoots = 0 ∧
        rf t 0 Reg.PWR_CYCLES 0 32 = (rf s 0 Reg.PWR_CYCLES 0 32 + 1) % 2 ^ 32 ∧
        (∀ p, p = 0 ∨ p = 1 ∨ p = 2 ∨ p = 4 ∨ p = 5 → pageState t p = 3) ∧
        rf t pgI3c Reg.I3C_STAT 8 4 = strap % 16 ∧ rd t pgSec Reg.GEOMETRY = w64 s.fuse.geometry ∧
        rd t pgErr Reg.RESET_CAUSE = 0 ∧ rd t pgErr Reg.WDOG = 0 ∧ t.evr.audit = s.evr.mirror ∧
        t.evr.seconds = s.evr.savedSeconds ∧ t.fuse = s.fuse ∧ t.flash = s.flash ∧ SameMemory s t) ∧
    (s.boot.phase = .rom →
      (flash = true → (∀ r ∈ s.flash.intents, r = none) ∧ ∀ c ∈ s.flash.certs, c = none) →
      let u := { s with boot := { s.boot with store := { s.boot.store with
        image := if flash then s.flash.image else s.boot.store.image } } }
      (s.fuse.hubReads = false ∨ s.fuse.baseReads = false ∨ pairing s = none → bootCause u flash = 8) ∧
      (s.fuse.hubReads = true → s.fuse.baseReads = true → pairing s ≠ none →
        (lcState s = 0 → bootCause u flash = 9) ∧
        (lcState s ≠ 0 → 3 ≤ s.err.wdogBoots → bootCause u flash = 7) ∧
        (lcState s ≠ 0 → s.err.wdogBoots < 3 → bootCause u flash = if flash then imageCheck s s.flash.image else 1)) ∧
      Completes (.romBoot flash) s fun t =>
        SameMemory s t ∧ t.fuse = s.fuse ∧ t.flash = s.flash ∧
        (lcState s = 0x60 → t.boot.phase = .scrap) ∧
        (lcState s ≠ 0x60 → bootCause u flash ≠ 0 →
          t.boot.phase = .recovery ∧ t.boot.cause = bootCause u flash ∧ t.pcie.recovery = true ∧
          t.i3c.ibis = s.i3c.ibis ++ [4]) ∧
        (lcState s ≠ 0x60 → t.boot.store = u.boot.store) ∧
        (lcState s ≠ 0x60 → bootCause u flash = 0 →
          t.boot.phase = .settings ∧ t.boot.fwIf = imageNum s.flash.image 10 1 ∧
          t.boot.imageDigest = sha512 (imageAt s.flash.image 0 (imageNum s.flash.image 4 4)) ∧
          t.boot.akVersion = s.fuse.secVersion ∧ t.err.wdogTick = some (rd s pgErr Reg.ERR_TIME).toNat))

/-- R40, R95, R104, R204, R228, R247, R373, R472, R474, R476, R478, R479, R480, R481, R483: Tuiner's steps in their order, each in
its phase, with what a warm start keeps; the broadcast's answers and failures; the self-test of a spare left over; training never shortens a
timing; the end of bring-up.  Clauses: SETTINGS,
TRAINING_PHASE, DEFECTS, CORES, ROUTES, SCRUB_PHASE, BRINGUP_END, ROM_CHECK, SELF_TEST, CLEAR, BROADCAST_ANSWER_TIMEOUT.

Where the rules leave a point open, the clauses rest on the choices of log entry 51. -/
def Obligations.BringUpRunsItsStepsInOrder : Prop :=
  ∀ (k m i c e u short up : Nat) (ok : Bool) (value : Word) (t0 t1 : List Word) (routes : List (Nat × Nat × Nat)) (s : State),
    s.canonical → k < 16 → m < 8 → i < 4 → c < 128 → e < 64 → u < 2240 →
    let raised := fun (p : Nat) (t : State) => pageState s p ≠ 5 → pageState s p ≠ 6 → pageState t p = 3
    let bytes := fun (w v o : Word) (n k : Nat) => fld w n k = max (fld o n k) (fld v n k)
    let cfg := fun (n : Nat) => cfgByte (s.flash.bootConfig.getD bootDefault) n
    let answered := fun (cmd : Nat) => { s with boot := { s.boot with
      answered := if s.boot.answered.contains (3 * u + cmd) then s.boot.answered else s.boot.answered ++ [3 * u + cmd] } }
    let known := s.flash.fieldMap.cores.contains u || decide (2176 ≤ u) && s.flash.fieldMap.engines.contains (u - 2176)
    let failed := fun (t : State) =>
      t.boot.failedUnits = s.boot.failedUnits ++ [u] ∧ t.boot.added = s.boot.added + (if known then 0 else 1) ∧
      (u < 2176 → t.flash.fieldMap.cores = s.flash.fieldMap.cores ++ (if known then [] else [u])) ∧
      (2176 ≤ u → t.flash.fieldMap.engines = s.flash.fieldMap.engines ++ [u - 2176] ∧ pageState t (pgSe (u - 2176)) = 6)
    (s.boot.phase = .settings → s.boot.holdPerst = false →
      Completes .settings s fun t =>
        t.boot.phase = .training ∧ raised pgPwr t ∧ raised pgI3c t ∧ raised 8 t ∧ raised 9 t ∧ raised (pgCvu m) t ∧
        (t.boot.fullHbm.testBit m =
          (!(s.flash.stackRecords.testBit m) && (!s.boot.warm || !(s.boot.store.hbmSet.testBit m) || s.boot.lostRails.testBit m))) ∧
        (t.boot.fullSites.testBit i =
          (!(s.flash.siteRecords.testBit i) && (!s.boot.warm || !(s.boot.store.siteSet.testBit i) || s.boot.lostSiteRails.testBit i))) ∧
        t.boot.fullPcie = (!s.flash.pcieRecord && !s.boot.warm) ∧ SameMemory s t) ∧
    (s.boot.phase = .training →
      Completes (.trainingPhase short up) s fun t =>
        t.boot.phase = .defects ∧ pageState t (pgMc m) = (if s.board.hbmRails.testBit m then 3 else 2) ∧
        pageState t (pgSite i) = (if up.testBit i && s.board.siteRails.testBit i then 2 else 3) ∧
        pageState t pgPcie = (if s.pcie.link then 3 else 2) ∧
        (t.flash.stackRecords.testBit m = (s.flash.stackRecords.testBit m ||
          ((s.boot.fullHbm.testBit m || short.testBit m) && s.board.hbmRails.testBit m))) ∧
        (t.flash.siteRecords.testBit i = (s.flash.siteRecords.testBit i ||
          ((s.boot.fullSites.testBit i || short.testBit (8 + i)) && up.testBit i))) ∧
        t.flash.pcieRecord = (s.flash.pcieRecord || s.boot.fullPcie || short.testBit 12) ∧ SameMemory s t) ∧
    (s.boot.phase = .defects → trained s = true →
      Completes (.defects ok) s fun t =>
        t.boot.phase = .cores ∧ (m ∉ s.fab.faulted → raised (pgRing m) t) ∧ (k ∉ t.quay.off → raised (pgQuay k) t) ∧
        SameMemory s t ∧
        (s.boot.warm = true → t.fab = s.fab ∧ t.hbm = s.hbm ∧ t.quay = s.quay ∧ t.flash = s.flash ∧
          rd t (pgQuay k) Reg.QUAY_BANK_MAP = rd s (pgQuay k) Reg.QUAY_BANK_MAP) ∧
        (s.boot.warm = false →
          t.flash = { s.flash with fieldMapOk := ok, fieldMap := if ok then s.flash.fieldMap else fieldMapEmpty } ∧
          (ok = false → t.hbm.pool = [] ∧ t.hbm.retired = [] ∧ rd t pgSec Reg.ERR_COUNT = rd s pgSec Reg.ERR_COUNT + 1) ∧
          (let f := mapInForce { s with flash := t.flash }
           (∀ l ∈ f.links, l ∈ t.fab.down) ∧
           (k ∈ t.quay.off ↔ 8 < ((f.quayBanks.filter fun b => b.1 = k).eraseDups).length) ∧
           ∀ b ∈ f.quayBanks, b.1 = k → b.2 < 64 →
             rb t (pgQuay k) Reg.QUAY_BANK_MAP b.2 = true ∨ rb t (pgQuay k) Reg.QUAY_SPARE 8 = true))) ∧
    (s.boot.phase = .cores →
      (Completes .cores s fun t =>
        t.boot.phase = .routes ∧ raised (pgPart k) t ∧ raised (pgMf k) t ∧ SameMemory s t ∧
        (answeredAll s u = false → u ∈ t.boot.failedUnits) ∧
        (answeredAll s u = true → (u ∈ t.boot.failedUnits ↔ u ∈ s.boot.failedUnits)) ∧
        (s.boot.warm = true → rd t (pgCl c) Reg.L2P_LO = rd s (pgCl c) Reg.L2P_LO) ∧
        (s.boot.warm = false →
          (e ∈ s.fuse.badEngines ∨ e ∈ (mapInForce t).engines → pageState t (pgSe e) = 6) ∧
          ((∀ j, j < 16 → coreGood t c j = true) → coreGood t c 16 = true →
            coreState t c 16 = 5 ∧ rb t (pgCl c) Reg.SPARE_TEST 1 = true) ∧
          (∀ j, j < 16 → coreGood t c j = true → coreState t c j = 2 ∧ servedBy t c j = some j) ∧
          ∀ j, j < 16 → coreGood t c j = false → (∀ l, l < j → coreGood t c l = true) → coreState t c j = 0 ∧
            (coreGood t c 16 = true → servedBy t c 16 = some j ∧ coreState t c 16 = 2) ∧
            (coreGood t c 16 = false → servedBy t c 16 = none ∧ coreState t c 16 = 0))) ∧
      (u ∉ s.boot.failedUnits →
        (answeredAll s u = false → Completes (.broadcastAnswerTimeout u) s failed) ∧
        (answeredAll s u = true → exec (.broadcastAnswerTimeout u) s = .next s) ∧
        (s.boot.warm = false →
          (value ≠ Config.romCheckValue s.fuse.hubStep → Completes (.romCheck u value) s failed) ∧
          Completes (.selfTest u false) s failed)) ∧
      exec (.clear u) s = .next (answered 2) ∧
      (s.boot.warm = false →
        exec (.selfTest u true) s = .next (answered 1) ∧
        (value = Config.romCheckValue s.fuse.hubStep → exec (.romCheck u value) s = .next (answered 0))) ∧
      (s.boot.warm = true → exec (.selfTest u false) s = .next s ∧ exec (.romCheck u value) s = .next s)) ∧
    (s.boot.phase = .routes → sparesTested s = true → t0.length = 8 → t1.length = 8 →
      Completes (.routes t0 t1 routes) s fun t =>
        t.boot.phase = .scrub ∧ rb t (pgRing 0) Reg.FAB_CTL 0 = true ∧ (∀ p ∈ rwlPages, rb t p Reg.LOCK 0 = true) ∧
        (∀ j, j < 8 → bytes (rd t (pgMc m) Reg.MC_TIMING0) (t0.getD m 0) (rd s (pgMc m) Reg.MC_TIMING0) (8 * j) 8) ∧
        (∀ j, j < 2 →
          bytes (rd t (pgMc m) Reg.MC_TIMING1) (t1.getD m 0) (rd s (pgMc m) Reg.MC_TIMING1) (8 * j) 8 ∧
          bytes (rd t (pgMc m) Reg.MC_TIMING1) (t1.getD m 0) (rd s (pgMc m) Reg.MC_TIMING1) (16 + 16 * j) 12) ∧
        t.fab.routes = (routes.filter fun r =>
            decide (r.2.2 % 4096 ≠ 0) && routeOk s (r.1 % 64) (r.2.1 % 64) (r.2.2 % 4096)).map
          (fun r => (r.1 % 64 * 64 + r.2.1 % 64, r.2.2 % 4096)) ∧
        (cfg (8 + 3 * k) % 2 = 1 → rb t (pgQuay k) Reg.EVT_STAT 3 = true) ∧
        rf t (pgRing m) Reg.RING_CTL 0 1 = cfg 0 % 2 ∧ rf t (pgMc m) Reg.MC_CFG 0 1 = cfg 0 / 2 % 2 ∧
        rf t (pgMc m) Reg.MC_CFG 1 1 = cfg 0 / 4 % 2 ∧ rf t (pgMc m) Reg.MC_CFG 8 4 = cfg 1 % 16 ∧
        rf t (pgMc m) Reg.MC_CFG 16 8 = cfg 2 ∧ rf t pgPwr Reg.THERM_CFG 0 8 = cfg 3 ∧
        rf t pgPwr Reg.THERM_CFG 8 8 = cfg 4 ∧ rf t pgPcie Reg.LINK_CTL 0 3 = cfg 5 % 8 ∧
        rf t pgI3c Reg.I3C_CFG 0 1 = cfg 6 % 2 ∧ rf t (pgQuay k) Reg.QUAY_CFG 0 1 = cfg (8 + 3 * k) % 2 ∧
        rf t (pgQuay k) Reg.QUAY_CFG 24 4 = cfg (8 + 3 * k) / 16 ∧ rf t (pgQuay k) Reg.QUAY_CFG 8 8 = cfg (9 + 3 * k) ∧
        rf t (pgQuay k) Reg.QUAY_CFG 16 8 = cfg (10 + 3 * k) ∧ rf t (pgSite i) Reg.SITE_CFG 0 2 = cfg (56 + 2 * i) % 4 ∧
        rf t (pgSite i) Reg.SITE_CFG 8 8 = cfg (57 + 2 * i) ∧ SameMemory s t) ∧
    (s.boot.phase = .scrub →
      (Completes .scrubPhase s fun t =>
        t.boot.phase = .scrub ∧ (available s k = true → partState s k = 0 → partState t k = 1 ∧ rf t (pgPart k) Reg.SCRUB_STAT 0 2 = 1) ∧
        (available s k = false → partState t k = partState s k)) ∧
      (partsUp s = true →
        Completes .bringupEnd s fun t =>
          t.boot.phase = .ready ∧ t.boot.endMs = (rd s pgErr Reg.ERR_TIME).toNat / 25000 ∧ t.err.wdogBoots = 0 ∧
          (available s k = true → rb t (pgPart k) Reg.EVT_STAT 9 = true) ∧
          SameBut noReg { s with boot := t.boot, err := { s.err with wdogBoots := 0 } } t))

/-- R449, R450, R456, R464, R465, R468, R482, R483: an image is loaded in pieces, read back and checked when it is committed,
each accepted BEGIN and each COMMIT with its audit entry; where a flash write fails (R410) the answer is UNCORRECTABLE and no load
is open, or nothing is written (the model's choice, log 63); Tuiner answers the commands of its mailboxes, and refuses a
function that is not listed.  Clauses: IMG_BEGIN, IMG_CHUNK, IMG_COMMIT, BOOT_STATUS, FORCE_FULL_TRAINING,
BAD_PAGES_BEGIN, BAD_PAGES_APPEND, BAD_PAGES_COMMIT, SHUTDOWN, BOOT_CONFIG_READ, BOOT_CONFIG_WRITE.

Where the rules leave a point open, the clauses rest on the choices of log entries 7, 51 and 63. -/
def Obligations.ImagesLoadAndTuinerAnswers : Prop :=
  ∀ (f : Nat) (ok : Bool) (b : Bytes) (s : State), s.canonical →
    let len := leAt b 8 2
    let audited := fun (t : State) =>
      ∃ e, t.evr.audit = s.evr.audit ++ [((rd s pgEvr Reg.AUDIT_NEXT).toNat, e)] ∧ fld (e.getD 1 0) 48 6 = 0x0A
    let tuinerSays := fun (c : Instr) (code st : Nat) (body : Bytes) (u : State) =>
      exec c s = .next { u with mbx := s.mbx ++ [mbxAnswer false f code st body] }
    let turned := fun (c : Instr) (code : Nat) => Completes c s fun t =>
      t.mbx = s.mbx ++ [mbxAnswer false f code 0xF []] ∧
      rd t (pgMbx false) Reg.REJECT_COUNT = rd s (pgMbx false) Reg.REJECT_COUNT + 1 ∧
      rb t (pgMbx false) Reg.EVT_STAT 63 = true ∧ SameBut (oneReg (pgMbx false) Reg.REJECT_COUNT) { s with mbx := t.mbx } t
    let listed := leAt b 4 2 ≤ 30
    let pages := (List.range (leAt b 4 2)).map fun i => leAt b (8 + 8 * i) 8 / 65536
    let asked := fun (code : Nat) => takenReq s false f code = some b
    (takenReq s true 0 0x0401 = some b → auditRoom s = true → leAt b 4 4 ≤ 0x1000000 →
      (Completes (.imgBegin true) s fun t =>
        t.mbx = s.mbx ++ [mbxAnswer true 0 0x0401 0 []] ∧ t.flash = { s.flash with image := [] } ∧
        t.boot = { s.boot with loadState := 1, loadLen := leAt b 4 4 } ∧ audited t ∧ SameMemory s t) ∧
      (Completes (.imgBegin false) s fun t =>
        t.mbx = s.mbx ++ [mbxAnswer true 0 0x0401 4 []] ∧ t.boot = { s.boot with loadState := 0 } ∧ SameMemory s t)) ∧
    (takenReq s true 0 0x0402 = some b → s.boot.loadState = 1 → leAt b 4 4 = s.flash.image.length →
      (1 ≤ len → len ≤ 240 → s.flash.image.length + len ≤ s.boot.loadLen →
        exec (.imgChunk true) s = .next { s with
          flash := { s.flash with image := s.flash.image ++ slice b 16 len }, mbx := s.mbx ++ [mbxAnswer true 0 0x0402 0 []] } ∧
        Completes (.imgChunk false) s fun t =>
          t.mbx = s.mbx ++ [mbxAnswer true 0 0x0402 4 []] ∧ t.flash = s.flash ∧ t.boot = s.boot) ∧
      (1 ≤ len → len ≤ 240 → s.boot.loadLen < s.flash.image.length + len →
        exec (.imgChunk ok) s = .next { s with mbx := s.mbx ++ [mbxAnswer true 0 0x0402 3 []] })) ∧
    (takenReq s true 0 0x0402 = some b → s.boot.loadState ≠ 1 ∨ leAt b 4 4 ≠ s.flash.image.length →
      Completes (.imgChunk ok) s fun t => t.mbx = s.mbx ++ [mbxAnswer true 0 0x0402 0xB []] ∧ t.flash = s.flash ∧ t.boot = s.boot) ∧
    (takenReq s true 0 0x0403 = some b → auditRoom s = true → s.boot.loadState = 1 → s.boot.loadLen ≤ s.flash.image.length →
      Completes .imgCommit s fun t =>
        audited t ∧ t.flash = s.flash ∧ SameMemory s t ∧
        (imageCheck s s.flash.image = 0 →
          t.boot = { s.boot with loadState := 2 } ∧ t.mbx = s.mbx ++ [mbxAnswer true 0 0x0403 0 [0]]) ∧
        (imageCheck s s.flash.image ≠ 0 →
          t.boot = { s.boot with loadState := 3 } ∧
          t.mbx = s.mbx ++ [mbxAnswer true 0 0x0403 3 [BitVec.ofNat 8 (imageCheck s s.flash.image)]])) ∧
    (asked 0x0501 →
      ∃ body, tuinerSays (.bootStatus f) 0x0501 0 body s ∧ body.length = 10 ∧ leAt body 0 1 = phaseCode s ∧
        (leAt body 1 1).testBit 0 = decide (s.boot.fullHbm ≠ 0) ∧ (leAt body 1 1).testBit 1 = decide (s.boot.fullSites ≠ 0) ∧
        (leAt body 1 1).testBit 2 = s.boot.fullPcie ∧ (leAt body 1 1).testBit 7 = s.boot.warm ∧
        leAt body 2 1 = s.boot.fullSites % 256 ∧ leAt body 3 1 = s.boot.fullHbm % 256 ∧
        leAt body 4 4 = s.boot.endMs % 2 ^ 32 ∧ leAt body 8 2 = s.boot.added % 65536) ∧
    (f ≠ 0 →
      (asked 0x0502 → turned (.forceFullTraining f) 0x0502) ∧
      (asked 0x0504 → turned (.shutdown f) 0x0504) ∧
      (asked 0x0503 → leAt b 3 1 = 0 → turned (.badPagesBegin f) 0x0503) ∧
      (asked 0x0505 → leAt b 3 1 = 0 → turned (.bootConfigRead f) 0x0505)) ∧
    (f = 0 →
      (asked 0x0502 →
        tuinerSays (.forceFullTraining f) 0x0502 0 [] { s with flash := { s.flash with
          stackRecords := if (leAt b 4 1).testBit 0 then 0 else s.flash.stackRecords
          siteRecords := if (leAt b 4 1).testBit 1 then 0 else s.flash.siteRecords
          pcieRecord := s.flash.pcieRecord && !((leAt b 4 1).testBit 2) } }) ∧
      (asked 0x0503 → listed →
        (leAt b 3 1 = 0 →
          tuinerSays (.badPagesBegin f) 0x0503 0 [] { s with boot := { s.boot with badList := some pages } }) ∧
        (∀ l, s.boot.badList = some l →
          (leAt b 3 1 = 1 →
            tuinerSays (.badPagesAppend f) 0x0503 0 [] { s with boot := { s.boot with badList := some (l ++ pages) } }) ∧
          (leAt b 3 1 = 2 →
            tuinerSays (.badPagesCommit f) 0x0503 0 [] { s with
              boot := { s.boot with badList := none }, flash := { s.flash with badPages := l ++ pages } }))) ∧
      (asked 0x0503 → s.boot.badList = none →
        (leAt b 3 1 = 1 → Completes (.badPagesAppend f) s fun t => t.mbx = s.mbx ++ [mbxAnswer false f 0x0503 0xB []]) ∧
        (leAt b 3 1 = 2 → Completes (.badPagesCommit f) s fun t => t.mbx = s.mbx ++ [mbxAnswer false f 0x0503 0xB []])) ∧
      (asked 0x0504 →
        Completes (.shutdown f) s fun t =>
          t.mbx = s.mbx ++ [mbxAnswer false f 0x0504 0 []] ∧ t.boot = { s.boot with shutdown := true } ∧
          t.evr.mirror = s.evr.audit ∧
          t.evr.savedSeconds = s.evr.seconds + (rd s pgErr Reg.ERR_TIME).toNat / 25000000 ∧
          rd t pgEvr Reg.AUDIT_MIRRORED = rd s pgEvr Reg.AUDIT_NEXT ∧ SameMemory s t) ∧
      (asked 0x0505 →
        (leAt b 3 1 = 0 → tuinerSays (.bootConfigRead f) 0x0505 0 (s.flash.bootConfig.getD bootDefault) s) ∧
        (leAt b 3 1 = 1 → bootCfgOk (slice b 4 72) = true →
          tuinerSays (.bootConfigWrite f) 0x0505 0 [] { s with flash := { s.flash with bootConfig := some (slice b 4 72) } }) ∧
        (leAt b 3 1 = 1 → bootCfgOk (slice b 4 72) = false → tuinerSays (.bootConfigWrite f) 0x0505 3 [] s)))
end

