-- ==== Sys2Proof/Laws/Sparse.lean ====
section
/-!
SUPPORT. Laws of sparse lists: a read after a write, and that every operation keeps the canonical form.
-/

set_option Elab.async false

namespace Sys2Proof.Machine

open Sys2Proof

theorem sparseWfFrom_mono {α} [DecidableEq α] (d : Nat → α) : ∀ (l : List (Nat × α)) (a b : Nat), a ≤ b → sparseWfFrom d b l = true → sparseWfFrom d a l = true
  | [], _, _, _, _ => rfl
  | (c, v) :: t, a, b, h, hw => by
    simp only [sparseWfFrom, Bool.and_eq_true, decide_eq_true_eq] at hw ⊢
    exact ⟨⟨Nat.le_trans h hw.1.1, hw.1.2⟩, hw.2⟩

theorem sparseWfFrom_set {α} [DecidableEq α] (d : Nat → α) : ∀ (l : List (Nat × α)) (lo a : Nat) (v : α), lo ≤ a → sparseWfFrom d lo l = true → sparseWfFrom d lo (sparseSet d l a v) = true
  | [], lo, a, v, h, _ => by
    simp only [sparseSet]; split <;> simp_all [sparseWfFrom]
  | (b, w) :: t, lo, a, v, h, hw => by
    have hw' := hw
    simp only [sparseWfFrom, Bool.and_eq_true, decide_eq_true_eq] at hw'
    obtain ⟨⟨h1, h2⟩, h3⟩ := hw'
    have h4 := sparseWfFrom_mono d t lo (b+1) (by omega) h3
    simp only [sparseSet]
    split
    · split
      · exact hw
      · simp_all [sparseWfFrom]
    · split
      · split
        · exact h4
        · simp_all [sparseWfFrom]
      · have := sparseWfFrom_set d t (b+1) a v (by omega) h3
        simp_all [sparseWfFrom]

theorem sparseWf_set {α} [DecidableEq α] (d : Nat → α) (l : List (Nat × α)) (a : Nat) (v : α) (h : sparseWf d l = true) : sparseWf d (sparseSet d l a v) = true :=
  sparseWfFrom_set d l 0 a v (Nat.zero_le _) h

theorem sparseWf_put {α} [DecidableEq α] (d : Nat → α) : ∀ (vs : List α) (l : List (Nat × α)) (a : Nat), sparseWf d l = true → sparseWf d (sparsePut d l a vs) = true
  | [], _, _, h => h
  | v :: t, l, a, h => sparseWf_put d t _ _ (sparseWf_set d l a v h)

theorem sparseWfFrom_filterMap {α} [DecidableEq α] (d : Nat → α) (f : Nat × α → Option (Nat × α)) (hf : ∀ e r, f e = some r → r.1 = e.1 ∧ (r.2 ≠ d r.1 ∨ r = e)) :
    ∀ (l : List (Nat × α)) (lo : Nat), sparseWfFrom d lo l = true → sparseWfFrom d lo (l.filterMap f) = true
  | [], _, _ => rfl
  | e :: t, lo, h => by
    obtain ⟨b, w⟩ := e
    simp only [sparseWfFrom, Bool.and_eq_true, decide_eq_true_eq, Bool.not_eq_true', decide_eq_false_iff_not] at h
    obtain ⟨⟨h1, h2⟩, h3⟩ := h
    have ih := sparseWfFrom_filterMap d f hf t (b+1) h3
    rw [List.filterMap_cons]
    cases hfe : f (b, w) with
    | none => exact sparseWfFrom_mono d _ lo (b+1) (by omega) ih
    | some r =>
      obtain ⟨c, x⟩ := r
      have := hf _ _ hfe
      simp only at this
      obtain ⟨rfl, h5⟩ := this
      have h6 : x ≠ d c := by
        rcases h5 with h5 | h5
        · exact h5
        · cases h5; exact h2
      simp [sparseWfFrom, h1, h6, ih]

theorem sparseWf_drop {α} [DecidableEq α] (d : Nat → α) (l : List (Nat × α)) (lo hi : Nat) (h : sparseWf d l = true) : sparseWf d (sparseDrop l lo hi) = true := by
  unfold sparseDrop
  rw [← List.filterMap_eq_filter]
  refine sparseWfFrom_filterMap d _ ?_ l 0 h
  intro e r hr
  simp only [Option.guard] at hr
  split at hr <;> simp_all

theorem sparseWf_filter {α} [DecidableEq α] (d : Nat → α) (l : List (Nat × α)) (f : Nat × α → Bool) (h : sparseWf d l = true) : sparseWf d (l.filter f) = true := by
  rw [← List.filterMap_eq_filter]
  refine sparseWfFrom_filterMap d _ ?_ l 0 h
  intro e r hr
  simp only [Option.guard] at hr
  split at hr <;> simp_all

theorem sparseWf_keep {α} [DecidableEq α] (d : Nat → α) (f : Nat → α → Option α) (l : List (Nat × α)) (h : sparseWf d l = true) : sparseWf d (sparseKeep d f l) = true := by
  unfold sparseKeep
  refine sparseWfFrom_filterMap d _ ?_ l 0 h
  intro e r hr
  split at hr
  · split at hr
    · cases hr
    · cases hr; exact ⟨rfl, .inl ‹_›⟩
  · cases hr

end Sys2Proof.Machine
end

