-- ==== Sys2Proof/Laws/Kept.lean ====
section
/-!
SUPPORT. The canonical form and the queue, kept by the shared updates.
-/

set_option Elab.async false

namespace Sys2Proof.Machine

open Sys2Proof

/-- The canonical form holds and the queue is `Q`. -/
def Kept (Q : List Instr) (s : State) : Prop := s.canonical ∧ s.pending = Q

/-- Where a command answers a next state, that state keeps the canonical form and the queue. -/
def KeptRes (Q : List Instr) (r : Res) : Prop := ∀ t, r = .next t → Kept Q t

theorem KeptRes_next {Q s} (h : Kept Q s) : KeptRes Q (.next s) := by
  intro t ht; cases ht; exact h

theorem KeptRes_fault {Q f} : KeptRes Q (.fault f) := by
  intro t ht; cases ht

theorem Kept_foldl {Q} {α} {f : State → α → State} {l : List α} {s : State} (hf : ∀ s x, Kept Q s → Kept Q (f s x)) (h : Kept Q s) : Kept Q (l.foldl f s) := by
  induction l generalizing s with
  | nil => exact h
  | cons a t ih => exact ih (hf _ _ h)

theorem Kept_foldl2 {Q} {α β} {f : β × State → α → β × State} {l : List α} {s : β × State} (hf : ∀ s x, Kept Q s.2 → Kept Q (f s x).2) (h : Kept Q s.2) : Kept Q (l.foldl f s).2 := by
  induction l generalizing s with
  | nil => exact h
  | cons a t ih => exact ih (hf _ _ h)

theorem Kept_upd {Q : List Instr} {s t : State} (h : Kept Q s) (h1 : t.regs = s.regs) (h2 : t.mem = s.mem) (h3 : t.hostMem = s.hostMem)
    (h4 : t.pending = s.pending) : Kept Q t := by
  unfold Kept State.canonical at *; rw [h1, h2, h3, h4]; exact h

theorem Kept_ite {Q : List Instr} {c : Prop} [Decidable c] {s t : State} (hs : Kept Q s) (ht : Kept Q t) : Kept Q (if c then s else t) := by
  by_cases h : c
  · rw [if_pos h]; exact hs
  · rw [if_neg h]; exact ht

theorem KeptRes_ite {Q : List Instr} {c : Prop} [Decidable c] {s t : Res} (hs : KeptRes Q s) (ht : KeptRes Q t) : KeptRes Q (if c then s else t) := by
  by_cases h : c
  · rw [if_pos h]; exact hs
  · rw [if_neg h]; exact ht

theorem Kept_ite2 {Q : List Instr} {α : Type} {c : Prop} [Decidable c] {s t : α × State} (hs : Kept Q s.2) (ht : Kept Q t.2) : Kept Q (if c then s else t).2 := by
  by_cases h : c
  · rw [if_pos h]; exact hs
  · rw [if_neg h]; exact ht

theorem Kept_mk {Q : List Instr} {s : State} {a0 a1 a2 a3 a4 a5 a6 a7 a8 a9 a10 a11 a12 a13 a14 a15 a16 a17 a18 a19 a20 a21 a22 a23 a24 a25 a26 a27 a28 a29 a30 a31 a32 a33 a34 a35 a36}
    (h : Kept Q s) :
    Kept Q ⟨s.regs, s.mem, s.hostMem, a0, a1, a2, a3, a4, a5, a6, a7, a8, a9, a10, a11, a12, a13, a14, a15, a16, a17, a18, a19, a20, a21, a22, a23, a24, a25, a26, a27, a28, a29, a30, a31, a32, a33, a34, a35, a36, s.pending⟩ := h

theorem Kept_pair {Q : List Instr} {α : Type} {a : α} {s : State} (h : Kept Q s) : Kept Q (a, s).2 := h

theorem wr_kept {Q s p o v} (h : Kept Q s) : Kept Q (wr s p o v) := ⟨⟨sparseWf_set _ _ _ _ h.1.1, h.1.2⟩, h.2⟩

theorem resetRegs_kept {Q s p o v} (h : Kept Q s) : Kept Q (resetRegs s p o v) := ⟨⟨sparseWf_drop _ _ _ _ h.1.1, h.1.2⟩, h.2⟩

theorem clearMem_kept {Q s o v} (h : Kept Q s) : Kept Q (clearMem s o v) := ⟨⟨h.1.1, sparseWf_drop _ _ _ _ h.1.2.1, h.1.2.2⟩, h.2⟩

theorem writeBytes_kept {Q s a b} (h : Kept Q s) : Kept Q (writeBytes s a b) := ⟨⟨h.1.1, sparseWf_put _ _ _ _ h.1.2.1, h.1.2.2⟩, h.2⟩

theorem writeHost_kept {Q s a b} (h : Kept Q s) : Kept Q (writeHost s a b) := ⟨⟨h.1.1, h.1.2.1, sparseWf_put _ _ _ _ h.1.2.2⟩, h.2⟩

end Sys2Proof.Machine
end

