-- ==== Sys2Proof/Laws/KeptOps.lean ====
section
/-!
SUPPORT. What Machine/Ops.lean does keeps the canonical form and the queue.
-/

set_option Elab.async false

namespace Sys2Proof.Machine

open Sys2Proof

theorem wf_kept {Q : List Instr} {s : State} {p off lo n v : Nat} (hs : Kept Q s) :
    Kept Q (wf s p off lo n v) := by
  unfold wf
  grind [wr_kept, Kept_mk]

theorem wb_kept {Q : List Instr} {s : State} {p off i : Nat} {b : Bool} (hs : Kept Q s) :
    Kept Q (wb s p off i b) := by
  unfold wb
  grind [wf_kept, Kept_mk]

theorem addReg_kept {Q : List Instr} {s : State} {p off n : Nat} (hs : Kept Q s) :
    Kept Q (addReg s p off n) := by
  unfold addReg
  grind [wr_kept, Kept_mk]

theorem wrWords_kept {Q : List Instr} {s : State} {p : Nat} {a0 : Nat} {a1 : List Word} (hs : Kept Q s) :
    Kept Q (wrWords s p a0 a1) := by
  fun_induction wrWords <;> grind [wr_kept, Kept, State.canonical]

theorem emit_kept {Q : List Instr} {s : State} {o : Out} (hs : Kept Q s) :
    Kept Q (emit s o) := by
  unfold emit
  refine Kept_upd (s := s) ?_ rfl rfl rfl rfl
  assumption

theorem draw_kept {Q : List Instr} {s : State} (hs : Kept Q s) :
    Kept Q (draw s).2 := by
  unfold draw
  grind [Kept_mk]

theorem hostWrites_kept {Q : List Instr} {s : State} {l : List (Nat × Byte)} (hs : Kept Q s) :
    Kept Q (hostWrites s l) := by
  unfold hostWrites
  refine Kept_foldl (fun s0 x1 hs0 => ?_) ?_
  · grind [writeHost_kept, Kept_foldl2, Kept_mk]
  · assumption

theorem rawEvt_kept {Q : List Instr} {s : State} {p b : Nat} (hs : Kept Q s) :
    Kept Q (rawEvt s p b) := by
  unfold rawEvt
  grind [wb_kept, Kept_mk]

theorem sendPme_kept {Q : List Instr} {s : State} {rising : Nat} (hs : Kept Q s) :
    Kept Q (sendPme s rising) := by
  unfold sendPme
  refine Kept_foldl (fun s0 x1 hs0 => ?_) ?_
  · extract_lets l2
    clear_value l2
    split
    · split
      · grind [emit_kept, Kept_foldl2, Kept_mk]
      · assumption
    · assumption
  · assumption

theorem updWire_kept {Q : List Instr} {s : State} (hs : Kept Q s) :
    Kept Q (updWire s) := by
  unfold updWire
  extract_lets l0 l1 l2 l3 l4 l5 l6 l7
  clear_value l0 l1 l2
  have hl3 : Kept Q l3 := by
    grind [sendPme_kept, emit_kept, Kept_mk]
  clear_value l3 l4 l5
  have hl6 : Kept Q l6 := by
    grind [sendPme_kept, emit_kept, Kept_mk]
  clear_value l6 l7
  grind [sendPme_kept, emit_kept, Kept_mk]

theorem queueIbi_kept {Q : List Instr} {s : State} {b : Nat} (hs : Kept Q s) :
    Kept Q (queueIbi s b) := by
  unfold queueIbi
  extract_lets l0
  clear_value l0
  split
  · refine Kept_upd (s := s) ?_ rfl rfl rfl rfl
    assumption
  · assumption

theorem evrErr_kept {Q : List Instr} {s : State} {code : Nat} (hs : Kept Q s) :
    Kept Q (evrErr s code) := by
  unfold evrErr
  extract_lets l0 l1 l2 l3
  have hl0 : Kept Q l0 := by
    grind [addReg_kept, wb_kept, wr_kept, rawEvt_kept, updWire_kept, Kept_mk]
  clear_value l0
  have hl1 : Kept Q l1 := by
    grind [addReg_kept, wb_kept, wr_kept, rawEvt_kept, updWire_kept, Kept_mk]
  clear_value l1
  have hl2 : Kept Q l2 := by
    grind [addReg_kept, wb_kept, wr_kept, rawEvt_kept, updWire_kept, Kept_mk]
  clear_value l2 l3
  grind [addReg_kept, wb_kept, wr_kept, rawEvt_kept, updWire_kept, Kept_mk]

theorem genWrite_kept {Q : List Instr} {s : State} {e : Entry} (hs : Kept Q s) :
    Kept Q (genWrite s e) := by
  unfold genWrite
  extract_lets l0 l1 l2 l3
  clear_value l0
  have hl1 : Kept Q l1 := by
    grind [wf_kept, evrErr_kept, rawEvt_kept, wb_kept, wr_kept, addReg_kept, Kept_mk]
  clear_value l1
  have hl2 : Kept Q l2 := by
    grind [wf_kept, evrErr_kept, rawEvt_kept, wb_kept, wr_kept, addReg_kept, Kept_mk]
  clear_value l2
  have hl3 : Kept Q l3 := by
    grind [wf_kept, evrErr_kept, rawEvt_kept, wb_kept, wr_kept, addReg_kept, Kept_mk]
  clear_value l3
  grind [wf_kept, evrErr_kept, rawEvt_kept, wb_kept, wr_kept, addReg_kept, Kept_mk]

theorem audit_kept {Q : List Instr} {s : State} {code : Nat} {snaps : List Word} (hs : Kept Q s) :
    Kept Q (audit s code snaps) := by
  unfold audit
  extract_lets l0 l1 l2 l3 l4
  clear_value l0 l1 l2
  have hl3 : Kept Q l3 := by
    grind [wr_kept, evrErr_kept, rawEvt_kept, addReg_kept, Kept_mk]
  clear_value l3
  have hl4 : Kept Q l4 := by
    grind [wr_kept, evrErr_kept, rawEvt_kept, addReg_kept, Kept_mk]
  clear_value l4
  grind [wr_kept, evrErr_kept, rawEvt_kept, addReg_kept, Kept_mk]

theorem systemEntry_kept {Q : List Instr} {s : State} {code page : Nat} {snaps : List Word} (hs : Kept Q s) :
    Kept Q (systemEntry s code page snaps) := by
  unfold systemEntry
  grind [genWrite_kept, Kept_mk]

theorem fireTrigger_kept {Q : List Instr} {s : State} {t : Nat} (hs : Kept Q s) :
    Kept Q (fireTrigger s t) := by
  unfold fireTrigger
  extract_lets l0
  clear_value l0
  grind [genWrite_kept, Kept_mk]

theorem fireTriggers_kept {Q : List Instr} {s : State} {p b : Nat} (hs : Kept Q s) :
    Kept Q (fireTriggers s p b) := by
  unfold fireTriggers
  refine Kept_foldl (fun s0 x1 hs0 => ?_) ?_
  · extract_lets l2
    clear_value l2
    grind [fireTrigger_kept, Kept_foldl2, Kept_mk]
  · assumption

theorem raiseEvt_kept {Q : List Instr} {s : State} {p b : Nat} (hs : Kept Q s) :
    Kept Q (raiseEvt s p b) := by
  unfold raiseEvt
  grind [updWire_kept, fireTriggers_kept, rawEvt_kept, Kept_mk]

theorem countErrorAt_kept {Q : List Instr} {s : State} {p code status cls : Nat} {ctx : Option Nat} {origin : Nat} (hs : Kept Q s) :
    Kept Q (countErrorAt s p code status cls ctx origin) := by
  unfold countErrorAt
  extract_lets l0 l1 l2 l3
  have hl0 : Kept Q l0 := by
    grind [addReg_kept, wb_kept, wr_kept, raiseEvt_kept, Kept_mk]
  clear_value l0
  have hl1 : Kept Q l1 := by
    grind [addReg_kept, wb_kept, wr_kept, raiseEvt_kept, Kept_mk]
  clear_value l1 l2
  have hl3 : Kept Q l3 := by
    grind [addReg_kept, wb_kept, wr_kept, raiseEvt_kept, Kept_mk]
  clear_value l3
  grind [addReg_kept, wb_kept, wr_kept, raiseEvt_kept, Kept_mk]

theorem countError_kept {Q : List Instr} {s : State} {p code status cls : Nat} {ctx : Option Nat} (hs : Kept Q s) :
    Kept Q (countError s p code status cls ctx) := by
  unfold countError
  grind [countErrorAt_kept, Kept_mk]

theorem reject_kept {Q : List Instr} {s : State} {p : Nat} (hs : Kept Q s) :
    Kept Q (reject s p) := by
  unfold reject
  grind [raiseEvt_kept, addReg_kept, Kept_mk]

theorem setState_kept {Q : List Instr} {s : State} {p st : Nat} (hs : Kept Q s) :
    Kept Q (setState s p st) := by
  unfold setState
  grind [raiseEvt_kept, wf_kept, Kept_mk]

theorem pageUp_kept {Q : List Instr} {s : State} {p : Nat} (hs : Kept Q s) :
    Kept Q (pageUp s p) := by
  unfold pageUp
  extract_lets l0
  have hl0 : Kept Q l0 := by
    grind [wb_kept, setState_kept, Kept_mk]
  clear_value l0
  grind [wb_kept, setState_kept, Kept_mk]

theorem clearEvts_kept {Q : List Instr} {s : State} {p : Nat} {m : Word} (hs : Kept Q s) :
    Kept Q (clearEvts s p m) := by
  unfold clearEvts
  grind [updWire_kept, wr_kept, Kept_mk]

theorem withWrite_kept {Q : List Instr} {s : State} {fn p off : Nat} {k : State → State} (hs : Kept Q s) (hk : ∀ y0, Kept Q y0 → Kept Q (k y0)) :
    Kept Q (withWrite s fn p off k) := by
  unfold withWrite
  grind [reject_kept, Kept_mk]

theorem withOperator_kept {Q : List Instr} {s : State} {fn p off : Nat} {k : State → State} (hs : Kept Q s) (hk : ∀ y0, Kept Q y0 → Kept Q (k y0)) :
    Kept Q (withOperator s fn p off k) := by
  unfold withOperator
  grind [withWrite_kept, reject_kept, Kept_mk]

theorem guarded_kept {Q : List Instr} {s : State} {p : Nat} {ok : Bool} {k : State → State} (hs : Kept Q s) (hk : ∀ y0, Kept Q y0 → Kept Q (k y0)) :
    Kept Q (guarded s p ok k) := by
  unfold guarded
  grind [reject_kept, Kept_mk]

theorem setPart_kept {Q : List Instr} {s : State} {k st : Nat} (hs : Kept Q s) :
    Kept Q (setPart s k st) := by
  unfold setPart
  grind [raiseEvt_kept, wf_kept, Kept_mk]

theorem setSeal_kept {Q : List Instr} {s : State} {k : Nat} {b : Bool} (hs : Kept Q s) :
    Kept Q (setSeal s k b) := by
  unfold setSeal
  grind [raiseEvt_kept, wb_kept, Kept_mk]

theorem updIso_kept {Q : List Instr} {s : State} (hs : Kept Q s) :
    Kept Q (updIso s) := by
  unfold updIso
  refine Kept_foldl (fun s0 x1 hs0 => ?_) ?_
  · extract_lets l2
    clear_value l2
    grind [raiseEvt_kept, wf_kept, Kept_foldl2, Kept_mk]
  · assumption

theorem resetPageRegs_kept {Q : List Instr} {s : State} {p : Nat} (hs : Kept Q s) :
    Kept Q (resetPageRegs s p) := by
  unfold resetPageRegs
  split
  · assumption
  · refine Kept_foldl (fun s0 x1 hs0 => ?_) ?_
    · grind [wr_kept, Kept_foldl2, Kept_mk]
    · assumption

end Sys2Proof.Machine
end

