-- ==== Sys2Proof/Laws/Regs.lean ====
section
/-!
SUPPORT. Reading back registers, fields and bytes of memory after a write.
-/

set_option Elab.async false

namespace Sys2Proof.Machine

open Sys2Proof

/-! ### Sparse maps -/

theorem sparseGet_below {α} [DecidableEq α] (d : Nat → α) :
    ∀ (l : List (Nat × α)) (lo a : Nat), sparseWfFrom d lo l = true → a < lo → sparseGet d l a = d a
  | [], _, _, _, _ => rfl
  | (b, v) :: t, lo, a, h, ha => by
    simp only [sparseWfFrom, Bool.and_eq_true, decide_eq_true_eq] at h
    have h1 : a < b := by omega
    simp [sparseGet, h1, Nat.ne_of_lt h1]

theorem sparseGet_setFrom {α} [DecidableEq α] (d : Nat → α) (a x : Nat) (v : α) :
    ∀ (l : List (Nat × α)) (lo : Nat), sparseWfFrom d lo l = true →
      sparseGet d (sparseSet d l a v) x = if x = a then v else sparseGet d l x
  | [], lo, _ => by
    by_cases h : v = d a <;> by_cases hx : x = a <;> simp_all [sparseSet, sparseGet]
  | (b, w) :: t, lo, h => by
    have h' := h
    simp only [sparseWfFrom, Bool.and_eq_true, decide_eq_true_eq] at h'
    obtain ⟨⟨h1, h2⟩, h3⟩ := h'
    have ih := sparseGet_setFrom d a x v t (b + 1) h3
    have hb := sparseGet_below d t (b + 1) x h3
    simp only [sparseSet]
    split
    · rename_i hab
      by_cases hv : v = d a
      · rw [if_pos hv]
        by_cases hx : x = a
        · subst hx; simp [sparseGet, hab, Nat.ne_of_lt hab, hv]
        · rw [if_neg hx]
      · rw [if_neg hv]
        by_cases hx : x = a
        · simp [sparseGet, hx]
        · rw [if_neg hx, sparseGet, if_neg hx]
          by_cases hlt : x < a
          · have : x < b := by omega
            simp [sparseGet, hlt, this, Nat.ne_of_lt this]
          · rw [if_neg hlt]
    · rename_i hab
      split
      · rename_i hab'
        subst hab'
        by_cases hv : v = d a
        · rw [if_pos hv]
          by_cases hx : x = a
          · subst hx; rw [if_pos rfl, hv]; exact hb (by omega)
          · rw [if_neg hx]
            simp only [sparseGet, if_neg hx]
            by_cases hlt : x < a
            · rw [if_pos hlt]; exact hb (by omega)
            · rw [if_neg hlt]
        · rw [if_neg hv]
          by_cases hx : x = a
          · simp [sparseGet, hx]
          · simp [sparseGet, hx]
      · rename_i hne
        simp only [sparseGet, ih]
        by_cases hx : x = a
        · subst hx
          simp [hab, hne]
        · simp [hx]

theorem sparseGet_set_same {α} [DecidableEq α] (d : Nat → α) (l : List (Nat × α)) (a : Nat) (v : α)
    (h : sparseWf d l = true) : sparseGet d (sparseSet d l a v) a = v := by
  rw [sparseGet_setFrom d a a v l 0 h, if_pos rfl]

theorem sparseGet_set_other {α} [DecidableEq α] (d : Nat → α) (l : List (Nat × α)) (a x : Nat) (v : α)
    (h : sparseWf d l = true) (hx : x ≠ a) : sparseGet d (sparseSet d l a v) x = sparseGet d l x := by
  rw [sparseGet_setFrom d a x v l 0 h, if_neg hx]

theorem sparseGet_put {α} [DecidableEq α] (d : Nat → α) (x : Nat) :
    ∀ (vs : List α) (l : List (Nat × α)) (a : Nat), sparseWf d l = true →
      sparseGet d (sparsePut d l a vs) x =
        if h : a ≤ x ∧ x < a + vs.length then vs[x - a]'(by omega) else sparseGet d l x
  | [], l, a, _ => by
    have h : ¬(a ≤ x ∧ x < a + ([] : List α).length) := by simp only [List.length_nil]; omega
    rw [dif_neg h]; rfl
  | v :: t, l, a, h => by
    rw [sparsePut, sparseGet_put d x t _ (a + 1) (sparseWf_set d l a v h)]
    by_cases hx : x = a
    · subst hx
      have h1 : ¬(x + 1 ≤ x ∧ x < x + 1 + t.length) := by omega
      have h2 : x ≤ x ∧ x < x + (v :: t).length := by simp only [List.length_cons]; omega
      rw [dif_neg h1, dif_pos h2, sparseGet_set_same d l x v h]
      simp
    · by_cases h1 : a + 1 ≤ x ∧ x < a + 1 + t.length
      · have h2 : a ≤ x ∧ x < a + (v :: t).length := by simp only [List.length_cons]; omega
        rw [dif_pos h1, dif_pos h2]
        have e : x - a = x - (a + 1) + 1 := by omega
        simp only [e, List.getElem_cons_succ]
      · have h2 : ¬(a ≤ x ∧ x < a + (v :: t).length) := by simp only [List.length_cons]; omega
        rw [dif_neg h1, dif_neg h2, sparseGet_set_other d l a x v h hx]

/-! ### Bytes of memory -/

theorem readMem_writeBytes {s : State} (h : s.canonical) (a x : Nat) (b : Bytes) :
    readMem (writeBytes s a b) x = if h : a ≤ x ∧ x < a + b.length then b[x - a]'(by omega) else readMem s x :=
  sparseGet_put memZero x b s.mem a h.2.1

theorem readMem_writeBytes_outside {s : State} (h : s.canonical) {a x : Nat} {b : Bytes}
    (hx : ¬(a ≤ x ∧ x < a + b.length)) : readMem (writeBytes s a b) x = readMem s x := by
  rw [readMem_writeBytes h, dif_neg hx]

/-! ### Fields of a word -/

theorem testBit_fld (w : Word) (lo n i : Nat) : (fld w lo n).testBit i = (decide (i < n) && w.getLsbD (lo + i)) := by
  simp [fld, Nat.testBit_mod_two_pow, Nat.testBit_shiftRight, BitVec.getLsbD]

theorem getLsbD_setFld (w : Word) (lo n v i : Nat) (hi : i < 64) :
    (setFld w lo n v).getLsbD i = if lo ≤ i ∧ i < lo + n then v.testBit (i - lo) else w.getLsbD i := by
  simp only [setFld, fldMask, BitVec.getLsbD_or, BitVec.getLsbD_and, BitVec.getLsbD_not, BitVec.getLsbD_ofNat,
    Nat.testBit_shiftLeft, Nat.testBit_mod_two_pow, Nat.testBit_two_pow_sub_one, hi, decide_true, Bool.true_and]
  by_cases h : lo ≤ i <;> by_cases h2 : i < lo + n
  · have h3 : i - lo < n := by omega
    simp [h, h2, h3]
  · have h3 : ¬ i - lo < n := by omega
    simp [h2, h3]
  · simp [h]
  · simp [h, h2]

theorem fld_setFld_same (w : Word) (lo n v : Nat) (h : lo + n ≤ 64) : fld (setFld w lo n v) lo n = v % 2 ^ n := by
  apply Nat.eq_of_testBit_eq
  intro i
  rw [testBit_fld, Nat.testBit_mod_two_pow]
  by_cases hi : i < n
  · rw [getLsbD_setFld _ _ _ _ _ (by omega), if_pos ⟨by omega, by omega⟩, Nat.add_sub_cancel_left]
  · simp [hi]

theorem fld_setFld_other (w : Word) (lo n v lo' n' : Nat) (h : lo' + n' ≤ lo ∨ lo + n ≤ lo') (h64 : lo' + n' ≤ 64) :
    fld (setFld w lo n v) lo' n' = fld w lo' n' := by
  apply Nat.eq_of_testBit_eq
  intro i
  rw [testBit_fld, testBit_fld]
  by_cases hi : i < n'
  · rw [getLsbD_setFld _ _ _ _ _ (by omega), if_neg (by omega)]
  · simp [hi]

theorem bit_setFld_same (w : Word) (i : Nat) (b : Bool) (h : i < 64) : bit (setFld w i 1 b.toNat) i = b := by
  unfold bit
  rw [getLsbD_setFld _ _ _ _ _ h, if_pos ⟨Nat.le_refl _, by omega⟩, Nat.sub_self]
  cases b <;> rfl

theorem bit_setFld_other (w : Word) (lo n v i : Nat) (h : i < lo ∨ lo + n ≤ i) (hi : i < 64) :
    bit (setFld w lo n v) i = bit w i := by
  unfold bit
  rw [getLsbD_setFld _ _ _ _ _ hi, if_neg (by omega)]

/-! ### Registers -/

theorem regAddr_inj {p off q o : Nat} (h : off < 0x10000) (h' : o < 0x10000) :
    regAddr p off = regAddr q o ↔ p = q ∧ off = o := by
  unfold regAddr; omega

theorem rd_wr_same {s : State} (h : s.canonical) (p off : Nat) (v : Word) : rd (wr s p off v) p off = v :=
  sparseGet_set_same regReset s.regs _ v h.1

theorem rd_wr_other {s : State} (h : s.canonical) {p off q o : Nat} (v : Word) (h1 : off < 0x10000) (h2 : o < 0x10000)
    (hne : ¬(q = p ∧ o = off)) : rd (wr s p off v) q o = rd s q o :=
  sparseGet_set_other regReset s.regs _ _ v h.1 (by rw [Ne, regAddr_inj h2 h1]; exact hne)

theorem rf_wf_same {s : State} (h : s.canonical) (p off lo n v : Nat) (h64 : lo + n ≤ 64) :
    rf (wf s p off lo n v) p off lo n = v % 2 ^ n := by
  rw [rf, wf, rd_wr_same h, fld_setFld_same _ _ _ _ h64]

theorem rf_wf_other {s : State} (h : s.canonical) (p off lo n v lo' n' : Nat) (hd : lo' + n' ≤ lo ∨ lo + n ≤ lo')
    (h64 : lo' + n' ≤ 64) : rf (wf s p off lo n v) p off lo' n' = rf s p off lo' n' := by
  rw [rf, wf, rd_wr_same h, fld_setFld_other _ _ _ _ _ _ hd h64]; rfl

theorem rb_wf_other {s : State} (h : s.canonical) (p off lo n v i : Nat) (hd : i < lo ∨ lo + n ≤ i) (hi : i < 64) :
    rb (wf s p off lo n v) p off i = rb s p off i := by
  rw [rb, wf, rd_wr_same h, bit_setFld_other _ _ _ _ _ hd hi]; rfl

theorem rb_wb_same {s : State} (h : s.canonical) (p off i : Nat) (b : Bool) (hi : i < 64) :
    rb (wb s p off i b) p off i = b := by
  rw [rb, wb, wf, rd_wr_same h, bit_setFld_same _ _ _ hi]

theorem rb_wb_other {s : State} (h : s.canonical) (p off i j : Nat) (b : Bool) (hne : j ≠ i) (hj : j < 64) :
    rb (wb s p off i b) p off j = rb s p off j :=
  rb_wf_other h p off i 1 b.toNat j (by omega) hj

end Sys2Proof.Machine
end

