-- ==== Sys2Proof/Laws/Frame.lean ====
section
/-!
SUPPORT. What the shared operations leave as it was: events, errors, rejections and page states.
-/

set_option Elab.async false

namespace Sys2Proof.Machine

open Sys2Proof

theorem State.canonical.kept {s : State} (h : s.canonical) : Kept s.pending s := ⟨h, rfl⟩

theorem SameBut.refl (q : Nat → Nat → Prop) (s : State) : SameBut q s s :=
  ⟨fun _ _ _ _ _ => rfl, rfl, rfl, rfl, rfl, rfl, rfl, List.prefix_refl _⟩

theorem SameBut.trans {q r : Nat → Nat → Prop} {s t u : State} (h : SameBut q s t) (k : SameBut r t u) :
    SameBut (fun p o => q p o ∨ r p o) s u where
  regs p off h1 h2 h3 := by
    rw [k.regs p off h1 h2 (fun x => h3 (.inr x)), h.regs p off h1 h2 (fun x => h3 (.inl x))]
  rest := by rw [k.rest, h.rest]
  pcie := by rw [h.pcie, k.pcie]
  cfg := by rw [k.cfg, h.cfg]
  board := by rw [h.board, k.board]
  evr := by rw [h.evr, k.evr]
  err := by rw [h.err, k.err]
  out := h.out.trans k.out

theorem SameBut.mono {q r : Nat → Nat → Prop} {s t : State} (h : SameBut q s t) (hq : ∀ p o, q p o → r p o) :
    SameBut r s t :=
  { h with regs := fun p off h1 h2 h3 => h.regs p off h1 h2 (fun x => h3 (hq _ _ x)) }

theorem SameBut.trans' {q : Nat → Nat → Prop} {s t u : State} (h : SameBut q s t) (k : SameBut q t u) : SameBut q s u :=
  (h.trans k).mono (fun _ _ x => x.elim id id)

theorem SameBut.none {q : Nat → Nat → Prop} {s t : State} (h : SameBut noReg s t) : SameBut q s t := h.mono (fun _ _ x => x.elim)

/-- A register that only marks of events. -/
theorem SameBut.of_regs {s t : State} {q : Nat → Nat → Prop} (h : t = { s with regs := t.regs })
    (hr : ∀ p off, off < 0x10000 → ¬ evtReg p off → ¬ q p off → rd t p off = rd s p off) : SameBut q s t := by
  refine ⟨hr, ?_, ?_, ?_, ?_, ?_, ?_, ?_⟩ <;> rw [h]

theorem wr_sameBut {s : State} (h : s.canonical) (p off : Nat) (v : Word) (ho : off < 0x10000) :
    SameBut (oneReg p off) s (wr s p off v) :=
  .of_regs rfl (fun _ _ h1 _ h3 => rd_wr_other h v ho h1 h3)

theorem wf_sameBut {s : State} (h : s.canonical) (p off lo n v : Nat) (ho : off < 0x10000) :
    SameBut (oneReg p off) s (wf s p off lo n v) := wr_sameBut h p off _ ho

theorem wb_sameBut {s : State} (h : s.canonical) (p off i : Nat) (b : Bool) (ho : off < 0x10000) :
    SameBut (oneReg p off) s (wb s p off i b) := wr_sameBut h p off _ ho

theorem addReg_sameBut {s : State} (h : s.canonical) (p off n : Nat) (ho : off < 0x10000) :
    SameBut (oneReg p off) s (addReg s p off n) := wr_sameBut h p off _ ho

theorem SameBut.marks {s t : State} {p off : Nat} (h : SameBut (oneReg p off) s t) (he : evtReg p off) : SameBut noReg s t :=
  { h with regs := fun q o h1 h2 _ => h.regs q o h1 h2 (fun x => h2 (by obtain ⟨rfl, rfl⟩ := x; exact he)) }

theorem emit_sameBut (s : State) (o : Out) : SameBut noReg s (emit s o) :=
  ⟨fun _ _ _ _ _ => rfl, rfl, rfl, rfl, rfl, rfl, rfl, List.prefix_append _ _⟩

theorem sameBut_foldl {α} {q : Nat → Nat → Prop} {f : State → α → State} (l : List α) {s : State} (h : s.canonical)
    (hk : ∀ s x, s.canonical → (f s x).canonical) (hf : ∀ s x, s.canonical → SameBut q s (f s x)) :
    SameBut q s (l.foldl f s) := by
  induction l generalizing s with
  | nil => exact .refl _ _
  | cons a t ih => exact (hf s a h).trans' (ih (hk s a h))

theorem map_withoutPme_set (l : List CfgFn) (f : Nat) (c : CfgFn) (hc : l[f]? = some c) :
    (l.set f { c with pmeStatus := true }).map withoutPme = l.map withoutPme := by
  simp only [List.map_set]
  apply List.ext_getElem?
  intro i
  rw [List.getElem?_set]
  split
  · rename_i hi
    subst hi
    split
    · simp only [List.getElem?_map, hc]; rfl
    · rename_i hl
      simp only [List.length_map] at hl
      rw [List.getElem?_eq_none (by simpa using hl)]
  · rfl

theorem sendPme_sameBut {s : State} (h : s.canonical) (r : Nat) : SameBut noReg s (sendPme s r) := by
  unfold sendPme
  refine sameBut_foldl _ h (fun s f h => ?_) (fun s f h => ?_)
  · split
    · split
      · exact h
      · exact h
    · exact h
  · split
    · rename_i c hc
      split
      · refine SameBut.trans' (t := { s with pcie := { s.pcie with cfg := s.pcie.cfg.set f { c with pmeStatus := true } } })
          ⟨fun _ _ _ _ _ => rfl, rfl, rfl, ?_, rfl, rfl, rfl, List.prefix_refl _⟩ (emit_sameBut _ _)
        exact map_withoutPme_set _ _ _ hc
      · exact .refl _ _
    · exact .refl _ _

theorem updWire_sameBut {s : State} (h : s.canonical) : SameBut noReg s (updWire s) := by
  unfold updWire
  extract_lets lv rising x s1 wire y s2
  have h0 : SameBut noReg s { s with pcie := { s.pcie with levels := lv } } :=
    ⟨fun _ _ _ _ _ => rfl, rfl, rfl, rfl, rfl, rfl, rfl, List.prefix_refl _⟩
  have h1 : SameBut noReg s s1 := h0.trans' (sendPme_sameBut (s := { s with pcie := { s.pcie with levels := lv } }) h _)
  have h2 : SameBut noReg s1 s2 := by
    unfold s2; split
    · exact .refl _ _
    · refine SameBut.trans' (t := { s1 with pcie := { s1.pcie with wire := wire } }) ?_ (emit_sameBut _ _)
      exact ⟨fun _ _ _ _ _ => rfl, rfl, rfl, rfl, rfl, rfl, rfl, List.prefix_refl _⟩
  refine (h1.trans' h2).trans' ?_
  split
  · exact ⟨fun _ _ _ _ _ => rfl, rfl, rfl, rfl, rfl, rfl, rfl, List.prefix_refl _⟩
  · exact .refl _ _

theorem evrErr_sameBut {s : State} (h : s.canonical) (code : Nat) : SameBut noReg s (evrErr s code) := by
  unfold evrErr
  extract_lets s1 s2 s3
  have h1 : SameBut noReg s s1 := (addReg_sameBut h _ _ _ (by decide)).marks (.inr ⟨rfl, by simp⟩)
  have k1 : s1.canonical := (addReg_kept h.kept).1
  have h2 : SameBut noReg s1 s2 := by
    unfold s2; split
    · exact (wb_sameBut k1 _ _ _ _ (by decide)).marks (.inr ⟨rfl, by simp⟩)
    · exact (wr_sameBut k1 _ _ _ (by decide)).marks (.inr ⟨rfl, by simp⟩)
  have k2 : s2.canonical := (Kept_ite (wb_kept k1.kept) (wr_kept k1.kept)).1
  have h3 : SameBut noReg s2 s3 := (wb_sameBut k2 _ _ _ _ (by decide)).marks (.inl rfl)
  have k3 : s3.canonical := (rawEvt_kept k2.kept).1
  refine (h1.trans' (h2.trans' h3)).trans' ?_
  refine SameBut.trans' ?_ (updWire_sameBut ?_)
  · exact ⟨fun _ _ _ _ _ => rfl, rfl, rfl, rfl, rfl, rfl, rfl, List.prefix_refl _⟩
  · exact k3

theorem rawEvt_sameBut {s : State} (h : s.canonical) (p b : Nat) : SameBut noReg s (rawEvt s p b) :=
  (wb_sameBut h p _ b true (by decide)).marks (.inl rfl)

theorem genWrite_sameBut {s : State} (h : s.canonical) (e : Entry) : SameBut noReg s (genWrite s e) := by
  unfold genWrite
  split
  · extract_lets x s1 s2
    have h1 : SameBut noReg s s1 := ⟨fun _ _ _ _ _ => rfl, rfl, rfl, rfl, rfl, rfl, rfl, List.prefix_refl _⟩
    have k1 : s1.canonical := h
    have h2 : SameBut noReg s1 s2 := (wf_sameBut k1 _ _ _ _ _ (by decide)).marks (.inr ⟨rfl, by simp⟩)
    have k2 : s2.canonical := (wf_kept k1.kept).1
    refine (h1.trans' h2).trans' ?_
    split
    · have h3 : SameBut noReg s2 (wb s2 pgEvr Reg.EVR_STAT 31 true) := (wb_sameBut k2 _ _ _ _ (by decide)).marks (.inr ⟨rfl, by simp⟩)
      have k3 : (wb s2 pgEvr Reg.EVR_STAT 31 true).canonical := (wb_kept k2.kept).1
      exact h3.trans' ((rawEvt_sameBut k3 _ _).trans' (evrErr_sameBut (rawEvt_kept k3.kept).1 _))
    · exact .refl _ _
  · extract_lets s1
    have h1 : SameBut noReg s s1 := by
      unfold s1; split
      · exact (wr_sameBut h _ _ _ (by decide)).marks (.inr ⟨rfl, by simp⟩)
      · exact .refl _ _
    have k1 : s1.canonical := by
      unfold s1; split
      · exact (wr_kept h.kept).1
      · exact h
    exact h1.trans' ((addReg_sameBut k1 _ _ _ (by decide)).marks (.inr ⟨rfl, by simp⟩))

theorem fireTriggers_sameBut {s : State} (h : s.canonical) (p b : Nat) : SameBut noReg s (fireTriggers s p b) := by
  unfold fireTriggers
  refine sameBut_foldl _ h (fun s t h => ?_) (fun s t h => ?_)
  · extract_lets v
    by_cases c : (bit v 32 && decide (fld v 0 11 = p) && decide (fld v 16 6 = b)) = true
    · rw [if_pos c]; exact (fireTrigger_kept h.kept).1
    · rw [if_neg c]; exact h
  · extract_lets v
    by_cases c : (bit v 32 && decide (fld v 0 11 = p) && decide (fld v 16 6 = b)) = true
    · rw [if_pos c]; exact genWrite_sameBut h _
    · rw [if_neg c]; exact .refl _ _

/-- An event leaves every register and every piece of state but its marks as it was. -/
theorem raiseEvt_sameBut {s : State} (h : s.canonical) (p b : Nat) : SameBut noReg s (raiseEvt s p b) := by
  unfold raiseEvt
  split
  · exact .refl _ _
  · have k1 := rawEvt_kept (p := p) (b := b) h.kept
    exact (rawEvt_sameBut h p b).trans' ((fireTriggers_sameBut k1.1 p b).trans' (updWire_sameBut (fireTriggers_kept k1).1))

/-- A rejection changes `REJECT_COUNT` alone. -/
theorem reject_sameBut {s : State} (h : s.canonical) (p : Nat) : SameBut (oneReg p Reg.REJECT_COUNT) s (reject s p) :=
  (addReg_sameBut h p _ 1 (by decide)).trans' (raiseEvt_sameBut (addReg_kept h.kept).1 p 63).none

/-- An error changes the two error registers of the page that detects it. -/
theorem countErrorAt_sameBut {s : State} (h : s.canonical) (p code status cls : Nat) (ctx : Option Nat) (origin : Nat) :
    SameBut (fun q o => q = p ∧ (o = Reg.ERR_COUNT ∨ o = Reg.ERR_FIRST)) s (countErrorAt s p code status cls ctx origin) := by
  unfold countErrorAt
  extract_lets s1 s2 x s3
  have h1 : SameBut (fun q o => q = p ∧ (o = Reg.ERR_COUNT ∨ o = Reg.ERR_FIRST)) s s1 :=
    (addReg_sameBut h p _ _ (by decide)).mono (fun _ _ x => ⟨x.1, .inl x.2⟩)
  have k1 : s1.canonical := (addReg_kept h.kept).1
  have h2 : SameBut (fun q o => q = p ∧ (o = Reg.ERR_COUNT ∨ o = Reg.ERR_FIRST)) s1 s2 := by
    unfold s2; split
    · exact (wb_sameBut k1 p _ _ _ (by decide)).mono (fun _ _ x => ⟨x.1, .inr x.2⟩)
    · exact (wr_sameBut k1 p _ _ (by decide)).mono (fun _ _ x => ⟨x.1, .inr x.2⟩)
  have k2 : s2.canonical := (Kept_ite (wb_kept k1.kept) (wr_kept k1.kept)).1
  have h3 : SameBut noReg s2 s3 := ⟨fun _ _ _ _ _ => rfl, rfl, rfl, rfl, rfl, rfl, rfl, List.prefix_refl _⟩
  have k3 : s3.canonical := k2
  exact (h1.trans' h2).trans' (h3.trans' (raiseEvt_sameBut k3 p 62)).none

theorem setState_sameBut {s : State} (h : s.canonical) (p st : Nat) :
    SameBut (oneReg p Reg.PAGE_STAT) s (setState s p st) := by
  unfold setState
  split
  · exact .refl _ _
  · exact (wf_sameBut h p _ 0 4 st (by decide)).trans' (raiseEvt_sameBut (wf_kept h.kept).1 p 61).none

/-! ### Registers that events leave alone -/

theorem SameBut.rd_eq {s t : State} {q : Nat → Nat → Prop} (h : SameBut q s t) {p off : Nat} (h1 : off < 0x10000)
    (h2 : ¬ evtReg p off) (h3 : ¬ q p off) : rd t p off = rd s p off := h.regs p off h1 h2 h3

theorem SameBut.rf_eq {s t : State} {q : Nat → Nat → Prop} (h : SameBut q s t) {p off lo n : Nat} (h1 : off < 0x10000)
    (h2 : ¬ evtReg p off) (h3 : ¬ q p off) : rf t p off lo n = rf s p off lo n := by
  unfold rf; rw [h.regs p off h1 h2 h3]

theorem SameBut.rb_eq {s t : State} {q : Nat → Nat → Prop} (h : SameBut q s t) {p off i : Nat} (h1 : off < 0x10000)
    (h2 : ¬ evtReg p off) (h3 : ¬ q p off) : rb t p off i = rb s p off i := by
  unfold rb; rw [h.regs p off h1 h2 h3]

theorem SameBut.mem_eq {s t : State} {q : Nat → Nat → Prop} (h : SameBut q s t) : t.mem = s.mem := by rw [h.rest]

theorem SameBut.hostMem_eq {s t : State} {q : Nat → Nat → Prop} (h : SameBut q s t) : t.hostMem = s.hostMem := by rw [h.rest]

theorem not_evtReg_pageStat (p : Nat) : ¬ evtReg p Reg.PAGE_STAT := by
  intro h
  rcases h with h | ⟨_, h⟩
  · revert h; decide
  · revert h; decide

/-- A page is in the state it was put into. -/
theorem pageState_setState {s : State} (h : s.canonical) (p st : Nat) (hst : st < 16) : pageState (setState s p st) p = st := by
  unfold setState
  split
  · assumption
  · have e := (raiseEvt_sameBut (wf_kept (p := p) (off := Reg.PAGE_STAT) (lo := 0) (n := 4) (v := st) h.kept).1 p 61)
    unfold pageState
    rw [e.rf_eq (by decide) (not_evtReg_pageStat p) id, rf_wf_same h _ _ _ _ _ (by decide)]
    exact Nat.mod_eq_of_lt hst

end Sys2Proof.Machine
end

