-- ==== Sys2Proof/Laws/KeptStore.lean ====
section
/-!
SUPPORT. What Machine/Store.lean does keeps the canonical form and the queue.
-/

set_option Elab.async false

namespace Sys2Proof.Machine

open Sys2Proof

theorem retirePage_kept {Q : List Instr} {s : State} {m page : Nat} {byUe : Bool} (hs : Kept Q s) :
    Kept Q (retirePage s m page byUe) := by
  unfold retirePage
  extract_lets l0 l1 l2 l3 l4
  clear_value l0 l1 l2 l3
  have hl4 : Kept Q l4 := by
    grind [countError_kept, raiseEvt_kept, wr_kept, Kept_mk]
  clear_value l4
  grind [countError_kept, raiseEvt_kept, wr_kept, Kept_mk]

theorem needRepair_kept {Q : List Instr} {s : State} {m pc q page cause : Nat} (hs : Kept Q s) :
    Kept Q (needRepair s m pc q page cause) := by
  unfold needRepair
  extract_lets l0 l1 l2 l3 l4 l5
  clear_value l0 l1 l2 l3 l4 l5
  split
  · assumption
  · split
    · grind [retirePage_kept, raiseEvt_kept, Kept_mk]
    · extract_lets l6 l7
      clear_value l6
      have hl7 : Kept Q l7 := by
        grind [retirePage_kept, raiseEvt_kept, Kept_mk]
      clear_value l7
      grind [retirePage_kept, raiseEvt_kept, Kept_mk]

theorem mcUe_kept {Q : List Instr} {s : State} {a code : Nat} {ctx : Option Nat} (hs : Kept Q s) :
    Kept Q (mcUe s a code ctx) := by
  unfold mcUe
  split
  · assumption
  · extract_lets l0
    have hl0 : Kept Q l0 := by
      grind [addReg_kept, needRepair_kept, countError_kept, Kept_mk]
    clear_value l0
    grind [addReg_kept, needRepair_kept, countError_kept, Kept_mk]

theorem mcCorr_kept {Q : List Instr} {s : State} {a : Nat} (hs : Kept Q s) :
    Kept Q (mcCorr s a) := by
  unfold mcCorr
  split
  · assumption
  · extract_lets l0 l1 l2 l3 l4 l5 l6 l7 l8
    have hl0 : Kept Q l0 := by
      grind [addReg_kept, needRepair_kept, Kept_foldl2, Kept_mk]
    clear_value l0 l1 l2 l3 l4 l5 l6 l7
    have hl8 : Kept Q l8 := by
      grind [addReg_kept, needRepair_kept, Kept_foldl2, Kept_mk]
    clear_value l8
    grind [addReg_kept, needRepair_kept, Kept_foldl2, Kept_mk]

theorem saveQuayBank_kept {Q : List Instr} {s : State} {k bank : Nat} (hs : Kept Q s) :
    Kept Q (saveQuayBank s k bank) := by
  unfold saveQuayBank
  extract_lets l0 l1
  clear_value l0 l1
  refine Kept_upd (s := s) ?_ rfl rfl rfl rfl
  assumption

theorem needBank_kept {Q : List Instr} {s : State} {k bank : Nat} (hs : Kept Q s) :
    Kept Q (needBank s k bank) := by
  unfold needBank
  extract_lets l0
  clear_value l0
  split
  · assumption
  · split
    · refine Kept_upd (s := s) ?_ rfl rfl rfl rfl
      assumption
    · grind [saveQuayBank_kept, raiseEvt_kept, countError_kept, wb_kept, Kept_mk]

theorem bankFails_kept {Q : List Instr} {s : State} {a : Nat} (hs : Kept Q s) :
    Kept Q (bankFails s a) := by
  unfold bankFails
  grind [needBank_kept, Kept_mk]

theorem quayUe_kept {Q : List Instr} {s : State} {a code : Nat} {ctx : Option Nat} (hs : Kept Q s) :
    Kept Q (quayUe s a code ctx) := by
  unfold quayUe
  grind [bankFails_kept, countError_kept, addReg_kept, Kept_mk]

theorem quayCorr_kept {Q : List Instr} {s : State} {a : Nat} (hs : Kept Q s) :
    Kept Q (quayCorr s a) := by
  unfold quayCorr
  split
  · assumption
  · extract_lets l0 l1 l2 l3
    have hl0 : Kept Q l0 := by
      grind [addReg_kept, needBank_kept, Kept_mk]
    clear_value l0 l1 l2
    have hl3 : Kept Q l3 := by
      grind [addReg_kept, needBank_kept, Kept_mk]
    clear_value l3
    grind [addReg_kept, needBank_kept, Kept_mk]

theorem granuleUe_kept {Q : List Instr} {s : State} {a n g code : Nat} {ctx : Option Nat} (hs : Kept Q s) :
    Kept Q (granuleUe s a n g code ctx) := by
  unfold granuleUe
  extract_lets l0 l1
  clear_value l0 l1
  refine Kept_foldl (fun s2 x3 hs2 => ?_) ?_
  · grind [bankFails_kept, quayUe_kept, mcUe_kept, Kept_foldl2, Kept_mk]
  · grind [bankFails_kept, quayUe_kept, mcUe_kept, Kept_foldl2, Kept_mk]

theorem ueSeen_kept {Q : List Instr} {s : State} {a n code : Nat} {ctx : Option Nat} (hs : Kept Q s) :
    Kept Q (ueSeen s a n code ctx) := by
  unfold ueSeen
  refine Kept_foldl (fun s0 x1 hs0 => ?_) ?_
  · grind [granuleUe_kept, Kept_foldl2, Kept_mk]
  · assumption

theorem countBytes_kept {Q : List Instr} {s : State} {k req a n : Nat} {write : Bool} (hs : Kept Q s) :
    Kept Q (countBytes s k req a n write) := by
  unfold countBytes
  split
  · extract_lets l0
    clear_value l0
    grind [addReg_kept, Kept_mk]
  · grind [addReg_kept, Kept_mk]
  · assumption

theorem spendInject_kept {Q : List Instr} {s : State} {code : Nat} {ctx : Option Nat} {e : Nat × Nat × Nat × Bool × Bool} (hs : Kept Q s) :
    Kept Q (spendInject s code ctx e) := by
  unfold spendInject
  extract_lets l0 l1
  clear_value l0 l1
  split
  · extract_lets l2
    have hl2 : Kept Q l2 := by
      grind [mcUe_kept, mcCorr_kept, quayUe_kept, quayCorr_kept, Kept_mk]
    clear_value l2
    grind [mcUe_kept, mcCorr_kept, quayUe_kept, quayCorr_kept, Kept_mk]
  · extract_lets l3
    have hl3 : Kept Q l3 := by
      grind [mcUe_kept, mcCorr_kept, quayUe_kept, quayCorr_kept, Kept_mk]
    clear_value l3
    grind [mcUe_kept, mcCorr_kept, quayUe_kept, quayCorr_kept, Kept_mk]

theorem meetInject_kept {Q : List Instr} {s : State} {a n code : Nat} {ctx : Option Nat} (hs : Kept Q s) :
    Kept Q (meetInject s a n code ctx).2 := by
  unfold meetInject
  exact Kept_foldl (fun _ _ h => spendInject_kept h) hs

theorem activateRange_kept {Q : List Instr} {s : State} {a n : Nat} (hs : Kept Q s) :
    Kept Q (activateRange s a n) := by
  unfold activateRange
  refine Kept_foldl (fun s0 x1 hs0 => ?_) ?_
  · extract_lets l2
    clear_value l2
    split
    · refine Kept_upd (s := s0) ?_ rfl rfl rfl rfl
      assumption
    · assumption
  · assumption

theorem sense_kept {Q : List Instr} {s : State} {a n code : Nat} {ctx : Option Nat} (hs : Kept Q s) :
    Kept Q (sense s a n code ctx).2 := by
  unfold sense
  refine Kept_ite2 hs (Kept_ite2 (ueSeen_kept hs) ?_)
  exact Kept_foldl (fun _ _ h => quayCorr_kept (mcCorr_kept h)) (meetInject_kept hs)

theorem stallOn_kept {Q : List Instr} {s : State} {x : Stall} (hs : Kept Q s) :
    Kept Q (stallOn s x) := by
  unfold stallOn
  split
  · refine Kept_upd (s := s) ?_ rfl rfl rfl rfl
    assumption
  · assumption

theorem meetHolds_kept {Q : List Instr} {s : State} {a n : Nat} (hs : Kept Q s) :
    Kept Q (meetHolds s a n) := by
  unfold meetHolds
  extract_lets l0
  clear_value l0
  grind [stallOn_kept, Kept_mk]

theorem readAs_kept {Q : List Instr} {s : State} {k port : Nat} {ctx : Option Nat} {a n : Nat} (hs : Kept Q s) :
    Kept Q (readAs s k port ctx a n).2 := by
  unfold readAs
  extract_lets l0
  have hl0 : Kept Q l0.2 := by
    grind [sense_kept, meetHolds_kept, activateRange_kept, countBytes_kept, Kept_mk]
  clear_value l0
  grind [sense_kept, meetHolds_kept, activateRange_kept, countBytes_kept, Kept_mk]

theorem devRead_kept {Q : List Instr} {s : State} {k req a n : Nat} (hs : Kept Q s) :
    Kept Q (devRead s k req a n).2 := by
  unfold devRead
  grind [readAs_kept, Kept_mk]

theorem wcAdd_kept {Q : List Instr} {s : State} {m granule : Nat} (hs : Kept Q s) :
    Kept Q (wcAdd s m granule) := by
  unfold wcAdd
  extract_lets l0 l1 l2 l3
  clear_value l0 l1 l2 l3
  refine Kept_upd (s := s) ?_ rfl rfl rfl rfl
  assumption

theorem wcRange_kept {Q : List Instr} {s : State} {a n : Nat} (hs : Kept Q s) :
    Kept Q (wcRange s a n) := by
  unfold wcRange
  refine Kept_foldl (fun s0 x1 hs0 => ?_) ?_
  · grind [wcAdd_kept, Kept_foldl2, Kept_mk]
  · assumption

theorem writeAs_kept {Q : List Instr} {s : State} {k port : Nat} {ctx : Option Nat} {a : Nat} {b : Bytes} (hs : Kept Q s) :
    Kept Q (writeAs s k port ctx a b).2 := by
  unfold writeAs
  extract_lets l0 l1 l2 l3 l4 l5
  clear_value l0
  have hl1 : Kept Q l1 := by
    grind [meetHolds_kept, activateRange_kept, countBytes_kept, sense_kept, wcRange_kept, writeBytes_kept, Kept_foldl2, Kept_mk]
  clear_value l1
  have hl2 : Kept Q l2.2 := by
    unfold l2
    grind [meetHolds_kept, activateRange_kept, countBytes_kept, sense_kept, wcRange_kept, writeBytes_kept, Kept_foldl2, Kept_mk]
  clear_value l2 l3 l4
  have hl5 : Kept Q l5 := by
    grind [meetHolds_kept, activateRange_kept, countBytes_kept, sense_kept, wcRange_kept, writeBytes_kept, Kept_foldl2, Kept_mk]
  clear_value l5
  grind [meetHolds_kept, activateRange_kept, countBytes_kept, sense_kept, wcRange_kept, writeBytes_kept, Kept_foldl2, Kept_mk]

theorem devWrite_kept {Q : List Instr} {s : State} {k req a : Nat} {b : Bytes} (hs : Kept Q s) :
    Kept Q (devWrite s k req a b).2 := by
  unfold devWrite
  grind [writeAs_kept, Kept_mk]

end Sys2Proof.Machine
end

