-- ==== Sys2Proof/Laws/KeptCoh.lean ====
section
/-!
SUPPORT. What Machine/Coh.lean does keeps the canonical form and the queue.
-/

set_option Elab.async false

namespace Sys2Proof.Machine

open Sys2Proof

theorem dropLine_kept {Q : List Instr} {s : State} {k pos line : Nat} (hs : Kept Q s) :
    Kept Q (dropLine s k pos line) := by
  unfold dropLine
  extract_lets l0
  clear_value l0
  refine Kept_upd (s := s) ?_ rfl rfl rfl rfl
  assumption

theorem setLine_kept {Q : List Instr} {s : State} {k pos line : Nat} {st : LineState} {d : Bytes} (hs : Kept Q s) :
    Kept Q (setLine s k pos line st d) := by
  unfold setLine
  extract_lets l0 l1
  have hl0 : Kept Q l0 := by
    grind [dropLine_kept, Kept_mk]
  clear_value l0 l1
  grind [dropLine_kept, Kept_mk]

theorem setDir_kept {Q : List Instr} {s : State} {k line : Nat} {owned : Bool} {holders : Nat} (hs : Kept Q s) :
    Kept Q (setDir s k line owned holders) := by
  unfold setDir
  extract_lets l0 l1 l2
  clear_value l0 l1 l2
  refine Kept_upd (s := s) ?_ rfl rfl rfl rfl
  assumption

theorem setSite_kept {Q : List Instr} {s : State} {t : Nat} {f : Site → Site} (hs : Kept Q s) :
    Kept Q (setSite s t f) := by
  unfold setSite
  refine Kept_upd (s := s) ?_ rfl rfl rfl rfl
  assumption

theorem dealFlit_kept {Q : List Instr} {s : State} {t seq : Nat} (hs : Kept Q s) :
    Kept Q (dealFlit s t seq) := by
  unfold dealFlit
  extract_lets l0
  clear_value l0
  grind [draw_kept, setSite_kept, Kept_mk]

theorem sendAgain_kept {Q : List Instr} {s : State} {t : Nat} {which : Nat × Nat → Bool} (hs : Kept Q s) :
    Kept Q (sendAgain s t which) := by
  unfold sendAgain
  extract_lets l0
  clear_value l0
  split
  · assumption
  · refine Kept_foldl (fun s1 x2 hs1 => ?_) ?_
    · grind [dealFlit_kept, addReg_kept, Kept_foldl2, Kept_mk]
    · grind [dealFlit_kept, addReg_kept, Kept_foldl2, Kept_mk]

theorem transmit_kept {Q : List Instr} {s : State} {t : Nat} {m : String × List Nat × Bytes} (hs : Kept Q s) :
    Kept Q (transmit s t m) := by
  unfold transmit
  extract_lets chunks s1
  have h1 : Kept Q s1 := addReg_kept (emit_kept hs)
  clear_value chunks s1
  exact Kept_foldl (fun _ _ h => setSite_kept (dealFlit_kept h)) h1

theorem pumpSite_kept {Q : List Instr} {s : State} {t : Nat} {a0 : Nat} (hs : Kept Q s) :
    Kept Q (pumpSite s t a0) := by
  fun_induction pumpSite <;> grind [transmit_kept, setSite_kept, Kept, State.canonical]

theorem pumpAll_kept {Q : List Instr} {s : State} {t : Nat} (hs : Kept Q s) :
    Kept Q (pumpAll s t) := by
  unfold pumpAll
  grind [pumpSite_kept, Kept_mk]

theorem siteSend_kept {Q : List Instr} {s : State} {t : Nat} {msg : String} {fields : List Nat} {data : Bytes} (hs : Kept Q s) :
    Kept Q (siteSend s t msg fields data) := by
  unfold siteSend
  grind [pumpAll_kept, setSite_kept, Kept_mk]

theorem returnCredit_kept {Q : List Instr} {s : State} {t k : Nat} (hs : Kept Q s) :
    Kept Q (returnCredit s t k) := by
  unfold returnCredit
  grind [setSite_kept, Kept_mk]

theorem wakeSite_kept {Q : List Instr} {s : State} {t : Nat} (hs : Kept Q s) :
    Kept Q (wakeSite s t) := by
  unfold wakeSite
  extract_lets l0
  have hl0 : Kept Q l0 := by
    grind [pumpAll_kept, setSite_kept, Kept_mk]
  clear_value l0
  grind [pumpAll_kept, setSite_kept, Kept_mk]

theorem wakeSites_kept {Q : List Instr} {s : State} (hs : Kept Q s) :
    Kept Q (wakeSites s) := by
  unfold wakeSites
  refine Kept_foldl (fun s0 x1 hs0 => ?_) ?_
  · grind [wakeSite_kept, Kept_foldl2, Kept_mk]
  · assumption

theorem sendAgent_kept {Q : List Instr} {s : State} {k pos line : Nat} {msg : String} {d : Bytes} (hs : Kept Q s) :
    Kept Q (sendAgent s k pos line msg d) := by
  unfold sendAgent
  grind [siteSend_kept, emit_kept, Kept_mk]

theorem setTxn_kept {Q : List Instr} {s : State} {t v : Txn} (hs : Kept Q s) :
    Kept Q (setTxn s t v) := by
  unfold setTxn
  extract_lets l0
  clear_value l0
  refine Kept_upd (s := s) ?_ rfl rfl rfl rfl
  assumption

theorem closeTxn_kept {Q : List Instr} {s : State} {t : Txn} (hs : Kept Q s) :
    Kept Q (closeTxn s t) := by
  unfold closeTxn
  extract_lets l0
  clear_value l0
  refine Kept_upd (s := s) ?_ rfl rfl rfl rfl
  assumption

theorem countSnoop_kept {Q : List Instr} {s : State} {k : Nat} (hs : Kept Q s) :
    Kept Q (countSnoop s k) := by
  unfold countSnoop
  grind [addReg_kept, Kept_mk]

theorem hintDropped_kept {Q : List Instr} {s : State} {k : Nat} (hs : Kept Q s) :
    Kept Q (hintDropped s k) := by
  unfold hintDropped
  grind [raiseEvt_kept, addReg_kept, Kept_mk]

theorem sendSnoops_kept {Q : List Instr} {s : State} {k line : Nat} {shr : Bool} {l : List Nat} (hs : Kept Q s) :
    Kept Q (sendSnoops s k line shr l) := by
  unfold sendSnoops
  refine Kept_foldl (fun s0 x1 hs0 => ?_) ?_
  · grind [sendAgent_kept, countSnoop_kept, Kept_foldl2, Kept_mk]
  · assumption

theorem openEvict_kept {Q : List Instr} {s : State} {k pos line : Nat} {shr : Bool} {l : List Nat} (hs : Kept Q s) :
    Kept Q (openEvict s k pos line shr l) := by
  unfold openEvict
  extract_lets l0
  clear_value l0
  split
  · assumption
  · grind [sendSnoops_kept, Kept_mk]

theorem snoopOne_kept {Q : List Instr} {s : State} {k line pos : Nat} {inv : Bool} (hs : Kept Q s) :
    Kept Q (snoopOne s k line pos inv) := by
  unfold snoopOne
  extract_lets l0
  have hl0 : Kept Q l0 := by
    grind [countSnoop_kept, devWrite_kept, dropLine_kept, setLine_kept, Kept_mk]
  clear_value l0
  split
  · split
    · grind [countSnoop_kept, devWrite_kept, dropLine_kept, setLine_kept, Kept_mk]
    · extract_lets l1
      have hl1 : Kept Q l1 := by
        grind [countSnoop_kept, devWrite_kept, dropLine_kept, setLine_kept, Kept_mk]
      clear_value l1
      grind [countSnoop_kept, devWrite_kept, dropLine_kept, setLine_kept, Kept_mk]
  · grind [countSnoop_kept, devWrite_kept, dropLine_kept, setLine_kept, Kept_mk]

theorem snoopAll_kept {Q : List Instr} {s : State} {k line : Nat} {except : Nat} {inv : Bool} (hs : Kept Q s) :
    Kept Q (snoopAll s k line except inv) := by
  unfold snoopAll
  refine Kept_foldl (fun s0 x1 hs0 => ?_) ?_
  · grind [snoopOne_kept, Kept_foldl2, Kept_mk]
  · assumption

theorem displace_kept {Q : List Instr} {s : State} {k : Nat} {v : DirEntry} {whole : Bool} (hs : Kept Q s) :
    Kept Q (displace s k v whole) := by
  unfold displace
  extract_lets l0 l1 l2
  clear_value l0
  have hl1 : Kept Q l1 := by
    unfold l1
    split
    · refine Kept_foldl (fun s3 x4 hs3 => ?_) ?_
      · grind [snoopOne_kept, addReg_kept, setDir_kept, openEvict_kept, Kept_foldl2, Kept_mk]
      · assumption
    · assumption
  clear_value l1
  have hl2 : Kept Q l2 := by
    grind [snoopOne_kept, addReg_kept, setDir_kept, openEvict_kept, Kept_foldl2, Kept_mk]
  clear_value l2
  grind [snoopOne_kept, addReg_kept, setDir_kept, openEvict_kept, Kept_foldl2, Kept_mk]

theorem makeWay_kept {Q : List Instr} {s : State} {k line : Nat} {whole : Bool} (hs : Kept Q s) :
    Kept Q (makeWay s k line whole) := by
  unfold makeWay
  extract_lets l0 l1
  clear_value l0 l1
  split
  · assumption
  · split
    · assumption
    · split
      · assumption
      · grind [displace_kept, Kept_foldl2, Kept_mk]

theorem failTxn_kept {Q : List Instr} {s : State} {t : Txn} (hs : Kept Q s) :
    Kept Q (failTxn s t) := by
  unfold failTxn
  extract_lets l0
  have hl0 : Kept Q l0 := by
    grind [setDir_kept, closeTxn_kept, sendAgent_kept, Kept_mk]
  clear_value l0
  grind [setDir_kept, closeTxn_kept, sendAgent_kept, Kept_mk]

theorem placeInMemory_kept {Q : List Instr} {s : State} {t : Txn} {d : Bytes} (hs : Kept Q s) :
    Kept Q (placeInMemory s t d) := by
  unfold placeInMemory
  extract_lets l0 l1
  have hl0 : Kept Q l0 := by
    grind [devWrite_kept, setDir_kept, hintDropped_kept, setTxn_kept, Kept_mk]
  clear_value l0
  have hl1 : Kept Q l1 := by
    grind [devWrite_kept, setDir_kept, hintDropped_kept, setTxn_kept, Kept_mk]
  clear_value l1
  grind [devWrite_kept, setDir_kept, hintDropped_kept, setTxn_kept, Kept_mk]

theorem grantTxn_kept {Q : List Instr} {s : State} {t : Txn} {d : Bytes} {msg : String} (hs : Kept Q s) :
    Kept Q (grantTxn s t d msg) := by
  unfold grantTxn
  grind [setTxn_kept, sendAgent_kept, Kept_mk]

theorem advance_kept {Q : List Instr} {s : State} {t : Txn} (hs : Kept Q s) :
    Kept Q (advance s t) := by
  unfold advance
  refine Kept_ite hs ?_
  extract_lets k req s1
  have h1 : Kept Q s1 := by
    unfold s1
    cases t.dirty with
    | none => exact hs
    | some d => exact devWrite_kept hs
  clear_value s1
  split
  · exact closeTxn_kept (Kept_ite (setDir_kept h1) (setDir_kept h1))
  · exact grantTxn_kept (setDir_kept h1)
  · exact Kept_ite (setTxn_kept (sendAgent_kept h1)) (placeInMemory_kept h1)
  · have h2 := devRead_kept (k := k) (req := req) (a := t.line * 128) (n := 128) h1
    generalize devRead s1 k req (t.line * 128) 128 = r at h2 ⊢
    obtain ⟨_ | d, s2⟩ := r
    · exact failTxn_kept h2
    · dsimp only at h2 ⊢
      split
      · split
        · exact grantTxn_kept (setDir_kept (makeWay_kept h2))
        · exact grantTxn_kept (setDir_kept h2)
      · exact grantTxn_kept (setDir_kept (makeWay_kept h2))
      · exact setTxn_kept (setDir_kept h2)
      · exact Kept_ite (setTxn_kept (sendAgent_kept h2)) (placeInMemory_kept h2)

theorem openTxn_kept {Q : List Instr} {s : State} {k pos line : Nat} {req : CohReq} {res : Bool} (hs : Kept Q s) :
    Kept Q (openTxn s k pos line req res) := by
  unfold openTxn
  extract_lets l0 l1 l2 l3 l4 l5 l6 l7 l8 l9
  clear_value l0 l1 l2 l3 l4 l5 l6
  have hl7 : Kept Q l7 := by
    grind [addReg_kept, advance_kept, sendSnoops_kept, Kept_mk]
  clear_value l7 l8
  have hl9 : Kept Q l9 := by
    grind [addReg_kept, advance_kept, sendSnoops_kept, Kept_mk]
  clear_value l9
  grind [addReg_kept, advance_kept, sendSnoops_kept, Kept_mk]

theorem pumpLine_kept {Q : List Instr} {s : State} {k line : Nat} {a0 : Nat} (hs : Kept Q s) :
    Kept Q (pumpLine s k line a0) := by
  fun_induction pumpLine <;> grind [openTxn_kept, Kept, State.canonical]

theorem loseReq_kept {Q : List Instr} {s : State} {k pos line : Nat} {req : CohReq} (hs : Kept Q s) :
    Kept Q (loseReq s k pos line req) := by
  unfold loseReq
  extract_lets l0 l1
  clear_value l0
  have hl1 : Kept Q l1 := by
    grind [sendAgent_kept, addReg_kept, Kept_mk]
  clear_value l1
  grind [sendAgent_kept, addReg_kept, Kept_mk]

theorem presentWait_kept {Q : List Instr} {s : State} {w : Nat × Nat × Nat × CohReq} (hs : Kept Q s) :
    Kept Q (presentWait s w) := by
  unfold presentWait
  extract_lets l0 l1
  clear_value l0
  have hl1 : Kept Q l1 := by
    grind [loseReq_kept, openTxn_kept, Kept_mk]
  clear_value l1
  grind [loseReq_kept, openTxn_kept, Kept_mk]

theorem settle_kept {Q : List Instr} {s : State} {k line : Nat} (hs : Kept Q s) :
    Kept Q (settle s k line) := by
  unfold settle
  exact Kept_foldl (fun _ _ h => presentWait_kept h) (pumpLine_kept hs)

theorem takeNotice_kept {Q : List Instr} {s : State} {k pos line : Nat} {data : Option Bytes} (hs : Kept Q s) :
    ∀ t, takeNotice s k pos line data = some t → Kept Q t := by
  unfold takeNotice
  grind [devWrite_kept, sendAgent_kept, settle_kept, setDir_kept, advance_kept, setTxn_kept, Kept, State.canonical]

theorem evictFor_kept {Q : List Instr} {s : State} {k pos line : Nat} (hs : Kept Q s) :
    Kept Q (evictFor s k pos line) := by
  unfold evictFor
  extract_lets mine set cand d
  have hd : Kept Q d.2 := draw_kept hs
  clear_value mine set cand d
  refine Kept_ite hs (Kept_ite hs ?_)
  split
  · exact hd
  · rename_i v _
    extract_lets s1
    have h1 : Kept Q s1 := dropLine_kept hd
    clear_value s1
    have hn : ∀ x, Kept Q ((takeNotice s1 k pos v.line x).getD s1) := by
      intro x
      cases h : takeNotice s1 k pos v.line x with
      | none => exact h1
      | some t => exact takeNotice_kept h1 t h
    split
    · exact h1
    · exact hn _
    · exact hn _

theorem takeLine_kept {Q : List Instr} {s : State} {k pos line : Nat} {st : LineState} {d : Bytes} (hs : Kept Q s) :
    Kept Q (takeLine s k pos line st d) := by
  unfold takeLine
  grind [setLine_kept, evictFor_kept, Kept_mk]

theorem meetLine_kept {Q : List Instr} {s : State} {k pos line : Nat} {inv : Bool} (hs : Kept Q s) :
    Kept Q (meetLine s k pos line inv) := by
  unfold meetLine
  extract_lets l0
  clear_value l0
  split
  · assumption
  · split
    · grind [stallOn_kept, Kept_mk]
    · refine Kept_upd (s := s) ?_ rfl rfl rfl rfl
      assumption

theorem fetchLine_kept {Q : List Instr} {s : State} {k req line : Nat} {excl : Bool} (hs : Kept Q s) :
    Kept Q (fetchLine s k req line excl).2 := by
  unfold fetchLine
  extract_lets l0 l1 l2
  clear_value l0
  have hl1 : Kept Q l1 := by
    grind [addReg_kept, meetLine_kept, makeWay_kept, devRead_kept, setDir_kept, snoopAll_kept, Kept_mk]
  clear_value l1
  have hl2 : Kept Q l2 := by
    grind [addReg_kept, meetLine_kept, makeWay_kept, devRead_kept, setDir_kept, snoopAll_kept, Kept_mk]
  clear_value l2
  split
  · grind [addReg_kept, meetLine_kept, makeWay_kept, devRead_kept, setDir_kept, snoopAll_kept, Kept_mk]
  · extract_lets l3
    have hl3 : Kept Q l3 := by
      grind [addReg_kept, meetLine_kept, makeWay_kept, devRead_kept, setDir_kept, snoopAll_kept, Kept_mk]
    clear_value l3
    grind [addReg_kept, meetLine_kept, makeWay_kept, devRead_kept, setDir_kept, snoopAll_kept, Kept_mk]

theorem loadLine_kept {Q : List Instr} {s : State} {k req line : Nat} (hs : Kept Q s) :
    Kept Q (loadLine s k req line).2 := by
  unfold loadLine
  extract_lets l0
  clear_value l0
  grind [fetchLine_kept, takeLine_kept, Kept_mk]

theorem storeLine_kept {Q : List Instr} {s : State} {k req line off : Nat} {b : Bytes} (hs : Kept Q s) :
    Kept Q (storeLine s k req line off b).2 := by
  unfold storeLine
  extract_lets l0 l1 l2
  clear_value l0
  have hl1 : Kept Q l1 := by
    grind [addReg_kept, meetLine_kept, setDir_kept, snoopAll_kept, setLine_kept, fetchLine_kept, takeLine_kept, Kept_mk]
  clear_value l1
  have hl2 : Kept Q l2 := by
    grind [addReg_kept, meetLine_kept, setDir_kept, snoopAll_kept, setLine_kept, fetchLine_kept, takeLine_kept, Kept_mk]
  clear_value l2
  grind [addReg_kept, meetLine_kept, setDir_kept, snoopAll_kept, setLine_kept, fetchLine_kept, takeLine_kept, Kept_mk]

theorem onceLine_kept {Q : List Instr} {s : State} {k req line : Nat} (hs : Kept Q s) :
    Kept Q (onceLine s k req line).2 := by
  unfold onceLine
  extract_lets l0 l1 l2
  have hl0 : Kept Q l0 := by
    grind [addReg_kept, meetLine_kept, setDir_kept, snoopAll_kept, devRead_kept, Kept_mk]
  clear_value l0 l1
  have hl2 : Kept Q l2 := by
    grind [addReg_kept, meetLine_kept, setDir_kept, snoopAll_kept, devRead_kept, Kept_mk]
  clear_value l2
  grind [addReg_kept, meetLine_kept, setDir_kept, snoopAll_kept, devRead_kept, Kept_mk]

theorem placeLine_kept {Q : List Instr} {s : State} {k req line hint : Nat} {d : Bytes} (hs : Kept Q s) :
    Kept Q (placeLine s k req line hint d) := by
  unfold placeLine
  extract_lets l0 l1
  have hl0 : Kept Q l0 := by
    grind [takeLine_kept, setDir_kept, makeWay_kept, addReg_kept, devWrite_kept, hintDropped_kept, Kept_mk]
  clear_value l0
  have hl1 : Kept Q l1 := by
    grind [takeLine_kept, setDir_kept, makeWay_kept, addReg_kept, devWrite_kept, hintDropped_kept, Kept_mk]
  clear_value l1
  grind [takeLine_kept, setDir_kept, makeWay_kept, addReg_kept, devWrite_kept, hintDropped_kept, Kept_mk]

theorem writeLineNc_kept {Q : List Instr} {s : State} {k req line off hint : Nat} {b : Bytes} (hs : Kept Q s) :
    Kept Q (writeLineNc s k req line off hint b).2 := by
  unfold writeLineNc
  extract_lets l0 l1
  have hl0 : Kept Q l0 := by
    grind [addReg_kept, meetLine_kept, snoopAll_kept, placeLine_kept, devRead_kept, Kept_mk]
  clear_value l0
  have hl1 : Kept Q l1 := by
    grind [addReg_kept, meetLine_kept, snoopAll_kept, placeLine_kept, devRead_kept, Kept_mk]
  clear_value l1
  grind [addReg_kept, meetLine_kept, snoopAll_kept, placeLine_kept, devRead_kept, Kept_mk]

theorem readLines_kept {Q : List Instr} {s : State} {k req : Nat} {a0 : Nat} {a1 : Nat} {a2 : Nat} (hs : Kept Q s) :
    Kept Q (readLines s k req a0 a1 a2).2 := by
  fun_induction readLines <;> grind [loadLine_kept, onceLine_kept, Kept, State.canonical]

theorem memRead_kept {Q : List Instr} {s : State} {k req a n : Nat} {nc : Bool} (hs : Kept Q s) :
    Kept Q (memRead s k req a n nc).2 := by
  unfold memRead
  grind [devRead_kept, readLines_kept, Kept_mk]

theorem writeLines_kept {Q : List Instr} {s : State} {k req hint : Nat} {a0 : Nat} {a1 : Nat} {a2 : Bytes} (hs : Kept Q s) :
    Kept Q (writeLines s k req hint a0 a1 a2).2 := by
  fun_induction writeLines <;> grind [storeLine_kept, writeLineNc_kept, Kept, State.canonical]

theorem memWrite_kept {Q : List Instr} {s : State} {k req a hint : Nat} {b : Bytes} {nc : Bool} (hs : Kept Q s) :
    Kept Q (memWrite s k req a hint b nc).2 := by
  unfold memWrite
  grind [devWrite_kept, writeLines_kept, Kept_mk]

theorem memAdd_kept {Q : List Instr} {s : State} {k req a : Nat} {v : Word} {nc : Bool} (hs : Kept Q s) :
    Kept Q (memAdd s k req a v nc).2 := by
  unfold memAdd
  extract_lets l0 l1
  clear_value l0
  have hl1 : Kept Q l1 := by
    grind [devRead_kept, devWrite_kept, addReg_kept, meetLine_kept, snoopAll_kept, placeLine_kept, Kept_mk]
  clear_value l1
  grind [devRead_kept, devWrite_kept, addReg_kept, meetLine_kept, snoopAll_kept, placeLine_kept, Kept_mk]

theorem countLost_kept {Q : List Instr} {s : State} {k pos line : Nat} (hs : Kept Q s) :
    Kept Q (countLost s k pos line) := by
  unfold countLost
  extract_lets l0
  clear_value l0
  split
  · assumption
  · grind [addReg_kept, Kept_mk]

theorem gated_kept {Q : List Instr} {s : State} {f : State → State} (hs : Kept Q s) (hf : ∀ y0, Kept Q y0 → Kept Q (f y0)) :
    Kept Q (gated s f) := by
  unfold gated
  extract_lets l0
  have hl0 : Kept Q l0 := by
    grind [countLost_kept, openEvict_kept, Kept_mk]
  clear_value l0
  grind [countLost_kept, openEvict_kept, Kept_mk]

theorem flushLines_kept {Q : List Instr} {s : State} {k : Nat} (hs : Kept Q s) :
    Kept Q (flushLines s k) := by
  unfold flushLines
  extract_lets s1
  have h1 : Kept Q s1 := Kept_ite (stallOn_kept hs) hs
  clear_value s1
  exact Kept_foldl (fun _ _ h => addReg_kept (setLine_kept (devWrite_kept h))) h1

theorem evictRange_kept {Q : List Instr} {s : State} {k a n : Nat} (hs : Kept Q s) :
    Kept Q (evictRange s k a n) := by
  unfold evictRange
  refine Kept_foldl (fun s0 x1 hs0 => ?_) ?_
  · extract_lets l2 l3
    have hl2 : Kept Q l2 := by
      grind [devWrite_kept, dropLine_kept, setDir_kept, Kept_foldl2, Kept_mk]
    clear_value l2
    have hl3 : Kept Q l3 := by
      grind [devWrite_kept, dropLine_kept, setDir_kept, Kept_foldl2, Kept_mk]
    clear_value l3
    grind [devWrite_kept, dropLine_kept, setDir_kept, Kept_foldl2, Kept_mk]
  · assumption

theorem clearDomain_kept {Q : List Instr} {s : State} {k : Nat} (hs : Kept Q s) :
    Kept Q (clearDomain s k) := by
  unfold clearDomain
  extract_lets l0
  clear_value l0
  refine Kept_upd (s := s) ?_ rfl rfl rfl rfl
  assumption

end Sys2Proof.Machine
end

