-- ==== Sys2Proof/Laws/KeptXlat.lean ====
section
/-!
SUPPORT. What Machine/Xlat.lean does keeps the canonical form and the queue.
-/

set_option Elab.async false

namespace Sys2Proof.Machine

open Sys2Proof

theorem readEntry_kept {Q : List Instr} {s : State} {k req a : Nat} (hs : Kept Q s) :
    Kept Q (readEntry s k req a).2 := by
  unfold readEntry
  grind [readAs_kept, Kept_mk]

theorem walkFrom_kept {Q : List Instr} {s : State} {k req va : Nat} {a0 : Nat} {a1 : Nat} {a2 : Nat} (hs : Kept Q s) :
    Kept Q (walkFrom s k req va a0 a1 a2).2 := by
  fun_induction walkFrom <;> grind [readEntry_kept, Kept, State.canonical]

theorem evictOne_kept {Q : List Instr} {α : Type} {s : State} {l : List α} (hs : Kept Q s) :
    Kept Q (evictOne s l).2 := by
  unfold evictOne
  extract_lets l0
  have hl0 : Kept Q l0.2 := by
    grind [draw_kept, Kept_mk]
  clear_value l0
  grind [draw_kept, Kept_mk]

theorem fillWalk_kept {Q : List Instr} {s : State} {k : Nat} {l : List WalkEntry} (hs : Kept Q s) :
    Kept Q (fillWalk s k l) := by
  unfold fillWalk
  refine Kept_foldl (fun s0 x1 hs0 => ?_) ?_
  · extract_lets l2 l3 l4 l5 l6 l7
    clear_value l2 l3 l4
    have hl5 : Kept Q l5.2 := by
      grind [evictOne_kept, Kept_foldl2, Kept_mk]
    clear_value l5
    have hl6 : Kept Q l6 := by
      grind [evictOne_kept, Kept_foldl2, Kept_mk]
    clear_value l6 l7
    grind [evictOne_kept, Kept_foldl2, Kept_mk]
  · assumption

theorem fillSlice_kept {Q : List Instr} {s : State} {k va level : Nat} {e : Word} (hs : Kept Q s) :
    Kept Q (fillSlice s k va level e) := by
  unfold fillSlice
  extract_lets l0 l1 l2 l3 l4 l5 l6 l7
  clear_value l0 l1 l2 l3 l4
  have hl5 : Kept Q l5.2 := by
    grind [evictOne_kept, Kept_mk]
  clear_value l5
  have hl6 : Kept Q l6 := by
    grind [evictOne_kept, Kept_mk]
  clear_value l6 l7
  grind [evictOne_kept, Kept_mk]

theorem hotRecord_kept {Q : List Instr} {s : State} {k : Nat} {e : SliceEntry} (hs : Kept Q s) :
    Kept Q (hotRecord s k e) := by
  unfold hotRecord
  extract_lets p log prod cons base size inQuay w0 w1 r
  have hr : Kept Q r.2 := devWrite_kept hs
  clear_value p log prod cons base size inQuay w0 w1 r
  refine Kept_ite hs (Kept_ite (raiseEvt_kept (addReg_kept hs)) (Kept_ite ?_ ?_))
  · exact raiseEvt_kept (wf_kept hr)
  · exact raiseEvt_kept (addReg_kept hr)

theorem countSlice_kept {Q : List Instr} {s : State} {k va units : Nat} (hs : Kept Q s) :
    Kept Q (countSlice s k va units) := by
  unfold countSlice
  extract_lets l0 l1
  clear_value l0 l1
  split
  · assumption
  · extract_lets l2 l3 l4 l5
    clear_value l2 l3 l4
    have hl5 : Kept Q l5 := by
      grind [hotRecord_kept, Kept_mk]
    clear_value l5
    grind [hotRecord_kept, Kept_mk]

theorem microReport_kept {Q : List Instr} {s : State} {e : MicroEntry} (hs : Kept Q s) :
    Kept Q (microReport s e) := by
  unfold microReport
  extract_lets l0 l1
  clear_value l0
  have hl1 : Kept Q l1 := by
    grind [countSlice_kept, Kept_mk]
  clear_value l1
  grind [countSlice_kept, Kept_mk]

theorem dropMicro_kept {Q : List Instr} {s : State} {out : MicroEntry → Bool} (hs : Kept Q s) :
    Kept Q (dropMicro s out) := by
  unfold dropMicro
  extract_lets l0 l1
  have hl0 : Kept Q l0 := by
    unfold l0
    refine Kept_foldl (fun s2 x3 hs2 => ?_) ?_
    · grind [countSlice_kept, Kept_foldl2, Kept_mk]
    · assumption
  clear_value l0 l1
  grind [countSlice_kept, Kept_foldl2, Kept_mk]

theorem fillMicro_kept {Q : List Instr} {s : State} {k req va level : Nat} {e : Word} {n : Nat} (hs : Kept Q s) :
    Kept Q (fillMicro s k req va level e n) := by
  unfold fillMicro
  extract_lets l0 l1 l2 l3
  clear_value l0 l1 l2
  have hl3 : Kept Q l3.2 := by
    grind [draw_kept, dropMicro_kept, Kept_mk]
  clear_value l3
  split
  · grind [draw_kept, dropMicro_kept, Kept_mk]
  · split
    · grind [draw_kept, dropMicro_kept, Kept_mk]
    · extract_lets l4 l5
      have hl4 : Kept Q l4 := by
        grind [draw_kept, dropMicro_kept, Kept_mk]
      clear_value l4 l5
      grind [draw_kept, dropMicro_kept, Kept_mk]

theorem walk_kept {Q : List Instr} {s : State} {k req va : Nat} (hs : Kept Q s) :
    Kept Q (walk s k req va).2 := by
  unfold walk
  dsimp only
  generalize hs1 : addReg s (pgMf k) Reg.WALKS 1 = s1
  have h1 : Kept Q s1 := hs1 ▸ addReg_kept hs
  exact Kept_ite2 h1 (Kept_pair (walkFrom_kept h1))

theorem filledIf_kept {Q : List Instr} {r : XRes} {filled s : State} (hfilled : Kept Q filled) (hs : Kept Q s) :
    Kept Q (filledIf r filled s).2 := by
  unfold filledIf
  grind [Kept_mk]

theorem afterWalk_kept {Q : List Instr} {r : (Except (Nat × Nat) (Nat × Word) × List WalkEntry) × State} {k req va n : Nat} {write : Bool} (hr : Kept Q r.2) :
    Kept Q (afterWalk r k req va n write).2 := by
  unfold afterWalk
  grind [filledIf_kept, fillMicro_kept, fillSlice_kept, fillWalk_kept, Kept_mk]

theorem translateSlice_kept {Q : List Instr} {s : State} {k req va n : Nat} {write : Bool} (hs : Kept Q s) :
    Kept Q (translateSlice s k req va n write).2 := by
  unfold translateSlice
  grind [filledIf_kept, fillMicro_kept, afterWalk_kept, walk_kept, addReg_kept, Kept_mk]

theorem translate_kept {Q : List Instr} {s : State} {k req va n : Nat} {write : Bool} (hs : Kept Q s) :
    Kept Q (translate s k req va n write).2 := by
  unfold translate
  extract_lets l0
  clear_value l0
  grind [translateSlice_kept, addReg_kept, Kept_mk]

theorem writeFault_kept {Q : List Instr} {s : State} {r : FaultRec} (hs : Kept Q s) :
    Kept Q (writeFault s r) := by
  unfold writeFault
  extract_lets l0 l1
  clear_value l0
  have hl1 : Kept Q l1.2 := by
    grind [devWrite_kept, raiseEvt_kept, Kept_mk]
  clear_value l1
  grind [devWrite_kept, raiseEvt_kept, Kept_mk]

theorem markFull_kept {Q : List Instr} {s : State} {k : Nat} (hs : Kept Q s) :
    Kept Q (markFull s k) := by
  unfold markFull
  grind [raiseEvt_kept, Kept_mk]

theorem mergeFault_kept {Q : List Instr} {s : State} {r : FaultRec} {i : FaultInfo} (hs : Kept Q s) :
    Kept Q (mergeFault s r i) := by
  unfold mergeFault
  extract_lets l0 l1
  clear_value l0 l1
  grind [writeFault_kept, Kept_mk]

theorem allocFault_kept {Q : List Instr} {s : State} {i : FaultInfo} (hs : Kept Q s) :
    Kept Q (allocFault s i).2 := by
  unfold allocFault
  extract_lets l0 l1 l2 l3 l4 l5 l6
  clear_value l0 l1 l2 l3
  have hl4 : Kept Q l4 := by
    grind [wf_kept, writeFault_kept, Kept_mk]
  clear_value l4
  have hl5 : Kept Q l5 := by
    grind [wf_kept, writeFault_kept, Kept_mk]
  clear_value l5 l6
  grind [wf_kept, writeFault_kept, Kept_mk]

theorem recordFault_kept {Q : List Instr} {s : State} {i : FaultInfo} (hs : Kept Q s) :
    Kept Q (recordFault s i).2 := by
  unfold recordFault
  extract_lets l0 l1 l2 l3 l4 l5
  clear_value l0
  have hl1 : Kept Q l1 := by
    grind [addReg_kept, countError_kept, mergeFault_kept, allocFault_kept, markFull_kept, Kept_mk]
  clear_value l1
  have hl2 : Kept Q l2 := by
    grind [addReg_kept, countError_kept, mergeFault_kept, allocFault_kept, markFull_kept, Kept_mk]
  clear_value l2
  have hl3 : Kept Q l3.2 := by
    grind [addReg_kept, countError_kept, mergeFault_kept, allocFault_kept, markFull_kept, Kept_mk]
  clear_value l3
  have hl4 : Kept Q l4 := by
    grind [addReg_kept, countError_kept, mergeFault_kept, allocFault_kept, markFull_kept, Kept_mk]
  clear_value l4 l5
  grind [addReg_kept, countError_kept, mergeFault_kept, allocFault_kept, markFull_kept, Kept_mk]

theorem dropXlat_kept {Q : List Instr} {s : State} {k va len : Nat} (hs : Kept Q s) :
    Kept Q (dropXlat s k va len) := by
  unfold dropXlat
  extract_lets l0 l1 l2
  clear_value l0
  have hl1 : Kept Q l1 := by
    grind [dropMicro_kept, walk_kept, Kept_mk]
  clear_value l1 l2
  grind [dropMicro_kept, walk_kept, Kept_mk]

theorem dropLeaves_kept {Q : List Instr} {s : State} {k : Nat} {here : Nat → Bool} (hs : Kept Q s) :
    Kept Q (dropLeaves s k here) := by
  unfold dropLeaves
  extract_lets l0 l1 l2
  clear_value l0
  have hl1 : Kept Q l1 := by
    grind [dropMicro_kept, Kept_mk]
  clear_value l1 l2
  grind [dropMicro_kept, Kept_mk]

theorem dropInto_kept {Q : List Instr} {s : State} {k : Nat} (hs : Kept Q s) :
    Kept Q (dropInto s k) := by
  unfold dropInto
  grind [dropLeaves_kept, Kept_mk]

theorem translatePages_kept {Q : List Instr} {s : State} {k req : Nat} {write : Bool} {a0 : List Nat} (hs : Kept Q s) :
    Kept Q (translatePages s k req write a0).2 := by
  fun_induction translatePages <;> grind [translate_kept, Kept, State.canonical]

theorem serveMicro_kept {Q : List Instr} {s : State} {k req va n : Nat} (hs : Kept Q s) :
    Kept Q (serveMicro s k req va n) := by
  unfold serveMicro
  extract_lets l0
  clear_value l0
  refine Kept_upd (s := s) ?_ rfl rfl rfl rfl
  assumption

theorem serveRow_kept {Q : List Instr} {s : State} {k req : Nat} {a0 : Nat} {a1 : Nat} {a2 : Nat} (hs : Kept Q s) :
    Kept Q (serveRow s k req a0 a1 a2) := by
  fun_induction serveRow <;> grind [serveMicro_kept, Kept, State.canonical]

end Sys2Proof.Machine
end

