-- ==== Sys2Proof/Laws/KeptCtx.lean ====
section
/-!
SUPPORT. What Machine/Ctx.lean does keeps the canonical form and the queue.
-/

set_option Elab.async false

namespace Sys2Proof.Machine

open Sys2Proof

theorem setCtx_kept {Q : List Instr} {s : State} {k x st : Nat} (hs : Kept Q s) :
    Kept Q (setCtx s k x st) := by
  unfold setCtx
  grind [wf_kept, Kept_mk]

theorem updCtx_kept {Q : List Instr} {s : State} {k x : Nat} (hs : Kept Q s) :
    Kept Q (updCtx s k x) := by
  unfold updCtx
  extract_lets l0 l1 l2 l3
  clear_value l0 l2
  have hl3 : Kept Q l3 := by
    grind [wf_kept, Kept_foldl2, Kept_mk]
  clear_value l3
  grind [wf_kept, Kept_foldl2, Kept_mk]

theorem outUp_kept {Q : List Instr} {s : State} {k x : Nat} (hs : Kept Q s) :
    Kept Q (outUp s k x) := by
  unfold outUp
  grind [wf_kept, Kept_mk]

theorem outDown_kept {Q : List Instr} {s : State} {k x n : Nat} (hs : Kept Q s) :
    Kept Q (outDown s k x n) := by
  unfold outDown
  grind [wf_kept, Kept_mk]

theorem dropWork_kept {Q : List Instr} {s : State} {w : Work} (hs : Kept Q s) :
    Kept Q (dropWork s w) := by
  unfold dropWork
  refine Kept_upd (s := s) ?_ rfl rfl rfl rfl
  assumption

theorem setWork_kept {Q : List Instr} {s : State} {w v : Work} (hs : Kept Q s) :
    Kept Q (setWork s w v) := by
  unfold setWork
  refine Kept_upd (s := s) ?_ rfl rfl rfl rfl
  assumption

theorem releaseWork_kept {Q : List Instr} {s : State} {w : Work} (hs : Kept Q s) :
    Kept Q (releaseWork s w) := by
  unfold releaseWork
  grind [updCtx_kept, outDown_kept, dropWork_kept, Kept_mk]

theorem releaseAll_kept {Q : List Instr} {s : State} {k x : Nat} (hs : Kept Q s) :
    Kept Q (releaseAll s k x) := by
  unfold releaseAll
  extract_lets l0
  have hl0 : Kept Q l0 := by
    unfold l0
    refine Kept_foldl (fun s1 x2 hs1 => ?_) ?_
    · grind [releaseWork_kept, Kept_foldl2, Kept_mk]
    · assumption
  clear_value l0
  grind [releaseWork_kept, Kept_foldl2, Kept_mk]

theorem disarmCtx_kept {Q : List Instr} {s : State} {k x : Nat} (hs : Kept Q s) :
    Kept Q (disarmCtx s k x) := by
  unfold disarmCtx
  extract_lets l0
  clear_value l0
  refine Kept_foldl (fun s1 x2 hs1 => ?_) ?_
  · extract_lets l3
    have hl3 : Kept Q l3 := by
      grind [outDown_kept, wb_kept, Kept_foldl2, Kept_mk]
    clear_value l3
    grind [outDown_kept, wb_kept, Kept_foldl2, Kept_mk]
  · assumption

theorem killCtx_kept {Q : List Instr} {s : State} {k x : Nat} (hs : Kept Q s) :
    Kept Q (killCtx s k x) := by
  unfold killCtx
  extract_lets l0
  clear_value l0
  grind [wf_kept, disarmCtx_kept, releaseAll_kept, Kept_mk]

theorem triggerJob_kept {Q : List Instr} {s : State} {j cause page : Nat} (hs : Kept Q s) :
    Kept Q (triggerJob s j cause page) := by
  unfold triggerJob
  extract_lets l0
  clear_value l0
  split
  · assumption
  · refine Kept_upd (s := s) ?_ rfl rfl rfl rfl
    assumption

theorem abortCtx_kept {Q : List Instr} {s : State} {k x cause : Nat} {byJob : Bool} (hs : Kept Q s) :
    Kept Q (abortCtx s k x cause byJob) := by
  unfold abortCtx
  extract_lets l0 l1 l2 l3
  have hl0 : Kept Q l0 := by
    grind [wf_kept, setCtx_kept, killCtx_kept, wb_kept, raiseEvt_kept, triggerJob_kept, Kept_mk]
  clear_value l0
  have hl1 : Kept Q l1 := by
    grind [wf_kept, setCtx_kept, killCtx_kept, wb_kept, raiseEvt_kept, triggerJob_kept, Kept_mk]
  clear_value l1
  have hl2 : Kept Q l2 := by
    grind [wf_kept, setCtx_kept, killCtx_kept, wb_kept, raiseEvt_kept, triggerJob_kept, Kept_mk]
  clear_value l2
  have hl3 : Kept Q l3 := by
    grind [wf_kept, setCtx_kept, killCtx_kept, wb_kept, raiseEvt_kept, triggerJob_kept, Kept_mk]
  clear_value l3
  grind [wf_kept, setCtx_kept, killCtx_kept, wb_kept, raiseEvt_kept, triggerJob_kept, Kept_mk]

theorem readSegs_kept {Q : List Instr} {s : State} {k req : Nat} {a0 : List (Nat × Nat × Bool)} (hs : Kept Q s) :
    Kept Q (readSegs s k req a0).2 := by
  fun_induction readSegs <;> grind [memRead_kept, Kept, State.canonical]

theorem writeSegs_kept {Q : List Instr} {s : State} {k req hint : Nat} {a0 : List (Nat × Nat × Bool)} {a1 : Bytes} (hs : Kept Q s) :
    Kept Q (writeSegs s k req hint a0 a1).2 := by
  fun_induction writeSegs <;> grind [memWrite_kept, Kept, State.canonical]

theorem readRows_kept {Q : List Instr} {s : State} {k req : Nat} {pages : List (Nat × Nat × Bool)} {t : Tile} {a0 : List Nat} (hs : Kept Q s) :
    Kept Q (readRows s k req pages t a0).2 := by
  fun_induction readRows <;> grind [readSegs_kept, serveRow_kept, Kept, State.canonical]

theorem writeRows_kept {Q : List Instr} {s : State} {k req hint : Nat} {pages : List (Nat × Nat × Bool)} {t : Tile} {a0 : Nat} {a1 : List Bytes} (hs : Kept Q s) :
    Kept Q (writeRows s k req hint pages t a0 a1).2 := by
  fun_induction writeRows <;> grind [writeSegs_kept, serveRow_kept, Kept, State.canonical]

theorem readTile_kept {Q : List Instr} {s : State} {k req : Nat} {t : Tile} (hs : Kept Q s) :
    Kept Q (readTile s k req t).2 := by
  unfold readTile
  grind [translatePages_kept, readRows_kept, Kept_mk]

theorem writeTile_kept {Q : List Instr} {s : State} {k req hint : Nat} {t : Tile} {rows : List Bytes} (hs : Kept Q s) :
    Kept Q (writeTile s k req hint t rows).2 := by
  unfold writeTile
  grind [translatePages_kept, writeRows_kept, Kept_mk]

theorem endSlot_kept {Q : List Instr} {s : State} {w : Work} {status : Nat} (hs : Kept Q s) :
    Kept Q (endSlot s w status) := by
  unfold endSlot
  split
  · assumption
  · extract_lets l0
    have hl0 : Kept Q l0 := by
      repeat' first | assumption | with_reducible apply outDown_kept | with_reducible apply wb_kept | with_reducible apply siteSend_kept | with_reducible refine Kept_foldl (fun _ _ _ => ?_) ?_
    clear_value l0
    repeat' first | assumption | with_reducible apply outDown_kept | with_reducible apply wb_kept | with_reducible apply siteSend_kept | with_reducible refine Kept_foldl (fun _ _ _ => ?_) ?_

theorem retire_kept {Q : List Instr} {s : State} {w : Work} {status : Nat} (hs : Kept Q s) :
    Kept Q (retire s w status) := by
  unfold retire
  extract_lets l0 l1 l2 l3 l4
  clear_value l0
  have hl1 : Kept Q l1 := by
    grind [wf_kept, endSlot_kept, releaseWork_kept, addReg_kept, raiseEvt_kept, wb_kept, abortCtx_kept, Kept_mk]
  clear_value l1
  have hl2 : Kept Q l2 := by
    grind [wf_kept, endSlot_kept, releaseWork_kept, addReg_kept, raiseEvt_kept, wb_kept, abortCtx_kept, Kept_mk]
  clear_value l2
  have hl3 : Kept Q l3 := by
    grind [wf_kept, endSlot_kept, releaseWork_kept, addReg_kept, raiseEvt_kept, wb_kept, abortCtx_kept, Kept_mk]
  clear_value l3
  have hl4 : Kept Q l4 := by
    grind [wf_kept, endSlot_kept, releaseWork_kept, addReg_kept, raiseEvt_kept, wb_kept, abortCtx_kept, Kept_mk]
  clear_value l4
  grind [wf_kept, endSlot_kept, releaseWork_kept, addReg_kept, raiseEvt_kept, wb_kept, abortCtx_kept, Kept_mk]

theorem holdEvt_kept {Q : List Instr} {s : State} {w : Work} (hs : Kept Q s) :
    Kept Q (holdEvt s w) := by
  unfold holdEvt
  grind [raiseEvt_kept, Kept_mk]

theorem holdWork_kept {Q : List Instr} {s : State} {w : Work} {i : FaultInfo} (hs : Kept Q s) :
    Kept Q (holdWork s w i) := by
  unfold holdWork
  grind [recordFault_kept, holdEvt_kept, setWork_kept, Kept_mk]

theorem recordFinal_kept {Q : List Instr} {s : State} {w : Work} {i : FaultInfo} {fin : State → State} (hs : Kept Q s) (hfin : ∀ y0, Kept Q y0 → Kept Q (fin y0)) :
    Kept Q (recordFinal s w i fin) := by
  unfold recordFinal
  grind [recordFault_kept, setWork_kept, holdEvt_kept, Kept_mk]

theorem writeRecord_kept {Q : List Instr} {s : State} {w : Work} {words : List Word} (hs : Kept Q s) :
    Kept Q (writeRecord s w words) := by
  unfold writeRecord
  extract_lets l0 l1
  clear_value l0 l1
  split
  · grind [writeTile_kept, retire_kept, holdWork_kept, setWork_kept, recordFinal_kept, abortCtx_kept, Kept_mk]
  · extract_lets l2
    clear_value l2
    grind [writeTile_kept, retire_kept, holdWork_kept, setWork_kept, recordFinal_kept, abortCtx_kept, Kept_mk]
  · grind [writeTile_kept, retire_kept, holdWork_kept, setWork_kept, recordFinal_kept, abortCtx_kept, Kept_mk]

theorem complete_kept {Q : List Instr} {s : State} {w : Work} {status detail faultAddr flags : Nat} {result : Word} (hs : Kept Q s) :
    Kept Q (complete s w status detail faultAddr flags result) := by
  unfold complete
  grind [releaseWork_kept, writeRecord_kept, Kept_mk]

theorem completeSt_kept {Q : List Instr} {s : State} {w : Work} {status : Nat} (hs : Kept Q s) :
    Kept Q (completeSt s w status) := by
  unfold completeSt
  grind [complete_kept, Kept_mk]

theorem endFault_kept {Q : List Instr} {s : State} {w : Work} {page kind : Nat} (hs : Kept Q s) :
    Kept Q (endFault s w page kind) := by
  unfold endFault
  grind [abortCtx_kept, completeSt_kept, complete_kept, Kept_mk]

theorem stopWork_kept {Q : List Instr} {s : State} {w : Work} {t : Tile} {write : Bool} {a0 : Stop} (hs : Kept Q s) :
    Kept Q (stopWork s w t write a0) := by
  unfold stopWork
  split
  · grind [completeSt_kept, holdWork_kept, recordFinal_kept, endFault_kept, Kept_mk]
  · extract_lets l0
    clear_value l0
    grind [completeSt_kept, holdWork_kept, recordFinal_kept, endFault_kept, Kept_mk]

theorem onWork_kept {Q : List Instr} {s : State} {k x q op : Nat} {f : State → Work → State} (hs : Kept Q s) (hf : ∀ y0 y1, Kept Q y0 → Kept Q (f y0 y1)) :
    Kept Q (onWork s k x q op f) := by
  unfold onWork
  grind [gated_kept, Kept_mk]

theorem onMode_kept {Q : List Instr} {s : State} {k x q op mode : Nat} {f : State → Work → State} (hs : Kept Q s) (hf : ∀ y0 y1, Kept Q y0 → Kept Q (f y0 y1)) :
    Kept Q (onMode s k x q op mode f) := by
  unfold onMode
  grind [onWork_kept, Kept_mk]

theorem rerun_kept {Q : List Instr} {s : State} {mine : Work → Bool} {back : Bool} (hs : Kept Q s) :
    Kept Q (rerun s mine back) := by
  unfold rerun
  extract_lets l0 l1
  clear_value l0 l1
  refine Kept_upd (s := s) ?_ rfl rfl rfl rfl
  assumption

theorem releaseHeld_kept {Q : List Instr} {s : State} {page : Nat} {retry : Bool} {w : Work} (hs : Kept Q s) :
    Kept Q (releaseHeld s page retry w) := by
  unfold releaseHeld
  extract_lets l0 l1
  clear_value l0
  have hl1 : Kept Q l1 := by
    grind [setWork_kept, complete_kept, writeRecord_kept, abortCtx_kept, Kept_mk]
  clear_value l1
  grind [setWork_kept, complete_kept, writeRecord_kept, abortCtx_kept, Kept_mk]

theorem setHeld_kept {Q : List Instr} {s : State} {i : FaultInfo} {id : Nat} (hs : Kept Q s) :
    Kept Q (setHeld s i id) := by
  exact ⟨hs.1, hs.2⟩

theorem endFinal_kept {Q : List Instr} {s : State} {i : FaultInfo} (hs : Kept Q s) :
    Kept Q (endFinal s i) := by
  unfold endFinal
  extract_lets st s1 fetch s2
  have h1 : Kept Q s1 := by
    refine Kept_foldl (fun s w h => ?_) hs
    exact Kept_ite (setWork_kept h) (endFault_kept (setWork_kept h))
  clear_value s1
  have h2 : Kept Q s2 := Kept_mk h1
  clear_value s2
  exact Kept_foldl (fun _ _ h => abortCtx_kept h) h2

theorem pumpFaults_kept {Q : List Instr} {s : State} {k : Nat} {a0 : Nat} (hs : Kept Q s) :
    Kept Q (pumpFaults s k a0) := by
  fun_induction pumpFaults <;> grind [mergeFault_kept, setHeld_kept, allocFault_kept, endFinal_kept, markFull_kept, Kept, State.canonical]

theorem closeRecord_kept {Q : List Instr} {s : State} {r : FaultRec} {retry : Bool} {chan site : Nat} (hs : Kept Q s) :
    Kept Q (closeRecord s r retry chan site) := by
  unfold closeRecord
  extract_lets l0 l1 l2 l3 l4 l5 l6 l7 l8
  clear_value l0 l1
  have hl2 : Kept Q l2 := by
    grind [releaseHeld_kept, abortCtx_kept, pumpFaults_kept, Kept_foldl2, Kept_mk]
  clear_value l2 l3
  have hl4 : Kept Q l4 := by
    unfold l4
    refine Kept_foldl (fun s9 x10 hs9 => ?_) ?_
    · grind [releaseHeld_kept, abortCtx_kept, pumpFaults_kept, Kept_foldl2, Kept_mk]
    · assumption
  clear_value l4 l5
  have hl6 : Kept Q l6 := by
    grind [releaseHeld_kept, abortCtx_kept, pumpFaults_kept, Kept_foldl2, Kept_mk]
  clear_value l6
  have hl7 : Kept Q l7 := by
    unfold l7
    split
    · assumption
    · refine Kept_foldl (fun s11 x12 hs11 => ?_) ?_
      · grind [releaseHeld_kept, abortCtx_kept, pumpFaults_kept, Kept_foldl2, Kept_mk]
      · assumption
  clear_value l7
  have hl8 : Kept Q l8 := by
    unfold l8
    refine Kept_upd (s := l7) ?_ rfl rfl rfl rfl
    assumption
  clear_value l8
  grind [releaseHeld_kept, abortCtx_kept, pumpFaults_kept, Kept_foldl2, Kept_mk]

theorem triggerJobsOf_kept {Q : List Instr} {s : State} {k cause : Nat} (hs : Kept Q s) :
    Kept Q (triggerJobsOf s k cause) := by
  unfold triggerJobsOf
  refine Kept_foldl (fun s0 x1 hs0 => ?_) ?_
  · grind [triggerJob_kept, Kept_foldl2, Kept_mk]
  · assumption

theorem faultPart_kept {Q : List Instr} {s : State} {k : Nat} (hs : Kept Q s) :
    Kept Q (faultPart s k) := by
  unfold faultPart
  grind [triggerJobsOf_kept, setPart_kept, Kept_mk]

theorem loseDomain_kept {Q : List Instr} {s : State} {k code pos home line : Nat} (hs : Kept Q s) :
    Kept Q (loseDomain s k code pos home line) := by
  unfold loseDomain
  extract_lets l0 l1 l2 l3 l4 l5 l6 l7
  have hl0 : Kept Q l0 := by
    grind [wr_kept, sendAgent_kept, countError_kept, raiseEvt_kept, abortCtx_kept, faultPart_kept, Kept_foldl2, Kept_mk]
  clear_value l0 l1
  have hl2 : Kept Q l2 := by
    unfold l2
    refine Kept_foldl (fun s8 x9 hs8 => ?_) ?_
    · grind [wr_kept, sendAgent_kept, countError_kept, raiseEvt_kept, abortCtx_kept, faultPart_kept, Kept_foldl2, Kept_mk]
    · assumption
  clear_value l2 l3
  have hl4 : Kept Q l4 := by
    grind [wr_kept, sendAgent_kept, countError_kept, raiseEvt_kept, abortCtx_kept, faultPart_kept, Kept_foldl2, Kept_mk]
  clear_value l4
  have hl5 : Kept Q l5 := by
    grind [wr_kept, sendAgent_kept, countError_kept, raiseEvt_kept, abortCtx_kept, faultPart_kept, Kept_foldl2, Kept_mk]
  clear_value l5
  have hl6 : Kept Q l6 := by
    grind [wr_kept, sendAgent_kept, countError_kept, raiseEvt_kept, abortCtx_kept, faultPart_kept, Kept_foldl2, Kept_mk]
  clear_value l6
  have hl7 : Kept Q l7 := by
    unfold l7
    refine Kept_foldl (fun s10 x11 hs10 => ?_) ?_
    · grind [wr_kept, sendAgent_kept, countError_kept, raiseEvt_kept, abortCtx_kept, faultPart_kept, Kept_foldl2, Kept_mk]
    · assumption
  clear_value l7
  grind [wr_kept, sendAgent_kept, countError_kept, raiseEvt_kept, abortCtx_kept, faultPart_kept, Kept_foldl2, Kept_mk]

end Sys2Proof.Machine
end

