-- ==== Sys2Proof/Laws/KeptCores.lean ====
section
/-!
SUPPORT. What Machine/Cores.lean does keeps the canonical form and the queue.
-/

set_option Elab.async false

namespace Sys2Proof.Machine

open Sys2Proof

theorem setCore_kept {Q : List Instr} {s : State} {c j st : Nat} (hs : Kept Q s) :
    Kept Q (setCore s c j st) := by
  unfold setCore
  grind [wf_kept, Kept_mk]

theorem setMap_kept {Q : List Instr} {s : State} {c i phys : Nat} {down : Bool} (hs : Kept Q s) :
    Kept Q (setMap s c i phys down) := by
  unfold setMap
  extract_lets l0
  clear_value l0
  grind [wf_kept, Kept_mk]

theorem withCapacity_kept {Q : List Instr} {s : State} {k : Nat} {f : State → State} (hs : Kept Q s) (hf : ∀ y0, Kept Q y0 → Kept Q (f y0)) :
    Kept Q (withCapacity s k f) := by
  unfold withCapacity
  extract_lets l0
  have hl0 : Kept Q l0 := by
    grind [raiseEvt_kept, Kept_mk]
  clear_value l0
  grind [raiseEvt_kept, Kept_mk]

theorem startFence_kept {Q : List Instr} {s : State} {c j cause : Nat} (hs : Kept Q s) :
    Kept Q (startFence s c j cause) := by
  unfold startFence
  grind [withCapacity_kept, setCore_kept, Kept_mk]

theorem abandonSpareTest_kept {Q : List Instr} {s : State} {c : Nat} (hs : Kept Q s) :
    Kept Q (abandonSpareTest s c) := by
  unfold abandonSpareTest
  grind [raiseEvt_kept, wf_kept, wb_kept, Kept_mk]

theorem endTest_kept {Q : List Instr} {s : State} {c : Nat} (hs : Kept Q s) :
    Kept Q (endTest s c) := by
  unfold endTest
  grind [withCapacity_kept, setCore_kept, abandonSpareTest_kept, Kept_mk]

theorem finishFence_kept {Q : List Instr} {s : State} {c j i cause : Nat} {ctx : Option Nat} {spare down : Bool} (hs : Kept Q s) :
    Kept Q (finishFence s c j i cause ctx spare down) := by
  unfold finishFence
  extract_lets l0 l1 l2 l3 l4 l5 l6 l7
  clear_value l0
  have hl1 : Kept Q l1 := by
    grind [setCore_kept, wr_kept, addReg_kept, countError_kept, raiseEvt_kept, Kept_mk]
  clear_value l1
  have hl2 : Kept Q l2 := by
    grind [setCore_kept, wr_kept, addReg_kept, countError_kept, raiseEvt_kept, Kept_mk]
  clear_value l2
  have hl3 : Kept Q l3 := by
    grind [setCore_kept, wr_kept, addReg_kept, countError_kept, raiseEvt_kept, Kept_mk]
  clear_value l3 l4 l5
  have hl6 : Kept Q l6 := by
    grind [setCore_kept, wr_kept, addReg_kept, countError_kept, raiseEvt_kept, Kept_mk]
  clear_value l6
  have hl7 : Kept Q l7 := by
    grind [setCore_kept, wr_kept, addReg_kept, countError_kept, raiseEvt_kept, Kept_mk]
  clear_value l7
  grind [setCore_kept, wr_kept, addReg_kept, countError_kept, raiseEvt_kept, Kept_mk]

theorem moveIndex_kept {Q : List Instr} {s : State} {c j i cause : Nat} (hs : Kept Q s) :
    Kept Q (moveIndex s c j i cause) := by
  unfold moveIndex
  extract_lets l0 l1 l2 l3 l4 l5
  clear_value l0 l1 l2 l3
  have hl4 : Kept Q l4 := by
    grind [rerun_kept, abandonSpareTest_kept, finishFence_kept, raiseEvt_kept, setCore_kept, setMap_kept, Kept_mk]
  clear_value l4
  have hl5 : Kept Q l5 := by
    grind [rerun_kept, abandonSpareTest_kept, finishFence_kept, raiseEvt_kept, setCore_kept, setMap_kept, Kept_mk]
  clear_value l5
  grind [rerun_kept, abandonSpareTest_kept, finishFence_kept, raiseEvt_kept, setCore_kept, setMap_kept, Kept_mk]

theorem drainFence_kept {Q : List Instr} {s : State} {c j cause : Nat} (hs : Kept Q s) :
    Kept Q (drainFence s c j cause) := by
  unfold drainFence
  grind [withCapacity_kept, finishFence_kept, moveIndex_kept, Kept_mk]

theorem coreCause_kept {Q : List Instr} {s : State} {c j cause : Nat} (hs : Kept Q s) :
    Kept Q (coreCause s c j cause) := by
  unfold coreCause
  extract_lets l0
  clear_value l0
  grind [drainFence_kept, abandonSpareTest_kept, startFence_kept, Kept_mk]

theorem execCoreFault_kept {Q : List Instr} {phys cause : Nat} {s : State} (hs : Kept Q s) :
    KeptRes Q (execCoreFault phys cause s) := by
  unfold execCoreFault
  refine KeptRes_next ?_
  grind [addReg_kept, coreCause_kept, KeptRes_next, KeptRes_fault, Kept_mk]

theorem execSeqStall_kept {Q : List Instr} {phys : Nat} {s : State} (hs : Kept Q s) :
    KeptRes Q (execSeqStall phys s) := by
  unfold execSeqStall
  refine KeptRes_next ?_
  grind [coreCause_kept, KeptRes_next, KeptRes_fault, Kept_mk]

theorem execCoreFence_kept {Q : List Instr} {fn c : Nat} {v : Word} {s : State} (hs : Kept Q s) :
    KeptRes Q (execCoreFence fn c v s) := by
  unfold execCoreFence
  extract_lets l0
  clear_value l0
  refine KeptRes_next ?_
  grind [withOperator_kept, guarded_kept, startFence_kept, KeptRes_next, KeptRes_fault, Kept_mk]

theorem execCoreFenceDrained_kept {Q : List Instr} {c j : Nat} {s : State} (hs : Kept Q s) :
    KeptRes Q (execCoreFenceDrained c j s) := by
  unfold execCoreFenceDrained
  refine KeptRes_next ?_
  grind [drainFence_kept, KeptRes_next, KeptRes_fault, Kept_mk]

theorem execSpareTest_kept {Q : List Instr} {fn c : Nat} {s : State} (hs : Kept Q s) :
    KeptRes Q (execSpareTest fn c s) := by
  unfold execSpareTest
  refine KeptRes_next ?_
  grind [withOperator_kept, guarded_kept, withCapacity_kept, wb_kept, setCore_kept, KeptRes_next, KeptRes_fault, Kept_mk]

theorem execSpareTestDone_kept {Q : List Instr} {c : Nat} {pass : Bool} {s : State} (hs : Kept Q s) :
    KeptRes Q (execSpareTestDone c pass s) := by
  unfold execSpareTestDone
  extract_lets l0 l1
  have hl0 : Kept Q l0 := by
    grind [wf_kept, wb_kept, withCapacity_kept, setCore_kept, drainFence_kept, raiseEvt_kept, KeptRes_next, KeptRes_fault, Kept_mk]
  clear_value l0
  have hl1 : Kept Q l1 := by
    grind [wf_kept, wb_kept, withCapacity_kept, setCore_kept, drainFence_kept, raiseEvt_kept, KeptRes_next, KeptRes_fault, Kept_mk]
  clear_value l1
  grind [wf_kept, wb_kept, withCapacity_kept, setCore_kept, drainFence_kept, raiseEvt_kept, KeptRes_next, KeptRes_fault, Kept_mk]

theorem fenceCluster_kept {Q : List Instr} {s : State} {c bank : Nat} (hs : Kept Q s) :
    Kept Q (fenceCluster s c bank) := by
  unfold fenceCluster
  extract_lets l0 l1 l2
  clear_value l0 l1
  have hl2 : Kept Q l2 := by
    grind [loseDomain_kept, setState_kept, Kept_mk]
  clear_value l2
  grind [loseDomain_kept, setState_kept, Kept_mk]

theorem markBank_kept {Q : List Instr} {s : State} {c bank : Nat} (hs : Kept Q s) :
    Kept Q (markBank s c bank) := by
  unfold markBank
  extract_lets l0
  have hl0 : Kept Q l0 := by
    grind [raiseEvt_kept, fenceCluster_kept, Kept_mk]
  clear_value l0
  grind [raiseEvt_kept, fenceCluster_kept, Kept_mk]

theorem bankCorrected_kept {Q : List Instr} {s : State} {c bank : Nat} (hs : Kept Q s) :
    Kept Q (bankCorrected s c bank) := by
  unfold bankCorrected
  extract_lets l0 l1 l2
  clear_value l0 l1
  have hl2 : Kept Q l2 := by
    grind [markBank_kept, Kept_mk]
  clear_value l2
  grind [markBank_kept, Kept_mk]

theorem execCacheAccessError_kept {Q : List Instr} {c bank : Nat} {tag ue : Bool} {s : State} (hs : Kept Q s) :
    KeptRes Q (execCacheAccessError c bank tag ue s) := by
  unfold execCacheAccessError
  extract_lets l0 l1 l2
  have hl0 : Kept Q l0 := by
    grind [countError_kept, loseDomain_kept, markBank_kept, addReg_kept, bankCorrected_kept, KeptRes_next, KeptRes_fault, Kept_mk]
  clear_value l0
  have hl1 : Kept Q l1 := by
    grind [countError_kept, loseDomain_kept, markBank_kept, addReg_kept, bankCorrected_kept, KeptRes_next, KeptRes_fault, Kept_mk]
  clear_value l1
  have hl2 : Kept Q l2 := by
    grind [countError_kept, loseDomain_kept, markBank_kept, addReg_kept, bankCorrected_kept, KeptRes_next, KeptRes_fault, Kept_mk]
  clear_value l2
  grind [countError_kept, loseDomain_kept, markBank_kept, addReg_kept, bankCorrected_kept, KeptRes_next, KeptRes_fault, Kept_mk]

end Sys2Proof.Machine
end

