-- ==== Sys2Proof/Laws/KeptCvu.lean ====
section
/-!
SUPPORT. What Machine/Cvu.lean does keeps the canonical form and the queue.
-/

set_option Elab.async false

namespace Sys2Proof.Machine

open Sys2Proof

theorem cvuBytes_kept {Q : List Instr} {s : State} {u : Nat} {b : Bytes} (hs : Kept Q s) :
    Kept Q (cvuBytes s u b) := by
  unfold cvuBytes
  grind [wr_kept, Kept_mk]

theorem cvuBegin_kept {Q : List Instr} {s : State} {u : Nat} (hs : Kept Q s) :
    Kept Q (cvuBegin s u) := by
  unfold cvuBegin
  extract_lets l0 l1
  clear_value l0
  have hl1 : Kept Q l1 := by
    grind [wb_kept, wr_kept, cvuBytes_kept, Kept_mk]
  clear_value l1
  grind [wb_kept, wr_kept, cvuBytes_kept, Kept_mk]

theorem cvuEnd_kept {Q : List Instr} {s : State} {u : Nat} {res : Option Bool} (hs : Kept Q s) :
    Kept Q (cvuEnd s u res) := by
  unfold cvuEnd
  extract_lets l0 l1 l2 l3
  clear_value l0
  have hl1 : Kept Q l1 := by
    grind [wr_kept, raiseEvt_kept, addReg_kept, wb_kept, wf_kept, Kept_mk]
  clear_value l1
  have hl2 : Kept Q l2 := by
    grind [wr_kept, raiseEvt_kept, addReg_kept, wb_kept, wf_kept, Kept_mk]
  clear_value l2
  have hl3 : Kept Q l3 := by
    grind [wr_kept, raiseEvt_kept, addReg_kept, wb_kept, wf_kept, Kept_mk]
  clear_value l3
  grind [wr_kept, raiseEvt_kept, addReg_kept, wb_kept, wf_kept, Kept_mk]

theorem execCvuOpen_kept {Q : List Instr} {fn u : Nat} {s : State} (hs : Kept Q s) :
    KeptRes Q (execCvuOpen fn u s) := by
  unfold execCvuOpen
  refine KeptRes_next ?_
  grind [withWrite_kept, guarded_kept, cvuBegin_kept, KeptRes_next, KeptRes_fault, Kept_mk]

theorem execCvuClose_kept {Q : List Instr} {fn u : Nat} {s : State} (hs : Kept Q s) :
    KeptRes Q (execCvuClose fn u s) := by
  unfold execCvuClose
  refine KeptRes_next ?_
  grind [withWrite_kept, guarded_kept, cvuEnd_kept, KeptRes_next, KeptRes_fault, Kept_mk]

theorem execCvuFeed_kept {Q : List Instr} {fn u : Nat} {v : Word} {s : State} (hs : Kept Q s) :
    KeptRes Q (execCvuFeed fn u v s) := by
  unfold execCvuFeed
  extract_lets l0
  clear_value l0
  refine KeptRes_next ?_
  grind [withWrite_kept, guarded_kept, cvuBytes_kept, KeptRes_next, KeptRes_fault, Kept_mk]

theorem execCvuAssign_kept {Q : List Instr} {fn u : Nat} {v : Word} {s : State} (hs : Kept Q s) :
    KeptRes Q (execCvuAssign fn u v s) := by
  unfold execCvuAssign
  extract_lets l0
  clear_value l0
  refine KeptRes_next ?_
  split
  · assumption
  · split
    · grind [withOperator_kept, guarded_kept, updWire_kept, wr_kept, KeptRes_next, KeptRes_fault, Kept_mk]
    · grind [withOperator_kept, guarded_kept, updWire_kept, wr_kept, KeptRes_next, KeptRes_fault, Kept_mk]

theorem execCvuRunWrite_kept {Q : List Instr} {fn u : Nat} {alive : Bool} {v : Word} {s : State} (hs : Kept Q s) :
    KeptRes Q (execCvuRunWrite fn u alive v s) := by
  unfold execCvuRunWrite
  refine KeptRes_next ?_
  grind [withWrite_kept, guarded_kept, wr_kept, KeptRes_next, KeptRes_fault, Kept_mk]

theorem cvuDrop_kept {Q : List Instr} {s : State} {u : Nat} (hs : Kept Q s) :
    Kept Q (cvuDrop s u) := by
  unfold cvuDrop
  grind [wb_kept, Kept_mk]

end Sys2Proof.Machine
end

