-- ==== Sys2Proof/Laws/KeptMail.lean ====
section
/-!
SUPPORT. What Machine/Mail.lean does keeps the canonical form and the queue.
-/

set_option Elab.async false

namespace Sys2Proof.Machine

open Sys2Proof

theorem reply_kept {Q : List Instr} {s : State} {sec : Bool} {f code status : Nat} {body : Bytes} (hs : Kept Q s) :
    Kept Q (reply s sec f code status body) := by
  unfold reply
  split
  · refine Kept_upd (s := s) ?_ rfl rfl rfl rfl
    assumption
  · assumption

theorem onTaken_kept {Q : List Instr} {s : State} {sec : Bool} {f code : Nat} {k : State → Bytes → State} (hs : Kept Q s) (hk : ∀ y0 y1, Kept Q y0 → Kept Q (k y0 y1)) :
    Kept Q (onTaken s sec f code k) := by
  unfold onTaken
  grind [Kept_mk]

theorem zeroWords_kept {Q : List Instr} {s : State} {p : Nat} {off : Nat → Nat} (hs : Kept Q s) :
    Kept Q (zeroWords s p off) := by
  unfold zeroWords
  refine Kept_foldl (fun s0 x1 hs0 => ?_) ?_
  · grind [wr_kept, Kept_foldl2, Kept_mk]
  · assumption

theorem clearMbx_kept {Q : List Instr} {s : State} {sec : Bool} {f : Nat} (hs : Kept Q s) :
    Kept Q (clearMbx s sec f) := by
  unfold clearMbx
  extract_lets l0 l1 l2 l3
  clear_value l0
  have hl1 : Kept Q l1 := by
    grind [zeroWords_kept, wf_kept, wb_kept, Kept_mk]
  clear_value l1
  have hl2 : Kept Q l2 := by
    grind [zeroWords_kept, wf_kept, wb_kept, Kept_mk]
  clear_value l2 l3
  grind [zeroWords_kept, wf_kept, wb_kept, Kept_mk]

theorem endSessions_kept {Q : List Instr} {s : State} {f : Nat} (hs : Kept Q s) :
    Kept Q (endSessions s f) := by
  unfold endSessions
  extract_lets l0
  clear_value l0
  refine Kept_upd (s := s) ?_ rfl rfl rfl rfl
  assumption

theorem freeKey_kept {Q : List Instr} {s : State} {k i : Nat} (hs : Kept Q s) :
    Kept Q (freeKey s k i) := by
  unfold freeKey
  extract_lets l0 l1 l2
  clear_value l0 l1
  have hl2 : Kept Q l2 := by
    grind [wr_kept, raiseEvt_kept, Kept_mk]
  clear_value l2
  grind [wr_kept, raiseEvt_kept, Kept_mk]

theorem zeroiseKeys_kept {Q : List Instr} {s : State} {k : Nat} (hs : Kept Q s) :
    Kept Q (zeroiseKeys s k) := by
  unfold zeroiseKeys
  refine Kept_foldl (fun s0 x1 hs0 => ?_) ?_
  · grind [freeKey_kept, Kept_foldl2, Kept_mk]
  · assumption

theorem bindKey_kept {Q : List Instr} {s : State} {k i : Nat} (hs : Kept Q s) :
    Kept Q (bindKey s k i) := by
  unfold bindKey
  grind [wf_kept, Kept_mk]

theorem unbindKey_kept {Q : List Instr} {s : State} {k i : Nat} (hs : Kept Q s) :
    Kept Q (unbindKey s k i) := by
  unfold unbindKey
  grind [wf_kept, Kept_mk]

theorem extendMr_kept {Q : List Instr} {s : State} {k m : Nat} {v : Bytes} (hs : Kept Q s) :
    Kept Q (extendMr s k m v) := by
  unfold extendMr
  extract_lets l0
  have hl0 : Kept Q l0 := by
    grind [wrWords_kept, wf_kept, Kept_mk]
  clear_value l0
  grind [wrWords_kept, wf_kept, Kept_mk]

end Sys2Proof.Machine
end

