-- ==== Sys2Proof/Laws/KeptDma.lean ====
section
/-!
SUPPORT. What Machine/Dma.lean does keeps the canonical form and the queue.
-/

set_option Elab.async false

namespace Sys2Proof.Machine

open Sys2Proof

theorem setChan_kept {Q : List Instr} {s : State} {c : Nat} {ch : Chan} (hs : Kept Q s) :
    Kept Q (setChan s c ch) := by
  unfold setChan
  refine Kept_upd (s := s) ?_ rfl rfl rfl rfl
  assumption

theorem closeDigest_kept {Q : List Instr} {s : State} {c f seq : Nat} {w : List Word} {text : Bytes} (hs : Kept Q s) :
    Kept Q (closeDigest s c f seq w text) := by
  unfold closeDigest
  extract_lets l0 l1 l2
  clear_value l0
  have hl1 : Kept Q l1 := by
    grind [wrWords_kept, wr_kept, raiseEvt_kept, extendMr_kept, Kept_mk]
  clear_value l1
  have hl2 : Kept Q l2 := by
    grind [wrWords_kept, wr_kept, raiseEvt_kept, extendMr_kept, Kept_mk]
  clear_value l2
  grind [wrWords_kept, wr_kept, raiseEvt_kept, extendMr_kept, Kept_mk]

theorem digestAfter_kept {Q : List Instr} {s : State} {c f seq status : Nat} {w : List Word} {plain : Bytes} (hs : Kept Q s) :
    Kept Q (digestAfter s c f seq status w plain) := by
  unfold digestAfter
  extract_lets l0 l1
  clear_value l0 l1
  grind [setChan_kept, closeDigest_kept, Kept_mk]

theorem dmaEnd_kept {Q : List Instr} {s : State} {c status detail page bytes code : Nat} {plain : Bytes} (hs : Kept Q s) :
    Kept Q (dmaEnd s c status detail page bytes code plain) := by
  unfold dmaEnd
  extract_lets l0 l1 l2 l3
  clear_value l0 l1 l2 l3
  split
  · assumption
  · extract_lets l4 l5 l6 l7 l8 l9 l10 l11 l12 l13
    have hl4 : Kept Q l4 := by
      grind [writeHost_kept, addReg_kept, wf_kept, setChan_kept, unbindKey_kept, outDown_kept, cvuDrop_kept, digestAfter_kept, raiseEvt_kept, setState_kept, countError_kept, Kept_mk]
    clear_value l4
    have hl5 : Kept Q l5 := by
      grind [writeHost_kept, addReg_kept, wf_kept, setChan_kept, unbindKey_kept, outDown_kept, cvuDrop_kept, digestAfter_kept, raiseEvt_kept, setState_kept, countError_kept, Kept_mk]
    clear_value l5
    have hl6 : Kept Q l6 := by
      grind [writeHost_kept, addReg_kept, wf_kept, setChan_kept, unbindKey_kept, outDown_kept, cvuDrop_kept, digestAfter_kept, raiseEvt_kept, setState_kept, countError_kept, Kept_mk]
    clear_value l6
    have hl7 : Kept Q l7 := by
      grind [writeHost_kept, addReg_kept, wf_kept, setChan_kept, unbindKey_kept, outDown_kept, cvuDrop_kept, digestAfter_kept, raiseEvt_kept, setState_kept, countError_kept, Kept_mk]
    clear_value l7
    have hl8 : Kept Q l8 := by
      grind [writeHost_kept, addReg_kept, wf_kept, setChan_kept, unbindKey_kept, outDown_kept, cvuDrop_kept, digestAfter_kept, raiseEvt_kept, setState_kept, countError_kept, Kept_mk]
    clear_value l8
    have hl9 : Kept Q l9 := by
      grind [writeHost_kept, addReg_kept, wf_kept, setChan_kept, unbindKey_kept, outDown_kept, cvuDrop_kept, digestAfter_kept, raiseEvt_kept, setState_kept, countError_kept, Kept_mk]
    clear_value l9
    have hl10 : Kept Q l10 := by
      grind [writeHost_kept, addReg_kept, wf_kept, setChan_kept, unbindKey_kept, outDown_kept, cvuDrop_kept, digestAfter_kept, raiseEvt_kept, setState_kept, countError_kept, Kept_mk]
    clear_value l10
    have hl11 : Kept Q l11 := by
      grind [writeHost_kept, addReg_kept, wf_kept, setChan_kept, unbindKey_kept, outDown_kept, cvuDrop_kept, digestAfter_kept, raiseEvt_kept, setState_kept, countError_kept, Kept_mk]
    clear_value l11
    have hl12 : Kept Q l12 := by
      grind [writeHost_kept, addReg_kept, wf_kept, setChan_kept, unbindKey_kept, outDown_kept, cvuDrop_kept, digestAfter_kept, raiseEvt_kept, setState_kept, countError_kept, Kept_mk]
    clear_value l12
    have hl13 : Kept Q l13 := by
      grind [writeHost_kept, addReg_kept, wf_kept, setChan_kept, unbindKey_kept, outDown_kept, cvuDrop_kept, digestAfter_kept, raiseEvt_kept, setState_kept, countError_kept, Kept_mk]
    clear_value l13
    grind [writeHost_kept, addReg_kept, wf_kept, setChan_kept, unbindKey_kept, outDown_kept, cvuDrop_kept, digestAfter_kept, raiseEvt_kept, setState_kept, countError_kept, Kept_mk]

theorem dmaRead_kept {Q : List Instr} {s : State} {c f dev n : Nat} (hs : Kept Q s) :
    Kept Q (dmaRead s c f dev n).2 := by
  unfold dmaRead
  grind [devRead_kept, readTile_kept, Kept_mk]

theorem dmaWrite_kept {Q : List Instr} {s : State} {c f dev hint : Nat} {b : Bytes} (hs : Kept Q s) :
    Kept Q (dmaWrite s c f dev hint b).2 := by
  unfold dmaWrite
  extract_lets l0
  have hl0 : Kept Q l0.2 := by
    grind [devWrite_kept, writeTile_kept, Kept_mk]
  clear_value l0
  grind [devWrite_kept, writeTile_kept, Kept_mk]

theorem dmaStop_kept {Q : List Instr} {s : State} {c f va n : Nat} {write : Bool} {e : Stop} (hs : Kept Q s) :
    Kept Q (dmaStop s c f va n write e) := by
  unfold dmaStop
  extract_lets l0 l1
  clear_value l0
  have hl1 : Kept Q l1 := by
    grind [dmaEnd_kept, raiseEvt_kept, recordFault_kept, setChan_kept, Kept_mk]
  clear_value l1
  split
  · grind [dmaEnd_kept, raiseEvt_kept, recordFault_kept, setChan_kept, Kept_mk]
  · extract_lets l2
    clear_value l2
    split
    · split
      · extract_lets l3
        clear_value l3
        grind [dmaEnd_kept, raiseEvt_kept, recordFault_kept, setChan_kept, Kept_mk]
      · extract_lets l4
        clear_value l4
        grind [dmaEnd_kept, raiseEvt_kept, recordFault_kept, setChan_kept, Kept_mk]
    · split
      · grind [dmaEnd_kept, raiseEvt_kept, recordFault_kept, setChan_kept, Kept_mk]
      · extract_lets l5
        clear_value l5
        grind [dmaEnd_kept, raiseEvt_kept, recordFault_kept, setChan_kept, Kept_mk]
  · grind [dmaEnd_kept, raiseEvt_kept, recordFault_kept, setChan_kept, Kept_mk]

theorem burstCvu_kept {Q : List Instr} {s : State} {c f : Nat} {w : List Word} {b : Bytes} (hs : Kept Q s) :
    Kept Q (burstCvu s c f w b) := by
  unfold burstCvu
  grind [cvuBytes_kept, Kept_mk]

theorem h2dBursts_kept {Q : List Instr} {a0 : Nat} {a1 : State} {a2 : Nat} {a3 : Nat} {a4 : Nat} {a5 : List Word} (ha1 : Kept Q a1) :
    Kept Q (h2dBursts a0 a1 a2 a3 a4 a5).2 := by
  fun_induction h2dBursts <;> grind [setChan_kept, addReg_kept, dmaWrite_kept, dmaStop_kept, burstCvu_kept, Kept, State.canonical]

theorem d2hBursts_kept {Q : List Instr} {a0 : Nat} {a1 : State} {a2 : Nat} {a3 : Nat} {a4 : Nat} {a5 : List Word} (ha1 : Kept Q a1) :
    Kept Q (d2hBursts a0 a1 a2 a3 a4 a5).2 := by
  fun_induction d2hBursts <;> grind [dmaRead_kept, dmaStop_kept, addReg_kept, writeHost_kept, burstCvu_kept, setChan_kept, Kept, State.canonical]

theorem zeroDest_kept {Q : List Instr} {a0 : Nat} {a1 : State} {a2 : Nat} {a3 : Nat} {a4 : List Word} {a5 : Nat} (ha1 : Kept Q a1) :
    Kept Q (zeroDest a0 a1 a2 a3 a4 a5) := by
  fun_induction zeroDest <;> grind [dmaWrite_kept, Kept, State.canonical]

theorem h2dFinish_kept {Q : List Instr} {s : State} {c f : Nat} {w : List Word} (hs : Kept Q s) :
    Kept Q (h2dFinish s c f w) := by
  unfold h2dFinish
  extract_lets l0 l1 l2 l3
  clear_value l0 l1 l2
  have hl3 : Kept Q l3 := by
    grind [addReg_kept, dmaEnd_kept, zeroDest_kept, cvuEnd_kept, Kept_mk]
  clear_value l3
  split
  · grind [addReg_kept, dmaEnd_kept, zeroDest_kept, cvuEnd_kept, Kept_mk]
  · split
    · extract_lets l4 l5
      clear_value l4
      have hl5 : Kept Q l5 := by
        grind [addReg_kept, dmaEnd_kept, zeroDest_kept, cvuEnd_kept, Kept_mk]
      clear_value l5
      grind [addReg_kept, dmaEnd_kept, zeroDest_kept, cvuEnd_kept, Kept_mk]
    · grind [addReg_kept, dmaEnd_kept, zeroDest_kept, cvuEnd_kept, Kept_mk]

theorem d2hFinish_kept {Q : List Instr} {s : State} {c f : Nat} {w : List Word} (hs : Kept Q s) :
    Kept Q (d2hFinish s c f w) := by
  unfold d2hFinish
  split
  · extract_lets l0
    have hl0 : Kept Q l0 := by
      grind [addReg_kept, writeHost_kept, dmaEnd_kept, cvuEnd_kept, Kept_mk]
    clear_value l0
    grind [addReg_kept, writeHost_kept, dmaEnd_kept, cvuEnd_kept, Kept_mk]
  · grind [addReg_kept, writeHost_kept, dmaEnd_kept, cvuEnd_kept, Kept_mk]

theorem dmaMove_kept {Q : List Instr} {s : State} {c f n : Nat} (hs : Kept Q s) :
    Kept Q (dmaMove s c f n) := by
  unfold dmaMove
  split
  · assumption
  · extract_lets l0 l1
    have hl0 : Kept Q l0.2 := by
      grind [h2dBursts_kept, h2dFinish_kept, d2hBursts_kept, d2hFinish_kept, dmaWrite_kept, dmaEnd_kept, addReg_kept, dmaStop_kept, Kept_mk]
    clear_value l0
    have hl1 : Kept Q l1.2 := by
      grind [h2dBursts_kept, h2dFinish_kept, d2hBursts_kept, d2hFinish_kept, dmaWrite_kept, dmaEnd_kept, addReg_kept, dmaStop_kept, Kept_mk]
    clear_value l1
    grind [h2dBursts_kept, h2dFinish_kept, d2hBursts_kept, d2hFinish_kept, dmaWrite_kept, dmaEnd_kept, addReg_kept, dmaStop_kept, Kept_mk]

theorem dmaTake_kept {Q : List Instr} {s : State} {c f : Nat} {w : List Word} (hs : Kept Q s) :
    Kept Q (dmaTake s c f w).2 := by
  unfold dmaTake
  extract_lets l0 l1 l2 l3 l4 l5 l6 l7 l8 l9 l10
  clear_value l0 l1
  have hl2 : Kept Q l2 := by
    grind [wf_kept, addReg_kept, setChan_kept, outUp_kept, dmaEnd_kept, bindKey_kept, cvuBegin_kept, Kept_mk]
  clear_value l2 l3
  have hl4 : Kept Q l4 := by
    grind [wf_kept, addReg_kept, setChan_kept, outUp_kept, dmaEnd_kept, bindKey_kept, cvuBegin_kept, Kept_mk]
  clear_value l4
  have hl5 : Kept Q l5 := by
    grind [wf_kept, addReg_kept, setChan_kept, outUp_kept, dmaEnd_kept, bindKey_kept, cvuBegin_kept, Kept_mk]
  clear_value l5 l6 l7 l8
  have hl9 : Kept Q l9 := by
    grind [wf_kept, addReg_kept, setChan_kept, outUp_kept, dmaEnd_kept, bindKey_kept, cvuBegin_kept, Kept_mk]
  clear_value l9 l10
  grind [wf_kept, addReg_kept, setChan_kept, outUp_kept, dmaEnd_kept, bindKey_kept, cvuBegin_kept, Kept_mk]

theorem dmaRun_kept {Q : List Instr} {s : State} {c op : Nat} {n : List Word → Nat} (hs : Kept Q s) :
    Kept Q (dmaRun s c op n) := by
  unfold dmaRun
  grind [gated_kept, dmaEnd_kept, dmaMove_kept, dmaTake_kept, Kept_mk]

theorem execH2d_kept {Q : List Instr} {c : Nat} {host : List (Nat × Byte)} {s : State} (hs : Kept Q s) :
    KeptRes Q (execH2d c host s) := by
  unfold execH2d
  refine KeptRes_next ?_
  grind [dmaRun_kept, hostWrites_kept, KeptRes_next, KeptRes_fault, Kept_mk]

theorem execD2h_kept {Q : List Instr} {c : Nat} {host : List (Nat × Byte)} {s : State} (hs : Kept Q s) :
    KeptRes Q (execD2h c host s) := by
  unfold execD2h
  refine KeptRes_next ?_
  grind [dmaRun_kept, hostWrites_kept, KeptRes_next, KeptRes_fault, Kept_mk]

theorem execImm_kept {Q : List Instr} {c : Nat} {host : List (Nat × Byte)} {s : State} (hs : Kept Q s) :
    KeptRes Q (execImm c host s) := by
  unfold execImm
  refine KeptRes_next ?_
  grind [dmaRun_kept, hostWrites_kept, KeptRes_next, KeptRes_fault, Kept_mk]

theorem failData_kept {Q : List Instr} {s : State} {c f status code : Nat} {w : List Word} {mark : State → State} (hs : Kept Q s) (hmark : ∀ y0, Kept Q y0 → Kept Q (mark y0)) :
    Kept Q (failData s c f status code w mark) := by
  unfold failData
  extract_lets l0 l1 l2
  have hl0 : Kept Q l0.2 := by
    grind [draw_kept, dmaMove_kept, dmaEnd_kept, Kept_mk]
  clear_value l0
  have hl1 : Kept Q l1 := by
    grind [draw_kept, dmaMove_kept, dmaEnd_kept, Kept_mk]
  clear_value l1 l2
  grind [draw_kept, dmaMove_kept, dmaEnd_kept, Kept_mk]

theorem hostFail_kept {Q : List Instr} {s : State} {c status code : Nat} {mark : State → State} (hs : Kept Q s) (hmark : ∀ y0, Kept Q y0 → Kept Q (mark y0)) :
    Kept Q (hostFail s c status code mark) := by
  unfold hostFail
  extract_lets l0 l1 l2 l3 l4
  clear_value l0 l1 l2
  have hl3 : Kept Q l3 := by
    grind [failData_kept, dmaTake_kept, wf_kept, dmaEnd_kept, setChan_kept, Kept_mk]
  clear_value l3 l4
  split
  · grind [failData_kept, dmaTake_kept, wf_kept, dmaEnd_kept, setChan_kept, Kept_mk]
  · extract_lets l5
    have hl5 : Kept Q l5.2 := by
      grind [failData_kept, dmaTake_kept, wf_kept, dmaEnd_kept, setChan_kept, Kept_mk]
    clear_value l5
    grind [failData_kept, dmaTake_kept, wf_kept, dmaEnd_kept, setChan_kept, Kept_mk]
  · grind [failData_kept, dmaTake_kept, wf_kept, dmaEnd_kept, setChan_kept, Kept_mk]

theorem execHostCompletion_kept {Q : List Instr} {c : Nat} {kind : HostError} {s : State} (hs : Kept Q s) :
    KeptRes Q (execHostCompletion c kind s) := by
  unfold execHostCompletion
  refine KeptRes_next ?_
  grind [hostFail_kept, addReg_kept, countError_kept, KeptRes_next, KeptRes_fault, Kept_mk]

theorem execCplTimeout_kept {Q : List Instr} {c : Nat} {s : State} (hs : Kept Q s) :
    KeptRes Q (execCplTimeout c s) := by
  unfold execCplTimeout
  refine KeptRes_next ?_
  grind [hostFail_kept, raiseEvt_kept, countError_kept, addReg_kept, KeptRes_next, KeptRes_fault, Kept_mk]

theorem resetChan_kept {Q : List Instr} {s : State} {c : Nat} {keep : Bool} (hs : Kept Q s) :
    Kept Q (resetChan s c keep) := by
  unfold resetChan
  extract_lets l0 l1 l2 l3 l4 l5
  clear_value l0
  have hl1 : Kept Q l1 := by
    grind [dmaEnd_kept, wr_kept, resetRegs_kept, setChan_kept, Kept_mk]
  clear_value l1 l2 l3
  have hl4 : Kept Q l4 := by
    grind [dmaEnd_kept, wr_kept, resetRegs_kept, setChan_kept, Kept_mk]
  clear_value l4
  have hl5 : Kept Q l5 := by
    grind [dmaEnd_kept, wr_kept, resetRegs_kept, setChan_kept, Kept_mk]
  clear_value l5
  grind [dmaEnd_kept, wr_kept, resetRegs_kept, setChan_kept, Kept_mk]

theorem execDmaAssign_kept {Q : List Instr} {fn c : Nat} {v : Word} {s : State} (hs : Kept Q s) :
    KeptRes Q (execDmaAssign fn c v s) := by
  unfold execDmaAssign
  extract_lets l0 l1
  clear_value l0 l1
  refine KeptRes_next ?_
  split
  · assumption
  · split
    · repeat' first | assumption | with_reducible apply Kept_ite | with_reducible apply withOperator_kept | with_reducible apply guarded_kept | with_reducible apply wr_kept | with_reducible apply setChan_kept | with_reducible apply resetRegs_kept | with_reducible apply updWire_kept | (with_reducible refine fun _ _ => ?_)
    · extract_lets l2
      clear_value l2
      repeat' first | assumption | with_reducible apply Kept_ite | with_reducible apply withOperator_kept | with_reducible apply guarded_kept | with_reducible apply wr_kept | with_reducible apply setChan_kept | with_reducible apply resetRegs_kept | with_reducible apply updWire_kept | (with_reducible refine fun _ _ => ?_)

theorem execDmaTail_kept {Q : List Instr} {fn c tail : Nat} {s : State} (hs : Kept Q s) :
    KeptRes Q (execDmaTail fn c tail s) := by
  unfold execDmaTail
  extract_lets l0
  refine KeptRes_next ?_
  repeat' first | assumption | with_reducible apply Kept_ite | with_reducible apply withWrite_kept | with_reducible apply guarded_kept | with_reducible apply wf_kept | (with_reducible refine fun _ _ => ?_)

theorem execDmaCtlStrict_kept {Q : List Instr} {fn : Nat} {v : Word} {s : State} (hs : Kept Q s) :
    KeptRes Q (execDmaCtlStrict fn v s) := by
  unfold execDmaCtlStrict
  refine KeptRes_next ?_
  grind [withOperator_kept, guarded_kept, updIso_kept, wb_kept, KeptRes_next, KeptRes_fault, Kept_mk]

end Sys2Proof.Machine
end

