-- ==== Sys2Proof/Laws/KeptPorts.lean ====
section
/-!
SUPPORT. What Machine/Ports.lean does keeps the canonical form and the queue.
-/

set_option Elab.async false

namespace Sys2Proof.Machine

open Sys2Proof

theorem markEcc_kept {Q : List Instr} {s : State} {a : Nat} {ecc : Ecc} (hs : Kept Q s) :
    Kept Q (markEcc s a ecc) := by
  unfold markEcc
  extract_lets l0
  clear_value l0
  split
  · assumption
  · split
    · assumption
    · refine Kept_upd (s := s) ?_ rfl rfl rfl rfl
      assumption
  · split
    · assumption
    · refine Kept_upd (s := s) ?_ rfl rfl rfl rfl
      assumption

theorem readNow_kept {Q : List Instr} {s : State} {k port : Nat} {ctx : Option Nat} {a n : Nat} {ecc : Ecc} (hs : Kept Q s) :
    Kept Q (readNow s k port ctx a n ecc) := by
  unfold readNow
  extract_lets l0
  have hl0 : Kept Q l0.2 := by
    grind [readAs_kept, markEcc_kept, emit_kept, Kept_mk]
  clear_value l0
  grind [readAs_kept, markEcc_kept, emit_kept, Kept_mk]

theorem writeNow_kept {Q : List Instr} {s : State} {k port a : Nat} {data : Bytes} {ecc : Ecc} (hs : Kept Q s) :
    Kept Q (writeNow s k port a data ecc) := by
  unfold writeNow
  extract_lets l0 l1
  have hl0 : Kept Q l0 := by
    grind [markEcc_kept, writeAs_kept, emit_kept, Kept_mk]
  clear_value l0
  have hl1 : Kept Q l1.2 := by
    grind [markEcc_kept, writeAs_kept, emit_kept, Kept_mk]
  clear_value l1
  grind [markEcc_kept, writeAs_kept, emit_kept, Kept_mk]

theorem portNow_kept {Q : List Instr} {s : State} {c : Instr} (hs : Kept Q s) :
    Kept Q (portNow s c) := by
  unfold portNow
  grind [readNow_kept, writeNow_kept, Kept_mk]

theorem holdPort_kept {Q : List Instr} {s : State} {e : Option Nat × Instr} (hs : Kept Q s) :
    Kept Q (holdPort s e) := by
  unfold holdPort
  refine Kept_upd (s := s) ?_ rfl rfl rfl rfl
  assumption

theorem runHeld_kept {Q : List Instr} {s : State} (hs : Kept Q s) :
    Kept Q (runHeld s) := by
  unfold runHeld
  refine Kept_foldl (fun s0 x1 hs0 => ?_) ?_
  · grind [holdPort_kept, portNow_kept, Kept_foldl2, Kept_mk]
  · refine Kept_upd (s := s) ?_ rfl rfl rfl rfl
    assumption

theorem atPort_kept {Q : List Instr} {s : State} {c : Instr} (hs : Kept Q s) :
    Kept Q (atPort s c) := by
  unfold atPort
  grind [holdPort_kept, portNow_kept, Kept_mk]

end Sys2Proof.Machine
end

