-- ==== Sys2Proof/Laws/KeptHbm.lean ====
section
/-!
SUPPORT. What Machine/Hbm.lean does keeps the canonical form and the queue.
-/

set_option Elab.async false

namespace Sys2Proof.Machine

open Sys2Proof

theorem atController_kept {Q : List Instr} {s : State} {dpa n : Nat} {c : Instr} (hs : Kept Q s) :
    KeptRes Q (atController s dpa n c) := by
  unfold atController
  grind [atPort_kept, KeptRes_next, KeptRes_fault, Kept_mk]

theorem execMcRead_kept {Q : List Instr} {dpa len : Nat} {ctx : Option Nat} {ecc : Ecc} {s : State} (hs : Kept Q s) :
    KeptRes Q (execMcRead dpa len ctx ecc s) := by
  unfold execMcRead
  grind [atController_kept, KeptRes_next, KeptRes_fault, Kept_mk]

theorem wcFlush_kept {Q : List Instr} {s : State} (hs : Kept Q s) :
    Kept Q (wcFlush s) := by
  unfold wcFlush
  extract_lets l0
  clear_value l0
  refine Kept_upd (s := s) ?_ rfl rfl rfl rfl
  assumption

theorem execMcWrite_kept {Q : List Instr} {dpa : Nat} {data : Bytes} {s : State} (hs : Kept Q s) :
    KeptRes Q (execMcWrite dpa data s) := by
  unfold execMcWrite
  grind [atController_kept, KeptRes_next, KeptRes_fault, Kept_mk]

theorem execMcPartialWrite_kept {Q : List Instr} {dpa : Nat} {data : Bytes} {ecc : Ecc} {s : State} (hs : Kept Q s) :
    KeptRes Q (execMcPartialWrite dpa data ecc s) := by
  unfold execMcPartialWrite
  grind [atController_kept, KeptRes_next, KeptRes_fault, Kept_mk]

theorem execWcEntryAged_kept {Q : List Instr} {m granule : Nat} {s : State} (hs : Kept Q s) :
    KeptRes Q (execWcEntryAged m granule s) := by
  unfold execWcEntryAged
  extract_lets l0
  clear_value l0
  refine KeptRes_next ?_
  refine Kept_upd (s := s) ?_ rfl rfl rfl rfl
  assumption

theorem execRowRepairComplete_kept {Q : List Instr} {m pc : Nat} {s : State} (hs : Kept Q s) :
    KeptRes Q (execRowRepairComplete m pc s) := by
  unfold execRowRepairComplete
  extract_lets l0
  clear_value l0
  refine KeptRes_next ?_
  split
  · assumption
  · extract_lets l1 l2 l3 l4
    clear_value l1 l2 l3
    have hl4 : Kept Q l4 := by
      grind [runHeld_kept, systemEntry_kept, raiseEvt_kept, KeptRes_next, KeptRes_fault, Kept_mk]
    clear_value l4
    grind [runHeld_kept, systemEntry_kept, raiseEvt_kept, KeptRes_next, KeptRes_fault, Kept_mk]

theorem execRefresh_kept {Q : List Instr} {m pc : Nat} {s : State} (hs : Kept Q s) :
    KeptRes Q (execRefresh m pc s) := by
  unfold execRefresh
  extract_lets l0 l1
  clear_value l0 l1
  refine KeptRes_next ?_
  split
  · refine Kept_upd (s := s) ?_ rfl rfl rfl rfl
    assumption
  · assumption

theorem execRefreshManagement_kept {Q : List Instr} {m pc bank : Nat} {s : State} (hs : Kept Q s) :
    KeptRes Q (execRefreshManagement m pc bank s) := by
  unfold execRefreshManagement
  extract_lets l0
  clear_value l0
  refine KeptRes_next ?_
  split
  · refine Kept_upd (s := s) ?_ rfl rfl rfl rfl
    assumption
  · assumption

theorem execTempSample_kept {Q : List Instr} {m : Nat} {degC : Int} {s : State} (hs : Kept Q s) :
    KeptRes Q (execTempSample m degC s) := by
  unfold execTempSample
  extract_lets l0 l1 l2
  have hl0 : Kept Q l0 := by
    grind [wr_kept, raiseEvt_kept, countError_kept, KeptRes_next, KeptRes_fault, Kept_mk]
  clear_value l0
  have hl1 : Kept Q l1 := by
    grind [wr_kept, raiseEvt_kept, countError_kept, KeptRes_next, KeptRes_fault, Kept_mk]
  clear_value l1 l2
  grind [wr_kept, raiseEvt_kept, countError_kept, KeptRes_next, KeptRes_fault, Kept_mk]

theorem execPatrolRead_kept {Q : List Instr} {m : Nat} {ecc : Ecc} {s : State} (hs : Kept Q s) :
    KeptRes Q (execPatrolRead m ecc s) := by
  unfold execPatrolRead
  extract_lets l0 l1 l2 l3 l4 l5 l6 l7
  clear_value l0 l1 l2
  have hl3 : Kept Q l3 := by
    grind [sense_kept, activateRange_kept, markEcc_kept, raiseEvt_kept, wr_kept, wf_kept, KeptRes_next, KeptRes_fault, Kept_mk]
  clear_value l3
  have hl4 : Kept Q l4 := by
    grind [sense_kept, activateRange_kept, markEcc_kept, raiseEvt_kept, wr_kept, wf_kept, KeptRes_next, KeptRes_fault, Kept_mk]
  clear_value l4 l5 l6
  have hl7 : Kept Q l7 := by
    grind [sense_kept, activateRange_kept, markEcc_kept, raiseEvt_kept, wr_kept, wf_kept, KeptRes_next, KeptRes_fault, Kept_mk]
  clear_value l7
  grind [sense_kept, activateRange_kept, markEcc_kept, raiseEvt_kept, wr_kept, wf_kept, KeptRes_next, KeptRes_fault, Kept_mk]

theorem zeroRange_kept {Q : List Instr} {s : State} {lo n : Nat} (hs : Kept Q s) :
    Kept Q (zeroRange s lo n) := by
  unfold zeroRange
  grind [clearMem_kept, Kept_mk]

theorem startFill_kept {Q : List Instr} {s : State} {m row : Nat} (hs : Kept Q s) :
    Kept Q (startFill s m row) := by
  unfold startFill
  extract_lets l0 l1
  clear_value l0
  have hl1 : Kept Q l1 := by
    grind [wf_kept, wb_kept, zeroRange_kept, Kept_mk]
  clear_value l1
  grind [wf_kept, wb_kept, zeroRange_kept, Kept_mk]

theorem execMcZfCmd_kept {Q : List Instr} {fn m : Nat} {v : Word} {s : State} (hs : Kept Q s) :
    KeptRes Q (execMcZfCmd fn m v s) := by
  unfold execMcZfCmd
  refine KeptRes_next ?_
  grind [withWrite_kept, guarded_kept, startFill_kept, KeptRes_next, KeptRes_fault, Kept_mk]

theorem endFill_kept {Q : List Instr} {s : State} {m row : Nat} (hs : Kept Q s) :
    Kept Q (endFill s m row) := by
  unfold endFill
  extract_lets l0 l1 l2
  clear_value l0
  have hl1 : Kept Q l1 := by
    grind [wb_kept, wf_kept, runHeld_kept, raiseEvt_kept, Kept_mk]
  clear_value l1
  have hl2 : Kept Q l2 := by
    grind [wb_kept, wf_kept, runHeld_kept, raiseEvt_kept, Kept_mk]
  clear_value l2
  grind [wb_kept, wf_kept, runHeld_kept, raiseEvt_kept, Kept_mk]

theorem fillFailed_kept {Q : List Instr} {s : State} {k : Nat} (hs : Kept Q s) :
    Kept Q (fillFailed s k) := by
  unfold fillFailed
  extract_lets l0
  clear_value l0
  split
  · refine Kept_upd (s := s) ?_ rfl rfl rfl rfl
    assumption
  · assumption

theorem execMcZfDone_kept {Q : List Instr} {m row : Nat} {ok : Bool} {s : State} (hs : Kept Q s) :
    KeptRes Q (execMcZfDone m row ok s) := by
  unfold execMcZfDone
  extract_lets l0
  have hl0 : Kept Q l0 := by
    grind [endFill_kept, fillFailed_kept, KeptRes_next, KeptRes_fault, Kept_mk]
  clear_value l0
  grind [endFill_kept, fillFailed_kept, KeptRes_next, KeptRes_fault, Kept_mk]

theorem execMcInject_kept {Q : List Instr} {fn m : Nat} {v : Word} {s : State} (hs : Kept Q s) :
    KeptRes Q (execMcInject fn m v s) := by
  unfold execMcInject
  extract_lets l0
  clear_value l0
  refine KeptRes_next ?_
  split
  · split
    · grind [withWrite_kept, guarded_kept, KeptRes_next, KeptRes_fault, Kept_mk]
    · grind [withWrite_kept, guarded_kept, KeptRes_next, KeptRes_fault, Kept_mk]
  · assumption

theorem execCaParity_kept {Q : List Instr} {m : Nat} {retryOk : Bool} {s : State} (hs : Kept Q s) :
    KeptRes Q (execCaParity m retryOk s) := by
  unfold execCaParity
  refine KeptRes_next ?_
  grind [setState_kept, countError_kept, KeptRes_next, KeptRes_fault, Kept_mk]

end Sys2Proof.Machine
end

