-- ==== Sys2Proof/Laws/KeptLc.lean ====
section
/-!
SUPPORT. What Machine/Lc.lean does keeps the canonical form and the queue.
-/

set_option Elab.async false

namespace Sys2Proof.Machine

open Sys2Proof

theorem secDone_kept {Q : List Instr} {s : State} {b : Bytes} {status : Nat} {body : Bytes} (hs : Kept Q s) :
    Kept Q (secDone s b status body) := by
  unfold secDone
  extract_lets l0 l1
  clear_value l0
  have hl1 : Kept Q l1 := by
    grind [wr_kept, reply_kept, raiseEvt_kept, Kept_mk]
  clear_value l1
  grind [wr_kept, reply_kept, raiseEvt_kept, Kept_mk]

theorem signedFail_kept {Q : List Instr} {s : State} {b : Bytes} {status : Nat} (hs : Kept Q s) :
    Kept Q (signedFail s b status) := by
  unfold signedFail
  extract_lets l0
  have hl0 : Kept Q l0 := by
    grind [audit_kept, reject_kept, secDone_kept, Kept_mk]
  clear_value l0
  grind [audit_kept, reject_kept, secDone_kept, Kept_mk]

theorem signed_kept {Q : List Instr} {code : Nat} {rule : State → Bytes → Rule} {k : State → Bytes → State} {s : State} (hk : ∀ y0 y1, Kept Q y0 → Kept Q (k y0 y1)) (hs : Kept Q s) :
    Kept Q (signed code rule k s) := by
  unfold signed
  grind [onTaken_kept, secDone_kept, reject_kept, signedFail_kept, countError_kept, Kept_mk]

theorem useCount_kept {Q : List Instr} {s : State} {setting left : Nat} {v : Bytes} (hs : Kept Q s) :
    Kept Q (useCount s setting left v) := by
  unfold useCount
  grind [raiseEvt_kept, audit_kept, Kept_mk]

theorem writeFails_kept {Q : List Instr} {s : State} {b : Bytes} {code : Nat} (hs : Kept Q s) :
    Kept Q (writeFails s b code) := by
  unfold writeFails
  grind [secDone_kept, countError_kept, Kept_mk]

theorem setCounted_kept {Q : List Instr} {s : State} {b : Bytes} {same fuseOk : Bool} {count value : State → State} (hs : Kept Q s) (hcount : ∀ y0, Kept Q y0 → Kept Q (count y0)) (hvalue : ∀ y0, Kept Q y0 → Kept Q (value y0)) :
    Kept Q (setCounted s b same fuseOk count value) := by
  unfold setCounted
  exact Kept_ite (secDone_kept hs) (Kept_ite (secDone_kept (hvalue _ (hcount _ hs))) (writeFails_kept (hcount _ hs)))

theorem execInstallOwnerKey_kept {Q : List Instr} {fuseOk : Bool} {s : State} (hs : Kept Q s) :
    KeptRes Q (execInstallOwnerKey fuseOk s) := by
  unfold execInstallOwnerKey
  refine KeptRes_next ?_
  grind [signed_kept, setCounted_kept, useCount_kept, KeptRes_next, KeptRes_fault, Kept_mk]

theorem execRaiseSecVersion_kept {Q : List Instr} {fuseOk : Bool} {s : State} (hs : Kept Q s) :
    KeptRes Q (execRaiseSecVersion fuseOk s) := by
  unfold execRaiseSecVersion
  refine KeptRes_next ?_
  grind [signed_kept, setCounted_kept, useCount_kept, KeptRes_next, KeptRes_fault, Kept_mk]

theorem execSetAdmissionList_kept {Q : List Instr} {fuseOk flashOk : Bool} {s : State} (hs : Kept Q s) :
    KeptRes Q (execSetAdmissionList fuseOk flashOk s) := by
  unfold execSetAdmissionList
  refine KeptRes_next ?_
  grind [signed_kept, useCount_kept, setCounted_kept, secDone_kept, writeFails_kept, KeptRes_next, KeptRes_fault, Kept_mk]

theorem execSetGeometry_kept {Q : List Instr} {fuseOk : Bool} {s : State} (hs : Kept Q s) :
    KeptRes Q (execSetGeometry fuseOk s) := by
  unfold execSetGeometry
  refine KeptRes_next ?_
  grind [signed_kept, setCounted_kept, useCount_kept, KeptRes_next, KeptRes_fault, Kept_mk]

theorem dropCert_kept {Q : List Instr} {s : State} {slot reason : Nat} (hs : Kept Q s) :
    Kept Q (dropCert s slot reason) := by
  unfold dropCert
  extract_lets l0 l1 l2
  clear_value l0 l1
  have hl2 : Kept Q l2 := by
    grind [raiseEvt_kept, audit_kept, Kept_mk]
  clear_value l2
  grind [raiseEvt_kept, audit_kept, Kept_mk]

theorem unsigned_kept {Q : List Instr} {s : State} {code : Nat} {recovery : Bool} {k : State → Bytes → State} (hs : Kept Q s) (hk : ∀ y0 y1, Kept Q y0 → Kept Q (k y0 y1)) :
    Kept Q (unsigned s code recovery k) := by
  unfold unsigned
  grind [onTaken_kept, secDone_kept, reject_kept, Kept_mk]

theorem execGetNonce_kept {Q : List Instr} {s : State} (hs : Kept Q s) :
    KeptRes Q (execGetNonce s) := by
  unfold execGetNonce
  refine KeptRes_next ?_
  grind [unsigned_kept, draw_kept, secDone_kept, KeptRes_next, KeptRes_fault, Kept_mk]

theorem execStageData_kept {Q : List Instr} {s : State} (hs : Kept Q s) :
    KeptRes Q (execStageData s) := by
  unfold execStageData
  refine KeptRes_next ?_
  grind [unsigned_kept, secDone_kept, KeptRes_next, KeptRes_fault, Kept_mk]

theorem execInstallDebugCert_kept {Q : List Instr} {flashOk : Bool} {s : State} (hs : Kept Q s) :
    KeptRes Q (execInstallDebugCert flashOk s) := by
  unfold execInstallDebugCert
  refine KeptRes_next ?_
  split
  · grind [unsigned_kept, secDone_kept, reject_kept, countError_kept, writeFails_kept, updIso_kept, raiseEvt_kept, audit_kept, KeptRes_next, KeptRes_fault, Kept_mk]
  · grind [unsigned_kept, secDone_kept, reject_kept, countError_kept, writeFails_kept, updIso_kept, raiseEvt_kept, audit_kept, KeptRes_next, KeptRes_fault, Kept_mk]

theorem execRemoveDebugCert_kept {Q : List Instr} {flashOk : Bool} {s : State} (hs : Kept Q s) :
    KeptRes Q (execRemoveDebugCert flashOk s) := by
  unfold execRemoveDebugCert
  refine KeptRes_next ?_
  split
  · grind [unsigned_kept, secDone_kept, reject_kept, updIso_kept, dropCert_kept, writeFails_kept, KeptRes_next, KeptRes_fault, Kept_mk]
  · grind [unsigned_kept, secDone_kept, reject_kept, updIso_kept, dropCert_kept, writeFails_kept, KeptRes_next, KeptRes_fault, Kept_mk]

theorem dropStale_kept {Q : List Instr} {s : State} (hs : Kept Q s) :
    Kept Q (dropStale s) := by
  unfold dropStale
  apply updIso_kept
  refine Kept_foldl (fun s0 x1 hs0 => ?_) ?_
  · grind [updIso_kept, dropCert_kept, Kept_foldl2, Kept_mk]
  · assumption

theorem execRaiseDebugEpoch_kept {Q : List Instr} {fuseOk : Bool} {s : State} (hs : Kept Q s) :
    KeptRes Q (execRaiseDebugEpoch fuseOk s) := by
  unfold execRaiseDebugEpoch
  refine KeptRes_next ?_
  grind [signed_kept, setCounted_kept, useCount_kept, dropStale_kept, KeptRes_next, KeptRes_fault, Kept_mk]

theorem nextOf_kept {Q : List Instr} {r : Res} {s : State} (hr : KeptRes Q r) (hs : Kept Q s) :
    Kept Q (nextOf r s) := by
  unfold nextOf
  split
  · exact hr _ rfl
  · exact hs

theorem burnOnly_kept {Q : List Instr} {s : State} (hs : Kept Q s) :
    Kept Q (burnOnly s) := by
  unfold burnOnly
  exact Kept_mk hs

theorem execClearAudit_kept {Q : List Instr} {s : State} (hs : Kept Q s) :
    KeptRes Q (execClearAudit s) := by
  unfold execClearAudit
  refine KeptRes_next ?_
  grind [signed_kept, audit_kept, secDone_kept, wr_kept, KeptRes_next, KeptRes_fault, Kept_mk]

theorem execLcTransition_kept {Q : List Instr} {rowIntact : Bool} {s : State} (hs : Kept Q s) :
    KeptRes Q (execLcTransition rowIntact s) := by
  unfold execLcTransition
  refine KeptRes_next ?_
  split
  · grind [signed_kept, wr_kept, secDone_kept, audit_kept, raiseEvt_kept, writeFails_kept, KeptRes_next, KeptRes_fault, Kept_mk]
  · grind [signed_kept, wr_kept, secDone_kept, audit_kept, raiseEvt_kept, writeFails_kept, KeptRes_next, KeptRes_fault, Kept_mk]

theorem eraseIntent_kept {Q : List Instr} {s : State} {i : Nat} (hs : Kept Q s) :
    Kept Q (eraseIntent s i) := by
  unfold eraseIntent
  extract_lets l0
  clear_value l0
  refine Kept_upd (s := s) ?_ rfl rfl rfl rfl
  assumption

theorem putRow_kept {Q : List Instr} {s : State} {n : Nat} {r : CommitRow} (hs : Kept Q s) :
    Kept Q (putRow s n r) := by
  unfold putRow
  extract_lets l0 l1
  clear_value l0 l1
  refine Kept_upd (s := s) ?_ rfl rfl rfl rfl
  assumption

theorem voidRow_kept {Q : List Instr} {s : State} {n : Nat} (hs : Kept Q s) :
    Kept Q (voidRow s n) := by
  unfold voidRow
  extract_lets l0
  clear_value l0
  grind [raiseEvt_kept, countError_kept, putRow_kept, Kept_mk]

theorem rowsLow_kept {Q : List Instr} {was : Nat} {s : State} (hs : Kept Q s) :
    Kept Q (rowsLow was s) := by
  unfold rowsLow
  grind [countError_kept, Kept_mk]

theorem burnToken_kept {Q : List Instr} {s : State} {target : Nat} (hs : Kept Q s) :
    Kept Q (burnToken s target) := by
  unfold burnToken
  extract_lets l0
  clear_value l0
  split
  · refine Kept_upd (s := s) ?_ rfl rfl rfl rfl
    assumption
  · assumption

theorem setLcBoot_kept {Q : List Instr} {s : State} {result row : Nat} (hs : Kept Q s) :
    Kept Q (setLcBoot s result row) := by
  unfold setLcBoot
  grind [wr_kept, Kept_mk]

theorem commitIntent_kept {Q : List Instr} {s : State} {r : Intent} (hs : Kept Q s) :
    Kept Q (commitIntent s r) := by
  unfold commitIntent
  refine Kept_foldl (fun _ _ h => dropCert_kept h) ?_
  refine rowsLow_kept (raiseEvt_kept (audit_kept (setLcBoot_kept (putRow_kept (burnToken_kept ?_)))))
  exact Kept_ite hs (voidRow_kept hs)

theorem voidIntent_kept {Q : List Instr} {s : State} {i result : Nat} (hs : Kept Q s) :
    Kept Q (voidIntent s i result) := by
  unfold voidIntent
  extract_lets l0 l1 l2
  clear_value l0
  have hl1 : Kept Q l1 := by
    grind [setLcBoot_kept, eraseIntent_kept, raiseEvt_kept, countError_kept, rowsLow_kept, voidRow_kept, Kept_mk]
  clear_value l1
  have hl2 : Kept Q l2 := by
    grind [setLcBoot_kept, eraseIntent_kept, raiseEvt_kept, countError_kept, rowsLow_kept, voidRow_kept, Kept_mk]
  clear_value l2
  grind [setLcBoot_kept, eraseIntent_kept, raiseEvt_kept, countError_kept, rowsLow_kept, voidRow_kept, Kept_mk]

theorem cutCommit_kept {Q : List Instr} {s : State} {token : Bool} {bits : Nat} (hs : Kept Q s) :
    Kept Q (cutCommit s token bits) := by
  unfold cutCommit
  extract_lets l0 l1
  clear_value l0 l1
  split
  · extract_lets l2 l3 l4 l5 l6
    clear_value l2 l3
    have hl4 : Kept Q l4 := by
      grind [voidRow_kept, burnToken_kept, putRow_kept, Kept_mk]
    clear_value l4
    have hl5 : Kept Q l5 := by
      grind [voidRow_kept, burnToken_kept, putRow_kept, Kept_mk]
    clear_value l5 l6
    grind [voidRow_kept, burnToken_kept, putRow_kept, Kept_mk]
  · assumption

theorem intentScan_kept {Q : List Instr} {s : State} (hs : Kept Q s) :
    Kept Q (intentScan s) := by
  unfold intentScan
  extract_lets l0 l1
  have hl0 : Kept Q l0 := by
    grind [setLcBoot_kept, wr_kept, voidIntent_kept, commitIntent_kept, Kept_foldl2, Kept_mk]
  clear_value l0
  have hl1 : Kept Q l1 := by
    unfold l1
    refine Kept_foldl (fun s2 x3 hs2 => ?_) ?_
    · grind [setLcBoot_kept, wr_kept, voidIntent_kept, commitIntent_kept, Kept_foldl2, Kept_mk]
    · assumption
  clear_value l1
  grind [setLcBoot_kept, wr_kept, voidIntent_kept, commitIntent_kept, Kept_foldl2, Kept_mk]

theorem checkCerts_kept {Q : List Instr} {s : State} (hs : Kept Q s) :
    Kept Q (checkCerts s) := by
  unfold checkCerts
  apply updIso_kept
  refine Kept_foldl (fun s0 x1 hs0 => ?_) ?_
  · extract_lets l2
    clear_value l2
    split
    · split
      · refine Kept_upd (s := s0) ?_ rfl rfl rfl rfl
        assumption
      · grind [updIso_kept, dropCert_kept, Kept_foldl2, Kept_mk]
    · assumption
  · assumption

end Sys2Proof.Machine
end

