-- ==== Sys2Proof/Laws/KeptMgmt.lean ====
section
/-!
SUPPORT. What Machine/Mgmt.lean does keeps the canonical form and the queue.
-/

set_option Elab.async false

namespace Sys2Proof.Machine

open Sys2Proof

theorem fillMbx_kept {Q : List Instr} {s : State} {sec : Bool} {f port : Nat} (hs : Kept Q s) :
    Kept Q (fillMbx s sec f port) := by
  unfold fillMbx
  extract_lets l0
  clear_value l0
  grind [wf_kept, Kept_mk]

theorem execSend_kept {Q : List Instr} {fn : Nat} {sec : Bool} {s : State} (hs : Kept Q s) :
    KeptRes Q (execSend fn sec s) := by
  unfold execSend
  extract_lets l0
  clear_value l0
  refine KeptRes_next ?_
  grind [withWrite_kept, guarded_kept, fillMbx_kept, KeptRes_next, KeptRes_fault, Kept_mk]

theorem execMbxTake_kept {Q : List Instr} {sec : Bool} {f : Nat} {s : State} (hs : Kept Q s) :
    KeptRes Q (execMbxTake sec f s) := by
  unfold execMbxTake
  refine KeptRes_next ?_
  grind [wf_kept, KeptRes_next, KeptRes_fault, Kept_mk]

theorem respond'_kept {Q : List Instr} {s : State} {sec : Bool} {f : Nat} {b : Bytes} (hs : Kept Q s) :
    Kept Q (respond' s sec f b) := by
  unfold respond'
  extract_lets l0 l1 l2 l3 l4 l5 l6
  clear_value l0
  have hl1 : Kept Q l1 := by
    grind [wrWords_kept, wr_kept, raiseEvt_kept, emit_kept, queueIbi_kept, Kept_mk]
  clear_value l1 l2 l3
  have hl4 : Kept Q l4 := by
    grind [wrWords_kept, wr_kept, raiseEvt_kept, emit_kept, queueIbi_kept, Kept_mk]
  clear_value l4
  have hl5 : Kept Q l5 := by
    grind [wrWords_kept, wr_kept, raiseEvt_kept, emit_kept, queueIbi_kept, Kept_mk]
  clear_value l5
  have hl6 : Kept Q l6 := by
    grind [wrWords_kept, wr_kept, raiseEvt_kept, emit_kept, queueIbi_kept, Kept_mk]
  clear_value l6
  grind [wrWords_kept, wr_kept, raiseEvt_kept, emit_kept, queueIbi_kept, Kept_mk]

theorem execMbxResponse_kept {Q : List Instr} {sec : Bool} {f : Nat} {s : State} (hs : Kept Q s) :
    KeptRes Q (execMbxResponse sec f s) := by
  unfold execMbxResponse
  extract_lets l0 l1
  have hl0 : Kept Q l0 := by
    grind [respond'_kept, reject_kept, KeptRes_next, KeptRes_fault, Kept_mk]
  clear_value l0 l1
  split
  · grind [respond'_kept, reject_kept, KeptRes_next, KeptRes_fault, Kept_mk]
  · split
    · split
      · extract_lets l2
        have hl2 : Kept Q l2 := by
          grind [respond'_kept, reject_kept, KeptRes_next, KeptRes_fault, Kept_mk]
        clear_value l2
        grind [respond'_kept, reject_kept, KeptRes_next, KeptRes_fault, Kept_mk]
      · grind [respond'_kept, reject_kept, KeptRes_next, KeptRes_fault, Kept_mk]
    · grind [respond'_kept, reject_kept, KeptRes_next, KeptRes_fault, Kept_mk]

theorem ackMbx_kept {Q : List Instr} {s : State} {sec : Bool} {f : Nat} (hs : Kept Q s) :
    Kept Q (ackMbx s sec f) := by
  unfold ackMbx
  grind [wf_kept, Kept_mk]

theorem execAck_kept {Q : List Instr} {fn : Nat} {sec : Bool} {s : State} (hs : Kept Q s) :
    KeptRes Q (execAck fn sec s) := by
  unfold execAck
  extract_lets l0
  clear_value l0
  refine KeptRes_next ?_
  grind [withWrite_kept, guarded_kept, ackMbx_kept, KeptRes_next, KeptRes_fault, Kept_mk]

theorem execMbxTimeout_kept {Q : List Instr} {sec : Bool} {f : Nat} {s : State} (hs : Kept Q s) :
    KeptRes Q (execMbxTimeout sec f s) := by
  unfold execMbxTimeout
  extract_lets l0
  clear_value l0
  refine KeptRes_next ?_
  grind [raiseEvt_kept, wb_kept, wf_kept, KeptRes_next, KeptRes_fault, Kept_mk]

theorem i3cSend_kept {Q : List Instr} {s : State} {b : Bytes} (hs : Kept Q s) :
    Kept Q (i3cSend s b) := by
  unfold i3cSend
  extract_lets l0
  clear_value l0
  grind [addReg_kept, emit_kept, Kept_mk]

theorem execEntdaa_kept {Q : List Instr} {da : Nat} {s : State} (hs : Kept Q s) :
    KeptRes Q (execEntdaa da s) := by
  unfold execEntdaa
  refine KeptRes_next ?_
  grind [raiseEvt_kept, wf_kept, KeptRes_next, KeptRes_fault, Kept_mk]

theorem execRstdaa_kept {Q : List Instr} {s : State} (hs : Kept Q s) :
    KeptRes Q (execRstdaa s) := by
  unfold execRstdaa
  refine KeptRes_next ?_
  grind [raiseEvt_kept, wf_kept, KeptRes_next, KeptRes_fault, Kept_mk]

theorem execEnec_kept {Q : List Instr} {s : State} (hs : Kept Q s) :
    KeptRes Q (execEnec s) := by
  unfold execEnec
  refine KeptRes_next ?_
  grind [wb_kept, KeptRes_next, KeptRes_fault, Kept_mk]

theorem execDisec_kept {Q : List Instr} {s : State} (hs : Kept Q s) :
    KeptRes Q (execDisec s) := by
  unfold execDisec
  refine KeptRes_next ?_
  grind [wb_kept, KeptRes_next, KeptRes_fault, Kept_mk]

theorem execSetmwl_kept {Q : List Instr} {n : Nat} {s : State} (hs : Kept Q s) :
    KeptRes Q (execSetmwl n s) := by
  unfold execSetmwl
  extract_lets l0
  clear_value l0
  refine KeptRes_next ?_
  split
  · refine Kept_upd (s := s) ?_ rfl rfl rfl rfl
    assumption
  · assumption

theorem execSetmrl_kept {Q : List Instr} {n : Nat} {s : State} (hs : Kept Q s) :
    KeptRes Q (execSetmrl n s) := by
  unfold execSetmrl
  extract_lets l0
  clear_value l0
  refine KeptRes_next ?_
  split
  · refine Kept_upd (s := s) ?_ rfl rfl rfl rfl
    assumption
  · assumption

theorem cccSend_kept {Q : List Instr} {s : State} {b : Bytes} (hs : Kept Q s) :
    Kept Q (cccSend s b) := by
  unfold cccSend
  grind [emit_kept, Kept_mk]

theorem execGetmwl_kept {Q : List Instr} {s : State} (hs : Kept Q s) :
    KeptRes Q (execGetmwl s) := by
  unfold execGetmwl
  refine KeptRes_next ?_
  grind [cccSend_kept, KeptRes_next, KeptRes_fault, Kept_mk]

theorem execGetmrl_kept {Q : List Instr} {s : State} (hs : Kept Q s) :
    KeptRes Q (execGetmrl s) := by
  unfold execGetmrl
  refine KeptRes_next ?_
  grind [cccSend_kept, KeptRes_next, KeptRes_fault, Kept_mk]

theorem execGetpid_kept {Q : List Instr} {s : State} (hs : Kept Q s) :
    KeptRes Q (execGetpid s) := by
  unfold execGetpid
  refine KeptRes_next ?_
  grind [cccSend_kept, KeptRes_next, KeptRes_fault, Kept_mk]

theorem execGetbcr_kept {Q : List Instr} {s : State} (hs : Kept Q s) :
    KeptRes Q (execGetbcr s) := by
  unfold execGetbcr
  refine KeptRes_next ?_
  grind [cccSend_kept, KeptRes_next, KeptRes_fault, Kept_mk]

theorem execGetdcr_kept {Q : List Instr} {s : State} (hs : Kept Q s) :
    KeptRes Q (execGetdcr s) := by
  unfold execGetdcr
  refine KeptRes_next ?_
  grind [cccSend_kept, KeptRes_next, KeptRes_fault, Kept_mk]

theorem execGetstatus_kept {Q : List Instr} {s : State} (hs : Kept Q s) :
    KeptRes Q (execGetstatus s) := by
  unfold execGetstatus
  extract_lets l0
  have hl0 : Kept Q l0.2 := by
    grind [draw_kept, emit_kept, KeptRes_next, KeptRes_fault, Kept_mk]
  clear_value l0
  grind [draw_kept, emit_kept, KeptRes_next, KeptRes_fault, Kept_mk]

theorem i3cWrite_kept {Q : List Instr} {s : State} {c : Byte} {n : Nat} (hs : Kept Q s) :
    Kept Q (i3cWrite s c n) := by
  unfold i3cWrite
  extract_lets l0
  clear_value l0
  grind [addReg_kept, Kept_mk]

theorem i3cCommand_kept {Q : List Instr} {s : State} {c : Byte} {n : Nat} {k : State → State} (hs : Kept Q s) (hk : ∀ y0, Kept Q y0 → Kept Q (k y0)) :
    Kept Q (i3cCommand s c n k) := by
  unfold i3cCommand
  grind [i3cWrite_kept, Kept_mk]

theorem i3cRead_kept {Q : List Instr} {s : State} {c : Byte} (hs : Kept Q s) :
    Kept Q (i3cRead s c) := by
  unfold i3cRead
  grind [i3cCommand_kept, i3cSend_kept, Kept_mk]

theorem execStatus_kept {Q : List Instr} {s : State} (hs : Kept Q s) :
    KeptRes Q (execStatus s) := by
  unfold execStatus
  refine KeptRes_next ?_
  grind [i3cRead_kept, KeptRes_next, KeptRes_fault, Kept_mk]

theorem execIdent_kept {Q : List Instr} {s : State} (hs : Kept Q s) :
    KeptRes Q (execIdent s) := by
  unfold execIdent
  refine KeptRes_next ?_
  grind [i3cRead_kept, KeptRes_next, KeptRes_fault, Kept_mk]

theorem execThermal_kept {Q : List Instr} {s : State} (hs : Kept Q s) :
    KeptRes Q (execThermal s) := by
  unfold execThermal
  refine KeptRes_next ?_
  grind [i3cRead_kept, KeptRes_next, KeptRes_fault, Kept_mk]

theorem execPower_kept {Q : List Instr} {s : State} (hs : Kept Q s) :
    KeptRes Q (execPower s) := by
  unfold execPower
  refine KeptRes_next ?_
  grind [i3cRead_kept, KeptRes_next, KeptRes_fault, Kept_mk]

theorem execMbxWrite_kept {Q : List Instr} {off : Nat} {data : Bytes} {badParity : Bool} {s : State} (hs : Kept Q s) :
    KeptRes Q (execMbxWrite off data badParity s) := by
  unfold execMbxWrite
  refine KeptRes_next ?_
  split
  · grind [i3cCommand_kept, countError_kept, KeptRes_next, KeptRes_fault, Kept_mk]
  · split
    · grind [i3cCommand_kept, countError_kept, KeptRes_next, KeptRes_fault, Kept_mk]
    · grind [i3cCommand_kept, countError_kept, KeptRes_next, KeptRes_fault, Kept_mk]

theorem execMbxSend_kept {Q : List Instr} {pcieSameCycle : Bool} {s : State} (hs : Kept Q s) :
    KeptRes Q (execMbxSend pcieSameCycle s) := by
  unfold execMbxSend
  refine KeptRes_next ?_
  grind [i3cCommand_kept, guarded_kept, wrWords_kept, fillMbx_kept, KeptRes_next, KeptRes_fault, Kept_mk]

theorem execMbxRead_kept {Q : List Instr} {s : State} (hs : Kept Q s) :
    KeptRes Q (execMbxRead s) := by
  unfold execMbxRead
  refine KeptRes_next ?_
  grind [i3cRead_kept, KeptRes_next, KeptRes_fault, Kept_mk]

theorem execMbxStat_kept {Q : List Instr} {s : State} (hs : Kept Q s) :
    KeptRes Q (execMbxStat s) := by
  unfold execMbxStat
  refine KeptRes_next ?_
  grind [i3cRead_kept, KeptRes_next, KeptRes_fault, Kept_mk]

theorem execMbxAck_kept {Q : List Instr} {s : State} (hs : Kept Q s) :
    KeptRes Q (execMbxAck s) := by
  unfold execMbxAck
  refine KeptRes_next ?_
  grind [i3cCommand_kept, ackMbx_kept, KeptRes_next, KeptRes_fault, Kept_mk]

theorem execUnknownI3cCommand_kept {Q : List Instr} {code : Option Byte} {s : State} (hs : Kept Q s) :
    KeptRes Q (execUnknownI3cCommand code s) := by
  unfold execUnknownI3cCommand
  refine KeptRes_next ?_
  grind [i3cRead_kept, i3cSend_kept, KeptRes_next, KeptRes_fault, Kept_mk]

theorem execRecStatus_kept {Q : List Instr} {s : State} (hs : Kept Q s) :
    KeptRes Q (execRecStatus s) := by
  unfold execRecStatus
  refine KeptRes_next ?_
  grind [i3cRead_kept, KeptRes_next, KeptRes_fault, Kept_mk]

theorem execIbi_kept {Q : List Instr} {won : Bool} {s : State} (hs : Kept Q s) :
    KeptRes Q (execIbi won s) := by
  unfold execIbi
  extract_lets l0
  clear_value l0
  refine KeptRes_next ?_
  split
  · assumption
  · split
    · grind [addReg_kept, emit_kept, KeptRes_next, KeptRes_fault, Kept_mk]
    · assumption

theorem configEntry_kept {Q : List Instr} {s : State} {t : Nat} (hs : Kept Q s) :
    Kept Q (configEntry s t) := by
  unfold configEntry
  extract_lets l0 l1 l2
  clear_value l0 l1 l2
  grind [genWrite_kept, Kept_mk]

theorem writeTrig_kept {Q : List Instr} {s : State} {t : Nat} {v : Word} (hs : Kept Q s) :
    Kept Q (writeTrig s t v) := by
  unfold writeTrig
  extract_lets l0 l1 l2
  clear_value l0 l1 l2
  split
  · grind [guarded_kept, wr_kept, configEntry_kept, Kept_mk]
  · grind [guarded_kept, wr_kept, configEntry_kept, Kept_mk]

theorem execTriggerEnable_kept {Q : List Instr} {fn t : Nat} {v : Word} {s : State} (hs : Kept Q s) :
    KeptRes Q (execTriggerEnable fn t v s) := by
  unfold execTriggerEnable
  refine KeptRes_next ?_
  grind [withWrite_kept, writeTrig_kept, KeptRes_next, KeptRes_fault, Kept_mk]

theorem execRecorderFence_kept {Q : List Instr} {fn : Nat} {s : State} (hs : Kept Q s) :
    KeptRes Q (execRecorderFence fn s) := by
  unfold execRecorderFence
  refine KeptRes_next ?_
  grind [withWrite_kept, guarded_kept, KeptRes_next, KeptRes_fault, Kept_mk]

theorem nextEpoch_kept {Q : List Instr} {s : State} (hs : Kept Q s) :
    Kept Q (nextEpoch s) := by
  unfold nextEpoch
  grind [wf_kept, Kept_mk]

theorem execFenceDone_kept {Q : List Instr} {s : State} (hs : Kept Q s) :
    KeptRes Q (execFenceDone s) := by
  unfold execFenceDone
  extract_lets l0
  clear_value l0
  refine KeptRes_next ?_
  split
  · grind [raiseEvt_kept, nextEpoch_kept, KeptRes_next, KeptRes_fault, Kept_mk]
  · assumption

theorem execEvrClear_kept {Q : List Instr} {fn : Nat} {s : State} (hs : Kept Q s) :
    KeptRes Q (execEvrClear fn s) := by
  unfold execEvrClear
  refine KeptRes_next ?_
  apply withWrite_kept
  · assumption
  · repeat' first | assumption | with_reducible apply Kept_ite | with_reducible apply guarded_kept | with_reducible apply wb_kept | with_reducible apply wf_kept | with_reducible apply audit_kept | with_reducible apply wr_kept | with_reducible apply configEntry_kept | with_reducible refine Kept_foldl (fun _ _ _ => ?_) ?_ | (with_reducible refine fun _ _ => ?_)

theorem mirrorAudit_kept {Q : List Instr} {s : State} (hs : Kept Q s) :
    Kept Q (mirrorAudit s) := by
  unfold mirrorAudit
  extract_lets l0 l1
  have hl0 : Kept Q l0 := by
    grind [wr_kept, Kept_mk]
  clear_value l0 l1
  grind [wr_kept, Kept_mk]

theorem execAuditMirror_kept {Q : List Instr} {s : State} (hs : Kept Q s) :
    KeptRes Q (execAuditMirror s) := by
  unfold execAuditMirror
  refine KeptRes_next ?_
  grind [mirrorAudit_kept, KeptRes_next, KeptRes_fault, Kept_mk]

theorem saveSeconds_kept {Q : List Instr} {s : State} (hs : Kept Q s) :
    Kept Q (saveSeconds s) := by
  unfold saveSeconds
  extract_lets l0
  clear_value l0
  refine Kept_upd (s := s) ?_ rfl rfl rfl rfl
  assumption

theorem execSecondsSave_kept {Q : List Instr} {s : State} (hs : Kept Q s) :
    KeptRes Q (execSecondsSave s) := by
  unfold execSecondsSave
  refine KeptRes_next ?_
  grind [saveSeconds_kept, KeptRes_next, KeptRes_fault, Kept_mk]

theorem execWatchdogKick_kept {Q : List Instr} {s : State} (hs : Kept Q s) :
    KeptRes Q (execWatchdogKick s) := by
  unfold execWatchdogKick
  extract_lets l0
  clear_value l0
  refine KeptRes_next ?_
  split
  · refine Kept_upd (s := s) ?_ rfl rfl rfl rfl
    assumption
  · assumption

end Sys2Proof.Machine
end

