-- ==== Sys2Proof/Laws/KeptPcie.lean ====
section
/-!
SUPPORT. What Machine/Pcie.lean does keeps the canonical form and the queue.
-/

set_option Elab.async false

namespace Sys2Proof.Machine

open Sys2Proof

theorem flrStart_kept {Q : List Instr} {s : State} {f : Nat} (hs : Kept Q s) :
    Kept Q (flrStart s f) := by
  unfold flrStart
  extract_lets l0 l1 l2 l3 l4 l5 l6
  have hl0 : Kept Q l0 := by
    unfold l0
    refine Kept_foldl (fun s7 x8 hs7 => ?_) ?_
    · grind [setState_kept, wf_kept, resetChan_kept, clearMbx_kept, zeroiseKeys_kept, endSessions_kept, wb_kept, Kept_foldl2, Kept_mk]
    · assumption
  clear_value l0
  have hl1 : Kept Q l1 := by
    grind [setState_kept, wf_kept, resetChan_kept, clearMbx_kept, zeroiseKeys_kept, endSessions_kept, wb_kept, Kept_foldl2, Kept_mk]
  clear_value l1
  have hl2 : Kept Q l2 := by
    grind [setState_kept, wf_kept, resetChan_kept, clearMbx_kept, zeroiseKeys_kept, endSessions_kept, wb_kept, Kept_foldl2, Kept_mk]
  clear_value l2
  have hl3 : Kept Q l3 := by
    grind [setState_kept, wf_kept, resetChan_kept, clearMbx_kept, zeroiseKeys_kept, endSessions_kept, wb_kept, Kept_foldl2, Kept_mk]
  clear_value l3 l4 l5
  have hl6 : Kept Q l6 := by
    grind [setState_kept, wf_kept, resetChan_kept, clearMbx_kept, zeroiseKeys_kept, endSessions_kept, wb_kept, Kept_foldl2, Kept_mk]
  clear_value l6
  grind [setState_kept, wf_kept, resetChan_kept, clearMbx_kept, zeroiseKeys_kept, endSessions_kept, wb_kept, Kept_foldl2, Kept_mk]

theorem execFlr_kept {Q : List Instr} {fn : Nat} {s : State} (hs : Kept Q s) :
    KeptRes Q (execFlr fn s) := by
  unfold execFlr
  refine KeptRes_next ?_
  grind [updWire_kept, flrStart_kept, KeptRes_next, KeptRes_fault, Kept_mk]

theorem flrEnd_kept {Q : List Instr} {s : State} {f : Nat} (hs : Kept Q s) :
    Kept Q (flrEnd s f) := by
  unfold flrEnd
  grind [updWire_kept, raiseEvt_kept, addReg_kept, wb_kept, Kept_mk]

theorem execFlrDone_kept {Q : List Instr} {fn : Nat} {s : State} (hs : Kept Q s) :
    KeptRes Q (execFlrDone fn s) := by
  unfold execFlrDone
  refine KeptRes_next ?_
  grind [flrEnd_kept, KeptRes_next, KeptRes_fault, Kept_mk]

theorem execPowerStateChange_kept {Q : List Instr} {fn d : Nat} {s : State} (hs : Kept Q s) :
    KeptRes Q (execPowerStateChange fn d s) := by
  unfold execPowerStateChange
  refine KeptRes_next ?_
  grind [updWire_kept, raiseEvt_kept, wf_kept, KeptRes_next, KeptRes_fault, Kept_mk]

theorem pcieDown_kept {Q : List Instr} {s : State} (hs : Kept Q s) :
    Kept Q (pcieDown s) := by
  unfold pcieDown
  extract_lets l0 l1 l2 l3
  clear_value l0 l1
  have hl2 : Kept Q l2 := by
    grind [wr_kept, raiseEvt_kept, Kept_mk]
  clear_value l2
  have hl3 : Kept Q l3 := by
    grind [wr_kept, raiseEvt_kept, Kept_mk]
  clear_value l3
  grind [wr_kept, raiseEvt_kept, Kept_mk]

theorem execHostLinkReset_kept {Q : List Instr} {s : State} (hs : Kept Q s) :
    KeptRes Q (execHostLinkReset s) := by
  unfold execHostLinkReset
  extract_lets l0 l1
  have hl0 : Kept Q l0 := by
    unfold l0
    refine Kept_foldl (fun s2 x3 hs2 => ?_) ?_
    · grind [flrStart_kept, countError_kept, pcieDown_kept, updWire_kept, setState_kept, Kept_foldl2, KeptRes_next, KeptRes_fault, Kept_mk]
    · assumption
  clear_value l0
  have hl1 : Kept Q l1 := by
    grind [flrStart_kept, countError_kept, pcieDown_kept, updWire_kept, setState_kept, Kept_foldl2, KeptRes_next, KeptRes_fault, Kept_mk]
  clear_value l1
  grind [flrStart_kept, countError_kept, pcieDown_kept, updWire_kept, setState_kept, Kept_foldl2, KeptRes_next, KeptRes_fault, Kept_mk]

theorem execLinkUp_kept {Q : List Instr} {rate width : Nat} {flit : Bool} {s : State} (hs : Kept Q s) :
    KeptRes Q (execLinkUp rate width flit s) := by
  unfold execLinkUp
  extract_lets l0 l1 l2 l3
  clear_value l0
  have hl1 : Kept Q l1 := by
    grind [raiseEvt_kept, wr_kept, setState_kept, updWire_kept, KeptRes_next, KeptRes_fault, Kept_mk]
  clear_value l1
  have hl2 : Kept Q l2 := by
    grind [raiseEvt_kept, wr_kept, setState_kept, updWire_kept, KeptRes_next, KeptRes_fault, Kept_mk]
  clear_value l2
  have hl3 : Kept Q l3 := by
    grind [raiseEvt_kept, wr_kept, setState_kept, updWire_kept, KeptRes_next, KeptRes_fault, Kept_mk]
  clear_value l3
  grind [raiseEvt_kept, wr_kept, setState_kept, updWire_kept, KeptRes_next, KeptRes_fault, Kept_mk]

theorem execIdeFault_kept {Q : List Instr} {stream : Nat} {s : State} (hs : Kept Q s) :
    KeptRes Q (execIdeFault stream s) := by
  unfold execIdeFault
  extract_lets l0
  clear_value l0
  refine KeptRes_next ?_
  split
  · assumption
  · extract_lets l1 l2
    have hl1 : Kept Q l1 := by
      grind [raiseEvt_kept, wb_kept, countError_kept, KeptRes_next, KeptRes_fault, Kept_mk]
    clear_value l1
    have hl2 : Kept Q l2 := by
      grind [raiseEvt_kept, wb_kept, countError_kept, KeptRes_next, KeptRes_fault, Kept_mk]
    clear_value l2
    grind [raiseEvt_kept, wb_kept, countError_kept, KeptRes_next, KeptRes_fault, Kept_mk]

theorem execConfigurationWrite_kept {Q : List Instr} {fn : Nat} {w : CfgWrite} {s : State} (hs : Kept Q s) :
    KeptRes Q (execConfigurationWrite fn w s) := by
  unfold execConfigurationWrite
  extract_lets l0
  clear_value l0
  refine KeptRes_next ?_
  split
  · assumption
  · split
    · grind [updWire_kept, KeptRes_next, KeptRes_fault, Kept_mk]
    · assumption

theorem execPmeTurnOff_kept {Q : List Instr} {s : State} (hs : Kept Q s) :
    KeptRes Q (execPmeTurnOff s) := by
  unfold execPmeTurnOff
  extract_lets l0 l1
  have hl0 : Kept Q l0 := by
    grind [pcieDown_kept, KeptRes_next, KeptRes_fault, Kept_mk]
  clear_value l0 l1
  grind [pcieDown_kept, KeptRes_next, KeptRes_fault, Kept_mk]

end Sys2Proof.Machine
end

