-- ==== Sys2Proof/Laws/KeptCohMsg.lean ====
section
/-!
SUPPORT. What Machine/CohMsg.lean does keeps the canonical form and the queue.
-/

set_option Elab.async false

namespace Sys2Proof.Machine

open Sys2Proof

theorem protocolLoss_kept {Q : List Instr} {s : State} {k pos line : Nat} (hs : Kept Q s) :
    Kept Q (protocolLoss s k pos line) := by
  unfold protocolLoss
  grind [loseDomain_kept, Kept_mk]

theorem arbitrate_kept {Q : List Instr} {s : State} {k line : Nat} (hs : Kept Q s) :
    Kept Q (arbitrate s k line) := by
  unfold arbitrate
  extract_lets come c s1 best key c1
  have h1 : Kept Q s1 := Kept_mk hs
  clear_value come c s1 best key c1
  split
  · exact settle_kept (Kept_foldl (fun _ _ h => loseReq_kept h) h1)
  · exact settle_kept (Kept_foldl (fun _ _ h => loseReq_kept h) (openTxn_kept (Kept_mk h1)))

theorem cohRequest_kept {Q : List Instr} {s : State} {k pos line : Nat} {req : CohReq} {retried more : Bool} (hs : Kept Q s) :
    Kept Q (cohRequest s k pos line req retried more) := by
  unfold cohRequest
  refine Kept_ite hs (Kept_ite hs (Kept_ite (sendAgent_kept hs) (Kept_ite hs (Kept_ite (protocolLoss_kept hs)
    (Kept_ite ?_ ?_)))))
  · split
    · exact hs
    · exact settle_kept (Kept_mk hs)
  · exact Kept_ite (Kept_mk hs) (arbitrate_kept (Kept_mk hs))

theorem execRdS_kept {Q : List Instr} {k pos line : Nat} {retried more : Bool} {s : State} (hs : Kept Q s) :
    KeptRes Q (execRdS k pos line retried more s) := by
  unfold execRdS
  refine KeptRes_next ?_
  grind [cohRequest_kept, KeptRes_next, KeptRes_fault, Kept_mk]

theorem execRdX_kept {Q : List Instr} {k pos line : Nat} {retried more : Bool} {s : State} (hs : Kept Q s) :
    KeptRes Q (execRdX k pos line retried more s) := by
  unfold execRdX
  refine KeptRes_next ?_
  grind [cohRequest_kept, KeptRes_next, KeptRes_fault, Kept_mk]

theorem execUpg_kept {Q : List Instr} {k pos line : Nat} {retried more : Bool} {s : State} (hs : Kept Q s) :
    KeptRes Q (execUpg k pos line retried more s) := by
  unfold execUpg
  refine KeptRes_next ?_
  grind [cohRequest_kept, KeptRes_next, KeptRes_fault, Kept_mk]

theorem execRdOnce_kept {Q : List Instr} {k pos line : Nat} {retried more : Bool} {s : State} (hs : Kept Q s) :
    KeptRes Q (execRdOnce k pos line retried more s) := by
  unfold execRdOnce
  refine KeptRes_next ?_
  grind [cohRequest_kept, KeptRes_next, KeptRes_fault, Kept_mk]

theorem execWrLine_kept {Q : List Instr} {k pos line hint : Nat} {data : Bytes} {retried more : Bool} {s : State} (hs : Kept Q s) :
    KeptRes Q (execWrLine k pos line hint data retried more s) := by
  unfold execWrLine
  refine KeptRes_next ?_
  grind [cohRequest_kept, KeptRes_next, KeptRes_fault, Kept_mk]

theorem execWrPart_kept {Q : List Instr} {k pos line hint mask : Nat} {data : Bytes} {retried more : Bool} {s : State} (hs : Kept Q s) :
    KeptRes Q (execWrPart k pos line hint mask data retried more s) := by
  unfold execWrPart
  refine KeptRes_next ?_
  grind [cohRequest_kept, KeptRes_next, KeptRes_fault, Kept_mk]

theorem execAtomAdd_kept {Q : List Instr} {k pa : Nat} {v : Word} {retried more : Bool} {s : State} (hs : Kept Q s) :
    KeptRes Q (execAtomAdd k pa v retried more s) := by
  unfold execAtomAdd
  refine KeptRes_next ?_
  grind [cohRequest_kept, KeptRes_next, KeptRes_fault, Kept_mk]

theorem cohAnswer_kept {Q : List Instr} {s : State} {k pos line : Nat} {a : Answer} (hs : Kept Q s) :
    Kept Q (cohAnswer s k pos line a) := by
  unfold cohAnswer
  split
  · grind [protocolLoss_kept, settle_kept, advance_kept, setTxn_kept, addReg_kept, Kept_mk]
  · extract_lets l0 l1 l2 l3
    clear_value l0 l1 l2 l3
    split
    · split
      · grind [protocolLoss_kept, settle_kept, advance_kept, setTxn_kept, addReg_kept, Kept_mk]
      · grind [protocolLoss_kept, settle_kept, advance_kept, setTxn_kept, addReg_kept, Kept_mk]
      · extract_lets l4
        clear_value l4
        grind [protocolLoss_kept, settle_kept, advance_kept, setTxn_kept, addReg_kept, Kept_mk]
      · grind [protocolLoss_kept, settle_kept, advance_kept, setTxn_kept, addReg_kept, Kept_mk]
    · grind [protocolLoss_kept, settle_kept, advance_kept, setTxn_kept, addReg_kept, Kept_mk]

theorem takeAnswer_kept {Q : List Instr} {s : State} {k pos line kind : Nat} {a : Answer} (hs : Kept Q s) :
    Kept Q (takeAnswer s k pos line kind a) := by
  unfold takeAnswer
  extract_lets l0
  clear_value l0
  split
  · split
    · assumption
    · grind [cohAnswer_kept, Kept_mk]
  · grind [cohAnswer_kept, Kept_mk]

theorem execAckMiss_kept {Q : List Instr} {k pos line : Nat} {s : State} (hs : Kept Q s) :
    KeptRes Q (execAckMiss k pos line s) := by
  unfold execAckMiss
  refine KeptRes_next ?_
  grind [takeAnswer_kept, KeptRes_next, KeptRes_fault, Kept_mk]

theorem execAckClean_kept {Q : List Instr} {k pos line : Nat} {s : State} (hs : Kept Q s) :
    KeptRes Q (execAckClean k pos line s) := by
  unfold execAckClean
  refine KeptRes_next ?_
  grind [takeAnswer_kept, KeptRes_next, KeptRes_fault, Kept_mk]

theorem execDataDirty_kept {Q : List Instr} {k pos line : Nat} {data : Bytes} {s : State} (hs : Kept Q s) :
    KeptRes Q (execDataDirty k pos line data s) := by
  unfold execDataDirty
  refine KeptRes_next ?_
  grind [takeAnswer_kept, KeptRes_next, KeptRes_fault, Kept_mk]

theorem sendNotice_kept {Q : List Instr} {s : State} {k pos line : Nat} {wb : Bool} (hs : Kept Q s) :
    ∀ t, sendNotice s k pos line wb = some t → Kept Q t := by
  unfold sendNotice
  grind [wb_kept, setLine_kept, Kept, State.canonical]

theorem execWbInFlight_kept {Q : List Instr} {k pos line : Nat} {s : State} (hs : Kept Q s) :
    KeptRes Q (execWbInFlight k pos line s) := by
  unfold execWbInFlight
  refine KeptRes_next (Kept_ite ?_ (takeAnswer_kept hs))
  split
  · exact hs
  · refine Kept_ite ?_ hs
    extract_lets sent
    have h1 : ∀ t, sent = some t → Kept Q t := by
      intro t ht
      unfold sent at ht
      split at ht
      · cases ht; exact hs
      · split at ht
        · rename_i v h
          cases ht; exact sendNotice_kept hs _ h
        · exact sendNotice_kept hs _ ht
    clear_value sent
    split
    · exact hs
    · rename_i v
      exact cohAnswer_kept (dropLine_kept (h1 _ rfl))

theorem homeNotice_kept {Q : List Instr} {s : State} {k pos line : Nat} {data : Option Bytes} (hs : Kept Q s) :
    Kept Q (homeNotice s k pos line data) := by
  unfold homeNotice
  grind [protocolLoss_kept, takeNotice_kept, Kept_mk]

theorem noticeArrives_kept {Q : List Instr} {s : State} {e : Nat × Nat × Nat × Option Bytes} (hs : Kept Q s) :
    Kept Q (noticeArrives s e) := by
  unfold noticeArrives
  extract_lets l0 l1 l2
  clear_value l0
  have hl1 : Kept Q l1 := by
    grind [dropLine_kept, homeNotice_kept, Kept_mk]
  clear_value l1
  have hl2 : Kept Q l2 := by
    grind [dropLine_kept, homeNotice_kept, Kept_mk]
  clear_value l2
  grind [dropLine_kept, homeNotice_kept, Kept_mk]

theorem clusterNotice_kept {Q : List Instr} {s : State} {k pos line : Nat} {wb arrives : Bool} {data : Option Bytes} (hs : Kept Q s) :
    Kept Q (clusterNotice s k pos line wb arrives data) := by
  unfold clusterNotice
  grind [wb_kept, noticeArrives_kept, sendNotice_kept, homeNotice_kept, Kept_mk]

theorem execWb_kept {Q : List Instr} {k pos line : Nat} {data : Bytes} {arrives : Bool} {s : State} (hs : Kept Q s) :
    KeptRes Q (execWb k pos line data arrives s) := by
  unfold execWb
  refine KeptRes_next ?_
  grind [clusterNotice_kept, homeNotice_kept, KeptRes_next, KeptRes_fault, Kept_mk]

theorem execEvictClean_kept {Q : List Instr} {k pos line : Nat} {arrives : Bool} {s : State} (hs : Kept Q s) :
    KeptRes Q (execEvictClean k pos line arrives s) := by
  unfold execEvictClean
  refine KeptRes_next ?_
  grind [clusterNotice_kept, homeNotice_kept, KeptRes_next, KeptRes_fault, Kept_mk]

theorem execGrantAck_kept {Q : List Instr} {k pos line : Nat} {s : State} (hs : Kept Q s) :
    KeptRes Q (execGrantAck k pos line s) := by
  unfold execGrantAck
  refine KeptRes_next ?_
  grind [protocolLoss_kept, setTxn_kept, settle_kept, closeTxn_kept, KeptRes_next, KeptRes_fault, Kept_mk]

theorem execDataS_kept {Q : List Instr} {k m line : Nat} {s : State} (hs : Kept Q s) :
    KeptRes Q (execDataS k m line s) := by
  unfold execDataS
  refine KeptRes_next ?_
  grind [takeLine_kept, KeptRes_next, KeptRes_fault, Kept_mk]

theorem execDataE_kept {Q : List Instr} {k m line : Nat} {s : State} (hs : Kept Q s) :
    KeptRes Q (execDataE k m line s) := by
  unfold execDataE
  refine KeptRes_next ?_
  grind [takeLine_kept, KeptRes_next, KeptRes_fault, Kept_mk]

theorem execGrantUpg_kept {Q : List Instr} {k m line : Nat} {s : State} (hs : Kept Q s) :
    KeptRes Q (execGrantUpg k m line s) := by
  unfold execGrantUpg
  refine KeptRes_next ?_
  grind [setLine_kept, KeptRes_next, KeptRes_fault, Kept_mk]

theorem execFillHint_kept {Q : List Instr} {k m line : Nat} {s : State} (hs : Kept Q s) :
    KeptRes Q (execFillHint k m line s) := by
  unfold execFillHint
  refine KeptRes_next ?_
  split
  · assumption
  · extract_lets l0 l1
    clear_value l0
    have hl1 : Kept Q l1 := by
      grind [takeLine_kept, setDir_kept, makeWay_kept, setTxn_kept, addReg_kept, placeInMemory_kept, KeptRes_next, KeptRes_fault, Kept_mk]
    clear_value l1
    grind [takeLine_kept, setDir_kept, makeWay_kept, setTxn_kept, addReg_kept, placeInMemory_kept, KeptRes_next, KeptRes_fault, Kept_mk]

theorem snoopCluster_kept {Q : List Instr} {s : State} {k m line : Nat} {inv : Bool} (hs : Kept Q s) :
    Kept Q (snoopCluster s k m line inv) := by
  unfold snoopCluster
  extract_lets due asked put
  have hp : ∀ y a, Kept Q y → Kept Q (put y a) := fun y a h => ⟨h.1, h.2⟩
  clear_value put due asked
  refine Kept_ite ?_ hs
  cases cached s k m line with
  | none => exact hp _ _ hs
  | some l =>
    dsimp only
    have ha : Kept Q (if inv then dropLine s k m line else setLine s k m line .shared l.data) :=
      Kept_ite (dropLine_kept hs) (setLine_kept hs)
    split
    · exact hp _ _ (dropLine_kept hs)
    · exact hp _ _ ha
    · exact hp _ _ ha

theorem execSnpShr_kept {Q : List Instr} {k m line : Nat} {s : State} (hs : Kept Q s) :
    KeptRes Q (execSnpShr k m line s) := by
  unfold execSnpShr
  refine KeptRes_next ?_
  grind [snoopCluster_kept, KeptRes_next, KeptRes_fault, Kept_mk]

theorem execSnpInv_kept {Q : List Instr} {k m line : Nat} {s : State} (hs : Kept Q s) :
    KeptRes Q (execSnpInv k m line s) := by
  unfold execSnpInv
  refine KeptRes_next ?_
  grind [snoopCluster_kept, KeptRes_next, KeptRes_fault, Kept_mk]

theorem execRdData_kept {Q : List Instr} {k pos line : Nat} {s : State} (hs : Kept Q s) :
    KeptRes Q (execRdData k pos line s) := by
  unfold execRdData
  refine KeptRes_next ?_
  grind [settle_kept, closeTxn_kept, emit_kept, KeptRes_next, KeptRes_fault, Kept_mk]

theorem execWrAck_kept {Q : List Instr} {k pos line : Nat} {s : State} (hs : Kept Q s) :
    KeptRes Q (execWrAck k pos line s) := by
  unfold execWrAck
  refine KeptRes_next ?_
  grind [settle_kept, closeTxn_kept, emit_kept, KeptRes_next, KeptRes_fault, Kept_mk]

theorem execSnoopTimeout_kept {Q : List Instr} {k pos line : Nat} {s : State} (hs : Kept Q s) :
    KeptRes Q (execSnoopTimeout k pos line s) := by
  unfold execSnoopTimeout
  extract_lets l0 l1
  clear_value l0 l1
  refine KeptRes_next ?_
  grind [loseDomain_kept, KeptRes_next, KeptRes_fault, Kept_mk]

theorem execDomainLost_kept {Q : List Instr} {k : Nat} {s : State} (hs : Kept Q s) :
    KeptRes Q (execDomainLost k s) := by
  unfold execDomainLost
  extract_lets l0 l1
  have hl0 : Kept Q l0.2 := by
    grind [draw_kept, loseDomain_kept, KeptRes_next, KeptRes_fault, Kept_mk]
  clear_value l0 l1
  grind [draw_kept, loseDomain_kept, KeptRes_next, KeptRes_fault, Kept_mk]

end Sys2Proof.Machine
end

