-- ==== Sys2Proof/Laws/KeptSites.lean ====
section
/-!
SUPPORT. What Machine/Sites.lean does keeps the canonical form and the queue.
-/

set_option Elab.async false

namespace Sys2Proof.Machine

open Sys2Proof

theorem moveSite_kept {Q : List Instr} {s : State} {t st sub : Nat} (hs : Kept Q s) :
    Kept Q (moveSite s t st sub) := by
  unfold moveSite
  grind [setState_kept, wf_kept, Kept_mk]

theorem trainStart_kept {Q : List Instr} {s : State} {t : Nat} (hs : Kept Q s) :
    Kept Q (trainStart s t) := by
  unfold trainStart
  grind [setSite_kept, moveSite_kept, Kept_mk]

theorem failSlot_kept {Q : List Instr} {s : State} {r : RedSlot} (hs : Kept Q s) :
    Kept Q (failSlot s r) := by
  unfold failSlot
  split
  · assumption
  · extract_lets l0
    clear_value l0
    grind [completeSt_kept, setWork_kept, Kept_mk]

theorem dropSite_kept {Q : List Instr} {s : State} {t : Nat} (hs : Kept Q s) :
    Kept Q (dropSite s t) := by
  unfold dropSite
  extract_lets l0 l1 l2 l3 l4 l5 l6 l7 l8 l9
  clear_value l0
  have hl1 : Kept Q l1 := by
    grind [dropMicro_kept, wf_kept, failSlot_kept, loseDomain_kept, wr_kept, setSite_kept, Kept_foldl2, Kept_mk]
  clear_value l1 l2
  have hl3 : Kept Q l3 := by
    grind [dropMicro_kept, wf_kept, failSlot_kept, loseDomain_kept, wr_kept, setSite_kept, Kept_foldl2, Kept_mk]
  clear_value l3
  have hl4 : Kept Q l4 := by
    grind [dropMicro_kept, wf_kept, failSlot_kept, loseDomain_kept, wr_kept, setSite_kept, Kept_foldl2, Kept_mk]
  clear_value l4 l5
  have hl6 : Kept Q l6 := by
    unfold l6
    refine Kept_foldl (fun s10 x11 hs10 => ?_) ?_
    · grind [dropMicro_kept, wf_kept, failSlot_kept, loseDomain_kept, wr_kept, setSite_kept, Kept_foldl2, Kept_mk]
    · assumption
  clear_value l6
  have hl7 : Kept Q l7 := by
    unfold l7
    refine Kept_foldl (fun s12 x13 hs12 => ?_) ?_
    · grind [dropMicro_kept, wf_kept, failSlot_kept, loseDomain_kept, wr_kept, setSite_kept, Kept_foldl2, Kept_mk]
    · assumption
  clear_value l7
  have hl8 : Kept Q l8 := by
    grind [dropMicro_kept, wf_kept, failSlot_kept, loseDomain_kept, wr_kept, setSite_kept, Kept_foldl2, Kept_mk]
  clear_value l8 l9
  grind [dropMicro_kept, wf_kept, failSlot_kept, loseDomain_kept, wr_kept, setSite_kept, Kept_foldl2, Kept_mk]

theorem siteJobs_kept {Q : List Instr} {s : State} {t : Nat} (hs : Kept Q s) :
    Kept Q (siteJobs s t) := by
  unfold siteJobs
  refine Kept_foldl (fun s0 x1 hs0 => ?_) ?_
  · grind [triggerJob_kept, Kept_foldl2, Kept_mk]
  · assumption

theorem siteFault_kept {Q : List Instr} {s : State} {t code : Nat} (hs : Kept Q s) :
    Kept Q (siteFault s t code) := by
  unfold siteFault
  extract_lets l0 l1 l2
  clear_value l0
  have hl1 : Kept Q l1 := by
    grind [siteJobs_kept, moveSite_kept, countError_kept, dropSite_kept, wr_kept, Kept_mk]
  clear_value l1
  have hl2 : Kept Q l2 := by
    grind [siteJobs_kept, moveSite_kept, countError_kept, dropSite_kept, wr_kept, Kept_mk]
  clear_value l2
  grind [siteJobs_kept, moveSite_kept, countError_kept, dropSite_kept, wr_kept, Kept_mk]

theorem quarantine_kept {Q : List Instr} {s : State} {t : Nat} (hs : Kept Q s) :
    Kept Q (quarantine s t) := by
  unfold quarantine
  extract_lets l0 l1 l2
  clear_value l0
  have hl1 : Kept Q l1 := by
    grind [raiseEvt_kept, moveSite_kept, siteJobs_kept, emit_kept, dropSite_kept, Kept_mk]
  clear_value l1
  have hl2 : Kept Q l2 := by
    grind [raiseEvt_kept, moveSite_kept, siteJobs_kept, emit_kept, dropSite_kept, Kept_mk]
  clear_value l2
  grind [raiseEvt_kept, moveSite_kept, siteJobs_kept, emit_kept, dropSite_kept, Kept_mk]

theorem resetSite_kept {Q : List Instr} {s : State} {t : Nat} (hs : Kept Q s) :
    Kept Q (resetSite s t) := by
  unfold resetSite
  extract_lets l0 l1 l2 l3 l4 l5
  clear_value l0
  have hl1 : Kept Q l1 := by
    grind [setState_kept, siteJobs_kept, dropSite_kept, resetPageRegs_kept, wb_kept, setSite_kept, trainStart_kept, Kept_mk]
  clear_value l1
  have hl2 : Kept Q l2 := by
    grind [setState_kept, siteJobs_kept, dropSite_kept, resetPageRegs_kept, wb_kept, setSite_kept, trainStart_kept, Kept_mk]
  clear_value l2
  have hl3 : Kept Q l3 := by
    grind [setState_kept, siteJobs_kept, dropSite_kept, resetPageRegs_kept, wb_kept, setSite_kept, trainStart_kept, Kept_mk]
  clear_value l3 l4
  have hl5 : Kept Q l5 := by
    grind [setState_kept, siteJobs_kept, dropSite_kept, resetPageRegs_kept, wb_kept, setSite_kept, trainStart_kept, Kept_mk]
  clear_value l5
  grind [setState_kept, siteJobs_kept, dropSite_kept, resetPageRegs_kept, wb_kept, setSite_kept, trainStart_kept, Kept_mk]

theorem execSiteReset_kept {Q : List Instr} {t code : Nat} {s : State} (hs : Kept Q s) :
    KeptRes Q (execSiteReset t code s) := by
  unfold execSiteReset
  refine KeptRes_next ?_
  grind [resetSite_kept, quarantine_kept, countError_kept, wr_kept, siteFault_kept, KeptRes_next, KeptRes_fault, Kept_mk]

theorem execSidebandTrained_kept {Q : List Instr} {t : Nat} {s : State} (hs : Kept Q s) :
    KeptRes Q (execSidebandTrained t s) := by
  unfold execSidebandTrained
  extract_lets l0
  have hl0 : Kept Q l0 := by
    grind [setSite_kept, emit_kept, moveSite_kept, KeptRes_next, KeptRes_fault, Kept_mk]
  clear_value l0
  grind [setSite_kept, emit_kept, moveSite_kept, KeptRes_next, KeptRes_fault, Kept_mk]

theorem execSiteEmpty_kept {Q : List Instr} {t : Nat} {s : State} (hs : Kept Q s) :
    KeptRes Q (execSiteEmpty t s) := by
  unfold execSiteEmpty
  refine KeptRes_next ?_
  grind [moveSite_kept, KeptRes_next, KeptRes_fault, Kept_mk]

theorem execSidebandUnknown_kept {Q : List Instr} {t : Nat} {s : State} (hs : Kept Q s) :
    KeptRes Q (execSidebandUnknown t s) := by
  unfold execSidebandUnknown
  refine KeptRes_next ?_
  grind [setSite_kept, KeptRes_next, KeptRes_fault, Kept_mk]

theorem decideSite_kept {Q : List Instr} {s : State} {t : Nat} (hs : Kept Q s) :
    Kept Q (decideSite s t) := by
  unfold decideSite
  extract_lets l0 l1 l2 l3 l4
  clear_value l0 l1 l2 l3 l4
  split
  · grind [quarantine_kept, countError_kept, wr_kept, emit_kept, moveSite_kept, Kept_foldl2, Kept_mk]
  · split
    · extract_lets l5 l6
      have hl5 : Kept Q l5 := by
        grind [quarantine_kept, countError_kept, wr_kept, emit_kept, moveSite_kept, Kept_foldl2, Kept_mk]
      clear_value l5
      have hl6 : Kept Q l6 := by
        unfold l6
        refine Kept_foldl (fun s7 x8 hs7 => ?_) ?_
        · grind [quarantine_kept, countError_kept, wr_kept, emit_kept, moveSite_kept, Kept_foldl2, Kept_mk]
        · assumption
      clear_value l6
      grind [quarantine_kept, countError_kept, wr_kept, emit_kept, moveSite_kept, Kept_foldl2, Kept_mk]
    · apply quarantine_kept
      apply wr_kept
      assumption

theorem execIdData_kept {Q : List Instr} {t i : Nat} {v : Word} {s : State} (hs : Kept Q s) :
    KeptRes Q (execIdData t i v s) := by
  unfold execIdData
  extract_lets l0 l1 l2
  have hl0 : Kept Q l0 := by
    grind [wr_kept, setSite_kept, decideSite_kept, emit_kept, KeptRes_next, KeptRes_fault, Kept_mk]
  clear_value l0
  have hl1 : Kept Q l1 := by
    grind [wr_kept, setSite_kept, decideSite_kept, emit_kept, KeptRes_next, KeptRes_fault, Kept_mk]
  clear_value l1 l2
  grind [wr_kept, setSite_kept, decideSite_kept, emit_kept, KeptRes_next, KeptRes_fault, Kept_mk]

theorem clearMap_kept {Q : List Instr} {s : State} {t up x32 : Nat} (hs : Kept Q s) :
    Kept Q (clearMap s t up x32) := by
  unfold clearMap
  extract_lets l0 l1
  clear_value l0 l1
  split
  · refine Kept_upd (s := s) ?_ rfl rfl rfl rfl
    assumption
  · assumption

theorem execMainbandTrained_kept {Q : List Instr} {t up x32 gts : Nat} {s : State} (hs : Kept Q s) :
    KeptRes Q (execMainbandTrained t up x32 gts s) := by
  unfold execMainbandTrained
  extract_lets l0 l1 l2 l3 l4 l5 l6 l7 l8 l9 l10 l11 l12 l13 l14 l15 l16 l17
  clear_value l0
  have hl1 : Kept Q l1 := by
    grind [clearMap_kept, siteFault_kept, setSite_kept, wr_kept, wf_kept, moveSite_kept, emit_kept, raiseEvt_kept, KeptRes_next, KeptRes_fault, Kept_mk]
  clear_value l1 l2 l3 l4 l5 l6 l7 l8
  have hl9 : Kept Q l9 := by
    grind [clearMap_kept, siteFault_kept, setSite_kept, wr_kept, wf_kept, moveSite_kept, emit_kept, raiseEvt_kept, KeptRes_next, KeptRes_fault, Kept_mk]
  clear_value l9
  have hl10 : Kept Q l10 := by
    grind [clearMap_kept, siteFault_kept, setSite_kept, wr_kept, wf_kept, moveSite_kept, emit_kept, raiseEvt_kept, KeptRes_next, KeptRes_fault, Kept_mk]
  clear_value l10
  have hl11 : Kept Q l11 := by
    grind [clearMap_kept, siteFault_kept, setSite_kept, wr_kept, wf_kept, moveSite_kept, emit_kept, raiseEvt_kept, KeptRes_next, KeptRes_fault, Kept_mk]
  clear_value l11
  have hl12 : Kept Q l12 := by
    grind [clearMap_kept, siteFault_kept, setSite_kept, wr_kept, wf_kept, moveSite_kept, emit_kept, raiseEvt_kept, KeptRes_next, KeptRes_fault, Kept_mk]
  clear_value l12
  have hl13 : Kept Q l13 := by
    grind [clearMap_kept, siteFault_kept, setSite_kept, wr_kept, wf_kept, moveSite_kept, emit_kept, raiseEvt_kept, KeptRes_next, KeptRes_fault, Kept_mk]
  clear_value l13
  have hl14 : Kept Q l14 := by
    grind [clearMap_kept, siteFault_kept, setSite_kept, wr_kept, wf_kept, moveSite_kept, emit_kept, raiseEvt_kept, KeptRes_next, KeptRes_fault, Kept_mk]
  clear_value l14
  have hl15 : Kept Q l15 := by
    grind [clearMap_kept, siteFault_kept, setSite_kept, wr_kept, wf_kept, moveSite_kept, emit_kept, raiseEvt_kept, KeptRes_next, KeptRes_fault, Kept_mk]
  clear_value l15 l16
  have hl17 : Kept Q l17 := by
    grind [clearMap_kept, siteFault_kept, setSite_kept, wr_kept, wf_kept, moveSite_kept, emit_kept, raiseEvt_kept, KeptRes_next, KeptRes_fault, Kept_mk]
  clear_value l17
  grind [clearMap_kept, siteFault_kept, setSite_kept, wr_kept, wf_kept, moveSite_kept, emit_kept, raiseEvt_kept, KeptRes_next, KeptRes_fault, Kept_mk]

theorem execSiteAssign_kept {Q : List Instr} {fn t : Nat} {v : Word} {s : State} (hs : Kept Q s) :
    KeptRes Q (execSiteAssign fn t v s) := by
  unfold execSiteAssign
  extract_lets l0 l1 l2 l3
  clear_value l0 l1 l2 l3
  refine KeptRes_next ?_
  split
  · grind [withWrite_kept, guarded_kept, dropMicro_kept, wf_kept, updIso_kept, setSite_kept, KeptRes_next, KeptRes_fault, Kept_mk]
  · assumption

theorem execAssignDone_kept {Q : List Instr} {t : Nat} {s : State} (hs : Kept Q s) :
    KeptRes Q (execAssignDone t s) := by
  unfold execAssignDone
  extract_lets l0 l1 l2
  clear_value l0
  have hl1 : Kept Q l1 := by
    grind [setSite_kept, emit_kept, raiseEvt_kept, KeptRes_next, KeptRes_fault, Kept_mk]
  clear_value l1
  have hl2 : Kept Q l2 := by
    grind [setSite_kept, emit_kept, raiseEvt_kept, KeptRes_next, KeptRes_fault, Kept_mk]
  clear_value l2
  grind [setSite_kept, emit_kept, raiseEvt_kept, KeptRes_next, KeptRes_fault, Kept_mk]

theorem moveFlits_kept {Q : List Instr} {s : State} {t : Nat} (hs : Kept Q s) :
    Kept Q (moveFlits s t) := by
  unfold moveFlits
  extract_lets l0
  clear_value l0
  grind [sendAgain_kept, Kept_mk]

theorem startRetrain_kept {Q : List Instr} {s : State} {t m : Nat} (hs : Kept Q s) :
    Kept Q (startRetrain s t m) := by
  unfold startRetrain
  split
  · grind [moveFlits_kept, setSite_kept, Kept_mk]
  · assumption

theorem crcFails_kept {Q : List Instr} {s : State} {t m : Nat} (hs : Kept Q s) :
    Kept Q (crcFails s t m) := by
  unfold crcFails
  extract_lets l0 l1
  clear_value l0
  have hl1 : Kept Q l1 := by
    grind [setSite_kept, startRetrain_kept, Kept_mk]
  clear_value l1
  grind [setSite_kept, startRetrain_kept, Kept_mk]

theorem execSiteCmdRetrain_kept {Q : List Instr} {fn t : Nat} {s : State} (hs : Kept Q s) :
    KeptRes Q (execSiteCmdRetrain fn t s) := by
  unfold execSiteCmdRetrain
  refine KeptRes_next ?_
  grind [withWrite_kept, guarded_kept, startRetrain_kept, KeptRes_next, KeptRes_fault, Kept_mk]

theorem execModuleRetrain_kept {Q : List Instr} {t m : Nat} {s : State} (hs : Kept Q s) :
    KeptRes Q (execModuleRetrain t m s) := by
  unfold execModuleRetrain
  refine KeptRes_next ?_
  grind [startRetrain_kept, KeptRes_next, KeptRes_fault, Kept_mk]

theorem saveModule_kept {Q : List Instr} {s : State} {t : Nat} {down : Option Nat} {halves : List (Nat × Nat)} (hs : Kept Q s) :
    Kept Q (saveModule s t down halves) := by
  unfold saveModule
  extract_lets l0 l1
  clear_value l0 l1
  refine Kept_upd (s := s) ?_ rfl rfl rfl rfl
  assumption

theorem execModuleRetrainDone_kept {Q : List Instr} {t m : Nat} {loBad hiBad : Nat} {s : State} (hs : Kept Q s) :
    KeptRes Q (execModuleRetrainDone t m loBad hiBad s) := by
  unfold execModuleRetrainDone
  extract_lets l0 l1 l2 l3 l4 l5 l6 l7 l8 l9 l10 l11 l12 l13 l14 l15 l16 l17 l18 l19 l20 l21 l22
  clear_value l0 l1 l2 l3 l4 l5 l6 l7 l8 l9 l10 l11
  have hl12 : Kept Q l12 := by
    grind [setSite_kept, wf_kept, raiseEvt_kept, saveModule_kept, countError_kept, pumpAll_kept, moveFlits_kept, systemEntry_kept, siteFault_kept, Kept_foldl2, KeptRes_next, KeptRes_fault, Kept_mk]
  clear_value l12 l13 l14 l15 l16
  have hl17 : Kept Q l17 := by
    grind [setSite_kept, wf_kept, raiseEvt_kept, saveModule_kept, countError_kept, pumpAll_kept, moveFlits_kept, systemEntry_kept, siteFault_kept, Kept_foldl2, KeptRes_next, KeptRes_fault, Kept_mk]
  clear_value l17
  have hl18 : Kept Q l18 := by
    grind [setSite_kept, wf_kept, raiseEvt_kept, saveModule_kept, countError_kept, pumpAll_kept, moveFlits_kept, systemEntry_kept, siteFault_kept, Kept_foldl2, KeptRes_next, KeptRes_fault, Kept_mk]
  clear_value l18
  have hl19 : Kept Q l19 := by
    grind [setSite_kept, wf_kept, raiseEvt_kept, saveModule_kept, countError_kept, pumpAll_kept, moveFlits_kept, systemEntry_kept, siteFault_kept, Kept_foldl2, KeptRes_next, KeptRes_fault, Kept_mk]
  clear_value l19
  have hl20 : Kept Q l20 := by
    grind [setSite_kept, wf_kept, raiseEvt_kept, saveModule_kept, countError_kept, pumpAll_kept, moveFlits_kept, systemEntry_kept, siteFault_kept, Kept_foldl2, KeptRes_next, KeptRes_fault, Kept_mk]
  clear_value l20
  have hl21 : Kept Q l21 := by
    grind [setSite_kept, wf_kept, raiseEvt_kept, saveModule_kept, countError_kept, pumpAll_kept, moveFlits_kept, systemEntry_kept, siteFault_kept, Kept_foldl2, KeptRes_next, KeptRes_fault, Kept_mk]
  clear_value l21
  have hl22 : Kept Q l22 := by
    grind [setSite_kept, wf_kept, raiseEvt_kept, saveModule_kept, countError_kept, pumpAll_kept, moveFlits_kept, systemEntry_kept, siteFault_kept, Kept_foldl2, KeptRes_next, KeptRes_fault, Kept_mk]
  clear_value l22
  grind [setSite_kept, wf_kept, raiseEvt_kept, saveModule_kept, countError_kept, pumpAll_kept, moveFlits_kept, systemEntry_kept, siteFault_kept, Kept_foldl2, KeptRes_next, KeptRes_fault, Kept_mk]

theorem ackFlits_kept {Q : List Instr} {s : State} {t ack : Nat} {again : Bool} (hs : Kept Q s) :
    Kept Q (ackFlits s t ack again) := by
  unfold ackFlits
  extract_lets l0
  have hl0 : Kept Q l0 := by
    unfold l0
    grind [setSite_kept, pumpAll_kept, sendAgain_kept, Kept_mk]
  clear_value l0
  grind [setSite_kept, pumpAll_kept, sendAgain_kept, Kept_mk]

theorem execFlitReceive_kept {Q : List Instr} {t m : Nat} {flit : Bytes} {s : State} (hs : Kept Q s) :
    KeptRes Q (execFlitReceive t m flit s) := by
  unfold execFlitReceive
  extract_lets l0 l1 l2 l3 l4 l5 l6 l7
  clear_value l0 l1 l2 l3 l4
  have hl5 : Kept Q l5 := by
    grind [crcFails_kept, emit_kept, ackFlits_kept, siteFault_kept, setSite_kept, KeptRes_next, KeptRes_fault, Kept_mk]
  clear_value l5 l6
  have hl7 : Kept Q l7 := by
    unfold l7
    grind [crcFails_kept, emit_kept, ackFlits_kept, siteFault_kept, setSite_kept, KeptRes_next, KeptRes_fault, Kept_mk]
  clear_value l7
  grind [crcFails_kept, emit_kept, ackFlits_kept, siteFault_kept, setSite_kept, KeptRes_next, KeptRes_fault, Kept_mk]

theorem countDenied_kept {Q : List Instr} {s : State} {t : Nat} (hs : Kept Q s) :
    Kept Q (countDenied s t) := by
  unfold countDenied
  grind [raiseEvt_kept, addReg_kept, Kept_mk]

theorem tripSite_kept {Q : List Instr} {s : State} {t status : Nat} (hs : Kept Q s) :
    Kept Q (tripSite s t status) := by
  unfold tripSite
  grind [quarantine_kept, Kept_mk]

theorem writeMasked_kept {Q : List Instr} {s : State} {k req pa hint mask : Nat} {d : Bytes} {nc : Bool} (hs : Kept Q s) :
    Kept Q (writeMasked s k req pa hint mask d nc).2 := by
  unfold writeMasked
  extract_lets l0 l1
  clear_value l0
  have hl1 : Kept Q l1 := by
    grind [devWrite_kept, snoopAll_kept, addReg_kept, meetLine_kept, devRead_kept, placeLine_kept, Kept_foldl2, Kept_mk]
  clear_value l1
  grind [devWrite_kept, snoopAll_kept, addReg_kept, meetLine_kept, devRead_kept, placeLine_kept, Kept_foldl2, Kept_mk]

theorem runSubmit_kept {Q : List Instr} {s : State} {w : Work} {slot : RedSlot} {q : SiteReq} (hs : Kept Q s) :
    Kept Q (runSubmit s w slot q).2 := by
  unfold runSubmit
  split
  · exact hs
  · extract_lets d k bt at'
    clear_value d k bt at'
    have h1 := readTile_kept (k := k) (req := 168) (t := bt) hs
    generalize readTile s k 168 bt = r at h1 ⊢
    obtain ⟨_ | rows, s1⟩ := r
    · exact h1
    · dsimp only at h1 ⊢
      refine Kept_ite2 h1 ?_
      generalize fitBytes q.data _ = x
      have h2 := writeTile_kept (k := k) (req := 168) (hint := 0) (t := at') (rows := [x]) h1
      generalize writeTile s1 k 168 0 at' [x] = r at h2 ⊢
      obtain ⟨_ | _, s2⟩ := r
      · exact h2
      · dsimp only at h2 ⊢
        generalize natBytes _ bt.rowBytes = y
        have h3 := writeTile_kept (k := k) (req := 168) (hint := 0) (t := bt) (rows := [y]) h2
        generalize writeTile s2 k 168 0 bt [y] = r at h3 ⊢
        obtain ⟨_ | _, s3⟩ := r
        · exact h3
        · exact addReg_kept (Kept_mk h3)

theorem endReq_kept {Q : List Instr} {s : State} {q : SiteReq} {status : Nat} {data : Bytes} (hs : Kept Q s) :
    Kept Q (endReq s q status data) := by
  unfold endReq
  extract_lets l0
  clear_value l0
  refine Kept_upd (s := s) ?_ rfl rfl rfl rfl
  assumption

theorem endAccess_kept {Q : List Instr} {s : State} {q : SiteReq} {pa status : Nat} {data : Bytes} (hs : Kept Q s) :
    Kept Q (endAccess s q pa status data) := by
  unfold endAccess
  extract_lets l0
  clear_value l0
  refine Kept_upd (s := s) ?_ rfl rfl rfl rfl
  assumption

theorem stopReq_kept {Q : List Instr} {s : State} {q : SiteReq} {req : Nat} {tile : Tile} {write : Bool} {page kind level : Nat} (hs : Kept Q s) :
    Kept Q (stopReq s q req tile write page kind level) := by
  unfold stopReq
  extract_lets l0 l1 l2
  clear_value l0 l1 l2
  split
  extract_lets l3
  clear_value l3
  split
  · grind [recordFault_kept, addReg_kept, tripSite_kept, countDenied_kept, endReq_kept, Kept_mk]
  · grind [recordFault_kept, addReg_kept, tripSite_kept, countDenied_kept, endReq_kept, Kept_mk]

theorem denyReq_kept {Q : List Instr} {s : State} {q : SiteReq} {status : Nat} (hs : Kept Q s) :
    Kept Q (denyReq s q status) := by
  unfold denyReq
  extract_lets l0
  have hl0 : Kept Q l0 := by
    grind [endReq_kept, tripSite_kept, countDenied_kept, Kept_mk]
  clear_value l0
  grind [endReq_kept, tripSite_kept, countDenied_kept, Kept_mk]

theorem runReq_kept {Q : List Instr} {s : State} {q : SiteReq} (hs : Kept Q s) :
    Kept Q (runReq s q) := by
  unfold runReq
  extract_lets l0 l1 l2 l3 l4 l5 l6 l7 l8 l9
  clear_value l0 l1 l2 l3 l4 l5 l6 l7 l8 l9
  split
  · grind [translate_kept, stopReq_kept, denyReq_kept, cohRequest_kept, returnCredit_kept, memRead_kept, endAccess_kept, memWrite_kept, writeMasked_kept, Kept_mk]
  · split
    · grind [translate_kept, stopReq_kept, denyReq_kept, cohRequest_kept, returnCredit_kept, memRead_kept, endAccess_kept, memWrite_kept, writeMasked_kept, Kept_mk]
    · extract_lets l10
      have hl10 : Kept Q l10.2 := by
        grind [translate_kept, stopReq_kept, denyReq_kept, cohRequest_kept, returnCredit_kept, memRead_kept, endAccess_kept, memWrite_kept, writeMasked_kept, Kept_mk]
      clear_value l10
      grind [translate_kept, stopReq_kept, denyReq_kept, cohRequest_kept, returnCredit_kept, memRead_kept, endAccess_kept, memWrite_kept, writeMasked_kept, Kept_mk]

theorem ingress_kept {Q : List Instr} {s : State} {t : Nat} {h0 h1 : Word} {mask data : Bytes} {ty : Nat} (hs : Kept Q s) :
    Kept Q (ingress s t h0 h1 mask data ty) := by
  unfold ingress
  extract_lets l0 l1 l2 l3 l4
  clear_value l0
  have hl1 : Kept Q l1 := by
    grind [addReg_kept, siteFault_kept, denyReq_kept, gated_kept, runReq_kept, Kept_mk]
  clear_value l1 l2 l3
  have hl4 : Kept Q l4 := by
    grind [addReg_kept, siteFault_kept, denyReq_kept, gated_kept, runReq_kept, Kept_mk]
  clear_value l4
  grind [addReg_kept, siteFault_kept, denyReq_kept, gated_kept, runReq_kept, Kept_mk]

theorem execMemRd_kept {Q : List Instr} {t : Nat} {h0 h1 : Word} {s : State} (hs : Kept Q s) :
    KeptRes Q (execMemRd t h0 h1 s) := by
  unfold execMemRd
  refine KeptRes_next ?_
  grind [ingress_kept, KeptRes_next, KeptRes_fault, Kept_mk]

theorem execMemWr_kept {Q : List Instr} {t : Nat} {h0 h1 : Word} {data : Bytes} {s : State} (hs : Kept Q s) :
    KeptRes Q (execMemWr t h0 h1 data s) := by
  unfold execMemWr
  refine KeptRes_next ?_
  grind [ingress_kept, KeptRes_next, KeptRes_fault, Kept_mk]

theorem execMemWrMask_kept {Q : List Instr} {t : Nat} {h0 h1 : Word} {mask data : Bytes} {s : State} (hs : Kept Q s) :
    KeptRes Q (execMemWrMask t h0 h1 mask data s) := by
  unfold execMemWrMask
  refine KeptRes_next ?_
  grind [ingress_kept, KeptRes_next, KeptRes_fault, Kept_mk]

theorem execCrdS_kept {Q : List Instr} {t : Nat} {h0 h1 : Word} {s : State} (hs : Kept Q s) :
    KeptRes Q (execCrdS t h0 h1 s) := by
  unfold execCrdS
  refine KeptRes_next ?_
  grind [ingress_kept, KeptRes_next, KeptRes_fault, Kept_mk]

theorem execCrdX_kept {Q : List Instr} {t : Nat} {h0 h1 : Word} {s : State} (hs : Kept Q s) :
    KeptRes Q (execCrdX t h0 h1 s) := by
  unfold execCrdX
  refine KeptRes_next ?_
  grind [ingress_kept, KeptRes_next, KeptRes_fault, Kept_mk]

theorem execCUpg_kept {Q : List Instr} {t : Nat} {h0 h1 : Word} {s : State} (hs : Kept Q s) :
    KeptRes Q (execCUpg t h0 h1 s) := by
  unfold execCUpg
  refine KeptRes_next ?_
  grind [ingress_kept, KeptRes_next, KeptRes_fault, Kept_mk]

theorem submitReq_kept {Q : List Instr} {s : State} {q : SiteReq} (hs : Kept Q s) :
    Kept Q (submitReq s q) := by
  unfold submitReq
  extract_lets l0 l1 l2 l3
  clear_value l0 l1
  have hl2 : ∀ y0 y1, Kept Q y0 → Kept Q (l2 y0 y1) := by
    unfold l2
    intros
    grind [siteSend_kept, returnCredit_kept, tripSite_kept, countDenied_kept, runSubmit_kept, recordFault_kept, addReg_kept, Kept_mk]
  clear_value l2 l3
  split
  · extract_lets l4
    have hl4 : Kept Q l4 := by
      grind [siteSend_kept, returnCredit_kept, tripSite_kept, countDenied_kept, runSubmit_kept, recordFault_kept, addReg_kept, Kept_mk]
    clear_value l4
    grind [siteSend_kept, returnCredit_kept, tripSite_kept, countDenied_kept, runSubmit_kept, recordFault_kept, addReg_kept, Kept_mk]
  · split
    · split
      · grind [siteSend_kept, returnCredit_kept, tripSite_kept, countDenied_kept, runSubmit_kept, recordFault_kept, addReg_kept, Kept_mk]
      · grind [siteSend_kept, returnCredit_kept, tripSite_kept, countDenied_kept, runSubmit_kept, recordFault_kept, addReg_kept, Kept_mk]
      · extract_lets l5 l6
        clear_value l5 l6
        split
        extract_lets l7
        clear_value l7
        grind [siteSend_kept, returnCredit_kept, tripSite_kept, countDenied_kept, runSubmit_kept, recordFault_kept, addReg_kept, Kept_mk]
    · grind [siteSend_kept, returnCredit_kept, tripSite_kept, countDenied_kept, runSubmit_kept, recordFault_kept, addReg_kept, Kept_mk]

theorem execRedSubmit_kept {Q : List Instr} {t : Nat} {h0 h1 : Word} {data : Bytes} {s : State} (hs : Kept Q s) :
    KeptRes Q (execRedSubmit t h0 h1 data s) := by
  unfold execRedSubmit
  extract_lets l0 l1 l2
  clear_value l0
  have hl1 : Kept Q l1 := by
    grind [addReg_kept, siteFault_kept, gated_kept, submitReq_kept, KeptRes_next, KeptRes_fault, Kept_mk]
  clear_value l1 l2
  grind [addReg_kept, siteFault_kept, gated_kept, submitReq_kept, KeptRes_next, KeptRes_fault, Kept_mk]

theorem respond_kept {Q : List Instr} {s : State} {t tag : Nat} {f : Nat → Bool} {msg : String} (hs : Kept Q s) :
    Kept Q (respond s t tag f msg) := by
  unfold respond
  split
  · assumption
  · extract_lets l0
    have hl0 : Kept Q l0 := by
      grind [gated_kept, submitReq_kept, runReq_kept, siteSend_kept, returnCredit_kept, tripSite_kept, countDenied_kept, Kept_mk]
    clear_value l0
    split
    · grind [gated_kept, submitReq_kept, runReq_kept, siteSend_kept, returnCredit_kept, tripSite_kept, countDenied_kept, Kept_mk]
    · split
      · grind [gated_kept, submitReq_kept, runReq_kept, siteSend_kept, returnCredit_kept, tripSite_kept, countDenied_kept, Kept_mk]
      · split
        · grind [gated_kept, submitReq_kept, runReq_kept, siteSend_kept, returnCredit_kept, tripSite_kept, countDenied_kept, Kept_mk]
        · extract_lets l1
          have hl1 : Kept Q l1 := by
            grind [gated_kept, submitReq_kept, runReq_kept, siteSend_kept, returnCredit_kept, tripSite_kept, countDenied_kept, Kept_mk]
          clear_value l1
          grind [gated_kept, submitReq_kept, runReq_kept, siteSend_kept, returnCredit_kept, tripSite_kept, countDenied_kept, Kept_mk]

theorem execRdRsp_kept {Q : List Instr} {t tag : Nat} {s : State} (hs : Kept Q s) :
    KeptRes Q (execRdRsp t tag s) := by
  unfold execRdRsp
  refine KeptRes_next ?_
  grind [respond_kept, KeptRes_next, KeptRes_fault, Kept_mk]

theorem execWrRsp_kept {Q : List Instr} {t tag : Nat} {s : State} (hs : Kept Q s) :
    KeptRes Q (execWrRsp t tag s) := by
  unfold execWrRsp
  refine KeptRes_next ?_
  grind [respond_kept, KeptRes_next, KeptRes_fault, Kept_mk]

theorem cohResponse_kept {Q : List Instr} {s : State} {t : Nat} {h0 h1 : Word} {n : Nat} {f : State → Nat → Nat → State} (hs : Kept Q s) (hf : ∀ y0 y1 y2, Kept Q y0 → Kept Q (f y0 y1 y2)) :
    Kept Q (cohResponse s t h0 h1 n f) := by
  unfold cohResponse
  extract_lets l0 l1
  have hl0 : Kept Q l0 := by
    grind [addReg_kept, tripSite_kept, countDenied_kept, Kept_mk]
  clear_value l0 l1
  grind [addReg_kept, tripSite_kept, countDenied_kept, Kept_mk]

theorem execCWb_kept {Q : List Instr} {t : Nat} {h0 h1 : Word} {data : Bytes} {s : State} (hs : Kept Q s) :
    KeptRes Q (execCWb t h0 h1 data s) := by
  unfold execCWb
  refine KeptRes_next ?_
  grind [cohResponse_kept, homeNotice_kept, KeptRes_next, KeptRes_fault, Kept_mk]

theorem execCEvict_kept {Q : List Instr} {t : Nat} {h0 h1 : Word} {s : State} (hs : Kept Q s) :
    KeptRes Q (execCEvict t h0 h1 s) := by
  unfold execCEvict
  refine KeptRes_next ?_
  grind [cohResponse_kept, homeNotice_kept, KeptRes_next, KeptRes_fault, Kept_mk]

theorem execCGack_kept {Q : List Instr} {t : Nat} {h0 h1 : Word} {s : State} (hs : Kept Q s) :
    KeptRes Q (execCGack t h0 h1 s) := by
  unfold execCGack
  refine KeptRes_next ?_
  grind [cohResponse_kept, settle_kept, closeTxn_kept, protocolLoss_kept, KeptRes_next, KeptRes_fault, Kept_mk]

theorem execSnpRsp_kept {Q : List Instr} {t : Nat} {h0 h1 : Word} {data : Bytes} {s : State} (hs : Kept Q s) :
    KeptRes Q (execSnpRsp t h0 h1 data s) := by
  unfold execSnpRsp
  refine KeptRes_next ?_
  grind [cohResponse_kept, cohAnswer_kept, protocolLoss_kept, KeptRes_next, KeptRes_fault, Kept_mk]

theorem execPartResetAck_kept {Q : List Instr} {t k : Nat} {s : State} (hs : Kept Q s) :
    KeptRes Q (execPartResetAck t k s) := by
  unfold execPartResetAck
  refine KeptRes_next ?_
  grind [setSite_kept, KeptRes_next, KeptRes_fault, Kept_mk]

theorem execPartResetAckTimeout_kept {Q : List Instr} {t k : Nat} {s : State} (hs : Kept Q s) :
    KeptRes Q (execPartResetAckTimeout t k s) := by
  unfold execPartResetAckTimeout
  refine KeptRes_next ?_
  grind [siteFault_kept, setSite_kept, KeptRes_next, KeptRes_fault, Kept_mk]

end Sys2Proof.Machine
end

