-- ==== Sys2Proof/Laws/KeptOperands.lean ====
section
/-!
SUPPORT. What Machine/Operands.lean does keeps the canonical form and the queue.
-/

set_option Elab.async false

namespace Sys2Proof.Machine

open Sys2Proof

theorem withTile_kept {Q : List Instr} {s : State} {w : Work} {t : Tile} {k : State → List Bytes → State} (hs : Kept Q s) (hk : ∀ y0 y1, Kept Q y0 → Kept Q (k y0 y1)) :
    Kept Q (withTile s w t k) := by
  unfold withTile
  grind [readTile_kept, stopWork_kept, Kept_mk]

theorem putHinted_kept {Q : List Instr} {s : State} {w : Work} {hint : Nat} {t : Tile} {rows : List Bytes} {k : State → State} (hs : Kept Q s) (hk : ∀ y0, Kept Q y0 → Kept Q (k y0)) :
    Kept Q (putHinted s w hint t rows k) := by
  unfold putHinted
  grind [writeTile_kept, stopWork_kept, Kept_mk]

theorem putTile_kept {Q : List Instr} {s : State} {w : Work} {t : Tile} {rows : List Bytes} {k : State → State} (hs : Kept Q s) (hk : ∀ y0, Kept Q y0 → Kept Q (k y0)) :
    Kept Q (putTile s w t rows k) := by
  unfold putTile
  grind [putHinted_kept, Kept_mk]

theorem withTensor_kept {Q : List Instr} {s : State} {w : Work} {o : Opd} {f : Nat} {mx : Bool} {cols : Nat} {k : State → List (List Num) → State} (hs : Kept Q s) (hk : ∀ y0 y1, Kept Q y0 → Kept Q (k y0 y1)) :
    Kept Q (withTensor s w o f mx cols k) := by
  unfold withTensor
  grind [withTile_kept, Kept_mk]

theorem withCodes_kept {Q : List Instr} {s : State} {w : Work} {o : Opd} {f cols : Nat} {k : State → List (List Nat) → State} (hs : Kept Q s) (hk : ∀ y0 y1, Kept Q y0 → Kept Q (k y0 y1)) :
    Kept Q (withCodes s w o f cols k) := by
  unfold withCodes
  grind [withTile_kept, Kept_mk]

theorem withRecords_kept {Q : List Instr} {s : State} {w : Work} {o : Opd} {f cols : Nat} {k : State → List (List Pot) → State} (hs : Kept Q s) (hk : ∀ y0 y1, Kept Q y0 → Kept Q (k y0 y1)) :
    Kept Q (withRecords s w o f cols k) := by
  unfold withRecords
  grind [withTile_kept, complete_kept, Kept_mk]

theorem storeElems_kept {Q : List Instr} {s : State} {w : Work} {cols : Nat} {rows : List (List Elem)} (hs : Kept Q s) :
    Kept Q (storeElems s w cols rows) := by
  unfold storeElems
  extract_lets l0 l1 l2 l3 l4
  clear_value l0 l1 l2 l3 l4
  grind [putTile_kept, complete_kept, Kept_foldl2, Kept_mk]

theorem storePots_kept {Q : List Instr} {s : State} {w : Work} {cols : Nat} {rows : List (List Pot)} (hs : Kept Q s) :
    Kept Q (storePots s w cols rows) := by
  unfold storePots
  extract_lets l0 l1 l2
  clear_value l0 l1 l2
  grind [putTile_kept, complete_kept, storeElems_kept, Kept_mk]

theorem storeCodes_kept {Q : List Instr} {s : State} {w : Work} {cols : Nat} {rows : List (List Nat)} {fl : Flags} (hs : Kept Q s) :
    Kept Q (storeCodes s w cols rows fl) := by
  unfold storeCodes
  extract_lets l0
  clear_value l0
  grind [putTile_kept, complete_kept, Kept_mk]

end Sys2Proof.Machine
end

