-- ==== Sys2Proof/Laws/KeptSweep.lean ====
section
/-!
SUPPORT. What Machine/Sweep.lean does keeps the canonical form and the queue.
-/

set_option Elab.async false

namespace Sys2Proof.Machine

open Sys2Proof

theorem withKvTile_kept {Q : List Instr} {s : State} {w : Work} {t : Tile} {k : State → Bytes → State} (hs : Kept Q s) (hk : ∀ y0 y1, Kept Q y0 → Kept Q (k y0 y1)) :
    Kept Q (withKvTile s w t k) := by
  unfold withKvTile
  grind [withTile_kept, addReg_kept, Kept_mk]

theorem withListBytes_kept {Q : List Instr} {s : State} {w : Work} {a0 : Nat} {a1 : Nat} {a2 : Nat} {a3 : (State → Bytes → State)} (hs : Kept Q s) (ha3 : ∀ y0 y1, Kept Q y0 → Kept Q (a3 y0 y1)) :
    Kept Q (withListBytes s w a0 a1 a2 a3) := by
  induction a0 generalizing s a1 a2 a3 with
  | zero => exact ha3 _ _ hs
  | succ n ih =>
    unfold withListBytes
    refine Kept_ite (ha3 _ _ hs) ?_
    exact withKvTile_kept hs fun s b h => ih h fun _ _ h => ha3 _ _ h

theorem withList_kept {Q : List Instr} {s : State} {w : Work} {base e0 n : Nat} {k : State → List (List Word) → State} (hs : Kept Q s) (hk : ∀ y0 y1, Kept Q y0 → Kept Q (k y0 y1)) :
    Kept Q (withList s w base e0 n k) := by
  unfold withList
  grind [withListBytes_kept, Kept_mk]

theorem withSlab_kept {Q : List Instr} {s : State} {w : Work} {e : List Word} {v : Bool} {h j0 n : Nat} {k : State → List (List Num) → State} (hs : Kept Q s) (hk : ∀ y0 y1, Kept Q y0 → Kept Q (k y0 y1)) :
    Kept Q (withSlab s w e v h j0 n k) := by
  unfold withSlab
  extract_lets l0 l1 l2
  clear_value l0 l1
  have hl2 : ∀ y0 y1 y2, Kept Q y0 → Kept Q (l2 y0 y1 y2) := by
    unfold l2
    intros
    grind [withKvTile_kept, Kept_mk]
  clear_value l2
  grind [withKvTile_kept, Kept_mk]

theorem withRange_kept {Q : List Instr} {s : State} {w : Work} {list : List (List Word)} {h : Nat} {a0 : List (Nat × Nat × Nat)} {a1 : (State → List (List Num × List Num) → State)} (hs : Kept Q s) (ha1 : ∀ y0 y1, Kept Q y0 → Kept Q (a1 y0 y1)) :
    Kept Q (withRange s w list h a0 a1) := by
  induction a0 generalizing s a1 with
  | nil => exact ha1 _ _ hs
  | cons i t ih =>
    unfold withRange
    refine withSlab_kept hs fun s r h => withSlab_kept h fun s r h => ih h (fun _ _ h => ha1 _ _ h)

theorem withProbe_kept {Q : List Instr} {s : State} {w : Work} {a0 : List Tile} {a1 : (State → State)} (hs : Kept Q s) (ha1 : ∀ y0, Kept Q y0 → Kept Q (a1 y0)) :
    Kept Q (withProbe s w a0 a1) := by
  fun_induction withProbe <;> grind [translatePages_kept, stopWork_kept, Kept, State.canonical]

theorem writePartials_kept {Q : List Instr} {s : State} {w : Work} {parts : List Bytes} {nan range : Bool} {wsats : Nat} (hs : Kept Q s) :
    Kept Q (writePartials s w parts nan range wsats) := by
  unfold writePartials
  extract_lets l0 l1
  clear_value l0 l1
  split
  · grind [putHinted_kept, addReg_kept, raiseEvt_kept, complete_kept, Kept_mk]
  · grind [putHinted_kept, addReg_kept, raiseEvt_kept, complete_kept, Kept_mk]

theorem partialWork_kept {Q : List Instr} {s : State} {w : Work} (hs : Kept Q s) :
    Kept Q (partialWork s w) := by
  unfold partialWork
  extract_lets l0 l1
  clear_value l0 l1
  split
  · assumption
  · apply withList_kept
    · assumption
    · grind [withList_kept, complete_kept, withProbe_kept, withTile_kept, withRange_kept, writePartials_kept, Kept_foldl2, Kept_mk]

theorem execAttnPartial_kept {Q : List Instr} {k x q : Nat} {s : State} (hs : Kept Q s) :
    KeptRes Q (execAttnPartial k x q s) := by
  unfold execAttnPartial
  refine KeptRes_next ?_
  grind [onWork_kept, partialWork_kept, KeptRes_next, KeptRes_fault, Kept_mk]

theorem attnMergeWork_kept {Q : List Instr} {s : State} {w : Work} (hs : Kept Q s) :
    Kept Q (attnMergeWork s w) := by
  unfold attnMergeWork
  extract_lets l0 l1
  clear_value l0 l1
  split
  · grind [withTile_kept, complete_kept, putTile_kept, storeElems_kept, Kept_mk]
  · grind [withTile_kept, complete_kept, putTile_kept, storeElems_kept, Kept_mk]

theorem execAttnMerge_kept {Q : List Instr} {k x q : Nat} {s : State} (hs : Kept Q s) :
    KeptRes Q (execAttnMerge k x q s) := by
  unfold execAttnMerge
  refine KeptRes_next ?_
  grind [onWork_kept, attnMergeWork_kept, KeptRes_next, KeptRes_fault, Kept_mk]

theorem putRuns_kept {Q : List Instr} {s : State} {w : Work} {hint : Nat} {a0 : List (Tile × Bytes)} {a1 : (State → State)} (hs : Kept Q s) (ha1 : ∀ y0, Kept Q y0 → Kept Q (a1 y0)) :
    Kept Q (putRuns s w hint a0 a1) := by
  induction a0 generalizing s a1 with
  | nil => exact ha1 _ hs
  | cons i t ih =>
    unfold putRuns
    exact putHinted_kept hs fun s h => ih h ha1

theorem storeWork_kept {Q : List Instr} {s : State} {w : Work} (hs : Kept Q s) :
    Kept Q (storeWork s w) := by
  unfold storeWork
  extract_lets l0 l1
  clear_value l0 l1
  split
  · assumption
  · apply withTensor_kept
    · assumption
    · grind [withTensor_kept, withList_kept, complete_kept, putRuns_kept, Kept_foldl2, Kept_mk]

theorem execKvStore_kept {Q : List Instr} {k x q : Nat} {s : State} (hs : Kept Q s) :
    KeptRes Q (execKvStore k x q s) := by
  unfold execKvStore
  refine KeptRes_next ?_
  grind [onWork_kept, storeWork_kept, KeptRes_next, KeptRes_fault, Kept_mk]

theorem withBounds_kept {Q : List Instr} {s : State} {w : Work} {e : List Word} {a0 : List Nat} {a1 : (State → Except Unit (List (Option Int)) → State)} (hs : Kept Q s) (ha1 : ∀ y0 y1, Kept Q y0 → Kept Q (a1 y0 y1)) :
    Kept Q (withBounds s w e a0 a1) := by
  induction a0 generalizing s a1 with
  | nil => exact ha1 _ _ hs
  | cons i t ih =>
    unfold withBounds
    refine Kept_ite ?_ (withSlab_kept hs fun s r h => ?_)
    · exact ih hs (fun _ _ h => ha1 _ _ h)
    · exact ih h (fun _ _ h => ha1 _ _ h)

theorem withAllBounds_kept {Q : List Instr} {s : State} {w : Work} {a0 : List (List Word)} {a1 : (State → Except Unit (List (List (Option Int))) → State)} (hs : Kept Q s) (ha1 : ∀ y0 y1, Kept Q y0 → Kept Q (a1 y0 y1)) :
    Kept Q (withAllBounds s w a0 a1) := by
  induction a0 generalizing s a1 with
  | nil => exact ha1 _ _ hs
  | cons i t ih =>
    unfold withAllBounds
    exact withBounds_kept hs fun s b h => ih h (fun _ _ h => ha1 _ _ h)

theorem boundWork_kept {Q : List Instr} {s : State} {w : Work} (hs : Kept Q s) :
    Kept Q (boundWork s w) := by
  unfold boundWork
  refine Kept_ite hs (withList_kept hs fun s f h => withList_kept h fun s e h => Kept_ite (complete_kept h) ?_)
  refine withAllBounds_kept h fun s r h => ?_
  dsimp only
  cases r with
  | error _ => exact complete_kept h
  | ok bs => exact putRuns_kept h fun s h => completeSt_kept h

theorem execKvBound_kept {Q : List Instr} {k x q : Nat} {s : State} (hs : Kept Q s) :
    KeptRes Q (execKvBound k x q s) := by
  unfold execKvBound
  refine KeptRes_next ?_
  grind [onWork_kept, boundWork_kept, KeptRes_next, KeptRes_fault, Kept_mk]

theorem finishEngine_kept {Q : List Instr} {s : State} {e cause : Nat} (hs : Kept Q s) :
    Kept Q (finishEngine s e cause) := by
  unfold finishEngine
  extract_lets l0 l1 l2 l3 l4 l5 l6 l7 l8
  clear_value l0 l1 l2
  have hl3 : Kept Q l3 := by
    grind [rerun_kept, wr_kept, setState_kept, raiseEvt_kept, countError_kept, Kept_mk]
  clear_value l3 l4 l5
  have hl6 : Kept Q l6 := by
    grind [rerun_kept, wr_kept, setState_kept, raiseEvt_kept, countError_kept, Kept_mk]
  clear_value l6
  have hl7 : Kept Q l7 := by
    grind [rerun_kept, wr_kept, setState_kept, raiseEvt_kept, countError_kept, Kept_mk]
  clear_value l7
  have hl8 : Kept Q l8 := by
    grind [rerun_kept, wr_kept, setState_kept, raiseEvt_kept, countError_kept, Kept_mk]
  clear_value l8
  grind [rerun_kept, wr_kept, setState_kept, raiseEvt_kept, countError_kept, Kept_mk]

theorem abandonTest_kept {Q : List Instr} {s : State} {e : Nat} (hs : Kept Q s) :
    Kept Q (abandonTest s e) := by
  unfold abandonTest
  grind [raiseEvt_kept, wf_kept, wb_kept, Kept_mk]

theorem fenceEngine_kept {Q : List Instr} {s : State} {e cause : Nat} (hs : Kept Q s) :
    Kept Q (fenceEngine s e cause) := by
  unfold fenceEngine
  split
  · grind [abandonTest_kept, Kept_mk]
  · assumption

theorem execEngineFault_kept {Q : List Instr} {e cause : Nat} {s : State} (hs : Kept Q s) :
    KeptRes Q (execEngineFault e cause s) := by
  unfold execEngineFault
  refine KeptRes_next ?_
  grind [fenceEngine_kept, KeptRes_next, KeptRes_fault, Kept_mk]

theorem execSeStall_kept {Q : List Instr} {e : Nat} {s : State} (hs : Kept Q s) :
    KeptRes Q (execSeStall e s) := by
  unfold execSeStall
  refine KeptRes_next ?_
  grind [fenceEngine_kept, KeptRes_next, KeptRes_fault, Kept_mk]

theorem execEngineFence_kept {Q : List Instr} {fn e : Nat} {s : State} (hs : Kept Q s) :
    KeptRes Q (execEngineFence fn e s) := by
  unfold execEngineFence
  refine KeptRes_next ?_
  grind [withOperator_kept, guarded_kept, fenceEngine_kept, KeptRes_next, KeptRes_fault, Kept_mk]

theorem execEngineFenceDrained_kept {Q : List Instr} {e : Nat} {s : State} (hs : Kept Q s) :
    KeptRes Q (execEngineFenceDrained e s) := by
  unfold execEngineFenceDrained
  refine KeptRes_next ?_
  grind [finishEngine_kept, KeptRes_next, KeptRes_fault, Kept_mk]

theorem execEngineTest_kept {Q : List Instr} {fn e : Nat} {s : State} (hs : Kept Q s) :
    KeptRes Q (execEngineTest fn e s) := by
  unfold execEngineTest
  refine KeptRes_next ?_
  grind [withOperator_kept, guarded_kept, wb_kept, KeptRes_next, KeptRes_fault, Kept_mk]

theorem execEngineTestDone_kept {Q : List Instr} {e : Nat} {pass : Bool} {s : State} (hs : Kept Q s) :
    KeptRes Q (execEngineTestDone e pass s) := by
  unfold execEngineTestDone
  extract_lets l0 l1
  have hl0 : Kept Q l0 := by
    grind [wf_kept, wb_kept, raiseEvt_kept, finishEngine_kept, KeptRes_next, KeptRes_fault, Kept_mk]
  clear_value l0
  have hl1 : Kept Q l1 := by
    grind [wf_kept, wb_kept, raiseEvt_kept, finishEngine_kept, KeptRes_next, KeptRes_fault, Kept_mk]
  clear_value l1
  grind [wf_kept, wb_kept, raiseEvt_kept, finishEngine_kept, KeptRes_next, KeptRes_fault, Kept_mk]

end Sys2Proof.Machine
end

