-- ==== Sys2Proof/Laws/KeptRing.lean ====
section
/-!
SUPPORT. What Machine/Ring.lean does keeps the canonical form and the queue.
-/

set_option Elab.async false

namespace Sys2Proof.Machine

open Sys2Proof

theorem takeToken_kept {Q : List Instr} {s : State} {q : Parcel} {l : Leg} (hs : Kept Q s) :
    Kept Q (takeToken s q l) := by
  unfold takeToken
  extract_lets l0 l1 l2
  clear_value l0 l1 l2
  split
  · refine Kept_upd (s := s) ?_ rfl rfl rfl rfl
    assumption
  · assumption

theorem refillTokens_kept {Q : List Instr} {s : State} (hs : Kept Q s) :
    Kept Q (refillTokens s) := by
  unfold refillTokens
  extract_lets l0 l1
  clear_value l0 l1
  refine Kept_upd (s := s) ?_ rfl rfl rfl rfl
  assumption

theorem takeSlots_kept {Q : List Instr} {s : State} {q : Parcel} {r : Nat} {back : Bool} {links : List Nat} {cycle : Nat} (hs : Kept Q s) :
    Kept Q (takeSlots s q r back links cycle) := by
  unfold takeSlots
  extract_lets l0
  clear_value l0
  split
  · assumption
  · extract_lets l1 l2 l3
    clear_value l1 l2 l3
    grind [addReg_kept, Kept_mk]

theorem tickFabric_kept {Q : List Instr} {s : State} (hs : Kept Q s) :
    Kept Q (tickFabric s) := by
  unfold tickFabric
  extract_lets l0 l1 l2
  have hl0 : Kept Q l0 := by
    grind [refillTokens_kept, addReg_kept, Kept_foldl2, Kept_mk]
  clear_value l0
  have hl1 : Kept Q l1 := by
    unfold l1
    refine Kept_foldl (fun s3 x4 hs3 => ?_) ?_
    · grind [refillTokens_kept, addReg_kept, Kept_foldl2, Kept_mk]
    · assumption
  clear_value l1 l2
  grind [refillTokens_kept, addReg_kept, Kept_foldl2, Kept_mk]

theorem tryInject_kept {Q : List Instr} {s : State} {q : Parcel} {cycle : Nat} (hs : Kept Q s) :
    Kept Q (tryInject s q cycle) := by
  unfold tryInject
  split
  · assumption
  · extract_lets l0 l1 l2
    clear_value l0
    have hl1 : Kept Q l1 := by
      grind [takeSlots_kept, takeToken_kept, Kept_mk]
    clear_value l1 l2
    grind [takeSlots_kept, takeToken_kept, Kept_mk]

theorem execPacketInject_kept {Q : List Instr} {src dst : FabUnit} {p : Nat} {cargo : Cargo} {bytes n cycle : Nat} {again : Option Nat} {s : State} (hs : Kept Q s) :
    KeptRes Q (execPacketInject src dst p cargo bytes n cycle again s) := by
  unfold execPacketInject
  extract_lets l0
  clear_value l0
  refine KeptRes_next ?_
  split
  · grind [tryInject_kept, KeptRes_next, KeptRes_fault, Kept_mk]
  · split
    · grind [tryInject_kept, KeptRes_next, KeptRes_fault, Kept_mk]
    · assumption

theorem tryCopy_kept {Q : List Instr} {s : State} {c : Cast} {cycle : Nat} (hs : Kept Q s) :
    Kept Q (tryCopy s c cycle) := by
  unfold tryCopy
  split
  · assumption
  · extract_lets l0 l1 l2
    clear_value l0
    have hl1 : Kept Q l1 := by
      grind [takeSlots_kept, Kept_mk]
    clear_value l1 l2
    grind [takeSlots_kept, Kept_mk]

theorem execPacketTurn_kept {Q : List Instr} {id cycle : Nat} {s : State} (hs : Kept Q s) :
    KeptRes Q (execPacketTurn id cycle s) := by
  unfold execPacketTurn
  extract_lets l0 l1
  clear_value l0 l1
  refine KeptRes_next ?_
  split
  · grind [tryCopy_kept, takeSlots_kept, KeptRes_next, KeptRes_fault, Kept_mk]
  · split
    · assumption
    · extract_lets l2
      clear_value l2
      split
      · grind [tryCopy_kept, takeSlots_kept, KeptRes_next, KeptRes_fault, Kept_mk]
      · assumption

theorem execPacketDeliver_kept {Q : List Instr} {id cycle : Nat} {s : State} (hs : Kept Q s) :
    KeptRes Q (execPacketDeliver id cycle s) := by
  unfold execPacketDeliver
  extract_lets l0
  clear_value l0
  refine KeptRes_next ?_
  split
  · assumption
  · extract_lets l1 l2
    clear_value l1 l2
    split
    · split
      · split
        · refine Kept_upd (s := s) ?_ rfl rfl rfl rfl
          assumption
        · grind [emit_kept, KeptRes_next, KeptRes_fault, Kept_mk]
      · grind [emit_kept, KeptRes_next, KeptRes_fault, Kept_mk]
    · assumption

theorem execIslandWake_kept {Q : List Instr} {island cycle : Nat} {s : State} (hs : Kept Q s) :
    KeptRes Q (execIslandWake island cycle s) := by
  unfold execIslandWake
  extract_lets l0
  clear_value l0
  refine KeptRes_next ?_
  split
  · grind [addReg_kept, KeptRes_next, KeptRes_fault, Kept_mk]
  · assumption

theorem execIslandSleep_kept {Q : List Instr} {island cycle : Nat} {s : State} (hs : Kept Q s) :
    KeptRes Q (execIslandSleep island cycle s) := by
  unfold execIslandSleep
  extract_lets l0
  clear_value l0
  refine KeptRes_next ?_
  split
  · refine Kept_upd (s := s) ?_ rfl rfl rfl rfl
    assumption
  · assumption

theorem execBroadcast_kept {Q : List Instr} {src : FabUnit} {p cycle : Nat} {s : State} (hs : Kept Q s) :
    KeptRes Q (execBroadcast src p cycle s) := by
  unfold execBroadcast
  extract_lets l0 l1
  clear_value l0 l1
  refine KeptRes_next ?_
  split
  · assumption
  · extract_lets l2
    clear_value l2
    split
    · grind [tryCopy_kept, KeptRes_next, KeptRes_fault, Kept_mk]
    · assumption

theorem execBroadcastComplete_kept {Q : List Instr} {id : Nat} {s : State} (hs : Kept Q s) :
    KeptRes Q (execBroadcastComplete id s) := by
  unfold execBroadcastComplete
  extract_lets l0
  clear_value l0
  refine KeptRes_next ?_
  refine Kept_upd (s := s) ?_ rfl rfl rfl rfl
  assumption

theorem castFlits_kept {Q : List Instr} {s : State} {node : Nat} (hs : Kept Q s) :
    Kept Q (castFlits s node) := by
  unfold castFlits
  refine Kept_foldl (fun s0 x1 hs0 => ?_) ?_
  · grind [addReg_kept, Kept_foldl2, Kept_mk]
  · assumption

theorem dropPorts_kept {Q : List Instr} {s : State} {k : Nat} (hs : Kept Q s) :
    Kept Q (dropPorts s k) := by
  unfold dropPorts
  extract_lets l0
  clear_value l0
  refine Kept_upd (s := s) ?_ rfl rfl rfl rfl
  assumption

theorem writeDeal_kept {Q : List Instr} {s : State} {r : Nat} {v : Word} (hs : Kept Q s) :
    Kept Q (writeDeal s r v) := by
  unfold writeDeal
  extract_lets l0 l1 l2 l3 l4
  clear_value l0 l1 l2 l3 l4
  refine Kept_upd (s := s) ?_ rfl rfl rfl rfl
  assumption

theorem execDealCommit_kept {Q : List Instr} {fn r : Nat} {s : State} (hs : Kept Q s) :
    KeptRes Q (execDealCommit fn r s) := by
  unfold execDealCommit
  refine KeptRes_next ?_
  split
  · grind [withWrite_kept, guarded_kept, wb_kept, KeptRes_next, KeptRes_fault, Kept_mk]
  · assumption

theorem execCommitDone_kept {Q : List Instr} {r : Nat} {s : State} (hs : Kept Q s) :
    KeptRes Q (execCommitDone r s) := by
  unfold execCommitDone
  extract_lets l0 l1 l2 l3 l4
  clear_value l0 l1
  have hl2 : Kept Q l2 := by
    grind [reject_kept, wb_kept, raiseEvt_kept, wf_kept, KeptRes_next, KeptRes_fault, Kept_mk]
  clear_value l2 l3
  have hl4 : Kept Q l4 := by
    grind [reject_kept, wb_kept, raiseEvt_kept, wf_kept, KeptRes_next, KeptRes_fault, Kept_mk]
  clear_value l4
  grind [reject_kept, wb_kept, raiseEvt_kept, wf_kept, KeptRes_next, KeptRes_fault, Kept_mk]

theorem execRouteModeWrite_kept {Q : List Instr} {fn : Nat} {v : Word} {s : State} (hs : Kept Q s) :
    KeptRes Q (execRouteModeWrite fn v s) := by
  unfold execRouteModeWrite
  refine KeptRes_next ?_
  grind [withWrite_kept, wb_kept, KeptRes_next, KeptRes_fault, Kept_mk]

theorem setRoute_kept {Q : List Instr} {s : State} {src dst e : Nat} (hs : Kept Q s) :
    Kept Q (setRoute s src dst e) := by
  unfold setRoute
  extract_lets l0 l1
  clear_value l0 l1
  refine Kept_upd (s := s) ?_ rfl rfl rfl rfl
  assumption

theorem execRouteDataWrite_kept {Q : List Instr} {fn : Nat} {v : Word} {s : State} (hs : Kept Q s) :
    KeptRes Q (execRouteDataWrite fn v s) := by
  unfold execRouteDataWrite
  extract_lets l0
  clear_value l0
  refine KeptRes_next ?_
  grind [withWrite_kept, guarded_kept, setRoute_kept, KeptRes_next, KeptRes_fault, Kept_mk]

theorem noteWire_kept {Q : List Instr} {s : State} {key : Nat} (hs : Kept Q s) :
    Kept Q (noteWire s key) := by
  unfold noteWire
  extract_lets l0 l1
  clear_value l0 l1
  refine Kept_upd (s := s) ?_ rfl rfl rfl rfl
  assumption

theorem replayPacket_kept {Q : List Instr} {s : State} {id k : Nat} (hs : Kept Q s) :
    Kept Q (replayPacket s id k) := by
  unfold replayPacket
  extract_lets l0
  clear_value l0
  split
  · assumption
  · extract_lets l1
    clear_value l1
    split
    · assumption
    · refine Kept_upd (s := s) ?_ rfl rfl rfl rfl
      assumption

theorem execCrcReplay_kept {Q : List Instr} {r link : Nat} {dir : Bool} {lane group wire : Nat} {id : Option Nat} {again : Nat} {s : State} (hs : Kept Q s) :
    KeptRes Q (execCrcReplay r link dir lane group wire id again s) := by
  unfold execCrcReplay
  extract_lets l0 l1 l2
  clear_value l0
  have hl1 : Kept Q l1 := by
    grind [countError_kept, addReg_kept, noteWire_kept, replayPacket_kept, KeptRes_next, KeptRes_fault, Kept_mk]
  clear_value l1
  have hl2 : Kept Q l2 := by
    grind [countError_kept, addReg_kept, noteWire_kept, replayPacket_kept, KeptRes_next, KeptRes_fault, Kept_mk]
  clear_value l2
  grind [countError_kept, addReg_kept, noteWire_kept, replayPacket_kept, KeptRes_next, KeptRes_fault, Kept_mk]

theorem linkDown_kept {Q : List Instr} {s : State} {r link : Nat} {back : Bool} {now : Nat} (hs : Kept Q s) :
    Kept Q (linkDown s r link back now) := by
  unfold linkDown
  extract_lets l0 l1 l2 l3 l4
  clear_value l0 l1 l2 l3
  have hl4 : Kept Q l4 := by
    grind [setState_kept, raiseEvt_kept, countError_kept, Kept_mk]
  clear_value l4
  grind [setState_kept, raiseEvt_kept, countError_kept, Kept_mk]

theorem laneOff_kept {Q : List Instr} {s : State} {r link : Nat} {back : Bool} {lane now : Nat} (hs : Kept Q s) :
    Kept Q (laneOff s r link back lane now) := by
  unfold laneOff
  extract_lets l0 l1 l2 l3 l4
  clear_value l0 l1 l2
  have hl3 : Kept Q l3 := by
    grind [raiseEvt_kept, countError_kept, linkDown_kept, Kept_mk]
  clear_value l3
  have hl4 : Kept Q l4 := by
    grind [raiseEvt_kept, countError_kept, linkDown_kept, Kept_mk]
  clear_value l4
  grind [raiseEvt_kept, countError_kept, linkDown_kept, Kept_mk]

theorem execLaneSpare_kept {Q : List Instr} {r link : Nat} {dir : Bool} {lane group wire cycle : Nat} {s : State} (hs : Kept Q s) :
    KeptRes Q (execLaneSpare r link dir lane group wire cycle s) := by
  unfold execLaneSpare
  extract_lets l0 l1 l2 l3 l4 l5 l6 l7 l8
  clear_value l0 l1 l2 l3
  have hl4 : Kept Q l4 := by
    grind [raiseEvt_kept, laneOff_kept, systemEntry_kept, KeptRes_next, KeptRes_fault, Kept_mk]
  clear_value l4 l5 l6 l7
  have hl8 : Kept Q l8 := by
    grind [raiseEvt_kept, laneOff_kept, systemEntry_kept, KeptRes_next, KeptRes_fault, Kept_mk]
  clear_value l8
  grind [raiseEvt_kept, laneOff_kept, systemEntry_kept, KeptRes_next, KeptRes_fault, Kept_mk]

end Sys2Proof.Machine
end

