-- ==== Sys2Proof/Laws/KeptManifest.lean ====
section
/-!
SUPPORT. What Machine/Manifest.lean does keeps the canonical form and the queue.
-/

set_option Elab.async false

namespace Sys2Proof.Machine

open Sys2Proof

theorem parityDrop_kept {Q : List Instr} {s : State} {k req va : Nat} (hs : Kept Q s) :
    Kept Q (parityDrop s k req va) := by
  unfold parityDrop
  extract_lets l0 l1 l2 l3 l4
  clear_value l0 l1 l2
  have hl3 : ∀ y0, Kept Q y0 → Kept Q (l3 y0) := by
    unfold l3
    intros
    grind [addReg_kept, dropMicro_kept, walk_kept, Kept_mk]
  clear_value l3 l4
  grind [addReg_kept, dropMicro_kept, walk_kept, Kept_mk]

theorem execWalkEnd_kept {Q : List Instr} {k req va : Nat} {wr parity : Bool} {s : State} (hs : Kept Q s) :
    KeptRes Q (execWalkEnd k req va wr parity s) := by
  unfold execWalkEnd
  extract_lets l0
  clear_value l0
  refine KeptRes_next ?_
  grind [translate_kept, parityDrop_kept, wr_kept, stopWork_kept, recordFault_kept, KeptRes_next, KeptRes_fault, Kept_mk]

theorem execFaultRecordRelease_kept {Q : List Instr} {k : Nat} {s : State} (hs : Kept Q s) :
    KeptRes Q (execFaultRecordRelease k s) := by
  unfold execFaultRecordRelease
  refine KeptRes_next ?_
  grind [pumpFaults_kept, KeptRes_next, KeptRes_fault, Kept_mk]

theorem resolveFault_kept {Q : List Instr} {s : State} {fn k id : Nat} {retry : Bool} (hs : Kept Q s) :
    Kept Q (resolveFault s fn k id retry) := by
  unfold resolveFault
  grind [withWrite_kept, closeRecord_kept, reject_kept, Kept_mk]

theorem execFaultResolveRetry_kept {Q : List Instr} {fn k id : Nat} {s : State} (hs : Kept Q s) :
    KeptRes Q (execFaultResolveRetry fn k id s) := by
  unfold execFaultResolveRetry
  refine KeptRes_next ?_
  grind [resolveFault_kept, KeptRes_next, KeptRes_fault, Kept_mk]

theorem execFaultResolveFail_kept {Q : List Instr} {fn k id : Nat} {s : State} (hs : Kept Q s) :
    KeptRes Q (execFaultResolveFail fn k id s) := by
  unfold execFaultResolveFail
  refine KeptRes_next ?_
  grind [resolveFault_kept, KeptRes_next, KeptRes_fault, Kept_mk]

theorem execFaultTimeout_kept {Q : List Instr} {k id : Nat} {s : State} (hs : Kept Q s) :
    KeptRes Q (execFaultTimeout k id s) := by
  unfold execFaultTimeout
  refine KeptRes_next ?_
  grind [raiseEvt_kept, countError_kept, closeRecord_kept, KeptRes_next, KeptRes_fault, Kept_mk]

theorem execFaultRingWrite_kept {Q : List Instr} {fn k : Nat} {v : Word} {s : State} (hs : Kept Q s) :
    KeptRes Q (execFaultRingWrite fn k v s) := by
  unfold execFaultRingWrite
  extract_lets l0
  clear_value l0
  refine KeptRes_next ?_
  grind [withWrite_kept, guarded_kept, wf_kept, pumpFaults_kept, KeptRes_next, KeptRes_fault, Kept_mk]

theorem execFaultConsWrite_kept {Q : List Instr} {fn k : Nat} {v : Word} {s : State} (hs : Kept Q s) :
    KeptRes Q (execFaultConsWrite fn k v s) := by
  unfold execFaultConsWrite
  refine KeptRes_next ?_
  grind [withWrite_kept, pumpFaults_kept, wf_kept, KeptRes_next, KeptRes_fault, Kept_mk]

theorem invQueue_kept {Q : List Instr} {s : State} {fn k va len : Nat} (hs : Kept Q s) :
    Kept Q (invQueue s fn k va len) := by
  unfold invQueue
  grind [withWrite_kept, guarded_kept, castFlits_kept, Kept_mk]

theorem execInvCmdRange_kept {Q : List Instr} {fn k vpn pagesM1 : Nat} {s : State} (hs : Kept Q s) :
    KeptRes Q (execInvCmdRange fn k vpn pagesM1 s) := by
  unfold execInvCmdRange
  refine KeptRes_next ?_
  grind [invQueue_kept, KeptRes_next, KeptRes_fault, Kept_mk]

theorem execInvCmdPartition_kept {Q : List Instr} {fn k : Nat} {s : State} (hs : Kept Q s) :
    KeptRes Q (execInvCmdPartition fn k s) := by
  unfold execInvCmdPartition
  refine KeptRes_next ?_
  grind [invQueue_kept, KeptRes_next, KeptRes_fault, Kept_mk]

theorem settleShares_kept {Q : List Instr} {s : State} (hs : Kept Q s) :
    Kept Q (settleShares s) := by
  unfold settleShares
  refine Kept_foldl (fun s0 x1 hs0 => ?_) ?_
  · extract_lets l2 l3
    clear_value l2
    have hl3 : Kept Q l3 := by
      grind [updIso_kept, wr_kept, dropXlat_kept, Kept_foldl2, Kept_mk]
    clear_value l3
    grind [updIso_kept, wr_kept, dropXlat_kept, Kept_foldl2, Kept_mk]
  · assumption

theorem settleResets_kept {Q : List Instr} {s : State} (hs : Kept Q s) :
    Kept Q (settleResets s) := by
  unfold settleResets
  refine Kept_foldl (fun s0 x1 hs0 => ?_) ?_
  · extract_lets l2 l3
    clear_value l2
    have hl3 : Kept Q l3 := by
      grind [setState_kept, dropXlat_kept, Kept_foldl2, Kept_mk]
    clear_value l3
    grind [setState_kept, dropXlat_kept, Kept_foldl2, Kept_mk]
  · assumption

theorem settleManifest_kept {Q : List Instr} {s : State} (hs : Kept Q s) :
    Kept Q (settleManifest s) := by
  unfold settleManifest
  grind [settleResets_kept, settleShares_kept, Kept_mk]

theorem execInvComplete_kept {Q : List Instr} {k : Nat} {s : State} (hs : Kept Q s) :
    KeptRes Q (execInvComplete k s) := by
  unfold execInvComplete
  extract_lets l0
  clear_value l0
  refine KeptRes_next ?_
  split
  · assumption
  · extract_lets l1
    have hl1 : Kept Q l1 := by
      grind [dropXlat_kept, settleManifest_kept, raiseEvt_kept, wf_kept, KeptRes_next, KeptRes_fault, Kept_mk]
    clear_value l1
    grind [dropXlat_kept, settleManifest_kept, raiseEvt_kept, wf_kept, KeptRes_next, KeptRes_fault, Kept_mk]

theorem execMfRootWrite_kept {Q : List Instr} {fn k : Nat} {v : Word} {s : State} (hs : Kept Q s) :
    KeptRes Q (execMfRootWrite fn k v s) := by
  unfold execMfRootWrite
  extract_lets l0 l1
  clear_value l0 l1
  refine KeptRes_next ?_
  grind [withWrite_kept, guarded_kept, dropXlat_kept, wf_kept, wb_kept, KeptRes_next, KeptRes_fault, Kept_mk]

theorem execShareWinWrite_kept {Q : List Instr} {fn k n : Nat} {v : Word} {s : State} (hs : Kept Q s) :
    KeptRes Q (execShareWinWrite fn k n v s) := by
  unfold execShareWinWrite
  refine KeptRes_next ?_
  split
  · grind [withOperator_kept, settleShares_kept, KeptRes_next, KeptRes_fault, Kept_mk]
  · assumption

theorem execHotRingWrite_kept {Q : List Instr} {fn k : Nat} {v : Word} {s : State} (hs : Kept Q s) :
    KeptRes Q (execHotRingWrite fn k v s) := by
  unfold execHotRingWrite
  extract_lets l0
  clear_value l0
  refine KeptRes_next ?_
  grind [withWrite_kept, guarded_kept, wf_kept, KeptRes_next, KeptRes_fault, Kept_mk]

theorem execMicrotlbCountReport_kept {Q : List Instr} {k req va : Nat} {s : State} (hs : Kept Q s) :
    KeptRes Q (execMicrotlbCountReport k req va s) := by
  unfold execMicrotlbCountReport
  refine KeptRes_next ?_
  grind [microReport_kept, KeptRes_next, KeptRes_fault, Kept_mk]

theorem execHotEpochEnd_kept {Q : List Instr} {k : Nat} {s : State} (hs : Kept Q s) :
    KeptRes Q (execHotEpochEnd k s) := by
  unfold execHotEpochEnd
  extract_lets l0
  clear_value l0
  refine KeptRes_next ?_
  refine Kept_upd (s := s) ?_ rfl rfl rfl rfl
  assumption

theorem endFaults_kept {Q : List Instr} {s : State} {k : Nat} (hs : Kept Q s) :
    Kept Q (endFaults s k) := by
  unfold endFaults
  extract_lets s1 lost s2
  have h1 : Kept Q s1 := by
    refine Kept_foldl (fun s i h => ?_) hs
    exact Kept_mk (Kept_foldl (fun _ _ h => releaseHeld_kept h) (Kept_mk h))
  clear_value s1 lost
  have h2 : Kept Q s2 := Kept_foldl (fun _ _ h => abortCtx_kept (Kept_mk h)) h1
  clear_value s2
  exact Kept_foldl (fun _ _ h => closeRecord_kept h) h2

theorem manifestReset_kept {Q : List Instr} {s : State} {k : Nat} (hs : Kept Q s) :
    Kept Q (manifestReset s k) := by
  unfold manifestReset
  grind [dropXlat_kept, endFaults_kept, Kept_mk]

theorem quietFault_kept {Q : List Instr} {s : State} {k kind : Nat} (hs : Kept Q s) :
    Kept Q (quietFault s k kind) := by
  unfold quietFault
  grind [countError_kept, addReg_kept, Kept_mk]

theorem quietLeaf_kept {Q : List Instr} {r : (Except (Nat × Nat) (Nat × Word) × List WalkEntry) × State} {k : Nat} (hr : Kept Q r.2) :
    Kept Q (quietLeaf r k).2 := by
  unfold quietLeaf
  split
  · exact Kept_ite2 (fillWalk_kept hr) (quietFault_kept hr)
  · exact Kept_ite hr (quietFault_kept hr)

theorem quietWalk_kept {Q : List Instr} {s : State} {k va : Nat} (hs : Kept Q s) :
    Kept Q (quietWalk s k va).2 := by
  unfold quietWalk
  grind [quietLeaf_kept, walk_kept, Kept_mk]

theorem pinEntry_kept {Q : List Instr} {s : State} {k : Nat} {e : SliceEntry} (hs : Kept Q s) :
    Kept Q (pinEntry s k e) := by
  unfold pinEntry
  extract_lets l0
  clear_value l0
  split
  · assumption
  · split
    · refine Kept_upd (s := s) ?_ rfl rfl rfl rfl
      assumption
    · grind [addReg_kept, Kept_mk]

theorem walkRange_kept {Q : List Instr} {s : State} {k : Nat} {pin : Bool} {a0 : Nat} {a1 : Nat} {a2 : Nat} (hs : Kept Q s) :
    Kept Q (walkRange s k pin a0 a1 a2) := by
  fun_induction walkRange <;> grind [quietWalk_kept, fillSlice_kept, pinEntry_kept, addReg_kept, Kept, State.canonical]

theorem execPrefetchTranslate_kept {Q : List Instr} {k x q : Nat} {s : State} (hs : Kept Q s) :
    KeptRes Q (execPrefetchTranslate k x q s) := by
  unfold execPrefetchTranslate
  refine KeptRes_next ?_
  grind [onMode_kept, completeSt_kept, walkRange_kept, KeptRes_next, KeptRes_fault, Kept_mk]

theorem execAdviseUnpin_kept {Q : List Instr} {k x q : Nat} {s : State} (hs : Kept Q s) :
    KeptRes Q (execAdviseUnpin k x q s) := by
  unfold execAdviseUnpin
  refine KeptRes_next ?_
  grind [onMode_kept, completeSt_kept, KeptRes_next, KeptRes_fault, Kept_mk]

theorem execAdvisePin_kept {Q : List Instr} {k x q : Nat} {s : State} (hs : Kept Q s) :
    KeptRes Q (execAdvisePin k x q s) := by
  unfold execAdvisePin
  refine KeptRes_next ?_
  grind [onMode_kept, completeSt_kept, walkRange_kept, KeptRes_next, KeptRes_fault, Kept_mk]

theorem execAdviseDontNeed_kept {Q : List Instr} {k x q : Nat} {s : State} (hs : Kept Q s) :
    KeptRes Q (execAdviseDontNeed k x q s) := by
  unfold execAdviseDontNeed
  refine KeptRes_next ?_
  grind [onMode_kept, dropXlat_kept, completeSt_kept, walk_kept, KeptRes_next, KeptRes_fault, Kept_mk]

theorem leafAt_kept {Q : List Instr} {s : State} {k va : Nat} (hs : Kept Q s) :
    Kept Q (leafAt s k va).2 := by
  unfold leafAt
  refine Kept_ite2 hs ?_
  have h := walkFrom_kept (k := k) (req := 168) (va := va) (a0 := 4) (a1 := 0)
    (a2 := rf s (pgMf k) Reg.MF_ROOT 16 30 * 65536) hs
  generalize walkFrom s k 168 va 4 0 (rf s (pgMf k) Reg.MF_ROOT 16 30 * 65536) = r at h ⊢
  obtain ⟨⟨_ | _, _⟩, _⟩ := r <;> exact h

theorem migrateCheck_kept {Q : List Instr} {s : State} {k va0 n dst : Nat} {a1 : Nat} (hs : Kept Q s) :
    Kept Q (migrateCheck s k va0 n dst a0 a1).2 := by
  fun_induction migrateCheck <;> grind [leafAt_kept, Kept, State.canonical]

theorem migrateFrom_kept {Q : List Instr} {s : State} {k : Nat} {w : Work} {dst : Nat} {a0 : Nat} {a1 : Nat} (hs : Kept Q s) :
    Kept Q (migrateFrom s k w dst a0 a1) := by
  fun_induction migrateFrom <;> grind [completeSt_kept, leafAt_kept, stopWork_kept, setWork_kept, devRead_kept, evictRange_kept, devWrite_kept, addReg_kept, dropXlat_kept, Kept, State.canonical]

theorem execPrefetchMigrate_kept {Q : List Instr} {k x q : Nat} {s : State} (hs : Kept Q s) :
    KeptRes Q (execPrefetchMigrate k x q s) := by
  unfold execPrefetchMigrate
  refine KeptRes_next ?_
  grind [onMode_kept, complete_kept, migrateCheck_kept, migrateFrom_kept, KeptRes_next, KeptRes_fault, Kept_mk]

end Sys2Proof.Machine
end

