-- ==== Sys2Proof/Laws/KeptPower.lean ====
section
/-!
SUPPORT. What Machine/Power.lean does keeps the canonical form and the queue.
-/

set_option Elab.async false

namespace Sys2Proof.Machine

open Sys2Proof

theorem setIslands_kept {Q : List Instr} {s : State} {k : Nat} {c : Nat × Nat} (hs : Kept Q s) :
    Kept Q (setIslands s k c) := by
  unfold setIslands
  exact Kept_foldl (fun _ _ h => wf_kept h) (Kept_foldl (fun _ _ h => wf_kept h) hs)

theorem setClocks_kept {Q : List Instr} {s : State} {k : Nat} {c : Nat × Nat} (hs : Kept Q s) :
    Kept Q (setClocks s k c) := by
  unfold setClocks
  extract_lets l0 l1 l2 l3 l4
  clear_value l0 l1
  have hl2 : Kept Q l2 := by
    grind [wf_kept, setIslands_kept, Kept_mk]
  clear_value l2 l3 l4
  grind [wf_kept, setIslands_kept, Kept_mk]

theorem refill_kept {Q : List Instr} {s : State} {k eu : Nat} (hs : Kept Q s) :
    Kept Q (refill s k eu) := by
  unfold refill
  extract_lets l0 l1
  clear_value l0 l1
  grind [wf_kept, Kept_mk]

theorem refillAll_kept {Q : List Instr} {s : State} {total : Nat} {fixed : Bool} (hs : Kept Q s) :
    Kept Q (refillAll s total fixed) := by
  unfold refillAll
  extract_lets l0 l1
  clear_value l0 l1
  refine Kept_foldl (fun s2 x3 hs2 => ?_) ?_
  · grind [refill_kept, Kept_foldl2, Kept_mk]
  · assumption

theorem sitePeriod_kept {Q : List Instr} {s : State} {t : Nat} {meas : Nat} (hs : Kept Q s) :
    Kept Q (sitePeriod s t meas) := by
  unfold sitePeriod
  extract_lets l0 l1 l2 l3 l4 l5 l6 l7 l8 l9 l10 l11 l12 l13 l14 l15
  clear_value l0
  have hl1 : Kept Q l1 := by
    grind [wf_kept, raiseEvt_kept, countError_kept, Kept_mk]
  clear_value l1 l2 l3 l4 l5 l6 l7 l8 l9 l10
  have hl11 : Kept Q l11 := by
    grind [wf_kept, raiseEvt_kept, countError_kept, Kept_mk]
  clear_value l11
  have hl12 : Kept Q l12 := by
    grind [wf_kept, raiseEvt_kept, countError_kept, Kept_mk]
  clear_value l12 l13
  have hl14 : Kept Q l14 := by
    grind [wf_kept, raiseEvt_kept, countError_kept, Kept_mk]
  clear_value l14
  have hl15 : Kept Q l15 := by
    grind [wf_kept, raiseEvt_kept, countError_kept, Kept_mk]
  clear_value l15
  grind [wf_kept, raiseEvt_kept, countError_kept, Kept_mk]

theorem breakFixed_kept {Q : List Instr} {s : State} (hs : Kept Q s) :
    Kept Q (breakFixed s) := by
  unfold breakFixed
  refine updIso_kept (Kept_foldl (fun _ _ h => raiseEvt_kept h) ?_)
  exact audit_kept (raiseEvt_kept (countError_kept (wb_kept (wb_kept hs))))

theorem sensePoints_kept {Q : List Instr} {s : State} {r : PowerReadings} (hs : Kept Q s) :
    Kept Q (sensePoints s r) := by
  unfold sensePoints
  extract_lets l0 l1 l2 l3 l4 l5 l6
  clear_value l0
  have hl1 : Kept Q l1 := by
    unfold l1
    refine Kept_foldl (fun s7 x8 hs7 => ?_) ?_
    · grind [raiseEvt_kept, countError_kept, Kept_foldl2, Kept_mk]
    · assumption
  clear_value l1 l2 l3 l4 l5 l6
  grind [raiseEvt_kept, countError_kept, Kept_foldl2, Kept_mk]

theorem powerPeriod_kept {Q : List Instr} {r : PowerReadings} {s : State} (hs : Kept Q s) :
    Kept Q (powerPeriod r s) := by
  unfold powerPeriod
  extract_lets l0 l1 l2 l3 l4 l5 l6 l7 l8 l9 l10 l11 l12 l13 l14 l15 l16 l17 l18 l19 l20 l21 l22 l23 l24 l25 l26 l27 l28 l29 l30 l31 l32 l33 l34
  have hl0 : Kept Q l0 := by
    grind [addReg_kept, sensePoints_kept, wr_kept, queueIbi_kept, raiseEvt_kept, wf_kept, breakFixed_kept, refillAll_kept, countError_kept, setClocks_kept, sitePeriod_kept, Kept_foldl2, Kept_mk]
  clear_value l0 l1 l2 l3 l4 l5 l6 l7
  have hl8 : Kept Q l8 := by
    grind [addReg_kept, sensePoints_kept, wr_kept, queueIbi_kept, raiseEvt_kept, wf_kept, breakFixed_kept, refillAll_kept, countError_kept, setClocks_kept, sitePeriod_kept, Kept_foldl2, Kept_mk]
  clear_value l8
  have hl9 : Kept Q l9 := by
    grind [addReg_kept, sensePoints_kept, wr_kept, queueIbi_kept, raiseEvt_kept, wf_kept, breakFixed_kept, refillAll_kept, countError_kept, setClocks_kept, sitePeriod_kept, Kept_foldl2, Kept_mk]
  clear_value l9 l10 l11 l12 l13
  have hl14 : Kept Q l14 := by
    grind [addReg_kept, sensePoints_kept, wr_kept, queueIbi_kept, raiseEvt_kept, wf_kept, breakFixed_kept, refillAll_kept, countError_kept, setClocks_kept, sitePeriod_kept, Kept_foldl2, Kept_mk]
  clear_value l14
  have hl15 : Kept Q l15 := by
    grind [addReg_kept, sensePoints_kept, wr_kept, queueIbi_kept, raiseEvt_kept, wf_kept, breakFixed_kept, refillAll_kept, countError_kept, setClocks_kept, sitePeriod_kept, Kept_foldl2, Kept_mk]
  clear_value l15
  have hl16 : Kept Q l16 := by
    grind [addReg_kept, sensePoints_kept, wr_kept, queueIbi_kept, raiseEvt_kept, wf_kept, breakFixed_kept, refillAll_kept, countError_kept, setClocks_kept, sitePeriod_kept, Kept_foldl2, Kept_mk]
  clear_value l16
  have hl17 : Kept Q l17 := by
    grind [addReg_kept, sensePoints_kept, wr_kept, queueIbi_kept, raiseEvt_kept, wf_kept, breakFixed_kept, refillAll_kept, countError_kept, setClocks_kept, sitePeriod_kept, Kept_foldl2, Kept_mk]
  clear_value l17 l18 l19
  have hl20 : Kept Q l20 := by
    grind [addReg_kept, sensePoints_kept, wr_kept, queueIbi_kept, raiseEvt_kept, wf_kept, breakFixed_kept, refillAll_kept, countError_kept, setClocks_kept, sitePeriod_kept, Kept_foldl2, Kept_mk]
  clear_value l20 l21 l22 l23
  have hl24 : Kept Q l24 := by
    grind [addReg_kept, sensePoints_kept, wr_kept, queueIbi_kept, raiseEvt_kept, wf_kept, breakFixed_kept, refillAll_kept, countError_kept, setClocks_kept, sitePeriod_kept, Kept_foldl2, Kept_mk]
  clear_value l24 l25
  have hl26 : Kept Q l26 := by
    grind [addReg_kept, sensePoints_kept, wr_kept, queueIbi_kept, raiseEvt_kept, wf_kept, breakFixed_kept, refillAll_kept, countError_kept, setClocks_kept, sitePeriod_kept, Kept_foldl2, Kept_mk]
  clear_value l26
  have hl27 : Kept Q l27 := by
    grind [addReg_kept, sensePoints_kept, wr_kept, queueIbi_kept, raiseEvt_kept, wf_kept, breakFixed_kept, refillAll_kept, countError_kept, setClocks_kept, sitePeriod_kept, Kept_foldl2, Kept_mk]
  clear_value l27 l28 l29
  have hl30 : Kept Q l30 := by
    grind [addReg_kept, sensePoints_kept, wr_kept, queueIbi_kept, raiseEvt_kept, wf_kept, breakFixed_kept, refillAll_kept, countError_kept, setClocks_kept, sitePeriod_kept, Kept_foldl2, Kept_mk]
  clear_value l30
  have hl31 : Kept Q l31 := by
    grind [addReg_kept, sensePoints_kept, wr_kept, queueIbi_kept, raiseEvt_kept, wf_kept, breakFixed_kept, refillAll_kept, countError_kept, setClocks_kept, sitePeriod_kept, Kept_foldl2, Kept_mk]
  clear_value l31
  have hl32 : Kept Q l32 := by
    unfold l32
    refine Kept_foldl (fun s35 x36 hs35 => ?_) ?_
    · extract_lets l37
      clear_value l37
      grind [addReg_kept, sensePoints_kept, wr_kept, queueIbi_kept, raiseEvt_kept, wf_kept, breakFixed_kept, refillAll_kept, countError_kept, setClocks_kept, sitePeriod_kept, Kept_foldl2, Kept_mk]
    · assumption
  clear_value l32
  have hl33 : Kept Q l33 := by
    unfold l33
    refine Kept_foldl (fun s38 x39 hs38 => ?_) ?_
    · grind [addReg_kept, sensePoints_kept, wr_kept, queueIbi_kept, raiseEvt_kept, wf_kept, breakFixed_kept, refillAll_kept, countError_kept, setClocks_kept, sitePeriod_kept, Kept_foldl2, Kept_mk]
    · assumption
  clear_value l33 l34
  grind [addReg_kept, sensePoints_kept, wr_kept, queueIbi_kept, raiseEvt_kept, wf_kept, breakFixed_kept, refillAll_kept, countError_kept, setClocks_kept, sitePeriod_kept, Kept_foldl2, Kept_mk]

theorem execPowerPeriod_kept {Q : List Instr} {r : PowerReadings} {s : State} (hs : Kept Q s) :
    KeptRes Q (execPowerPeriod r s) := by
  unfold execPowerPeriod
  refine KeptRes_next ?_
  grind [powerPeriod_kept, KeptRes_next, KeptRes_fault, Kept_mk]

theorem execVoltageSettled_kept {Q : List Instr} {k : Nat} {s : State} (hs : Kept Q s) :
    KeptRes Q (execVoltageSettled k s) := by
  unfold execVoltageSettled
  extract_lets l0 l1
  clear_value l0
  have hl1 : Kept Q l1 := by
    grind [setIslands_kept, KeptRes_next, KeptRes_fault, Kept_mk]
  clear_value l1
  grind [setIslands_kept, KeptRes_next, KeptRes_fault, Kept_mk]

theorem execRegulatorFault_kept {Q : List Instr} {k : Nat} {s : State} (hs : Kept Q s) :
    KeptRes Q (execRegulatorFault k s) := by
  unfold execRegulatorFault
  extract_lets l0 l1
  clear_value l0
  have hl1 : Kept Q l1 := by
    grind [faultPart_kept, countError_kept, KeptRes_next, KeptRes_fault, Kept_mk]
  clear_value l1
  grind [faultPart_kept, countError_kept, KeptRes_next, KeptRes_fault, Kept_mk]

theorem execPwrCtlFixed_kept {Q : List Instr} {fn : Nat} {v : Word} {s : State} (hs : Kept Q s) :
    KeptRes Q (execPwrCtlFixed fn v s) := by
  unfold execPwrCtlFixed
  refine KeptRes_next ?_
  split
  · grind [withWrite_kept, guarded_kept, updIso_kept, wb_kept, KeptRes_next, KeptRes_fault, Kept_mk]
  · grind [withWrite_kept, guarded_kept, updIso_kept, wb_kept, KeptRes_next, KeptRes_fault, Kept_mk]

theorem execPartAllocWrite_kept {Q : List Instr} {fn p : Nat} {v : Word} {s : State} (hs : Kept Q s) :
    KeptRes Q (execPartAllocWrite fn p v s) := by
  unfold execPartAllocWrite
  extract_lets l0 l1
  clear_value l0 l1
  refine KeptRes_next ?_
  split
  · grind [withWrite_kept, guarded_kept, wr_kept, KeptRes_next, KeptRes_fault, Kept_mk]
  · assumption

theorem execSiteRelease_kept {Q : List Instr} {fn : Nat} {v : Word} {s : State} (hs : Kept Q s) :
    KeptRes Q (execSiteRelease fn v s) := by
  unfold execSiteRelease
  refine KeptRes_next (withWrite_kept hs fun s h => Kept_foldl (fun s t h => ?_) h)
  refine Kept_ite ?_ h
  exact wf_kept (wf_kept (wakeSite_kept (Kept_mk h)))

theorem execThermalTrip_kept {Q : List Instr} {s : State} (hs : Kept Q s) :
    KeptRes Q (execThermalTrip s) := by
  unfold execThermalTrip
  extract_lets l0 l1 l2 l3 l4
  clear_value l0
  have hl1 : Kept Q l1 := by
    grind [queueIbi_kept, wr_kept, setIslands_kept, wf_kept, genWrite_kept, Kept_foldl2, KeptRes_next, KeptRes_fault, Kept_mk]
  clear_value l1 l2
  have hl3 : Kept Q l3 := by
    unfold l3
    refine Kept_foldl (fun s5 x6 hs5 => ?_) ?_
    · grind [queueIbi_kept, wr_kept, setIslands_kept, wf_kept, genWrite_kept, Kept_foldl2, KeptRes_next, KeptRes_fault, Kept_mk]
    · refine Kept_upd (s := l1) ?_ rfl rfl rfl rfl
      assumption
  clear_value l3
  have hl4 : Kept Q l4 := by
    unfold l4
    refine Kept_foldl (fun s7 x8 hs7 => ?_) ?_
    · grind [queueIbi_kept, wr_kept, setIslands_kept, wf_kept, genWrite_kept, Kept_foldl2, KeptRes_next, KeptRes_fault, Kept_mk]
    · assumption
  clear_value l4
  grind [queueIbi_kept, wr_kept, setIslands_kept, wf_kept, genWrite_kept, Kept_foldl2, KeptRes_next, KeptRes_fault, Kept_mk]

end Sys2Proof.Machine
end

