-- ==== Sys2Proof/Laws/KeptQuay.lean ====
section
/-!
SUPPORT. What Machine/Quay.lean does keeps the canonical form and the queue.
-/

set_option Elab.async false

namespace Sys2Proof.Machine

open Sys2Proof

theorem execQuayRead_kept {Q : List Instr} {k off len p : Nat} {ring : Bool} {ecc : Ecc} {s : State} (hs : Kept Q s) :
    KeptRes Q (execQuayRead k off len p ring ecc s) := by
  unfold execQuayRead
  refine KeptRes_next ?_
  grind [atPort_kept, KeptRes_next, KeptRes_fault, Kept_mk]

theorem execQuayWrite_kept {Q : List Instr} {k off p : Nat} {ring : Bool} {data : Bytes} {ecc : Ecc} {s : State} (hs : Kept Q s) :
    KeptRes Q (execQuayWrite k off p ring data ecc s) := by
  unfold execQuayWrite
  refine KeptRes_next ?_
  grind [atPort_kept, KeptRes_next, KeptRes_fault, Kept_mk]

theorem execBankReplaceComplete_kept {Q : List Instr} {k bank : Nat} {s : State} (hs : Kept Q s) :
    KeptRes Q (execBankReplaceComplete k bank s) := by
  unfold execBankReplaceComplete
  extract_lets l0 l1 l2 l3
  clear_value l0 l1
  have hl2 : Kept Q l2 := by
    grind [saveQuayBank_kept, wf_kept, wb_kept, runHeld_kept, systemEntry_kept, raiseEvt_kept, KeptRes_next, KeptRes_fault, Kept_mk]
  clear_value l2
  have hl3 : Kept Q l3 := by
    grind [saveQuayBank_kept, wf_kept, wb_kept, runHeld_kept, systemEntry_kept, raiseEvt_kept, KeptRes_next, KeptRes_fault, Kept_mk]
  clear_value l3
  grind [saveQuayBank_kept, wf_kept, wb_kept, runHeld_kept, systemEntry_kept, raiseEvt_kept, KeptRes_next, KeptRes_fault, Kept_mk]

theorem dropStrict_kept {Q : List Instr} {s : State} {k : Nat} (hs : Kept Q s) :
    Kept Q (dropStrict s k) := by
  unfold dropStrict
  extract_lets l0
  clear_value l0
  refine Kept_upd (s := s) ?_ rfl rfl rfl rfl
  assumption

theorem execQuayStrictSet_kept {Q : List Instr} {fn k : Nat} {v : Word} {s : State} (hs : Kept Q s) :
    KeptRes Q (execQuayStrictSet fn k v s) := by
  unfold execQuayStrictSet
  refine KeptRes_next ?_
  split
  · grind [withOperator_kept, guarded_kept, dropStrict_kept, dropLeaves_kept, updIso_kept, wr_kept, KeptRes_next, KeptRes_fault, Kept_mk]
  · assumption

theorem execStrictDone_kept {Q : List Instr} {k : Nat} {s : State} (hs : Kept Q s) :
    KeptRes Q (execStrictDone k s) := by
  unfold execStrictDone
  refine KeptRes_next ?_
  grind [raiseEvt_kept, updIso_kept, wr_kept, dropStrict_kept, KeptRes_next, KeptRes_fault, Kept_mk]

theorem startQuayFill_kept {Q : List Instr} {s : State} {k : Nat} (hs : Kept Q s) :
    Kept Q (startQuayFill s k) := by
  unfold startQuayFill
  grind [zeroRange_kept, wr_kept, Kept_mk]

theorem execQuayZfCmd_kept {Q : List Instr} {fn k : Nat} {s : State} (hs : Kept Q s) :
    KeptRes Q (execQuayZfCmd fn k s) := by
  unfold execQuayZfCmd
  refine KeptRes_next ?_
  grind [withOperator_kept, guarded_kept, startQuayFill_kept, KeptRes_next, KeptRes_fault, Kept_mk]

theorem endQuayFill_kept {Q : List Instr} {s : State} {k : Nat} (hs : Kept Q s) :
    Kept Q (endQuayFill s k) := by
  unfold endQuayFill
  grind [runHeld_kept, raiseEvt_kept, wr_kept, Kept_mk]

theorem execQuayZfDone_kept {Q : List Instr} {k : Nat} {ok : Bool} {s : State} (hs : Kept Q s) :
    KeptRes Q (execQuayZfDone k ok s) := by
  unfold execQuayZfDone
  extract_lets l0
  have hl0 : Kept Q l0 := by
    grind [endQuayFill_kept, fillFailed_kept, KeptRes_next, KeptRes_fault, Kept_mk]
  clear_value l0
  grind [endQuayFill_kept, fillFailed_kept, KeptRes_next, KeptRes_fault, Kept_mk]

theorem execQuayInject_kept {Q : List Instr} {fn k : Nat} {v : Word} {s : State} (hs : Kept Q s) :
    KeptRes Q (execQuayInject fn k v s) := by
  unfold execQuayInject
  extract_lets l0
  clear_value l0
  refine KeptRes_next ?_
  split
  · split
    · grind [withOperator_kept, KeptRes_next, KeptRes_fault, Kept_mk]
    · grind [withOperator_kept, KeptRes_next, KeptRes_fault, Kept_mk]
  · assumption

theorem execPortParity_kept {Q : List Instr} {k : Nat} {retryOk : Bool} {s : State} (hs : Kept Q s) :
    KeptRes Q (execPortParity k retryOk s) := by
  unfold execPortParity
  refine KeptRes_next ?_
  grind [setState_kept, countError_kept, KeptRes_next, KeptRes_fault, Kept_mk]

end Sys2Proof.Machine
end

