-- ==== Sys2Proof/Laws/KeptSched.lean ====
section
/-!
SUPPORT. What Machine/Sched.lean does keeps the canonical form and the queue.
-/

set_option Elab.async false

namespace Sys2Proof.Machine

open Sys2Proof

theorem ctxCommand_kept {Q : List Instr} {s : State} {fn k x : Nat} {ok : State → Bool} {f : State → State} (hs : Kept Q s) (hf : ∀ y0, Kept Q y0 → Kept Q (f y0)) :
    Kept Q (ctxCommand s fn k x ok f) := by
  unfold ctxCommand
  grind [withWrite_kept, guarded_kept, Kept_mk]

theorem execCtxOpen_kept {Q : List Instr} {fn k x : Nat} {s : State} (hs : Kept Q s) :
    KeptRes Q (execCtxOpen fn k x s) := by
  unfold execCtxOpen
  refine KeptRes_next ?_
  grind [ctxCommand_kept, setCtx_kept, KeptRes_next, KeptRes_fault, Kept_mk]

theorem execCtxRun_kept {Q : List Instr} {fn k x : Nat} {s : State} (hs : Kept Q s) :
    KeptRes Q (execCtxRun fn k x s) := by
  unfold execCtxRun
  refine KeptRes_next ?_
  grind [ctxCommand_kept, setCtx_kept, KeptRes_next, KeptRes_fault, Kept_mk]

theorem execCtxPause_kept {Q : List Instr} {fn k x : Nat} {s : State} (hs : Kept Q s) :
    KeptRes Q (execCtxPause fn k x s) := by
  unfold execCtxPause
  refine KeptRes_next ?_
  grind [ctxCommand_kept, setCtx_kept, KeptRes_next, KeptRes_fault, Kept_mk]

theorem execCtxClose_kept {Q : List Instr} {fn k x : Nat} {s : State} (hs : Kept Q s) :
    KeptRes Q (execCtxClose fn k x s) := by
  unfold execCtxClose
  refine KeptRes_next ?_
  grind [ctxCommand_kept, killCtx_kept, setCtx_kept, KeptRes_next, KeptRes_fault, Kept_mk]

theorem execCtxAbort_kept {Q : List Instr} {fn k x : Nat} {s : State} (hs : Kept Q s) :
    KeptRes Q (execCtxAbort fn k x s) := by
  unfold execCtxAbort
  refine KeptRes_next ?_
  grind [ctxCommand_kept, abortCtx_kept, KeptRes_next, KeptRes_fault, Kept_mk]

theorem execCtxTail_kept {Q : List Instr} {fn k x tail : Nat} {s : State} (hs : Kept Q s) :
    KeptRes Q (execCtxTail fn k x tail s) := by
  unfold execCtxTail
  extract_lets l0
  refine KeptRes_next ?_
  repeat' first | assumption | with_reducible apply withWrite_kept | with_reducible apply guarded_kept | with_reducible apply wf_kept | (with_reducible refine fun _ _ => ?_)

theorem forgetTurns_kept {Q : List Instr} {s : State} {mine : Nat → Nat → Bool} (hs : Kept Q s) :
    Kept Q (forgetTurns s mine) := by
  unfold forgetTurns
  refine Kept_upd (s := s) ?_ rfl rfl rfl rfl
  assumption

theorem freeCtx_kept {Q : List Instr} {s : State} {k x : Nat} (hs : Kept Q s) :
    Kept Q (freeCtx s k x) := by
  unfold freeCtx
  extract_lets l0 l1 l2 l3
  clear_value l0
  have hl1 : Kept Q l1 := by
    grind [forgetTurns_kept, resetRegs_kept, Kept_mk]
  clear_value l1 l2
  have hl3 : Kept Q l3 := by
    grind [forgetTurns_kept, resetRegs_kept, Kept_mk]
  clear_value l3
  grind [forgetTurns_kept, resetRegs_kept, Kept_mk]

theorem execContextFreed_kept {Q : List Instr} {k x : Nat} {s : State} (hs : Kept Q s) :
    KeptRes Q (execContextFreed k x s) := by
  unfold execContextFreed
  refine KeptRes_next ?_
  grind [raiseEvt_kept, freeCtx_kept, KeptRes_next, KeptRes_fault, Kept_mk]

theorem takeTurn_kept {Q : List Instr} {s : State} {k x : Nat} (hs : Kept Q s) :
    Kept Q (takeTurn s k x) := by
  unfold takeTurn
  extract_lets l0 l1
  clear_value l0 l1
  refine Kept_upd (s := s) ?_ rfl rfl rfl rfl
  assumption

theorem holdEnergy_kept {Q : List Instr} {s : State} {k x n : Nat} (hs : Kept Q s) :
    Kept Q (holdEnergy s k x n) := by
  unfold holdEnergy
  grind [addReg_kept, Kept_mk]

theorem takeNext_kept {Q : List Instr} {s : State} {k x u : Nat} {d : List Word} (hs : Kept Q s) :
    Kept Q (takeNext s k x u d).2 := by
  unfold takeNext
  extract_lets l0 l1 l2 l3 l4
  clear_value l0
  have hl1 : Kept Q l1 := by
    grind [takeTurn_kept, wf_kept, addReg_kept, outUp_kept, updCtx_kept, Kept_mk]
  clear_value l1 l2
  have hl3 : Kept Q l3 := by
    grind [takeTurn_kept, wf_kept, addReg_kept, outUp_kept, updCtx_kept, Kept_mk]
  clear_value l3
  have hl4 : Kept Q l4 := by
    grind [takeTurn_kept, wf_kept, addReg_kept, outUp_kept, updCtx_kept, Kept_mk]
  clear_value l4
  grind [takeTurn_kept, wf_kept, addReg_kept, outUp_kept, updCtx_kept, Kept_mk]

theorem fetchFault_kept {Q : List Instr} {s : State} {k x : Nat} {t : Tile} {page kind level : Nat} (hs : Kept Q s) :
    Kept Q (fetchFault s k x t page kind level) := by
  unfold fetchFault
  extract_lets l0 l1 l2
  clear_value l0
  have hl1 : Kept Q l1.2 := by
    grind [recordFault_kept, abortCtx_kept, Kept_mk]
  clear_value l1
  have hl2 : Kept Q l2 := by
    grind [recordFault_kept, abortCtx_kept, Kept_mk]
  clear_value l2
  grind [recordFault_kept, abortCtx_kept, Kept_mk]

theorem dispatchNext_kept {Q : List Instr} {s : State} {k x u : Nat} (hs : Kept Q s) :
    Kept Q (dispatchNext s k x u) := by
  unfold dispatchNext
  extract_lets l0 l1
  clear_value l0 l1
  split
  · grind [readTile_kept, abortCtx_kept, fetchFault_kept, takeNext_kept, complete_kept, completeSt_kept, holdEnergy_kept, wr_kept, addReg_kept, Kept_mk]
  · grind [readTile_kept, abortCtx_kept, fetchFault_kept, takeNext_kept, complete_kept, completeSt_kept, holdEnergy_kept, wr_kept, addReg_kept, Kept_mk]
  · extract_lets l2 l3 l4 l5 l6 l7
    clear_value l2 l3
    have hl4 : Kept Q l4.2 := by
      grind [readTile_kept, abortCtx_kept, fetchFault_kept, takeNext_kept, complete_kept, completeSt_kept, holdEnergy_kept, wr_kept, addReg_kept, Kept_mk]
    clear_value l4
    have hl5 : Kept Q l5 := by
      grind [readTile_kept, abortCtx_kept, fetchFault_kept, takeNext_kept, complete_kept, completeSt_kept, holdEnergy_kept, wr_kept, addReg_kept, Kept_mk]
    clear_value l5 l6
    have hl7 : Kept Q l7 := by
      grind [readTile_kept, abortCtx_kept, fetchFault_kept, takeNext_kept, complete_kept, completeSt_kept, holdEnergy_kept, wr_kept, addReg_kept, Kept_mk]
    clear_value l7
    grind [readTile_kept, abortCtx_kept, fetchFault_kept, takeNext_kept, complete_kept, completeSt_kept, holdEnergy_kept, wr_kept, addReg_kept, Kept_mk]

theorem redispatch_kept {Q : List Instr} {s : State} {w : Work} {u : Nat} (hs : Kept Q s) :
    Kept Q (redispatch s w u) := by
  unfold redispatch
  extract_lets l0
  clear_value l0
  split
  · grind [completeSt_kept, setWork_kept, Kept_mk]
  · split
    · refine Kept_upd (s := s) ?_ rfl rfl rfl rfl
      assumption
    · assumption

theorem execDispatch_kept {Q : List Instr} {k x u : Nat} {s : State} (hs : Kept Q s) :
    KeptRes Q (execDispatch k x u s) := by
  unfold execDispatch
  refine KeptRes_next ?_
  grind [gated_kept, redispatch_kept, addReg_kept, dispatchNext_kept, KeptRes_next, KeptRes_fault, Kept_mk]

theorem execFence_kept {Q : List Instr} {k x q : Nat} {s : State} (hs : Kept Q s) :
    KeptRes Q (execFence k x q s) := by
  unfold execFence
  refine KeptRes_next ?_
  grind [onWork_kept, completeSt_kept, flushLines_kept, KeptRes_next, KeptRes_fault, Kept_mk]

theorem execNop_kept {Q : List Instr} {k x q : Nat} {s : State} (hs : Kept Q s) :
    KeptRes Q (execNop k x q s) := by
  unfold execNop
  refine KeptRes_next ?_
  grind [onWork_kept, completeSt_kept, KeptRes_next, KeptRes_fault, Kept_mk]

theorem execSignal_kept {Q : List Instr} {k x q : Nat} {s : State} (hs : Kept Q s) :
    KeptRes Q (execSignal k x q s) := by
  unfold execSignal
  refine KeptRes_next (onWork_kept hs fun s w h => Kept_ite ?_ h)
  extract_lets a
  have h1 := translatePages_kept (k := k) (req := w.unit) (write := true) (a0 := [a / 65536]) h
  generalize translatePages s k w.unit true [a / 65536] = r at h1 ⊢
  obtain ⟨_ | pages, s⟩ := r
  · exact stopWork_kept h1
  · dsimp only at h1 ⊢
    split
    · exact Kept_ite (completeSt_kept (memAdd_kept (serveMicro_kept h1)))
        (completeSt_kept (memAdd_kept (serveMicro_kept h1)))
    · exact h1

theorem pollWait_kept {Q : List Instr} {s : State} {w : Work} (hs : Kept Q s) :
    Kept Q (pollWait s w) := by
  unfold pollWait
  grind [withTile_kept, completeSt_kept, setWork_kept, Kept_mk]

theorem execWait_kept {Q : List Instr} {k x q : Nat} {s : State} (hs : Kept Q s) :
    KeptRes Q (execWait k x q s) := by
  unfold execWait
  refine KeptRes_next ?_
  grind [onWork_kept, pollWait_kept, KeptRes_next, KeptRes_fault, Kept_mk]

theorem execWaitPoll_kept {Q : List Instr} {k x q : Nat} {s : State} (hs : Kept Q s) :
    KeptRes Q (execWaitPoll k x q s) := by
  unfold execWaitPoll
  refine KeptRes_next ?_
  grind [gated_kept, pollWait_kept, KeptRes_next, KeptRes_fault, Kept_mk]

theorem execWaitTimeout_kept {Q : List Instr} {k x q : Nat} {s : State} (hs : Kept Q s) :
    KeptRes Q (execWaitTimeout k x q s) := by
  unfold execWaitTimeout
  refine KeptRes_next ?_
  grind [gated_kept, completeSt_kept, KeptRes_next, KeptRes_fault, Kept_mk]

theorem releaseBarrier_kept {Q : List Instr} {s : State} {glob : Bool} {k b status : Nat} (hs : Kept Q s) :
    Kept Q (releaseBarrier s glob k b status) := by
  unfold releaseBarrier
  extract_lets l0 l1 l2 l3
  clear_value l0 l1
  have hl2 : Kept Q l2 := by
    repeat' first | assumption | with_reducible apply wf_kept | with_reducible apply completeSt_kept | with_reducible refine Kept_foldl (fun _ _ _ => ?_) ?_
  clear_value l2
  have hl3 : Kept Q l3 := by
    repeat' first | assumption | with_reducible apply wf_kept | with_reducible apply completeSt_kept | with_reducible refine Kept_foldl (fun _ _ _ => ?_) ?_
  clear_value l3
  repeat' first | assumption | with_reducible apply wf_kept | with_reducible apply completeSt_kept | with_reducible refine Kept_foldl (fun _ _ _ => ?_) ?_

theorem execBarrier_kept {Q : List Instr} {k x q : Nat} {s : State} (hs : Kept Q s) :
    KeptRes Q (execBarrier k x q s) := by
  unfold execBarrier
  refine KeptRes_next ?_
  grind [onWork_kept, completeSt_kept, reject_kept, wf_kept, setWork_kept, releaseBarrier_kept, KeptRes_next, KeptRes_fault, Kept_mk]

theorem execBarrierTimeout_kept {Q : List Instr} {glob : Bool} {k b : Nat} {s : State} (hs : Kept Q s) :
    KeptRes Q (execBarrierTimeout glob k b s) := by
  unfold execBarrierTimeout
  extract_lets l0
  clear_value l0
  refine KeptRes_next ?_
  grind [gated_kept, releaseBarrier_kept, KeptRes_next, KeptRes_fault, Kept_mk]

theorem execBarrierTargetWrite_kept {Q : List Instr} {fn : Nat} {glob : Bool} {k b : Nat} {v : Word} {s : State} (hs : Kept Q s) :
    KeptRes Q (execBarrierTargetWrite fn glob k b v s) := by
  unfold execBarrierTargetWrite
  extract_lets l0 l1 l2
  clear_value l0 l1
  have hl2 : ∀ y0, Kept Q y0 → Kept Q (l2 y0) := by
    unfold l2
    intros
    split
    · grind [guarded_kept, wf_kept, withOperator_kept, withWrite_kept, KeptRes_next, KeptRes_fault, Kept_mk]
    · grind [guarded_kept, wf_kept, withOperator_kept, withWrite_kept, KeptRes_next, KeptRes_fault, Kept_mk]
  clear_value l2
  grind [guarded_kept, wf_kept, withOperator_kept, withWrite_kept, KeptRes_next, KeptRes_fault, Kept_mk]

theorem execReduceCollect_kept {Q : List Instr} {k x q : Nat} {s : State} (hs : Kept Q s) :
    KeptRes Q (execReduceCollect k x q s) := by
  unfold execReduceCollect
  refine KeptRes_next ?_
  grind [onWork_kept, setWork_kept, complete_kept, putTile_kept, outUp_kept, wb_kept, KeptRes_next, KeptRes_fault, Kept_mk]

theorem collectWork_kept {Q : List Instr} {s : State} {w : Work} (hs : Kept Q s) :
    Kept Q (collectWork s w) := by
  unfold collectWork
  extract_lets l0
  clear_value l0
  split
  extract_lets l1
  clear_value l1
  grind [withRecords_kept, storePots_kept, Kept_mk]

theorem execRedSlotFull_kept {Q : List Instr} {k slot u : Nat} {s : State} (hs : Kept Q s) :
    KeptRes Q (execRedSlotFull k slot u s) := by
  unfold execRedSlotFull
  refine KeptRes_next ?_
  split
  · assumption
  · extract_lets l0 l1
    clear_value l0 l1
    grind [gated_kept, readTile_kept, stopWork_kept, collectWork_kept, setWork_kept, completeSt_kept, KeptRes_next, KeptRes_fault, Kept_mk]

theorem execRedSlotTimeout_kept {Q : List Instr} {k slot : Nat} {s : State} (hs : Kept Q s) :
    KeptRes Q (execRedSlotTimeout k slot s) := by
  unfold execRedSlotTimeout
  refine KeptRes_next ?_
  split
  · assumption
  · extract_lets l0
    clear_value l0
    grind [gated_kept, completeSt_kept, setWork_kept, KeptRes_next, KeptRes_fault, Kept_mk]

end Sys2Proof.Machine
end

