-- ==== Sys2Proof/Laws/KeptTenancy.lean ====
section
/-!
SUPPORT. What Machine/Tenancy.lean does keeps the canonical form and the queue.
-/

set_option Elab.async false

namespace Sys2Proof.Machine

open Sys2Proof

theorem killContexts_kept {Q : List Instr} {s : State} {k : Nat} (hs : Kept Q s) :
    Kept Q (killContexts s k) := by
  unfold killContexts
  refine Kept_foldl (fun s0 x1 hs0 => ?_) ?_
  · extract_lets l2 l3
    clear_value l2
    have hl3 : Kept Q l3 := by
      grind [abortCtx_kept, countErrorAt_kept, Kept_foldl2, Kept_mk]
    clear_value l3
    grind [abortCtx_kept, countErrorAt_kept, Kept_foldl2, Kept_mk]
  · assumption

theorem markBarriers_kept {Q : List Instr} {s : State} {k : Nat} (hs : Kept Q s) :
    Kept Q (markBarriers s k) := by
  unfold markBarriers
  extract_lets l0
  clear_value l0
  refine Kept_upd (s := s) ?_ rfl rfl rfl rfl
  assumption

theorem sendPartReset_kept {Q : List Instr} {s : State} {k : Nat} (hs : Kept Q s) :
    Kept Q (sendPartReset s k) := by
  unfold sendPartReset
  refine Kept_foldl (fun s0 x1 hs0 => ?_) ?_
  · grind [setSite_kept, emit_kept, Kept_foldl2, Kept_mk]
  · assumption

theorem zeroOut_kept {Q : List Instr} {s : State} {k : Nat} (hs : Kept Q s) :
    Kept Q (zeroOut s k) := by
  unfold zeroOut
  grind [resetRegs_kept, Kept_mk]

theorem freeContexts_kept {Q : List Instr} {s : State} {k : Nat} (hs : Kept Q s) :
    Kept Q (freeContexts s k) := by
  unfold freeContexts
  extract_lets l0 l1 l2
  clear_value l0
  have hl1 : Kept Q l1 := by
    grind [forgetTurns_kept, zeroOut_kept, resetRegs_kept, raiseEvt_kept, Kept_mk]
  clear_value l1
  have hl2 : Kept Q l2 := by
    grind [forgetTurns_kept, zeroOut_kept, resetRegs_kept, raiseEvt_kept, Kept_mk]
  clear_value l2
  grind [forgetTurns_kept, zeroOut_kept, resetRegs_kept, raiseEvt_kept, Kept_mk]

theorem saveBank_kept {Q : List Instr} {s : State} {m : Nat × Nat} (hs : Kept Q s) :
    Kept Q (saveBank s m) := by
  unfold saveBank
  extract_lets l0 l1
  clear_value l0 l1
  split
  · assumption
  · refine Kept_upd (s := s) ?_ rfl rfl rfl rfl
    assumption

theorem replaceBank_kept {Q : List Instr} {s : State} {m : Nat × Nat} (hs : Kept Q s) :
    Kept Q (replaceBank s m) := by
  unfold replaceBank
  extract_lets l0
  clear_value l0
  grind [wf_kept, wb_kept, Kept_mk]

theorem applyBanks_kept {Q : List Instr} {s : State} {k : Nat} (hs : Kept Q s) :
    Kept Q (applyBanks s k) := by
  unfold applyBanks
  extract_lets l0 l1
  clear_value l0
  have hl1 : Kept Q l1 := by
    unfold l1
    refine Kept_foldl (fun s2 x3 hs2 => ?_) ?_
    · grind [saveBank_kept, replaceBank_kept, Kept_foldl2, Kept_mk]
    · assumption
  clear_value l1
  grind [saveBank_kept, replaceBank_kept, Kept_foldl2, Kept_mk]

theorem clearCounters_kept {Q : List Instr} {s : State} {p : Nat} (hs : Kept Q s) :
    Kept Q (clearCounters s p) := by
  unfold clearCounters
  split
  · assumption
  · refine Kept_foldl (fun s0 x1 hs0 => ?_) ?_
    · refine Kept_foldl (fun s2 x3 hs2 => ?_) ?_
      · grind [wr_kept, Kept_foldl2, Kept_mk]
      · assumption
    · assumption

theorem tenantCommand_kept {Q : List Instr} {s : State} {fn code : Nat} {f : State → Nat → Bytes → State} (hs : Kept Q s) (hf : ∀ y0 y1 y2, Kept Q y0 → Kept Q (f y0 y1 y2)) :
    Kept Q (tenantCommand s fn code f) := by
  unfold tenantCommand
  grind [onTaken_kept, reply_kept, reject_kept, Kept_mk]

theorem tenantReject_kept {Q : List Instr} {s : State} {k code : Nat} {body : Bytes} (hs : Kept Q s) :
    Kept Q (tenantReject s k code body) := by
  unfold tenantReject
  grind [reply_kept, reject_kept, Kept_mk]

theorem dropSeal_kept {Q : List Instr} {s : State} {k : Nat} (hs : Kept Q s) :
    Kept Q (dropSeal s k) := by
  unfold dropSeal
  extract_lets l0
  clear_value l0
  split
  · grind [tenantReject_kept, Kept_mk]
  · assumption

theorem partCommand_kept {Q : List Instr} {s : State} {fn k : Nat} {ok : State → Bool} {f : State → State} (hs : Kept Q s) (hf : ∀ y0, Kept Q y0 → Kept Q (f y0)) :
    Kept Q (partCommand s fn k ok f) := by
  unfold partCommand
  grind [withOperator_kept, guarded_kept, Kept_mk]

theorem execPartCmdReset_kept {Q : List Instr} {fn k : Nat} {s : State} (hs : Kept Q s) :
    KeptRes Q (execPartCmdReset fn k s) := by
  unfold execPartCmdReset
  refine KeptRes_next (partCommand_kept hs fun s h => ?_)
  extract_lets s1 s2
  have h0 : Kept Q s2 := sendPartReset_kept (k := k) (manifestReset_kept (k := k) (killContexts_kept (k := k)
    (markBarriers_kept (k := k) (setPart_kept (k := k) (st := 6) (triggerJobsOf_kept (k := k) (cause := 2)
      (dropSeal_kept (k := k) h))))))
  clear_value s2
  exact Kept_upd h0 rfl rfl rfl rfl

theorem execPartitionResetDrained_kept {Q : List Instr} {k : Nat} {s : State} (hs : Kept Q s) :
    KeptRes Q (execPartitionResetDrained k s) := by
  unfold execPartitionResetDrained
  refine KeptRes_next ?_
  grind [zeroOut_kept, KeptRes_next, KeptRes_fault, Kept_mk]

theorem resetPartPage_kept {Q : List Instr} {s : State} {k : Nat} (hs : Kept Q s) :
    Kept Q (resetPartPage s k) := by
  unfold resetPartPage
  extract_lets l0 l1 l2 l3
  clear_value l0
  have hl1 : Kept Q l1 := by
    grind [resetRegs_kept, clearCounters_kept, wr_kept, wf_kept, Kept_mk]
  clear_value l1
  have hl2 : Kept Q l2 := by
    grind [resetRegs_kept, clearCounters_kept, wr_kept, wf_kept, Kept_mk]
  clear_value l2
  have hl3 : Kept Q l3 := by
    grind [resetRegs_kept, clearCounters_kept, wr_kept, wf_kept, Kept_mk]
  clear_value l3
  grind [resetRegs_kept, clearCounters_kept, wr_kept, wf_kept, Kept_mk]

theorem resetUnits_kept {Q : List Instr} {s : State} {k : Nat} (hs : Kept Q s) :
    Kept Q (resetUnits s k) := by
  unfold resetUnits
  exact Kept_foldl (fun _ _ h => wr_kept (clearCounters_kept h))
    (Kept_foldl (fun _ _ h => endTest_kept (clearCounters_kept h)) hs)

theorem execPartitionResetComplete_kept {Q : List Instr} {k : Nat} {s : State} (hs : Kept Q s) :
    KeptRes Q (execPartitionResetComplete k s) := by
  unfold execPartitionResetComplete
  extract_lets l0 l1
  have hl0 : Kept Q l0 := by
    grind [dropPorts_kept, freeContexts_kept, dropXlat_kept, applyBanks_kept, clearDomain_kept, resetUnits_kept, resetPartPage_kept, setPart_kept, KeptRes_next, KeptRes_fault, Kept_mk]
  clear_value l0
  have hl1 : Kept Q l1 := by
    grind [dropPorts_kept, freeContexts_kept, dropXlat_kept, applyBanks_kept, clearDomain_kept, resetUnits_kept, resetPartPage_kept, setPart_kept, KeptRes_next, KeptRes_fault, Kept_mk]
  clear_value l1
  grind [dropPorts_kept, freeContexts_kept, dropXlat_kept, applyBanks_kept, clearDomain_kept, resetUnits_kept, resetPartPage_kept, setPart_kept, KeptRes_next, KeptRes_fault, Kept_mk]

theorem beginScrub_kept {Q : List Instr} {s : State} {k : Nat} (hs : Kept Q s) :
    Kept Q (beginScrub s k) := by
  unfold beginScrub
  extract_lets l0 l1 l2
  have hl0 : Kept Q l0 := by
    grind [setPart_kept, triggerJobsOf_kept, dropSeal_kept, setState_kept, resetChan_kept, endSessions_kept, sendPartReset_kept, manifestReset_kept, killContexts_kept, wr_kept, Kept_foldl2, Kept_mk]
  clear_value l0
  have hl1 : Kept Q l1 := by
    unfold l1
    refine Kept_foldl (fun s3 x4 hs3 => ?_) ?_
    · grind [setPart_kept, triggerJobsOf_kept, dropSeal_kept, setState_kept, resetChan_kept, endSessions_kept, sendPartReset_kept, manifestReset_kept, killContexts_kept, wr_kept, Kept_foldl2, Kept_mk]
    · assumption
  clear_value l1
  have hl2 : Kept Q l2 := by
    grind [setPart_kept, triggerJobsOf_kept, dropSeal_kept, setState_kept, resetChan_kept, endSessions_kept, sendPartReset_kept, manifestReset_kept, killContexts_kept, wr_kept, Kept_foldl2, Kept_mk]
  clear_value l2
  grind [setPart_kept, triggerJobsOf_kept, dropSeal_kept, setState_kept, resetChan_kept, endSessions_kept, sendPartReset_kept, manifestReset_kept, killContexts_kept, wr_kept, Kept_foldl2, Kept_mk]

theorem execPartCmdEnable_kept {Q : List Instr} {fn k : Nat} {s : State} (hs : Kept Q s) :
    KeptRes Q (execPartCmdEnable fn k s) := by
  unfold execPartCmdEnable
  refine KeptRes_next ?_
  grind [partCommand_kept, beginScrub_kept, KeptRes_next, KeptRes_fault, Kept_mk]

theorem execPartCmdDisable_kept {Q : List Instr} {fn k : Nat} {s : State} (hs : Kept Q s) :
    KeptRes Q (execPartCmdDisable fn k s) := by
  unfold execPartCmdDisable
  refine KeptRes_next ?_
  grind [partCommand_kept, setPart_kept, KeptRes_next, KeptRes_fault, Kept_mk]

theorem execPartCmdAssign_kept {Q : List Instr} {fn k : Nat} {s : State} (hs : Kept Q s) :
    KeptRes Q (execPartCmdAssign fn k s) := by
  unfold execPartCmdAssign
  refine KeptRes_next ?_
  grind [partCommand_kept, setPart_kept, KeptRes_next, KeptRes_fault, Kept_mk]

theorem execPartCmdRelease_kept {Q : List Instr} {fn k : Nat} {s : State} (hs : Kept Q s) :
    KeptRes Q (execPartCmdRelease fn k s) := by
  unfold execPartCmdRelease
  refine KeptRes_next ?_
  grind [partCommand_kept, beginScrub_kept, KeptRes_next, KeptRes_fault, Kept_mk]

theorem clearCvus_kept {Q : List Instr} {s : State} {f : Nat} (hs : Kept Q s) :
    Kept Q (clearCvus s f) := by
  unfold clearCvus
  refine Kept_foldl (fun s0 x1 hs0 => ?_) ?_
  · grind [wr_kept, Kept_foldl2, Kept_mk]
  · assumption

theorem scrubClears_kept {Q : List Instr} {s : State} {k : Nat} (hs : Kept Q s) :
    Kept Q (scrubClears s k) := by
  unfold scrubClears
  extract_lets p s1 s2 x0 s3 s4 s5 s6 s7 s8
  have h1 : Kept Q s1 := freeContexts_kept (applyBanks_kept (clearDomain_kept hs))
  have h2 : Kept Q s2 := resetRegs_kept (dropXlat_kept h1)
  have h3 : Kept Q s3 := Kept_upd h2 rfl rfl rfl rfl
  have h4 : Kept Q s4 := resetPartPage_kept h3
  have h5 : Kept Q s5 := resetRegs_kept h4
  have h6 : Kept Q s6 := setSeal_kept (zeroiseKeys_kept h5)
  have h7 : Kept Q s7 := resetRegs_kept h6
  have h8 : Kept Q s8 := resetRegs_kept h7
  exact Kept_foldl (fun _ _ h => clearCounters_kept h) (clearCvus_kept h8)

theorem execScrubDrainEnd_kept {Q : List Instr} {k : Nat} {s : State} (hs : Kept Q s) :
    KeptRes Q (execScrubDrainEnd k s) := by
  unfold execScrubDrainEnd
  extract_lets l0 l1 l2 l3
  have hl0 : Kept Q l0 := by
    grind [wf_kept, setClocks_kept, scrubClears_kept, updIso_kept, startQuayFill_kept, startFill_kept, KeptRes_next, KeptRes_fault, Kept_mk]
  clear_value l0 l1
  have hl2 : Kept Q l2 := by
    grind [wf_kept, setClocks_kept, scrubClears_kept, updIso_kept, startQuayFill_kept, startFill_kept, KeptRes_next, KeptRes_fault, Kept_mk]
  clear_value l2
  have hl3 : Kept Q l3 := by
    grind [wf_kept, setClocks_kept, scrubClears_kept, updIso_kept, startQuayFill_kept, startFill_kept, KeptRes_next, KeptRes_fault, Kept_mk]
  clear_value l3
  grind [wf_kept, setClocks_kept, scrubClears_kept, updIso_kept, startQuayFill_kept, startFill_kept, KeptRes_next, KeptRes_fault, Kept_mk]

theorem releaseChan_kept {Q : List Instr} {s : State} {c : Nat} (hs : Kept Q s) :
    Kept Q (releaseChan s c) := by
  unfold releaseChan
  grind [setState_kept, Kept_mk]

theorem execScrubDone_kept {Q : List Instr} {k : Nat} {writesOk : Bool} {s : State} (hs : Kept Q s) :
    KeptRes Q (execScrubDone k writesOk s) := by
  unfold execScrubDone
  extract_lets l0 l1 l2 l3 l4 l5 l6
  clear_value l0 l1
  have hl2 : Kept Q l2 := by
    grind [endQuayFill_kept, endFill_kept, wf_kept, releaseChan_kept, wakeSites_kept, setSeal_kept, setPart_kept, countError_kept, raiseEvt_kept, Kept_foldl2, KeptRes_next, KeptRes_fault, Kept_mk]
  clear_value l2 l3
  have hl4 : Kept Q l4 := by
    grind [endQuayFill_kept, endFill_kept, wf_kept, releaseChan_kept, wakeSites_kept, setSeal_kept, setPart_kept, countError_kept, raiseEvt_kept, Kept_foldl2, KeptRes_next, KeptRes_fault, Kept_mk]
  clear_value l4
  have hl5 : Kept Q l5 := by
    unfold l5
    refine Kept_foldl (fun s7 x8 hs7 => ?_) ?_
    · grind [endQuayFill_kept, endFill_kept, wf_kept, releaseChan_kept, wakeSites_kept, setSeal_kept, setPart_kept, countError_kept, raiseEvt_kept, Kept_foldl2, KeptRes_next, KeptRes_fault, Kept_mk]
    · grind [endQuayFill_kept, endFill_kept, wf_kept, releaseChan_kept, wakeSites_kept, setSeal_kept, setPart_kept, countError_kept, raiseEvt_kept, Kept_foldl2, KeptRes_next, KeptRes_fault, Kept_mk]
  clear_value l5
  have hl6 : Kept Q l6 := by
    grind [endQuayFill_kept, endFill_kept, wf_kept, releaseChan_kept, wakeSites_kept, setSeal_kept, setPart_kept, countError_kept, raiseEvt_kept, Kept_foldl2, KeptRes_next, KeptRes_fault, Kept_mk]
  clear_value l6
  grind [endQuayFill_kept, endFill_kept, wf_kept, releaseChan_kept, wakeSites_kept, setSeal_kept, setPart_kept, countError_kept, raiseEvt_kept, Kept_foldl2, KeptRes_next, KeptRes_fault, Kept_mk]

theorem execSeal_kept {Q : List Instr} {fn : Nat} {s : State} (hs : Kept Q s) :
    KeptRes Q (execSeal fn s) := by
  unfold execSeal
  refine KeptRes_next ?_
  grind [tenantCommand_kept, dropInto_kept, tenantReject_kept, KeptRes_next, KeptRes_fault, Kept_mk]

theorem execSealComplete_kept {Q : List Instr} {k : Nat} {s : State} (hs : Kept Q s) :
    KeptRes Q (execSealComplete k s) := by
  unfold execSealComplete
  extract_lets l0 l1
  clear_value l0
  have hl1 : Kept Q l1 := by
    grind [setPart_kept, setSeal_kept, wrWords_kept, audit_kept, endSessions_kept, reply_kept, tenantReject_kept, KeptRes_next, KeptRes_fault, Kept_mk]
  clear_value l1
  split
  · grind [setPart_kept, setSeal_kept, wrWords_kept, audit_kept, endSessions_kept, reply_kept, tenantReject_kept, KeptRes_next, KeptRes_fault, Kept_mk]
  · extract_lets l2 l3
    have hl2 : Kept Q l2 := by
      grind [setPart_kept, setSeal_kept, wrWords_kept, audit_kept, endSessions_kept, reply_kept, tenantReject_kept, KeptRes_next, KeptRes_fault, Kept_mk]
    clear_value l2
    have hl3 : Kept Q l3 := by
      grind [setPart_kept, setSeal_kept, wrWords_kept, audit_kept, endSessions_kept, reply_kept, tenantReject_kept, KeptRes_next, KeptRes_fault, Kept_mk]
    clear_value l3
    grind [setPart_kept, setSeal_kept, wrWords_kept, audit_kept, endSessions_kept, reply_kept, tenantReject_kept, KeptRes_next, KeptRes_fault, Kept_mk]

theorem execUnseal_kept {Q : List Instr} {fn : Nat} {s : State} (hs : Kept Q s) :
    KeptRes Q (execUnseal fn s) := by
  unfold execUnseal
  refine KeptRes_next ?_
  grind [tenantCommand_kept, reply_kept, reject_kept, audit_kept, setSeal_kept, setPart_kept, tenantReject_kept, KeptRes_next, KeptRes_fault, Kept_mk]

theorem execExtend_kept {Q : List Instr} {fn : Nat} {s : State} (hs : Kept Q s) :
    KeptRes Q (execExtend fn s) := by
  unfold execExtend
  refine KeptRes_next ?_
  grind [tenantCommand_kept, reply_kept, extendMr_kept, tenantReject_kept, KeptRes_next, KeptRes_fault, Kept_mk]

theorem execLoadKey_kept {Q : List Instr} {fn : Nat} {s : State} (hs : Kept Q s) :
    KeptRes Q (execLoadKey fn s) := by
  unfold execLoadKey
  refine KeptRes_next ?_
  grind [tenantCommand_kept, reply_kept, tenantReject_kept, raiseEvt_kept, wr_kept, KeptRes_next, KeptRes_fault, Kept_mk]

theorem execRetireKey_kept {Q : List Instr} {fn : Nat} {s : State} (hs : Kept Q s) :
    KeptRes Q (execRetireKey fn s) := by
  unfold execRetireKey
  refine KeptRes_next ?_
  grind [tenantCommand_kept, tenantReject_kept, raiseEvt_kept, wf_kept, KeptRes_next, KeptRes_fault, Kept_mk]

theorem execKeySlotFreed_kept {Q : List Instr} {k i : Nat} {s : State} (hs : Kept Q s) :
    KeptRes Q (execKeySlotFreed k i s) := by
  unfold execKeySlotFreed
  extract_lets l0 l1 l2 l3
  clear_value l0 l1 l2
  have hl3 : Kept Q l3 := by
    grind [freeKey_kept, reply_kept, KeptRes_next, KeptRes_fault, Kept_mk]
  clear_value l3
  grind [freeKey_kept, reply_kept, KeptRes_next, KeptRes_fault, Kept_mk]

end Sys2Proof.Machine
end

