-- ==== Sys2Proof/Laws/KeptErrors.lean ====
section
/-!
SUPPORT. What Machine/Errors.lean does keeps the canonical form and the queue.
-/

set_option Elab.async false

namespace Sys2Proof.Machine

open Sys2Proof

theorem putDump_kept {Q : List Instr} {s : State} {cause : Nat} {whole : Bool} (hs : Kept Q s) :
    Kept Q (putDump s cause whole) := by
  unfold putDump
  extract_lets l0
  clear_value l0
  split
  · extract_lets l1 l2 l3
    clear_value l1
    have hl2 : Kept Q l2 := by
      grind [wb_kept, raiseEvt_kept, countError_kept, wf_kept, Kept_mk]
    clear_value l2
    have hl3 : Kept Q l3 := by
      grind [wb_kept, raiseEvt_kept, countError_kept, wf_kept, Kept_mk]
    clear_value l3
    grind [wb_kept, raiseEvt_kept, countError_kept, wf_kept, Kept_mk]
  · grind [wb_kept, raiseEvt_kept, countError_kept, wf_kept, Kept_mk]

theorem writeDump_kept {Q : List Instr} {s : State} {cause : Nat} (hs : Kept Q s) :
    Kept Q (writeDump s cause) := by
  unfold writeDump
  grind [putDump_kept, Kept_mk]

theorem cutDump_kept {Q : List Instr} {s : State} (hs : Kept Q s) :
    Kept Q (cutDump s) := by
  unfold cutDump
  extract_lets l0
  clear_value l0
  split
  · grind [putDump_kept, Kept_mk]
  · refine Kept_upd (s := s) ?_ rfl rfl rfl rfl
    assumption

theorem execDumpAck_kept {Q : List Instr} {fn : Nat} {v : Word} {s : State} (hs : Kept Q s) :
    KeptRes Q (execDumpAck fn v s) := by
  unfold execDumpAck
  extract_lets l0
  clear_value l0
  refine KeptRes_next ?_
  apply withWrite_kept
  · assumption
  · split
    · grind [withWrite_kept, wf_kept, Kept_foldl2, KeptRes_next, KeptRes_fault, Kept_mk]
    · grind [withWrite_kept, wf_kept, Kept_foldl2, KeptRes_next, KeptRes_fault, Kept_mk]

theorem collect_kept {Q : List Instr} {s : State} {r : Report} (hs : Kept Q s) :
    Kept Q (collect s r) := by
  unfold collect
  extract_lets l0 l1 l2
  have hl0 : Kept Q l0 := by
    grind [addReg_kept, wf_kept, wr_kept, raiseEvt_kept, wrWords_kept, writeDump_kept, queueIbi_kept, wb_kept, countError_kept, Kept_mk]
  clear_value l0 l1
  have hl2 : Kept Q l2 := by
    grind [addReg_kept, wf_kept, wr_kept, raiseEvt_kept, wrWords_kept, writeDump_kept, queueIbi_kept, wb_kept, countError_kept, Kept_mk]
  clear_value l2
  split
  · extract_lets l3
    have hl3 : Kept Q l3 := by
      grind [addReg_kept, wf_kept, wr_kept, raiseEvt_kept, wrWords_kept, writeDump_kept, queueIbi_kept, wb_kept, countError_kept, Kept_mk]
    clear_value l3
    grind [addReg_kept, wf_kept, wr_kept, raiseEvt_kept, wrWords_kept, writeDump_kept, queueIbi_kept, wb_kept, countError_kept, Kept_mk]
  · split
    · extract_lets l4
      have hl4 : Kept Q l4 := by
        grind [addReg_kept, wf_kept, wr_kept, raiseEvt_kept, wrWords_kept, writeDump_kept, queueIbi_kept, wb_kept, countError_kept, Kept_mk]
      clear_value l4
      grind [addReg_kept, wf_kept, wr_kept, raiseEvt_kept, wrWords_kept, writeDump_kept, queueIbi_kept, wb_kept, countError_kept, Kept_mk]
    · grind [addReg_kept, wf_kept, wr_kept, raiseEvt_kept, wrWords_kept, writeDump_kept, queueIbi_kept, wb_kept, countError_kept, Kept_mk]

theorem execErrorReport_kept {Q : List Instr} {badParity : Bool} {s : State} (hs : Kept Q s) :
    KeptRes Q (execErrorReport badParity s) := by
  unfold execErrorReport
  extract_lets l0
  clear_value l0
  refine KeptRes_next ?_
  split
  · grind [countError_kept, collect_kept, KeptRes_next, KeptRes_fault, Kept_mk]
  · split
    · assumption
    · grind [countError_kept, collect_kept, KeptRes_next, KeptRes_fault, Kept_mk]

theorem execCollClear_kept {Q : List Instr} {fn : Nat} {v : Word} {s : State} (hs : Kept Q s) :
    KeptRes Q (execCollClear fn v s) := by
  unfold execCollClear
  refine KeptRes_next ?_
  split
  · split
    · grind [withWrite_kept, wb_kept, resetRegs_kept, KeptRes_next, KeptRes_fault, Kept_mk]
    · grind [withWrite_kept, wb_kept, resetRegs_kept, KeptRes_next, KeptRes_fault, Kept_mk]
  · grind [withWrite_kept, wb_kept, resetRegs_kept, KeptRes_next, KeptRes_fault, Kept_mk]

theorem execHang_kept {Q : List Instr} {k x q waitPage : Nat} {s : State} (hs : Kept Q s) :
    KeptRes Q (execHang k x q waitPage s) := by
  unfold execHang
  refine KeptRes_next ?_
  split
  · assumption
  · extract_lets l0 l1 l2 l3 l4 l5
    clear_value l0 l1
    have hl2 : Kept Q l2 := by
      grind [countErrorAt_kept, wr_kept, raiseEvt_kept, abortCtx_kept, KeptRes_next, KeptRes_fault, Kept_mk]
    clear_value l2
    have hl3 : Kept Q l3 := by
      grind [countErrorAt_kept, wr_kept, raiseEvt_kept, abortCtx_kept, KeptRes_next, KeptRes_fault, Kept_mk]
    clear_value l3
    have hl4 : Kept Q l4 := by
      grind [countErrorAt_kept, wr_kept, raiseEvt_kept, abortCtx_kept, KeptRes_next, KeptRes_fault, Kept_mk]
    clear_value l4
    have hl5 : Kept Q l5 := by
      grind [countErrorAt_kept, wr_kept, raiseEvt_kept, abortCtx_kept, KeptRes_next, KeptRes_fault, Kept_mk]
    clear_value l5
    grind [countErrorAt_kept, wr_kept, raiseEvt_kept, abortCtx_kept, KeptRes_next, KeptRes_fault, Kept_mk]

theorem execTeardownStuck_kept {Q : List Instr} {k x : Nat} {s : State} (hs : Kept Q s) :
    KeptRes Q (execTeardownStuck k x s) := by
  unfold execTeardownStuck
  extract_lets l0
  clear_value l0
  refine KeptRes_next ?_
  split
  · grind [countError_kept, KeptRes_next, KeptRes_fault, Kept_mk]
  · assumption

theorem abortMember_kept {Q : List Instr} {s : State} {page k x : Nat} (hs : Kept Q s) :
    Kept Q (abortMember s page k x) := by
  unfold abortMember
  extract_lets l0
  clear_value l0
  grind [countErrorAt_kept, abortCtx_kept, Kept_mk]

theorem jobBarrierEnd_kept {Q : List Instr} {s : State} {j : Nat} (hs : Kept Q s) :
    Kept Q (jobBarrierEnd s j) := by
  unfold jobBarrierEnd
  refine Kept_foldl (fun s0 x1 hs0 => ?_) ?_
  · extract_lets l2 l3
    clear_value l2
    have hl3 : Kept Q l3 := by
      grind [wf_kept, Kept_foldl2, Kept_mk]
    clear_value l3
    grind [wf_kept, Kept_foldl2, Kept_mk]
  · assumption

theorem abortJob_kept {Q : List Instr} {s : State} {j cause page : Nat} (hs : Kept Q s) :
    Kept Q (abortJob s j cause page) := by
  unfold abortJob
  extract_lets l0 l1 l2 l3
  have hl0 : Kept Q l0 := by
    unfold l0
    refine Kept_foldl (fun s4 x5 hs4 => ?_) ?_
    · grind [abortMember_kept, jobBarrierEnd_kept, wf_kept, raiseEvt_kept, addReg_kept, Kept_foldl2, Kept_mk]
    · assumption
  clear_value l0
  have hl1 : Kept Q l1 := by
    grind [abortMember_kept, jobBarrierEnd_kept, wf_kept, raiseEvt_kept, addReg_kept, Kept_foldl2, Kept_mk]
  clear_value l1 l2
  have hl3 : Kept Q l3 := by
    grind [abortMember_kept, jobBarrierEnd_kept, wf_kept, raiseEvt_kept, addReg_kept, Kept_foldl2, Kept_mk]
  clear_value l3
  grind [abortMember_kept, jobBarrierEnd_kept, wf_kept, raiseEvt_kept, addReg_kept, Kept_foldl2, Kept_mk]

theorem execJobAbortCmd_kept {Q : List Instr} {fn j : Nat} {s : State} (hs : Kept Q s) :
    KeptRes Q (execJobAbortCmd fn j s) := by
  unfold execJobAbortCmd
  refine KeptRes_next ?_
  grind [withWrite_kept, guarded_kept, triggerJob_kept, KeptRes_next, KeptRes_fault, Kept_mk]

theorem execJobAbort_kept {Q : List Instr} {j : Nat} {s : State} (hs : Kept Q s) :
    KeptRes Q (execJobAbort j s) := by
  unfold execJobAbort
  extract_lets l0 l1
  clear_value l0
  have hl1 : Kept Q l1 := by
    grind [abortJob_kept, Kept_foldl2, KeptRes_next, KeptRes_fault, Kept_mk]
  clear_value l1
  split
  · grind [abortJob_kept, Kept_foldl2, KeptRes_next, KeptRes_fault, Kept_mk]
  · extract_lets l2
    clear_value l2
    grind [abortJob_kept, Kept_foldl2, KeptRes_next, KeptRes_fault, Kept_mk]

theorem settleUnits_kept {Q : List Instr} {s : State} (hs : Kept Q s) :
    Kept Q (settleUnits s) := by
  unfold settleUnits
  refine Kept_foldl (fun _ _ h => applyBanks_kept h) ?_
  refine Kept_foldl (fun _ _ h => endTest_kept h) ?_
  exact Kept_foldl (fun _ _ h => finishEngine_kept h) (Kept_foldl (fun _ _ h => drainFence_kept h) hs)

theorem afterResetLists_kept {Q : List Instr} {s : State} (hs : Kept Q s) :
    Kept Q (afterResetLists s) := by
  unfold afterResetLists
  extract_lets l0 l1 l2 l3 l4 l5 l6 l7
  clear_value l0 l1 l2 l3 l4 l5 l6 l7
  refine Kept_upd (s := s) ?_ rfl rfl rfl rfl
  assumption

theorem romStart_kept {Q : List Instr} {s : State} {warm : Bool} (hs : Kept Q s) :
    Kept Q (romStart s warm) := by
  unfold romStart
  extract_lets l0 l1
  clear_value l0 l1
  refine Kept_upd (s := s) ?_ rfl rfl rfl rfl
  assumption

theorem markStates_kept {Q : List Instr} {s : State} {was : List Nat} (hs : Kept Q s) :
    Kept Q (markStates s was) := by
  unfold markStates
  refine Kept_foldl (fun s0 x1 hs0 => ?_) ?_
  · grind [raiseEvt_kept, Kept_foldl2, Kept_mk]
  · assumption

theorem islandReset_kept {Q : List Instr} {s : State} (hs : Kept Q s) :
    Kept Q (islandReset s) := by
  unfold islandReset
  extract_lets s1 was s2 s3 s4 s5 s6
  have h1 : Kept Q s1 := settleUnits_kept hs
  have h2 : Kept Q s2 := Kept_foldl (fun _ _ h => clearMbx_kept (clearMbx_kept h)) h1
  have hk : sparseWf regReset (sparseKeep regReset afterReset s2.regs) = true := sparseWf_keep _ _ _ h2.1.1
  have h3 : Kept Q s3 := by
    unfold s3
    clear_value s2
    exact ⟨⟨hk, h2.1.2⟩, h2.2⟩
  have h4 : Kept Q s4 := afterResetLists_kept h3
  have h5 : Kept Q s5 := wr_kept (wr_kept h4)
  have h6 : Kept Q s6 := updIso_kept (markStates_kept h5)
  clear_value s6
  exact Kept_upd h6 rfl rfl rfl rfl

theorem startReset_kept {Q : List Instr} {s : State} {cause : Nat} {dump : Bool} (hs : Kept Q s) :
    Kept Q (startReset s cause dump) := by
  unfold startReset
  extract_lets l0 l1 l2 l3 l4 l5
  have hl0 : Kept Q l0 := by
    unfold l0
    refine Kept_foldl (fun s6 x7 hs6 => ?_) ?_
    · grind [resetChan_kept, abortJob_kept, abortCtx_kept, resetSite_kept, Kept_foldl2, Kept_mk]
    · assumption
  clear_value l0 l1
  have hl2 : Kept Q l2 := by
    unfold l2
    refine Kept_foldl (fun s8 x9 hs8 => ?_) ?_
    · grind [resetChan_kept, abortJob_kept, abortCtx_kept, resetSite_kept, Kept_foldl2, Kept_mk]
    · assumption
  clear_value l2
  have hl3 : Kept Q l3 := by
    unfold l3
    refine Kept_foldl (fun s10 x11 hs10 => ?_) ?_
    · refine Kept_foldl (fun s12 x13 hs12 => ?_) ?_
      · grind [resetChan_kept, abortJob_kept, abortCtx_kept, resetSite_kept, Kept_foldl2, Kept_mk]
      · assumption
    · assumption
  clear_value l3
  have hl4 : Kept Q l4 := by
    unfold l4
    refine Kept_foldl (fun s14 x15 hs14 => ?_) ?_
    · grind [resetChan_kept, abortJob_kept, abortCtx_kept, resetSite_kept, Kept_foldl2, Kept_mk]
    · assumption
  clear_value l4 l5
  grind [resetChan_kept, abortJob_kept, abortCtx_kept, resetSite_kept, Kept_foldl2, Kept_mk]

theorem resetWrite_kept {Q : List Instr} {s : State} {fn : Nat} {k : State → State} (hs : Kept Q s) (hk : ∀ y0, Kept Q y0 → Kept Q (k y0)) :
    Kept Q (resetWrite s fn k) := by
  unfold resetWrite
  grind [withWrite_kept, Kept_mk]

theorem execDevReset_kept {Q : List Instr} {fn : Nat} {v : Word} {s : State} (hs : Kept Q s) :
    KeptRes Q (execDevReset fn v s) := by
  unfold execDevReset
  refine KeptRes_next ?_
  grind [resetWrite_kept, guarded_kept, startReset_kept, KeptRes_next, KeptRes_fault, Kept_mk]

theorem execDeviceResetDrained_kept {Q : List Instr} {s : State} (hs : Kept Q s) :
    KeptRes Q (execDeviceResetDrained s) := by
  unfold execDeviceResetDrained
  extract_lets l0
  have hl0 : Kept Q l0 := by
    grind [wcFlush_kept, writeDump_kept, wr_kept, romStart_kept, islandReset_kept, nextEpoch_kept, KeptRes_next, KeptRes_fault, Kept_mk]
  clear_value l0
  split
  · grind [wcFlush_kept, writeDump_kept, wr_kept, romStart_kept, islandReset_kept, nextEpoch_kept, KeptRes_next, KeptRes_fault, Kept_mk]
  · extract_lets l1 l2 l3 l4
    clear_value l1
    have hl2 : Kept Q l2 := by
      grind [wcFlush_kept, writeDump_kept, wr_kept, romStart_kept, islandReset_kept, nextEpoch_kept, KeptRes_next, KeptRes_fault, Kept_mk]
    clear_value l2 l3
    have hl4 : Kept Q l4 := by
      grind [wcFlush_kept, writeDump_kept, wr_kept, romStart_kept, islandReset_kept, nextEpoch_kept, KeptRes_next, KeptRes_fault, Kept_mk]
    clear_value l4
    grind [wcFlush_kept, writeDump_kept, wr_kept, romStart_kept, islandReset_kept, nextEpoch_kept, KeptRes_next, KeptRes_fault, Kept_mk]

theorem execRecReset_kept {Q : List Instr} {b : Byte} {s : State} (hs : Kept Q s) :
    KeptRes Q (execRecReset b s) := by
  unfold execRecReset
  refine KeptRes_next ?_
  grind [i3cCommand_kept, startReset_kept, KeptRes_next, KeptRes_fault, Kept_mk]

theorem execWdogTuiner_kept {Q : List Instr} {second : Bool} {s : State} (hs : Kept Q s) :
    KeptRes Q (execWdogTuiner second s) := by
  unfold execWdogTuiner
  extract_lets l0 l1 l2 l3
  have hl0 : Kept Q l0 := by
    grind [wf_kept, wb_kept, writeDump_kept, countError_kept, startReset_kept, KeptRes_next, KeptRes_fault, Kept_mk]
  clear_value l0
  have hl1 : Kept Q l1 := by
    grind [wf_kept, wb_kept, writeDump_kept, countError_kept, startReset_kept, KeptRes_next, KeptRes_fault, Kept_mk]
  clear_value l1 l2
  have hl3 : Kept Q l3 := by
    grind [wf_kept, wb_kept, writeDump_kept, countError_kept, startReset_kept, KeptRes_next, KeptRes_fault, Kept_mk]
  clear_value l3
  grind [wf_kept, wb_kept, writeDump_kept, countError_kept, startReset_kept, KeptRes_next, KeptRes_fault, Kept_mk]

theorem execPerstAssert_kept {Q : List Instr} {cut : Bool} {s : State} (hs : Kept Q s) :
    KeptRes Q (execPerstAssert cut s) := by
  unfold execPerstAssert
  extract_lets l0 l1 l2 l3 l4 l5 l6 l7 l8
  have hl0 : Kept Q l0 := by
    grind [cutDump_kept, pcieDown_kept, startReset_kept, KeptRes_next, KeptRes_fault, Kept_mk]
  clear_value l1
  have hl2 : Kept Q l2 := by
    grind [cutDump_kept, pcieDown_kept, startReset_kept, KeptRes_next, KeptRes_fault, Kept_mk]
  clear_value l3
  have hl4 : Kept Q l4 := by
    grind [cutDump_kept, pcieDown_kept, startReset_kept, KeptRes_next, KeptRes_fault, Kept_mk]
  clear_value l4 l5 l6 l7
  have hl8 : Kept Q l8 := by
    grind [cutDump_kept, pcieDown_kept, startReset_kept, KeptRes_next, KeptRes_fault, Kept_mk]
  clear_value l8
  split
  · grind [cutDump_kept, pcieDown_kept, startReset_kept, KeptRes_next, KeptRes_fault, Kept_mk]
  · split
    · grind [cutDump_kept, pcieDown_kept, startReset_kept, KeptRes_next, KeptRes_fault, Kept_mk]
    · grind [cutDump_kept, pcieDown_kept, startReset_kept, KeptRes_next, KeptRes_fault, Kept_mk]

theorem execPerstRelease_kept {Q : List Instr} {s : State} (hs : Kept Q s) :
    KeptRes Q (execPerstRelease s) := by
  unfold execPerstRelease
  extract_lets l0 l1 l2
  clear_value l0 l1 l2
  refine KeptRes_next ?_
  refine Kept_upd (s := s) ?_ rfl rfl rfl rfl
  assumption

theorem powerLost_kept {Q : List Instr} {s : State} (hs : Kept Q s) :
    Kept Q (powerLost s) := by
  unfold powerLost
  exact ⟨⟨sparseWf_filter _ _ _ hs.1.1, rfl, hs.1.2.2⟩, hs.2⟩

theorem execPowerLoss_kept {Q : List Instr} {cut : PowerCut} {s : State} (hs : Kept Q s) :
    KeptRes Q (execPowerLoss cut s) := by
  unfold execPowerLoss
  refine KeptRes_next ?_
  grind [powerLost_kept, burnOnly_kept, cutCommit_kept, KeptRes_next, KeptRes_fault, Kept_mk]

theorem holdReset_kept {Q : List Instr} {s : State} (hs : Kept Q s) :
    Kept Q (holdReset s) := by
  unfold holdReset
  extract_lets l0 l1
  have hl0 : Kept Q l0 := by
    grind [islandReset_kept, Kept_mk]
  clear_value l0 l1
  grind [islandReset_kept, Kept_mk]

theorem execPwrOkFall_kept {Q : List Instr} {s : State} (hs : Kept Q s) :
    KeptRes Q (execPwrOkFall s) := by
  unfold execPwrOkFall
  extract_lets l0 l1 l2
  have hl0 : Kept Q l0 := by
    grind [holdReset_kept, KeptRes_next, KeptRes_fault, Kept_mk]
  clear_value l0 l1 l2
  grind [holdReset_kept, KeptRes_next, KeptRes_fault, Kept_mk]

theorem execSysclkStop_kept {Q : List Instr} {s : State} (hs : Kept Q s) :
    KeptRes Q (execSysclkStop s) := by
  unfold execSysclkStop
  extract_lets l0 l1
  have hl0 : Kept Q l0 := by
    grind [holdReset_kept, KeptRes_next, KeptRes_fault, Kept_mk]
  clear_value l0 l1
  grind [holdReset_kept, KeptRes_next, KeptRes_fault, Kept_mk]

theorem execSysclkReturn_kept {Q : List Instr} {s : State} (hs : Kept Q s) :
    KeptRes Q (execSysclkReturn s) := by
  unfold execSysclkReturn
  extract_lets l0 l1
  clear_value l0
  have hl1 : Kept Q l1 := by
    grind [wf_kept, romStart_kept, KeptRes_next, KeptRes_fault, Kept_mk]
  clear_value l1
  grind [wf_kept, romStart_kept, KeptRes_next, KeptRes_fault, Kept_mk]

theorem railFault_kept {Q : List Instr} {s : State} {p : Nat} (hs : Kept Q s) :
    Kept Q (railFault s p) := by
  unfold railFault
  extract_lets l0
  clear_value l0
  refine Kept_upd (s := s) ?_ rfl rfl rfl rfl
  assumption

theorem execSiteRailLost_kept {Q : List Instr} {t : Nat} {s : State} (hs : Kept Q s) :
    KeptRes Q (execSiteRailLost t s) := by
  unfold execSiteRailLost
  extract_lets l0 l1 l2
  clear_value l0 l1
  have hl2 : Kept Q l2 := by
    grind [siteFault_kept, railFault_kept, KeptRes_next, KeptRes_fault, Kept_mk]
  clear_value l2
  grind [siteFault_kept, railFault_kept, KeptRes_next, KeptRes_fault, Kept_mk]

theorem loseStack_kept {Q : List Instr} {s : State} {m : Nat} (hs : Kept Q s) :
    Kept Q (loseStack s m) := by
  unfold loseStack
  refine Kept_foldl (fun s0 x1 hs0 => ?_) ?_
  · grind [zeroRange_kept, Kept_foldl2, Kept_mk]
  · assumption

theorem execRailLost_kept {Q : List Instr} {m : Nat} {s : State} (hs : Kept Q s) :
    KeptRes Q (execRailLost m s) := by
  unfold execRailLost
  extract_lets l0 l1 l2 l3
  clear_value l0 l1
  have hl2 : Kept Q l2 := by
    grind [loseStack_kept, setState_kept, countError_kept, railFault_kept, KeptRes_next, KeptRes_fault, Kept_mk]
  clear_value l2
  have hl3 : Kept Q l3 := by
    grind [loseStack_kept, setState_kept, countError_kept, railFault_kept, KeptRes_next, KeptRes_fault, Kept_mk]
  clear_value l3
  grind [loseStack_kept, setState_kept, countError_kept, railFault_kept, KeptRes_next, KeptRes_fault, Kept_mk]

theorem execRailRestored_kept {Q : List Instr} {site : Bool} {i : Nat} {s : State} (hs : Kept Q s) :
    KeptRes Q (execRailRestored site i s) := by
  unfold execRailRestored
  extract_lets l0
  clear_value l0
  refine KeptRes_next ?_
  split
  · split
    · refine Kept_upd (s := s) ?_ rfl rfl rfl rfl
      assumption
    · assumption
  · split
    · refine Kept_upd (s := s) ?_ rfl rfl rfl rfl
      assumption
    · assumption

theorem execTrainingFail_kept {Q : List Instr} {m : Nat} {s : State} (hs : Kept Q s) :
    KeptRes Q (execTrainingFail m s) := by
  unfold execTrainingFail
  refine KeptRes_next ?_
  grind [setState_kept, countError_kept, KeptRes_next, KeptRes_fault, Kept_mk]

end Sys2Proof.Machine
end

