-- ==== Sys2Proof/Laws/KeptBoot.lean ====
section
/-!
SUPPORT. What Machine/Boot.lean does keeps the canonical form and the queue.
-/

set_option Elab.async false

namespace Sys2Proof.Machine

open Sys2Proof

theorem restoreAudit_kept {Q : List Instr} {s : State} (hs : Kept Q s) :
    Kept Q (restoreAudit s) := by
  unfold restoreAudit
  extract_lets l0 l1 l2
  clear_value l0 l1
  have hl2 : Kept Q l2 := by
    grind [audit_kept, wr_kept, Kept_foldl2, Kept_mk]
  clear_value l2
  grind [audit_kept, wr_kept, Kept_foldl2, Kept_mk]

theorem execPowerOn_kept {Q : List Instr} {strap : Nat} {perst : Bool} {s : State} (hs : Kept Q s) :
    KeptRes Q (execPowerOn strap perst s) := by
  unfold execPowerOn
  extract_lets l0 l1 l2 l3 l4 l5 l6 l7 l8
  clear_value l0
  have hl1 : Kept Q l1 := by
    grind [wf_kept, wr_kept, romStart_kept, restoreAudit_kept, Kept_foldl2, KeptRes_next, KeptRes_fault, Kept_mk]
  clear_value l1
  have hl2 : Kept Q l2 := by
    grind [wf_kept, wr_kept, romStart_kept, restoreAudit_kept, Kept_foldl2, KeptRes_next, KeptRes_fault, Kept_mk]
  clear_value l2
  have hl3 : Kept Q l3 := by
    unfold l3
    refine Kept_foldl (fun s9 x10 hs9 => ?_) ?_
    · grind [wf_kept, wr_kept, romStart_kept, restoreAudit_kept, Kept_foldl2, KeptRes_next, KeptRes_fault, Kept_mk]
    · assumption
  clear_value l3
  have hl4 : Kept Q l4 := by
    grind [wf_kept, wr_kept, romStart_kept, restoreAudit_kept, Kept_foldl2, KeptRes_next, KeptRes_fault, Kept_mk]
  clear_value l4
  have hl5 : Kept Q l5 := by
    grind [wf_kept, wr_kept, romStart_kept, restoreAudit_kept, Kept_foldl2, KeptRes_next, KeptRes_fault, Kept_mk]
  clear_value l5
  have hl6 : Kept Q l6 := by
    grind [wf_kept, wr_kept, romStart_kept, restoreAudit_kept, Kept_foldl2, KeptRes_next, KeptRes_fault, Kept_mk]
  clear_value l6
  have hl7 : Kept Q l7 := by
    grind [wf_kept, wr_kept, romStart_kept, restoreAudit_kept, Kept_foldl2, KeptRes_next, KeptRes_fault, Kept_mk]
  clear_value l7 l8
  grind [wf_kept, wr_kept, romStart_kept, restoreAudit_kept, Kept_foldl2, KeptRes_next, KeptRes_fault, Kept_mk]

theorem enterRecovery_kept {Q : List Instr} {s : State} {cause : Nat} (hs : Kept Q s) :
    Kept Q (enterRecovery s cause) := by
  unfold enterRecovery
  extract_lets l0 l1
  clear_value l0 l1
  grind [queueIbi_kept, Kept_mk]

theorem auditGaps_kept {Q : List Instr} {s : State} (hs : Kept Q s) :
    Kept Q (auditGaps s) := by
  unfold auditGaps
  refine Kept_foldl (fun s0 x1 hs0 => ?_) ?_
  · extract_lets l2
    clear_value l2
    grind [audit_kept, Kept_foldl2, Kept_mk]
  · assumption

theorem execRomBoot_kept {Q : List Instr} {flashAnswers : Bool} {s : State} (hs : Kept Q s) :
    KeptRes Q (execRomBoot flashAnswers s) := by
  unfold execRomBoot
  extract_lets l0 l1 l2 l3 l4 l5 l6 l7 l8
  clear_value l0 l1
  have hl2 : Kept Q l2 := by
    grind [checkCerts_kept, intentScan_kept, setLcBoot_kept, wr_kept, auditGaps_kept, enterRecovery_kept, KeptRes_next, KeptRes_fault, Kept_mk]
  clear_value l2
  have hl3 : Kept Q l3 := by
    grind [checkCerts_kept, intentScan_kept, setLcBoot_kept, wr_kept, auditGaps_kept, enterRecovery_kept, KeptRes_next, KeptRes_fault, Kept_mk]
  clear_value l3
  have hl4 : Kept Q l4 := by
    grind [checkCerts_kept, intentScan_kept, setLcBoot_kept, wr_kept, auditGaps_kept, enterRecovery_kept, KeptRes_next, KeptRes_fault, Kept_mk]
  clear_value l4 l5 l6 l7 l8
  grind [checkCerts_kept, intentScan_kept, setLcBoot_kept, wr_kept, auditGaps_kept, enterRecovery_kept, KeptRes_next, KeptRes_fault, Kept_mk]

theorem setPhase_kept {Q : List Instr} {s : State} {ph : BootPhase} (hs : Kept Q s) :
    Kept Q (setPhase s ph) := by
  unfold setPhase
  extract_lets l0
  clear_value l0
  refine Kept_upd (s := s) ?_ rfl rfl rfl rfl
  assumption

theorem pagesUp_kept {Q : List Instr} {s : State} {l : List Nat} (hs : Kept Q s) :
    Kept Q (pagesUp s l) := by
  unfold pagesUp
  refine Kept_foldl (fun s0 x1 hs0 => ?_) ?_
  · grind [pageUp_kept, Kept_foldl2, Kept_mk]
  · assumption

theorem execSettings_kept {Q : List Instr} {s : State} (hs : Kept Q s) :
    KeptRes Q (execSettings s) := by
  unfold execSettings
  extract_lets l0 l1 l2
  clear_value l0 l1
  have hl2 : Kept Q l2 := by
    grind [setPhase_kept, pagesUp_kept, KeptRes_next, KeptRes_fault, Kept_mk]
  clear_value l2
  grind [setPhase_kept, pagesUp_kept, KeptRes_next, KeptRes_fault, Kept_mk]

theorem trainPage_kept {Q : List Instr} {s : State} {p : Nat} (hs : Kept Q s) :
    Kept Q (trainPage s p) := by
  unfold trainPage
  grind [setState_kept, wb_kept, Kept_mk]

theorem trainSite_kept {Q : List Instr} {s : State} {t : Nat} {up : Bool} (hs : Kept Q s) :
    Kept Q (trainSite s t up) := by
  unfold trainSite
  extract_lets l0
  have hl0 : Kept Q l0 := by
    grind [trainStart_kept, wb_kept, emit_kept, moveSite_kept, Kept_mk]
  clear_value l0
  grind [trainStart_kept, wb_kept, emit_kept, moveSite_kept, Kept_mk]

theorem execTrainingPhase_kept {Q : List Instr} {shortFail sidebandUp : Nat} {s : State} (hs : Kept Q s) :
    KeptRes Q (execTrainingPhase shortFail sidebandUp s) := by
  unfold execTrainingPhase
  extract_lets l0 l1 l2 l3 l4 l5 l6 l7 l8 l9 l10
  clear_value l0 l1 l2 l3 l4 l5 l6
  have hl7 : Kept Q l7 := by
    grind [trainPage_kept, setState_kept, trainSite_kept, setPhase_kept, Kept_foldl2, KeptRes_next, KeptRes_fault, Kept_mk]
  clear_value l7
  have hl8 : Kept Q l8 := by
    unfold l8
    refine Kept_foldl (fun s11 x12 hs11 => ?_) ?_
    · extract_lets l13
      have hl13 : Kept Q l13 := by
        grind [trainPage_kept, setState_kept, trainSite_kept, setPhase_kept, Kept_foldl2, KeptRes_next, KeptRes_fault, Kept_mk]
      clear_value l13
      grind [trainPage_kept, setState_kept, trainSite_kept, setPhase_kept, Kept_foldl2, KeptRes_next, KeptRes_fault, Kept_mk]
    · assumption
  clear_value l8
  have hl9 : Kept Q l9 := by
    unfold l9
    refine Kept_foldl (fun s14 x15 hs14 => ?_) ?_
    · grind [trainPage_kept, setState_kept, trainSite_kept, setPhase_kept, Kept_foldl2, KeptRes_next, KeptRes_fault, Kept_mk]
    · assumption
  clear_value l9
  have hl10 : Kept Q l10 := by
    grind [trainPage_kept, setState_kept, trainSite_kept, setPhase_kept, Kept_foldl2, KeptRes_next, KeptRes_fault, Kept_mk]
  clear_value l10
  grind [trainPage_kept, setState_kept, trainSite_kept, setPhase_kept, Kept_foldl2, KeptRes_next, KeptRes_fault, Kept_mk]

theorem hardRepairs_kept {Q : List Instr} {s : State} (hs : Kept Q s) :
    Kept Q (hardRepairs s) := by
  unfold hardRepairs
  refine Kept_foldl (fun s0 x1 hs0 => ?_) ?_
  · extract_lets l2
    clear_value l2
    split
    · assumption
    · refine Kept_upd (s := s0) ?_ rfl rfl rfl rfl
      assumption
  · assumption

theorem reloadTables_kept {Q : List Instr} {s : State} (hs : Kept Q s) :
    Kept Q (reloadTables s) := by
  unfold reloadTables
  extract_lets l0 l1 l2
  have hl0 : Kept Q l0 := by
    repeat' first | assumption | with_reducible apply Kept_ite | with_reducible apply hardRepairs_kept | with_reducible apply wr_kept | with_reducible refine Kept_foldl (fun _ _ _ => ?_) ?_
  clear_value l0 l1
  have hl2 : Kept Q l2 := by
    repeat' first | assumption | with_reducible apply Kept_ite | with_reducible apply hardRepairs_kept | with_reducible apply wr_kept | with_reducible refine Kept_foldl (fun _ _ _ => ?_) ?_
  clear_value l2
  repeat' first | assumption | with_reducible apply Kept_ite | with_reducible apply hardRepairs_kept | with_reducible apply wr_kept | with_reducible refine Kept_foldl (fun _ _ _ => ?_) ?_

theorem applyQuay_kept {Q : List Instr} {s : State} {b : Nat × Nat} (hs : Kept Q s) :
    Kept Q (applyQuay s b) := by
  unfold applyQuay
  extract_lets l0
  clear_value l0
  grind [wf_kept, wb_kept, raiseEvt_kept, countError_kept, Kept_mk]

theorem applyModule_kept {Q : List Instr} {s : State} {b : Nat × Nat} (hs : Kept Q s) :
    Kept Q (applyModule s b) := by
  unfold applyModule
  extract_lets l0 l1 l2 l3
  clear_value l0 l1
  have hl2 : Kept Q l2 := by
    grind [setSite_kept, wb_kept, wf_kept, Kept_mk]
  clear_value l2
  have hl3 : Kept Q l3 := by
    grind [setSite_kept, wb_kept, wf_kept, Kept_mk]
  clear_value l3
  grind [setSite_kept, wb_kept, wf_kept, Kept_mk]

theorem applyCache_kept {Q : List Instr} {s : State} {b : Nat × Nat} (hs : Kept Q s) :
    Kept Q (applyCache s b) := by
  unfold applyCache
  extract_lets l0 l1 l2
  clear_value l0 l1 l2
  split
  · assumption
  · split
    · grind [wf_kept, wb_kept, setState_kept, Kept_mk]
    · grind [wf_kept, wb_kept, setState_kept, Kept_mk]

theorem loseMap_kept {Q : List Instr} {s : State} (hs : Kept Q s) :
    Kept Q (loseMap s) := by
  unfold loseMap
  extract_lets l0 l1
  clear_value l0 l1
  grind [countError_kept, Kept_mk]

theorem execDefects_kept {Q : List Instr} {mapOk : Bool} {s : State} (hs : Kept Q s) :
    KeptRes Q (execDefects mapOk s) := by
  unfold execDefects
  extract_lets l0 l1 l2 l3 l4 l5 l6 l7 l8 l9
  clear_value l0
  have hl1 : Kept Q l1 := by
    grind [loseMap_kept, applyQuay_kept, reloadTables_kept, applyCache_kept, applyModule_kept, setPhase_kept, pagesUp_kept, Kept_foldl2, KeptRes_next, KeptRes_fault, Kept_mk]
  clear_value l1
  have hl2 : Kept Q l2 := by
    grind [loseMap_kept, applyQuay_kept, reloadTables_kept, applyCache_kept, applyModule_kept, setPhase_kept, pagesUp_kept, Kept_foldl2, KeptRes_next, KeptRes_fault, Kept_mk]
  clear_value l2 l3 l4
  have hl5 : Kept Q l5 := by
    unfold l5
    refine Kept_upd (s := l2) ?_ rfl rfl rfl rfl
    assumption
  clear_value l5 l6
  have hl7 : Kept Q l7 := by
    unfold l7
    refine Kept_foldl (fun s10 x11 hs10 => ?_) ?_
    · grind [loseMap_kept, applyQuay_kept, reloadTables_kept, applyCache_kept, applyModule_kept, setPhase_kept, pagesUp_kept, Kept_foldl2, KeptRes_next, KeptRes_fault, Kept_mk]
    · refine Kept_upd (s := l5) ?_ rfl rfl rfl rfl
      assumption
  clear_value l7
  have hl8 : Kept Q l8 := by
    grind [loseMap_kept, applyQuay_kept, reloadTables_kept, applyCache_kept, applyModule_kept, setPhase_kept, pagesUp_kept, Kept_foldl2, KeptRes_next, KeptRes_fault, Kept_mk]
  clear_value l8
  have hl9 : Kept Q l9 := by
    unfold l9
    split
    · assumption
    · refine Kept_foldl (fun s12 x13 hs12 => ?_) ?_
      · grind [loseMap_kept, applyQuay_kept, reloadTables_kept, applyCache_kept, applyModule_kept, setPhase_kept, pagesUp_kept, Kept_foldl2, KeptRes_next, KeptRes_fault, Kept_mk]
      · refine Kept_foldl (fun s14 x15 hs14 => ?_) ?_
        · grind [loseMap_kept, applyQuay_kept, reloadTables_kept, applyCache_kept, applyModule_kept, setPhase_kept, pagesUp_kept, Kept_foldl2, KeptRes_next, KeptRes_fault, Kept_mk]
        · assumption
  clear_value l9
  grind [loseMap_kept, applyQuay_kept, reloadTables_kept, applyCache_kept, applyModule_kept, setPhase_kept, pagesUp_kept, Kept_foldl2, KeptRes_next, KeptRes_fault, Kept_mk]

theorem answer_kept {Q : List Instr} {s : State} {u cmd : Nat} (hs : Kept Q s) :
    Kept Q (answer s u cmd) := by
  unfold answer
  extract_lets l0 l1
  clear_value l0 l1
  refine Kept_upd (s := s) ?_ rfl rfl rfl rfl
  assumption

theorem unitFails_kept {Q : List Instr} {s : State} {u : Nat} (hs : Kept Q s) :
    Kept Q (unitFails s u) := by
  unfold unitFails
  extract_lets l0 l1 l2 l3 l4 l5
  clear_value l0 l1 l2
  have hl3 : Kept Q l3 := by
    grind [finishEngine_kept, Kept_mk]
  clear_value l3 l4 l5
  grind [finishEngine_kept, Kept_mk]

theorem execRomCheck_kept {Q : List Instr} {u : Nat} {value : Word} {s : State} (hs : Kept Q s) :
    KeptRes Q (execRomCheck u value s) := by
  unfold execRomCheck
  extract_lets l0
  have hl0 : Kept Q l0 := by
    grind [answer_kept, unitFails_kept, KeptRes_next, KeptRes_fault, Kept_mk]
  clear_value l0
  grind [answer_kept, unitFails_kept, KeptRes_next, KeptRes_fault, Kept_mk]

theorem execSelfTest_kept {Q : List Instr} {u : Nat} {pass : Bool} {s : State} (hs : Kept Q s) :
    KeptRes Q (execSelfTest u pass s) := by
  unfold execSelfTest
  extract_lets l0
  have hl0 : Kept Q l0 := by
    grind [answer_kept, unitFails_kept, KeptRes_next, KeptRes_fault, Kept_mk]
  clear_value l0
  grind [answer_kept, unitFails_kept, KeptRes_next, KeptRes_fault, Kept_mk]

theorem execClear_kept {Q : List Instr} {u : Nat} {s : State} (hs : Kept Q s) :
    KeptRes Q (execClear u s) := by
  unfold execClear
  refine KeptRes_next ?_
  grind [answer_kept, KeptRes_next, KeptRes_fault, Kept_mk]

theorem execBroadcastAnswerTimeout_kept {Q : List Instr} {u : Nat} {s : State} (hs : Kept Q s) :
    KeptRes Q (execBroadcastAnswerTimeout u s) := by
  unfold execBroadcastAnswerTimeout
  refine KeptRes_next ?_
  grind [unitFails_kept, KeptRes_next, KeptRes_fault, Kept_mk]

theorem buildCluster_kept {Q : List Instr} {s : State} {c : Nat} (hs : Kept Q s) :
    Kept Q (buildCluster s c) := by
  unfold buildCluster
  extract_lets l0 l1 l2
  clear_value l0 l1
  have hl2 : Kept Q l2 := by
    unfold l2
    refine Kept_foldl (fun s3 x4 hs3 => ?_) ?_
    · extract_lets l5
      have hl5 : Kept Q l5 := by
        grind [setMap_kept, setCore_kept, wb_kept, Kept_foldl2, Kept_mk]
      clear_value l5
      grind [setMap_kept, setCore_kept, wb_kept, Kept_foldl2, Kept_mk]
    · assumption
  clear_value l2
  grind [setMap_kept, setCore_kept, wb_kept, Kept_foldl2, Kept_mk]

theorem fenceKnown_kept {Q : List Instr} {s : State} {e : Nat} (hs : Kept Q s) :
    Kept Q (fenceKnown s e) := by
  unfold fenceKnown
  grind [setState_kept, Kept_mk]

theorem execCores_kept {Q : List Instr} {s : State} (hs : Kept Q s) :
    KeptRes Q (execCores s) := by
  unfold execCores
  extract_lets l0 l1 l2 l3
  have hl0 : Kept Q l0 := by
    unfold l0
    refine Kept_foldl (fun s4 x5 hs4 => ?_) ?_
    · grind [unitFails_kept, fenceKnown_kept, buildCluster_kept, castFlits_kept, pagesUp_kept, setPhase_kept, Kept_foldl2, KeptRes_next, KeptRes_fault, Kept_mk]
    · assumption
  clear_value l0
  have hl1 : Kept Q l1 := by
    unfold l1
    split
    · assumption
    · refine Kept_foldl (fun s6 x7 hs6 => ?_) ?_
      · grind [unitFails_kept, fenceKnown_kept, buildCluster_kept, castFlits_kept, pagesUp_kept, setPhase_kept, Kept_foldl2, KeptRes_next, KeptRes_fault, Kept_mk]
      · refine Kept_foldl (fun s8 x9 hs8 => ?_) ?_
        · grind [unitFails_kept, fenceKnown_kept, buildCluster_kept, castFlits_kept, pagesUp_kept, setPhase_kept, Kept_foldl2, KeptRes_next, KeptRes_fault, Kept_mk]
        · assumption
  clear_value l1
  have hl2 : Kept Q l2 := by
    grind [unitFails_kept, fenceKnown_kept, buildCluster_kept, castFlits_kept, pagesUp_kept, setPhase_kept, Kept_foldl2, KeptRes_next, KeptRes_fault, Kept_mk]
  clear_value l2
  have hl3 : Kept Q l3 := by
    grind [unitFails_kept, fenceKnown_kept, buildCluster_kept, castFlits_kept, pagesUp_kept, setPhase_kept, Kept_foldl2, KeptRes_next, KeptRes_fault, Kept_mk]
  clear_value l3
  grind [unitFails_kept, fenceKnown_kept, buildCluster_kept, castFlits_kept, pagesUp_kept, setPhase_kept, Kept_foldl2, KeptRes_next, KeptRes_fault, Kept_mk]

theorem applyBootCfg_kept {Q : List Instr} {s : State} {r : Bytes} (hs : Kept Q s) :
    Kept Q (applyBootCfg s r) := by
  unfold applyBootCfg
  extract_lets l0 l1 l2 l3 l4 l5
  clear_value l0
  have hl1 : Kept Q l1 := by
    unfold l1
    refine Kept_foldl (fun s6 x7 hs6 => ?_) ?_
    · repeat' first | assumption | with_reducible apply wf_kept | with_reducible refine Kept_foldl (fun _ _ _ => ?_) ?_
    · assumption
  clear_value l1
  have hl2 : Kept Q l2 := by
    unfold l2
    refine Kept_foldl (fun s8 x9 hs8 => ?_) ?_
    · extract_lets l10
      clear_value l10
      repeat' first | assumption | with_reducible apply wf_kept | with_reducible refine Kept_foldl (fun _ _ _ => ?_) ?_
    · assumption
  clear_value l2
  have hl3 : Kept Q l3 := by
    repeat' first | assumption | with_reducible apply wf_kept | with_reducible refine Kept_foldl (fun _ _ _ => ?_) ?_
  clear_value l3
  have hl4 : Kept Q l4 := by
    repeat' first | assumption | with_reducible apply wf_kept | with_reducible refine Kept_foldl (fun _ _ _ => ?_) ?_
  clear_value l4
  have hl5 : Kept Q l5 := by
    unfold l5
    refine Kept_foldl (fun s11 x12 hs11 => ?_) ?_
    · extract_lets l13
      clear_value l13
      repeat' first | assumption | with_reducible apply wf_kept | with_reducible refine Kept_foldl (fun _ _ _ => ?_) ?_
    · assumption
  clear_value l5
  repeat' first | assumption | with_reducible apply wf_kept | with_reducible refine Kept_foldl (fun _ _ _ => ?_) ?_

theorem strictEvents_kept {Q : List Instr} {s : State} (hs : Kept Q s) :
    Kept Q (strictEvents s) := by
  unfold strictEvents
  refine Kept_foldl (fun s0 x1 hs0 => ?_) ?_
  · grind [raiseEvt_kept, Kept_foldl2, Kept_mk]
  · assumption

theorem execRoutes_kept {Q : List Instr} {timing0 timing1 : List Word} {routes : List (Nat × Nat × Nat)} {s : State} (hs : Kept Q s) :
    KeptRes Q (execRoutes timing0 timing1 routes s) := by
  unfold execRoutes
  extract_lets l0 l1 l2 l3 l4 l5 l6
  clear_value l0 l1
  have hl2 : Kept Q l2 := by
    grind [wb_kept, wr_kept, strictEvents_kept, applyBootCfg_kept, updIso_kept, setPhase_kept, Kept_foldl2, KeptRes_next, KeptRes_fault, Kept_mk]
  clear_value l2
  have hl3 : Kept Q l3 := by
    grind [wb_kept, wr_kept, strictEvents_kept, applyBootCfg_kept, updIso_kept, setPhase_kept, Kept_foldl2, KeptRes_next, KeptRes_fault, Kept_mk]
  clear_value l3
  have hl4 : Kept Q l4 := by
    unfold l4
    refine Kept_foldl (fun s7 x8 hs7 => ?_) ?_
    · extract_lets l9
      have hl9 : Kept Q l9 := by
        grind [wb_kept, wr_kept, strictEvents_kept, applyBootCfg_kept, updIso_kept, setPhase_kept, Kept_foldl2, KeptRes_next, KeptRes_fault, Kept_mk]
      clear_value l9
      grind [wb_kept, wr_kept, strictEvents_kept, applyBootCfg_kept, updIso_kept, setPhase_kept, Kept_foldl2, KeptRes_next, KeptRes_fault, Kept_mk]
    · assumption
  clear_value l4
  have hl5 : Kept Q l5 := by
    grind [wb_kept, wr_kept, strictEvents_kept, applyBootCfg_kept, updIso_kept, setPhase_kept, Kept_foldl2, KeptRes_next, KeptRes_fault, Kept_mk]
  clear_value l5
  have hl6 : Kept Q l6 := by
    unfold l6
    refine Kept_foldl (fun s10 x11 hs10 => ?_) ?_
    · grind [wb_kept, wr_kept, strictEvents_kept, applyBootCfg_kept, updIso_kept, setPhase_kept, Kept_foldl2, KeptRes_next, KeptRes_fault, Kept_mk]
    · assumption
  clear_value l6
  grind [wb_kept, wr_kept, strictEvents_kept, applyBootCfg_kept, updIso_kept, setPhase_kept, Kept_foldl2, KeptRes_next, KeptRes_fault, Kept_mk]

theorem execScrubPhase_kept {Q : List Instr} {s : State} (hs : Kept Q s) :
    KeptRes Q (execScrubPhase s) := by
  unfold execScrubPhase
  refine KeptRes_next ?_
  split
  · refine Kept_foldl (fun s0 x1 hs0 => ?_) ?_
    · grind [beginScrub_kept, Kept_foldl2, KeptRes_next, KeptRes_fault, Kept_mk]
    · assumption
  · assumption

theorem execBringupEnd_kept {Q : List Instr} {s : State} (hs : Kept Q s) :
    KeptRes Q (execBringupEnd s) := by
  unfold execBringupEnd
  extract_lets l0 l1 l2
  clear_value l0 l1
  have hl2 : Kept Q l2 := by
    repeat' first | assumption | with_reducible apply Kept_ite | with_reducible apply KeptRes_next | with_reducible apply raiseEvt_kept | with_reducible refine Kept_foldl (fun _ _ _ => ?_) ?_
  clear_value l2
  repeat' first | assumption | with_reducible apply Kept_ite | with_reducible apply KeptRes_next | with_reducible apply raiseEvt_kept | with_reducible refine Kept_foldl (fun _ _ _ => ?_) ?_

theorem testAccess_kept {Q : List Instr} {s : State} (hs : Kept Q s) :
    Kept Q (testAccess s) := by
  unfold testAccess
  extract_lets l0
  have hl0 : Kept Q l0.2 := by
    grind [draw_kept, audit_kept, Kept_mk]
  clear_value l0
  grind [draw_kept, audit_kept, Kept_mk]

theorem imgDone_kept {Q : List Instr} {s : State} {code status : Nat} {body : Bytes} (hs : Kept Q s) :
    Kept Q (imgDone s code status body) := by
  unfold imgDone
  grind [reply_kept, Kept_mk]

theorem imgFails_kept {Q : List Instr} {s : State} {code : Nat} (hs : Kept Q s) :
    Kept Q (imgFails s code) := by
  unfold imgFails
  grind [imgDone_kept, countError_kept, Kept_mk]

theorem execImgBegin_kept {Q : List Instr} {flashOk : Bool} {s : State} (hs : Kept Q s) :
    KeptRes Q (execImgBegin flashOk s) := by
  unfold execImgBegin
  refine KeptRes_next ?_
  split
  · grind [onTaken_kept, imgDone_kept, reject_kept, imgFails_kept, testAccess_kept, KeptRes_next, KeptRes_fault, Kept_mk]
  · grind [onTaken_kept, imgDone_kept, reject_kept, imgFails_kept, testAccess_kept, KeptRes_next, KeptRes_fault, Kept_mk]

theorem execImgChunk_kept {Q : List Instr} {flashOk : Bool} {s : State} (hs : Kept Q s) :
    KeptRes Q (execImgChunk flashOk s) := by
  unfold execImgChunk
  refine KeptRes_next ?_
  split
  · grind [onTaken_kept, imgDone_kept, reject_kept, imgFails_kept, KeptRes_next, KeptRes_fault, Kept_mk]
  · grind [onTaken_kept, imgDone_kept, reject_kept, imgFails_kept, KeptRes_next, KeptRes_fault, Kept_mk]

theorem execImgCommit_kept {Q : List Instr} {s : State} (hs : Kept Q s) :
    KeptRes Q (execImgCommit s) := by
  unfold execImgCommit
  refine KeptRes_next ?_
  grind [onTaken_kept, imgDone_kept, reject_kept, testAccess_kept, KeptRes_next, KeptRes_fault, Kept_mk]

theorem tuiner_kept {Q : List Instr} {s : State} {f code : Nat} {f0 : Bool} {sub : Option Nat} {k : State → Bytes → State} (hs : Kept Q s) (hk : ∀ y0 y1, Kept Q y0 → Kept Q (k y0 y1)) :
    Kept Q (tuiner s f code f0 sub k) := by
  unfold tuiner
  grind [onTaken_kept, reply_kept, reject_kept, Kept_mk]

theorem execBootStatus_kept {Q : List Instr} {f : Nat} {s : State} (hs : Kept Q s) :
    KeptRes Q (execBootStatus f s) := by
  unfold execBootStatus
  refine KeptRes_next ?_
  grind [tuiner_kept, reply_kept, KeptRes_next, KeptRes_fault, Kept_mk]

theorem execForceFullTraining_kept {Q : List Instr} {f : Nat} {s : State} (hs : Kept Q s) :
    KeptRes Q (execForceFullTraining f s) := by
  unfold execForceFullTraining
  refine KeptRes_next ?_
  grind [tuiner_kept, reply_kept, KeptRes_next, KeptRes_fault, Kept_mk]

theorem execBadPagesBegin_kept {Q : List Instr} {f : Nat} {s : State} (hs : Kept Q s) :
    KeptRes Q (execBadPagesBegin f s) := by
  unfold execBadPagesBegin
  refine KeptRes_next ?_
  grind [tuiner_kept, reply_kept, KeptRes_next, KeptRes_fault, Kept_mk]

theorem execBadPagesAppend_kept {Q : List Instr} {f : Nat} {s : State} (hs : Kept Q s) :
    KeptRes Q (execBadPagesAppend f s) := by
  unfold execBadPagesAppend
  refine KeptRes_next ?_
  grind [tuiner_kept, reply_kept, reject_kept, KeptRes_next, KeptRes_fault, Kept_mk]

theorem execBadPagesCommit_kept {Q : List Instr} {f : Nat} {s : State} (hs : Kept Q s) :
    KeptRes Q (execBadPagesCommit f s) := by
  unfold execBadPagesCommit
  refine KeptRes_next ?_
  grind [tuiner_kept, reply_kept, reject_kept, KeptRes_next, KeptRes_fault, Kept_mk]

theorem execShutdown_kept {Q : List Instr} {f : Nat} {s : State} (hs : Kept Q s) :
    KeptRes Q (execShutdown f s) := by
  unfold execShutdown
  refine KeptRes_next ?_
  grind [tuiner_kept, mirrorAudit_kept, saveSeconds_kept, reply_kept, KeptRes_next, KeptRes_fault, Kept_mk]

theorem execBootConfigRead_kept {Q : List Instr} {f : Nat} {s : State} (hs : Kept Q s) :
    KeptRes Q (execBootConfigRead f s) := by
  unfold execBootConfigRead
  refine KeptRes_next ?_
  grind [tuiner_kept, reply_kept, KeptRes_next, KeptRes_fault, Kept_mk]

theorem execBootConfigWrite_kept {Q : List Instr} {f : Nat} {s : State} (hs : Kept Q s) :
    KeptRes Q (execBootConfigWrite f s) := by
  unfold execBootConfigWrite
  refine KeptRes_next ?_
  grind [tuiner_kept, reply_kept, KeptRes_next, KeptRes_fault, Kept_mk]

theorem countBusy_kept {Q : List Instr} {s : State} {e : Nat} (hs : Kept Q s) :
    Kept Q (countBusy s e) := by
  unfold countBusy
  extract_lets l0 l1
  clear_value l0
  have hl1 : Kept Q l1 := by
    grind [addReg_kept, Kept_mk]
  clear_value l1
  grind [addReg_kept, Kept_mk]

theorem tick_kept {Q : List Instr} {s : State} (hs : Kept Q s) :
    Kept Q (tick s) := by
  unfold tick
  split
  · apply settleManifest_kept
    refine Kept_foldl (fun s0 x1 hs0 => ?_) ?_
    · grind [settleManifest_kept, countBusy_kept, addReg_kept, tickFabric_kept, Kept_foldl2, Kept_mk]
    · grind [settleManifest_kept, countBusy_kept, addReg_kept, tickFabric_kept, Kept_foldl2, Kept_mk]
  · assumption

end Sys2Proof.Machine
end

