-- ==== Sys2Proof/Laws/KeptPages.lean ====
section
/-!
SUPPORT. What Machine/Pages.lean does keeps the canonical form and the queue.
-/

set_option Elab.async false

namespace Sys2Proof.Machine

open Sys2Proof

theorem returnWork_kept {Q : List Instr} {s : State} {mine : Work → Bool} (hs : Kept Q s) :
    Kept Q (returnWork s mine) := by
  unfold returnWork
  grind [rerun_kept, Kept_mk]

theorem resetCluster_kept {Q : List Instr} {s : State} {c : Nat} (hs : Kept Q s) :
    Kept Q (resetCluster s c) := by
  unfold resetCluster
  extract_lets l0
  have hl0 : Kept Q l0 := by
    unfold l0
    refine Kept_foldl (fun s1 x2 hs1 => ?_) ?_
    · grind [drainFence_kept, endTest_kept, resetPageRegs_kept, returnWork_kept, Kept_foldl2, Kept_mk]
    · assumption
  clear_value l0
  grind [drainFence_kept, endTest_kept, resetPageRegs_kept, returnWork_kept, Kept_foldl2, Kept_mk]

theorem resetEngine_kept {Q : List Instr} {s : State} {e : Nat} (hs : Kept Q s) :
    Kept Q (resetEngine s e) := by
  unfold resetEngine
  extract_lets l0
  have hl0 : Kept Q l0 := by
    unfold l0
    refine Kept_foldl (fun s1 x2 hs1 => ?_) ?_
    · grind [finishEngine_kept, resetPageRegs_kept, returnWork_kept, Kept_foldl2, Kept_mk]
    · assumption
  clear_value l0
  grind [finishEngine_kept, resetPageRegs_kept, returnWork_kept, Kept_foldl2, Kept_mk]

theorem resetSched_kept {Q : List Instr} {s : State} {k : Nat} (hs : Kept Q s) :
    Kept Q (resetSched s k) := by
  unfold resetSched
  extract_lets l0
  have hl0 : Kept Q l0 := by
    grind [resetPageRegs_kept, freeContexts_kept, killContexts_kept, Kept_mk]
  clear_value l0
  grind [resetPageRegs_kept, freeContexts_kept, killContexts_kept, Kept_mk]

theorem resetMc_kept {Q : List Instr} {s : State} {m : Nat} (hs : Kept Q s) :
    Kept Q (resetMc s m) := by
  unfold resetMc
  extract_lets l0
  clear_value l0
  grind [runHeld_kept, resetPageRegs_kept, Kept_mk]

theorem resetManifest_kept {Q : List Instr} {s : State} {k : Nat} (hs : Kept Q s) :
    Kept Q (resetManifest s k) := by
  unfold resetManifest
  grind [clearCounters_kept, endFaults_kept, Kept_mk]

theorem resetI3c_kept {Q : List Instr} {s : State} (hs : Kept Q s) :
    Kept Q (resetI3c s) := by
  unfold resetI3c
  extract_lets l0 l1
  clear_value l0
  have hl1 : Kept Q l1 := by
    grind [resetPageRegs_kept, raiseEvt_kept, Kept_mk]
  clear_value l1
  grind [resetPageRegs_kept, raiseEvt_kept, Kept_mk]

theorem resetBlockState_kept {Q : List Instr} {s : State} {p : Nat} (hs : Kept Q s) :
    Kept Q (resetBlockState s p) := by
  unfold resetBlockState
  extract_lets l0 l1 l2
  clear_value l0 l1 l2
  split
  · grind [resetCluster_kept, resetEngine_kept, resetSched_kept, resetManifest_kept, resetMc_kept, resetChan_kept, runHeld_kept, resetPageRegs_kept, clearMbx_kept, resetI3c_kept, pcieDown_kept, Kept_foldl2, Kept_mk]
  · grind [resetCluster_kept, resetEngine_kept, resetSched_kept, resetManifest_kept, resetMc_kept, resetChan_kept, runHeld_kept, resetPageRegs_kept, clearMbx_kept, resetI3c_kept, pcieDown_kept, Kept_foldl2, Kept_mk]
  · grind [resetCluster_kept, resetEngine_kept, resetSched_kept, resetManifest_kept, resetMc_kept, resetChan_kept, runHeld_kept, resetPageRegs_kept, clearMbx_kept, resetI3c_kept, pcieDown_kept, Kept_foldl2, Kept_mk]
  · grind [resetCluster_kept, resetEngine_kept, resetSched_kept, resetManifest_kept, resetMc_kept, resetChan_kept, runHeld_kept, resetPageRegs_kept, clearMbx_kept, resetI3c_kept, pcieDown_kept, Kept_foldl2, Kept_mk]
  · grind [resetCluster_kept, resetEngine_kept, resetSched_kept, resetManifest_kept, resetMc_kept, resetChan_kept, runHeld_kept, resetPageRegs_kept, clearMbx_kept, resetI3c_kept, pcieDown_kept, Kept_foldl2, Kept_mk]
  · grind [resetCluster_kept, resetEngine_kept, resetSched_kept, resetManifest_kept, resetMc_kept, resetChan_kept, runHeld_kept, resetPageRegs_kept, clearMbx_kept, resetI3c_kept, pcieDown_kept, Kept_foldl2, Kept_mk]
  · grind [resetCluster_kept, resetEngine_kept, resetSched_kept, resetManifest_kept, resetMc_kept, resetChan_kept, runHeld_kept, resetPageRegs_kept, clearMbx_kept, resetI3c_kept, pcieDown_kept, Kept_foldl2, Kept_mk]
  · grind [resetCluster_kept, resetEngine_kept, resetSched_kept, resetManifest_kept, resetMc_kept, resetChan_kept, runHeld_kept, resetPageRegs_kept, clearMbx_kept, resetI3c_kept, pcieDown_kept, Kept_foldl2, Kept_mk]
  · apply resetPageRegs_kept
    refine Kept_foldl (fun s3 x4 hs3 => ?_) ?_
    · grind [resetCluster_kept, resetEngine_kept, resetSched_kept, resetManifest_kept, resetMc_kept, resetChan_kept, runHeld_kept, resetPageRegs_kept, clearMbx_kept, resetI3c_kept, pcieDown_kept, Kept_foldl2, Kept_mk]
    · assumption
  · grind [resetCluster_kept, resetEngine_kept, resetSched_kept, resetManifest_kept, resetMc_kept, resetChan_kept, runHeld_kept, resetPageRegs_kept, clearMbx_kept, resetI3c_kept, pcieDown_kept, Kept_foldl2, Kept_mk]
  · grind [resetCluster_kept, resetEngine_kept, resetSched_kept, resetManifest_kept, resetMc_kept, resetChan_kept, runHeld_kept, resetPageRegs_kept, clearMbx_kept, resetI3c_kept, pcieDown_kept, Kept_foldl2, Kept_mk]
  · grind [resetCluster_kept, resetEngine_kept, resetSched_kept, resetManifest_kept, resetMc_kept, resetChan_kept, runHeld_kept, resetPageRegs_kept, clearMbx_kept, resetI3c_kept, pcieDown_kept, Kept_foldl2, Kept_mk]
  · grind [resetCluster_kept, resetEngine_kept, resetSched_kept, resetManifest_kept, resetMc_kept, resetChan_kept, runHeld_kept, resetPageRegs_kept, clearMbx_kept, resetI3c_kept, pcieDown_kept, Kept_foldl2, Kept_mk]
  · grind [resetCluster_kept, resetEngine_kept, resetSched_kept, resetManifest_kept, resetMc_kept, resetChan_kept, runHeld_kept, resetPageRegs_kept, clearMbx_kept, resetI3c_kept, pcieDown_kept, Kept_foldl2, Kept_mk]
  · assumption

theorem resetPage_kept {Q : List Instr} {s : State} {p : Nat} {en : Bool} (hs : Kept Q s) :
    Kept Q (resetPage s p en) := by
  unfold resetPage
  extract_lets l0 l1 l2 l3
  have hl0 : Kept Q l0 := by
    grind [wf_kept, resetSite_kept, moveSite_kept, updIso_kept, resetBlockState_kept, setState_kept, settleResets_kept, Kept_mk]
  clear_value l0
  have hl1 : Kept Q l1 := by
    grind [wf_kept, resetSite_kept, moveSite_kept, updIso_kept, resetBlockState_kept, setState_kept, settleResets_kept, Kept_mk]
  clear_value l1
  have hl2 : Kept Q l2 := by
    grind [wf_kept, resetSite_kept, moveSite_kept, updIso_kept, resetBlockState_kept, setState_kept, settleResets_kept, Kept_mk]
  clear_value l2 l3
  grind [wf_kept, resetSite_kept, moveSite_kept, updIso_kept, resetBlockState_kept, setState_kept, settleResets_kept, Kept_mk]

theorem enablePage_kept {Q : List Instr} {s : State} {p : Nat} (hs : Kept Q s) :
    Kept Q (enablePage s p) := by
  unfold enablePage
  extract_lets l0
  have hl0 : Kept Q l0 := by
    grind [setState_kept, wb_kept, trainStart_kept, Kept_mk]
  clear_value l0
  grind [setState_kept, wb_kept, trainStart_kept, Kept_mk]

theorem disablePage_kept {Q : List Instr} {s : State} {p : Nat} (hs : Kept Q s) :
    Kept Q (disablePage s p) := by
  unfold disablePage
  extract_lets l0 l1 l2
  have hl0 : Kept Q l0 := by
    grind [wb_kept, moveSite_kept, dropSite_kept, setState_kept, pcieDown_kept, Kept_mk]
  clear_value l0 l1
  have hl2 : Kept Q l2 := by
    grind [wb_kept, moveSite_kept, dropSite_kept, setState_kept, pcieDown_kept, Kept_mk]
  clear_value l2
  grind [wb_kept, moveSite_kept, dropSite_kept, setState_kept, pcieDown_kept, Kept_mk]

theorem writeCtl_kept {Q : List Instr} {s : State} {p : Nat} {v : Word} (hs : Kept Q s) :
    Kept Q (writeCtl s p v) := by
  unfold writeCtl
  split
  · split
    · grind [guarded_kept, wr_kept, resetPage_kept, wb_kept, enablePage_kept, disablePage_kept, wakeSites_kept, setState_kept, Kept_mk]
    · grind [guarded_kept, wr_kept, resetPage_kept, wb_kept, enablePage_kept, disablePage_kept, wakeSites_kept, setState_kept, Kept_mk]
  · split
    · grind [guarded_kept, wr_kept, resetPage_kept, wb_kept, enablePage_kept, disablePage_kept, wakeSites_kept, setState_kept, Kept_mk]
    · grind [guarded_kept, wr_kept, resetPage_kept, wb_kept, enablePage_kept, disablePage_kept, wakeSites_kept, setState_kept, Kept_mk]

theorem headerWrite_kept {Q : List Instr} {s : State} {fn p off : Nat} {k : State → State} (hs : Kept Q s) (hk : ∀ y0, Kept Q y0 → Kept Q (k y0)) :
    Kept Q (headerWrite s fn p off k) := by
  unfold headerWrite
  grind [withWrite_kept, reject_kept, Kept_mk]

theorem ctlWrite_kept {Q : List Instr} {s : State} {fn p : Nat} {v : Word} (hs : Kept Q s) :
    Kept Q (ctlWrite s fn p v) := by
  unfold ctlWrite
  grind [headerWrite_kept, writeCtl_kept, Kept_mk]

theorem execPageEnable_kept {Q : List Instr} {fn p : Nat} {v : Word} {s : State} (hs : Kept Q s) :
    KeptRes Q (execPageEnable fn p v s) := by
  unfold execPageEnable
  refine KeptRes_next ?_
  grind [ctlWrite_kept, KeptRes_next, KeptRes_fault, Kept_mk]

theorem execPageDisable_kept {Q : List Instr} {fn p : Nat} {v : Word} {s : State} (hs : Kept Q s) :
    KeptRes Q (execPageDisable fn p v s) := by
  unfold execPageDisable
  refine KeptRes_next ?_
  grind [ctlWrite_kept, KeptRes_next, KeptRes_fault, Kept_mk]

theorem execQuiesceRequest_kept {Q : List Instr} {fn p : Nat} {v : Word} {s : State} (hs : Kept Q s) :
    KeptRes Q (execQuiesceRequest fn p v s) := by
  unfold execQuiesceRequest
  refine KeptRes_next ?_
  grind [ctlWrite_kept, KeptRes_next, KeptRes_fault, Kept_mk]

theorem execQuiesceResume_kept {Q : List Instr} {fn p : Nat} {v : Word} {s : State} (hs : Kept Q s) :
    KeptRes Q (execQuiesceResume fn p v s) := by
  unfold execQuiesceResume
  refine KeptRes_next ?_
  grind [ctlWrite_kept, KeptRes_next, KeptRes_fault, Kept_mk]

theorem execResetReq_kept {Q : List Instr} {fn p : Nat} {v : Word} {s : State} (hs : Kept Q s) :
    KeptRes Q (execResetReq fn p v s) := by
  unfold execResetReq
  refine KeptRes_next ?_
  grind [ctlWrite_kept, KeptRes_next, KeptRes_fault, Kept_mk]

theorem execErrRearm_kept {Q : List Instr} {fn p : Nat} {v : Word} {s : State} (hs : Kept Q s) :
    KeptRes Q (execErrRearm fn p v s) := by
  unfold execErrRearm
  refine KeptRes_next ?_
  grind [ctlWrite_kept, KeptRes_next, KeptRes_fault, Kept_mk]

theorem execQuiesceDrained_kept {Q : List Instr} {p : Nat} {s : State} (hs : Kept Q s) :
    KeptRes Q (execQuiesceDrained p s) := by
  unfold execQuiesceDrained
  refine KeptRes_next ?_
  grind [setState_kept, KeptRes_next, KeptRes_fault, Kept_mk]

theorem execBlockTrained_kept {Q : List Instr} {p : Nat} {s : State} (hs : Kept Q s) :
    KeptRes Q (execBlockTrained p s) := by
  unfold execBlockTrained
  exact KeptRes_next (Kept_ite (setState_kept hs) hs)

theorem writeEvtSet_kept {Q : List Instr} {s : State} {fn p : Nat} {v : Word} (hs : Kept Q s) :
    Kept Q (writeEvtSet s fn p v) := by
  unfold writeEvtSet
  split
  · refine Kept_foldl (fun s0 x1 hs0 => ?_) ?_
    · grind [raiseEvt_kept, Kept_foldl2, Kept_mk]
    · assumption
  · refine Kept_foldl (fun s2 x3 hs2 => ?_) ?_
    · grind [raiseEvt_kept, Kept_foldl2, Kept_mk]
    · assumption

theorem execEvtSet_kept {Q : List Instr} {fn p : Nat} {v : Word} {s : State} (hs : Kept Q s) :
    KeptRes Q (execEvtSet fn p v s) := by
  unfold execEvtSet
  refine KeptRes_next ?_
  grind [withWrite_kept, writeEvtSet_kept, KeptRes_next, KeptRes_fault, Kept_mk]

theorem execLock_kept {Q : List Instr} {fn p : Nat} {s : State} (hs : Kept Q s) :
    KeptRes Q (execLock fn p s) := by
  unfold execLock
  refine KeptRes_next ?_
  grind [headerWrite_kept, wb_kept, KeptRes_next, KeptRes_fault, Kept_mk]

theorem putReg_kept {Q : List Instr} {s : State} {p off : Nat} {r : RegRow} {v : Word} (hs : Kept Q s) :
    Kept Q (putReg s p off r v) := by
  unfold putReg
  extract_lets l0
  have hl0 : Kept Q l0 := by
    grind [clearEvts_kept, updWire_kept, wr_kept, writeDeal_kept, updIso_kept, dropStrict_kept, Kept_mk]
  clear_value l0
  grind [clearEvts_kept, updWire_kept, wr_kept, writeDeal_kept, updIso_kept, dropStrict_kept, Kept_mk]

theorem viewWrite_kept {Q : List Instr} {s : State} {fn off : Nat} {v : Word} (hs : Kept Q s) :
    Kept Q (viewWrite s fn off v) := by
  unfold viewWrite
  split
  · apply updWire_kept
    refine Kept_foldl (fun s0 x1 hs0 => ?_) ?_
    · grind [updWire_kept, wb_kept, Kept_foldl2, Kept_mk]
    · assumption
  · assumption

theorem plainWrite_kept {Q : List Instr} {s : State} {fn p off : Nat} {v : Word} (hs : Kept Q s) :
    Kept Q (plainWrite s fn p off v) := by
  unfold plainWrite
  grind [withWrite_kept, viewWrite_kept, guarded_kept, putReg_kept, reject_kept, Kept_mk]

theorem noCommand_kept {Q : List Instr} {s : State} {fn p off : Nat} {bad : Bool} (hs : Kept Q s) :
    KeptRes Q (noCommand s fn p off bad) := by
  unfold noCommand
  refine KeptRes_next ?_
  grind [withWrite_kept, guarded_kept, KeptRes_next, KeptRes_fault, Kept_mk]

theorem routePartition_kept {Q : List Instr} {s : State} {fn k off : Nat} {v : Word} (hs : Kept Q s) :
    ∀ r, routePartition s fn k off v = some r → KeptRes Q r := by
  unfold routePartition
  grind [execPartCmdEnable_kept, execPartCmdDisable_kept, execPartCmdAssign_kept, execPartCmdReset_kept, execPartCmdRelease_kept, withOperator_kept, reject_kept, execCtxOpen_kept, execCtxRun_kept, execCtxPause_kept, execCtxClose_kept, execCtxAbort_kept, noCommand_kept, execCtxTail_kept, execBarrierTargetWrite_kept, KeptRes_next, KeptRes_fault, Kept, State.canonical]

theorem routeManifest_kept {Q : List Instr} {s : State} {fn k off : Nat} {v : Word} (hs : Kept Q s) :
    ∀ r, routeManifest s fn k off v = some r → KeptRes Q r := by
  unfold routeManifest
  grind [execMfRootWrite_kept, execFaultRingWrite_kept, execFaultConsWrite_kept, execFaultResolveFail_kept, execFaultResolveRetry_kept, noCommand_kept, execHotRingWrite_kept, execInvCmdRange_kept, execInvCmdPartition_kept, execShareWinWrite_kept, KeptRes_next, KeptRes_fault, Kept, State.canonical]

theorem routeDevice_kept {Q : List Instr} {s : State} {fn p off : Nat} {v : Word} (hs : Kept Q s) :
    ∀ r, routeDevice s fn p off v = some r → KeptRes Q r := by
  unfold routeDevice
  grind [execPwrCtlFixed_kept, execPartAllocWrite_kept, execSiteRelease_kept, execDmaCtlStrict_kept, execDmaAssign_kept, execMcZfCmd_kept, execMcInject_kept, execDealCommit_kept, noCommand_kept, execRouteModeWrite_kept, execRouteDataWrite_kept, execSiteAssign_kept, execSiteCmdRetrain_kept, KeptRes_next, KeptRes_fault, Kept, State.canonical]

theorem routeManagement_kept {Q : List Instr} {s : State} {fn p off : Nat} {v : Word} (hs : Kept Q s) :
    ∀ r, routeManagement s fn p off v = some r → KeptRes Q r := by
  unfold routeManagement
  grind [execCollClear_kept, execDevReset_kept, execDumpAck_kept, execJobAbortCmd_kept, noCommand_kept, execRecorderFence_kept, execEvrClear_kept, execTriggerEnable_kept, execSend_kept, execAck_kept, execCvuAssign_kept, execCvuOpen_kept, execCvuClose_kept, execCvuFeed_kept, execCvuRunWrite_kept, execDmaTail_kept, execQuayStrictSet_kept, execQuayZfCmd_kept, execQuayInject_kept, KeptRes_next, KeptRes_fault, Kept, State.canonical]

theorem routeUnits_kept {Q : List Instr} {s : State} {fn p off : Nat} {v : Word} (hs : Kept Q s) :
    ∀ r, routeUnits s fn p off v = some r → KeptRes Q r := by
  unfold routeUnits
  grind [execCoreFence_kept, execSpareTest_kept, noCommand_kept, execEngineFence_kept, execEngineTest_kept, KeptRes_next, KeptRes_fault, Kept, State.canonical]

theorem routeWrite_kept {Q : List Instr} {s : State} {fn p off : Nat} {v : Word} (hs : Kept Q s) :
    ∀ r, routeWrite s fn p off v = some r → KeptRes Q r := by
  unfold routeWrite
  grind [ctlWrite_kept, execEvtSet_kept, execLock_kept, noCommand_kept, routePartition_kept, routeManifest_kept, routeUnits_kept, routeDevice_kept, routeManagement_kept, KeptRes_next, KeptRes_fault, Kept, State.canonical]

theorem execRegisterWrite_kept {Q : List Instr} {fn off : Nat} {v : Word} {s : State} (hs : Kept Q s) :
    KeptRes Q (execRegisterWrite fn off v s) := by
  unfold execRegisterWrite
  grind [routeWrite_kept, plainWrite_kept, KeptRes_next, KeptRes_fault, Kept_mk]

theorem execNarrowAccess_kept {Q : List Instr} {fn off len : Nat} {wr : Bool} {s : State} (hs : Kept Q s) :
    KeptRes Q (execNarrowAccess fn off len wr s) := by
  unfold execNarrowAccess
  extract_lets l0
  have hl0 : Kept Q l0 := by
    grind [reject_kept, wr_kept, emit_kept, KeptRes_next, KeptRes_fault, Kept_mk]
  clear_value l0
  grind [reject_kept, wr_kept, emit_kept, KeptRes_next, KeptRes_fault, Kept_mk]

theorem readReg_kept {Q : List Instr} {s : State} {fn p off : Nat} {coincide : Bool} (hs : Kept Q s) :
    Kept Q (readReg s fn p off coincide).2 := by
  unfold readReg
  extract_lets l0
  clear_value l0
  grind [wr_kept, reject_kept, Kept_mk]

theorem execRcRead_kept {Q : List Instr} {fn off : Nat} {coincide : Bool} {s : State} (hs : Kept Q s) :
    KeptRes Q (execRcRead fn off coincide s) := by
  unfold execRcRead
  extract_lets l0
  have hl0 : Kept Q l0.2 := by
    grind [readReg_kept, emit_kept, KeptRes_next, KeptRes_fault, Kept_mk]
  clear_value l0
  grind [readReg_kept, emit_kept, KeptRes_next, KeptRes_fault, Kept_mk]

end Sys2Proof.Machine
end

