-- ==== Sys2Proof/Laws/KeptSpdm.lean ====
section
/-!
SUPPORT. What Machine/Spdm.lean does keeps the canonical form and the queue.
-/

set_option Elab.async false

namespace Sys2Proof.Machine

open Sys2Proof

theorem spdmAsk_kept {Q : List Instr} {s : State} {fn : Nat} {ok : Bool} {f : State → State} (hs : Kept Q s) (hf : ∀ y0, Kept Q y0 → Kept Q (f y0)) :
    Kept Q (spdmAsk s fn ok f) := by
  unfold spdmAsk
  grind [emit_kept, Kept_mk]

theorem spdmSend_kept {Q : List Instr} {s : State} {fn code : Nat} {payload : Bytes} (hs : Kept Q s) :
    Kept Q (spdmSend s fn code payload) := by
  unfold spdmSend
  grind [emit_kept, Kept_mk]

theorem setSpdm_kept {Q : List Instr} {s : State} {fn : Nat} {v : Spdm} (hs : Kept Q s) :
    Kept Q (setSpdm s fn v) := by
  unfold setSpdm
  extract_lets l0
  clear_value l0
  refine Kept_upd (s := s) ?_ rfl rfl rfl rfl
  assumption

theorem execGetVersion_kept {Q : List Instr} {fn : Nat} {s : State} (hs : Kept Q s) :
    KeptRes Q (execGetVersion fn s) := by
  unfold execGetVersion
  refine KeptRes_next ?_
  grind [spdmAsk_kept, spdmSend_kept, setSpdm_kept, KeptRes_next, KeptRes_fault, Kept_mk]

theorem execGetCapabilities_kept {Q : List Instr} {fn : Nat} {s : State} (hs : Kept Q s) :
    KeptRes Q (execGetCapabilities fn s) := by
  unfold execGetCapabilities
  refine KeptRes_next ?_
  grind [spdmAsk_kept, spdmSend_kept, setSpdm_kept, KeptRes_next, KeptRes_fault, Kept_mk]

theorem execNegotiateAlgorithms_kept {Q : List Instr} {fn asym hash dhe aead : Nat} {s : State} (hs : Kept Q s) :
    KeptRes Q (execNegotiateAlgorithms fn asym hash dhe aead s) := by
  unfold execNegotiateAlgorithms
  refine KeptRes_next ?_
  grind [spdmAsk_kept, spdmSend_kept, setSpdm_kept, KeptRes_next, KeptRes_fault, Kept_mk]

theorem execGetDigests_kept {Q : List Instr} {fn : Nat} {s : State} (hs : Kept Q s) :
    KeptRes Q (execGetDigests fn s) := by
  unfold execGetDigests
  refine KeptRes_next ?_
  grind [spdmAsk_kept, spdmSend_kept, KeptRes_next, KeptRes_fault, Kept_mk]

theorem execGetCertificate_kept {Q : List Instr} {fn slot offset len : Nat} {s : State} (hs : Kept Q s) :
    KeptRes Q (execGetCertificate fn slot offset len s) := by
  unfold execGetCertificate
  refine KeptRes_next ?_
  grind [spdmAsk_kept, spdmSend_kept, KeptRes_next, KeptRes_fault, Kept_mk]

theorem execChallenge_kept {Q : List Instr} {fn slot : Nat} {nonce : Bytes} {s : State} (hs : Kept Q s) :
    KeptRes Q (execChallenge fn slot nonce s) := by
  unfold execChallenge
  refine KeptRes_next ?_
  grind [spdmAsk_kept, spdmSend_kept, KeptRes_next, KeptRes_fault, Kept_mk]

theorem execGetMeasurements_kept {Q : List Instr} {fn index : Nat} {nonce : Bytes} {s : State} (hs : Kept Q s) :
    KeptRes Q (execGetMeasurements fn index nonce s) := by
  unfold execGetMeasurements
  refine KeptRes_next ?_
  grind [spdmAsk_kept, spdmSend_kept, emit_kept, KeptRes_next, KeptRes_fault, Kept_mk]

theorem execKeyExchange_kept {Q : List Instr} {fn : Nat} {share : Bytes} {s : State} (hs : Kept Q s) :
    KeptRes Q (execKeyExchange fn share s) := by
  unfold execKeyExchange
  refine KeptRes_next ?_
  grind [spdmAsk_kept, draw_kept, endSessions_kept, spdmSend_kept, KeptRes_next, KeptRes_fault, Kept_mk]

theorem execFinish_kept {Q : List Instr} {fn : Nat} {verify sig : Bytes} {s : State} (hs : Kept Q s) :
    KeptRes Q (execFinish fn verify sig s) := by
  unfold execFinish
  refine KeptRes_next ?_
  split
  · grind [spdmAsk_kept, emit_kept, spdmSend_kept, endSessions_kept, KeptRes_next, KeptRes_fault, Kept_mk]
  · split
    · grind [spdmAsk_kept, emit_kept, spdmSend_kept, endSessions_kept, KeptRes_next, KeptRes_fault, Kept_mk]
    · grind [spdmAsk_kept, emit_kept, spdmSend_kept, endSessions_kept, KeptRes_next, KeptRes_fault, Kept_mk]

theorem execKeyUpdate_kept {Q : List Instr} {fn op : Nat} {s : State} (hs : Kept Q s) :
    KeptRes Q (execKeyUpdate fn op s) := by
  unfold execKeyUpdate
  refine KeptRes_next ?_
  split
  · grind [spdmAsk_kept, draw_kept, spdmSend_kept, KeptRes_next, KeptRes_fault, Kept_mk]
  · grind [spdmAsk_kept, draw_kept, spdmSend_kept, KeptRes_next, KeptRes_fault, Kept_mk]

theorem execHeartbeat_kept {Q : List Instr} {fn : Nat} {s : State} (hs : Kept Q s) :
    KeptRes Q (execHeartbeat fn s) := by
  unfold execHeartbeat
  refine KeptRes_next ?_
  grind [spdmAsk_kept, spdmSend_kept, KeptRes_next, KeptRes_fault, Kept_mk]

theorem execEndSession_kept {Q : List Instr} {fn : Nat} {s : State} (hs : Kept Q s) :
    KeptRes Q (execEndSession fn s) := by
  unfold execEndSession
  refine KeptRes_next ?_
  grind [spdmAsk_kept, spdmSend_kept, endSessions_kept, KeptRes_next, KeptRes_fault, Kept_mk]

theorem execVendorDefinedRequest_kept {Q : List Instr} {fn vendor : Nat} {payload : Bytes} {s : State} (hs : Kept Q s) :
    KeptRes Q (execVendorDefinedRequest fn vendor payload s) := by
  unfold execVendorDefinedRequest
  refine KeptRes_next ?_
  grind [spdmAsk_kept, wrWords_kept, wf_kept, wb_kept, emit_kept, reject_kept, KeptRes_next, KeptRes_fault, Kept_mk]

theorem ideKm_kept {Q : List Instr} {s : State} {fn stream set : Nat} {f : State → IdeStream → State} (hs : Kept Q s) (hf : ∀ y0 y1, Kept Q y0 → Kept Q (f y0 y1)) :
    Kept Q (ideKm s fn stream set f) := by
  unfold ideKm
  grind [spdmAsk_kept, Kept_mk]

theorem setIde_kept {Q : List Instr} {s : State} {stream : Nat} {v : IdeStream} (hs : Kept Q s) :
    Kept Q (setIde s stream v) := by
  unfold setIde
  extract_lets l0
  clear_value l0
  refine Kept_upd (s := s) ?_ rfl rfl rfl rfl
  assumption

theorem showIde_kept {Q : List Instr} {s : State} {stream : Nat} {on : Bool} (hs : Kept Q s) :
    Kept Q (showIde s stream on) := by
  unfold showIde
  grind [raiseEvt_kept, wb_kept, Kept_mk]

theorem execQuery_kept {Q : List Instr} {fn : Nat} {s : State} (hs : Kept Q s) :
    KeptRes Q (execQuery fn s) := by
  unfold execQuery
  refine KeptRes_next ?_
  grind [spdmAsk_kept, spdmSend_kept, KeptRes_next, KeptRes_fault, Kept_mk]

theorem execKeyProg_kept {Q : List Instr} {fn stream set : Nat} {key : Bytes} {s : State} (hs : Kept Q s) :
    KeptRes Q (execKeyProg fn stream set key s) := by
  unfold execKeyProg
  refine KeptRes_next ?_
  grind [ideKm_kept, spdmSend_kept, setIde_kept, KeptRes_next, KeptRes_fault, Kept_mk]

theorem execKSetGo_kept {Q : List Instr} {fn stream set : Nat} {s : State} (hs : Kept Q s) :
    KeptRes Q (execKSetGo fn stream set s) := by
  unfold execKSetGo
  refine KeptRes_next ?_
  grind [ideKm_kept, emit_kept, spdmSend_kept, showIde_kept, setIde_kept, KeptRes_next, KeptRes_fault, Kept_mk]

theorem execKSetStop_kept {Q : List Instr} {fn stream set : Nat} {s : State} (hs : Kept Q s) :
    KeptRes Q (execKSetStop fn stream set s) := by
  unfold execKSetStop
  refine KeptRes_next ?_
  grind [ideKm_kept, showIde_kept, setIde_kept, spdmSend_kept, KeptRes_next, KeptRes_fault, Kept_mk]

end Sys2Proof.Machine
end

