-- ==== Sys2Proof/Laws/KeptTensor.lean ====
section
/-!
SUPPORT. What Machine/Tensor.lean does keeps the canonical form and the queue.
-/

set_option Elab.async false

namespace Sys2Proof.Machine

open Sys2Proof

theorem gemmWork_kept {Q : List Instr} {s : State} {w : Work} (hs : Kept Q s) :
    Kept Q (gemmWork s w) := by
  unfold gemmWork
  extract_lets l0 l1 l2
  clear_value l0 l1 l2
  split
  split
  · split
    · grind [withTensor_kept, storePots_kept, Kept_mk]
    · grind [withTensor_kept, storePots_kept, Kept_mk]
  · split
    · grind [withTensor_kept, storePots_kept, Kept_mk]
    · grind [withTensor_kept, storePots_kept, Kept_mk]

theorem execGemm_kept {Q : List Instr} {k x q : Nat} {s : State} (hs : Kept Q s) :
    KeptRes Q (execGemm k x q s) := by
  unfold execGemm
  refine KeptRes_next ?_
  grind [onWork_kept, gemmWork_kept, KeptRes_next, KeptRes_fault, Kept_mk]

theorem execGemmPot_kept {Q : List Instr} {k x q : Nat} {s : State} (hs : Kept Q s) :
    KeptRes Q (execGemmPot k x q s) := by
  unfold execGemmPot
  refine KeptRes_next ?_
  grind [onWork_kept, gemmWork_kept, KeptRes_next, KeptRes_fault, Kept_mk]

theorem mergeWork_kept {Q : List Instr} {s : State} {w : Work} (hs : Kept Q s) :
    Kept Q (mergeWork s w) := by
  unfold mergeWork
  extract_lets l0
  clear_value l0
  grind [withRecords_kept, storePots_kept, Kept_mk]

theorem execPotMerge_kept {Q : List Instr} {k x q : Nat} {s : State} (hs : Kept Q s) :
    KeptRes Q (execPotMerge k x q s) := by
  unfold execPotMerge
  refine KeptRes_next ?_
  grind [onWork_kept, mergeWork_kept, KeptRes_next, KeptRes_fault, Kept_mk]

theorem execPotRound_kept {Q : List Instr} {k x q : Nat} {s : State} (hs : Kept Q s) :
    KeptRes Q (execPotRound k x q s) := by
  unfold execPotRound
  refine KeptRes_next ?_
  grind [onWork_kept, withRecords_kept, storePots_kept, KeptRes_next, KeptRes_fault, Kept_mk]

theorem execPotMergeRound_kept {Q : List Instr} {k x q : Nat} {s : State} (hs : Kept Q s) :
    KeptRes Q (execPotMergeRound k x q s) := by
  unfold execPotMergeRound
  refine KeptRes_next ?_
  grind [onWork_kept, mergeWork_kept, KeptRes_next, KeptRes_fault, Kept_mk]

theorem sumRowsWork_kept {Q : List Instr} {s : State} {w : Work} (hs : Kept Q s) :
    Kept Q (sumRowsWork s w) := by
  unfold sumRowsWork
  extract_lets l0
  clear_value l0
  grind [withTensor_kept, storePots_kept, Kept_mk]

theorem sumColsWork_kept {Q : List Instr} {s : State} {w : Work} (hs : Kept Q s) :
    Kept Q (sumColsWork s w) := by
  unfold sumColsWork
  extract_lets l0
  clear_value l0
  grind [withTensor_kept, storePots_kept, Kept_mk]

theorem execReduceRows_kept {Q : List Instr} {k x q : Nat} {s : State} (hs : Kept Q s) :
    KeptRes Q (execReduceRows k x q s) := by
  unfold execReduceRows
  refine KeptRes_next ?_
  grind [onWork_kept, sumRowsWork_kept, KeptRes_next, KeptRes_fault, Kept_mk]

theorem execReduceRowsPot_kept {Q : List Instr} {k x q : Nat} {s : State} (hs : Kept Q s) :
    KeptRes Q (execReduceRowsPot k x q s) := by
  unfold execReduceRowsPot
  refine KeptRes_next ?_
  grind [onWork_kept, sumRowsWork_kept, KeptRes_next, KeptRes_fault, Kept_mk]

theorem execReduceCols_kept {Q : List Instr} {k x q : Nat} {s : State} (hs : Kept Q s) :
    KeptRes Q (execReduceCols k x q s) := by
  unfold execReduceCols
  refine KeptRes_next ?_
  grind [onWork_kept, sumColsWork_kept, KeptRes_next, KeptRes_fault, Kept_mk]

theorem execReduceColsPot_kept {Q : List Instr} {k x q : Nat} {s : State} (hs : Kept Q s) :
    KeptRes Q (execReduceColsPot k x q s) := by
  unfold execReduceColsPot
  refine KeptRes_next ?_
  grind [onWork_kept, sumColsWork_kept, KeptRes_next, KeptRes_fault, Kept_mk]

theorem execDotRows_kept {Q : List Instr} {k x q : Nat} {s : State} (hs : Kept Q s) :
    KeptRes Q (execDotRows k x q s) := by
  unfold execDotRows
  refine KeptRes_next ?_
  grind [onWork_kept, withTensor_kept, storePots_kept, KeptRes_next, KeptRes_fault, Kept_mk]

theorem execSumsqRows_kept {Q : List Instr} {k x q : Nat} {s : State} (hs : Kept Q s) :
    KeptRes Q (execSumsqRows k x q s) := by
  unfold execSumsqRows
  refine KeptRes_next ?_
  grind [onWork_kept, withTensor_kept, storePots_kept, KeptRes_next, KeptRes_fault, Kept_mk]

theorem bestRowsWork_kept {Q : List Instr} {hi : Bool} {s : State} {w : Work} (hs : Kept Q s) :
    Kept Q (bestRowsWork hi s w) := by
  unfold bestRowsWork
  extract_lets l0 l1
  clear_value l0 l1
  grind [withCodes_kept, storeCodes_kept, Kept_mk]

theorem execMaxRows_kept {Q : List Instr} {k x q : Nat} {s : State} (hs : Kept Q s) :
    KeptRes Q (execMaxRows k x q s) := by
  unfold execMaxRows
  refine KeptRes_next ?_
  grind [onWork_kept, bestRowsWork_kept, KeptRes_next, KeptRes_fault, Kept_mk]

theorem execMinRows_kept {Q : List Instr} {k x q : Nat} {s : State} (hs : Kept Q s) :
    KeptRes Q (execMinRows k x q s) := by
  unfold execMinRows
  refine KeptRes_next ?_
  grind [onWork_kept, bestRowsWork_kept, KeptRes_next, KeptRes_fault, Kept_mk]

theorem pairWork_kept {Q : List Instr} {f : Num → Num → List Num} {s : State} {w : Work} (hs : Kept Q s) :
    Kept Q (pairWork f s w) := by
  unfold pairWork
  extract_lets l0 l1
  clear_value l0 l1
  grind [withTensor_kept, storePots_kept, Kept_mk]

theorem execEwAdd_kept {Q : List Instr} {k x q : Nat} {s : State} (hs : Kept Q s) :
    KeptRes Q (execEwAdd k x q s) := by
  unfold execEwAdd
  refine KeptRes_next ?_
  grind [onWork_kept, pairWork_kept, KeptRes_next, KeptRes_fault, Kept_mk]

theorem execEwSub_kept {Q : List Instr} {k x q : Nat} {s : State} (hs : Kept Q s) :
    KeptRes Q (execEwSub k x q s) := by
  unfold execEwSub
  refine KeptRes_next ?_
  grind [onWork_kept, pairWork_kept, KeptRes_next, KeptRes_fault, Kept_mk]

theorem execEwMul_kept {Q : List Instr} {k x q : Nat} {s : State} (hs : Kept Q s) :
    KeptRes Q (execEwMul k x q s) := by
  unfold execEwMul
  refine KeptRes_next ?_
  grind [onWork_kept, pairWork_kept, KeptRes_next, KeptRes_fault, Kept_mk]

theorem pickWork_kept {Q : List Instr} {hi : Bool} {s : State} {w : Work} (hs : Kept Q s) :
    Kept Q (pickWork hi s w) := by
  unfold pickWork
  extract_lets l0 l1 l2
  clear_value l0 l1 l2
  grind [withCodes_kept, storeCodes_kept, Kept_mk]

theorem execEwMax_kept {Q : List Instr} {k x q : Nat} {s : State} (hs : Kept Q s) :
    KeptRes Q (execEwMax k x q s) := by
  unfold execEwMax
  refine KeptRes_next ?_
  grind [onWork_kept, pickWork_kept, KeptRes_next, KeptRes_fault, Kept_mk]

theorem execEwMin_kept {Q : List Instr} {k x q : Nat} {s : State} (hs : Kept Q s) :
    KeptRes Q (execEwMin k x q s) := by
  unfold execEwMin
  refine KeptRes_next ?_
  grind [onWork_kept, pickWork_kept, KeptRes_next, KeptRes_fault, Kept_mk]

theorem execEwUnary_kept {Q : List Instr} {k x q : Nat} {s : State} (hs : Kept Q s) :
    KeptRes Q (execEwUnary k x q s) := by
  unfold execEwUnary
  refine KeptRes_next ?_
  grind [onWork_kept, withTensor_kept, storeElems_kept, KeptRes_next, KeptRes_fault, Kept_mk]

theorem execConvert_kept {Q : List Instr} {k x q : Nat} {s : State} (hs : Kept Q s) :
    KeptRes Q (execConvert k x q s) := by
  unfold execConvert
  refine KeptRes_next ?_
  grind [onWork_kept, withTensor_kept, storeElems_kept, KeptRes_next, KeptRes_fault, Kept_mk]

theorem execEwClamp_kept {Q : List Instr} {k x q : Nat} {s : State} (hs : Kept Q s) :
    KeptRes Q (execEwClamp k x q s) := by
  unfold execEwClamp
  extract_lets l0
  clear_value l0
  refine KeptRes_next ?_
  grind [onWork_kept, withCodes_kept, storeCodes_kept, KeptRes_next, KeptRes_fault, Kept_mk]

theorem moveRows_kept {Q : List Instr} {s : State} {w : Work} {o : Opd} {rows scales : List Bytes} (hs : Kept Q s) :
    Kept Q (moveRows s w o rows scales) := by
  unfold moveRows
  extract_lets l0
  clear_value l0
  grind [putTile_kept, completeSt_kept, Kept_mk]

theorem withRows_kept {Q : List Instr} {s : State} {w : Work} {o : Opd} {k : State → List Bytes → List Bytes → State} (hs : Kept Q s) (hk : ∀ y0 y1 y2, Kept Q y0 → Kept Q (k y0 y1 y2)) :
    Kept Q (withRows s w o k) := by
  unfold withRows
  grind [withTile_kept, Kept_mk]

theorem execCopy_kept {Q : List Instr} {k x q : Nat} {s : State} (hs : Kept Q s) :
    KeptRes Q (execCopy k x q s) := by
  unfold execCopy
  refine KeptRes_next ?_
  grind [onWork_kept, withRows_kept, moveRows_kept, KeptRes_next, KeptRes_fault, Kept_mk]

theorem withIndices_kept {Q : List Instr} {s : State} {w : Work} {k : State → List Nat → State} (hs : Kept Q s) (hk : ∀ y0 y1, Kept Q y0 → Kept Q (k y0 y1)) :
    Kept Q (withIndices s w k) := by
  unfold withIndices
  extract_lets l0
  clear_value l0
  grind [withCodes_kept, complete_kept, Kept_mk]

theorem gatherFrom_kept {Q : List Instr} {s : State} {w : Work} {o : Opd} {a0 : List Nat} {a1 : (State → List (Bytes × Bytes) → State)} (hs : Kept Q s) (ha1 : ∀ y0 y1, Kept Q y0 → Kept Q (a1 y0 y1)) :
    Kept Q (gatherFrom s w o a0 a1) := by
  induction a0 generalizing s a1 with
  | nil => exact ha1 _ _ hs
  | cons i t ih =>
    unfold gatherFrom
    refine withTile_kept hs fun s r h => ?_
    refine Kept_ite (withTile_kept h fun s sc h => ?_) ?_
    · exact ih h (fun _ _ h => ha1 _ _ h)
    · exact ih h (fun _ _ h => ha1 _ _ h)

theorem execGatherRows_kept {Q : List Instr} {k x q : Nat} {s : State} (hs : Kept Q s) :
    KeptRes Q (execGatherRows k x q s) := by
  unfold execGatherRows
  refine KeptRes_next ?_
  grind [onWork_kept, withIndices_kept, gatherFrom_kept, moveRows_kept, KeptRes_next, KeptRes_fault, Kept_mk]

theorem scatterTo_kept {Q : List Instr} {s : State} {w : Work} {o : Opd} {a0 : List (Nat × Bytes × Bytes)} (hs : Kept Q s) :
    Kept Q (scatterTo s w o a0) := by
  fun_induction scatterTo <;> grind [completeSt_kept, putTile_kept, Kept, State.canonical]

theorem execScatterRows_kept {Q : List Instr} {k x q : Nat} {s : State} (hs : Kept Q s) :
    KeptRes Q (execScatterRows k x q s) := by
  unfold execScatterRows
  refine KeptRes_next ?_
  grind [onWork_kept, withIndices_kept, withRows_kept, scatterTo_kept, KeptRes_next, KeptRes_fault, Kept_mk]

theorem execTranspose_kept {Q : List Instr} {k x q : Nat} {s : State} (hs : Kept Q s) :
    KeptRes Q (execTranspose k x q s) := by
  unfold execTranspose
  refine KeptRes_next ?_
  grind [onWork_kept, withCodes_kept, storeCodes_kept, KeptRes_next, KeptRes_fault, Kept_mk]

theorem execFill_kept {Q : List Instr} {k x q : Nat} {s : State} (hs : Kept Q s) :
    KeptRes Q (execFill k x q s) := by
  unfold execFill
  refine KeptRes_next ?_
  grind [onWork_kept, withCodes_kept, storeCodes_kept, KeptRes_next, KeptRes_fault, Kept_mk]

theorem execCompare_kept {Q : List Instr} {k x q : Nat} {s : State} (hs : Kept Q s) :
    KeptRes Q (execCompare k x q s) := by
  unfold execCompare
  refine KeptRes_next ?_
  apply onWork_kept
  · assumption
  · grind [onWork_kept, withCodes_kept, complete_kept, Kept_foldl2, KeptRes_next, KeptRes_fault, Kept_mk]

end Sys2Proof.Machine
end

