-- ==== Sys2Proof/Laws/State.lean ====
section
/-!
SUPPORT. What each plain update of the state leaves as it was, field by field.
-/

set_option Elab.async false

namespace Sys2Proof.Machine

open Sys2Proof

@[simp] theorem wr_mem (s : State) (p off : Nat) (v : Word) : (wr s p off v).mem = s.mem := rfl
@[simp] theorem wr_hostMem (s : State) (p off : Nat) (v : Word) : (wr s p off v).hostMem = s.hostMem := rfl
@[simp] theorem wr_fuse (s : State) (p off : Nat) (v : Word) : (wr s p off v).fuse = s.fuse := rfl
@[simp] theorem wr_flash (s : State) (p off : Nat) (v : Word) : (wr s p off v).flash = s.flash := rfl
@[simp] theorem wr_board (s : State) (p off : Nat) (v : Word) : (wr s p off v).board = s.board := rfl
@[simp] theorem wr_boot (s : State) (p off : Nat) (v : Word) : (wr s p off v).boot = s.boot := rfl
@[simp] theorem wr_pcie (s : State) (p off : Nat) (v : Word) : (wr s p off v).pcie = s.pcie := rfl
@[simp] theorem wr_err (s : State) (p off : Nat) (v : Word) : (wr s p off v).err = s.err := rfl
@[simp] theorem wr_evr (s : State) (p off : Nat) (v : Word) : (wr s p off v).evr = s.evr := rfl
@[simp] theorem wr_mbx (s : State) (p off : Nat) (v : Word) : (wr s p off v).mbx = s.mbx := rfl
@[simp] theorem wr_i3c (s : State) (p off : Nat) (v : Word) : (wr s p off v).i3c = s.i3c := rfl
@[simp] theorem wr_sec (s : State) (p off : Nat) (v : Word) : (wr s p off v).sec = s.sec := rfl
@[simp] theorem wr_ten (s : State) (p off : Nat) (v : Word) : (wr s p off v).ten = s.ten := rfl
@[simp] theorem wr_chans (s : State) (p off : Nat) (v : Word) : (wr s p off v).chans = s.chans := rfl
@[simp] theorem wr_pwr (s : State) (p off : Nat) (v : Word) : (wr s p off v).pwr = s.pwr := rfl
@[simp] theorem wr_work (s : State) (p off : Nat) (v : Word) : (wr s p off v).work = s.work := rfl
@[simp] theorem wr_ue (s : State) (p off : Nat) (v : Word) : (wr s p off v).ue = s.ue := rfl
@[simp] theorem wr_weak (s : State) (p off : Nat) (v : Word) : (wr s p off v).weak = s.weak := rfl
@[simp] theorem wr_heldPorts (s : State) (p off : Nat) (v : Word) : (wr s p off v).heldPorts = s.heldPorts := rfl
@[simp] theorem wr_gate (s : State) (p off : Nat) (v : Word) : (wr s p off v).gate = s.gate := rfl
@[simp] theorem wr_stalled (s : State) (p off : Nat) (v : Word) : (wr s p off v).stalled = s.stalled := rfl
@[simp] theorem wr_hbm (s : State) (p off : Nat) (v : Word) : (wr s p off v).hbm = s.hbm := rfl
@[simp] theorem wr_quay (s : State) (p off : Nat) (v : Word) : (wr s p off v).quay = s.quay := rfl
@[simp] theorem wr_fab (s : State) (p off : Nat) (v : Word) : (wr s p off v).fab = s.fab := rfl
@[simp] theorem wr_fetchHeld (s : State) (p off : Nat) (v : Word) : (wr s p off v).fetchHeld = s.fetchHeld := rfl
@[simp] theorem wr_holds (s : State) (p off : Nat) (v : Word) : (wr s p off v).holds = s.holds := rfl
@[simp] theorem wr_turns (s : State) (p off : Nat) (v : Word) : (wr s p off v).turns = s.turns := rfl
@[simp] theorem wr_xlat (s : State) (p off : Nat) (v : Word) : (wr s p off v).xlat = s.xlat := rfl
@[simp] theorem wr_coh (s : State) (p off : Nat) (v : Word) : (wr s p off v).coh = s.coh := rfl
@[simp] theorem wr_fencing (s : State) (p off : Nat) (v : Word) : (wr s p off v).fencing = s.fencing := rfl
@[simp] theorem wr_seFencing (s : State) (p off : Nat) (v : Word) : (wr s p off v).seFencing = s.seFencing := rfl
@[simp] theorem wr_bankErrs (s : State) (p off : Nat) (v : Word) : (wr s p off v).bankErrs = s.bankErrs := rfl
@[simp] theorem wr_bankMarks (s : State) (p off : Nat) (v : Word) : (wr s p off v).bankMarks = s.bankMarks := rfl
@[simp] theorem wr_slots (s : State) (p off : Nat) (v : Word) : (wr s p off v).slots = s.slots := rfl
@[simp] theorem wr_barMarks (s : State) (p off : Nat) (v : Word) : (wr s p off v).barMarks = s.barMarks := rfl
@[simp] theorem wr_siteReqs (s : State) (p off : Nat) (v : Word) : (wr s p off v).siteReqs = s.siteReqs := rfl
@[simp] theorem wr_sites (s : State) (p off : Nat) (v : Word) : (wr s p off v).sites = s.sites := rfl
@[simp] theorem wr_out (s : State) (p off : Nat) (v : Word) : (wr s p off v).out = s.out := rfl
@[simp] theorem wr_free (s : State) (p off : Nat) (v : Word) : (wr s p off v).free = s.free := rfl
@[simp] theorem wr_pending (s : State) (p off : Nat) (v : Word) : (wr s p off v).pending = s.pending := rfl

@[simp] theorem wf_mem (s : State) (p off lo n v : Nat) : (wf s p off lo n v).mem = s.mem := rfl
@[simp] theorem wf_hostMem (s : State) (p off lo n v : Nat) : (wf s p off lo n v).hostMem = s.hostMem := rfl
@[simp] theorem wf_fuse (s : State) (p off lo n v : Nat) : (wf s p off lo n v).fuse = s.fuse := rfl
@[simp] theorem wf_flash (s : State) (p off lo n v : Nat) : (wf s p off lo n v).flash = s.flash := rfl
@[simp] theorem wf_board (s : State) (p off lo n v : Nat) : (wf s p off lo n v).board = s.board := rfl
@[simp] theorem wf_boot (s : State) (p off lo n v : Nat) : (wf s p off lo n v).boot = s.boot := rfl
@[simp] theorem wf_pcie (s : State) (p off lo n v : Nat) : (wf s p off lo n v).pcie = s.pcie := rfl
@[simp] theorem wf_err (s : State) (p off lo n v : Nat) : (wf s p off lo n v).err = s.err := rfl
@[simp] theorem wf_evr (s : State) (p off lo n v : Nat) : (wf s p off lo n v).evr = s.evr := rfl
@[simp] theorem wf_mbx (s : State) (p off lo n v : Nat) : (wf s p off lo n v).mbx = s.mbx := rfl
@[simp] theorem wf_i3c (s : State) (p off lo n v : Nat) : (wf s p off lo n v).i3c = s.i3c := rfl
@[simp] theorem wf_sec (s : State) (p off lo n v : Nat) : (wf s p off lo n v).sec = s.sec := rfl
@[simp] theorem wf_ten (s : State) (p off lo n v : Nat) : (wf s p off lo n v).ten = s.ten := rfl
@[simp] theorem wf_chans (s : State) (p off lo n v : Nat) : (wf s p off lo n v).chans = s.chans := rfl
@[simp] theorem wf_pwr (s : State) (p off lo n v : Nat) : (wf s p off lo n v).pwr = s.pwr := rfl
@[simp] theorem wf_work (s : State) (p off lo n v : Nat) : (wf s p off lo n v).work = s.work := rfl
@[simp] theorem wf_ue (s : State) (p off lo n v : Nat) : (wf s p off lo n v).ue = s.ue := rfl
@[simp] theorem wf_weak (s : State) (p off lo n v : Nat) : (wf s p off lo n v).weak = s.weak := rfl
@[simp] theorem wf_heldPorts (s : State) (p off lo n v : Nat) : (wf s p off lo n v).heldPorts = s.heldPorts := rfl
@[simp] theorem wf_gate (s : State) (p off lo n v : Nat) : (wf s p off lo n v).gate = s.gate := rfl
@[simp] theorem wf_stalled (s : State) (p off lo n v : Nat) : (wf s p off lo n v).stalled = s.stalled := rfl
@[simp] theorem wf_hbm (s : State) (p off lo n v : Nat) : (wf s p off lo n v).hbm = s.hbm := rfl
@[simp] theorem wf_quay (s : State) (p off lo n v : Nat) : (wf s p off lo n v).quay = s.quay := rfl
@[simp] theorem wf_fab (s : State) (p off lo n v : Nat) : (wf s p off lo n v).fab = s.fab := rfl
@[simp] theorem wf_fetchHeld (s : State) (p off lo n v : Nat) : (wf s p off lo n v).fetchHeld = s.fetchHeld := rfl
@[simp] theorem wf_holds (s : State) (p off lo n v : Nat) : (wf s p off lo n v).holds = s.holds := rfl
@[simp] theorem wf_turns (s : State) (p off lo n v : Nat) : (wf s p off lo n v).turns = s.turns := rfl
@[simp] theorem wf_xlat (s : State) (p off lo n v : Nat) : (wf s p off lo n v).xlat = s.xlat := rfl
@[simp] theorem wf_coh (s : State) (p off lo n v : Nat) : (wf s p off lo n v).coh = s.coh := rfl
@[simp] theorem wf_fencing (s : State) (p off lo n v : Nat) : (wf s p off lo n v).fencing = s.fencing := rfl
@[simp] theorem wf_seFencing (s : State) (p off lo n v : Nat) : (wf s p off lo n v).seFencing = s.seFencing := rfl
@[simp] theorem wf_bankErrs (s : State) (p off lo n v : Nat) : (wf s p off lo n v).bankErrs = s.bankErrs := rfl
@[simp] theorem wf_bankMarks (s : State) (p off lo n v : Nat) : (wf s p off lo n v).bankMarks = s.bankMarks := rfl
@[simp] theorem wf_slots (s : State) (p off lo n v : Nat) : (wf s p off lo n v).slots = s.slots := rfl
@[simp] theorem wf_barMarks (s : State) (p off lo n v : Nat) : (wf s p off lo n v).barMarks = s.barMarks := rfl
@[simp] theorem wf_siteReqs (s : State) (p off lo n v : Nat) : (wf s p off lo n v).siteReqs = s.siteReqs := rfl
@[simp] theorem wf_sites (s : State) (p off lo n v : Nat) : (wf s p off lo n v).sites = s.sites := rfl
@[simp] theorem wf_out (s : State) (p off lo n v : Nat) : (wf s p off lo n v).out = s.out := rfl
@[simp] theorem wf_free (s : State) (p off lo n v : Nat) : (wf s p off lo n v).free = s.free := rfl
@[simp] theorem wf_pending (s : State) (p off lo n v : Nat) : (wf s p off lo n v).pending = s.pending := rfl

@[simp] theorem wb_mem (s : State) (p off i : Nat) (b : Bool) : (wb s p off i b).mem = s.mem := rfl
@[simp] theorem wb_hostMem (s : State) (p off i : Nat) (b : Bool) : (wb s p off i b).hostMem = s.hostMem := rfl
@[simp] theorem wb_fuse (s : State) (p off i : Nat) (b : Bool) : (wb s p off i b).fuse = s.fuse := rfl
@[simp] theorem wb_flash (s : State) (p off i : Nat) (b : Bool) : (wb s p off i b).flash = s.flash := rfl
@[simp] theorem wb_board (s : State) (p off i : Nat) (b : Bool) : (wb s p off i b).board = s.board := rfl
@[simp] theorem wb_boot (s : State) (p off i : Nat) (b : Bool) : (wb s p off i b).boot = s.boot := rfl
@[simp] theorem wb_pcie (s : State) (p off i : Nat) (b : Bool) : (wb s p off i b).pcie = s.pcie := rfl
@[simp] theorem wb_err (s : State) (p off i : Nat) (b : Bool) : (wb s p off i b).err = s.err := rfl
@[simp] theorem wb_evr (s : State) (p off i : Nat) (b : Bool) : (wb s p off i b).evr = s.evr := rfl
@[simp] theorem wb_mbx (s : State) (p off i : Nat) (b : Bool) : (wb s p off i b).mbx = s.mbx := rfl
@[simp] theorem wb_i3c (s : State) (p off i : Nat) (b : Bool) : (wb s p off i b).i3c = s.i3c := rfl
@[simp] theorem wb_sec (s : State) (p off i : Nat) (b : Bool) : (wb s p off i b).sec = s.sec := rfl
@[simp] theorem wb_ten (s : State) (p off i : Nat) (b : Bool) : (wb s p off i b).ten = s.ten := rfl
@[simp] theorem wb_chans (s : State) (p off i : Nat) (b : Bool) : (wb s p off i b).chans = s.chans := rfl
@[simp] theorem wb_pwr (s : State) (p off i : Nat) (b : Bool) : (wb s p off i b).pwr = s.pwr := rfl
@[simp] theorem wb_work (s : State) (p off i : Nat) (b : Bool) : (wb s p off i b).work = s.work := rfl
@[simp] theorem wb_ue (s : State) (p off i : Nat) (b : Bool) : (wb s p off i b).ue = s.ue := rfl
@[simp] theorem wb_weak (s : State) (p off i : Nat) (b : Bool) : (wb s p off i b).weak = s.weak := rfl
@[simp] theorem wb_heldPorts (s : State) (p off i : Nat) (b : Bool) : (wb s p off i b).heldPorts = s.heldPorts := rfl
@[simp] theorem wb_gate (s : State) (p off i : Nat) (b : Bool) : (wb s p off i b).gate = s.gate := rfl
@[simp] theorem wb_stalled (s : State) (p off i : Nat) (b : Bool) : (wb s p off i b).stalled = s.stalled := rfl
@[simp] theorem wb_hbm (s : State) (p off i : Nat) (b : Bool) : (wb s p off i b).hbm = s.hbm := rfl
@[simp] theorem wb_quay (s : State) (p off i : Nat) (b : Bool) : (wb s p off i b).quay = s.quay := rfl
@[simp] theorem wb_fab (s : State) (p off i : Nat) (b : Bool) : (wb s p off i b).fab = s.fab := rfl
@[simp] theorem wb_fetchHeld (s : State) (p off i : Nat) (b : Bool) : (wb s p off i b).fetchHeld = s.fetchHeld := rfl
@[simp] theorem wb_holds (s : State) (p off i : Nat) (b : Bool) : (wb s p off i b).holds = s.holds := rfl
@[simp] theorem wb_turns (s : State) (p off i : Nat) (b : Bool) : (wb s p off i b).turns = s.turns := rfl
@[simp] theorem wb_xlat (s : State) (p off i : Nat) (b : Bool) : (wb s p off i b).xlat = s.xlat := rfl
@[simp] theorem wb_coh (s : State) (p off i : Nat) (b : Bool) : (wb s p off i b).coh = s.coh := rfl
@[simp] theorem wb_fencing (s : State) (p off i : Nat) (b : Bool) : (wb s p off i b).fencing = s.fencing := rfl
@[simp] theorem wb_seFencing (s : State) (p off i : Nat) (b : Bool) : (wb s p off i b).seFencing = s.seFencing := rfl
@[simp] theorem wb_bankErrs (s : State) (p off i : Nat) (b : Bool) : (wb s p off i b).bankErrs = s.bankErrs := rfl
@[simp] theorem wb_bankMarks (s : State) (p off i : Nat) (b : Bool) : (wb s p off i b).bankMarks = s.bankMarks := rfl
@[simp] theorem wb_slots (s : State) (p off i : Nat) (b : Bool) : (wb s p off i b).slots = s.slots := rfl
@[simp] theorem wb_barMarks (s : State) (p off i : Nat) (b : Bool) : (wb s p off i b).barMarks = s.barMarks := rfl
@[simp] theorem wb_siteReqs (s : State) (p off i : Nat) (b : Bool) : (wb s p off i b).siteReqs = s.siteReqs := rfl
@[simp] theorem wb_sites (s : State) (p off i : Nat) (b : Bool) : (wb s p off i b).sites = s.sites := rfl
@[simp] theorem wb_out (s : State) (p off i : Nat) (b : Bool) : (wb s p off i b).out = s.out := rfl
@[simp] theorem wb_free (s : State) (p off i : Nat) (b : Bool) : (wb s p off i b).free = s.free := rfl
@[simp] theorem wb_pending (s : State) (p off i : Nat) (b : Bool) : (wb s p off i b).pending = s.pending := rfl

@[simp] theorem addReg_mem (s : State) (p off n : Nat) : (addReg s p off n).mem = s.mem := rfl
@[simp] theorem addReg_hostMem (s : State) (p off n : Nat) : (addReg s p off n).hostMem = s.hostMem := rfl
@[simp] theorem addReg_fuse (s : State) (p off n : Nat) : (addReg s p off n).fuse = s.fuse := rfl
@[simp] theorem addReg_flash (s : State) (p off n : Nat) : (addReg s p off n).flash = s.flash := rfl
@[simp] theorem addReg_board (s : State) (p off n : Nat) : (addReg s p off n).board = s.board := rfl
@[simp] theorem addReg_boot (s : State) (p off n : Nat) : (addReg s p off n).boot = s.boot := rfl
@[simp] theorem addReg_pcie (s : State) (p off n : Nat) : (addReg s p off n).pcie = s.pcie := rfl
@[simp] theorem addReg_err (s : State) (p off n : Nat) : (addReg s p off n).err = s.err := rfl
@[simp] theorem addReg_evr (s : State) (p off n : Nat) : (addReg s p off n).evr = s.evr := rfl
@[simp] theorem addReg_mbx (s : State) (p off n : Nat) : (addReg s p off n).mbx = s.mbx := rfl
@[simp] theorem addReg_i3c (s : State) (p off n : Nat) : (addReg s p off n).i3c = s.i3c := rfl
@[simp] theorem addReg_sec (s : State) (p off n : Nat) : (addReg s p off n).sec = s.sec := rfl
@[simp] theorem addReg_ten (s : State) (p off n : Nat) : (addReg s p off n).ten = s.ten := rfl
@[simp] theorem addReg_chans (s : State) (p off n : Nat) : (addReg s p off n).chans = s.chans := rfl
@[simp] theorem addReg_pwr (s : State) (p off n : Nat) : (addReg s p off n).pwr = s.pwr := rfl
@[simp] theorem addReg_work (s : State) (p off n : Nat) : (addReg s p off n).work = s.work := rfl
@[simp] theorem addReg_ue (s : State) (p off n : Nat) : (addReg s p off n).ue = s.ue := rfl
@[simp] theorem addReg_weak (s : State) (p off n : Nat) : (addReg s p off n).weak = s.weak := rfl
@[simp] theorem addReg_heldPorts (s : State) (p off n : Nat) : (addReg s p off n).heldPorts = s.heldPorts := rfl
@[simp] theorem addReg_gate (s : State) (p off n : Nat) : (addReg s p off n).gate = s.gate := rfl
@[simp] theorem addReg_stalled (s : State) (p off n : Nat) : (addReg s p off n).stalled = s.stalled := rfl
@[simp] theorem addReg_hbm (s : State) (p off n : Nat) : (addReg s p off n).hbm = s.hbm := rfl
@[simp] theorem addReg_quay (s : State) (p off n : Nat) : (addReg s p off n).quay = s.quay := rfl
@[simp] theorem addReg_fab (s : State) (p off n : Nat) : (addReg s p off n).fab = s.fab := rfl
@[simp] theorem addReg_fetchHeld (s : State) (p off n : Nat) : (addReg s p off n).fetchHeld = s.fetchHeld := rfl
@[simp] theorem addReg_holds (s : State) (p off n : Nat) : (addReg s p off n).holds = s.holds := rfl
@[simp] theorem addReg_turns (s : State) (p off n : Nat) : (addReg s p off n).turns = s.turns := rfl
@[simp] theorem addReg_xlat (s : State) (p off n : Nat) : (addReg s p off n).xlat = s.xlat := rfl
@[simp] theorem addReg_coh (s : State) (p off n : Nat) : (addReg s p off n).coh = s.coh := rfl
@[simp] theorem addReg_fencing (s : State) (p off n : Nat) : (addReg s p off n).fencing = s.fencing := rfl
@[simp] theorem addReg_seFencing (s : State) (p off n : Nat) : (addReg s p off n).seFencing = s.seFencing := rfl
@[simp] theorem addReg_bankErrs (s : State) (p off n : Nat) : (addReg s p off n).bankErrs = s.bankErrs := rfl
@[simp] theorem addReg_bankMarks (s : State) (p off n : Nat) : (addReg s p off n).bankMarks = s.bankMarks := rfl
@[simp] theorem addReg_slots (s : State) (p off n : Nat) : (addReg s p off n).slots = s.slots := rfl
@[simp] theorem addReg_barMarks (s : State) (p off n : Nat) : (addReg s p off n).barMarks = s.barMarks := rfl
@[simp] theorem addReg_siteReqs (s : State) (p off n : Nat) : (addReg s p off n).siteReqs = s.siteReqs := rfl
@[simp] theorem addReg_sites (s : State) (p off n : Nat) : (addReg s p off n).sites = s.sites := rfl
@[simp] theorem addReg_out (s : State) (p off n : Nat) : (addReg s p off n).out = s.out := rfl
@[simp] theorem addReg_free (s : State) (p off n : Nat) : (addReg s p off n).free = s.free := rfl
@[simp] theorem addReg_pending (s : State) (p off n : Nat) : (addReg s p off n).pending = s.pending := rfl

@[simp] theorem resetRegs_mem (s : State) (p lo hi : Nat) : (resetRegs s p lo hi).mem = s.mem := rfl
@[simp] theorem resetRegs_hostMem (s : State) (p lo hi : Nat) : (resetRegs s p lo hi).hostMem = s.hostMem := rfl
@[simp] theorem resetRegs_fuse (s : State) (p lo hi : Nat) : (resetRegs s p lo hi).fuse = s.fuse := rfl
@[simp] theorem resetRegs_flash (s : State) (p lo hi : Nat) : (resetRegs s p lo hi).flash = s.flash := rfl
@[simp] theorem resetRegs_board (s : State) (p lo hi : Nat) : (resetRegs s p lo hi).board = s.board := rfl
@[simp] theorem resetRegs_boot (s : State) (p lo hi : Nat) : (resetRegs s p lo hi).boot = s.boot := rfl
@[simp] theorem resetRegs_pcie (s : State) (p lo hi : Nat) : (resetRegs s p lo hi).pcie = s.pcie := rfl
@[simp] theorem resetRegs_err (s : State) (p lo hi : Nat) : (resetRegs s p lo hi).err = s.err := rfl
@[simp] theorem resetRegs_evr (s : State) (p lo hi : Nat) : (resetRegs s p lo hi).evr = s.evr := rfl
@[simp] theorem resetRegs_mbx (s : State) (p lo hi : Nat) : (resetRegs s p lo hi).mbx = s.mbx := rfl
@[simp] theorem resetRegs_i3c (s : State) (p lo hi : Nat) : (resetRegs s p lo hi).i3c = s.i3c := rfl
@[simp] theorem resetRegs_sec (s : State) (p lo hi : Nat) : (resetRegs s p lo hi).sec = s.sec := rfl
@[simp] theorem resetRegs_ten (s : State) (p lo hi : Nat) : (resetRegs s p lo hi).ten = s.ten := rfl
@[simp] theorem resetRegs_chans (s : State) (p lo hi : Nat) : (resetRegs s p lo hi).chans = s.chans := rfl
@[simp] theorem resetRegs_pwr (s : State) (p lo hi : Nat) : (resetRegs s p lo hi).pwr = s.pwr := rfl
@[simp] theorem resetRegs_work (s : State) (p lo hi : Nat) : (resetRegs s p lo hi).work = s.work := rfl
@[simp] theorem resetRegs_ue (s : State) (p lo hi : Nat) : (resetRegs s p lo hi).ue = s.ue := rfl
@[simp] theorem resetRegs_weak (s : State) (p lo hi : Nat) : (resetRegs s p lo hi).weak = s.weak := rfl
@[simp] theorem resetRegs_heldPorts (s : State) (p lo hi : Nat) : (resetRegs s p lo hi).heldPorts = s.heldPorts := rfl
@[simp] theorem resetRegs_gate (s : State) (p lo hi : Nat) : (resetRegs s p lo hi).gate = s.gate := rfl
@[simp] theorem resetRegs_stalled (s : State) (p lo hi : Nat) : (resetRegs s p lo hi).stalled = s.stalled := rfl
@[simp] theorem resetRegs_hbm (s : State) (p lo hi : Nat) : (resetRegs s p lo hi).hbm = s.hbm := rfl
@[simp] theorem resetRegs_quay (s : State) (p lo hi : Nat) : (resetRegs s p lo hi).quay = s.quay := rfl
@[simp] theorem resetRegs_fab (s : State) (p lo hi : Nat) : (resetRegs s p lo hi).fab = s.fab := rfl
@[simp] theorem resetRegs_fetchHeld (s : State) (p lo hi : Nat) : (resetRegs s p lo hi).fetchHeld = s.fetchHeld := rfl
@[simp] theorem resetRegs_holds (s : State) (p lo hi : Nat) : (resetRegs s p lo hi).holds = s.holds := rfl
@[simp] theorem resetRegs_turns (s : State) (p lo hi : Nat) : (resetRegs s p lo hi).turns = s.turns := rfl
@[simp] theorem resetRegs_xlat (s : State) (p lo hi : Nat) : (resetRegs s p lo hi).xlat = s.xlat := rfl
@[simp] theorem resetRegs_coh (s : State) (p lo hi : Nat) : (resetRegs s p lo hi).coh = s.coh := rfl
@[simp] theorem resetRegs_fencing (s : State) (p lo hi : Nat) : (resetRegs s p lo hi).fencing = s.fencing := rfl
@[simp] theorem resetRegs_seFencing (s : State) (p lo hi : Nat) : (resetRegs s p lo hi).seFencing = s.seFencing := rfl
@[simp] theorem resetRegs_bankErrs (s : State) (p lo hi : Nat) : (resetRegs s p lo hi).bankErrs = s.bankErrs := rfl
@[simp] theorem resetRegs_bankMarks (s : State) (p lo hi : Nat) : (resetRegs s p lo hi).bankMarks = s.bankMarks := rfl
@[simp] theorem resetRegs_slots (s : State) (p lo hi : Nat) : (resetRegs s p lo hi).slots = s.slots := rfl
@[simp] theorem resetRegs_barMarks (s : State) (p lo hi : Nat) : (resetRegs s p lo hi).barMarks = s.barMarks := rfl
@[simp] theorem resetRegs_siteReqs (s : State) (p lo hi : Nat) : (resetRegs s p lo hi).siteReqs = s.siteReqs := rfl
@[simp] theorem resetRegs_sites (s : State) (p lo hi : Nat) : (resetRegs s p lo hi).sites = s.sites := rfl
@[simp] theorem resetRegs_out (s : State) (p lo hi : Nat) : (resetRegs s p lo hi).out = s.out := rfl
@[simp] theorem resetRegs_free (s : State) (p lo hi : Nat) : (resetRegs s p lo hi).free = s.free := rfl
@[simp] theorem resetRegs_pending (s : State) (p lo hi : Nat) : (resetRegs s p lo hi).pending = s.pending := rfl

@[simp] theorem emit_regs (s : State) (o : Out) : (emit s o).regs = s.regs := rfl
@[simp] theorem emit_mem (s : State) (o : Out) : (emit s o).mem = s.mem := rfl
@[simp] theorem emit_hostMem (s : State) (o : Out) : (emit s o).hostMem = s.hostMem := rfl
@[simp] theorem emit_fuse (s : State) (o : Out) : (emit s o).fuse = s.fuse := rfl
@[simp] theorem emit_flash (s : State) (o : Out) : (emit s o).flash = s.flash := rfl
@[simp] theorem emit_board (s : State) (o : Out) : (emit s o).board = s.board := rfl
@[simp] theorem emit_boot (s : State) (o : Out) : (emit s o).boot = s.boot := rfl
@[simp] theorem emit_pcie (s : State) (o : Out) : (emit s o).pcie = s.pcie := rfl
@[simp] theorem emit_err (s : State) (o : Out) : (emit s o).err = s.err := rfl
@[simp] theorem emit_evr (s : State) (o : Out) : (emit s o).evr = s.evr := rfl
@[simp] theorem emit_mbx (s : State) (o : Out) : (emit s o).mbx = s.mbx := rfl
@[simp] theorem emit_i3c (s : State) (o : Out) : (emit s o).i3c = s.i3c := rfl
@[simp] theorem emit_sec (s : State) (o : Out) : (emit s o).sec = s.sec := rfl
@[simp] theorem emit_ten (s : State) (o : Out) : (emit s o).ten = s.ten := rfl
@[simp] theorem emit_chans (s : State) (o : Out) : (emit s o).chans = s.chans := rfl
@[simp] theorem emit_pwr (s : State) (o : Out) : (emit s o).pwr = s.pwr := rfl
@[simp] theorem emit_work (s : State) (o : Out) : (emit s o).work = s.work := rfl
@[simp] theorem emit_ue (s : State) (o : Out) : (emit s o).ue = s.ue := rfl
@[simp] theorem emit_weak (s : State) (o : Out) : (emit s o).weak = s.weak := rfl
@[simp] theorem emit_heldPorts (s : State) (o : Out) : (emit s o).heldPorts = s.heldPorts := rfl
@[simp] theorem emit_gate (s : State) (o : Out) : (emit s o).gate = s.gate := rfl
@[simp] theorem emit_stalled (s : State) (o : Out) : (emit s o).stalled = s.stalled := rfl
@[simp] theorem emit_hbm (s : State) (o : Out) : (emit s o).hbm = s.hbm := rfl
@[simp] theorem emit_quay (s : State) (o : Out) : (emit s o).quay = s.quay := rfl
@[simp] theorem emit_fab (s : State) (o : Out) : (emit s o).fab = s.fab := rfl
@[simp] theorem emit_fetchHeld (s : State) (o : Out) : (emit s o).fetchHeld = s.fetchHeld := rfl
@[simp] theorem emit_holds (s : State) (o : Out) : (emit s o).holds = s.holds := rfl
@[simp] theorem emit_turns (s : State) (o : Out) : (emit s o).turns = s.turns := rfl
@[simp] theorem emit_xlat (s : State) (o : Out) : (emit s o).xlat = s.xlat := rfl
@[simp] theorem emit_coh (s : State) (o : Out) : (emit s o).coh = s.coh := rfl
@[simp] theorem emit_fencing (s : State) (o : Out) : (emit s o).fencing = s.fencing := rfl
@[simp] theorem emit_seFencing (s : State) (o : Out) : (emit s o).seFencing = s.seFencing := rfl
@[simp] theorem emit_bankErrs (s : State) (o : Out) : (emit s o).bankErrs = s.bankErrs := rfl
@[simp] theorem emit_bankMarks (s : State) (o : Out) : (emit s o).bankMarks = s.bankMarks := rfl
@[simp] theorem emit_slots (s : State) (o : Out) : (emit s o).slots = s.slots := rfl
@[simp] theorem emit_barMarks (s : State) (o : Out) : (emit s o).barMarks = s.barMarks := rfl
@[simp] theorem emit_siteReqs (s : State) (o : Out) : (emit s o).siteReqs = s.siteReqs := rfl
@[simp] theorem emit_sites (s : State) (o : Out) : (emit s o).sites = s.sites := rfl
@[simp] theorem emit_free (s : State) (o : Out) : (emit s o).free = s.free := rfl
@[simp] theorem emit_pending (s : State) (o : Out) : (emit s o).pending = s.pending := rfl
@[simp] theorem rd_emit (s : State) (o : Out) (q x : Nat) : rd (emit s o) q x = rd s q x := rfl
@[simp] theorem rf_emit (s : State) (o : Out) (q x lo m : Nat) : rf (emit s o) q x lo m = rf s q x lo m := rfl
@[simp] theorem rb_emit (s : State) (o : Out) (q x j : Nat) : rb (emit s o) q x j = rb s q x j := rfl

@[simp] theorem writeBytes_regs (s : State) (a : Nat) (b : Bytes) : (writeBytes s a b).regs = s.regs := rfl
@[simp] theorem writeBytes_hostMem (s : State) (a : Nat) (b : Bytes) : (writeBytes s a b).hostMem = s.hostMem := rfl
@[simp] theorem writeBytes_fuse (s : State) (a : Nat) (b : Bytes) : (writeBytes s a b).fuse = s.fuse := rfl
@[simp] theorem writeBytes_flash (s : State) (a : Nat) (b : Bytes) : (writeBytes s a b).flash = s.flash := rfl
@[simp] theorem writeBytes_board (s : State) (a : Nat) (b : Bytes) : (writeBytes s a b).board = s.board := rfl
@[simp] theorem writeBytes_boot (s : State) (a : Nat) (b : Bytes) : (writeBytes s a b).boot = s.boot := rfl
@[simp] theorem writeBytes_pcie (s : State) (a : Nat) (b : Bytes) : (writeBytes s a b).pcie = s.pcie := rfl
@[simp] theorem writeBytes_err (s : State) (a : Nat) (b : Bytes) : (writeBytes s a b).err = s.err := rfl
@[simp] theorem writeBytes_evr (s : State) (a : Nat) (b : Bytes) : (writeBytes s a b).evr = s.evr := rfl
@[simp] theorem writeBytes_mbx (s : State) (a : Nat) (b : Bytes) : (writeBytes s a b).mbx = s.mbx := rfl
@[simp] theorem writeBytes_i3c (s : State) (a : Nat) (b : Bytes) : (writeBytes s a b).i3c = s.i3c := rfl
@[simp] theorem writeBytes_sec (s : State) (a : Nat) (b : Bytes) : (writeBytes s a b).sec = s.sec := rfl
@[simp] theorem writeBytes_ten (s : State) (a : Nat) (b : Bytes) : (writeBytes s a b).ten = s.ten := rfl
@[simp] theorem writeBytes_chans (s : State) (a : Nat) (b : Bytes) : (writeBytes s a b).chans = s.chans := rfl
@[simp] theorem writeBytes_pwr (s : State) (a : Nat) (b : Bytes) : (writeBytes s a b).pwr = s.pwr := rfl
@[simp] theorem writeBytes_work (s : State) (a : Nat) (b : Bytes) : (writeBytes s a b).work = s.work := rfl
@[simp] theorem writeBytes_ue (s : State) (a : Nat) (b : Bytes) : (writeBytes s a b).ue = s.ue := rfl
@[simp] theorem writeBytes_weak (s : State) (a : Nat) (b : Bytes) : (writeBytes s a b).weak = s.weak := rfl
@[simp] theorem writeBytes_heldPorts (s : State) (a : Nat) (b : Bytes) : (writeBytes s a b).heldPorts = s.heldPorts := rfl
@[simp] theorem writeBytes_gate (s : State) (a : Nat) (b : Bytes) : (writeBytes s a b).gate = s.gate := rfl
@[simp] theorem writeBytes_stalled (s : State) (a : Nat) (b : Bytes) : (writeBytes s a b).stalled = s.stalled := rfl
@[simp] theorem writeBytes_hbm (s : State) (a : Nat) (b : Bytes) : (writeBytes s a b).hbm = s.hbm := rfl
@[simp] theorem writeBytes_quay (s : State) (a : Nat) (b : Bytes) : (writeBytes s a b).quay = s.quay := rfl
@[simp] theorem writeBytes_fab (s : State) (a : Nat) (b : Bytes) : (writeBytes s a b).fab = s.fab := rfl
@[simp] theorem writeBytes_fetchHeld (s : State) (a : Nat) (b : Bytes) : (writeBytes s a b).fetchHeld = s.fetchHeld := rfl
@[simp] theorem writeBytes_holds (s : State) (a : Nat) (b : Bytes) : (writeBytes s a b).holds = s.holds := rfl
@[simp] theorem writeBytes_turns (s : State) (a : Nat) (b : Bytes) : (writeBytes s a b).turns = s.turns := rfl
@[simp] theorem writeBytes_xlat (s : State) (a : Nat) (b : Bytes) : (writeBytes s a b).xlat = s.xlat := rfl
@[simp] theorem writeBytes_coh (s : State) (a : Nat) (b : Bytes) : (writeBytes s a b).coh = s.coh := rfl
@[simp] theorem writeBytes_fencing (s : State) (a : Nat) (b : Bytes) : (writeBytes s a b).fencing = s.fencing := rfl
@[simp] theorem writeBytes_seFencing (s : State) (a : Nat) (b : Bytes) : (writeBytes s a b).seFencing = s.seFencing := rfl
@[simp] theorem writeBytes_bankErrs (s : State) (a : Nat) (b : Bytes) : (writeBytes s a b).bankErrs = s.bankErrs := rfl
@[simp] theorem writeBytes_bankMarks (s : State) (a : Nat) (b : Bytes) : (writeBytes s a b).bankMarks = s.bankMarks := rfl
@[simp] theorem writeBytes_slots (s : State) (a : Nat) (b : Bytes) : (writeBytes s a b).slots = s.slots := rfl
@[simp] theorem writeBytes_barMarks (s : State) (a : Nat) (b : Bytes) : (writeBytes s a b).barMarks = s.barMarks := rfl
@[simp] theorem writeBytes_siteReqs (s : State) (a : Nat) (b : Bytes) : (writeBytes s a b).siteReqs = s.siteReqs := rfl
@[simp] theorem writeBytes_sites (s : State) (a : Nat) (b : Bytes) : (writeBytes s a b).sites = s.sites := rfl
@[simp] theorem writeBytes_out (s : State) (a : Nat) (b : Bytes) : (writeBytes s a b).out = s.out := rfl
@[simp] theorem writeBytes_free (s : State) (a : Nat) (b : Bytes) : (writeBytes s a b).free = s.free := rfl
@[simp] theorem writeBytes_pending (s : State) (a : Nat) (b : Bytes) : (writeBytes s a b).pending = s.pending := rfl
@[simp] theorem rd_writeBytes (s : State) (a : Nat) (b : Bytes) (q x : Nat) : rd (writeBytes s a b) q x = rd s q x := rfl
@[simp] theorem rf_writeBytes (s : State) (a : Nat) (b : Bytes) (q x lo m : Nat) : rf (writeBytes s a b) q x lo m = rf s q x lo m := rfl
@[simp] theorem rb_writeBytes (s : State) (a : Nat) (b : Bytes) (q x j : Nat) : rb (writeBytes s a b) q x j = rb s q x j := rfl

@[simp] theorem clearMem_regs (s : State) (lo hi : Nat) : (clearMem s lo hi).regs = s.regs := rfl
@[simp] theorem clearMem_hostMem (s : State) (lo hi : Nat) : (clearMem s lo hi).hostMem = s.hostMem := rfl
@[simp] theorem clearMem_fuse (s : State) (lo hi : Nat) : (clearMem s lo hi).fuse = s.fuse := rfl
@[simp] theorem clearMem_flash (s : State) (lo hi : Nat) : (clearMem s lo hi).flash = s.flash := rfl
@[simp] theorem clearMem_board (s : State) (lo hi : Nat) : (clearMem s lo hi).board = s.board := rfl
@[simp] theorem clearMem_boot (s : State) (lo hi : Nat) : (clearMem s lo hi).boot = s.boot := rfl
@[simp] theorem clearMem_pcie (s : State) (lo hi : Nat) : (clearMem s lo hi).pcie = s.pcie := rfl
@[simp] theorem clearMem_err (s : State) (lo hi : Nat) : (clearMem s lo hi).err = s.err := rfl
@[simp] theorem clearMem_evr (s : State) (lo hi : Nat) : (clearMem s lo hi).evr = s.evr := rfl
@[simp] theorem clearMem_mbx (s : State) (lo hi : Nat) : (clearMem s lo hi).mbx = s.mbx := rfl
@[simp] theorem clearMem_i3c (s : State) (lo hi : Nat) : (clearMem s lo hi).i3c = s.i3c := rfl
@[simp] theorem clearMem_sec (s : State) (lo hi : Nat) : (clearMem s lo hi).sec = s.sec := rfl
@[simp] theorem clearMem_ten (s : State) (lo hi : Nat) : (clearMem s lo hi).ten = s.ten := rfl
@[simp] theorem clearMem_chans (s : State) (lo hi : Nat) : (clearMem s lo hi).chans = s.chans := rfl
@[simp] theorem clearMem_pwr (s : State) (lo hi : Nat) : (clearMem s lo hi).pwr = s.pwr := rfl
@[simp] theorem clearMem_work (s : State) (lo hi : Nat) : (clearMem s lo hi).work = s.work := rfl
@[simp] theorem clearMem_ue (s : State) (lo hi : Nat) : (clearMem s lo hi).ue = s.ue := rfl
@[simp] theorem clearMem_weak (s : State) (lo hi : Nat) : (clearMem s lo hi).weak = s.weak := rfl
@[simp] theorem clearMem_heldPorts (s : State) (lo hi : Nat) : (clearMem s lo hi).heldPorts = s.heldPorts := rfl
@[simp] theorem clearMem_gate (s : State) (lo hi : Nat) : (clearMem s lo hi).gate = s.gate := rfl
@[simp] theorem clearMem_stalled (s : State) (lo hi : Nat) : (clearMem s lo hi).stalled = s.stalled := rfl
@[simp] theorem clearMem_hbm (s : State) (lo hi : Nat) : (clearMem s lo hi).hbm = s.hbm := rfl
@[simp] theorem clearMem_quay (s : State) (lo hi : Nat) : (clearMem s lo hi).quay = s.quay := rfl
@[simp] theorem clearMem_fab (s : State) (lo hi : Nat) : (clearMem s lo hi).fab = s.fab := rfl
@[simp] theorem clearMem_fetchHeld (s : State) (lo hi : Nat) : (clearMem s lo hi).fetchHeld = s.fetchHeld := rfl
@[simp] theorem clearMem_holds (s : State) (lo hi : Nat) : (clearMem s lo hi).holds = s.holds := rfl
@[simp] theorem clearMem_turns (s : State) (lo hi : Nat) : (clearMem s lo hi).turns = s.turns := rfl
@[simp] theorem clearMem_xlat (s : State) (lo hi : Nat) : (clearMem s lo hi).xlat = s.xlat := rfl
@[simp] theorem clearMem_coh (s : State) (lo hi : Nat) : (clearMem s lo hi).coh = s.coh := rfl
@[simp] theorem clearMem_fencing (s : State) (lo hi : Nat) : (clearMem s lo hi).fencing = s.fencing := rfl
@[simp] theorem clearMem_seFencing (s : State) (lo hi : Nat) : (clearMem s lo hi).seFencing = s.seFencing := rfl
@[simp] theorem clearMem_bankErrs (s : State) (lo hi : Nat) : (clearMem s lo hi).bankErrs = s.bankErrs := rfl
@[simp] theorem clearMem_bankMarks (s : State) (lo hi : Nat) : (clearMem s lo hi).bankMarks = s.bankMarks := rfl
@[simp] theorem clearMem_slots (s : State) (lo hi : Nat) : (clearMem s lo hi).slots = s.slots := rfl
@[simp] theorem clearMem_barMarks (s : State) (lo hi : Nat) : (clearMem s lo hi).barMarks = s.barMarks := rfl
@[simp] theorem clearMem_siteReqs (s : State) (lo hi : Nat) : (clearMem s lo hi).siteReqs = s.siteReqs := rfl
@[simp] theorem clearMem_sites (s : State) (lo hi : Nat) : (clearMem s lo hi).sites = s.sites := rfl
@[simp] theorem clearMem_out (s : State) (lo hi : Nat) : (clearMem s lo hi).out = s.out := rfl
@[simp] theorem clearMem_free (s : State) (lo hi : Nat) : (clearMem s lo hi).free = s.free := rfl
@[simp] theorem clearMem_pending (s : State) (lo hi : Nat) : (clearMem s lo hi).pending = s.pending := rfl
@[simp] theorem rd_clearMem (s : State) (lo hi : Nat) (q x : Nat) : rd (clearMem s lo hi) q x = rd s q x := rfl
@[simp] theorem rf_clearMem (s : State) (lo hi : Nat) (q x l m : Nat) : rf (clearMem s lo hi) q x l m = rf s q x l m := rfl
@[simp] theorem rb_clearMem (s : State) (lo hi : Nat) (q x j : Nat) : rb (clearMem s lo hi) q x j = rb s q x j := rfl

@[simp] theorem writeHost_regs (s : State) (a : Nat) (b : Bytes) : (writeHost s a b).regs = s.regs := rfl
@[simp] theorem writeHost_mem (s : State) (a : Nat) (b : Bytes) : (writeHost s a b).mem = s.mem := rfl
@[simp] theorem writeHost_fuse (s : State) (a : Nat) (b : Bytes) : (writeHost s a b).fuse = s.fuse := rfl
@[simp] theorem writeHost_flash (s : State) (a : Nat) (b : Bytes) : (writeHost s a b).flash = s.flash := rfl
@[simp] theorem writeHost_board (s : State) (a : Nat) (b : Bytes) : (writeHost s a b).board = s.board := rfl
@[simp] theorem writeHost_boot (s : State) (a : Nat) (b : Bytes) : (writeHost s a b).boot = s.boot := rfl
@[simp] theorem writeHost_pcie (s : State) (a : Nat) (b : Bytes) : (writeHost s a b).pcie = s.pcie := rfl
@[simp] theorem writeHost_err (s : State) (a : Nat) (b : Bytes) : (writeHost s a b).err = s.err := rfl
@[simp] theorem writeHost_evr (s : State) (a : Nat) (b : Bytes) : (writeHost s a b).evr = s.evr := rfl
@[simp] theorem writeHost_mbx (s : State) (a : Nat) (b : Bytes) : (writeHost s a b).mbx = s.mbx := rfl
@[simp] theorem writeHost_i3c (s : State) (a : Nat) (b : Bytes) : (writeHost s a b).i3c = s.i3c := rfl
@[simp] theorem writeHost_sec (s : State) (a : Nat) (b : Bytes) : (writeHost s a b).sec = s.sec := rfl
@[simp] theorem writeHost_ten (s : State) (a : Nat) (b : Bytes) : (writeHost s a b).ten = s.ten := rfl
@[simp] theorem writeHost_chans (s : State) (a : Nat) (b : Bytes) : (writeHost s a b).chans = s.chans := rfl
@[simp] theorem writeHost_pwr (s : State) (a : Nat) (b : Bytes) : (writeHost s a b).pwr = s.pwr := rfl
@[simp] theorem writeHost_work (s : State) (a : Nat) (b : Bytes) : (writeHost s a b).work = s.work := rfl
@[simp] theorem writeHost_ue (s : State) (a : Nat) (b : Bytes) : (writeHost s a b).ue = s.ue := rfl
@[simp] theorem writeHost_weak (s : State) (a : Nat) (b : Bytes) : (writeHost s a b).weak = s.weak := rfl
@[simp] theorem writeHost_heldPorts (s : State) (a : Nat) (b : Bytes) : (writeHost s a b).heldPorts = s.heldPorts := rfl
@[simp] theorem writeHost_gate (s : State) (a : Nat) (b : Bytes) : (writeHost s a b).gate = s.gate := rfl
@[simp] theorem writeHost_stalled (s : State) (a : Nat) (b : Bytes) : (writeHost s a b).stalled = s.stalled := rfl
@[simp] theorem writeHost_hbm (s : State) (a : Nat) (b : Bytes) : (writeHost s a b).hbm = s.hbm := rfl
@[simp] theorem writeHost_quay (s : State) (a : Nat) (b : Bytes) : (writeHost s a b).quay = s.quay := rfl
@[simp] theorem writeHost_fab (s : State) (a : Nat) (b : Bytes) : (writeHost s a b).fab = s.fab := rfl
@[simp] theorem writeHost_fetchHeld (s : State) (a : Nat) (b : Bytes) : (writeHost s a b).fetchHeld = s.fetchHeld := rfl
@[simp] theorem writeHost_holds (s : State) (a : Nat) (b : Bytes) : (writeHost s a b).holds = s.holds := rfl
@[simp] theorem writeHost_turns (s : State) (a : Nat) (b : Bytes) : (writeHost s a b).turns = s.turns := rfl
@[simp] theorem writeHost_xlat (s : State) (a : Nat) (b : Bytes) : (writeHost s a b).xlat = s.xlat := rfl
@[simp] theorem writeHost_coh (s : State) (a : Nat) (b : Bytes) : (writeHost s a b).coh = s.coh := rfl
@[simp] theorem writeHost_fencing (s : State) (a : Nat) (b : Bytes) : (writeHost s a b).fencing = s.fencing := rfl
@[simp] theorem writeHost_seFencing (s : State) (a : Nat) (b : Bytes) : (writeHost s a b).seFencing = s.seFencing := rfl
@[simp] theorem writeHost_bankErrs (s : State) (a : Nat) (b : Bytes) : (writeHost s a b).bankErrs = s.bankErrs := rfl
@[simp] theorem writeHost_bankMarks (s : State) (a : Nat) (b : Bytes) : (writeHost s a b).bankMarks = s.bankMarks := rfl
@[simp] theorem writeHost_slots (s : State) (a : Nat) (b : Bytes) : (writeHost s a b).slots = s.slots := rfl
@[simp] theorem writeHost_barMarks (s : State) (a : Nat) (b : Bytes) : (writeHost s a b).barMarks = s.barMarks := rfl
@[simp] theorem writeHost_siteReqs (s : State) (a : Nat) (b : Bytes) : (writeHost s a b).siteReqs = s.siteReqs := rfl
@[simp] theorem writeHost_sites (s : State) (a : Nat) (b : Bytes) : (writeHost s a b).sites = s.sites := rfl
@[simp] theorem writeHost_out (s : State) (a : Nat) (b : Bytes) : (writeHost s a b).out = s.out := rfl
@[simp] theorem writeHost_free (s : State) (a : Nat) (b : Bytes) : (writeHost s a b).free = s.free := rfl
@[simp] theorem writeHost_pending (s : State) (a : Nat) (b : Bytes) : (writeHost s a b).pending = s.pending := rfl
@[simp] theorem rd_writeHost (s : State) (a : Nat) (b : Bytes) (q x : Nat) : rd (writeHost s a b) q x = rd s q x := rfl
@[simp] theorem rf_writeHost (s : State) (a : Nat) (b : Bytes) (q x lo m : Nat) : rf (writeHost s a b) q x lo m = rf s q x lo m := rfl
@[simp] theorem rb_writeHost (s : State) (a : Nat) (b : Bytes) (q x j : Nat) : rb (writeHost s a b) q x j = rb s q x j := rfl

end Sys2Proof.Machine
end

