-- ==== Sys2Proof/Laws/Marks.lean ====
section
/-!
SUPPORT. What events, errors, rejections and changes of a page's or a partition's state leave as it was, field by
field; and reading a register through them.
-/

set_option Elab.async false

namespace Sys2Proof.Machine

open Sys2Proof

/-- Every register may differ. -/
def anyReg (_ _ : Nat) : Prop := True

theorem wr_any (s : State) (p off : Nat) (v : Word) : SameBut anyReg s (wr s p off v) :=
  .of_regs rfl (fun _ _ _ _ h => (h trivial).elim)

theorem wf_any (s : State) (p off lo n v : Nat) : SameBut anyReg s (wf s p off lo n v) := wr_any s p off _

theorem wb_any (s : State) (p off i : Nat) (b : Bool) : SameBut anyReg s (wb s p off i b) := wr_any s p off _

theorem addReg_any (s : State) (p off n : Nat) : SameBut anyReg s (addReg s p off n) := wr_any s p off _

theorem any_foldl {α} {f : State → α → State} (l : List α) (s : State) (hf : ∀ s x, SameBut anyReg s (f s x)) :
    SameBut anyReg s (l.foldl f s) := by
  induction l generalizing s with
  | nil => exact .refl _ _
  | cons a t ih => exact (hf s a).trans' (ih _)

theorem any_ite {c : Prop} [Decidable c] {s a b : State} (h1 : SameBut anyReg s a) (h2 : SameBut anyReg s b) :
    SameBut anyReg s (if c then a else b) := by
  split <;> assumption

theorem any_same {s t : State} (h : t = { s with err := { s.err with reports := t.err.reports } }) : SameBut anyReg s t := by
  refine ⟨fun _ _ _ _ h => (h trivial).elim, ?_, ?_, ?_, ?_, ?_, ?_, ?_⟩ <;> rw [h]

theorem emit_any (s : State) (o : Out) : SameBut anyReg s (emit s o) := (emit_sameBut s o).none

theorem rawEvt_any (s : State) (p b : Nat) : SameBut anyReg s (rawEvt s p b) := wr_any s _ _ _

theorem sendPme_any (s : State) (r : Nat) : SameBut anyReg s (sendPme s r) := by
  refine any_foldl _ _ fun s f => ?_
  split
  · rename_i c hc
    refine any_ite (SameBut.trans' (t := { s with pcie := { s.pcie with cfg := s.pcie.cfg.set f { c with pmeStatus := true } } })
      ⟨fun _ _ _ _ h => (h trivial).elim, rfl, rfl, ?_, rfl, rfl, rfl, List.prefix_refl _⟩ (emit_any _ _)) (.refl _ _)
    exact map_withoutPme_set _ _ _ hc
  · exact .refl _ _

theorem updWire_any (s : State) : SameBut anyReg s (updWire s) := by
  unfold updWire
  extract_lets lv rising x s1 wire y s2
  have h0 : SameBut anyReg s { s with pcie := { s.pcie with levels := lv } } :=
    ⟨fun _ _ _ _ h => (h trivial).elim, rfl, rfl, rfl, rfl, rfl, rfl, List.prefix_refl _⟩
  have h1 : SameBut anyReg s s1 := h0.trans' (sendPme_any { s with pcie := { s.pcie with levels := lv } } _)
  have h2 : SameBut anyReg s1 s2 := any_ite (.refl _ _)
    (SameBut.trans' (t := { s1 with pcie := { s1.pcie with wire := wire } })
      ⟨fun _ _ _ _ h => (h trivial).elim, rfl, rfl, rfl, rfl, rfl, rfl, List.prefix_refl _⟩ (emit_any _ _))
  refine (h1.trans' h2).trans' (any_ite ?_ (.refl _ _))
  exact ⟨fun _ _ _ _ h => (h trivial).elim, rfl, rfl, rfl, rfl, rfl, rfl, List.prefix_refl _⟩

theorem genWrite_any (s : State) (e : Entry) : SameBut anyReg s (genWrite s e) := by
  unfold genWrite
  have h0 : SameBut anyReg s { s with evr := { s.evr with gen := s.evr.gen ++ [e] } } :=
    ⟨fun _ _ _ _ h => (h trivial).elim, rfl, rfl, rfl, rfl, rfl, rfl, List.prefix_refl _⟩
  have he : ∀ (s : State) (code : Nat), SameBut anyReg s (evrErr s code) := by
    intro s code
    unfold evrErr
    extract_lets s1 s2 s3
    have h1 : SameBut anyReg s s1 := addReg_any _ _ _ _
    have h2 : SameBut anyReg s1 s2 := any_ite (wb_any _ _ _ _ _) (wr_any _ _ _ _)
    have h3 : SameBut anyReg s2 s3 := rawEvt_any _ _ _
    exact (h1.trans' (h2.trans' h3)).trans' ((any_same rfl).trans' (updWire_any _))
  refine any_ite ?_ ?_
  · refine (h0.trans' (wf_any _ _ _ _ _ _)).trans' (any_ite ?_ (.refl _ _))
    exact ((wb_any _ _ _ _ _).trans' (rawEvt_any _ _ _)).trans' (he _ _)
  · exact (any_ite (wr_any _ _ _ _) (.refl _ _)).trans' (addReg_any _ _ _ _)

theorem fireTriggers_any (s : State) (p b : Nat) : SameBut anyReg s (fireTriggers s p b) :=
  any_foldl _ _ fun s _ => any_ite (genWrite_any s _) (.refl _ _)

theorem raiseEvt_any (s : State) (p b : Nat) : SameBut anyReg s (raiseEvt s p b) :=
  any_ite (.refl _ _) ((rawEvt_any s p b).trans' ((fireTriggers_any _ p b).trans' (updWire_any _)))

theorem reject_any (s : State) (p : Nat) : SameBut anyReg s (reject s p) := (addReg_any s _ _ _).trans' (raiseEvt_any _ _ _)

theorem countErrorAt_any (s : State) (p code status cls : Nat) (ctx : Option Nat) (o : Nat) :
    SameBut anyReg s (countErrorAt s p code status cls ctx o) := by
  unfold countErrorAt
  extract_lets s1 s2 x s3
  have h1 : SameBut anyReg s s1 := addReg_any _ _ _ _
  have h2 : SameBut anyReg s1 s2 := by
    unfold s2; split
    · exact wb_any _ _ _ _ _
    · exact wr_any _ _ _ _
  have h3 : SameBut anyReg s2 s3 := any_same rfl
  exact (h1.trans' h2).trans' (h3.trans' (raiseEvt_any _ _ _))

theorem countError_any (s : State) (p code status cls : Nat) (ctx : Option Nat) :
    SameBut anyReg s (countError s p code status cls ctx) := countErrorAt_any _ _ _ _ _ _ _

theorem setState_any (s : State) (p st : Nat) : SameBut anyReg s (setState s p st) :=
  any_ite (.refl _ _) ((wf_any _ _ _ _ _ _).trans' (raiseEvt_any _ _ _))

theorem setPart_any (s : State) (k st : Nat) : SameBut anyReg s (setPart s k st) :=
  any_ite (.refl _ _) ((wf_any _ _ _ _ _ _).trans' (raiseEvt_any _ _ _))

theorem setSeal_any (s : State) (k : Nat) (b : Bool) : SameBut anyReg s (setSeal s k b) :=
  any_ite (.refl _ _) ((wb_any _ _ _ _ _).trans' (raiseEvt_any _ _ _))

theorem clearEvts_any (s : State) (p : Nat) (m : Word) : SameBut anyReg s (clearEvts s p m) :=
  (wr_any _ _ _ _).trans' (updWire_any _)

theorem updIso_any (s : State) : SameBut anyReg s (updIso s) :=
  any_foldl _ _ fun _ _ => any_ite (.refl _ _) ((wf_any _ _ _ _ _ _).trans' (raiseEvt_any _ _ _))

@[simp] theorem updWire_mem (s : State) : (updWire s).mem = s.mem := by rw [(updWire_any s).rest]
@[simp] theorem updWire_hostMem (s : State) : (updWire s).hostMem = s.hostMem := by rw [(updWire_any s).rest]
@[simp] theorem updWire_fuse (s : State) : (updWire s).fuse = s.fuse := by rw [(updWire_any s).rest]
@[simp] theorem updWire_flash (s : State) : (updWire s).flash = s.flash := by rw [(updWire_any s).rest]
@[simp] theorem updWire_boot (s : State) : (updWire s).boot = s.boot := by rw [(updWire_any s).rest]
@[simp] theorem updWire_mbx (s : State) : (updWire s).mbx = s.mbx := by rw [(updWire_any s).rest]
@[simp] theorem updWire_i3c (s : State) : (updWire s).i3c = s.i3c := by rw [(updWire_any s).rest]
@[simp] theorem updWire_sec (s : State) : (updWire s).sec = s.sec := by rw [(updWire_any s).rest]
@[simp] theorem updWire_ten (s : State) : (updWire s).ten = s.ten := by rw [(updWire_any s).rest]
@[simp] theorem updWire_chans (s : State) : (updWire s).chans = s.chans := by rw [(updWire_any s).rest]
@[simp] theorem updWire_pwr (s : State) : (updWire s).pwr = s.pwr := by rw [(updWire_any s).rest]
@[simp] theorem updWire_work (s : State) : (updWire s).work = s.work := by rw [(updWire_any s).rest]
@[simp] theorem updWire_ue (s : State) : (updWire s).ue = s.ue := by rw [(updWire_any s).rest]
@[simp] theorem updWire_weak (s : State) : (updWire s).weak = s.weak := by rw [(updWire_any s).rest]
@[simp] theorem updWire_heldPorts (s : State) : (updWire s).heldPorts = s.heldPorts := by rw [(updWire_any s).rest]
@[simp] theorem updWire_gate (s : State) : (updWire s).gate = s.gate := by rw [(updWire_any s).rest]
@[simp] theorem updWire_stalled (s : State) : (updWire s).stalled = s.stalled := by rw [(updWire_any s).rest]
@[simp] theorem updWire_hbm (s : State) : (updWire s).hbm = s.hbm := by rw [(updWire_any s).rest]
@[simp] theorem updWire_quay (s : State) : (updWire s).quay = s.quay := by rw [(updWire_any s).rest]
@[simp] theorem updWire_fab (s : State) : (updWire s).fab = s.fab := by rw [(updWire_any s).rest]
@[simp] theorem updWire_fetchHeld (s : State) : (updWire s).fetchHeld = s.fetchHeld := by rw [(updWire_any s).rest]
@[simp] theorem updWire_holds (s : State) : (updWire s).holds = s.holds := by rw [(updWire_any s).rest]
@[simp] theorem updWire_turns (s : State) : (updWire s).turns = s.turns := by rw [(updWire_any s).rest]
@[simp] theorem updWire_xlat (s : State) : (updWire s).xlat = s.xlat := by rw [(updWire_any s).rest]
@[simp] theorem updWire_coh (s : State) : (updWire s).coh = s.coh := by rw [(updWire_any s).rest]
@[simp] theorem updWire_fencing (s : State) : (updWire s).fencing = s.fencing := by rw [(updWire_any s).rest]
@[simp] theorem updWire_seFencing (s : State) : (updWire s).seFencing = s.seFencing := by rw [(updWire_any s).rest]
@[simp] theorem updWire_bankErrs (s : State) : (updWire s).bankErrs = s.bankErrs := by rw [(updWire_any s).rest]
@[simp] theorem updWire_bankMarks (s : State) : (updWire s).bankMarks = s.bankMarks := by rw [(updWire_any s).rest]
@[simp] theorem updWire_slots (s : State) : (updWire s).slots = s.slots := by rw [(updWire_any s).rest]
@[simp] theorem updWire_barMarks (s : State) : (updWire s).barMarks = s.barMarks := by rw [(updWire_any s).rest]
@[simp] theorem updWire_siteReqs (s : State) : (updWire s).siteReqs = s.siteReqs := by rw [(updWire_any s).rest]
@[simp] theorem updWire_sites (s : State) : (updWire s).sites = s.sites := by rw [(updWire_any s).rest]
@[simp] theorem updWire_free (s : State) : (updWire s).free = s.free := by rw [(updWire_any s).rest]
@[simp] theorem updWire_pending (s : State) : (updWire s).pending = s.pending := by rw [(updWire_any s).rest]

@[simp] theorem raiseEvt_mem (s : State) (p b : Nat) : (raiseEvt s p b).mem = s.mem := by rw [(raiseEvt_any s p b).rest]
@[simp] theorem raiseEvt_hostMem (s : State) (p b : Nat) : (raiseEvt s p b).hostMem = s.hostMem := by rw [(raiseEvt_any s p b).rest]
@[simp] theorem raiseEvt_fuse (s : State) (p b : Nat) : (raiseEvt s p b).fuse = s.fuse := by rw [(raiseEvt_any s p b).rest]
@[simp] theorem raiseEvt_flash (s : State) (p b : Nat) : (raiseEvt s p b).flash = s.flash := by rw [(raiseEvt_any s p b).rest]
@[simp] theorem raiseEvt_boot (s : State) (p b : Nat) : (raiseEvt s p b).boot = s.boot := by rw [(raiseEvt_any s p b).rest]
@[simp] theorem raiseEvt_mbx (s : State) (p b : Nat) : (raiseEvt s p b).mbx = s.mbx := by rw [(raiseEvt_any s p b).rest]
@[simp] theorem raiseEvt_i3c (s : State) (p b : Nat) : (raiseEvt s p b).i3c = s.i3c := by rw [(raiseEvt_any s p b).rest]
@[simp] theorem raiseEvt_sec (s : State) (p b : Nat) : (raiseEvt s p b).sec = s.sec := by rw [(raiseEvt_any s p b).rest]
@[simp] theorem raiseEvt_ten (s : State) (p b : Nat) : (raiseEvt s p b).ten = s.ten := by rw [(raiseEvt_any s p b).rest]
@[simp] theorem raiseEvt_chans (s : State) (p b : Nat) : (raiseEvt s p b).chans = s.chans := by rw [(raiseEvt_any s p b).rest]
@[simp] theorem raiseEvt_pwr (s : State) (p b : Nat) : (raiseEvt s p b).pwr = s.pwr := by rw [(raiseEvt_any s p b).rest]
@[simp] theorem raiseEvt_work (s : State) (p b : Nat) : (raiseEvt s p b).work = s.work := by rw [(raiseEvt_any s p b).rest]
@[simp] theorem raiseEvt_ue (s : State) (p b : Nat) : (raiseEvt s p b).ue = s.ue := by rw [(raiseEvt_any s p b).rest]
@[simp] theorem raiseEvt_weak (s : State) (p b : Nat) : (raiseEvt s p b).weak = s.weak := by rw [(raiseEvt_any s p b).rest]
@[simp] theorem raiseEvt_heldPorts (s : State) (p b : Nat) : (raiseEvt s p b).heldPorts = s.heldPorts := by rw [(raiseEvt_any s p b).rest]
@[simp] theorem raiseEvt_gate (s : State) (p b : Nat) : (raiseEvt s p b).gate = s.gate := by rw [(raiseEvt_any s p b).rest]
@[simp] theorem raiseEvt_stalled (s : State) (p b : Nat) : (raiseEvt s p b).stalled = s.stalled := by rw [(raiseEvt_any s p b).rest]
@[simp] theorem raiseEvt_hbm (s : State) (p b : Nat) : (raiseEvt s p b).hbm = s.hbm := by rw [(raiseEvt_any s p b).rest]
@[simp] theorem raiseEvt_quay (s : State) (p b : Nat) : (raiseEvt s p b).quay = s.quay := by rw [(raiseEvt_any s p b).rest]
@[simp] theorem raiseEvt_fab (s : State) (p b : Nat) : (raiseEvt s p b).fab = s.fab := by rw [(raiseEvt_any s p b).rest]
@[simp] theorem raiseEvt_fetchHeld (s : State) (p b : Nat) : (raiseEvt s p b).fetchHeld = s.fetchHeld := by rw [(raiseEvt_any s p b).rest]
@[simp] theorem raiseEvt_holds (s : State) (p b : Nat) : (raiseEvt s p b).holds = s.holds := by rw [(raiseEvt_any s p b).rest]
@[simp] theorem raiseEvt_turns (s : State) (p b : Nat) : (raiseEvt s p b).turns = s.turns := by rw [(raiseEvt_any s p b).rest]
@[simp] theorem raiseEvt_xlat (s : State) (p b : Nat) : (raiseEvt s p b).xlat = s.xlat := by rw [(raiseEvt_any s p b).rest]
@[simp] theorem raiseEvt_coh (s : State) (p b : Nat) : (raiseEvt s p b).coh = s.coh := by rw [(raiseEvt_any s p b).rest]
@[simp] theorem raiseEvt_fencing (s : State) (p b : Nat) : (raiseEvt s p b).fencing = s.fencing := by rw [(raiseEvt_any s p b).rest]
@[simp] theorem raiseEvt_seFencing (s : State) (p b : Nat) : (raiseEvt s p b).seFencing = s.seFencing := by rw [(raiseEvt_any s p b).rest]
@[simp] theorem raiseEvt_bankErrs (s : State) (p b : Nat) : (raiseEvt s p b).bankErrs = s.bankErrs := by rw [(raiseEvt_any s p b).rest]
@[simp] theorem raiseEvt_bankMarks (s : State) (p b : Nat) : (raiseEvt s p b).bankMarks = s.bankMarks := by rw [(raiseEvt_any s p b).rest]
@[simp] theorem raiseEvt_slots (s : State) (p b : Nat) : (raiseEvt s p b).slots = s.slots := by rw [(raiseEvt_any s p b).rest]
@[simp] theorem raiseEvt_barMarks (s : State) (p b : Nat) : (raiseEvt s p b).barMarks = s.barMarks := by rw [(raiseEvt_any s p b).rest]
@[simp] theorem raiseEvt_siteReqs (s : State) (p b : Nat) : (raiseEvt s p b).siteReqs = s.siteReqs := by rw [(raiseEvt_any s p b).rest]
@[simp] theorem raiseEvt_sites (s : State) (p b : Nat) : (raiseEvt s p b).sites = s.sites := by rw [(raiseEvt_any s p b).rest]
@[simp] theorem raiseEvt_free (s : State) (p b : Nat) : (raiseEvt s p b).free = s.free := by rw [(raiseEvt_any s p b).rest]
@[simp] theorem raiseEvt_pending (s : State) (p b : Nat) : (raiseEvt s p b).pending = s.pending := by rw [(raiseEvt_any s p b).rest]

@[simp] theorem reject_mem (s : State) (p : Nat) : (reject s p).mem = s.mem := by rw [(reject_any s p).rest]
@[simp] theorem reject_hostMem (s : State) (p : Nat) : (reject s p).hostMem = s.hostMem := by rw [(reject_any s p).rest]
@[simp] theorem reject_fuse (s : State) (p : Nat) : (reject s p).fuse = s.fuse := by rw [(reject_any s p).rest]
@[simp] theorem reject_flash (s : State) (p : Nat) : (reject s p).flash = s.flash := by rw [(reject_any s p).rest]
@[simp] theorem reject_boot (s : State) (p : Nat) : (reject s p).boot = s.boot := by rw [(reject_any s p).rest]
@[simp] theorem reject_mbx (s : State) (p : Nat) : (reject s p).mbx = s.mbx := by rw [(reject_any s p).rest]
@[simp] theorem reject_i3c (s : State) (p : Nat) : (reject s p).i3c = s.i3c := by rw [(reject_any s p).rest]
@[simp] theorem reject_sec (s : State) (p : Nat) : (reject s p).sec = s.sec := by rw [(reject_any s p).rest]
@[simp] theorem reject_ten (s : State) (p : Nat) : (reject s p).ten = s.ten := by rw [(reject_any s p).rest]
@[simp] theorem reject_chans (s : State) (p : Nat) : (reject s p).chans = s.chans := by rw [(reject_any s p).rest]
@[simp] theorem reject_pwr (s : State) (p : Nat) : (reject s p).pwr = s.pwr := by rw [(reject_any s p).rest]
@[simp] theorem reject_work (s : State) (p : Nat) : (reject s p).work = s.work := by rw [(reject_any s p).rest]
@[simp] theorem reject_ue (s : State) (p : Nat) : (reject s p).ue = s.ue := by rw [(reject_any s p).rest]
@[simp] theorem reject_weak (s : State) (p : Nat) : (reject s p).weak = s.weak := by rw [(reject_any s p).rest]
@[simp] theorem reject_heldPorts (s : State) (p : Nat) : (reject s p).heldPorts = s.heldPorts := by rw [(reject_any s p).rest]
@[simp] theorem reject_gate (s : State) (p : Nat) : (reject s p).gate = s.gate := by rw [(reject_any s p).rest]
@[simp] theorem reject_stalled (s : State) (p : Nat) : (reject s p).stalled = s.stalled := by rw [(reject_any s p).rest]
@[simp] theorem reject_hbm (s : State) (p : Nat) : (reject s p).hbm = s.hbm := by rw [(reject_any s p).rest]
@[simp] theorem reject_quay (s : State) (p : Nat) : (reject s p).quay = s.quay := by rw [(reject_any s p).rest]
@[simp] theorem reject_fab (s : State) (p : Nat) : (reject s p).fab = s.fab := by rw [(reject_any s p).rest]
@[simp] theorem reject_fetchHeld (s : State) (p : Nat) : (reject s p).fetchHeld = s.fetchHeld := by rw [(reject_any s p).rest]
@[simp] theorem reject_holds (s : State) (p : Nat) : (reject s p).holds = s.holds := by rw [(reject_any s p).rest]
@[simp] theorem reject_turns (s : State) (p : Nat) : (reject s p).turns = s.turns := by rw [(reject_any s p).rest]
@[simp] theorem reject_xlat (s : State) (p : Nat) : (reject s p).xlat = s.xlat := by rw [(reject_any s p).rest]
@[simp] theorem reject_coh (s : State) (p : Nat) : (reject s p).coh = s.coh := by rw [(reject_any s p).rest]
@[simp] theorem reject_fencing (s : State) (p : Nat) : (reject s p).fencing = s.fencing := by rw [(reject_any s p).rest]
@[simp] theorem reject_seFencing (s : State) (p : Nat) : (reject s p).seFencing = s.seFencing := by rw [(reject_any s p).rest]
@[simp] theorem reject_bankErrs (s : State) (p : Nat) : (reject s p).bankErrs = s.bankErrs := by rw [(reject_any s p).rest]
@[simp] theorem reject_bankMarks (s : State) (p : Nat) : (reject s p).bankMarks = s.bankMarks := by rw [(reject_any s p).rest]
@[simp] theorem reject_slots (s : State) (p : Nat) : (reject s p).slots = s.slots := by rw [(reject_any s p).rest]
@[simp] theorem reject_barMarks (s : State) (p : Nat) : (reject s p).barMarks = s.barMarks := by rw [(reject_any s p).rest]
@[simp] theorem reject_siteReqs (s : State) (p : Nat) : (reject s p).siteReqs = s.siteReqs := by rw [(reject_any s p).rest]
@[simp] theorem reject_sites (s : State) (p : Nat) : (reject s p).sites = s.sites := by rw [(reject_any s p).rest]
@[simp] theorem reject_free (s : State) (p : Nat) : (reject s p).free = s.free := by rw [(reject_any s p).rest]
@[simp] theorem reject_pending (s : State) (p : Nat) : (reject s p).pending = s.pending := by rw [(reject_any s p).rest]

@[simp] theorem countErrorAt_mem (s : State) (p code status cls : Nat) (ctx : Option Nat) (o : Nat) : (countErrorAt s p code status cls ctx o).mem = s.mem := by rw [(countErrorAt_any s p code status cls ctx o).rest]
@[simp] theorem countErrorAt_hostMem (s : State) (p code status cls : Nat) (ctx : Option Nat) (o : Nat) : (countErrorAt s p code status cls ctx o).hostMem = s.hostMem := by rw [(countErrorAt_any s p code status cls ctx o).rest]
@[simp] theorem countErrorAt_fuse (s : State) (p code status cls : Nat) (ctx : Option Nat) (o : Nat) : (countErrorAt s p code status cls ctx o).fuse = s.fuse := by rw [(countErrorAt_any s p code status cls ctx o).rest]
@[simp] theorem countErrorAt_flash (s : State) (p code status cls : Nat) (ctx : Option Nat) (o : Nat) : (countErrorAt s p code status cls ctx o).flash = s.flash := by rw [(countErrorAt_any s p code status cls ctx o).rest]
@[simp] theorem countErrorAt_boot (s : State) (p code status cls : Nat) (ctx : Option Nat) (o : Nat) : (countErrorAt s p code status cls ctx o).boot = s.boot := by rw [(countErrorAt_any s p code status cls ctx o).rest]
@[simp] theorem countErrorAt_mbx (s : State) (p code status cls : Nat) (ctx : Option Nat) (o : Nat) : (countErrorAt s p code status cls ctx o).mbx = s.mbx := by rw [(countErrorAt_any s p code status cls ctx o).rest]
@[simp] theorem countErrorAt_i3c (s : State) (p code status cls : Nat) (ctx : Option Nat) (o : Nat) : (countErrorAt s p code status cls ctx o).i3c = s.i3c := by rw [(countErrorAt_any s p code status cls ctx o).rest]
@[simp] theorem countErrorAt_sec (s : State) (p code status cls : Nat) (ctx : Option Nat) (o : Nat) : (countErrorAt s p code status cls ctx o).sec = s.sec := by rw [(countErrorAt_any s p code status cls ctx o).rest]
@[simp] theorem countErrorAt_ten (s : State) (p code status cls : Nat) (ctx : Option Nat) (o : Nat) : (countErrorAt s p code status cls ctx o).ten = s.ten := by rw [(countErrorAt_any s p code status cls ctx o).rest]
@[simp] theorem countErrorAt_chans (s : State) (p code status cls : Nat) (ctx : Option Nat) (o : Nat) : (countErrorAt s p code status cls ctx o).chans = s.chans := by rw [(countErrorAt_any s p code status cls ctx o).rest]
@[simp] theorem countErrorAt_pwr (s : State) (p code status cls : Nat) (ctx : Option Nat) (o : Nat) : (countErrorAt s p code status cls ctx o).pwr = s.pwr := by rw [(countErrorAt_any s p code status cls ctx o).rest]
@[simp] theorem countErrorAt_work (s : State) (p code status cls : Nat) (ctx : Option Nat) (o : Nat) : (countErrorAt s p code status cls ctx o).work = s.work := by rw [(countErrorAt_any s p code status cls ctx o).rest]
@[simp] theorem countErrorAt_ue (s : State) (p code status cls : Nat) (ctx : Option Nat) (o : Nat) : (countErrorAt s p code status cls ctx o).ue = s.ue := by rw [(countErrorAt_any s p code status cls ctx o).rest]
@[simp] theorem countErrorAt_weak (s : State) (p code status cls : Nat) (ctx : Option Nat) (o : Nat) : (countErrorAt s p code status cls ctx o).weak = s.weak := by rw [(countErrorAt_any s p code status cls ctx o).rest]
@[simp] theorem countErrorAt_heldPorts (s : State) (p code status cls : Nat) (ctx : Option Nat) (o : Nat) : (countErrorAt s p code status cls ctx o).heldPorts = s.heldPorts := by rw [(countErrorAt_any s p code status cls ctx o).rest]
@[simp] theorem countErrorAt_gate (s : State) (p code status cls : Nat) (ctx : Option Nat) (o : Nat) : (countErrorAt s p code status cls ctx o).gate = s.gate := by rw [(countErrorAt_any s p code status cls ctx o).rest]
@[simp] theorem countErrorAt_stalled (s : State) (p code status cls : Nat) (ctx : Option Nat) (o : Nat) : (countErrorAt s p code status cls ctx o).stalled = s.stalled := by rw [(countErrorAt_any s p code status cls ctx o).rest]
@[simp] theorem countErrorAt_hbm (s : State) (p code status cls : Nat) (ctx : Option Nat) (o : Nat) : (countErrorAt s p code status cls ctx o).hbm = s.hbm := by rw [(countErrorAt_any s p code status cls ctx o).rest]
@[simp] theorem countErrorAt_quay (s : State) (p code status cls : Nat) (ctx : Option Nat) (o : Nat) : (countErrorAt s p code status cls ctx o).quay = s.quay := by rw [(countErrorAt_any s p code status cls ctx o).rest]
@[simp] theorem countErrorAt_fab (s : State) (p code status cls : Nat) (ctx : Option Nat) (o : Nat) : (countErrorAt s p code status cls ctx o).fab = s.fab := by rw [(countErrorAt_any s p code status cls ctx o).rest]
@[simp] theorem countErrorAt_fetchHeld (s : State) (p code status cls : Nat) (ctx : Option Nat) (o : Nat) : (countErrorAt s p code status cls ctx o).fetchHeld = s.fetchHeld := by rw [(countErrorAt_any s p code status cls ctx o).rest]
@[simp] theorem countErrorAt_holds (s : State) (p code status cls : Nat) (ctx : Option Nat) (o : Nat) : (countErrorAt s p code status cls ctx o).holds = s.holds := by rw [(countErrorAt_any s p code status cls ctx o).rest]
@[simp] theorem countErrorAt_turns (s : State) (p code status cls : Nat) (ctx : Option Nat) (o : Nat) : (countErrorAt s p code status cls ctx o).turns = s.turns := by rw [(countErrorAt_any s p code status cls ctx o).rest]
@[simp] theorem countErrorAt_xlat (s : State) (p code status cls : Nat) (ctx : Option Nat) (o : Nat) : (countErrorAt s p code status cls ctx o).xlat = s.xlat := by rw [(countErrorAt_any s p code status cls ctx o).rest]
@[simp] theorem countErrorAt_coh (s : State) (p code status cls : Nat) (ctx : Option Nat) (o : Nat) : (countErrorAt s p code status cls ctx o).coh = s.coh := by rw [(countErrorAt_any s p code status cls ctx o).rest]
@[simp] theorem countErrorAt_fencing (s : State) (p code status cls : Nat) (ctx : Option Nat) (o : Nat) : (countErrorAt s p code status cls ctx o).fencing = s.fencing := by rw [(countErrorAt_any s p code status cls ctx o).rest]
@[simp] theorem countErrorAt_seFencing (s : State) (p code status cls : Nat) (ctx : Option Nat) (o : Nat) : (countErrorAt s p code status cls ctx o).seFencing = s.seFencing := by rw [(countErrorAt_any s p code status cls ctx o).rest]
@[simp] theorem countErrorAt_bankErrs (s : State) (p code status cls : Nat) (ctx : Option Nat) (o : Nat) : (countErrorAt s p code status cls ctx o).bankErrs = s.bankErrs := by rw [(countErrorAt_any s p code status cls ctx o).rest]
@[simp] theorem countErrorAt_bankMarks (s : State) (p code status cls : Nat) (ctx : Option Nat) (o : Nat) : (countErrorAt s p code status cls ctx o).bankMarks = s.bankMarks := by rw [(countErrorAt_any s p code status cls ctx o).rest]
@[simp] theorem countErrorAt_slots (s : State) (p code status cls : Nat) (ctx : Option Nat) (o : Nat) : (countErrorAt s p code status cls ctx o).slots = s.slots := by rw [(countErrorAt_any s p code status cls ctx o).rest]
@[simp] theorem countErrorAt_barMarks (s : State) (p code status cls : Nat) (ctx : Option Nat) (o : Nat) : (countErrorAt s p code status cls ctx o).barMarks = s.barMarks := by rw [(countErrorAt_any s p code status cls ctx o).rest]
@[simp] theorem countErrorAt_siteReqs (s : State) (p code status cls : Nat) (ctx : Option Nat) (o : Nat) : (countErrorAt s p code status cls ctx o).siteReqs = s.siteReqs := by rw [(countErrorAt_any s p code status cls ctx o).rest]
@[simp] theorem countErrorAt_sites (s : State) (p code status cls : Nat) (ctx : Option Nat) (o : Nat) : (countErrorAt s p code status cls ctx o).sites = s.sites := by rw [(countErrorAt_any s p code status cls ctx o).rest]
@[simp] theorem countErrorAt_free (s : State) (p code status cls : Nat) (ctx : Option Nat) (o : Nat) : (countErrorAt s p code status cls ctx o).free = s.free := by rw [(countErrorAt_any s p code status cls ctx o).rest]
@[simp] theorem countErrorAt_pending (s : State) (p code status cls : Nat) (ctx : Option Nat) (o : Nat) : (countErrorAt s p code status cls ctx o).pending = s.pending := by rw [(countErrorAt_any s p code status cls ctx o).rest]

@[simp] theorem countError_mem (s : State) (p code status cls : Nat) (ctx : Option Nat) : (countError s p code status cls ctx).mem = s.mem := by rw [(countError_any s p code status cls ctx).rest]
@[simp] theorem countError_hostMem (s : State) (p code status cls : Nat) (ctx : Option Nat) : (countError s p code status cls ctx).hostMem = s.hostMem := by rw [(countError_any s p code status cls ctx).rest]
@[simp] theorem countError_fuse (s : State) (p code status cls : Nat) (ctx : Option Nat) : (countError s p code status cls ctx).fuse = s.fuse := by rw [(countError_any s p code status cls ctx).rest]
@[simp] theorem countError_flash (s : State) (p code status cls : Nat) (ctx : Option Nat) : (countError s p code status cls ctx).flash = s.flash := by rw [(countError_any s p code status cls ctx).rest]
@[simp] theorem countError_boot (s : State) (p code status cls : Nat) (ctx : Option Nat) : (countError s p code status cls ctx).boot = s.boot := by rw [(countError_any s p code status cls ctx).rest]
@[simp] theorem countError_mbx (s : State) (p code status cls : Nat) (ctx : Option Nat) : (countError s p code status cls ctx).mbx = s.mbx := by rw [(countError_any s p code status cls ctx).rest]
@[simp] theorem countError_i3c (s : State) (p code status cls : Nat) (ctx : Option Nat) : (countError s p code status cls ctx).i3c = s.i3c := by rw [(countError_any s p code status cls ctx).rest]
@[simp] theorem countError_sec (s : State) (p code status cls : Nat) (ctx : Option Nat) : (countError s p code status cls ctx).sec = s.sec := by rw [(countError_any s p code status cls ctx).rest]
@[simp] theorem countError_ten (s : State) (p code status cls : Nat) (ctx : Option Nat) : (countError s p code status cls ctx).ten = s.ten := by rw [(countError_any s p code status cls ctx).rest]
@[simp] theorem countError_chans (s : State) (p code status cls : Nat) (ctx : Option Nat) : (countError s p code status cls ctx).chans = s.chans := by rw [(countError_any s p code status cls ctx).rest]
@[simp] theorem countError_pwr (s : State) (p code status cls : Nat) (ctx : Option Nat) : (countError s p code status cls ctx).pwr = s.pwr := by rw [(countError_any s p code status cls ctx).rest]
@[simp] theorem countError_work (s : State) (p code status cls : Nat) (ctx : Option Nat) : (countError s p code status cls ctx).work = s.work := by rw [(countError_any s p code status cls ctx).rest]
@[simp] theorem countError_ue (s : State) (p code status cls : Nat) (ctx : Option Nat) : (countError s p code status cls ctx).ue = s.ue := by rw [(countError_any s p code status cls ctx).rest]
@[simp] theorem countError_weak (s : State) (p code status cls : Nat) (ctx : Option Nat) : (countError s p code status cls ctx).weak = s.weak := by rw [(countError_any s p code status cls ctx).rest]
@[simp] theorem countError_heldPorts (s : State) (p code status cls : Nat) (ctx : Option Nat) : (countError s p code status cls ctx).heldPorts = s.heldPorts := by rw [(countError_any s p code status cls ctx).rest]
@[simp] theorem countError_gate (s : State) (p code status cls : Nat) (ctx : Option Nat) : (countError s p code status cls ctx).gate = s.gate := by rw [(countError_any s p code status cls ctx).rest]
@[simp] theorem countError_stalled (s : State) (p code status cls : Nat) (ctx : Option Nat) : (countError s p code status cls ctx).stalled = s.stalled := by rw [(countError_any s p code status cls ctx).rest]
@[simp] theorem countError_hbm (s : State) (p code status cls : Nat) (ctx : Option Nat) : (countError s p code status cls ctx).hbm = s.hbm := by rw [(countError_any s p code status cls ctx).rest]
@[simp] theorem countError_quay (s : State) (p code status cls : Nat) (ctx : Option Nat) : (countError s p code status cls ctx).quay = s.quay := by rw [(countError_any s p code status cls ctx).rest]
@[simp] theorem countError_fab (s : State) (p code status cls : Nat) (ctx : Option Nat) : (countError s p code status cls ctx).fab = s.fab := by rw [(countError_any s p code status cls ctx).rest]
@[simp] theorem countError_fetchHeld (s : State) (p code status cls : Nat) (ctx : Option Nat) : (countError s p code status cls ctx).fetchHeld = s.fetchHeld := by rw [(countError_any s p code status cls ctx).rest]
@[simp] theorem countError_holds (s : State) (p code status cls : Nat) (ctx : Option Nat) : (countError s p code status cls ctx).holds = s.holds := by rw [(countError_any s p code status cls ctx).rest]
@[simp] theorem countError_turns (s : State) (p code status cls : Nat) (ctx : Option Nat) : (countError s p code status cls ctx).turns = s.turns := by rw [(countError_any s p code status cls ctx).rest]
@[simp] theorem countError_xlat (s : State) (p code status cls : Nat) (ctx : Option Nat) : (countError s p code status cls ctx).xlat = s.xlat := by rw [(countError_any s p code status cls ctx).rest]
@[simp] theorem countError_coh (s : State) (p code status cls : Nat) (ctx : Option Nat) : (countError s p code status cls ctx).coh = s.coh := by rw [(countError_any s p code status cls ctx).rest]
@[simp] theorem countError_fencing (s : State) (p code status cls : Nat) (ctx : Option Nat) : (countError s p code status cls ctx).fencing = s.fencing := by rw [(countError_any s p code status cls ctx).rest]
@[simp] theorem countError_seFencing (s : State) (p code status cls : Nat) (ctx : Option Nat) : (countError s p code status cls ctx).seFencing = s.seFencing := by rw [(countError_any s p code status cls ctx).rest]
@[simp] theorem countError_bankErrs (s : State) (p code status cls : Nat) (ctx : Option Nat) : (countError s p code status cls ctx).bankErrs = s.bankErrs := by rw [(countError_any s p code status cls ctx).rest]
@[simp] theorem countError_bankMarks (s : State) (p code status cls : Nat) (ctx : Option Nat) : (countError s p code status cls ctx).bankMarks = s.bankMarks := by rw [(countError_any s p code status cls ctx).rest]
@[simp] theorem countError_slots (s : State) (p code status cls : Nat) (ctx : Option Nat) : (countError s p code status cls ctx).slots = s.slots := by rw [(countError_any s p code status cls ctx).rest]
@[simp] theorem countError_barMarks (s : State) (p code status cls : Nat) (ctx : Option Nat) : (countError s p code status cls ctx).barMarks = s.barMarks := by rw [(countError_any s p code status cls ctx).rest]
@[simp] theorem countError_siteReqs (s : State) (p code status cls : Nat) (ctx : Option Nat) : (countError s p code status cls ctx).siteReqs = s.siteReqs := by rw [(countError_any s p code status cls ctx).rest]
@[simp] theorem countError_sites (s : State) (p code status cls : Nat) (ctx : Option Nat) : (countError s p code status cls ctx).sites = s.sites := by rw [(countError_any s p code status cls ctx).rest]
@[simp] theorem countError_free (s : State) (p code status cls : Nat) (ctx : Option Nat) : (countError s p code status cls ctx).free = s.free := by rw [(countError_any s p code status cls ctx).rest]
@[simp] theorem countError_pending (s : State) (p code status cls : Nat) (ctx : Option Nat) : (countError s p code status cls ctx).pending = s.pending := by rw [(countError_any s p code status cls ctx).rest]

@[simp] theorem setState_mem (s : State) (p st : Nat) : (setState s p st).mem = s.mem := by rw [(setState_any s p st).rest]
@[simp] theorem setState_hostMem (s : State) (p st : Nat) : (setState s p st).hostMem = s.hostMem := by rw [(setState_any s p st).rest]
@[simp] theorem setState_fuse (s : State) (p st : Nat) : (setState s p st).fuse = s.fuse := by rw [(setState_any s p st).rest]
@[simp] theorem setState_flash (s : State) (p st : Nat) : (setState s p st).flash = s.flash := by rw [(setState_any s p st).rest]
@[simp] theorem setState_boot (s : State) (p st : Nat) : (setState s p st).boot = s.boot := by rw [(setState_any s p st).rest]
@[simp] theorem setState_mbx (s : State) (p st : Nat) : (setState s p st).mbx = s.mbx := by rw [(setState_any s p st).rest]
@[simp] theorem setState_i3c (s : State) (p st : Nat) : (setState s p st).i3c = s.i3c := by rw [(setState_any s p st).rest]
@[simp] theorem setState_sec (s : State) (p st : Nat) : (setState s p st).sec = s.sec := by rw [(setState_any s p st).rest]
@[simp] theorem setState_ten (s : State) (p st : Nat) : (setState s p st).ten = s.ten := by rw [(setState_any s p st).rest]
@[simp] theorem setState_chans (s : State) (p st : Nat) : (setState s p st).chans = s.chans := by rw [(setState_any s p st).rest]
@[simp] theorem setState_pwr (s : State) (p st : Nat) : (setState s p st).pwr = s.pwr := by rw [(setState_any s p st).rest]
@[simp] theorem setState_work (s : State) (p st : Nat) : (setState s p st).work = s.work := by rw [(setState_any s p st).rest]
@[simp] theorem setState_ue (s : State) (p st : Nat) : (setState s p st).ue = s.ue := by rw [(setState_any s p st).rest]
@[simp] theorem setState_weak (s : State) (p st : Nat) : (setState s p st).weak = s.weak := by rw [(setState_any s p st).rest]
@[simp] theorem setState_heldPorts (s : State) (p st : Nat) : (setState s p st).heldPorts = s.heldPorts := by rw [(setState_any s p st).rest]
@[simp] theorem setState_gate (s : State) (p st : Nat) : (setState s p st).gate = s.gate := by rw [(setState_any s p st).rest]
@[simp] theorem setState_stalled (s : State) (p st : Nat) : (setState s p st).stalled = s.stalled := by rw [(setState_any s p st).rest]
@[simp] theorem setState_hbm (s : State) (p st : Nat) : (setState s p st).hbm = s.hbm := by rw [(setState_any s p st).rest]
@[simp] theorem setState_quay (s : State) (p st : Nat) : (setState s p st).quay = s.quay := by rw [(setState_any s p st).rest]
@[simp] theorem setState_fab (s : State) (p st : Nat) : (setState s p st).fab = s.fab := by rw [(setState_any s p st).rest]
@[simp] theorem setState_fetchHeld (s : State) (p st : Nat) : (setState s p st).fetchHeld = s.fetchHeld := by rw [(setState_any s p st).rest]
@[simp] theorem setState_holds (s : State) (p st : Nat) : (setState s p st).holds = s.holds := by rw [(setState_any s p st).rest]
@[simp] theorem setState_turns (s : State) (p st : Nat) : (setState s p st).turns = s.turns := by rw [(setState_any s p st).rest]
@[simp] theorem setState_xlat (s : State) (p st : Nat) : (setState s p st).xlat = s.xlat := by rw [(setState_any s p st).rest]
@[simp] theorem setState_coh (s : State) (p st : Nat) : (setState s p st).coh = s.coh := by rw [(setState_any s p st).rest]
@[simp] theorem setState_fencing (s : State) (p st : Nat) : (setState s p st).fencing = s.fencing := by rw [(setState_any s p st).rest]
@[simp] theorem setState_seFencing (s : State) (p st : Nat) : (setState s p st).seFencing = s.seFencing := by rw [(setState_any s p st).rest]
@[simp] theorem setState_bankErrs (s : State) (p st : Nat) : (setState s p st).bankErrs = s.bankErrs := by rw [(setState_any s p st).rest]
@[simp] theorem setState_bankMarks (s : State) (p st : Nat) : (setState s p st).bankMarks = s.bankMarks := by rw [(setState_any s p st).rest]
@[simp] theorem setState_slots (s : State) (p st : Nat) : (setState s p st).slots = s.slots := by rw [(setState_any s p st).rest]
@[simp] theorem setState_barMarks (s : State) (p st : Nat) : (setState s p st).barMarks = s.barMarks := by rw [(setState_any s p st).rest]
@[simp] theorem setState_siteReqs (s : State) (p st : Nat) : (setState s p st).siteReqs = s.siteReqs := by rw [(setState_any s p st).rest]
@[simp] theorem setState_sites (s : State) (p st : Nat) : (setState s p st).sites = s.sites := by rw [(setState_any s p st).rest]
@[simp] theorem setState_free (s : State) (p st : Nat) : (setState s p st).free = s.free := by rw [(setState_any s p st).rest]
@[simp] theorem setState_pending (s : State) (p st : Nat) : (setState s p st).pending = s.pending := by rw [(setState_any s p st).rest]

@[simp] theorem setPart_mem (s : State) (k st : Nat) : (setPart s k st).mem = s.mem := by rw [(setPart_any s k st).rest]
@[simp] theorem setPart_hostMem (s : State) (k st : Nat) : (setPart s k st).hostMem = s.hostMem := by rw [(setPart_any s k st).rest]
@[simp] theorem setPart_fuse (s : State) (k st : Nat) : (setPart s k st).fuse = s.fuse := by rw [(setPart_any s k st).rest]
@[simp] theorem setPart_flash (s : State) (k st : Nat) : (setPart s k st).flash = s.flash := by rw [(setPart_any s k st).rest]
@[simp] theorem setPart_boot (s : State) (k st : Nat) : (setPart s k st).boot = s.boot := by rw [(setPart_any s k st).rest]
@[simp] theorem setPart_mbx (s : State) (k st : Nat) : (setPart s k st).mbx = s.mbx := by rw [(setPart_any s k st).rest]
@[simp] theorem setPart_i3c (s : State) (k st : Nat) : (setPart s k st).i3c = s.i3c := by rw [(setPart_any s k st).rest]
@[simp] theorem setPart_sec (s : State) (k st : Nat) : (setPart s k st).sec = s.sec := by rw [(setPart_any s k st).rest]
@[simp] theorem setPart_ten (s : State) (k st : Nat) : (setPart s k st).ten = s.ten := by rw [(setPart_any s k st).rest]
@[simp] theorem setPart_chans (s : State) (k st : Nat) : (setPart s k st).chans = s.chans := by rw [(setPart_any s k st).rest]
@[simp] theorem setPart_pwr (s : State) (k st : Nat) : (setPart s k st).pwr = s.pwr := by rw [(setPart_any s k st).rest]
@[simp] theorem setPart_work (s : State) (k st : Nat) : (setPart s k st).work = s.work := by rw [(setPart_any s k st).rest]
@[simp] theorem setPart_ue (s : State) (k st : Nat) : (setPart s k st).ue = s.ue := by rw [(setPart_any s k st).rest]
@[simp] theorem setPart_weak (s : State) (k st : Nat) : (setPart s k st).weak = s.weak := by rw [(setPart_any s k st).rest]
@[simp] theorem setPart_heldPorts (s : State) (k st : Nat) : (setPart s k st).heldPorts = s.heldPorts := by rw [(setPart_any s k st).rest]
@[simp] theorem setPart_gate (s : State) (k st : Nat) : (setPart s k st).gate = s.gate := by rw [(setPart_any s k st).rest]
@[simp] theorem setPart_stalled (s : State) (k st : Nat) : (setPart s k st).stalled = s.stalled := by rw [(setPart_any s k st).rest]
@[simp] theorem setPart_hbm (s : State) (k st : Nat) : (setPart s k st).hbm = s.hbm := by rw [(setPart_any s k st).rest]
@[simp] theorem setPart_quay (s : State) (k st : Nat) : (setPart s k st).quay = s.quay := by rw [(setPart_any s k st).rest]
@[simp] theorem setPart_fab (s : State) (k st : Nat) : (setPart s k st).fab = s.fab := by rw [(setPart_any s k st).rest]
@[simp] theorem setPart_fetchHeld (s : State) (k st : Nat) : (setPart s k st).fetchHeld = s.fetchHeld := by rw [(setPart_any s k st).rest]
@[simp] theorem setPart_holds (s : State) (k st : Nat) : (setPart s k st).holds = s.holds := by rw [(setPart_any s k st).rest]
@[simp] theorem setPart_turns (s : State) (k st : Nat) : (setPart s k st).turns = s.turns := by rw [(setPart_any s k st).rest]
@[simp] theorem setPart_xlat (s : State) (k st : Nat) : (setPart s k st).xlat = s.xlat := by rw [(setPart_any s k st).rest]
@[simp] theorem setPart_coh (s : State) (k st : Nat) : (setPart s k st).coh = s.coh := by rw [(setPart_any s k st).rest]
@[simp] theorem setPart_fencing (s : State) (k st : Nat) : (setPart s k st).fencing = s.fencing := by rw [(setPart_any s k st).rest]
@[simp] theorem setPart_seFencing (s : State) (k st : Nat) : (setPart s k st).seFencing = s.seFencing := by rw [(setPart_any s k st).rest]
@[simp] theorem setPart_bankErrs (s : State) (k st : Nat) : (setPart s k st).bankErrs = s.bankErrs := by rw [(setPart_any s k st).rest]
@[simp] theorem setPart_bankMarks (s : State) (k st : Nat) : (setPart s k st).bankMarks = s.bankMarks := by rw [(setPart_any s k st).rest]
@[simp] theorem setPart_slots (s : State) (k st : Nat) : (setPart s k st).slots = s.slots := by rw [(setPart_any s k st).rest]
@[simp] theorem setPart_barMarks (s : State) (k st : Nat) : (setPart s k st).barMarks = s.barMarks := by rw [(setPart_any s k st).rest]
@[simp] theorem setPart_siteReqs (s : State) (k st : Nat) : (setPart s k st).siteReqs = s.siteReqs := by rw [(setPart_any s k st).rest]
@[simp] theorem setPart_sites (s : State) (k st : Nat) : (setPart s k st).sites = s.sites := by rw [(setPart_any s k st).rest]
@[simp] theorem setPart_free (s : State) (k st : Nat) : (setPart s k st).free = s.free := by rw [(setPart_any s k st).rest]
@[simp] theorem setPart_pending (s : State) (k st : Nat) : (setPart s k st).pending = s.pending := by rw [(setPart_any s k st).rest]

@[simp] theorem setSeal_mem (s : State) (k : Nat) (b : Bool) : (setSeal s k b).mem = s.mem := by rw [(setSeal_any s k b).rest]
@[simp] theorem setSeal_hostMem (s : State) (k : Nat) (b : Bool) : (setSeal s k b).hostMem = s.hostMem := by rw [(setSeal_any s k b).rest]
@[simp] theorem setSeal_fuse (s : State) (k : Nat) (b : Bool) : (setSeal s k b).fuse = s.fuse := by rw [(setSeal_any s k b).rest]
@[simp] theorem setSeal_flash (s : State) (k : Nat) (b : Bool) : (setSeal s k b).flash = s.flash := by rw [(setSeal_any s k b).rest]
@[simp] theorem setSeal_boot (s : State) (k : Nat) (b : Bool) : (setSeal s k b).boot = s.boot := by rw [(setSeal_any s k b).rest]
@[simp] theorem setSeal_mbx (s : State) (k : Nat) (b : Bool) : (setSeal s k b).mbx = s.mbx := by rw [(setSeal_any s k b).rest]
@[simp] theorem setSeal_i3c (s : State) (k : Nat) (b : Bool) : (setSeal s k b).i3c = s.i3c := by rw [(setSeal_any s k b).rest]
@[simp] theorem setSeal_sec (s : State) (k : Nat) (b : Bool) : (setSeal s k b).sec = s.sec := by rw [(setSeal_any s k b).rest]
@[simp] theorem setSeal_ten (s : State) (k : Nat) (b : Bool) : (setSeal s k b).ten = s.ten := by rw [(setSeal_any s k b).rest]
@[simp] theorem setSeal_chans (s : State) (k : Nat) (b : Bool) : (setSeal s k b).chans = s.chans := by rw [(setSeal_any s k b).rest]
@[simp] theorem setSeal_pwr (s : State) (k : Nat) (b : Bool) : (setSeal s k b).pwr = s.pwr := by rw [(setSeal_any s k b).rest]
@[simp] theorem setSeal_work (s : State) (k : Nat) (b : Bool) : (setSeal s k b).work = s.work := by rw [(setSeal_any s k b).rest]
@[simp] theorem setSeal_ue (s : State) (k : Nat) (b : Bool) : (setSeal s k b).ue = s.ue := by rw [(setSeal_any s k b).rest]
@[simp] theorem setSeal_weak (s : State) (k : Nat) (b : Bool) : (setSeal s k b).weak = s.weak := by rw [(setSeal_any s k b).rest]
@[simp] theorem setSeal_heldPorts (s : State) (k : Nat) (b : Bool) : (setSeal s k b).heldPorts = s.heldPorts := by rw [(setSeal_any s k b).rest]
@[simp] theorem setSeal_gate (s : State) (k : Nat) (b : Bool) : (setSeal s k b).gate = s.gate := by rw [(setSeal_any s k b).rest]
@[simp] theorem setSeal_stalled (s : State) (k : Nat) (b : Bool) : (setSeal s k b).stalled = s.stalled := by rw [(setSeal_any s k b).rest]
@[simp] theorem setSeal_hbm (s : State) (k : Nat) (b : Bool) : (setSeal s k b).hbm = s.hbm := by rw [(setSeal_any s k b).rest]
@[simp] theorem setSeal_quay (s : State) (k : Nat) (b : Bool) : (setSeal s k b).quay = s.quay := by rw [(setSeal_any s k b).rest]
@[simp] theorem setSeal_fab (s : State) (k : Nat) (b : Bool) : (setSeal s k b).fab = s.fab := by rw [(setSeal_any s k b).rest]
@[simp] theorem setSeal_fetchHeld (s : State) (k : Nat) (b : Bool) : (setSeal s k b).fetchHeld = s.fetchHeld := by rw [(setSeal_any s k b).rest]
@[simp] theorem setSeal_holds (s : State) (k : Nat) (b : Bool) : (setSeal s k b).holds = s.holds := by rw [(setSeal_any s k b).rest]
@[simp] theorem setSeal_turns (s : State) (k : Nat) (b : Bool) : (setSeal s k b).turns = s.turns := by rw [(setSeal_any s k b).rest]
@[simp] theorem setSeal_xlat (s : State) (k : Nat) (b : Bool) : (setSeal s k b).xlat = s.xlat := by rw [(setSeal_any s k b).rest]
@[simp] theorem setSeal_coh (s : State) (k : Nat) (b : Bool) : (setSeal s k b).coh = s.coh := by rw [(setSeal_any s k b).rest]
@[simp] theorem setSeal_fencing (s : State) (k : Nat) (b : Bool) : (setSeal s k b).fencing = s.fencing := by rw [(setSeal_any s k b).rest]
@[simp] theorem setSeal_seFencing (s : State) (k : Nat) (b : Bool) : (setSeal s k b).seFencing = s.seFencing := by rw [(setSeal_any s k b).rest]
@[simp] theorem setSeal_bankErrs (s : State) (k : Nat) (b : Bool) : (setSeal s k b).bankErrs = s.bankErrs := by rw [(setSeal_any s k b).rest]
@[simp] theorem setSeal_bankMarks (s : State) (k : Nat) (b : Bool) : (setSeal s k b).bankMarks = s.bankMarks := by rw [(setSeal_any s k b).rest]
@[simp] theorem setSeal_slots (s : State) (k : Nat) (b : Bool) : (setSeal s k b).slots = s.slots := by rw [(setSeal_any s k b).rest]
@[simp] theorem setSeal_barMarks (s : State) (k : Nat) (b : Bool) : (setSeal s k b).barMarks = s.barMarks := by rw [(setSeal_any s k b).rest]
@[simp] theorem setSeal_siteReqs (s : State) (k : Nat) (b : Bool) : (setSeal s k b).siteReqs = s.siteReqs := by rw [(setSeal_any s k b).rest]
@[simp] theorem setSeal_sites (s : State) (k : Nat) (b : Bool) : (setSeal s k b).sites = s.sites := by rw [(setSeal_any s k b).rest]
@[simp] theorem setSeal_free (s : State) (k : Nat) (b : Bool) : (setSeal s k b).free = s.free := by rw [(setSeal_any s k b).rest]
@[simp] theorem setSeal_pending (s : State) (k : Nat) (b : Bool) : (setSeal s k b).pending = s.pending := by rw [(setSeal_any s k b).rest]

@[simp] theorem clearEvts_mem (s : State) (p : Nat) (m : Word) : (clearEvts s p m).mem = s.mem := by rw [(clearEvts_any s p m).rest]
@[simp] theorem clearEvts_hostMem (s : State) (p : Nat) (m : Word) : (clearEvts s p m).hostMem = s.hostMem := by rw [(clearEvts_any s p m).rest]
@[simp] theorem clearEvts_fuse (s : State) (p : Nat) (m : Word) : (clearEvts s p m).fuse = s.fuse := by rw [(clearEvts_any s p m).rest]
@[simp] theorem clearEvts_flash (s : State) (p : Nat) (m : Word) : (clearEvts s p m).flash = s.flash := by rw [(clearEvts_any s p m).rest]
@[simp] theorem clearEvts_boot (s : State) (p : Nat) (m : Word) : (clearEvts s p m).boot = s.boot := by rw [(clearEvts_any s p m).rest]
@[simp] theorem clearEvts_mbx (s : State) (p : Nat) (m : Word) : (clearEvts s p m).mbx = s.mbx := by rw [(clearEvts_any s p m).rest]
@[simp] theorem clearEvts_i3c (s : State) (p : Nat) (m : Word) : (clearEvts s p m).i3c = s.i3c := by rw [(clearEvts_any s p m).rest]
@[simp] theorem clearEvts_sec (s : State) (p : Nat) (m : Word) : (clearEvts s p m).sec = s.sec := by rw [(clearEvts_any s p m).rest]
@[simp] theorem clearEvts_ten (s : State) (p : Nat) (m : Word) : (clearEvts s p m).ten = s.ten := by rw [(clearEvts_any s p m).rest]
@[simp] theorem clearEvts_chans (s : State) (p : Nat) (m : Word) : (clearEvts s p m).chans = s.chans := by rw [(clearEvts_any s p m).rest]
@[simp] theorem clearEvts_pwr (s : State) (p : Nat) (m : Word) : (clearEvts s p m).pwr = s.pwr := by rw [(clearEvts_any s p m).rest]
@[simp] theorem clearEvts_work (s : State) (p : Nat) (m : Word) : (clearEvts s p m).work = s.work := by rw [(clearEvts_any s p m).rest]
@[simp] theorem clearEvts_ue (s : State) (p : Nat) (m : Word) : (clearEvts s p m).ue = s.ue := by rw [(clearEvts_any s p m).rest]
@[simp] theorem clearEvts_weak (s : State) (p : Nat) (m : Word) : (clearEvts s p m).weak = s.weak := by rw [(clearEvts_any s p m).rest]
@[simp] theorem clearEvts_heldPorts (s : State) (p : Nat) (m : Word) : (clearEvts s p m).heldPorts = s.heldPorts := by rw [(clearEvts_any s p m).rest]
@[simp] theorem clearEvts_gate (s : State) (p : Nat) (m : Word) : (clearEvts s p m).gate = s.gate := by rw [(clearEvts_any s p m).rest]
@[simp] theorem clearEvts_stalled (s : State) (p : Nat) (m : Word) : (clearEvts s p m).stalled = s.stalled := by rw [(clearEvts_any s p m).rest]
@[simp] theorem clearEvts_hbm (s : State) (p : Nat) (m : Word) : (clearEvts s p m).hbm = s.hbm := by rw [(clearEvts_any s p m).rest]
@[simp] theorem clearEvts_quay (s : State) (p : Nat) (m : Word) : (clearEvts s p m).quay = s.quay := by rw [(clearEvts_any s p m).rest]
@[simp] theorem clearEvts_fab (s : State) (p : Nat) (m : Word) : (clearEvts s p m).fab = s.fab := by rw [(clearEvts_any s p m).rest]
@[simp] theorem clearEvts_fetchHeld (s : State) (p : Nat) (m : Word) : (clearEvts s p m).fetchHeld = s.fetchHeld := by rw [(clearEvts_any s p m).rest]
@[simp] theorem clearEvts_holds (s : State) (p : Nat) (m : Word) : (clearEvts s p m).holds = s.holds := by rw [(clearEvts_any s p m).rest]
@[simp] theorem clearEvts_turns (s : State) (p : Nat) (m : Word) : (clearEvts s p m).turns = s.turns := by rw [(clearEvts_any s p m).rest]
@[simp] theorem clearEvts_xlat (s : State) (p : Nat) (m : Word) : (clearEvts s p m).xlat = s.xlat := by rw [(clearEvts_any s p m).rest]
@[simp] theorem clearEvts_coh (s : State) (p : Nat) (m : Word) : (clearEvts s p m).coh = s.coh := by rw [(clearEvts_any s p m).rest]
@[simp] theorem clearEvts_fencing (s : State) (p : Nat) (m : Word) : (clearEvts s p m).fencing = s.fencing := by rw [(clearEvts_any s p m).rest]
@[simp] theorem clearEvts_seFencing (s : State) (p : Nat) (m : Word) : (clearEvts s p m).seFencing = s.seFencing := by rw [(clearEvts_any s p m).rest]
@[simp] theorem clearEvts_bankErrs (s : State) (p : Nat) (m : Word) : (clearEvts s p m).bankErrs = s.bankErrs := by rw [(clearEvts_any s p m).rest]
@[simp] theorem clearEvts_bankMarks (s : State) (p : Nat) (m : Word) : (clearEvts s p m).bankMarks = s.bankMarks := by rw [(clearEvts_any s p m).rest]
@[simp] theorem clearEvts_slots (s : State) (p : Nat) (m : Word) : (clearEvts s p m).slots = s.slots := by rw [(clearEvts_any s p m).rest]
@[simp] theorem clearEvts_barMarks (s : State) (p : Nat) (m : Word) : (clearEvts s p m).barMarks = s.barMarks := by rw [(clearEvts_any s p m).rest]
@[simp] theorem clearEvts_siteReqs (s : State) (p : Nat) (m : Word) : (clearEvts s p m).siteReqs = s.siteReqs := by rw [(clearEvts_any s p m).rest]
@[simp] theorem clearEvts_sites (s : State) (p : Nat) (m : Word) : (clearEvts s p m).sites = s.sites := by rw [(clearEvts_any s p m).rest]
@[simp] theorem clearEvts_free (s : State) (p : Nat) (m : Word) : (clearEvts s p m).free = s.free := by rw [(clearEvts_any s p m).rest]
@[simp] theorem clearEvts_pending (s : State) (p : Nat) (m : Word) : (clearEvts s p m).pending = s.pending := by rw [(clearEvts_any s p m).rest]

@[simp] theorem updIso_mem (s : State) : (updIso s).mem = s.mem := by rw [(updIso_any s).rest]
@[simp] theorem updIso_hostMem (s : State) : (updIso s).hostMem = s.hostMem := by rw [(updIso_any s).rest]
@[simp] theorem updIso_fuse (s : State) : (updIso s).fuse = s.fuse := by rw [(updIso_any s).rest]
@[simp] theorem updIso_flash (s : State) : (updIso s).flash = s.flash := by rw [(updIso_any s).rest]
@[simp] theorem updIso_boot (s : State) : (updIso s).boot = s.boot := by rw [(updIso_any s).rest]
@[simp] theorem updIso_mbx (s : State) : (updIso s).mbx = s.mbx := by rw [(updIso_any s).rest]
@[simp] theorem updIso_i3c (s : State) : (updIso s).i3c = s.i3c := by rw [(updIso_any s).rest]
@[simp] theorem updIso_sec (s : State) : (updIso s).sec = s.sec := by rw [(updIso_any s).rest]
@[simp] theorem updIso_ten (s : State) : (updIso s).ten = s.ten := by rw [(updIso_any s).rest]
@[simp] theorem updIso_chans (s : State) : (updIso s).chans = s.chans := by rw [(updIso_any s).rest]
@[simp] theorem updIso_pwr (s : State) : (updIso s).pwr = s.pwr := by rw [(updIso_any s).rest]
@[simp] theorem updIso_work (s : State) : (updIso s).work = s.work := by rw [(updIso_any s).rest]
@[simp] theorem updIso_ue (s : State) : (updIso s).ue = s.ue := by rw [(updIso_any s).rest]
@[simp] theorem updIso_weak (s : State) : (updIso s).weak = s.weak := by rw [(updIso_any s).rest]
@[simp] theorem updIso_heldPorts (s : State) : (updIso s).heldPorts = s.heldPorts := by rw [(updIso_any s).rest]
@[simp] theorem updIso_gate (s : State) : (updIso s).gate = s.gate := by rw [(updIso_any s).rest]
@[simp] theorem updIso_stalled (s : State) : (updIso s).stalled = s.stalled := by rw [(updIso_any s).rest]
@[simp] theorem updIso_hbm (s : State) : (updIso s).hbm = s.hbm := by rw [(updIso_any s).rest]
@[simp] theorem updIso_quay (s : State) : (updIso s).quay = s.quay := by rw [(updIso_any s).rest]
@[simp] theorem updIso_fab (s : State) : (updIso s).fab = s.fab := by rw [(updIso_any s).rest]
@[simp] theorem updIso_fetchHeld (s : State) : (updIso s).fetchHeld = s.fetchHeld := by rw [(updIso_any s).rest]
@[simp] theorem updIso_holds (s : State) : (updIso s).holds = s.holds := by rw [(updIso_any s).rest]
@[simp] theorem updIso_turns (s : State) : (updIso s).turns = s.turns := by rw [(updIso_any s).rest]
@[simp] theorem updIso_xlat (s : State) : (updIso s).xlat = s.xlat := by rw [(updIso_any s).rest]
@[simp] theorem updIso_coh (s : State) : (updIso s).coh = s.coh := by rw [(updIso_any s).rest]
@[simp] theorem updIso_fencing (s : State) : (updIso s).fencing = s.fencing := by rw [(updIso_any s).rest]
@[simp] theorem updIso_seFencing (s : State) : (updIso s).seFencing = s.seFencing := by rw [(updIso_any s).rest]
@[simp] theorem updIso_bankErrs (s : State) : (updIso s).bankErrs = s.bankErrs := by rw [(updIso_any s).rest]
@[simp] theorem updIso_bankMarks (s : State) : (updIso s).bankMarks = s.bankMarks := by rw [(updIso_any s).rest]
@[simp] theorem updIso_slots (s : State) : (updIso s).slots = s.slots := by rw [(updIso_any s).rest]
@[simp] theorem updIso_barMarks (s : State) : (updIso s).barMarks = s.barMarks := by rw [(updIso_any s).rest]
@[simp] theorem updIso_siteReqs (s : State) : (updIso s).siteReqs = s.siteReqs := by rw [(updIso_any s).rest]
@[simp] theorem updIso_sites (s : State) : (updIso s).sites = s.sites := by rw [(updIso_any s).rest]
@[simp] theorem updIso_free (s : State) : (updIso s).free = s.free := by rw [(updIso_any s).rest]
@[simp] theorem updIso_pending (s : State) : (updIso s).pending = s.pending := by rw [(updIso_any s).rest]

/-! ### The canonical form -/

@[simp] theorem wr_canonical {s : State} {p off : Nat} {v : Word} (h : s.canonical) : (wr s p off v).canonical := (wr_kept h.kept).1
@[simp] theorem wf_canonical {s : State} {p off lo n v : Nat} (h : s.canonical) : (wf s p off lo n v).canonical := (wf_kept h.kept).1
@[simp] theorem wb_canonical {s : State} {p off i : Nat} {b : Bool} (h : s.canonical) : (wb s p off i b).canonical := (wb_kept h.kept).1
@[simp] theorem addReg_canonical {s : State} {p off n : Nat} (h : s.canonical) : (addReg s p off n).canonical := (addReg_kept h.kept).1
@[simp] theorem resetRegs_canonical {s : State} {p lo hi : Nat} (h : s.canonical) : (resetRegs s p lo hi).canonical := (resetRegs_kept h.kept).1
@[simp] theorem emit_canonical {s : State} {o : Out} (h : s.canonical) : (emit s o).canonical := (emit_kept h.kept).1
@[simp] theorem writeBytes_canonical {s : State} {a : Nat} {b : Bytes} (h : s.canonical) : (writeBytes s a b).canonical := (writeBytes_kept h.kept).1
@[simp] theorem clearMem_canonical {s : State} {lo hi : Nat} (h : s.canonical) : (clearMem s lo hi).canonical := (clearMem_kept h.kept).1
@[simp] theorem writeHost_canonical {s : State} {a : Nat} {b : Bytes} (h : s.canonical) : (writeHost s a b).canonical := (writeHost_kept h.kept).1
@[simp] theorem updWire_canonical {s : State} (h : s.canonical) : (updWire s).canonical := (updWire_kept h.kept).1
@[simp] theorem raiseEvt_canonical {s : State} {p b : Nat} (h : s.canonical) : (raiseEvt s p b).canonical := (raiseEvt_kept h.kept).1
@[simp] theorem reject_canonical {s : State} {p : Nat} (h : s.canonical) : (reject s p).canonical := (reject_kept h.kept).1
@[simp] theorem countErrorAt_canonical {s : State} {p code status cls : Nat} {ctx : Option Nat} {o : Nat} (h : s.canonical) : (countErrorAt s p code status cls ctx o).canonical := (countErrorAt_kept h.kept).1
@[simp] theorem countError_canonical {s : State} {p code status cls : Nat} {ctx : Option Nat} (h : s.canonical) : (countError s p code status cls ctx).canonical := (countError_kept h.kept).1
@[simp] theorem setState_canonical {s : State} {p st : Nat} (h : s.canonical) : (setState s p st).canonical := (setState_kept h.kept).1
@[simp] theorem setPart_canonical {s : State} {k st : Nat} (h : s.canonical) : (setPart s k st).canonical := (setPart_kept h.kept).1
@[simp] theorem setSeal_canonical {s : State} {k : Nat} {b : Bool} (h : s.canonical) : (setSeal s k b).canonical := (setSeal_kept h.kept).1
@[simp] theorem clearEvts_canonical {s : State} {p : Nat} {m : Word} (h : s.canonical) : (clearEvts s p m).canonical := (clearEvts_kept h.kept).1
@[simp] theorem updIso_canonical {s : State} (h : s.canonical) : (updIso s).canonical := (updIso_kept h.kept).1

/-! ### Reading a register through them -/

/-- The registers in which an event may leave a mark, by offset. -/
abbrev markOffsets : List Nat :=
  [Reg.EVT_STAT, Reg.EVR_STAT, Reg.EVR_LOST, Reg.EVR_FIRST_LOST, Reg.ERR_COUNT, Reg.ERR_FIRST]

theorem not_evtReg {p off : Nat} (h : off ∉ markOffsets) : ¬ evtReg p off := by
  simp only [markOffsets, List.mem_cons, List.not_mem_nil, not_or] at h
  rintro (x | ⟨_, x⟩)
  · exact h.1 x
  · rcases x with x | x | x | x | x
    · exact h.2.1 x
    · exact h.2.2.1 x
    · exact h.2.2.2.1 x
    · exact h.2.2.2.2.1 x
    · exact h.2.2.2.2.2.1 x

theorem rd_wr {s : State} (h : s.canonical) {p off q o : Nat} (v : Word) (h1 : off < 0x10000) (h2 : o < 0x10000) :
    rd (wr s p off v) q o = if q = p ∧ o = off then v else rd s q o := by
  split
  · rename_i e; obtain ⟨rfl, rfl⟩ := e; exact rd_wr_same h _ _ _
  · rename_i e; exact rd_wr_other h v h1 h2 e

theorem rd_raiseEvt {s : State} (h : s.canonical) {p b q o : Nat} (h1 : o < 0x10000) (h2 : ¬ evtReg q o) :
    rd (raiseEvt s p b) q o = rd s q o := (raiseEvt_sameBut h p b).rd_eq h1 h2 id

theorem rd_updWire {s : State} (h : s.canonical) {q o : Nat} (h1 : o < 0x10000) (h2 : ¬ evtReg q o) :
    rd (updWire s) q o = rd s q o := (updWire_sameBut h).rd_eq h1 h2 id

theorem rd_reject {s : State} (h : s.canonical) {p q o : Nat} (h1 : o < 0x10000) (h2 : ¬ evtReg q o)
    (h3 : o ≠ Reg.REJECT_COUNT) : rd (reject s p) q o = rd s q o := (reject_sameBut h p).rd_eq h1 h2 (fun x => h3 x.2)

theorem rd_setState {s : State} (h : s.canonical) {p st q o : Nat} (h1 : o < 0x10000) (h2 : ¬ evtReg q o)
    (h3 : ¬(q = p ∧ o = Reg.PAGE_STAT)) : rd (setState s p st) q o = rd s q o :=
  (setState_sameBut h p st).rd_eq h1 h2 h3

theorem rd_countError {s : State} (h : s.canonical) {p code status cls : Nat} {ctx : Option Nat} {q o : Nat}
    (h1 : o < 0x10000) (h2 : ¬ evtReg q o) (h3 : o ≠ Reg.ERR_COUNT) (h4 : o ≠ Reg.ERR_FIRST) :
    rd (countError s p code status cls ctx) q o = rd s q o :=
  (countErrorAt_sameBut h p code status cls ctx p).rd_eq h1 h2 (fun x => x.2.elim h3 h4)

/-- A rejection counts. -/
theorem rd_reject_count {s : State} (h : s.canonical) (p : Nat) :
    rd (reject s p) p Reg.REJECT_COUNT = rd s p Reg.REJECT_COUNT + 1 := by
  unfold reject
  rw [rd_raiseEvt (addReg_canonical h) (by decide) (not_evtReg (by decide)), addReg, rd_wr_same h]
  rfl

/-- A register that events do not mark reads the same through a change that leaves it out. -/
theorem enabled_setState {s : State} (h : s.canonical) (p st q : Nat) : enabled (setState s p st) q = enabled s q := by
  unfold enabled rb
  rw [rd_setState h (by decide) (not_evtReg (by decide)) (by intro x; exact absurd x.2 (by decide))]

end Sys2Proof.Machine
end

