-- ==== Sys2Proof/Laws/Runs.lean ====
section
/-! SUPPORT. What the accesses that `Safety` relates to their results answer, computed; each function with the law that its
answer stands in the relation. -/

set_option Elab.async false

namespace Sys2Proof.Machine

open Sys2Proof

/-- A read of a tile that does not stop. -/
def tileRun (s : State) (w : Work) (t : Tile) : Option (List Bytes × State) :=
  match readTile s w.part w.unit t with
  | (.ok rows, s') => some (rows, s')
  | _ => none

/-- A write of a tile that does not stop. -/
def tileWrote (s : State) (w : Work) (t : Tile) (rows : List Bytes) : Option State :=
  match writeTile s w.part w.unit 0 t rows with
  | (.ok (), s') => some s'
  | _ => none

/-- The values of a tensor. -/
def valuesRun (s : State) (w : Work) (o : Opd) (f : Nat) (mx : Bool) (cols : Nat) : Option (List (List Num) × State) :=
  (tileRun s w (opdTile o)).bind fun a =>
    if mx then (tileRun a.2 w (scaleTile o cols)).map fun b => ((a.1.zip b.1).map fun p => rowNums f true cols p.1 p.2, b.2)
    else some (a.1.map fun r => rowNums f false cols r [], a.2)

/-- The codes of a tensor. -/
def codesRun (s : State) (w : Work) (o : Opd) (f cols : Nat) : Option (List (List Nat) × State) :=
  (tileRun s w (opdTile o)).map fun a => (a.1.map fun r => unpack (fmtOf f).w cols r, a.2)

/-- The pots of rows of records. -/
def recordsRun (s : State) (w : Work) (o : Opd) (f cols : Nat) : Option (List (List Pot) × State) :=
  (tileRun s w (opdTile o)).bind fun a =>
    let rs := a.1.map fun r => (List.range cols).map fun i => readRecord f (slice r (i * recordSize f) (recordSize f))
    if rs.all fun l => l.all fun p => decide (p.2.1 = f - 8) && decide (p.2.2 = arithVer a.2) then
      some (rs.map fun l => l.map (·.1), a.2)
    else none

/-- Elements rounded into D. -/
def elemsRun (s : State) (w : Work) (cols : Nat) (rows : List (List Elem)) : Option (Nat × State) :=
  let d := w.desc
  let o := opdD d rows.length cols
  let out := rows.zipIdx.map fun l => deliverRow (rounding s d) ((dRow0 d + l.2) * dCols d + dCol0 d) l.1
  (tileWrote s w (opdTile o) (out.map (·.1))).bind fun s1 =>
    (if dMxD d then tileWrote s1 w (scaleTile o cols) (out.map (·.2.1)) else some s1).map fun s2 =>
      (flagBits (out.foldl (fun f x => f.or x.2.2) noFlags), s2)

/-- Pots delivered into D. -/
def potsRun (s : State) (w : Work) (cols : Nat) (rows : List (List Pot)) : Option (Nat × State) :=
  let f := dFmtD w.desc
  if isRecord f then
    (tileWrote s w (opdTile (opdD w.desc rows.length cols)) (rows.map fun l => l.flatMap (potRecord f (arithVer s)))).map
      fun s1 => (flagBits ⟨rows.any fun l => l.any (·.nan), rows.any fun l => l.any (·.range), false⟩, s1)
  else elemsRun s w cols (rows.map fun l => l.map potElem)

/-- Codes written into D. -/
def codesWrote (s : State) (w : Work) (cols : Nat) (rows : List (List Nat)) : Option State :=
  tileWrote s w (opdTile (opdD w.desc rows.length cols)) (rows.map fun l => pack (fmtOf (dFmtD w.desc)).w l)

/-- Chosen rows read. -/
def rowsRun (s : State) (w : Work) (o : Opd) : List Nat → Option (List (Bytes × Bytes) × State)
  | [] => some ([], s)
  | i :: l => (tileRun s w (opdTile (rowOf o i))).bind fun a =>
    (if dMxA w.desc then tileRun a.2 w (scaleOf o (dN w.desc) i) else some ([], a.2)).bind fun c =>
      (rowsRun c.2 w o l).map fun b => ((a.1.getD 0 [], c.1.getD 0 []) :: b.1, b.2)

/-- Chosen rows written. -/
def rowsWrote (s : State) (w : Work) (o : Opd) : List (Nat × Bytes × Bytes) → Option State
  | [] => some s
  | e :: l => (tileWrote s w (opdTile (rowOf o e.1)) [e.2.1]).bind fun s1 =>
    (if dMxD w.desc then tileWrote s1 w (scaleOf o (dN w.desc) e.1) [e.2.2] else some s1).bind fun s2 => rowsWrote s2 w o l

/-- A run of list or KV bytes. -/
def kvRun (s : State) (w : Work) (t : Tile) : Option (Bytes × State) :=
  (tileRun s w t).map fun a => (a.1.getD 0 [], addReg a.2 (sePage w) Reg.BYTES_READ t.rowBytes)

/-- Tiles one after another. -/
def kvTilesRun (w : Work) : List Tile → State → Option (Bytes × State)
  | [], s => some ([], s)
  | t :: l, s => (kvRun s w t).bind fun a => (kvTilesRun w l a.2).map fun b => (a.1 ++ b.1, b.2)

/-- Entries of a cache list. -/
def entriesRun (s : State) (w : Work) (base e0 n : Nat) : Option (List (List Word) × State) :=
  (kvTilesRun w (listTiles (base + 64 * e0) (64 * n)) s).map fun a => ((List.range n).map (entryOf a.1), a.2)

/-- Tiles probed. -/
def probeRun (w : Work) : List Tile → State → Option State
  | [], s => some s
  | t :: l, s =>
    match translatePages s w.part w.unit false (tilePages t.va t.pitch t.rows t.rowBytes) with
    | (.ok _, s1) => probeRun w l s1
    | _ => none

/-- A slab. -/
def slabRun (s : State) (w : Work) (e : List Word) (v : Bool) (h j0 n : Nat) : Option (List (List Num) × State) :=
  (kvRun s w (kvTile e v h j0 n)).bind fun b =>
    (if kvMx e v then kvRun b.2 w (kvScaleTile e v h j0 n) else some ([], b.2)).map fun sc =>
      ((List.range n).map fun j => rowNums (kvFmt e v) (kvMx e v) (kvDim e)
        (slice b.1 (j * (kvRow e v).1) (kvRow e v).1) (slice sc.1 (j * (kvRow e v).2) (kvRow e v).2), sc.2)

/-- Keys and values of a range. -/
def rangeRun (w : Work) (list : List (List Word)) (h : Nat) :
    List (Nat × Nat × Nat) → State → Option (List (List Num × List Num) × State)
  | [], s => some ([], s)
  | (i, j0, n) :: l, s =>
    (slabRun s w (list.getD i []) false h j0 n).bind fun ks =>
      (slabRun ks.2 w (list.getD i []) true h j0 n).bind fun vs =>
        (rangeRun w list h l vs.2).map fun t => (ks.1.zip vs.1 ++ t.1, t.2)

/-- A tile written with a hint. -/
def hintWrote (s : State) (w : Work) (hint : Nat) (t : Tile) (rows : List Bytes) : Option State :=
  match writeTile s w.part w.unit hint t rows with
  | (.ok (), s') => some s'
  | _ => none

/-- Runs of bytes. -/
def runsWrote (w : Work) (hint : Nat) : List (Tile × Bytes) → State → Option State
  | [], s => some s
  | e :: l, s => (hintWrote s w hint e.1 [e.2]).bind fun s1 => runsWrote w hint l s1

/-- The bounds of heads. -/
def headBoundsRun (w : Work) (e : List Word) : List Nat → State → Option (List (Option Int) × State)
  | [], s => some ([], s)
  | h :: l, s =>
    (if min (kvCount e) 256 = 0 then some (none, s) else
      (slabRun s w e false h 0 (min (kvCount e) 256)).bind fun a =>
        match boundsOf a.1 with
        | .ok bs => some (maxBound bs, a.2)
        | _ => none).bind fun m => (headBoundsRun w e l m.2).map fun t => (m.1 :: t.1, t.2)

/-- The bounds of entries. -/
def boundsRun (w : Work) : List (List Word) → State → Option (List (List (Option Int)) × State)
  | [], s => some ([], s)
  | e :: l, s => (headBoundsRun w e (List.range (kvHeads e)) s).bind fun m => (boundsRun w l m.2).map fun t => (m.1 :: t.1, t.2)


/-! ### The answers stand in the relations -/

theorem tileRead_of_run {s : State} {w : Work} {t : Tile} {a} (h : tileRun s w t = some a) : TileRead s w t a.1 a.2 := by
  unfold tileRun at h
  split at h
  · next rows s' hr => cases h; exact hr
  · cases h

theorem tileWritten_of_run {s : State} {w : Work} {t : Tile} {rows s'} (h : tileWrote s w t rows = some s') :
    TileWritten s w t rows s' := by
  unfold tileWrote at h
  split at h
  · next s1 hr => cases h; exact hr
  · cases h

theorem valuesRead_of_run {s : State} {w : Work} {o : Opd} {f : Nat} {mx : Bool} {cols : Nat} {a}
    (h : valuesRun s w o f mx cols = some a) : ValuesRead s w o f mx cols a.1 a.2 := by
  simp only [valuesRun, Option.bind_eq_some_iff] at h
  obtain ⟨x, hx, h⟩ := h
  refine ⟨x.1, x.2, tileRead_of_run hx, ?_⟩
  cases mx
  · simp only [Bool.false_eq_true, if_false, Option.some.injEq] at h ⊢
    cases h; exact ⟨rfl, rfl⟩
  · simp only [if_true, Option.map_eq_some_iff] at h ⊢
    obtain ⟨y, hy, rfl⟩ := h
    exact ⟨y.1, tileRead_of_run hy, rfl⟩

theorem codesRead_of_run {s : State} {w : Work} {o : Opd} {f cols : Nat} {a} (h : codesRun s w o f cols = some a) :
    CodesRead s w o f cols a.1 a.2 := by
  simp only [codesRun, Option.map_eq_some_iff] at h
  obtain ⟨x, hx, rfl⟩ := h
  exact ⟨x.1, tileRead_of_run hx, rfl⟩

theorem recordsRead_of_run {s : State} {w : Work} {o : Opd} {f cols : Nat} {a} (h : recordsRun s w o f cols = some a) :
    RecordsRead s w o f cols a.1 a.2 := by
  simp only [recordsRun, Option.bind_eq_some_iff] at h
  obtain ⟨x, hx, h⟩ := h
  split at h
  · next hc =>
    cases h
    refine ⟨x.1, tileRead_of_run hx, ?_, rfl⟩
    intro l hl p hp
    have := List.all_eq_true.1 (List.all_eq_true.1 hc l hl) p hp
    simpa using this
  · cases h

theorem elemsDelivered_of_run {s : State} {w : Work} {cols : Nat} {rows : List (List Elem)} {a}
    (h : elemsRun s w cols rows = some a) : ElemsDelivered s w cols rows a.1 a.2 := by
  simp only [elemsRun, Option.bind_eq_some_iff] at h
  obtain ⟨s1, h1, h⟩ := h
  obtain ⟨s2, h2, rfl⟩ := Option.map_eq_some_iff.1 h
  refine ⟨rfl, s1, tileWritten_of_run h1, ?_⟩
  split at h2
  · next hm => simp only [hm, if_true]; exact tileWritten_of_run h2
  · next hm => cases h2; simp [hm]

theorem potsDelivered_of_run {s : State} {w : Work} {cols : Nat} {rows : List (List Pot)} {a}
    (h : potsRun s w cols rows = some a) : PotsDelivered s w cols rows a.1 a.2 := by
  simp only [potsRun] at h
  unfold PotsDelivered
  split at h
  · next hf =>
    obtain ⟨s1, h1, rfl⟩ := Option.map_eq_some_iff.1 h
    simp only [hf, if_true]
    exact ⟨trivial, tileWritten_of_run h1⟩
  · next hf =>
    simp only [hf, Bool.false_eq_true, if_false]
    exact elemsDelivered_of_run h

theorem codesDelivered_of_run {s : State} {w : Work} {cols : Nat} {rows : List (List Nat)} {s'}
    (h : codesWrote s w cols rows = some s') : CodesDelivered s w cols rows s' := tileWritten_of_run h

theorem rowsRead_of_run {w : Work} {o : Opd} {l : List Nat} {s : State} {a} (h : rowsRun s w o l = some a) :
    RowsRead s w o l a.1 a.2 := by
  induction l generalizing s a with
  | nil => cases h; exact ⟨rfl, rfl⟩
  | cons i l ih =>
    simp only [rowsRun, Option.bind_eq_some_iff, Option.map_eq_some_iff] at h
    obtain ⟨x, hx, c, hc, y, hy, rfl⟩ := h
    refine ⟨x.1, c.1, y.1, x.2, c.2, tileRead_of_run hx, ?_, ih hy, rfl⟩
    split at hc
    · next hm => simp only [hm, if_true]; exact tileRead_of_run hc
    · next hm => cases hc; simp [hm]

theorem rowsWritten_of_run {w : Work} {o : Opd} {l : List (Nat × Bytes × Bytes)} {s s' : State}
    (h : rowsWrote s w o l = some s') : RowsWritten s w o l s' := by
  induction l generalizing s with
  | nil => cases h; rfl
  | cons e l ih =>
    simp only [rowsWrote, Option.bind_eq_some_iff] at h
    obtain ⟨s1, h1, s2, h2, h⟩ := h
    refine ⟨s1, s2, tileWritten_of_run h1, ?_, ih h⟩
    split at h2
    · next hm => simp only [hm, if_true]; exact tileWritten_of_run h2
    · next hm => cases h2; simp [hm]

theorem kvRead_of_run {s : State} {w : Work} {t : Tile} {a} (h : kvRun s w t = some a) : KvRead s w t a.1 a.2 := by
  simp only [kvRun, Option.map_eq_some_iff] at h
  obtain ⟨x, hx, rfl⟩ := h
  exact ⟨x.1, x.2, tileRead_of_run hx, rfl, rfl⟩

theorem kvTilesRead_of_run {w : Work} {l : List Tile} {s : State} {a} (h : kvTilesRun w l s = some a) :
    KvTilesRead w l s a.1 a.2 := by
  induction l generalizing s a with
  | nil => cases h; exact ⟨rfl, rfl⟩
  | cons t l ih =>
    simp only [kvTilesRun, Option.bind_eq_some_iff, Option.map_eq_some_iff] at h
    obtain ⟨x, hx, y, hy, rfl⟩ := h
    exact ⟨x.1, y.1, x.2, kvRead_of_run hx, ih hy, rfl⟩

theorem entriesRead_of_run {s : State} {w : Work} {base e0 n : Nat} {a} (h : entriesRun s w base e0 n = some a) :
    EntriesRead s w base e0 n a.1 a.2 := by
  simp only [entriesRun, Option.map_eq_some_iff] at h
  obtain ⟨x, hx, rfl⟩ := h
  exact ⟨x.1, kvTilesRead_of_run hx, rfl⟩

theorem probed_of_run {w : Work} {l : List Tile} {s s' : State} (h : probeRun w l s = some s') : Probed w l s s' := by
  induction l generalizing s with
  | nil => cases h; rfl
  | cons t l ih =>
    unfold probeRun at h
    split at h
    · next pages s1 ht => exact ⟨pages, s1, ht, ih h⟩
    · cases h

theorem slabRead_of_run {s : State} {w : Work} {e : List Word} {v : Bool} {h j0 n : Nat} {a}
    (hr : slabRun s w e v h j0 n = some a) : SlabRead s w e v h j0 n a.1 a.2 := by
  simp only [slabRun, Option.bind_eq_some_iff, Option.map_eq_some_iff] at hr
  obtain ⟨b, hb, sc, hs, rfl⟩ := hr
  refine ⟨b.1, sc.1, b.2, kvRead_of_run hb, ?_, rfl⟩
  split at hs
  · next hm => simp only [hm, if_true]; exact kvRead_of_run hs
  · next hm => cases hs; simp [hm]

theorem rangeRead_of_run {w : Work} {list : List (List Word)} {h : Nat} {l : List (Nat × Nat × Nat)} {s : State} {a}
    (hr : rangeRun w list h l s = some a) : RangeRead w list h l s a.1 a.2 := by
  induction l generalizing s a with
  | nil => cases hr; exact ⟨rfl, rfl⟩
  | cons e l ih =>
    obtain ⟨i, j0, n⟩ := e
    simp only [rangeRun, Option.bind_eq_some_iff, Option.map_eq_some_iff] at hr
    obtain ⟨ks, hk, vs, hv, t, ht, rfl⟩ := hr
    exact ⟨ks.1, vs.1, t.1, ks.2, vs.2, slabRead_of_run hk, slabRead_of_run hv, ih ht, rfl⟩

theorem hintWrote_of_run {s : State} {w : Work} {hint : Nat} {t : Tile} {rows s'}
    (h : hintWrote s w hint t rows = some s') : writeTile s w.part w.unit hint t rows = (.ok (), s') := by
  unfold hintWrote at h
  split at h
  · next s1 hr => cases h; exact hr
  · cases h

theorem tileHinted_of_run {s : State} {w : Work} {t : Tile} {rows s'}
    (h : hintWrote s w (engineHint s w.part w.unit) t rows = some s') : TileHinted s w t rows s' := hintWrote_of_run h

theorem runsWritten_of_run {w : Work} {hint : Nat} {l : List (Tile × Bytes)} {s s' : State}
    (h : runsWrote w hint l s = some s') : RunsWritten w hint l s s' := by
  induction l generalizing s with
  | nil => cases h; rfl
  | cons e l ih =>
    simp only [runsWrote, Option.bind_eq_some_iff] at h
    obtain ⟨s1, h1, h⟩ := h
    exact ⟨s1, hintWrote_of_run h1, ih h⟩

theorem headBoundsRead_of_run {w : Work} {e : List Word} {l : List Nat} {s : State} {a}
    (h : headBoundsRun w e l s = some a) : HeadBoundsRead w e l s a.1 a.2 := by
  induction l generalizing s a with
  | nil => cases h; exact ⟨rfl, rfl⟩
  | cons i l ih =>
    simp only [headBoundsRun, Option.bind_eq_some_iff, Option.map_eq_some_iff] at h
    obtain ⟨m, hm, t, ht, rfl⟩ := h
    refine ⟨m.1, t.1, m.2, ?_, ih ht, rfl⟩
    split at hm
    · next hz => cases hm; simp [hz]
    · next hz =>
      simp only [hz, if_false]
      obtain ⟨r, hr, hm⟩ := Option.bind_eq_some_iff.1 hm
      split at hm
      · next bs hb => cases hm; exact ⟨r.1, bs, slabRead_of_run hr, hb, rfl⟩
      · cases hm

theorem boundsRead_of_run {w : Work} {l : List (List Word)} {s : State} {a} (h : boundsRun w l s = some a) :
    BoundsRead w l s a.1 a.2 := by
  induction l generalizing s a with
  | nil => cases h; exact ⟨rfl, rfl⟩
  | cons e l ih =>
    simp only [boundsRun, Option.bind_eq_some_iff, Option.map_eq_some_iff] at h
    obtain ⟨m, hm, t, ht, rfl⟩ := h
    exact ⟨m.1, t.1, m.2, headBoundsRead_of_run hm, ih ht, rfl⟩

end Sys2Proof.Machine
end

