-- ==== Sys2Proof/WellFormed.lean ====
section
/-!
DEFINITION. Which commands are well formed: every number that names a function, partition, context, site, engine, cluster,
channel, unit, page, ring, controller, agent or sequence number names one that exists (R5, R30, R43, R118, R166, R269,
R435, R484).
-/

namespace Sys2Proof

/-- The numbers of a command that name something, each with how many there are. -/
def Instr.bounds : Instr → List (Nat × Nat)
  | .powerOn strap _ => [(strap, 16)]
  | .registerWrite fn _ _ => [(fn, 17)]
  | .narrowAccess fn _ _ _ => [(fn, 17)]
  | .rcRead fn _ _ => [(fn, 17)]
  | .pageEnable fn p _ => [(fn, 17), (p, 2048)]
  | .pageDisable fn p _ => [(fn, 17), (p, 2048)]
  | .quiesceRequest fn p _ => [(fn, 17), (p, 2048)]
  | .quiesceDrained p => [(p, 2048)]
  | .quiesceResume fn p _ => [(fn, 17), (p, 2048)]
  | .resetReq fn p _ => [(fn, 17), (p, 2048)]
  | .blockTrained p => [(p, 2048)]
  | .errRearm fn p _ => [(fn, 17), (p, 2048)]
  | .evtSet fn p _ => [(fn, 17), (p, 2048)]
  | .lock fn p => [(fn, 17), (p, 2048)]
  | .coreFence fn c _ => [(fn, 17), (c, 128)]
  | .coreFenceDrained c _ => [(c, 128)]
  | .spareTest fn c => [(fn, 17), (c, 128)]
  | .spareTestDone c _ => [(c, 128)]
  | .cacheAccessError c _ _ _ => [(c, 128)]
  | .ctxOpen fn k x => [(fn, 17), (k, 16), (x, 256)]
  | .ctxRun fn k x => [(fn, 17), (k, 16), (x, 256)]
  | .ctxPause fn k x => [(fn, 17), (k, 16), (x, 256)]
  | .ctxClose fn k x => [(fn, 17), (k, 16), (x, 256)]
  | .ctxAbort fn k x => [(fn, 17), (k, 16), (x, 256)]
  | .ctxTail fn k x tail => [(fn, 17), (k, 16), (x, 256), (tail, 2 ^ 32)]
  | .contextFreed k x => [(k, 16), (x, 256)]
  | .dispatch k x _ => [(k, 16), (x, 256)]
  | .gemm k x q => [(k, 16), (x, 256), (q, 2 ^ 32)]
  | .gemmPot k x q => [(k, 16), (x, 256), (q, 2 ^ 32)]
  | .potMerge k x q => [(k, 16), (x, 256), (q, 2 ^ 32)]
  | .potRound k x q => [(k, 16), (x, 256), (q, 2 ^ 32)]
  | .potMergeRound k x q => [(k, 16), (x, 256), (q, 2 ^ 32)]
  | .reduceRows k x q => [(k, 16), (x, 256), (q, 2 ^ 32)]
  | .reduceRowsPot k x q => [(k, 16), (x, 256), (q, 2 ^ 32)]
  | .reduceCols k x q => [(k, 16), (x, 256), (q, 2 ^ 32)]
  | .reduceColsPot k x q => [(k, 16), (x, 256), (q, 2 ^ 32)]
  | .dotRows k x q => [(k, 16), (x, 256), (q, 2 ^ 32)]
  | .sumsqRows k x q => [(k, 16), (x, 256), (q, 2 ^ 32)]
  | .maxRows k x q => [(k, 16), (x, 256), (q, 2 ^ 32)]
  | .minRows k x q => [(k, 16), (x, 256), (q, 2 ^ 32)]
  | .reduceCollect k x q => [(k, 16), (x, 256), (q, 2 ^ 32)]
  | .redSlotFull k _ _ => [(k, 16)]
  | .redSlotTimeout k _ => [(k, 16)]
  | .attnPartial k x q => [(k, 16), (x, 256), (q, 2 ^ 32)]
  | .attnMerge k x q => [(k, 16), (x, 256), (q, 2 ^ 32)]
  | .kvStore k x q => [(k, 16), (x, 256), (q, 2 ^ 32)]
  | .kvBound k x q => [(k, 16), (x, 256), (q, 2 ^ 32)]
  | .ewAdd k x q => [(k, 16), (x, 256), (q, 2 ^ 32)]
  | .ewSub k x q => [(k, 16), (x, 256), (q, 2 ^ 32)]
  | .ewMul k x q => [(k, 16), (x, 256), (q, 2 ^ 32)]
  | .ewMax k x q => [(k, 16), (x, 256), (q, 2 ^ 32)]
  | .ewMin k x q => [(k, 16), (x, 256), (q, 2 ^ 32)]
  | .ewUnary k x q => [(k, 16), (x, 256), (q, 2 ^ 32)]
  | .convert k x q => [(k, 16), (x, 256), (q, 2 ^ 32)]
  | .ewClamp k x q => [(k, 16), (x, 256), (q, 2 ^ 32)]
  | .fence k x q => [(k, 16), (x, 256), (q, 2 ^ 32)]
  | .barrier k x q => [(k, 16), (x, 256), (q, 2 ^ 32)]
  | .barrierTimeout _ k _ => [(k, 16)]
  | .barrierTargetWrite fn _ k _ _ => [(fn, 17), (k, 16)]
  | .signal k x q => [(k, 16), (x, 256), (q, 2 ^ 32)]
  | .wait k x q => [(k, 16), (x, 256), (q, 2 ^ 32)]
  | .waitPoll k x q => [(k, 16), (x, 256), (q, 2 ^ 32)]
  | .waitTimeout k x q => [(k, 16), (x, 256), (q, 2 ^ 32)]
  | .nop k x q => [(k, 16), (x, 256), (q, 2 ^ 32)]
  | .copy k x q => [(k, 16), (x, 256), (q, 2 ^ 32)]
  | .gatherRows k x q => [(k, 16), (x, 256), (q, 2 ^ 32)]
  | .scatterRows k x q => [(k, 16), (x, 256), (q, 2 ^ 32)]
  | .transpose k x q => [(k, 16), (x, 256), (q, 2 ^ 32)]
  | .fill k x q => [(k, 16), (x, 256), (q, 2 ^ 32)]
  | .compare k x q => [(k, 16), (x, 256), (q, 2 ^ 32)]
  | .prefetchTranslate k x q => [(k, 16), (x, 256), (q, 2 ^ 32)]
  | .prefetchMigrate k x q => [(k, 16), (x, 256), (q, 2 ^ 32)]
  | .adviseUnpin k x q => [(k, 16), (x, 256), (q, 2 ^ 32)]
  | .advisePin k x q => [(k, 16), (x, 256), (q, 2 ^ 32)]
  | .adviseDontNeed k x q => [(k, 16), (x, 256), (q, 2 ^ 32)]
  | .engineFault e _ => [(e, 64)]
  | .seStall e => [(e, 64)]
  | .engineFence fn e => [(fn, 17), (e, 64)]
  | .engineFenceDrained e => [(e, 64)]
  | .engineTest fn e => [(fn, 17), (e, 64)]
  | .engineTestDone e _ => [(e, 64)]
  | .walkEnd k _ _ _ _ => [(k, 16)]
  | .faultRecordRelease k => [(k, 16)]
  | .faultResolveRetry fn k _ => [(fn, 17), (k, 16)]
  | .faultResolveFail fn k _ => [(fn, 17), (k, 16)]
  | .faultTimeout k _ => [(k, 16)]
  | .faultRingWrite fn k _ => [(fn, 17), (k, 16)]
  | .faultConsWrite fn k _ => [(fn, 17), (k, 16)]
  | .invCmdRange fn k _ _ => [(fn, 17), (k, 16)]
  | .invCmdPartition fn k => [(fn, 17), (k, 16)]
  | .invComplete k => [(k, 16)]
  | .mfRootWrite fn k _ => [(fn, 17), (k, 16)]
  | .shareWinWrite fn k _ _ => [(fn, 17), (k, 16)]
  | .hotRingWrite fn k _ => [(fn, 17), (k, 16)]
  | .microtlbCountReport k _ _ => [(k, 16)]
  | .hotEpochEnd k => [(k, 16)]
  | .wcEntryAged m _ => [(m, 8)]
  | .rowRepairComplete m _ => [(m, 8)]
  | .refresh m _ => [(m, 8)]
  | .refreshManagement m _ _ => [(m, 8)]
  | .tempSample m _ => [(m, 8)]
  | .patrolRead m _ => [(m, 8)]
  | .mcZfCmd fn m _ => [(fn, 17), (m, 8)]
  | .mcZfDone m _ _ => [(m, 8)]
  | .mcInject fn m _ => [(fn, 17), (m, 8)]
  | .caParity m _ => [(m, 8)]
  | .quayRead k _ _ p _ _ => [(k, 16), (p, 16)]
  | .quayWrite k _ p _ _ _ => [(k, 16), (p, 16)]
  | .bankReplaceComplete k _ => [(k, 16)]
  | .quayStrictSet fn k _ => [(fn, 17), (k, 16)]
  | .strictDone k => [(k, 16)]
  | .quayZfCmd fn k => [(fn, 17), (k, 16)]
  | .quayZfDone k _ => [(k, 16)]
  | .quayInject fn k _ => [(fn, 17), (k, 16)]
  | .portParity k _ => [(k, 16)]
  | .packetInject _ _ p _ _ _ cycle _ => [(p, 32), (cycle, 80)]
  | .packetTurn _ cycle => [(cycle, 80)]
  | .packetDeliver _ cycle => [(cycle, 80)]
  | .islandWake _ cycle => [(cycle, 80)]
  | .islandSleep _ cycle => [(cycle, 80)]
  | .broadcast _ p cycle => [(p, 32), (cycle, 80)]
  | .dealCommit fn r => [(fn, 17), (r, 8)]
  | .commitDone r => [(r, 8)]
  | .routeModeWrite fn _ => [(fn, 17)]
  | .routeDataWrite fn _ => [(fn, 17)]
  | .crcReplay r _ _ _ _ _ _ _ => [(r, 8)]
  | .laneSpare r _ _ _ _ _ cycle => [(r, 8), (cycle, 80)]
  | .rdS k pos _ _ _ => [(k, 16), (pos, 18)]
  | .rdX k pos _ _ _ => [(k, 16), (pos, 18)]
  | .upg k pos _ _ _ => [(k, 16), (pos, 18)]
  | .rdOnce k pos _ _ _ => [(k, 16), (pos, 18)]
  | .wrLine k pos _ _ _ _ _ => [(k, 16), (pos, 18)]
  | .wrPart k pos _ _ _ _ _ _ => [(k, 16), (pos, 18)]
  | .atomAdd k _ _ _ _ => [(k, 16)]
  | .wb k pos _ _ _ => [(k, 16), (pos, 18)]
  | .evictClean k pos _ _ => [(k, 16), (pos, 18)]
  | .grantAck k pos _ => [(k, 16), (pos, 18)]
  | .ackMiss k pos _ => [(k, 16), (pos, 18)]
  | .ackClean k pos _ => [(k, 16), (pos, 18)]
  | .dataDirty k pos _ _ => [(k, 16), (pos, 18)]
  | .wbInFlight k pos _ => [(k, 16), (pos, 18)]
  | .dataS k m _ => [(k, 16), (m, 8)]
  | .dataE k m _ => [(k, 16), (m, 8)]
  | .grantUpg k m _ => [(k, 16), (m, 8)]
  | .fillHint k m _ => [(k, 16), (m, 8)]
  | .snpShr k m _ => [(k, 16), (m, 8)]
  | .snpInv k m _ => [(k, 16), (m, 8)]
  | .rdData k pos _ => [(k, 16), (pos, 18)]
  | .wrAck k pos _ => [(k, 16), (pos, 18)]
  | .snoopTimeout k pos _ => [(k, 16), (pos, 18)]
  | .domainLost k => [(k, 16)]
  | .sidebandTrained t => [(t, 4)]
  | .siteEmpty t => [(t, 4)]
  | .idData t _ _ => [(t, 4)]
  | .mainbandTrained t _ _ _ => [(t, 4)]
  | .sidebandUnknown t => [(t, 4)]
  | .siteAssign fn t _ => [(fn, 17), (t, 4)]
  | .assignDone t => [(t, 4)]
  | .siteCmdRetrain fn t => [(fn, 17), (t, 4)]
  | .moduleRetrain t m => [(t, 4), (m, 8)]
  | .moduleRetrainDone t m _ _ => [(t, 4), (m, 8)]
  | .flitReceive t m _ => [(t, 4), (m, 16)]
  | .memRd t _ _ => [(t, 4)]
  | .memWr t _ _ _ => [(t, 4)]
  | .memWrMask t _ _ _ _ => [(t, 4)]
  | .rdRsp t _ => [(t, 4)]
  | .wrRsp t _ => [(t, 4)]
  | .crdS t _ _ => [(t, 4)]
  | .crdX t _ _ => [(t, 4)]
  | .cUpg t _ _ => [(t, 4)]
  | .cWb t _ _ _ => [(t, 4)]
  | .cEvict t _ _ => [(t, 4)]
  | .cGack t _ _ => [(t, 4)]
  | .snpRsp t _ _ _ => [(t, 4)]
  | .redSubmit t _ _ _ => [(t, 4)]
  | .partResetAck t k => [(t, 4), (k, 16)]
  | .partResetAckTimeout t k => [(t, 4), (k, 16)]
  | .siteReset t _ => [(t, 4)]
  | .voltageSettled k => [(k, 16)]
  | .regulatorFault k => [(k, 16)]
  | .pwrCtlFixed fn _ => [(fn, 17)]
  | .partAllocWrite fn p _ => [(fn, 17), (p, 16)]
  | .siteRelease fn _ => [(fn, 17)]
  | .flr fn => [(fn, 17)]
  | .flrDone fn => [(fn, 17)]
  | .powerStateChange fn _ => [(fn, 17)]
  | .dmaAssign fn c _ => [(fn, 17), (c, 32)]
  | .dmaTail fn c tail => [(fn, 17), (c, 32), (tail, 2 ^ 32)]
  | .h2d c _ => [(c, 32)]
  | .d2h c _ => [(c, 32)]
  | .imm c _ => [(c, 32)]
  | .hostCompletion c _ => [(c, 32)]
  | .cplTimeout c => [(c, 32)]
  | .dmaCtlStrict fn _ => [(fn, 17)]
  | .loadKey fn => [(fn, 17)]
  | .retireKey fn => [(fn, 17)]
  | .keySlotFreed k _ => [(k, 16)]
  | .partCmdEnable fn k => [(fn, 17), (k, 16)]
  | .partCmdDisable fn k => [(fn, 17), (k, 16)]
  | .partCmdAssign fn k => [(fn, 17), (k, 16)]
  | .partCmdReset fn k => [(fn, 17), (k, 16)]
  | .partitionResetDrained k => [(k, 16)]
  | .partitionResetComplete k => [(k, 16)]
  | .partCmdRelease fn k => [(fn, 17), (k, 16)]
  | .scrubDrainEnd k => [(k, 16)]
  | .scrubDone k _ => [(k, 16)]
  | .sealCmd fn => [(fn, 17)]
  | .sealComplete k => [(k, 16)]
  | .unsealCmd fn => [(fn, 17)]
  | .extend fn => [(fn, 17)]
  | .getVersion fn => [(fn, 17)]
  | .getCapabilities fn => [(fn, 17)]
  | .negotiateAlgorithms fn _ _ _ _ => [(fn, 17)]
  | .getDigests fn => [(fn, 17)]
  | .getCertificate fn _ _ _ => [(fn, 17)]
  | .challenge fn _ _ => [(fn, 17)]
  | .getMeasurements fn _ _ => [(fn, 17)]
  | .keyExchange fn _ => [(fn, 17)]
  | .finish fn _ _ => [(fn, 17)]
  | .keyUpdate fn _ => [(fn, 17)]
  | .heartbeat fn => [(fn, 17)]
  | .endSession fn => [(fn, 17)]
  | .vendorDefinedRequest fn _ _ => [(fn, 17)]
  | .query fn => [(fn, 17)]
  | .keyProg fn _ _ _ => [(fn, 17)]
  | .kSetGo fn _ _ => [(fn, 17)]
  | .kSetStop fn _ _ => [(fn, 17)]
  | .collClear fn _ => [(fn, 17)]
  | .hang k x q _ => [(k, 16), (x, 256), (q, 2 ^ 32)]
  | .teardownStuck k x => [(k, 16), (x, 256)]
  | .jobAbortCmd fn _ => [(fn, 17)]
  | .devReset fn _ => [(fn, 17)]
  | .dumpAck fn _ => [(fn, 17)]
  | .siteRailLost t => [(t, 4)]
  | .railLost m => [(m, 8)]
  | .trainingFail m => [(m, 8)]
  | .entdaa da => [(da, 128)]
  | .send fn _ => [(fn, 17)]
  | .mbxTake _ f => [(f, 17)]
  | .mbxResponse _ f => [(f, 17)]
  | .ack fn _ => [(fn, 17)]
  | .mbxTimeout _ f => [(f, 17)]
  | .triggerEnable fn t _ => [(fn, 17), (t, 4)]
  | .recorderFence fn => [(fn, 17)]
  | .evrClear fn => [(fn, 17)]
  | .cvuOpen fn u => [(fn, 17), (u, 8)]
  | .cvuClose fn u => [(fn, 17), (u, 8)]
  | .cvuFeed fn u _ => [(fn, 17), (u, 8)]
  | .cvuAssign fn u _ => [(fn, 17), (u, 8)]
  | .cvuRunWrite fn u _ _ => [(fn, 17), (u, 8)]
  | .bootStatus f => [(f, 17)]
  | .forceFullTraining f => [(f, 17)]
  | .badPagesBegin f => [(f, 17)]
  | .badPagesAppend f => [(f, 17)]
  | .badPagesCommit f => [(f, 17)]
  | .shutdown f => [(f, 17)]
  | .bootConfigRead f => [(f, 17)]
  | .bootConfigWrite f => [(f, 17)]
  | .configurationWrite fn _ => [(fn, 17)]
  | .romBoot _ | .settings | .trainingPhase _ _ | .defects _ | .cores | .routes _ _ _ | .scrubPhase | .bringupEnd
  | .romCheck _ _ | .selfTest _ _ | .clear _ | .broadcastAnswerTimeout _ | .coreFault _ _ | .seqStall _
  | .mcRead _ _ _ _ | .mcWrite _ _ | .mcPartialWrite _ _ _
  | .broadcastComplete _ | .powerPeriod _ | .thermalTrip | .hostLinkReset | .linkUp _ _ _
  | .ideFault _ | .getNonce | .lcTransition _ | .installOwnerKey _ | .raiseSecVersion _ | .setAdmissionList _ _
  | .setGeometry _ | .raiseDebugEpoch _ | .installDebugCert _ | .removeDebugCert _ | .clearAudit | .stageData
  | .errorReport _ | .jobAbort _ | .deviceResetDrained | .wdogTuiner _ | .perstAssert _ | .perstRelease | .powerLoss _
  | .sysclkStop | .sysclkReturn | .rstdaa | .enec | .disec | .setmwl _ | .setmrl _ | .getmwl | .getmrl | .getpid
  | .getbcr | .getdcr | .getstatus | .status | .ident | .thermal | .power | .mbxWrite _ _ _ | .mbxSend _
  | .mbxRead | .mbxStat | .mbxAck | .unknownI3cCommand _ | .recStatus | .recReset _ | .ibi _ | .fenceDone
  | .auditMirror | .secondsSave | .imgBegin _ | .imgChunk _ | .imgCommit | .watchdogKick | .pwrOkFall
  | .railRestored _ _ | .pmeTurnOff => []

/-- A command is well formed: each of its numbers is below its bound. -/
def Instr.wf (i : Instr) : Bool := i.bounds.all fun b => decide (b.1 < b.2)

end Sys2Proof
end

