-- ==== Sys2Proof/Tests/Slice0.lean ====
section
/-! SUPPORT. Tests of this model, and for every statement of Certificates/Slice0/Obligations.lean that has hypotheses a
theorem `witness_<name>` whose state and operands meet them, one for each clause.  NOTES.md says which witnesses belong to
which statement. -/

namespace Sys2Proof.Tests

set_option Elab.async false
set_option linter.unusedVariables false

open Sys2Proof Sys2Proof.Machine

/-- In service: bring-up has ended, the link is up. -/
def ready : State :=
  { State.reset with
    board := { State.reset.board with pwrOk := true }
    boot := { State.reset.boot with phase := .ready, sensed := true }
    pcie := { State.reset.pcie with link := true } }

/-- Page `p` in a state, with ENABLE and QUIESCE as given. -/
def page (s : State) (p st ctl : Nat) : State := wf (wf s p Reg.PAGE_CTL 0 2 ctl) p Reg.PAGE_STAT 0 4 st

/-- Cluster 0 in service, its sixteen cores up and its spare in a state. -/
def cluster0 (s : State) (spare : Nat) : State :=
  wr (wr (wr (wr (page s 256 3 1) 256 Reg.CORE_STATE_LO 0x2222222222222222) 256 Reg.CORE_STATE_HI (w64 spare))
    256 Reg.L2P_LO 0x0706050403020100) 256 Reg.L2P_HI 0x0F0E0D0C0B0A0908

/-- Partition 0 ASSIGNED, its units in service, its addresses mapped to its own group, its context 0 in a state. -/
def live (ctx : Nat) : State :=
  let s := wf (page (page (page ready 128 3 1) 64 3 1) 512 3 1) 128 Reg.PART_STATE 0 4 3
  let s := cluster0 s 1
  let s := wr (wr (wr (wf s 128 (Reg.CTX_STATE 0) 0 3 ctx) 128 (Reg.CTX_RING 0) 0x60000000010000) 128 (Reg.CTX_CPL 0) 0x20000)
    128 (Reg.CTX_CFG 0) 8
  { s with xlat := { s.xlat with micro := [0, 128, 168].map fun r => ⟨0, r, 0, 1, 0x7F, 0⟩ } }

/-- Memory with a word at an address. -/
def poke (s : State) (a : Nat) (v : Word) : State := writeBytes s a (wordBytes v)

/-- A descriptor: operation, energy class, formats of A, B and D, OPFLAGS, then its words. -/
def desc (op fa fb fd opf : Nat) (l : List Word) : List Word :=
  w64 (op + 7 <<< 8 + fa <<< 32 + fb <<< 36 + fd <<< 40 + opf <<< 48) :: l

/-- Context 0 runs a descriptor on a unit, in a phase. -/
def running (u : Nat) (d : List Word) (ph : Phase) : State :=
  { live 2 with work := [⟨0, 0, 0, u, d, ph, [], 0⟩] }

/-- A descriptor of the scheduler's own operations. -/
def schedDesc (op opf : Nat) : List Word := desc op 0 0 0 opf [5, 0x1000, 0x2000, 0x3000, 0, 0, 0]

/-- A descriptor over tensors of `m` by `n` by `k` at fixed addresses, each of one 64-byte pitch. -/
def tensorDesc (op fa fb fd opf m n k : Nat) : List Word :=
  desc op fa fb fd opf [7, 0x10000000004000, 0x10000000005000, 0x10000000006000, w64 (m + n <<< 24), w64 (k + n <<< 32), 0]

/-- A descriptor that a unit runs as the first of context 0. -/
def job (u : Nat) (d : List Word) : Work := ⟨0, 0, 0, u, d, .run, [], 0⟩

/-- Memory with values in the tensors of `tensorDesc`: 1.0 and 3.0 in A, one pot-128 record where `pot`; in B 2.0, or the
index 0 where `idx`. -/
def operands (s : State) (pot idx : Bool) : State :=
  let s := poke s 0x4000 0x404000003F800000
  let s := if pot then poke s 0x4010 0x0310000000000002 else s
  if idx then s else poke s 0x5000 0x4000000040000000

/-- A core runs a tensor operation. -/
def onCore (d : List Word) (pot idx : Bool) : State := operands (running 0 d .run) pot idx

/-- REDUCE_COLLECT waits for its last record in slot 63. -/
def collecting (d : List Word) : State :=
  let s := poke (operands (running 168 d .collect) true true) 0x5000 1
  { s with slots := [⟨0, 63, 0, 0, []⟩] }

/-- A descriptor of a sweep engine: operation, formats, then its words. -/
def sweepDesc (op fa fb fd : Nat) (w1 a b d dims total range : Word) : List Word := desc op fa fb fd 0 [w1, a, b, d, dims, total, range]

/-- Memory with a cache list of one entry at 0x7000: one head of dimension 64, BF16 keys and values in a page at 0x100000. -/
def withList (s : State) (count : Nat) : State :=
  poke (poke s 0x7000 (w64 (0x100000 + 1 <<< 52))) 0x7008 (w64 (count + 1 <<< 16 + 1 <<< 21))

/-- ATTN_PARTIAL over one token. -/
def attnDesc : List Word :=
  sweepDesc 0x20 4 0 10 0x3F800000 0x10000000004000 0x7000 (w64 (0x200000 + 98 <<< 52)) (w64 (1 + 64 <<< 24)) 1 (w64 (1 <<< 32))

/-- ATTN_MERGE of one partial, into FP32 elements or into a partial. -/
def mergeDesc (fd : Nat) : List Word :=
  sweepDesc 0x21 10 0 fd 0 (w64 (0x200000 + 98 <<< 52)) 0 (w64 (0x300000 + 98 <<< 52)) (w64 (1 + 64 <<< 24)) 1 0

/-- KV_STORE of one token, and KV_BOUND of one entry. -/
def kvDesc (op : Nat) : List Word :=
  sweepDesc op 1 1 0 0 (w64 (0x4000 + 2 <<< 52)) (w64 (0x5000 + 2 <<< 52)) 0x7000 (w64 (1 + 64 <<< 24)) 0 0

/-- An engine runs a descriptor over the list. -/
def onEngine (d : List Word) (count : Nat) : State := withList (onCore d false false) count

/-- Page tables of partition 0 with one leaf of 64 KiB: the page at 0x10000 maps itself, uncached. -/
def tables (s : State) : State :=
  poke (poke (poke (poke (wr s 64 Reg.MF_ROOT 0x400001) 0x400000 0x410001) 0x410000 0x420001) 0x420000 0x430001)
    0x430008 0x1007F

/-- An open record of a fault of partition 0. -/
def openFault (id : Nat) : FaultRec := ⟨id, ⟨0, 0, 0x10000, 0, 1, false, 0, 1, 0, 0, 0x10000, 64, 1, 64⟩, true, false, 1, 1, 0, 0, 0⟩

/-- Site `t` is admitted with one agent, which caches, and serves every partition. -/
def siteUp (s : State) (t : Nat) : State :=
  let s := wf (page s (pgSite t) 3 1) (pgSite t) Reg.PAGE_STAT 8 8 4
  let s := wr (wr s (pgSite t) Reg.SITE_ADMIT 0x8101) (pgSite t) Reg.SITE_ASSIGN 0xFFFFFFFF
  let s := wr s (pgSite t) Reg.SITE_LINK (w64 (2 <<< 48 + 32 <<< 40 + 32 <<< 32 + 0xFFFF))
  { s with xlat := { s.xlat with micro := s.xlat.micro ++ [⟨0, 164 + t, 0, 1, 0x3F, 0⟩] } }

/-- What a chiplet sends: TYPE, TAG and LEN of a request of partition 0. -/
def flitHead (ty tag len : Nat) : Word := w64 (ty + tag <<< 20 + len <<< 32)

/-- A mailbox holds a taken request. -/
def mailed (s : State) (sec : Bool) (fn : Nat) (b : Bytes) : State :=
  let s := (List.range 32).foldl (fun s i => wr s (pgMbx sec) (Reg.REQ fn i) (bytesNat (slice b (8 * i) 8))) s
  wf s (pgMbx sec) (Reg.MBX_STAT fn) 0 3 2

/-- The owner's public key in the fuses of `owned`, under which the signatures of these tests were made. -/
def ownerKey : Bytes := natBytes 0xf08d9fc7eb28f42a2c61bd92599b61b89e0baa56f969c12317add5cf980903e4 32

/-- A device in PROVISIONED that holds an owner's key and has given out a nonce. -/
def owned : State :=
  { ready with
    fuse := { ready.fuse with rows := [⟨0x30, 0, [], false, true⟩], ownerKeys := [ownerKey], unitId := 0x1234 }
    boot := { ready.boot with imageVersion := 9 }
    sec := { ready.sec with nonce := some (List.replicate 32 0x6E) } }

/-- A request of the owner: code, counter, the bytes from byte 53 on, and the signature. -/
def ownerAsks (code counter : Nat) (args : Bytes) (sig : Nat) : Bytes :=
  fitBytes (natBytes code 2 ++ [0, 2] ++ zeroBytes 4 ++ natBytes 0x1234 8 ++ List.replicate 32 0x6E ++
    natBytes counter 4 ++ [0x30] ++ args) 192 ++ natBytes sig 64

/-- Memory that holds these bytes from `a` and nothing else. -/
def laid (s : State) (a : Nat) (b : Bytes) : State :=
  { s with mem := (b.zipIdx.map fun e => (a + e.2, e.1)).filter fun e => e.2 ≠ 0 }

/-- A partial of one token in a head of 64 elements: every pot holds 1.0. -/
def onePartial : Bytes :=
  let p := potAdd potZero (.fin false 1 0)
  partialBytes 3 0 0 0 1 7 1 0 false false p (List.replicate 64 p)

/-- No word is its successor. -/
theorem succ_ne (x : Word) : x + 1 ≠ x := by bv_omega

/-- The canonical form, computed. -/
theorem canonical_of {s : State} (h : (sparseWf regReset s.regs && sparseWf memZero s.mem && sparseWf memZero s.hostMem) = true) : s.canonical := by
  simp only [Bool.and_eq_true] at h
  exact ⟨h.1.1, h.1.2, h.2⟩

/-- A home is ready whose directory holds fewer entries than a set has ways, whatever sets they are in. -/
theorem homeReady_of {s : State} {k line : Nat} (h : s.coh.dir.length < 12)
    (r : k < 16 ∧ ownRange k (line * 128) 128 = true ∧ domainLost s k = false ∧ HomeQuiet s k line ∧
      homeLoad s k (homeOf line) < 78 ∧ Clean s (line * 128) 128) : HomeReady s k line :=
  ⟨r.1, r.2.1, r.2.2.1, r.2.2.2.1, r.2.2.2.2.1,
    lt_of_le_of_lt ((List.length_filter_le _ _).trans (List.length_filter_le _ _)) h, r.2.2.2.2.2⟩

/-- An answer that is there. -/
theorem some_of {α : Type} {o : Option α} (h : o.isSome = true) : o = some (o.get h) := (Option.some_get h).symm

/-- A pair whose first part is known. -/
theorem pair_of {α β : Type} {p : α × β} {a : α} (h : p.1 = a) : p = (a, p.2) := by subst h; rfl

/-! ### Well-formed commands -/

/-- A command for each kind of number that has a bound, with the number at its bound. -/
theorem test_ill_formed : ([.powerOn 16 false, .pageEnable 17 0 0, .pageEnable 0 2048 0, .coreFence 0 128 0, .ctxOpen 0 16 0,
    .ctxOpen 0 0 256, .ctxTail 0 0 0 (2 ^ 32), .gemm 0 0 (2 ^ 32), .engineFault 64 0, .refresh 8 0, .packetInject (.cluster 0) (.cluster 8) 32 (.work 0) 64 1 0 none,
    .dealCommit 0 8, .rdS 0 18 0 false false, .siteEmpty 4, .cvuOpen 0 8, .imm 32 [], .mbxTake true 17, .entdaa 128] :
      List Instr).all (fun i => !i.wf) = true := by decide

/-- The same numbers just below their bounds. -/
theorem test_well_formed : ([.powerOn 15 false, .pageEnable 16 2047 0, .coreFence 0 127 0, .ctxOpen 16 15 255,
    .ctxTail 0 0 0 (2 ^ 32 - 1), .gemm 0 0 (2 ^ 32 - 1), .engineFault 63 0, .refresh 7 0, .packetInject (.cluster 0) (.cluster 8) 31 (.work 0) 64 1 0 none,
    .dealCommit 0 7, .rdS 0 17 0 false false, .siteEmpty 3, .cvuOpen 0 7, .imm 31 [], .mbxTake true 16, .entdaa 127] :
      List Instr).all (fun i => i.wf) = true := by decide

/-! ### The spec's worked examples -/

/-- Chapter 03, three products in two orders: both end at 2^-18 with three terms, which is 0x3680 in BF16. -/
theorem test_three_products_in_two_orders :
    (let p1 := Machine.Num.fin false 65536 0; let p2 := Machine.Num.fin true 65536 0; let p3 := Machine.Num.fin false 1 (-18)
    [[p1, p3, p2], [p2, p3, p1]].map fun l =>
      let p := l.foldl potAdd potZero
      (p.terms, roundNum .rne 1 false false (potNum p))) = [(3, 0x3680, false), (3, 0x3680, false)] := by decide +kernel

/-- Chapter 03, a tie under both modes: 2.625 to E4M3. -/
theorem test_tie_to_even : roundNum .rne 4 false false (.fin false 21 (-3)) = (0x42, false) := by decide +kernel
theorem test_tie_stochastic : roundNum (.sr (srand 0 0) 32) 4 false false (.fin false 21 (-3)) = (0x43, false) := by
  decide +kernel

/-- Chapter 03, four values into MXFP4: the scale is 0x80 and the codes are 6, 9, 1 and 0. -/
theorem test_mxfp4_block :
    (let l := [0x41200000, 0xBFA66666, 0x3F333333, 0].map (decodeElem 0 false)
    (blockScale 7 l, l.map fun
      | .fin s m e => (roundNum .rne 7 true false (.fin s m (e - 1))).1
      | _ => 0)) = (0x80, [6, 9, 1, 0]) := by decide +kernel

/-- Chapter 05, a GEMM tile: word 0 of the completion record at SEQ 5 of context 0x512 under ARITH_VER 3. -/
theorem test_gemm_record :
    (recordWords { wf ready (pgPart 5) (Reg.CTX_RING 0x12) 52 4 8 with fuse := { ready.fuse with hubArith := 3, baseArith := 3 } }
      ⟨5, 0x12, 5, 0, [0x0002014400A75C01, 0x2A51, 0x0400000120000000, 0x0400000120040000, 0x0200000140040180, 0x40000040,
        0x40000001000, 0xC000000080], .run, [], 0⟩ 0 0 0 0 0).headD 0 = 0x0301151200A70000 := by decide +kernel

/-- Chapter 18, one PID. -/
theorem test_one_pid : i3cPid { ready with
    board := { ready.board with strap := 3 }, fuse := { ready.fuse with unitId := 0x1A05C7 } } = 0x1694081635C7 := by
  decide +kernel

/-- Chapter 19, CRC-32 through registers: the digits 1 to 9. -/
theorem test_crc32_digits : crcFinish 1 (crcFeed 1 (crcParams 1).2.2.1 [0x31, 0x32, 0x33, 0x34, 0x35, 0x36, 0x37, 0x38, 0x39]) =
    0xCBF43926 := by decide +kernel

/-! ### Published test vectors of the algorithms that the spec names -/

/-- FIPS 180-4: SHA-512 of "abc", its first eight bytes. -/
theorem test_sha512_abc : (sha512 [0x61, 0x62, 0x63]).take 8 = [0xDD, 0xAF, 0x35, 0xA1, 0x93, 0x61, 0x7A, 0xBA] := by
  decide +kernel

/-- RFC 8032, section 7.1, test 2. -/
theorem test_ed25519_verifies :
    edVerify [0x3d, 0x40, 0x17, 0xc3, 0xe8, 0x43, 0x89, 0x5a, 0x92, 0xb7, 0x0a, 0xa7, 0x4d, 0x1b, 0x7e, 0xbc, 0x9c, 0x98, 0x2c,
      0xcf, 0x2e, 0xc4, 0x96, 0x8c, 0xc0, 0xcd, 0x55, 0xf1, 0x2a, 0xf4, 0x66, 0x0c] [0x72]
      [0x92, 0xa0, 0x09, 0xa9, 0xf0, 0xd4, 0xca, 0xb8, 0x72, 0x0e, 0x82, 0x0b, 0x5f, 0x64, 0x25, 0x40, 0xa2, 0xb2, 0x7b, 0x54,
      0x16, 0x50, 0x3f, 0x8f, 0xb3, 0x76, 0x22, 0x23, 0xeb, 0xdb, 0x69, 0xda, 0x08, 0x5a, 0xc1, 0xe4, 0x3e, 0x15, 0x99, 0x6e,
      0x45, 0x8f, 0x36, 0x13, 0xd0, 0xf1, 0x1d, 0x8c, 0x38, 0x7b, 0x2e, 0xae, 0xb4, 0x30, 0x2a, 0xee, 0xb0, 0x0d, 0x29, 0x16,
      0x12, 0xbb, 0x0c, 0x00] = true := by decide +kernel

/-! ### The machine and its arithmetic -/

namespace Whole

/-- The state in which a read or write of a range finds it. -/
def reached (s : State) (k req a n : Nat) (write : Bool) : State :=
  meetHolds (activateRange (countBytes s k req a n write) a n) a n

/-- A read that meets no error. -/
theorem devRead_of {s : State} {k req a n : Nat} (h : (sense (reached s k req a n false) a n 1 (ctxOf s k req)).1 = true) :
    devRead s k req a n = (some (readBytes (sense (reached s k req a n false) a n 1 (ctxOf s k req)).2 a n),
      (sense (reached s k req a n false) a n 1 (ctxOf s k req)).2) := by
  simp only [reached] at h
  simp [devRead, readAs, h, reached]

/-- The state after a write of whole bursts that meets no error. -/
def wrote (s : State) (k req a n : Nat) (b : Bytes) : State :=
  let u := reached s k req a n true
  wcRange (writeBytes { u with
    ue := u.ue.filter fun g => !((badUnits u a n).contains g)
    weak := u.weak.filter fun g => !((weakUnits u a n).contains g) } a b) a n

/-- A write of whole bursts that meets no error. -/
theorem devWrite_of {s : State} {k req a n : Nat} {b : Bytes} (hb : b.length = n) (hp : partUnits a n = [])
    (h : blockedRange (reached s k req a n true) a n = false) : devWrite s k req a b = (true, wrote s k req a n b) := by
  subst hb
  simp only [reached] at h
  simp [devWrite, writeAs, h, hp, wrote, reached]

/-- An answer that is a next state. -/
theorem next_of {o : Host.Outcome State Fault Refusal} (h : (match o with | .next _ => true | _ => false) = true) :
    ∃ t, o = .next t := by
  cases o <;> simp_all

def busy : State := { ready with pending := [.pwrOkFall, .sysclkStop] }

theorem witness_AnIdleStepIsOneCycle :
    (∃ (e : Nat) (w : Work) (s : State), s.canonical ∧ s.pending = [] ∧ s.board.pwrOk = true ∧ s.board.sysclk = true ∧
      s.xlat.shareWaits = [] ∧ s.xlat.resets = [] ∧ e < 64 ∧ engineWork s e = some w) ∧
    (∃ s : State, s.canonical ∧ s.pending = [] ∧ (s.board.pwrOk = false ∨ s.board.sysclk = false)) :=
  ⟨⟨1, _, { ready with work := [⟨0, 0, 0, 129, List.replicate 8 0, .run, [], 0⟩] }, canonical_of (by decide +kernel), rfl,
      rfl, rfl, rfl, rfl, by decide, rfl⟩, ⟨State.reset, canonical_of (by decide +kernel), by decide +kernel⟩⟩

/-- The last page of 2 MiB that begins in group 3 runs past its end. -/
theorem witness_AddressesMapAsTheTableSays : ∃ (k level i : Nat) (e : Word), k < 16 ∧ i < levelSize level ∧
    groupOf (leafPa e + i) = none ∧ quayOf (leafPa e + i) = none :=
  ⟨3, 2, 0x1FFFFF, w64 (0x1D9680007F), by decide +kernel⟩

theorem witness_RegulatorsFill :
    ∃ (p ring : Nat) (s : State), s.canonical ∧ (p < 16 ∨ p = 0x1F) ∧ ring < 8 ∧ s.pending = [] ∧ s.board.pwrOk = true ∧
      s.board.sysclk = true :=
  ⟨0x1F, 7, { ready with fab := { ready.fab with tokens := [(0, 5)] } }, canonical_of (by decide +kernel), by decide +kernel⟩

theorem witness_EveryStepKeepsTheCanonicalForm : ∃ s t : State, s.canonical ∧ step s = .next t :=
  ⟨busy, (next_of (o := step busy) (by decide +kernel)).choose, canonical_of (by decide +kernel),
    (next_of (by decide +kernel)).choose_spec⟩

theorem witness_CommandsLeaveTheQueue : ∃ (c : Instr) (s t : State), s.canonical ∧ exec c s = .next t :=
  ⟨.pwrOkFall, busy, (next_of (o := exec .pwrOkFall busy) (by decide +kernel)).choose, canonical_of (by decide +kernel),
    (next_of (by decide +kernel)).choose_spec⟩

theorem witness_OnlyReservedAddressesStop : ∃ (a n : Nat) (s : State), groupOf a = none ∧ quayOf a = none ∧
    exec (.mcRead a n none .clean) s = .fault .reservedAddress :=
  ⟨2 ^ 46, 1, ready, by decide +kernel, by decide +kernel, by rfl⟩

theorem witness_PotAdditionIsModularAndFreeOfOrder :
    (∃ l l' : List Machine.Num, l.Perm l' ∧ l ≠ l') ∧
    (∃ l : List Machine.Num, l ≠ [] ∧ -2 ^ 639 ≤ (l.map (units 320)).sum ∧ (l.map (units 320)).sum < 2 ^ 639) ∧
    (∃ l : List Machine.Num, (2 : Int) ^ 272 ∣ (l.map (units 320)).sum ∧ -2 ^ 399 ≤ (l.map (units 320)).sum ∧
      (l.map (units 320)).sum < 2 ^ 399) :=
  ⟨⟨[.fin false 3 0, .nan], [.nan, .fin false 3 0], .swap .., by decide⟩,
    ⟨[.fin true (2 ^ 639) (-320)], by decide, by decide +kernel, by decide +kernel⟩,
    ⟨[.fin true (2 ^ 127) (-48)], by decide +kernel⟩⟩

theorem witness_ElementValuesRoundToThemselves : ∃ (f c m : Nat) (mx s : Bool) (e : Int),
    f < 9 ∧ c < 2 ^ (fmtOf f).w ∧ decodeElem f mx c = .fin s m e :=
  ⟨4, 0xFE, 14, false, true, 5, by decide +kernel⟩

theorem witness_RoundingTakesTheNearestEvenCode : ∃ (f m c d m2 : Nat) (mx sat s s2 : Bool) (e e2 : Int),
    f < 9 ∧ m ≠ 0 ∧ roundNum .rne f mx sat (.fin s m e) = (c, false) ∧ d < 2 ^ (fmtOf f).w ∧
      decodeElem f mx d = .fin s2 m2 e2 :=
  ⟨4, 17, 0x58, 0x59, 9, false, false, false, false, 0, 1, by decide +kernel⟩

theorem witness_ZerosInfinitiesAndNansAreDelivered :
    (∃ (f : Nat) (p : Pot), f < 9 ∧ p.nan = false ∧ p.range = false ∧ p.posInf = false ∧ p.negInf = false ∧ p.v = 0) ∧
    (∃ (mode : RMode) (f m c : Nat) (mx sat s s' : Bool) (e e' : Int), f < 9 ∧ m ≠ 0 ∧
      roundNum mode f mx sat (.fin s m e) = (c, false) ∧ decodeElem f mx c = .fin s' 0 e') ∧
    (∃ (f : Nat) (p : Pot), f < 9 ∧ p.nan = true) ∧
    (∃ (f : Nat) (p : Pot), f < 9 ∧ p.nan = false ∧ p.range = false ∧ p.posInf = true ∧ p.negInf = false) ∧
    (∃ (f : Nat) (p : Pot), f < 9 ∧ p.nan = false ∧ p.range = false ∧ p.posInf = false ∧ p.negInf = true) :=
  ⟨⟨8, potZero, by decide⟩, ⟨.rne, 2, 1, 0x8000, false, false, true, true, -300, -24, by decide +kernel⟩,
    ⟨0, ⟨0, 0, false, false, true, false⟩, by decide⟩, ⟨0, ⟨0, 0, true, false, false, false⟩, by decide⟩,
    ⟨0, ⟨0, 0, false, true, false, false⟩, by decide⟩⟩

/-- A descriptor of `PREFETCH` that migrates the page at 0x10000 to 0x500000; its context is being aborted. -/
def moving : State :=
  { wf (tables (live 2)) 128 (Reg.CTX_STATE 0) 0 3 4 with
    work := [⟨0, 0, 0, 168, desc 0x55 0 0 0 1 [5, 0x10000, 0x500000, 0, 0, 1, 0], .run, [], 0⟩]
    xlat := { (tables (live 2)).xlat with micro := [⟨0, 168, 0x20000000, 1, 0x7F, 0⟩], slice := [⟨0, 0x10000, 3, 0x1007F, 0, false, false⟩] } }

def leafOnce : State := (leafAt (begun moving) 0 0x10000).2
def leafTwice : State := (leafAt leafOnce 0 0x10000).2
def pageRead : State := (sense (reached (evictRange leafTwice 0 0x10000 0x10000) 0 168 0x10000 0x10000 false) 0x10000 0x10000 1
  (ctxOf (evictRange leafTwice 0 0x10000 0x10000) 0 168)).2
def pageMoved : State := wrote pageRead 0 168 0x500000 0x10000 (readBytes pageRead 0x10000 0x10000)
def leafMoved : State := (devWrite pageMoved 0 walkerPort 0x430008 (wordBytes (setFld 0x1007F 12 34 (0x500000 / 4096)))).2

theorem witness_MigrationCompletes :
    ∃ (level a : Nat) (e : Word) (b : Bytes) (w : Work) (s s1 s2 s3 s4 s5 : State),
      leafAt (begun s) 0 (dA w.desc) = (.ok (level, e, a), s1) ∧ leafAt s1 0 (dA w.desc) = (.ok (level, e, a), s2) ∧
      devRead (evictRange s2 0 (leafPa e) (dK w.desc * 65536)) 0 168 (leafPa e) (dK w.desc * 65536) = (some b, s3) ∧
      devWrite s3 0 168 (dB w.desc) b = (true, s4) ∧
      devWrite s4 0 walkerPort a (wordBytes (setFld e 12 34 (dB w.desc / 4096))) = (true, s5) ∧
      findWork s 0 0 0 0x55 = some w ∧ dOpf w.desc % 4 = 1 ∧ w.moved = 0 ∧ level ≠ 1 ∧
      pageVa level (dA w.desc) = dA w.desc ∧ levelSize level = dK w.desc * 65536 ∧ 0 < dK w.desc ∧ dB w.desc < 2 ^ 46 ∧
      dB w.desc % (dK w.desc * 65536) = 0 ∧ ownRange 0 (dB w.desc) (dK w.desc * 65536) = true ∧
      ¬(leafPa e < dB w.desc + dK w.desc * 65536 ∧ dB w.desc < leafPa e + dK w.desc * 65536) ∧
      pageBusy s2 0 (dA w.desc) (leafPa e) (dK w.desc * 65536) = false ∧
      (completeSt (addReg (dropXlat s5 0 (dA w.desc) (dK w.desc * 65536)) (pgMf 0) Reg.PAGES_MIGRATED (dK w.desc)) w
        0).stalled = none := by
  have hr := devRead_of (s := evictRange leafTwice 0 0x10000 0x10000) (k := 0) (req := 168) (a := 0x10000) (n := 0x10000)
    (by decide +kernel)
  have hw : devWrite pageRead 0 168 0x500000 (readBytes pageRead 0x10000 0x10000) = (true, pageMoved) :=
    devWrite_of (by simp [readBytes, sparseRun]) (by decide +kernel) (by decide +kernel)
  have hl : devWrite pageMoved 0 walkerPort 0x430008 (wordBytes (setFld 0x1007F 12 34 (0x500000 / 4096))) = (true, leafMoved) :=
    pair_of (by decide +kernel)
  refine ⟨3, 0x430008, 0x1007F, _, ⟨0, 0, 0, 168, desc 0x55 0 0 0 1 [5, 0x10000, 0x500000, 0, 0, 1, 0], .run, [], 0⟩, moving,
    leafOnce, leafTwice, pageRead, pageMoved, leafMoved, pair_of (by decide +kernel), pair_of (by decide +kernel), hr, hw, hl, ?_⟩
  decide +kernel

theorem witness_NonceAsked : ∃ (b : Bytes) (s : State), s.canonical ∧ takenReq s true 0 0x301 = some b :=
  ⟨_, mailed ready true 0 (natBytes 0x301 2 ++ zeroBytes 254), canonical_of (by decide +kernel),
    some_of (by decide +kernel)⟩

end Whole

namespace Pages

theorem witness_PageControlWritesMoveThePage :
    (∃ (fn p : Nat) (v : Word) (s : State), s.canonical ∧ MayWrite s fn p Reg.PAGE_CTL ∧ viewHeader fn p Reg.PAGE_CTL
      = false ∧ ctlOk s p v = true ∧ bit v 2 = false ∧ enabled s p = false ∧ bit v 0 = true) ∧
    (∃ (fn p : Nat) (v : Word) (s : State), s.canonical ∧ MayWrite s fn p Reg.PAGE_CTL ∧ viewHeader fn p Reg.PAGE_CTL
      = false ∧ ctlOk s p v = true ∧ bit v 2 = false ∧ enabled s p = true ∧ bit v 0 = false) ∧
    (∃ (fn p : Nat) (v : Word) (s : State), s.canonical ∧ MayWrite s fn p Reg.PAGE_CTL ∧ viewHeader fn p Reg.PAGE_CTL
      = false ∧ ctlOk s p v = true ∧ bit v 2 = false ∧ enabled s p = true ∧ bit v 0 = true ∧ rb s p Reg.PAGE_CTL 1 =
      false ∧ bit v 1 = true) ∧
    (∃ (fn p : Nat) (v : Word) (s : State), s.canonical ∧ MayWrite s fn p Reg.PAGE_CTL ∧ viewHeader fn p Reg.PAGE_CTL
      = false ∧ ctlOk s p v = true ∧ bit v 2 = false ∧ enabled s p = true ∧ bit v 0 = true ∧ rb s p Reg.PAGE_CTL 1 =
      true ∧ bit v 1 = false) ∧
    (∃ (fn p : Nat) (v : Word) (s : State), s.canonical ∧ MayWrite s fn p Reg.PAGE_CTL ∧ viewHeader fn p Reg.PAGE_CTL
      = false ∧ ctlOk s p v = true ∧ bit v 2 = false ∧ bit v 0 = enabled s p ∧ bit v 1 = rb s p Reg.PAGE_CTL 1 ∧ bit
      v 8 = true) :=
  ⟨⟨0, 3, 1, page ready 3 0 0, canonical_of (by decide +kernel), by decide +kernel⟩,
  ⟨0, 3, 0, page ready 3 4 3, canonical_of (by decide +kernel), by decide +kernel⟩,
  ⟨0, 3, 3, page ready 3 3 1, canonical_of (by decide +kernel), by decide +kernel⟩,
  ⟨0, 3, 1, page ready 3 4 3, canonical_of (by decide +kernel), by decide +kernel⟩,
  ⟨0, 3, 257, page ready 3 3 1, canonical_of (by decide +kernel), by decide +kernel⟩⟩

theorem witness_PageEventsAndResetsTakeEffect :
    (∃ (fn p : Nat) (s : State), s.canonical ∧ pageState s p = 3 ∧ rb s p Reg.PAGE_CTL 1 = true ∧ drained s p = true
      ∧ MayWrite s fn p Reg.LOCK ∧ viewHeader fn p Reg.LOCK = false ∧ MayWrite s fn p Reg.EVT_SET ∧ viewHeader fn p
      Reg.EVT_SET = false) ∧
    (∃ (fn p : Nat) (v : Word) (s : State), s.canonical ∧ MayWrite s fn p Reg.PAGE_CTL ∧ viewHeader fn p Reg.PAGE_CTL
      = false ∧ ctlOk s p v = true ∧ bit v 2 = true) ∧
    (∃ (p : Nat) (s : State), s.canonical ∧ blockOf p = some Block.mc ∧ pageState s p = 2 ∧ s.board.hbmRails.testBit
      (p - 640) = true ∧ s.boot.railFaults.contains p = false) ∧
    (∃ (fn p : Nat) (s : State), s.canonical ∧ MayWrite s fn p Reg.EVT_SET ∧ viewHeader fn p Reg.EVT_SET = true ∧ fn
      < 17) :=
  ⟨⟨0, 3, page ready 3 3 3, canonical_of (by decide +kernel), by decide +kernel⟩,
  ⟨0, 3, 4, page ready 3 4 3, canonical_of (by decide +kernel), by decide +kernel⟩,
  ⟨640, page ready 640 2 1, canonical_of (by decide +kernel), by decide +kernel⟩,
  ⟨3, 8, wf ready 130 Reg.PART_STATE 0 4 3, canonical_of (by decide +kernel), by decide +kernel⟩⟩

end Pages

namespace Registers

def rowOf (p o : Nat) : RegRow := (regRow p o).getD ⟨0,0,0,0,0,0,0,0,false⟩

theorem witness_RegisterWriteStoresItsWritableBits :
    ∃ (fn off p o : Nat) (v : Word) (r : RegRow) (s : State), s.canonical ∧ off % 8 = 0 ∧ target fn off = some (p, o)
      ∧ routeWrite s fn p o v = none ∧ MayWrite s fn p o ∧ viewHeader fn p o = false ∧ regRow p o = some r ∧ absent p
      o = false ∧ r.rw ||| r.rwl ||| r.w1c ≠ 0 ∧ fieldRole s fn p o v = true ∧ valueOk s p o r v = true ∧ o ≠
      Reg.EVT_STAT ∧ o ≠ Reg.EVT_EN ∧ (¬(blockOf p = some Block.ring ∧ o = Reg.DEAL_DATA)) :=
  ⟨0, 8454688, 129, 0x220, 0xFFFFFFFFFFFFFFFF, rowOf 129 0x220, ready, canonical_of (by decide +kernel),
    by decide +kernel⟩

theorem witness_ReadsAnswerAndNarrowAccessesCount :
    ∃ (fn off len p o : Nat) (s : State), s.canonical ∧ barOpen s fn = true ∧ target fn off = some (p, o) ∧ visible s
      fn p = true ∧ responds s p = true ∧ (¬(off % 8 = 0 ∧ len = 8)) ∧ off % 8 = 0 ∧ viewHeader fn p o = false ∧
      mayRead s fn p o = true ∧ readRole s fn p o = true ∧ absent p o = false :=
  ⟨0, 196888, 4, 3, 280, wr ready 3 280 5, canonical_of (by decide +kernel), by decide +kernel⟩

end Registers

namespace Scheduler

def sW (v : Word) (ph : Phase) := poke (running 168 (schedDesc 0x43 0) ph) 0x1000 v

def wNop : Work := ⟨0, 0, 0, 168, schedDesc 0x44 0, .run, [], 0⟩

def sB (v : Word) : State := wr (running 168 (schedDesc 0x41 63) .run) 128 (Reg.BAR 63) v

def sG (v : Word) : State := wf (wr (running 168 (schedDesc 0x41 (256 + 31)) .run) 128 (Reg.GBAR 31) v) 128 (Reg.CTX_JOB 0) 0 8 7

def cDesc : List Word := desc 0x1B 9 0 0 63 [0, 0x4000, 0x5000, 0x6000, w64 (1 + 1 <<< 24), w64 (1 + 1 <<< 32), 0]

def sC := running 168 cDesc .run

def wC : Work := ⟨0, 0, 0, 168, cDesc, .run, [], 0⟩

theorem witness_ContextCommandsMoveTheContext :
    (∃ (fn k x : Nat) (s : State), s.canonical ∧ k < 16 ∧ x < 256 ∧ MayWrite s fn (pgPart k) (Reg.CTX_CMD x) ∧
      (ctxState s k x = 1 ∨ ctxState s k x = 3) ∧ (ctxState s k x = 1 ∨ ctxState s k x = 3 ∨ ctxState s k x = 5) ∧
      (ctxState s k x = 1 ∨ ctxState s k x = 2 ∨ ctxState s k x = 3)) ∧
    (∃ (fn k x : Nat) (s : State), s.canonical ∧ k < 16 ∧ x < 256 ∧ MayWrite s fn (pgPart k) (Reg.CTX_CMD x) ∧
      partLive s k = true ∧ ctxState s k x = 0 ∧ ringOk s k x = true) ∧
    (∃ (fn k x : Nat) (s : State), s.canonical ∧ k < 16 ∧ x < 256 ∧ MayWrite s fn (pgPart k) (Reg.CTX_CMD x) ∧
      ctxState s k x = 2) :=
  ⟨⟨1, 0, 0, live 1, canonical_of (by decide +kernel), by decide +kernel⟩,
  ⟨0, 0, 0, live 0, canonical_of (by decide +kernel), by decide +kernel⟩,
  ⟨0, 0, 0, live 2, canonical_of (by decide +kernel), by decide +kernel⟩⟩

theorem witness_TailsFreedContextsAndTargetsAreTaken :
    (∃ (fn k x b tail : Nat) (s : State), s.canonical ∧ k < 16 ∧ x < 256 ∧ b < 64 ∧ MayWrite s fn (pgPart k)
      (Reg.CTX_TAIL x) ∧ (ctxState s k x = 1 ∨ ctxState s k x = 2 ∨ ctxState s k x = 3) ∧ (tail % 2 ^ 32 + 2 ^ 32 -
      ctxHead s k x) % 2 ^ 32 < 2 ^ 31 ∧ (tail % 2 ^ 32 + 2 ^ 32 - rf s (pgPart k) (Reg.CTX_STATE x) 32 32) % 2 ^ 32
      ≤ 2 ^ ctxLog s k x ∧ MayWrite s fn (pgPart k) (Reg.BAR b) ∧ rf s (pgPart k) (Reg.BAR b) 16 16 = 0 ∧ b < 32 ∧
      MayWrite s fn (pgPart k) (Reg.GBAR b) ∧ actsOn s fn (pgPart k) true = true ∧ rf s (pgPart 0) (Reg.GBAR b) 16 16
      = 0) ∧
    (∃ (k x b : Nat) (s : State), s.canonical ∧ k < 16 ∧ x < 256 ∧ b < 64 ∧ ctxState s k x = 4 ∧ rf s (pgPart k)
      (Reg.CTX_OUT x) 0 24 = 0 ∧ s.err.stuck.contains (k, x) = false) :=
  ⟨⟨0, 0, 0, 31, 64, live 1, canonical_of (by decide +kernel), by decide +kernel⟩,
  ⟨0, 0, 0, live 4, canonical_of (by decide +kernel), by decide +kernel⟩⟩

theorem witness_DispatchSendsTheNextDescriptor :
    (∃ (k x u : Nat) (rows : List Bytes) (s s1 : State), s.canonical ∧ readTile (begun s) k 168
      { va := rf s (pgPart k) (Reg.CTX_RING x) 0 52 + 64 * (ctxHead s k x % 2 ^ ctxLog s k x), pitch := 64, rows := 1, rowBytes := 64, operand := 7 }
      = (Except.ok rows, s1) ∧ k < 16 ∧ x < 256 ∧ partLive s k = true ∧ pageState s (pgPart k) = 3 ∧ (∀ w ∈ s.work,
      ¬(w.part = k ∧ w.ctx = x ∧ w.phase = Phase.returned)) ∧ Machine.ready s k x = true ∧ energyHeld s k x = false ∧
      outranked s k x = false ∧ hasTurn s k x = true ∧ s1.stalled = none ∧ decodeCheck (bytesWords (rows.getD 0 [])
      8) = 0 ∧ anyUnit s1 k (dOp (bytesWords (rows.getD 0 []) 8)) = true ∧ unitFits s1 k u (bytesWords (rows.getD 0
      []) 8) = true ∧ charge (bytesWords (rows.getD 0 []) 8) ≤ BitVec.toNat (rd s1 (pgPart k) Reg.EBUCKET)) ∧
    (∃ (k x u : Nat) (rows : List Bytes) (s s1 : State), s.canonical ∧ readTile (begun s) k 168
      { va := rf s (pgPart k) (Reg.CTX_RING x) 0 52 + 64 * (ctxHead s k x % 2 ^ ctxLog s k x), pitch := 64, rows := 1, rowBytes := 64, operand := 7 }
      = (Except.ok rows, s1) ∧ k < 16 ∧ x < 256 ∧ partLive s k = true ∧ pageState s (pgPart k) = 3 ∧ (∀ w ∈ s.work,
      ¬(w.part = k ∧ w.ctx = x ∧ w.phase = Phase.returned)) ∧ Machine.ready s k x = true ∧ energyHeld s k x = false ∧
      outranked s k x = false ∧ hasTurn s k x = true ∧ s1.stalled = none ∧ decodeCheck (bytesWords (rows.getD 0 [])
      8) = 0 ∧ anyUnit s1 k (dOp (bytesWords (rows.getD 0 []) 8)) = true ∧ unitFits s1 k u (bytesWords (rows.getD 0
      []) 8) = true ∧ BitVec.toNat (rd s1 (pgPart k) Reg.EBUCKET) < charge (bytesWords (rows.getD 0 []) 8)) ∧
    (∃ (k x u : Nat) (s : State) (w : Work), s.canonical ∧ k < 16 ∧ x < 256 ∧ partLive s k = true ∧ pageState s
      (pgPart k) = 3 ∧ (List.find? (fun w => decide (w.part = k) && decide (w.ctx = x) && decide (w.phase =
      Phase.returned)) s.work = some w) ∧ anyUnit s k (dOp w.desc) = true ∧ unitFits s k u w.desc = true) :=
  ⟨⟨0, 0, 168, [wordBytes 0x744 ++ wordBytes 5 ++ List.replicate 48 0], (poke (poke (wf (wr (live 2) 128 Reg.EBUCKET
    100) 128 (Reg.CTX_TAIL 0) 0 32 1) 0x10000 0x744) 0x10008 5), _, canonical_of (by decide +kernel), pair_of
    (by decide +kernel), by decide +kernel⟩,
  ⟨0, 0, 0, [(desc 0x01 1 1 1 0 [0, 0x10000000004000, 0x10000000005000, 0x10000000006000, w64 (1 + 1 <<< 24), w64 (1
    + 1 <<< 32), 0]).flatMap wordBytes], laid (wf (wr (live 2) 128 Reg.EBUCKET 100) 128 (Reg.CTX_TAIL 0) 0 32 1)
    0x10000 ((desc 0x01 1 1 1 0 [0, 0x10000000004000, 0x10000000005000, 0x10000000006000, w64 (1 + 1 <<< 24), w64 (1
    + 1 <<< 32), 0]).flatMap wordBytes), _, canonical_of (by decide +kernel), pair_of (by decide +kernel),
    by decide +kernel⟩,
  ⟨0, 0, 0, running 5 (desc 0x13 0 0 0 0 [9, 0x90000000001000, 0x2000, 0x3000, w64 (2 + 2 <<< 24), 1, 3]) .returned,
    ⟨0, 0, 0, 5, desc 0x13 0 0 0 0 [9, 0x90000000001000, 0x2000, 0x3000, w64 (2 + 2 <<< 24), 1, 3], .returned, [],
    0⟩, canonical_of (by decide +kernel), by decide +kernel⟩⟩

theorem witness_QueueOperationsComplete_1 :
    (∃ (k x q : Nat) (w : Work) (s : State) (rows : List Bytes) (s1 : State), TileRead (begun s) w
      { va := dA w.desc, pitch := 0, rows := 1, rowBytes := 8, operand := 7 } rows s1 ∧ findWaiting s k x q = some w
      ∧ BitVec.toNat (dSeed w.desc) ≤ BitVec.toNat (bytesWord (rows.getD 0 [])) ∧ ((completeSt s1 w 0).stalled =
      none) ∧ ((completeSt (begun s) w 5).stalled = none)) ∧
    (∃ (k x q : Nat) (w : Work) (s : State), findWork s k x q 68 = some w ∧ ((completeSt (begun s) w 0).stalled =
      none)) ∧
    (∃ (k x q : Nat) (w : Work) (s : State), findWork s k x q 68 = some w ∧ ((completeSt (begun s) w 0).stalled =
      some Stall.held)) ∧
    (∃ (k x q : Nat) (w : Work) (s : State), findWork s k x q 64 = some w ∧ fenceMet s w = true ∧ ((completeSt (if
      (dOpf w.desc).testBit 0 = true then flushLines (begun s) k else begun s) w 0).stalled = none)) ∧
    (∃ (k x q : Nat) (w : Work) (s : State) (pages segs : List (Nat × Nat × Bool)) (pa n : Nat) (nc : Bool) (s1 s2 :
      State), translatePages (begun s) k w.unit true [dD w.desc / 65536] = (Except.ok pages, s1) ∧ memAdd (serveMicro
      s1 k w.unit (dD w.desc) 8) k w.unit pa (dSeed w.desc) nc = (true, s2) ∧ findWork s k x q 66 = some w ∧ fenceMet
      s w = true ∧ segments pages 9 (dD w.desc) 8 = (pa, n, nc) :: segs ∧ ((completeSt s2 w 0).stalled = none)) ∧
    (∃ (k x q : Nat) (w : Work) (s : State) (rows : List Bytes) (s1 : State), TileRead (begun s) w
      { va := dA w.desc, pitch := 0, rows := 1, rowBytes := 8, operand := 7 } rows s1 ∧ findWork s k x q 67 = some w
      ∧ BitVec.toNat (dSeed w.desc) ≤ BitVec.toNat (bytesWord (rows.getD 0 [])) ∧ ((completeSt s1 w 0).stalled =
      none)) :=
  ⟨⟨0, 0, 0, ⟨0, 0, 0, 168, schedDesc 0x43 0, .waiting, [], 0⟩, sW 5 .waiting, _, _, tileRead_of_run (some_of
    (by decide +kernel)), by decide +kernel⟩,
  ⟨0, 0, 0, ⟨0, 0, 0, 168, schedDesc 0x44 0, .run, [], 0⟩, running 168 (schedDesc 0x44 0) .run, by decide +kernel⟩,
  ⟨0, 0, 0, ⟨0, 0, 0, 168, schedDesc 0x44 0, .run, [], 0⟩,
    { running 168 (schedDesc 0x44 0) .run with board := { ready.board with thermtrip := true } }, by decide +kernel⟩,
  ⟨0, 0, 0, ⟨0, 0, 0, 168, schedDesc 0x40 0, .run, [], 0⟩, running 168 (schedDesc 0x40 0) .run, by decide +kernel⟩,
  ⟨0, 0, 0, ⟨0, 0, 0, 168, schedDesc 0x42 0, .run, [], 0⟩, running 168 (schedDesc 0x42 0) .run, [(0, 0, true)], [],
    0x3000, 8, true, _, _, pair_of (by decide +kernel), pair_of (by decide +kernel), by decide +kernel⟩,
  ⟨0, 0, 0, ⟨0, 0, 0, 168, schedDesc 0x43 0, .run, [], 0⟩, sW 5 .run, _, _, tileRead_of_run (some_of
    (by decide +kernel)), by decide +kernel⟩⟩

theorem witness_QueueOperationsComplete_2 :
    (∃ (k x q : Nat) (w : Work) (s : State) (rows : List Bytes) (s1 : State), TileRead (begun s) w
      { va := dA w.desc, pitch := 0, rows := 1, rowBytes := 8, operand := 7 } rows s1 ∧ findWork s k x q 67 = some w
      ∧ (¬BitVec.toNat (dSeed w.desc) ≤ BitVec.toNat (bytesWord (rows.getD 0 []))) ∧ (setWork s1 w
      { w with phase := Phase.waiting }).stalled = none) ∧
    (∃ (k x q : Nat) (w : Work) (s : State) (rows : List Bytes) (s1 : State), TileRead (begun s) w
      { va := dA w.desc, pitch := 0, rows := 1, rowBytes := 8, operand := 7 } rows s1 ∧ findWaiting s k x q = some w
      ∧ (¬BitVec.toNat (dSeed w.desc) ≤ BitVec.toNat (bytesWord (rows.getD 0 []))) ∧ (setWork s1 w
      { w with phase := Phase.waiting }).stalled = none) :=
  ⟨⟨0, 0, 0, ⟨0, 0, 0, 168, schedDesc 0x43 0, .run, [], 0⟩, sW 4 .run, _, _, tileRead_of_run (some_of
    (by decide +kernel)), by decide +kernel⟩,
  ⟨0, 0, 0, ⟨0, 0, 0, 168, schedDesc 0x43 0, .waiting, [], 0⟩, sW 4 .waiting, _, _, tileRead_of_run (some_of
    (by decide +kernel)), by decide +kernel⟩⟩

theorem witness_CompletionWritesTheRecord :
    ∃ (k x q : Nat) (w : Work) (s s1 : State), s.canonical ∧ (TileWritten (begun s) w
      { va := rf s (pgPart k) (Reg.CTX_CPL x) 0 52 + 64 * (q % 2 ^ ctxLog s k x), pitch := 64, rows := 1, rowBytes := 64, operand := 7 }
      [wordBytes (w64 (0 + 0 <<< 8 + dTag w.desc <<< 16 + (256 * k + x) <<< 32 + (if q.testBit (ctxLog s k x) =
      true then 0 else 1) <<< 44 + 68 <<< 48 + arithVer s <<< 56)) ++ wordBytes (w64 (q % 2 ^ 32)) ++ List.replicate
      48 0] s1) ∧ k < 16 ∧ x < 256 ∧ findWork s k x q 68 = some w ∧ ctxDead s k x = false ∧ s1.stalled = none :=
  ⟨0, 0, 0, wNop, running 168 (schedDesc 0x44 0) .run, _, canonical_of (by decide +kernel), tileWritten_of_run
    (some_of (by decide +kernel)), by decide +kernel⟩

theorem witness_BarriersCountArrivalsAndRelease :
    (∃ (k x q b : Nat) (glob : Bool) (w : Work) (s : State), s.canonical ∧ k < 16 ∧ b < 64 ∧ (glob = true → b < 32) ∧
      findWork s k x q 65 = some w ∧ fenceMet s w = true ∧ (dOpf w.desc).testBit 8 = glob ∧ dOpf w.desc % 64 = b ∧
      (glob = false ∨ rf s (barReg glob k b).1 (barReg glob k b).2 48 8 ≠ 0 ∧ rf s (barReg glob k b).1 (barReg glob k
      b).2 48 8 = rf s (pgPart k) (Reg.CTX_JOB x) 0 8) ∧ rf s (barReg glob k b).1 (barReg glob k b).2 16 16 + 1 < rf
      s (barReg glob k b).1 (barReg glob k b).2 0 16 ∧ rf s (barReg glob k b).1 (barReg glob k b).2 16 16 ≠ 0 ∧ (∀ v
      ∈ s.work, v.phase ≠ Phase.barrier (rf s (barReg glob k b).1 (barReg glob k b).2 32 16)) ∧ ((releaseBarrier
      (begun s) glob k b (if s.barMarks.contains (if glob = true then 16 else k, b) = true then 13 else 5)).stalled =
      none)) ∧
    (∃ (k x q b : Nat) (glob : Bool) (w : Work) (s : State), s.canonical ∧ k < 16 ∧ b < 64 ∧ (glob = true → b < 32) ∧
      findWork s k x q 65 = some w ∧ fenceMet s w = true ∧ (dOpf w.desc).testBit 8 = glob ∧ dOpf w.desc % 64 = b ∧
      (glob = false ∨ rf s (barReg glob k b).1 (barReg glob k b).2 48 8 ≠ 0 ∧ rf s (barReg glob k b).1 (barReg glob k
      b).2 48 8 = rf s (pgPart k) (Reg.CTX_JOB x) 0 8) ∧ rf s (barReg glob k b).1 (barReg glob k b).2 0 16 ≠ 0 ∧ rf s
      (barReg glob k b).1 (barReg glob k b).2 16 16 + 1 = rf s (barReg glob k b).1 (barReg glob k b).2 0 16 ∧
      (releaseBarrier (setWork (wf (begun s) (barReg glob k b).1 (barReg glob k b).2 16 16 (rf s (barReg glob k b).1
      (barReg glob k b).2 16 16 + 1)) w
      { w with phase := Phase.barrier (rf s (barReg glob k b).1 (barReg glob k b).2 32 16) }) glob k b 0).stalled =
      none) ∧
    (∃ (k x q b : Nat) (glob : Bool) (w : Work) (s : State), s.canonical ∧ k < 16 ∧ b < 64 ∧ (glob = true → b < 32) ∧
      findWork s k x q 65 = some w ∧ fenceMet s w = true ∧ (dOpf w.desc).testBit 8 = glob ∧ dOpf w.desc % 64 = b ∧
      (glob = false ∨ rf s (barReg glob k b).1 (barReg glob k b).2 48 8 ≠ 0 ∧ rf s (barReg glob k b).1 (barReg glob k
      b).2 48 8 = rf s (pgPart k) (Reg.CTX_JOB x) 0 8) ∧ rf s (barReg glob k b).1 (barReg glob k b).2 0 16 = 0 ∧
      ((completeSt (reject (begun s) (pgPart k)) w 11).stalled = none)) ∧
    (∃ (k x q b : Nat) (glob : Bool) (w : Work) (s : State), s.canonical ∧ k < 16 ∧ b < 64 ∧ (glob = true → b < 32) ∧
      findWork s k x q 65 = some w ∧ fenceMet s w = true ∧ (dOpf w.desc).testBit 8 = glob ∧ dOpf w.desc % 64 = b ∧
      (¬(glob = false ∨ rf s (barReg glob k b).1 (barReg glob k b).2 48 8 ≠ 0 ∧ rf s (barReg glob k b).1 (barReg glob
      k b).2 48 8 = rf s (pgPart k) (Reg.CTX_JOB x) 0 8)) ∧ ((completeSt (begun s) w 15).stalled = none)) :=
  ⟨⟨0, 0, 0, 63, false, ⟨0, 0, 0, 168, schedDesc 0x41 63, .run, [], 0⟩, sB 0x10003, canonical_of (by decide +kernel),
    by decide +kernel⟩,
  ⟨0, 0, 0, 63, false, ⟨0, 0, 0, 168, schedDesc 0x41 63, .run, [], 0⟩, sB 0x20003, canonical_of (by decide +kernel),
    by decide +kernel⟩,
  ⟨0, 0, 0, 63, false, ⟨0, 0, 0, 168, schedDesc 0x41 63, .run, [], 0⟩, sB 0, canonical_of (by decide +kernel),
    by decide +kernel⟩,
  ⟨0, 0, 0, 31, true, ⟨0, 0, 0, 168, schedDesc 0x41 (256 + 31), .run, [], 0⟩, sG 0x8000000010003, canonical_of
    (by decide +kernel), by decide +kernel⟩⟩

theorem witness_CollectSlotsArmFillAndTimeOut :
    (∃ (k x q slot : Nat) (w : Work) (s s1 : State), s.canonical ∧ TileWritten (begun s) w (bitmapTile w.desc)
      (List.replicate (dM w.desc) (zeroBytes (ceilDiv (dN w.desc * dK w.desc) 8))) s1 ∧ k < 16 ∧ findWork s k x q 27
      = some w ∧ dOpf w.desc % 256 = slot ∧ slot < 64 ∧ slotOf s w = none ∧ rb s (pgPart k) Reg.RED_ARMED slot =
      false ∧ s1.stalled = none) ∧
    (∃ (k x q slot : Nat) (w : Work) (s : State), s.canonical ∧ k < 16 ∧ findWork s k x q 27 = some w ∧ dOpf w.desc %
      256 = slot ∧ slot < 64 ∧ slotOf s w = none ∧ rb s (pgPart k) Reg.RED_ARMED slot = true ∧ ((complete (begun s) w
      3 17 0 0 0).stalled = none)) :=
  ⟨⟨0, 0, 0, 63, wC, sC, _, canonical_of (by decide +kernel), tileWritten_of_run (some_of (by decide +kernel)),
    by decide +kernel⟩,
  ⟨0, 0, 0, 63, wC, wb sC 128 Reg.RED_ARMED 63 true, canonical_of (by decide +kernel), by decide +kernel⟩⟩

end Scheduler

namespace Collect

def cDesc : List Word := tensorDesc 0x1B 9 0 0 63 1 1 1

def s0 := collecting cDesc

def wC : Work := ⟨0, 0, 0, 168, cDesc, .collect, [], 0⟩

theorem witness_CollectSlotsArmFillAndTimeOut :
    (∃ (k u slot : Nat) (w : Work) (s s1 : State) (rows : List Bytes) (recs : List (List Pot)) (fl : Nat) (s2 s3 :
      State), s.canonical ∧ RecordsRead (setWork s1 w (mergedOn w u)) (mergedOn w u) (collected (mergedOn w u))
      (dFmtA (mergedOn w u).desc) (dN (mergedOn w u).desc * dK (mergedOn w u).desc) recs s2 ∧ (PotsDelivered s2
      (mergedOn w u) (dN (mergedOn w u).desc) (List.map (fun r => List.map (fun i => List.foldl potMerge potZero
      (List.map (fun j => r.getD (j * dN (mergedOn w u).desc + i) potZero) (List.range (dK (mergedOn w u).desc))))
      (List.range (dN (mergedOn w u).desc))) recs) fl s3) ∧ readTile (begun s) k 168 (bitmapTile w.desc) = (Except.ok
      rows, s1) ∧ k < 16 ∧ collector s k slot = some w ∧ u < 128 ∧ unitUp s k u = true ∧ bitmapFull (dN w.desc * dK
      w.desc) rows = true ∧ ((complete s3 (mergedOn w u) 0 0 0 fl 0).stalled = none)) ∧
    (∃ (k slot : Nat) (w : Work) (s : State), s.canonical ∧ k < 16 ∧ collector s k slot = some w ∧ slotFull s w =
      false ∧ ((completeSt (setWork (begun s) w { w with phase := Phase.run }) { w with phase := Phase.run }
      5).stalled = none)) ∧
    (∃ (k slot : Nat) (w : Work) (s : State), s.canonical ∧ k < 16 ∧ collector s k slot = some w ∧ anyCore s k =
      false ∧ ((completeSt (setWork (begun s) w { w with phase := Phase.run }) { w with phase := Phase.run }
      16).stalled = none)) :=
  ⟨⟨0, 0, 63, wC, s0, _, [[1]], _, _, _, _, canonical_of (by decide +kernel), recordsRead_of_run (some_of
    (by decide +kernel)), potsDelivered_of_run (some_of (by decide +kernel)), pair_of (by decide +kernel),
    by decide +kernel⟩,
  ⟨0, 63, wC, poke s0 0x5000 0, canonical_of (by decide +kernel), by decide +kernel⟩,
  ⟨0, 63, wC, (List.range 8).foldl (fun s m => wr (wr s (256 + m) Reg.L2P_LO 0xFFFFFFFFFFFFFFFF) (256 + m) Reg.L2P_HI
    0xFFFFFFFFFFFFFFFF) s0, canonical_of (by decide +kernel), by decide +kernel⟩⟩

theorem witness_TailsFreedContextsAndTargetsAreTaken :
    ∃ (fn k x b : Nat) (s : State), s.canonical ∧ k < 16 ∧ x < 256 ∧ b < 64 ∧ ctxState s k x = 4 ∧ rf s (pgPart k)
      (Reg.CTX_OUT x) 0 24 = 0 ∧ s.err.stuck.contains (k, x) = false ∧ MayWrite s fn (pgPart k) (Reg.BAR b) ∧ rf s
      (pgPart k) (Reg.BAR b) 16 16 = 0 ∧ b < 32 ∧ MayWrite s fn (pgPart k) (Reg.GBAR b) ∧ actsOn s fn (pgPart k) true
      = true ∧ rf s (pgPart 0) (Reg.GBAR b) 16 16 = 0 :=
  ⟨0, 0, 0, 0, live 4, canonical_of (by decide +kernel), by decide +kernel⟩

end Collect

namespace Tensors

def G0.d := tensorDesc 1 0 0 0 0 1 2 1

def G0.w := job 0 G0.d

def G0.s := onCore G0.d false false

def G1.d := tensorDesc 2 0 0 9 0 1 2 1

def G1.w := job 0 G1.d

def G1.s := onCore G1.d false false

def R0.d := tensorDesc 19 0 0 0 0 1 1 2

def R0.w := job 0 R0.d

def R0.s := onCore R0.d false false

def R1.d := tensorDesc 20 0 0 9 0 1 1 2

def R1.w := job 0 R1.d

def R1.s := onCore R1.d false false

def R2.d := tensorDesc 21 0 0 0 0 1 1 2

def R2.w := job 0 R2.d

def R2.s := onCore R2.d false false

def R3.d := tensorDesc 22 0 0 9 0 1 1 2

def R3.w := job 0 R3.d

def R3.s := onCore R3.d false false

def R4.d := tensorDesc 24 0 0 0 0 1 1 2

def R4.w := job 0 R4.d

def R4.s := onCore R4.d false false

def R5.d := tensorDesc 23 0 0 0 0 1 1 2

def R5.w := job 0 R5.d

def R5.s := onCore R5.d false false

def P0.d := tensorDesc 16 9 0 10 0 1 1 1

def P0.w := job 0 P0.d

def P0.s := onCore P0.d true false

def P1.d := tensorDesc 18 9 0 0 0 1 1 1

def P1.w := job 0 P1.d

def P1.s := onCore P1.d true false

def P2.d := tensorDesc 17 9 0 0 0 1 1 1

def P2.w := job 0 P2.d

def P2.s := onCore P2.d true false

def E0.d := tensorDesc 48 0 0 1 1 1 2 1

def E0.w := job 0 E0.d

def E0.s := onCore E0.d false false

def E1.d := tensorDesc 49 0 0 1 1 1 2 1

def E1.w := job 0 E1.d

def E1.s := onCore E1.d false false

def E2.d := tensorDesc 50 0 0 1 1 1 2 1

def E2.w := job 0 E2.d

def E2.s := onCore E2.d false false

def E3.d := tensorDesc 53 0 0 1 1 1 2 1

def E3.w := job 0 E3.d

def E3.s := onCore E3.d false false

def E4.d := tensorDesc 54 0 0 1 1 1 2 1

def E4.w := job 0 E4.d

def E4.s := onCore E4.d false false

def C0.d := tensorDesc 25 0 0 0 0 1 2 2

def C0.w := job 0 C0.d

def C0.s := onCore C0.d false false

def C1.d := tensorDesc 26 0 0 0 0 1 2 2

def C1.w := job 0 C1.d

def C1.s := onCore C1.d false false

def C2.d := tensorDesc 51 0 0 0 0 1 2 2

def C2.w := job 0 C2.d

def C2.s := onCore C2.d false false

def C3.d := tensorDesc 52 0 0 0 0 1 2 2

def C3.w := job 0 C3.d

def C3.s := onCore C3.d false false

def C4.d := tensorDesc 55 0 0 0 0 1 2 2

def C4.w := job 0 C4.d

def C4.s := onCore C4.d false false

def M80.d := tensorDesc 80 0 0 0 0 1 2 1

def M80.w := job 0 M80.d

def M80.s := onCore M80.d false false

def M81.d := tensorDesc 81 0 0 0 0 1 2 1

def M81.w := job 0 M81.d

def M81.s := onCore M81.d false true

def M82.d := tensorDesc 82 0 0 0 0 1 2 1

def M82.w := job 0 M82.d

def M82.s := onCore M82.d false true

def M83.d := tensorDesc 83 0 0 0 0 1 2 1

def M83.w := job 0 M83.d

def M83.s := onCore M83.d false false

def M84.d := tensorDesc 84 0 0 0 0 1 2 1

def M84.w := job 0 M84.d

def M84.s := onCore M84.d false false

def M87.d := tensorDesc 87 0 0 0 0 1 2 1

def M87.w := job 0 M87.d

def M87.s := onCore M87.d false false

theorem witness_ContractionsStoreThePotOfTheirTerms_1 :
    (∃ (k x q : Nat) (w : Work) (s s1 s2 s3 : State) (fl : Nat) (a b : List (List Machine.Num)), (ValuesRead (begun
      s) w (gemmA w.desc) (dFmtA w.desc) (dMxA w.desc) (if (dOpf w.desc).testBit 0 = true then dM w.desc else dK
      w.desc) a s1) ∧ (ValuesRead s1 w (gemmB w.desc) (dFmtB w.desc) (dMxB w.desc) (if (dOpf w.desc).testBit 1 =
      true then dK w.desc else dN w.desc) b s2) ∧ (PotsDelivered s2 w (dN w.desc) (List.map (fun r => List.map (fun c
      => List.foldl (fun z e => potAdd z (e.1.mul e.2)) potZero (r.zip c)) (if (dOpf w.desc).testBit 1 = true then b
      else transposed (dN w.desc) b)) (if (dOpf w.desc).testBit 0 = true then transposed (dM w.desc) a else a)) fl
      s3) ∧ findWork s k x q 1 = some w ∧ ((complete s3 w 0 0 0 fl 0).stalled = none)) ∧
    (∃ (k x q : Nat) (w : Work) (s s1 s2 s3 : State) (fl : Nat) (a b : List (List Machine.Num)), (ValuesRead (begun
      s) w (gemmA w.desc) (dFmtA w.desc) (dMxA w.desc) (if (dOpf w.desc).testBit 0 = true then dM w.desc else dK
      w.desc) a s1) ∧ (ValuesRead s1 w (gemmB w.desc) (dFmtB w.desc) (dMxB w.desc) (if (dOpf w.desc).testBit 1 =
      true then dK w.desc else dN w.desc) b s2) ∧ (PotsDelivered s2 w (dN w.desc) (List.map (fun r => List.map (fun c
      => List.foldl (fun z e => potAdd z (e.1.mul e.2)) potZero (r.zip c)) (if (dOpf w.desc).testBit 1 = true then b
      else transposed (dN w.desc) b)) (if (dOpf w.desc).testBit 0 = true then transposed (dM w.desc) a else a)) fl
      s3) ∧ findWork s k x q 2 = some w ∧ ((complete s3 w 0 0 0 fl 0).stalled = none)) ∧
    (∃ (k x q : Nat) (w : Work) (s s1 s3 : State) (fl : Nat) (a : List (List Machine.Num)), ValuesRead (begun s) w
      (opdA w.desc (dM w.desc) (dK w.desc)) (dFmtA w.desc) (dMxA w.desc) (dK w.desc) a s1 ∧ (PotsDelivered s1 w 1
      (List.map (fun r => [List.foldl potAdd potZero r]) a) fl s3) ∧ findWork s k x q 19 = some w ∧ ((complete s3 w 0
      0 0 fl 0).stalled = none)) ∧
    (∃ (k x q : Nat) (w : Work) (s s1 s3 : State) (fl : Nat) (a : List (List Machine.Num)), ValuesRead (begun s) w
      (opdA w.desc (dM w.desc) (dK w.desc)) (dFmtA w.desc) (dMxA w.desc) (dK w.desc) a s1 ∧ (PotsDelivered s1 w 1
      (List.map (fun r => [List.foldl potAdd potZero r]) a) fl s3) ∧ findWork s k x q 20 = some w ∧ ((complete s3 w 0
      0 0 fl 0).stalled = none)) ∧
    (∃ (k x q : Nat) (w : Work) (s s1 s3 : State) (fl : Nat) (a : List (List Machine.Num)), ValuesRead (begun s) w
      (opdA w.desc (dM w.desc) (dK w.desc)) (dFmtA w.desc) (dMxA w.desc) (dK w.desc) a s1 ∧ (PotsDelivered s1 w (dK
      w.desc) [List.map (fun r => List.foldl potAdd potZero r) (transposed (dK w.desc) a)] fl s3) ∧ findWork s k x q
      21 = some w ∧ ((complete s3 w 0 0 0 fl 0).stalled = none)) ∧
    (∃ (k x q : Nat) (w : Work) (s s1 s3 : State) (fl : Nat) (a : List (List Machine.Num)), ValuesRead (begun s) w
      (opdA w.desc (dM w.desc) (dK w.desc)) (dFmtA w.desc) (dMxA w.desc) (dK w.desc) a s1 ∧ (PotsDelivered s1 w (dK
      w.desc) [List.map (fun r => List.foldl potAdd potZero r) (transposed (dK w.desc) a)] fl s3) ∧ findWork s k x q
      22 = some w ∧ ((complete s3 w 0 0 0 fl 0).stalled = none)) :=
  ⟨⟨0, 0, 0, G0.w, G0.s, _, _, _, _, _, _, valuesRead_of_run (some_of (by decide +kernel)), valuesRead_of_run
    (some_of (by decide +kernel)), potsDelivered_of_run (some_of (by decide +kernel)), by decide +kernel⟩,
  ⟨0, 0, 0, G1.w, G1.s, _, _, _, _, _, _, valuesRead_of_run (some_of (by decide +kernel)), valuesRead_of_run (some_of
    (by decide +kernel)), potsDelivered_of_run (some_of (by decide +kernel)), by decide +kernel⟩,
  ⟨0, 0, 0, R0.w, R0.s, _, _, _, _, valuesRead_of_run (some_of (by decide +kernel)), potsDelivered_of_run (some_of
    (by decide +kernel)), by decide +kernel⟩,
  ⟨0, 0, 0, R1.w, R1.s, _, _, _, _, valuesRead_of_run (some_of (by decide +kernel)), potsDelivered_of_run (some_of
    (by decide +kernel)), by decide +kernel⟩,
  ⟨0, 0, 0, R2.w, R2.s, _, _, _, _, valuesRead_of_run (some_of (by decide +kernel)), potsDelivered_of_run (some_of
    (by decide +kernel)), by decide +kernel⟩,
  ⟨0, 0, 0, R3.w, R3.s, _, _, _, _, valuesRead_of_run (some_of (by decide +kernel)), potsDelivered_of_run (some_of
    (by decide +kernel)), by decide +kernel⟩⟩

theorem witness_ContractionsStoreThePotOfTheirTerms_2 :
    (∃ (k x q : Nat) (w : Work) (s s1 s3 : State) (fl : Nat) (a : List (List Machine.Num)), ValuesRead (begun s) w
      (opdA w.desc (dM w.desc) (dK w.desc)) (dFmtA w.desc) (dMxA w.desc) (dK w.desc) a s1 ∧ (PotsDelivered s1 w 1
      (List.map (fun r => [List.foldl (fun z e => potAdd z (e.1.mul e.2)) potZero (r.zip r)]) a) fl s3) ∧ findWork s
      k x q 24 = some w ∧ ((complete s3 w 0 0 0 fl 0).stalled = none)) ∧
    (∃ (k x q : Nat) (w : Work) (s s1 s2 s3 : State) (fl : Nat) (a b : List (List Machine.Num)), ValuesRead (begun s)
      w (opdA w.desc (dM w.desc) (dK w.desc)) (dFmtA w.desc) (dMxA w.desc) (dK w.desc) a s1 ∧ ValuesRead s1 w (opdB
      w.desc (dM w.desc) (dK w.desc)) (dFmtB w.desc) (dMxB w.desc) (dK w.desc) b s2 ∧ (PotsDelivered s2 w 1 (List.map
      (fun r => [List.foldl (fun z e => potAdd z (e.1.mul e.2)) potZero (r.1.zip r.2)]) (a.zip b)) fl s3) ∧ findWork
      s k x q 23 = some w ∧ ((complete s3 w 0 0 0 fl 0).stalled = none)) ∧
    (∃ (k x q : Nat) (w : Work) (s s1 s3 : State) (fl : Nat) (p : List (List Pot)), RecordsRead (begun s) w (opdA
      w.desc (dM w.desc) (dK w.desc)) (dFmtA w.desc) (dK w.desc) p s1 ∧ (PotsDelivered s1 w 1 (List.map (fun r =>
      [List.foldl potMerge potZero r]) p) fl s3) ∧ findWork s k x q 16 = some w ∧ ((complete s3 w 0 0 0 fl 0).stalled
      = none)) ∧
    (∃ (k x q : Nat) (w : Work) (s s1 s3 : State) (fl : Nat) (p : List (List Pot)), RecordsRead (begun s) w (opdA
      w.desc (dM w.desc) (dK w.desc)) (dFmtA w.desc) (dK w.desc) p s1 ∧ (PotsDelivered s1 w 1 (List.map (fun r =>
      [List.foldl potMerge potZero r]) p) fl s3) ∧ findWork s k x q 18 = some w ∧ ((complete s3 w 0 0 0 fl 0).stalled
      = none)) ∧
    (∃ (k x q : Nat) (w : Work) (s s1 s3 : State) (fl : Nat) (p : List (List Pot)), RecordsRead (begun s) w (opdA
      w.desc (dM w.desc) (dN w.desc)) (dFmtA w.desc) (dN w.desc) p s1 ∧ PotsDelivered s1 w (dN w.desc) p fl s3 ∧
      findWork s k x q 17 = some w ∧ ((complete s3 w 0 0 0 fl 0).stalled = none)) :=
  ⟨⟨0, 0, 0, R4.w, R4.s, _, _, _, _, valuesRead_of_run (some_of (by decide +kernel)), potsDelivered_of_run (some_of
    (by decide +kernel)), by decide +kernel⟩,
  ⟨0, 0, 0, R5.w, R5.s, _, _, _, _, _, _, valuesRead_of_run (some_of (by decide +kernel)), valuesRead_of_run (some_of
    (by decide +kernel)), potsDelivered_of_run (some_of (by decide +kernel)), by decide +kernel⟩,
  ⟨0, 0, 0, P0.w, P0.s, _, _, _, _, recordsRead_of_run (some_of (by decide +kernel)), potsDelivered_of_run (some_of
    (by decide +kernel)), by decide +kernel⟩,
  ⟨0, 0, 0, P1.w, P1.s, _, _, _, _, recordsRead_of_run (some_of (by decide +kernel)), potsDelivered_of_run (some_of
    (by decide +kernel)), by decide +kernel⟩,
  ⟨0, 0, 0, P2.w, P2.s, _, _, _, _, recordsRead_of_run (some_of (by decide +kernel)), potsDelivered_of_run (some_of
    (by decide +kernel)), by decide +kernel⟩⟩

theorem witness_ElementwiseOperationsDeliverTheirResults :
    (∃ (k x q : Nat) (w : Work) (s s1 s2 s3 : State) (fl : Nat) (a b : List (List Machine.Num)), ValuesRead (begun s)
      w (opdA w.desc (dM w.desc) (dN w.desc)) (dFmtA w.desc) (dMxA w.desc) (dN w.desc) a s1 ∧ ValuesRead s1 w (opdB
      w.desc (pairShape w.desc).1 (pairShape w.desc).2) (dFmtB w.desc) (dMxB w.desc) (pairShape w.desc).2 b s2 ∧
      (PotsDelivered s2 w (dN w.desc) (List.map (fun r => List.map (fun e => List.foldl potAdd potZero [e.1,
      broadcast (pairShape w.desc) b r.2 e.2 Machine.Num.nan]) r.1.zipIdx) a.zipIdx) fl s3) ∧ findWork s k x q 48 =
      some w ∧ ((complete s3 w 0 0 0 fl 0).stalled = none)) ∧
    (∃ (k x q : Nat) (w : Work) (s s1 s2 s3 : State) (fl : Nat) (a b : List (List Machine.Num)), ValuesRead (begun s)
      w (opdA w.desc (dM w.desc) (dN w.desc)) (dFmtA w.desc) (dMxA w.desc) (dN w.desc) a s1 ∧ ValuesRead s1 w (opdB
      w.desc (pairShape w.desc).1 (pairShape w.desc).2) (dFmtB w.desc) (dMxB w.desc) (pairShape w.desc).2 b s2 ∧
      (PotsDelivered s2 w (dN w.desc) (List.map (fun r => List.map (fun e => List.foldl potAdd potZero [e.1,
      (broadcast (pairShape w.desc) b r.2 e.2 Machine.Num.nan).neg]) r.1.zipIdx) a.zipIdx) fl s3) ∧ findWork s k x q
      49 = some w ∧ ((complete s3 w 0 0 0 fl 0).stalled = none)) ∧
    (∃ (k x q : Nat) (w : Work) (s s1 s2 s3 : State) (fl : Nat) (a b : List (List Machine.Num)), ValuesRead (begun s)
      w (opdA w.desc (dM w.desc) (dN w.desc)) (dFmtA w.desc) (dMxA w.desc) (dN w.desc) a s1 ∧ ValuesRead s1 w (opdB
      w.desc (pairShape w.desc).1 (pairShape w.desc).2) (dFmtB w.desc) (dMxB w.desc) (pairShape w.desc).2 b s2 ∧
      (PotsDelivered s2 w (dN w.desc) (List.map (fun r => List.map (fun e => List.foldl potAdd potZero [e.1.mul
      (broadcast (pairShape w.desc) b r.2 e.2 Machine.Num.nan)]) r.1.zipIdx) a.zipIdx) fl s3) ∧ findWork s k x q 50 =
      some w ∧ ((complete s3 w 0 0 0 fl 0).stalled = none)) ∧
    (∃ (k x q : Nat) (w : Work) (s s1 s3 : State) (fl : Nat) (a : List (List Machine.Num)), ValuesRead (begun s) w
      (opdA w.desc (dM w.desc) (dN w.desc)) (dFmtA w.desc) (dMxA w.desc) (dN w.desc) a s1 ∧ (ElemsDelivered s1 w (dN
      w.desc) (List.map (fun r => List.map (unaryElem (arithVer s1) (dOpf w.desc % 16) (dFmtD w.desc)) r) a) fl s3) ∧
      findWork s k x q 53 = some w ∧ ((complete s3 w 0 0 0 fl 0).stalled = none)) ∧
    (∃ (k x q : Nat) (w : Work) (s s1 s3 : State) (fl : Nat) (a : List (List Machine.Num)), ValuesRead (begun s) w
      (opdA w.desc (dM w.desc) (dN w.desc)) (dFmtA w.desc) (dMxA w.desc) (dN w.desc) a s1 ∧ (ElemsDelivered s1 w (dN
      w.desc) (List.map (fun r => List.map numElem r) a) fl s3) ∧ findWork s k x q 54 = some w ∧ ((complete s3 w 0 0
      0 fl 0).stalled = none)) :=
  ⟨⟨0, 0, 0, E0.w, E0.s, _, _, _, _, _, _, valuesRead_of_run (some_of (by decide +kernel)), valuesRead_of_run
    (some_of (by decide +kernel)), potsDelivered_of_run (some_of (by decide +kernel)), by decide +kernel⟩,
  ⟨0, 0, 0, E1.w, E1.s, _, _, _, _, _, _, valuesRead_of_run (some_of (by decide +kernel)), valuesRead_of_run (some_of
    (by decide +kernel)), potsDelivered_of_run (some_of (by decide +kernel)), by decide +kernel⟩,
  ⟨0, 0, 0, E2.w, E2.s, _, _, _, _, _, _, valuesRead_of_run (some_of (by decide +kernel)), valuesRead_of_run (some_of
    (by decide +kernel)), potsDelivered_of_run (some_of (by decide +kernel)), by decide +kernel⟩,
  ⟨0, 0, 0, E3.w, E3.s, _, _, _, _, valuesRead_of_run (some_of (by decide +kernel)), elemsDelivered_of_run (some_of
    (by decide +kernel)), by decide +kernel⟩,
  ⟨0, 0, 0, E4.w, E4.s, _, _, _, _, valuesRead_of_run (some_of (by decide +kernel)), elemsDelivered_of_run (some_of
    (by decide +kernel)), by decide +kernel⟩⟩

theorem witness_ComparingOperationsDeliverChosenCodes :
    (∃ (k x q : Nat) (w : Work) (s s1 s3 : State) (a : List (List Nat)), CodesRead (begun s) w (opdA w.desc (dM
      w.desc) (dK w.desc)) (dFmtA w.desc) (dK w.desc) a s1 ∧ (CodesDelivered s1 w 1 (List.map (fun c => [c.1])
      (List.map (bestCode (dFmtA w.desc) true) a)) s3) ∧ findWork s k x q 25 = some w ∧ ((complete s3 w 0 0 0
      (flagBits { noFlags with nan := (List.map (bestCode (dFmtA w.desc) true) a).any fun x => x.2 }) 0).stalled =
      none)) ∧
    (∃ (k x q : Nat) (w : Work) (s s1 s3 : State) (a : List (List Nat)), CodesRead (begun s) w (opdA w.desc (dM
      w.desc) (dK w.desc)) (dFmtA w.desc) (dK w.desc) a s1 ∧ (CodesDelivered s1 w 1 (List.map (fun c => [c.1])
      (List.map (bestCode (dFmtA w.desc) false) a)) s3) ∧ findWork s k x q 26 = some w ∧ ((complete s3 w 0 0 0
      (flagBits { noFlags with nan := (List.map (bestCode (dFmtA w.desc) false) a).any fun x => x.2 }) 0).stalled =
      none)) ∧
    (∃ (k x q : Nat) (w : Work) (s s1 s2 s3 : State) (a b : List (List Nat)), CodesRead (begun s) w (opdA w.desc (dM
      w.desc) (dN w.desc)) (dFmtA w.desc) (dN w.desc) a s1 ∧ CodesRead s1 w (opdB w.desc (pairShape w.desc).1
      (pairShape w.desc).2) (dFmtB w.desc) (pairShape w.desc).2 b s2 ∧ (CodesDelivered s2 w (dN w.desc) (List.map
      (fun l => List.map (fun x => x.1) l) (List.map (fun r => List.map (fun e => bestCode (dFmtA w.desc) true [e.1,
      broadcast (pairShape w.desc) b r.2 e.2 0]) r.1.zipIdx) a.zipIdx)) s3) ∧ findWork s k x q 51 = some w ∧
      ((complete s3 w 0 0 0 (flagBits
      { noFlags with nan := (List.map (fun r => List.map (fun e => bestCode (dFmtA w.desc) true [e.1, broadcast (pairShape w.desc) b r.2 e.2 0]) r.1.zipIdx) a.zipIdx).any fun l => l.any fun x => x.2 })
      0).stalled = none)) ∧
    (∃ (k x q : Nat) (w : Work) (s s1 s2 s3 : State) (a b : List (List Nat)), CodesRead (begun s) w (opdA w.desc (dM
      w.desc) (dN w.desc)) (dFmtA w.desc) (dN w.desc) a s1 ∧ CodesRead s1 w (opdB w.desc (pairShape w.desc).1
      (pairShape w.desc).2) (dFmtB w.desc) (pairShape w.desc).2 b s2 ∧ (CodesDelivered s2 w (dN w.desc) (List.map
      (fun l => List.map (fun x => x.1) l) (List.map (fun r => List.map (fun e => bestCode (dFmtA w.desc) false [e.1,
      broadcast (pairShape w.desc) b r.2 e.2 0]) r.1.zipIdx) a.zipIdx)) s3) ∧ findWork s k x q 52 = some w ∧
      ((complete s3 w 0 0 0 (flagBits
      { noFlags with nan := (List.map (fun r => List.map (fun e => bestCode (dFmtA w.desc) false [e.1, broadcast (pairShape w.desc) b r.2 e.2 0]) r.1.zipIdx) a.zipIdx).any fun l => l.any fun x => x.2 })
      0).stalled = none)) ∧
    (∃ (k x q : Nat) (w : Work) (s s1 s2 s3 : State) (a b : List (List Nat)), CodesRead (begun s) w (opdA w.desc (dM
      w.desc) (dN w.desc)) (dFmtA w.desc) (dN w.desc) a s1 ∧ CodesRead s1 w (tensor 1 (dFmtA w.desc) false (dB
      w.desc) (dBPitch w.desc) 1 2) (dFmtA w.desc) 2 b s2 ∧ (CodesDelivered s2 w (dN w.desc) (List.map (fun l =>
      List.map (fun c => if c.2 = true then nanCode (dFmtA w.desc) else c.1) l) (List.map (fun r => List.map (fun e
      => ((bestCode (dFmtA w.desc) false [(bestCode (dFmtA w.desc) true [e, (b.getD 0 []).getD 0 0]).1, (b.getD 0
      []).getD 1 0]).1, (bestCode (dFmtA w.desc) true [e, (b.getD 0 []).getD 0 0]).2 || (bestCode (dFmtA w.desc)
      false [(bestCode (dFmtA w.desc) true [e, (b.getD 0 []).getD 0 0]).1, (b.getD 0 []).getD 1 0]).2)) r) a)) s3) ∧
      findWork s k x q 55 = some w ∧ ((complete s3 w 0 0 0 (flagBits
      { noFlags with nan := (List.map (fun r => List.map (fun e => ((bestCode (dFmtA w.desc) false [(bestCode (dFmtA w.desc) true [e, (b.getD 0 []).getD 0 0]).1, (b.getD 0 []).getD 1 0]).1, (bestCode (dFmtA w.desc) true [e, (b.getD 0 []).getD 0 0]).2 || (bestCode (dFmtA w.desc) false [(bestCode (dFmtA w.desc) true [e, (b.getD 0 []).getD 0 0]).1, (b.getD 0 []).getD 1 0]).2)) r) a).any fun l => l.any fun x => x.2 })
      0).stalled = none)) :=
  ⟨⟨0, 0, 0, C0.w, C0.s, _, _, _, codesRead_of_run (some_of (by decide +kernel)), codesDelivered_of_run (some_of
    (by decide +kernel)), by decide +kernel⟩,
  ⟨0, 0, 0, C1.w, C1.s, _, _, _, codesRead_of_run (some_of (by decide +kernel)), codesDelivered_of_run (some_of
    (by decide +kernel)), by decide +kernel⟩,
  ⟨0, 0, 0, C2.w, C2.s, _, _, _, _, _, codesRead_of_run (some_of (by decide +kernel)), codesRead_of_run (some_of
    (by decide +kernel)), codesDelivered_of_run (some_of (by decide +kernel)), by decide +kernel⟩,
  ⟨0, 0, 0, C3.w, C3.s, _, _, _, _, _, codesRead_of_run (some_of (by decide +kernel)), codesRead_of_run (some_of
    (by decide +kernel)), codesDelivered_of_run (some_of (by decide +kernel)), by decide +kernel⟩,
  ⟨0, 0, 0, C4.w, C4.s, _, _, _, _, _, codesRead_of_run (some_of (by decide +kernel)), codesRead_of_run (some_of
    (by decide +kernel)), codesDelivered_of_run (some_of (by decide +kernel)), by decide +kernel⟩⟩

theorem witness_MovesCopyRowsAndCompareCounts :
    (∃ (k x q : Nat) (w : Work) (s s1 s2 s3 s5 : State) (rows sc : List Bytes), TileRead (begun s) w (opdTile (opdA
      w.desc (dM w.desc) (dN w.desc))) rows s1 ∧ TileWritten s2 w (opdTile (opdD w.desc (dM w.desc) (dN w.desc)))
      (List.map (cleanRow (dFmtD w.desc) (dMxD w.desc) (dN w.desc)) rows) s3 ∧ (if dMxA w.desc = true then TileRead
      s1 w (scaleTile (opdA w.desc (dM w.desc) (dN w.desc)) (dN w.desc)) sc s2 else s2 = s1 ∧ sc = []) ∧ (if dMxD
      w.desc = true then TileWritten s3 w (scaleTile (opdD w.desc (dM w.desc) (dN w.desc)) (dN w.desc)) sc s5 else s5
      = s3) ∧ findWork s k x q 80 = some w ∧ ((complete s5 w 0 0 0 0 0).stalled = none)) ∧
    (∃ (k x q : Nat) (w : Work) (s s1 s3 s4 s5 : State) (pairs : List (Bytes × Bytes)) (b : List (List Nat)),
      CodesRead (begun s) w (opdB w.desc (dM w.desc) 1) 11 1 b s1 ∧ (RowsRead s1 w (opdA w.desc (dK w.desc) (dN
      w.desc)) (List.map (fun r => r.getD 0 0) b) pairs s3) ∧ (TileWritten s3 w (opdTile (opdD w.desc (dM w.desc) (dN
      w.desc))) (List.map (fun p => cleanRow (dFmtD w.desc) (dMxD w.desc) (dN w.desc) p.1) pairs) s4) ∧ (if dMxD
      w.desc = true then TileWritten s4 w (scaleTile (opdD w.desc (dM w.desc) (dN w.desc)) (dN w.desc)) (List.map
      (fun x => x.2) pairs) s5 else s5 = s4) ∧ (∀ r ∈ b, r.getD 0 0 < 2 ^ 31 ∧ r.getD 0 0 < dK w.desc) ∧ findWork s k
      x q 81 = some w ∧ ((complete s5 w 0 0 0 0 0).stalled = none)) ∧
    (∃ (k x q : Nat) (w : Work) (s s1 s2 s3 s5 : State) (rows sc : List Bytes) (b : List (List Nat)), CodesRead
      (begun s) w (opdB w.desc (dM w.desc) 1) 11 1 b s1 ∧ TileRead s1 w (opdTile (opdA w.desc (dM w.desc) (dN
      w.desc))) rows s2 ∧ (RowsWritten s3 w (opdD w.desc (dK w.desc) (dN w.desc)) (List.filterMap (fun i => if
      (List.drop (i.2 + 1) (List.map (fun r => r.getD 0 0) b)).contains i.1 = true then none else some (i.1, cleanRow
      (dFmtD w.desc) (dMxD w.desc) (dN w.desc) (rows.getD i.2 []), sc.getD i.2 [])) (List.map (fun r => r.getD 0 0)
      b).zipIdx) s5) ∧ (if dMxA w.desc = true then TileRead s2 w (scaleTile (opdA w.desc (dM w.desc) (dN w.desc)) (dN
      w.desc)) sc s3 else s3 = s2 ∧ sc = []) ∧ (∀ r ∈ b, r.getD 0 0 < 2 ^ 31 ∧ r.getD 0 0 < dK w.desc) ∧ findWork s k
      x q 82 = some w ∧ ((complete s5 w 0 0 0 0 0).stalled = none)) ∧
    (∃ (k x q : Nat) (w : Work) (s s1 s5 : State) (a : List (List Nat)), CodesRead (begun s) w (opdA w.desc (dM
      w.desc) (dN w.desc)) (dFmtA w.desc) (dN w.desc) a s1 ∧ CodesDelivered s1 w (dM w.desc) (transposed (dN w.desc)
      a) s5 ∧ findWork s k x q 83 = some w ∧ ((complete s5 w 0 0 0 0 0).stalled = none)) ∧
    (∃ (k x q : Nat) (w : Work) (s s1 s5 : State) (b : List (List Nat)), CodesRead (begun s) w (opdB w.desc 1 1)
      (dFmtD w.desc) 1 b s1 ∧ CodesDelivered s1 w (dN w.desc) (List.replicate (dM w.desc) (List.replicate (dN w.desc)
      ((b.getD 0 []).getD 0 0))) s5 ∧ findWork s k x q 84 = some w ∧ ((complete s5 w 0 0 0 0 0).stalled = none)) ∧
    (∃ (k x q : Nat) (w : Work) (s s1 s5 : State) (a b : List (List Nat)), CodesRead (begun s) w (opdA w.desc (dM
      w.desc) (dN w.desc)) (dFmtA w.desc) (dN w.desc) a s1 ∧ CodesRead s1 w (opdB w.desc (dM w.desc) (dN w.desc))
      (dFmtB w.desc) (dN w.desc) b s5 ∧ findWork s k x q 87 = some w ∧ ((complete s5 w 0 0 0 0 (w64 (List.map (fun r
      => List.countP (fun c => decide (c.1 ≠ c.2)) (r.1.zip r.2)) (a.zip b)).sum)).stalled = none)) :=
  ⟨⟨0, 0, 0, M80.w, M80.s, _, _, _, _, _, [], tileRead_of_run (some_of (by decide +kernel)), tileWritten_of_run
    (some_of (by decide +kernel)), ⟨rfl, rfl⟩, rfl, by decide +kernel⟩,
  ⟨0, 0, 0, M81.w, M81.s, _, _, _, _, _, _, codesRead_of_run (some_of (by decide +kernel)), rowsRead_of_run (some_of
    (by decide +kernel)), tileWritten_of_run (some_of (by decide +kernel)), rfl, by decide +kernel⟩,
  ⟨0, 0, 0, M82.w, M82.s, _, _, _, _, _, [], _, codesRead_of_run (some_of (by decide +kernel)), tileRead_of_run
    (some_of (by decide +kernel)), rowsWritten_of_run (some_of (by decide +kernel)), ⟨rfl, rfl⟩, by decide +kernel⟩,
  ⟨0, 0, 0, M83.w, M83.s, _, _, _, codesRead_of_run (some_of (by decide +kernel)), codesDelivered_of_run (some_of
    (by decide +kernel)), by decide +kernel⟩,
  ⟨0, 0, 0, M84.w, M84.s, _, _, _, codesRead_of_run (some_of (by decide +kernel)), codesDelivered_of_run (some_of
    (by decide +kernel)), by decide +kernel⟩,
  ⟨0, 0, 0, M87.w, M87.s, _, _, _, _, codesRead_of_run (some_of (by decide +kernel)), codesRead_of_run (some_of
    (by decide +kernel)), by decide +kernel⟩⟩

end Tensors

namespace Sweeps

def A.d := attnDesc

def A.w := job 128 A.d

def A.s := { onEngine A.d 1 with work := [A.w] }

def B.d := mergeDesc 0

def B.w := job 0 B.d

def B.s := { laid (running 0 B.d .run) 0x200000 onePartial with work := [B.w] }

def B2.d := mergeDesc 0

def B2.w := job 0 B2.d

def B2.s := { (running 0 B2.d .run) with work := [B2.w] }

def C.d := mergeDesc 10

def C.w := job 0 C.d

def C.s := { laid (running 0 C.d .run) 0x200000 onePartial with work := [C.w] }

def K.d := kvDesc 0x22

def K.w := job 128 K.d

def K.s := { onEngine K.d 0 with work := [K.w] }

def K.ke (s : Machine.State) := (valuesRun (begun s) K.w (opdA K.d (dM K.d) (dN K.d)) (dFmtA K.d) (dMxA K.d) (dN K.d)).getD (default, ready)

def K.va (s : Machine.State) := (valuesRun (K.ke s).2 K.w (opdB K.d (dM K.d) (dN K.d)) (dFmtB K.d) (dMxB K.d) (dN K.d)).getD (default, ready)

def K.fi (s : Machine.State) := (entriesRun (K.va s).2 K.w (dD K.d) 0 1).getD (default, ready)

def K.en (s : Machine.State) := (entriesRun (K.fi s).2 K.w (dD K.d) (storeEntries K.d).1 (storeEntries K.d).2).getD (default, ready)

def K.e0 (s : Machine.State) := (K.fi s).1.getD 0 []

def K.ks (s : Machine.State) := (K.ke s).1.zipIdx.map fun r => convertRow (K.en s).2 K.d (K.e0 s) false r.2 r.1

def K.bs (s : Machine.State) := (K.ks s).map (fun r => match boundsOf ((List.range (kvHeads (K.e0 s))).map (storedKey (K.e0 s) r)) with | .ok b => b | _ => [])

def KB.d := kvDesc 0x23

def KB.w := job 128 KB.d

def KB.s := { onEngine (KB.d.set 6 1) 1 with work := [KB.w] }

theorem witness_AttentionWritesPartialsAndMergesThem :
    (∃ (k x q : Nat) (w : Work) (s s1 s2 s3 s4 s5 : State) (list : List (List Word)) (qrows : List Bytes) (kv : List
      (List Machine.Num × List Machine.Num)), EntriesRead (begun s) w (dList w.desc) 0 (ceilDiv (dTotal w.desc) 256)
      list s1 ∧ Probed w (rangeTiles list (dHead w.desc) (kvPieces (dT0 w.desc) (dT1 w.desc))) s1 s2 ∧ TileRead s2 w
      (opdTile (opdA w.desc (dM w.desc) (dN w.desc))) qrows s3 ∧ RangeRead w list (dHead w.desc) (kvPieces (dT0
      w.desc) (dT1 w.desc)) s3 kv s4 ∧ TileHinted s4 w
      { va := dD w.desc, pitch := dDPitch w.desc, rows := dM w.desc, rowBytes := psize (dN w.desc), operand := 2 }
      (attnPartials (arithVer s4) w.desc list qrows kv) s5 ∧ findWork s k x q 32 = some w ∧ engineReads s w = true ∧
      listOk w.desc list = true ∧ ((complete (if List.countP (fun r => r.2.1.wsat) (attnRows w.desc list qrows kv) =
      0 then addReg (addReg (addReg s5 (sePage w) Reg.TOKENS_SWEPT (dT1 w.desc - dT0 w.desc)) (sePage w)
      Reg.PARTIALS_WRITTEN (attnRows w.desc list qrows kv).length) (sePage w) Reg.WSAT_PARTIALS (List.countP (fun r
      => r.2.1.wsat) (attnRows w.desc list qrows kv)) else raiseEvt (addReg (addReg (addReg s5 (sePage w)
      Reg.TOKENS_SWEPT (dT1 w.desc - dT0 w.desc)) (sePage w) Reg.PARTIALS_WRITTEN (attnRows w.desc list qrows
      kv).length) (sePage w) Reg.WSAT_PARTIALS (List.countP (fun r => r.2.1.wsat) (attnRows w.desc list qrows kv)))
      (sePage w) 1) w 0 0 0 (flagBits
      { nan := (attnRows w.desc list qrows kv).any fun r => (r.2.1.den :: r.2.1.num).any fun x => x.nan, range := (attnRows w.desc list qrows kv).any fun r => r.2.1.wsat || (r.2.1.den :: r.2.1.num).any fun x => x.range, ovf := false })
      0).stalled = none)) ∧
    (∃ (k x q : Nat) (w : Work) (s s1 s2 : State) (bytes : List Bytes) (fl : Nat), TileRead (begun s) w
      { va := dA w.desc, pitch := dAPitch w.desc, rows := dM w.desc, rowBytes := dK w.desc * psize (dN w.desc), operand := 0 }
      bytes s1 ∧ (ElemsDelivered s1 w (dN w.desc) (List.map (mergeElems (dN w.desc)) (List.map (fun b => List.map
      (fun j => readPart (dN w.desc) (slice b (j * psize (dN w.desc)) (psize (dN w.desc)))) (List.range (dK w.desc)))
      bytes)) fl s2) ∧ findWork s k x q 33 = some w ∧ (mergeCheck (arithVer s1) w.desc (List.map (fun b => List.map
      (fun j => readPart (dN w.desc) (slice b (j * psize (dN w.desc)) (psize (dN w.desc)))) (List.range (dK w.desc)))
      bytes) = 0) ∧ dFmtD w.desc ≠ 10 ∧ ((complete s2 w 0 0 0 fl 0).stalled = none)) ∧
    (∃ (k x q : Nat) (w : Work) (s s1 : State) (bytes : List Bytes), TileRead (begun s) w
      { va := dA w.desc, pitch := dAPitch w.desc, rows := dM w.desc, rowBytes := dK w.desc * psize (dN w.desc), operand := 0 }
      bytes s1 ∧ findWork s k x q 33 = some w ∧ (mergeCheck (arithVer s1) w.desc (List.map (fun b => List.map (fun j
      => readPart (dN w.desc) (slice b (j * psize (dN w.desc)) (psize (dN w.desc)))) (List.range (dK w.desc))) bytes)
      ≠ 0) ∧ ((complete s1 w 3 (mergeCheck (arithVer s1) w.desc (List.map (fun b => List.map (fun j => readPart (dN
      w.desc) (slice b (j * psize (dN w.desc)) (psize (dN w.desc)))) (List.range (dK w.desc))) bytes)) 0 0 0).stalled
      = none)) ∧
    (∃ (k x q : Nat) (w : Work) (s s1 s2 : State) (bytes : List Bytes), TileRead (begun s) w
      { va := dA w.desc, pitch := dAPitch w.desc, rows := dM w.desc, rowBytes := dK w.desc * psize (dN w.desc), operand := 0 }
      bytes s1 ∧ (TileWritten s1 w
      { va := dD w.desc, pitch := dDPitch w.desc, rows := dM w.desc, rowBytes := psize (dN w.desc), operand := 2 }
      (List.map (mergePart (arithVer s1) (dN w.desc)) (List.map (fun b => List.map (fun j => readPart (dN w.desc)
      (slice b (j * psize (dN w.desc)) (psize (dN w.desc)))) (List.range (dK w.desc))) bytes)) s2) ∧ findWork s k x q
      33 = some w ∧ (mergeCheck (arithVer s1) w.desc (List.map (fun b => List.map (fun j => readPart (dN w.desc)
      (slice b (j * psize (dN w.desc)) (psize (dN w.desc)))) (List.range (dK w.desc))) bytes) = 0) ∧ dFmtD w.desc =
      10 ∧ ((complete s2 w 0 0 0 (flagBits
      { nan := (List.flatMap (fun l => List.map (mergedPot l) (List.range (dN w.desc + 1))) (List.map (fun b => List.map (fun j => readPart (dN w.desc) (slice b (j * psize (dN w.desc)) (psize (dN w.desc)))) (List.range (dK w.desc))) bytes)).any fun x => x.nan, range := ((List.map (fun b => List.map (fun j => readPart (dN w.desc) (slice b (j * psize (dN w.desc)) (psize (dN w.desc)))) (List.range (dK w.desc))) bytes).any fun l => l.any fun x => x.wsat) || (List.flatMap (fun l => List.map (mergedPot l) (List.range (dN w.desc + 1))) (List.map (fun b => List.map (fun j => readPart (dN w.desc) (slice b (j * psize (dN w.desc)) (psize (dN w.desc)))) (List.range (dK w.desc))) bytes)).any fun x => x.range, ovf := false })
      0).stalled = none)) :=
  ⟨⟨0, 0, 0, A.w, A.s, _, _, _, _, _, _, _, _, entriesRead_of_run (some_of (by decide +kernel)), probed_of_run
    (some_of (by decide +kernel)), tileRead_of_run (some_of (by decide +kernel)), rangeRead_of_run (some_of
    (by decide +kernel)), tileHinted_of_run (some_of (by decide +kernel)), by decide +kernel⟩,
  ⟨0, 0, 0, B.w, B.s, _, _, _, _, tileRead_of_run (some_of (by decide +kernel)), elemsDelivered_of_run (some_of
    (by decide +kernel)), by decide +kernel⟩,
  ⟨0, 0, 0, B2.w, B2.s, _, _, tileRead_of_run (some_of (by decide +kernel)), by decide +kernel⟩,
  ⟨0, 0, 0, C.w, C.s, _, _, _, tileRead_of_run (some_of (by decide +kernel)), tileWritten_of_run (some_of
    (by decide +kernel)), by decide +kernel⟩⟩

theorem witness_KvCommandsStoreRowsAndBounds :
    (∃ (k x q : Nat) (w : Work) (s s1 s2 s3 s4 s5 s6 : State) (keys vals : List (List Machine.Num)) (first entries :
      List (List Word)) (bs : List (List (Option Int))), ValuesRead (begun s) w (opdA w.desc (dM w.desc) (dN w.desc))
      (dFmtA w.desc) (dMxA w.desc) (dN w.desc) keys s1 ∧ ValuesRead s1 w (opdB w.desc (dM w.desc) (dN w.desc)) (dFmtB
      w.desc) (dMxB w.desc) (dN w.desc) vals s2 ∧ EntriesRead s2 w (dD w.desc) 0 1 first s3 ∧ EntriesRead s3 w (dD
      w.desc) (storeEntries w.desc).1 (storeEntries w.desc).2 entries s4 ∧ (RunsWritten w (engineHint s4 w.part
      w.unit) (storeRuns w.desc entries false (List.map (fun r => convertRow s4 w.desc (first.getD 0 []) false r.2
      r.1) keys.zipIdx) ++ storeRuns w.desc entries true (List.map (fun r => convertRow s4 w.desc (first.getD 0 [])
      true r.2 r.1) vals.zipIdx)) s4 s5) ∧ (RunsWritten w 0 (List.map (fun p =>
      ({ va := dD w.desc + 64 * p.1, pitch := 0, rows := 1, rowBytes := 64, operand := 3 }, setEntry (entries.getD
      (p.1 - (storeEntries w.desc).1) []) (max (kvCount (entries.getD (p.1 - (storeEntries w.desc).1) [])) (p.2.1 +
      p.2.2)) fun h => raiseBound (kvBoundByte (entries.getD (p.1 - (storeEntries w.desc).1) []) h) (maxBound
      (List.map (fun l => l.getD h none) (List.take p.2.2 (List.drop (256 * p.1 + p.2.1 - dTotal w.desc) bs))))))
      (kvPieces (dTotal w.desc) (dTotal w.desc + dM w.desc))) s5 s6) ∧ findWork s k x q 34 = some w ∧ engineReads s w
      = true ∧ entryOk (first.getD 0 []) (first.getD 0 []) = true ∧ (∀ e ∈ entries, entryOk e (first.getD 0 []) =
      true) ∧ kvHeads (first.getD 0 []) * kvDim (first.getD 0 []) = dN w.desc ∧ (List.map (fun r => boundsOf
      (List.map (storedKey (first.getD 0 []) r) (List.range (kvHeads (first.getD 0 []))))) (List.map (fun r =>
      convertRow s4 w.desc (first.getD 0 []) false r.2 r.1) keys.zipIdx) = List.map Except.ok bs) ∧ ((complete s6 w 0
      0 0 (flagBits (List.foldl (fun f x => f.or x.2.2) noFlags (List.map (fun r => convertRow s4 w.desc (first.getD
      0 []) false r.2 r.1) keys.zipIdx ++ List.map (fun r => convertRow s4 w.desc (first.getD 0 []) true r.2 r.1)
      vals.zipIdx))) 0).stalled = none)) ∧
    (∃ (k x q : Nat) (w : Work) (s s1 s2 s3 s4 : State) (first entries : List (List Word)) (bs : List (List (Option
      Int))), EntriesRead (begun s) w (dD w.desc) 0 1 first s1 ∧ EntriesRead s1 w (dD w.desc) (dK w.desc) (dM w.desc)
      entries s2 ∧ BoundsRead w entries s2 bs s3 ∧ (RunsWritten w 0 (List.map (fun y =>
      ({ va := dD w.desc + 64 * (dK w.desc + y.2), pitch := 0, rows := 1, rowBytes := 64, operand := 3 }, setEntry
      y.1.1 (kvCount y.1.1) fun h => raiseBound 128 (y.1.2.getD h none))) (entries.zip bs).zipIdx) s3 s4) ∧ findWork
      s k x q 35 = some w ∧ engineReads s w = true ∧ entryOk (first.getD 0 []) (first.getD 0 []) = true ∧ (∀ e ∈
      entries, entryOk e (first.getD 0 []) = true) ∧ ((complete s4 w 0 0 0 0 0).stalled = none)) :=
  ⟨⟨0, 0, 0, K.w, K.s, _, _, _, _, _, _, _, _, _, _, (K.bs (K.s)), valuesRead_of_run (some_of (by decide +kernel)),
    valuesRead_of_run (some_of (by decide +kernel)), entriesRead_of_run (some_of (by decide +kernel)),
    entriesRead_of_run (some_of (by decide +kernel)), runsWritten_of_run (some_of (by decide +kernel)),
    runsWritten_of_run (some_of (by decide +kernel)), by decide +kernel⟩,
  ⟨0, 0, 0, KB.w, KB.s, _, _, _, _, _, _, _, entriesRead_of_run (some_of (by decide +kernel)), entriesRead_of_run
    (some_of (by decide +kernel)), boundsRead_of_run (some_of (by decide +kernel)), runsWritten_of_run (some_of
    (by decide +kernel)), by decide +kernel⟩⟩

theorem witness_EngineFencesAndTestsTakeEffect :
    (∃ (fn e cause : Nat) (s : State), s.canonical ∧ e < 64 ∧ rb s (pgSe e) Reg.ENGINE_TEST 1 = true ∧ (pageState s
      (pgSe e) = 3 ∨ pageState s (pgSe e) = 4) ∧ (∀ f ∈ s.seFencing, f.1 ≠ e) ∧ (cause = 1 ∨ cause = 2 ∨ cause = 4) ∧
      Option.any heldPhase (engineWork s e) = false ∧ MayWrite s fn (pgSe e) Reg.ENGINE_FENCE ∧ actsOn s fn (pgSe e)
      true = true) ∧
    (∃ (e cause : Nat) (s : State), s.canonical ∧ e < 64 ∧ (List.find? (fun f => decide (f.1 = e)) s.seFencing = some
      (e, cause))) ∧
    (∃ (fn e : Nat) (s : State), s.canonical ∧ e < 64 ∧ MayWrite s fn (pgSe e) Reg.ENGINE_TEST ∧ actsOn s fn (pgSe e)
      true = true ∧ pageState s (pgSe e) = 4 ∧ rb s (pgSe e) Reg.ENGINE_TEST 1 = false) :=
  ⟨⟨0, 63, 1, wb (page ready 575 4 3) 575 Reg.ENGINE_TEST 1 true, canonical_of (by decide +kernel),
    by decide +kernel⟩,
  ⟨0, 7, { page ready 512 3 1 with seFencing := [(0, 7)] }, canonical_of (by decide +kernel), by decide +kernel⟩,
  ⟨0, 63, page ready 575 4 3, canonical_of (by decide +kernel), by decide +kernel⟩⟩

end Sweeps

namespace Cores

theorem witness_FencesBeginAndTheSpareIsTested :
    (∃ (fn c j cause : Nat) (v : Word) (s : State), s.canonical ∧ c < 128 ∧ j < 17 ∧ (coreState s c j = 1 ∨ coreState
      s c j = 2) ∧ (cause = 1 ∨ cause = 2 ∨ cause = 4 ∨ cause = 5 ∨ cause = 6) ∧ coreHeld s c j = false ∧ MayWrite s
      fn (pgCl c) Reg.CORE_FENCE ∧ actsOn s fn (pgCl c) true = true ∧ bit v 63 = true ∧ fld v 0 5 = j ∧ MayWrite s fn
      (pgCl c) Reg.SPARE_TEST ∧ coreState s c 16 = 1) ∧
    (∃ (c j cause : Nat) (s : State), s.canonical ∧ c < 128 ∧ j < 17 ∧ coreState s c j = 5 ∧ (cause = 1 ∨ cause = 2 ∨
      cause = 4 ∨ cause = 5 ∨ cause = 6) ∧ coreState s c 16 = 5 ∧ servedBy s c 16 = none) ∧
    (∃ (c j : Nat) (s : State), s.canonical ∧ c < 128 ∧ j < 17 ∧ coreHeld s c j = true) :=
  ⟨⟨0, 0, 0, 6, w64 (0 + 1 <<< 63), cluster0 ready 1, canonical_of (by decide +kernel), by decide +kernel⟩,
  ⟨0, 16, 1, wf (wb (cluster0 ready 1) 256 Reg.SPARE_TEST 1 true) 256 Reg.CORE_STATE_HI 0 4 5, canonical_of
    (by decide +kernel), by decide +kernel⟩,
  ⟨0, 0, { running 0 (schedDesc 0x44 0) .heldNew with pending := [] }, canonical_of (by decide +kernel),
    by decide +kernel⟩⟩

theorem witness_ADrainedFenceMovesTheIndexToTheSpare :
    (∃ (c j i cause time : Nat) (s : State), s.canonical ∧ c < 128 ∧ j < 17 ∧ i < 16 ∧ (List.find? (fun f => decide
      (f.1 = c) && decide (f.2.1 = j)) s.fencing = some (c, j, cause, time)) ∧ servedBy s c j = some i ∧ ((coreState
      s c 16 = 1 ∨ coreState s c 16 = 5) ∧ spareOwed s c j i = false) ∧ j < 16) ∧
    (∃ (c j i cause time : Nat) (s : State), s.canonical ∧ c < 128 ∧ j < 17 ∧ i < 16 ∧ (List.find? (fun f => decide
      (f.1 = c) && decide (f.2.1 = j)) s.fencing = some (c, j, cause, time)) ∧ servedBy s c j = some i ∧
      (¬((coreState s c 16 = 1 ∨ coreState s c 16 = 5) ∧ spareOwed s c j i = false))) ∧
    (∃ (c j i cause time : Nat) (s : State), s.canonical ∧ c < 128 ∧ j < 17 ∧ i < 16 ∧ (List.find? (fun f => decide
      (f.1 = c) && decide (f.2.1 = j)) s.fencing = some (c, j, cause, time)) ∧ servedBy s c j = none) :=
  ⟨⟨0, 15, 15, 3, 9, { wf (cluster0 ready 1) 256 Reg.CORE_STATE_LO 60 4 3 with fencing := [(0, 15, 3, 9)] },
    canonical_of (by decide +kernel), by decide +kernel⟩,
  ⟨0, 15, 15, 3, 9,
    { wf (running 15 (schedDesc 0x44 0) .run) 256 Reg.CORE_STATE_HI 0 4 2 with fencing := [(0, 15, 3, 9)] },
    canonical_of (by decide +kernel), by decide +kernel⟩,
  ⟨0, 16, 3, 3, 9, { cluster0 ready 3 with fencing := [(0, 16, 3, 9)] }, canonical_of (by decide +kernel),
    by decide +kernel⟩⟩

theorem witness_CacheErrorsCountOrLoseTheDomain :
    ∃ (c bank : Nat) (s : State), s.canonical ∧ c < 128 ∧ bank < 48 ∧ ((Option.map (fun x => x.2) (List.find? (fun e
      => decide (e.1 = c * 48 + bank)) s.bankErrs)).getD 0 < 63) :=
  ⟨0, 47, { cluster0 ready 1 with bankErrs := [(47, 62)] }, canonical_of (by decide +kernel), by decide +kernel⟩

end Cores

namespace Manifest

theorem witness_TranslationFaultsTakeRecords :
    (∃ (k req va pa : Nat) (nc wr : Bool) (s s1 : State), s.canonical ∧ Machine.translate s k req va 0 wr = (XRes.ok
      pa nc, s1) ∧ k < 16 ∧ req < 169 ∧ va < 2 ^ 52) ∧
    (∃ (k req va level id : Nat) (wr : Bool) (s s1 : State), s.canonical ∧ Machine.translate s k req va 0 wr =
      (XRes.fault 1 level, s1) ∧ k < 16 ∧ req < 169 ∧ va < 2 ^ 52 ∧ unitWorkOf s1 k req = none ∧ rf s1 (pgMf k)
      Reg.FAULT_PROD 0 32 = id ∧ rf s1 (pgMf k) Reg.FAULT_RING 52 4 = 0 ∧ (List.countP (fun r => decide (r.info.part
      = k)) s1.xlat.recs < 64) ∧ (∀ r ∈ s1.xlat.recs, ¬(r.info.part = k ∧ r.info.page = va / 65536 * 65536))) ∧
    (∃ (k req va id : Nat) (s : State) (i : FaultInfo), s.canonical ∧ k < 16 ∧ req < 169 ∧ va < 2 ^ 52 ∧ (List.find?
      (fun i => decide (i.part = k)) s.xlat.waiting = some i) ∧ (∀ j ∈ s.xlat.waiting.erase i, j.part ≠ k) ∧ openFor
      s i = none ∧ faultRoom s i = true ∧ rf s (pgMf k) Reg.FAULT_RING 52 4 = 0 ∧ rf s (pgMf k) Reg.FAULT_PROD 0 32 =
      id ∧ i.kind = 1) ∧
    (∃ (k req va id : Nat) (s : State) (i : FaultInfo), s.canonical ∧ k < 16 ∧ req < 169 ∧ va < 2 ^ 52 ∧ (List.find?
      (fun i => decide (i.part = k)) s.xlat.waiting = some i) ∧ (∀ j ∈ s.xlat.waiting.erase i, j.part ≠ k) ∧ openFor
      s i = none ∧ faultRoom s i = true ∧ rf s (pgMf k) Reg.FAULT_RING 52 4 = 0 ∧ rf s (pgMf k) Reg.FAULT_PROD 0 32 =
      id ∧ i.kind ≠ 1 ∧ (∀ w ∈ s.work, ¬(faultOf w i = true ∧ w.phase = Phase.heldNew)) ∧ (∀ f ∈ s.fetchHeld, fetchOf
      f i = false)) ∧
    (∃ (k req va level : Nat) (wr : Bool) (s s1 : State) (w : Work), s.canonical ∧ Machine.translate s k req va 0 wr
      = (XRes.fault 1 level, s1) ∧ k < 16 ∧ req < 169 ∧ va < 2 ^ 52 ∧ unitWorkOf s1 k req = some w) :=
  ⟨⟨0, 168, 0x12345, 0x12345, true, true, tables (live 2), _, canonical_of (by decide +kernel), pair_of
    (by decide +kernel), by decide +kernel⟩,
  ⟨15, 132, 2^52-1, 0, 0xFFFFFFFF, false, wr ready 79 Reg.FAULT_PROD 0xFFFFFFFF, _, canonical_of (by decide +kernel),
    pair_of (by decide +kernel), by decide +kernel⟩,
  ⟨0, 1, 0x12345, 0,
    { live 2 with work := [], xlat := { (live 2).xlat with waiting := [{ (openFault 0).info with kind := 1 }] } },
    { (openFault 0).info with kind := 1 }, canonical_of (by decide +kernel), by decide +kernel⟩,
  ⟨0, 1, 0x12345, 0,
    { live 2 with work := [], xlat := { (live 2).xlat with waiting := [{ (openFault 0).info with kind := 5 }] } },
    { (openFault 0).info with kind := 5 }, canonical_of (by decide +kernel), by decide +kernel⟩,
  ⟨0, 0, 0x12345678901, 0, true, tables (running 0 (schedDesc 0x44 0) .run), _, job 0 (schedDesc 0x44 0),
    canonical_of (by decide +kernel), pair_of (by decide +kernel), by decide +kernel⟩⟩

theorem witness_ResolvedFaultsRetryOrFail :
    (∃ (fn k id : Nat) (r : FaultRec) (s : State), s.canonical ∧ k < 16 ∧ openRec s k id = some r ∧ MayWrite s fn
      (pgMf k) Reg.FAULT_RESOLVE ∧ (List.filter (fun v => decide (v.part = k) && decide (v.phase = Phase.held id))
      s.work = []) ∧ (∀ i ∈ ( { s.xlat with recs := s.xlat.recs.erase r }).waiting, i.part ≠ k) ∧ (true = false → ∀ f
      ∈ s.fetchHeld, ¬(f.1 = k ∧ f.2.2 = some id)) ∧ (false = false → ∀ f ∈ s.fetchHeld, ¬(f.1 = k ∧ f.2.2 = some
      id)) ∧ rf s (pgMf k) Reg.MF_CFG 32 16 ≠ 0 ∧ (∀ i ∈ s.xlat.waiting, i.part ≠ k) ∧ (∀ f ∈ s.fetchHeld, ¬(f.1 = k
      ∧ f.2.2 = some id))) ∧
    (∃ (fn k id : Nat) (r : FaultRec) (w : Work) (s : State), s.canonical ∧ k < 16 ∧ openRec s k id = some r ∧
      MayWrite s fn (pgMf k) Reg.FAULT_RESOLVE ∧ (List.filter (fun v => decide (v.part = k) && decide (v.phase =
      Phase.held id)) s.work = [w]) ∧ unitStopped { s with xlat := { s.xlat with recs := s.xlat.recs.erase r } }
      { w with phase := Phase.run } = false ∧ w.record = [] ∧ (∀ i ∈ (setWork
      { s with xlat := { s.xlat with recs := s.xlat.recs.erase r } } w { w with phase := Phase.run }).xlat.waiting,
      i.part ≠ k) ∧ (true = false → ∀ f ∈ (setWork { s with xlat := { s.xlat with recs := s.xlat.recs.erase r } } w
      { w with phase := Phase.run }).fetchHeld, ¬(f.1 = k ∧ f.2.2 = some id)) ∧ (∀ i ∈ (complete (setWork
      { s with xlat := { s.xlat with recs := s.xlat.recs.erase r } } w { w with phase := Phase.run })
      { w with phase := Phase.run } 1 0 r.info.page 0 0).xlat.waiting, i.part ≠ k) ∧ (false = false → ∀ f ∈ (complete
      (setWork { s with xlat := { s.xlat with recs := s.xlat.recs.erase r } } w { w with phase := Phase.run })
      { w with phase := Phase.run } 1 0 r.info.page 0 0).fetchHeld, ¬(f.1 = k ∧ f.2.2 = some id))) ∧
    (∃ (fn k id : Nat) (r : FaultRec) (w : Work) (s : State), s.canonical ∧ k < 16 ∧ openRec s k id = some r ∧
      MayWrite s fn (pgMf k) Reg.FAULT_RESOLVE ∧ (List.filter (fun v => decide (v.part = k) && decide (v.phase =
      Phase.held id)) s.work = [w]) ∧ unitStopped { s with xlat := { s.xlat with recs := s.xlat.recs.erase r } }
      { w with phase := Phase.run } = false ∧ w.record ≠ [] ∧ (∀ i ∈ (writeRecord (setWork
      { s with xlat := { s.xlat with recs := s.xlat.recs.erase r } } w { w with phase := Phase.run })
      { w with phase := Phase.run } w.record).xlat.waiting, i.part ≠ k) ∧ (true = false → ∀ f ∈ (writeRecord (setWork
      { s with xlat := { s.xlat with recs := s.xlat.recs.erase r } } w { w with phase := Phase.run })
      { w with phase := Phase.run } w.record).fetchHeld, ¬(f.1 = k ∧ f.2.2 = some id)) ∧ (∀ i ∈ (abortCtx (setWork
      { s with xlat := { s.xlat with recs := s.xlat.recs.erase r } } w { w with phase := Phase.run }) k w.ctx 1
      false).xlat.waiting, i.part ≠ k) ∧ (false = false → ∀ f ∈ (abortCtx (setWork
      { s with xlat := { s.xlat with recs := s.xlat.recs.erase r } } w { w with phase := Phase.run }) k w.ctx 1
      false).fetchHeld, ¬(f.1 = k ∧ f.2.2 = some id))) ∧
    (∃ (fn k id : Nat) (r : FaultRec) (w : Work) (s : State), s.canonical ∧ k < 16 ∧ openRec s k id = some r ∧
      MayWrite s fn (pgMf k) Reg.FAULT_RESOLVE ∧ (List.filter (fun v => decide (v.part = k) && decide (v.phase =
      Phase.held id)) s.work = [w]) ∧ unitStopped { s with xlat := { s.xlat with recs := s.xlat.recs.erase r } }
      { w with phase := Phase.run } = true ∧ (∀ i ∈ (setWork
      { s with xlat := { s.xlat with recs := s.xlat.recs.erase r } } w
      { w with phase := Phase.run, record := [] }).xlat.waiting, i.part ≠ k) ∧ (true = false → ∀ f ∈ (setWork
      { s with xlat := { s.xlat with recs := s.xlat.recs.erase r } } w
      { w with phase := Phase.run, record := [] }).fetchHeld, ¬(f.1 = k ∧ f.2.2 = some id)) ∧ (false = false → ∀ f ∈
      (setWork { s with xlat := { s.xlat with recs := s.xlat.recs.erase r } } w
      { w with phase := Phase.run, record := [] }).fetchHeld, ¬(f.1 = k ∧ f.2.2 = some id))) :=
  ⟨⟨0, 0, 7, openFault 7, wr { live 2 with work := [], xlat := { (live 2).xlat with recs := [openFault 7] } } 64
    Reg.MF_CFG 0x100000000, canonical_of (by decide +kernel), by decide +kernel⟩,
  ⟨0, 0, 7, openFault 7, ⟨0, 0, 0, 0, schedDesc 0x44 0, .held 7, [], 0⟩, wr
    { live 2 with work := [⟨0, 0, 0, 0, schedDesc 0x44 0, .held 7, [], 0⟩], xlat := { (live 2).xlat with recs := [openFault 7] } }
    64 Reg.MF_CFG 0x100000000, canonical_of (by decide +kernel), by decide +kernel⟩,
  ⟨0, 0, 7, openFault 7, ⟨0, 0, 0, 0, schedDesc 0x44 0, .held 7, [1], 0⟩, wr
    { live 2 with work := [⟨0, 0, 0, 0, schedDesc 0x44 0, .held 7, [1], 0⟩], xlat := { (live 2).xlat with recs := [openFault 7] }, chans := (live 2).chans.set 0 { chanReset with held := some 7 } }
    64 Reg.MF_CFG 0x100000000, canonical_of (by decide +kernel), by decide +kernel⟩,
  ⟨0, 0, 7, openFault 7, ⟨0, 0, 0, 0, schedDesc 0x44 0, .held 7, [], 0⟩, wf
    { live 2 with work := [⟨0, 0, 0, 0, schedDesc 0x44 0, .held 7, [], 0⟩], xlat := { (live 2).xlat with recs := [openFault 7] } }
    256 Reg.CORE_STATE_LO 0 4 3, canonical_of (by decide +kernel), by decide +kernel⟩⟩

theorem witness_FaultAndHotPageRingsAreKept :
    (∃ (fn k req va : Nat) (v : Word) (s : State) (m : MicroEntry) (e : SliceEntry), s.canonical ∧ k < 16 ∧ (∀ i ∈
      s.xlat.waiting, i.part ≠ k) ∧ MayWrite s fn (pgMf k) Reg.FAULT_RING ∧ (fld v 52 4 = 0 ∨ 6 ≤ fld v 52 4 ∧ fld v
      52 4 ≤ 12 ∧ ringIn k v 64 (fld v 52 4) = true) ∧ MayWrite s fn (pgMf k) Reg.FAULT_CONS ∧ MayWrite s fn (pgMf k)
      Reg.HOT_RING ∧ (fld v 52 5 = 0 ∨ 8 ≤ fld v 52 5 ∧ fld v 52 5 ≤ 16 ∧ ringIn k v 16 (fld v 52 5) = true) ∧
      (List.find? (fun e => decide (e.part = k) && decide (e.req = req) && decide (e.va = pageVa e.level va))
      s.xlat.micro = some m) ∧ (List.find? (fun e => decide (e.part = k) && decide (e.va = pageVa e.level m.va))
      s.xlat.slice = some e) ∧ bit e.leaf 7 = false ∧ (e.hot = false ∧ rf s (pgMf k) Reg.MF_CFG 0 16 ≠ 0 ∧ rf s (pgMf
      k) Reg.MF_CFG 0 16 ≤ min (e.count + m.bytes / 4096) 65535) ∧ rf s (pgMf k) Reg.HOT_RING 52 5 = 0) ∧
    (∃ (k req va : Nat) (s : State) (m : MicroEntry) (e : SliceEntry), s.canonical ∧ k < 16 ∧ (∀ i ∈ s.xlat.waiting,
      i.part ≠ k) ∧ (List.find? (fun e => decide (e.part = k) && decide (e.req = req) && decide (e.va = pageVa
      e.level va)) s.xlat.micro = some m) ∧ (List.find? (fun e => decide (e.part = k) && decide (e.va = pageVa
      e.level m.va)) s.xlat.slice = some e) ∧ bit e.leaf 7 = false ∧ (¬(e.hot = false ∧ rf s (pgMf k) Reg.MF_CFG 0 16
      ≠ 0 ∧ rf s (pgMf k) Reg.MF_CFG 0 16 ≤ min (e.count + m.bytes / 4096) 65535))) :=
  ⟨⟨0, 0, 0, 0x3FFFFFFF, 0, wr
    { ready with xlat := { ready.xlat with micro := [⟨0, 0, 0, 1, 0x7F, 9000⟩], slice := [⟨0, 0, 1, 0x7F, 65534, false, false⟩] } }
    64 Reg.MF_CFG 0xFFFF, ⟨0, 0, 0, 1, 0x7F, 9000⟩, ⟨0, 0, 1, 0x7F, 65534, false, false⟩, canonical_of
    (by decide +kernel), by decide +kernel⟩,
  ⟨0, 0, 0x3FFFFFFF,
    { ready with xlat := { ready.xlat with micro := [⟨0, 0, 0, 1, 0x7F, 9000⟩], slice := [⟨0, 0, 1, 0x7F, 65534, true, false⟩] } },
    ⟨0, 0, 0, 1, 0x7F, 9000⟩, ⟨0, 0, 1, 0x7F, 65534, true, false⟩, canonical_of (by decide +kernel),
    by decide +kernel⟩⟩

theorem witness_InvalidationsDropWhatTheyOverlap :
    (∃ (fn k n : Nat) (v : Word) (s : State), s.canonical ∧ k < 16 ∧ MayWrite s fn (pgMf k) Reg.INV_CMD ∧
      (List.countP (fun c => decide (c.part = k)) s.xlat.invs < 16) ∧ MayWrite s fn (pgMf k) Reg.MF_ROOT ∧ (fld v 16
      30 = rf s (pgMf k) Reg.MF_ROOT 16 30 ∨ allFree s k = true) ∧ MayWrite s fn (pgMf k) (Reg.SHARE_WIN n) ∧ actsOn
      s fn (pgMf k) true = true ∧ n < 4 ∧ accessUnder s k 0 0 = false) ∧
    (∃ (fn k n : Nat) (s : State) (c : InvCmd), s.canonical ∧ k < 16 ∧ (List.find? (fun c => decide (c.part = k))
      s.xlat.invs = some c) ∧ accessUnder s k c.va c.len = true ∧ MayWrite s fn (pgMf k) (Reg.SHARE_WIN n) ∧ actsOn s
      fn (pgMf k) true = true ∧ n < 4 ∧ accessUnder s k 0 0 = true) ∧
    (∃ (k : Nat) (s : State) (c : InvCmd), s.canonical ∧ k < 16 ∧ (List.find? (fun c => decide (c.part = k))
      s.xlat.invs = some c) ∧ accessUnder s k c.va c.len = false) :=
  ⟨⟨0, 0, 3, 0x500001,
    { tables ready with xlat := { (live 2).xlat with slice := [⟨0, 0, 1, 0x7F, 5, true, true⟩] } }, canonical_of
    (by decide +kernel), by decide +kernel⟩,
  ⟨0, 0, 0,
    { { tables (live 2) with xlat := { (live 2).xlat with slice := [⟨0, 0, 1, 0x7F, 5, true, false⟩, ⟨1, 0, 1, 0x7F, 5, true, true⟩], walk := [⟨0, 0, 0, 0x410001⟩], invs := [⟨0, 0, 0, 4⟩] } } with siteReqs := [{ siteEntry 0 1 0 0 [] [] with pa := some 0 }] },
    ⟨0, 0, 0, 4⟩, canonical_of (by decide +kernel), by decide +kernel⟩,
  ⟨0,
    { tables (live 2) with xlat := { (live 2).xlat with slice := [⟨0, 0, 1, 0x7F, 5, true, false⟩, ⟨1, 0, 1, 0x7F, 5, true, true⟩], walk := [⟨0, 0, 0, 0x410001⟩], invs := [⟨0, 0, 0, 4⟩] } },
    ⟨0, 0, 0, 4⟩, canonical_of (by decide +kernel), by decide +kernel⟩⟩

theorem witness_PrefetchAndAdviceCompleteOk :
    (∃ (k x q level : Nat) (e : Word) (w : Work) (s s1 : State), quietWalk (begun s) k (dA w.desc) = (some (level,
      e), s1) ∧ (findWork s k x q 85 = some w ∧ dOpf w.desc % 4 = 0) ∧ ((completeSt (walkRange (begun s) k false (dK
      w.desc) (dA w.desc) (dK w.desc)) w 0).stalled = none) ∧ dK w.desc = 1 ∧ sliceOf s1 k (dA w.desc) = none ∧
      ((completeSt (fillSlice s1 k (dA w.desc) level e) w 0).stalled = none)) ∧
    (∃ (k x q level : Nat) (e : Word) (w : Work) (s s1 : State) (v : SliceEntry), quietWalk (begun s) k (dA w.desc) =
      (some (level, e), s1) ∧ (findWork s k x q 86 = some w ∧ dOpf w.desc % 4 = 1) ∧ ((completeSt (walkRange (begun
      s) k true (dK w.desc) (dA w.desc) (dK w.desc)) w 0).stalled = none) ∧ dK w.desc = 1 ∧ sliceOf s1 k (dA w.desc)
      = some v ∧ v.pin = false ∧ (List.countP (fun v => decide (v.part = k) && v.pin) s1.xlat.slice < 1024) ∧
      ((completeSt
      { s1 with xlat := { s1.xlat with slice := List.map (fun u => if u = v then { v with pin := true } else u) s1.xlat.slice } }
      w 0).stalled = none)) ∧
    (∃ (k x q level : Nat) (w : Work) (s : State), (findWork s k x q 86 = some w ∧ dOpf w.desc % 4 = 0) ∧
      ((completeSt
      { (begun s) with xlat := { s.xlat with slice := List.map (fun v => if v.part = k ∧ v.va < dA w.desc + dK w.desc * 65536 ∧ dA w.desc < v.va + levelSize v.level then { v with pin := false } else v) s.xlat.slice } }
      w 0).stalled = none)) ∧
    (∃ (k x q : Nat) (w : Work) (s : State), (findWork s k x q 86 = some w ∧ dOpf w.desc % 4 = 2) ∧ ((completeSt
      { (dropXlat (begun s) k (dA w.desc) (dK w.desc * 65536)) with xlat := { (dropXlat (begun s) k (dA w.desc) (dK w.desc * 65536)).xlat with walk := s.xlat.walk } }
      w 0).stalled = none)) ∧
    (∃ (k x q level a : Nat) (e : Word) (w : Work) (s s1 s2 : State), leafAt (begun s) k (dA w.desc) = (Except.ok
      (level, e, a), s1) ∧ leafAt s1 k (dA w.desc) = (Except.ok (level, e, a), s2) ∧ (findWork s k x q 85 = some w ∧
      dOpf w.desc % 4 = 1) ∧ w.moved = 0 ∧ level ≠ 1 ∧ pageVa level (dA w.desc) = dA w.desc ∧ levelSize level = dK
      w.desc * 65536 ∧ 0 < dK w.desc ∧ dB w.desc < 2 ^ 46 ∧ dB w.desc % (dK w.desc * 65536) = 0 ∧ ownRange k (dB
      w.desc) (dK w.desc * 65536) = true ∧ (¬(leafPa e < dB w.desc + dK w.desc * 65536 ∧ dB w.desc < leafPa e + dK
      w.desc * 65536)) ∧ pageBusy s2 k (dA w.desc) (leafPa e) (dK w.desc * 65536) = true ∧ (setWork s2 w w).stalled =
      none) :=
  ⟨⟨0, 0, 0, 1, 0x7F, ⟨0, 0, 0, 168, desc 0x55 0 0 0 0 [5, 0x10000, 0x500000, 0, 0, 1, 0], .run, [], 0⟩,
    { poke (tables (live 2)) 0x410000 0x7F with work := [⟨0, 0, 0, 168, desc 0x55 0 0 0 0 [5, 0x10000, 0x500000, 0, 0, 1, 0], .run, [], 0⟩], xlat := { (tables (live 2)).xlat with micro := [⟨0, 168, 0x20000000, 1, 0x7F, 0⟩], slice := [] } },
    _, pair_of (by decide +kernel), by decide +kernel⟩,
  ⟨0, 0, 0, 1, 0x7F, ⟨0, 0, 0, 168, desc 0x56 0 0 0 1 [5, 0x10000, 0x500000, 0, 0, 1, 0], .run, [], 0⟩,
    { poke (tables (live 2)) 0x410000 0x7F with work := [⟨0, 0, 0, 168, desc 0x56 0 0 0 1 [5, 0x10000, 0x500000, 0, 0, 1, 0], .run, [], 0⟩], xlat := { (tables (live 2)).xlat with micro := [⟨0, 168, 0x20000000, 1, 0x7F, 0⟩], slice := [⟨0, 0, 1, 0x7F, 0, false, false⟩] } },
    _, ⟨0, 0, 1, 0x7F, 0, false, false⟩, pair_of (by decide +kernel), by decide +kernel⟩,
  ⟨0, 0, 0, 3, ⟨0, 0, 0, 168, desc 0x56 0 0 0 0 [5, 0x10000, 0x500000, 0, 0, 1, 0], .run, [], 0⟩,
    { tables (live 2) with work := [⟨0, 0, 0, 168, desc 0x56 0 0 0 0 [5, 0x10000, 0x500000, 0, 0, 1, 0], .run, [], 0⟩], xlat := { (tables (live 2)).xlat with micro := [⟨0, 168, 0x20000000, 1, 0x7F, 0⟩], slice := [⟨0, 0x10000, 3, 0x1007F, 0, false, true⟩] } },
    by decide +kernel⟩,
  ⟨0, 0, 0, ⟨0, 0, 0, 168, desc 0x56 0 0 0 2 [5, 0x10000, 0x500000, 0, 0, 1, 0], .run, [], 0⟩,
    { tables (live 2) with work := [⟨0, 0, 0, 168, desc 0x56 0 0 0 2 [5, 0x10000, 0x500000, 0, 0, 1, 0], .run, [], 0⟩], xlat := { (tables (live 2)).xlat with micro := [⟨0, 168, 0x20000000, 1, 0x7F, 0⟩], slice := [⟨0, 0x10000, 3, 0x1007F, 0, false, false⟩] } },
    by decide +kernel⟩,
  ⟨0, 0, 0, 3, 0x430008, 0x1007F, ⟨0, 0, 0, 168, desc 0x55 0 0 0 1 [5, 0x10000, 0x500000, 0, 0, 1, 0], .run, [], 0⟩,
    { { tables (live 2) with work := [⟨0, 0, 0, 168, desc 0x55 0 0 0 1 [5, 0x10000, 0x500000, 0, 0, 1, 0], .run, [], 0⟩], xlat := { (tables (live 2)).xlat with micro := [⟨0, 168, 0x20000000, 1, 0x7F, 0⟩], slice := [⟨0, 0x10000, 3, 0x1007F, 0, false, false⟩] } } with coh := { State.reset.coh with flight := [(0, 3, 512, none)] } },
    _, _, pair_of (by decide +kernel), pair_of (by decide +kernel), by decide +kernel⟩⟩

end Manifest

namespace Memory

theorem witness_ControllersReadAndWriteDeviceMemory :
    (∃ (a n : Nat) (b : Bytes) (ctx : Option Nat) (ecc : Ecc) (s : State), s.canonical ∧ (hbmPlace a).isSome = true ∧
      oneRequest a n = true ∧ portHeld s (Instr.mcRead a n ctx ecc) = false ∧ ecc ≠ Ecc.uncorrectable ∧ Clean s a n ∧
      blockedRange s a n = false ∧ oneRequest a (List.length b) = true ∧ portHeld s (Instr.mcWrite a b) = false ∧
      Writable s a (List.length b) ∧ partUnits a (List.length b) ≠ [] ∧ blockedRange s a (List.length b) = false) ∧
    (∃ (a : Nat) (s : State), s.canonical ∧ groupOf a = none ∧ quayOf a = none) ∧
    (∃ (a n : Nat) (b : Bytes) (ctx : Option Nat) (ecc : Ecc) (s : State), s.canonical ∧ (hbmPlace a).isSome = true ∧
      oneRequest a n = true ∧ portHeld s (Instr.mcRead a n ctx ecc) = false ∧ blockedRange s a n = true ∧ oneRequest
      a (List.length b) = true ∧ portHeld s (Instr.mcWrite a b) = false ∧ blockedRange s a (List.length b) = true ∧
      (a % 32 = 0 ∧ List.length b % 32 = 0)) ∧
    (∃ (a n : Nat) (b : Bytes) (s : State), s.canonical ∧ (hbmPlace a).isSome = true ∧ portHeld s (Instr.mcWrite a b)
      = true ∧ oneRequest a n = true ∧ oneRequest a (List.length b) = true ∧ (a % 32 = 0 ∧ List.length b % 32 = 0)) ∧
    (∃ (a : Nat) (b : Bytes) (s : State), s.canonical ∧ (hbmPlace a).isSome = true ∧ oneRequest a (List.length b) =
      true ∧ portHeld s (Instr.mcWrite a b) = false ∧ (a % 32 = 0 ∧ List.length b % 32 = 0) ∧ blockedRange s a
      (List.length b) = false) :=
  ⟨⟨0x1F0, 16, (List.replicate 16 0xA5), none, .clean, poke ready 0x1F0 0x1122334455667788, canonical_of
    (by decide +kernel), by decide +kernel⟩,
  ⟨0x8000000020, poke ready 0x8000000020 7, canonical_of (by decide +kernel), by decide +kernel⟩,
  ⟨0x20, 32, (List.replicate 32 0xA5), none, .corrected,
    { poke ready 0x1F0 7 with hbm := { ready.hbm with retired := [⟨0, 0, true⟩] } }, canonical_of
    (by decide +kernel), by decide +kernel⟩,
  ⟨0x20, 32, (List.replicate 32 0xA5), wb ready 640 Reg.MC_ZF_STAT 0 true, canonical_of (by decide +kernel),
    by decide +kernel⟩,
  ⟨0x0, (List.replicate 256 0xA5), { poke ready 0 7 with hbm := { ready.hbm with wc := [(7, 3), (7, 4)] } },
    canonical_of (by decide +kernel), by decide +kernel⟩⟩

theorem witness_SlicesReadAndWriteDeviceMemory :
    (∃ (k off n p m bank : Nat) (ring : Bool) (b : Bytes) (ecc : Ecc) (s : State), s.canonical ∧ k < 16 ∧ p < 16 ∧ m
      < 8 ∧ bank < 64 ∧ (p = k ∨ ring = true ∧ rb s (pgQuay k) Reg.QUAY_CFG 0 = false) ∧ off + n ≤ quaySize ∧
      oneRequest off n = true ∧ portHeld s (Instr.quayRead k off n p ring ecc) = false ∧ ecc ≠ Ecc.uncorrectable ∧
      Clean s (quayBase k + off) n ∧ blockedRange s (quayBase k + off) n = false ∧ off + List.length b ≤ quaySize ∧
      oneRequest off (List.length b) = true ∧ portHeld s (Instr.quayWrite k off p ring b ecc) = false ∧ Writable s
      (quayBase k + off) (List.length b) ∧ ((k, bank) ∈ s.quay.replacing) ∧ s.heldPorts = []) ∧
    (∃ (k off n p m bank : Nat) (ring : Bool) (b : Bytes) (ecc : Ecc) (s : State), s.canonical ∧ k < 16 ∧ p < 16 ∧ m
      < 8 ∧ bank < 64 ∧ (p = k ∨ ring = true ∧ rb s (pgQuay k) Reg.QUAY_CFG 0 = false) ∧ off + n ≤ quaySize ∧
      oneRequest off n = true ∧ portHeld s (Instr.quayRead k off n p ring ecc) = true ∧ off + List.length b ≤
      quaySize ∧ oneRequest off (List.length b) = true ∧ portHeld s (Instr.quayWrite k off p ring b ecc) = true) ∧
    (∃ (k p m bank : Nat) (s : State), s.canonical ∧ k < 16 ∧ p < 16 ∧ m < 8 ∧ bank < 64 ∧ p ≠ k ∧ rb s (pgQuay k)
      Reg.QUAY_CFG 0 = true) :=
  ⟨⟨15, quaySize - 32, 32, 15, 7, 63, false, (List.replicate 32 0xA5), .clean,
    { poke ready 0x10043FFFFF8 7 with quay := { ready.quay with replacing := [(15, 63)] } }, canonical_of
    (by decide +kernel), by decide +kernel⟩,
  ⟨1, 1, 1, 0, 7, 0, true, (List.replicate 1 0xA5), .clean,
    { wf ready (pgQuay 1) Reg.QUAY_SPARE 0 4 15 with quay := { ready.quay with replacing := [(15, 63), (1, 0)] } },
    canonical_of (by decide +kernel), by decide +kernel⟩,
  ⟨14, 3, 0, 5, wb (wb ready 670 Reg.QUAY_CFG 0 true) 670 Reg.QUAY_ZF_STAT 0 true, canonical_of (by decide +kernel),
    by decide +kernel⟩⟩

theorem witness_ControllersRepairRefreshAndPatrol :
    (∃ (m pc : Nat) (degC : Int) (ecc : Ecc) (e : PoolEntry) (s : State), s.canonical ∧ m < 8 ∧ pc < 32 ∧ -128 ≤ degC
      ∧ degC ≤ 127 ∧ runningRepair s m pc = some e ∧ s.heldPorts = [] ∧ s.hbm.patrol.length = 8 ∧ rb s (pgMc m)
      Reg.MC_CFG 1 = true ∧ (((holdsOn s).any fun h => heldAt h (hbmAddr m (s.hbm.patrol.getD m 0 / pcBursts)
      (s.hbm.patrol.getD m 0 % pcBursts * 32))) = false) ∧ Clean s (hbmAddr m (s.hbm.patrol.getD m 0 / pcBursts)
      (s.hbm.patrol.getD m 0 % pcBursts * 32)) 32 ∧ s.hbm.patrol.getD m 0 < 32 * pcBursts ∧ ecc = Ecc.clean ∧
      weakUnits s (hbmAddr m (s.hbm.patrol.getD m 0 / pcBursts) (s.hbm.patrol.getD m 0 % pcBursts * 32)) 32 = [] ∧
      s.hbm.patrol.getD m 0 + 1 < 32 * pcBursts ∧ ecc ≠ Ecc.uncorrectable) ∧
    (∃ (m pc : Nat) (degC : Int) (s : State), s.canonical ∧ m < 8 ∧ pc < 32 ∧ -128 ≤ degC ∧ degC ≤ 127 ∧ (rb s (pgMc
      m) Reg.MC_CFG 1 = false ∨ ((holdsOn s).any fun h => heldAt h (hbmAddr m (s.hbm.patrol.getD m 0 / pcBursts)
      (s.hbm.patrol.getD m 0 % pcBursts * 32))) = true)) :=
  ⟨⟨7, 31, -128, .clean, ⟨7, 31, 2, 1000, 5, 1, 1, false, false⟩,
    { page ready 647 3 1 with hbm := { ready.hbm with pool := [⟨7, 31, 2, 1000, 5, 1, 1, false, false⟩], repairs := [(7, 31, 2)], refreshes := [(255, 31)], acts := [(16377, 4)] } },
    canonical_of (by decide +kernel), by decide +kernel⟩,
  ⟨0, 0, 96, wb (wf ready 640 Reg.MC_CFG 1 1 1) 640 Reg.MC_ZF_STAT 0 true, canonical_of (by decide +kernel),
    by decide +kernel⟩⟩

theorem witness_ZeroFillsInjectionsAndStrictTakeEffect :
    (∃ (fn m k : Nat) (v : Word) (s : State), s.canonical ∧ m < 8 ∧ k < 16 ∧ rb s (pgMc m) Reg.MC_ZF_STAT (fld v 0 2)
      = true ∧ s.heldPorts = [] ∧ rb s (pgQuay k) Reg.QUAY_ZF_STAT 0 = true ∧ (∀ e ∈ s.quay.replacing, e.1 ≠ k) ∧
      MayWrite s fn (pgMc m) Reg.MC_INJECT ∧ bit v 63 = true ∧ sealHeld s (4 * (fld v 0 5 / 8) + m % 4) = false ∧
      MayWrite s fn (pgQuay k) Reg.QUAY_INJECT ∧ actsOn s fn (pgQuay k) true = true ∧ MayWrite s fn (pgQuay k)
      Reg.QUAY_CFG ∧ quayCfgOk s k v = true ∧ (bit v 0 = true ∧ rb s (pgQuay k) Reg.QUAY_CFG 0 = false)) ∧
    (∃ (fn m k : Nat) (v : Word) (s : State), s.canonical ∧ m < 8 ∧ k < 16 ∧ MayWrite s fn (pgMc m) Reg.MC_ZF_CMD ∧
      bit v 63 = true ∧ rb s (pgMc m) Reg.MC_ZF_STAT (fld v 0 2) = false ∧ MayWrite s fn (pgQuay k) Reg.QUAY_ZF_CMD ∧
      actsOn s fn (pgQuay k) true = true ∧ rb s (pgQuay k) Reg.QUAY_ZF_STAT 0 = false ∧ MayWrite s fn (pgQuay k)
      Reg.QUAY_CFG ∧ quayCfgOk s k v = true ∧ (¬(bit v 0 = true ∧ rb s (pgQuay k) Reg.QUAY_CFG 0 = false))) ∧
    (∃ (m k : Nat) (s : State) (w : Word), s.canonical ∧ m < 8 ∧ k < 16 ∧ (List.find? (fun e => decide (e.1 = k))
      s.quay.strict = some (k, w)) ∧ strictWaits s k = false) ∧
    (∃ (m k : Nat) (s : State), s.canonical ∧ m < 8 ∧ k < 16 ∧ rb s (pgQuay k) Reg.QUAY_ZF_STAT 0 = true ∧ (∃ e ∈
      s.quay.replacing, e.1 = k)) ∧
    (∃ (m k : Nat) (s : State) (w : Word), s.canonical ∧ m < 8 ∧ k < 16 ∧ (List.find? (fun e => decide (e.1 = k))
      s.quay.strict = some (k, w)) ∧ strictWaits s k = true) :=
  ⟨⟨0, 3, 15, w64 (3 + 1 <<< 63), wb (wb (wf ready 142 Reg.PART_STATE 0 4 1) 643 Reg.MC_ZF_STAT 3 true) (pgQuay 15)
    Reg.QUAY_ZF_STAT 0 true, canonical_of (by decide +kernel), by decide +kernel⟩,
  ⟨0, 0, 0, w64 (0 + 1 <<< 63), poke (poke ready 5 7) 0x800000000 9, canonical_of (by decide +kernel),
    by decide +kernel⟩,
  ⟨7, 15, { ready with quay := { ready.quay with strict := [(14, 3), (15, 0x402081)] } }, 0x402081, canonical_of
    (by decide +kernel), by decide +kernel⟩,
  ⟨7, 15, { wb ready (pgQuay 15) Reg.QUAY_ZF_STAT 0 true with quay := { ready.quay with replacing := [(15, 3)] } },
    canonical_of (by decide +kernel), by decide +kernel⟩,
  ⟨7, 15,
    { ready with heldPorts := [(some 15, .quayWrite 15 0 3 true [9] .clean)], quay := { ready.quay with strict := [(14, 3), (15, 0x402081)] } },
    0x402081, canonical_of (by decide +kernel), by decide +kernel⟩⟩

end Memory

namespace Rings

def dealt : Machine.State := { wr (wr ready (pgRing 0) (Reg.BE_LIMIT 0) 0x10001) (pgRing 5) (Reg.BE_LIMIT 15) 0x20000 with fab := { ready.fab with active := ((List.range 1024).map fun i => (i, 0)) ++ ((List.range 1024).map fun i => (5120 + i, 15)) } }

def wq : Parcel := ⟨70, .cluster 1, .cluster 17, .control, 0, 0, 2, none, false⟩

def vq : Parcel := ⟨71, .cluster 1, .cluster 18, .bestEffort, 0, 0, 2, none, false⟩

def ported : Machine.State := { dealt with fab := { dealt.fab with ports := [vq, wq], nextId := 80, clock := 800 } }

theorem witness_PacketsCrossTheRings_1 :
    (∃ (src dst : FabUnit) (cargo : Cargo) (p bytes n island cycle : Nat) (q : Parcel) (l : Leg) (rest : List Leg) (s
      : State), s.canonical ∧ parcelLegs s q = l :: rest ∧ parcelOf s src dst p cargo bytes n = some q ∧ q ∉
      s.fab.ports ∧ (lockedUnit s q.src = false ∧ scrubStops s q = false ∧ creditsOk s (l :: rest) q.part = true ∧
      (legLinks l = [] ∨ tokenOk s q l = true ∧ slotFree s l.ring l.src l.back (s.fab.clock + cycle) q = true)) ∧
      island < 192 ∧ island ∉ s.fab.asleep ∧ islandBusy s island = false ∧ waitsIsland s island (s.fab.clock + cycle)
      = false) ∧
    (∃ (dst : FabUnit) (p island cycle id : Nat) (rest : List Leg) (k : Packet) (s : State), s.canonical ∧
      (List.find? (fun p => decide (p.load.id = id)) s.fab.packets = some k) ∧ k.rest = [] ∧ arrived k (s.fab.clock +
      cycle) = true ∧ lockedUnit s k.load.dst = false ∧ asleepUnit s k.load.dst = true ∧ (island ∈ s.fab.asleep) ∧
      waitsIsland s island (s.fab.clock + cycle) = true) ∧
    (∃ (src dst : FabUnit) (cargo : Cargo) (p bytes n cycle : Nat) (q : Parcel) (l : Leg) (rest : List Leg) (s :
      State), s.canonical ∧ parcelLegs s q = l :: rest ∧ parcelOf s src dst p cargo bytes n = some q ∧ q ∉
      s.fab.ports ∧ (¬(lockedUnit s q.src = false ∧ scrubStops s q = false ∧ creditsOk s (l :: rest) q.part = true ∧
      (legLinks l = [] ∨ tokenOk s q l = true ∧ slotFree s l.ring l.src l.back (s.fab.clock + cycle) q = true)))) ∧
    (∃ (src : FabUnit) (cycle id : Nat) (q : Parcel) (l : Leg) (rest : List Leg) (s : State), s.canonical ∧
      parcelLegs s q = l :: rest ∧ (List.find? (fun q => decide (q.id = id)) s.fab.ports = some q) ∧ (lockedUnit s
      q.src = false ∧ scrubStops s q = false ∧ creditsOk s (l :: rest) q.part = true ∧ (legLinks l = [] ∨ tokenOk s q
      l = true ∧ slotFree s l.ring l.src l.back (s.fab.clock + cycle) q = true))) ∧
    (∃ (src : FabUnit) (cycle id : Nat) (q : Parcel) (l : Leg) (rest : List Leg) (s : State), s.canonical ∧
      parcelLegs s q = l :: rest ∧ (List.find? (fun q => decide (q.id = id)) s.fab.ports = some q) ∧ (¬(lockedUnit s
      q.src = false ∧ scrubStops s q = false ∧ creditsOk s (l :: rest) q.part = true ∧ (legLinks l = [] ∨ tokenOk s q
      l = true ∧ slotFree s l.ring l.src l.back (s.fab.clock + cycle) q = true)))) ∧
    (∃ (src : FabUnit) (p cycle id : Nat) (l : Leg) (rest : List Leg) (k : Packet) (s : State), s.canonical ∧
      (List.find? (fun p => decide (p.load.id = id)) s.fab.packets = some k) ∧ k.rest = l :: rest ∧ (¬(waitsTurn k
      l.ring l.src l.back (s.fab.clock + cycle) = true ∧ slotFree s l.ring l.src l.back (s.fab.clock + cycle) k.load
      = true))) :=
  ⟨⟨.cluster 0, .cluster 8, .work 0, 0, 64, 1, 0, 0, ((parcelOf (dealt) (.cluster 0) (.cluster 8) 0 (.work 0) 64
    1).getD ⟨0, .host, .host, .control, 0, 0, 1, none, false⟩), ((parcelLegs (dealt) (((parcelOf (dealt) (.cluster 0)
    (.cluster 8) 0 (.work 0) 64 1).getD ⟨0, .host, .host, .control, 0, 0, 1, none, false⟩)))).headD ⟨0, false, 1, 2⟩,
    ((parcelLegs (dealt) (((parcelOf (dealt) (.cluster 0) (.cluster 8) 0 (.work 0) 64 1).getD ⟨0, .host, .host,
    .control, 0, 0, 1, none, false⟩)))).tail, dealt, canonical_of (by decide +kernel), by decide +kernel⟩,
  ⟨.cluster 8, 0, 24, 0, 3, ((parcelLegs
    ({ dealt with fab := { dealt.fab with clock := 128, asleep := [24, 3], packets := [⟨⟨8, .cluster 1, .host, .control, 0, 0, 1, none, false⟩, ⟨0, false, 1, 2⟩, 0, []⟩, ⟨⟨3, .cluster 1, .cluster 24, .control, 0, 0, 1, none, true⟩, ⟨0, false, 1, 2⟩, 0, []⟩], served := [⟨4, .host, .cluster 1, .control, 0, 0, 1, none, false⟩], casts := [⟨7, .host, 0, [], [1, 2], [2]⟩] } })
    (((parcelOf
    ({ dealt with fab := { dealt.fab with clock := 128, asleep := [24, 3], packets := [⟨⟨8, .cluster 1, .host, .control, 0, 0, 1, none, false⟩, ⟨0, false, 1, 2⟩, 0, []⟩, ⟨⟨3, .cluster 1, .cluster 24, .control, 0, 0, 1, none, true⟩, ⟨0, false, 1, 2⟩, 0, []⟩], served := [⟨4, .host, .cluster 1, .control, 0, 0, 1, none, false⟩], casts := [⟨7, .host, 0, [], [1, 2], [2]⟩] } })
    (.cluster 0) (.cluster 8) 0 (.work 0) 64 1).getD ⟨0, .host, .host, .control, 0, 0, 1, none, false⟩)))).tail, ⟨⟨3,
    .cluster 1, .cluster 24, .control, 0, 0, 1, none, true⟩, ⟨0, false, 1, 2⟩, 0, []⟩,
    { dealt with fab := { dealt.fab with clock := 128, asleep := [24, 3], packets := [⟨⟨8, .cluster 1, .host, .control, 0, 0, 1, none, false⟩, ⟨0, false, 1, 2⟩, 0, []⟩, ⟨⟨3, .cluster 1, .cluster 24, .control, 0, 0, 1, none, true⟩, ⟨0, false, 1, 2⟩, 0, []⟩], served := [⟨4, .host, .cluster 1, .control, 0, 0, 1, none, false⟩], casts := [⟨7, .host, 0, [], [1, 2], [2]⟩] } },
    canonical_of (by decide +kernel), by decide +kernel⟩,
  ⟨.host, .mc 7, .dma 3, 0, 64, 1, 0, ((parcelOf (dealt) (.host) (.mc 7) 0 (.dma 3) 64 1).getD ⟨0, .host, .host,
    .control, 0, 0, 1, none, false⟩), ((parcelLegs (dealt) (((parcelOf (dealt) (.host) (.mc 7) 0 (.dma 3) 64 1).getD
    ⟨0, .host, .host, .control, 0, 0, 1, none, false⟩)))).headD ⟨0, false, 1, 2⟩, ((parcelLegs (dealt) (((parcelOf
    (dealt) (.host) (.mc 7) 0 (.dma 3) 64 1).getD ⟨0, .host, .host, .control, 0, 0, 1, none, false⟩)))).tail, dealt,
    canonical_of (by decide +kernel), by decide +kernel⟩,
  ⟨.cluster 0, 0, 70, wq, ((parcelLegs (ported) (wq))).headD ⟨0, false, 1, 2⟩, ((parcelLegs (ported) (wq))).tail,
    ported, canonical_of (by decide +kernel), by decide +kernel⟩,
  ⟨.cluster 0, 0, 70, wq, ((parcelLegs (wf ported 128 Reg.PART_STATE 0 4 6) (wq))).headD ⟨0, false, 1, 2⟩,
    ((parcelLegs (wf ported 128 Reg.PART_STATE 0 4 6) (wq))).tail, wf ported 128 Reg.PART_STATE 0 4 6, canonical_of
    (by decide +kernel), by decide +kernel⟩,
  ⟨.cluster 0, 0, 0, 3, ⟨5, false, 0, 1⟩, [], ⟨⟨3, .cluster 1, .cluster 24, .control, 0, 0, 1, none, false⟩, ⟨0,
    false, 1, 2⟩, 0, [⟨5, false, 0, 1⟩]⟩,
    { dealt with fab := { dealt.fab with clock := 128, asleep := [], packets := [⟨⟨8, .cluster 1, .host, .control, 0, 0, 1, none, false⟩, ⟨0, false, 1, 2⟩, 0, []⟩, ⟨⟨3, .cluster 1, .cluster 24, .control, 0, 0, 1, none, false⟩, ⟨0, false, 1, 2⟩, 0, [⟨5, false, 0, 1⟩]⟩], served := [⟨4, .host, .cluster 1, .control, 0, 0, 1, none, false⟩], casts := [⟨7, .host, 0, [], [1, 2], [2]⟩] } },
    canonical_of (by decide +kernel), by decide +kernel⟩⟩

theorem witness_PacketsCrossTheRings_2 :
    (∃ (src : FabUnit) (p cycle id : Nat) (l : Leg) (rest : List Leg) (k : Packet) (s : State), s.canonical ∧
      (List.find? (fun p => decide (p.load.id = id)) s.fab.packets = some k) ∧ k.rest = l :: rest ∧ (waitsTurn k
      l.ring l.src l.back (s.fab.clock + cycle) = true ∧ slotFree s l.ring l.src l.back (s.fab.clock + cycle) k.load
      = true)) ∧
    (∃ (dst : FabUnit) (p cycle id : Nat) (rest : List Leg) (k : Packet) (s : State), s.canonical ∧ (List.find? (fun
      p => decide (p.load.id = id)) s.fab.packets = some k) ∧ k.rest = [] ∧ arrived k (s.fab.clock + cycle) = true ∧
      lockedUnit s k.load.dst = false ∧ asleepUnit s k.load.dst = false) ∧
    (∃ (dst : FabUnit) (p cycle id : Nat) (rest : List Leg) (k : Packet) (s : State), s.canonical ∧ (List.find? (fun
      p => decide (p.load.id = id)) s.fab.packets = some k) ∧ k.rest = [] ∧ arrived k (s.fab.clock + cycle) = true ∧
      lockedUnit s k.load.dst = true) :=
  ⟨⟨.cluster 0, 0, 0, 3, ⟨0, false, 2, 3⟩, [], ⟨⟨3, .cluster 1, .cluster 24, .control, 0, 0, 1, none, false⟩, ⟨0,
    false, 1, 2⟩, 0, [⟨0, false, 2, 3⟩]⟩,
    { dealt with fab := { dealt.fab with clock := 128, asleep := [], packets := [⟨⟨8, .cluster 1, .host, .control, 0, 0, 1, none, false⟩, ⟨0, false, 1, 2⟩, 0, []⟩, ⟨⟨3, .cluster 1, .cluster 24, .control, 0, 0, 1, none, false⟩, ⟨0, false, 1, 2⟩, 0, [⟨0, false, 2, 3⟩]⟩], served := [⟨4, .host, .cluster 1, .control, 0, 0, 1, none, false⟩], casts := [⟨7, .host, 0, [], [1, 2], [2]⟩] } },
    canonical_of (by decide +kernel), by decide +kernel⟩,
  ⟨.cluster 8, 0, 0, 3, ((parcelLegs
    ({ dealt with fab := { dealt.fab with clock := 128, asleep := [], packets := [⟨⟨8, .cluster 1, .host, .control, 0, 0, 1, none, false⟩, ⟨0, false, 1, 2⟩, 0, []⟩, ⟨⟨3, .cluster 1, .cluster 24, .control, 0, 0, 1, none, true⟩, ⟨0, false, 1, 2⟩, 0, []⟩], served := [⟨4, .host, .cluster 1, .control, 0, 0, 1, none, false⟩], casts := [⟨7, .host, 0, [], [1, 2], [2]⟩] } })
    (((parcelOf
    ({ dealt with fab := { dealt.fab with clock := 128, asleep := [], packets := [⟨⟨8, .cluster 1, .host, .control, 0, 0, 1, none, false⟩, ⟨0, false, 1, 2⟩, 0, []⟩, ⟨⟨3, .cluster 1, .cluster 24, .control, 0, 0, 1, none, true⟩, ⟨0, false, 1, 2⟩, 0, []⟩], served := [⟨4, .host, .cluster 1, .control, 0, 0, 1, none, false⟩], casts := [⟨7, .host, 0, [], [1, 2], [2]⟩] } })
    (.cluster 0) (.cluster 8) 0 (.work 0) 64 1).getD ⟨0, .host, .host, .control, 0, 0, 1, none, false⟩)))).tail, ⟨⟨3,
    .cluster 1, .cluster 24, .control, 0, 0, 1, none, true⟩, ⟨0, false, 1, 2⟩, 0, []⟩,
    { dealt with fab := { dealt.fab with clock := 128, asleep := [], packets := [⟨⟨8, .cluster 1, .host, .control, 0, 0, 1, none, false⟩, ⟨0, false, 1, 2⟩, 0, []⟩, ⟨⟨3, .cluster 1, .cluster 24, .control, 0, 0, 1, none, true⟩, ⟨0, false, 1, 2⟩, 0, []⟩], served := [⟨4, .host, .cluster 1, .control, 0, 0, 1, none, false⟩], casts := [⟨7, .host, 0, [], [1, 2], [2]⟩] } },
    canonical_of (by decide +kernel), by decide +kernel⟩,
  ⟨.cluster 8, 0, 0, 3, ((parcelLegs
    ({ wf dealt 131 Reg.PART_STATE 0 4 6 with fab := { dealt.fab with clock := 128, asleep := [24], packets := [⟨⟨8, .cluster 1, .host, .control, 0, 0, 1, none, false⟩, ⟨0, false, 1, 2⟩, 0, []⟩, ⟨⟨3, .cluster 1, .cluster 24, .control, 0, 0, 1, none, true⟩, ⟨0, false, 1, 2⟩, 0, []⟩], served := [⟨4, .host, .cluster 1, .control, 0, 0, 1, none, false⟩], casts := [⟨7, .host, 0, [], [1, 2], [2]⟩] } })
    (((parcelOf
    ({ wf dealt 131 Reg.PART_STATE 0 4 6 with fab := { dealt.fab with clock := 128, asleep := [24], packets := [⟨⟨8, .cluster 1, .host, .control, 0, 0, 1, none, false⟩, ⟨0, false, 1, 2⟩, 0, []⟩, ⟨⟨3, .cluster 1, .cluster 24, .control, 0, 0, 1, none, true⟩, ⟨0, false, 1, 2⟩, 0, []⟩], served := [⟨4, .host, .cluster 1, .control, 0, 0, 1, none, false⟩], casts := [⟨7, .host, 0, [], [1, 2], [2]⟩] } })
    (.cluster 0) (.cluster 8) 0 (.work 0) 64 1).getD ⟨0, .host, .host, .control, 0, 0, 1, none, false⟩)))).tail, ⟨⟨3,
    .cluster 1, .cluster 24, .control, 0, 0, 1, none, true⟩, ⟨0, false, 1, 2⟩, 0, []⟩,
    { wf dealt 131 Reg.PART_STATE 0 4 6 with fab := { dealt.fab with clock := 128, asleep := [24], packets := [⟨⟨8, .cluster 1, .host, .control, 0, 0, 1, none, false⟩, ⟨0, false, 1, 2⟩, 0, []⟩, ⟨⟨3, .cluster 1, .cluster 24, .control, 0, 0, 1, none, true⟩, ⟨0, false, 1, 2⟩, 0, []⟩], served := [⟨4, .host, .cluster 1, .control, 0, 0, 1, none, false⟩], casts := [⟨7, .host, 0, [], [1, 2], [2]⟩] } },
    canonical_of (by decide +kernel), by decide +kernel⟩⟩

theorem witness_BroadcastsReachEveryStop :
    (∃ (src : FabUnit) (p cycle id : Nat) (v : Nat × Nat × Nat) (s : State), s.canonical ∧ unitOk src = true ∧
      lockedUnit s src = false ∧ (p < 16 ∨ p = 31) ∧ castStart src (s.fab.clock + cycle) = some v ∧ (∀ d ∈
      s.fab.casts, d.id ≠ s.fab.nextId) ∧ (¬slotFree s v.1 v.2.1 (copyLinks
      { id := s.fab.nextId, src := src, part := p, copies := [v], got := [], acked := [] } v).2 (s.fab.clock + cycle)
      (castParcel { id := s.fab.nextId, src := src, part := p, copies := [v], got := [], acked := [] }) = true)) ∧
    (∃ (src : FabUnit) (p cycle id : Nat) (v : Nat × Nat × Nat) (s : State), s.canonical ∧ unitOk src = true ∧
      lockedUnit s src = false ∧ (p < 16 ∨ p = 31) ∧ castStart src (s.fab.clock + cycle) = some v ∧ (∀ d ∈
      s.fab.casts, d.id ≠ s.fab.nextId) ∧ slotFree s v.1 v.2.1 (copyLinks
      { id := s.fab.nextId, src := src, part := p, copies := [v], got := [], acked := [] } v).2 (s.fab.clock + cycle)
      (castParcel { id := s.fab.nextId, src := src, part := p, copies := [v], got := [], acked := [] }) = true) ∧
    (∃ (cycle id : Nat) (v : Nat × Nat × Nat) (c : Cast) (s : State), s.canonical ∧ (∀ k ∈ s.fab.packets, k.load.id ≠
      id) ∧ (List.find? (fun c => decide (c.id = id)) s.fab.casts = some c) ∧ c.copies = [v] ∧ v.2.2 ≤ s.fab.clock +
      cycle ∧ slotFree s v.1 v.2.1 (copyLinks c v).2 (s.fab.clock + cycle) (castParcel c) = true) ∧
    (∃ (cycle id : Nat) (v : Nat × Nat × Nat) (c : Cast) (s : State), s.canonical ∧ (∀ k ∈ s.fab.packets, k.load.id ≠
      id) ∧ (List.find? (fun c => decide (c.id = id)) s.fab.casts = some c) ∧ c.copies = [v] ∧ (¬(v.2.2 ≤ s.fab.clock
      + cycle ∧ slotFree s v.1 v.2.1 (copyLinks c v).2 (s.fab.clock + cycle) (castParcel c) = true))) :=
  ⟨⟨.host, 0x1F, 0, 7, ((castStart (.host) (State.fab (dealt)).clock).getD (0,0,0)), dealt, canonical_of
    (by decide +kernel), by decide +kernel⟩,
  ⟨.host, 0x1F, 0, 7, ((castStart (.host) (State.fab
    ({ dealt with fab := { dealt.fab with active := (List.range 8192).map fun i => (i, 0x11) } })).clock).getD
    (0,0,0)), { dealt with fab := { dealt.fab with active := (List.range 8192).map fun i => (i, 0x11) } },
    canonical_of (by decide +kernel), by decide +kernel⟩,
  ⟨0, 7, (0, 2, 5), ⟨7, .host, 0, [(0, 2, 5)], [1, 2], [2]⟩,
    { dealt with fab := { dealt.fab with active := (List.range 8192).map fun i => (i, 0x11), casts := [⟨7, .host, 0, [(0, 2, 5)], [1, 2], [2]⟩, ⟨8, .host, 0, [(5, 2, 0)], [1, 2], [2]⟩, ⟨9, .mc 0, 0, [(4, 0, 0)], [], []⟩], nextId := 10, clock := 64 } },
    canonical_of (by decide +kernel), by decide +kernel⟩,
  ⟨0, 7, (0, 2, 500), ⟨7, .host, 0, [(0, 2, 500)], [1, 2], [2]⟩,
    { dealt with fab := { dealt.fab with active := (List.range 8192).map fun i => (i, 0x11), casts := [⟨7, .host, 0, [(0, 2, 500)], [1, 2], [2]⟩, ⟨8, .host, 0, [(5, 2, 0)], [1, 2], [2]⟩, ⟨9, .mc 0, 0, [(4, 0, 0)], [], []⟩], nextId := 10, clock := 64 } },
    canonical_of (by decide +kernel), by decide +kernel⟩⟩

theorem witness_BestEffortPacketsNeedTokens :
    (∃ (src dst : FabUnit) (cargo : Cargo) (p bytes n cycle ring : Nat) (q : Parcel) (l : Leg) (rest : List Leg) (s :
      State) (back : Bool), s.canonical ∧ (p < 16 ∨ p = 31) ∧ ring < 8 ∧ parcelOf s src dst p cargo bytes n = some q
      ∧ q.part = p ∧ parcelLegs s q = l :: rest ∧ l.ring = ring ∧ legLinks l ≠ [] ∧ scrubStops s q = false ∧
      creditsOk s (l :: rest) p = true ∧ slotFree s ring l.src l.back (s.fab.clock + cycle) q = true ∧ q.cls =
      Traffic.bestEffort ∧ p < 16 ∧ 256 ≤ beTokens s (stopOf q.src) ring l.back p ∧ rf s (pgRing ring) (Reg.BE_LIMIT
      (p % 16)) 0 12 ≠ 0) ∧
    (∃ (src dst : FabUnit) (cargo : Cargo) (p bytes n cycle ring : Nat) (q : Parcel) (l : Leg) (rest : List Leg) (s :
      State), s.canonical ∧ (p < 16 ∨ p = 31) ∧ ring < 8 ∧ parcelOf s src dst p cargo bytes n = some q ∧ q.part = p ∧
      parcelLegs s q = l :: rest ∧ l.ring = ring ∧ legLinks l ≠ [] ∧ scrubStops s q = false ∧ creditsOk s (l :: rest)
      p = true ∧ slotFree s ring l.src l.back (s.fab.clock + cycle) q = true ∧ (q.cls ≠ Traffic.bestEffort ∨ p = 31))
      ∧
    (∃ (src dst : FabUnit) (cargo : Cargo) (p bytes n cycle ring : Nat) (q : Parcel) (l : Leg) (rest : List Leg) (s :
      State), s.canonical ∧ (p < 16 ∨ p = 31) ∧ ring < 8 ∧ parcelOf s src dst p cargo bytes n = some q ∧ q.part = p ∧
      parcelLegs s q = l :: rest ∧ l.ring = ring ∧ legLinks l ≠ [] ∧ scrubStops s q = false ∧ creditsOk s (l :: rest)
      p = true ∧ slotFree s ring l.src l.back (s.fab.clock + cycle) q = true ∧ q.cls = Traffic.bestEffort ∧ p < 16 ∧
      (beTokens s (stopOf q.src) ring l.back p < 256 ∨ rf s (pgRing ring) (Reg.BE_LIMIT (p % 16)) 0 12 = 0)) :=
  ⟨⟨.cluster 0, .cluster 8, .work 0, 0, 64, 1, 0, 0, ((parcelOf (dealt) (.cluster 0) (.cluster 8) 0 (.work 0) 64
    1).getD ⟨0, .host, .host, .control, 0, 0, 1, none, false⟩), ((parcelLegs (dealt) (((parcelOf (dealt) (.cluster 0)
    (.cluster 8) 0 (.work 0) 64 1).getD ⟨0, .host, .host, .control, 0, 0, 1, none, false⟩)))).headD ⟨0, false, 1, 2⟩,
    ((parcelLegs (dealt) (((parcelOf (dealt) (.cluster 0) (.cluster 8) 0 (.work 0) 64 1).getD ⟨0, .host, .host,
    .control, 0, 0, 1, none, false⟩)))).tail, dealt, true, canonical_of (by decide +kernel), by decide +kernel⟩,
  ⟨.cluster 0, .cluster 8, .control, 0, 64, 1, 0, 0, ((parcelOf (dealt) (.cluster 0) (.cluster 8) 0 (.control) 64
    1).getD ⟨0, .host, .host, .control, 0, 0, 1, none, false⟩), ((parcelLegs (dealt) (((parcelOf (dealt) (.cluster 0)
    (.cluster 8) 0 (.control) 64 1).getD ⟨0, .host, .host, .control, 0, 0, 1, none, false⟩)))).headD ⟨0, false, 1,
    2⟩, ((parcelLegs (dealt) (((parcelOf (dealt) (.cluster 0) (.cluster 8) 0 (.control) 64 1).getD ⟨0, .host, .host,
    .control, 0, 0, 1, none, false⟩)))).tail, dealt, canonical_of (by decide +kernel), by decide +kernel⟩,
  ⟨.cluster 0, .cluster 8, .work 0, 0, 64, 1, 0, 0, ((parcelOf
    ({ dealt with fab := { dealt.fab with tokens := [(0, 255), (32, 100)] } }) (.cluster 0) (.cluster 8) 0 (.work 0)
    64 1).getD ⟨0, .host, .host, .control, 0, 0, 1, none, false⟩), ((parcelLegs
    ({ dealt with fab := { dealt.fab with tokens := [(0, 255), (32, 100)] } }) (((parcelOf
    ({ dealt with fab := { dealt.fab with tokens := [(0, 255), (32, 100)] } }) (.cluster 0) (.cluster 8) 0 (.work 0)
    64 1).getD ⟨0, .host, .host, .control, 0, 0, 1, none, false⟩)))).headD ⟨0, false, 1, 2⟩, ((parcelLegs
    ({ dealt with fab := { dealt.fab with tokens := [(0, 255), (32, 100)] } }) (((parcelOf
    ({ dealt with fab := { dealt.fab with tokens := [(0, 255), (32, 100)] } }) (.cluster 0) (.cluster 8) 0 (.work 0)
    64 1).getD ⟨0, .host, .host, .control, 0, 0, 1, none, false⟩)))).tail,
    { dealt with fab := { dealt.fab with tokens := [(0, 255), (32, 100)] } }, canonical_of (by decide +kernel),
    by decide +kernel⟩⟩

theorem witness_DealsRoutesAndLanesAreKept :
    (∃ (fn r link lane group wire : Nat) (dir : Bool) (v : Word) (s : State) (again : Nat), s.canonical ∧ r < 8 ∧ (r
      ∈ s.fab.commits) ∧ (¬(rb s (pgRing r) Reg.RING_CTL 0 = true ∧ movesSealed s r = true)) ∧ MayWrite s fn (pgRing
      0) Reg.FAB_CTL ∧ MayWrite s fn (pgRing 0) Reg.ROUTE_DATA ∧ (fld v 0 12 = tally s.fab.routes (rf s (pgRing 0)
      Reg.ROUTE_SEL 0 6 * 64 + rf s (pgRing 0) Reg.ROUTE_SEL 8 6) ∨ locked s (pgRing 0) = false ∧ routeOk s (rf s
      (pgRing 0) Reg.ROUTE_SEL 0 6) (rf s (pgRing 0) Reg.ROUTE_SEL 8 6) (fld v 0 12) = true) ∧ link < ringLinks r ∧
      lane < 4 ∧ group < 8 ∧ linkKey r link dir ∉ s.fab.down ∧ wire < 34 ∧ (again = 0 ∨ again = 1) ∧ wireErrs s
      (wireKey r link dir lane group wire) ≤ 16) ∧
    (∃ (fn r link lane group wire : Nat) (dir : Bool) (s : State), s.canonical ∧ r < 8 ∧ MayWrite s fn (pgRing r)
      Reg.DEAL_COMMIT ∧ r ∉ s.fab.commits ∧ (¬(rb s (pgRing r) Reg.RING_CTL 0 = true ∧ movesSealed s r = true)) ∧
      link < ringLinks r ∧ lane < 4 ∧ group < 8 ∧ linkKey r link dir ∉ s.fab.down ∧ 16 < wireErrs s (wireKey r link
      dir lane group wire) ∧ (tally s.fab.lanesOff (linkKey r link dir)).testBit lane = false ∧ tally s.fab.spares
      ((linkKey r link dir * 4 + lane) * 8 + group) < 2) ∧
    (∃ (r : Nat) (s : State), s.canonical ∧ r < 8 ∧ (r ∈ s.fab.commits) ∧ (rb s (pgRing r) Reg.RING_CTL 0 = true ∧
      movesSealed s r = true)) ∧
    (∃ (r link lane group wire : Nat) (dir : Bool) (s : State), s.canonical ∧ r < 8 ∧ link < ringLinks r ∧ lane < 4 ∧
      group < 8 ∧ linkKey r link dir ∉ s.fab.down ∧ 16 < wireErrs s (wireKey r link dir lane group wire) ∧ (tally
      s.fab.lanesOff (linkKey r link dir)).testBit lane = false ∧ 2 ≤ tally s.fab.spares ((linkKey r link dir * 4 +
      lane) * 8 + group) ∧ tally s.fab.lanesOff (linkKey r link dir) = 0) ∧
    (∃ (r link lane group wire : Nat) (dir : Bool) (s : State), s.canonical ∧ r < 8 ∧ link < ringLinks r ∧ lane < 4 ∧
      group < 8 ∧ linkKey r link dir ∉ s.fab.down ∧ 16 < wireErrs s (wireKey r link dir lane group wire) ∧ (tally
      s.fab.lanesOff (linkKey r link dir)).testBit lane = false ∧ 2 ≤ tally s.fab.spares ((linkKey r link dir * 4 +
      lane) * 8 + group) ∧ popCount (tally s.fab.lanesOff (linkKey r link dir)) 4 = 1) :=
  ⟨⟨0, 7, 3, 3, 7, 0, true, 0,
    { page ready (pgRing 7) 3 1 with fab := { ready.fab with shadow := [(8191, 3), (7, 4)], active := [(7, 1), (7168, 1)], commits := [7] } },
    0, canonical_of (by decide +kernel), by decide +kernel⟩,
  ⟨0, 7, 0, 3, 7, 33, true,
    { page ready (pgRing 7) 3 1 with fab := { ready.fab with laneErrs := (List.range 17).map fun i => (wireKey 7 0 true 3 7 33, 0) } },
    canonical_of (by decide +kernel), by decide +kernel⟩,
  ⟨7,
    { wf (wb ready (pgRing 7) Reg.RING_CTL 0 true) 131 Reg.PART_STATE 0 5 0x14 with fab := { ready.fab with shadow := [(8191, 3), (7, 4)], active := [(7, 1), (7168, 1)], commits := [7] } },
    canonical_of (by decide +kernel), by decide +kernel⟩,
  ⟨7, 0, 3, 7, 33, true,
    { page ready (pgRing 7) 3 1 with fab := { ready.fab with laneErrs := (List.range 17).map fun i => (wireKey 7 0 true 3 7 33, 0), spares := [((linkKey 7 0 true * 4 + 3) * 8 + 7, 2)] } },
    canonical_of (by decide +kernel), by decide +kernel⟩,
  ⟨7, 0, 3, 7, 33, true,
    { page ready (pgRing 7) 3 1 with fab := { ready.fab with laneErrs := (List.range 17).map fun i => (wireKey 7 0 true 3 7 33, 0), lanesOff := [(linkKey 7 0 true, 2)], spares := [((linkKey 7 0 true * 4 + 3) * 8 + 7, 2)] } },
    canonical_of (by decide +kernel), by decide +kernel⟩⟩

end Rings

namespace Coherence

theorem witness_UncachedLinesAreServedFromMemory :
    ∃ (k pos line hint pa : Nat) (data : Bytes) (s : State), s.canonical ∧ pos < 18 ∧ HomeReady s k line ∧ agentPos s
      k pos = true ∧ dirOf s k line = none ∧ List.length data = 128 ∧ cachingPos s k pos = true ∧ hintUsable s k hint
      = false ∧ pa / 128 = line ∧ pa % 8 = 0 :=
  ⟨15, 7, (quayBase 15 / 128 + 3), 7, 128*(quayBase 15 / 128 + 3)+120, (List.replicate 128 0x5A), poke (poke ready
    (128*(quayBase 15 / 128 + 3)) 0x11) (128*(quayBase 15 / 128 + 3)+120) 9, canonical_of (by decide +kernel),
    by decide +kernel⟩

theorem witness_SharedLinesAreSnoopedOrJoined :
    (∃ (k pos p line w h : Nat) (s : State), s.canonical ∧ HomeReady s k line ∧ pos < 8 ∧ p < 8 ∧ h < 2 ^ 18 ∧ dirOf
      s k line = some { part := k, line := line, way := w, owned := false, holders := h } ∧ (List.filter (fun q =>
      decide (q ≠ pos)) (bitsOf h 18) ≠ []) ∧ h < 2 ^ 12 ∧ p ≠ pos ∧ rankOf s k line p < rankOf s k line pos ∧
      entryUsed s k pos line = false) ∧
    (∃ (k pos p line w h : Nat) (s : State), s.canonical ∧ HomeReady s k line ∧ pos < 8 ∧ p < 8 ∧ h < 2 ^ 18 ∧ dirOf
      s k line = some { part := k, line := line, way := w, owned := false, holders := h } ∧ h = 1 <<< pos) ∧
    (∃ (k pos p line h : Nat) (s : State), s.canonical ∧ pos < 8 ∧ p < 8 ∧ h < 2 ^ 18 ∧ k < 16 ∧ ownRange k (line *
      128) 128 = true ∧ domainLost s k = false ∧ (lineTxn s k line).isSome = true ∧ (∀ e ∈ s.coh.arrivals, ¬(e.1 = k
      ∧ e.2.2.1 = line)) ∧ entryUsed s k pos line = false ∧ (∀ e ∈ s.coh.waits, ¬(e.1 = k ∧ homeOf e.2.2.1 = homeOf
      line))) ∧
    (∃ (k pos p line w h : Nat) (s : State), s.canonical ∧ pos < 8 ∧ p < 8 ∧ h < 2 ^ 18 ∧ k < 16 ∧ ownRange k (line *
      128) 128 = true ∧ domainLost s k = false ∧ lineTxn s k line = none ∧ (List.filter (fun e => decide (e.part = k)
      && decide (e.line = line)) s.coh.retries =
      [{ part := k, line := line, pos := pos, req := CohReq.rdS, back := false }]) ∧ (∀ e ∈ s.coh.waits, ¬(e.1 = k ∧
      homeOf e.2.2.1 = homeOf line)) ∧ Clean s (line * 128) 128 ∧ dirOf s k line = some
      { part := k, line := line, way := w, owned := false, holders := h }) :=
  ⟨⟨15, 7, 2, (quayBase 15 / 128 + 3), 3, 0x81,
    { (poke ready (128*(quayBase 15 / 128 + 3)) 0x11) with coh := { ((poke ready (128*(quayBase 15 / 128 + 3)) 0x11)).coh with dir := [⟨15, (quayBase 15 / 128 + 3), 3, false, 0x81⟩] } },
    canonical_of (by decide +kernel), homeReady_of (by decide +kernel) (by decide +kernel), by decide +kernel⟩,
  ⟨15, 7, 2, (quayBase 15 / 128 + 3), 3, 0x80,
    { (poke ready (128*(quayBase 15 / 128 + 3)) 0x11) with coh := { ((poke ready (128*(quayBase 15 / 128 + 3)) 0x11)).coh with dir := [⟨15, (quayBase 15 / 128 + 3), 3, false, 0x80⟩] } },
    canonical_of (by decide +kernel), homeReady_of (by decide +kernel) (by decide +kernel), by decide +kernel⟩,
  ⟨15, 7, 2, (quayBase 15 / 128 + 3), 0x81,
    { (poke ready (128*(quayBase 15 / 128 + 3)) 0x11) with coh := { ((poke ready (128*(quayBase 15 / 128 + 3)) 0x11)).coh with dir := [⟨15, (quayBase 15 / 128 + 3), 3, false, 0x81⟩], txns := [⟨15, (quayBase 15 / 128 + 3), 3, .rdX, 0x81, 0, 0, none, false, 0, false⟩] } },
    canonical_of (by decide +kernel), by decide +kernel⟩,
  ⟨15, 7, 2, (quayBase 15 / 128 + 3), 3, 0x81,
    { (poke ready (128*(quayBase 15 / 128 + 3)) 0x11) with coh := { ((poke ready (128*(quayBase 15 / 128 + 3)) 0x11)).coh with dir := [⟨15, (quayBase 15 / 128 + 3), 3, false, 0x81⟩], retries := [⟨15, (quayBase 15 / 128 + 3), 7, .rdS, false⟩] } },
    canonical_of (by decide +kernel), by decide +kernel⟩⟩

theorem witness_SnoopsAreAnswered_1 :
    (∃ (k m line : Nat) (x : Txn) (s : State) (l : CLine), s.canonical ∧ k < 16 ∧ m < 8 ∧ lineTxn s k line = some x ∧
      x.await.testBit m = true ∧ x.phase = 0 ∧ (∀ e ∈ s.coh.waits, ¬(e.1 = k ∧ homeOf e.2.2.1 = homeOf line)) ∧ (∀ e
      ∈ s.coh.answers, ¬(e.1 = k ∧ e.2.1 = m ∧ e.2.2.1 = line)) ∧ x.shr = true ∧ cached s k m line = some l ∧ l.st =
      LineState.modified ∧ x.await ^^^ 1 <<< m ≠ 0 ∧ x.arrived.testBit m = false ∧ flightOf s k m line = none ∧
      wbCredit s k m line = true) ∧
    (∃ (k m line : Nat) (x : Txn) (s : State) (l : CLine), s.canonical ∧ k < 16 ∧ m < 8 ∧ lineTxn s k line = some x ∧
      x.await.testBit m = true ∧ x.phase = 0 ∧ (∀ e ∈ s.coh.waits, ¬(e.1 = k ∧ homeOf e.2.2.1 = homeOf line)) ∧ (∀ e
      ∈ s.coh.answers, ¬(e.1 = k ∧ e.2.1 = m ∧ e.2.2.1 = line)) ∧ x.shr = false ∧ cached s k m line = some l) ∧
    (∃ (k m line : Nat) (x : Txn) (s : State), s.canonical ∧ k < 16 ∧ m < 8 ∧ lineTxn s k line = some x ∧
      x.await.testBit m = true ∧ x.phase = 0 ∧ (∀ e ∈ s.coh.waits, ¬(e.1 = k ∧ homeOf e.2.2.1 = homeOf line)) ∧ (∀ e
      ∈ s.coh.answers, ¬(e.1 = k ∧ e.2.1 = m ∧ e.2.2.1 = line)) ∧ x.shr = true ∧ cached s k m line = none ∧
      x.arrived.testBit m = false) ∧
    (∃ (k m line : Nat) (x : Txn) (s : State), s.canonical ∧ k < 16 ∧ m < 8 ∧ lineTxn s k line = some x ∧
      x.await.testBit m = true ∧ x.phase = 0 ∧ (∀ e ∈ s.coh.waits, ¬(e.1 = k ∧ homeOf e.2.2.1 = homeOf line)) ∧ (∀ e
      ∈ s.coh.answers, ¬(e.1 = k ∧ e.2.1 = m ∧ e.2.2.1 = line)) ∧ x.shr = false ∧ cached s k m line = none) ∧
    (∃ (k m line : Nat) (x : Txn) (s : State), s.canonical ∧ k < 16 ∧ m < 8 ∧ lineTxn s k line = some x ∧
      x.await.testBit m = true ∧ x.phase = 0 ∧ (∀ e ∈ s.coh.waits, ¬(e.1 = k ∧ homeOf e.2.2.1 = homeOf line)) ∧
      x.await ^^^ 1 <<< m ≠ 0 ∧ ((k, m, line, Answer.miss) ∈ s.coh.answers ∧ ∀ v ∈ s.coh.answers, v.1 = k → v.2.1 = m
      → v.2.2.1 = line → v.2.2.2 = Answer.miss)) ∧
    (∃ (k m line : Nat) (x : Txn) (s : State), s.canonical ∧ k < 16 ∧ m < 8 ∧ lineTxn s k line = some x ∧
      x.await.testBit m = true ∧ x.phase = 0 ∧ (∀ e ∈ s.coh.waits, ¬(e.1 = k ∧ homeOf e.2.2.1 = homeOf line)) ∧
      x.await ^^^ 1 <<< m ≠ 0 ∧ ((k, m, line, Answer.clean) ∈ s.coh.answers ∧ ∀ v ∈ s.coh.answers, v.1 = k → v.2.1 =
      m → v.2.2.1 = line → v.2.2.2 = Answer.clean)) :=
  ⟨⟨15, 7, 9, ⟨15, 9, 3, .rdX, 0x81, 0, 0, none, true, 0, false⟩,
    { ready with coh := { (ready).coh with txns := [⟨15, 9, 3, .rdX, 0x81, 0, 0, none, true, 0, false⟩], lines := [⟨15, 7, 9, .modified, (List.replicate 128 0x5A)⟩], flight := [] } },
    ⟨15, 7, 9, .modified, (List.replicate 128 0x5A)⟩, canonical_of (by decide +kernel), by decide +kernel⟩,
  ⟨15, 7, 9, ⟨15, 9, 3, .rdX, 0x81, 0, 0, none, false, 0, false⟩,
    { ready with coh := { (ready).coh with txns := [⟨15, 9, 3, .rdX, 0x81, 0, 0, none, false, 0, false⟩], lines := [⟨15, 7, 9, .shared, (List.replicate 128 0x5A)⟩], flight := [] } },
    ⟨15, 7, 9, .shared, (List.replicate 128 0x5A)⟩, canonical_of (by decide +kernel), by decide +kernel⟩,
  ⟨15, 7, 9, ⟨15, 9, 3, .rdX, 0x81, 0, 0, none, true, 0, false⟩,
    { ready with coh := { (ready).coh with txns := [⟨15, 9, 3, .rdX, 0x81, 0, 0, none, true, 0, false⟩], lines := [], flight := [] } },
    canonical_of (by decide +kernel), by decide +kernel⟩,
  ⟨15, 7, 9, ⟨15, 9, 3, .rdX, 0x81, 0, 0, none, false, 0, false⟩,
    { ready with coh := { (ready).coh with txns := [⟨15, 9, 3, .rdX, 0x81, 0, 0, none, false, 0, false⟩], lines := [], flight := [] } },
    canonical_of (by decide +kernel), by decide +kernel⟩,
  ⟨15, 7, 9, ⟨15, 9, 3, .rdX, 0x81, 0, 0, none, false, 0, false⟩,
    { ready with coh := { (ready).coh with txns := [⟨15, 9, 3, .rdX, 0x81, 0, 0, none, false, 0, false⟩], answers := [(15, 7, 8, .miss), (15, 7, 9, .miss)] } },
    canonical_of (by decide +kernel), by decide +kernel⟩,
  ⟨15, 7, 9, ⟨15, 9, 3, .rdX, 0x81, 0, 0, none, false, 0, false⟩,
    { ready with coh := { (ready).coh with txns := [⟨15, 9, 3, .rdX, 0x81, 0, 0, none, false, 0, false⟩], answers := [(15, 7, 8, .miss), (15, 7, 9, .clean)] } },
    canonical_of (by decide +kernel), by decide +kernel⟩⟩

theorem witness_SnoopsAreAnswered_2 :
    (∃ (k m line : Nat) (d : Bytes) (x : Txn) (s : State), s.canonical ∧ k < 16 ∧ m < 8 ∧ lineTxn s k line = some x ∧
      x.await.testBit m = true ∧ x.phase = 0 ∧ (∀ e ∈ s.coh.waits, ¬(e.1 = k ∧ homeOf e.2.2.1 = homeOf line)) ∧
      x.await ^^^ 1 <<< m ≠ 0 ∧ ((k, m, line, Answer.dirty d) ∈ s.coh.answers ∧ ∀ v ∈ s.coh.answers, v.1 = k → v.2.1
      = m → v.2.2.1 = line → v.2.2.2 = Answer.dirty d)) ∧
    (∃ (k m line : Nat) (x : Txn) (s : State), s.canonical ∧ k < 16 ∧ m < 8 ∧ lineTxn s k line = some x ∧
      x.await.testBit m = true ∧ x.phase = 0 ∧ (∀ e ∈ s.coh.waits, ¬(e.1 = k ∧ homeOf e.2.2.1 = homeOf line)) ∧
      x.await ^^^ 1 <<< m ≠ 0 ∧ ((k, m, line, Answer.inFlight) ∈ s.coh.answers ∧ ∀ v ∈ s.coh.answers, v.1 = k → v.2.1
      = m → v.2.2.1 = line → v.2.2.2 = Answer.inFlight) ∧ x.arrived.testBit m = true) :=
  ⟨⟨15, 7, 9, (List.replicate 128 0x5A), ⟨15, 9, 3, .rdX, 0x81, 0, 0, none, false, 0, false⟩,
    { ready with coh := { (ready).coh with txns := [⟨15, 9, 3, .rdX, 0x81, 0, 0, none, false, 0, false⟩], answers := [(15, 7, 8, .miss), (15, 7, 9, .dirty (List.replicate 128 0x5A))] } },
    canonical_of (by decide +kernel), by decide +kernel⟩,
  ⟨15, 7, 9, ⟨15, 9, 3, .rdX, 0x81, 0, 0x80, none, false, 0, false⟩,
    { ready with coh := { (ready).coh with txns := [⟨15, 9, 3, .rdX, 0x81, 0, 0x80, none, false, 0, false⟩], answers := [(15, 7, 8, .miss), (15, 7, 9, .inFlight)] } },
    canonical_of (by decide +kernel), by decide +kernel⟩⟩

theorem witness_LinesMoveBetweenCachesAndMemory_1 :
    (∃ (k m line : Nat) (l : CLine) (s : State), s.canonical ∧ k < 16 ∧ m < 8 ∧ domainLost s k = false ∧ (∀ r ∈
      s.coh.retries, ¬(r.part = k ∧ r.line = line ∧ r.back = true)) ∧ (∀ r ∈ s.coh.waits, ¬(r.1 = k ∧ homeOf r.2.2.1
      = homeOf line)) ∧ lineTxn s k line = none ∧ ownedLine s k line = true ∧ holdersOf s k line = 1 <<< m ∧ cached s
      k m line = some l ∧ Clean s (line * 128) 128 ∧ flightOf s k m line = none ∧ wbCredit s k m line = true ∧ l.st =
      LineState.modified) ∧
    (∃ (k m line : Nat) (l : CLine) (s : State), s.canonical ∧ k < 16 ∧ m < 8 ∧ domainLost s k = false ∧ (∀ r ∈
      s.coh.retries, ¬(r.part = k ∧ r.line = line ∧ r.back = true)) ∧ (∀ r ∈ s.coh.waits, ¬(r.1 = k ∧ homeOf r.2.2.1
      = homeOf line)) ∧ lineTxn s k line = none ∧ ownedLine s k line = true ∧ holdersOf s k line = 1 <<< m ∧ cached s
      k m line = some l ∧ Clean s (line * 128) 128 ∧ flightOf s k m line = none ∧ wbCredit s k m line = true ∧ l.st =
      LineState.exclusive) ∧
    (∃ (k m line : Nat) (b : Bytes) (l : CLine) (x : Txn) (s : State), s.canonical ∧ k < 16 ∧ m < 8 ∧ domainLost s k
      = false ∧ (∀ r ∈ s.coh.retries, ¬(r.part = k ∧ r.line = line ∧ r.back = true)) ∧ (∀ r ∈ s.coh.waits, ¬(r.1 = k
      ∧ homeOf r.2.2.1 = homeOf line)) ∧ lineTxn s k line = some x ∧ x.pos = m ∧ x.phase = 2 ∧ x.dirty = some b ∧
      (List.countP (fun l => decide (l.part = k) && decide (l.pos = m)) s.coh.lines < 12 ∨ (cached s k m line).isSome
      = true) ∧ (x.req = CohReq.rdS ∨ x.req = CohReq.rdX) ∧ ownedLine s k line = true ∧ (x.req = CohReq.rdS ∨ x.req =
      CohReq.rdX ∨ x.req = CohReq.upg) ∧ (cached s k m line).isSome = true) ∧
    (∃ (k m line : Nat) (b : Bytes) (l : CLine) (x : Txn) (s : State), s.canonical ∧ k < 16 ∧ m < 8 ∧ domainLost s k
      = false ∧ (∀ r ∈ s.coh.retries, ¬(r.part = k ∧ r.line = line ∧ r.back = true)) ∧ (∀ r ∈ s.coh.waits, ¬(r.1 = k
      ∧ homeOf r.2.2.1 = homeOf line)) ∧ lineTxn s k line = some x ∧ x.pos = m ∧ x.phase = 2 ∧ x.dirty = some b ∧
      (List.countP (fun l => decide (l.part = k) && decide (l.pos = m)) s.coh.lines < 12 ∨ (cached s k m line).isSome
      = true) ∧ (x.req = CohReq.rdS ∨ x.req = CohReq.rdX) ∧ ownedLine s k line = false) ∧
    (∃ (k m line : Nat) (b : Bytes) (l : CLine) (x : Txn) (s : State), s.canonical ∧ k < 16 ∧ m < 8 ∧ domainLost s k
      = false ∧ (∀ r ∈ s.coh.retries, ¬(r.part = k ∧ r.line = line ∧ r.back = true)) ∧ (∀ r ∈ s.coh.waits, ¬(r.1 = k
      ∧ homeOf r.2.2.1 = homeOf line)) ∧ lineTxn s k line = some x ∧ x.pos = m ∧ x.phase = 2 ∧ x.dirty = some b ∧
      x.req = CohReq.upg ∧ cached s k m line = some l ∧ l.st = LineState.shared) ∧
    (∃ (k m line : Nat) (b : Bytes) (x : Txn) (s : State), s.canonical ∧ k < 16 ∧ m < 8 ∧ domainLost s k = false ∧ (∀
      r ∈ s.coh.retries, ¬(r.part = k ∧ r.line = line ∧ r.back = true)) ∧ (∀ r ∈ s.coh.waits, ¬(r.1 = k ∧ homeOf
      r.2.2.1 = homeOf line)) ∧ lineTxn s k line = some x ∧ x.pos = m ∧ x.phase = 2 ∧ x.dirty = some b ∧ x.req =
      CohReq.rdOnce) :=
  ⟨⟨15, 7, (quayBase 15 / 128 + 3), ⟨15, 7, (quayBase 15 / 128 + 3), .modified, (List.replicate 128 0x5A)⟩,
    { (poke ready (128*(quayBase 15 / 128 + 3)) 0x11) with coh := { ((poke ready (128*(quayBase 15 / 128 + 3)) 0x11)).coh with dir := [⟨15, (quayBase 15 / 128 + 3), 2, true, 0x80⟩], lines := [⟨15, 7, (quayBase 15 / 128 + 3), .modified, (List.replicate 128 0x5A)⟩] } },
    canonical_of (by decide +kernel), by decide +kernel⟩,
  ⟨15, 7, (quayBase 15 / 128 + 3), ⟨15, 7, (quayBase 15 / 128 + 3), .exclusive, (List.replicate 128 0x5A)⟩,
    { (poke ready (128*(quayBase 15 / 128 + 3)) 0x11) with coh := { ((poke ready (128*(quayBase 15 / 128 + 3)) 0x11)).coh with dir := [⟨15, (quayBase 15 / 128 + 3), 2, true, 0x80⟩], lines := [⟨15, 7, (quayBase 15 / 128 + 3), .exclusive, (List.replicate 128 0x5A)⟩] } },
    canonical_of (by decide +kernel), by decide +kernel⟩,
  ⟨15, 7, 9, (List.replicate 128 0x5A), ⟨15, 7, 9, .shared, (List.replicate 128 0x5A)⟩, ⟨15, 9, 7, .rdS, 0, 0, 0,
    some (List.replicate 128 0x5A), false, 2, false⟩,
    { ready with coh := { (ready).coh with txns := [⟨15, 9, 7, .rdS, 0, 0, 0, some (List.replicate 128 0x5A), false, 2, false⟩], dir := [⟨15, 9, 1, true, 0x80⟩], lines := [⟨15, 7, 9, .shared, (List.replicate 128 0x5A)⟩] } },
    canonical_of (by decide +kernel), by decide +kernel⟩,
  ⟨15, 7, 9, (List.replicate 128 0x5A), ⟨15, 7, 9, .shared, (List.replicate 128 0x5A)⟩, ⟨15, 9, 7, .rdS, 0, 0, 0,
    some (List.replicate 128 0x5A), false, 2, false⟩,
    { ready with coh := { (ready).coh with txns := [⟨15, 9, 7, .rdS, 0, 0, 0, some (List.replicate 128 0x5A), false, 2, false⟩], dir := [⟨15, 9, 1, false, 0x80⟩], lines := [⟨15, 7, 9, .shared, (List.replicate 128 0x5A)⟩] } },
    canonical_of (by decide +kernel), by decide +kernel⟩,
  ⟨15, 7, 9, (List.replicate 128 0x5A), ⟨15, 7, 9, .shared, (List.replicate 128 0x5A)⟩, ⟨15, 9, 7, .upg, 0, 0, 0,
    some (List.replicate 128 0x5A), false, 2, false⟩,
    { ready with coh := { (ready).coh with txns := [⟨15, 9, 7, .upg, 0, 0, 0, some (List.replicate 128 0x5A), false, 2, false⟩], dir := [⟨15, 9, 1, true, 0x80⟩], lines := [⟨15, 7, 9, .shared, (List.replicate 128 0x5A)⟩] } },
    canonical_of (by decide +kernel), by decide +kernel⟩,
  ⟨15, 7, 9, (List.replicate 128 0x5A), ⟨15, 9, 7, .rdOnce, 0, 0, 0, some (List.replicate 128 0x5A), false, 2,
    false⟩,
    { ready with coh := { (ready).coh with txns := [⟨15, 9, 7, .rdOnce, 0, 0, 0, some (List.replicate 128 0x5A), false, 2, false⟩], dir := [⟨15, 9, 1, false, 0x80⟩], lines := [⟨15, 7, 9, .shared, (List.replicate 128 0x5A)⟩] } },
    canonical_of (by decide +kernel), by decide +kernel⟩⟩

theorem witness_LinesMoveBetweenCachesAndMemory_2 :
    (∃ (k m line : Nat) (b : Bytes) (x : Txn) (s : State), s.canonical ∧ k < 16 ∧ m < 8 ∧ domainLost s k = false ∧ (∀
      r ∈ s.coh.retries, ¬(r.part = k ∧ r.line = line ∧ r.back = true)) ∧ (∀ r ∈ s.coh.waits, ¬(r.1 = k ∧ homeOf
      r.2.2.1 = homeOf line)) ∧ lineTxn s k line = some x ∧ x.pos = m ∧ x.phase = 2 ∧ x.dirty = some b ∧ writingReq
      x.req = true) ∧
    (∃ (k m line : Nat) (b : Bytes) (l : CLine) (x : Txn) (s : State), s.canonical ∧ k < 16 ∧ m < 8 ∧ domainLost s k
      = false ∧ (∀ r ∈ s.coh.retries, ¬(r.part = k ∧ r.line = line ∧ r.back = true)) ∧ (∀ r ∈ s.coh.waits, ¬(r.1 = k
      ∧ homeOf r.2.2.1 = homeOf line)) ∧ lineTxn s k line = some x ∧ x.phase = 1 ∧ reqHint x.req % 8 = m ∧ x.dirty =
      some b ∧ hintUsable s k (reqHint x.req) = true ∧ (dirSetEntries s k line).length < 12 ∧ (List.countP (fun l =>
      decide (l.part = k) && decide (l.pos = m)) s.coh.lines < 12 ∨ (cached s k m line).isSome = true)) ∧
    (∃ (k m line : Nat) (x : Txn) (s : State), s.canonical ∧ k < 16 ∧ m < 8 ∧ domainLost s k = false ∧ (∀ r ∈
      s.coh.retries, ¬(r.part = k ∧ r.line = line ∧ r.back = true)) ∧ (∀ r ∈ s.coh.waits, ¬(r.1 = k ∧ homeOf r.2.2.1
      = homeOf line)) ∧ lineTxn s k line = some x ∧ x.phase = 3 ∧ reqHint x.req % 8 = m) :=
  ⟨⟨15, 7, 9, (List.replicate 128 0x5A), ⟨15, 9, 7, .wrLine (List.replicate 128 0x5A) 0, 0, 0, 0, some
    (List.replicate 128 0x5A), false, 2, false⟩,
    { ready with coh := { (ready).coh with txns := [⟨15, 9, 7, .wrLine (List.replicate 128 0x5A) 0, 0, 0, 0, some (List.replicate 128 0x5A), false, 2, false⟩], dir := [⟨15, 9, 1, false, 0x80⟩], lines := [⟨15, 7, 9, .shared, (List.replicate 128 0x5A)⟩] } },
    canonical_of (by decide +kernel), by decide +kernel⟩,
  ⟨15, 7, 9, (List.replicate 128 0x5A), ⟨0, 0, 0, .shared, []⟩, ⟨15, 9, 17, .wrLine (List.replicate 128 0x5A) 15, 0,
    0, 0, some (List.replicate 128 0x5A), false, 1, false⟩,
    { wb ready (pgPart 15) Reg.COH_CFG 16 true with coh := { (wb ready (pgPart 15) Reg.COH_CFG 16 true).coh with txns := [⟨15, 9, 17, .wrLine (List.replicate 128 0x5A) 15, 0, 0, 0, some (List.replicate 128 0x5A), false, 1, false⟩] } },
    canonical_of (by decide +kernel), by decide +kernel⟩,
  ⟨15, 7, 9, ⟨15, 9, 17, .wrLine (List.replicate 128 0x5A) 15, 0, 0, 0, some (List.replicate 128 0x5A), false, 3,
    false⟩,
    { wb ready (pgPart 15) Reg.COH_CFG 16 true with coh := { (wb ready (pgPart 15) Reg.COH_CFG 16 true).coh with txns := [⟨15, 9, 17, .wrLine (List.replicate 128 0x5A) 15, 0, 0, 0, some (List.replicate 128 0x5A), false, 3, false⟩] } },
    canonical_of (by decide +kernel), by decide +kernel⟩⟩

theorem witness_ALostDomainEndsItsPartition :
    (∃ (k pos line : Nat) (x : Txn) (r : RetryRes) (s : State), s.canonical ∧ k < 16 ∧ pos < 18 ∧ domainLost s k =
      false ∧ (lineTxn s k line = some x ∧ (x.await.testBit pos = true ∨ x.notices.testBit pos = true) ∨ r ∈
      s.coh.retries ∧ r.part = k ∧ r.line = line ∧ r.pos = pos ∧ r.back = false) ∧ cachingPos s k pos = false ∧ 8 ≤
      pos) ∧
    (∃ (k pos line : Nat) (s : State), s.canonical ∧ k < 16 ∧ pos < 18 ∧ domainLost s k = false ∧ pos < 8 ∧ flightOf
      s k pos line = none ∧ cached s k pos line = none ∧ ownedLine s k line = false ∧ lineTxn s k line = none) ∧
    (∃ (k pos line : Nat) (s : State), s.canonical ∧ k < 16 ∧ pos < 18 ∧ domainLost s k = false ∧ cachingPos s k pos
      = false ∧ agentPos s k pos = true ∧ ownRange k (line * 128) 128 = true) :=
  ⟨⟨15, 17, 9, ⟨15, 9, 3, .rdX, 0, 0x20000, 0, none, false, 0, false⟩, ⟨0, 0, 0, .rdS, false⟩,
    { ready with coh := { (ready).coh with txns := [⟨15, 9, 3, .rdX, 0, 0x20000, 0, none, false, 0, false⟩] } },
    canonical_of (by decide +kernel), by decide +kernel⟩,
  ⟨15, 3, (quayBase 15 / 128 + 3),
    { ready with coh := { (ready).coh with txns := [⟨15, 9, 3, .rdX, 0, 0x20000, 0, none, false, 0, false⟩] } },
    canonical_of (by decide +kernel), by decide +kernel⟩,
  ⟨0, 15, 7, wr (siteUp (live 2) 3) (pgSite 3) Reg.SITE_ADMIT 1, canonical_of (by decide +kernel),
    by decide +kernel⟩⟩

end Coherence

namespace Sites

def entry0 : Bytes := List.replicate 8 0 ++ [0xF] ++ List.replicate 119 0

def cand : Machine.State := wr (wf (page ready (pgSite 3) 2 1) (pgSite 3) Reg.PAGE_STAT 8 8 2) (pgSite 3) (Reg.SITE_IDENT 0) (w64 (1 <<< 48 + 1 <<< 56))

def adm : Machine.State := wr (siteUp ready 3) (pgSite 3) Reg.SITE_ADMIT 0x8101

def fl (body : Bytes) : Bytes := body ++ natBytes (crc32c body) 4

def fl0 (q a f n : Nat) : Bytes := fl (natBytes q 2 ++ natBytes a 2 ++ natBytes f 1 ++ natBytes n 1 ++ List.replicate 246 7)

def up3 : Machine.State := poke (siteUp (live 2) 3) 0x4000 0x1234
def tk (s : Machine.State) (ty len : Nat) (dt mk : Bytes) : Machine.State := begun (siteTaken s 3 ty (flitHead ty 5 len) 0x4000 dt mk)
def tr (s : Machine.State) (ty len : Nat) (dt mk : Bytes) (wr : Bool) : Machine.State := (translate (tk s ty len dt mk) 0 167 0x4000 len wr).2


def sub : Machine.State := siteUp (collecting (tensorDesc 0x62 9 0 9 0 1 1 2)) 3

theorem witness_SitesTrainAndAreAdmitted :
    (∃ (t i : Nat) (s : State), s.canonical ∧ t < 4 ∧ i < 16 ∧ s.sites.length = 4 ∧ pageState s (pgSite t) ≠ 0 ∧
      siteAt s t 2 1 = true ∧ s.board.siteRails.testBit t = true ∧ pgSite t ∉ s.boot.railFaults) ∧
    (∃ (t i : Nat) (s : State), s.canonical ∧ t < 4 ∧ i < 16 ∧ s.sites.length = 4 ∧ siteAt s t 2 2 = true ∧ i ∉
      (siteOf s t).idSeen ∧ (siteOf s t).idSeen.length < 15) ∧
    (∃ (t i up x32 gts : Nat) (s : State), s.canonical ∧ t < 4 ∧ i < 16 ∧ s.sites.length = 4 ∧ siteAt s t 2 3 = true
      ∧ 16 ≤ halvesOf (up &&& (65535 ^^^ (barred s t).1)) (x32 ||| (barred s t).2) ∧ (gts ∈ [4, 8, 12, 16, 24, 32]) ∧
      gts ≤ maxGts s t) ∧
    (∃ (t i : Nat) (v : Word) (s : State) (n : Nat), s.canonical ∧ t < 4 ∧ i < 16 ∧ s.sites.length = 4 ∧ siteAt s t 2
      2 = true ∧ i ∉ (siteOf s t).idSeen ∧ (siteOf s t).idSeen.length = 15 ∧ identOk (identity (wr s (pgSite t)
      (Reg.SITE_IDENT i) v) t) = true ∧ (List.findIdx? (fun m => decide (m = 4)) (List.map (entryMatch t (identity
      (wr s (pgSite t) (Reg.SITE_IDENT i) v) t)) (siteOf s t).list) = some n) ∧ n < 16) ∧
    (∃ (t i : Nat) (s : State) (c : Nat), s.canonical ∧ t < 4 ∧ i < 16 ∧ s.sites.length = 4 ∧ siteAdmitted s t = true
      ∧ 5 ≤ c ∧ c ≤ 7) :=
  ⟨⟨3, 15, wf (page ready (pgSite 3) 2 1) (pgSite 3) Reg.PAGE_STAT 8 8 1, canonical_of (by decide +kernel),
    by decide +kernel⟩,
  ⟨3, 15, wf (page ready (pgSite 3) 2 1) (pgSite 3) Reg.PAGE_STAT 8 8 2, canonical_of (by decide +kernel),
    by decide +kernel⟩,
  ⟨3, 15, 65535, 0, 32,
    { wf (page ready (pgSite 3) 2 1) (pgSite 3) Reg.PAGE_STAT 8 8 3 with flash := { ready.flash with fieldMap := { ready.flash.fieldMap with modules := [(3, 2), (1, 5)], halves := [(3, 4, 1)] } } },
    canonical_of (by decide +kernel), by decide +kernel⟩,
  ⟨3, 15, 0,
    { cand with sites := (cand).sites.set 3 { siteReset with idSeen := List.range 15, list := [List.replicate 128 1, entry0] } },
    1, canonical_of (by decide +kernel), by decide +kernel⟩,
  ⟨3, 15, siteUp (live 2) 3, 5, canonical_of (by decide +kernel), by decide +kernel⟩⟩

theorem witness_SitesAreAssignedAndKeptUp_1 :
    (∃ (fn t m k : Nat) (v : Word) (flit : Bytes) (s : State), s.canonical ∧ t < 4 ∧ m < 16 ∧ s.sites.length = 4 ∧
      (siteOf s t).modStat.length = 16 ∧ MayWrite s fn (pgSite t) Reg.SITE_ASSIGN ∧ (∀ k < 16, partState s k ≠ 3 ∧
      partState s k ≠ 4 ∧ sealHeld s k = false) ∧ fld v 16 16 &&& fld v 0 16 = fld v 16 16 ∧ siteAdmitted s t = true
      ∧ rb s (pgSite t) Reg.SITE_ADMIT 15 = true ∧ rb s (pgSite t) Reg.SITE_CFG 0 = false ∧ m ∉ (siteOf s t).retrain
      ∧ rb s (pgSite t) Reg.SITE_LINK m = true ∧ MayWrite s fn (pgSite t) Reg.SITE_CMD ∧ siteAt s t 3 4 = true ∧ rf s
      (pgSite t) Reg.SITE_MOD_SEL 0 4 = m ∧ List.length flit = 256 ∧ (m ∈ activeModules s t) ∧ crc32c (slice flit 0
      252) ≠ leAt flit 252 4 ∧ (List.countP (fun x => decide (x.1 = m)) (List.filter (fun x => decide (BitVec.toNat
      (rd s pgErr Reg.ERR_TIME) < x.2 + 25000)) (siteOf s t).crcErrs) < 16) ∧ (k ∈ (siteOf s t).resetWait)) ∧
    (∃ (t m : Nat) (s : State) (gone : Nat), s.canonical ∧ t < 4 ∧ m < 16 ∧ s.sites.length = 4 ∧ (siteOf s
      t).modStat.length = 16 ∧ (siteOf s t).assigning = some gone ∧ (∀ q ∈ s.siteReqs, ¬(q.site = t ∧ gone.testBit
      q.part = true))) ∧
    (∃ (t m : Nat) (s : State), s.canonical ∧ t < 4 ∧ m < 16 ∧ s.sites.length = 4 ∧ (siteOf s t).modStat.length = 16
      ∧ (m ∈ (siteOf s t).retrain)) ∧
    (∃ (t m : Nat) (flit : Bytes) (s : State), s.canonical ∧ t < 4 ∧ m < 16 ∧ s.sites.length = 4 ∧ (siteOf s
      t).modStat.length = 16 ∧ siteAdmitted s t = true ∧ List.length flit = 256 ∧ (m ∈ activeModules s t) ∧ crc32c
      (slice flit 0 252) = leAt flit 252 4 ∧ (siteOf s t).toSend = [] ∧ leAt flit 5 1 ≤ 15 ∧ (siteOf s t).rxAck <
      65536 ∧ leAt flit 4 1 = 0 ∧ leAt flit 0 2 = ((siteOf s t).rxAck + 1) % 65536 ∧ (siteOf s t).rxHeld = []) ∧
    (∃ (t m : Nat) (flit : Bytes) (s : State), s.canonical ∧ t < 4 ∧ m < 16 ∧ s.sites.length = 4 ∧ (siteOf s
      t).modStat.length = 16 ∧ siteAdmitted s t = true ∧ List.length flit = 256 ∧ (m ∈ activeModules s t) ∧ crc32c
      (slice flit 0 252) ≠ leAt flit 252 4 ∧ (16 ≤ List.countP (fun x => decide (x.1 = m)) (List.filter (fun x =>
      decide (BitVec.toNat (rd s pgErr Reg.ERR_TIME) < x.2 + 25000)) (siteOf s t).crcErrs))) ∧
    (∃ (t m : Nat) (flit : Bytes) (s : State), s.canonical ∧ t < 4 ∧ m < 16 ∧ s.sites.length = 4 ∧ (siteOf s
      t).modStat.length = 16 ∧ siteAdmitted s t = true ∧ List.length flit = 256 ∧ (m ∈ activeModules s t) ∧ crc32c
      (slice flit 0 252) = leAt flit 252 4 ∧ (siteOf s t).toSend = [] ∧ leAt flit 5 1 ≤ 15 ∧ (siteOf s t).rxAck <
      65536 ∧ leAt flit 4 1 = 1 ∧ leAt flit 0 2 = (siteOf s t).rxAck ∧ (leAt flit 2 2 + 65536 - (siteOf s t).txAck) %
      65536 ≤ unacked (siteOf s t)) :=
  ⟨⟨0, 3, 15, 0, 0, List.replicate 256 0,
    { wf adm (pgSite 3) Reg.SITE_MOD_SEL 0 4 15 with sites := (wf adm (pgSite 3) Reg.SITE_MOD_SEL 0 4 15).sites.set 3 { siteReset with retrain := [1], resetWait := [0, 1], sent := [(3, 15), (4, 2), (5, 15), (6, 15)], txNext := 7, txAck := 2 } },
    canonical_of (by decide +kernel), by decide +kernel⟩,
  ⟨3, 15,
    { { adm with xlat := { adm.xlat with micro := [⟨3, 167, 0, 1, 0x7F, 0⟩] } } with sites := ({ adm with xlat := { adm.xlat with micro := [⟨3, 167, 0, 1, 0x7F, 0⟩] } }).sites.set 3 { siteReset with assigning := some 2 } },
    2, canonical_of (by decide +kernel), by decide +kernel⟩,
  ⟨3, 15,
    { adm with sites := (adm).sites.set 3 { siteReset with retrain := [1, 15], modStat := (List.replicate 15 0 ++ [1]) } },
    canonical_of (by decide +kernel), by decide +kernel⟩,
  ⟨3, 15, fl0 0 0 0 15, { adm with sites := (adm).sites.set 3 { siteReset with rxAck := 0xFFFF } }, canonical_of
    (by decide +kernel), by decide +kernel⟩,
  ⟨3, 15, (fl0 5 0 0 15).set 100 1,
    { wr adm pgErr Reg.ERR_TIME 30000 with sites := (wr adm pgErr Reg.ERR_TIME 30000).sites.set 3 { siteReset with rxAck := 4, crcErrs := [(15, 4000)] ++ (List.replicate 16 (15, 9000)) ++ [(2, 29000)] } },
    canonical_of (by decide +kernel), by decide +kernel⟩,
  ⟨3, 15, fl0 4 3 1 0,
    { adm with sites := (adm).sites.set 3 { siteReset with rxAck := 4, sent := [(3, 15), (4, 2), (5, 1)], txNext := 6, txAck := 2 } },
    canonical_of (by decide +kernel), by decide +kernel⟩⟩

theorem witness_SitesAreAssignedAndKeptUp_2 :
    ∃ (t m : Nat) (flit : Bytes) (s : State), s.canonical ∧ t < 4 ∧ m < 16 ∧ s.sites.length = 4 ∧ (siteOf s
      t).modStat.length = 16 ∧ siteAdmitted s t = true ∧ List.length flit = 256 ∧ (m ∈ activeModules s t) ∧ crc32c
      (slice flit 0 252) = leAt flit 252 4 ∧ 15 < leAt flit 5 1 :=
  ⟨3, 15, fl0 5 0 0 16, { adm with sites := (adm).sites.set 3 { siteReset with rxAck := 4 } }, canonical_of
    (by decide +kernel), by decide +kernel⟩

theorem witness_ChipletRequestsRunAndAreAnswered_1 :
    (∃ (t pa : Nat) (h0 h1 : Word) (d : Option Bytes) (ok nc : Bool) (s s1 s2 : State), s.canonical ∧
      Machine.translate (begun (siteTaken s t 1 h0 h1 [] [])) (hPart h0) (164 + t) (hAddr h1) (hLen (setFld h0 0 8
      1)) false = (XRes.ok pa nc, s1) ∧ memRead s1 (hPart h0) (164 + t) pa (hLen (setFld h0 0 8 1)) nc = (d, s2) ∧ t
      < 4 ∧ siteAdmitted s t = true ∧ (knownType (fld h0 0 8) = true ∧ noCredit s t (hPart h0) = false ∧ ingressCheck
      (begun (siteTaken s t 1 h0 h1 [] [])) t h0 (isCaching 1) = none ∧ shapeOk 1 h0 h1 0 0 = true) ∧ ((endAccess s2
      (siteEntry t 1 h0 h1 [] []) pa (if d.isSome = true then 0 else 4) (d.getD [])).stalled = none)) ∧
    (∃ (t pa : Nat) (h0 h1 : Word) (data : Bytes) (ok nc : Bool) (s s1 s2 : State), s.canonical ∧ Machine.translate
      (begun (siteTaken s t 2 h0 h1 data [])) (hPart h0) (164 + t) (hAddr h1) (hLen (setFld h0 0 8 2)) true =
      (XRes.ok pa nc, s1) ∧ memWrite s1 (hPart h0) (164 + t) pa (hHint (setFld h0 0 8 2)) data nc = (ok, s2) ∧ t < 4
      ∧ siteAdmitted s t = true ∧ (knownType (fld h0 0 8) = true ∧ noCredit s t (hPart h0) = false ∧ ingressCheck
      (begun (siteTaken s t 2 h0 h1 data [])) t h0 (isCaching 2) = none ∧ shapeOk 2 h0 h1 (List.length data) 0 =
      true) ∧ ((endAccess s2 (siteEntry t 2 h0 h1 data []) pa (if ok = true then 0 else 4) []).stalled = none)) ∧
    (∃ (t pa : Nat) (h0 h1 : Word) (data mask : Bytes) (ok nc : Bool) (s s1 s2 : State), s.canonical ∧
      Machine.translate (begun (siteTaken s t 3 h0 h1 data mask)) (hPart h0) (164 + t) (hAddr h1) (hLen (setFld h0 0
      8 3)) true = (XRes.ok pa nc, s1) ∧ writeMasked s1 (hPart h0) (164 + t) pa (hHint (setFld h0 0 8 3)) (bytesNat
      mask) data nc = (ok, s2) ∧ t < 4 ∧ siteAdmitted s t = true ∧ (knownType (fld h0 0 8) = true ∧ noCredit s t
      (hPart h0) = false ∧ ingressCheck (begun (siteTaken s t 3 h0 h1 data mask)) t h0 (isCaching 3) = none ∧ shapeOk
      3 h0 h1 (List.length data) (List.length mask) = true) ∧ ((endAccess s2 (siteEntry t 3 h0 h1 data mask) pa (if
      ok = true then 0 else 4) []).stalled = none)) ∧
    (∃ (t pa : Nat) (h0 h1 : Word) (ok nc : Bool) (s s1 : State), s.canonical ∧ Machine.translate (begun (siteTaken s
      t 16 h0 h1 [] [])) (hPart h0) (164 + t) (hAddr h1) 128 false = (XRes.ok pa nc, s1) ∧ t < 4 ∧ siteAdmitted s t =
      true ∧ (knownType (fld h0 0 8) = true ∧ noCredit s t (hPart h0) = false ∧ ingressCheck (begun (siteTaken s t 16
      h0 h1 [] [])) t h0 (isCaching 16) = none ∧ shapeOk 16 h0 h1 0 0 = true) ∧ ((if nc = true then denyReq s1
      (siteEntry t 16 h0 h1 [] []) 15 else cohRequest (returnCredit
      { s1 with siteReqs := s1.siteReqs.erase (siteEntry t 16 h0 h1 [] []) } t (hPart h0)) (hPart h0) (12 + t) (pa /
      128) CohReq.rdS (bit (setFld h0 0 8 16) 15) false).stalled = none)) ∧
    (∃ (t pa : Nat) (h0 h1 : Word) (ok nc : Bool) (s s1 s2 : State), s.canonical ∧ Machine.translate (begun
      (siteTaken s t 17 h0 h1 [] [])) (hPart h0) (164 + t) (hAddr h1) 128 false = (XRes.ok pa nc, s1) ∧
      Machine.translate s1 (hPart h0) (164 + t) (hAddr h1) 0 true = (XRes.ok pa nc, s2) ∧ t < 4 ∧ siteAdmitted s t =
      true ∧ (knownType (fld h0 0 8) = true ∧ noCredit s t (hPart h0) = false ∧ ingressCheck (begun (siteTaken s t 17
      h0 h1 [] [])) t h0 (isCaching 17) = none ∧ shapeOk 17 h0 h1 0 0 = true) ∧ ((if nc = true then denyReq s2
      (siteEntry t 17 h0 h1 [] []) 15 else cohRequest (returnCredit
      { s2 with siteReqs := s2.siteReqs.erase (siteEntry t 17 h0 h1 [] []) } t (hPart h0)) (hPart h0) (12 + t) (pa /
      128) CohReq.rdX (bit (setFld h0 0 8 17) 15) false).stalled = none)) ∧
    (∃ (t pa : Nat) (h0 h1 : Word) (ok nc : Bool) (s s1 s2 : State), s.canonical ∧ Machine.translate (begun
      (siteTaken s t 18 h0 h1 [] [])) (hPart h0) (164 + t) (hAddr h1) 128 false = (XRes.ok pa nc, s1) ∧
      Machine.translate s1 (hPart h0) (164 + t) (hAddr h1) 0 true = (XRes.ok pa nc, s2) ∧ t < 4 ∧ siteAdmitted s t =
      true ∧ (knownType (fld h0 0 8) = true ∧ noCredit s t (hPart h0) = false ∧ ingressCheck (begun (siteTaken s t 18
      h0 h1 [] [])) t h0 (isCaching 18) = none ∧ shapeOk 18 h0 h1 0 0 = true) ∧ ((if nc = true then denyReq s2
      (siteEntry t 18 h0 h1 [] []) 15 else cohRequest (returnCredit
      { s2 with siteReqs := s2.siteReqs.erase (siteEntry t 18 h0 h1 [] []) } t (hPart h0)) (hPart h0) (12 + t) (pa /
      128) CohReq.upg (bit (setFld h0 0 8 18) 15) false).stalled = none)) :=
  ⟨⟨3, 0x4000, (flitHead 1 5 8), 0x4000, (memRead (tr (up3) 1 8 [] [] false) 0 167 0x4000 8 false).1, true, false,
    up3, _, _, canonical_of (by decide +kernel), pair_of (by decide +kernel), pair_of (by decide +kernel),
    by decide +kernel⟩,
  ⟨3, 0x4000, (flitHead 2 5 32), 0x4000, (List.replicate 32 0x5A), true, false, up3, _, _, canonical_of
    (by decide +kernel), pair_of (by decide +kernel), pair_of (by decide +kernel), by decide +kernel⟩,
  ⟨3, 0x4000, (flitHead 3 5 128), 0x4000, (List.replicate 128 0x5A), (List.replicate 16 0x5A), true, false, up3, _,
    _, canonical_of (by decide +kernel), pair_of (by decide +kernel), pair_of (by decide +kernel),
    by decide +kernel⟩,
  ⟨3, 0x4000, (flitHead 16 5 128), 0x4000, true, false, up3, _, canonical_of (by decide +kernel), pair_of
    (by decide +kernel), by decide +kernel⟩,
  ⟨3, 0x4000, (flitHead 17 5 128), 0x4000, true, false, up3, _, _, canonical_of (by decide +kernel), pair_of
    (by decide +kernel), pair_of (by decide +kernel), by decide +kernel⟩,
  ⟨3, 0x4000, (flitHead 18 5 128), 0x4000, true, false, up3, _, _, canonical_of (by decide +kernel), pair_of
    (by decide +kernel), pair_of (by decide +kernel), by decide +kernel⟩⟩

theorem witness_ChipletRequestsRunAndAreAnswered_2 :
    (∃ (t : Nat) (h0 h1 : Word) (s : State), s.canonical ∧ t < 4 ∧ siteAdmitted s t = true ∧ noCredit s t (hPart h0)
      = false ∧ rb s (pgSite t) Reg.SITE_CFG 1 = false ∧ siteEntry t 1 h0 h1 [] [] ∉ s.siteReqs ∧ (knownType (fld h0
      0 8) = false ∨ hAgent h0 < rf s (pgSite t) Reg.SITE_ADMIT 8 4 ∧ (rf s (pgSite t) Reg.SITE_ASSIGN 0 16).testBit
      (hPart h0) = false)) ∧
    (∃ (t : Nat) (h0 : Word) (s : State), s.canonical ∧ t < 4 ∧ siteAdmitted s t = true ∧ noCredit s t (hPart h0) =
      true) ∧
    (∃ (t : Nat) (h0 : Word) (s : State) (q : SiteReq) (tag st : Nat), s.canonical ∧ t < 4 ∧ siteAdmitted s t = true
      ∧ q.held = none ∧ q.waiting = none ∧ q.ended = some st ∧ q.owed = false ∧ LinkOpen s t (ceilDiv (chunksOf
      q.resp) 15) ∧ ((findReq s t tag fun ty => isRead ty || isCaching ty || !knownType ty) = some q) ∧ fld q.h0 0 8
      ≠ 32) ∧
    (∃ (t : Nat) (s : State) (q : SiteReq) (tag st : Nat), s.canonical ∧ t < 4 ∧ siteAdmitted s t = true ∧ q.held =
      none ∧ q.waiting = none ∧ q.ended = some st ∧ q.owed = false ∧ LinkOpen s t (ceilDiv (chunksOf q.resp) 15) ∧
      ((findReq s t tag fun ty => decide (ty = 2) || decide (ty = 3) || decide (ty = 32)) = some q)) :=
  ⟨⟨3, (flitHead 1 5 8), 0x4000, wr up3 (pgSite 3) Reg.SITE_ASSIGN 0xFFFE, canonical_of (by decide +kernel),
    by decide +kernel⟩,
  ⟨3, (flitHead 1 5 8), { up3 with sites := up3.sites.set 3 { siteReset with kept := [32] ++ List.replicate 15 0 } },
    canonical_of (by decide +kernel), by decide +kernel⟩,
  ⟨3, (flitHead 1 5 8),
    { up3 with siteReqs := [⟨3, 4095, flitHead 1 4095 8, 0, [], [], 0, none, none, some 7, [1], none, false⟩] }, ⟨3,
    4095, flitHead 1 4095 8, 0, [], [], 0, none, none, some 7, [1], none, false⟩, 4095, 7, canonical_of
    (by decide +kernel), by decide +kernel⟩,
  ⟨3, { up3 with siteReqs := [⟨3, 4095, flitHead 2 4095 8, 0, [], [], 0, none, none, some 7, [1], none, false⟩] },
    ⟨3, 4095, flitHead 2 4095 8, 0, [], [], 0, none, none, some 7, [1], none, false⟩, 4095, 7, canonical_of
    (by decide +kernel), by decide +kernel⟩⟩

theorem witness_ChipletCoherenceAndSubmissions :
    (∃ (t : Nat) (h0 h1 : Word) (x : Txn) (s : State), s.canonical ∧ t < 4 ∧ siteAdmitted s t = true ∧ hAgent h0 < rf
      s (pgSite t) Reg.SITE_ADMIT 8 4 ∧ (rf s (pgSite t) Reg.SITE_ASSIGN 16 16).testBit (hPart h0) = true ∧
      domainLost s (hPart h0) = false ∧ lineTxn s (hPart h0) (fld h1 0 46 / 128) = some x ∧ x.pos = 12 + t ∧
      cachingReq x.req = true ∧ x.phase = 2 ∧ fld h0 48 8 < 4) ∧
    (∃ (t : Nat) (h0 : Word) (s : State), s.canonical ∧ t < 4 ∧ siteAdmitted s t = true ∧ (¬hAgent h0 < rf s (pgSite
      t) Reg.SITE_ADMIT 8 4 ∨ (rf s (pgSite t) Reg.SITE_ASSIGN 16 16).testBit (hPart h0) = false)) ∧
    (∃ (t : Nat) (h0 h1 : Word) (data : Bytes) (s : State) (slot : RedSlot) (w : Work) (s1 : State) (st : Nat),
      s.canonical ∧ runSubmit (begun
      { (addReg s (pgSite t) Reg.SITE_RX_BYTES (16 + List.length data)) with siteReqs := s.siteReqs ++ [{ site := t, tag := hTag h0, h0 := setFld h0 0 8 32, h1 := h1, data := data, mask := [], part := hPart h0, held := none, waiting := none, ended := none, resp := [], pa := none, owed := false }] })
      w slot
      { site := t, tag := hTag h0, h0 := setFld h0 0 8 32, h1 := h1, data := data, mask := [], part := hPart h0, held := none, waiting := none, ended := none, resp := [], pa := none, owed := false }
      = (Except.ok st, s1) ∧ t < 4 ∧ siteAdmitted s t = true ∧ noCredit s t (hPart h0) = false ∧ ingressCheck (begun
      { (addReg s (pgSite t) Reg.SITE_RX_BYTES (16 + List.length data)) with siteReqs := s.siteReqs ++ [{ site := t, tag := hTag h0, h0 := setFld h0 0 8 32, h1 := h1, data := data, mask := [], part := hPart h0, held := none, waiting := none, ended := none, resp := [], pa := none, owed := false }] })
      t (setFld h0 0 8 32) false = none ∧ (List.find? (fun r => decide (r.part = hPart h0) && decide (r.slot = fld h1
      0 6)) s.slots = some slot) ∧ collector (begun
      { (addReg s (pgSite t) Reg.SITE_RX_BYTES (16 + List.length data)) with siteReqs := s.siteReqs ++ [{ site := t, tag := hTag h0, h0 := setFld h0 0 8 32, h1 := h1, data := data, mask := [], part := hPart h0, held := none, waiting := none, ended := none, resp := [], pa := none, owed := false }] })
      (hPart h0) (fld h1 0 6) = some w ∧ ((siteSend (returnCredit
      { s1 with siteReqs := List.filter (fun y => decide (y ≠ { site := t, tag := hTag h0, h0 := setFld h0 0 8 32, h1 := h1, data := data, mask := [], part := hPart h0, held := none, waiting := none, ended := none, resp := [], pa := none, owed := false })) s1.siteReqs }
      t (hPart h0)) t "RED_RSP" [hPart h0, hTag h0, st] []).stalled = none)) :=
  ⟨⟨3, w64 (0 <<< 48), w64 (127*128), ⟨0, 127, 15, .rdS, 0, 0, 0, none, false, 2, false⟩,
    { up3 with coh := { up3.coh with txns := [⟨0, 127, 15, .rdS, 0, 0, 0, none, false, 2, false⟩] } }, canonical_of
    (by decide +kernel), by decide +kernel⟩,
  ⟨3, 0x1000, wr up3 (pgSite 3) Reg.SITE_CFG 2, canonical_of (by decide +kernel), by decide +kernel⟩,
  ⟨3, flitHead 0 5 32, 63 + 1 <<< 16, List.replicate 32 1, sub, ⟨0, 63, 0, 0, []⟩, ⟨0, 0, 0, 168, tensorDesc 0x62 9 0
    9 0 1 1 2, .collect, [], 0⟩, _, 0, canonical_of (by decide +kernel), pair_of (by decide +kernel),
    by decide +kernel⟩⟩

end Sites

namespace Power

def pw : Machine.State := wr (wr (wr (wr (wr (live 2) pgPwr (Reg.PART_ALLOC 0) (w64 (3 + 12 <<< 8 + 12 <<< 16 + 300 <<< 32))) 128 Reg.EBUCKET 100) 128 Reg.EBUCKET_MAX 5000) 143 Reg.EBUCKET 7) 143 Reg.EBUCKET_MAX 0xFFFFFF

theorem witness_APowerPeriodRefillsTheBuckets :
    (∃ (k : Nat) (s : State), s.canonical ∧ k < 16 ∧ refilled s k = true ∧ rb s pgPwr Reg.PWR_CTL 0 = false) ∧
    (∃ (k : Nat) (s : State), s.canonical ∧ k < 16 ∧ refilled s k = true ∧ rb s pgPwr Reg.PWR_CTL 0 = true) :=
  ⟨⟨0, pw, canonical_of (by decide +kernel), by decide +kernel⟩,
  ⟨0, wb pw pgPwr Reg.PWR_CTL 0 true, canonical_of (by decide +kernel), by decide +kernel⟩⟩

theorem witness_PowerCommandsTakeEffect :
    (∃ (fn k i m : Nat) (v : Word) (s : State), s.canonical ∧ k < 16 ∧ i < 4 ∧ m < 8 ∧ (k ∈ s.pwr.raising) ∧
      s.board.thermtrip = false ∧ MayWrite s fn pgPwr Reg.PWR_CTL ∧ (if bit v 0 = true then fixOk s = true else
      anySealed s = false) ∧ s.pwr.tripDue = true) ∧
    (∃ (fn k i m : Nat) (v : Word) (s : State), s.canonical ∧ k < 16 ∧ i < 4 ∧ m < 8 ∧ MayWrite s fn pgPwr
      (Reg.PART_ALLOC k) ∧ 6 ≤ fld v 8 5 ∧ fld v 8 5 ≤ 20 ∧ 6 ≤ fld v 16 5 ∧ fld v 16 5 ≤ 12 ∧ (¬(rb s pgPwr
      Reg.PWR_CTL 0 = true ∧ sealHeld s k = true))) ∧
    (∃ (fn k i m : Nat) (v : Word) (s : State), s.canonical ∧ k < 16 ∧ i < 4 ∧ m < 8 ∧ MayWrite s fn pgPwr
      Reg.SITE_RELEASE ∧ (i ∈ s.pwr.stopped) ∧ fld v 0 4 = 1 <<< i ∧ s.sites.length = 4 ∧ (siteOf s i).toSend =
      []) :=
  ⟨⟨0, 0, 3, 7, 0,
    { wr (siteUp pw 3) 128 Reg.ECLOCKS 0x345 with pwr := { pw.pwr with raising := [0, 15], stopped := [3], tripDue := true } },
    canonical_of (by decide +kernel), by decide +kernel⟩,
  ⟨0, 15, 3, 7, 0xFFFF00FF000C0F07, wb pw pgPwr Reg.PWR_CTL 0 true, canonical_of (by decide +kernel),
    by decide +kernel⟩,
  ⟨0, 15, 3, 7, 0x88 - 0x80, { siteUp pw 3 with pwr := { pw.pwr with raising := [15], stopped := [1, 3] } },
    canonical_of (by decide +kernel), by decide +kernel⟩⟩

end Power

namespace Endpoint

def ep : Machine.State := { wr (page (page ready pgPcie 3 1) (pgDma 31) 3 1) pgPcie (Reg.DMA_ASSIGN 31) 0x90 with pcie := { ready.pcie with levels := levelMask ready } }

def dma (op dev len : Nat) : Machine.State :=
  let s := wr (wr (wr (wr (wr (page ready (pgDma 31) 3 1) pgPcie (Reg.DMA_ASSIGN 31) 0x80) (pgDma 31) Reg.DMA_RCFG 6) (pgDma 31) Reg.DMA_RING 0x10000) (pgDma 31) Reg.DMA_CPL 0x20000) (pgDma 31) Reg.DMA_TAIL 0x43
  let s := wr s (pgDma 31) Reg.DMA_HEAD 0x4200000042
  writeHost (poke s dev 0x1122334455667788) (0x10000 + 64 * 2) ([w64 (op + 0x20), 0x30000, w64 dev, w64 len, 0, 0, 0xAABBCCDD00112233, 0].flatMap wordBytes)

theorem witness_EndpointCommandsTakeEffect :
    (∃ (fn d : Nat) (s : State) (cf : CfgFn), s.canonical ∧ fn < 17 ∧ s.pcie.cfg.length = 17 ∧ s.pcie.link = true ∧
      rb s pgPcie Reg.FLR_STAT fn = false ∧ (d = 0 ∨ d = 1 ∨ d = 3) ∧ dState s fn ≠ d ∧ (¬(dState s fn = 3 ∧ d = 1))
      ∧ s.pcie.cfg[fn]? = some cf ∧ s.pcie.levels = levelMask s ∧ cfgLoaded s fn = true) ∧
    (∃ (fn rate width stream : Nat) (flit : Bool) (s : State) (x : IdeStream), s.canonical ∧ fn < 17 ∧
      s.pcie.cfg.length = 17 ∧ s.pcie.link = false ∧ s.board.perst = false ∧ s.boot.phase ≠ BootPhase.off ∧
      linkModeOk s rate width flit = true ∧ s.pcie.ide[stream]? = some x ∧ x.active.isSome = true) ∧
    (∃ (fn : Nat) (s : State), s.canonical ∧ fn < 17 ∧ s.pcie.cfg.length = 17 ∧ rb s pgPcie Reg.FLR_STAT fn =
      true) :=
  ⟨⟨16, 3, ep, cfgReset, canonical_of (by decide +kernel), by decide +kernel⟩,
  ⟨16, 6, 16, 0, true,
    { page ep pgPcie 2 1 with pcie := { ep.pcie with link := false, ide := [⟨[[], []], some 1⟩] } }, (⟨[[], []], some
    1⟩ : IdeStream), canonical_of (by decide +kernel), by decide +kernel⟩,
  ⟨16, wb ep pgPcie Reg.FLR_STAT 16 true, canonical_of (by decide +kernel), by decide +kernel⟩⟩

theorem witness_ChannelsFailAndAreAssigned :
    (∃ (fn c f tail : Nat) (v : Word) (s : State), s.canonical ∧ c < 32 ∧ s.chans.length = 32 ∧ chanFn s c = some f ∧
      chanOf s c = chanReset ∧ chanGo s c = true ∧ (mOp (dmaFetch s c) ≠ 1 ∨ f = 0 ∧ burstsLeft (dmaFetch s c) 0 = 1
      ∧ dmaCheck chanReset 0 (dmaFetch s c) = 0 ∧ mCtx (dmaFetch s c) = none ∧ mHash (dmaFetch s c) = false ∧
      physStatus s (mDev (dmaFetch s c) % 2 ^ 46) (mLen (dmaFetch s c)) = 0 ∧ cvuFor s c 0 = none) ∧ MayWrite s fn
      (pgDma c) Reg.DMA_TAIL ∧ (pageState s (pgDma c) = 3 ∨ pageState s (pgDma c) = 4) ∧ (tail % 2 ^ 32 + 2 ^ 32 -
      dmaHead s c) % 2 ^ 32 < 2 ^ 31 ∧ (tail % 2 ^ 32 + 2 ^ 32 - dmaDone s c) % 2 ^ 32 ≤ 2 ^ dmaLog s c ∧ MayWrite s
      fn pgPcie Reg.DMA_CTL ∧ actsOn s fn pgPcie true = true ∧ (bit v 0 = true ∨ ∀ k < 16, partState s k ≠ 4)) ∧
    (∃ (fn c f : Nat) (v : Word) (s : State), s.canonical ∧ c < 32 ∧ s.chans.length = 32 ∧ MayWrite s fn pgPcie
      (Reg.DMA_ASSIGN c) ∧ actsOn s fn pgPcie true = true ∧ pageState s (pgDma c) = 0 ∧ chanFn s c = none ∧ bit v 7 =
      true ∧ fld v 0 5 = f ∧ f ≤ 16 ∧ (f = 0 ∨ sealedNow s (f - 1) = false ∧ partState s (f - 1) ≠ 1)) :=
  ⟨⟨0, 31, 0, 0x43, 0x85, dma 2 0x5FFC 4, canonical_of (by decide +kernel), by decide +kernel⟩,
  ⟨0, 31, 5, 0x85, wr ready (pgDma 31) Reg.DMA_RCFG 7, canonical_of (by decide +kernel), by decide +kernel⟩⟩

end Endpoint

namespace Partitions

def pt (k st : Nat) : Machine.State := poke (wf (wf (page (page ready (128 + k) 3 1) pgSec 3 1) (128 + k) Reg.PART_STATE 0 4 st) pgSec Reg.GEOMETRY k 1 1) (0x10 + k * 0x0) 7

def busy (s : Machine.State) (k : Nat) : Machine.State :=
  { wr (wr (wr (wr (wf s (128 + k) (Reg.CTX_STATE 255) 0 3 2) (128 + k) (Reg.KEY_SLOT 3) 0x10021) (128 + k) (Reg.TENANT_KEY 1) 5) (128 + k) (Reg.CTX_OUT 255) 5) (128 + k) Reg.SCRUB_STAT (w64 (0 + 0xFFFFFFFF <<< 32)) with
    sec := { s.sec with sessions := [⟨k + 1, [], true, true⟩] }
    ten := { s.ten with sealing := [(k, [])], keys := [⟨k, 3, []⟩, ⟨k, 7, []⟩] }
    xlat := { s.xlat with slice := [⟨k, 0, 3, 0x7F, 0, false, false⟩] }
    coh := { s.coh with lost := [k], lines := [⟨k, 3, 4, .shared, []⟩], dir := [⟨k, 4, 0, false, 8⟩] } }

def busyk (s : Machine.State) (k : Nat) : Machine.State := { wr (wr s (128 + k) (Reg.KEY_SLOT 0) 0x10021) (128 + k) (Reg.MR 31 7) 9 with sec := { s.sec with sessions := [⟨k + 1, [], true, true⟩] }, ten := { s.ten with gens := [(16 * k + 2, 65535)], keys := [⟨k, 0, [1]⟩] } , xlat := { s.xlat with slice := [⟨14, 0, 3, w64 (0x10000 + 0x7F), 0, false, false⟩]} }

theorem witness_PartitionsAreEnabledResetAndScrubbed :
    (∃ (fn k x : Nat) (s : State), s.canonical ∧ k < 16 ∧ x < 256 ∧ MayWrite s fn (pgPart k) Reg.PART_CMD ∧ actsOn s
      fn (pgPart k) true = true ∧ partState s k = 2) ∧
    (∃ (fn k x : Nat) (s : State), s.canonical ∧ k < 16 ∧ x < 256 ∧ MayWrite s fn (pgPart k) Reg.PART_CMD ∧ actsOn s
      fn (pgPart k) true = true ∧ (partState s k = 3 ∨ partState s k = 4 ∨ partState s k = 5)) ∧
    (∃ (k x : Nat) (s : State), s.canonical ∧ k < 16 ∧ x < 256 ∧ partState s k = 6 ∧ partQuiet s k = true) ∧
    (∃ (fn k x : Nat) (s : State), s.canonical ∧ k < 16 ∧ x < 256 ∧ MayWrite s fn (pgPart k) Reg.PART_CMD ∧ actsOn s
      fn (pgPart k) true = true ∧ partState s k = 0 ∧ available s k = true) ∧
    (∃ (k x : Nat) (s : State), s.canonical ∧ k < 16 ∧ x < 256 ∧ partState s k = 1 ∧ rb s (pgPart k) Reg.SCRUB_STAT 0
      = true ∧ partQuiet s k = true) ∧
    (∃ (k x : Nat) (s : State), s.canonical ∧ k < 16 ∧ x < 256 ∧ partState s k = 1 ∧ rb s (pgPart k) Reg.SCRUB_STAT 1
      = true) :=
  ⟨⟨0, 0, 255, busy (pt 0 2) 0, canonical_of (by decide +kernel), by decide +kernel⟩,
  ⟨0, 0, 255, busy (pt 0 3) 0, canonical_of (by decide +kernel), by decide +kernel⟩,
  ⟨0, 255, busy (pt 0 6) 0, canonical_of (by decide +kernel), by decide +kernel⟩,
  ⟨0, 0, 255, busy (pt 0 0) 0, canonical_of (by decide +kernel), by decide +kernel⟩,
  ⟨0, 255, wf (busy (pt 0 1) 0) (128 + 0) Reg.SCRUB_STAT 0 2 1, canonical_of (by decide +kernel), by decide +kernel⟩,
  ⟨0, 255, wf (busy (pt 0 1) 0) (128 + 0) Reg.SCRUB_STAT 0 2 2, canonical_of (by decide +kernel), by decide +kernel⟩⟩

theorem witness_TenantsSealMeasureAndHoldKeys_1 :
    (∃ (k i : Nat) (b : Bytes) (s : State), s.canonical ∧ k < 16 ∧ i < 8 ∧ takenReq s true (k + 1) 257 = some b ∧
      partState s k = 3 ∧ auditRoom s = true ∧ ((leAt b 2 1).testBit 0 = true → rb s (pgPart k) Reg.ISO_STAT 15 =
      true)) ∧
    (∃ (k i : Nat) (b : Bytes) (s : State), s.canonical ∧ k < 16 ∧ i < 8 ∧ (List.find? (fun e => decide (e.1 = k))
      s.ten.sealing = some (k, b)) ∧ partState s k = 3 ∧ accessInto s k (groupBase k) groupSize = false ∧ accessInto
      s k (quayBase k) quaySize = false) ∧
    (∃ (k i : Nat) (b : Bytes) (s : State), s.canonical ∧ k < 16 ∧ i < 8 ∧ takenReq s true (k + 1) 258 = some b ∧
      partState s k = 4 ∧ auditRoom s = true ∧ (∃ e, sessionOf s (k + 1) = some e ∧ e.mutualAuth = true)) ∧
    (∃ (k i : Nat) (b : Bytes) (s : State), s.canonical ∧ k < 16 ∧ i < 8 ∧ takenReq s true (k + 1) 259 = some b ∧
      partLive s k = true ∧ leAt b 2 1 < 32) ∧
    (∃ (k i : Nat) (b : Bytes) (s : State), s.canonical ∧ k < 16 ∧ i < 8 ∧ takenReq s true (k + 1) 513 = some b ∧
      partLive s k = true ∧ leAt b 2 1 < 16 ∧ (List.find? (fun j => decide (keyState s k j = 0)) (List.range 8) =
      some i)) ∧
    (∃ (k i : Nat) (b : Bytes) (s : State), s.canonical ∧ k < 16 ∧ i < 8 ∧ takenReq s true (k + 1) 514 = some b ∧
      partLive s k = true ∧ liveSlot s k (leAt b 2 1) (leAt b 4 2) = some i) :=
  ⟨⟨15, 0, (fitBytes ([1, 1, 0, 0, 0, 0, 0, 0] ++ (List.range 64).map fun i => BitVec.ofNat 8 (i + 1)) 256), (mailed
    (busyk (pt 15 3) 15) true 16 (fitBytes ([1, 1, 0, 0, 0, 0, 0, 0] ++ (List.range 64).map fun i => BitVec.ofNat 8
    (i + 1)) 256)), canonical_of (by decide +kernel), by decide +kernel⟩,
  ⟨0, 7, ((List.range 32).map fun i => BitVec.ofNat 8 i),
    { busyk (pt 0 3) 0 with ten := { (busyk (pt 0 3) 0).ten with sealing := [(1, []), (0, (List.range 32).map fun i => BitVec.ofNat 8 i)] } },
    canonical_of (by decide +kernel), by decide +kernel⟩,
  ⟨15, 0, (fitBytes ([2, 1, 0, 0, 0, 0, 0, 0] ++ (List.range 64).map fun i => BitVec.ofNat 8 (i + 1)) 256), (mailed
    (busyk (pt 15 4) 15) true 16 (fitBytes ([2, 1, 0, 0, 0, 0, 0, 0] ++ (List.range 64).map fun i => BitVec.ofNat 8
    (i + 1)) 256)), canonical_of (by decide +kernel), by decide +kernel⟩,
  ⟨15, 0, (fitBytes ([3, 1, 31, 0, 0, 0, 0, 0] ++ (List.range 64).map fun i => BitVec.ofNat 8 (i + 1)) 256), (mailed
    (busyk (pt 15 4) 15) true 16 (fitBytes ([3, 1, 31, 0, 0, 0, 0, 0] ++ (List.range 64).map fun i => BitVec.ofNat 8
    (i + 1)) 256)), canonical_of (by decide +kernel), by decide +kernel⟩,
  ⟨15, 1, (fitBytes ([1, 2, 2, 0, 0, 0, 0, 0] ++ (List.range 64).map fun i => BitVec.ofNat 8 (i + 1)) 256), (mailed
    (busyk (pt 15 3) 15) true 16 (fitBytes ([1, 2, 2, 0, 0, 0, 0, 0] ++ (List.range 64).map fun i => BitVec.ofNat 8
    (i + 1)) 256)), canonical_of (by decide +kernel), by decide +kernel⟩,
  ⟨0, 0, (fitBytes ([2, 2, 2, 0, 1, 0, 0, 0] ++ (List.range 64).map fun i => BitVec.ofNat 8 (i + 1)) 256), (mailed
    (busyk (pt 0 3) 0) true 1 (fitBytes ([2, 2, 2, 0, 1, 0, 0, 0] ++ (List.range 64).map fun i => BitVec.ofNat 8 (i +
    1)) 256)), canonical_of (by decide +kernel), by decide +kernel⟩⟩

theorem witness_TenantsSealMeasureAndHoldKeys_2 :
    ∃ (k i : Nat) (s : State), s.canonical ∧ k < 16 ∧ i < 8 ∧ keyState s k i = 2 ∧ rf s (pgPart k) (Reg.KEY_SLOT i)
      32 16 = 0 :=
  ⟨0, 7, wr (wr (busyk (pt 0 3) 0) 128 (Reg.KEY_SLOT 7) 0x10022) 128 (Reg.KEY_SLOT 0) 0x10022, canonical_of
    (by decide +kernel), by decide +kernel⟩

end Partitions

namespace LifeCycle

def ask1 : Bytes := (ownerAsks 0x303 3 ([0, 0, 0] ++ List.replicate 32 7) 0xe8abb0d5c7bcdaf429bb2f6871145b99d6e6f296c3377a961f2c3506dc053cf31e72e0f7a6019d08cd0ba9d7b707f46da7829d661c110cbe434eaba789f1c37)

def at1 : Machine.State := mailed { owned with fuse := { owned.fuse with ownerKeyUsed := 3 } } true 0 ask1

def ask2 : Bytes := (ownerAsks 0x304 255 ([0, 0, 0, 0, 1]) 0x364fef1b1c0c7e4c6490a293a7cb1a627c769b3cff147aa8f5c9686090a083e326f8dd44b185dc7b86aa154aea6e7907b834dc68b179a17538647d9f8fc46de)

def at2 : Machine.State := mailed { owned with fuse := { owned.fuse with secVersionUsed := 255, secVersion := 255 }, boot := { owned.boot with imageVersion := 256 } } true 0 ask2

def ask3 : Bytes := (ownerAsks 0x305 31 ([0, 0, 0, 16] ++ zeroBytes 7 ++ sha512 (List.replicate 2048 3)) 0xa0597ef6c3ea96d4b5574e25c176a4b9009e81cf1ae3c4506252c4e6bc1da4a9f2848b6fe6342b53caef96adc1dd2e40021df0f05635fc7e6ce92106222933f)

def at3 : Machine.State := mailed { owned with fuse := { owned.fuse with admitUsed := 31 }, sec := { owned.sec with stage := List.replicate 2048 3 } } true 0 ask3

def otherKey : Bytes := natBytes 0xa7609b13d8cf457e2579ce84d599644da256fdc4ee2ca9ae19b6d20c0fad53c8 32

def ask91 : Bytes := (ownerAsks 0x303 3 ([0, 0, 0] ++ otherKey) 0x8c476ed6e2dca88dbb2172dc88817365873e6ba0c249d127fd25d04065bf1ec0c32df94a10a5ad2cd0a9fcb9771228e15171ff6708db69248dce63f5f69c52f)

def at91 : Machine.State := mailed { owned with fuse := { owned.fuse with ownerKeyUsed := 3, ownerKeys := [ownerKey, [], otherKey] } } true 0 ask91

def ask4 : Bytes := (ownerAsks 0x306 63 ([0, 0, 0, 255, 255]) 0xbc5b6ab0c6e60bce05a1529328205f2d87e1884df75409701712d2eb7ed592ef81e325036ef1b22b126b15e333e262c4b8e6b3dd523e45cb53bc3b4a78e970f)

def at4 : Machine.State := mailed { owned with fuse := { owned.fuse with geometryUsed := 63, geometry := 65535 } } true 0 ask4

def ask5 : Bytes := (ownerAsks 0x305 31 ([0, 0, 0, 16] ++ zeroBytes 7 ++ sha512 (List.replicate 2048 3)) 0xa0597ef6c3ea96d4b5574e25c176a4b9009e81cf1ae3c4506252c4e6bc1da4a9f2848b6fe6342b53caef96adc1dd2e40021df0f05635fc7e6ce92106222933f)

def at5 : Machine.State := mailed { owned with fuse := { owned.fuse with admitUsed := 31, admitDigests := [sha512 (List.replicate 2048 3)] }, sec := { owned.sec with stage := List.replicate 2048 3 } } true 0 ask5

def ask6 : Bytes := (ownerAsks 0x306 63 ([0, 0, 0, 255, 255]) 0xbc5b6ab0c6e60bce05a1529328205f2d87e1884df75409701712d2eb7ed592ef81e325036ef1b22b126b15e333e262c4b8e6b3dd523e45cb53bc3b4a78e970f)

def at6 : Machine.State := mailed { owned with fuse := { owned.fuse with geometryUsed := 63, geometry := 1 } } true 0 ask6

def ask7 : Bytes := (ownerAsks 0x307 63 ([0, 0, 0, 0, 0, 0, 128]) 0xbc8425676224717c14daf36a4b003b42389f3e096682d64d6491dabc1193ee9c571efa0cae1e9fc1627cc22bf7433289dfc9f82f1f67159c81e6435c5114e21)

def at7 : Machine.State := mailed { owned with fuse := { owned.fuse with debugEpochUsed := 63, debugEpoch := 0x7FFFFFFF }, sec := { owned.sec with certs := [none, some (natBytes 0x7FFFFFFF 8), some (natBytes (0x80000000 <<< 32) 8), none] } } true 0 ask7

def ask8 : Bytes := (ownerAsks 0x30A 0 ([0, 0, 0] ++ natBytes 9 4 ++ natBytes 5 4) 0xf9ba975e6c3d73a49875c2b197ae5157392576c72c5b5cff411769f1702fe61d46119e5cef8afe1a0daecb9b6998f33f20b9debdabf7d53336dae2186225b72)

def at8 : Machine.State := mailed { wr (wr (wr owned pgEvr Reg.AUDIT_BASE 5) pgEvr Reg.AUDIT_MIRRORED 9) pgEvr Reg.AUDIT_NEXT 12 with evr := { owned.evr with mirror := [(5, []), (8, []), (9, [])] } } true 0 ask8

def certOf : Bytes := natBytes 1 2 ++ [2, 1] ++ natBytes 5 4 ++ natBytes 0x1234 8 ++ natBytes 7 4 ++ zeroBytes 44 ++ [16, 3, 0, 0, 0, 0, 0, 0] ++ natBytes 0xf7ad43ebfd3da502de98b302d09d740a9ec4b24423eb71eed511bc735d030615834075c1c2855a99f6c38d5efc3f3eb86ecb3791ec7038c287d6cd9dd6c0c95 64

def ask10 : Bytes := fitBytes (natBytes 0x30B 2 ++ [0, 0] ++ natBytes 2040 2 ++ natBytes 8 2 ++ List.replicate 8 9) 256

def at10 : Machine.State := mailed ({ ready with sec := { ready.sec with stage := List.replicate 2048 1 } }) true 0 ask10

def ask12 : Bytes := fitBytes (natBytes 0x308 2 ++ zeroBytes 54 ++ [3] ++ zeroBytes 199) 256

def at12 : Machine.State := mailed ({ owned with sec := { owned.sec with stage := certOf } }) true 0 ask12

def ask13 : Bytes := fitBytes (natBytes 0x309 2 ++ zeroBytes 54 ++ [3] ++ zeroBytes 199) 256

def at13 : Machine.State := mailed ({ owned with sec := { owned.sec with certs := [none, some [], some [], some []] }, flash := { owned.flash with certs := [none, some [], some [], some []] } }) true 0 ask13

def ask14 : Bytes := fitBytes (ownerAsks 0x302 1 [0x40] 0xf6eaa6ef5bc4cc49a9cf29dc73e06d0f8fe2bfa0f9cbe9c01322f4f8a8e0bebc3a4509538a40e7e60a439bad871bf479d83c4a32363777bdef1b5a0ae770989) 256

def at14 : Machine.State := mailed (owned) true 0 ask14

def ask15 : Bytes := fitBytes (ownerAsks 0x306 0 [0, 0, 0, 1] 0xbe0ee18b304b1231b2ee17a8781482b144f341afc99a8b4aba28fbbd9874c38e14e951d80e40d2e72e1dec61ed2d34064e8088c3a651867dbe581dda20c4bba) 256

def at15 : Machine.State := mailed ({ owned with sec := { owned.sec with nonce := some (List.replicate 32 0) } }) true 0 ask15

theorem witness_SignedCommandsBurnTheirSetting_1 :
    ∃ (b : Bytes) (s : State), s.canonical ∧ (SignedOk s 771 b [(56, 32)] (signerIn s (fun st => decide (st = 48))
      fun st => decide (st = 32) || decide (st = 80)) s.fuse.ownerKeyUsed) ∧ s.fuse.ownerKeyUsed < 4 ∧
      s.fuse.ownerKeys.getLast? ≠ some (slice b 56 32) :=
  ⟨ask1, at1, canonical_of (by decide +kernel), by decide +kernel⟩

theorem witness_SignedCommandsBurnTheirSetting_2 :
    ∃ (b : Bytes) (s : State), s.canonical ∧ (SignedOk s 772 b [(56, 2)] (signerIn s (fun st => decide (st = 48) ||
      decide (st = 64)) fun st => decide (st = 1) || isUnlocked st || decide (st = 32) || decide (st = 80))
      s.fuse.secVersionUsed) ∧ leAt b 56 2 = s.fuse.secVersion + 1 ∧ leAt b 56 2 ≤ s.boot.imageVersion ∧
      s.fuse.secVersionUsed < 256 :=
  ⟨ask2, at2, canonical_of (by decide +kernel), by decide +kernel⟩

theorem witness_SignedCommandsBurnTheirSetting_3 :
    ∃ (b : Bytes) (s : State), s.canonical ∧ SignedOk s 773 b [(56, 1), (64, 64)] (ownerOrRma s) s.fuse.admitUsed ∧
      leAt b 56 1 ≤ 16 ∧ List.length s.sec.stage = 128 * leAt b 56 1 ∧ slice b 64 64 = fitBytes (sha512 s.sec.stage)
      64 ∧ s.fuse.admitUsed < 32 ∧ s.fuse.admitDigests.getLast? ≠ some (sha512 s.sec.stage) :=
  ⟨ask3, at3, canonical_of (by decide +kernel), by decide +kernel⟩

theorem witness_SignedCommandsBurnTheirSetting_4 :
    ∃ (b : Bytes) (s : State), s.canonical ∧ (SignedOk s 771 b [(56, 32)] (signerIn s (fun st => decide (st = 48))
      fun st => decide (st = 32) || decide (st = 80)) s.fuse.ownerKeyUsed) ∧ s.fuse.ownerKeyUsed < 4 ∧
      s.fuse.ownerKeys.getLast? = some (slice b 56 32) :=
  ⟨ask91, at91, canonical_of (by decide +kernel), by decide +kernel⟩

theorem witness_SignedCommandsBurnTheirSetting_5 :
    ∃ (b : Bytes) (s : State), s.canonical ∧ (SignedOk s 774 b [(56, 2)] (signerIn s (fun st => decide (st = 48)) fun
      st => decide (st = 32)) s.fuse.geometryUsed) ∧ leAt b 56 2 ≠ 0 ∧ s.fuse.geometryUsed < 64 ∧ s.fuse.geometry =
      leAt b 56 2 :=
  ⟨ask4, at4, canonical_of (by decide +kernel), by decide +kernel⟩

theorem witness_SignedCommandsBurnTheirSetting_6 :
    ∃ (b : Bytes) (s : State), s.canonical ∧ SignedOk s 773 b [(56, 1), (64, 64)] (ownerOrRma s) s.fuse.admitUsed ∧
      leAt b 56 1 ≤ 16 ∧ List.length s.sec.stage = 128 * leAt b 56 1 ∧ slice b 64 64 = fitBytes (sha512 s.sec.stage)
      64 ∧ s.fuse.admitUsed < 32 ∧ s.fuse.admitDigests.getLast? = some (sha512 s.sec.stage) :=
  ⟨ask5, at5, canonical_of (by decide +kernel), by decide +kernel⟩

theorem witness_SignedCommandsBurnTheirSetting_7 :
    ∃ (b : Bytes) (s : State), s.canonical ∧ (SignedOk s 774 b [(56, 2)] (signerIn s (fun st => decide (st = 48)) fun
      st => decide (st = 32)) s.fuse.geometryUsed) ∧ leAt b 56 2 ≠ 0 ∧ s.fuse.geometryUsed < 64 ∧ s.fuse.geometry ≠
      leAt b 56 2 :=
  ⟨ask6, at6, canonical_of (by decide +kernel), by decide +kernel⟩

theorem witness_SignedCommandsBurnTheirSetting_8 :
    ∃ (b : Bytes) (s : State), s.canonical ∧ SignedOk s 775 b [(56, 4)] (ownerOrRma s) s.fuse.debugEpochUsed ∧ leAt b
      56 4 = s.fuse.debugEpoch + 1 ∧ s.fuse.debugEpochUsed < 64 ∧ s.sec.certs.length = 4 :=
  ⟨ask7, at7, canonical_of (by decide +kernel), by decide +kernel⟩

theorem witness_SignedCommandsBurnTheirSetting_9 :
    ∃ (b : Bytes) (s : State), s.canonical ∧ SignedOk s 778 b [(56, 8)] (ownerOrRma s) 0 ∧ leAt b 60 4 = BitVec.toNat
      (rd s pgEvr Reg.AUDIT_BASE) ∧ BitVec.toNat (rd s pgEvr Reg.AUDIT_BASE) < leAt b 56 4 ∧ leAt b 56 4 ≤
      BitVec.toNat (rd s pgEvr Reg.AUDIT_MIRRORED) :=
  ⟨ask8, at8, canonical_of (by decide +kernel), by decide +kernel⟩

theorem witness_NoncesCertificatesAndIntentsAreKept_1 :
    ∃ (b : Bytes) (s : State), s.canonical ∧ takenReq s true 0 779 = some b ∧ leAt b 4 2 % 8 = 0 ∧ leAt b 4 2 < 2048
      ∧ 1 ≤ leAt b 6 2 ∧ leAt b 6 2 ≤ 192 ∧ leAt b 4 2 + leAt b 6 2 ≤ 2048 :=
  ⟨ask10, at10, canonical_of (by decide +kernel), by decide +kernel⟩

theorem witness_NoncesCertificatesAndIntentsAreKept_2 :
    ∃ (b c : Bytes) (s : State), s.canonical ∧ takenReq s true 0 776 = some b ∧ s.boot.phase ≠ BootPhase.recovery ∧
      auditRoom s = true ∧ leAt b 56 1 < 4 ∧ s.sec.stage = c ∧ certLaid c = true ∧ certMine s c = true ∧ certSigned s
      c = true ∧ certCurrent s c = true ∧ s.sec.certs.length = 4 ∧ s.flash.certs.length = 4 ∧ s.sec.certs.getD (leAt
      b 56 1) none = none :=
  ⟨ask12, certOf, at12, canonical_of (by decide +kernel), by decide +kernel⟩

theorem witness_NoncesCertificatesAndIntentsAreKept_3 :
    ∃ (b : Bytes) (s : State), s.canonical ∧ takenReq s true 0 777 = some b ∧ s.boot.phase ≠ BootPhase.recovery ∧
      auditRoom s = true ∧ leAt b 56 1 < 4 ∧ s.sec.certs.length = 4 ∧ s.flash.certs.length = 4 :=
  ⟨ask13, at13, canonical_of (by decide +kernel), by decide +kernel⟩

theorem witness_NoncesCertificatesAndIntentsAreKept_4 :
    ∃ (b : Bytes) (s : State), s.canonical ∧ (SignedOk s 770 b [(53, 1)] (fun g => mayTransit (lcState s) g (leAt b
      53 1)) (lcNext s)) ∧ legalTransit s (lcState s) (leAt b 53 1) = true ∧ rb s pgLc Reg.LC_STATE 8 = false ∧
      lcNext s < 48 ∧ (leAt b 53 1 = 96 ∨ lcNext s ≠ 47) ∧ s.flash.intents.length = 8 :=
  ⟨ask14, at14, canonical_of (by decide +kernel), by decide +kernel⟩

theorem witness_NoncesCertificatesAndIntentsAreKept_5 :
    ∃ (b : Bytes) (s : State), s.canonical ∧ (SignedOk (withNonce s (slice b 16 32)) 774 b [(56, 2)] (signerIn s (fun
      st => decide (st = 48)) fun st => decide (st = 32)) s.fuse.geometryUsed) ∧ leAt b 56 2 ≠ 0 ∧ s.sec.nonce ≠ some
      (slice b 16 32) :=
  ⟨ask15, at15, canonical_of (by decide +kernel), by decide +kernel⟩

end LifeCycle

namespace Sessions

def talk (fn : Nat) (d : Spdm) (ss : List Session) : Machine.State := { page (wf (live 2) 143 Reg.PART_STATE 0 4 4) pgPcie 3 1 with sec := { ready.sec with spdm := (List.replicate 17 ⟨false, false, false⟩).set fn d, sessions := ss } }

def cv (cfg : Word) : Machine.State := wr (wr (wr (wr (page ready (pgCvu 7) 3 1) (pgCvu 7) Reg.CVU_CFG cfg) (pgCvu 7) Reg.CVU_DATA 0x3837363534333231) (pgCvu 7) Reg.CVU_ALIVE 0xFF) (pgCvu 7) Reg.CVU_RUN 0x12345678

theorem witness_SpdmNegotiatesReportsAndHoldsSessions :
    (∃ (fn op asym hash dhe aead : Nat) (s : State), s.canonical ∧ doeOpen s fn = true ∧ s.sec.spdm.length = 17 ∧
      (spdmOf s fn).algs = true ∧ inSession s fn = true ∧ (spdmOf s fn).version = true ∧ (spdmOf s fn).caps = true ∧
      asym.testBit 9 = true ∧ hash.testBit 2 = true ∧ dhe.testBit 4 = true ∧ aead.testBit 1 = true ∧ (1 ≤ op ∧ op ≤
      3)) ∧
    (∃ (fn : Nat) (s : State) (z : Session), s.canonical ∧ doeOpen s fn = true ∧ s.sec.spdm.length = 17 ∧ sessionOf s
      fn = some z ∧ z.established = false) :=
  ⟨⟨0, 1, 0x200, 0x6, 0x10, 2, talk 0 ⟨true, true, true⟩ [⟨0, [1], false, true⟩], canonical_of (by decide +kernel),
    by decide +kernel⟩,
  ⟨0, talk 0 ⟨true, true, true⟩ [⟨0, [1], false, false⟩], ⟨0, [1], false, false⟩, canonical_of (by decide +kernel),
    by decide +kernel⟩⟩

theorem witness_SessionsCarryCommandsAndStreamKeys :
    (∃ (fn stream set : Nat) (v : IdeStream) (s : State), s.canonical ∧ fn < 17 ∧ doeOpen s fn = true ∧ inSession s
      fn = true ∧ fn = 0 ∧ s.pcie.ide[stream]? = some v ∧ set < 2 ∧ v.keys.length = 2 ∧ v.keys.getD set [] ≠ [] ∧
      v.active = some set) ∧
    (∃ (fn : Nat) (s : State), s.canonical ∧ fn < 17 ∧ doeOpen s fn = true ∧ inSession s fn = true ∧ fn ≠ 0 ∧
      mbxState s true fn = 0) :=
  ⟨⟨0, 0, 1, ⟨[[], [5]], some 1⟩,
    { talk 0 ⟨true, true, true⟩ [⟨0, [1], false, true⟩] with pcie := { ready.pcie with ide := [⟨[[], [5]], some 1⟩, ⟨[[], [5]], some 1⟩] } },
    canonical_of (by decide +kernel), by decide +kernel⟩,
  ⟨16, talk 16 ⟨true, true, true⟩ [⟨16, [1], false, true⟩], canonical_of (by decide +kernel), by decide +kernel⟩⟩

theorem witness_CheckValueUnitsCheckBlocks :
    (∃ (fn u : Nat) (v : Word) (s : State), s.canonical ∧ u < 8 ∧ MayWrite s fn (pgCvu u) Reg.CVU_CMD ∧ rb s (pgCvu
      u) Reg.CVU_CFG 4 = false ∧ cvuIsOpen s u = false ∧ MayWrite s fn (pgCvu u) Reg.CVU_ASSIGN ∧ actsOn s fn (pgCvu
      u) true = true ∧ bit v 7 = true ∧ fld v 0 5 ≤ 16 ∧ MayWrite s fn (pgCvu u) Reg.CVU_RUN ∧ MayWrite s fn (pgCvu
      u) Reg.CVU_ALIVE) ∧
    (∃ (fn u : Nat) (v : Word) (s : State), s.canonical ∧ u < 8 ∧ MayWrite s fn (pgCvu u) Reg.CVU_CMD ∧ rb s (pgCvu
      u) Reg.CVU_CFG 4 = false ∧ cvuIsOpen s u = true ∧ MayWrite s fn (pgCvu u) Reg.CVU_FEED ∧ bit v 63 = true ∧ 1 ≤
      fld v 0 4 ∧ fld v 0 4 ≤ 8) :=
  ⟨⟨0, 7, 0x8000000000000085, cv 0, canonical_of (by decide +kernel), by decide +kernel⟩,
  ⟨0, 7, 0x8000000000000008, (fun s => match execCvuOpen 0 7 s with | .next t => t | _ => s) (cv 0), canonical_of
    (by decide +kernel), by decide +kernel⟩⟩

end Sessions

namespace Errors

def er (s : Machine.State) (l : List Report) : Machine.State := { s with err := { s.err with reports := l } }

def full (n : Nat) : Machine.State := (List.range n).foldl (fun s i => wr s pgErr (Reg.COLL i 0) (w64 (1 <<< 63 + i))) ready

theorem witness_ErrorsAreCollectedAndJobsAborted_1 :
    (∃ (fn i j k x : Nat) (v : Word) (r : Report) (rest : List Report) (s : State), s.canonical ∧ k < 16 ∧ x < 256 ∧
      s.err.reports = r :: rest ∧ i < 256 ∧ List.find? (holdsKey s r) (List.range 256) = none ∧ entryFor s r = some i
      ∧ r.cls < 3 ∧ MayWrite s fn pgErr Reg.COLL_CLEAR ∧ bit v 63 = true ∧ (bit v 62 = true ∨ fld v 0 8 = i) ∧
      MayWrite s fn pgErr Reg.DUMP_ACK ∧ 1 ≤ j ∧ j < 256 ∧ MayWrite s fn pgErr Reg.JOB_ABORT_CMD) ∧
    (∃ (i k x : Nat) (r : Report) (rest : List Report) (s : State), s.canonical ∧ k < 16 ∧ x < 256 ∧ s.err.reports =
      r :: rest ∧ i < 256 ∧ List.find? (holdsKey s r) (List.range 256) = some i) ∧
    (∃ (i k x : Nat) (r : Report) (rest : List Report) (s : State), s.canonical ∧ k < 16 ∧ x < 256 ∧ s.err.reports =
      r :: rest ∧ i < 256 ∧ List.find? (holdsKey s r) (List.range 256) = none ∧ entryFor s r = some i ∧ r.cls = 3) ∧
    (∃ (i k x : Nat) (r : Report) (rest : List Report) (s : State), s.canonical ∧ k < 16 ∧ x < 256 ∧ s.err.reports =
      r :: rest ∧ i < 256 ∧ List.find? (holdsKey s r) (List.range 256) = none ∧ entryFor s r = none) ∧
    (∃ (k x q page : Nat) (w : Work) (s : State), s.canonical ∧ k < 16 ∧ x < 256 ∧ (List.find? (fun w => decide
      (w.part = k) && decide (w.ctx = x) && decide (w.seq = q) && timed w) s.work = some w) ∧ rf s pgErr Reg.ERR_CFG
      16 16 ≠ 0 ∧ page < 2048 ∧ w.unit < 256) ∧
    (∃ (k x : Nat) (s : State), s.canonical ∧ k < 16 ∧ x < 256 ∧ ctxDead s k x = true ∧ (k, x) ∉ s.err.stuck ∧ rf s
      (pgPart k) (Reg.CTX_OUT x) 0 24 ≠ 0) :=
  ⟨⟨0, 0, 1, 0, 0, 1 <<< 63, ⟨2000, 671, 0x21, 2, 2, none, 5⟩, [], er ready [⟨2000, 671, 0x21, 2, 2, none, 5⟩],
    canonical_of (by decide +kernel), by decide +kernel⟩,
  ⟨255, 0, 0, ⟨2000, 671, 0x21, 2, 2, none, 5⟩, [], er (wr (wr ready pgErr (Reg.COLL 255 0) (w64 (1 <<< 63 + 2000 +
    0x21 <<< 16))) pgErr (Reg.COLL 255 1) 0xFFFFFFFFFFFF) [⟨2000, 671, 0x21, 2, 2, none, 5⟩], canonical_of
    (by decide +kernel), by decide +kernel⟩,
  ⟨239, 0, 0, ⟨2000, 671, 0x21, 2, 3, none, 5⟩, [], er (full 239) [⟨2000, 671, 0x21, 2, 3, none, 5⟩], canonical_of
    (by decide +kernel), by decide +kernel⟩,
  ⟨250, 0, 0, ⟨2000, 671, 0x21, 2, 2, none, 5⟩, [], er (full 250) [⟨2000, 671, 0x21, 2, 2, none, 5⟩], canonical_of
    (by decide +kernel), by decide +kernel⟩,
  ⟨0, 0, 9, 671, ⟨0, 0, 9, 131, desc 0x20 0 0 0 0 [], .run, [], 0⟩,
    { wr (live 2) pgErr Reg.ERR_CFG 0x10001 with work := [⟨0, 0, 9, 131, desc 0x20 0 0 0 0 [], .run, [], 0⟩] },
    canonical_of (by decide +kernel), by decide +kernel⟩,
  ⟨0, 0, wr (live 4) 128 (Reg.CTX_OUT 0) 1, canonical_of (by decide +kernel), by decide +kernel⟩⟩

theorem witness_ErrorsAreCollectedAndJobsAborted_2 :
    ∃ (j k x page : Nat) (s : State) (cause : Nat), s.canonical ∧ k < 16 ∧ x < 256 ∧ 1 ≤ j ∧ j < 256 ∧ (List.filter
      (fun u => decide (u.1 = j)) s.err.jobTriggers = [(j, cause, page)]) ∧ ((k, x) ∈ jobMembers s j) :=
  ⟨255, 0, 0, 671,
    { wr (live 3) 128 (Reg.CTX_JOB 0) 255 with err := { ready.err with jobTriggers := [(254, 1, 5), (255, 2, 671)] } },
    2, canonical_of (by decide +kernel), by decide +kernel⟩

theorem witness_ResetsAndPowerTakeTheirEffect :
    (∃ (fn k x : Nat) (v : Word) (s : State), s.canonical ∧ k < 16 ∧ x < 256 ∧ s.err.resetting = none ∧ tuinerRuns s
      = true ∧ (if s.boot.phase = BootPhase.recovery then fn = 0 ∧ barOpen s 0 = true else MayWrite s fn pgErr
      Reg.DEV_RESET) ∧ bit v 63 = true ∧ fld v 0 16 = 56926 ∧ s.board.perst = false ∧ s.boot.phase ≠ BootPhase.off ∧
      s.board.pwrOk = true ∧ s.board.sysclk = true) ∧
    (∃ (k x : Nat) (s : State), s.canonical ∧ k < 16 ∧ x < 256 ∧ s.err.resetting = none ∧ i3cAddr s = true ∧
      (s.boot.phase = BootPhase.recovery ∨ s.boot.loadState = 2)) ∧
    (∃ (k x : Nat) (s : State) (cause : Nat), s.canonical ∧ k < 16 ∧ x < 256 ∧ s.err.resetting = some cause ∧ cause <
      16) ∧
    (∃ (k x : Nat) (s : State), s.canonical ∧ k < 16 ∧ x < 256 ∧ s.board.sysclk = false ∧ s.board.pwrOk = true) :=
  ⟨⟨0, 0, 0, 0x800000000001DE5E, live 2, canonical_of (by decide +kernel), by decide +kernel⟩,
  ⟨0, 0, { wr (live 2) pgI3c Reg.I3C_STAT 0x90 with boot := { (live 2).boot with phase := .recovery } }, canonical_of
    (by decide +kernel), by decide +kernel⟩,
  ⟨0, 0, { live 2 with err := { ready.err with resetting := some 2 } }, 2, canonical_of (by decide +kernel),
    by decide +kernel⟩,
  ⟨0, 0, { live 2 with board := { ready.board with sysclk := false } }, canonical_of (by decide +kernel),
    by decide +kernel⟩⟩

theorem witness_LostRailsFaultTheirPart :
    (∃ (i m : Nat) (s : State), s.canonical ∧ i < 4 ∧ m < 8 ∧ siteAdmitted s i = true ∧ (pageState s (pgMc m) = 3 ∨
      pageState s (pgMc m) = 4)) ∧
    (∃ (i m : Nat) (s : State), s.canonical ∧ i < 4 ∧ m < 8 ∧ pageState s (pgMc m) = 2) :=
  ⟨⟨3, 7, siteUp (page ready 647 3 1) 3, canonical_of (by decide +kernel), by decide +kernel⟩,
  ⟨3, 7, { page ready 647 2 1 with board := { ready.board with hbmRails := 0, siteRails := 0 } }, canonical_of
    (by decide +kernel), by decide +kernel⟩⟩

end Errors

namespace Management

def ic (st : Word) : Machine.State := { wr (wf (page (page (page ready pgI3c 3 1) (pgMbx true) 3 1) pgErr 3 1) pgI3c Reg.I3C_STAT 0 1 0) pgI3c Reg.I3C_STAT st with i3c := { ready.i3c with staging := (List.range 256).map (BitVec.ofNat 8), ibis := [5, 7], mwl := 256, mrl := 300 } }

def i3base : Machine.State := wr (wr (wb (wr (wr (wr (ic 0x80) pgPwr Reg.THERM_STAT 0x50846) (pgMc 5) Reg.MC_TEMP 0x55) pgLc Reg.LC_STATE 0x1FF) (pgPart 15) Reg.PART_STATE 4 true) pgErr Reg.RESET_CAUSE 3) pgPwr Reg.PWR_MEAS 0x1234
def i3mbx : Machine.State := wr (wf i3base (pgMbx true) (Reg.MBX_STAT 0) 0 8 0x13) (pgMbx true) (Reg.RESP 0 31) 0x1122334455667788
def outB (r : Res) : Bytes := match r with
  | .next t => (match t.out.getLast? with | some (.i3c b) => b | _ => [])
  | _ => []

def rec0 : Machine.State := wr (wr (page ready pgEvr 3 1) pgEvr Reg.AUDIT_NEXT 3) pgEvr (Reg.EVR_SEL 63 5) 0xABCDEF

theorem witness_MailboxesPassThroughTheirStates :
    (∃ (fn : Nat) (sec : Bool) (s : State), s.canonical ∧ fn ≤ 16 ∧ receives s sec = true ∧ mbxState s sec fn = 1) ∧
    (∃ (fn : Nat) (sec : Bool) (s : State), s.canonical ∧ fn ≤ 16 ∧ MayWrite s fn (pgMbx sec) (Reg.MBX_CTL fn) ∧ (sec
      = true → fn = 0) ∧ mbxState s sec fn = 0) ∧
    (∃ (fn : Nat) (sec : Bool) (s : State), s.canonical ∧ fn ≤ 16 ∧ MayWrite s fn (pgMbx sec) (Reg.MBX_CTL fn) ∧
      mbxState s sec fn = 3) ∧
    (∃ (fn : Nat) (sec : Bool) (s : State) (m : Pending), s.canonical ∧ fn ≤ 16 ∧ mbxState s sec fn = 2 ∧ (List.find?
      (fun q => decide (q.sec = sec) && decide (q.fn = fn)) s.mbx = some m) ∧ List.length m.bytes = 256) ∧
    (∃ (fn : Nat) (sec : Bool) (s : State) (st : Nat), s.canonical ∧ fn ≤ 16 ∧ mbxState s sec fn = 2 ∧ (List.find?
      (fun q => decide (q.sec = sec) && decide (q.fn = fn)) s.mbx = none) ∧ refusalOf sec fn (reqBytes s sec fn) =
      some st) :=
  ⟨⟨0, true, wf (page ready (pgMbx true) 3 1) (pgMbx true) (Reg.MBX_STAT 0) 0 8 (0x30 + 1), canonical_of
    (by decide +kernel), by decide +kernel⟩,
  ⟨0, true, wf (page ready (pgMbx true) 3 1) (pgMbx true) (Reg.MBX_STAT 0) 0 8 (0x30 + 0), canonical_of
    (by decide +kernel), by decide +kernel⟩,
  ⟨0, true, wf (page ready (pgMbx true) 3 1) (pgMbx true) (Reg.MBX_STAT 0) 0 8 (0x30 + 3), canonical_of
    (by decide +kernel), by decide +kernel⟩,
  ⟨0, true,
    { wf (page ready (pgMbx true) 3 1) (pgMbx true) (Reg.MBX_STAT 0) 0 8 (0x30 + 2) with mbx := [⟨false, 3, []⟩, (⟨true, 0, (List.range 256).map (BitVec.ofNat 8)⟩ : Pending)] },
    (⟨true, 0, (List.range 256).map (BitVec.ofNat 8)⟩ : Pending), canonical_of (by decide +kernel),
    by decide +kernel⟩,
  ⟨0, true, mailed (page ready (pgMbx true) 3 1) true 0 ([0xEE, 0xEE] ++ zeroBytes 254), ((refusalOf true 0 (reqBytes
    (mailed (page ready (pgMbx true) 3 1) true 0 ([0xEE, 0xEE] ++ zeroBytes 254)) true 0)).getD 0), canonical_of
    (by decide +kernel), by decide +kernel⟩⟩

theorem witness_TheI3cTargetIsAddressedAndTakesCommands :
    (∃ (n : Nat) (data rest : Bytes) (b : Byte) (s : State) (bad : Bool), s.canonical ∧ i3cOn s = true ∧ rb s pgI3c
      Reg.I3C_STAT 7 = true ∧ n % 8 = 0 ∧ List.length data ≤ 248 ∧ n + List.length data ≤ 256 ∧ List.length data + 2
      ≤ s.i3c.mwl ∧ (bad = true ∨ 256 < n + List.length data) ∧ mbxState s true 0 = 0 ∧ s.i3c.ibis = b :: rest ∧ rb s
      pgI3c Reg.I3C_STAT 16 = true) ∧
    (∃ (s : State), s.canonical ∧ i3cOn s = true ∧ rb s pgI3c Reg.I3C_STAT 7 = false ∧ s.boot.sensed = true) ∧
    (∃ (s : State), s.canonical ∧ i3cOn s = true ∧ rb s pgI3c Reg.I3C_STAT 7 = true ∧ mbxState s true 0 = 3 ∧ rb s
      (pgMbx true) (Reg.MBX_STAT 0) 4 = true) :=
  ⟨⟨8, (List.range 248).map (BitVec.ofNat 8), [7], 5, ic 0x1008A, true, canonical_of (by decide +kernel),
    by decide +kernel⟩,
  ⟨ic 0, canonical_of (by decide +kernel), by decide +kernel⟩,
  ⟨wf (ic 0x1008A) (pgMbx true) (Reg.MBX_STAT 0) 0 8 0x13, canonical_of (by decide +kernel), by decide +kernel⟩⟩

theorem witness_I3cReadsAnswerTheirTables :
    (∃ (code : Byte) (s : State), s.canonical ∧ i3cAddr s = true ∧ (¬(mbxState s true 0 = 3 ∧ rb s (pgMbx true)
      (Reg.MBX_STAT 0) 4 = true)) ∧ i3cListed code = false ∧ s.i3c.last = none) ∧
    (∃ (s : State), s.canonical ∧ i3cAddr s = true ∧ (mbxState s true 0 = 3 ∧ rb s (pgMbx true) (Reg.MBX_STAT 0) 4 =
      true)) ∧
    (∃ (s : State), s.canonical ∧ i3cAddr s = true ∧ s.i3c.last = some 1) :=
  ⟨⟨153, i3base, canonical_of (by decide +kernel), by decide +kernel⟩,
  ⟨i3mbx, canonical_of (by decide +kernel), by decide +kernel⟩,
  ⟨{ i3base with i3c := { i3base.i3c with last := some 1 } }, canonical_of (by decide +kernel), by decide +kernel⟩⟩

theorem witness_TheRecorderIsConfiguredFencedAndCleared :
    (∃ (fn i : Nat) (v : Word) (s : State), s.canonical ∧ tuinerRuns s = true ∧ MayWrite s fn pgEvr (Reg.EVR_TRIG i)
      ∧ i < 64 ∧ rb s pgEvr (Reg.EVR_TRIG i) 32 = false ∧ bit v 32 = true ∧ s.evr.gen.length + 1 < 114688 ∧ MayWrite
      s fn pgEvr Reg.EVR_FENCE ∧ s.evr.fence = false ∧ MayWrite s fn pgEvr Reg.EVR_CLEAR ∧ auditRoom s = true) ∧
    (∃ (s : State), s.canonical ∧ s.evr.fence = true) :=
  ⟨⟨0, 63, 0xFFFFFFFFFFFFFFFF, { rec0 with evr := { rec0.evr with gen := [[1]], audit := [(2, [5])] } }, canonical_of
    (by decide +kernel), by decide +kernel⟩,
  ⟨{ wr (wr rec0 pgEvr (Reg.EVR_TRIG 3) (w64 (1 <<< 32))) pgEvr (Reg.EVR_TRIG 63) (w64 (1 <<< 32)) with evr := { rec0.evr with fence := true, gen := [[1]], audit := [(2, [5])] } },
    canonical_of (by decide +kernel), by decide +kernel⟩⟩

end Management

namespace BringUp

def rom (f : Fuse → Fuse) : Machine.State := { ready with boot := { ready.boot with phase := .rom }, fuse := f ready.fuse }

theorem witness_PowerOnStartsTheRomAndItsChecksDecide :
    (∃ (flash : Bool) (s : State), s.canonical ∧ s.boot.phase = BootPhase.rom ∧ (flash = true → (∀ r ∈
      s.flash.intents, r = none) ∧ ∀ c ∈ s.flash.certs, c = none) ∧ s.fuse.hubReads = true ∧ s.fuse.baseReads = true
      ∧ pairing s ≠ none ∧ lcState s = 0) ∧
    (∃ (s : State), s.canonical ∧ s.board.pwrOk = false ∧ s.board.sysclk = true) ∧
    (∃ (flash : Bool) (s : State), s.canonical ∧ s.boot.phase = BootPhase.rom ∧ (flash = true → (∀ r ∈
      s.flash.intents, r = none) ∧ ∀ c ∈ s.flash.certs, c = none) ∧ (s.fuse.hubReads = false ∨ s.fuse.baseReads =
      false ∨ pairing s = none)) ∧
    (∃ (flash : Bool) (s : State), s.canonical ∧ s.boot.phase = BootPhase.rom ∧ (flash = true → (∀ r ∈
      s.flash.intents, r = none) ∧ ∀ c ∈ s.flash.certs, c = none) ∧ s.fuse.hubReads = true ∧ s.fuse.baseReads = true
      ∧ pairing s ≠ none ∧ lcState s ≠ 0 ∧ s.err.wdogBoots < 3) ∧
    (∃ (flash : Bool) (s : State), s.canonical ∧ s.boot.phase = BootPhase.rom ∧ (flash = true → (∀ r ∈
      s.flash.intents, r = none) ∧ ∀ c ∈ s.flash.certs, c = none) ∧ s.fuse.hubReads = true ∧ s.fuse.baseReads = true
      ∧ pairing s ≠ none ∧ lcState s ≠ 0 ∧ 3 ≤ s.err.wdogBoots) :=
  ⟨⟨true, rom id, canonical_of (by decide +kernel), by decide +kernel⟩,
  ⟨State.reset, canonical_of (by decide +kernel), by decide +kernel⟩,
  ⟨true, rom fun f => { f with hubReads := false, rows := [⟨0x60, 0, [], false, true⟩] }, canonical_of
    (by decide +kernel), by decide +kernel⟩,
  ⟨true, rom fun f => { f with baseStep := 0xA0, rows := [⟨0x30, 0, [], false, true⟩] }, canonical_of
    (by decide +kernel), by decide +kernel⟩,
  ⟨true,
    { (rom fun f => { f with rows := [⟨0x30, 0, [], false, true⟩] }) with err := { ready.err with wdogBoots := 3 } },
    canonical_of (by decide +kernel), by decide +kernel⟩⟩

theorem witness_BringUpRunsItsStepsInOrder_1 :
    (∃ (k m i c e u : Nat) (value : Word) (s : State), s.canonical ∧ value ≠ Config.romCheckValue s.fuse.hubStep ∧ k
      < 16 ∧ m < 8 ∧ i < 4 ∧ c < 128 ∧ e < 64 ∧ u < 2240 ∧ s.boot.phase = BootPhase.cores ∧ u ∉ s.boot.failedUnits ∧
      answeredAll s u = true ∧ s.boot.warm = false) ∧
    (∃ (k m i c e u : Nat) (s : State), s.canonical ∧ k < 16 ∧ m < 8 ∧ i < 4 ∧ c < 128 ∧ e < 64 ∧ u < 2240 ∧
      s.boot.phase = BootPhase.cores ∧ s.boot.warm = true ∧ u ∉ s.boot.failedUnits ∧ answeredAll s u = false) ∧
    (∃ (k m i c e u : Nat) (s : State), s.canonical ∧ k < 16 ∧ m < 8 ∧ i < 4 ∧ c < 128 ∧ e < 64 ∧ u < 2240 ∧
      s.boot.phase = BootPhase.scrub ∧ partsUp s = true) ∧
    (∃ (k m i c e u : Nat) (s : State), s.canonical ∧ k < 16 ∧ m < 8 ∧ i < 4 ∧ c < 128 ∧ e < 64 ∧ u < 2240 ∧
      s.boot.phase = BootPhase.settings ∧ s.boot.holdPerst = false) ∧
    (∃ (k m i c e u : Nat) (s : State), s.canonical ∧ k < 16 ∧ m < 8 ∧ i < 4 ∧ c < 128 ∧ e < 64 ∧ u < 2240 ∧
      s.boot.phase = BootPhase.training) ∧
    (∃ (k m i c e u : Nat) (s : State), s.canonical ∧ k < 16 ∧ m < 8 ∧ i < 4 ∧ c < 128 ∧ e < 64 ∧ u < 2240 ∧
      s.boot.phase = BootPhase.defects ∧ trained s = true) :=
  ⟨⟨15, 7, 3, 127, 63, 2239, (Config.romCheckValue ready.fuse.hubStep + 1),
    { ready with boot := { (ready).boot with phase := .cores, warm := false, answered := (List.range 6720) }, flash := { ready.flash with fieldMapOk := true, fieldMap := { fieldMapEmpty with cores := [] } }, fuse := { ready.fuse with badEngines := [63] } },
    canonical_of (by decide +kernel), succ_ne (Config.romCheckValue ready.fuse.hubStep), by decide +kernel⟩,
  ⟨15, 7, 3, 127, 63, 2239,
    { ready with boot := { (ready).boot with phase := .cores, warm := true, answered := (List.range 6717) }, flash := { ready.flash with fieldMapOk := true, fieldMap := { fieldMapEmpty with cores := [] } }, fuse := { ready.fuse with badEngines := [63] } },
    canonical_of (by decide +kernel), by decide +kernel⟩,
  ⟨15, 7, 3, 127, 63, 2239,
    { wf (ready) (pgPart 15) Reg.PART_STATE 0 4 2 with boot := { (wf (ready) (pgPart 15) Reg.PART_STATE 0 4 2).boot with phase := .scrub, warm := false } },
    canonical_of (by decide +kernel), by decide +kernel⟩,
  ⟨15, 7, 3, 127, 63, 2239,
    { ready with boot := { (ready).boot with phase := .settings, warm := false, lostRails := 128, lostSiteRails := 8 } },
    canonical_of (by decide +kernel), by decide +kernel⟩,
  ⟨15, 7, 3, 127, 63, 2239,
    { ready with boot := { (ready).boot with phase := .training, warm := false, fullHbm := 3, fullSites := 8, fullPcie := true } },
    canonical_of (by decide +kernel), by decide +kernel⟩,
  ⟨15, 7, 3, 127, 63, 2239,
    { ready with boot := { (ready).boot with phase := .defects, warm := false }, flash := { ready.flash with fieldMapOk := true, fieldMap := { fieldMapEmpty with links := [5, 6], quayBanks := [(15, 0), (15, 1), (15, 63), (14, 2), (15, 9), (15, 17)] } } },
    canonical_of (by decide +kernel), by decide +kernel⟩⟩

theorem witness_BringUpRunsItsStepsInOrder_2 :
    (∃ (k m i c e u : Nat) (value : Word) (s : State), s.canonical ∧ value = Config.romCheckValue s.fuse.hubStep ∧ k
      < 16 ∧ m < 8 ∧ i < 4 ∧ c < 128 ∧ e < 64 ∧ u < 2240 ∧ s.boot.phase = BootPhase.cores ∧ s.boot.warm = false) ∧
    (∃ (k m i c e u : Nat) (t0 t1 : List Word) (routes : List (Nat × Nat × Nat)) (s : State), s.canonical ∧ k < 16 ∧
      m < 8 ∧ i < 4 ∧ c < 128 ∧ e < 64 ∧ u < 2240 ∧ s.boot.phase = BootPhase.routes ∧ sparesTested s = true ∧
      t0.length = 8 ∧ t1.length = 8) :=
  ⟨⟨15, 7, 3, 127, 63, 2175, (Config.romCheckValue ready.fuse.hubStep),
    { ready with boot := { (ready).boot with phase := .cores, warm := false, failedUnits := [5] }, flash := { ready.flash with fieldMapOk := true } },
    canonical_of (by decide +kernel), rfl, by decide +kernel⟩,
  ⟨15, 7, 3, 127, 63, 2239, [1, 2, 3, 4, 5, 6, 7, 8], List.replicate 8 0xFFFFFFFFFFFFFFFF, ((List.range 16).map fun f
    => (0, 5, 0x1000 + f)) ++ [(63, 63, 0x1FFFF), (1, 2, 0)],
    { ready with boot := { (ready).boot with phase := .routes, warm := false } }, canonical_of (by decide +kernel),
    by decide +kernel⟩⟩

theorem witness_ImagesLoadAndTuinerAnswers_1 :
    (∃ (b : Bytes) (s : State), s.canonical ∧ takenReq s true 0 1025 = some b ∧ auditRoom s = true ∧ leAt b 4 4 ≤
      16777216) ∧
    (∃ (b : Bytes) (s : State), s.canonical ∧ takenReq s true 0 1026 = some b ∧ s.boot.loadState = 1 ∧ leAt b 4 4 =
      List.length s.flash.image ∧ 1 ≤ leAt b 8 2 ∧ leAt b 8 2 ≤ 240 ∧ List.length s.flash.image + leAt b 8 2 ≤
      s.boot.loadLen) ∧
    (∃ (b : Bytes) (s : State), s.canonical ∧ takenReq s true 0 1026 = some b ∧ s.boot.loadState = 1 ∧ leAt b 4 4 =
      List.length s.flash.image ∧ 1 ≤ leAt b 8 2 ∧ leAt b 8 2 ≤ 240 ∧ s.boot.loadLen < List.length s.flash.image +
      leAt b 8 2) ∧
    (∃ (b : Bytes) (s : State), s.canonical ∧ takenReq s true 0 1026 = some b ∧ (s.boot.loadState ≠ 1 ∨ leAt b 4 4 ≠
      List.length s.flash.image)) ∧
    (∃ (b : Bytes) (s : State), s.canonical ∧ takenReq s true 0 1027 = some b ∧ auditRoom s = true ∧ s.boot.loadState
      = 1 ∧ s.boot.loadLen ≤ List.length s.flash.image) ∧
    (∃ (f : Nat) (b : Bytes) (s : State), s.canonical ∧ takenReq s false f 1281 = some b) :=
  ⟨⟨(fitBytes (natBytes 0x401 2 ++ [0, 0] ++ natBytes 0x1000000 4) 256), mailed (ready) true 0 (fitBytes (natBytes
    0x401 2 ++ [0, 0] ++ natBytes 0x1000000 4) 256), canonical_of (by decide +kernel), by decide +kernel⟩,
  ⟨(fitBytes (natBytes 0x402 2 ++ [0, 0] ++ natBytes 60 4 ++ natBytes 240 2 ++ [0, 0, 0, 0, 0, 0] ++ List.replicate
    240 9) 256), mailed
    ({ ready with boot := { ready.boot with loadState := 1, loadLen := 300 }, flash := { ready.flash with image := List.replicate 60 3 } })
    true 0 (fitBytes (natBytes 0x402 2 ++ [0, 0] ++ natBytes 60 4 ++ natBytes 240 2 ++ [0, 0, 0, 0, 0, 0] ++
    List.replicate 240 9) 256), canonical_of (by decide +kernel), by decide +kernel⟩,
  ⟨(fitBytes (natBytes 0x402 2 ++ [0, 0] ++ natBytes 61 4 ++ natBytes 240 2 ++ [0, 0, 0, 0, 0, 0] ++ List.replicate
    240 9) 256), mailed
    ({ ready with boot := { ready.boot with loadState := 1, loadLen := 300 }, flash := { ready.flash with image := List.replicate 61 3 } })
    true 0 (fitBytes (natBytes 0x402 2 ++ [0, 0] ++ natBytes 61 4 ++ natBytes 240 2 ++ [0, 0, 0, 0, 0, 0] ++
    List.replicate 240 9) 256), canonical_of (by decide +kernel), by decide +kernel⟩,
  ⟨(fitBytes (natBytes 0x402 2 ++ [0, 0] ++ natBytes 61 4 ++ natBytes 240 2 ++ [0, 0, 0, 0, 0, 0] ++ List.replicate
    240 9) 256), mailed
    ({ ready with boot := { ready.boot with loadState := 1, loadLen := 300 }, flash := { ready.flash with image := List.replicate 60 3 } })
    true 0 (fitBytes (natBytes 0x402 2 ++ [0, 0] ++ natBytes 61 4 ++ natBytes 240 2 ++ [0, 0, 0, 0, 0, 0] ++
    List.replicate 240 9) 256), canonical_of (by decide +kernel), by decide +kernel⟩,
  ⟨(fitBytes (natBytes 0x403 2 ++ [0, 0]) 256), mailed
    ({ ready with boot := { ready.boot with loadState := 1, loadLen := 300 }, flash := { ready.flash with image := List.replicate 300 3 } })
    true 0 (fitBytes (natBytes 0x403 2 ++ [0, 0]) 256), canonical_of (by decide +kernel), by decide +kernel⟩,
  ⟨0, (fitBytes (natBytes 0x501 2 ++ [0, 0]) 256), mailed
    ({ ready with boot := { ready.boot with loadState := 1, loadLen := 300 }, flash := { ready.flash with image := List.replicate 300 3 } })
    false 0 (fitBytes (natBytes 0x501 2 ++ [0, 0]) 256), canonical_of (by decide +kernel), by decide +kernel⟩⟩

theorem witness_ImagesLoadAndTuinerAnswers_2 :
    (∃ (f : Nat) (b : Bytes) (s : State), s.canonical ∧ f = 0 ∧ takenReq s false f 1282 = some b) ∧
    (∃ (f : Nat) (b : Bytes) (s : State), s.canonical ∧ f = 0 ∧ takenReq s false f 1283 = some b ∧ leAt b 4 2 ≤ 30 ∧
      leAt b 3 1 = 0) ∧
    (∃ (f : Nat) (b : Bytes) (s : State), s.canonical ∧ f = 0 ∧ takenReq s false f 1283 = some b ∧ s.boot.badList =
      none ∧ leAt b 3 1 = 1) ∧
    (∃ (f : Nat) (b : Bytes) (s : State) (l : List Nat), s.canonical ∧ f = 0 ∧ takenReq s false f 1283 = some b ∧
      leAt b 4 2 ≤ 30 ∧ s.boot.badList = some l ∧ leAt b 3 1 = 1) ∧
    (∃ (f : Nat) (b : Bytes) (s : State), s.canonical ∧ f = 0 ∧ takenReq s false f 1283 = some b ∧ s.boot.badList =
      none ∧ leAt b 3 1 = 2) ∧
    (∃ (f : Nat) (b : Bytes) (s : State) (l : List Nat), s.canonical ∧ f = 0 ∧ takenReq s false f 1283 = some b ∧
      leAt b 4 2 ≤ 30 ∧ s.boot.badList = some l ∧ leAt b 3 1 = 2) :=
  ⟨⟨0, (fitBytes (natBytes 0x502 2 ++ [0, 0, 0]) 256), mailed
    ({ ready with flash := { ready.flash with stackRecords := 255, siteRecords := 15, pcieRecord := true } }) false 0
    (fitBytes (natBytes 0x502 2 ++ [0, 0, 0]) 256), canonical_of (by decide +kernel), by decide +kernel⟩,
  ⟨0, (fitBytes (natBytes 0x503 2 ++ [0, 0] ++ natBytes 30 2 ++ [0, 0] ++ (List.range 240).map (BitVec.ofNat 8))
    256), mailed ({ ready with boot := { ready.boot with badList := none } }) false 0 (fitBytes (natBytes 0x503 2 ++
    [0, 0] ++ natBytes 30 2 ++ [0, 0] ++ (List.range 240).map (BitVec.ofNat 8)) 256), canonical_of
    (by decide +kernel), by decide +kernel⟩,
  ⟨0, (fitBytes (natBytes 0x503 2 ++ [0, 1] ++ natBytes 30 2 ++ [0, 0] ++ (List.range 240).map (BitVec.ofNat 8))
    256), mailed ({ ready with boot := { ready.boot with badList := none } }) false 0 (fitBytes (natBytes 0x503 2 ++
    [0, 1] ++ natBytes 30 2 ++ [0, 0] ++ (List.range 240).map (BitVec.ofNat 8)) 256), canonical_of
    (by decide +kernel), by decide +kernel⟩,
  ⟨0, (fitBytes (natBytes 0x503 2 ++ [0, 1] ++ natBytes 30 2 ++ [0, 0] ++ (List.range 240).map (BitVec.ofNat 8))
    256), mailed ({ ready with boot := { ready.boot with badList := (some [7, 8]) } }) false 0 (fitBytes (natBytes
    0x503 2 ++ [0, 1] ++ natBytes 30 2 ++ [0, 0] ++ (List.range 240).map (BitVec.ofNat 8)) 256), [7, 8], canonical_of
    (by decide +kernel), by decide +kernel⟩,
  ⟨0, (fitBytes (natBytes 0x503 2 ++ [0, 2] ++ natBytes 30 2 ++ [0, 0] ++ (List.range 240).map (BitVec.ofNat 8))
    256), mailed ({ ready with boot := { ready.boot with badList := none } }) false 0 (fitBytes (natBytes 0x503 2 ++
    [0, 2] ++ natBytes 30 2 ++ [0, 0] ++ (List.range 240).map (BitVec.ofNat 8)) 256), canonical_of
    (by decide +kernel), by decide +kernel⟩,
  ⟨0, (fitBytes (natBytes 0x503 2 ++ [0, 2] ++ natBytes 30 2 ++ [0, 0] ++ (List.range 240).map (BitVec.ofNat 8))
    256), mailed ({ ready with boot := { ready.boot with badList := (some [7, 8]) } }) false 0 (fitBytes (natBytes
    0x503 2 ++ [0, 2] ++ natBytes 30 2 ++ [0, 0] ++ (List.range 240).map (BitVec.ofNat 8)) 256), [7, 8], canonical_of
    (by decide +kernel), by decide +kernel⟩⟩

theorem witness_ImagesLoadAndTuinerAnswers_3 :
    (∃ (f : Nat) (b : Bytes) (s : State), s.canonical ∧ f = 0 ∧ takenReq s false f 1284 = some b) ∧
    (∃ (f : Nat) (b : Bytes) (s : State), s.canonical ∧ f = 0 ∧ takenReq s false f 1285 = some b ∧ leAt b 3 1 = 0) ∧
    (∃ (f : Nat) (b : Bytes) (s : State), s.canonical ∧ f = 0 ∧ takenReq s false f 1285 = some b ∧ leAt b 3 1 = 1 ∧
      bootCfgOk (slice b 4 72) = true) ∧
    (∃ (f : Nat) (b : Bytes) (s : State), s.canonical ∧ f = 0 ∧ takenReq s false f 1285 = some b ∧ leAt b 3 1 = 1 ∧
      bootCfgOk (slice b 4 72) = false) ∧
    (∃ (f : Nat) (b : Bytes) (s : State), s.canonical ∧ f ≠ 0 ∧ takenReq s false f 1282 = some b) ∧
    (∃ (f : Nat) (b : Bytes) (s : State), s.canonical ∧ f ≠ 0 ∧ takenReq s false f 1283 = some b ∧ leAt b 3 1 = 0) :=
  ⟨⟨0, (fitBytes (natBytes 0x504 2 ++ [0, 0]) 256), mailed (ready) false 0 (fitBytes (natBytes 0x504 2 ++ [0, 0])
    256), canonical_of (by decide +kernel), by decide +kernel⟩,
  ⟨0, (fitBytes (natBytes 0x505 2 ++ [0, 0] ++ bootDefault) 256), mailed (ready) false 0 (fitBytes (natBytes 0x505 2
    ++ [0, 0] ++ bootDefault) 256), canonical_of (by decide +kernel), by decide +kernel⟩,
  ⟨0, (fitBytes (natBytes 0x505 2 ++ [0, 1] ++ bootDefault) 256), mailed (ready) false 0 (fitBytes (natBytes 0x505 2
    ++ [0, 1] ++ bootDefault) 256), canonical_of (by decide +kernel), by decide +kernel⟩,
  ⟨0, (fitBytes (natBytes 0x505 2 ++ [0, 1] ++ bootDefault.set 1 0) 256), mailed (ready) false 0 (fitBytes (natBytes
    0x505 2 ++ [0, 1] ++ bootDefault.set 1 0) 256), canonical_of (by decide +kernel), by decide +kernel⟩,
  ⟨16, (fitBytes (natBytes 0x502 2 ++ [0, 0, 0]) 256), mailed
    ({ ready with flash := { ready.flash with stackRecords := 255, siteRecords := 15, pcieRecord := true } }) false
    16 (fitBytes (natBytes 0x502 2 ++ [0, 0, 0]) 256), canonical_of (by decide +kernel), by decide +kernel⟩,
  ⟨16, (fitBytes (natBytes 0x503 2 ++ [0, 0] ++ natBytes 30 2 ++ [0, 0] ++ (List.range 240).map (BitVec.ofNat 8))
    256), mailed ({ ready with boot := { ready.boot with badList := none } }) false 16 (fitBytes (natBytes 0x503 2 ++
    [0, 0] ++ natBytes 30 2 ++ [0, 0] ++ (List.range 240).map (BitVec.ofNat 8)) 256), canonical_of
    (by decide +kernel), by decide +kernel⟩⟩

theorem witness_ImagesLoadAndTuinerAnswers_4 :
    (∃ (f : Nat) (b : Bytes) (s : State), s.canonical ∧ f ≠ 0 ∧ takenReq s false f 1284 = some b) ∧
    (∃ (f : Nat) (b : Bytes) (s : State), s.canonical ∧ f ≠ 0 ∧ takenReq s false f 1285 = some b ∧ leAt b 3 1 = 0) :=
  ⟨⟨16, (fitBytes (natBytes 0x504 2 ++ [0, 0]) 256), mailed (ready) false 16 (fitBytes (natBytes 0x504 2 ++ [0, 0])
    256), canonical_of (by decide +kernel), by decide +kernel⟩,
  ⟨16, (fitBytes (natBytes 0x505 2 ++ [0, 0] ++ bootDefault) 256), mailed (ready) false 16 (fitBytes (natBytes 0x505
    2 ++ [0, 0] ++ bootDefault) 256), canonical_of (by decide +kernel), by decide +kernel⟩⟩

end BringUp

end Sys2Proof.Tests
end

section
/-!
SUPPORT. Rules of accepted register writes, shared by the statements below.
-/

namespace Sys2Proof.Machine

open Sys2Proof

/-- A write that the page and the role accept has its effect (R3, R4). -/
theorem withWrite_accepted {s : State} {fn p off : Nat} (h : MayWrite s fn p off) (k : State → State) :
    withWrite s fn p off k = k s := by
  simp [withWrite, h.1, h.2]

/-- A write that only the OPERATOR may make has its effect when it is the OPERATOR's (R3). -/
theorem withOperator_accepted {s : State} {fn p off : Nat} (h : MayWrite s fn p off) (ha : actsOn s fn p true = true)
    (k : State → State) : withOperator s fn p off k = k s := by
  rw [withOperator, withWrite_accepted h, if_pos ha]

/-- A command that answers `u` completes with what holds of the state that `u` comes to. -/
theorem completes_of_next {c : Instr} {s u t : State} {P : State → Prop} (hc : exec c s = .next u) (hu : u = t) (ht : P t) :
    Completes c s P := ⟨t, hu ▸ hc, ht⟩

/-- A write that is legal in the present state has its effect (R36). -/
theorem guarded_accepted {s : State} {p : Nat} {ok : Bool} (h : ok = true) (k : State → State) : guarded s p ok k = k s :=
  if_pos h

end Sys2Proof.Machine
end

section
/-!
SUPPORT. Fences and self-tests of the sweep engines (R137, R138, R163).
-/

namespace Sys2Proof.Machine

open Sys2Proof

theorem abandonTest_any (s : State) (e : Nat) : SameBut anyReg s (abandonTest s e) :=
  any_ite ((wb_any _ _ _ _ _).trans' ((wf_any _ _ _ _ _ _).trans' (raiseEvt_any _ _ _))) (.refl _ _)

/-- An engine in service that no fence has stopped yet is stopped with the cause (R138). -/
theorem fenceEngine_begins {s : State} {e : Nat} (cause : Nat) (he : e < 64)
    (hst : pageState s (pgSe e) = 3 ∨ pageState s (pgSe e) = 4) (hf : ∀ f ∈ s.seFencing, f.1 ≠ e) :
    (fenceEngine s e cause).seFencing = s.seFencing ++ [(e, cause)] ∧ SameMemory s (fenceEngine s e cause) := by
  have hfree : (!(s.seFencing.any fun f => f.1 = e)) = true := by simpa using hf
  have hkept := abandonTest_any { s with seFencing := s.seFencing ++ [(e, cause)] } e
  rw [fenceEngine, if_pos ⟨he, hst, hfree⟩]
  exact ⟨by rw [hkept.rest], hkept.mem_eq, hkept.hostMem_eq⟩

/-- The state in which an engine is stopped and off the list of fences, its work back with the scheduler (R138). -/
def engineStopped (s : State) (e : Nat) : State :=
  { rerun s (fun w => w.part = e / 4 && w.unit = 128 + e % 4) true with
    seFencing := s.seFencing.filter fun f => f.1 ≠ e
    flash := { s.flash with fieldMap := { s.flash.fieldMap with engines := s.flash.fieldMap.engines ++ [e] } } }

theorem engineStopped_canonical {s : State} (h : s.canonical) (e : Nat) : (engineStopped s e).canonical := h

/-- A fenced engine's page is put into FENCED, and the fault is recorded there (R138). -/
theorem finishEngine_eq (s : State) (e cause : Nat) : ∃ word ctx, finishEngine s e cause =
    raiseEvt (countError (setState (wr (engineStopped s e) (pgSe e) Reg.SE_FAULT_LAST word) (pgSe e) 6)
      (pgSe e) cause 0x10 1 ctx) (pgSe e) 0 := ⟨_, _, rfl⟩

theorem pageState_finishEngine {s : State} (h : s.canonical) (e cause : Nat) :
    pageState (finishEngine s e cause) (pgSe e) = 6 := by
  obtain ⟨word, ctx, heq⟩ := finishEngine_eq s e cause
  have hstop : (wr (engineStopped s e) (pgSe e) Reg.SE_FAULT_LAST word).canonical := wr_canonical (engineStopped_canonical h e)
  have hset := pageState_setState hstop (pgSe e) 6 (by decide)
  rw [pageState, rf] at hset ⊢
  rwa [heq, rd_raiseEvt (countError_canonical (setState_canonical hstop)) (by decide) (not_evtReg (by decide)),
    rd_countError (setState_canonical hstop) (by decide) (not_evtReg (by decide)) (by decide) (by decide)]

theorem seFencing_finishEngine (s : State) (e cause : Nat) :
    (finishEngine s e cause).seFencing = s.seFencing.filter fun f => f.1 ≠ e := by
  obtain ⟨word, ctx, heq⟩ := finishEngine_eq s e cause
  simp [heq, countError, engineStopped]

theorem rd_finishEngine_test {s : State} (h : s.canonical) (e cause : Nat) :
    rd (finishEngine s e cause) (pgSe e) Reg.ENGINE_TEST = rd s (pgSe e) Reg.ENGINE_TEST := by
  obtain ⟨word, ctx, heq⟩ := finishEngine_eq s e cause
  have hstop : (wr (engineStopped s e) (pgSe e) Reg.SE_FAULT_LAST word).canonical := wr_canonical (engineStopped_canonical h e)
  rw [heq, rd_raiseEvt (countError_canonical (setState_canonical hstop)) (by decide) (not_evtReg (by decide)),
    rd_countError (setState_canonical hstop) (by decide) (not_evtReg (by decide)) (by decide) (by decide),
    rd_setState hstop (by decide) (not_evtReg (by decide)) (fun x => absurd x.2 (by decide)),
    rd_wr_other (engineStopped_canonical h e) _ (by decide) (by decide) (fun x => absurd x.2 (by decide))]
  rfl

/-- What ENGINE_TEST_DONE leaves before a failure fences the engine: BUSY is clear and RESULT stands (R163). -/
def testReported (s : State) (e result : Nat) : State :=
  raiseEvt (wf (wb s (pgSe e) Reg.ENGINE_TEST 1 false) (pgSe e) Reg.ENGINE_TEST 2 2 result) (pgSe e) 3

theorem testReported_canonical {s : State} (h : s.canonical) (e result : Nat) : (testReported s e result).canonical :=
  raiseEvt_canonical (wf_canonical (wb_canonical h))

theorem testReported_sameBut {s : State} (h : s.canonical) (e result : Nat) :
    SameBut (oneReg (pgSe e) Reg.ENGINE_TEST) s (testReported s e result) :=
  (wb_sameBut h _ _ _ _ (by decide)).trans' ((wf_sameBut (wb_canonical h) _ _ _ _ _ (by decide)).trans'
    (raiseEvt_sameBut (wf_canonical (wb_canonical h)) _ _).none)

theorem rd_testReported {s : State} (h : s.canonical) (e result : Nat) : rd (testReported s e result) (pgSe e) Reg.ENGINE_TEST =
    rd (wf (wb s (pgSe e) Reg.ENGINE_TEST 1 false) (pgSe e) Reg.ENGINE_TEST 2 2 result) (pgSe e) Reg.ENGINE_TEST :=
  rd_raiseEvt (wf_canonical (wb_canonical h)) (by decide) (not_evtReg (by decide))

theorem rb_testReported {s : State} (h : s.canonical) (e result : Nat) :
    rb (testReported s e result) (pgSe e) Reg.ENGINE_TEST 1 = false := by
  rw [rb, rd_testReported h, ← rb, rb_wf_other (wb_canonical h) _ _ _ _ _ _ (by decide) (by decide), rb_wb_same h _ _ _ _ (by decide)]

theorem rf_testReported {s : State} (h : s.canonical) (e result : Nat) :
    rf (testReported s e result) (pgSe e) Reg.ENGINE_TEST 2 2 = result % 2 ^ 2 := by
  rw [rf, rd_testReported h, ← rf, rf_wf_same (wb_canonical h) _ _ _ _ _ (by decide)]

/-- Settles O23: each command's effect is that of `fenceEngine`, `finishEngine` or `testReported`. -/
theorem engineFencesAndTestsTakeEffect : Obligations.EngineFencesAndTestsTakeEffect := by
  intro fn e cause s hs he
  refine ⟨fun hst hf => ⟨fun hc => ?fault, fun hheld => ?stall, fun hw ha => ?fence⟩, fun hheld => ?held, fun hfind => ?drained,
    fun hw ha hst hidle => ?test, fun hbusy => ⟨?pass, ?fail⟩⟩
  case fault => exact completes_of_next rfl (if_pos hc) (fenceEngine_begins cause he hst hf)
  case stall => exact completes_of_next rfl (if_neg (by simp [hheld])) (fenceEngine_begins 3 he hst hf)
  case fence =>
    refine completes_of_next rfl ?_ (fenceEngine_begins 7 he hst hf)
    rw [withOperator_accepted hw ha, guarded_accepted (by simpa using hst)]
  case held => exact congrArg Host.Outcome.next (if_pos hheld)
  case drained =>
    refine completes_of_next (t := finishEngine s e cause) rfl (by rw [hfind]) ⟨pageState_finishEngine hs e cause, ?_⟩
    simp [seFencing_finishEngine]
  case test =>
    refine completes_of_next rfl ?_ ⟨rb_wb_same hs (pgSe e) Reg.ENGINE_TEST 1 true (by decide),
      wb_sameBut hs _ _ _ _ (by decide)⟩
    rw [withOperator_accepted hw ha, guarded_accepted (by simp [hst, hidle])]
  case pass =>
    exact completes_of_next rfl (if_pos hbusy) ⟨rb_testReported hs e 1, rf_testReported hs e 1, testReported_sameBut hs e 1⟩
  case fail =>
    have hc := testReported_canonical hs e 2
    refine completes_of_next (t := finishEngine (testReported s e 2) e 8) rfl (if_pos hbusy)
      ⟨?_, ?_, pageState_finishEngine hc e 8⟩
    · rw [rb, rd_finishEngine_test hc]; exact rb_testReported hs e 2
    · rw [rf, rd_finishEngine_test hc]; exact rf_testReported hs e 2

end Sys2Proof.Machine
end

section
/-!
SUPPORT. States in which a command does what a statement of this family leaves out; the kernel evaluates each command.
-/

namespace Sys2Proof.Machine

open Sys2Proof

/-- What a command's answer shows, where it is a next state. -/
def observe {α : Type} (f : State → α) : Res → Option α
  | .next t => some (f t)
  | _ => none

theorem Completes.observed {c : Instr} {s : State} {P : State → Prop} (h : Completes c s P) {α : Type} {f : State → α} {a : α}
    (ha : observe f (exec c s) = some a) : ∃ t, P t ∧ f t = a := by
  obtain ⟨t, ht, hP⟩ := h
  rw [ht] at ha
  exact ⟨t, hP, Option.some.inj ha⟩

theorem reset_canonical : State.reset.canonical := ⟨rfl, rfl, rfl⟩

/-! ### A write of `QUAY_CFG` while an earlier one waits (R233) -/

/-- A package in service whose slice 0 has a write of STRICT that waits for other partitions' accesses to drain. -/
def strictPending : State :=
  { State.reset with
    boot := { State.reset.boot with phase := .ready }
    pcie := { State.reset.pcie with link := true }
    quay := { State.reset.quay with strict := [(0, 1)] } }

/-- The later write of `QUAY_CFG`, here of zero, withdraws the one that waits. -/
theorem strictPending_withdrawn :
    observe (fun t => t.quay.strict) (exec (.registerWrite 0 (pgQuay 0 * 0x10000 + Reg.QUAY_CFG) 0) strictPending) = some [] := by
  decide +kernel

/-- Refutes O13: an accepted write of `QUAY_CFG` also withdraws the pending write of STRICT of its slice, which is neither a
register nor a mark of an event. -/
theorem not_registersAreWrittenAndRead : ¬ Obligations.RegistersAreWrittenAndRead := by
  intro h
  have hwrite := h.1 0 (pgQuay 0 * 0x10000 + Reg.QUAY_CFG) (pgQuay 0) Reg.QUAY_CFG 0
    ⟨Reg.QUAY_CFG, 1, 8, 1, 8, 0, 0xFFFFF01, 0, false⟩ strictPending reset_canonical (by decide) (by decide) (by decide +kernel)
    (by decide +kernel) (by decide) (by decide) (by decide) (by decide) (by decide +kernel) (by decide +kernel) (by decide)
    (by decide) (by decide)
  obtain ⟨t, ⟨-, hkept⟩, hstrict⟩ := hwrite.observed strictPending_withdrawn
  have hquay : t.quay = strictPending.quay := by rw [hkept.rest]
  rw [hquay] at hstrict
  exact absurd hstrict (by decide)

/-! ### A fence whose cause does not fit its record (R105) -/

/-- The spare of cluster 0 is being fenced, with a cause of 2^47: placed at bit 16 of the fence record, it carries into bit 63. -/
def causeTooWide : State := { State.reset with fencing := [(0, 16, 2 ^ 47, 0)] }

theorem causeTooWide_recorded :
    observe (fun t => rb t (pgCl 0) Reg.CORE_FAULT_LAST 63) (exec (.coreFenceDrained 0 16) causeTooWide) = some false := by
  decide +kernel

/-- Refutes O24: the statement takes a cause of any size, and one of 2^47, wider than any cause
of R98, clears the VALID bit of `CORE_FAULT_LAST`. -/
theorem not_fencedCoresAreServedByTheSpare : ¬ Obligations.FencedCoresAreServedByTheSpare := by
  intro h
  have hdrained := (h.2.1 0 16 0 (2 ^ 47) 0 causeTooWide reset_canonical (by decide) (by decide) (by decide) rfl).1 (by decide +kernel)
  obtain ⟨t, ⟨-, -, hdone⟩, hclear⟩ := hdrained.observed causeTooWide_recorded
  obtain ⟨-, -, -, hvalid, -⟩ := hdone
  exact absurd (hclear.symm.trans hvalid) (by decide)

/-! ### A share-window write that waits for a window that does not exist (R169) -/

/-- Partition 1 has an invalidation of ticket 5 in flight, and a write of window 0x1FFF of partition 0 waits: the register at
that window's offset is `INV_DONE` of partition 1. -/
def windowAtInvDone : State :=
  { State.reset with xlat := { State.reset.xlat with invs := [⟨1, 0, 0, 5⟩], shareWaits := [(0, 0x1FFF, 7)] } }

theorem windowAtInvDone_overwritten :
    observe (fun t => rf t (pgMf 1) Reg.INV_DONE 0 32) (exec (.invComplete 1) windowAtInvDone) = some 7 := by
  decide +kernel

/-- Refutes O27: the share-window writes that wait are made when an invalidation completes, and the statement bounds neither
their partitions nor their windows: one whose window number no accepted write has stands for `INV_DONE` itself, which then
holds 7 where ticket 5 has completed. -/
theorem not_invalidationsDropWhatTheyOverlap : ¬ Obligations.InvalidationsDropWhatTheyOverlap := by
  intro h
  have hcomplete := ((h 0 1 0 0 0 0 windowAtInvDone reset_canonical (by decide)).2.1 ⟨1, 0, 0, 5⟩ rfl).2 (by decide +kernel)
  obtain ⟨t, ⟨hdone, -⟩, hseven⟩ := hcomplete.observed windowAtInvDone_overwritten
  exact absurd (hseven.symm.trans hdone) (by decide)

/-! ### A fill that ends under a trigger that shows a slice's queue (R217, R237, R451) -/

/-- The request that waits in the queue of slice 0 while that is filled: a read by partition 1 through the ring port. -/
def waitingRead : Option Nat × Instr := (some 0, .quayRead 0 0 32 1 true .clean)

/-- A fill of row 0 runs on controller 0 and one on slice 0; trigger 0 of the recorder watches the controller's ZF_DONE and
takes a snapshot of the slice's `QUAY_PORT_STAT`, which counts the requests in its queue. -/
def fillWatched : State :=
  wr (wr (wr (wr State.reset (pgMc 0) Reg.MC_ZF_STAT 1) (pgQuay 0) Reg.QUAY_ZF_STAT 1)
    pgEvr (Reg.EVR_TRIG 0) (w64 (pgMc 0 + 4 <<< 16 + 1 <<< 24 + 1 <<< 32)))
    pgEvr (Reg.EVR_SEL 0 0) (w64 (pgQuay 0 + (Reg.QUAY_PORT_STAT / 8) <<< 11))

/-- The same with the read in the slice's queue. -/
def fillWatchedHeld : State := { fillWatched with heldPorts := [waitingRead] }

theorem fillWatchedHeld_canonical : fillWatchedHeld.canonical :=
  wr_canonical (wr_canonical (wr_canonical (wr_canonical reset_canonical)))

/-- The snapshots that the recorder's entries hold in their first place. -/
def firstSnapshots (s : State) : List Word := s.evr.gen.map fun e => e.getD 2 0

theorem fillWatched_snapshot :
    observe (fun u => (firstSnapshots u, portHeld u waitingRead.2)) (exec (.mcZfDone 0 0 true) fillWatched) = some ([0], true) := by
  decide +kernel

theorem fillWatchedHeld_snapshot :
    observe firstSnapshots (exec (.mcZfDone 0 0 true) fillWatchedHeld) = some [1] := by
  decide +kernel

/-- Refutes O32: the end of a fill raises its event before what waits is served, so a recorder entry can count the requests
that wait; with none waiting the command leaves another entry. -/
theorem not_zeroFillsInjectionsAndStrictTakeEffect : ¬ Obligations.ZeroFillsInjectionsAndStrictTakeEffect := by
  intro h
  have hserves : ThenServes (.mcZfDone 0 0 true) fillWatchedHeld :=
    ((h 0 0 0 true 0 fillWatchedHeld fillWatchedHeld_canonical (by decide) (by decide)).2.1 (by decide +kernel)).1
  obtain ⟨u, hu, hserved⟩ := hserves
  have hnone := fillWatched_snapshot
  have hheld := fillWatchedHeld_snapshot
  rw [show fillWatched = { fillWatchedHeld with heldPorts := [] } from rfl, hu] at hnone
  obtain ⟨hzero, hwaits⟩ := Prod.mk.inj (Option.some.inj hnone)
  rw [hserved] at hheld
  have hsame : fillWatchedHeld.heldPorts.foldl (fun t e => if portHeld t e.2 then holdPort t e else portNow t e.2) u =
      holdPort u waitingRead := if_pos hwaits
  rw [hsame] at hheld
  exact absurd ((Option.some.inj hheld).symm.trans hzero) (by decide)

end Sys2Proof.Machine
end

section
/-!
SUPPORT. The state after reset, and what power-on leaves in the registers and elsewhere.
-/

namespace Sys2Proof.Machine

open Sys2Proof

/-- Settles O4: the reset state lists no register and no byte of memory. -/
theorem resetIsCanonical : Obligations.ResetIsCanonical := reset_canonical

/-! ### Power-on (R27, R35, R486) -/

theorem pageState_wf {s : State} (h : s.canonical) (p q st : Nat) (hst : st < 16) :
    pageState (wf s q Reg.PAGE_STAT 0 4 st) p = if p = q then st else pageState s p := by
  split
  case isTrue hpq =>
    subst hpq
    rw [pageState, rf_wf_same h _ _ _ _ _ (by decide)]
    exact Nat.mod_eq_of_lt hst
  case isFalse hpq => exact congrArg (fld · 0 4) (rd_wr_other h _ (by decide) (by decide) fun x => hpq x.1)

/-- Pages put into READY, with no event (R35). -/
def pagesReady (l : List Nat) (s : State) : State := l.foldl (fun s p => wf s p Reg.PAGE_STAT 0 4 3) s

theorem pagesReady_canonical {s : State} (h : s.canonical) (l : List Nat) : (pagesReady l s).canonical :=
  (Kept_foldl (fun _ _ hk => wf_kept hk) h.kept).1

theorem pagesReady_sameBut {s : State} (h : s.canonical) (l : List Nat) :
    SameBut (fun _ o => o = Reg.PAGE_STAT) s (pagesReady l s) :=
  sameBut_foldl l h (fun _ _ h => wf_canonical h) fun _ _ h => (wf_sameBut h _ _ _ _ _ (by decide)).mono fun _ _ x => x.2

theorem pagesReady_rest (l : List Nat) (s : State) : ∃ regs, pagesReady l s = { s with regs := regs } := by
  induction l generalizing s with
  | nil => exact ⟨s.regs, rfl⟩
  | cons q l ih => exact ih (wf s q Reg.PAGE_STAT 0 4 3)

theorem pageState_pagesReady {l : List Nat} {s : State} {p : Nat} (h : s.canonical) (hp : p ∈ l ∨ pageState s p = 3) :
    pageState (pagesReady l s) p = 3 := by
  induction l generalizing s with
  | nil => exact hp.resolve_left List.not_mem_nil
  | cons q l ih =>
    refine ih (wf_canonical h) ?_
    rw [pageState_wf h p q 3 (by decide)]
    rcases hp with hp | hp
    · exact (List.mem_cons.1 hp).symm.imp id fun hpq => if_pos hpq
    · exact .inr (by simp [hp])

/-- A page other than the recorder's marks an event in `EVT_STAT` alone. -/
theorem not_evtReg_of_page {p off : Nat} (hp : p ≠ pgEvr) (ho : off ≠ Reg.EVT_STAT) : ¬ evtReg p off :=
  fun x => x.elim ho fun x => hp x.1

/-- The registers into which the audit part comes back (R456). -/
abbrev auditReg (p off : Nat) : Prop := p = pgEvr ∧ off ∈ [Reg.AUDIT_BASE, Reg.AUDIT_NEXT, Reg.AUDIT_MIRRORED]

theorem rd_restoreAudit {s : State} (h : s.canonical) {q o : Nat} (ho : o < 0x10000) (hne : ¬ auditReg q o) :
    rd (restoreAudit s) q o = rd s q o := by
  have hr : State.canonical { s with evr := { s.evr with audit := s.evr.mirror, seconds := s.evr.savedSeconds } } := h
  have hother : ∀ r ∈ [Reg.AUDIT_BASE, Reg.AUDIT_NEXT, Reg.AUDIT_MIRRORED], ¬(q = pgEvr ∧ o = r) :=
    fun r hr x => hne ⟨x.1, x.2 ▸ hr⟩
  unfold restoreAudit
  rw [rd_wr_other (wr_canonical (wr_canonical hr)) _ (by decide) ho (hother _ (by decide)),
    rd_wr_other (wr_canonical hr) _ (by decide) ho (hother _ (by decide)),
    rd_wr_other hr _ (by decide) ho (hother _ (by decide))]
  rfl

/-- The pages that are in service once the ROM runs (R35). -/
abbrev romPages : List Nat := [0, 1, 2, 4, 5]

/-- The straps and PERST# are sampled, and the power cycle is counted (R47, R486). -/
def strapsSampled (strap : Nat) (perst : Bool) (s : State) : State :=
  let u := { s with board := { s.board with pwrOk := true, strap := strap % 16, perst := perst } }
  wf u 0 Reg.PWR_CYCLES 0 32 (rf u 0 Reg.PWR_CYCLES 0 32 + 1)

/-- The pages of the ROM are in service, and the strap, the fused geometry and the cause of the reset stand in their
registers. -/
def romRegisters (strap : Nat) (s : State) : State :=
  let u := pagesReady romPages s
  wr (wr (wr (wf u pgI3c Reg.I3C_STAT 8 4 strap) pgSec Reg.GEOMETRY (w64 s.fuse.geometry)) pgErr Reg.RESET_CAUSE 0)
    pgErr Reg.WDOG 0

/-- No boot has ended by the watchdog yet (R430). -/
def bootsUncounted (s : State) : State := { s with err := { s.err with wdogBoots := 0 } }

/-- The state that POWER_ON comes to. -/
def poweredOn (strap : Nat) (perst : Bool) (s : State) : State :=
  romStart (restoreAudit (bootsUncounted (romRegisters strap (strapsSampled strap perst s)))) false

theorem execPowerOn_eq {s : State} (hoff : s.board.pwrOk = false) (hclk : s.board.sysclk = true) (strap : Nat)
    (perst : Bool) : exec (.powerOn strap perst) s = .next (poweredOn strap perst s) :=
  congrArg Host.Outcome.next (if_neg (by simp [hoff, hclk]))

theorem strapsSampled_canonical {s : State} (h : s.canonical) (strap : Nat) (perst : Bool) :
    (strapsSampled strap perst s).canonical :=
  wf_canonical (s := { s with board := { s.board with pwrOk := true, strap := strap % 16, perst := perst } }) h

theorem romRegisters_canonical {s : State} (h : s.canonical) (strap : Nat) : (romRegisters strap s).canonical :=
  wr_canonical (wr_canonical (wr_canonical (wf_canonical (pagesReady_canonical h _))))

theorem romRegisters_rest (strap : Nat) (s : State) : ∃ regs, romRegisters strap s = { s with regs := regs } := by
  obtain ⟨regs, hready⟩ := pagesReady_rest romPages s
  rw [romRegisters, hready]
  exact ⟨_, rfl⟩

/-- Besides the registers, POWER_ON changes the pins, the boot state, the count of R430 and the audit part. -/
theorem poweredOn_rest (strap : Nat) (perst : Bool) (s : State) : ∃ regs, poweredOn strap perst s =
    { s with
      regs := regs
      board := { s.board with pwrOk := true, strap := strap % 16, perst := perst }
      boot := (romStart s false).boot
      err := { s.err with wdogBoots := 0 }
      evr := { s.evr with audit := s.evr.mirror, seconds := s.evr.savedSeconds } } := by
  obtain ⟨regs, hregs⟩ := romRegisters_rest strap (strapsSampled strap perst s)
  rw [poweredOn, hregs]
  exact ⟨_, rfl⟩

theorem rd_romStart (s : State) (warm : Bool) (q o : Nat) : rd (romStart s warm) q o = rd s q o := rfl

theorem rd_bootsUncounted (s : State) (q o : Nat) : rd (bootsUncounted s) q o = rd s q o := rfl

theorem bootsUncounted_canonical {s : State} (h : s.canonical) : (bootsUncounted s).canonical := h

/-- Bringing back the audit part and starting the ROM leave the registers outside the audit part. -/
theorem rd_poweredOn {s : State} (h : s.canonical) (strap : Nat) (perst : Bool) {q o : Nat} (ho : o < 0x10000)
    (hne : ¬ auditReg q o) :
    rd (poweredOn strap perst s) q o = rd (romRegisters strap (strapsSampled strap perst s)) q o := by
  have hregs := romRegisters_canonical (strapsSampled_canonical h strap perst) strap
  rw [poweredOn, rd_romStart, rd_restoreAudit (bootsUncounted_canonical hregs) ho hne, rd_bootsUncounted]

/-- What a register holds once the ROM's are written; the latest write of it decides. -/
theorem rd_romRegisters {s : State} (h : s.canonical) (strap : Nat) {q o : Nat} (ho : o < 0x10000) :
    rd (romRegisters strap s) q o =
      if q = pgErr ∧ o = Reg.WDOG then 0
      else if q = pgErr ∧ o = Reg.RESET_CAUSE then 0
      else if q = pgSec ∧ o = Reg.GEOMETRY then w64 s.fuse.geometry
      else rd (wf (pagesReady romPages s) pgI3c Reg.I3C_STAT 8 4 strap) q o := by
  have hu := pagesReady_canonical h romPages
  rw [romRegisters, rd_wr (wr_canonical (wr_canonical (wf_canonical hu))) _ (by decide) ho,
    rd_wr (wr_canonical (wf_canonical hu)) _ (by decide) ho, rd_wr (wf_canonical hu) _ (by decide) ho]

theorem rf_romRegisters_strap {s : State} (h : s.canonical) (strap : Nat) :
    rf (romRegisters strap s) pgI3c Reg.I3C_STAT 8 4 = strap % 16 := by
  rw [rf, rd_romRegisters h strap (by decide)]
  exact rf_wf_same (pagesReady_canonical h _) _ _ _ _ _ (by decide)

theorem rd_romRegisters_other {s : State} (h : s.canonical) (strap : Nat) {q o : Nat} (ho : o < 0x10000)
    (hne : o ∉ [Reg.WDOG, Reg.RESET_CAUSE, Reg.GEOMETRY, Reg.I3C_STAT]) :
    rd (romRegisters strap s) q o = rd (pagesReady romPages s) q o := by
  simp only [List.mem_cons, List.not_mem_nil, or_false, not_or] at hne
  obtain ⟨hwdog, hcause, hgeometry, hstat⟩ := hne
  rw [rd_romRegisters h strap ho, if_neg fun x => hwdog x.2, if_neg fun x => hcause x.2, if_neg fun x => hgeometry x.2]
  exact rd_wr_other (pagesReady_canonical h _) _ (by decide) ho fun x => hstat x.2

theorem pageState_romRegisters {s : State} (h : s.canonical) (strap : Nat) {p : Nat} (hp : p ∈ romPages) :
    pageState (romRegisters strap s) p = 3 := by
  rw [pageState, rf, rd_romRegisters_other h strap (by decide) (by decide)]
  exact pageState_pagesReady h (.inl hp)

theorem rf_strapsSampled_cycles {s : State} (h : s.canonical) (strap : Nat) (perst : Bool) :
    rf (strapsSampled strap perst s) 0 Reg.PWR_CYCLES 0 32 = (rf s 0 Reg.PWR_CYCLES 0 32 + 1) % 2 ^ 32 :=
  rf_wf_same (s := { s with board := { s.board with pwrOk := true, strap := strap % 16, perst := perst } }) h _ _ _ _ _
    (by decide)

theorem rf_romRegisters_cycles {s : State} (h : s.canonical) (strap : Nat) :
    rf (romRegisters strap s) 0 Reg.PWR_CYCLES 0 32 = rf s 0 Reg.PWR_CYCLES 0 32 := by
  rw [rf, rd_romRegisters_other h strap (by decide) (by decide)]
  exact (pagesReady_sameBut h _).rf_eq (by decide) (not_evtReg_of_page (by decide) (by decide)) (by decide)

/-- What POWER_ON leaves in the registers and elsewhere (R27, R35, R47, R486). -/
theorem powerOn_completes {s : State} (hs : s.canonical) (hoff : s.board.pwrOk = false) (hclk : s.board.sysclk = true) (strap : Nat)
    (perst : Bool) :
    Completes (.powerOn strap perst) s fun t =>
      t.board = { s.board with pwrOk := true, strap := strap % 16, perst := perst } ∧ t.boot.phase = .rom ∧
      t.boot.warm = false ∧ t.boot.sensed = true ∧ t.err.wdogBoots = 0 ∧
      rf t 0 Reg.PWR_CYCLES 0 32 = (rf s 0 Reg.PWR_CYCLES 0 32 + 1) % 2 ^ 32 ∧
      (∀ p, p = 0 ∨ p = 1 ∨ p = 2 ∨ p = 4 ∨ p = 5 → pageState t p = 3) ∧
      rf t pgI3c Reg.I3C_STAT 8 4 = strap % 16 ∧ rd t pgSec Reg.GEOMETRY = w64 s.fuse.geometry ∧
      rd t pgErr Reg.RESET_CAUSE = 0 ∧ rd t pgErr Reg.WDOG = 0 ∧ t.evr.audit = s.evr.mirror ∧
      t.evr.seconds = s.evr.savedSeconds ∧ t.fuse = s.fuse ∧ t.flash = s.flash ∧ SameMemory s t := by
  have hsampled := strapsSampled_canonical hs strap perst
  obtain ⟨regs, hrest⟩ := poweredOn_rest strap perst s
  refine ⟨_, execPowerOn_eq hoff hclk strap perst, by rw [hrest], by rw [hrest]; rfl, by rw [hrest]; rfl, by rw [hrest]; rfl,
    by rw [hrest], ?cycles, ?pages, ?straps, ?geometry, ?cause, ?wdog, by rw [hrest], by rw [hrest], by rw [hrest],
    by rw [hrest], by rw [hrest]; exact ⟨rfl, rfl⟩⟩
  case cycles =>
    rw [rf, rd_poweredOn hs _ _ (by decide) (by decide), ← rf, rf_romRegisters_cycles hsampled, rf_strapsSampled_cycles hs]
  case pages =>
    intro p hp
    have hmem : p ∈ romPages := by simpa using hp
    rw [pageState, rf, rd_poweredOn hs _ _ (by decide) fun x => absurd x.2 (by decide)]
    exact pageState_romRegisters hsampled strap hmem
  case straps =>
    rw [rf, rd_poweredOn hs _ _ (by decide) (by decide), ← rf, rf_romRegisters_strap hsampled]
  case geometry =>
    rw [rd_poweredOn hs _ _ (by decide) (by decide), rd_romRegisters hsampled _ (by decide)]
    rfl
  case cause =>
    rw [rd_poweredOn hs _ _ (by decide) (by decide), rd_romRegisters hsampled _ (by decide)]
    rfl
  case wdog =>
    rw [rd_poweredOn hs _ _ (by decide) (by decide), rd_romRegisters hsampled _ (by decide)]
    rfl

end Sys2Proof.Machine
end

section
/-!
SUPPORT. The ROM's boot: what its scan of flash leaves as it was, and how its checks decide.
-/

namespace Sys2Proof.Machine

open Sys2Proof

/-! ### The scan of flash (R403, R406, R456) -/

/-- What the checks of R465 rest on, and with it memory, the flash and what ROM_BOOT reports, is in `t` as it was in `s`. -/
structure ScanKeeps (s t : State) : Prop where
  canonical : t.canonical
  memory : SameMemory s t
  fuse : t.fuse = s.fuse
  flash : t.flash = s.flash
  boot : t.boot = s.boot
  i3c : t.i3c = s.i3c
  wdogBoots : t.err.wdogBoots = s.err.wdogBoots
  time : rd t pgErr Reg.ERR_TIME = rd s pgErr Reg.ERR_TIME

theorem ScanKeeps.refl {s : State} (h : s.canonical) : ScanKeeps s s := ⟨h, ⟨rfl, rfl⟩, rfl, rfl, rfl, rfl, rfl, rfl⟩

theorem ScanKeeps.trans {s t u : State} (h : ScanKeeps s t) (k : ScanKeeps t u) : ScanKeeps s u where
  canonical := k.canonical
  memory := ⟨k.memory.1.trans h.memory.1, k.memory.2.trans h.memory.2⟩
  fuse := k.fuse.trans h.fuse
  flash := k.flash.trans h.flash
  boot := k.boot.trans h.boot
  i3c := k.i3c.trans h.i3c
  wdogBoots := k.wdogBoots.trans h.wdogBoots
  time := k.time.trans h.time

theorem ScanKeeps.of_sameBut {q : Nat → Nat → Prop} {s t : State} (ht : t.canonical) (h : SameBut q s t)
    (hq : ¬ q pgErr Reg.ERR_TIME) : ScanKeeps s t where
  canonical := ht
  memory := ⟨h.mem_eq, h.hostMem_eq⟩
  fuse := by rw [h.rest]
  flash := by rw [h.rest]
  boot := by rw [h.rest]
  i3c := by rw [h.rest]
  wdogBoots := by rw [h.err]
  time := h.rd_eq (by decide) (not_evtReg_of_page (by decide) (by decide)) hq

theorem wr_scanKeeps {s : State} (h : s.canonical) {p off : Nat} (v : Word) (ho : off < 0x10000) (hp : p ≠ pgErr) :
    ScanKeeps s (wr s p off v) :=
  .of_sameBut (wr_canonical h) (wr_sameBut h p off v ho) fun x => hp x.1.symm

theorem raiseEvt_scanKeeps {s : State} (h : s.canonical) (p b : Nat) : ScanKeeps s (raiseEvt s p b) :=
  .of_sameBut (raiseEvt_canonical h) (raiseEvt_sameBut h p b) id

theorem scanKeeps_foldl {α : Type} {f : State → α → State} (hf : ∀ s a, s.canonical → ScanKeeps s (f s a)) (l : List α)
    {s : State} (h : s.canonical) : ScanKeeps s (l.foldl f s) := by
  induction l generalizing s with
  | nil => exact .refl h
  | cons a l ih => exact (hf s a h).trans (ih (hf s a h).canonical)

theorem pgPart_ne_pgErr (k : Nat) : pgPart k ≠ pgErr := by
  rw [pgPart, pgErr]
  omega

theorem updIso_scanKeeps {s : State} (h : s.canonical) : ScanKeeps s (updIso s) := by
  refine scanKeeps_foldl (fun s k h => ?_) _ h
  extract_lets v
  split
  · exact .refl h
  · exact (wr_scanKeeps h _ (by decide) (pgPart_ne_pgErr k)).trans (raiseEvt_scanKeeps (wf_canonical h) _ _)

/-- An audit entry that takes the last but 64 places also records AUDIT_LOW (R455). -/
theorem audit_scanKeeps {s : State} (h : s.canonical) (code : Nat) (snaps : List Word) : ScanKeeps s (audit s code snaps) := by
  unfold audit
  split
  · extract_lets n e _ entered numbered
    have hentered : ScanKeeps s entered := ⟨h, ⟨rfl, rfl⟩, rfl, rfl, rfl, rfl, rfl, rfl⟩
    have hnumbered : ScanKeeps s numbered := hentered.trans (wr_scanKeeps hentered.canonical _ (by decide) (by decide))
    split
    · have hraw : (rawEvt numbered pgEvr 1).canonical := (rawEvt_kept hnumbered.canonical.kept).1
      exact hnumbered.trans (.of_sameBut (evrErr_kept hraw.kept).1
        ((rawEvt_sameBut hnumbered.canonical _ _).trans' (evrErr_sameBut hraw _)) id)
    · exact hnumbered
  · exact wr_scanKeeps h _ (by decide) (by decide)

theorem auditGaps_scanKeeps {s : State} (h : s.canonical) : ScanKeeps s (auditGaps s) := by
  refine scanKeeps_foldl (fun s e h => ?_) _ h
  extract_lets held
  split
  · exact audit_scanKeeps h _ _
  · exact .refl h

/-- `LC_STATE` is cleared and `LC_BOOT` set, as each boot begins (R403). -/
def lcBootCleared (s : State) : State := setLcBoot (wr s pgLc Reg.LC_STATE 0) 0 0

theorem lcBootCleared_scanKeeps {s : State} (h : s.canonical) : ScanKeeps s (lcBootCleared s) :=
  (wr_scanKeeps h _ (by decide) (by decide)).trans (wr_scanKeeps (wr_canonical h) _ (by decide) (by decide))

theorem getD_eq_none {α : Type} {l : List (Option α)} (h : ∀ x ∈ l, x = none) (i : Nat) : l.getD i none = none := by
  rw [List.getD_eq_getElem?_getD]
  cases hx : l[i]? with
  | none => rfl
  | some x => exact h x (List.mem_of_getElem? hx)

/-- Where flash holds no intent, none is taken. -/
theorem scanIntents_eq_none {s : State} (h : ∀ r ∈ s.flash.intents, r = none) : scanIntents s = none := by
  refine Eq.trans (congrArg (List.foldl _ none) (List.filterMap_eq_nil_iff.2 fun e he => ?_)) rfl
  rw [h e.1 (List.fst_mem_of_mem_zipIdx he)]

theorem intentScan_of_none {s : State} (h : ∀ r ∈ s.flash.intents, r = none) : intentScan s = lcBootCleared s := by
  have hscan : scanIntents (lcBootCleared s) = none := scanIntents_eq_none h
  unfold intentScan
  extract_lets cleared scanned
  have hscanned : scanned = lcBootCleared s := List.foldl_fixed' (fun i => by
    have hslot : cleared.flash.intents.getD i none = none := getD_eq_none h i
    simp only [hslot]) _
  rw [hscanned, hscan]

theorem checkCerts_of_none {s : State} (h : ∀ c ∈ s.flash.certs, c = none) : checkCerts s = updIso s :=
  congrArg updIso (List.foldl_fixed' (fun i => by simp only [getD_eq_none h i]) _)

/-! ### ROM_BOOT (R20, R394, R465, R466) -/

/-- The state with an image in the working store. -/
def withImage (s : State) (img : Bytes) : State :=
  { s with boot := { s.boot with store := { s.boot.store with image := img } } }

/-- The image is copied into the working store, but in SCRAP (R20, R394). -/
def imageCopied (flash : Bool) (s : State) : State :=
  if flash = true ∧ lcState s ≠ 0x60 then withImage s s.flash.image else s

/-- Intents and certificates of the flash are handled, and what the audit part lacks is noted, but in a warm start. -/
def romScanned (flash : Bool) (s : State) : State :=
  let u := if flash then checkCerts (intentScan s) else lcBootCleared s
  if u.boot.warm then u else auditGaps u

/-- Tuiner starts with the image of the working store (R465, R472). -/
def tuinerStarted (s : State) : State :=
  let img := s.boot.store.image
  { s with
    boot := { s.boot with
      phase := .settings
      fwIf := imageNum img 10 1
      imageVersion := imageNum img 8 2
      akVersion := s.fuse.secVersion
      imageDigest := sha512 (imageAt img 0 (imageNum img 4 4)) }
    err := { s.err with wdogTick := some (rd s pgErr Reg.ERR_TIME).toNat } }

/-- The ROM stops in SCRAP, enters the recovery path, or starts Tuiner. -/
def romEnds (flash : Bool) (s : State) : State :=
  if lcState s = 0x60 then { s with boot := { s.boot with phase := .scrap } }
  else if bootCause s flash ≠ 0 then enterRecovery s (bootCause s flash)
  else tuinerStarted s

theorem execRomBoot_eq {s : State} (hrom : s.boot.phase = .rom) (flash : Bool) :
    exec (.romBoot flash) s = .next (romEnds flash (romScanned flash (imageCopied flash s))) :=
  congrArg Host.Outcome.next (if_pos hrom)

theorem romScanned_scanKeeps {s : State} (h : s.canonical) {flash : Bool}
    (hflash : flash = true → (∀ r ∈ s.flash.intents, r = none) ∧ ∀ c ∈ s.flash.certs, c = none) :
    ScanKeeps s (romScanned flash s) := by
  have hcleared := lcBootCleared_scanKeeps h
  have hscan : ScanKeeps s (if flash then checkCerts (intentScan s) else lcBootCleared s) := by
    cases flash with
    | false => exact hcleared
    | true =>
      obtain ⟨hintents, hcerts⟩ := hflash rfl
      rw [if_pos rfl, intentScan_of_none hintents, checkCerts_of_none (s := lcBootCleared s) hcerts]
      exact hcleared.trans (updIso_scanKeeps hcleared.canonical)
  unfold romScanned
  extract_lets u
  split
  · exact hscan
  · exact hscan.trans (auditGaps_scanKeeps hscan.canonical)

theorem ScanKeeps.lcState_eq {s t : State} (h : ScanKeeps s t) : lcState t = lcState s := by
  rw [lcState, h.fuse, ← lcState]

/-- The checks rest on the fuses, the count of boots that the watchdog ended, and the image in the working store. -/
theorem bootCause_congr {s t : State} (hfuse : t.fuse = s.fuse) (hboots : t.err.wdogBoots = s.err.wdogBoots)
    (himg : t.boot.store.image = s.boot.store.image) (flash : Bool) : bootCause t flash = bootCause s flash := by
  have hpair : pairing t = pairing s := by rw [pairing, hfuse, ← pairing]
  have hlc : lcState t = lcState s := by rw [lcState, hfuse, ← lcState]
  simp only [bootCause, imageCheck, hpair, hlc, hfuse, hboots, himg]

theorem bootCause_unpaired {s : State} (h : s.fuse.hubReads = false ∨ s.fuse.baseReads = false ∨ pairing s = none)
    (flash : Bool) : bootCause s flash = 8 := by
  refine if_pos ?_
  rcases h with h | h | h <;> simp [h]

theorem ScanKeeps.bootCause_eq {s t : State} (h : ScanKeeps s t) {flash : Bool} : bootCause t flash = bootCause s flash :=
  bootCause_congr h.fuse h.wdogBoots (by rw [h.boot]) flash

/-- Of a part that reads and is of a listed pairing, the checks that follow decide. -/
theorem bootCause_paired {s : State} (hhub : s.fuse.hubReads = true) (hbase : s.fuse.baseReads = true)
    (hpair : pairing s ≠ none) (flash : Bool) :
    bootCause s flash = if lcState s = 0 then 9 else if 3 ≤ s.err.wdogBoots then 7
      else if flash then imageCheck s s.boot.store.image else 1 := by
  have hpaired : (pairing s).isNone = false := by simpa [Option.isSome_iff_ne_none] using hpair
  cases flash <;> simp [bootCause, hhub, hbase, hpaired]

/-- Without an answer from flash some check fails. -/
theorem bootCause_false_ne_zero (s : State) : bootCause s false ≠ 0 := by
  unfold bootCause
  split
  · decide
  · split
    · decide
    · split
      · decide
      · exact (if_pos rfl).trans_ne Nat.one_ne_zero

/-- The package in which the checks are made: the image of a flash that answers stands in the working store (R20). -/
def romChecked (flash : Bool) (s : State) : State := withImage s (if flash then s.flash.image else s.boot.store.image)

theorem imageCopied_eq_withImage (flash : Bool) (s : State) : ∃ img, imageCopied flash s = withImage s img := by
  unfold imageCopied
  split
  · exact ⟨_, rfl⟩
  · exact ⟨s.boot.store.image, rfl⟩

theorem imageCopied_of_not_scrap {s : State} (h : lcState s ≠ 0x60) (flash : Bool) :
    imageCopied flash s = romChecked flash s := by
  cases flash with
  | false => rfl
  | true => exact if_pos ⟨rfl, h⟩

theorem imageCheck_romChecked (flash : Bool) (s : State) (img : Bytes) : imageCheck (romChecked flash s) img = imageCheck s img :=
  rfl

/-- The ROM asks for an image with the in-band interrupt that no bit masks (R440, R466). -/
theorem enterRecovery_eq (s : State) (cause : Nat) : enterRecovery s cause =
    { s with
      boot := { s.boot with phase := .recovery, cause := cause }
      pcie := { s.pcie with recovery := true }
      i3c := { s.i3c with ibis := s.i3c.ibis ++ [4] } } := by
  unfold enterRecovery
  exact if_pos (.inl rfl)

theorem romEnds_scrap {s : State} (h : lcState s = 0x60) (flash : Bool) :
    romEnds flash s = { s with boot := { s.boot with phase := .scrap } } := if_pos h

theorem romEnds_recovery {s : State} {flash : Bool} (h : lcState s ≠ 0x60) (hc : bootCause s flash ≠ 0) :
    romEnds flash s = enterRecovery s (bootCause s flash) := by rw [romEnds, if_neg h, if_pos hc]

theorem romEnds_tuiner {s : State} {flash : Bool} (h : lcState s ≠ 0x60) (hc : bootCause s flash = 0) :
    romEnds flash s = tuinerStarted s := by rw [romEnds, if_neg h, if_neg (not_not_intro hc)]

/-- Whatever the ROM decides, memory, fuses, flash and the working store stay. -/
theorem romEnds_frame (flash : Bool) (s : State) : SameMemory s (romEnds flash s) ∧ (romEnds flash s).fuse = s.fuse ∧
    (romEnds flash s).flash = s.flash ∧ (romEnds flash s).boot.store = s.boot.store := by
  by_cases hscrap : lcState s = 0x60
  · rw [romEnds_scrap hscrap]
    exact ⟨⟨rfl, rfl⟩, rfl, rfl, rfl⟩
  · by_cases hcause : bootCause s flash = 0
    · rw [romEnds_tuiner hscrap hcause]
      exact ⟨⟨rfl, rfl⟩, rfl, rfl, rfl⟩
    · rw [romEnds_recovery hscrap hcause, enterRecovery_eq]
      exact ⟨⟨rfl, rfl⟩, rfl, rfl, rfl⟩

/-- The first check of R465 that fails names the cause (R465). -/
theorem bootCause_order {s : State} (hhub : s.fuse.hubReads = true) (hbase : s.fuse.baseReads = true) (hpair : pairing s ≠ none)
    (flash : Bool) :
    (lcState s = 0 → bootCause (romChecked flash s) flash = 9) ∧
    (lcState s ≠ 0 → 3 ≤ s.err.wdogBoots → bootCause (romChecked flash s) flash = 7) ∧
    (lcState s ≠ 0 → s.err.wdogBoots < 3 →
      bootCause (romChecked flash s) flash = if flash then imageCheck s s.flash.image else 1) := by
  have horder := bootCause_paired (s := romChecked flash s) hhub hbase hpair flash
  have hraw : lcState (romChecked flash s) = lcState s := rfl
  have hboots : (romChecked flash s).err.wdogBoots = s.err.wdogBoots := rfl
  rw [hraw, hboots, imageCheck_romChecked] at horder
  refine ⟨fun h0 => horder.trans (if_pos h0), fun h0 h3 => horder.trans ((if_neg h0).trans (if_pos h3)), fun h0 h3 => ?_⟩
  rw [horder, if_neg h0, if_neg (Nat.not_le_of_lt h3)]
  cases flash with
  | false => simp only [Bool.false_eq_true, if_false]
  | true => exact congrArg (imageCheck s) (rfl : (romChecked true s).boot.store.image = s.flash.image)

/-- The ROM decides on what it has scanned as on the package as it was, with the image copied. -/
theorem romBoot_completes {s : State} (hs : s.canonical) (hrom : s.boot.phase = .rom) {flash : Bool}
    (hflash : flash = true → (∀ r ∈ s.flash.intents, r = none) ∧ ∀ c ∈ s.flash.certs, c = none) :
    Completes (.romBoot flash) s fun t =>
      SameMemory s t ∧ t.fuse = s.fuse ∧ t.flash = s.flash ∧
      (lcState s = 0x60 → t.boot.phase = .scrap) ∧
      (lcState s ≠ 0x60 → bootCause (romChecked flash s) flash ≠ 0 →
        t.boot.phase = .recovery ∧ t.boot.cause = bootCause (romChecked flash s) flash ∧ t.pcie.recovery = true ∧
        t.i3c.ibis = s.i3c.ibis ++ [4]) ∧
      (lcState s ≠ 0x60 → t.boot.store = (romChecked flash s).boot.store) ∧
      (lcState s ≠ 0x60 → bootCause (romChecked flash s) flash = 0 →
        t.boot.phase = .settings ∧ t.boot.fwIf = imageNum s.flash.image 10 1 ∧
        t.boot.imageDigest = sha512 (imageAt s.flash.image 0 (imageNum s.flash.image 4 4)) ∧
        t.boot.akVersion = s.fuse.secVersion ∧ t.err.wdogTick = some (rd s pgErr Reg.ERR_TIME).toNat) := by
  obtain ⟨v, hv⟩ : ∃ v, v = romScanned flash (imageCopied flash s) := ⟨_, rfl⟩
  obtain ⟨img, himg⟩ := imageCopied_eq_withImage flash s
  have hscan : ScanKeeps (withImage s img) v := by
    rw [hv, himg]
    exact romScanned_scanKeeps (s := withImage s img) hs hflash
  have hlc : lcState v = lcState s := hscan.lcState_eq
  have hchecked : lcState s ≠ 0x60 → withImage s img = romChecked flash s :=
    fun h => himg.symm.trans (imageCopied_of_not_scrap h flash)
  have hcause : lcState s ≠ 0x60 → bootCause v flash = bootCause (romChecked flash s) flash :=
    fun h => hscan.bootCause_eq.trans (congrArg (bootCause · flash) (hchecked h))
  obtain ⟨⟨hmem, hhost⟩, hfuse, hfl, hstore⟩ := romEnds_frame flash v
  refine ⟨romEnds flash v, hv ▸ execRomBoot_eq hrom flash, ⟨hmem.trans hscan.memory.1, hhost.trans hscan.memory.2⟩,
    hfuse.trans hscan.fuse, hfl.trans hscan.flash, fun h => ?scrap, fun h hc => ?recovery, fun h => ?store, fun h hc => ?tuiner⟩
  case scrap => rw [romEnds_scrap (hlc.trans h)]
  case recovery =>
    rw [romEnds_recovery (hlc.trans_ne h) (hcause h ▸ hc), enterRecovery_eq]
    exact ⟨rfl, hcause h, rfl, congrArg (·.ibis ++ [4]) hscan.i3c⟩
  case store => rw [hstore, hscan.boot, hchecked h]
  case tuiner =>
    have hanswers : flash = true := by
      cases flash with
      | false => exact absurd hc (bootCause_false_ne_zero _)
      | true => rfl
    have himage : v.boot.store.image = s.flash.image := by
      rw [hscan.boot, hchecked h, hanswers]
      rfl
    have htime : rd v pgErr Reg.ERR_TIME = rd s pgErr Reg.ERR_TIME := hscan.time
    have hversion : v.fuse.secVersion = s.fuse.secVersion := congrArg (·.secVersion) hscan.fuse
    rw [romEnds_tuiner (hlc.trans_ne h) ((hcause h).trans hc), ← himage, ← htime, ← hversion]
    exact ⟨rfl, rfl, rfl, rfl, rfl⟩

/-- Settles O58: POWER_ON's effects are plain writes, and ROM_BOOT's scan keeps all that its checks rest on. -/
theorem powerOnStartsTheRomAndItsChecksDecide : Obligations.PowerOnStartsTheRomAndItsChecksDecide := by
  intro strap perst flash s hs
  refine ⟨fun hoff hclk => powerOn_completes hs hoff hclk strap perst, fun hrom hflash => ⟨fun hfails => ?_, ?_, ?_⟩⟩
  · exact bootCause_unpaired (s := romChecked flash s) hfails flash
  · exact fun hhub hbase hpair => bootCause_order hhub hbase hpair flash
  · exact romBoot_completes hs hrom hflash

end Sys2Proof.Machine
end

section
/-!
SUPPORT. The state after reset lists no register: each register reads as the reset column of its table says (R34, R43).
-/

namespace Sys2Proof.Machine

open Sys2Proof

/-- Settles O3: the reset state lists no register, so each reads as the reset column of its table says. -/
theorem resetHoldsTheTablesValues : Obligations.ResetHoldsTheTablesValues := by
  refine ⟨?identity, rfl, rfl, rfl, ?controllers, ?slices, ?sites, rfl, rfl, rfl, rfl, rfl, rfl⟩
  case identity => decide
  case controllers => decide
  case slices => decide
  case sites => decide

end Sys2Proof.Machine
end

section
/-!
SUPPORT. States in which a reset, a rail or a step of bring-up does what a statement of this family leaves out; the kernel
evaluates each command.
-/

namespace Sys2Proof.Machine

open Sys2Proof

/-! ### A reduction slot of a context that does not exist (R295, R321, R420) -/

/-- The context number whose counter `CTX_OUT` in partition 0 would stand at an offset of the page of site 0. -/
def strayContext (off : Nat) : Nat := (regAddr (pgSite 0) off - regAddr (pgPart 0) (Reg.CTX_OUT 0)) / 8

/-- Site 0 is ADMITTED, in a state and with the bits of `PAGE_CTL` given.  A reduction slot that an agent there submitted to
belongs to a DRAINING context whose number no context has: the context's counter is the site's register at `off`. -/
def straySlot (off st ctl : Nat) : State :=
  let x := strayContext off
  let s := { State.reset with
    boot := { State.reset.boot with phase := .ready }
    pcie := { State.reset.pcie with link := true }
    work := [⟨0, x, 0, 0, [], .run, [], 0⟩]
    slots := [⟨0, 0, x, 0, [(0, 0)]⟩] }
  wr (wr (wr s (pgSite 0) Reg.PAGE_CTL (w64 ctl)) (pgSite 0) Reg.PAGE_STAT (w64 (st + 4 <<< 8))) (pgPart 0) (Reg.CTX_STATE x) 4

theorem straySlot_canonical (off st ctl : Nat) : (straySlot off st ctl).canonical :=
  wr_canonical (wr_canonical (wr_canonical reset_canonical))

/-- Site 0 is QUIESCED, and the slot's counter is its `PAGE_CTL`. -/
def straySlotQuiesced : State := straySlot Reg.PAGE_CTL 4 3

/-- The site is disabled with QUIESCE kept; as it is lost to the package its slot fails, and the release of the slot's descriptor
takes one from `PAGE_CTL`, which leaves ENABLE set. -/
theorem straySlotQuiesced_disabled :
    observe (fun t => enabled t (pgSite 0)) (exec (.pageDisable 0 (pgSite 0) 2) straySlotQuiesced) = some true := by
  decide +kernel

/-- Refutes O12: the statement bounds no slot's context, and one whose number no context has stands for the site's `PAGE_CTL`
itself, whose ENABLE a write that clears it then leaves set. -/
theorem not_pagesMoveAsPageCtlAsks : ¬ Obligations.PagesMoveAsPageCtlAsks := by
  intro h
  obtain ⟨-, hdisable, -⟩ := h.1 0 (pgSite 0) 2 straySlotQuiesced (straySlot_canonical _ _ _) (by decide +kernel) (by decide)
    (by decide +kernel) (by decide)
  obtain ⟨t, ⟨-, hcleared, -⟩, hset⟩ := (hdisable (by decide +kernel) (by decide)).observed straySlotQuiesced_disabled
  exact absurd (hset.symm.trans hcleared) (by decide)

/-- Site 0 is in service, and the slot's counter is its `PAGE_STAT`. -/
def straySlotReady : State := straySlot Reg.PAGE_STAT 3 1

/-- The site enters FAULT, state 5, and the release of the slot's descriptor takes one from `PAGE_STAT`. -/
theorem straySlotReady_faulted :
    observe (fun t => pageState t (pgSite 0)) (exec (.siteRailLost 0) straySlotReady) = some 4 := by
  decide +kernel

/-- Refutes O53: the statement bounds no slot's context, and with one whose number no context has a site that loses its rail in
service shows QUIESCED, not FAULT. -/
theorem not_resetsAndPowerTakeTheirEffect : ¬ Obligations.ResetsAndPowerTakeTheirEffect := by
  intro h
  obtain ⟨hlost, -⟩ := h.2 0 0 straySlotReady (straySlot_canonical _ _ _) (by decide) (by decide)
  obtain ⟨t, ⟨-, -, -, hfault⟩, hstate⟩ := (hlost (by decide +kernel)).observed straySlotReady_faulted
  exact absurd (hstate.symm.trans hfault) (by decide)

/-! ### A defect map that names a cluster that does not exist (R92, R478) -/

/-- Bring-up has trained every part; the factory map names a cache bank of a cluster 424, whose page would be that of ring 0, and
the register at the offset of `BANK_REMAP` there shows six banks replaced. -/
def clusterBeyond : State :=
  wr { State.reset with
    boot := { State.reset.boot with phase := .defects }
    fuse := { State.reset.fuse with factory := { State.reset.fuse.factory with cacheBanks := [(pgRing 0 - pgCl 0, 0)] } } }
    (pgRing 0) Reg.BANK_REMAP (w64 (6 <<< 48))

/-- The bank needs a seventh spare, so the page is FENCED. -/
theorem clusterBeyond_fenced :
    observe (fun t => pageState t (pgRing 0)) (exec (.defects true) clusterBeyond) = some 6 := by
  decide +kernel

/-- Refutes O59: the statement bounds no entry of the defect maps, and one of a cluster whose number no cluster has FENCES a
ring that was not faulted, where DEFECTS is to bring it into service. -/
theorem not_bringUpRunsItsStepsInOrder : ¬ Obligations.BringUpRunsItsStepsInOrder := by
  intro h
  obtain ⟨-, -, hdefects, -⟩ := h 0 0 0 0 0 0 0 0 true 0 [] [] [] clusterBeyond (wr_canonical reset_canonical) (by decide)
    (by decide) (by decide) (by decide) (by decide) (by decide)
  obtain ⟨t, ⟨-, hring, -⟩, hfenced⟩ := (hdefects rfl (by decide +kernel)).observed clusterBeyond_fenced
  have hready := hring List.not_mem_nil (by decide +kernel) (by decide +kernel)
  exact absurd (hfenced.symm.trans hready) (by decide)

end Sys2Proof.Machine
end

section
/-!
SUPPORT. The bit of `EVT_STAT` that an event sets (R36): the triggers that it fires and the wire leave it set.
-/

namespace Sys2Proof.Machine

open Sys2Proof

theorem sendPme_regs (s : State) (rising : Nat) : (sendPme s rising).regs = s.regs := by
  refine List.foldlRecOn (motive := fun t : State => t.regs = s.regs) _ _ rfl fun t ht f _ => ?_
  split
  · split
    · exact ht
    · exact ht
  · exact ht

theorem updWire_regs (s : State) : (updWire s).regs = s.regs := by
  unfold updWire
  extract_lets lv rising t t1 wire t2 t3
  have h1 : t1.regs = s.regs := sendPme_regs _ _
  have h3 : t3.regs = t1.regs := by
    unfold t3
    split <;> rfl
  split
  · exact h3.trans h1
  · exact h3.trans h1

/-- The recorder's marks stand on its own page. -/
theorem rd_evrErr_otherPage {s : State} (h : s.canonical) (code : Nat) {p o : Nat} (hp : p ≠ pgEvr) (ho : o < 0x10000) :
    rd (evrErr s code) p o = rd s p o := by
  have hne : ∀ r, ¬(p = pgEvr ∧ o = r) := fun _ x => hp x.1
  unfold evrErr
  extract_lets t1 t2 t3
  have h1 : rd t1 p o = rd s p o := rd_wr_other h _ (by decide) ho (hne _)
  have k1 : t1.canonical := addReg_canonical h
  have h2 : rd t2 p o = rd t1 p o := by
    unfold t2
    split
    · exact rd_wr_other k1 _ (by decide) ho (hne _)
    · exact rd_wr_other k1 _ (by decide) ho (hne _)
  have k2 : t2.canonical := (Kept_ite (wb_kept k1.kept) (wr_kept k1.kept)).1
  have h3 : rd t3 p o = rd t2 p o := rd_wr_other k2 _ (by decide) ho (hne _)
  rw [rd, updWire_regs]
  exact h3.trans (h2.trans h1)

theorem rd_genWrite_otherPage {s : State} (h : s.canonical) (e : Entry) {p o : Nat} (hp : p ≠ pgEvr) (ho : o < 0x10000) :
    rd (genWrite s e) p o = rd s p o := by
  have hne : ∀ r, ¬(p = pgEvr ∧ o = r) := fun _ x => hp x.1
  unfold genWrite
  split
  · extract_lets _ t1 t2
    have k1 : t1.canonical := h
    have h2 : rd t2 p o = rd s p o := rd_wr_other k1 _ (by decide) ho (hne _)
    have k2 : t2.canonical := wf_canonical k1
    split
    · have k3 : (wb t2 pgEvr Reg.EVR_STAT 31 true).canonical := wb_canonical k2
      rw [rd_evrErr_otherPage (rawEvt_kept k3.kept).1 _ hp ho, rawEvt, wb, wf, rd_wr_other k3 _ (by decide) ho (hne _), wb, wf,
        rd_wr_other k2 _ (by decide) ho (hne _), h2]
    · exact h2
  · extract_lets t1
    have h1 : rd t1 p o = rd s p o := by
      unfold t1
      split
      · exact rd_wr_other h _ (by decide) ho (hne _)
      · rfl
    have k1 : t1.canonical := (Kept_ite (wr_kept h.kept) h.kept).1
    rw [addReg, rd_wr_other k1 _ (by decide) ho (hne _), h1]

theorem rd_fireTriggers_otherPage {s : State} (h : s.canonical) (q b : Nat) {p o : Nat} (hp : p ≠ pgEvr) (ho : o < 0x10000) :
    rd (fireTriggers s q b) p o = rd s p o := by
  refine (List.foldlRecOn (motive := fun t : State => t.canonical ∧ rd t p o = rd s p o) _ _ ⟨h, rfl⟩ fun t ht n _ => ?_).2
  extract_lets v
  split
  · exact ⟨(fireTrigger_kept ht.1.kept).1, (rd_genWrite_otherPage ht.1 _ hp ho).trans ht.2⟩
  · exact ht

/-- An event of a page other than the recorder's stands in the page's `EVT_STAT`. -/
theorem rb_raiseEvt_same {s : State} (h : s.canonical) {p b : Nat} (hp : p ≠ pgEvr) (hb : b < 64) :
    rb (raiseEvt s p b) p Reg.EVT_STAT b = true := by
  unfold raiseEvt
  split
  · assumption
  · have hraw : (rawEvt s p b).canonical := (rawEvt_kept h.kept).1
    rw [rb, rd, updWire_regs, ← rd, rd_fireTriggers_otherPage hraw p b hp (by decide), ← rb]
    exact rb_wb_same h p Reg.EVT_STAT b true hb

end Sys2Proof.Machine
end

section
/-!
SUPPORT. What the security core leaves as it was when it records a count, an error or an audit entry, and how it ends a
command (R397, R410, R455).
-/

namespace Sys2Proof.Machine

open Sys2Proof

/-! ### What a command records on its way -/

/-- The registers that a signed command writes to record what it does, besides the marks of events. -/
abbrev secReg (p off : Nat) : Prop :=
  (p = pgEvr ∧ (off = Reg.AUDIT_NEXT ∨ off = Reg.AUDIT_LOST)) ∨ (p = pgSec ∧ (off = Reg.ERR_COUNT ∨ off = Reg.ERR_FIRST)) ∨
    off = Reg.ISO_STAT

/-- The same state with another audit part. -/
def withAudit (s : State) (l : List (Nat × Entry)) : State := { s with evr := { s.evr with audit := l } }

/-- `t` is `s` but for what it records: audit entries, errors of the SEC page, `ISO_STAT`, and the marks of events. -/
structure Recorded (s t : State) : Prop where
  canonical : t.canonical
  same : SameBut secReg (withAudit s t.evr.audit) t

theorem SameBut.withAudit {q : Nat → Nat → Prop} {s t : State} (h : SameBut q s t) (l : List (Nat × Entry)) :
    SameBut q (withAudit s l) (withAudit t l) where
  regs := h.regs
  rest := by rw [h.rest]; rfl
  pcie := h.pcie
  cfg := h.cfg
  board := h.board
  evr := congrArg (fun e : Evr => { e with audit := l }) h.evr
  err := h.err
  out := h.out

theorem Recorded.of_sameBut {s t : State} (ht : t.canonical) (h : SameBut secReg s t) : Recorded s t := by
  refine ⟨ht, ?_⟩
  have haudit : s.evr.audit = t.evr.audit := by rw [h.evr]
  rw [← haudit]
  exact h

theorem Recorded.refl {s : State} (h : s.canonical) : Recorded s s := .of_sameBut h (.refl _ _)

theorem Recorded.trans {s t u : State} (h : Recorded s t) (k : Recorded t u) : Recorded s u :=
  ⟨k.canonical, (h.same.withAudit u.evr.audit).trans' k.same⟩

theorem Recorded.rd_eq {s t : State} (h : Recorded s t) {p off : Nat} (ho : off < 0x10000) (he : ¬ evtReg p off)
    (hq : ¬ secReg p off) : rd t p off = rd s p off := h.same.rd_eq ho he hq

theorem Recorded.memory {s t : State} (h : Recorded s t) : SameMemory s t := ⟨h.same.mem_eq, h.same.hostMem_eq⟩
theorem Recorded.fuse {s t : State} (h : Recorded s t) : t.fuse = s.fuse := by rw [h.same.rest]; rfl
theorem Recorded.flash {s t : State} (h : Recorded s t) : t.flash = s.flash := by rw [h.same.rest]; rfl
theorem Recorded.sec {s t : State} (h : Recorded s t) : t.sec = s.sec := by rw [h.same.rest]; rfl
theorem Recorded.mbx {s t : State} (h : Recorded s t) : t.mbx = s.mbx := by rw [h.same.rest]; rfl
theorem Recorded.mirror {s t : State} (h : Recorded s t) : t.evr.mirror = s.evr.mirror :=
  (congrArg Evr.mirror h.same.evr).symm
theorem Recorded.mirrorBase {s t : State} (h : Recorded s t) : t.evr.mirrorBase = s.evr.mirrorBase :=
  (congrArg Evr.mirrorBase h.same.evr).symm

theorem wr_recorded {s : State} (h : s.canonical) {p off : Nat} (v : Word) (ho : off < 0x10000) (hq : secReg p off) :
    Recorded s (wr s p off v) :=
  .of_sameBut (wr_canonical h) ((wr_sameBut h p off v ho).mono fun _ _ x => x.1 ▸ x.2 ▸ hq)

theorem raiseEvt_recorded {s : State} (h : s.canonical) (p b : Nat) : Recorded s (raiseEvt s p b) :=
  .of_sameBut (raiseEvt_canonical h) (raiseEvt_sameBut h p b).none

theorem countError_recorded {s : State} (h : s.canonical) (code status cls : Nat) (ctx : Option Nat) :
    Recorded s (countError s pgSec code status cls ctx) :=
  .of_sameBut (countError_canonical h) ((countErrorAt_sameBut h _ _ _ _ _ _).mono fun _ _ x => .inr (.inl x))

theorem recorded_foldl {α : Type} {f : State → α → State} (hf : ∀ s a, s.canonical → Recorded s (f s a)) (l : List α)
    {s : State} (h : s.canonical) : Recorded s (l.foldl f s) := by
  induction l generalizing s with
  | nil => exact .refl h
  | cons a l ih => exact (hf s a h).trans (ih (hf s a h).canonical)

theorem updIso_recorded {s : State} (h : s.canonical) : Recorded s (updIso s) := by
  refine recorded_foldl (fun s k h => ?_) _ h
  extract_lets v
  split
  · exact .refl h
  · exact (wr_recorded h _ (by decide) (.inr (.inr rfl))).trans (raiseEvt_recorded (wf_canonical h) _ _)

/-- An audit entry that takes the last but 64 places also records AUDIT_LOW (R455). -/
theorem audit_recorded {s : State} (h : s.canonical) (code : Nat) (snaps : List Word) : Recorded s (audit s code snaps) := by
  unfold audit
  split
  · extract_lets n e _ entered numbered
    have hentered : Recorded s entered := ⟨h, .refl _ _⟩
    have hnumbered : Recorded s numbered :=
      hentered.trans (wr_recorded hentered.canonical _ (by decide) (.inl ⟨rfl, .inl rfl⟩))
    split
    · have hraw : (rawEvt numbered pgEvr 1).canonical := (rawEvt_kept hnumbered.canonical.kept).1
      exact hnumbered.trans (.of_sameBut (evrErr_kept hraw.kept).1
        ((rawEvt_sameBut hnumbered.canonical _ _).trans' (evrErr_sameBut hraw _)).none)
    · exact hnumbered
  · exact wr_recorded h _ (by decide) (.inl ⟨rfl, .inr rfl⟩)

theorem useCount_recorded {s : State} (h : s.canonical) (setting left : Nat) (v : Bytes) :
    Recorded s (useCount s setting left v) :=
  (audit_recorded h _ _).trans (raiseEvt_recorded (audit_recorded h _ _).canonical _ _)

/-! ### How a command ends -/

/-- A request in F0's secure mailbox stands in registers from 0x1000 on, none of which a command writes. -/
theorem mailbox_eq {s t : State} (h : ∀ off, 0x1000 ≤ off → off < 0x10000 → rd t (pgMbx true) off = rd s (pgMbx true) off) :
    mbxState t true 0 = mbxState s true 0 ∧ reqBytes t true 0 = reqBytes s true 0 := by
  refine ⟨congrArg (fld · 0 3) (h _ (by decide) (by decide)), ?_⟩
  refine List.flatMap_congr fun i hi => congrArg wordBytes (h (Reg.REQ 0 i) ?_ ?_)
  · simp only [Reg.REQ]
    omega
  · have hlt : i < 32 := List.mem_range.1 hi
    simp only [Reg.REQ]
    omega

/-- `u` is the package on the way of a signed command that took its request in `s`: the nonce is spent, the request still
stands, and nothing has been answered (R398). -/
structure Serving (s u : State) : Prop where
  canonical : u.canonical
  nonce : u.sec.nonce = none
  mbx : u.mbx = s.mbx
  memory : SameMemory s u
  state : mbxState u true 0 = mbxState s true 0
  request : reqBytes u true 0 = reqBytes s true 0

theorem Serving.of_mailbox {s u v : State} (h : Serving s u) (hc : v.canonical) (hnonce : v.sec.nonce = u.sec.nonce)
    (hmbx : v.mbx = u.mbx) (hmem : SameMemory u v)
    (hrd : ∀ off, 0x1000 ≤ off → off < 0x10000 → rd v (pgMbx true) off = rd u (pgMbx true) off) : Serving s v := by
  obtain ⟨hstate, hreq⟩ := mailbox_eq hrd
  exact ⟨hc, hnonce.trans h.nonce, hmbx.trans h.mbx, ⟨hmem.1.trans h.memory.1, hmem.2.trans h.memory.2⟩, hstate.trans h.state,
    hreq.trans h.request⟩

theorem Serving.recorded {s u v : State} (h : Serving s u) (k : Recorded u v) : Serving s v := by
  refine h.of_mailbox k.canonical (congrArg (·.nonce) k.sec) k.mbx k.memory fun off h1 h2 => k.rd_eq h2 ?_ ?_
  · exact not_evtReg_of_page (by decide) (by rintro rfl; exact absurd h1 (by decide))
  · rintro (x | x | rfl)
    · exact absurd x.1 (by decide)
    · exact absurd x.1 (by decide)
    · exact absurd h1 (by decide)

/-- Fuses, flash and the recorder's lists may change beside. -/
theorem Serving.of_regs {s u v : State} (h : Serving s u) (hregs : v.regs = u.regs) (hmem : v.mem = u.mem)
    (hhost : v.hostMem = u.hostMem) (hmbx : v.mbx = u.mbx) (hnonce : v.sec.nonce = u.sec.nonce) : Serving s v := by
  obtain ⟨hc1, hc2, hc3⟩ := h.canonical
  exact h.of_mailbox ⟨hregs ▸ hc1, hmem ▸ hc2, hhost ▸ hc3⟩ hnonce hmbx ⟨hmem, hhost⟩ fun _ _ _ => by rw [rd, hregs, ← rd]

/-- The nonce is consumed. -/
def nonceSpent (s : State) : State := { s with sec := { s.sec with nonce := none } }

theorem nonceSpent_serving {s : State} (h : s.canonical) : Serving s (nonceSpent s) := ⟨h, rfl, rfl, ⟨rfl, rfl⟩, rfl, rfl⟩

/-- SEC_LAST and CMD_DONE, before the answer (R360, R410). -/
def secMarked (u : State) (b : Bytes) (status : Nat) : State :=
  raiseEvt (wr u pgSec Reg.SEC_LAST (w64 (msgCode b + status <<< 16 + leAt b 3 1 <<< 24))) pgSec 0

theorem secMarked_sameBut {u : State} (h : u.canonical) (b : Bytes) (status : Nat) :
    SameBut (oneReg pgSec Reg.SEC_LAST) u (secMarked u b status) :=
  (wr_sameBut h _ _ _ (by decide)).trans' (raiseEvt_sameBut (wr_canonical h) _ _).none

/-- The fields CODE and STATUS of `SEC_LAST`. -/
theorem secLast_fields {code status signer : Nat} (hc : code < 0x10000) (hst : status < 0x100) :
    fld (w64 (code + status <<< 16 + signer <<< 24)) 0 16 = code ∧
    fld (w64 (code + status <<< 16 + signer <<< 24)) 16 8 = status := by
  simp only [fld, w64, BitVec.toNat_ofNat, Nat.shiftLeft_eq, Nat.shiftRight_eq_div_pow]
  omega

theorem takenReq_eq {s : State} {sec : Bool} {f code : Nat} {b : Bytes} (h : takenReq s sec f code = some b) :
    mbxState s sec f = 2 ∧ msgCode b = code ∧ reqBytes s sec f = b := by
  unfold takenReq at h
  split at h
  · next hc =>
    obtain ⟨-, hstate, hcode, -⟩ := hc
    exact ⟨hstate, Option.some.inj h ▸ hcode, Option.some.inj h⟩
  · exact absurd h (by simp)

/-- An answer to a request that still stands is put into its mailbox (R360). -/
theorem reply_taken {s : State} {sec : Bool} {f code : Nat} (htake : mbxState s sec f = 2 ∧ msgCode (reqBytes s sec f) = code)
    (hcode : code < 0x8000) (status : Nat) (body : Bytes) :
    reply s sec f code status body = { s with mbx := s.mbx ++ [mbxAnswer sec f code status body] } := by
  rw [reply, if_pos htake, Nat.mod_eq_of_lt hcode]
  rfl

/-- A command that took its request ends with one answer. -/
theorem secDone_eq {s u : State} (h : Serving s u) {code : Nat} {b : Bytes} (htaken : takenReq s true 0 code = some b)
    (hcode : code < 0x8000) (status : Nat) :
    secDone u b status [] =
      { secMarked u b status with mbx := s.mbx ++ [mbxAnswer true 0 code status []] } := by
  obtain ⟨hstate, hmsg, hreq⟩ := takenReq_eq htaken
  have hsame := secMarked_sameBut h.canonical b status
  obtain ⟨hstate', hreq'⟩ := mailbox_eq fun off h1 h2 => hsame.rd_eq (p := pgMbx true) h2
    (not_evtReg_of_page (by decide) (by intro x; rw [x] at h1; exact absurd h1 (by decide))) (fun x => absurd x.1 (by decide))
  have htake : mbxState (secMarked u b status) true 0 = 2 ∧ msgCode (reqBytes (secMarked u b status) true 0) = msgCode b := by
    rw [hstate', hreq', h.state, h.request, hreq]
    exact ⟨hstate, rfl⟩
  have hmbx : (secMarked u b status).mbx = s.mbx := by rw [hsame.rest]; exact h.mbx
  exact (reply_taken htake (hmsg ▸ hcode) _ _).trans (by rw [hmbx, hmsg])

/-- How a command of code `code` ends, OK where `good`, else UNCORRECTABLE: its nonce is spent, and it is answered and shown in
`SEC_LAST`. -/
def SecEnds (s : State) (code : Nat) (good : Bool) (t : State) : Prop :=
  let status := if good then 0 else 4
  t.sec.nonce = none ∧ t.mbx = s.mbx ++ [mbxAnswer true 0 code status []] ∧ rf t pgSec Reg.SEC_LAST 0 16 = code ∧
  rf t pgSec Reg.SEC_LAST 16 8 = status ∧ rb t pgSec Reg.EVT_STAT 0 = true ∧ SameMemory s t

/-- What the end of a command leaves as the command made it. -/
structure SecLeaves (u t : State) : Prop where
  fuse : t.fuse = u.fuse
  flash : t.flash = u.flash
  sec : t.sec = u.sec
  mirror : t.evr.mirror = u.evr.mirror
  mirrorBase : t.evr.mirrorBase = u.evr.mirrorBase
  regs : ∀ p off, off < 0x10000 → ¬ evtReg p off → ¬ secReg p off → ¬(p = pgSec ∧ off = Reg.SEC_LAST) → rd t p off = rd u p off

theorem SecLeaves.after {u v t : State} (h : SecLeaves v t) (k : Recorded u v) : SecLeaves u t where
  fuse := h.fuse.trans k.fuse
  flash := h.flash.trans k.flash
  sec := h.sec.trans k.sec
  mirror := h.mirror.trans k.mirror
  mirrorBase := h.mirrorBase.trans k.mirrorBase
  regs p off ho he hq hl := (h.regs p off ho he hq hl).trans (k.rd_eq ho he hq)

theorem secDone_ends {s u : State} (h : Serving s u) {code : Nat} {b : Bytes} (htaken : takenReq s true 0 code = some b)
    (hcode : code < 0x8000) (good : Bool) : SecEnds s code good (secDone u b (if good then 0 else 4) []) := by
  obtain ⟨status, hstatus⟩ : ∃ status, status = if good then 0 else 4 := ⟨_, rfl⟩
  obtain ⟨-, hmsg, -⟩ := takenReq_eq htaken
  have hsame := secMarked_sameBut h.canonical b status
  have hlast : rd (secMarked u b status) pgSec Reg.SEC_LAST = w64 (code + status <<< 16 + leAt b 3 1 <<< 24) := by
    rw [secMarked, rd_raiseEvt (wr_canonical h.canonical) (by decide) (not_evtReg (by decide)), rd_wr_same h.canonical, hmsg]
  have hsmall : status < 0x100 := by
    rw [hstatus]
    split <;> decide
  obtain ⟨hfldCode, hfldStatus⟩ := secLast_fields (signer := leAt b 3 1) (hcode.trans (by decide)) hsmall
  unfold SecEnds
  rw [← hstatus, secDone_eq h htaken hcode]
  refine ⟨?_, rfl, ?_, ?_, rb_raiseEvt_same (wr_canonical h.canonical) (by decide) (by decide),
    hsame.mem_eq.trans h.memory.1, hsame.hostMem_eq.trans h.memory.2⟩
  · exact (congrArg (·.sec.nonce) hsame.rest).trans h.nonce
  · exact (congrArg (fld · 0 16) hlast).trans hfldCode
  · exact (congrArg (fld · 16 8) hlast).trans hfldStatus

theorem secDone_leaves {s u : State} (h : Serving s u) {code : Nat} {b : Bytes} (htaken : takenReq s true 0 code = some b)
    (hcode : code < 0x8000) (status : Nat) : SecLeaves u (secDone u b status []) := by
  have hsame := secMarked_sameBut h.canonical b status
  rw [secDone_eq h htaken hcode]
  exact ⟨congrArg (·.fuse) hsame.rest, congrArg (·.flash) hsame.rest, congrArg (·.sec) hsame.rest,
    (congrArg Evr.mirror hsame.evr).symm, (congrArg Evr.mirrorBase hsame.evr).symm, fun _ _ ho he _ hl => hsame.rd_eq ho he hl⟩

theorem writeFails_ends {s u : State} (h : Serving s u) {code : Nat} {b : Bytes} (htaken : takenReq s true 0 code = some b)
    (hcode : code < 0x8000) (err : Nat) : SecEnds s code false (writeFails u b err) ∧ SecLeaves u (writeFails u b err) := by
  have hrec := countError_recorded h.canonical err 4 0 none
  have hserving := h.recorded hrec
  exact ⟨secDone_ends hserving htaken hcode false, (secDone_leaves hserving htaken hcode 4).after hrec⟩

/-! ### The counted settings (R48, R49, R400) -/

/-- The same state with the fuses changed by `f`. -/
def withFuse (f : Fuse → Fuse) (s : State) : State := { s with fuse := f s.fuse }

theorem withFuse_serving {s u : State} (h : Serving s u) (f : Fuse → Fuse) : Serving s (withFuse f u) :=
  h.of_regs rfl rfl rfl rfl rfl

/-- The count of a setting is spent: `g` counts it in the fuses. -/
def counted (g : Fuse → Fuse) (setting left : Nat) (v : Bytes) (u : State) : State := useCount (withFuse g u) setting left v

theorem counted_recorded {s u : State} (h : Serving s u) (g : Fuse → Fuse) (setting left : Nat) (v : Bytes) :
    Recorded (withFuse g u) (counted g setting left v u) :=
  useCount_recorded (withFuse_serving h g).canonical _ _ _

theorem counted_serving {s u : State} (h : Serving s u) (g : Fuse → Fuse) (setting left : Nat) (v : Bytes) :
    Serving s (counted g setting left v u) :=
  (withFuse_serving h g).recorded (counted_recorded h _ _ _ _)

/-- A value that the setting already holds uses no count. -/
theorem setCounted_same {s u : State} (h : Serving s u) {code : Nat} {b : Bytes} (htaken : takenReq s true 0 code = some b)
    (hcode : code < 0x8000) (ok : Bool) (count value : State → State) :
    SecEnds s code true (setCounted u b true ok count value) ∧ SecLeaves u (setCounted u b true ok count value) :=
  ⟨secDone_ends h htaken hcode true, secDone_leaves h htaken hcode 0⟩

/-- Another value takes effect after its count where the fuse write succeeds. -/
theorem setCounted_new {s u : State} {count value : State → State} (hcount : Serving s (count u))
    (hvalue : Serving s (value (count u))) {code : Nat} {b : Bytes} (htaken : takenReq s true 0 code = some b)
    (hcode : code < 0x8000) (ok : Bool) :
    SecEnds s code ok (setCounted u b false ok count value) ∧
    SecLeaves (if ok then value (count u) else count u) (setCounted u b false ok count value) := by
  cases ok with
  | true => exact ⟨secDone_ends hvalue htaken hcode true, secDone_leaves hvalue htaken hcode 0⟩
  | false => exact writeFails_ends hcount htaken hcode 2

/-- A setting that stands in the fuses alone: `g` counts, and `f` programs the value. -/
theorem setCounted_fuse {s u : State} (h : Serving s u) {code : Nat} {b : Bytes} (htaken : takenReq s true 0 code = some b)
    (hcode : code < 0x8000) (ok : Bool) (g f : Fuse → Fuse) (setting left : Nat) (v : Bytes) :
    let t := setCounted u b false ok (counted g setting left v) (withFuse f)
    SecEnds s code ok t ∧ SecLeaves (withFuse (fun e => if ok then f (g e) else g e) u) t := by
  have hcount := counted_serving h g setting left v
  have hrec := counted_recorded h g setting left v
  obtain ⟨hends, hleaves⟩ := setCounted_new (value := withFuse f) hcount (withFuse_serving hcount f) htaken hcode ok
  refine ⟨hends, ?_⟩
  cases ok with
  | true =>
    exact ⟨hleaves.fuse.trans (congrArg f hrec.fuse), hleaves.flash.trans hrec.flash, hleaves.sec.trans hrec.sec,
      hleaves.mirror.trans hrec.mirror, hleaves.mirrorBase.trans hrec.mirrorBase,
      fun p off ho he hq hl => (hleaves.regs p off ho he hq hl).trans (hrec.rd_eq ho he hq)⟩
  | false => exact hleaves.after hrec

/-! ### The checks of R398 -/

theorem not_checkFails {c : Bool} (h : c = true) : ¬(!c) = true := by rw [h]; decide

/-- A signed command whose checks pass takes effect, its nonce spent. -/
theorem signed_accepted {s : State} {code : Nat} {b : Bytes} {rule : State → Bytes → Rule} (k : State → Bytes → State)
    (h : SignedOk s code b (rule (nonceSpent s) b).args (rule (nonceSpent s) b).signer (rule (nonceSpent s) b).counter)
    (hargs : (rule (nonceSpent s) b).argsOk = true) (hlegal : (rule (nonceSpent s) b).legal = true) :
    signed code rule k s = k (nonceSpent s) b := by
  obtain ⟨htaken, hroom, hrest, hsigner, hunit, hsig, hnonce, hstate, hcounter⟩ := h
  have hfields : (restZero b (headFields ++ (rule (nonceSpent s) b).args) && (rule (nonceSpent s) b).argsOk) = true := by
    rw [hrest, hargs]
    rfl
  have hfresh : ¬(s.sec.nonce ≠ some (slice b 16 32) ∨ leAt b 52 1 ≠ lcState (nonceSpent s) ∨
      leAt b 48 4 ≠ (rule (nonceSpent s) b).counter ∨ (rule (nonceSpent s) b).legal = false) := by
    rw [not_or, not_or, not_or]
    exact ⟨not_not.2 hnonce, not_not.2 hstate, not_not.2 hcounter, Bool.eq_false_iff.not.2 (not_not.2 hlegal)⟩
  rw [signed, onTaken, htaken]
  exact (if_neg (not_checkFails hroom)).trans ((if_neg (not_checkFails hfields)).trans ((if_neg (not_checkFails hsigner)).trans
    ((if_neg (not_not.2 hunit)).trans ((if_neg (not_checkFails hsig)).trans (if_neg hfresh)))))

/-! ### The commands -/

/-- How a counted setting that stands in the fuses alone ends: with a value that it holds already no fuse changes. -/
theorem setCounted_fuse_completes {s : State} {c : Instr} {code : Nat} {b : Bytes} (hs : s.canonical)
    (htaken : takenReq s true 0 code = some b) (hcode : code < 0x8000) {same ok : Bool} {g f : Fuse → Fuse} {setting left : Nat}
    {v : Bytes}
    (hexec : exec c s = .next (setCounted (nonceSpent s) b same ok (counted g setting left v) (withFuse f))) :
    (same = true → Completes c s fun t => t.fuse = s.fuse ∧ t.flash = s.flash ∧ SecEnds s code true t) ∧
    (same = false → Completes c s fun t => t.fuse = (if ok then f (g s.fuse) else g s.fuse) ∧ t.flash = s.flash ∧
      rd t pgSec Reg.GEOMETRY = rd s pgSec Reg.GEOMETRY ∧ SecEnds s code ok t) := by
  have hserving := nonceSpent_serving hs
  refine ⟨fun hsame => ?_, fun hnew => ?_⟩
  · obtain ⟨hends, hleaves⟩ := setCounted_same hserving htaken hcode ok (counted g setting left v) (withFuse f)
    exact ⟨_, hsame ▸ hexec, hleaves.fuse, hleaves.flash, hends⟩
  · obtain ⟨hends, hleaves⟩ := setCounted_fuse hserving htaken hcode ok g f setting left v
    exact ⟨_, hnew ▸ hexec, hleaves.fuse, hleaves.flash,
      hleaves.regs _ _ (by decide) (not_evtReg (by decide)) (by decide) (by decide), hends⟩

/-- The fuses with another owner key, in the slot of the installation counted last (R400). -/
def fuseOwnerKey (n : Nat) (key : Bytes) (e : Fuse) : Fuse :=
  { e with ownerKeys := e.ownerKeys ++ List.replicate (n - e.ownerKeys.length) [] ++ [key] }

theorem installOwnerKey_eq (ok : Bool) {s : State} {b : Bytes}
    (h : SignedOk s 0x0303 b [(56, 32)]
      (signerIn s (fun st => decide (st = 0x30)) fun st => decide (st = 0x20) || decide (st = 0x50)) s.fuse.ownerKeyUsed)
    (hleft : s.fuse.ownerKeyUsed < 4) :
    exec (.installOwnerKey ok) s =
      .next (setCounted (nonceSpent s) b (decide (s.fuse.ownerKeys.getLast? = some (slice b 56 32))) ok
        (counted (fun e => { e with ownerKeyUsed := s.fuse.ownerKeyUsed + 1 }) 4 (3 - s.fuse.ownerKeyUsed) (slice b 56 32))
        (withFuse (fuseOwnerKey s.fuse.ownerKeyUsed (slice b 56 32)))) :=
  congrArg _ (signed_accepted _ h rfl (decide_eq_true hleft))

theorem raiseSecVersion_eq (ok : Bool) {s : State} {b : Bytes}
    (h : SignedOk s 0x0304 b [(56, 2)] (signerIn s (fun st => decide (st = 0x30) || decide (st = 0x40))
      fun st => decide (st = 1) || isUnlocked st || decide (st = 0x20) || decide (st = 0x50)) s.fuse.secVersionUsed)
    (hnext : leAt b 56 2 = s.fuse.secVersion + 1) (himage : leAt b 56 2 ≤ s.boot.imageVersion)
    (hleft : s.fuse.secVersionUsed < 256) :
    exec (.raiseSecVersion ok) s =
      .next (setCounted (nonceSpent s) b false ok
        (counted (fun e => { e with secVersionUsed := s.fuse.secVersionUsed + 1 }) 2 (256 - (s.fuse.secVersionUsed + 1))
          (slice b 56 2))
        (withFuse fun e => { e with secVersion := e.secVersion + 1 })) :=
  congrArg _ (signed_accepted _ h (Bool.and_eq_true_iff.2 ⟨decide_eq_true hnext, decide_eq_true himage⟩) (decide_eq_true hleft))

theorem setGeometry_eq (ok : Bool) {s : State} {b : Bytes}
    (h : SignedOk s 0x0306 b [(56, 2)] (signerIn s (fun st => decide (st = 0x30)) fun st => decide (st = 0x20))
      s.fuse.geometryUsed) (hmask : leAt b 56 2 ≠ 0) (hleft : s.fuse.geometryUsed < 64) :
    exec (.setGeometry ok) s =
      .next (setCounted (nonceSpent s) b (decide (s.fuse.geometry = leAt b 56 2)) ok
        (counted (fun e => { e with geometryUsed := s.fuse.geometryUsed + 1 }) 1 (64 - (s.fuse.geometryUsed + 1))
          (slice b 56 2))
        (withFuse fun e => { e with geometry := leAt b 56 2 })) :=
  congrArg _ (signed_accepted _ h (decide_eq_true hmask) (decide_eq_true hleft))

/-! ### The admission list (R303) -/

/-- The staging buffer is taken. -/
def stageTaken (s : State) : State := { s with sec := { s.sec with stage := [] } }

/-- The fuses with the digest of another admission list. -/
def fuseDigest (dig : Bytes) (e : Fuse) : Fuse := { e with admitDigests := e.admitDigests ++ [dig] }

/-- The fuses with a change of the admission list counted. -/
def fuseAdmitUsed (n : Nat) (e : Fuse) : Fuse := { e with admitUsed := n }

/-- The count of a change of the admission list is spent. -/
def admitCounted (s : State) : State → State :=
  counted (fuseAdmitUsed (s.fuse.admitUsed + 1)) 3 (32 - (s.fuse.admitUsed + 1)) (sha512 s.sec.stage)

/-- The digest of the staged list of `s` is fused. -/
def admitDigested (s : State) : State → State := withFuse (fuseDigest (sha512 s.sec.stage))

theorem setAdmissionList_eq (ok flashOk : Bool) {s : State} {b : Bytes}
    (h : SignedOk s 0x0305 b [(56, 1), (64, 64)] (ownerOrRma s) s.fuse.admitUsed) (hcount : leAt b 56 1 ≤ 16)
    (hlen : s.sec.stage.length = 128 * leAt b 56 1) (hdig : slice b 64 64 = fitBytes (sha512 s.sec.stage) 64)
    (hleft : s.fuse.admitUsed < 32) :
    let u := stageTaken (nonceSpent s)
    let w := admitDigested s (admitCounted s u)
    let same := decide (s.fuse.admitDigests.getLast? = some (sha512 s.sec.stage))
    exec (.setAdmissionList ok flashOk) s =
      .next (if same || !ok then setCounted u b same ok (admitCounted s) (admitDigested s)
        else if flashOk then secDone { w with flash := { w.flash with admission := s.sec.stage } } b 0 []
        else writeFails w b 3) :=
  congrArg _ (signed_accepted _ h
    (Bool.and_eq_true_iff.2 ⟨Bool.and_eq_true_iff.2 ⟨decide_eq_true hcount, decide_eq_true hlen⟩, decide_eq_true hdig⟩)
    (decide_eq_true hleft))

theorem stageTaken_serving {s : State} (hs : s.canonical) : Serving s (stageTaken (nonceSpent s)) :=
  (nonceSpent_serving hs).of_regs rfl rfl rfl rfl rfl

/-- How SET_ADMISSION_LIST ends with a list whose digest is not fused yet, by the outcomes of its two writes. -/
def admissionEnd (s : State) (b : Bytes) (ok flashOk : Bool) : State :=
  let u := admitCounted s (stageTaken (nonceSpent s))
  let w := admitDigested s u
  if !ok then writeFails u b 2
  else if flashOk then secDone { w with flash := { w.flash with admission := s.sec.stage } } b 0 []
  else writeFails w b 3

theorem setCounted_burnt (u : State) (b : Bytes) (count value : State → State) :
    setCounted u b false false count value = writeFails (count u) b 2 := rfl

/-- A list whose digest is fused last uses no count. -/
theorem setAdmissionList_same {ok flashOk : Bool} {s : State} {b : Bytes}
    (h : SignedOk s 0x0305 b [(56, 1), (64, 64)] (ownerOrRma s) s.fuse.admitUsed) (hcount : leAt b 56 1 ≤ 16)
    (hlen : s.sec.stage.length = 128 * leAt b 56 1) (hdig : slice b 64 64 = fitBytes (sha512 s.sec.stage) 64)
    (hleft : s.fuse.admitUsed < 32) (hsame : s.fuse.admitDigests.getLast? = some (sha512 s.sec.stage)) :
    exec (.setAdmissionList ok flashOk) s =
      .next (setCounted (stageTaken (nonceSpent s)) b true ok (admitCounted s) (admitDigested s)) := by
  rw [setAdmissionList_eq ok flashOk h hcount hlen hdig hleft, decide_eq_true hsame, Bool.true_or, if_pos rfl]

theorem setAdmissionList_new {ok flashOk : Bool} {s : State} {b : Bytes}
    (h : SignedOk s 0x0305 b [(56, 1), (64, 64)] (ownerOrRma s) s.fuse.admitUsed) (hcount : leAt b 56 1 ≤ 16)
    (hlen : s.sec.stage.length = 128 * leAt b 56 1) (hdig : slice b 64 64 = fitBytes (sha512 s.sec.stage) 64)
    (hleft : s.fuse.admitUsed < 32) (hnew : s.fuse.admitDigests.getLast? ≠ some (sha512 s.sec.stage)) :
    exec (.setAdmissionList ok flashOk) s = .next (admissionEnd s b ok flashOk) := by
  rw [setAdmissionList_eq ok flashOk h hcount hlen hdig hleft, decide_eq_false hnew, Bool.false_or, admissionEnd]
  cases ok with
  | false => rw [Bool.not_false, if_pos rfl, if_pos rfl, setCounted_burnt]
  | true => rw [Bool.not_true, if_neg Bool.false_ne_true, if_neg Bool.false_ne_true]

/-- The fuses when it has ended. -/
def admissionFuse (s : State) (ok : Bool) : Fuse :=
  let e := fuseAdmitUsed (s.fuse.admitUsed + 1) s.fuse
  if ok then fuseDigest (sha512 s.sec.stage) e else e

theorem admissionEnd_ends {s : State} (hs : s.canonical) {b : Bytes} (htaken : takenReq s true 0 0x0305 = some b)
    (ok flashOk : Bool) :
    (admissionEnd s b ok flashOk).fuse = admissionFuse s ok ∧
    (admissionEnd s b ok flashOk).flash =
      { s.flash with admission := if ok && flashOk then s.sec.stage else s.flash.admission } ∧
    (admissionEnd s b ok flashOk).sec.stage = [] ∧ SecEnds s 0x0305 (ok && flashOk) (admissionEnd s b ok flashOk) := by
  have hserving := stageTaken_serving hs
  have hcount : Serving s (admitCounted s (stageTaken (nonceSpent s))) := counted_serving hserving _ _ _ _
  have hrec : Recorded _ (admitCounted s (stageTaken (nonceSpent s))) := counted_recorded hserving _ _ _ _
  have hvalue : Serving s (admitDigested s (admitCounted s (stageTaken (nonceSpent s)))) := withFuse_serving hcount _
  have hfuse : (admitDigested s (admitCounted s (stageTaken (nonceSpent s)))).fuse = admissionFuse s true :=
    congrArg (fuseDigest _) hrec.fuse
  cases ok with
  | false =>
    obtain ⟨hends, hleaves⟩ := writeFails_ends hcount htaken (by decide) 2
    exact ⟨hleaves.fuse.trans hrec.fuse, hleaves.flash.trans hrec.flash,
      (congrArg (·.stage) hleaves.sec).trans (congrArg (·.stage) hrec.sec), hends⟩
  | true =>
    cases flashOk with
    | false =>
      obtain ⟨hends, hleaves⟩ := writeFails_ends hvalue htaken (by decide) 3
      exact ⟨hleaves.fuse.trans hfuse, hleaves.flash.trans hrec.flash,
        (congrArg (·.stage) hleaves.sec).trans (congrArg (·.stage) hrec.sec), hends⟩
    | true =>
      let w := admitDigested s (admitCounted s (stageTaken (nonceSpent s)))
      have hwritten : Serving s { w with flash := { w.flash with admission := s.sec.stage } } :=
        hvalue.of_regs rfl rfl rfl rfl rfl
      have hleaves := secDone_leaves hwritten htaken (by decide) 0
      exact ⟨hleaves.fuse.trans hfuse,
        hleaves.flash.trans (congrArg (fun e : Flash => { e with admission := s.sec.stage }) hrec.flash),
        (congrArg (·.stage) hleaves.sec).trans (congrArg (·.stage) hrec.sec), secDone_ends hwritten htaken (by decide) true⟩

/-! ### The debug epoch (R407) -/

/-- One slot of `dropStale`. -/
def dropIfStale (s : State) (i : Nat) : State :=
  match s.sec.certs.getD i none with
  | some c => if leAt c 4 4 < s.fuse.debugEpoch then dropCert s i 1 else s
  | none => s

theorem dropStale_eq (s : State) : dropStale s = updIso ((List.range 4).foldl dropIfStale s) := rfl

/-- A slot holds no certificate, nor does its copy in flash. -/
def certFreed (s : State) (slot : Nat) : State :=
  { s with
    sec := { s.sec with certs := s.sec.certs.set slot none }
    flash := { s.flash with certs := s.flash.certs.set slot none } }

theorem dropCert_of_some {s : State} {slot : Nat} {c : Bytes} (h : s.sec.certs.getD slot none = some c) (reason : Nat) :
    dropCert s slot reason = raiseEvt (audit (certFreed s slot) 8 [w64 (slot + reason <<< 8)]) pgSec 1 := by
  unfold dropCert
  rw [h]
  rfl

theorem dropCert_recorded {s u : State} (hu : Serving s u) {slot : Nat} {c : Bytes}
    (h : u.sec.certs.getD slot none = some c) (reason : Nat) : Recorded (certFreed u slot) (dropCert u slot reason) := by
  have hfreed : Serving s (certFreed u slot) := hu.of_regs rfl rfl rfl rfl rfl
  have haudit := audit_recorded hfreed.canonical 8 [w64 (slot + reason <<< 8)]
  rw [dropCert_of_some h]
  exact haudit.trans (raiseEvt_recorded haudit.canonical _ _)

/-- `t` is a state on the way of `u` in which slots of certificates were freed, and every certificate in the first `n` meets the
fused epoch. -/
structure Pruned (s u : State) (n : Nat) (t : State) : Prop where
  serving : Serving s t
  fuse : t.fuse = u.fuse
  kept : ∀ i c, t.sec.certs.getD i none = some c → u.sec.certs.getD i none = some c
  current : ∀ i c, i < n → t.sec.certs.getD i none = some c → u.fuse.debugEpoch ≤ leAt c 4 4

theorem getD_set_none {l : List (Option Bytes)} {i j : Nat} {c : Bytes} (h : (l.set i none).getD j none = some c) :
    i ≠ j ∧ l.getD j none = some c := by
  rw [List.getD_eq_getElem?_getD, List.getElem?_set] at h
  by_cases hij : i = j
  · rw [if_pos hij] at h
    split at h
    · exact absurd h (by simp)
    · exact absurd h (by simp)
  · rw [if_neg hij] at h
    exact ⟨hij, h⟩

theorem dropIfStale_pruned {s u t : State} {n : Nat} (h : Pruned s u n t) : Pruned s u (n + 1) (dropIfStale t n) := by
  unfold dropIfStale
  cases hcert : t.sec.certs.getD n none with
  | none =>
    refine ⟨h.serving, h.fuse, h.kept, fun i c hi hc => ?_⟩
    rcases Nat.lt_succ_iff_lt_or_eq.1 hi with hlt | rfl
    · exact h.current i c hlt hc
    · exact absurd (hcert.symm.trans hc) (by simp)
  | some c0 =>
    change Pruned s u (n + 1) (if leAt c0 4 4 < t.fuse.debugEpoch then dropCert t n 1 else t)
    split
    · have hrec := dropCert_recorded h.serving hcert 1
      have hfreed : Serving s (certFreed t n) := h.serving.of_regs rfl rfl rfl rfl rfl
      have hleft : ∀ {i c}, (dropCert t n 1).sec.certs.getD i none = some c → n ≠ i ∧ t.sec.certs.getD i none = some c := by
        rw [hrec.sec]
        exact getD_set_none
      refine ⟨hfreed.recorded hrec, hrec.fuse.trans h.fuse, fun i c hc => h.kept i c (hleft hc).2, fun i c hi hc => ?_⟩
      obtain ⟨hne, hold⟩ := hleft hc
      exact h.current i c (by omega) hold
    · next hcurrent =>
      refine ⟨h.serving, h.fuse, h.kept, fun i c hi hc => ?_⟩
      rcases Nat.lt_succ_iff_lt_or_eq.1 hi with hlt | rfl
      · exact h.current i c hlt hc
      · rw [← Option.some.inj (hcert.symm.trans hc), ← h.fuse]
        exact Nat.not_lt.1 hcurrent

theorem foldl_dropIfStale_pruned {s u : State} (h : Serving s u) (n : Nat) :
    Pruned s u n ((List.range n).foldl dropIfStale u) := by
  induction n with
  | zero => exact ⟨h, rfl, fun _ _ hc => hc, fun _ _ hi => absurd hi (Nat.not_lt_zero _)⟩
  | succ n ih =>
    rw [List.range_succ, List.foldl_append]
    exact dropIfStale_pruned ih

theorem dropStale_pruned {s u : State} (h : Serving s u) : Pruned s u 4 (dropStale u) := by
  have hslots := foldl_dropIfStale_pruned h 4
  have hiso := updIso_recorded hslots.serving.canonical
  rw [dropStale_eq]
  refine ⟨hslots.serving.recorded hiso, hiso.fuse.trans hslots.fuse, ?_, ?_⟩
  · rw [hiso.sec]
    exact hslots.kept
  · rw [hiso.sec]
    exact hslots.current

/-- The count of a change of the debug epoch is spent. -/
def epochCounted (s : State) (v : Bytes) : State → State :=
  counted (fun e => { e with debugEpochUsed := s.fuse.debugEpochUsed + 1 }) 6 (64 - (s.fuse.debugEpochUsed + 1)) v

/-- The epoch is raised, and what is below it dropped. -/
def epochRaised (s : State) : State := dropStale (withFuse (fun e => { e with debugEpoch := e.debugEpoch + 1 }) s)

theorem raiseDebugEpoch_eq (ok : Bool) {s : State} {b : Bytes}
    (h : SignedOk s 0x0307 b [(56, 4)] (ownerOrRma s) s.fuse.debugEpochUsed) (hnext : leAt b 56 4 = s.fuse.debugEpoch + 1)
    (hleft : s.fuse.debugEpochUsed < 64) :
    exec (.raiseDebugEpoch ok) s = .next (setCounted (nonceSpent s) b false ok (epochCounted s (slice b 56 4)) epochRaised) :=
  congrArg _ (signed_accepted _ h (decide_eq_true hnext) (decide_eq_true hleft))

theorem raiseDebugEpoch_completes (ok : Bool) {s : State} (hs : s.canonical) {b : Bytes}
    (h : SignedOk s 0x0307 b [(56, 4)] (ownerOrRma s) s.fuse.debugEpochUsed) (hnext : leAt b 56 4 = s.fuse.debugEpoch + 1)
    (hleft : s.fuse.debugEpochUsed < 64) :
    Completes (.raiseDebugEpoch ok) s fun t =>
      t.fuse = { s.fuse with
        debugEpochUsed := s.fuse.debugEpochUsed + 1, debugEpoch := s.fuse.debugEpoch + ok.toNat } ∧
      (∀ i c, i < 4 → t.sec.certs.getD i none = some c →
        s.sec.certs.getD i none = some c ∧ (ok = true → s.fuse.debugEpoch + 1 ≤ leAt c 4 4)) ∧
      (ok = false → t.sec.certs = s.sec.certs) ∧ SecEnds s 0x0307 ok t := by
  refine ⟨_, raiseDebugEpoch_eq ok h hnext hleft, ?_⟩
  have hserving := nonceSpent_serving hs
  have hrec : Recorded _ (epochCounted s (slice b 56 4) (nonceSpent s)) := counted_recorded hserving _ _ _ _
  have hcount : Serving s (epochCounted s (slice b 56 4) (nonceSpent s)) := counted_serving hserving _ _ _ _
  have hpruned := dropStale_pruned (withFuse_serving hcount fun e => { e with debugEpoch := e.debugEpoch + 1 })
  obtain ⟨hends, hleaves⟩ := setCounted_new (value := epochRaised) hcount hpruned.serving h.1 (by decide) ok
  have hcerts : (epochCounted s (slice b 56 4) (nonceSpent s)).sec.certs = s.sec.certs := congrArg (·.certs) hrec.sec
  cases ok with
  | false =>
    have hkept := (congrArg (·.certs) hleaves.sec).trans hcerts
    exact ⟨hleaves.fuse.trans hrec.fuse, fun i c _ hc => ⟨hkept ▸ hc, nofun⟩, fun _ => hkept, hends⟩
  | true =>
    refine ⟨?_, fun i c hi hc => ?_, nofun, hends⟩
    · rw [hleaves.fuse, if_pos rfl, epochRaised, hpruned.fuse, withFuse, hrec.fuse]
      rfl
    · rw [hleaves.sec, if_pos rfl, epochRaised] at hc
      have hold := hpruned.kept i c hc
      have hnew := hpruned.current i c hi hc
      refine ⟨hcerts ▸ hold, fun _ => ?_⟩
      rw [withFuse, hrec.fuse] at hnew
      exact hnew

/-! ### The audit part (R455) -/

/-- The audit entries below `upto` are cleared, and the part and its mirror start there. -/
def auditCut (upto : Nat) (s : State) : State :=
  let keep (l : List (Nat × Entry)) : List (Nat × Entry) := l.filter fun e => decide (upto ≤ e.1)
  { s with evr := { s.evr with audit := keep s.evr.audit, mirror := keep s.evr.mirror, mirrorBase := upto } }

/-- The base of the audit part moves. -/
def auditBased (upto : Nat) (s : State) : State := wr (auditCut upto s) pgEvr Reg.AUDIT_BASE (w64 upto)

theorem clearAudit_eq {s : State} {b : Bytes} (h : SignedOk s 0x030A b [(56, 8)] (ownerOrRma s) 0)
    (hbase : leAt b 60 4 = (rd s pgEvr Reg.AUDIT_BASE).toNat) (habove : (rd s pgEvr Reg.AUDIT_BASE).toNat < leAt b 56 4)
    (hmirrored : leAt b 56 4 ≤ (rd s pgEvr Reg.AUDIT_MIRRORED).toNat) :
    exec .clearAudit s = .next (secDone (audit (auditBased (leAt b 56 4) (nonceSpent s)) 0x0B
      [rd s pgEvr Reg.AUDIT_BASE, w64 (leAt b 56 4)]) b 0 []) :=
  congrArg _ (signed_accepted _ h rfl
    (Bool.and_eq_true_iff.2 ⟨Bool.and_eq_true_iff.2 ⟨decide_eq_true hbase, decide_eq_true habove⟩, decide_eq_true hmirrored⟩))

theorem auditBased_serving {s : State} (hs : s.canonical) (upto : Nat) : Serving s (auditBased upto (nonceSpent s)) := by
  have hcut : Serving s (auditCut upto (nonceSpent s)) := (nonceSpent_serving hs).of_regs rfl rfl rfl rfl rfl
  exact hcut.of_mailbox (wr_canonical hcut.canonical) rfl rfl ⟨rfl, rfl⟩ fun off _ ho =>
    rd_wr_other hcut.canonical _ (by decide) ho fun x => absurd x.1 (by decide)

theorem clearAudit_completes {s : State} (hs : s.canonical) {b : Bytes} (h : SignedOk s 0x030A b [(56, 8)] (ownerOrRma s) 0)
    (hbase : leAt b 60 4 = (rd s pgEvr Reg.AUDIT_BASE).toNat) (habove : (rd s pgEvr Reg.AUDIT_BASE).toNat < leAt b 56 4)
    (hmirrored : leAt b 56 4 ≤ (rd s pgEvr Reg.AUDIT_MIRRORED).toNat) :
    Completes .clearAudit s fun t =>
      rd t pgEvr Reg.AUDIT_BASE = w64 (leAt b 56 4) ∧ (∀ e ∈ t.evr.mirror, leAt b 56 4 ≤ e.1) ∧
      t.evr.mirrorBase = leAt b 56 4 ∧ t.fuse = s.fuse ∧ t.flash = s.flash ∧ SecEnds s 0x030A true t := by
  have hbased := auditBased_serving hs (leAt b 56 4)
  have hrec := audit_recorded hbased.canonical 0x0B [rd s pgEvr Reg.AUDIT_BASE, w64 (leAt b 56 4)]
  have hserving := hbased.recorded hrec
  have hleaves := (secDone_leaves hserving h.1 (by decide) 0).after hrec
  refine ⟨_, clearAudit_eq h hbase habove hmirrored, ?_, ?_, hleaves.mirrorBase, hleaves.fuse, hleaves.flash,
    secDone_ends hserving h.1 (by decide) true⟩
  · rw [hleaves.regs _ _ (by decide) (not_evtReg (by decide)) (by decide) (by decide)]
    exact rd_wr_same hs _ _ _
  · rw [hleaves.mirror]
    exact fun e he => of_decide_eq_true (List.mem_filter.1 he).2

theorem installOwnerKey_completes (ok : Bool) {s : State} (hs : s.canonical) {b : Bytes}
    (h : SignedOk s 0x0303 b [(56, 32)]
      (signerIn s (fun st => decide (st = 0x30)) fun st => decide (st = 0x20) || decide (st = 0x50)) s.fuse.ownerKeyUsed)
    (hleft : s.fuse.ownerKeyUsed < 4) :
    let key := slice b 56 32
    let keys := s.fuse.ownerKeys
    (keys.getLast? = some key → Completes (.installOwnerKey ok) s fun t =>
      t.fuse = s.fuse ∧ t.flash = s.flash ∧ SecEnds s 0x0303 true t) ∧
    (keys.getLast? ≠ some key → Completes (.installOwnerKey ok) s fun t =>
      t.fuse = { s.fuse with
        ownerKeyUsed := s.fuse.ownerKeyUsed + 1
        ownerKeys := if ok then keys ++ List.replicate (s.fuse.ownerKeyUsed - keys.length) [] ++ [key] else keys } ∧
      t.flash = s.flash ∧ SecEnds s 0x0303 ok t) := by
  obtain ⟨hsame, hnew⟩ := setCounted_fuse_completes hs h.1 (by decide) (installOwnerKey_eq ok h hleft)
  refine ⟨fun hk => hsame (decide_eq_true hk), fun hk => ?_⟩
  obtain ⟨t, hexec, hfuse, hflash, -, hends⟩ := hnew (decide_eq_false hk)
  refine ⟨t, hexec, hfuse.trans ?_, hflash, hends⟩
  cases ok <;> rfl

theorem raiseSecVersion_completes (ok : Bool) {s : State} (hs : s.canonical) {b : Bytes}
    (h : SignedOk s 0x0304 b [(56, 2)] (signerIn s (fun st => decide (st = 0x30) || decide (st = 0x40))
      fun st => decide (st = 1) || isUnlocked st || decide (st = 0x20) || decide (st = 0x50)) s.fuse.secVersionUsed)
    (hnext : leAt b 56 2 = s.fuse.secVersion + 1) (himage : leAt b 56 2 ≤ s.boot.imageVersion)
    (hleft : s.fuse.secVersionUsed < 256) :
    Completes (.raiseSecVersion ok) s fun t =>
      t.fuse = { s.fuse with secVersionUsed := s.fuse.secVersionUsed + 1, secVersion := s.fuse.secVersion + ok.toNat } ∧
      t.flash = s.flash ∧ SecEnds s 0x0304 ok t := by
  obtain ⟨-, hnew⟩ := setCounted_fuse_completes hs h.1 (by decide) (raiseSecVersion_eq ok h hnext himage hleft)
  obtain ⟨t, hexec, hfuse, hflash, -, hends⟩ := hnew rfl
  refine ⟨t, hexec, hfuse.trans ?_, hflash, hends⟩
  cases ok <;> rfl

theorem setAdmissionList_completes (ok flashOk : Bool) {s : State} (hs : s.canonical) {b : Bytes}
    (h : SignedOk s 0x0305 b [(56, 1), (64, 64)] (ownerOrRma s) s.fuse.admitUsed) (hcount : leAt b 56 1 ≤ 16)
    (hlen : s.sec.stage.length = 128 * leAt b 56 1) (hdig : slice b 64 64 = fitBytes (sha512 s.sec.stage) 64)
    (hleft : s.fuse.admitUsed < 32) :
    let dig := sha512 s.sec.stage
    (s.fuse.admitDigests.getLast? = some dig → Completes (.setAdmissionList ok flashOk) s fun t =>
      t.fuse = s.fuse ∧ t.flash = s.flash ∧ t.sec.stage = [] ∧ SecEnds s 0x0305 true t) ∧
    (s.fuse.admitDigests.getLast? ≠ some dig → Completes (.setAdmissionList ok flashOk) s fun t =>
      t.fuse = { s.fuse with
        admitUsed := s.fuse.admitUsed + 1
        admitDigests := if ok then s.fuse.admitDigests ++ [dig] else s.fuse.admitDigests } ∧
      t.flash = { s.flash with admission := if ok && flashOk then s.sec.stage else s.flash.admission } ∧
      t.sec.stage = [] ∧ SecEnds s 0x0305 (ok && flashOk) t) := by
  refine ⟨fun hsame => ?_, fun hnew => ?_⟩
  · obtain ⟨hends, hleaves⟩ := setCounted_same (stageTaken_serving hs) h.1 (by decide) ok (admitCounted s) (admitDigested s)
    exact ⟨_, setAdmissionList_same h hcount hlen hdig hleft hsame, hleaves.fuse, hleaves.flash,
      congrArg (·.stage) hleaves.sec, hends⟩
  · obtain ⟨hfuse, hflash, hstage, hends⟩ := admissionEnd_ends hs h.1 ok flashOk
    refine ⟨_, setAdmissionList_new h hcount hlen hdig hleft hnew, hfuse.trans ?_, hflash, hstage, hends⟩
    cases ok <;> rfl

theorem setGeometry_completes (ok : Bool) {s : State} (hs : s.canonical) {b : Bytes}
    (h : SignedOk s 0x0306 b [(56, 2)] (signerIn s (fun st => decide (st = 0x30)) fun st => decide (st = 0x20))
      s.fuse.geometryUsed) (hmask : leAt b 56 2 ≠ 0) (hleft : s.fuse.geometryUsed < 64) :
    (s.fuse.geometry = leAt b 56 2 → Completes (.setGeometry ok) s fun t =>
      t.fuse = s.fuse ∧ t.flash = s.flash ∧ SecEnds s 0x0306 true t) ∧
    (s.fuse.geometry ≠ leAt b 56 2 → Completes (.setGeometry ok) s fun t =>
      t.fuse = { s.fuse with
        geometryUsed := s.fuse.geometryUsed + 1, geometry := if ok then leAt b 56 2 else s.fuse.geometry } ∧
      t.flash = s.flash ∧ rd t pgSec Reg.GEOMETRY = rd s pgSec Reg.GEOMETRY ∧ SecEnds s 0x0306 ok t) := by
  obtain ⟨hsame, hnew⟩ := setCounted_fuse_completes hs h.1 (by decide) (setGeometry_eq ok h hmask hleft)
  refine ⟨fun hk => hsame (decide_eq_true hk), fun hk => ?_⟩
  obtain ⟨t, hexec, hfuse, hflash, hgeometry, hends⟩ := hnew (decide_eq_false hk)
  refine ⟨t, hexec, hfuse.trans ?_, hflash, hgeometry, hends⟩
  cases ok <;> rfl

/-- Settles O48: each command passes its checks, spends its count, programs its value and ends with one answer, and what it
records on the way changes none of what the clauses speak of. -/
theorem signedCommandsBurnTheirSetting : Obligations.SignedCommandsBurnTheirSetting :=
  fun _ ok flashOk _ hs =>
    ⟨fun h hleft => installOwnerKey_completes ok hs h hleft,
      fun h hnext himage hleft => raiseSecVersion_completes ok hs h hnext himage hleft,
      fun h hcount hlen hdig hleft => setAdmissionList_completes ok flashOk hs h hcount hlen hdig hleft,
      fun h hmask hleft => setGeometry_completes ok hs h hmask hleft,
      fun h hnext hleft _ => raiseDebugEpoch_completes ok hs h hnext hleft,
      fun h hbase habove hmirrored => clearAudit_completes hs h hbase habove hmirrored⟩

end Sys2Proof.Machine
end

section
/-!
SUPPORT. How the accesses and deliveries of the tensor operations go on when nothing stops them, each in the words of
`Safety` (R53 to R55, R61, R112, R114, R178).
-/

namespace Sys2Proof.Machine

open Sys2Proof

/-- The command of an operation ends in what its meaning comes to on the descriptor it names. -/
theorem onWork_ends {c : Instr} {s t : State} {k x q op : Nat} {f : State → Work → State} {w : Work}
    (hc : exec c s = .next (onWork s k x q op f)) (hw : findWork s k x q op = some w) (ht : f (begun s) w = t) : Ends c s t := by
  intro hrun
  subst ht
  simp only [hc, onWork, hw, gated, hrun]

section Access

variable {s s' u : State} {w : Work} {o : Opd} {f cols : Nat}

theorem withTile_read {t : Tile} {rows : List Bytes} {k : State → List Bytes → State} (h : TileRead s w t rows s')
    (hk : k s' rows = u) : withTile s w t k = u := by
  simp only [withTile, show readTile s w.part w.unit t = (.ok rows, s') from h, hk]

theorem putTile_written {t : Tile} {rows : List Bytes} {k : State → State} (h : TileWritten s w t rows s') (hk : k s' = u) :
    putTile s w t rows k = u := by
  simp only [putTile, putHinted, show writeTile s w.part w.unit 0 t rows = (.ok (), s') from h, hk]

theorem withTensor_read {mx : Bool} {v : List (List Num)} {k : State → List (List Num) → State}
    (h : ValuesRead s w o f mx cols v s') (hk : k s' v = u) : withTensor s w o f mx cols k = u := by
  obtain ⟨rows, s1, hrows, h⟩ := h
  refine withTile_read hrows ?_
  cases mx with
  | false => obtain ⟨rfl, rfl⟩ := h; exact hk
  | true => obtain ⟨sc, hsc, rfl⟩ := h; exact withTile_read hsc hk

theorem withCodes_read {v : List (List Nat)} {k : State → List (List Nat) → State} (h : CodesRead s w o f cols v s')
    (hk : k s' v = u) : withCodes s w o f cols k = u := by
  obtain ⟨rows, hrows, rfl⟩ := h
  exact withTile_read hrows hk

theorem withRecords_read {v : List (List Pot)} {k : State → List (List Pot) → State} (h : RecordsRead s w o f cols v s')
    (hk : k s' v = u) : withRecords s w o f cols k = u := by
  obtain ⟨rows, hrows, hvalid, rfl⟩ := h
  refine withTile_read hrows ((if_neg ?kind).trans ((if_neg ?version).trans hk))
  all_goals
    simp only [List.any_eq_true, decide_eq_true_eq, not_exists, not_and, not_not]
    intro l hl p hp
  case kind => exact (hvalid l hl p hp).1
  case version => exact (hvalid l hl p hp).2

theorem storeElems_delivered {fl : Nat} {rows : List (List Elem)} (h : ElemsDelivered s w cols rows fl s') :
    storeElems s w cols rows = complete s' w 0 0 0 fl 0 := by
  obtain ⟨rfl, s1, hrows, hscales⟩ := h
  refine putTile_written hrows ?_
  split at hscales
  · next hm => exact (if_pos hm).trans (putTile_written hscales rfl)
  · next hm => subst hscales; exact if_neg hm

theorem storePots_delivered {fl : Nat} {rows : List (List Pot)} (h : PotsDelivered s w cols rows fl s') :
    storePots s w cols rows = complete s' w 0 0 0 fl 0 := by
  dsimp only [PotsDelivered] at h
  split at h
  · next hf => obtain ⟨rfl, hrows⟩ := h; exact (if_pos hf).trans (putTile_written hrows rfl)
  · next hf => exact (if_neg hf).trans (storeElems_delivered h)

theorem storeCodes_delivered {rows : List (List Nat)} {fl : Flags} (h : CodesDelivered s w cols rows s') :
    storeCodes s w cols rows fl = complete s' w 0 0 0 (flagBits fl) 0 := putTile_written h rfl

end Access

end Sys2Proof.Machine
end

section
/-!
SUPPORT. The operations that contract and reduce (R58 to R62, R114).
-/

namespace Sys2Proof.Machine

open Sys2Proof

section Contract

variable {s s1 s2 s3 : State} {w : Work} {fl : Nat} {a b : List (List Num)} {p : List (List Pot)}

theorem gemmWork_stores
    (ha : ValuesRead s w (gemmA w.desc) (dFmtA w.desc) (dMxA w.desc)
      (if (dOpf w.desc).testBit 0 then dM w.desc else dK w.desc) a s1)
    (hb : ValuesRead s1 w (gemmB w.desc) (dFmtB w.desc) (dMxB w.desc)
      (if (dOpf w.desc).testBit 1 then dK w.desc else dN w.desc) b s2)
    (hd : PotsDelivered s2 w (dN w.desc)
      ((if (dOpf w.desc).testBit 0 then transposed (dM w.desc) a else a).map fun r =>
        (if (dOpf w.desc).testBit 1 then b else transposed (dN w.desc) b).map (dotPot r)) fl s3) :
    gemmWork s w = complete s3 w 0 0 0 fl 0 := by
  rw [gemmWork]
  exact withTensor_read ha (withTensor_read hb (storePots_delivered hd))

theorem sumRowsWork_stores (ha : ValuesRead s w (opdA w.desc (dM w.desc) (dK w.desc)) (dFmtA w.desc) (dMxA w.desc) (dK w.desc) a s1)
    (hd : PotsDelivered s1 w 1 (a.map fun r => [sumPot r]) fl s3) : sumRowsWork s w = complete s3 w 0 0 0 fl 0 := by
  rw [sumRowsWork]
  exact withTensor_read ha (storePots_delivered hd)

theorem sumColsWork_stores (ha : ValuesRead s w (opdA w.desc (dM w.desc) (dK w.desc)) (dFmtA w.desc) (dMxA w.desc) (dK w.desc) a s1)
    (hd : PotsDelivered s1 w (dK w.desc) [(transposed (dK w.desc) a).map sumPot] fl s3) :
    sumColsWork s w = complete s3 w 0 0 0 fl 0 := by
  rw [sumColsWork]
  exact withTensor_read ha (storePots_delivered hd)

theorem mergeWork_stores (hp : RecordsRead s w (opdA w.desc (dM w.desc) (dK w.desc)) (dFmtA w.desc) (dK w.desc) p s1)
    (hd : PotsDelivered s1 w 1 (p.map fun r => [mergePots r]) fl s3) : mergeWork s w = complete s3 w 0 0 0 fl 0 := by
  rw [mergeWork]
  exact withRecords_read hp (storePots_delivered hd)

end Contract

/-- Settles O18: each operation reads its operands, and what it stores is what the clause names. -/
theorem contractionsStoreThePotOfTheirTerms : Obligations.ContractionsStoreThePotOfTheirTerms := by
  intro k x q w s s1 s2 s3 fl a b p d dot sum done gemm
  refine ⟨?gemm, ?gemmPot, fun ha => ⟨?rows, ?rowsPot, ?cols, ?colsPot, ?sumsq, ?dots⟩, ?merge, ?mergeRound, ?round⟩
  case gemm => exact fun hw ha hb hd => onWork_ends rfl hw (gemmWork_stores ha hb hd)
  case gemmPot => exact fun hw ha hb hd => onWork_ends rfl hw (gemmWork_stores ha hb hd)
  case rows => exact fun hw hd => onWork_ends rfl hw (sumRowsWork_stores ha hd)
  case rowsPot => exact fun hw hd => onWork_ends rfl hw (sumRowsWork_stores ha hd)
  case cols => exact fun hw hd => onWork_ends rfl hw (sumColsWork_stores ha hd)
  case colsPot => exact fun hw hd => onWork_ends rfl hw (sumColsWork_stores ha hd)
  case sumsq => exact fun hw hd => onWork_ends rfl hw (withTensor_read ha (storePots_delivered hd))
  case dots => exact fun hw hb hd => onWork_ends rfl hw (withTensor_read ha (withTensor_read hb (storePots_delivered hd)))
  case merge => exact fun hw hp hd => onWork_ends rfl hw (mergeWork_stores hp hd)
  case mergeRound => exact fun hw hp hd => onWork_ends rfl hw (mergeWork_stores hp hd)
  case round => exact fun hw hp hd => onWork_ends rfl hw (withRecords_read hp (storePots_delivered hd))

end Sys2Proof.Machine
end

section
/-!
SUPPORT. The element-wise operations and those that choose among codes (R56, R66, R70, R114, R129).
-/

namespace Sys2Proof.Machine

open Sys2Proof

section Elementwise

variable {s s1 s2 s3 : State} {w : Work} {fl : Nat}

theorem pairWork_stores {f : Num → Num → List Num} {a b : List (List Num)}
    (ha : ValuesRead s w (opdA w.desc (dM w.desc) (dN w.desc)) (dFmtA w.desc) (dMxA w.desc) (dN w.desc) a s1)
    (hb : ValuesRead s1 w (opdB w.desc (pairShape w.desc).1 (pairShape w.desc).2) (dFmtB w.desc) (dMxB w.desc)
      (pairShape w.desc).2 b s2)
    (hd : PotsDelivered s2 w (dN w.desc)
      (a.zipIdx.map fun r => r.1.zipIdx.map fun e => sumPot (f e.1 (broadcast (pairShape w.desc) b r.2 e.2 .nan))) fl s3) :
    pairWork f s w = complete s3 w 0 0 0 fl 0 := by
  rw [pairWork]
  exact withTensor_read ha (withTensor_read hb (storePots_delivered hd))

theorem bestRowsWork_stores {hi : Bool} {a : List (List Nat)}
    (ha : CodesRead s w (opdA w.desc (dM w.desc) (dK w.desc)) (dFmtA w.desc) (dK w.desc) a s1)
    (hd : CodesDelivered s1 w 1 ((a.map (bestCode (dFmtA w.desc) hi)).map fun c => [c.1]) s3) :
    bestRowsWork hi s w = complete s3 w 0 0 0
      (flagBits { noFlags with nan := (a.map (bestCode (dFmtA w.desc) hi)).any (·.2) }) 0 := by
  rw [bestRowsWork]
  exact withCodes_read ha (storeCodes_delivered hd)

/-- The better of each element of A and B's element under it, with whether it is NaN (R114). -/
def pickedPairs (d : List Word) (hi : Bool) (a b : List (List Nat)) : List (List (Nat × Bool)) :=
  a.zipIdx.map fun r => r.1.zipIdx.map fun e => bestCode (dFmtA d) hi [e.1, broadcast (pairShape d) b r.2 e.2 0]

theorem pickWork_stores {hi : Bool} {a b : List (List Nat)}
    (ha : CodesRead s w (opdA w.desc (dM w.desc) (dN w.desc)) (dFmtA w.desc) (dN w.desc) a s1)
    (hb : CodesRead s1 w (opdB w.desc (pairShape w.desc).1 (pairShape w.desc).2) (dFmtB w.desc) (pairShape w.desc).2 b s2)
    (hd : CodesDelivered s2 w (dN w.desc) ((pickedPairs w.desc hi a b).map fun l => l.map (·.1)) s3) :
    pickWork hi s w = complete s3 w 0 0 0
      (flagBits { noFlags with nan := (pickedPairs w.desc hi a b).any fun l => l.any (·.2) }) 0 := by
  rw [pickWork]
  exact withCodes_read ha (withCodes_read hb (storeCodes_delivered hd))

end Elementwise

/-- Settles O19: each operation reads its operands, and what it delivers is what the clause names. -/
theorem elementOperationsDeliverTheirResults : Obligations.ElementOperationsDeliverTheirResults := by
  constructor
  · intro k x q w s s1 s2 s3 fl a b d sh sum pairs done ha
    refine ⟨fun hb => ⟨?add, ?sub, ?mul⟩, ?unary, ?convert⟩
    case add => exact fun hw hd => onWork_ends rfl hw (pairWork_stores ha hb hd)
    case sub => exact fun hw hd => onWork_ends rfl hw (pairWork_stores ha hb hd)
    case mul => exact fun hw hd => onWork_ends rfl hw (pairWork_stores ha hb hd)
    case unary => exact fun hw hd => onWork_ends rfl hw (withTensor_read ha (storeElems_delivered hd))
    case convert => exact fun hw hd => onWork_ends rfl hw (withTensor_read ha (storeElems_delivered hd))
  · intro k x q w s s1 s2 s3 a b d sh done rows pairs clamp
    refine ⟨fun ha => ⟨?maxRows, ?minRows⟩, fun ha => ⟨fun hb => ⟨?max, ?min⟩, ?clamp⟩⟩
    case maxRows => exact fun hw hd => onWork_ends rfl hw (bestRowsWork_stores ha hd)
    case minRows => exact fun hw hd => onWork_ends rfl hw (bestRowsWork_stores ha hd)
    case max => exact fun hw hd => onWork_ends rfl hw (pickWork_stores ha hb hd)
    case min => exact fun hw hd => onWork_ends rfl hw (pickWork_stores ha hb hd)
    case clamp => exact fun hw hb hd => onWork_ends rfl hw (withCodes_read ha (withCodes_read hb (storeCodes_delivered hd)))

end Sys2Proof.Machine
end

section
/-!
SUPPORT. The moves and COMPARE (R55, R112, R114, R116).
-/

namespace Sys2Proof.Machine

open Sys2Proof

section Moves

variable {s s1 s2 u : State} {w : Work} {o : Opd}

theorem withRows_read {rows sc : List Bytes} {k : State → List Bytes → List Bytes → State}
    (hrows : TileRead s w (opdTile o) rows s1)
    (hsc : if dMxA w.desc then TileRead s1 w (scaleTile o (dN w.desc)) sc s2 else s2 = s1 ∧ sc = [])
    (hk : k s2 rows sc = u) : withRows s w o k = u := by
  refine withTile_read hrows ?_
  split at hsc
  · next hm => exact (if_pos hm).trans (withTile_read hsc hk)
  · next hm => obtain ⟨rfl, rfl⟩ := hsc; exact (if_neg hm).trans hk

theorem moveRows_written {rows scales : List Bytes}
    (hrows : TileWritten s w (opdTile o) (rows.map (cleanRow (dFmtD w.desc) (dMxD w.desc) (dN w.desc))) s1)
    (hsc : if dMxD w.desc then TileWritten s1 w (scaleTile o (dN w.desc)) scales s2 else s2 = s1) :
    moveRows s w o rows scales = complete s2 w 0 0 0 0 0 := by
  refine putTile_written hrows ?_
  split at hsc
  · next hm => exact (if_pos hm).trans (putTile_written hsc rfl)
  · next hm => subst hsc; exact if_neg hm

theorem gatherFrom_read {l : List Nat} {pairs : List (Bytes × Bytes)} {k : State → List (Bytes × Bytes) → State}
    (h : RowsRead s w o l pairs s1) (hk : k s1 pairs = u) : gatherFrom s w o l k = u := by
  induction l generalizing s pairs k with
  | nil => obtain ⟨rfl, rfl⟩ := h; exact hk
  | cons i l ih =>
    obtain ⟨r, sc, t, s2, s3, hr, hsc, hrest, rfl⟩ := h
    refine withTile_read hr ?_
    split at hsc
    · next hm => exact (if_pos hm).trans (withTile_read hsc (ih hrest hk))
    · next hm => obtain ⟨rfl, rfl⟩ := hsc; exact (if_neg hm).trans (ih hrest hk)

theorem scatterTo_written {l : List (Nat × Bytes × Bytes)}
    (h : RowsWritten s w o (l.map fun e => (e.1, cleanRow (dFmtD w.desc) (dMxD w.desc) (dN w.desc) e.2.1, e.2.2)) s1) :
    scatterTo s w o l = complete s1 w 0 0 0 0 0 := by
  induction l generalizing s with
  | nil => subst h; rfl
  | cons e l ih =>
    obtain ⟨s2, s3, hr, hsc, hrest⟩ := h
    refine putTile_written hr ?_
    split at hsc
    · next hm => exact (if_pos hm).trans (putTile_written hsc (ih hrest))
    · next hm => subst hsc; exact (if_neg hm).trans (ih hrest)

theorem withIndices_read {b : List (List Nat)} {k : State → List Nat → State}
    (hb : CodesRead s w (opdB w.desc (dM w.desc) 1) 11 1 b s1)
    (hin : ∀ r ∈ b, r.getD 0 0 < 2 ^ 31 ∧ r.getD 0 0 < dK w.desc) (hk : k s1 (b.map fun r => r.getD 0 0) = u) :
    withIndices s w k = u := by
  have hidx : (b.map fun r => indexOf (r.getD 0 0)) = b.map fun r => some (r.getD 0 0) :=
    List.map_congr_left fun r hr => if_pos (hin r hr).1
  rw [withIndices]
  refine withCodes_read hb ?_
  dsimp only
  rw [hidx, if_neg, List.map_map]
  · exact hk
  · simpa using fun r hr => (hin r hr).2

end Moves

/-- Settles O20: each move reads its rows and writes those that the clause names; the chosen rows of a scatter are cleaned
one by one as they are written. -/
theorem movesCopyRowsAndCompareCounts : Obligations.MovesCopyRowsAndCompareCounts := by
  intro k x q w s s1 s2 s3 s4 s5 rows sc pairs a b d A D clean idx done
  refine ⟨?copy, fun hb hin => ⟨?gather, ?scatter⟩, ?transpose, ?fill, ?compare⟩
  case copy => exact fun hw hrows hsc hd hds => onWork_ends rfl hw (withRows_read hrows hsc (moveRows_written hd hds))
  case gather =>
    intro hw hrows hd hds
    refine onWork_ends rfl hw (withIndices_read hb hin (gatherFrom_read hrows (moveRows_written ?_ hds)))
    rw [List.map_map]
    exact hd
  case scatter =>
    intro hw hrows hsc hd
    refine onWork_ends rfl hw (withIndices_read hb hin (withRows_read hrows hsc (scatterTo_written ?_)))
    rw [List.map_filterMap]
    convert hd using 3 with i
    split <;> rfl
  case transpose => exact fun hw ha hd => onWork_ends rfl hw (withCodes_read ha (storeCodes_delivered hd))
  case fill => exact fun hw hb hd => onWork_ends rfl hw (withCodes_read hb (storeCodes_delivered hd))
  case compare =>
    intro hw ha hb
    refine onWork_ends rfl hw (withCodes_read ha (withCodes_read hb ?_))
    rw [← List.sum_eq_foldl]

end Sys2Proof.Machine
end

section
/-!
SUPPORT. Pot addition (R57 to R61): what a pot holds is a function of the list of its terms, and the record of a pot-128.
-/

namespace Sys2Proof.Machine

open Sys2Proof

/-! ### Two's complement -/

/-- Two's complement is the balanced remainder. -/
theorem wrapInt_succ (n : Nat) (v : Int) : wrapInt (n + 1) v = v.bmod (2 ^ (n + 1)) := by
  have hpow : (2 : Int) ^ (n + 1) = 2 * 2 ^ n := pow_succ' 2 n
  have hpos : (0 : Int) < 2 ^ n := by positivity
  symm
  rw [Int.bmod_eq_iff (by positivity), wrapInt, Nat.add_sub_cancel, Nat.cast_pow, Nat.cast_ofNat, hpow]
  generalize (2 : Int) ^ n = h at hpos
  have hlo := Int.emod_nonneg (v + h) (b := 2 * h) (by omega)
  have hhi := Int.emod_lt_of_pos (v + h) (b := 2 * h) (by omega)
  have hdiv := Int.emod_add_mul_ediv (v + h) (2 * h)
  exact ⟨by omega, by omega, -((v + h) / (2 * h)), by linarith⟩

theorem wrapInt_wrapInt_add (n : Nat) (a b : Int) : wrapInt (n + 1) (wrapInt (n + 1) a + b) = wrapInt (n + 1) (a + b) := by
  simp only [wrapInt_succ, Int.bmod_add_bmod]

theorem wrapInt_add_wrapInt (n : Nat) (a b : Int) : wrapInt (n + 1) (a + wrapInt (n + 1) b) = wrapInt (n + 1) (a + b) := by
  simp only [wrapInt_succ, Int.add_bmod_bmod]

theorem wrapInt_of_range {n : Nat} {v : Int} (hlo : -2 ^ n ≤ v) (hhi : v < 2 ^ n) : wrapInt (n + 1) v = v := by
  have hpow : (2 : Int) ^ (n + 1) = 2 * 2 ^ n := pow_succ' 2 n
  rw [wrapInt, Nat.add_sub_cancel, hpow, Int.emod_eq_of_lt (by linarith) (by linarith), add_sub_cancel_right]

theorem wrapInt_bounds (n : Nat) (v : Int) : -2 ^ n ≤ wrapInt (n + 1) v ∧ wrapInt (n + 1) v < 2 ^ n := by
  have hpow : (2 : Int) ^ (n + 1) = 2 * 2 ^ n := pow_succ' 2 n
  have hpos : (0 : Int) < 2 * 2 ^ n := by positivity
  have hlo := Int.emod_nonneg (v + 2 ^ n) hpos.ne'
  have hhi := Int.emod_lt_of_pos (v + 2 ^ n) hpos
  rw [wrapInt, Nat.add_sub_cancel, hpow]
  constructor <;> linarith

/-- Two's complement differs from the integer by a multiple of its modulus. -/
theorem wrapInt_eq_add_mul (n : Nat) (v : Int) : ∃ j, wrapInt (n + 1) v = v + 2 ^ (n + 1) * j := by
  have hdiv := Int.emod_add_mul_ediv (v + 2 ^ n) (2 ^ (n + 1))
  refine ⟨-((v + 2 ^ n) / 2 ^ (n + 1)), ?_⟩
  rw [wrapInt, Nat.add_sub_cancel]
  linarith

/-- A field of bits below the top of a two's complement number is that of the integer. -/
theorem wrapInt_ediv_emod (a b c : Nat) (v : Int) : wrapInt (a + b + c + 1) v / 2 ^ a % 2 ^ b = v / 2 ^ a % 2 ^ b := by
  obtain ⟨j, hj⟩ := wrapInt_eq_add_mul (a + b + c) v
  rw [hj, show (2 : Int) ^ (a + b + c + 1) * j = 2 ^ a * (2 ^ b * (2 ^ (c + 1) * j)) by ring,
    Int.add_mul_ediv_left _ _ (by positivity), Int.add_mul_emod_self_left]

/-! ### Terms and merges -/

/-- The value of a pot after a term: an infinity and NaN leave it as it is (R60). -/
def valueAfter (v : Int) : Num → Int
  | .fin s m e => wrapInt 640 (v + units 320 (.fin s m e))
  | _ => v

/-- A term enters a pot: its value, the terms, each flag (R59, R60). -/
theorem potAdd_eq (p : Pot) (x : Num) : potAdd p x =
    ⟨valueAfter p.v x, min (p.terms + 1) (2 ^ 48 - 1), p.posInf || decide (x = .inf false), p.negInf || decide (x = .inf true),
      p.nan || decide (x = .nan), p.range || decide (2 ^ 32 < p.terms + 1)⟩ := by
  rcases x with _ | s | ⟨s, m, e⟩
  · simp [potAdd, potTerms, valueAfter]
  · cases s <;> simp [potAdd, potTerms, valueAfter]
  · simp [potAdd, potTerms, valueAfter]

theorem valueAfter_right_comm (v : Int) (x y : Num) : valueAfter (valueAfter v x) y = valueAfter (valueAfter v y) x := by
  rcases x with _ | _ | ⟨s, m, e⟩ <;> rcases y with _ | _ | ⟨t, n, f⟩ <;>
    simp only [valueAfter, wrapInt_wrapInt_add, add_right_comm]

theorem potAdd_right_comm (p : Pot) (x y : Num) : potAdd (potAdd p x) y = potAdd (potAdd p y) x := by
  simp only [potAdd_eq, valueAfter_right_comm p.v x y, Bool.or_right_comm]

theorem potMerge_comm (p q : Pot) : potMerge p q = potMerge q p := by
  simp only [potMerge, potTerms, Int.add_comm q.v, Nat.add_comm q.terms, Bool.or_comm q.posInf, Bool.or_comm q.negInf,
    Bool.or_comm q.nan, Bool.or_comm q.range]

/-- RANGE sees the terms of all three pots, whichever two are merged first: TERMS saturates above its limit. -/
theorem range_terms_assoc (a b c : Nat) :
    (decide (2 ^ 32 < a + b) || decide (2 ^ 32 < min (a + b) (2 ^ 48 - 1) + c)) =
      (decide (2 ^ 32 < b + c) || decide (2 ^ 32 < a + min (b + c) (2 ^ 48 - 1))) := by
  rw [← Bool.decide_or, ← Bool.decide_or, decide_eq_decide]
  omega

theorem potMerge_assoc (p q r : Pot) : potMerge (potMerge p q) r = potMerge p (potMerge q r) := by
  have hrange := range_terms_assoc p.terms q.terms r.terms
  simp only [potMerge, potTerms, Pot.mk.injEq, wrapInt_wrapInt_add, wrapInt_add_wrapInt, Bool.or_assoc, Int.add_assoc, true_and]
  refine ⟨by omega, ?range⟩
  case range =>
    generalize decide (2 ^ 32 < p.terms + q.terms) = d1, decide (2 ^ 32 < q.terms + r.terms) = d2 at hrange ⊢
    rw [Bool.or_left_comm d1 r.range, hrange]

/-! ### The pot of a list of terms -/

/-- What a pot holds once the terms of a list have entered it (R59, R60). -/
def potOf (l : List Num) : Pot :=
  ⟨wrapInt 640 (l.map (units 320)).sum, min l.length (2 ^ 48 - 1), l.contains (.inf false), l.contains (.inf true),
    l.contains .nan, decide (2 ^ 32 < l.length)⟩

theorem potOf_nil : potOf [] = potZero := by
  have hzero : wrapInt 640 0 = 0 := wrapInt_of_range (neg_nonpos.2 (by positivity)) (by positivity)
  simp [potOf, potZero, hzero]

theorem valueAfter_wrapInt (v : Int) (x : Num) : valueAfter (wrapInt 640 v) x = wrapInt 640 (v + units 320 x) := by
  rcases x with _ | s | ⟨s, m, e⟩
  · simp only [valueAfter, units, add_zero]
  · simp only [valueAfter, units, add_zero]
  · exact wrapInt_wrapInt_add 639 _ _

theorem potAdd_potOf (l : List Num) (x : Num) : potAdd (potOf l) x = potOf (l ++ [x]) := by
  simp only [potAdd_eq, potOf, valueAfter_wrapInt, Pot.mk.injEq, List.map_append, List.sum_append, List.length_append,
    List.map_singleton, List.sum_singleton, List.length_singleton, List.contains_append, ← Bool.decide_or, decide_eq_decide]
  refine ⟨trivial, by omega, ?_, ?_, ?_, by omega⟩
  all_goals simp [eq_comm]

theorem foldl_potAdd_potZero (l : List Num) : l.foldl potAdd potZero = potOf l := by
  induction l using List.reverseRecOn with
  | nil => exact potOf_nil.symm
  | append_singleton l x ih => rw [List.foldl_concat, ih, potAdd_potOf]

theorem potMerge_potOf (l l' : List Num) : potMerge (potOf l) (potOf l') = potOf (l ++ l') := by
  dsimp only [potMerge, potTerms, potOf]
  simp only [wrapInt_wrapInt_add, wrapInt_add_wrapInt, Pot.mk.injEq, List.map_append, List.sum_append, List.length_append,
    List.contains_append, true_and]
  refine ⟨by omega, ?range⟩
  case range => rw [← Bool.decide_or, ← Bool.decide_or, decide_eq_decide]; omega

/-! ### The record of a pot-128 -/

theorem length_natBytes (v n : Nat) : (natBytes v n).length = n := by
  induction n generalizing v with
  | zero => rfl
  | succ n ih => simp [natBytes, ih]

theorem bytesNat_natBytes (v n : Nat) : bytesNat (natBytes v n) = v % 256 ^ n := by
  induction n generalizing v with
  | zero => simp [natBytes, bytesNat, Nat.mod_one]
  | succ n ih => rw [natBytes, bytesNat, ih, BitVec.toNat_ofNat, pow_succ' 256 n, Nat.mod_mul (a := 256)]

theorem leAt_natBytes_append (v n : Nat) (b : Bytes) : leAt (natBytes v n ++ b) 0 n = v % 256 ^ n := by
  simp [leAt, slice, length_natBytes, zeroBytes, bytesNat_natBytes]

/-- The value of a pot-128 record is the pot's, in units of `2 ^ -48` (R57, R61). -/
theorem leAt_potRecord (ver : Nat) (p : Pot) : leAt (potRecord 9 ver p) 0 16 = ((p.v / 2 ^ 272) % 2 ^ 128).toNat := by
  have hlo := Int.emod_nonneg (p.v / 2 ^ 272) (b := 2 ^ 128) (by positivity)
  have hhi := Int.emod_lt_of_pos (p.v / 2 ^ 272) (b := 2 ^ 128) (by positivity)
  rw [potRecord, if_pos rfl, List.append_assoc, leAt_natBytes_append]
  exact Nat.mod_eq_of_lt ((Int.toNat_lt hlo).2 (hhi.trans_eq (by norm_num)))

theorem readRecord_value (b : Bytes) : (readRecord 9 b).1.v = wrapInt 128 (leAt b 0 16) * 2 ^ 272 := by
  simp only [readRecord, if_true]

theorem wrapInt_emod (n : Nat) (v : Int) : wrapInt (n + 1) (v % 2 ^ (n + 1)) = wrapInt (n + 1) v := by
  rw [wrapInt, wrapInt, Int.emod_add_emod]

/-- Settles O8: the pot of a list of terms is `potOf`, which no order and no grouping changes. -/
theorem potAdditionIsModularAndFreeOfOrder : Obligations.PotAdditionIsModularAndFreeOfOrder := by
  intro p q r l l' ver sum pot
  have hpot : pot = potOf l := foldl_potAdd_potZero l
  have hv : pot.v = wrapInt 640 sum := by rw [hpot, potOf]
  have hrec : leAt (potRecord 9 ver pot) 0 16 = ((sum / 2 ^ 272) % 2 ^ 128).toNat := by
    rw [leAt_potRecord, hv, wrapInt_ediv_emod 272 128 239]
  have hcomm : RightCommutative potAdd := ⟨potAdd_right_comm⟩
  refine ⟨potMerge_comm p q, potMerge_assoc p q r, fun hl => (hl.foldl_eq p).symm, ?grouping, ?modular, ?low, ?high, ?exact, hrec,
    ?exact128, ?_, ?_, ?_, ?_, ?_⟩
  case grouping => rw [hpot, foldl_potAdd_potZero, foldl_potAdd_potZero, potMerge_potOf]
  case modular =>
    obtain ⟨j, hj⟩ := wrapInt_eq_add_mul 639 sum
    rw [hv, hj, add_sub_cancel_left, Int.mul_emod_right]
  case low => rw [hv]; exact (wrapInt_bounds 639 sum).1
  case high => rw [hv]; exact (wrapInt_bounds 639 sum).2
  case exact => exact fun hlo hhi => hv.trans (wrapInt_of_range hlo hhi)
  case exact128 =>
    rintro ⟨n, hn⟩ hlo hhi
    have hdiv : sum / 2 ^ 272 = n := by rw [hn, Int.mul_ediv_cancel_left _ (by positivity)]
    have hunit : (2 : Int) ^ 399 = 2 ^ 272 * 2 ^ 127 := (pow_add 2 272 127)
    have hpos : (0 : Int) < 2 ^ 272 := by positivity
    rw [hn, hunit, ← mul_neg] at hlo
    rw [hn, hunit] at hhi
    rw [readRecord_value, hrec, hdiv, Int.toNat_of_nonneg (Int.emod_nonneg _ (by positivity)), wrapInt_emod 127,
      wrapInt_of_range (le_of_mul_le_mul_left hlo hpos) (lt_of_mul_lt_mul_left hhi hpos.le), mul_comm, hn]
  all_goals rw [hpot, potOf]

end Sys2Proof.Machine
end

section
/-!
SUPPORT. The codes of the element formats and the values they stand for (R50, R51, R53): which values a format represents, and
that encoding and decoding agree on them.
-/

namespace Sys2Proof.Machine

open Sys2Proof

/-! ### The fields of a floating code -/

/-- The code of a floating format with these fields (R50). -/
def floatCode (t : Fmt) (s : Bool) (x m : Nat) : Nat := (s.toNat * 2 ^ t.eb + x) * 2 ^ t.mb + m

/-- The exponent of a format's subnormals, its smallest quantum (R50). -/
def minExp (f : Nat) : Int := 1 - (fmtOf f).bias - (fmtOf f).mb

/-- The exponent with which an INT8 element counts (R50, R53). -/
def int8Exp (mx : Bool) : Int := if mx then -6 else 0

/-- The encodings that a format reserves for infinity and NaN (R50). -/
def reservedFields (f x m : Nat) : Bool := (isIeee f && x = 2 ^ (fmtOf f).eb - 1) || (f = 4 && x = 15 && m = 7)

theorem fmtOf_width {f : Nat} (hf : f < 8) : (fmtOf f).w = (fmtOf f).mb + (fmtOf f).eb + 1 := by
  interval_cases f <;> rfl

theorem fmtOf_mantissa_pos {f : Nat} (hf : f < 8) : 0 < (fmtOf f).mb := by
  interval_cases f <;> decide

section Fields

variable {t : Fmt} {s : Bool} {x m : Nat}

theorem floatCode_mod (hm : m < 2 ^ t.mb) : floatCode t s x m % 2 ^ t.mb = m := by
  rw [floatCode, Nat.mul_add_mod_self_right, Nat.mod_eq_of_lt hm]

theorem floatCode_div (hm : m < 2 ^ t.mb) : floatCode t s x m / 2 ^ t.mb = s.toNat * 2 ^ t.eb + x := by
  rw [floatCode, add_comm, Nat.add_mul_div_right _ _ (by positivity), Nat.div_eq_of_lt hm, zero_add]

theorem floatCode_exponent (hx : x < 2 ^ t.eb) (hm : m < 2 ^ t.mb) : floatCode t s x m / 2 ^ t.mb % 2 ^ t.eb = x := by
  rw [floatCode_div hm, Nat.mul_add_mod_self_right, Nat.mod_eq_of_lt hx]

theorem floatCode_sign (hx : x < 2 ^ t.eb) (hm : m < 2 ^ t.mb) : (floatCode t s x m).testBit (t.mb + t.eb) = s := by
  rw [Nat.testBit_eq_decide_div_mod_eq, pow_add, ← Nat.div_div_eq_div_mul, floatCode_div hm, add_comm,
    Nat.add_mul_div_right _ _ (by positivity), Nat.div_eq_of_lt hx]
  cases s <;> rfl

theorem floatCode_lt (hx : x < 2 ^ t.eb) (hm : m < 2 ^ t.mb) : floatCode t s x m < 2 ^ (t.mb + t.eb + 1) := by
  have hhead : s.toNat * 2 ^ t.eb + x < 2 * 2 ^ t.eb := by cases s <;> simp <;> omega
  calc floatCode t s x m < (s.toNat * 2 ^ t.eb + x + 1) * 2 ^ t.mb := by rw [floatCode, add_one_mul]; omega
    _ ≤ 2 * 2 ^ t.eb * 2 ^ t.mb := Nat.mul_le_mul_right _ hhead
    _ = 2 ^ (t.mb + t.eb + 1) := by ring

theorem exists_floatCode {c : Nat} (hc : c < 2 ^ (t.mb + t.eb + 1)) :
    ∃ s x m, x < 2 ^ t.eb ∧ m < 2 ^ t.mb ∧ c = floatCode t s x m := by
  have htop : c / 2 ^ t.mb / 2 ^ t.eb < 2 := by
    rw [Nat.div_div_eq_div_mul, ← pow_add]
    exact Nat.div_lt_of_lt_mul (by rwa [← pow_succ])
  have hsign : (decide (c / 2 ^ t.mb / 2 ^ t.eb = 1)).toNat = c / 2 ^ t.mb / 2 ^ t.eb := by
    interval_cases c / 2 ^ t.mb / 2 ^ t.eb <;> rfl
  refine ⟨decide (c / 2 ^ t.mb / 2 ^ t.eb = 1), c / 2 ^ t.mb % 2 ^ t.eb, c % 2 ^ t.mb, Nat.mod_lt _ (by positivity),
    Nat.mod_lt _ (by positivity), ?_⟩
  rw [floatCode, hsign, Nat.div_add_mod', Nat.div_add_mod']

end Fields

/-- The value of a floating code that is not reserved (R50, R51). -/
theorem decodeElem_floatCode {f : Nat} (hf : f < 8) (mx s : Bool) {x m : Nat} (hx : x < 2 ^ (fmtOf f).eb)
    (hm : m < 2 ^ (fmtOf f).mb) (hfin : reservedFields f x m = false) :
    decodeElem f mx (floatCode (fmtOf f) s x m) =
      if x = 0 then .fin s m (minExp f) else .fin s (2 ^ (fmtOf f).mb + m) (x - (fmtOf f).bias - (fmtOf f).mb) := by
  have hw := fmtOf_width hf
  obtain ⟨hieee, hnan⟩ := Bool.or_eq_false_iff.1 hfin
  rw [decodeElem, if_neg (by omega)]
  simp only [hw, Nat.add_sub_cancel, floatCode_sign hx hm, floatCode_exponent hx hm, floatCode_mod hm, hieee, hnan, minExp]
  rfl

theorem decodeElem_reserved {f : Nat} (hf : f < 8) (mx s s' : Bool) {x m k : Nat} {e : Int} (hx : x < 2 ^ (fmtOf f).eb)
    (hm : m < 2 ^ (fmtOf f).mb) (hres : reservedFields f x m = true) :
    decodeElem f mx (floatCode (fmtOf f) s x m) ≠ .fin s' k e := by
  have hw := fmtOf_width hf
  rw [decodeElem, if_neg (by omega)]
  simp only [hw, Nat.add_sub_cancel, floatCode_sign hx hm, floatCode_exponent hx hm, floatCode_mod hm]
  rcases Bool.or_eq_true_iff.1 hres with hieee | hnan
  · rw [if_pos hieee]
    split_ifs <;> simp
  · rw [if_pos hnan]
    split_ifs <;> simp

/-! ### The values that a format represents -/

/-- The format has the value `k * 2 ^ q` of this sign as one of its own: it counts with the quantum of its binade, and does
not exceed the largest finite magnitude (R50). -/
def Represents (f : Nat) (mx s : Bool) (k : Nat) (q : Int) : Prop :=
  if f = 8 then q = int8Exp mx ∧ k ≤ (maxFinite f mx s).1
  else k < 2 ^ ((fmtOf f).mb + 1) ∧ (2 ^ (fmtOf f).mb ≤ k ∨ q = minExp f) ∧ minExp f ≤ q ∧
    (q < (maxFinite f mx s).2 ∨ q = (maxFinite f mx s).2 ∧ k ≤ (maxFinite f mx s).1)

/-- The largest finite value of a floating format fills its mantissa (R50). -/
theorem maxFinite_float {f : Nat} (hf : f < 8) (mx s : Bool) :
    2 ^ (fmtOf f).mb ≤ (maxFinite f mx s).1 ∧ (maxFinite f mx s).1 < 2 ^ ((fmtOf f).mb + 1) ∧
      minExp f ≤ (maxFinite f mx s).2 := by
  interval_cases f <;> simp [maxFinite, minExp, fmtOf, isIeee]

/-- The encodings that are not reserved are those of the magnitudes up to the largest finite one (R50). -/
theorem reservedFields_eq_false_iff {f : Nat} (hf : f < 8) (mx s : Bool) {x m : Nat} (hpos : 0 < x)
    (hx : x < 2 ^ (fmtOf f).eb) (hm : m < 2 ^ (fmtOf f).mb) : reservedFields f x m = false ↔
      (x - (fmtOf f).bias - (fmtOf f).mb < (maxFinite f mx s).2 ∨
        x - (fmtOf f).bias - (fmtOf f).mb = (maxFinite f mx s).2 ∧ 2 ^ (fmtOf f).mb + m ≤ (maxFinite f mx s).1) := by
  interval_cases f
  all_goals
    simp only [fmtOf] at hx hm
    simp [maxFinite, fmtOf, reservedFields, isIeee]
    omega

theorem reservedFields_zero {f : Nat} (hf : f < 8) (m : Nat) : reservedFields f 0 m = false := by
  interval_cases f <;> rfl

/-! ### Encoding -/

section Encode

variable {f : Nat} {s : Bool} {k : Nat} {q : Int}

theorem shiftLeft_sign (hf : f < 8) : s.toNat <<< ((fmtOf f).w - 1) = s.toNat * 2 ^ (fmtOf f).eb * 2 ^ (fmtOf f).mb := by
  have hw := fmtOf_width hf
  rw [hw, Nat.add_sub_cancel, Nat.shiftLeft_eq, add_comm (fmtOf f).mb, pow_add, mul_assoc]

theorem encodeElem_subnormal (hf : f < 8) (hk : k < 2 ^ (fmtOf f).mb) : encodeElem f s k q = floatCode (fmtOf f) s 0 k := by
  have hcarry : ¬ 2 ^ ((fmtOf f).mb + 1) ≤ k := by rw [pow_succ]; omega
  rw [encodeElem, if_neg (by omega), floatCode, add_zero, ← shiftLeft_sign hf]
  by_cases hk0 : k = 0
  · simp [hk0]
  · simp [hk0, hcarry, hk.not_ge]

theorem encodeElem_normal (hf : f < 8) (hlo : 2 ^ (fmtOf f).mb ≤ k) (hhi : k < 2 ^ ((fmtOf f).mb + 1)) :
    encodeElem f s k q = floatCode (fmtOf f) s (q + (fmtOf f).mb + (fmtOf f).bias).toNat (k - 2 ^ (fmtOf f).mb) := by
  have hk0 : k ≠ 0 := ((Nat.two_pow_pos _).trans_le hlo).ne'
  rw [encodeElem, if_neg (by omega), floatCode, add_mul, ← shiftLeft_sign hf]
  simp [hk0, hhi.not_ge, hlo]

/-- A magnitude that rounding has carried into the next binade has the code of that binade's first value. -/
theorem encodeElem_carry (hf : f < 8) :
    encodeElem f s (2 ^ ((fmtOf f).mb + 1)) q = encodeElem f s (2 ^ (fmtOf f).mb) (q + 1) := by
  have hhalf : 2 ^ ((fmtOf f).mb + 1) / 2 = 2 ^ (fmtOf f).mb := by rw [pow_succ, Nat.mul_div_cancel _ two_pos]
  have hlt : ¬ 2 ^ ((fmtOf f).mb + 1) ≤ 2 ^ (fmtOf f).mb := by rw [pow_succ]; have := Nat.two_pow_pos (fmtOf f).mb; omega
  simp [encodeElem, show f ≠ 8 by omega, hhalf, hlt]

end Encode

/-! ### Encoding and decoding agree -/

theorem represents_int8 {mx s : Bool} {k : Nat} {q : Int} :
    Represents 8 mx s k q ↔ q = int8Exp mx ∧ k ≤ if s then 128 else 127 := Iff.rfl

theorem decodeElem_encodeElem_int8 {mx s : Bool} {k : Nat} {q : Int} (h : Represents 8 mx s k q) :
    ∃ s', decodeElem 8 mx (encodeElem 8 s k q) = .fin s' k q ∧ (k ≠ 0 → s' = s) ∧ encodeElem 8 s k q < 2 ^ 8 := by
  obtain ⟨rfl, hk⟩ := represents_int8.1 h
  cases s with
  | false =>
    have hcode : encodeElem 8 false k (int8Exp mx) = k := Nat.mod_eq_of_lt (by simp at hk; omega)
    exact ⟨false, by rw [hcode, decodeElem, if_pos rfl, if_pos (by simp at hk; omega), int8Exp], fun _ => rfl, by
      rw [hcode]; simp at hk; omega⟩
  | true =>
    by_cases hk0 : k = 0
    · subst hk0; exact ⟨false, rfl, by simp, Nat.two_pow_pos 8⟩
    · have hcode : encodeElem 8 true k (int8Exp mx) = 256 - k := Nat.mod_eq_of_lt (by omega)
      refine ⟨true, ?_, fun _ => rfl, by rw [hcode]; omega⟩
      rw [if_pos rfl] at hk
      rw [hcode, decodeElem, if_pos rfl, if_neg (by omega), int8Exp, Nat.sub_sub_self (by omega)]

theorem encodeElem_decodeElem_int8 {mx s : Bool} {c m : Nat} {e : Int} (hc : c < 2 ^ 8) (h : decodeElem 8 mx c = .fin s m e) :
    Represents 8 mx s m e ∧ encodeElem 8 s m e = c := by
  rw [decodeElem, if_pos rfl] at h
  rw [represents_int8]
  split at h <;> cases h
  · exact ⟨⟨rfl, by simp; omega⟩, Nat.mod_eq_of_lt (by omega)⟩
  · refine ⟨⟨rfl, by rw [if_pos rfl]; omega⟩, ?_⟩
    rw [encodeElem, if_pos rfl, if_pos rfl, Nat.sub_sub_self (by omega), Nat.mod_eq_of_lt (by omega)]

theorem represents_float {f : Nat} (hf : f < 8) {mx s : Bool} {k : Nat} {q : Int} :
    Represents f mx s k q ↔ k < 2 ^ ((fmtOf f).mb + 1) ∧ (2 ^ (fmtOf f).mb ≤ k ∨ q = minExp f) ∧ minExp f ≤ q ∧
      (q < (maxFinite f mx s).2 ∨ q = (maxFinite f mx s).2 ∧ k ≤ (maxFinite f mx s).1) := by
  rw [Represents, if_neg (by omega)]

theorem maxFinite_exponent {f : Nat} (hf : f < 8) (mx s : Bool) :
    (maxFinite f mx s).2 + (fmtOf f).mb + (fmtOf f).bias < 2 ^ (fmtOf f).eb := by
  interval_cases f <;> simp [maxFinite, fmtOf, isIeee]

theorem decodeElem_encodeElem_float {f : Nat} (hf : f < 8) {mx s : Bool} {k : Nat} {q : Int} (h : Represents f mx s k q) :
    decodeElem f mx (encodeElem f s k q) = .fin s k q ∧ encodeElem f s k q < 2 ^ (fmtOf f).w := by
  obtain ⟨hk, hnorm, hmin, hmax⟩ := (represents_float hf).1 h
  have hw := fmtOf_width hf
  by_cases hsub : k < 2 ^ (fmtOf f).mb
  · have hq : q = minExp f := hnorm.resolve_left hsub.not_ge
    rw [encodeElem_subnormal hf hsub, hw, decodeElem_floatCode hf mx s (Nat.two_pow_pos _) hsub (reservedFields_zero hf k),
      if_pos rfl, hq]
    exact ⟨rfl, floatCode_lt (Nat.two_pow_pos _) hsub⟩
  · obtain ⟨m, rfl⟩ := Nat.exists_eq_add_of_le (not_lt.1 hsub)
    have hm : m < 2 ^ (fmtOf f).mb := by rw [pow_succ] at hk; omega
    have hexp := maxFinite_exponent hf mx s
    obtain ⟨x, hx⟩ : ∃ x : Nat, q + (fmtOf f).mb + (fmtOf f).bias = x + 1 :=
      ⟨(q - minExp f).toNat, by rw [Int.toNat_of_nonneg (by omega), minExp]; ring⟩
    have hx2 : x + 1 < 2 ^ (fmtOf f).eb := by zify; omega
    obtain rfl : q = ((x + 1 : Nat) : Int) - (fmtOf f).bias - (fmtOf f).mb := by push_cast; omega
    have hfin := (reservedFields_eq_false_iff hf mx s x.succ_pos hx2 hm).2 hmax
    rw [encodeElem_normal hf (Nat.le_add_right _ _) hk, hx, Nat.add_sub_cancel_left, hw]
    exact ⟨decodeElem_floatCode hf mx s hx2 hm hfin, floatCode_lt hx2 hm⟩

theorem encodeElem_decodeElem_float {f : Nat} (hf : f < 8) {mx s : Bool} {c k : Nat} {q : Int} (hc : c < 2 ^ (fmtOf f).w)
    (h : decodeElem f mx c = .fin s k q) : Represents f mx s k q ∧ encodeElem f s k q = c := by
  have hw := fmtOf_width hf
  obtain ⟨hlo, hhi, hmin⟩ := maxFinite_float hf mx s
  obtain ⟨s', x, m, hx, hm, rfl⟩ := exists_floatCode (hw ▸ hc)
  have hfin : reservedFields f x m = false :=
    Bool.eq_false_iff.2 fun hres => decodeElem_reserved hf mx s' s hx hm hres h
  rw [decodeElem_floatCode hf mx s' hx hm hfin] at h
  rw [represents_float hf]
  split at h <;> cases h
  · next hx0 =>
    subst hx0
    refine ⟨⟨by rw [pow_succ]; omega, .inr rfl, le_rfl, ?_⟩, encodeElem_subnormal hf hm⟩
    exact hmin.lt_or_eq.imp_right fun heq => ⟨heq, by omega⟩
  · next hx0 =>
    have hk : 2 ^ (fmtOf f).mb + m < 2 ^ ((fmtOf f).mb + 1) := by rw [pow_succ]; omega
    refine ⟨⟨hk, .inl (Nat.le_add_right _ _), by rw [minExp]; omega, (reservedFields_eq_false_iff hf mx s (by omega) hx hm).1 hfin⟩, ?_⟩
    rw [encodeElem_normal hf (Nat.le_add_right _ _) hk, Nat.add_sub_cancel_left]
    congr 1
    omega

/-- Encoding a value of the format gives a code that has this value; INT8 has no negative zero (R50). -/
theorem decodeElem_encodeElem {f : Nat} (hf : f < 9) {mx s : Bool} {k : Nat} {q : Int} (h : Represents f mx s k q) :
    ∃ s', decodeElem f mx (encodeElem f s k q) = .fin s' k q ∧ (k ≠ 0 → s' = s) ∧
      encodeElem f s k q < 2 ^ (fmtOf f).w := by
  rcases Nat.lt_succ_iff_lt_or_eq.1 hf with hf | rfl
  · obtain ⟨hval, hlt⟩ := decodeElem_encodeElem_float hf h
    exact ⟨s, hval, fun _ => rfl, hlt⟩
  · exact decodeElem_encodeElem_int8 h

/-- A finite code's value is one of the format's, and encodes to the code (R50). -/
theorem encodeElem_decodeElem {f : Nat} (hf : f < 9) {mx s : Bool} {c k : Nat} {q : Int} (hc : c < 2 ^ (fmtOf f).w)
    (h : decodeElem f mx c = .fin s k q) : Represents f mx s k q ∧ encodeElem f s k q = c := by
  rcases Nat.lt_succ_iff_lt_or_eq.1 hf with hf | rfl
  · exact encodeElem_decodeElem_float hf hc h
  · exact encodeElem_decodeElem_int8 hc h

end Sys2Proof.Machine
end

section
/-!
SUPPORT. Rounding (R64 to R67): the quantum, the kept integer, and the value that a result has.
-/

namespace Sys2Proof.Machine

open Sys2Proof

/-! ### The steps of rounding a magnitude -/

/-- The quantum that a magnitude `m * 2 ^ e` rounds to (R65). -/
def quantum (f : Nat) (mx : Bool) (m : Nat) (e : Int) : Int :=
  if f = 8 then int8Exp mx else max ((Nat.log2 m : Int) + e) (1 - (fmtOf f).bias) - (fmtOf f).mb

/-- The whole quanta of a magnitude (R65). -/
def wholeQuanta (m : Nat) (e q : Int) : Nat := if q ≤ e then m <<< (e - q).toNat else m >>> (q - e).toNat

/-- What a magnitude holds beside its whole quanta, in units of `2 ^ e` (R65). -/
def restQuanta (m : Nat) (e q : Int) : Nat := if q ≤ e then 0 else m % 2 ^ (q - e).toNat

/-- The quanta of the rounded magnitude (R65). -/
def roundedQuanta (mode : RMode) (m : Nat) (e q : Int) : Nat :=
  if roundUp mode (wholeQuanta m e q) (restQuanta m e q) (q - e).toNat then wholeQuanta m e q + 1 else wholeQuanta m e q

/-- The quanta, of the format's own quantum, that a magnitude rounds to (R65). -/
def resultQuanta (mode : RMode) (f : Nat) (mx : Bool) (m : Nat) (e : Int) : Nat := roundedQuanta mode m e (quantum f mx m e)

/-- A magnitude `k * 2 ^ q` exceeds the largest finite one of its sign (R65). -/
def Beyond (f : Nat) (mx s : Bool) (k : Nat) (q : Int) : Prop :=
  shl (maxFinite f mx s).1 ((maxFinite f mx s).2 - min q (maxFinite f mx s).2) < shl k (q - min q (maxFinite f mx s).2)

section Steps

variable {mode : RMode} {f : Nat} {mx sat s : Bool} {m c : Nat} {e : Int}

theorem roundMag_of_not_beyond (h : ¬ Beyond f mx s (resultQuanta mode f mx m e) (quantum f mx m e)) :
    roundMag mode f mx sat s m e = (encodeElem f s (resultQuanta mode f mx m e) (quantum f mx m e), false) :=
  if_neg h

theorem roundMag_of_beyond (h : Beyond f mx s (resultQuanta mode f mx m e) (quantum f mx m e)) :
    roundMag mode f mx sat s m e = (overflowCode f sat s, true) := if_pos h

/-- A value that rounds without overflow has the code of its rounded quanta, which are in range. -/
theorem roundMag_without_overflow (h : roundMag mode f mx sat s m e = (c, false)) :
    ¬ Beyond f mx s (resultQuanta mode f mx m e) (quantum f mx m e) ∧
      c = encodeElem f s (resultQuanta mode f mx m e) (quantum f mx m e) := by
  by_cases hb : Beyond f mx s (resultQuanta mode f mx m e) (quantum f mx m e)
  · rw [roundMag_of_beyond hb] at h; simp at h
  · rw [roundMag_of_not_beyond hb] at h; exact ⟨hb, (congrArg Prod.fst h).symm⟩

theorem roundNum_fin (hm : m ≠ 0) : roundNum mode f mx sat (.fin s m e) = roundMag mode f mx sat s m e := if_neg hm

end Steps

theorem wholeQuanta_le_rounded (mode : RMode) (m : Nat) (e q : Int) :
    wholeQuanta m e q ≤ roundedQuanta mode m e q ∧ roundedQuanta mode m e q ≤ wholeQuanta m e q + 1 := by
  rw [roundedQuanta]
  split <;> omega

theorem quantum_float {f : Nat} (hf : f < 8) (mx : Bool) (m : Nat) (e : Int) :
    quantum f mx m e = max ((Nat.log2 m : Int) + e - (fmtOf f).mb) (minExp f) := by
  rw [quantum, if_neg (by omega), minExp]
  omega

/-- The whole quanta of a floating result fill the mantissa, but for a subnormal (R65). -/
theorem wholeQuanta_float {f : Nat} (hf : f < 8) (mx : Bool) {m : Nat} (hm : m ≠ 0) (e : Int) :
    wholeQuanta m e (quantum f mx m e) < 2 ^ ((fmtOf f).mb + 1) ∧
      (2 ^ (fmtOf f).mb ≤ wholeQuanta m e (quantum f mx m e) ∨ quantum f mx m e = minExp f) ∧
      minExp f ≤ quantum f mx m e := by
  have hlo : 2 ^ Nat.log2 m ≤ m := Nat.log2_self_le hm
  have hhi : m < 2 ^ (Nat.log2 m + 1) := Nat.lt_log2_self
  rw [quantum_float hf]
  generalize Nat.log2 m = g at *
  set q := max ((g : Int) + e - (fmtOf f).mb) (minExp f) with hq
  have hge : (g : Int) + e - (fmtOf f).mb ≤ q := le_max_left _ _
  refine ⟨?lt, ?full, le_max_right _ _⟩
  case lt =>
    rw [wholeQuanta]
    split
    · rw [Nat.shiftLeft_eq]
      calc m * 2 ^ (e - q).toNat < 2 ^ (g + 1) * 2 ^ (e - q).toNat := Nat.mul_lt_mul_of_pos_right hhi (by positivity)
        _ = 2 ^ (g + 1 + (e - q).toNat) := (pow_add _ _ _).symm
        _ ≤ 2 ^ ((fmtOf f).mb + 1) := Nat.pow_le_pow_right two_pos (by omega)
    · rw [Nat.shiftRight_eq_div_pow]
      refine Nat.div_lt_of_lt_mul (hhi.trans_le ?_)
      rw [← pow_add]
      exact Nat.pow_le_pow_right two_pos (by omega)
  case full =>
    rcases max_choice ((g : Int) + e - (fmtOf f).mb) (minExp f) with hmax | hmax
    · left
      rw [← hq] at hmax
      rw [wholeQuanta]
      split
      · rw [Nat.shiftLeft_eq]
        calc 2 ^ (fmtOf f).mb = 2 ^ g * 2 ^ (e - q).toNat := by rw [← pow_add]; congr 1; omega
          _ ≤ m * 2 ^ (e - q).toNat := Nat.mul_le_mul_right _ hlo
      · rw [Nat.shiftRight_eq_div_pow, Nat.le_div_iff_mul_le (by positivity), ← pow_add]
        refine le_trans (Nat.pow_le_pow_right two_pos (by omega)) hlo
    · exact .inr hmax

/-! ### Overflow -/

theorem shl_zero (m : Nat) : shl m 0 = m := by simp [shl]

theorem shl_natCast (m d : Nat) : shl m d = m * 2 ^ d := by simp [shl, Nat.shiftLeft_eq]

theorem beyond_int8 (mx s : Bool) (k : Nat) : Beyond 8 mx s k (int8Exp mx) ↔ (maxFinite 8 mx s).1 < k := by
  have hexp : (maxFinite 8 mx s).2 = int8Exp mx := rfl
  rw [Beyond, hexp, min_self, sub_self, shl_zero, shl_zero]

theorem beyond_float {f : Nat} (hf : f < 8) {mx s : Bool} {k : Nat} {q : Int} (hk : k ≤ 2 ^ ((fmtOf f).mb + 1))
    (hnorm : 2 ^ (fmtOf f).mb ≤ k ∨ q = minExp f) :
    Beyond f mx s k q ↔ (maxFinite f mx s).2 < q ∨ q = (maxFinite f mx s).2 ∧ (maxFinite f mx s).1 < k := by
  obtain ⟨hlo, hhi, hmin⟩ := maxFinite_float hf mx s
  rw [Beyond]
  generalize (maxFinite f mx s).1 = K at *
  generalize (maxFinite f mx s).2 = Q at *
  rw [pow_succ] at hk hhi
  rcases lt_trichotomy q Q with hlt | rfl | hgt
  · obtain ⟨d, rfl⟩ := Int.le.dest hlt.le
    have hd : 2 ≤ 2 ^ d := Nat.le_self_pow (by omega) 2
    have hbig : K * 2 ≤ K * 2 ^ d := Nat.mul_le_mul_left _ hd
    rw [min_eq_left hlt.le, sub_self, shl_zero, add_sub_cancel_left, shl_natCast]
    omega
  · rw [min_self, sub_self, shl_zero, shl_zero]
    omega
  · obtain ⟨d, rfl⟩ := Int.le.dest hgt.le
    have hd : 2 ≤ 2 ^ d := Nat.le_self_pow (by omega) 2
    have hbig : k * 2 ≤ k * 2 ^ d := Nat.mul_le_mul_left _ hd
    rw [min_eq_right hgt.le, sub_self, shl_zero, add_sub_cancel_left, shl_natCast]
    omega

/-- A rounded magnitude that is in range is a value of the format, if need be as the first of the next binade. -/
theorem represents_rounded {f : Nat} (hf : f < 9) {mx s : Bool} {mode : RMode} {m : Nat} {e : Int} (hm : m ≠ 0)
    (h : ¬ Beyond f mx s (resultQuanta mode f mx m e) (quantum f mx m e)) :
    ∃ k q, Represents f mx s k q ∧
      encodeElem f s (resultQuanta mode f mx m e) (quantum f mx m e) = encodeElem f s k q ∧
      (k = resultQuanta mode f mx m e ∧ q = quantum f mx m e ∨
        f < 8 ∧ k = 2 ^ (fmtOf f).mb ∧ 2 * k = resultQuanta mode f mx m e ∧ q = quantum f mx m e + 1) := by
  unfold resultQuanta at *
  obtain ⟨hle, hlt⟩ := wholeQuanta_le_rounded mode m e (quantum f mx m e)
  rcases Nat.lt_succ_iff_lt_or_eq.1 hf with hf | rfl
  · obtain ⟨hk, hnorm, hmin⟩ := wholeQuanta_float hf mx hm e
    obtain ⟨hKlo, hKhi, -⟩ := maxFinite_float hf mx s
    generalize quantum f mx m e = q at *
    generalize roundedQuanta mode m e q = k at *
    generalize wholeQuanta m e q = w at *
    have hnorm' : 2 ^ (fmtOf f).mb ≤ k ∨ q = minExp f := hnorm.imp_left (·.trans hle)
    rw [beyond_float hf (by omega) hnorm'] at h
    by_cases hcarry : k = 2 ^ ((fmtOf f).mb + 1)
    · subst hcarry
      refine ⟨2 ^ (fmtOf f).mb, q + 1, (represents_float hf).2 ⟨?_, .inl le_rfl, by omega, by omega⟩, encodeElem_carry hf,
        .inr ⟨hf, rfl, (pow_succ' _ _).symm, rfl⟩⟩
      exact Nat.pow_lt_pow_right one_lt_two (Nat.lt_succ_self _)
    · exact ⟨k, q, (represents_float hf).2 ⟨by omega, hnorm', hmin, by omega⟩, rfl, .inl ⟨rfl, rfl⟩⟩
  · refine ⟨_, _, ⟨rfl, ?_⟩, rfl, .inl ⟨rfl, rfl⟩⟩
    exact not_lt.1 ((beyond_int8 mx s _).not.1 h)

/-! ### A value of the format is not moved -/

theorem quantum_of_represents {f : Nat} (hf : f < 9) {mx s : Bool} {k : Nat} {q : Int} (hk : k ≠ 0) (h : Represents f mx s k q) :
    quantum f mx k q = q := by
  rcases Nat.lt_succ_iff_lt_or_eq.1 hf with hf | rfl
  · obtain ⟨hhi, hnorm, hmin, -⟩ := (represents_float hf).1 h
    have hlog : Nat.log2 k < (fmtOf f).mb + 1 := (Nat.log2_lt hk).2 hhi
    rw [quantum_float hf]
    rcases hnorm with hlo | rfl
    · have : (fmtOf f).mb ≤ Nat.log2 k := (Nat.le_log2 hk).2 hlo
      omega
    · omega
  · exact h.1.symm

theorem roundUp_exact (mode : RMode) (k : Nat) : roundUp mode k 0 0 = false := by
  cases mode <;> simp [roundUp]

theorem roundedQuanta_self (mode : RMode) (k : Nat) (q : Int) : roundedQuanta mode k q q = k := by
  simp [roundedQuanta, wholeQuanta, restQuanta, roundUp_exact]

theorem not_beyond_of_represents {f : Nat} (hf : f < 9) {mx s : Bool} {k : Nat} {q : Int} (h : Represents f mx s k q) :
    ¬ Beyond f mx s k q := by
  rcases Nat.lt_succ_iff_lt_or_eq.1 hf with hf | rfl
  · obtain ⟨hhi, hnorm, hmin, hmax⟩ := (represents_float hf).1 h
    rw [beyond_float hf hhi.le hnorm]
    omega
  · obtain ⟨rfl, hk⟩ := h
    exact (beyond_int8 mx s k).not.2 hk.not_gt

theorem roundMag_of_represents {f : Nat} (hf : f < 9) (mode : RMode) {mx sat s : Bool} {k : Nat} {q : Int} (hk : k ≠ 0)
    (h : Represents f mx s k q) : roundMag mode f mx sat s k q = (encodeElem f s k q, false) := by
  have hself := quantum_of_represents hf hk h
  have hfits := not_beyond_of_represents hf h
  rw [roundMag_of_not_beyond] <;> rw [resultQuanta, hself, roundedQuanta_self]
  exact hfits

/-- A zero is encoded with its sign, but in INT8, which has one zero (R66). -/
theorem roundNum_zero (mode : RMode) (f : Nat) (mx sat s : Bool) (e q : Int) :
    roundNum mode f mx sat (.fin s 0 e) = (encodeElem f s 0 q, false) := by
  by_cases hf : f = 8
  · subst hf; cases s <;> rfl
  · simp [roundNum, encodeElem, hf]

theorem encodeElem_zero {f : Nat} (hf : f < 9) (s : Bool) (q : Int) :
    encodeElem f s 0 q = if f < 8 ∧ s = true then 2 ^ ((fmtOf f).w - 1) else 0 := by
  rcases Nat.lt_succ_iff_lt_or_eq.1 hf with hf | rfl
  · cases s <;> simp [encodeElem, hf, hf.ne, Nat.shiftLeft_eq]
  · cases s <;> rfl

/-- Settles O9: a code's value is one of the format's, which rounding does not move. -/
theorem elementValuesRoundToThemselves : Obligations.ElementValuesRoundToThemselves := by
  intro f c m mx sat s e mode hf hc hval
  obtain ⟨hrep, hcode⟩ := encodeElem_decodeElem hf hc hval
  by_cases hm : m = 0
  · subst hm
    rw [roundNum_zero mode f mx sat s e e, hcode]
  · rw [roundNum_fin hm, roundMag_of_represents hf mode hm hrep, hcode]

/-! ### What is delivered for the special values -/

theorem potNum_nan {p : Pot} (h : p.nan = true ∨ p.range = true ∨ p.posInf = true ∧ p.negInf = true) : potNum p = .nan :=
  if_pos (by simpa [or_assoc] using h)

theorem potNum_of_flags {p : Pot} (hnan : p.nan = false) (hrange : p.range = false) : potNum p =
    if p.posInf && p.negInf then .nan else if p.posInf then .inf false else if p.negInf then .inf true
    else .fin (decide (p.v < 0)) p.v.natAbs (-320) := by
  simp [potNum, hnan, hrange]

/-- A value that rounds to a zero has the zero of its own sign (R66). -/
theorem code_of_rounded_zero {f : Nat} (hf : f < 9) {mode : RMode} {mx sat s s' : Bool} {m c : Nat} {e e' : Int} (hm : m ≠ 0)
    (h : roundNum mode f mx sat (.fin s m e) = (c, false)) (hzero : decodeElem f mx c = .fin s' 0 e') :
    c = if f < 8 ∧ s = true then 2 ^ ((fmtOf f).w - 1) else 0 := by
  rw [roundNum_fin hm] at h
  obtain ⟨hfits, rfl⟩ := roundMag_without_overflow h
  obtain ⟨k, q, hrep, hcode, -⟩ := represents_rounded hf hm hfits
  obtain ⟨s2, hval, -, -⟩ := decodeElem_encodeElem hf hrep
  rw [hcode, hval] at hzero
  cases hzero
  rw [hcode, encodeElem_zero hf]

/-- Settles O11: `potNum` says what a pot rounds as, and `roundNum` what is delivered for it. -/
theorem zerosInfinitiesAndNansAreDelivered : Obligations.ZerosInfinitiesAndNansAreDelivered := by
  intro mode f mx sat p hf round zero
  have hround : ∀ s e, round (.fin s 0 e) = (zero s, false) := fun s e =>
    (roundNum_zero mode f mx sat s e e).trans (congrArg (·, false) (encodeElem_zero hf s e))
  refine ⟨?emptied, hround, ?rounded, ?nan, ?infinite, by decide⟩
  case emptied =>
    intro hnan hrange hpos hneg hv
    have hnum : potNum p = .fin false 0 (-320) := by simp [potNum_of_flags hnan hrange, hpos, hneg, hv]
    rw [hnum, hround]
    simp [zero]
  case rounded => exact fun s m e c e' hm h ⟨s', hzero⟩ => code_of_rounded_zero hf hm h hzero
  case nan => exact fun h => congrArg round (potNum_nan h)
  case infinite =>
    intro hnan hrange
    rw [potNum_of_flags hnan hrange]
    refine ⟨fun hpos hneg => ?_, fun hpos hneg => ?_⟩
    · rw [hpos, hneg]; rfl
    · rw [hpos, hneg]; rfl

end Sys2Proof.Machine
end

section
/-!
SUPPORT. Rounding to nearest, ties to even (R65), in rational numbers.
-/

namespace Sys2Proof.Machine

open Sys2Proof

/-! ### Values as rational numbers -/

/-- The number of a sign. -/
def signNum (s : Bool) : ℚ := if s then -1 else 1

/-- The rational number of a finite value. -/
def ratNum (s : Bool) (m : Nat) (e : Int) : ℚ := signNum s * (m * 2 ^ e)

/-- A finite value as an integer in units of `2 ^ lo`, as O10 compares values. -/
def unitNum (lo : Int) (s : Bool) (m : Nat) (e : Int) : Int :=
  if s then -((m * 2 ^ (e - lo).toNat : Nat) : Int) else ((m * 2 ^ (e - lo).toNat : Nat) : Int)

theorem abs_signNum_mul (s : Bool) (x : ℚ) : |signNum s * x| = |x| := by cases s <;> simp [signNum]

theorem signNum_mul_signNum (s : Bool) : signNum s * signNum s = 1 := by cases s <;> simp [signNum]

theorem unitNum_cast {lo e : Int} (h : lo ≤ e) (s : Bool) (m : Nat) : (unitNum lo s m e : ℚ) * 2 ^ lo = ratNum s m e := by
  have hpow : (2 : ℚ) ^ (e - lo).toNat * 2 ^ lo = 2 ^ e := by
    rw [← zpow_natCast, Int.toNat_of_nonneg (by omega), ← zpow_add₀ two_ne_zero, sub_add_cancel]
  cases s
  · simp [unitNum, ratNum, signNum, mul_assoc, hpow]
  · simp [unitNum, ratNum, signNum, mul_assoc, hpow]

/-- Distances in units of `2 ^ lo` compare as those of the rational numbers. -/
theorem natAbs_unitNum_sub {lo e e' : Int} (h : lo ≤ e) (h' : lo ≤ e') (s s' : Bool) (m m' : Nat) :
    ((unitNum lo s m e - unitNum lo s' m' e').natAbs : ℚ) * 2 ^ lo = |ratNum s m e - ratNum s' m' e'| := by
  rw [← unitNum_cast h, ← unitNum_cast h', ← sub_mul, abs_mul, abs_of_pos (zpow_pos two_pos lo : (0 : ℚ) < 2 ^ lo),
    Nat.cast_natAbs, Int.cast_abs, Int.cast_sub]

theorem unitNum_eq_of_ratNum_eq {lo e e' : Int} (h : lo ≤ e) (h' : lo ≤ e') {s s' : Bool} {m m' : Nat}
    (heq : ratNum s m e = ratNum s' m' e') : unitNum lo s m e = unitNum lo s' m' e' := by
  rw [← unitNum_cast h, ← unitNum_cast h'] at heq
  exact_mod_cast mul_right_cancel₀ (zpow_ne_zero lo two_ne_zero) heq

/-! ### The nearest integer -/

/-- `k` is an integer nearest to `x`, an even one at a tie. -/
def NearestEven (x : ℚ) (k : Nat) : Prop := |(k : ℚ) - x| ≤ 1 / 2 ∧ (|(k : ℚ) - x| = 1 / 2 → k % 2 = 0)

/-- `k` is at least as near to `x` as `y` is, and even where another number `y` is equally near. -/
def AtLeastAsNear (x : ℚ) (k : Nat) (y : ℚ) : Prop :=
  |(k : ℚ) - x| ≤ |y - x| ∧ (|(k : ℚ) - x| = |y - x| → (k : ℚ) ≠ y → k % 2 = 0)

theorem NearestEven.atLeastAsNear {x : ℚ} {k : Nat} (h : NearestEven x k) (y : Int) : AtLeastAsNear x k y := by
  by_cases hy : (k : Int) = y
  · subst hy
    exact ⟨le_rfl, fun _ hne => absurd rfl hne⟩
  · have hone : (1 : ℚ) ≤ |(k : ℚ) - y| := by
      have : (1 : Int) ≤ |(k : Int) - y| := Int.one_le_abs (sub_ne_zero.2 hy)
      exact_mod_cast this
    have htri : |(k : ℚ) - y| ≤ |(k : ℚ) - x| + |(y : ℚ) - x| := by
      rw [abs_sub_comm (y : ℚ) x]; exact abs_sub_le _ _ _
    obtain ⟨hhalf, heven⟩ := h
    exact ⟨by linarith, fun heq _ => heven (by linarith)⟩

/-- A number with an integer between it and `x` is farther from `x` than the nearest integer. -/
theorem NearestEven.atLeastAsNear_of_lt {x y : ℚ} {k : Nat} {n : Int} (h : NearestEven x k) (hy : y < n) (hn : n ≤ x) :
    AtLeastAsNear x k y := by
  obtain ⟨hle, -⟩ := h.atLeastAsNear n
  rw [abs_of_nonpos (sub_nonpos.2 hn)] at hle
  rw [AtLeastAsNear, abs_of_neg (sub_neg.2 (hy.trans_le hn))]
  exact ⟨by linarith, fun heq => absurd heq (by linarith)⟩

/-- The nearest integer below. -/
theorem nearestEven_floor {k : Nat} {t : ℚ} (hlo : 0 ≤ t) (hhi : t ≤ 1 / 2) (heven : t = 1 / 2 → k % 2 = 0) :
    NearestEven (k + t) k := by
  have hdist : |(k : ℚ) - (k + t)| = t := by rw [sub_add_cancel_left, abs_neg, abs_of_nonneg hlo]
  rw [NearestEven, hdist]
  exact ⟨hhi, heven⟩

/-- The nearest integer above. -/
theorem nearestEven_ceil {k : Nat} {t : ℚ} (hlo : 1 / 2 ≤ t) (hhi : t ≤ 1) (hodd : t = 1 / 2 → k % 2 = 1) :
    NearestEven (k + t) (k + 1) := by
  have hdist : |((k + 1 : Nat) : ℚ) - (k + t)| = 1 - t := by
    rw [Nat.cast_add_one, add_sub_add_left_eq_sub, abs_of_nonneg (by linarith)]
  rw [NearestEven, hdist]
  exact ⟨by linarith, fun heq => by have := hodd (by linarith); omega⟩

/-- The whole quanta and the rest make up the magnitude. -/
theorem wholeQuanta_add_rest (m : Nat) (e q : Int) :
    (m : ℚ) * 2 ^ (e - q) = wholeQuanta m e q + restQuanta m e q / 2 ^ (q - e).toNat := by
  rw [wholeQuanta, restQuanta]
  split
  · next h =>
    obtain ⟨d, rfl⟩ := Int.le.dest h
    simp [Nat.shiftLeft_eq]
  · next h =>
    obtain ⟨d, hd⟩ := Int.le.dest (not_le.1 h).le
    obtain rfl : q = e + d := hd.symm
    have hm : ((2 ^ d * (m / 2 ^ d) + m % 2 ^ d : Nat) : ℚ) = m := by rw [Nat.div_add_mod]
    push_cast at hm
    rw [Nat.shiftRight_eq_div_pow, add_sub_cancel_left, Int.toNat_natCast, sub_add_cancel_left, zpow_neg, zpow_natCast]
    field_simp
    linarith

theorem restQuanta_lt (m : Nat) (e q : Int) : restQuanta m e q < 2 ^ (q - e).toNat := by
  rw [restQuanta]
  split
  · positivity
  · exact Nat.mod_lt _ (by positivity)

/-- Rounding to nearest takes the integer nearest to the magnitude in quanta (R65). -/
theorem nearestEven_rounded (m : Nat) (e q : Int) : NearestEven (m * 2 ^ (e - q)) (roundedQuanta .rne m e q) := by
  have hlt := restQuanta_lt m e q
  rw [wholeQuanta_add_rest, roundedQuanta, roundUp]
  generalize wholeQuanta m e q = k
  generalize restQuanta m e q = r at *
  generalize (q - e).toNat = d at *
  have hpos : (0 : ℚ) < 2 ^ d := by positivity
  have htie : (r : ℚ) / 2 ^ d = 1 / 2 → 2 * r = 2 ^ d := fun h => by
    rw [div_eq_div_iff hpos.ne' two_ne_zero] at h
    exact_mod_cast (show (2 * r : ℚ) = 2 ^ d by linarith)
  split
  · next h =>
    have hup : 2 ^ d ≤ 2 * r ∧ (2 * r = 2 ^ d → k % 2 = 1) := by
      simp only [Bool.or_eq_true, Bool.and_eq_true, decide_eq_true_eq] at h
      omega
    have hge : (2 ^ d : ℚ) ≤ 2 * r := by exact_mod_cast hup.1
    have hle : (r : ℚ) ≤ 2 ^ d := by exact_mod_cast hlt.le
    exact nearestEven_ceil (by rw [div_le_div_iff₀ two_pos hpos]; linarith) ((div_le_one hpos).2 hle) fun heq => hup.2 (htie heq)
  · next h =>
    have hdown : 2 * r ≤ 2 ^ d ∧ (2 * r = 2 ^ d → k % 2 = 0) := by
      simp only [Bool.or_eq_true, Bool.and_eq_true, decide_eq_true_eq] at h
      omega
    have hle : (2 * r : ℚ) ≤ 2 ^ d := by exact_mod_cast hdown.1
    exact nearestEven_floor (by positivity) (by rw [div_le_div_iff₀ hpos two_pos]; linarith) fun heq => hdown.2 (htie heq)

/-! ### The nearest code -/

theorem encodeElem_parity {f : Nat} (hf : f < 9) {mx s : Bool} {k : Nat} {q : Int} (h : Represents f mx s k q) :
    encodeElem f s k q % 2 = k % 2 := by
  rcases Nat.lt_succ_iff_lt_or_eq.1 hf with hf | rfl
  · obtain ⟨hhi, -⟩ := (represents_float hf).1 h
    obtain ⟨n, hn⟩ := Nat.exists_eq_add_of_lt (fmtOf_mantissa_pos hf)
    have heven : ∀ x y, (x * 2 ^ (fmtOf f).mb + y) % 2 = y % 2 := fun x y => by
      rw [hn, pow_succ, ← mul_assoc]; omega
    by_cases hsub : k < 2 ^ (fmtOf f).mb
    · rw [encodeElem_subnormal hf hsub, floatCode, heven]
    · obtain ⟨m, rfl⟩ := Nat.exists_eq_add_of_le (not_lt.1 hsub)
      have hone := heven 1 m
      rw [one_mul] at hone
      rw [encodeElem_normal hf (not_lt.1 hsub) hhi, floatCode, heven, Nat.add_sub_cancel_left, hone]
  · obtain ⟨-, hk⟩ := represents_int8.1 h
    rw [encodeElem, if_pos rfl]
    split at hk
    · next hs => rw [if_pos hs]; omega
    · next hs => rw [if_neg hs]; omega

/-- The distance of a number in quanta from a value, in the value's own sign. -/
theorem abs_quanta_sub (s : Bool) (y : ℚ) (q : Int) (m : Nat) (e : Int) :
    |signNum s * (y * 2 ^ q) - ratNum s m e| = |y - m * 2 ^ (e - q)| * 2 ^ q := by
  have hpow : (2 : ℚ) ^ e = 2 ^ (e - q) * 2 ^ q := by rw [← zpow_add₀ two_ne_zero, sub_add_cancel]
  rw [ratNum, ← mul_sub, abs_signNum_mul, hpow, ← mul_assoc, ← sub_mul, abs_mul,
    abs_of_pos (zpow_pos two_pos q : (0 : ℚ) < 2 ^ q)]

theorem int_quanta {s s2 : Bool} {k2 : Nat} {q q2 : Int} {y : ℚ} (hq : q ≤ q2)
    (hy : ratNum s2 k2 q2 = signNum s * (y * 2 ^ q)) : ∃ n : Int, y = n := by
  have hpos : (0 : ℚ) < 2 ^ q := zpow_pos two_pos q
  rw [← unitNum_cast hq, ← mul_assoc] at hy
  have hy := mul_right_cancel₀ hpos.ne' hy
  cases s
  · exact ⟨unitNum q s2 k2 q2, by simpa [signNum] using hy.symm⟩
  · exact ⟨-unitNum q s2 k2 q2, by simpa [signNum, neg_eq_iff_eq_neg, eq_comm] using hy⟩

/-- A magnitude above the subnormals has at least the least number of quanta of a binade. -/
theorem binade_le {f : Nat} (hf : f < 8) {mx : Bool} {m : Nat} {e : Int} (hm : m ≠ 0) (hq : quantum f mx m e ≠ minExp f) :
    (2 : ℚ) ^ (fmtOf f).mb ≤ m * 2 ^ (e - quantum f mx m e) := by
  obtain ⟨-, hfull, -⟩ := wholeQuanta_float hf mx hm e
  have hle : (2 : ℚ) ^ (fmtOf f).mb ≤ wholeQuanta m e (quantum f mx m e) := by exact_mod_cast hfull.resolve_right hq
  rw [wholeQuanta_add_rest]
  exact hle.trans (le_add_of_nonneg_right (by positivity))

/-- A value of a floating format with a smaller quantum lies below every magnitude of the binade. -/
theorem finer_lt {f : Nat} (hf : f < 8) {mx s s2 : Bool} {k2 : Nat} {q q2 : Int} {y : ℚ} (h : Represents f mx s2 k2 q2)
    (hq : q2 < q) (hy : ratNum s2 k2 q2 = signNum s * (y * 2 ^ q)) : y < 2 ^ (fmtOf f).mb := by
  obtain ⟨hk, -⟩ := (represents_float hf).1 h
  obtain ⟨d, rfl⟩ := Int.le.dest (Int.add_one_le_of_lt hq)
  have hpos : (0 : ℚ) < 2 ^ q2 := zpow_pos two_pos q2
  have hk' : (k2 : ℚ) < 2 * 2 ^ (fmtOf f).mb := by rw [← pow_succ']; exact_mod_cast hk
  have hpow : (2 : ℚ) ^ (q2 + 1 + d) = 2 * 2 ^ d * 2 ^ q2 := by
    rw [zpow_add₀ two_ne_zero, zpow_add₀ two_ne_zero, zpow_one, zpow_natCast]; ring
  have habs := congrArg abs hy
  rw [ratNum, hpow, abs_signNum_mul, abs_signNum_mul, ← mul_assoc, abs_mul, abs_mul, Nat.abs_cast, abs_of_pos hpos] at habs
  have hk2 : (k2 : ℚ) = |y * (2 * 2 ^ d)| := mul_right_cancel₀ hpos.ne' habs
  rw [abs_mul, abs_of_pos (by positivity : (0 : ℚ) < 2 * 2 ^ d)] at hk2
  have hone : |y| ≤ |y| * 2 ^ d := le_mul_of_one_le_right (abs_nonneg y) (one_le_pow₀ one_le_two)
  linarith [le_abs_self y]

/-- The rounded quanta are at least as near to the magnitude as any value of the format in the same quanta, whole or not. -/
theorem resultQuanta_nearest {f : Nat} (hf : f < 9) {mx s s2 : Bool} {m k2 : Nat} {e q2 : Int} (hm : m ≠ 0)
    (h : Represents f mx s2 k2 q2) {y : ℚ} (hy : ratNum s2 k2 q2 = signNum s * (y * 2 ^ quantum f mx m e)) :
    AtLeastAsNear (m * 2 ^ (e - quantum f mx m e)) (resultQuanta .rne f mx m e) y := by
  have hnear : NearestEven _ (resultQuanta .rne f mx m e) := nearestEven_rounded m e (quantum f mx m e)
  by_cases hq : quantum f mx m e ≤ q2
  · obtain ⟨n, rfl⟩ := int_quanta hq hy
    exact hnear.atLeastAsNear n
  · rcases Nat.lt_succ_iff_lt_or_eq.1 hf with hf | rfl
    · obtain ⟨-, -, hmin, -⟩ := (represents_float hf).1 h
      refine hnear.atLeastAsNear_of_lt (n := 2 ^ (fmtOf f).mb) ?_ ?_
      · exact_mod_cast finer_lt hf h (not_le.1 hq) hy
      · exact_mod_cast binade_le hf hm (by omega)
    · exact absurd h.1.ge hq

/-- The value of a rounded code is that of its rounded quanta, in the sign of the value that was rounded. -/
theorem ratNum_rounded {s s1 : Bool} {k K : Nat} {q Q : Int} (hsign : k ≠ 0 → s1 = s)
    (h : k = K ∧ q = Q ∨ 2 * k = K ∧ q = Q + 1) : ratNum s1 k q = signNum s * (K * 2 ^ Q) := by
  have hmag : (k : ℚ) * 2 ^ q = K * 2 ^ Q := by
    rcases h with ⟨rfl, rfl⟩ | ⟨rfl, rfl⟩
    · rfl
    · rw [zpow_add_one₀ two_ne_zero]; push_cast; ring
  rw [ratNum, hmag]
  by_cases hk : k = 0
  · rw [← hmag]; simp [hk]
  · rw [hsign hk]

theorem even_code_of_even_quanta {f : Nat} (hf : f < 9) {mx s : Bool} {k K : Nat} {q Q : Int} (h : Represents f mx s k q)
    (hkq : k = K ∧ q = Q ∨ f < 8 ∧ k = 2 ^ (fmtOf f).mb ∧ 2 * k = K ∧ q = Q + 1) (hK : K % 2 = 0) :
    encodeElem f s k q % 2 = 0 := by
  rw [encodeElem_parity hf h]
  rcases hkq with ⟨rfl, -⟩ | ⟨hf, rfl, -, -⟩
  · exact hK
  · exact Nat.mod_eq_zero_of_dvd (dvd_pow_self 2 (fmtOf_mantissa_pos hf).ne')

/-- Settles O10: the code has the value of the rounded quanta, and every other value of the format is compared with them in
quanta. -/
theorem roundingTakesTheNearestEvenCode : Obligations.RoundingTakesTheNearestEvenCode := by
  intro f m c mx sat s e hf hm hround
  rw [roundNum_fin hm] at hround
  obtain ⟨hfits, rfl⟩ := roundMag_without_overflow hround
  obtain ⟨k, q, hrep, hcode, hkq⟩ := represents_rounded hf hm hfits
  obtain ⟨s1, hval, hsign, hlt⟩ := decodeElem_encodeElem hf hrep
  rw [hcode]
  refine ⟨s1, k, q, hval, hlt, fun d s2 k2 q2 hd hother => ?_⟩
  obtain ⟨hrep2, -⟩ := encodeElem_decodeElem hf hd hother
  intro lo val here there
  have hlo : (0 : ℚ) < 2 ^ lo := zpow_pos two_pos lo
  have hQ : (0 : ℚ) < 2 ^ quantum f mx m e := zpow_pos two_pos _
  have hy : ratNum s2 k2 q2 =
      signNum s * (signNum s * ratNum s2 k2 q2 / 2 ^ quantum f mx m e * 2 ^ quantum f mx m e) := by
    rw [div_mul_cancel₀ _ hQ.ne', ← mul_assoc, signNum_mul_signNum, one_mul]
  have hcodeVal := ratNum_rounded hsign (hkq.imp_right fun ⟨_, _, h⟩ => h)
  obtain ⟨hle, htie⟩ := resultQuanta_nearest hf hm hrep2 hy
  have hloe : lo ≤ e := min_le_left _ _
  have hloq : lo ≤ q := (min_le_right _ _).trans (min_le_left _ _)
  have hloq2 : lo ≤ q2 := (min_le_right _ _).trans (min_le_right _ _)
  have hhere : (here : ℚ) * 2 ^ lo = |ratNum s1 k q - ratNum s m e| := natAbs_unitNum_sub hloq hloe _ _ _ _
  have hthere : (there : ℚ) * 2 ^ lo = |ratNum s2 k2 q2 - ratNum s m e| := natAbs_unitNum_sub hloq2 hloe _ _ _ _
  rw [hcodeVal, abs_quanta_sub] at hhere
  rw [hy, abs_quanta_sub] at hthere
  constructor
  · have hdist := mul_le_mul_of_nonneg_right hle hQ.le
    rw [← hhere, ← hthere] at hdist
    exact_mod_cast le_of_mul_le_mul_right hdist hlo
  · intro heq hne
    refine even_code_of_even_quanta hf hrep hkq (htie ?_ fun hsame => hne ?_)
    · rw [heq, hthere] at hhere
      exact (mul_right_cancel₀ hQ.ne' hhere).symm
    · exact unitNum_eq_of_ratNum_eq hloq hloq2 (by rw [hcodeVal, hsame, ← hy])

end Sys2Proof.Machine
end

section
/-!
SUPPORT. The entry of a context: what its counters leave as they were when a descriptor is dispatched or released, and what
its scrub returns to the reset values (R120, R130, R420, R421).
-/

namespace Sys2Proof.Machine

open Sys2Proof

/-- A unit's command whose accesses are all served comes to what its meaning comes to. -/
theorem gated_served {s : State} {f : State → State} (h : (f (begun s)).stalled = none) :
    gated s f = { f (begun s) with gate := none } := by
  simp only [gated, h]

/-! ### The counters of a context -/

theorem ctxEntry_lt {b x : Nat} (hb : b < 0x1040) (hx : x < 256) : b + 0x40 * x < 0x10000 := by omega

theorem ctxOut_lt {x : Nat} (hx : x < 256) : Reg.CTX_OUT x < 0x10000 := by simp only [Reg.CTX_OUT]; omega

theorem updCtx_sameBut {s : State} (h : s.canonical) (k : Nat) {x : Nat} (hx : x < 256) :
    SameBut (oneReg (pgPart k) (Reg.CTX_STATE x)) s (updCtx s k x) :=
  (wf_sameBut h _ _ _ _ _ (ctxEntry_lt (by decide) hx)).trans'
    (wf_sameBut (wf_canonical h) _ _ _ _ _ (ctxEntry_lt (by decide) hx))

theorem outUp_sameBut {s : State} (h : s.canonical) (k : Nat) {x : Nat} (hx : x < 256) :
    SameBut (oneReg (pgPart k) (Reg.CTX_OUT x)) s (outUp s k x) := wf_sameBut h _ _ _ _ _ (ctxOut_lt hx)

theorem outDown_sameBut {s : State} (h : s.canonical) (k n : Nat) {x : Nat} (hx : x < 256) :
    SameBut (oneReg (pgPart k) (Reg.CTX_OUT x)) s (outDown s k x n) := wf_sameBut h _ _ _ _ _ (ctxOut_lt hx)

/-- Outside the recorder's page no register but `EVT_STAT` marks an event. -/
theorem not_evtReg_pgPart {k off : Nat} (ho : off ≠ Reg.EVT_STAT) : ¬ evtReg (pgPart k) off :=
  not_evtReg_of_page (by simp only [pgPart, pgEvr]; omega) ho

/-! ### The scrub of an entry (R421) -/

theorem sparseGet_drop {α : Type} (d : Nat → α) (l : List (Nat × α)) {lo hi a : Nat} (hlo : lo ≤ a) (hhi : a < hi) :
    sparseGet d (sparseDrop l lo hi) a = d a := by
  induction l with
  | nil => rfl
  | cons e l ih =>
    obtain ⟨b, v⟩ := e
    simp only [sparseDrop, List.filter_cons] at ih ⊢
    split
    · next hkept =>
      have hne : a ≠ b := by rintro rfl; simp [hlo, hhi] at hkept
      simp only [sparseGet, if_neg hne, ih, ite_self]
    · exact ih

theorem rd_resetRegs_same (s : State) (p : Nat) {lo hi off : Nat} (hlo : lo ≤ off) (hhi : off < hi) :
    rd (resetRegs s p lo hi) p off = regReset (regAddr p off) :=
  sparseGet_drop regReset s.regs (Nat.add_le_add_left hlo _) (Nat.add_lt_add_left hhi _)

theorem resetRegs_comm (s : State) (p lo hi q lo' hi' : Nat) :
    resetRegs (resetRegs s p lo hi) q lo' hi' = resetRegs (resetRegs s q lo' hi') p lo hi := by
  simp only [resetRegs, sparseDrop, List.filter_filter, Bool.and_comm]

theorem rd_freeCtx (s : State) (k : Nat) {x off : Nat} (hlo : Reg.CTX_STATE x ≤ off) (hhi : off < Reg.CTX_STATE x + 0x40) :
    rd (freeCtx s k x) (pgPart k) off = regReset (regAddr (pgPart k) off) := by
  rw [freeCtx, resetRegs_comm]
  exact rd_resetRegs_same _ _ hlo hhi

theorem freeCtx_canonical {s : State} (h : s.canonical) (k x : Nat) : (freeCtx s k x).canonical := (freeCtx_kept h.kept).1

theorem blockOf_pgPart {k : Nat} (hk : k < 16) : blockOf (pgPart k) = some .partition := by
  have hlow : ∀ n, n ≤ 128 → ¬ pgPart k < n := fun n hn => by simp only [pgPart]; omega
  have hne : ∀ n, n < 128 → pgPart k ≠ n := fun n hn => by simp only [pgPart]; omega
  have hlt : pgPart k < 144 := by simp only [pgPart]; omega
  simp [blockOf, hlow, hne, hlt]

theorem regReset_ctxState {k x : Nat} (hk : k < 16) (hx : x < 256) : regReset (regAddr (pgPart k) (Reg.CTX_STATE x)) = 0 := by
  have hpage : regAddr (pgPart k) (Reg.CTX_STATE x) / 0x10000 = pgPart k := by simp only [regAddr, Reg.CTX_STATE]; omega
  have hoff : regAddr (pgPart k) (Reg.CTX_STATE x) % 0x10000 = 0x1000 + 0x40 * x := by simp only [regAddr, Reg.CTX_STATE]; omega
  simp only [regReset, hpage, hoff, blockOf_pgPart hk]
  rw [if_neg (by omega), resetBlock, if_neg (by omega), if_neg (by simp only [Reg.COH_CFG]; omega),
    if_neg (by simp only [Reg.EBUCKET_MAX]; omega)]

end Sys2Proof.Machine
end

section
/-!
SUPPORT. What the scheduler's dispatch takes from a ring, and what it pays for it (R120, R121, R326).
-/

namespace Sys2Proof.Machine

open Sys2Proof

/-! ### The next descriptor leaves the ring (R120, R420) -/

/-- The descriptor `d` of context `x` is on unit `u`, and HEAD has advanced; the counters of the context follow. -/
def headAdvanced (s : State) (k x u : Nat) (d : List Word) : State :=
  wf { s with
    work := s.work ++ [⟨k, x, ctxHead s k x, u, d, .run, [], 0⟩]
    turns := (takeTurn s k x).turns
    holds := (takeTurn s k x).holds } (pgPart k) (Reg.CTX_HEAD x) 0 32 (ctxHead s k x + 1)

theorem headAdvanced_canonical {s : State} (h : s.canonical) (k x u : Nat) (d : List Word) :
    (headAdvanced s k x u d).canonical :=
  wf_canonical (s := { s with work := _, turns := _, holds := _ }) h

theorem ctxHead_headAdvanced {s : State} (h : s.canonical) (k x u : Nat) (d : List Word) :
    ctxHead (headAdvanced s k x u d) k x = (ctxHead s k x + 1) % 2 ^ 32 :=
  rf_wf_same (s := { s with work := _, turns := _, holds := _ }) h _ _ _ _ _ (by decide)

theorem rd_headAdvanced {s : State} (h : s.canonical) (k u : Nat) (d : List Word) {x p off : Nat} (hx : x < 256)
    (ho : off < 0x10000) (hne : off ≠ Reg.CTX_HEAD x) : rd (headAdvanced s k x u d) p off = rd s p off :=
  rd_wr_other (s := { s with work := _, turns := _, holds := _ }) h _ (ctxEntry_lt (by decide) hx) ho fun e => hne e.2

/-- The registers in which a dispatch is counted. -/
abbrev dispatchCount (k x p off : Nat) : Prop :=
  p = pgPart k ∧ off ∈ [Reg.CTX_OUT x, Reg.SCHED_DISPATCHED, Reg.CTX_STATE x]

/-- Taking the next descriptor is advancing HEAD and counting. -/
theorem takeNext_sameBut {s : State} (h : s.canonical) (k u : Nat) (d : List Word) {x : Nat} (hx : x < 256) :
    SameBut (dispatchCount k x) (headAdvanced s k x u d) (takeNext s k x u d).2 := by
  have h1 := headAdvanced_canonical h k x u d
  have h2 : (outUp (headAdvanced s k x u d) k x).canonical := wf_canonical h1
  have hout := (outUp_sameBut h1 k hx).mono (r := dispatchCount k x) fun _ _ e => ⟨e.1, by simp [e.2]⟩
  have hcount := (addReg_sameBut h2 (pgPart k) Reg.SCHED_DISPATCHED 1 (by decide)).mono (r := dispatchCount k x)
    fun _ _ e => ⟨e.1, by simp [e.2]⟩
  have hctx := (updCtx_sameBut (addReg_canonical h2 (p := pgPart k) (off := Reg.SCHED_DISPATCHED) (n := 1)) k hx).mono
    (r := dispatchCount k x) fun _ _ e => ⟨e.1, by simp [e.2]⟩
  exact (hout.trans' hcount).trans' hctx

theorem takeNext_work {s : State} (h : s.canonical) (k u : Nat) (d : List Word) {x : Nat} (hx : x < 256) :
    (takeNext s k x u d).2.work = s.work ++ [⟨k, x, ctxHead s k x, u, d, .run, [], 0⟩] := by
  rw [(takeNext_sameBut h k u d hx).rest]
  rfl

theorem takeNext_stalled {s : State} (h : s.canonical) (k u : Nat) (d : List Word) {x : Nat} (hx : x < 256) :
    (takeNext s k x u d).2.stalled = s.stalled := by
  rw [(takeNext_sameBut h k u d hx).rest]
  rfl

theorem takeNext_memory {s : State} (h : s.canonical) (k u : Nat) (d : List Word) {x : Nat} (hx : x < 256) :
    SameMemory s (takeNext s k x u d).2 :=
  ⟨(takeNext_sameBut h k u d hx).mem_eq, (takeNext_sameBut h k u d hx).hostMem_eq⟩

theorem ctxHead_takeNext {s : State} (h : s.canonical) (k u : Nat) (d : List Word) {x : Nat} (hx : x < 256) :
    ctxHead (takeNext s k x u d).2 k x = (ctxHead s k x + 1) % 2 ^ 32 := by
  rw [ctxHead, (takeNext_sameBut h k u d hx).rf_eq (ctxEntry_lt (by decide) hx) (not_evtReg_pgPart ?_) ?_]
  · exact ctxHead_headAdvanced h k x u d
  · simp only [Reg.EVT_STAT]; omega
  · rintro ⟨-, hmem⟩
    simp only [Reg.CTX_OUT, Reg.SCHED_DISPATCHED, Reg.CTX_STATE, List.mem_cons, List.not_mem_nil, or_false] at hmem
    omega

/-- The registers of the partition below the context table are not a context's; but for its count a dispatch leaves them. -/
theorem rd_takeNext {s : State} (h : s.canonical) (k u : Nat) (d : List Word) {x off : Nat} (hx : x < 256) (ho : off < 0x1000)
    (hevt : off ≠ Reg.EVT_STAT) (hcount : off ≠ Reg.SCHED_DISPATCHED) :
    rd (takeNext s k x u d).2 (pgPart k) off = rd s (pgPart k) off := by
  rw [(takeNext_sameBut h k u d hx).rd_eq (by omega) (not_evtReg_pgPart hevt) ?_]
  · exact rd_headAdvanced h k u d hx (by omega) (by simp only [Reg.CTX_HEAD]; omega)
  · rintro ⟨-, hmem⟩
    simp only [Reg.CTX_OUT, Reg.SCHED_DISPATCHED, Reg.CTX_STATE, List.mem_cons, List.not_mem_nil, or_false] at hcount hmem
    omega

/-! ### The energy bucket pays (R121, R326) -/

/-- The bucket of partition `k` has paid `n`. -/
def energyPaid (s : State) (k n : Nat) : State :=
  { addReg (wr s (pgPart k) Reg.EBUCKET (rd s (pgPart k) Reg.EBUCKET - w64 n)) (pgPart k) Reg.ECHARGED n with
    pwr := { s.pwr with charged := s.pwr.charged + n } }

theorem energyPaid_canonical {s : State} (h : s.canonical) (k n : Nat) : (energyPaid s k n).canonical :=
  addReg_canonical (wr_canonical h)

theorem rd_energyPaid_bucket {s : State} (h : s.canonical) (k n : Nat) :
    rd (energyPaid s k n) (pgPart k) Reg.EBUCKET = rd s (pgPart k) Reg.EBUCKET - w64 n :=
  (rd_wr_other (wr_canonical h) _ (by decide) (by decide) fun e => absurd e.2 (by decide)).trans (rd_wr_same h _ _ _)

theorem rd_energyPaid_charged {s : State} (h : s.canonical) (k n : Nat) :
    rd (energyPaid s k n) (pgPart k) Reg.ECHARGED = rd s (pgPart k) Reg.ECHARGED + w64 n :=
  (rd_wr_same (wr_canonical h) _ _ _).trans (congrArg (· + w64 n)
    (rd_wr_other h _ (by decide) (by decide) fun e => absurd e.2 (by decide)))

theorem ctxHead_energyPaid {s : State} (h : s.canonical) (k n : Nat) {x : Nat} (hx : x < 256) :
    ctxHead (energyPaid s k n) k x = ctxHead s k x := by
  have hlt : Reg.CTX_HEAD x < 0x10000 := ctxEntry_lt (by decide) hx
  refine congrArg (fld · 0 32) ((rd_wr_other (wr_canonical h) _ (by decide) hlt ?charged).trans
    (rd_wr_other h _ (by decide) hlt ?bucket))
  case charged => simp only [Reg.CTX_HEAD, Reg.ECHARGED]; omega
  case bucket => simp only [Reg.CTX_HEAD, Reg.EBUCKET]; omega

/-! ### The dispatch (R116, R121, R130) -/

/-- The tile in which the next descriptor of a context stands in its ring (R118). -/
def ringTile (s : State) (k x : Nat) : Tile :=
  ⟨rf s (pgPart k) (Reg.CTX_RING x) 0 52 + 64 * (ctxHead s k x % 2 ^ ctxLog s k x), 64, 1, 64, 7⟩

/-- A context whose turn it is, with nothing holding it back, has its next descriptor dispatched. -/
theorem execDispatch_next {s : State} {k x : Nat} (u : Nat) (hk : k < 16) (hx : x < 256) (hlive : partLive s k = true)
    (hpage : pageState s (pgPart k) = 3) (hback : ∀ w ∈ s.work, ¬(w.part = k ∧ w.ctx = x ∧ w.phase = .returned))
    (hready : ready s k x = true) (hheld : energyHeld s k x = false) (hrank : outranked s k x = false)
    (hturn : hasTurn s k x = true) :
    exec (.dispatch k x u) s = .next (gated s fun s => dispatchNext s k x u) := by
  have hfind : s.work.find? (fun w => w.part = k && w.ctx = x && w.phase = .returned) = none := by
    simpa only [List.find?_eq_none, Bool.and_eq_true, decide_eq_true_eq, and_assoc] using hback
  refine congrArg Host.Outcome.next ?_
  rw [if_pos ⟨hk, hx, hlive, hpage⟩, hfind]
  simp [hready, hheld, hrank, hturn]

/-- A descriptor that a fence gave back goes to the unit that is chosen (R99, R138). -/
theorem execDispatch_returned {s : State} {k x u : Nat} {w : Work} (hk : k < 16) (hx : x < 256) (hlive : partLive s k = true)
    (hpage : pageState s (pgPart k) = 3)
    (hfind : s.work.find? (fun w => w.part = k && w.ctx = x && w.phase = .returned) = some w) :
    exec (.dispatch k x u) s = .next (gated s fun s => redispatch s w u) := by
  refine congrArg Host.Outcome.next ?_
  rw [if_pos ⟨hk, hx, hlive, hpage⟩, hfind]

theorem redispatch_fits {s : State} {w : Work} {u : Nat} (hunit : anyUnit s w.part (dOp w.desc) = true)
    (hfits : unitFits s w.part u w.desc = true) :
    redispatch s w u = { s with work := s.work.erase w ++ [{ w with phase := .run, unit := u }] } := by
  simp [redispatch, hunit, hfits]

/-- A descriptor that reads well and that unit `u` takes is dispatched there if the bucket covers it, and else held. -/
theorem dispatchNext_read {s s1 : State} {k x u : Nat} {rows : List Bytes}
    (hread : readTile s k 168 (ringTile s k x) = (.ok rows, s1))
    (hcheck : decodeCheck (bytesWords (rows.getD 0 []) 8) = 0)
    (hunit : anyUnit s1 k (dOp (bytesWords (rows.getD 0 []) 8)) = true)
    (hfits : unitFits s1 k u (bytesWords (rows.getD 0 []) 8) = true) :
    dispatchNext s k x u =
      let d := bytesWords (rows.getD 0 []) 8
      if (rd s1 (pgPart k) Reg.EBUCKET).toNat < charge d then holdEnergy s1 k x (charge d)
      else (takeNext (energyPaid s1 k (charge d)) k x u d).2 := by
  rw [ringTile] at hread
  simp only [dispatchNext, hread, hcheck, hunit, hfits, ne_eq, not_true_eq_false, Bool.not_true, Bool.false_eq_true, if_false]
  rfl

/-- What a dispatch that the bucket covers comes to. -/
theorem dispatch_paid {s s1 : State} {k x u : Nat} {d : List Word} (h1 : s1.canonical) (hx : x < 256) (hstall : s1.stalled = none)
    (hdispatch : exec (.dispatch k x u) s = .next (gated s fun s => dispatchNext s k x u))
    (hnext : dispatchNext (begun s) k x u = (takeNext (energyPaid s1 k (charge d)) k x u d).2) :
    Completes (.dispatch k x u) s fun t =>
      t.work = s1.work ++ [⟨k, x, ctxHead s1 k x, u, d, .run, [], 0⟩] ∧
      ctxHead t k x = (ctxHead s1 k x + 1) % 2 ^ 32 ∧
      rd t (pgPart k) Reg.EBUCKET = rd s1 (pgPart k) Reg.EBUCKET - w64 (charge d) ∧
      rd t (pgPart k) Reg.ECHARGED = rd s1 (pgPart k) Reg.ECHARGED + w64 (charge d) ∧ SameMemory s1 t := by
  have hpaid := energyPaid_canonical h1 k (charge d)
  have hserved : (dispatchNext (begun s) k x u).stalled = none := by
    rw [hnext, takeNext_stalled hpaid k u d hx]
    exact hstall
  rw [gated_served hserved, hnext] at hdispatch
  refine ⟨_, hdispatch, ?work, ?head, ?bucket, ?charged, takeNext_memory hpaid k u d hx⟩
  case work => exact (takeNext_work hpaid k u d hx).trans (by rw [ctxHead_energyPaid h1 k _ hx]; rfl)
  case head => exact (ctxHead_takeNext hpaid k u d hx).trans (by rw [ctxHead_energyPaid h1 k _ hx])
  case bucket =>
    exact (rd_takeNext hpaid k u d hx (by decide) (by decide) (by decide)).trans (rd_energyPaid_bucket h1 k _)
  case charged =>
    exact (rd_takeNext hpaid k u d hx (by decide) (by decide) (by decide)).trans (rd_energyPaid_charged h1 k _)

/-- What a dispatch that the bucket does not cover comes to. -/
theorem dispatch_held {s s1 : State} {k x u n : Nat} (h1 : s1.canonical) (hstall : s1.stalled = none)
    (hdispatch : exec (.dispatch k x u) s = .next (gated s fun s => dispatchNext s k x u))
    (hnext : dispatchNext (begun s) k x u = holdEnergy s1 k x n) :
    Completes (.dispatch k x u) s fun t =>
      t.work = s1.work ∧ rd t (pgPart k) Reg.SCHED_HELD = rd s1 (pgPart k) Reg.SCHED_HELD + 1 ∧
      (k, x, n) ∈ t.holds ∧ SameMemory s1 t := by
  have hserved : (dispatchNext (begun s) k x u).stalled = none := by
    rw [hnext]
    exact hstall
  rw [gated_served hserved, hnext] at hdispatch
  refine ⟨_, hdispatch, rfl, ?count, ?hold, rfl, rfl⟩
  case count => exact rd_wr_same (s := { s1 with holds := _ }) h1 _ _ _
  case hold => exact List.mem_append_right _ (List.mem_singleton_self _)

end Sys2Proof.Machine
end

section
/-!
SUPPORT. The commands of the context table and the barriers, and the dispatch (R99, R117, R118, R121, R125, R421).
-/

namespace Sys2Proof.Machine

open Sys2Proof

/-- A context that drains with nothing outstanding is scrubbed (R117, R421). -/
theorem contextFreed_completes {s : State} {k x : Nat} (hs : s.canonical) (hk : k < 16) (hx : x < 256)
    (hdrains : ctxState s k x = 4) (hout : rf s (pgPart k) (Reg.CTX_OUT x) 0 24 = 0)
    (hstuck : s.err.stuck.contains (k, x) = false) :
    Completes (.contextFreed k x) s fun t =>
      ctxState t k x = 0 ∧ rb t (pgPart k) Reg.EVT_STAT 3 = true ∧
      (∀ off, off % 8 = 0 → Reg.CTX_STATE x ≤ off → off < Reg.CTX_STATE x + 0x40 →
        rd t (pgPart k) off = regReset (regAddr (pgPart k) off)) ∧ SameMemory s t := by
  have hfree := freeCtx_canonical hs k x
  have hentry : ∀ off, Reg.CTX_STATE x ≤ off → off < Reg.CTX_STATE x + 0x40 →
      rd (raiseEvt (freeCtx s k x) (pgPart k) 3) (pgPart k) off = regReset (regAddr (pgPart k) off) := by
    intro off hlo hhi
    rw [rd_raiseEvt hfree ?_ (not_evtReg_pgPart ?_), rd_freeCtx s k hlo hhi]
    · simp only [Reg.CTX_STATE] at hhi; omega
    · simp only [Reg.CTX_STATE] at hlo; simp only [Reg.EVT_STAT]; omega
  refine completes_of_next rfl (if_pos ⟨hx, hdrains, hout, by simpa using hstuck⟩) ⟨?state, ?event, fun off _ => hentry off, ?memory⟩
  case state =>
    rw [ctxState, rf, hentry _ (Nat.le_refl _) (Nat.lt_add_of_pos_right (by decide)), regReset_ctxState hk hx]
    rfl
  case event => exact rb_raiseEvt_same hfree (by simp only [pgPart, pgEvr]; omega) (by decide)
  case memory => exact ⟨raiseEvt_mem _ _ _, raiseEvt_hostMem _ _ _⟩

/-- A tail that announces descriptors is taken (R118). -/
theorem ctxTail_completes {s : State} {fn k x tail : Nat} (hs : s.canonical) (hx : x < 256)
    (hw : MayWrite s fn (pgPart k) (Reg.CTX_TAIL x)) (hstate : ctxState s k x = 1 ∨ ctxState s k x = 2 ∨ ctxState s k x = 3)
    (hahead : (tail % 2 ^ 32 + 2 ^ 32 - ctxHead s k x) % 2 ^ 32 < 2 ^ 31)
    (hroom : (tail % 2 ^ 32 + 2 ^ 32 - rf s (pgPart k) (Reg.CTX_STATE x) 32 32) % 2 ^ 32 ≤ 2 ^ ctxLog s k x) :
    Completes (.ctxTail fn k x tail) s fun t =>
      rf t (pgPart k) (Reg.CTX_TAIL x) 0 32 = tail % 2 ^ 32 ∧ SameBut (oneReg (pgPart k) (Reg.CTX_TAIL x)) s t := by
  have hopen : (!(ctxState s k x = 0 || ctxState s k x = 4 || ctxState s k x = 5)) = true := by
    rcases hstate with h | h | h <;> simp [h]
  refine completes_of_next rfl ((withWrite_accepted hw _).trans (guarded_accepted ?_ _))
    ⟨(rf_wf_same hs _ _ _ _ _ (by decide)).trans (Nat.mod_mod _ _), wf_sameBut hs _ _ _ _ _ (ctxEntry_lt (by decide) hx)⟩
  simp only [Bool.and_eq_true, decide_eq_true_eq]
  exact ⟨⟨⟨hx, hopen⟩, hahead⟩, hroom⟩

/-- The TARGET of a barrier that nothing has arrived at is taken (R125). -/
theorem barrierTarget_completes {s : State} {fn k b : Nat} (v : Word) (hs : s.canonical) (hb : b < 64)
    (hw : MayWrite s fn (pgPart k) (Reg.BAR b)) (hcount : rf s (pgPart k) (Reg.BAR b) 16 16 = 0) :
    Completes (.barrierTargetWrite fn false k b v) s fun t =>
      rf t (pgPart k) (Reg.BAR b) 0 16 = fld v 0 16 ∧ SameBut (oneReg (pgPart k) (Reg.BAR b)) s t := by
  have hlt : Reg.BAR b < 0x10000 := by simp only [Reg.BAR]; omega
  refine completes_of_next (t := wf s (pgPart k) (Reg.BAR b) 0 16 (fld v 0 16)) rfl
    ((if_neg Bool.false_ne_true).trans ((if_pos hb).trans ((withWrite_accepted hw _).trans (guarded_accepted ?_ _))))
    ⟨(rf_wf_same hs _ _ _ _ _ (by decide)).trans (Nat.mod_mod _ _), wf_sameBut hs _ _ _ _ _ hlt⟩
  simp [barReg, hcount]

/-- The OPERATOR's TARGET and JOB of a global barrier that nothing has arrived at are taken (R125). -/
theorem globalBarrierTarget_completes {s : State} {fn k b : Nat} (v : Word) (hs : s.canonical) (hb : b < 32)
    (hw : MayWrite s fn (pgPart k) (Reg.GBAR b)) (ha : actsOn s fn (pgPart k) true = true)
    (hcount : rf s (pgPart 0) (Reg.GBAR b) 16 16 = 0) :
    Completes (.barrierTargetWrite fn true k b v) s fun t =>
      rf t (pgPart 0) (Reg.GBAR b) 0 16 = fld v 0 16 ∧ rf t (pgPart 0) (Reg.GBAR b) 48 8 = fld v 48 8 ∧
      SameBut (oneReg (pgPart 0) (Reg.GBAR b)) s t := by
  have hlt : Reg.GBAR b < 0x10000 := by simp only [Reg.GBAR]; omega
  have htarget : (wf s (pgPart 0) (Reg.GBAR b) 0 16 (fld v 0 16)).canonical := wf_canonical hs
  refine completes_of_next (t := wf (wf s (pgPart 0) (Reg.GBAR b) 0 16 (fld v 0 16)) (pgPart 0) (Reg.GBAR b) 48 8 (fld v 48 8)) rfl
    ((if_pos rfl).trans ((if_pos hb).trans ((withOperator_accepted hw ha _).trans (guarded_accepted ?_ _))))
    ⟨?target, (rf_wf_same htarget _ _ _ _ _ (by decide)).trans (Nat.mod_mod _ _),
      (wf_sameBut hs _ _ _ _ _ hlt).trans' (wf_sameBut htarget _ _ _ _ _ hlt)⟩
  · simp [barReg, hcount]
  case target =>
    rw [rf_wf_other htarget _ _ _ _ _ _ _ (by decide) (by decide), rf_wf_same hs _ _ _ _ _ (by decide)]
    exact Nat.mod_mod _ _

/-- Settles O15: a table command is one register write, and a dispatch reads the ring, pays, and advances HEAD. -/
theorem tailsAreTakenAndDescriptorsDispatched : Obligations.TailsAreTakenAndDescriptorsDispatched := by
  refine ⟨fun fn k x b tail v s hs hk hx hb => ⟨ctxTail_completes hs hx, contextFreed_completes hs hk hx,
    barrierTarget_completes v hs hb, globalBarrierTarget_completes v hs⟩,
    fun k x u rows s s1 hs hk hx hlive hpage => ⟨fun hback hready hheld hrank hturn hread hstall => ?next,
    fun w hfind hunit hfits => ?again⟩⟩
  case next =>
    intro d hcheck hunit hfits
    have h1 : s1.canonical := by
      have hkept := (readTile_kept (s := begun s) (k := k) (req := 168) (t := ringTile s k x) (State.canonical.kept hs)).1
      rwa [ringTile, hread] at hkept
    have hdispatch := execDispatch_next u hk hx hlive hpage hback hready hheld hrank hturn
    have hnext := dispatchNext_read (s := begun s) (k := k) (x := x) hread hcheck hunit hfits
    exact ⟨fun hcovered => dispatch_paid h1 hx hstall hdispatch (hnext.trans (if_neg (not_lt.2 hcovered))),
      fun hshort => dispatch_held h1 hstall hdispatch (hnext.trans (if_pos hshort))⟩
  case again =>
    have hmine := List.find?_some hfind
    simp only [Bool.and_eq_true, decide_eq_true_eq] at hmine
    obtain ⟨⟨rfl, -⟩, -⟩ := hmine
    have hagain := redispatch_fits (s := begun s) hunit hfits
    rw [execDispatch_returned hk hx hlive hpage hfind, gated_served (by rw [hagain]), hagain]

end Sys2Proof.Machine
end

section
/-!
SUPPORT. The end of a descriptor whose record is written, and the messages to chiplets that go with it (R86, R129, R130, R132,
R321).
-/

namespace Sys2Proof.Machine

open Sys2Proof

/-- One register, the dispatched descriptors, the memories and what a command waits for are in `t` as in `s`. -/
structure Unmoved (p off : Nat) (s t : State) : Prop where
  canonical : t.canonical
  reg : rd t p off = rd s p off
  work : t.work = s.work
  mem : t.mem = s.mem
  hostMem : t.hostMem = s.hostMem
  stalled : t.stalled = s.stalled

section Unmoved

variable {p off : Nat} {s t u : State}

theorem Unmoved.refl (h : s.canonical) : Unmoved p off s s := ⟨h, rfl, rfl, rfl, rfl, rfl⟩

theorem Unmoved.trans (h : Unmoved p off s t) (k : Unmoved p off t u) : Unmoved p off s u where
  canonical := k.canonical
  reg := k.reg.trans h.reg
  work := k.work.trans h.work
  mem := k.mem.trans h.mem
  hostMem := k.hostMem.trans h.hostMem
  stalled := k.stalled.trans h.stalled

theorem wr_unmoved (h : s.canonical) {q o : Nat} (v : Word) (hq : o < 0x10000) (ho : off < 0x10000) (hne : ¬(p = q ∧ off = o)) :
    Unmoved p off s (wr s q o v) := ⟨wr_canonical h, rd_wr_other h v hq ho hne, rfl, rfl, rfl, rfl⟩

theorem wf_unmoved (h : s.canonical) {q o : Nat} (lo n v : Nat) (hq : o < 0x10000) (ho : off < 0x10000)
    (hne : ¬(p = q ∧ off = o)) : Unmoved p off s (wf s q o lo n v) := wr_unmoved h _ hq ho hne

theorem addReg_unmoved (h : s.canonical) {q o : Nat} (n : Nat) (hq : o < 0x10000) (ho : off < 0x10000)
    (hne : ¬(p = q ∧ off = o)) : Unmoved p off s (addReg s q o n) := wr_unmoved h _ hq ho hne

theorem Unmoved.of_sameBut {q : Nat → Nat → Prop} (h : SameBut q s t) (ht : t.canonical) (ho : off < 0x10000)
    (hevt : ¬ evtReg p off) (hq : ¬ q p off) : Unmoved p off s t :=
  ⟨ht, h.rd_eq ho hevt hq, by rw [h.rest], h.mem_eq, h.hostMem_eq, by rw [h.rest]⟩

theorem setSite_unmoved (h : s.canonical) (i : Nat) (f : Site → Site) : Unmoved p off s (setSite s i f) :=
  ⟨h, rfl, rfl, rfl, rfl, rfl⟩

theorem Unmoved.foldl {α : Type} {f : State → α → State} (hf : ∀ s a, s.canonical → Unmoved p off s (f s a)) (l : List α)
    (h : s.canonical) : Unmoved p off s (l.foldl f s) :=
  List.foldlRecOn (motive := fun t => Unmoved p off s t) l f (.refl h) fun t ht a _ => ht.trans (hf t a ht.canonical)

/-! ### A message to a chiplet (R311 to R313) -/

theorem dealFlit_unmoved (h : s.canonical) (i seq : Nat) : Unmoved p off s (dealFlit s i seq) := by
  rw [dealFlit]
  split
  · exact .refl h
  · exact ⟨h, rfl, rfl, rfl, rfl, rfl⟩

theorem transmit_unmoved (h : s.canonical) (ho : off < 0x10000) (hp : p < 700) (i : Nat) (m : String × List Nat × Bytes) :
    Unmoved p off s (transmit s i m) := by
  have hemit : Unmoved p off s (emit s (.site i m.1 m.2.1 m.2.2)) := ⟨h, rfl, rfl, rfl, rfl, rfl⟩
  have hcount := hemit.trans (addReg_unmoved hemit.canonical (q := pgSite i) (o := Reg.SITE_TX_BYTES) (16 * chunksOf m.2.2)
    (by decide) ho fun e => absurd e.1 (by simp only [pgSite]; omega))
  refine hcount.trans (.foldl (fun s _ hs => ?_) _ hcount.canonical)
  have hdeal := dealFlit_unmoved (p := p) (off := off) hs i (siteOf s i).txNext
  exact hdeal.trans (setSite_unmoved hdeal.canonical _ _)

theorem pumpSite_unmoved (h : s.canonical) (ho : off < 0x10000) (hp : p < 700) (i n : Nat) :
    Unmoved p off s (pumpSite s i n) := by
  induction n generalizing s with
  | zero => exact .refl h
  | succ n ih =>
    rw [pumpSite]
    split
    · exact .refl h
    · next m rest _ =>
      split
      · exact .refl h
      · have hset : Unmoved p off s (setSite s i fun x => { x with toSend := rest }) := setSite_unmoved h _ _
        have hsent := hset.trans (transmit_unmoved hset.canonical ho hp i m)
        exact hsent.trans (ih hsent.canonical)

theorem siteSend_unmoved (h : s.canonical) (ho : off < 0x10000) (hp : p < 700) (i : Nat) (msg : String) (fields : List Nat)
    (data : Bytes) : Unmoved p off s (siteSend s i msg fields data) :=
  (setSite_unmoved h i _).trans (pumpSite_unmoved (setSite_unmoved (p := p) (off := off) h i _).canonical ho hp i _)

end Unmoved

/-! ### The completion of a descriptor (R129, R130, R132) -/

section Completion

variable {s s1 : State} {w : Work}

/-- DONE of the descriptor's context. -/
abbrev doneUnmoved (w : Work) (s t : State) : Prop := Unmoved (pgPart w.part) (Reg.CTX_HEAD w.ctx) s t

theorem not_evtReg_ctxHead (k x : Nat) : ¬ evtReg (pgPart k) (Reg.CTX_HEAD x) :=
  not_evtReg_pgPart (by simp only [Reg.CTX_HEAD, Reg.EVT_STAT]; omega)

theorem outDown_unmoved (h : s.canonical) (hx : w.ctx < 256) (n : Nat) : doneUnmoved w s (outDown s w.part w.ctx n) :=
  .of_sameBut (outDown_sameBut h _ n hx) (wf_canonical h) (ctxEntry_lt (by decide) hx) (not_evtReg_ctxHead _ _)
    (by simp only [oneReg, Reg.CTX_HEAD, Reg.CTX_OUT]; omega)

theorem updCtx_unmoved (h : s.canonical) (hx : w.ctx < 256) : doneUnmoved w s (updCtx s w.part w.ctx) :=
  .of_sameBut (updCtx_sameBut h _ hx) (updCtx_kept h.kept).1 (ctxEntry_lt (by decide) hx) (not_evtReg_ctxHead _ _)
    (by simp only [oneReg, Reg.CTX_HEAD, Reg.CTX_STATE]; omega)

theorem endSlot_unmoved (h : s.canonical) (hk : w.part < 16) (hx : w.ctx < 256) (status : Nat) :
    doneUnmoved w s (endSlot s w status) := by
  have hhead : Reg.CTX_HEAD w.ctx < 0x10000 := ctxEntry_lt (by decide) hx
  rw [endSlot]
  split
  · exact .refl h
  · next r _ =>
    have hslots : doneUnmoved w s { s with slots := s.slots.erase r } := ⟨h, rfl, rfl, rfl, rfl, rfl⟩
    have harmed := hslots.trans (wf_unmoved hslots.canonical (q := pgPart w.part) (o := Reg.RED_ARMED) r.slot 1 0 (by decide) hhead
      (by simp only [Reg.CTX_HEAD, Reg.RED_ARMED]; omega))
    have hout := harmed.trans (outDown_unmoved harmed.canonical hx 1)
    exact hout.trans (.foldl (fun _ _ hs => siteSend_unmoved hs hhead (by simp only [pgPart]; omega) _ _ _ _) _ hout.canonical)

theorem releaseWork_unmoved (h : s.canonical) (hx : w.ctx < 256) : doneUnmoved w (dropWork s w) (releaseWork s w) := by
  have hout : doneUnmoved w (dropWork s w) (outDown (dropWork s w) w.part w.ctx 1) :=
    outDown_unmoved (s := dropWork s w) h hx 1
  exact hout.trans (updCtx_unmoved hout.canonical hx)

/-- The descriptor's context has counted its completion, and the descriptor is off its unit (R132). -/
def doneCounted (s : State) (w : Work) : State :=
  dropWork (wf s (pgPart w.part) (Reg.CTX_HEAD w.ctx) 32 32 (rf s (pgPart w.part) (Reg.CTX_HEAD w.ctx) 32 32 + 1)) w

/-- A status that does not abort leaves DONE as the completion has counted it (R86, R130). -/
theorem retire_unmoved (h : s.canonical) (hk : w.part < 16) (hx : w.ctx < 256) {status : Nat} (hst : ¬(status = 2 ∨ status = 4)) :
    doneUnmoved w (doneCounted s w) (retire s w status) := by
  have hhead : Reg.CTX_HEAD w.ctx < 0x10000 := ctxEntry_lt (by decide) hx
  unfold retire
  extract_lets p s1 s2 s3 s4
  have h2 : doneUnmoved w (doneCounted s w) s2 := by
    have hrel : doneUnmoved w (doneCounted s w) (releaseWork s1 w) := releaseWork_unmoved (wf_canonical h) hx
    exact hrel.trans (endSlot_unmoved hrel.canonical hk hx status)
  have h3 : doneUnmoved w s2 s3 := by
    unfold s3
    split
    · exact addReg_unmoved h2.canonical _ (by decide) hhead (by simp only [Reg.CTX_HEAD, Reg.DESC_RETIRED]; omega)
    · exact .refl h2.canonical
  have h4 : doneUnmoved w s3 s4 := by
    unfold s4
    split
    · have hpend : doneUnmoved w s3 (wb s3 p (Reg.CPL_PEND (w.ctx / 64)) (w.ctx % 64) true) :=
        wf_unmoved h3.canonical _ _ _ (by simp only [Reg.CPL_PEND]; omega) hhead (by simp only [Reg.CTX_HEAD, Reg.CPL_PEND]; omega)
      exact hpend.trans (.of_sameBut (raiseEvt_sameBut hpend.canonical p 1) (raiseEvt_canonical hpend.canonical) hhead
        (not_evtReg_ctxHead _ _) id)
    · exact .refl h3.canonical
  rw [if_neg hst]
  exact (h2.trans h3).trans h4

/-- STATUS stands in the low byte of a record (R129). -/
theorem recordWords_status (s : State) (w : Work) (status detail addr flags : Nat) (result : Word) :
    fld ((recordWords s w status detail addr flags result).getD 0 0) 0 8 = status % 256 := by
  simp only [recordWords, List.getD_cons_zero, fld, w64, BitVec.toNat_ofNat, Nat.shiftLeft_eq, Nat.shiftRight_zero]
  omega

theorem writeRecord_written {words : List Word} (h : TileWritten s w (recordTile s w) [words.flatMap wordBytes] s1) :
    writeRecord s w words = retire s1 w (fld (words.getD 0 0) 0 8) := by
  simp only [writeRecord, show writeTile s w.part w.unit 0 (recordTile s w) _ = _ from h]

theorem tileWritten_canonical {t : Tile} {rows : List Bytes} (hs : s.canonical) (h : TileWritten s w t rows s1) : s1.canonical := by
  have hkept := (writeTile_kept (k := w.part) (req := w.unit) (hint := 0) (t := t) (rows := rows) hs.kept).1
  rwa [show writeTile s w.part w.unit 0 t rows = (.ok (), s1) from h] at hkept

/-- The bytes of a record with a status alone (R129). -/
theorem recordWords_bytes (s : State) (w : Work) (status : Nat) :
    (recordWords s w status 0 0 0 0).flatMap wordBytes =
      wordBytes (w64 (status % 256 + 0 <<< 8 + dTag w.desc <<< 16 + ctxId w.part w.ctx <<< 32 +
        (if w.seq.testBit (ctxLog s w.part w.ctx) then 0 else 1) <<< 44 + dOp w.desc <<< 48 + arithVer s <<< 56)) ++
      wordBytes (w64 (w.seq % 2 ^ 32)) ++ List.replicate 48 0 := by
  simp only [recordWords, List.flatMap_cons, List.append_assoc]
  rfl

theorem completeSt_live {status : Nat} (hlive : ctxDead s w.part w.ctx = false) :
    completeSt s w status = writeRecord s w (recordWords s w status 0 0 0 0) := if_neg (by simp [hlive])

end Completion

end Sys2Proof.Machine
end

section
/-!
SUPPORT. The scheduler's own operations: NOP, FENCE, SIGNAL and WAIT (R114, R122, R126, R127).
-/

namespace Sys2Proof.Machine

open Sys2Proof

section Operations

variable {c : Instr} {s s1 s2 t : State} {k x q : Nat} {w : Work}

/-- A command that runs under the gate ends in what its meaning comes to. -/
theorem gated_ends {f : State → State} (hc : exec c s = .next (gated s f)) (ht : f (begun s) = t) : Ends c s t := by
  intro hserved
  subst ht
  rw [hc, gated_served hserved]

theorem execNop_held (hw : findWork s k x q 0x44 = some w) (hheld : (completeSt (begun s) w 0).stalled = some .held) :
    exec (.nop k x q) s = .next s := by
  refine congrArg Host.Outcome.next ?_
  simp only [onWork, hw, gated, hheld]

theorem pollWait_reached {rows : List Bytes} (h : TileRead s w (wordTile (dA w.desc)) rows s1)
    (hr : (dSeed w.desc).toNat ≤ (bytesWord (rows.getD 0 [])).toNat) : pollWait s w = completeSt s1 w 0 :=
  withTile_read h (if_pos hr)

theorem pollWait_short {rows : List Bytes} (h : TileRead s w (wordTile (dA w.desc)) rows s1)
    (hr : ¬(dSeed w.desc).toNat ≤ (bytesWord (rows.getD 0 [])).toNat) :
    pollWait s w = setWork s1 w { w with phase := .waiting } := withTile_read h (if_neg hr)

theorem execWaitPoll_waiting (hw : findWaiting s k x q = some w) :
    exec (.waitPoll k x q) s = .next (gated s fun s => pollWait s w) := by
  refine congrArg Host.Outcome.next ?_
  rw [hw]

theorem execWaitTimeout_waiting (hw : findWaiting s k x q = some w) :
    exec (.waitTimeout k x q) s = .next (gated s fun s => completeSt s w 5) := by
  refine congrArg Host.Outcome.next ?_
  rw [hw]

theorem signal_ends {pages segs : List (Nat × Nat × Bool)} {pa n : Nat} {nc : Bool} (hw : findWork s k x q 0x42 = some w)
    (hmet : fenceMet s w = true)
    (hpages : translatePages (begun s) k w.unit true [dD w.desc / 65536] = (.ok pages, s1))
    (hsegs : segments pages 9 (dD w.desc) 8 = (pa, n, nc) :: segs)
    (hadd : memAdd (serveMicro s1 k w.unit (dD w.desc) 8) k w.unit pa (dSeed w.desc) nc = (true, s2)) :
    Ends (.signal k x q) s (completeSt s2 w 0) := by
  refine onWork_ends rfl hw ((if_pos hmet).trans ?_)
  simp only [hpages, hsegs, hadd, if_true]

/-- What `findWork` finds is the descriptor that the command names. -/
theorem findWork_named {op : Nat} (hw : findWork s k x q op = some w) :
    w.part = k ∧ w.ctx = x ∧ w.seq = q ∧ dOp w.desc = op := by
  have hmine := List.find?_some hw
  simp only [Bool.and_eq_true, decide_eq_true_eq] at hmine
  obtain ⟨⟨⟨⟨⟨⟨⟨hpart, hctx⟩, hseq⟩, -⟩, -⟩, hop⟩, -⟩, -⟩ := hmine
  exact ⟨hpart, hctx, hseq, hop⟩

end Operations

/-- Settles O16: each operation's meaning ends with `complete`, whose record, once written, is counted in DONE. -/
theorem queueOperationsCompleteWithTheirRecord : Obligations.QueueOperationsCompleteWithTheirRecord := by
  refine ⟨fun k x q w s => ⟨fun hw => onWork_ends rfl hw rfl, execNop_held, fun hw hmet => onWork_ends rfl hw (if_pos hmet),
    fun pages segs pa n nc s1 s2 => signal_ends, fun rows s1 hread => ⟨?wait, ?waits, ?poll, ?polls⟩, ?timeout⟩,
    fun k x q w s s1 hs hk hx hw hlive hwritten hstall => ?record⟩
  case wait => exact fun hw hr => onWork_ends rfl hw (pollWait_reached hread hr)
  case waits => exact fun hw hr => onWork_ends rfl hw (pollWait_short hread hr)
  case poll => exact fun hw hr => gated_ends (execWaitPoll_waiting hw) (pollWait_reached hread hr)
  case polls => exact fun hw hr => gated_ends (execWaitPoll_waiting hw) (pollWait_short hread hr)
  case timeout => exact fun hw => gated_ends (execWaitTimeout_waiting hw) rfl
  case record =>
    obtain ⟨rfl, rfl, rfl, hop⟩ := findWork_named hw
    have h1 := tileWritten_canonical (s := begun s) hs hwritten
    have hrecord : TileWritten (begun s) w (recordTile (begun s) w)
        [(recordWords (begun s) w 0 0 0 0 0).flatMap wordBytes] s1 := by
      rw [recordWords_bytes, hop]
      exact hwritten
    have hretired : completeSt (begun s) w 0 = retire s1 w 0 :=
      (completeSt_live (s := begun s) hlive).trans ((writeRecord_written hrecord).trans (by rw [recordWords_status]))
    have hdone := retire_unmoved h1 hk hx (w := w) (status := 0) (by decide)
    refine ⟨_, onWork_ends rfl hw hretired (hdone.stalled.trans hstall), ?_, hdone.work, hdone.mem, hdone.hostMem⟩
    exact (congrArg (fld · 32 32) hdone.reg).trans (rf_wf_same h1 _ _ _ _ _ (by decide))

end Sys2Proof.Machine
end

section
/-!
SUPPORT. Fault records where the fault ring is off: how a fault takes one, and how what waited for it is held on it or ends
(R174, R177, R179, R180, R182).
-/

namespace Sys2Proof.Machine

open Sys2Proof

/-- MANIFEST pages are not the recorder's, whose registers mark events (R451). -/
theorem pgMf_ne_pgEvr (k : Nat) : pgMf k ≠ pgEvr := by simp only [pgMf, pgEvr]; omega

theorem rd_countError_count {s : State} (h : s.canonical) {p : Nat} (hp : p ≠ pgEvr) (code status cls : Nat) (ctx : Option Nat) :
    rd (countError s p code status cls ctx) p Reg.ERR_COUNT = rd s p Reg.ERR_COUNT + 1 := by
  rw [countError]
  unfold countErrorAt
  extract_lets s1 s2 _ s3
  have h1 : s1.canonical := addReg_canonical h
  have h2 : s2.canonical := (Kept_ite (wb_kept h1.kept) (wr_kept h1.kept)).1
  have hfirst : rd s2 p Reg.ERR_COUNT = rd s1 p Reg.ERR_COUNT := by
    unfold s2
    split
    · exact rd_wr_other h1 _ (by decide) (by decide) fun e => absurd e.2 (by decide)
    · exact rd_wr_other h1 _ (by decide) (by decide) fun e => absurd e.2 (by decide)
  have h3 : s3.canonical := h2
  rw [rd_raiseEvt h3 (by decide) (not_evtReg_of_page hp (by decide))]
  exact hfirst.trans (rd_wr_same h _ _ _)

/-! ### Records are allocated (R179, R182) -/

/-- The record that a fault takes. -/
def newRec (s : State) (i : FaultInfo) : FaultRec :=
  ⟨rf s (pgMf i.part) Reg.FAULT_PROD 0 32, i, !i.write, i.write, 1 <<< i.req, 0, (faultRing s i.part).1, (faultRing s i.part).2,
    (rd s pgErr Reg.ERR_TIME).toNat⟩

/-- The state once a fault has taken a record, with no ring to write it to. -/
def recTaken (s : State) (i : FaultInfo) : State :=
  { wf s (pgMf i.part) Reg.FAULT_PROD 0 32 (rf s (pgMf i.part) Reg.FAULT_PROD 0 32 + 1) with
    xlat := { s.xlat with recs := if i.kind = 1 then s.xlat.recs ++ [newRec s i] else s.xlat.recs } }

theorem allocFault_ringOff {s : State} {i : FaultInfo} (hring : rf s (pgMf i.part) Reg.FAULT_RING 52 4 = 0) :
    allocFault s i = (rf s (pgMf i.part) Reg.FAULT_PROD 0 32, recTaken s i) := by
  have hoff : ∀ t, writeFault t (newRec s i) = t := fun t => if_pos (.inl hring)
  refine Prod.ext rfl ?_
  by_cases hkind : i.kind = 1
  · simp only [recTaken, if_pos hkind]
    refine (if_pos hkind).trans ?_
    exact congrArg (fun t : State => { t with xlat := { t.xlat with recs := t.xlat.recs ++ [newRec s i] } }) (hoff _)
  · simp only [recTaken, if_neg hkind]
    exact (if_neg hkind).trans (hoff _)

theorem rf_recTaken_prod {s : State} (h : s.canonical) (i : FaultInfo) :
    rf (recTaken s i) (pgMf i.part) Reg.FAULT_PROD 0 32 = (rf s (pgMf i.part) Reg.FAULT_PROD 0 32 + 1) % 2 ^ 32 :=
  rf_wf_same h _ _ _ _ _ (by decide)

theorem rd_recTaken_other {s : State} (h : s.canonical) (i : FaultInfo) {p off : Nat} (ho : off < 0x10000)
    (hne : off ≠ Reg.FAULT_PROD) : rd (recTaken s i) p off = rd s p off :=
  rd_wr_other h _ (by decide) ho fun e => hne e.2

/-- A NOT_VALID fault of a page with no record takes one where there is room. -/
theorem recordFault_fresh {s : State} {i : FaultInfo} (hkind : i.kind = 1)
    (hnone : ∀ r ∈ s.xlat.recs, ¬(r.info.part = i.part ∧ r.info.page = i.page))
    (hroom : (s.xlat.recs.countP fun r => decide (r.info.part = i.part)) < 64)
    (hring : rf (addReg s (pgMf i.part) Reg.FAULTS 1) (pgMf i.part) Reg.FAULT_RING 52 4 = 0) :
    (recordFault s i).2 = recTaken (addReg s (pgMf i.part) Reg.FAULTS 1) i := by
  have hopen : openFor (addReg s (pgMf i.part) Reg.FAULTS 1) i = none := by
    simpa [openFor, hkind] using hnone
  have hfits : faultRoom (addReg s (pgMf i.part) Reg.FAULTS 1) i = true := by
    simp [faultRoom, ringFull, faultRing, hring, hroom]
  simp only [recordFault, hkind, if_true, hopen, hfits, allocFault_ringOff hring]

/-! ### Faults that wait for a record (R182) -/

theorem pumpFaults_none {s : State} {k : Nat} (h : ∀ i ∈ s.xlat.waiting, i.part ≠ k) (n : Nat) : pumpFaults s k n = s := by
  cases n with
  | zero => rfl
  | succ n =>
    have hfind : s.xlat.waiting.find? (fun i => decide (i.part = k)) = none := by simpa using h
    rw [pumpFaults, hfind]

/-- A fault leaves those that wait. -/
def unqueued (s : State) (i : FaultInfo) : State := { s with xlat := { s.xlat with waiting := s.xlat.waiting.erase i } }

/-- The one fault of a partition that waits takes its record, and what waited with it goes on in `t`. -/
theorem pumpFaults_one {s t : State} {k : Nat} {i : FaultInfo} (hfind : s.xlat.waiting.find? (fun i => decide (i.part = k)) = some i)
    (hopen : openFor s i = none) (hroom : faultRoom s i = true) (hring : rf s (pgMf i.part) Reg.FAULT_RING 52 4 = 0)
    (ht : (if i.kind = 1 then setHeld (recTaken (unqueued s i) i) i (rf s (pgMf i.part) Reg.FAULT_PROD 0 32)
      else endFinal (recTaken (unqueued s i) i) i) = t)
    (hrest : ∀ j ∈ t.xlat.waiting, j.part ≠ k) : pumpFaults s k s.xlat.waiting.length = t := by
  obtain ⟨n, hn⟩ := Nat.exists_eq_succ_of_ne_zero (List.length_pos_of_mem (List.mem_of_find?_eq_some hfind)).ne'
  have hal := allocFault_ringOff (s := unqueued s i) hring
  rw [unqueued] at hal ht
  simp only [hn, pumpFaults, hfind, hopen, hroom, if_true, hal]
  rw [← pumpFaults_none hrest n, ← ht]
  rfl

/-- What waits with a FINAL fault ends, where no descriptor and no descriptor read does. -/
theorem endFinal_unheld {s : State} {i : FaultInfo} (hwork : ∀ w ∈ s.work, ¬(faultOf w i = true ∧ w.phase = .heldNew))
    (hfetch : ∀ f ∈ s.fetchHeld, fetchOf f i = false) :
    endFinal s i = { s with
      chans := setChans s i fun c => { c with waiting := false, ended := some (if i.kind = 9 then 4 else 2) }
      siteReqs := s.siteReqs.map fun q =>
        if q.waiting = some i then { q with waiting := none, ended := some (if i.kind = 9 then 4 else 2), owed := true } else q } := by
  have hnowork : s.work.filter (fun w => faultOf w i && w.phase = .heldNew) = [] := by
    simpa [List.filter_eq_nil_iff] using hwork
  have hnofetch : s.fetchHeld.filter (fun f => fetchOf f i) = [] := by
    simpa [List.filter_eq_nil_iff] using hfetch
  have hkept : s.fetchHeld.filter (fun f => !(fetchOf f i)) = s.fetchHeld := by
    simpa [List.filter_eq_self] using hfetch
  simp only [endFinal, hnowork, hnofetch, hkept, List.foldl_nil]

end Sys2Proof.Machine
end

section
/-!
SUPPORT. Fault records are closed: by RETRY, by FAIL and by time (R99, R181, R183).
-/

namespace Sys2Proof.Machine

open Sys2Proof

section Resolution

variable {s t : State} {w v : Work}

/-! ### A descriptor that was held on the record (R99, R181) -/

theorem releaseHeld_stopped (hw : w ∈ s.work) (page : Nat) (retry : Bool) (hstop : unitStopped s { w with phase := .run } = true) :
    releaseHeld s page retry w = setWork s w { w with phase := .run, record := [] } := by
  simp only [releaseHeld, List.contains_iff_mem.2 hw, Bool.not_true, Bool.false_eq_true, if_false, hstop, if_true]

/-- On a unit that runs, the descriptor or its record goes on with RETRY and ends with FAIL. -/
theorem releaseHeld_running (hw : w ∈ s.work) (page : Nat) (retry : Bool)
    (hstop : unitStopped s { w with phase := .run } = false) :
    releaseHeld s page retry w =
      if w.record.isEmpty then
        if retry then setWork s w { w with phase := .run }
        else complete (setWork s w { w with phase := .run }) { w with phase := .run } 1 0 page 0 0
      else if retry then writeRecord (setWork s w { w with phase := .run }) { w with phase := .run } w.record
      else abortCtx (setWork s w { w with phase := .run }) w.part w.ctx 1 false := by
  simp only [releaseHeld, List.contains_iff_mem.2 hw, Bool.not_true, Bool.false_eq_true, if_false, hstop]

/-! ### The record is closed (R181) -/

/-- A record of `s` has left the open ones. -/
def unopened (s : State) (r : FaultRec) : State := { s with xlat := { s.xlat with recs := s.xlat.recs.erase r } }

/-- The descriptors held on a record. -/
def heldOn (s : State) (k id : Nat) : List Work := s.work.filter fun w => decide (w.part = k) && decide (w.phase = .held id)

/-- A channel that was held on a record goes on with RETRY and ends with FAIL. -/
def chanReleased (t : State) (k id : Nat) (retry : Bool) (c : Chan) (i : Nat) : Chan :=
  if c.held = some id ∧ ownerPart t (pgDma i) = some k then { c with held := none, ended := if retry then none else some 1 } else c

/-- So do the descriptor reads and the chiplets' requests. -/
def othersReleased (k id : Nat) (retry : Bool) (t : State) : State :=
  { t with
    fetchHeld := t.fetchHeld.filter fun f => !(decide (f.1 = k) && decide (f.2.2 = some id))
    chans := t.chans.zipIdx.map fun c => chanReleased t k id retry c.1 c.2
    siteReqs := t.siteReqs.map fun q => if q.part = k ∧ q.held = some id then
      { q with held := none, ended := if retry then none else some 1 } else q }

theorem map_range_getD {α β : Type} (l : List α) (d : α) (f : α → Nat → β) :
    ((List.range l.length).map fun i => f (l.getD i d) i) = l.zipIdx.map fun c => f c.1 c.2 := by
  apply List.ext_getElem
  · simp
  · intro i h _
    have hi : i < l.length := by simpa using h
    simp [hi]

/-- A record closes with its descriptors released, and the others after them; no fault of the partition waits for the room. -/
theorem closeRecord_eq {r : FaultRec} {k id : Nat} {retry : Bool} (hpart : r.info.part = k) (hid : r.id = id)
    (hheld : (heldOn s k id).foldl (fun s w => releaseHeld s r.info.page retry w) (unopened s r) = t)
    (hwait : ∀ i ∈ t.xlat.waiting, i.part ≠ k)
    (hfetch : retry = false → ∀ f ∈ t.fetchHeld, ¬(f.1 = k ∧ f.2.2 = some id)) :
    closeRecord s r retry 1 1 = othersReleased k id retry t := by
  subst hpart hid
  have hnofetch : retry = false → t.fetchHeld.filter (fun f => f.1 = r.info.part && f.2.2 = some r.id) = [] := by
    intro hfail
    simpa [List.filter_eq_nil_iff] using hfetch hfail
  unfold closeRecord
  extract_lets k x s1 held s2 fetch s3 s4 s5
  have h2 : s2 = t := hheld
  have h4 : s4 = s3 := by
    unfold s4
    cases retry with
    | true => rfl
    | false =>
      rw [if_neg Bool.false_ne_true, show fetch = [] from (congrArg _ (congrArg State.fetchHeld h2)).trans (hnofetch rfl), List.foldl_nil]
  have h5 : s5 = othersReleased r.info.part r.id retry t := by
    unfold s5
    rw [h4]
    unfold s3
    rw [h2]
    simp only [Bool.and_eq_true, decide_eq_true_eq]
    exact congrArg (fun l => { othersReleased r.info.part r.id retry t with chans := l })
      (map_range_getD t.chans chanReset (chanReleased t r.info.part r.id retry))
  exact h5 ▸ pumpFaults_none (by rw [h5]; exact hwait) _

end Resolution

end Sys2Proof.Machine
end

section
/-!
SUPPORT AND O25. What walks, releases, resolutions and timeouts of fault records do (R174, R177, R179 to R183, R501).
-/

namespace Sys2Proof.Machine

open Sys2Proof

section Faults

variable {s s1 t : State} {k req va level id pa : Nat} {nc wr : Bool}

/-! ### A walk ends (R174, R177) -/

/-- The fault of a walk for a requester that runs no descriptor: a touch of one byte. -/
def walkFault (k req va level : Nat) (wr : Bool) : FaultInfo :=
  ⟨k, req, va / 65536 * 65536, level, 1, wr, 0, 0,
    if req < 128 ∨ req = 168 then 7 else if req < 132 then 4 else if req < 164 then 5 else 6, 0, va, 0, 1, 1⟩

theorem walkEnd_ok (hk : k < 16) (hreq : req < 169) (hva : va < 2 ^ 52) (hok : translate s k req va 0 wr = (.ok pa nc, s1)) :
    exec (.walkEnd k req va wr false) s = .next s1 := by
  simp only [exec, execWalkEnd, Nat.mod_eq_of_lt hva, hk, hreq, and_self, if_true, Bool.false_eq_true, if_false, hok]

theorem walkEnd_stops {w : Work} (hk : k < 16) (hreq : req < 169) (hva : va < 2 ^ 52)
    (hfault : translate s k req va 0 wr = (.fault 1 level, s1)) (hw : unitWorkOf s1 k req = some w) :
    exec (.walkEnd k req va wr false) s = .next (holdWork s1 w (workFault w ⟨va, 0, 1, 1,
      if req < 128 ∨ req = 168 then 7 else if req < 132 then 4 else if req < 164 then 5 else 6⟩ wr (va / 65536 * 65536) 1 level)) := by
  simp only [exec, execWalkEnd, Nat.mod_eq_of_lt hva, hk, hreq, and_self, if_true, Bool.false_eq_true, if_false, hfault, hw, stopWork]

theorem walkEnd_records (hk : k < 16) (hreq : req < 169) (hva : va < 2 ^ 52)
    (hfault : translate s k req va 0 wr = (.fault 1 level, s1)) (hw : unitWorkOf s1 k req = none) :
    exec (.walkEnd k req va wr false) s = .next (recordFault s1 (walkFault k req va level wr)).2 := by
  simp only [exec, execWalkEnd, Nat.mod_eq_of_lt hva, hk, hreq, and_self, if_true, Bool.false_eq_true, if_false, hfault, hw, walkFault]

/-- The fault of a walk takes the next record of its partition. -/
theorem walkFault_recorded (h1 : s1.canonical) (hid : rf s1 (pgMf k) Reg.FAULT_PROD 0 32 = id)
    (hring : rf s1 (pgMf k) Reg.FAULT_RING 52 4 = 0) (hroom : (s1.xlat.recs.countP fun r => decide (r.info.part = k)) < 64)
    (hnone : ∀ r ∈ s1.xlat.recs, ¬(r.info.part = k ∧ r.info.page = va / 65536 * 65536)) :
    rf (recordFault s1 (walkFault k req va level wr)).2 (pgMf k) Reg.FAULT_PROD 0 32 = (id + 1) % 2 ^ 32 ∧
    rd (recordFault s1 (walkFault k req va level wr)).2 (pgMf k) Reg.FAULTS = rd s1 (pgMf k) Reg.FAULTS + 1 ∧
    (∃ r, (recordFault s1 (walkFault k req va level wr)).2.xlat.recs = s1.xlat.recs ++ [r] ∧ r.id = id ∧
      r.info.page = va / 65536 * 65536 ∧ r.info.level = level ∧ r.info.req = req ∧ r.write = wr ∧ r.read = !wr) ∧
    SameMemory s1 (recordFault s1 (walkFault k req va level wr)).2 := by
  have hc : (addReg s1 (pgMf k) Reg.FAULTS 1).canonical := addReg_canonical h1
  have hcounted : ∀ off lo n, off < 0x10000 → off ≠ Reg.FAULTS →
      rf (addReg s1 (pgMf k) Reg.FAULTS 1) (pgMf k) off lo n = rf s1 (pgMf k) off lo n := fun off lo n ho hne =>
    congrArg (fld · lo n) (rd_wr_other h1 _ (by decide) ho fun e => hne e.2)
  have hprod := (hcounted Reg.FAULT_PROD 0 32 (by decide) (by decide)).trans hid
  rw [recordFault_fresh (i := walkFault k req va level wr) rfl hnone hroom
    ((hcounted Reg.FAULT_RING 52 4 (by decide) (by decide)).trans hring)]
  refine ⟨(rf_recTaken_prod hc _).trans (by rw [← hprod]; rfl),
    (rd_recTaken_other hc _ (by decide) (by decide)).trans (rd_wr_same h1 _ _ _),
    ⟨newRec (addReg s1 (pgMf k) Reg.FAULTS 1) (walkFault k req va level wr), rfl, hprod, rfl, rfl, rfl, rfl, rfl⟩, rfl, rfl⟩

/-! ### Faults that waited take their records (R182) -/

/-- A fault that takes the record that it waited for writes `FAULT_PROD` alone. -/
theorem recTaken_unqueued_sameBut (h : s.canonical) {i : FaultInfo} (hpart : i.part = k) {u : State}
    (hu : u = { recTaken (unqueued s i) i with
      work := u.work, fetchHeld := u.fetchHeld, chans := u.chans, siteReqs := u.siteReqs }) :
    SameBut (oneReg (pgMf k) Reg.FAULT_PROD)
      { s with xlat := u.xlat, work := u.work, fetchHeld := u.fetchHeld, chans := u.chans, siteReqs := u.siteReqs } u := by
  subst hpart
  rw [hu]
  exact wf_sameBut (s := { s with
    xlat := (recTaken (unqueued s i) i).xlat, work := u.work, fetchHeld := u.fetchHeld, chans := u.chans, siteReqs := u.siteReqs })
    h (pgMf i.part) Reg.FAULT_PROD 0 32 _ (by decide)

/-! ### Records are resolved, and time out (R181, R183) -/

theorem openRec_named {r : FaultRec} (h : openRec s k id = some r) : r.info.part = k ∧ r.id = id := by
  simpa [openRec] using List.find?_some h

theorem faultResolve_closes {r : FaultRec} {fn : Nat} {retry : Bool} (hw : MayWrite s fn (pgMf k) Reg.FAULT_RESOLVE)
    (hrec : openRec s k id = some r) :
    exec (if retry then .faultResolveRetry fn k id else .faultResolveFail fn k id) s = .next (closeRecord s r retry 1 1) := by
  have hclose : resolveFault s fn k id retry = closeRecord s r retry 1 1 := by
    rw [resolveFault, withWrite_accepted hw, hrec]
  rw [← hclose]
  cases retry <;> rfl

theorem faultTimeout_fails {r : FaultRec} (hrec : openRec s k id = some r) (hset : rf s (pgMf k) Reg.MF_CFG 32 16 ≠ 0) :
    exec (.faultTimeout k id) s = .next (raiseEvt (countError (closeRecord s r false 1 1) (pgMf k) 0x0A 1 1 none) (pgMf k) 5) := by
  simp only [exec, execFaultTimeout, hrec, if_neg hset]

/-- A resolution that is written releases the descriptors into `t`, and then what else was held. -/
theorem faultResolve_released {r : FaultRec} {fn : Nat} {retry : Bool} (hw : MayWrite s fn (pgMf k) Reg.FAULT_RESOLVE)
    (hrec : openRec s k id = some r)
    (hheld : (heldOn s k id).foldl (fun s w => releaseHeld s r.info.page retry w) (unopened s r) = t)
    (hwait : ∀ i ∈ t.xlat.waiting, i.part ≠ k)
    (hfetch : retry = false → ∀ f ∈ t.fetchHeld, ¬(f.1 = k ∧ f.2.2 = some id)) :
    exec (if retry then .faultResolveRetry fn k id else .faultResolveFail fn k id) s = .next (othersReleased k id retry t) := by
  obtain ⟨hpart, hid⟩ := openRec_named hrec
  rw [faultResolve_closes hw hrec, closeRecord_eq hpart hid hheld hwait hfetch]

/-- An error that is counted, and the event after it. -/
theorem countedAndRaised (h : t.canonical) (k : Nat) :
    (raiseEvt (countError t (pgMf k) 0x0A 1 1 none) (pgMf k) 5).xlat = t.xlat ∧
    rb (raiseEvt (countError t (pgMf k) 0x0A 1 1 none) (pgMf k) 5) (pgMf k) Reg.EVT_STAT 5 = true ∧
    rd (raiseEvt (countError t (pgMf k) 0x0A 1 1 none) (pgMf k) 5) (pgMf k) Reg.ERR_COUNT = rd t (pgMf k) Reg.ERR_COUNT + 1 ∧
    SameBut (fun q o => q = pgMf k ∧ (o = Reg.ERR_COUNT ∨ o = Reg.ERR_FIRST)) t
      (raiseEvt (countError t (pgMf k) 0x0A 1 1 none) (pgMf k) 5) := by
  have hc : (countError t (pgMf k) 0x0A 1 1 none).canonical := (countError_kept h.kept).1
  have hsame := (countErrorAt_sameBut h (pgMf k) 0x0A 1 1 none _).trans' (raiseEvt_sameBut hc (pgMf k) 5).none
  refine ⟨by rw [hsame.rest], rb_raiseEvt_same hc (pgMf_ne_pgEvr k) (by decide), ?_, hsame⟩
  rw [rd_raiseEvt hc (by decide) (not_evtReg_of_page (pgMf_ne_pgEvr k) (by decide))]
  exact rd_countError_count h (pgMf_ne_pgEvr k) _ _ _ _

end Faults

/-- Settles O25: a walk, a release and a resolution each give their state by the lemma that says what it takes or closes. -/
theorem translationFaultsAreRecordedAndResolved : Obligations.TranslationFaultsAreRecordedAndResolved := by
  unfold Obligations.TranslationFaultsAreRecordedAndResolved
  refine ⟨fun k req va pa level id nc wr s s1 hs hk hreq hva => ⟨walkEnd_ok hk hreq hva, fun hfault => ?_, ?_⟩, ?_⟩
  · have h1 : s1.canonical := by
      have h := translate_kept (Q := s.pending) (k := k) (req := req) (va := va) (n := 0) (write := wr) (s := s) hs.kept
      rw [hfault] at h
      exact h.1
    exact ⟨fun hw hid hring hroom hnone =>
      ⟨_, walkEnd_records hk hreq hva hfault hw, walkFault_recorded h1 hid hring hroom hnone⟩,
      fun w => walkEnd_stops hk hreq hva hfault⟩
  · intro i hfind hrest hopen hroom hring hid taken
    have hpart : i.part = k := of_decide_eq_true (List.find?_some hfind :)
    subst hpart hid
    have hprod : rf (recTaken (unqueued s i) i) (pgMf i.part) Reg.FAULT_PROD 0 32 =
        (rf s (pgMf i.part) Reg.FAULT_PROD 0 32 + 1) % 2 ^ 32 := rf_recTaken_prod (s := unqueued s i) hs i
    refine ⟨fun hkind => ?_, fun hkind hwork hfetch => ?_⟩
    · have hpump := pumpFaults_one hfind hopen hroom hring (if_pos hkind) hrest
      refine ⟨_, congrArg Host.Outcome.next hpump, ⟨newRec (unqueued s i) i, ?_, rfl, rfl⟩, ?_, rfl, rfl, rfl,
        hprod, rfl, recTaken_unqueued_sameBut hs rfl rfl⟩
      · exact if_pos hkind
      · simp only [setHeld, Bool.and_eq_true, decide_eq_true_eq]
        rfl
    · have hpump := pumpFaults_one hfind hopen hroom hring
        ((if_neg hkind).trans (endFinal_unheld (s := recTaken (unqueued s i) i) hwork hfetch)) hrest
      exact ⟨_, congrArg Host.Outcome.next hpump, if_neg hkind, rfl, rfl, rfl, rfl,
        hprod, rfl, recTaken_unqueued_sameBut hs rfl rfl⟩
  · intro fn k id r w s hs hk hrec closed held run v released ends
    have hfold : ∀ retry l, held = l → (heldOn s k id).foldl (fun s w => releaseHeld s r.info.page retry w) closed =
        l.foldl (fun s w => releaseHeld s r.info.page retry w) closed := fun retry l h => by rw [← h]; rfl
    refine ⟨fun hmay => ⟨fun hnone => ?_, fun hheld => ?_⟩, fun hnone hset hwait hfetch => ?_⟩
    · have hends : ∀ retry, ends retry closed := fun retry =>
        faultResolve_released hmay hrec (hfold retry [] hnone)
      exact ⟨hends true, hends false⟩
    · obtain ⟨hmem, hnamed⟩ := List.mem_filter.1 (hheld ▸ List.mem_singleton_self w : w ∈ held)
      have hwork : w ∈ closed.work := hmem
      have hpart : w.part = k := of_decide_eq_true (Bool.and_eq_true_iff.1 hnamed).1
      have hends : ∀ retry t, releaseHeld closed r.info.page retry w = t → ends retry t := fun retry t ht =>
        faultResolve_released hmay hrec ((hfold retry [w] hheld).trans ht)
      refine ⟨fun hstop => ?_, fun hrun => ?_⟩
      · exact ⟨hends true _ (releaseHeld_stopped hwork _ _ hstop), hends false _ (releaseHeld_stopped hwork _ _ hstop)⟩
      · have hgoes := fun retry => releaseHeld_running hwork r.info.page retry hrun
        refine ⟨fun hfresh => ?_, fun hrecord => ?_⟩
        · have hempty : w.record.isEmpty = true := List.isEmpty_iff.2 hfresh
          exact ⟨hends true _ ((hgoes true).trans (by rw [if_pos hempty, if_pos rfl])),
            hends false _ ((hgoes false).trans (by rw [if_pos hempty, if_neg Bool.false_ne_true]))⟩
        · have hfull : ¬ w.record.isEmpty = true := mt List.isEmpty_iff.1 hrecord
          exact ⟨hends true _ ((hgoes true).trans (by rw [if_neg hfull, if_pos rfl])),
            hends false _ ((hgoes false).trans (((if_neg hfull).trans (if_neg Bool.false_ne_true)).trans
              (congrArg (abortCtx run · w.ctx 1 false) hpart)))⟩
    · obtain ⟨hpart, hid⟩ := openRec_named hrec
      have hclose : closeRecord s r false 1 1 = released false closed := closeRecord_eq hpart hid
        (hfold false [] hnone) hwait fun _ => hfetch
      have hexec := faultTimeout_fails hrec hset
      rw [hclose] at hexec
      exact ⟨_, hexec, countedAndRaised (t := released false closed) hs k⟩

end Sys2Proof.Machine
end

section
/-!
SUPPORT. The teardown of a context: what is dispatched of it is released and its reduction slots are disarmed, and the state
that it has been given stays (R117, R419, R420).
-/

namespace Sys2Proof.Machine

open Sys2Proof

/-- `t` comes from `s` by releasing what context `x` of partition `k` has outstanding: of its entry, STATE and CAUSE stay, and
memory is as it was. -/
structure TornDown (k x : Nat) (s t : State) : Prop where
  canonical : t.canonical
  entry : ∀ lo n, lo + n ≤ 16 → rf t (pgPart k) (Reg.CTX_STATE x) lo n = rf s (pgPart k) (Reg.CTX_STATE x) lo n
  memory : SameMemory s t

section TornDown

variable {k x : Nat} {s t u : State}

theorem TornDown.refl (h : s.canonical) : TornDown k x s s := ⟨h, fun _ _ _ => rfl, rfl, rfl⟩

theorem TornDown.trans (h : TornDown k x s t) (g : TornDown k x t u) : TornDown k x s u where
  canonical := g.canonical
  entry lo n hn := (g.entry lo n hn).trans (h.entry lo n hn)
  memory := ⟨g.memory.1.trans h.memory.1, g.memory.2.trans h.memory.2⟩

theorem TornDown.foldl {α : Type} {f : State → α → State} {l : List α}
    (hf : ∀ s, ∀ a ∈ l, s.canonical → TornDown k x s (f s a)) (h : s.canonical) : TornDown k x s (l.foldl f s) :=
  List.foldlRecOn (motive := fun t => TornDown k x s t) l f (.refl h) fun t ht a ha => ht.trans (hf t a ha ht.canonical)

/-- INFLIGHT and FIRST_OPEN stand above bit 16. -/
theorem wf_tornDown_count (h : s.canonical) {lo : Nat} (n v : Nat) (hlo : 16 ≤ lo) :
    TornDown k x s (wf s (pgPart k) (Reg.CTX_STATE x) lo n v) :=
  ⟨wf_canonical h, fun _ _ hn => rf_wf_other h _ _ _ _ _ _ _ (.inl (hn.trans hlo)) (hn.trans (by decide)), rfl, rfl⟩

theorem wf_tornDown_other (h : s.canonical) (hx : x < 256) {off : Nat} (lo n v : Nat) (ho : off < 0x10000)
    (hne : off ≠ Reg.CTX_STATE x) : TornDown k x s (wf s (pgPart k) off lo n v) :=
  ⟨wf_canonical h, fun _ _ _ => congrArg (fld · _ _)
    (rd_wr_other h _ ho (ctxEntry_lt (by decide) hx) fun e => hne e.2.symm), rfl, rfl⟩

theorem outDown_tornDown (h : s.canonical) (hx : x < 256) (n : Nat) : TornDown k x s (outDown s k x n) :=
  wf_tornDown_other h hx _ _ _ (ctxOut_lt hx) (by simp only [Reg.CTX_OUT, Reg.CTX_STATE]; omega)

theorem updCtx_tornDown (h : s.canonical) : TornDown k x s (updCtx s k x) :=
  (wf_tornDown_count h 16 _ (Nat.le_refl _)).trans (wf_tornDown_count (wf_canonical h) 32 _ (by decide))

theorem releaseWork_tornDown (h : s.canonical) (hx : x < 256) {w : Work} (hpart : w.part = k) (hctx : w.ctx = x) :
    TornDown k x s (releaseWork s w) := by
  subst hpart hctx
  have hdrop : TornDown w.part w.ctx s (dropWork s w) := ⟨h, fun _ _ _ => rfl, rfl, rfl⟩
  have hout := hdrop.trans (outDown_tornDown hdrop.canonical hx 1)
  exact hout.trans (updCtx_tornDown hout.canonical)

theorem releaseAll_tornDown (h : s.canonical) (hx : x < 256) : TornDown k x s (releaseAll s k x) := by
  have hall : TornDown k x s ((ctxWork s k x).foldl releaseWork s) := .foldl (fun t w hw ht => by
    have hmine := (List.mem_filter.1 hw).2
    simp only [Bool.and_eq_true, decide_eq_true_eq] at hmine
    exact releaseWork_tornDown ht hx hmine.1 hmine.2) h
  exact hall.trans ⟨hall.canonical, fun _ _ _ => rfl, rfl, rfl⟩

theorem disarmCtx_tornDown (h : s.canonical) (hx : x < 256) : TornDown k x s (disarmCtx s k x) := by
  refine .foldl (fun t r _ ht => ?_) h
  have hslots : TornDown k x t { t with slots := t.slots.erase r } := ⟨ht, fun _ _ _ => rfl, rfl, rfl⟩
  have harmed := hslots.trans (wf_tornDown_other hslots.canonical hx (off := Reg.RED_ARMED) r.slot 1 0 (by decide)
    (by simp only [Reg.RED_ARMED, Reg.CTX_STATE]; omega))
  exact harmed.trans (outDown_tornDown harmed.canonical hx 1)

theorem killCtx_tornDown (h : s.canonical) (hx : x < 256) : TornDown k x s (killCtx s k x) := by
  have hrel := releaseAll_tornDown (k := k) h hx
  have hdis := hrel.trans (disarmCtx_tornDown hrel.canonical hx)
  exact hdis.trans (wf_tornDown_count hdis.canonical 32 _ (by decide))

end TornDown

/-! ### What is dispatched of a dead context (R419) -/

theorem releaseWork_work (s : State) (w : Work) : (releaseWork s w).work = s.work.erase w := rfl

theorem foldl_releaseWork_work (l : List Work) (s : State) : (l.foldl releaseWork s).work = s.work.diff l := by
  induction l generalizing s with
  | nil => rfl
  | cons w l ih => rw [List.foldl_cons, ih, releaseWork_work, List.diff_cons]

theorem disarmCtx_work (s : State) (k x : Nat) : (disarmCtx s k x).work = s.work :=
  List.foldlRecOn (motive := fun t : State => t.work = s.work) _ _ rfl fun _ ht _ _ => ht

theorem killCtx_work (s : State) (k x : Nat) : (killCtx s k x).work = s.work.diff (ctxWork s k x) :=
  (disarmCtx_work _ _ _).trans (foldl_releaseWork_work _ _)

/-- A context that is dead has no descriptor dispatched. -/
theorem not_mem_killCtx_work {s : State} {k x : Nat} {w : Work} (hw : w ∈ (killCtx s k x).work) : ¬(w.part = k ∧ w.ctx = x) := by
  rintro ⟨hpart, hctx⟩
  have hall : (s.work.diff (ctxWork s k x)).count w = 0 := by
    rw [List.count_diff, ctxWork, List.count_filter (by simp [hpart, hctx]), Nat.sub_self]
  rw [killCtx_work] at hw
  exact List.count_eq_zero.1 hall hw

/-! ### The abort (R117, R130, R132) -/

/-- The context is ABORTED with its cause, torn down and announced; its job has not been triggered yet. -/
def abortedCtx (s : State) (k x cause : Nat) : State :=
  raiseEvt (wb (killCtx (wf (setCtx s k x 5) (pgPart k) (Reg.CTX_STATE x) 8 8 cause) k x) (pgPart k) (Reg.ABORT_PEND (x / 64))
    (x % 64) true) (pgPart k) 2

theorem triggerJob_eq (s : State) (j cause page : Nat) :
    ∃ l, triggerJob s j cause page = { s with err := { s.err with jobTriggers := l } } := by
  rw [triggerJob]
  split
  · exact ⟨s.err.jobTriggers, rfl⟩
  · exact ⟨_, rfl⟩

theorem abortCtx_live {s : State} {k x : Nat} (cause : Nat) (hlive : ctxState s k x = 1 ∨ ctxState s k x = 2 ∨ ctxState s k x = 3) :
    ∃ l, abortCtx s k x cause false = { abortedCtx s k x cause with err := { (abortedCtx s k x cause).err with jobTriggers := l } } := by
  have hopen : ¬(ctxState s k x = 0 ∨ ctxDead s k x = true) := by
    rcases hlive with h | h | h <;> simp [ctxDead, h]
  rw [abortCtx, if_neg hopen]
  exact triggerJob_eq _ _ _ _

end Sys2Proof.Machine
end

section
/-!
SUPPORT. The commands of the context table (R117, R132, R419).
-/

namespace Sys2Proof.Machine

open Sys2Proof

section ContextTable

variable {fn k x : Nat} {s : State}

theorem ctxCommand_accepted {ok : State → Bool} (hw : MayWrite s fn (pgPart k) (Reg.CTX_CMD x)) (h : ok s = true)
    (f : State → State) : ctxCommand s fn k x ok f = f s := (withWrite_accepted hw _).trans (guarded_accepted h _)

theorem ctxState_setCtx (h : s.canonical) {st : Nat} (hst : st < 8) : ctxState (setCtx s k x st) k x = st :=
  (rf_wf_same h _ _ _ _ _ (by decide)).trans (Nat.mod_eq_of_lt hst)

/-- A command that writes STATE alone. -/
theorem setCtx_completes {c : Instr} {ok : State → Bool} {st : Nat} (hs : s.canonical) (hx : x < 256) (hst : st < 8)
    (hw : MayWrite s fn (pgPart k) (Reg.CTX_CMD x))
    (hc : exec c s = .next (ctxCommand s fn k x ok fun s => setCtx s k x st)) (hok : ok s = true) :
    Completes c s fun t => ctxState t k x = st ∧ SameBut (oneReg (pgPart k) (Reg.CTX_STATE x)) s t :=
  completes_of_next hc (ctxCommand_accepted hw hok _)
    ⟨ctxState_setCtx hs hst, wf_sameBut hs _ _ _ _ _ (ctxEntry_lt (by decide) hx)⟩

/-- CTX_CLOSE: the context drains, and is dead (R117, R419). -/
theorem ctxClose_completes (hs : s.canonical) (hx : x < 256) (hw : MayWrite s fn (pgPart k) (Reg.CTX_CMD x))
    (hfrom : ctxState s k x = 1 ∨ ctxState s k x = 3 ∨ ctxState s k x = 5) :
    Completes (.ctxClose fn k x) s fun t =>
      ctxState t k x = 4 ∧ (∀ w ∈ t.work, ¬(w.part = k ∧ w.ctx = x)) ∧ SameMemory s t := by
  have hset : (setCtx s k x 4).canonical := wf_canonical hs
  have hkill := killCtx_tornDown (k := k) hset hx
  refine completes_of_next rfl (ctxCommand_accepted hw ?_ _)
    ⟨(hkill.entry 0 3 (by decide)).trans (ctxState_setCtx hs (by decide)), fun w => not_mem_killCtx_work, hkill.memory⟩
  rcases hfrom with h | h | h <;> simp [hx, h]

/-- CTX_ABORT: the context is dead, with JOB_ABORTED for its cause (R117, R132, R419). -/
theorem ctxAbort_completes (hs : s.canonical) (hx : x < 256) (hw : MayWrite s fn (pgPart k) (Reg.CTX_CMD x))
    (hfrom : ctxState s k x = 1 ∨ ctxState s k x = 2 ∨ ctxState s k x = 3) :
    Completes (.ctxAbort fn k x) s fun t =>
      ctxState t k x = 5 ∧ rf t (pgPart k) (Reg.CTX_STATE x) 8 8 = 0x0E ∧
      rb t (pgPart k) (Reg.ABORT_PEND (x / 64)) (x % 64) = true ∧
      (∀ w ∈ t.work, ¬(w.part = k ∧ w.ctx = x)) ∧ SameMemory s t := by
  have hset : (setCtx s k x 5).canonical := wf_canonical hs
  have hcause : (wf (setCtx s k x 5) (pgPart k) (Reg.CTX_STATE x) 8 8 0x0E).canonical := wf_canonical hset
  have hkill := killCtx_tornDown (k := k) hcause hx
  have hpend := wf_tornDown_other (k := k) hkill.canonical hx (off := Reg.ABORT_PEND (x / 64)) (x % 64) 1 1
    (by simp only [Reg.ABORT_PEND]; omega) (by simp only [Reg.ABORT_PEND, Reg.CTX_STATE]; omega)
  have hevt := raiseEvt_sameBut hpend.canonical (pgPart k) 2
  have hentry : ∀ lo n, lo + n ≤ 16 → rf (abortedCtx s k x 0x0E) (pgPart k) (Reg.CTX_STATE x) lo n =
      rf (wf (setCtx s k x 5) (pgPart k) (Reg.CTX_STATE x) 8 8 0x0E) (pgPart k) (Reg.CTX_STATE x) lo n := fun lo n hn =>
    (hevt.rf_eq (ctxEntry_lt (by decide) hx) (not_evtReg_pgPart (by simp only [Reg.EVT_STAT]; omega)) id).trans
      ((hkill.trans hpend).entry lo n hn)
  obtain ⟨l, hl⟩ := abortCtx_live 0x0E hfrom
  refine completes_of_next rfl ((ctxCommand_accepted hw ?ok _).trans hl) ⟨?state, ?cause, ?pend, ?work, ?memory⟩
  case ok => rcases hfrom with h | h | h <;> simp [hx, h]
  case state =>
    exact (hentry 0 3 (by decide)).trans ((rf_wf_other hset _ _ _ _ _ _ _ (by decide) (by decide)).trans
      (ctxState_setCtx hs (by decide)))
  case cause => exact (hentry 8 8 (by decide)).trans (rf_wf_same hset _ _ _ _ _ (by decide))
  case pend =>
    exact (hevt.rb_eq (by simp only [Reg.ABORT_PEND]; omega)
      (not_evtReg_pgPart (by simp only [Reg.ABORT_PEND, Reg.EVT_STAT]; omega)) id).trans
      (rb_wb_same hkill.canonical _ _ _ true (Nat.mod_lt _ (by decide)))
  case work =>
    intro w hw
    refine not_mem_killCtx_work (s := wf (setCtx s k x 5) (pgPart k) (Reg.CTX_STATE x) 8 8 0x0E) (?_ : w ∈ _)
    have hmem : w ∈ (abortedCtx s k x 0x0E).work := hw
    rwa [abortedCtx, raiseEvt_work, wb_work] at hmem
  case memory => exact ⟨hevt.mem_eq.trans hkill.memory.1, hevt.hostMem_eq.trans hkill.memory.2⟩

end ContextTable

/-- Settles O14: a command that is legal writes STATE, and one that ends the context tears it down as well. -/
theorem contextCommandsMoveTheContext : Obligations.ContextCommandsMoveTheContext := by
  intro fn k x s hs hk hx hw ctx
  refine ⟨fun hlive hfree hring => ?opens, fun hfrom => ?runs, fun hfrom => ?pauses, ctxClose_completes hs hx hw,
    ctxAbort_completes hs hx hw⟩
  case opens => exact setCtx_completes hs hx (by decide) hw rfl (by simp [hx, hlive, hfree, hring])
  case runs => exact setCtx_completes hs hx (by decide) hw rfl (by rcases hfrom with h | h <;> simp [hx, h])
  case pauses => exact setCtx_completes hs hx (by decide) hw rfl (by simp [hx, hfrom])

end Sys2Proof.Machine
end

section
/-!
SUPPORT. Barriers (R123 to R125): an arrival is counted, and the end of a generation lets go of those that wait for it.
-/

namespace Sys2Proof.Machine

open Sys2Proof

theorem barReg_lt {glob : Bool} {b : Nat} (k : Nat) (hb : b < 64) : (barReg glob k b).2 < 0x10000 := by
  cases glob
  · show Reg.BAR b < _
    simp only [Reg.BAR]; omega
  · show Reg.GBAR b < _
    simp only [Reg.GBAR]; omega

/-- The arrival of a BARRIER is counted, and its descriptor waits for the generation to end (R123). -/
def arrivalCounted (s : State) (r : Nat × Nat) (w : Work) : State :=
  setWork (wf s r.1 r.2 16 16 (rf s r.1 r.2 16 16 + 1)) w { w with phase := .barrier (rf s r.1 r.2 32 16) }

/-- An arrival, as a BARRIER makes it: it is counted, and releases the waiters if COUNT comes to TARGET (R123). -/
def barrierArrival (s : State) (glob : Bool) (k b : Nat) (w : Work) : State :=
  let r := barReg glob k b
  let n := rf s r.1 r.2 16 16 + 1
  let s := wf s r.1 r.2 16 16 n
  let s := setWork s w { w with phase := .barrier (rf s r.1 r.2 32 16) }
  if n = rf s r.1 r.2 0 16 then releaseBarrier s glob k b 0 else s

/-- An arrival leaves TARGET and GEN as they were. -/
theorem barrierArrival_eq {s : State} (h : s.canonical) (glob : Bool) (k b : Nat) (w : Work) :
    barrierArrival s glob k b w =
      let r := barReg glob k b
      if rf s r.1 r.2 16 16 + 1 = rf s r.1 r.2 0 16 then releaseBarrier (arrivalCounted s r w) glob k b 0
      else arrivalCounted s r w := by
  unfold barrierArrival
  extract_lets r n s1 s2
  have hgen : rf s1 r.1 r.2 32 16 = rf s r.1 r.2 32 16 := rf_wf_other h _ _ _ _ _ _ _ (by decide) (by decide)
  have htarget : rf s2 r.1 r.2 0 16 = rf s r.1 r.2 0 16 := rf_wf_other h _ _ _ _ _ _ _ (by decide) (by decide)
  have hcounted : s2 = arrivalCounted s r w := by simp only [s2, hgen, arrivalCounted, s1, n]
  rw [htarget, hcounted]

/-- The generation of a barrier has ended, and nothing that waits for it has been completed yet (R123, R124). -/
def generationEnded (s : State) (glob : Bool) (k b : Nat) : State :=
  let r := barReg glob k b
  { wf (wf s r.1 r.2 16 16 0) r.1 r.2 32 16 (rf s r.1 r.2 32 16 + 1) with
    barMarks := s.barMarks.filter fun m => m ≠ (if glob then 16 else k, b) }

theorem releaseBarrier_unwaited {s : State} {glob : Bool} {k b : Nat} (status : Nat)
    (h : ∀ v ∈ s.work, v.phase ≠ .barrier (rf s (barReg glob k b).1 (barReg glob k b).2 32 16)) :
    releaseBarrier s glob k b status = generationEnded s glob k b := by
  have hnone : (s.work.filter fun w => atBarrier glob k b w &&
      w.phase = .barrier (rf s (barReg glob k b).1 (barReg glob k b).2 32 16)) = [] :=
    List.filter_eq_nil_iff.2 fun v hv => by simp [h v hv]
  unfold releaseBarrier
  extract_lets r gen s1 s2
  rw [show s2.work = s.work from rfl, show (s.work.filter _) = [] from hnone]
  rfl

section Barrier

variable {s : State} {k x q b : Nat} {glob : Bool} {w : Work}

/-- A local barrier is the partition's own; a global one is the JOB's that it names (R125). -/
theorem foreignJob_iff {job own : Nat} :
    (glob = true ∧ (job = 0 ∨ job ≠ own)) ↔ ¬(glob = false ∨ job ≠ 0 ∧ job = own) := by
  cases glob <;> simp only [Bool.false_eq_true, Bool.true_eq_false, false_and, true_and, true_or, false_or, not_true, not_and_or,
    not_not, ne_eq]

/-- The job of a barrier is the context's own, or the barrier is local. -/
abbrev ownBarrier (s : State) (glob : Bool) (k x b : Nat) : Prop :=
  let r := barReg glob k b
  glob = false ∨ rf s r.1 r.2 48 8 ≠ 0 ∧ rf s r.1 r.2 48 8 = rf s (pgPart k) (Reg.CTX_JOB x) 0 8

variable (hw : findWork s k x q 0x41 = some w) (hmet : fenceMet s w = true)

include hw hmet

theorem foreignBarrier_ends (hglob : (dOpf w.desc).testBit 8 = glob) (hb : dOpf w.desc % 64 = b)
    (hforeign : ¬ ownBarrier s glob k x b) : Ends (.barrier k x q) s (completeSt (begun s) w 0x0F) := by
  subst hglob hb
  exact onWork_ends rfl hw ((if_neg (not_checkFails (c := fenceMet (begun s) w) hmet)).trans (if_pos (foreignJob_iff.2 hforeign)))

theorem targetlessBarrier_ends (hglob : (dOpf w.desc).testBit 8 = glob) (hb : dOpf w.desc % 64 = b)
    (hown : ownBarrier s glob k x b) (htarget : rf s (barReg glob k b).1 (barReg glob k b).2 0 16 = 0) :
    Ends (.barrier k x q) s (completeSt (reject (begun s) (pgPart k)) w 0x0B) := by
  subst hglob hb
  exact onWork_ends rfl hw ((if_neg (not_checkFails (c := fenceMet (begun s) w) hmet)).trans
    ((if_neg fun h => foreignJob_iff.1 h hown).trans (if_pos htarget)))

/-- What the arrival of a BARRIER comes to (R123). -/
theorem barrierArrival_ends {t : State} (hglob : (dOpf w.desc).testBit 8 = glob) (hb : dOpf w.desc % 64 = b)
    (hown : ownBarrier s glob k x b) (htarget : rf s (barReg glob k b).1 (barReg glob k b).2 0 16 ≠ 0)
    (ht : barrierArrival (begun s) glob k b w = t) : Ends (.barrier k x q) s t := by
  subst hglob hb ht
  exact onWork_ends rfl hw ((if_neg (not_checkFails (c := fenceMet (begun s) w) hmet)).trans
    ((if_neg fun h => foreignJob_iff.1 h hown).trans (if_neg htarget)))

/-- An arrival below TARGET changes COUNT, and waits (R123). -/
theorem barrierWaits_completes (hs : s.canonical) (hglob : (dOpf w.desc).testBit 8 = glob) (hb : dOpf w.desc % 64 = b)
    (hlt : b < 64) (hown : ownBarrier s glob k x b)
    (hbelow : rf s (barReg glob k b).1 (barReg glob k b).2 16 16 + 1 < rf s (barReg glob k b).1 (barReg glob k b).2 0 16) :
    let r := barReg glob k b
    Completes (.barrier k x q) s fun t =>
      rf t r.1 r.2 16 16 = rf s r.1 r.2 16 16 + 1 ∧
      t.work = s.work.map (fun v => if v = w then { w with phase := .barrier (rf s r.1 r.2 32 16) } else v) ∧
      SameBut (oneReg r.1 r.2) (ended { s with work := t.work }) t := by
  intro r
  have hend := barrierArrival_ends hw hmet hglob hb hown (Nat.ne_of_gt (Nat.zero_lt_of_lt hbelow))
    ((barrierArrival_eq (s := begun s) hs _ _ _ _).trans (if_neg (Nat.ne_of_lt hbelow)))
  have hcount : rf s r.1 r.2 16 16 + 1 < 2 ^ 16 := Nat.lt_trans hbelow (Nat.mod_lt _ (by decide))
  exact ⟨_, hend rfl, (rf_wf_same (s := begun s) hs _ _ _ _ _ (by decide)).trans (Nat.mod_eq_of_lt hcount), rfl,
    wf_sameBut (s := ended { s with work := _ }) hs _ _ _ _ _ (barReg_lt k hlt)⟩

end Barrier

/-! ### The time-out (R124) -/

section Timeout

variable {s : State} {k b : Nat} {glob : Bool}

theorem execBarrierTimeout_begun (h : rf s (barReg glob k b).1 (barReg glob k b).2 16 16 ≠ 0) :
    exec (.barrierTimeout glob k b) s = .next (gated s fun s => releaseBarrier s glob k b
      (if s.barMarks.contains (if glob then 16 else k, b) then 0x0D else 5)) := congrArg Host.Outcome.next (if_neg h)

/-- A barrier that nothing waits for starts its next generation. -/
theorem barrierTimeout_completes (hs : s.canonical) (hlt : b < 64)
    (hcount : rf s (barReg glob k b).1 (barReg glob k b).2 16 16 ≠ 0)
    (hnone : ∀ v ∈ s.work, v.phase ≠ .barrier (rf s (barReg glob k b).1 (barReg glob k b).2 32 16)) :
    let r := barReg glob k b
    Completes (.barrierTimeout glob k b) s fun t =>
      rf t r.1 r.2 16 16 = 0 ∧ rf t r.1 r.2 32 16 = (rf s r.1 r.2 32 16 + 1) % 2 ^ 16 ∧
      SameBut (oneReg r.1 r.2) (ended { s with barMarks := t.barMarks }) t := by
  intro r
  have hzero : (wf s r.1 r.2 16 16 0).canonical := wf_canonical hs
  have hend := gated_ends (execBarrierTimeout_begun hcount) (releaseBarrier_unwaited (s := begun s) _ hnone)
  exact ⟨_, hend rfl,
    (rf_wf_other hzero _ _ _ _ _ _ _ (by decide) (by decide)).trans (rf_wf_same hs _ _ _ _ _ (by decide)),
    rf_wf_same hzero _ _ _ _ _ (by decide),
    (wf_sameBut (s := ended { s with barMarks := _ }) hs _ _ _ _ _ (barReg_lt k hlt)).trans'
      (wf_sameBut (s := ended { wf s r.1 r.2 16 16 0 with barMarks := _ }) hzero _ _ _ _ _ (barReg_lt k hlt))⟩

end Timeout

end Sys2Proof.Machine
end

section
/-!
SUPPORT. The slots of the reduction service as REDUCE_COLLECT arms, fills and leaves them (R130, R317 to R321).
-/

namespace Sys2Proof.Machine

open Sys2Proof

section Collect

variable {s s1 s2 s3 : State} {k x q u slot : Nat} {w : Work}

theorem rd_outUp_below (h : s.canonical) {off : Nat} (ho : off < Reg.CTX_OUT 0) (k x : Nat) :
    rd (outUp s k x) (pgPart k) off = rd s (pgPart k) off :=
  sparseGet_set_other regReset s.regs _ _ _ h.1 (by simp only [Reg.CTX_OUT] at ho; simp only [regAddr, Reg.CTX_OUT]; omega)

/-- REDUCE_COLLECT zeroes its bitmap rows, arms its slot and waits for the records (R317, R318). -/
theorem reduceCollect_arms (hs : s.canonical) (hw : findWork s k x q 0x1B = some w) (hslot : dOpf w.desc % 256 = slot)
    (hlt : slot < 64) (hnew : slotOf s w = none) (hfree : rb s (pgPart k) Reg.RED_ARMED slot = false)
    (hzero : TileWritten (begun s) w (bitmapTile w.desc)
      (List.replicate (dM w.desc) (zeroBytes (ceilDiv (dN w.desc * dK w.desc) 8))) s1)
    (hserved : s1.stalled = none) :
    Completes (.reduceCollect k x q) s fun t =>
      rb t (pgPart k) Reg.RED_ARMED slot = true ∧ t.slots = s1.slots ++ [⟨k, slot, x, q, []⟩] ∧ t.mem = s1.mem := by
  subst hslot
  have hnot : ¬ (slotOf (begun s) w).isSome = true := by rw [show slotOf (begun s) w = none from hnew]; decide
  have hunarmed : ¬ rb (begun s) (pgPart k) Reg.RED_ARMED (dOpf w.desc % 256) = true := by
    rw [show rb (begun s) _ _ _ = false from hfree]; decide
  have hend := onWork_ends (c := .reduceCollect k x q) rfl hw
    ((if_neg hnot).trans ((if_neg hunarmed).trans (putTile_written hzero rfl)))
  have h1 : s1.canonical := tileWritten_canonical (s := begun s) hs hzero
  refine ⟨_, hend hserved, ?_, rfl, rfl⟩
  exact (congrArg (bit · _) (rd_outUp_below (wb_canonical h1) (by decide) k x)).trans (rb_wb_same h1 _ _ _ true hlt)

/-- A slot that is armed already is not armed again (R318). -/
theorem reduceCollect_armed (hw : findWork s k x q 0x1B = some w) (hslot : dOpf w.desc % 256 = slot)
    (hnew : slotOf s w = none) (harmed : rb s (pgPart k) Reg.RED_ARMED slot = true) :
    Ends (.reduceCollect k x q) s (complete (begun s) w 3 0x11 0 0 0) := by
  subst hslot
  have hnot : ¬ (slotOf (begun s) w).isSome = true := by rw [show slotOf (begun s) w = none from hnew]; decide
  exact onWork_ends rfl hw ((if_neg hnot).trans (if_pos harmed))

/-- What RED_SLOT_FULL does for the descriptor that collects the slot. -/
theorem collectWork_stores {rows : List (List Pot)} {fl : Nat}
    (hr : RecordsRead s w (collected w) (dFmtA w.desc) (dN w.desc * dK w.desc) rows s2)
    (hd : PotsDelivered s2 w (dN w.desc)
      (rows.map fun r => (List.range (dN w.desc)).map fun i =>
        ((List.range (dK w.desc)).map fun j => r.getD (j * dN w.desc + i) potZero).foldl potMerge potZero) fl s3) :
    collectWork s w = complete s3 w 0 0 0 fl 0 := by
  rw [collectWork]
  exact withRecords_read hr (storePots_delivered hd)

/-- What RED_SLOT_FULL does with unit `u` for the descriptor `w` that collects the slot (R130, R320). -/
def collectOn (k u : Nat) (w : Work) (s : State) : State :=
  if u < 128 ∧ unitUp s k u then
    match readTile s k 168 (bitmapTile w.desc) with
    | (.error e, s) => stopWork s w (bitmapTile w.desc) false e
    | (.ok rows, s) =>
      if bitmapFull (dN w.desc * dK w.desc) rows then collectWork (setWork s w (mergedOn w u)) (mergedOn w u) else s
  else if !anyCore s k then completeSt (setWork s w { w with phase := .run }) { w with phase := .run } 0x10
  else s

theorem execRedSlotFull_collects (hc : collector s k slot = some w) :
    exec (.redSlotFull k slot u) s = .next (gated s (collectOn k u w)) := by
  refine congrArg Host.Outcome.next ?_
  rw [hc]
  rfl

theorem collectOn_full {rows : List Bytes} (hu : u < 128) (hup : unitUp s k u = true)
    (hread : readTile s k 168 (bitmapTile w.desc) = (.ok rows, s1))
    (hfull : bitmapFull (dN w.desc * dK w.desc) rows = true) :
    collectOn k u w s = collectWork (setWork s1 w (mergedOn w u)) (mergedOn w u) := by
  rw [collectOn, if_pos ⟨hu, hup⟩, hread]
  exact if_pos hfull

theorem collectOn_noCore (hup : ¬(u < 128 ∧ unitUp s k u = true)) (hcore : anyCore s k = false) :
    collectOn k u w s = completeSt (setWork s w { w with phase := .run }) { w with phase := .run } 0x10 := by
  rw [collectOn, if_neg hup, hcore]
  rfl

theorem execRedSlotTimeout_short (hc : collector s k slot = some w) (hshort : slotFull s w = false) :
    exec (.redSlotTimeout k slot) s =
      .next (gated s fun s => completeSt (setWork s w { w with phase := .run }) { w with phase := .run } 5) := by
  refine congrArg Host.Outcome.next ?_
  rw [hc]
  exact if_neg (by rw [hshort]; decide)

/-! ### No core is up (R108, R130) -/

theorem testBit_foldl_setBit (l : List Nat) (m i : Nat) :
    (l.foldl (fun m j => m ||| (1 <<< j)) m).testBit i = (m.testBit i || decide (i ∈ l)) := by
  induction l generalizing m with
  | nil => simp
  | cons j l ih =>
    rw [List.foldl_cons, ih, Nat.testBit_or, Nat.one_shiftLeft, Nat.testBit_two_pow, Bool.or_assoc]
    simp only [List.mem_cons, Bool.decide_or, eq_comm (a := j)]

theorem mem_of_testBit_maskOf {l : List Nat} {i : Nat} (h : (maskOf l).testBit i = true) : i ∈ l := by
  simpa [maskOf, testBit_foldl_setBit] using h

/-- A core that is up is not DOWN. -/
theorem anyCore_of_unitUp (hu : u < 128) (hup : unitUp s k u = true) : anyCore s k = true := by
  refine decide_eq_true fun hall => ?_
  have hbit : (downMask s k).testBit u = true := by
    rw [hall, Nat.testBit_two_pow_sub_one]
    exact decide_eq_true hu
  have hdown := (List.mem_filter.1 (mem_of_testBit_maskOf hbit)).2
  simp only [unitUp, if_pos hu, mapEntry, Bool.and_eq_true, Bool.not_eq_true'] at hup
  exact Bool.false_ne_true (hup.1.1.symm.trans hdown)

end Collect

end Sys2Proof.Machine
end

section
/-!
SUPPORT. The barriers and the slots of the reduction service together (R123 to R125, R130, R317 to R321).
-/

namespace Sys2Proof.Machine

open Sys2Proof

/-- Settles O17: each command comes to one of the ends above; no core that is up is DOWN, so that a slot is merged on a core or
ends FENCED_UNIT. -/
theorem barriersAndCollectSlotsCountArrivals : Obligations.BarriersAndCollectSlotsCountArrivals := by
  refine ⟨fun k x q b glob w s hs _ hlt _ => ?barriers, fun k x q u slot w s s1 hs _ => ?slots⟩
  case barriers =>
    intro r job mine
    refine ⟨fun hw hmet hglob hb => ⟨barrierWaits_completes hw hmet hs hglob hb hlt, fun hown htarget hlast => ?last,
      targetlessBarrier_ends hw hmet hglob hb, foreignBarrier_ends hw hmet hglob hb⟩,
      barrierTimeout_completes hs hlt, fun hcount => gated_ends (execBarrierTimeout_begun hcount) rfl⟩
    case last =>
      exact barrierArrival_ends hw hmet hglob hb hown htarget
        ((barrierArrival_eq (s := begun s) hs _ _ _ _).trans (if_pos hlast))
  case slots =>
    refine ⟨fun hw hslot hlt hnew => ⟨reduceCollect_arms hs hw hslot hlt hnew, reduceCollect_armed hw hslot hnew⟩,
      fun rows recs fl s2 s3 hc hu hup hread hfull hrecs hpots => ?full, fun hc => ⟨fun hcore => ?noCore, fun hshort => ?short⟩⟩
    case full =>
      exact gated_ends (execRedSlotFull_collects hc)
        ((collectOn_full (s := begun s) hu hup hread hfull).trans (collectWork_stores hrecs hpots))
    case noCore =>
      exact gated_ends (execRedSlotFull_collects hc) (collectOn_noCore (s := begun s)
        (fun h => Bool.false_ne_true (hcore.symm.trans (anyCore_of_unitUp h.1 h.2))) hcore)
    case short => exact gated_ends (execRedSlotTimeout_short hc hshort) rfl

end Sys2Proof.Machine
end

section
/-!
SUPPORT. Accesses of device memory that meet no error: what they count and correct stays at the controllers and slices, whose
pages begin at 640 (R199, R208 to R210, R219, R221, R227).
-/

namespace Sys2Proof.Machine

open Sys2Proof

/-- What can make an access of device memory fail: bursts and words that cannot be corrected, lost rails, BLOCKED pages, armed
injections. -/
def memoryFaults (s : State) :=
  (s.ue, s.boot.lostRails, s.hbm.retired.filter (·.blocked), s.hbm.inject, s.quay.inject)

/-- `t` comes from `s` by what the controllers and slices do at an access: nothing that an access answers by differs, and of the
registers only theirs. -/
structure Served (s t : State) : Prop where
  canonical : t.canonical
  regs : ∀ p off, p < 640 → off < 0x10000 → ¬ evtReg p off → rd t p off = rd s p off
  mem : t.mem = s.mem
  hostMem : t.hostMem = s.hostMem
  chans : t.chans = s.chans
  stalled : t.stalled = s.stalled
  gate : t.gate = s.gate
  faults : memoryFaults t = memoryFaults s

section Served

variable {s t u : State}

theorem Served.refl (h : s.canonical) : Served s s := ⟨h, fun _ _ _ _ _ => rfl, rfl, rfl, rfl, rfl, rfl, rfl⟩

theorem Served.trans (h : Served s t) (k : Served t u) : Served s u where
  canonical := k.canonical
  regs p off hp ho he := (k.regs p off hp ho he).trans (h.regs p off hp ho he)
  mem := k.mem.trans h.mem
  hostMem := k.hostMem.trans h.hostMem
  chans := k.chans.trans h.chans
  stalled := k.stalled.trans h.stalled
  gate := k.gate.trans h.gate
  faults := k.faults.trans h.faults

theorem Served.foldl {α : Type} {f : State → α → State} (hf : ∀ s a, s.canonical → Served s (f s a)) (l : List α)
    (h : s.canonical) : Served s (l.foldl f s) :=
  List.foldlRecOn (motive := fun t => Served s t) l f (.refl h) fun _ ht a _ => ht.trans (hf _ a ht.canonical)

theorem Served.of_sameBut {q : Nat → Nat → Prop} (h : SameBut q s t) (ht : t.canonical) (hq : ∀ p o, q p o → 640 ≤ p) :
    Served s t :=
  ⟨ht, fun _ _ hp ho he => h.rd_eq ho he fun x => absurd (hq _ _ x) (Nat.not_le.2 hp), h.mem_eq, h.hostMem_eq,
    by rw [h.rest], by rw [h.rest], by rw [h.rest], by rw [h.rest]; rfl⟩

theorem wr_served (h : s.canonical) {p : Nat} (hp : 640 ≤ p) (off : Nat) (v : Word) : Served s (wr s p off v) :=
  ⟨wr_canonical h, fun _ _ hq ho _ => sparseGet_set_other regReset s.regs _ _ _ h.1 (by simp only [regAddr]; omega),
    rfl, rfl, rfl, rfl, rfl, rfl⟩

theorem addReg_served (h : s.canonical) {p : Nat} (hp : 640 ≤ p) (off n : Nat) : Served s (addReg s p off n) :=
  wr_served h hp off _

theorem wb_served (h : s.canonical) {p : Nat} (hp : 640 ≤ p) (off i : Nat) (b : Bool) : Served s (wb s p off i b) :=
  wr_served h hp off _

theorem raiseEvt_served (h : s.canonical) (p b : Nat) : Served s (raiseEvt s p b) :=
  .of_sameBut (raiseEvt_sameBut h p b) (raiseEvt_canonical h) fun _ _ x => x.elim

theorem countError_served (h : s.canonical) {p : Nat} (hp : 640 ≤ p) (code status cls : Nat) (ctx : Option Nat) :
    Served s (countError s p code status cls ctx) :=
  .of_sameBut (countErrorAt_sameBut h p code status cls ctx p) (countError_canonical h) fun _ _ x => x.1 ▸ hp

/-! ### Corrected errors (R210 to R214, R228, R229) -/

/-- A row that corrected errors wear out has its page retired SOFT, which blocks nothing (R214). -/
theorem retirePage_served (h : s.canonical) (m page : Nat) : Served s (retirePage s m page false) := by
  have hm : 640 ≤ pgMc m := Nat.le_add_right _ _
  unfold retirePage
  extract_lets st p _ _ t
  split
  · exact .refl h
  · split
    · have h1 : Served s { s with hbm := { s.hbm with retired := s.hbm.retired ++ [⟨m, page, false⟩] } } :=
        ⟨h, fun _ _ _ _ _ => rfl, rfl, rfl, rfl, rfl, rfl, by simp [memoryFaults]⟩
      have h2 : Served s t := h1.trans (countError_served h1.canonical hm 4 st 1 none)
      have h3 := h2.trans (wr_served h2.canonical hm Reg.MC_RETIRE_COUNT (rd t p Reg.MC_RETIRE_COUNT + 1))
      exact h3.trans (raiseEvt_served h3.canonical p 1)
    · exact countError_served h hm 5 st 1 none

theorem needRepair_served (h : s.canonical) (m pc q page : Nat) : Served s (needRepair s m pc q page 2) := by
  unfold needRepair
  extract_lets row bank same key again
  split
  · exact .refl h
  · split
    · exact retirePage_served h m page
    · extract_lets ne t
      have ht : Served s t := ⟨h, fun _ _ _ _ _ => rfl, rfl, rfl, rfl, rfl, rfl, rfl⟩
      split
      · split
        · exact ht.trans (raiseEvt_served ht.canonical _ _)
        · exact ht
      · exact retirePage_served h m page

theorem mcCorr_served (h : s.canonical) (a : Nat) : Served s (mcCorr s a) := by
  unfold mcCorr
  split
  · exact .refl h
  · next m pc q _ =>
    extract_lets t1 key mine n low drop ce _ t2
    have h1 : Served s t1 := addReg_served h (Nat.le_add_right _ _) _ _
    have h2 : Served s t2 := h1.trans ⟨h1.canonical, fun _ _ _ _ _ => rfl, rfl, rfl, rfl, rfl, rfl, rfl⟩
    split
    · exact h2.trans (needRepair_served h2.canonical _ _ _ _)
    · exact h2

theorem saveQuayBank_served (h : s.canonical) (k bank : Nat) : Served s (saveQuayBank s k bank) :=
  ⟨h, fun _ _ _ _ _ => rfl, rfl, rfl, rfl, rfl, rfl, rfl⟩

theorem needBank_served (h : s.canonical) (k bank : Nat) : Served s (needBank s k bank) := by
  have hk : 640 ≤ pgQuay k := by simp only [pgQuay]; omega
  have hsave := saveQuayBank_served h k bank
  unfold needBank
  split
  · exact .refl h
  · split
    · exact ⟨h, fun _ _ _ _ _ => rfl, rfl, rfl, rfl, rfl, rfl, rfl⟩
    · split
      · split
        · exact .refl h
        · exact hsave
      · have hdegraded := hsave.trans (wb_served hsave.canonical hk Reg.QUAY_SPARE 8 true)
        have herr := hdegraded.trans (countError_served hdegraded.canonical hk 3 0 1 none)
        exact herr.trans (raiseEvt_served herr.canonical _ _)

theorem quayCorr_served (h : s.canonical) (a : Nat) : Served s (quayCorr s a) := by
  unfold quayCorr
  split
  · exact .refl h
  · next k _ =>
    extract_lets t1 bank _ t2
    have h1 : Served s t1 := addReg_served h (by simp only [pgQuay]; omega) _ _
    have h2 : Served s t2 := h1.trans ⟨h1.canonical, fun _ _ _ _ _ => rfl, rfl, rfl, rfl, rfl, rfl, rfl⟩
    split
    · exact h2.trans (needBank_served h2.canonical _ _)
    · exact h2

/-! ### What an access answers by -/

theorem badUnits_congr (h : memoryFaults t = memoryFaults s) (a n : Nat) : badUnits t a n = badUnits s a n := by
  simp only [badUnits, show t.ue = s.ue from congrArg (·.1) h]

theorem struck_congr (h : memoryFaults t = memoryFaults s) (a n : Nat) : struck t a n = struck s a n := by
  simp only [struck, show t.hbm.inject = s.hbm.inject from congrArg (·.2.2.2.1) h,
    show t.quay.inject = s.quay.inject from congrArg (·.2.2.2.2) h]

/-- The stack that holds the address has lost a rail (R489). -/
def railLost (s : State) (a : Nat) : Bool :=
  decide (s.boot.lostRails ≠ 0) && (((hbmPlace a).map (·.1)).map s.boot.lostRails.testBit).getD false

/-- What refuses a range: a lost rail, or a page that is BLOCKED (R214, R489). -/
theorem blockedRange_eq (s : State) (a n : Nat) : blockedRange s a n = (railLost s a ||
    (s.hbm.retired.filter (·.blocked)).any fun r =>
      decide (r.page * 65536 < a + n) && decide (a < r.page * 65536 + 65536)) := by
  simp only [blockedRange, List.any_filter, Bool.and_assoc, railLost]
  cases hbmPlace a <;> rfl

theorem blockedRange_congr (h : memoryFaults t = memoryFaults s) (a n : Nat) : blockedRange t a n = blockedRange s a n := by
  simp only [blockedRange_eq, railLost, show t.boot.lostRails = s.boot.lostRails from congrArg (·.2.1) h,
    show t.hbm.retired.filter (·.blocked) = s.hbm.retired.filter (·.blocked) from congrArg (·.2.2.1) h]

/-- A range with no error senses as good; what the code corrects in it is counted and repaired. -/
theorem sense_good (h : s.canonical) {a n : Nat} (code : Nat) (ctx : Option Nat) (hblocked : blockedRange s a n = false)
    (hbad : badUnits s a n = []) (hstruck : struck s a n = []) : ∃ t, sense s a n code ctx = (true, t) ∧ Served s t := by
  have hmeet : meetInject s a n code ctx = (false, s) := by simp [meetInject, hstruck]
  refine ⟨(weakUnits s a n).foldl (fun s u => quayCorr (mcCorr s u) u) s, by simp [sense, hblocked, hbad, hmeet],
    .foldl (fun s u hs => ?_) _ h⟩
  have hmc := mcCorr_served hs u
  exact hmc.trans (quayCorr_served hmc.canonical u)

/-! ### The way to memory -/

theorem countBytes_served (h : s.canonical) (k req a n : Nat) (write : Bool) : Served s (countBytes s k req a n write) := by
  unfold countBytes
  split
  · exact addReg_served h (Nat.le_add_right _ _) _ _
  · next j _ _ =>
    have hj : 640 ≤ pgQuay j := by simp only [pgQuay]; omega
    split
    · exact addReg_served h hj _ _
    · split
      · exact addReg_served h hj _ _
      · exact .refl h
  · exact .refl h

theorem activateRange_served (h : s.canonical) (a n : Nat) : Served s (activateRange s a n) := by
  refine .foldl (fun t g ht => ?_) _ h
  split
  · exact ⟨ht, fun _ _ _ _ _ => rfl, rfl, rfl, rfl, rfl, rfl, rfl⟩
  · exact .refl ht

/-- Nothing is held, so that the access goes on (R213, R217, R228, R235). -/
theorem meetHolds_free {a n : Nat} (h : s.gate = some []) : meetHolds s a n = s := by
  simp [meetHolds, h]

/-- What an access does before the check bits are looked at. -/
theorem approach_served (h : s.canonical) (k req a n : Nat) (write : Bool) (hgate : s.gate = some []) :
    Served s (meetHolds (activateRange (countBytes s k req a n write) a n) a n) := by
  have hcount := countBytes_served h k req a n write
  have hact := hcount.trans (activateRange_served hcount.canonical a n)
  rwa [meetHolds_free (hact.gate.trans hgate)]

theorem clean_iff {a n : Nat} : Clean s a n ↔ blockedRange s a n = false ∧ badUnits s a n = [] ∧ struck s a n = [] := by
  simp only [Clean, rangeUe, Bool.or_eq_false_iff, Bool.not_eq_false', List.isEmpty_iff]
  tauto

theorem Clean.congr {a n : Nat} (hclean : Clean s a n) (h : memoryFaults t = memoryFaults s) : Clean t a n := by
  rw [clean_iff] at hclean ⊢
  rwa [blockedRange_congr h, badUnits_congr h, struck_congr h]

theorem Writable.congr {a n : Nat} (hwritable : Writable s a n) (h : memoryFaults t = memoryFaults s) : Writable t a n := by
  obtain ⟨hblocked, hunits⟩ := hwritable
  refine ⟨(blockedRange_congr h a n).trans hblocked, fun g hg => ?_⟩
  rw [badUnits_congr h, struck_congr h]
  exact hunits g hg

/-- A read of a range that meets no error brings its bytes (R209). -/
theorem devRead_good (h : s.canonical) (k req : Nat) {a n : Nat} (hgate : s.gate = some []) (hclean : Clean s a n) :
    ∃ t, devRead s k req a n = (some (readBytes s a n), t) ∧ Served s t := by
  obtain ⟨hblocked, hbad, hstruck⟩ := clean_iff.1 hclean
  have hto := approach_served h k req a n false hgate
  obtain ⟨t, hsense, ht⟩ := sense_good hto.canonical (a := a) (n := n) 1 (ctxOf s k req)
    ((blockedRange_congr hto.faults a n).trans hblocked) ((badUnits_congr hto.faults a n).trans hbad) ((struck_congr hto.faults a n).trans hstruck)
  have hall := hto.trans ht
  refine ⟨t, ?_, hall⟩
  simp only [devRead, readAs, hsense, readBytes, hall.mem, if_true]

end Served

/-! ### The bursts and words that a write covers in part (R203, R224) -/

theorem groupOf_of_page {a g : Nat} (h : a / 4096 = g / 4096) : groupOf a = groupOf g := by
  refine List.find?_congr fun k _ => ?_
  simp only [inRange, groupBase, groupSize]
  congr 1 <;> refine decide_eq_decide.2 ?_ <;> omega

/-- The controllers' boundaries are page boundaries (R197). -/
theorem hbmPlace_stack_of_page {a g : Nat} (h : a / 4096 = g / 4096) : (hbmPlace a).map (·.1) = (hbmPlace g).map (·.1) := by
  unfold hbmPlace
  rw [groupOf_of_page h]
  cases groupOf g with
  | none => rfl
  | some k =>
    have hside : a - groupBase k < sideSize ↔ g - groupBase k < sideSize := by simp only [groupBase, sideSize]; omega
    simp only [Option.map_some, hside]

/-- A burst or word that a range within one page of 4 KiB touches is not BLOCKED where the range is not. -/
theorem blockedRange_unit {s : State} {a n g : Nat} (hn : 0 < n) (hpage : a / 4096 = g / 4096)
    (hunit : g % 4096 + unitSize g ≤ 4096) (h : blockedRange s a n = false) : blockedRange s g (unitSize g) = false := by
  have hrail : railLost s g = railLost s a := by rw [railLost, railLost, hbmPlace_stack_of_page hpage]
  rw [blockedRange_eq, Bool.or_eq_false_iff, List.any_eq_false] at h ⊢
  simp only [Bool.and_eq_true, decide_eq_true_eq] at h ⊢
  refine ⟨hrail.trans h.1, fun r hr hr' => h.2 r hr ⟨?_, ?_⟩⟩
  · have hlow := hr'.1
    omega
  · have hhigh := hr'.2
    omega

theorem unitSize_cases (x : Nat) : x < 0x10000000000 ∧ unitSize x = 32 ∨ 0x10000000000 ≤ x ∧ unitSize x = 8 := by
  unfold unitSize
  split
  · next h => exact .inl ⟨h, rfl⟩
  · next h => exact .inr ⟨Nat.not_lt.1 h, rfl⟩

theorem unitOf_in_page (x : Nat) : unitOf x / 4096 = x / 4096 ∧ unitOf x % 4096 + unitSize (unitOf x) ≤ 4096 := by
  have hof : unitOf x = x / unitSize x * unitSize x := rfl
  rcases unitSize_cases x with ⟨hx, hsize⟩ | ⟨hx, hsize⟩ <;> rw [hsize] at hof <;>
    rcases unitSize_cases (unitOf x) with ⟨hu, hsize'⟩ | ⟨hu, hsize'⟩ <;> rw [hsize'] <;> omega

theorem mem_partUnits {a n g : Nat} (h : g ∈ partUnits a n) : 0 < n ∧ (g = unitOf a ∨ g = unitOf (a + n - 1)) := by
  unfold partUnits at h
  split at h
  · exact absurd h List.not_mem_nil
  · next hn =>
    have hmem := List.mem_eraseDups.1 (List.mem_filter.1 h).1
    simp only [List.mem_cons, List.not_mem_nil, or_false] at hmem
    exact ⟨Nat.pos_of_ne_zero hn, hmem⟩

section Write

variable {s : State}

theorem senseAll_good (h : s.canonical) (code : Nat) (ctx : Option Nat) (l : List Nat)
    (hgood : ∀ g ∈ l, blockedRange s g (unitSize g) = false ∧ badUnits s g (unitSize g) = [] ∧ struck s g (unitSize g) = []) :
    ∃ t, l.foldl (fun (r : Bool × State) g => if r.1 then sense r.2 g (unitSize g) code ctx else r) (true, s) = (true, t) ∧
      Served s t := by
  induction l generalizing s with
  | nil => exact ⟨s, rfl, .refl h⟩
  | cons g l ih =>
    obtain ⟨hblocked, hbad, hstruck⟩ := hgood g List.mem_cons_self
    obtain ⟨t, hsense, ht⟩ := sense_good h code ctx hblocked hbad hstruck
    obtain ⟨u, hrest, hu⟩ := ih ht.canonical fun g' hg' => by
      rw [blockedRange_congr ht.faults, badUnits_congr ht.faults, struck_congr ht.faults]
      exact hgood g' (List.mem_cons_of_mem _ hg')
    exact ⟨u, by simpa only [List.foldl_cons, if_true, hsense] using hrest, ht.trans hu⟩

/-- `t` comes from `s` by an access of device memory; device memory itself may differ. -/
structure Passed (s t : State) : Prop where
  canonical : t.canonical
  regs : ∀ p off, p < 640 → off < 0x10000 → ¬ evtReg p off → rd t p off = rd s p off
  hostMem : t.hostMem = s.hostMem
  chans : t.chans = s.chans
  stalled : t.stalled = s.stalled

theorem Served.passed {t : State} (h : Served s t) : Passed s t := ⟨h.canonical, h.regs, h.hostMem, h.chans, h.stalled⟩

theorem wcRange_eq (s : State) (a n : Nat) : ∃ hbm, wcRange s a n = { s with hbm := hbm } := by
  refine List.foldlRecOn (motive := fun t : State => ∃ hbm, t = { s with hbm := hbm }) _ _ ⟨s.hbm, rfl⟩ fun t ht g _ => ?_
  obtain ⟨hbm, rfl⟩ := ht
  split
  · exact ⟨_, rfl⟩
  · exact ⟨hbm, rfl⟩

/-- A write within one page of 4 KiB that meets no error stores its bytes (R203, R209). -/
theorem devWrite_good (h : s.canonical) (k req : Nat) {a : Nat} {b : Bytes} (hgate : s.gate = some [])
    (hwritable : Writable s a b.length) (hpage : b.length ≤ 4096 - a % 4096) :
    ∃ t, devWrite s k req a b = (true, t) ∧ Passed s t ∧ t.mem = (writeBytes s a b).mem := by
  have hto := approach_served h k req a b.length true hgate
  have hblocked := (blockedRange_congr hto.faults a b.length).trans hwritable.1
  obtain ⟨t, hsense, ht⟩ := senseAll_good hto.canonical 2 (ctxOf s k req) (partUnits a b.length) fun g hg => by
    obtain ⟨hn, hside⟩ := mem_partUnits hg
    obtain ⟨hbad, hstruck⟩ := hwritable.2 g hg
    have hin : a / 4096 = g / 4096 ∧ g % 4096 + unitSize g ≤ 4096 := by
      rcases hside with rfl | rfl
      · exact ⟨(unitOf_in_page a).1.symm, (unitOf_in_page a).2⟩
      · exact ⟨by rw [(unitOf_in_page _).1]; omega, (unitOf_in_page _).2⟩
    exact ⟨blockedRange_unit hn hin.1 hin.2 hblocked, (badUnits_congr hto.faults _ _).trans hbad, (struck_congr hto.faults _ _).trans hstruck⟩
  have hall := hto.trans ht
  obtain ⟨hbm, hwc⟩ := wcRange_eq (writeBytes { t with
    ue := t.ue.filter fun g => !((badUnits t a b.length).contains g)
    weak := t.weak.filter fun g => !((weakUnits t a b.length).contains g) } a b) a b.length
  have hwrite : devWrite s k req a b = (true, { writeBytes { t with
      ue := t.ue.filter fun g => !((badUnits t a b.length).contains g)
      weak := t.weak.filter fun g => !((weakUnits t a b.length).contains g) } a b with hbm := hbm }) := by
    simp only [devWrite, writeAs, hblocked, Bool.false_eq_true, if_false, hsense, if_true, hwc]
  refine ⟨_, hwrite, ⟨?_, fun p off hp ho he => hall.regs p off hp ho he, hall.hostMem, hall.chans, hall.stalled⟩,
    by simp only [writeBytes, hall.mem]⟩
  exact writeBytes_canonical (s := { t with ue := _, weak := _ }) hall.canonical

end Write

end Sys2Proof.Machine
end

section
/-!
SUPPORT. Events of other pages: the registers of a page that is neither the recorder's nor the event's own stay, and an event
that stands in `EVT_STAT` stays (R36, R39).
-/

namespace Sys2Proof.Machine

open Sys2Proof

section Events

variable {s : State} {p q o : Nat}

theorem rd_raiseEvt_otherPage (h : s.canonical) (b : Nat) (hq : q ≠ p) (hevr : q ≠ pgEvr) (ho : o < 0x10000) :
    rd (raiseEvt s p b) q o = rd s q o := by
  unfold raiseEvt
  split
  · rfl
  · have hraw : (rawEvt s p b).canonical := (rawEvt_kept h.kept).1
    rw [rd, updWire_regs, ← rd, rd_fireTriggers_otherPage hraw p b hevr ho]
    exact rd_wr_other h _ (by decide) ho fun e => hq e.1

theorem rb_raiseEvt_stays (h : s.canonical) {i : Nat} (b : Nat) (hevr : p ≠ pgEvr) (hi : i < 64)
    (hset : rb s p Reg.EVT_STAT i = true) : rb (raiseEvt s p b) p Reg.EVT_STAT i = true := by
  by_cases hb : i = b
  · exact hb ▸ rb_raiseEvt_same h hevr hi
  · unfold raiseEvt
    split
    · exact hset
    · have hraw : (rawEvt s p b).canonical := (rawEvt_kept h.kept).1
      rw [rb, rd, updWire_regs, ← rd, rd_fireTriggers_otherPage hraw p b hevr (by decide), ← rb]
      exact (rb_wb_other h _ _ _ _ _ hb hi).trans hset

theorem rd_setState_otherPage (h : s.canonical) (st : Nat) (hq : q ≠ p) (hevr : q ≠ pgEvr) (ho : o < 0x10000) :
    rd (setState s p st) q o = rd s q o := by
  unfold setState
  split
  · rfl
  · exact (rd_raiseEvt_otherPage (wf_canonical h) 61 hq hevr ho).trans (rd_wr_other h _ (by decide) ho fun e => hq e.1)

/-- What an error leaves of the registers before its event is raised. -/
theorem rd_countError_cases (h : s.canonical) (code status cls : Nat) (ctx : Option Nat) :
    ∃ t : State, t.canonical ∧ countError s p code status cls ctx = raiseEvt t p 62 ∧
      ∀ q o, o < 0x10000 → ¬(q = p ∧ (o = Reg.ERR_COUNT ∨ o = Reg.ERR_FIRST)) → rd t q o = rd s q o := by
  rw [countError]
  unfold countErrorAt
  extract_lets s1 s2 _ s3
  have h1 : s1.canonical := addReg_canonical h
  refine ⟨s3, (Kept_ite (wb_kept h1.kept) (wr_kept h1.kept)).1, rfl, fun q o ho hne => ?_⟩
  have hcount : rd s1 q o = rd s q o := rd_wr_other h _ (by decide) ho fun e => hne ⟨e.1, .inl e.2⟩
  refine Eq.trans (b := rd s1 q o) (?_ : rd s2 q o = rd s1 q o) hcount
  unfold s2
  split
  · exact rd_wr_other h1 _ (by decide) ho fun e => hne ⟨e.1, .inr e.2⟩
  · exact rd_wr_other h1 _ (by decide) ho fun e => hne ⟨e.1, .inr e.2⟩

theorem rd_countError_otherPage (h : s.canonical) (code status cls : Nat) (ctx : Option Nat) (hq : q ≠ p) (hevr : q ≠ pgEvr)
    (ho : o < 0x10000) : rd (countError s p code status cls ctx) q o = rd s q o := by
  obtain ⟨t, ht, heq, hsame⟩ := rd_countError_cases h code status cls ctx (p := p)
  rw [heq, rd_raiseEvt_otherPage ht 62 hq hevr ho, hsame q o ho fun e => hq e.1]

theorem rb_countError_stays (h : s.canonical) {i : Nat} (code status cls : Nat) (ctx : Option Nat) (hevr : p ≠ pgEvr) (hi : i < 64)
    (hset : rb s p Reg.EVT_STAT i = true) : rb (countError s p code status cls ctx) p Reg.EVT_STAT i = true := by
  obtain ⟨t, ht, heq, hsame⟩ := rd_countError_cases h code status cls ctx (p := p)
  rw [heq]
  refine rb_raiseEvt_stays ht 62 hevr hi ((congrArg (bit · i) (hsame p _ (by decide) fun e => ?_)).trans hset)
  exact absurd e.2 (by decide)

end Events

end Sys2Proof.Machine
end

section
/-!
SUPPORT. A DMA channel: what its descriptor and its completion are read from, and which registers a step of it changes (R352 to
R364).
-/

namespace Sys2Proof.Machine

open Sys2Proof

/-- `t` comes from `s` by a step of channel `c`: of the registers below the controllers' pages only those with an offset of `l`
on the channel's page and the endpoint's differ, and the marks of events. -/
structure ChanStep (c : Nat) (l : List Nat) (s t : State) : Prop where
  canonical : t.canonical
  regs : ∀ p off, p < 640 → off < 0x10000 → ¬ evtReg p off → ¬((p = pgPcie ∨ p = pgDma c) ∧ off ∈ l) → rd t p off = rd s p off

theorem SameBut.chans_eq {q : Nat → Nat → Prop} {s t : State} (h : SameBut q s t) : t.chans = s.chans := by rw [h.rest]

theorem SameBut.stalled_eq {q : Nat → Nat → Prop} {s t : State} (h : SameBut q s t) : t.stalled = s.stalled := by rw [h.rest]

section ChanStep

variable {c : Nat} {l : List Nat} {s t u : State}

theorem ChanStep.refl (h : s.canonical) : ChanStep c l s s := ⟨h, fun _ _ _ _ _ _ => rfl⟩

theorem ChanStep.trans (h : ChanStep c l s t) (k : ChanStep c l t u) : ChanStep c l s u :=
  ⟨k.canonical, fun p off hp ho he hl => (k.regs p off hp ho he hl).trans (h.regs p off hp ho he hl)⟩

theorem ChanStep.of_regs (ht : t.canonical) (hregs : t.regs = s.regs) : ChanStep c l s t :=
  ⟨ht, fun p off _ _ _ _ => congrArg (sparseGet regReset · (regAddr p off)) hregs⟩

theorem ChanStep.of_passed (h : Passed s t) : ChanStep c l s t := ⟨h.canonical, fun p off hp ho he _ => h.regs p off hp ho he⟩

theorem ChanStep.of_event (h : SameBut noReg s t) (ht : t.canonical) : ChanStep c l s t :=
  ⟨ht, fun _ _ _ ho he _ => h.rd_eq ho he id⟩

theorem wr_chanStep (h : s.canonical) {p off : Nat} (v : Word) (hp : p = pgPcie ∨ p = pgDma c) (ho : off < 0x10000)
    (hl : off ∈ l) : ChanStep c l s (wr s p off v) :=
  ⟨wr_canonical h, fun _ _ _ ho' _ hne => rd_wr_other h v ho ho' fun e => hne ⟨e.1 ▸ hp, e.2 ▸ hl⟩⟩

theorem addReg_chanStep (h : s.canonical) {p off : Nat} (n : Nat) (hp : p = pgPcie ∨ p = pgDma c) (ho : off < 0x10000)
    (hl : off ∈ l) : ChanStep c l s (addReg s p off n) := wr_chanStep h _ hp ho hl

theorem wf_chanStep (h : s.canonical) {p off : Nat} (lo n v : Nat) (hp : p = pgPcie ∨ p = pgDma c) (ho : off < 0x10000)
    (hl : off ∈ l) : ChanStep c l s (wf s p off lo n v) := wr_chanStep h _ hp ho hl

theorem setChan_chanStep (h : s.canonical) (ch : Chan) : ChanStep c l s (setChan s c ch) := .of_regs h rfl

/-! ### What a step leaves -/

theorem pgDma_ne_pgEvr (c : Nat) : pgDma c ≠ pgEvr := by simp only [pgDma, pgEvr]; omega

theorem ChanStep.rd_dma (h : ChanStep c l s t) (hc : c < 32) {off : Nat} (ho : off < 0x10000) (hevt : off ≠ Reg.EVT_STAT)
    (hl : off ∉ l) : rd t (pgDma c) off = rd s (pgDma c) off :=
  h.regs _ _ (by simp only [pgDma]; omega) ho (not_evtReg_of_page (pgDma_ne_pgEvr c) hevt) fun e => hl e.2

theorem ChanStep.rd_pcie (h : ChanStep c l s t) {off : Nat} (ho : off < 0x10000) (hevt : off ≠ Reg.EVT_STAT)
    (hl : off ∉ l) : rd t pgPcie off = rd s pgPcie off :=
  h.regs _ _ (by decide) ho (not_evtReg_of_page (by decide) hevt) fun e => hl e.2

theorem ChanStep.chanFn_eq (h : ChanStep c l s t) (hc : c < 32) (hl : Reg.DMA_ASSIGN c ∉ l) : chanFn t c = chanFn s c := by
  rw [chanFn, chanFn, h.rd_pcie (by simp only [Reg.DMA_ASSIGN]; omega) (by simp only [Reg.DMA_ASSIGN, Reg.EVT_STAT]; omega) hl]

theorem ChanStep.cvuFor_eq (h : ChanStep c l s t) (f : Nat) : cvuFor t c f = cvuFor s c f := by
  refine List.find?_congr fun u hu => ?_
  have hlt : u < 8 := List.mem_range.1 hu
  have hsame : ∀ off, off < 0x10000 → off ≠ Reg.EVT_STAT → rd t (pgCvu u) off = rd s (pgCvu u) off := fun off ho hevt =>
    h.regs _ _ (by simp only [pgCvu]; omega) ho (not_evtReg_of_page (by simp only [pgCvu, pgEvr]; omega) hevt) fun e => by
      simp only [pgCvu, pgPcie, pgDma] at e; omega
  have hassign := hsame Reg.CVU_ASSIGN (by decide) (by decide)
  have hstate : pageState t (pgCvu u) = pageState s (pgCvu u) :=
    congrArg (fld · 0 4) (hsame Reg.PAGE_STAT (by decide) (by decide))
  have hvalid : rb t (pgCvu u) Reg.CVU_ASSIGN 7 = rb s (pgCvu u) Reg.CVU_ASSIGN 7 := congrArg (bit · 7) hassign
  have hfn : rf t (pgCvu u) Reg.CVU_ASSIGN 0 5 = rf s (pgCvu u) Reg.CVU_ASSIGN 0 5 := congrArg (fld · 0 5) hassign
  simp only [hstate, hvalid, hfn, hsame Reg.CVU_CFG (by decide) (by decide)]

theorem chanOf_setChan {ch : Chan} (hc : c < s.chans.length) : chanOf (setChan s c ch) c = ch := by
  simp [chanOf, setChan, hc]

/-! ### The ring of completions -/

/-- Where the completion record of descriptor `seq` goes (R356). -/
def cplSlot (s : State) (c seq : Nat) : Nat := (rd s (pgDma c) Reg.DMA_CPL).toNat / 64 * 64 + 64 * (seq % 2 ^ dmaLog s c)

theorem ChanStep.dmaLog_eq (h : ChanStep c l s t) (hc : c < 32) (hl : Reg.DMA_RCFG ∉ l) : dmaLog t c = dmaLog s c :=
  congrArg (fld · 0 5) (h.rd_dma hc (by decide) (by decide) hl)

theorem ChanStep.cplSlot_eq (h : ChanStep c l s t) (hc : c < 32) (hl : Reg.DMA_RCFG ∉ l) (hcpl : Reg.DMA_CPL ∉ l) (seq : Nat) :
    cplSlot t c seq = cplSlot s c seq := by
  rw [cplSlot, cplSlot, h.rd_dma hc (by decide) (by decide) hcpl, h.dmaLog_eq hc hl]

theorem ChanStep.dmaRecord_eq (h : ChanStep c l s t) (hc : c < 32) (hl : Reg.DMA_RCFG ∉ l) (seq : Nat) (w : List Word)
    (status detail page bytes : Nat) : dmaRecord t c seq w status detail page bytes = dmaRecord s c seq w status detail page bytes := by
  rw [dmaRecord, dmaRecord, h.dmaLog_eq hc hl]

end ChanStep

/-! ### A descriptor that completes (R356, R363) -/

/-- The record of the descriptor in progress is written and counted, and the channel is free (R356, R363). -/
def recordPosted (s : State) (c seq : Nat) (record : List Word) : State :=
  setChan (wf (addReg (addReg (writeHost s (cplSlot s c seq) (record.flatMap wordBytes)) pgPcie Reg.TX_BYTES 64) (pgDma c)
    Reg.DESC_DONE 1) (pgDma c) Reg.DMA_HEAD 32 32 (seq + 1)) c chanReset

/-- The block of a bound check-value unit is closed where the descriptor would have used it (R460). -/
def cvuLeft (s : State) (c f : Nat) (w : List Word) : State :=
  match cvuFor s c f with
  | some u => if cvuIsOpen s u && !(mDecrypt w) && !(mOp w = 3) then cvuDrop s u else s
  | none => s

/-- The interrupt that a descriptor asks for (R356). -/
def irqRaised (s : State) (c : Nat) (w : List Word) : State :=
  if mIrq w && rb s (pgDma c) Reg.DMA_CFG 12 then raiseEvt s (pgDma c) 0 else s

/-- The channel is in FAULT, with its error (R363). -/
def chanHalted (s : State) (c code status : Nat) : State :=
  let s := raiseEvt (setState s (pgDma c) 5) (pgDma c) 1
  countError s (pgDma c) code status (if rf s (pgDma c) Reg.OWNER 0 8 = 0xFF then 3 else 1) none

/-- The descriptor in progress on a channel, with no context, no key and no digest of its own. -/
structure Plain (s : State) (c seq : Nat) (w : List Word) : Prop where
  cur : (chanOf s c).cur = some (seq, w)
  bound : (chanOf s c).bound = none
  digest : (chanOf s c).digest = none
  ctx : mCtx w = none
  hash : mHash w = false

theorem dmaEnd_plain {s : State} {c seq : Nat} {w : List Word} (h : Plain s c seq w) (status detail page bytes code : Nat)
    (plain : Bytes) : dmaEnd s c status detail page bytes code plain =
      let t := irqRaised (cvuLeft (recordPosted s c seq (dmaRecord s c seq w status detail page bytes)) c
        ((chanFn s c).getD 0) w) c w
      if dmaHalts status then chanHalted t c code status else t := by
  obtain ⟨hcur, hbound, hdigest, hctx, hhash⟩ := h
  simp only [dmaEnd, hcur, hbound, hdigest, hctx, digestAfter, hhash]
  rfl

section RecordPosted

variable {s : State} {c seq : Nat}

theorem writeHost_chanStep {l : List Nat} (h : s.canonical) (a : Nat) (b : Bytes) : ChanStep c l s (writeHost s a b) :=
  .of_regs (writeHost_canonical h) rfl

/-- The registers that the end of a descriptor counts in. -/
abbrev endOffsets : List Nat := [Reg.TX_BYTES, Reg.DESC_DONE, Reg.DMA_HEAD]

theorem recordPosted_chanStep (h : s.canonical) (seq : Nat) (record : List Word) :
    ChanStep c endOffsets s (recordPosted s c seq record) := by
  have h1 : ChanStep c endOffsets s (writeHost s (cplSlot s c seq) (record.flatMap wordBytes)) := writeHost_chanStep h _ _
  have h2 := h1.trans (addReg_chanStep h1.canonical (off := Reg.TX_BYTES) 64 (.inl rfl) (by decide) (by decide))
  have h3 := h2.trans (addReg_chanStep h2.canonical (off := Reg.DESC_DONE) 1 (.inr rfl) (by decide) (by decide))
  have h4 := h3.trans (wf_chanStep h3.canonical (off := Reg.DMA_HEAD) 32 32 (seq + 1) (.inr rfl) (by decide) (by decide))
  exact h4.trans (setChan_chanStep h4.canonical _)

theorem recordPosted_mem (s : State) (c seq : Nat) (record : List Word) : (recordPosted s c seq record).mem = s.mem := rfl

theorem recordPosted_chans (s : State) (c seq : Nat) (record : List Word) :
    (recordPosted s c seq record).chans = s.chans.set c chanReset := rfl

theorem recordPosted_stalled (s : State) (c seq : Nat) (record : List Word) :
    (recordPosted s c seq record).stalled = s.stalled := rfl

theorem recordPosted_hostMem (s : State) (c seq : Nat) (record : List Word) :
    (recordPosted s c seq record).hostMem = (writeHost s (cplSlot s c seq) (record.flatMap wordBytes)).hostMem := rfl

theorem dmaDone_recordPosted (h : s.canonical) (seq : Nat) (record : List Word) :
    dmaDone (recordPosted s c seq record) c = (seq + 1) % 2 ^ 32 :=
  rf_wf_same (addReg_canonical (addReg_canonical (writeHost_canonical h))) _ _ _ _ _ (by decide)

theorem recordPosted_pcie (h : s.canonical) (seq : Nat) (record : List Word) {off : Nat} (ho : off < 0x10000)
    (hne : off ≠ Reg.TX_BYTES) : rd (recordPosted s c seq record) pgPcie off = rd s pgPcie off := by
  have hother : pgPcie ≠ pgDma c := by simp only [pgPcie, pgDma]; omega
  have hhost : (writeHost s (cplSlot s c seq) (record.flatMap wordBytes)).canonical := writeHost_canonical h
  have hsent := addReg_canonical (p := pgPcie) (off := Reg.TX_BYTES) (n := 64) hhost
  exact (rd_wr_other (addReg_canonical hsent) _ (by decide) ho fun e => hother e.1).trans
    ((rd_wr_other hsent _ (by decide) ho fun e => hother e.1).trans (rd_wr_other hhost _ (by decide) ho fun e => hne e.2))

theorem dmaHead_recordPosted (h : s.canonical) (seq : Nat) (record : List Word) :
    dmaHead (recordPosted s c seq record) c = dmaHead s c := by
  have hhost : (writeHost s (cplSlot s c seq) (record.flatMap wordBytes)).canonical := writeHost_canonical h
  refine (rf_wf_other (addReg_canonical (addReg_canonical hhost)) _ _ _ _ _ _ _ (by decide) (by decide)).trans
    (congrArg (fld · 0 32) ?_)
  exact (rd_wr_other (addReg_canonical hhost) _ (by decide) (by decide) fun e => absurd e.2 (by decide)).trans
    (rd_wr_other hhost _ (by decide) (by decide) fun e => absurd e.2 (by decide))

theorem irqRaised_sameBut (h : s.canonical) (c : Nat) (w : List Word) : SameBut noReg s (irqRaised s c w) := by
  unfold irqRaised
  split
  · exact raiseEvt_sameBut h _ _
  · exact .refl _ _

theorem rd_irqRaised_otherPage (h : s.canonical) (c : Nat) (w : List Word) {p off : Nat} (hp : p ≠ pgDma c) (hevr : p ≠ pgEvr)
    (ho : off < 0x10000) : rd (irqRaised s c w) p off = rd s p off := by
  unfold irqRaised
  split
  · exact rd_raiseEvt_otherPage h _ hp hevr ho
  · rfl

theorem irqRaised_canonical (h : s.canonical) (c : Nat) (w : List Word) : (irqRaised s c w).canonical := by
  unfold irqRaised
  split
  · exact raiseEvt_canonical h
  · exact h

theorem cvuFor_lt {f u : Nat} (h : cvuFor s c f = some u) : u < 8 := List.mem_range.1 (List.mem_of_find?_eq_some h)

/-- Closing a block touches its unit's page alone. -/
theorem cvuLeft_sameBut (h : s.canonical) (c f : Nat) (w : List Word) :
    SameBut (fun p _ => 16 ≤ p ∧ p < 24) s (cvuLeft s c f w) := by
  unfold cvuLeft
  split
  · next u hu =>
    have hlt := cvuFor_lt hu
    split
    · exact (wb_sameBut h _ _ _ _ (by decide)).mono fun p _ e => by rw [e.1]; simp only [pgCvu]; omega
    · exact .refl _ _
  · exact .refl _ _

theorem rd_cvuLeft (h : s.canonical) (c f : Nat) (w : List Word) {p off : Nat} (hp : p < 16 ∨ 24 ≤ p) (ho : off < 0x10000) :
    rd (cvuLeft s c f w) p off = rd s p off := by
  unfold cvuLeft
  split
  · next u hu =>
    have hlt := cvuFor_lt hu
    split
    · exact rd_wr_other h _ (by decide) ho fun e => by have hpage := e.1; simp only [pgCvu] at hpage; omega
    · rfl
  · rfl

theorem cvuLeft_canonical (h : s.canonical) (c f : Nat) (w : List Word) : (cvuLeft s c f w).canonical := by
  unfold cvuLeft
  split
  · split
    · exact wb_canonical h
    · exact h
  · exact h

theorem cvuLeft_none {f : Nat} (h : cvuFor s c f = none) (w : List Word) : cvuLeft s c f w = s := by
  simp only [cvuLeft, h]

end RecordPosted

/-! ### The end with OK (R356) -/

/-- Descriptor `seq` of channel `c` has completed with OK and moved `n` bytes: its record is written and it is counted in DONE;
the channel is free. -/
structure EndedOk (c seq : Nat) (w : List Word) (n : Nat) (s t : State) : Prop where
  step : ChanStep c endOffsets s t
  head : dmaHead t c = dmaHead s c
  done : dmaDone t c = (seq + 1) % 2 ^ 32
  chan : chanOf t c = chanReset
  mem : t.mem = s.mem
  host : t.hostMem = (writeHost s (cplSlot s c seq) ((dmaRecord s c seq w 0 0 0 n).flatMap wordBytes)).hostMem
  stalled : t.stalled = s.stalled

theorem dmaEnd_ok {s : State} {c seq : Nat} {w : List Word} (h : s.canonical) (hc : c < s.chans.length)
    (hplain : Plain s c seq w) (hcvu : cvuFor s c ((chanFn s c).getD 0) = none) (n : Nat) (plain : Bytes) :
    EndedOk c seq w n s (dmaEnd s c 0 0 0 n 0 plain) := by
  have hpost := recordPosted_chanStep (c := c) h seq (dmaRecord s c seq w 0 0 0 n)
  have hirq := irqRaised_sameBut hpost.canonical c w
  have hend : dmaEnd s c 0 0 0 n 0 plain = irqRaised (recordPosted s c seq (dmaRecord s c seq w 0 0 0 n)) c w := by
    rw [dmaEnd_plain hplain, cvuLeft_none ((hpost.cvuFor_eq _).trans hcvu)]
    exact if_neg (by decide)
  rw [hend]
  have hhead : ∀ lo k, rf (irqRaised (recordPosted s c seq (dmaRecord s c seq w 0 0 0 n)) c w) (pgDma c) Reg.DMA_HEAD lo k =
      rf (recordPosted s c seq (dmaRecord s c seq w 0 0 0 n)) (pgDma c) Reg.DMA_HEAD lo k := fun _ _ =>
    hirq.rf_eq (by decide) (not_evtReg_of_page (pgDma_ne_pgEvr c) (by decide)) id
  have hchans : (irqRaised (recordPosted s c seq (dmaRecord s c seq w 0 0 0 n)) c w).chans = s.chans.set c chanReset :=
    hirq.chans_eq.trans (recordPosted_chans _ _ _ _)
  exact {
    step := hpost.trans (.of_event hirq (irqRaised_canonical hpost.canonical c w))
    head := (hhead 0 32).trans (dmaHead_recordPosted h _ _)
    done := (hhead 32 32).trans (dmaDone_recordPosted h _ _)
    chan := by rw [chanOf, hchans, List.getD_eq_getElem?_getD, List.getElem?_set_self hc, Option.getD_some]
    mem := hirq.mem_eq.trans (recordPosted_mem _ _ _ _)
    host := hirq.hostMem_eq.trans (recordPosted_hostMem _ _ _ _)
    stalled := hirq.stalled_eq.trans (recordPosted_stalled _ _ _ _) }

/-! ### The end that halts the channel (R363) -/

/-- The channel has halted on descriptor `seq`, which is counted in DONE. -/
structure EndedHalted (c seq : Nat) (s t : State) : Prop where
  state : pageState t (pgDma c) = 5
  head : dmaHead t c = dmaHead s c
  done : dmaDone t c = (seq + 1) % 2 ^ 32
  event : rb t (pgDma c) Reg.EVT_STAT 1 = true
  mem : t.mem = s.mem
  pcie : ∀ off, off < 0x10000 → off ≠ Reg.TX_BYTES → rd t pgPcie off = rd s pgPcie off

theorem chanHalted_ends {s : State} (h : s.canonical) (c code status : Nat) :
    pageState (chanHalted s c code status) (pgDma c) = 5 ∧ rb (chanHalted s c code status) (pgDma c) Reg.EVT_STAT 1 = true ∧
    (chanHalted s c code status).mem = s.mem ∧
    rd (chanHalted s c code status) (pgDma c) Reg.DMA_HEAD = rd s (pgDma c) Reg.DMA_HEAD ∧
    ∀ off, off < 0x10000 → rd (chanHalted s c code status) pgPcie off = rd s pgPcie off := by
  have hdma := pgDma_ne_pgEvr c
  have hother : pgPcie ≠ pgDma c := by simp only [pgPcie, pgDma]; omega
  have hset := setState_canonical (p := pgDma c) (st := 5) h
  have hevt := raiseEvt_canonical (p := pgDma c) (b := 1) hset
  have hkept : ∀ off, off < 0x10000 → off ≠ Reg.EVT_STAT → off ≠ Reg.ERR_COUNT → off ≠ Reg.ERR_FIRST →
      rd (chanHalted s c code status) (pgDma c) off = rd (setState s (pgDma c) 5) (pgDma c) off := fun off ho he h1 h2 =>
    (rd_countError hevt ho (not_evtReg_of_page hdma he) h1 h2).trans (rd_raiseEvt hset ho (not_evtReg_of_page hdma he))
  refine ⟨?state, ?event, ?mem, ?head, fun off ho => ?pcie⟩
  case state =>
    exact (congrArg (fld · 0 4) (hkept _ (by decide) (by decide) (by decide) (by decide))).trans
      (pageState_setState h _ 5 (by decide))
  case event => exact rb_countError_stays hevt _ _ _ _ hdma (by decide) (rb_raiseEvt_same hset hdma (by decide))
  case mem => simp only [chanHalted, countError_mem, raiseEvt_mem, setState_mem]
  case head =>
    exact (hkept _ (by decide) (by decide) (by decide) (by decide)).trans
      (rd_setState h (by decide) (not_evtReg_of_page hdma (by decide)) fun e => absurd e.2 (by decide))
  case pcie =>
    exact (rd_countError_otherPage hevt _ _ _ _ hother (by decide) ho).trans
      ((rd_raiseEvt_otherPage hset _ hother (by decide) ho).trans (rd_setState_otherPage h _ hother (by decide) ho))

theorem dmaEnd_halts {s : State} {c seq : Nat} {w : List Word} (h : s.canonical) (hplain : Plain s c seq w) {status : Nat}
    (hstatus : dmaHalts status = true) (detail page bytes code : Nat) (plain : Bytes) :
    EndedHalted c seq s (dmaEnd s c status detail page bytes code plain) := by
  have hdma := pgDma_ne_pgEvr c
  have hother : pgPcie ≠ pgDma c := by simp only [pgPcie, pgDma]; omega
  rw [dmaEnd_plain hplain]
  extract_lets t
  rw [if_pos hstatus]
  have hpost := (recordPosted_chanStep (c := c) h seq (dmaRecord s c seq w status detail page bytes)).canonical
  have hleft := cvuLeft_canonical hpost c ((chanFn s c).getD 0) w
  have hirq := irqRaised_sameBut hleft c w
  obtain ⟨hstate, hevent, hmem, hhalt, hpcie⟩ := chanHalted_ends (irqRaised_canonical hleft c w) c code status
  have hhead : rd (chanHalted t c code status) (pgDma c) Reg.DMA_HEAD =
      rd (recordPosted s c seq (dmaRecord s c seq w status detail page bytes)) (pgDma c) Reg.DMA_HEAD :=
    hhalt.trans ((hirq.rd_eq (by decide) (not_evtReg_of_page hdma (by decide)) id).trans
      (rd_cvuLeft hpost _ _ _ (.inr (by simp only [pgDma]; omega)) (by decide)))
  exact {
    state := hstate
    head := (congrArg (fld · 0 32) hhead).trans (dmaHead_recordPosted h _ _)
    done := (congrArg (fld · 32 32) hhead).trans (dmaDone_recordPosted h _ _)
    event := hevent
    mem := hmem.trans (hirq.mem_eq.trans ((cvuLeft_sameBut hpost _ _ _).mem_eq.trans (recordPosted_mem _ _ _ _)))
    pcie := fun off ho hne => (hpcie off ho).trans ((rd_irqRaised_otherPage hleft c w hother (by decide) ho).trans
      ((rd_cvuLeft hpost _ _ _ (.inl (by decide)) ho).trans (recordPosted_pcie h _ _ ho hne))) }

end Sys2Proof.Machine
end

section
/-!
SUPPORT. A descriptor that a channel takes (R354, R358): what the check of a plain one lets through, and the state after it.
-/

namespace Sys2Proof.Machine

open Sys2Proof

/-! ### The check (R358) -/

section Check

variable {w : List Word}

/-- On a channel of F0 no descriptor decrypts. -/
theorem mDecrypt_of_check (h : dmaCheck chanReset 0 w = 0) : mDecrypt w = false := by
  grind [dmaCheck]

theorem mHashStart_of_check (h : dmaCheck chanReset 0 w = 0) (hhash : mHash w = false) : mHashStart w = false := by
  grind [dmaCheck]

theorem mLen_of_check (h : dmaCheck chanReset 0 w = 0) (hop : mOp w ≠ 3) : 4 ≤ mLen w := by
  grind [dmaCheck]

end Check

/-! ### The state after it -/

/-- Descriptor `w` of channel `c` is in progress, as number `seq`. -/
def descTaken (s : State) (c seq : Nat) (w : List Word) : State :=
  setChan (wf (addReg s pgPcie Reg.RX_BYTES 64) (pgDma c) Reg.DMA_HEAD 0 32 (seq + 1)) c { chanReset with cur := some (seq, w) }

/-- The registers that the start of a descriptor changes. -/
abbrev startOffsets : List Nat := [Reg.RX_BYTES, Reg.DMA_HEAD]

section Taken

variable {s : State} {c f : Nat} {w : List Word}

theorem descTaken_chanStep (h : s.canonical) (seq : Nat) (w : List Word) : ChanStep c startOffsets s (descTaken s c seq w) := by
  have h1 := addReg_chanStep (c := c) (l := startOffsets) h (off := Reg.RX_BYTES) 64 (.inl rfl) (by decide) (by decide)
  have h2 := h1.trans (wf_chanStep h1.canonical (off := Reg.DMA_HEAD) 0 32 (seq + 1) (.inr rfl) (by decide) (by decide))
  exact h2.trans (setChan_chanStep h2.canonical _)

theorem dmaHead_descTaken (h : s.canonical) (seq : Nat) (w : List Word) :
    dmaHead (descTaken s c seq w) c = (seq + 1) % 2 ^ 32 :=
  rf_wf_same (addReg_canonical h) _ _ _ _ _ (by decide)

theorem chanOf_descTaken (hc : c < s.chans.length) (seq : Nat) (w : List Word) :
    chanOf (descTaken s c seq w) c = { chanReset with cur := some (seq, w) } := chanOf_setChan hc

theorem descTaken_plain (hc : c < s.chans.length) (seq : Nat) (hctx : mCtx w = none) (hhash : mHash w = false) :
    Plain (descTaken s c seq w) c seq w := by
  have hchan := chanOf_descTaken hc seq w
  exact ⟨by rw [hchan], by rw [hchan]; rfl, by rw [hchan]; rfl, hctx, hhash⟩

/-- What refuses F0 an address in a partition, or in none (R354). -/
def partRefusal (s : State) : Option Nat → Nat
  | none => 0xF
  | some k => if sealedNow s k then 0xF else if partState s k = 0 ∨ partState s k = 1 ∨ partState s k = 6 then 0xD else 0

theorem physStatus_eq (s : State) (a n : Nat) : physStatus s a n =
    if partRefusal s (partOfAddr a) ≠ 0 then partRefusal s (partOfAddr a) else partRefusal s (partOfAddr (a + n - 1)) := rfl

theorem physStatus_congr {t : State} (h : ∀ k, k < 16 → sealedNow t k = sealedNow s k ∧ partState t k = partState s k)
    (a n : Nat) : physStatus t a n = physStatus s a n := by
  have hat : ∀ x, partRefusal t (partOfAddr x) = partRefusal s (partOfAddr x) := by
    intro x
    cases hx : partOfAddr x with
    | none => rfl
    | some k =>
      obtain ⟨hsealed, hstate⟩ := h k (List.mem_range.1 (List.mem_of_find?_eq_some hx))
      simp only [partRefusal, hsealed, hstate]
  simp only [physStatus_eq, hat]

theorem physStatus_descTaken (h : s.canonical) (seq : Nat) (w : List Word) (a n : Nat) :
    physStatus (descTaken s c seq w) a n = physStatus s a n := by
  refine physStatus_congr (fun k hk => ?_) a n
  have hpart : rd (descTaken s c seq w) (pgPart k) Reg.PART_STATE = rd s (pgPart k) Reg.PART_STATE :=
    (descTaken_chanStep h seq w).regs _ _ (by simp only [pgPart]; omega) (by decide)
      (not_evtReg_of_page (by simp only [pgPart, pgEvr]; omega) (by decide)) fun e => absurd e.2 (by decide)
  exact ⟨congrArg (bit · 4 || s.ten.sealing.any fun e => e.1 = k) hpart, congrArg (fld · 0 4) hpart⟩

/-- A descriptor with no context, no key and no digest is taken where the checks pass (R354, R358). -/
theorem dmaTake_good (h : s.canonical) (hchan : chanOf s c = chanReset) (hcheck : dmaCheck chanReset 0 w = 0)
    (hctx : mCtx w = none) (hhash : mHash w = false) (hphys : physStatus s (mDev w % 2 ^ 46) (mBytes w) = 0)
    (hcvu : cvuFor s c 0 = none) : dmaTake s c 0 w = (true, descTaken s c (dmaHead s c) w) := by
  have hdead : ∀ t, mDead t w = false := fun t => by simp only [mDead, hctx]
  have hphys' := (physStatus_descTaken (c := c) h (dmaHead s c) w (mDev w % 2 ^ 46) (mBytes w)).trans hphys
  have hcvu' := ((descTaken_chanStep (c := c) h (dmaHead s c) w).cvuFor_eq 0).trans hcvu
  simp only [descTaken] at hphys' hcvu'
  simpa [dmaTake, hctx, hdead, hchan, hcheck, mHashStart_of_check hcheck hhash, mDecrypt_of_check hcheck, hcvu', descTaken]
    using hphys'

end Taken

end Sys2Proof.Machine
end

section
/-!
SUPPORT. Host requests of a channel that fail (R363): the descriptor completes with its status and the channel halts.
-/

namespace Sys2Proof.Machine

open Sys2Proof

/-- Descriptor `seq` of channel `c` is in progress, with its words as far as they are known; nothing else but HEAD and the
endpoint's count of bytes received differs that the end of a descriptor reads. -/
structure InProgress (c seq : Nat) (w : List Word) (s t : State) : Prop where
  canonical : t.canonical
  head : dmaHead t c = (seq + 1) % 2 ^ 32
  chan : chanOf t c = { chanReset with cur := some (seq, w) }
  ctx : mCtx w = none
  hash : mHash w = false
  mem : t.mem = s.mem
  pcie : ∀ off, off < 0x10000 → off ≠ Reg.RX_BYTES → rd t pgPcie off = rd s pgPcie off

/-- What the endpoint counts and records of a failure touches its own page alone. -/
def MarksEndpoint (mark : State → State) : Prop :=
  ∀ s, s.canonical → (mark s).canonical ∧ SameBut (fun p _ => p = pgPcie) s (mark s)

/-- The channel has halted on the descriptor at HEAD, which has its record. -/
structure HaltedAtHead (c : Nat) (s t : State) : Prop where
  state : pageState t (pgDma c) = 5
  head : dmaHead t c = (dmaHead s c + 1) % 2 ^ 32
  done : dmaDone t c = (dmaHead s c + 1) % 2 ^ 32
  event : rb t (pgDma c) Reg.EVT_STAT 1 = true
  mem : t.mem = s.mem

section Failures

variable {s u : State} {c seq status : Nat} {w : List Word} {mark : State → State}

theorem pgPcie_ne_pgDma (c : Nat) : pgPcie ≠ pgDma c := by simp only [pgPcie, pgDma]; omega

/-- The end of a descriptor in progress after a failure that the endpoint has marked. -/
theorem InProgress.halts (h : InProgress c (dmaHead s c) w s u) (hmark : MarksEndpoint mark) (hstatus : dmaHalts status = true)
    (code : Nat) :
    HaltedAtHead c s (dmaEnd (mark u) c status 0 0 0 code []) ∧
    ∀ off, off < 0x10000 → off ≠ Reg.TX_BYTES →
      rd (dmaEnd (mark u) c status 0 0 0 code []) pgPcie off = rd (mark u) pgPcie off := by
  obtain ⟨hcanonical, hsame⟩ := hmark u h.canonical
  have hchan : chanOf (mark u) c = { chanReset with cur := some (dmaHead s c, w) } :=
    (congrArg (fun l : List Chan => l.getD c chanReset) hsame.chans_eq).trans h.chan
  have hhead : dmaHead (mark u) c = (dmaHead s c + 1) % 2 ^ 32 :=
    (hsame.rf_eq (by decide) (not_evtReg_of_page (pgDma_ne_pgEvr c) (by decide)) (pgPcie_ne_pgDma c).symm).trans h.head
  have hplain : Plain (mark u) c (dmaHead s c) w := ⟨by rw [hchan], by rw [hchan]; rfl, by rw [hchan]; rfl, h.ctx, h.hash⟩
  have hend := dmaEnd_halts hcanonical hplain hstatus 0 0 0 code []
  exact ⟨⟨hend.state, hend.head.trans hhead, hend.done, hend.event, hend.mem.trans (hsame.mem_eq.trans h.mem)⟩, hend.pcie⟩

/-- The descriptor at HEAD is in progress, but its words have not come. -/
def descUnread (s : State) (c : Nat) : State :=
  setChan (wf s (pgDma c) Reg.DMA_HEAD 0 32 (dmaHead s c + 1)) c { chanReset with cur := some (dmaHead s c, []) }

theorem descUnread_inProgress (h : s.canonical) (hc : c < s.chans.length) :
    InProgress c (dmaHead s c) [] s (descUnread s c) where
  canonical := wf_canonical h
  head := rf_wf_same h _ _ _ _ _ (by decide)
  chan := chanOf_setChan hc
  ctx := by decide
  hash := by decide
  mem := rfl
  pcie _ ho _ := rd_wr_other h _ (by decide) ho fun e => pgPcie_ne_pgDma c e.1

theorem descTaken_inProgress (h : s.canonical) (hc : c < s.chans.length) (hctx : mCtx w = none) (hhash : mHash w = false) :
    InProgress c (dmaHead s c) w s (draw (descTaken s c (dmaHead s c) w)).2 where
  canonical := (descTaken_chanStep h _ w).canonical
  head := dmaHead_descTaken h _ w
  chan := chanOf_descTaken hc _ w
  ctx := hctx
  hash := hhash
  mem := rfl
  pcie _ ho hne := (rd_wr_other (addReg_canonical h) _ (by decide) ho fun e => pgPcie_ne_pgDma c e.1).trans
    (rd_wr_other h _ (by decide) ho fun e => hne e.2)

/-- The words of the descriptor at HEAD fail to come (R363). -/
theorem hostFail_unread {f : Nat} (hfn : chanFn s c = some f) (hchan : chanOf s c = chanReset) (hgo : chanGo s c = true)
    (hop : mOp (dmaFetch s c) ≠ 1) (code : Nat) :
    hostFail s c status code mark = dmaEnd (mark (descUnread s c)) c status 0 0 0 code [] := by
  have hcur : (chanOf s c).cur = none := congrArg Chan.cur hchan
  have hdigest : (chanOf s c).digest = none := congrArg Chan.digest hchan
  simp only [hostFail, hcur, hfn, hgo, hop, hdigest, descUnread, if_true, if_false]
  rfl

/-- The data of a descriptor of one burst fails to come: none of it moves (R363). -/
theorem failData_none (hchan : chanOf u c = { chanReset with cur := some (seq, w) }) (hop : mOp w = 1) (hlen : 0 < mLen w)
    (hbursts : burstsLeft w 0 = 1) (code : Nat) :
    failData u c 0 status code w mark = dmaEnd (mark (draw u).2) c status 0 0 0 code [] := by
  have hchan' : chanOf (draw u).2 c = { chanReset with cur := some (seq, w) } := hchan
  have hmove : dmaMove (draw u).2 c 0 0 = (draw u).2 := by
    have hleft : ¬ mLen w ≤ 0 := Nat.not_le.2 hlen
    have hmoved : chanReset.moved = 0 := rfl
    simp only [dmaMove, hchan', hop, h2dBursts, hmoved, hleft, decide_false, Bool.false_and, if_true, Bool.false_eq_true, if_false]
  have hmoved : (chanOf u c).moved = 0 := by rw [hchan]; rfl
  have hheld : (({ chanReset with cur := some (seq, w) } : Chan).held.isSome ||
    ({ chanReset with cur := some (seq, w) } : Chan).waiting) = false := rfl
  have hnone : ({ chanReset with cur := some (seq, w) } : Chan).moved = 0 := rfl
  simp only [failData, hmoved, hbursts, Nat.mod_one, hmove, hchan', hheld, hnone, Option.isSome_some, Bool.not_false,
    Bool.and_self, if_true]

/-- The data of the descriptor at HEAD fails to come, where it is one burst of a plain H2D descriptor of F0 (R363). -/
theorem hostFail_data (h : s.canonical) (hc : c < s.chans.length) (hfn : chanFn s c = some 0) (hchan : chanOf s c = chanReset)
    (hgo : chanGo s c = true) (hop : mOp (dmaFetch s c) = 1) (hbursts : burstsLeft (dmaFetch s c) 0 = 1)
    (hcheck : dmaCheck chanReset 0 (dmaFetch s c) = 0) (hctx : mCtx (dmaFetch s c) = none) (hhash : mHash (dmaFetch s c) = false)
    (hphys : physStatus s (mDev (dmaFetch s c) % 2 ^ 46) (mLen (dmaFetch s c)) = 0) (hcvu : cvuFor s c 0 = none) (code : Nat) :
    hostFail s c status code mark =
      dmaEnd (mark (draw (descTaken s c (dmaHead s c) (dmaFetch s c))).2) c status 0 0 0 code [] := by
  have hcur : (chanOf s c).cur = none := congrArg Chan.cur hchan
  have hbytes : mBytes (dmaFetch s c) = mLen (dmaFetch s c) := if_neg (by omega)
  have htake := dmaTake_good h hchan hcheck hctx hhash (hbytes ▸ hphys) hcvu
  have hlen := mLen_of_check hcheck (by omega)
  rw [← failData_none (chanOf_descTaken hc _ _) hop (by omega) hbursts code]
  simp only [hostFail, hcur, hfn, hgo, hop, htake, if_true]

/-! ### The marks (R367) -/

theorem addReg_marksEndpoint {off : Nat} (ho : off < 0x10000) (n : Nat) : MarksEndpoint fun s => addReg s pgPcie off n :=
  fun _ h => ⟨addReg_canonical h, (addReg_sameBut h _ _ n ho).mono fun _ _ e => e.1⟩

theorem MarksEndpoint.countError (hmark : MarksEndpoint mark) (code st cls : Nat) (ctx : Option Nat) :
    MarksEndpoint fun s => countError (mark s) pgPcie code st cls ctx := fun s h =>
  have hbefore := hmark s h
  ⟨countError_canonical hbefore.1, hbefore.2.trans' ((countErrorAt_sameBut hbefore.1 _ _ _ _ _ _).mono fun _ _ e => e.1)⟩

theorem MarksEndpoint.raiseEvt (hmark : MarksEndpoint mark) (b : Nat) : MarksEndpoint fun s => raiseEvt (mark s) pgPcie b :=
  fun s h =>
  have hbefore := hmark s h
  ⟨raiseEvt_canonical hbefore.1, hbefore.2.trans' ((raiseEvt_sameBut hbefore.1 _ _).mono fun _ _ e => e.elim)⟩

/-- A counter of the endpoint and the error that goes with it. -/
theorem rd_countError_addReg (h : s.canonical) {off : Nat} (ho : off < 0x10000) (hevt : off ≠ Reg.EVT_STAT)
    (hcount : off ≠ Reg.ERR_COUNT) (hfirst : off ≠ Reg.ERR_FIRST) (code st cls : Nat) (ctx : Option Nat) :
    rd (Machine.countError (addReg s pgPcie off 1) pgPcie code st cls ctx) pgPcie off = rd s pgPcie off + 1 :=
  (rd_countError (addReg_canonical h) ho (not_evtReg_of_page (by decide) hevt) hcount hfirst).trans (rd_wr_same h _ _ _)

/-! ### The commands -/

/-- Channel `c` of function `f` may start the descriptor at HEAD, a read of which is about to fail: that of its words, or that of
the data of a plain descriptor of F0 with one burst. -/
structure AboutToFail (s : State) (c f : Nat) : Prop where
  record : c < s.chans.length
  fn : chanFn s c = some f
  chan : chanOf s c = chanReset
  go : chanGo s c = true
  data : mOp (dmaFetch s c) ≠ 1 ∨ f = 0 ∧ burstsLeft (dmaFetch s c) 0 = 1 ∧ dmaCheck chanReset 0 (dmaFetch s c) = 0 ∧
    mCtx (dmaFetch s c) = none ∧ mHash (dmaFetch s c) = false ∧
    physStatus s (mDev (dmaFetch s c) % 2 ^ 46) (mLen (dmaFetch s c)) = 0 ∧ cvuFor s c 0 = none

/-- A request that fails halts the channel, and the endpoint marks it. -/
theorem AboutToFail.halts {f : Nat} (hfail : AboutToFail s c f) (h : s.canonical) (hmark : MarksEndpoint mark)
    (hstatus : dmaHalts status = true) (code : Nat) :
    HaltedAtHead c s (hostFail s c status code mark) ∧
    ∃ u, u.canonical ∧ (∀ off, off < 0x10000 → off ≠ Reg.RX_BYTES → rd u pgPcie off = rd s pgPcie off) ∧
      ∀ off, off < 0x10000 → off ≠ Reg.TX_BYTES → rd (hostFail s c status code mark) pgPcie off = rd (mark u) pgPcie off := by
  obtain ⟨hc, hfn, hchan, hgo, hdata⟩ := hfail
  by_cases hop : mOp (dmaFetch s c) = 1
  · obtain hne | ⟨rfl, hbursts, hcheck, hctx, hhash, hphys, hcvu⟩ := hdata
    · exact absurd hop hne
    · rw [hostFail_data h hc hfn hchan hgo hop hbursts hcheck hctx hhash hphys hcvu]
      have hin := descTaken_inProgress h hc hctx hhash
      obtain ⟨hhalted, hpcie⟩ := hin.halts hmark hstatus code
      exact ⟨hhalted, _, hin.canonical, hin.pcie, hpcie⟩
  · rw [hostFail_unread hfn hchan hgo hop]
    have hin := descUnread_inProgress h hc
    obtain ⟨hhalted, hpcie⟩ := hin.halts hmark hstatus code
    exact ⟨hhalted, _, hin.canonical, hin.pcie, hpcie⟩

/-- A failure that the endpoint counts at `off`. -/
theorem AboutToFail.counts {f off : Nat} (hfail : AboutToFail s c f) (h : s.canonical) (hmark : MarksEndpoint mark)
    (hstatus : dmaHalts status = true) (code : Nat) (ho : off < 0x10000) (hrx : off ≠ Reg.RX_BYTES) (htx : off ≠ Reg.TX_BYTES)
    (hcount : ∀ u, u.canonical → rd (mark u) pgPcie off = rd u pgPcie off + 1) :
    HaltedAtHead c s (hostFail s c status code mark) ∧
      rd (hostFail s c status code mark) pgPcie off = rd s pgPcie off + 1 := by
  obtain ⟨hhalted, u, hu, hbefore, hafter⟩ := hfail.halts h hmark hstatus code
  exact ⟨hhalted, by rw [hafter off ho htx, hcount u hu, hbefore off ho hrx]⟩

theorem AboutToFail.refused {f : Nat} (hfail : AboutToFail s c f) (h : s.canonical) :
    HaltedAtHead c s (hostFail s c 0xF 3 fun s => addReg s pgPcie Reg.UR_RECEIVED 1) ∧
      rd (hostFail s c 0xF 3 fun s => addReg s pgPcie Reg.UR_RECEIVED 1) pgPcie Reg.UR_RECEIVED =
        rd s pgPcie Reg.UR_RECEIVED + 1 :=
  hfail.counts h (addReg_marksEndpoint (by decide) 1) (by decide) 3 (by decide) (by decide) (by decide)
    fun _ hu => rd_wr_same hu _ _ _

theorem AboutToFail.poisoned {f : Nat} (hfail : AboutToFail s c f) (h : s.canonical) :
    Completes (.hostCompletion c .poisoned) s fun t =>
      HaltedAtHead c s t ∧ rd t pgPcie Reg.POISON_RECEIVED = rd s pgPcie Reg.POISON_RECEIVED + 1 :=
  completes_of_next rfl rfl (hfail.counts h ((addReg_marksEndpoint (by decide) 1).countError 3 4 1 none) (by decide) 3 (by decide)
    (by decide) (by decide) fun _ hu => rd_countError_addReg hu (by decide) (by decide) (by decide) (by decide) _ _ _ _)

theorem AboutToFail.timedOut {f : Nat} (hfail : AboutToFail s c f) (h : s.canonical) :
    Completes (.cplTimeout c) s fun t => HaltedAtHead c s t ∧
      rd t pgPcie Reg.CPL_TIMEOUTS = rd s pgPcie Reg.CPL_TIMEOUTS + 1 ∧ rb t pgPcie Reg.EVT_STAT 3 = true := by
  have hmark := ((addReg_marksEndpoint (off := Reg.CPL_TIMEOUTS) (by decide) 1).countError 2 5 1 none).raiseEvt 3
  obtain ⟨hhalted, u, hu, hbefore, hafter⟩ := hfail.halts h hmark (status := 5) (by decide) 4
  have herr : (Machine.countError (addReg u pgPcie Reg.CPL_TIMEOUTS 1) pgPcie 2 5 1 none).canonical :=
    countError_canonical (addReg_canonical hu)
  refine completes_of_next rfl rfl ⟨hhalted, ?count, ?event⟩
  case count =>
    calc rd _ pgPcie Reg.CPL_TIMEOUTS = _ := hafter _ (by decide) (by decide)
      _ = _ := rd_raiseEvt herr (by decide) (not_evtReg_of_page (by decide) (by decide))
      _ = rd u pgPcie Reg.CPL_TIMEOUTS + 1 :=
        rd_countError_addReg hu (by decide) (by decide) (by decide) (by decide) _ _ _ _
      _ = _ := by rw [hbefore _ (by decide) (by decide)]
  case event =>
    exact (congrArg (bit · 3) (hafter Reg.EVT_STAT (by decide) (by decide))).trans
      (rb_raiseEvt_same herr (by decide) (by decide))

end Failures

end Sys2Proof.Machine
end

section
/-!
SUPPORT. The registers of the DMA channels that software writes: the assignment of a channel, its tail, and STRICT (R118, R352,
R354, R365); a completion that is dropped (R367).
-/

namespace Sys2Proof.Machine

open Sys2Proof

section ChannelRegisters

variable {s : State} {fn c f : Nat} {v : Word}

/-- A malformed completion is counted as an error of the endpoint and dropped (R367). -/
theorem malformed_counts (h : s.canonical) (c : Nat) :
    Completes (.hostCompletion c .malformed) s fun t =>
      rd t pgPcie Reg.ERR_COUNT = rd s pgPcie Reg.ERR_COUNT + 1 ∧
      SameBut (fun q o => q = pgPcie ∧ (o = Reg.ERR_COUNT ∨ o = Reg.ERR_FIRST)) s t :=
  completes_of_next rfl rfl ⟨rd_countError_count h (by decide) _ _ _ _, countErrorAt_sameBut h _ _ _ _ _ _⟩

/-! ### Assignment (R352) -/

/-- Channel `c`, which was OFF, belongs to function `f` and has its reset values. -/
def channelAssigned (s : State) (c f : Nat) (v : Word) : State :=
  let p := pgDma c
  let s := setChan (resetRegs (wr s pgPcie (Reg.DMA_ASSIGN c) (v &&& 0x9F)) p 0x100 0x10000) c chanReset
  let s := wr s p Reg.DMA_INFO (w64 (c + f <<< 8 + 1 <<< 13))
  wr s p Reg.OWNER (w64 (if f = 0 then 0xFF else f - 1))

theorem dmaAssign_accepted (hw : MayWrite s fn pgPcie (Reg.DMA_ASSIGN c)) (ha : actsOn s fn pgPcie true = true) (hc : c < 32)
    (hoff : pageState s (pgDma c) = 0) (hfree : chanFn s c = none) (hvalid : bit v 7 = true) (hf : fld v 0 5 = f) (hmax : f ≤ 16)
    (hopen : f = 0 ∨ sealedNow s (f - 1) = false ∧ partState s (f - 1) ≠ 1) :
    exec (.dmaAssign fn c v) s = .next (updWire (channelAssigned s c f v)) := by
  refine congrArg Host.Outcome.next ?_
  rw [if_neg (Nat.not_le.2 hc), withOperator_accepted hw ha]
  subst hf
  cases hk : fld v 0 5 with
  | zero => simp [hvalid, hfree, hoff, guarded, channelAssigned]
  | succ k =>
    obtain hzero | ⟨hunsealed, hidle⟩ := hopen
    · omega
    · rw [hk] at hunsealed hidle hmax
      simp only [Nat.add_sub_cancel] at hunsealed hidle
      simp [hvalid, hfree, hoff, guarded, channelAssigned, hunsealed, hidle, hmax]

theorem channelAssigned_canonical (h : s.canonical) (c f : Nat) (v : Word) : (channelAssigned s c f v).canonical :=
  wr_canonical (wr_canonical (resetRegs_canonical (wr_canonical h)))

theorem DMA_ASSIGN_lt (hc : c < 32) : Reg.DMA_ASSIGN c < 0x10000 := by simp only [Reg.DMA_ASSIGN]; omega

/-- Keys outside a range that is dropped keep their values. -/
theorem sparseGet_drop_outside {α : Type} [DecidableEq α] (d : Nat → α) {lo hi a : Nat} (ha : a < lo ∨ hi ≤ a) :
    ∀ (l : List (Nat × α)) (low : Nat), sparseWfFrom d low l = true → sparseGet d (sparseDrop l lo hi) a = sparseGet d l a
  | [], _, _ => rfl
  | (b, v) :: t, low, h => by
    simp only [sparseWfFrom, Bool.and_eq_true] at h
    have ih : sparseGet d (t.filter _) a = sparseGet d t a := sparseGet_drop_outside d ha t (b + 1) h.2
    simp only [sparseDrop, List.filter_cons, sparseGet]
    split
    · simp only [sparseGet, ih]
    · next hdropped =>
      have hne : a ≠ b := by rintro rfl; simp at hdropped; omega
      rw [ih, if_neg hne]
      split
      · next hlt => exact sparseGet_below d t (b + 1) a h.2 (by omega)
      · rfl

theorem rd_resetRegs_otherPage (h : s.canonical) {p q off hi : Nat} (lo : Nat) (hq : q ≠ p) (ho : off < 0x10000)
    (hlo : lo < 0x10000) (hhi : hi ≤ 0x10000) : rd (resetRegs s p lo hi) q off = rd s q off := by
  refine sparseGet_drop_outside regReset ?_ s.regs 0 h.1
  simp only [regAddr]
  omega

theorem rd_channelAssigned_assign (h : s.canonical) (hc : c < 32) (f : Nat) (v : Word) :
    rd (channelAssigned s c f v) pgPcie (Reg.DMA_ASSIGN c) = v &&& 0x9F := by
  have hlt := DMA_ASSIGN_lt hc
  have hpage := pgPcie_ne_pgDma c
  have hset := wr_canonical (p := pgPcie) (off := Reg.DMA_ASSIGN c) (v := v &&& 0x9F) h
  have hreset := resetRegs_canonical (p := pgDma c) (lo := 0x100) (hi := 0x10000) hset
  calc rd (channelAssigned s c f v) pgPcie (Reg.DMA_ASSIGN c)
    _ = _ := rd_wr_other (wr_canonical hreset) _ (by decide) hlt fun e => hpage e.1
    _ = _ := rd_wr_other hreset _ (by decide) hlt fun e => hpage e.1
    _ = _ := rd_resetRegs_otherPage hset _ hpage hlt (by decide) (Nat.le_refl _)
    _ = _ := rd_wr_same h _ _ _

theorem rd_channelAssigned_reset (h : s.canonical) (f : Nat) (v : Word) {off : Nat} (hlo : 0x100 ≤ off) (hhi : off < 0x10000)
    (hinfo : off ≠ Reg.DMA_INFO) : rd (channelAssigned s c f v) (pgDma c) off = regReset (regAddr (pgDma c) off) := by
  have howner : off ≠ Reg.OWNER := by simp only [Reg.OWNER]; omega
  have hreset := resetRegs_canonical (p := pgDma c) (lo := 0x100) (hi := 0x10000)
    (wr_canonical (p := pgPcie) (off := Reg.DMA_ASSIGN c) (v := v &&& 0x9F) h)
  calc rd (channelAssigned s c f v) (pgDma c) off
    _ = _ := rd_wr_other (wr_canonical hreset) _ (by decide) hhi fun e => howner e.2
    _ = _ := rd_wr_other hreset _ (by decide) hhi fun e => hinfo e.2
    _ = _ := rd_resetRegs_same _ _ hlo hhi

theorem rd_channelAssigned_owner (h : s.canonical) (c f : Nat) (v : Word) :
    rd (channelAssigned s c f v) (pgDma c) Reg.OWNER = w64 (if f = 0 then 0xFF else f - 1) :=
  rd_wr_same (wr_canonical (resetRegs_canonical (wr_canonical h))) _ _ _

theorem dmaAssign_assigns (h : s.canonical) (hw : MayWrite s fn pgPcie (Reg.DMA_ASSIGN c)) (ha : actsOn s fn pgPcie true = true)
    (hc : c < 32) (hrec : c < s.chans.length) (hoff : pageState s (pgDma c) = 0) (hfree : chanFn s c = none)
    (hvalid : bit v 7 = true) (hf : fld v 0 5 = f) (hmax : f ≤ 16)
    (hopen : f = 0 ∨ sealedNow s (f - 1) = false ∧ partState s (f - 1) ≠ 1) :
    Completes (.dmaAssign fn c v) s fun t =>
      chanFn t c = some f ∧ chanOf t c = chanReset ∧ rf t (pgDma c) Reg.OWNER 0 8 = (if f = 0 then 0xFF else f - 1) ∧
      (∀ off, off % 8 = 0 → 0x100 ≤ off → off < 0x10000 → off ≠ Reg.DMA_INFO →
        rd t (pgDma c) off = regReset (regAddr (pgDma c) off)) ∧
      SameMemory s t := by
  have hassigned := channelAssigned_canonical h c f v
  have hwire := updWire_sameBut hassigned
  have hregs : ∀ p off, rd (updWire (channelAssigned s c f v)) p off = rd (channelAssigned s c f v) p off := fun p off =>
    congrArg (sparseGet regReset · (regAddr p off)) (updWire_regs _)
  refine completes_of_next (dmaAssign_accepted hw ha hc hoff hfree hvalid hf hmax hopen) rfl
    ⟨?fn, ?chan, ?owner, fun off _ hlo hhi hinfo => (hregs _ _).trans (rd_channelAssigned_reset h f v hlo hhi hinfo),
      hwire.mem_eq, hwire.hostMem_eq⟩
  case fn =>
    have hbit : bit (v &&& 0x9F) 7 = true := by simp_all [bit]
    have hfld : fld (v &&& 0x9F) 0 5 = f := by
      have hmask : fld (v &&& 0x9F) 0 5 = fld v 0 5 &&& 2 ^ 5 - 1 := by
        simp only [fld, BitVec.toNat_and, Nat.shiftRight_zero, Nat.and_mod_two_pow]
        rfl
      rw [hmask, Nat.and_two_pow_sub_one_eq_mod, fld, Nat.mod_mod, ← fld, hf]
    rw [chanFn, hregs, rd_channelAssigned_assign h hc, if_pos hbit, hfld]
  case chan =>
    exact (congrArg (fun l : List Chan => l.getD c chanReset) hwire.chans_eq).trans (chanOf_setChan hrec)
  case owner =>
    rw [rf, hregs, rd_channelAssigned_owner h, fld, w64, BitVec.toNat_ofNat]
    split <;> omega

/-! ### The tail (R118, R354) -/

theorem dmaTail_taken (h : s.canonical) {tail : Nat} (hw : MayWrite s fn (pgDma c) Reg.DMA_TAIL) (hc : c < 32)
    (hstate : pageState s (pgDma c) = 3 ∨ pageState s (pgDma c) = 4)
    (hnew : (tail % 2 ^ 32 + 2 ^ 32 - dmaHead s c) % 2 ^ 32 < 2 ^ 31)
    (hroom : (tail % 2 ^ 32 + 2 ^ 32 - dmaDone s c) % 2 ^ 32 ≤ 2 ^ dmaLog s c) :
    Completes (.dmaTail fn c tail) s fun t =>
      rf t (pgDma c) Reg.DMA_TAIL 0 32 = tail % 2 ^ 32 ∧ SameBut (oneReg (pgDma c) Reg.DMA_TAIL) s t := by
  refine completes_of_next (t := wf s (pgDma c) Reg.DMA_TAIL 0 32 (tail % 2 ^ 32)) (congrArg Host.Outcome.next ?_) rfl
    ⟨(rf_wf_same h _ _ _ _ _ (by decide)).trans (Nat.mod_mod _ _), wf_sameBut h _ _ _ _ _ (by decide)⟩
  rw [if_neg (Nat.not_le.2 hc), withWrite_accepted hw]
  refine guarded_accepted ?_ _
  simp only [Bool.and_eq_true, decide_eq_true_eq]
  exact ⟨⟨hstate, hnew⟩, hroom⟩

/-! ### STRICT (R365) -/

/-- What isolation holds of each partition is brought up to date, and nothing else (R378). -/
theorem updIso_sameBut (h : s.canonical) : SameBut (fun _ o => o = Reg.ISO_STAT) s (updIso s) := by
  refine sameBut_foldl _ h (fun t k ht => ?_) fun t k ht => ?_
  · exact Kept_ite ht.kept (raiseEvt_kept (wf_kept ht.kept)) |>.1
  · extract_lets val
    split
    · exact .refl _ _
    · exact ((wf_sameBut ht _ _ _ _ _ (by decide)).mono fun _ _ e => e.2).trans'
        (raiseEvt_sameBut (wf_canonical ht) _ _).none

theorem dmaCtlStrict_accepted (hw : MayWrite s fn pgPcie Reg.DMA_CTL) (ha : actsOn s fn pgPcie true = true)
    (hok : bit v 0 = true ∨ (∀ k, k < 16 → partState s k ≠ 4)) :
    exec (.dmaCtlStrict fn v) s = .next (updIso (wb s pgPcie Reg.DMA_CTL 0 (bit v 0))) := by
  refine congrArg Host.Outcome.next ?_
  rw [withOperator_accepted hw ha]
  refine guarded_accepted ?_ _
  obtain hset | hnone := hok
  · rw [hset, Bool.true_or, Bool.true_or]
  · have hany : ((List.range 16).any fun k => partState s k = 4) = false :=
      List.any_eq_false.2 fun k hk => by simpa using hnone k (List.mem_range.1 hk)
    rw [hany, Bool.not_false, Bool.or_true]

theorem dmaCtlStrict_sets (h : s.canonical) (hw : MayWrite s fn pgPcie Reg.DMA_CTL) (ha : actsOn s fn pgPcie true = true)
    (hok : bit v 0 = true ∨ (∀ k, k < 16 → partState s k ≠ 4)) :
    Completes (.dmaCtlStrict fn v) s fun t =>
      rb t pgPcie Reg.DMA_CTL 0 = bit v 0 ∧ SameBut (fun q o => (q = pgPcie ∧ o = Reg.DMA_CTL) ∨ o = Reg.ISO_STAT) s t := by
  have hset : SameBut (oneReg pgPcie Reg.DMA_CTL) s (wb s pgPcie Reg.DMA_CTL 0 (bit v 0)) := wb_sameBut h _ _ _ _ (by decide)
  have hiso := updIso_sameBut (wb_canonical (p := pgPcie) (off := Reg.DMA_CTL) (i := 0) (b := bit v 0) h)
  refine completes_of_next (dmaCtlStrict_accepted hw ha hok) rfl ⟨?_, ?_⟩
  · exact (hiso.rb_eq (by decide) (not_evtReg_of_page (by decide) (by decide)) (by decide)).trans
      (rb_wb_same h _ _ _ _ (by decide))
  · exact (hset.mono fun _ _ e => .inl e).trans' (hiso.mono fun _ _ e => .inr e)

end ChannelRegisters

end Sys2Proof.Machine
end

section
/-!
SUPPORT. The bursts of a DMA descriptor that is one burst of a channel of F0 (R353 to R356, R363).
-/

namespace Sys2Proof.Machine

open Sys2Proof

/-- The registers that a descriptor changes until its end. -/
abbrev moveOffsets : List Nat := [Reg.RX_BYTES, Reg.TX_BYTES, Reg.DMA_HEAD, Reg.H2D_BYTES, Reg.D2H_BYTES]

/-- The registers that a descriptor changes until its bytes are counted. -/
abbrev takeOffsets : List Nat := [Reg.RX_BYTES, Reg.TX_BYTES, Reg.DMA_HEAD]

/-- Channel `c` has taken descriptor `w` from HEAD, and has not counted a byte of it. -/
structure Taken (c : Nat) (w : List Word) (s t : State) : Prop where
  step : ChanStep c takeOffsets s t
  lt : c < 32
  head : dmaHead t c = (dmaHead s c + 1) % 2 ^ 32
  plain : Plain t c (dmaHead s c) w
  record : c < t.chans.length
  stalled : t.stalled = none

/-- All `n` bytes of descriptor `w`, which channel `c` took from HEAD, have moved, and are counted at `bytes`. -/
structure Moved (c : Nat) (w : List Word) (bytes n : Nat) (s t : State) : Prop where
  step : ChanStep c moveOffsets s t
  head : dmaHead t c = (dmaHead s c + 1) % 2 ^ 32
  plain : Plain t c (dmaHead s c) w
  record : c < t.chans.length
  count : rd t (pgDma c) bytes = rd s (pgDma c) bytes + w64 n
  stalled : t.stalled = none

/-- The descriptor at HEAD has completed: HEAD and DONE pass it, the channel is free, its bytes are counted. -/
structure Completed (c : Nat) (bytes n : Nat) (s t : State) : Prop where
  head : dmaHead t c = (dmaHead s c + 1) % 2 ^ 32
  done : dmaDone t c = (dmaHead s c + 1) % 2 ^ 32
  chan : chanOf t c = chanReset
  count : rd t (pgDma c) bytes = rd s (pgDma c) bytes + w64 n
  state : pageState t (pgDma c) = pageState s (pgDma c)
  stalled : t.stalled = none

section Moves

variable {s t u : State} {c seq bytes n : Nat} {w : List Word}

theorem ChanStep.mono {l l' : List Nat} (h : ChanStep c l s t) (hl : l ⊆ l') : ChanStep c l' s t :=
  ⟨h.canonical, fun p off hp ho he hne => h.regs p off hp ho he fun e => hne ⟨e.1, hl e.2⟩⟩

theorem Plain.of_chans (h : Plain s c seq w) (hchans : t.chans = s.chans) : Plain t c seq w := by
  have hchan : chanOf t c = chanOf s c := congrArg (fun l : List Chan => l.getD c chanReset) hchans
  exact ⟨hchan ▸ h.cur, hchan ▸ h.bound, hchan ▸ h.digest, h.ctx, h.hash⟩

theorem Plain.setChan (h : Plain s c seq w) (hc : c < s.chans.length) {ch : Chan} (hcur : ch.cur = (chanOf s c).cur)
    (hbound : ch.bound = (chanOf s c).bound) (hdigest : ch.digest = (chanOf s c).digest) : Plain (setChan s c ch) c seq w := by
  have hchan : chanOf (Machine.setChan s c ch) c = ch := chanOf_setChan hc
  exact ⟨by rw [hchan, hcur, h.cur], by rw [hchan, hbound, h.bound], by rw [hchan, hdigest, h.digest], h.ctx, h.hash⟩

theorem DMA_ASSIGN_not_moved (hc : c < 32) : Reg.DMA_ASSIGN c ∉ moveOffsets := by
  simp only [Reg.DMA_ASSIGN, Reg.RX_BYTES, Reg.TX_BYTES, Reg.DMA_HEAD, Reg.H2D_BYTES, Reg.D2H_BYTES, List.mem_cons,
    List.not_mem_nil, or_false]
  omega

/-- The record is written where the ring of completions has its slot (R356). -/
theorem Moved.ends (h : Moved c w bytes n s t) (hc : c < 32) (hfn : chanFn s c = some 0) (hcvu : cvuFor s c 0 = none)
    (hbytes : bytes = Reg.H2D_BYTES ∨ bytes = Reg.D2H_BYTES) (plain : Bytes) :
    Completed c bytes n s (dmaEnd t c 0 0 0 n 0 plain) ∧ (dmaEnd t c 0 0 0 n 0 plain).mem = t.mem ∧
    (dmaEnd t c 0 0 0 n 0 plain).hostMem = (writeHost t (cplSlot s c (dmaHead s c))
      ((dmaRecord s c (dmaHead s c) w 0 0 0 n).flatMap wordBytes)).hostMem := by
  obtain ⟨hstep, hhead, hplain, hrecord, hcount, hstalled⟩ := h
  have hcvu' : cvuFor t c ((chanFn t c).getD 0) = none := by
    rw [hstep.chanFn_eq hc (DMA_ASSIGN_not_moved hc), hfn]
    exact (hstep.cvuFor_eq 0).trans hcvu
  have hend := dmaEnd_ok hstep.canonical hrecord hplain hcvu' n plain
  have hkept : bytes < 0x10000 ∧ bytes ≠ Reg.EVT_STAT ∧ bytes ∉ endOffsets := by
    rcases hbytes with rfl | rfl <;> decide
  refine ⟨⟨hend.head.trans hhead, hend.done, hend.chan, ?count, ?state, hend.stalled.trans hstalled⟩, hend.mem, ?host⟩
  case count => rw [hend.step.rd_dma hc hkept.1 hkept.2.1 hkept.2.2, hcount]
  case state =>
    exact congrArg (fld · 0 4) ((hend.step.rd_dma hc (by decide) (by decide) (by decide)).trans
      (hstep.rd_dma hc (by decide) (by decide) (by decide)))
  case host =>
    rw [hend.host, hstep.cplSlot_eq hc (by decide) (by decide), hstep.dmaRecord_eq hc (by decide)]

/-! ### Until the bytes are counted -/

theorem pgDma_lt (hc : c < 32) : pgDma c < 640 := by simp only [pgDma]; omega

theorem Taken.passed (h : Taken c w s t) (k : Passed t u) : Taken c w s u where
  lt := h.lt
  step := h.step.trans (.of_passed k)
  head := (congrArg (fld · 0 32) (k.regs _ _ (pgDma_lt h.lt) (by decide)
    (not_evtReg_of_page (pgDma_ne_pgEvr c) (by decide)))).trans h.head
  plain := h.plain.of_chans k.chans
  record := k.chans.symm ▸ h.record
  stalled := k.stalled.trans h.stalled

/-- The endpoint counts bytes that it sends or receives. -/
theorem Taken.endpoint (h : Taken c w s t) {off : Nat} (n : Nat) (hoff : off = Reg.RX_BYTES ∨ off = Reg.TX_BYTES) :
    Taken c w s (addReg t pgPcie off n) := by
  have hkept : off < 0x10000 ∧ off ∈ takeOffsets := by rcases hoff with rfl | rfl <;> decide
  exact { h with
    step := h.step.trans (addReg_chanStep h.step.canonical n (.inl rfl) hkept.1 hkept.2)
    head := (congrArg (fld · 0 32) (rd_wr_other h.step.canonical _ hkept.1 (by decide) fun e =>
      (pgPcie_ne_pgDma c).symm e.1)).trans h.head
    plain := h.plain.of_chans rfl }

theorem Taken.writeHost (h : Taken c w s t) (a : Nat) (b : Bytes) : Taken c w s (writeHost t a b) :=
  { h with
    step := h.step.trans (writeHost_chanStep h.step.canonical a b)
    plain := h.plain.of_chans rfl }

/-- What a channel holds of a descriptor's data does not matter here. -/
theorem Taken.setChan (h : Taken c w s t) {ch : Chan} (hcur : ch.cur = (chanOf t c).cur) (hbound : ch.bound = (chanOf t c).bound)
    (hdigest : ch.digest = (chanOf t c).digest) : Taken c w s (setChan t c ch) := by
  exact { h with
    step := h.step.trans (setChan_chanStep h.step.canonical ch)
    plain := h.plain.setChan h.record hcur hbound hdigest
    record := (List.length_set ..).symm ▸ h.record }

theorem descTaken_taken (h : s.canonical) (hrec : c < s.chans.length) (hc : c < 32) (hctx : mCtx w = none) (hhash : mHash w = false)
    (hstalled : s.stalled = none) : Taken c w s (descTaken s c (dmaHead s c) w) where
  step := (descTaken_chanStep h _ w).mono (by decide)
  lt := hc
  head := dmaHead_descTaken h _ w
  plain := descTaken_plain hrec _ hctx hhash
  record := (List.length_set ..).symm ▸ hrec
  stalled := hstalled

/-- The bytes are counted on the channel's page. -/
theorem Taken.counted (h : Taken c w s t) (hbytes : bytes = Reg.H2D_BYTES ∨ bytes = Reg.D2H_BYTES) (n : Nat) :
    Moved c w bytes n s (addReg t (pgDma c) bytes n) := by
  have hoff : bytes < 0x10000 ∧ bytes ≠ Reg.EVT_STAT ∧ bytes ≠ Reg.DMA_HEAD ∧ bytes ∉ takeOffsets ∧ bytes ∈ moveOffsets := by
    rcases hbytes with rfl | rfl <;> decide
  obtain ⟨hlt, hevt, hhead, hnot, hin⟩ := hoff
  exact { h with
    step := (h.step.mono (by decide)).trans (addReg_chanStep h.step.canonical n (.inr rfl) hlt hin)
    head := (congrArg (fld · 0 32) (rd_wr_other h.step.canonical _ hlt (by decide) fun e => hhead e.2.symm)).trans h.head
    plain := h.plain.of_chans rfl
    count := (rd_wr_same h.step.canonical _ _ _).trans (by rw [h.step.rd_dma h.lt hlt hevt hnot]) }

theorem Moved.setChan (h : Moved c w bytes n s t) {ch : Chan} (hcur : ch.cur = (chanOf t c).cur)
    (hbound : ch.bound = (chanOf t c).bound) (hdigest : ch.digest = (chanOf t c).digest) :
    Moved c w bytes n s (setChan t c ch) := by
  exact { h with
    step := h.step.trans (setChan_chanStep h.step.canonical ch)
    plain := h.plain.setChan h.record hcur hbound hdigest
    record := (List.length_set ..).symm ▸ h.record }

end Moves

end Sys2Proof.Machine
end

section
/-!
SUPPORT. The three operations of a DMA descriptor of one burst of F0 (R355, R363): what each leaves in memory.
-/

namespace Sys2Proof.Machine

open Sys2Proof

theorem slice_all (b : Bytes) : slice b 0 b.length = b := by
  simp [slice, zeroBytes]

theorem length_readHost (s : State) (a n : Nat) : (readHost s a n).length = n := by
  simp [readHost, sparseRun]

theorem burstLen_one {w : List Word} (h : mBytes w ≤ 4096 - mDev w % 4096) : burstLen w 0 = mBytes w := by
  simpa [burstLen] using h

section Operations

variable {s t : State} {c n : Nat} {w : List Word}

/-- The address of a burst of F0 lies as deep in its page as DEV_ADDR. -/
theorem physical_page {b dev : Nat} (h : b ≤ 4096 - dev % 4096) : b ≤ 4096 - dev % 2 ^ 46 % 4096 := by
  omega

theorem Moved.cvuFor_eq {bytes : Nat} (h : Moved c w bytes n s t) : cvuFor t c 0 = cvuFor s c 0 := h.step.cvuFor_eq 0

theorem burstCvu_none {f : Nat} (h : cvuFor s c f = none) (w : List Word) (b : Bytes) : burstCvu s c f w b = s := by
  simp only [burstCvu, h]

/-- A burst of a write to device memory by F0 that meets no error (R353). -/
theorem dmaWrite_good (h : Taken c w s t) (hgate : t.gate = some []) {b : Bytes} (hwritable : Writable t (mDev w % 2 ^ 46) b.length)
    (hpage : b.length ≤ 4096 - mDev w % 4096) (hint : Nat) :
    ∃ u, dmaWrite t c 0 (mDev w) hint b = (.ok (), u) ∧ Taken c w s u ∧ u.mem = (writeBytes t (mDev w % 2 ^ 46) b).mem ∧
      u.hostMem = t.hostMem := by
  obtain ⟨u, hwrite, hpassed, hmem⟩ := devWrite_good h.step.canonical 16 (chanReq c) hgate hwritable (physical_page hpage)
  exact ⟨u, by simp only [dmaWrite, if_true, hwrite], h.passed hpassed, hmem, hpassed.hostMem⟩

/-- A burst of a read of device memory by F0 that meets no error (R353). -/
theorem dmaRead_good (h : Taken c w s t) (hgate : t.gate = some []) {n : Nat} (hclean : Clean t (mDev w % 2 ^ 46) n) :
    ∃ u, dmaRead t c 0 (mDev w) n = (.ok (readBytes t (mDev w % 2 ^ 46) n), u) ∧ Taken c w s u ∧ u.mem = t.mem ∧
      u.hostMem = t.hostMem := by
  obtain ⟨u, hread, hserved⟩ := devRead_good h.step.canonical 16 (chanReq c) hgate hclean
  exact ⟨u, by simp only [dmaRead, if_true, hread], h.passed hserved.passed, hserved.mem, hserved.hostMem⟩

/-- The data of an H2D descriptor of one burst, on its way to device memory. -/
def textTaken (t : State) (c : Nat) (w : List Word) : State :=
  setChan (addReg t pgPcie Reg.RX_BYTES (mLen w)) c { chanOf t c with text := readHost t (mHost w) (mLen w) }

/-- The only burst of an H2D descriptor writes the host's data to device memory. -/
theorem h2dBursts_one (h : Taken c w s t) (hmoved : (chanOf t c).moved = 0) (hempty : (chanOf t c).text = [])
    (hgate : t.gate = some []) (hcvu : cvuFor s c 0 = none) (hlen : 0 < mLen w) (hburst : burstLen w 0 = mLen w)
    (hpage : mLen w ≤ 4096 - mDev w % 4096) (hwritable : Writable t (mDev w % 2 ^ 46) (mLen w)) (n : Nat) :
    ∃ u, h2dBursts (n + 2) t c 0 (dmaHead s c) w = (true, u) ∧ Moved c w Reg.H2D_BYTES (mLen w) s u ∧
      u.mem = (writeBytes t (mDev w % 2 ^ 46) (readHost t (mHost w) (mLen w))).mem ∧ u.hostMem = t.hostMem := by
  have htext : (readHost t (mHost w) (mLen w)).length = mLen w := length_readHost _ _ _
  have hbefore : Taken c w s (textTaken t c w) := (h.endpoint (mLen w) (.inl rfl)).setChan rfl rfl rfl
  obtain ⟨u, hwrite, htaken, hmem, hhost⟩ := dmaWrite_good hbefore hgate (b := readHost t (mHost w) (mLen w))
    (by rw [htext]; exact hwritable) (by rw [htext]; exact hpage) (mHint w)
  have hcounted := htaken.counted (.inl rfl) (mLen w)
  refine ⟨_, ?_, hcounted.setChan (ch := { chanOf (addReg u (pgDma c) Reg.H2D_BYTES (mLen w)) c with moved := mLen w }) rfl rfl rfl,
    hmem, hhost⟩
  have hnot : ¬ mLen w ≤ 0 := Nat.not_le.2 hlen
  have hslice : slice (readHost t (mHost w) (mLen w)) 0 (mLen w) = readHost t (mHost w) (mLen w) := by
    have hall := slice_all (readHost t (mHost w) (mLen w))
    rwa [htext] at hall
  have hlast : mLen w ≤ (chanOf (setChan (addReg u (pgDma c) Reg.H2D_BYTES (mLen w)) c
      { chanOf (addReg u (pgDma c) Reg.H2D_BYTES (mLen w)) c with moved := mLen w }) c).moved := by
    rw [chanOf_setChan hcounted.record]
  simp only [textTaken, hmoved, h.plain.bound] at hwrite
  simp only [h2dBursts, hmoved, hempty, hburst, hnot, if_false, List.length_nil, Nat.zero_add, Nat.sub_zero, Nat.add_zero,
    List.nil_append, plainOf, h.plain.bound, hslice, hwrite, burstCvu_none (hcounted.cvuFor_eq.trans hcvu), hlast, if_true]

/-- The data of a D2H descriptor of one burst has been written to host memory. -/
def textGiven (t : State) (c : Nat) (w : List Word) (b : Bytes) : State :=
  addReg (addReg (writeHost t (mHost w) b) pgPcie Reg.TX_BYTES (mLen w)) (pgDma c) Reg.D2H_BYTES (mLen w)

/-- The only burst of a D2H descriptor writes bytes of device memory to the host's. -/
theorem d2hBursts_one (h : Taken c w s t) (hmoved : (chanOf t c).moved = 0) (hgate : t.gate = some [])
    (hcvu : cvuFor s c 0 = none) (hlen : 0 < mLen w) (hburst : burstLen w 0 = mLen w)
    (hclean : Clean t (mDev w % 2 ^ 46) (mLen w)) (n : Nat) :
    ∃ u, d2hBursts (n + 2) t c 0 (dmaHead s c) w = (true, u) ∧ Moved c w Reg.D2H_BYTES (mLen w) s u ∧
      u.mem = t.mem ∧ u.hostMem = (writeHost t (mHost w) (readBytes t (mDev w % 2 ^ 46) (mLen w))).hostMem := by
  obtain ⟨u, hread, htaken, hmem, hhost⟩ := dmaRead_good h hgate hclean
  have hcounted : Moved c w Reg.D2H_BYTES (mLen w) s (textGiven u c w (readBytes t (mDev w % 2 ^ 46) (mLen w))) :=
    ((htaken.writeHost (mHost w) _).endpoint (mLen w) (.inr rfl)).counted (.inr rfl) (mLen w)
  have hsent : (textGiven u c w (readBytes t (mDev w % 2 ^ 46) (mLen w))).hostMem =
      (writeHost t (mHost w) (readBytes t (mDev w % 2 ^ 46) (mLen w))).hostMem :=
    congrArg (sparsePut memZero · (mHost w) (readBytes t (mDev w % 2 ^ 46) (mLen w))) hhost
  refine ⟨_, ?_, hcounted.setChan
    (ch := { chanOf (textGiven u c w (readBytes t (mDev w % 2 ^ 46) (mLen w))) c with moved := mLen w }) rfl rfl rfl, hmem, hsent⟩
  have hnot : ¬ mLen w ≤ 0 := Nat.not_le.2 hlen
  have hlast : mLen w ≤ (chanOf (setChan (textGiven u c w (readBytes t (mDev w % 2 ^ 46) (mLen w))) c
      { chanOf (textGiven u c w (readBytes t (mDev w % 2 ^ 46) (mLen w))) c with moved := mLen w }) c).moved := by
    rw [chanOf_setChan hcounted.record]
  have hnone := burstCvu_none (hcounted.cvuFor_eq.trans hcvu) w (readBytes t (mDev w % 2 ^ 46) (mLen w))
  simp only [textGiven] at hnone hlast
  simp only [d2hBursts, hmoved, hburst, hnot, if_false, Nat.zero_add, Nat.add_zero, hread, hnone, hlast, if_true, textGiven]

/-! ### From the descriptor taken to its end -/

theorem Moved.h2dFinish_eq (h : Moved c w Reg.H2D_BYTES (mLen w) s t) (hcvu : cvuFor s c 0 = none) :
    h2dFinish t c 0 w = dmaEnd t c 0 0 0 (mLen w) 0 (plainOf t 0 (chanOf t c) w (chanOf t c).text) := by
  simp only [h2dFinish, h.plain.bound, h.cvuFor_eq.trans hcvu]

theorem Moved.d2hFinish_eq (h : Moved c w Reg.D2H_BYTES (mLen w) s t) (hcvu : cvuFor s c 0 = none) :
    d2hFinish t c 0 w = dmaEnd t c 0 0 0 (mLen w) 0 [] := by
  simp only [d2hFinish, h.cvuFor_eq.trans hcvu]

/-- A channel of F0 may start the descriptor at HEAD, a plain one of one burst, whose access meets no error and has not to
wait. -/
structure Ready (c : Nat) (s : State) : Prop where
  canonical : s.canonical
  lt : c < 32
  record : c < s.chans.length
  fn : chanFn s c = some 0
  chan : chanOf s c = chanReset
  go : chanGo s c = true
  check : dmaCheck chanReset 0 (dmaFetch s c) = 0
  ctx : mCtx (dmaFetch s c) = none
  hash : mHash (dmaFetch s c) = false
  phys : physStatus s (mDev (dmaFetch s c) % 2 ^ 46) (mBytes (dmaFetch s c)) = 0
  cvu : cvuFor s c 0 = none
  clean : Clean s (mDev (dmaFetch s c) % 2 ^ 46) (mBytes (dmaFetch s c))
  writable : Writable s (mDev (dmaFetch s c) % 2 ^ 46) (mBytes (dmaFetch s c))
  unheld : holdsOn s = []
  page : mBytes (dmaFetch s c) ≤ 4096 - mDev (dmaFetch s c) % 4096

/-- The state in which the channel works on the descriptor. -/
abbrev atWork (s : State) (c : Nat) : State := descTaken (begun s) c (dmaHead s c) (dmaFetch s c)

theorem Ready.cvu_begun (h : Ready c s) : cvuFor (begun s) c 0 = none :=
  ((ChanStep.of_regs (l := []) (t := begun s) h.canonical rfl).cvuFor_eq 0).trans h.cvu

theorem Ready.taken (h : Ready c s) : Taken c (dmaFetch s c) (begun s) (atWork s c) :=
  descTaken_taken (s := begun s) h.canonical h.record h.lt h.ctx h.hash rfl

theorem Ready.chan_atWork (h : Ready c s) : chanOf (atWork s c) c = { chanReset with cur := some (dmaHead s c, dmaFetch s c) } :=
  chanOf_descTaken (s := begun s) h.record _ _

theorem Ready.writable_atWork (h : Ready c s) :
    Writable (atWork s c) (mDev (dmaFetch s c) % 2 ^ 46) (mBytes (dmaFetch s c)) := Writable.congr h.writable rfl

theorem Ready.clean_atWork (h : Ready c s) : Clean (atWork s c) (mDev (dmaFetch s c) % 2 ^ 46) (mBytes (dmaFetch s c)) :=
  Clean.congr h.clean rfl

theorem Ready.gate_atWork (h : Ready c s) : (atWork s c).gate = some [] := congrArg some h.unheld

theorem Ready.phys_begun (h : Ready c s) :
    physStatus (begun s) (mDev (dmaFetch s c) % 2 ^ 46) (mBytes (dmaFetch s c)) = 0 :=
  (physStatus_congr (s := s) (t := begun s) (fun _ _ => ⟨rfl, rfl⟩) _ _).trans h.phys

theorem Ready.take_begun (h : Ready c s) : dmaTake (begun s) c 0 (dmaFetch s c) = (true, atWork s c) :=
  dmaTake_good (s := begun s) h.canonical h.chan h.check h.ctx h.hash h.phys_begun h.cvu_begun

/-- A channel that has no descriptor in progress takes the one at HEAD and moves it. -/
theorem dmaRun_head {op : Nat} {burst : List Word → Nat} (hcur : (chanOf (begun s) c).cur = none)
    (hfn : chanFn (begun s) c = some 0) (hgo : chanGo (begun s) c = true) (hop : opIs (dmaFetch (begun s) c) op = true)
    (htake : dmaTake (begun s) c 0 (dmaFetch (begun s) c) = (true, t))
    (hstalled : (dmaMove t c 0 (burst (dmaFetch (begun s) c))).stalled = none) :
    dmaRun s c op burst = { dmaMove t c 0 (burst (dmaFetch (begun s) c)) with gate := none } := by
  simp only [dmaRun, gated, hcur, hfn, hgo, hop, htake, hstalled, if_true]

/-- A run of the channel ends the descriptor at HEAD where its bytes move. -/
theorem Ready.run (h : Ready c s) {op bytes k : Nat} {burst : List Word → Nat} {u : State} {plain : Bytes}
    (hop : mOp (dmaFetch s c) = op) (hmoved : Moved c (dmaFetch s c) bytes k (begun s) u)
    (hbytes : bytes = Reg.H2D_BYTES ∨ bytes = Reg.D2H_BYTES)
    (hmove : dmaMove (atWork s c) c 0 (burst (dmaFetch s c)) = dmaEnd u c 0 0 0 k 0 plain) :
    Completed c bytes k s (dmaRun s c op burst) ∧ (dmaRun s c op burst).mem = u.mem ∧
    (dmaRun s c op burst).hostMem = (writeHost u (cplSlot s c (dmaHead s c))
      ((dmaRecord s c (dmaHead s c) (dmaFetch s c) 0 0 0 k).flatMap wordBytes)).hostMem := by
  have hcan : (begun s).canonical := h.canonical
  have hfn : chanFn (begun s) c = some 0 := h.fn
  have hcvu : cvuFor (begun s) c 0 = none := h.cvu_begun
  obtain ⟨hend, hmem, hhost⟩ := hmoved.ends h.lt hfn hcvu hbytes plain
  have hcur : (chanOf (begun s) c).cur = none := congrArg Chan.cur h.chan
  have hopIs : opIs (dmaFetch s c) op = true := by simp only [opIs, hop, decide_true, Bool.true_or]
  have hrun : dmaRun s c op burst = { dmaEnd u c 0 0 0 k 0 plain with gate := none } := by
    rw [dmaRun_head hcur hfn h.go hopIs h.take_begun (by rw [← hend.stalled, ← hmove]; rfl), ← hmove]
    rfl
  rw [hrun]
  exact ⟨⟨hend.head, hend.done, hend.chan, hend.count, hend.state, hend.stalled⟩, hmem, hhost⟩

end Operations

end Sys2Proof.Machine
end

section
/-!
SUPPORT. H2D, D2H and IMM of a descriptor of one burst, from the command to its end (R353 to R356, R363).
-/

namespace Sys2Proof.Machine

open Sys2Proof

section Commands

variable {s : State} {c : Nat}

theorem mBytes_of_op {w : List Word} (hop : mOp w ≠ 3) : mBytes w = mLen w := if_neg hop

/-- A byte of memory after a write of `b`. -/
theorem readMem_written {t : State} (h : s.canonical) {a : Nat} {b : Bytes} (hmem : t.mem = (writeBytes s a b).mem) (x : Nat) :
    readMem t x = if a ≤ x ∧ x < a + b.length then b.getD (x - a) 0 else readMem s x := by
  have hread : readMem t x = readMem (writeBytes s a b) x := congrArg (sparseGet memZero · x) hmem
  rw [hread, readMem_writeBytes h]
  split
  · next hin => rw [List.getD_eq_getElem _ _ (by omega)]
  · rfl

theorem writeHost_hostMem_congr {t : State} (h : t.hostMem = s.hostMem) (a : Nat) (b : Bytes) :
    (writeHost t a b).hostMem = (writeHost s a b).hostMem := congrArg (sparsePut memZero · a b) h

theorem writeBytes_mem_congr {t : State} (h : t.mem = s.mem) (a : Nat) (b : Bytes) :
    (writeBytes t a b).mem = (writeBytes s a b).mem := congrArg (sparsePut memZero · a b) h

theorem readHost_atWork (s : State) (c a n : Nat) : readHost (atWork s c) a n = readHost s a n := rfl

theorem readBytes_atWork (s : State) (c a n : Nat) : readBytes (atWork s c) a n = readBytes s a n := rfl

theorem atWork_mem (s : State) (c : Nat) : (atWork s c).mem = s.mem := rfl

theorem atWork_hostMem (s : State) (c : Nat) : (atWork s c).hostMem = s.hostMem := rfl

theorem Ready.h2d (h : Ready c s) (hop : mOp (dmaFetch s c) = 1) :
    Completed c Reg.H2D_BYTES (mLen (dmaFetch s c)) s (dmaRun s c 1 burstMax) ∧
    (dmaRun s c 1 burstMax).mem = (writeBytes s (mDev (dmaFetch s c) % 2 ^ 46)
      (readHost s (mHost (dmaFetch s c)) (mLen (dmaFetch s c)))).mem ∧
    (dmaRun s c 1 burstMax).hostMem = (writeHost s (cplSlot s c (dmaHead s c))
      ((dmaRecord s c (dmaHead s c) (dmaFetch s c) 0 0 0 (mLen (dmaFetch s c))).flatMap wordBytes)).hostMem := by
  have hbytes := mBytes_of_op (w := dmaFetch s c) (by omega)
  have hlen := mLen_of_check h.check (by omega)
  have hwritable := h.writable_atWork
  have hpage := h.page
  have hburst := burstLen_one h.page
  rw [hbytes] at hwritable hpage hburst
  obtain ⟨u, hbursts, hmoved, hmem, hhost⟩ := h2dBursts_one h.taken (congrArg Chan.moved h.chan_atWork)
    (congrArg Chan.text h.chan_atWork) h.gate_atWork h.cvu_begun (by omega) hburst hpage hwritable
    (mLen (dmaFetch s c) / 4096)
  have hcur : (chanOf (atWork s c) c).cur = some (dmaHead s c, dmaFetch s c) := congrArg Chan.cur h.chan_atWork
  change h2dBursts _ _ c 0 (dmaHead s c) _ = _ at hbursts
  have hmove : dmaMove (atWork s c) c 0 (burstMax (dmaFetch s c)) = h2dFinish u c 0 (dmaFetch s c) := by
    simp only [dmaMove, hcur, hop, burstMax, hbursts, if_true]
  obtain ⟨hend, hmem', hhost'⟩ := h.run hop hmoved (.inl rfl) (hmove.trans (hmoved.h2dFinish_eq h.cvu_begun))
  rw [readHost_atWork] at hmem
  exact ⟨hend, hmem'.trans (hmem.trans (writeBytes_mem_congr (atWork_mem s c) _ _)),
    hhost'.trans (writeHost_hostMem_congr (hhost.trans (atWork_hostMem s c)) _ _)⟩

theorem Ready.d2h (h : Ready c s) (hop : mOp (dmaFetch s c) = 2) :
    Completed c Reg.D2H_BYTES (mLen (dmaFetch s c)) s (dmaRun s c 2 burstMax) ∧ (dmaRun s c 2 burstMax).mem = s.mem ∧
    (dmaRun s c 2 burstMax).hostMem = (writeHost (writeHost s (mHost (dmaFetch s c))
      (readBytes s (mDev (dmaFetch s c) % 2 ^ 46) (mLen (dmaFetch s c)))) (cplSlot s c (dmaHead s c))
      ((dmaRecord s c (dmaHead s c) (dmaFetch s c) 0 0 0 (mLen (dmaFetch s c))).flatMap wordBytes)).hostMem := by
  have hbytes := mBytes_of_op (w := dmaFetch s c) (by omega)
  have hlen := mLen_of_check h.check (by omega)
  have hclean := h.clean_atWork
  have hburst := burstLen_one h.page
  rw [hbytes] at hclean hburst
  obtain ⟨u, hbursts, hmoved, hmem, hhost⟩ := d2hBursts_one h.taken (congrArg Chan.moved h.chan_atWork) h.gate_atWork
    h.cvu_begun (by omega) hburst hclean (mLen (dmaFetch s c) / 4096)
  have hcur : (chanOf (atWork s c) c).cur = some (dmaHead s c, dmaFetch s c) := congrArg Chan.cur h.chan_atWork
  change d2hBursts _ _ c 0 (dmaHead s c) _ = _ at hbursts
  have hmove : dmaMove (atWork s c) c 0 (burstMax (dmaFetch s c)) = d2hFinish u c 0 (dmaFetch s c) := by
    simp only [dmaMove, hcur, hop, burstMax, hbursts, OfNat.ofNat_ne_one, if_true, if_false]
  obtain ⟨hend, hmem', hhost'⟩ := h.run hop hmoved (.inr rfl) (hmove.trans (hmoved.d2hFinish_eq h.cvu_begun))
  rw [readBytes_atWork] at hhost
  exact ⟨hend, hmem'.trans (hmem.trans (atWork_mem s c)), hhost'.trans (writeHost_hostMem_congr
    (hhost.trans (writeHost_hostMem_congr (atWork_hostMem s c) _ _)) _ _)⟩

theorem Ready.imm (h : Ready c s) (hop : mOp (dmaFetch s c) = 3) :
    Completed c Reg.H2D_BYTES 8 s (dmaRun s c 3 burstMax) ∧
    (dmaRun s c 3 burstMax).mem = (writeBytes s (mDev (dmaFetch s c) % 2 ^ 46) (wordBytes (dw (dmaFetch s c) 6))).mem ∧
    (dmaRun s c 3 burstMax).hostMem = (writeHost s (cplSlot s c (dmaHead s c))
      ((dmaRecord s c (dmaHead s c) (dmaFetch s c) 0 0 0 8).flatMap wordBytes)).hostMem := by
  have hbytes : mBytes (dmaFetch s c) = (wordBytes (dw (dmaFetch s c) 6)).length := (if_pos hop).trans (length_natBytes _ 8).symm
  have hwritable := h.writable_atWork
  have hpage := h.page
  rw [hbytes] at hwritable hpage
  obtain ⟨u, hwrite, htaken, hmem, hhost⟩ := dmaWrite_good h.taken h.gate_atWork hwritable hpage (mHint (dmaFetch s c))
  have hcur : (chanOf (atWork s c) c).cur = some (dmaHead s c, dmaFetch s c) := congrArg Chan.cur h.chan_atWork
  have hmove : dmaMove (atWork s c) c 0 (burstMax (dmaFetch s c)) =
      dmaEnd (addReg u (pgDma c) Reg.H2D_BYTES 8) c 0 0 0 8 0 [] := by
    simp only [dmaMove, hcur, hop, hwrite, OfNat.ofNat_ne_one, Nat.reduceEqDiff, if_false]
  obtain ⟨hend, hmem', hhost'⟩ := h.run hop (htaken.counted (.inl rfl) 8) (.inl rfl) hmove
  exact ⟨hend, hmem'.trans (hmem.trans (writeBytes_mem_congr (atWork_mem s c) _ _)),
    hhost'.trans (writeHost_hostMem_congr (hhost.trans (atWork_hostMem s c)) _ _)⟩

/-! ### What the host has written first -/

/-- The host's writes touch its memory alone. -/
theorem hostWrites_eq (s : State) (l : List (Nat × Byte)) : ∃ m, hostWrites s l = { s with hostMem := m } := by
  refine List.foldlRecOn (motive := fun t : State => ∃ m, t = { s with hostMem := m }) l _ ⟨s.hostMem, rfl⟩ fun t ht e _ => ?_
  obtain ⟨m, rfl⟩ := ht
  exact ⟨_, rfl⟩

end Commands

end Sys2Proof.Machine
end

section
/-!
The DMA channels (R118, R352 to R356, R363, R365, R367).
-/

namespace Sys2Proof.Machine

open Sys2Proof

section

variable {s : State} {c : Nat} {host : List (Nat × Byte)}

/-- What a channel answers by is not in host memory, but for the descriptor. -/
theorem ready_hostWrites (h : s.canonical) (hc : c < 32) (hchans : s.chans.length = 32) (hfn : chanFn s c = some 0)
    (hchan : chanOf s c = chanReset) (hgo : chanGo (hostWrites s host) c = true)
    (hcheck : dmaCheck chanReset 0 (dmaFetch (hostWrites s host) c) = 0) (hctx : mCtx (dmaFetch (hostWrites s host) c) = none)
    (hhash : mHash (dmaFetch (hostWrites s host) c) = false)
    (hphys : physStatus s (mDev (dmaFetch (hostWrites s host) c) % 2 ^ 46) (mBytes (dmaFetch (hostWrites s host) c)) = 0)
    (hcvu : cvuFor s c 0 = none)
    (hclean : Clean s (mDev (dmaFetch (hostWrites s host) c) % 2 ^ 46) (mBytes (dmaFetch (hostWrites s host) c)))
    (hwritable : Writable s (mDev (dmaFetch (hostWrites s host) c) % 2 ^ 46) (mBytes (dmaFetch (hostWrites s host) c)))
    (hunheld : holdsOn s = [])
    (hpage : mBytes (dmaFetch (hostWrites s host) c) ≤ 4096 - mDev (dmaFetch (hostWrites s host) c) % 4096) :
    Ready c (hostWrites s host) := by
  have hcanonical : (hostWrites s host).canonical := (hostWrites_kept h.kept).1
  obtain ⟨m, hm⟩ := hostWrites_eq s host
  generalize hostWrites s host = t at *
  subst hm
  exact {
    canonical := hcanonical, lt := hc, record := hchans ▸ hc, fn := hfn, chan := hchan, go := hgo, check := hcheck, ctx := hctx
    hash := hhash
    phys := (physStatus_congr (s := s) (t := { s with hostMem := m }) (fun _ _ => ⟨rfl, rfl⟩) _ _).trans hphys
    cvu := ((ChanStep.of_regs (l := []) (s := s) (t := { s with hostMem := m }) hcanonical rfl).cvuFor_eq 0).trans hcvu
    clean := Clean.congr (t := { s with hostMem := m }) hclean rfl
    writable := Writable.congr (t := { s with hostMem := m }) hwritable rfl
    unheld := hunheld
    page := hpage }

theorem cplSlot_hostWrites (s : State) (host : List (Nat × Byte)) (c seq : Nat) :
    cplSlot (hostWrites s host) c seq = cplSlot s c seq := by
  obtain ⟨m, hm⟩ := hostWrites_eq s host
  rw [hm]
  rfl

theorem dmaRecord_hostWrites (s : State) (host : List (Nat × Byte)) (c seq : Nat) (w : List Word) (status detail page bytes : Nat) :
    dmaRecord (hostWrites s host) c seq w status detail page bytes = dmaRecord s c seq w status detail page bytes := by
  obtain ⟨m, hm⟩ := hostWrites_eq s host
  rw [hm]
  rfl

theorem rd_hostWrites (s : State) (host : List (Nat × Byte)) (p off : Nat) : rd (hostWrites s host) p off = rd s p off := by
  obtain ⟨m, hm⟩ := hostWrites_eq s host
  rw [hm]
  rfl

/-- What a completed descriptor leaves, told of the state before the host's writes. -/
theorem Completed.of_hostWrites {bytes n : Nat} {t : State} (h : Completed c bytes n (hostWrites s host) t) :
    dmaHead t c = (dmaHead (hostWrites s host) c + 1) % 2 ^ 32 ∧ dmaDone t c = (dmaHead (hostWrites s host) c + 1) % 2 ^ 32 ∧
    chanOf t c = chanReset ∧ rd t (pgDma c) bytes = rd s (pgDma c) bytes + w64 n ∧
    pageState t (pgDma c) = pageState s (pgDma c) :=
  ⟨h.head, h.done, h.chan, by rw [h.count, rd_hostWrites],
    h.state.trans (congrArg (fld · 0 4) (rd_hostWrites s host (pgDma c) Reg.PAGE_STAT))⟩

theorem hostWrites_mem (s : State) (host : List (Nat × Byte)) : (hostWrites s host).mem = s.mem := by
  obtain ⟨m, hm⟩ := hostWrites_eq s host
  rw [hm]

theorem readBytes_hostWrites (s : State) (host : List (Nat × Byte)) (a n : Nat) :
    readBytes (hostWrites s host) a n = readBytes s a n := by
  rw [readBytes, hostWrites_mem, ← readBytes]

theorem readMem_hostWrites (s : State) (host : List (Nat × Byte)) (x : Nat) : readMem (hostWrites s host) x = readMem s x := by
  obtain ⟨m, hm⟩ := hostWrites_eq s host
  rw [hm]
  rfl

end

/-- Settles O45: a plain descriptor of one burst on a channel of F0 is taken, moved and ended, its access meeting no error; a
failed request ends it with a status that halts the channel; the registers of the channels take what software writes. -/
theorem dmaMovesBytesAndItsChannelsFail : Obligations.DmaMovesBytesAndItsChannelsFail := by
  unfold Obligations.DmaMovesBytesAndItsChannelsFail
  refine ⟨fun c host s h hc hchans => ?moves, fun fn c f tail v s h hc hchans => ?_⟩
  case moves =>
    intro s0 w dev seq cpl record hfn hchan hgo hcheck hctx hhash hphys hcvu hclean hwritable hunheld hpage done
    have hready : Ready c s0 :=
      ready_hostWrites h hc hchans hfn hchan hgo hcheck hctx hhash hphys hcvu hclean hwritable hunheld hpage
    refine ⟨fun hop => ?h2d, fun hop => ?d2h, fun hop => ?imm⟩
    case h2d =>
      obtain ⟨hend, hmem, hhost⟩ := hready.h2d hop
      rw [cplSlot_hostWrites, dmaRecord_hostWrites] at hhost
      refine completes_of_next rfl rfl ⟨fun x => ?_, hhost, hend.of_hostWrites⟩
      rw [readMem_written hready.canonical hmem, length_readHost, readMem_hostWrites]
    case d2h =>
      obtain ⟨hend, hmem, hhost⟩ := hready.d2h hop
      rw [cplSlot_hostWrites, dmaRecord_hostWrites, readBytes_hostWrites] at hhost
      exact completes_of_next rfl rfl ⟨hmem.trans (hostWrites_mem s host), hhost, hend.of_hostWrites⟩
    case imm =>
      obtain ⟨hend, hmem, hhost⟩ := hready.imm hop
      rw [cplSlot_hostWrites, dmaRecord_hostWrites] at hhost
      refine completes_of_next rfl rfl ⟨fun x => ?_, hhost, hend.of_hostWrites⟩
      rw [readMem_written hready.canonical hmem, readMem_hostWrites, wordBytes, length_natBytes]
  intro p w failed data
  refine ⟨fun hfn hchan hgo hdata => ?fails, malformed_counts h c, rfl, ?assign, ?tail, ?strict⟩
  case fails =>
    have hfail : AboutToFail s c f := ⟨hchans ▸ hc, hfn, hchan, hgo, hdata⟩
    have hfailed : ∀ {t}, HaltedAtHead c s t → failed t := fun ht => ⟨ht.state, ht.head, ht.done, ht.event, ht.mem⟩
    obtain ⟨hrefused, hur⟩ := hfail.refused h
    obtain ⟨tp, hpexec, hpoisoned, hpcount⟩ := hfail.poisoned h
    obtain ⟨tt, htexec, htimedOut, htcount⟩ := hfail.timedOut h
    exact ⟨completes_of_next rfl rfl ⟨hfailed hrefused, hur⟩, completes_of_next rfl rfl ⟨hfailed hrefused, hur⟩,
      ⟨tp, hpexec, hfailed hpoisoned, hpcount⟩, ⟨tt, htexec, hfailed htimedOut, htcount⟩⟩
  case assign =>
    intro hw ha hoff hfree hvalid hf hmax hopen
    exact dmaAssign_assigns h hw ha hc (hchans ▸ hc) hoff hfree hvalid hf hmax hopen
  case tail =>
    intro hw hstate hnew hroom
    exact dmaTail_taken h hw hc hstate hnew hroom
  case strict =>
    intro hw ha hok
    exact dmaCtlStrict_sets h hw ha hok

end Sys2Proof.Machine
end

section
/-!
SUPPORT. How the reads and writes of a sweep engine go on when nothing stops them, each in the words of `Safety` (R139, R141,
R144, R146, R159, R160, R163, R178, R282).
-/

namespace Sys2Proof.Machine

open Sys2Proof

section Sweep

variable {s s' u : State} {w : Work}

theorem putHinted_written {hint : Nat} {t : Tile} {rows : List Bytes} {k : State → State}
    (h : writeTile s w.part w.unit hint t rows = (.ok (), s')) (hk : k s' = u) : putHinted s w hint t rows k = u := by
  simp only [putHinted, h, hk]

theorem putRuns_written {hint : Nat} {l : List (Tile × Bytes)} {k : State → State} (h : RunsWritten w hint l s s')
    (hk : k s' = u) : putRuns s w hint l k = u := by
  induction l generalizing s with
  | nil => subst h; exact hk
  | cons e l ih =>
    obtain ⟨s1, hrun, hrest⟩ := h
    exact putHinted_written hrun (ih hrest)

theorem withKvTile_read {t : Tile} {b : Bytes} {k : State → Bytes → State} (h : KvRead s w t b s') (hk : k s' b = u) :
    withKvTile s w t k = u := by
  obtain ⟨rows, s1, hrows, rfl, rfl⟩ := h
  exact withTile_read hrows hk

/-- A command whose check holds goes on past it. -/
theorem unless_checked {α : Type} {b : Bool} (h : b = true) {x y : α} : (if !b then x else y) = y := by rw [h]; rfl

/-! ### A cache list (R139, R178; log entry 64) -/

theorem listTiles_zero (va : Nat) : listTiles va 0 = [] := rfl

/-- The tiles of a list are its first and those of the bytes after it. -/
theorem listTiles_cons (va : Nat) {n : Nat} (h : n ≠ 0) :
    listTiles va n = ⟨va, 0, 1, min n 4096, 3⟩ :: listTiles (va + min n 4096) (n - min n 4096) := by
  have hcount : ceilDiv n 4096 = ceilDiv (n - min n 4096) 4096 + 1 := by simp only [ceilDiv]; omega
  rw [listTiles, hcount, List.range_succ_eq_map, List.map_cons, List.map_map]
  refine congrArg _ (List.map_congr_left fun i hi => ?_)
  have hi : i < ceilDiv (n - min n 4096) 4096 := List.mem_range.mp hi
  have hfull : min n 4096 = 4096 := by simp only [ceilDiv] at hi; omega
  have hva : va + 4096 * (i + 1) = va + 4096 + 4096 * i := by omega
  have hleft : n - 4096 * (i + 1) = n - 4096 - 4096 * i := by omega
  simp only [Function.comp_apply, Nat.succ_eq_add_one, hfull, hva, hleft]

theorem withListBytes_read {fuel va n : Nat} {b : Bytes} {k : State → Bytes → State} (hfuel : n ≤ 4096 * fuel)
    (h : KvTilesRead w (listTiles va n) s b s') (hk : k s' b = u) : withListBytes s w fuel va n k = u := by
  induction fuel generalizing s va n b k with
  | zero =>
    obtain rfl : n = 0 := by omega
    obtain ⟨rfl, rfl⟩ := h
    exact hk
  | succ fuel ih =>
    by_cases hn : n = 0
    · subst hn
      obtain ⟨rfl, rfl⟩ := h
      rw [withListBytes, if_pos rfl]
      exact hk
    · rw [listTiles_cons va hn] at h
      obtain ⟨c, d, s1, hfirst, hrest, rfl⟩ := h
      exact (if_neg hn).trans (withKvTile_read hfirst (ih (by omega) hrest hk))

theorem withList_read {base e0 n : Nat} {l : List (List Word)} {k : State → List (List Word) → State}
    (h : EntriesRead s w base e0 n l s') (hk : k s' l = u) : withList s w base e0 n k = u := by
  obtain ⟨b, hbytes, rfl⟩ := h
  exact withListBytes_read (by omega) hbytes hk

theorem withProbe_probed {l : List Tile} {k : State → State} (h : Probed w l s s') (hk : k s' = u) : withProbe s w l k = u := by
  induction l generalizing s with
  | nil => subst h; exact hk
  | cons t l ih =>
    obtain ⟨pages, s1, hpages, hrest⟩ := h
    simp only [withProbe, hpages]
    exact ih hrest

/-! ### Slabs of keys and values (R141, R144, R160) -/

theorem withSlab_read {e : List Word} {v : Bool} {h j0 n : Nat} {rows : List (List Num)} {k : State → List (List Num) → State}
    (hr : SlabRead s w e v h j0 n rows s') (hk : k s' rows = u) : withSlab s w e v h j0 n k = u := by
  obtain ⟨b, sc, s1, hrows, hscales, rfl⟩ := hr
  rw [withSlab]
  refine withKvTile_read hrows ?_
  split at hscales
  · next hm => exact (if_pos hm).trans (withKvTile_read hscales hk)
  · next hm => obtain ⟨rfl, rfl⟩ := hscales; exact (if_neg hm).trans hk

theorem withRange_read {list : List (List Word)} {h : Nat} {l : List (Nat × Nat × Nat)} {kv : List (List Num × List Num)}
    {k : State → List (List Num × List Num) → State} (hr : RangeRead w list h l s kv s') (hk : k s' kv = u) :
    withRange s w list h l k = u := by
  induction l generalizing s kv k with
  | nil => obtain ⟨rfl, rfl⟩ := hr; exact hk
  | cons p l ih =>
    obtain ⟨ks, vs, t, s1, s2, hks, hvs, hrest, rfl⟩ := hr
    rw [withRange]
    exact withSlab_read hks (withSlab_read hvs (ih hrest hk))

theorem withBounds_read {e : List Word} {l : List Nat} {b : List (Option Int)}
    {k : State → Except Unit (List (Option Int)) → State} (h : HeadBoundsRead w e l s b s') (hk : k s' (.ok b) = u) :
    withBounds s w e l k = u := by
  induction l generalizing s b k with
  | nil => obtain ⟨rfl, rfl⟩ := h; exact hk
  | cons i l ih =>
    obtain ⟨m, t, s1, hhead, hrest, rfl⟩ := h
    rw [withBounds]
    dsimp only
    split at hhead
    · next hn =>
      obtain ⟨rfl, rfl⟩ := hhead
      exact (if_pos hn).trans (ih hrest hk)
    · next hn =>
      obtain ⟨rows, bs, hrows, hbs, rfl⟩ := hhead
      refine (if_neg hn).trans (withSlab_read hrows ?_)
      rw [hbs]
      exact ih hrest hk

theorem withAllBounds_read {l : List (List Word)} {bs : List (List (Option Int))}
    {k : State → Except Unit (List (List (Option Int))) → State} (h : BoundsRead w l s bs s') (hk : k s' (.ok bs) = u) :
    withAllBounds s w l k = u := by
  induction l generalizing s bs k with
  | nil => obtain ⟨rfl, rfl⟩ := h; exact hk
  | cons e l ih =>
    obtain ⟨m, t, s1, hentry, hrest, rfl⟩ := h
    exact withBounds_read hentry (ih hrest hk)

end Sweep

end Sys2Proof.Machine
end

section
/-!
SUPPORT. ATTN_PARTIAL and ATTN_MERGE (R144 to R156, R163, R282).
-/

namespace Sys2Proof.Machine

open Sys2Proof

/-- A sweep whose partials are written is counted, and ends with its flags (R129, R151, R163). -/
theorem writePartials_written {s s' : State} {w : Work} {parts : List Bytes} {nan range : Bool} {wsats : Nat}
    (h : TileHinted s w ⟨dD w.desc, dDPitch w.desc, dM w.desc, psize (dN w.desc), 2⟩ parts s') :
    writePartials s w parts nan range wsats =
      (let t := addReg (addReg (addReg s' (sePage w) Reg.TOKENS_SWEPT (dT1 w.desc - dT0 w.desc)) (sePage w)
        Reg.PARTIALS_WRITTEN parts.length) (sePage w) Reg.WSAT_PARTIALS wsats
      complete (if wsats = 0 then t else raiseEvt t (sePage w) 1) w 0 0 0 (flagBits ⟨nan, range, false⟩) 0) :=
  putHinted_written h rfl

/-- Settles O21: the sweep reads what it needs in order and writes the partials of `attnRows`; a merge checks the partials of
its rows, then delivers their elements or writes one partial for each row. -/
theorem attentionWritesPartialsAndMergesThem : Obligations.AttentionWritesPartialsAndMergesThem := by
  intro k x q w s s1 s2 s3 s4 s5 list qrows bytes kv fl d
  refine ⟨fun hw hreads hlist hok hprobe hq hrange hwritten => ?partials, fun hw hbytes => ?merge⟩
  case partials =>
    refine onWork_ends rfl hw ((unless_checked hreads).trans (withList_read hlist ((unless_checked hok).trans ?_)))
    refine withProbe_probed hprobe (withTile_read hq (withRange_read hrange ?_))
    refine (writePartials_written hwritten).trans ?_
    rw [attnPartials, List.length_map]
    rfl
  case merge =>
    intro rows
    refine ⟨fun hfails => ?fails, fun hpasses => ⟨fun hf hd => ?elements, fun hf hd => ?one⟩⟩
    case fails => exact onWork_ends rfl hw (withTile_read hbytes (if_pos hfails))
    case elements =>
      refine onWork_ends rfl hw (withTile_read hbytes ((if_neg (not_not.mpr hpasses)).trans ?_))
      exact (if_neg hf).trans (storeElems_delivered hd)
    case one =>
      refine onWork_ends rfl hw (withTile_read hbytes ((if_neg (not_not.mpr hpasses)).trans ?_))
      exact (if_pos hf).trans (putTile_written hd rfl)

end Sys2Proof.Machine
end

section
/-!
SUPPORT. KV_STORE and KV_BOUND (R139, R141, R142, R159, R160, R282).
-/

namespace Sys2Proof.Machine

open Sys2Proof

/-- Entries that each keep R140 against entry 0 pass the check of a KV command. -/
theorem entriesOk {e0 : List Word} {entries : List (List Word)} (h0 : entryOk e0 e0 = true)
    (h : ∀ e ∈ entries, entryOk e e0 = true) : (entryOk e0 e0 && entries.all fun e => entryOk e e0) = true := by
  rw [h0, Bool.true_and, List.all_eq_true]
  exact h

/-- Settles O22: each command passes its checks on the entries it reads, and its runs are those that the clause names; the
bounds that KV_STORE raises are those of the rows as it stores them. -/
theorem kvCommandsStoreRowsAndBounds : Obligations.KvCommandsStoreRowsAndBounds := by
  intro k x q w s s1 s2 s3 s4 s5 s6 keys vals first entries bs
  dsimp only
  refine ⟨fun hw hreads hkeys hvals hfirst hentries hform hforms hdim hbounds hrows hupds => ?store,
    fun hw hreads hfirst hentries hform hforms hbounds hruns => ?bound⟩
  case store =>
    refine onWork_ends rfl hw ((unless_checked hreads).trans (withTensor_read hkeys (withTensor_read hvals ?_)))
    refine withList_read hfirst (withList_read hentries ((unless_checked ?formed).trans ?_))
    case formed => rw [entriesOk hform hforms, hdim]; simp
    dsimp only
    rw [hbounds]
    refine (if_neg (by simp)).trans ?_
    simp only [List.map_map, Function.comp_def, List.map_id']
    exact putRuns_written hrows (putRuns_written hupds rfl)
  case bound =>
    refine onWork_ends rfl hw ((unless_checked hreads).trans (withList_read hfirst (withList_read hentries ?_)))
    refine (unless_checked (entriesOk hform hforms)).trans (withAllBounds_read hbounds ?_)
    exact putRuns_written hruns rfl

end Sys2Proof.Machine
end

section
/-!
SUPPORT. A cycle of the clock: what it counts, and where (R163, R251, R256, R265, R416).
-/

namespace Sys2Proof.Machine

open Sys2Proof

/-- `t` is `s` but for the registers that `q` names by page and offset; the marks of events are not excepted. -/
structure RegsBut (q : Nat → Nat → Prop) (s t : State) : Prop where
  canonical : t.canonical
  rest : t = { s with regs := t.regs }
  regs : ∀ p off, off < 0x10000 → ¬ q p off → rd t p off = rd s p off

section RegsBut

variable {q r : Nat → Nat → Prop} {s t u : State}

theorem RegsBut.refl (h : s.canonical) : RegsBut q s s := ⟨h, rfl, fun _ _ _ _ => rfl⟩

theorem RegsBut.trans (h : RegsBut q s t) (k : RegsBut r t u) : RegsBut (fun p off => q p off ∨ r p off) s u where
  canonical := k.canonical
  rest := by rw [k.rest, h.rest]
  regs p off ho hqr := (k.regs p off ho fun hr => hqr (.inr hr)).trans (h.regs p off ho fun hq => hqr (.inl hq))

theorem RegsBut.mono (h : RegsBut q s t) (hqr : ∀ p off, q p off → r p off) : RegsBut r s t :=
  { h with regs := fun p off ho hr => h.regs p off ho fun hq => hr (hqr p off hq) }

theorem RegsBut.trans' (h : RegsBut q s t) (k : RegsBut q t u) : RegsBut q s u := (h.trans k).mono fun _ _ hp => hp.elim id id

theorem RegsBut.rf_eq (h : RegsBut q s t) {p off lo n : Nat} (ho : off < 0x10000) (hq : ¬ q p off) :
    rf t p off lo n = rf s p off lo n := by rw [rf, h.regs p off ho hq, ← rf]

theorem RegsBut.engineWork_eq (h : RegsBut q s t) (e : Nat) : engineWork t e = engineWork s e := by rw [h.rest]; rfl

theorem RegsBut.foldl {α : Type} {f : State → α → State} {l : List α}
    (hf : ∀ s, ∀ a ∈ l, s.canonical → RegsBut q s (f s a)) (h : s.canonical) : RegsBut q s (l.foldl f s) :=
  List.foldlRecOn (motive := fun t => RegsBut q s t) l f (.refl h) fun t ht a ha => ht.trans' (hf t a ha ht.canonical)

theorem addReg_regsBut (h : s.canonical) (p : Nat) {off : Nat} (n : Nat) (ho : off < 0x10000) :
    RegsBut (oneReg p off) s (addReg s p off n) :=
  ⟨addReg_canonical h, rfl, fun _ _ ho' hne => rd_wr_other h _ ho ho' hne⟩

theorem rd_addReg_same (h : s.canonical) (p off n : Nat) : rd (addReg s p off n) p off = rd s p off + w64 n :=
  rd_wr_same h p off _

end RegsBut

/-! ### Owner slots left idle (R265) -/

/-- The counter of idle owner slots of a ring's page. -/
def idleReg (p off : Nat) : Prop := blockOf p = some .ring ∧ off = Reg.IDLE_OWNED

theorem blockOf_pgRing : ∀ {r : Nat}, r < 8 → blockOf (pgRing r) = some .ring := by decide

/-- An entry past the last ring has no slots. -/
theorem idleOf_of_no_ring {s : State} {e : Nat × Nat} (h : ¬ e.1 / 1024 < 8) : idleOf s e = 0 :=
  if_neg fun hr => h (by have := hr.1; omega)

theorem idleCounted_regsBut {s : State} (h : s.canonical) (e : Nat × Nat) :
    RegsBut idleReg s (addReg s (pgRing (e.1 / 1024)) Reg.IDLE_OWNED (idleOf s e)) := by
  have hadd := addReg_regsBut h (pgRing (e.1 / 1024)) (idleOf s e) (show Reg.IDLE_OWNED < 0x10000 by decide)
  by_cases hr : e.1 / 1024 < 8
  · exact hadd.mono fun p off hp => ⟨hp.1 ▸ blockOf_pgRing hr, hp.2⟩
  · refine { hadd with regs := fun p off ho _ => ?_ }
    by_cases hp : p = pgRing (e.1 / 1024) ∧ off = Reg.IDLE_OWNED
    · obtain ⟨rfl, rfl⟩ := hp
      rw [rd_addReg_same h, idleOf_of_no_ring hr]
      exact BitVec.add_zero _
    · exact hadd.regs p off ho hp

/-- What the tick of the fabric leaves beside the registers: tokens, the ring cycles, and the slots still to come (R251, R256). -/
theorem tickFabric_regsBut {s : State} (h : s.canonical) : ∃ tokens used, RegsBut idleReg
    { s with fab := { s.fab with tokens := tokens, clock := s.fab.clock + 80, used := used } } (tickFabric s) := by
  have hidle := RegsBut.foldl (l := (refillTokens s).fab.active) (fun s e _ hs => idleCounted_regsBut hs e)
    (show (refillTokens s).canonical from h)
  refine ⟨(refillTokens s).fab.tokens, s.fab.used.filter fun u => decide (s.fab.clock + 80 ≤ u.2), hidle.canonical, ?_,
    hidle.regs⟩
  rw [tickFabric]
  dsimp only
  rw [hidle.rest]
  rfl

/-! ### Busy engines (R163, R183) -/

/-- The counters of engine `e` that time moves. -/
def busyReg (e p off : Nat) : Prop := p = pgSe e ∧ (off = Reg.BUSY_CYCLES ∨ off = Reg.MEM_WAIT)

theorem countBusy_regsBut {s : State} (h : s.canonical) (e : Nat) : RegsBut (busyReg e) s (countBusy s e) := by
  rw [countBusy]
  split
  · exact .refl h
  · next w _ =>
    have hbusy : RegsBut (busyReg e) s (addReg s (pgSe e) Reg.BUSY_CYCLES (rf s (pgSe e) Reg.SE_ISLAND_CLK 0 12 / 25)) :=
      (addReg_regsBut h _ _ (by decide)).mono fun _ _ hp => ⟨hp.1, .inl hp.2⟩
    dsimp only
    split
    · exact hbusy.trans' ((addReg_regsBut hbusy.canonical _ _ (by decide)).mono fun _ _ hp => ⟨hp.1, .inr hp.2⟩)
    · exact hbusy

theorem rd_countBusy_busyCycles {s : State} (h : s.canonical) {e : Nat} {w : Work} (hw : engineWork s e = some w) :
    rd (countBusy s e) (pgSe e) Reg.BUSY_CYCLES =
      rd s (pgSe e) Reg.BUSY_CYCLES + w64 (rf s (pgSe e) Reg.SE_ISLAND_CLK 0 12 / 25) := by
  simp only [countBusy, hw]
  split
  · rw [addReg, rd_wr_other (addReg_canonical h) _ (by decide) (by decide) fun hp => absurd hp.2 (by decide), rd_addReg_same h]
  · exact rd_addReg_same h _ _ _

/-- Of different engines each counts its own cycles, once. -/
theorem rd_foldl_countBusy {l : List Nat} (hl : l.Nodup) {s : State} (h : s.canonical) {e : Nat} {w : Work} (he : e ∈ l)
    (hw : engineWork s e = some w) :
    rd (l.foldl countBusy s) (pgSe e) Reg.BUSY_CYCLES =
      rd s (pgSe e) Reg.BUSY_CYCLES + w64 (rf s (pgSe e) Reg.SE_ISLAND_CLK 0 12 / 25) := by
  induction l generalizing s with
  | nil => cases he
  | cons a l ih =>
    obtain ⟨hnot, hl⟩ := List.nodup_cons.mp hl
    have ha := countBusy_regsBut h a
    rw [List.foldl_cons]
    by_cases hae : a = e
    · subst hae
      have hrest : RegsBut (fun p _ => p ≠ pgSe a) (countBusy s a) (l.foldl countBusy (countBusy s a)) :=
        .foldl (fun _ b hb ht => (countBusy_regsBut ht b).mono fun p off hp hpa => hnot (by
          rwa [Nat.add_left_cancel (hpa.symm.trans hp.1)])) ha.canonical
      rw [hrest.regs _ _ (by decide) (by simp), rd_countBusy_busyCycles h hw]
    · have hpage : pgSe e ≠ pgSe a := fun hp => hae (Nat.add_left_cancel hp).symm
      rw [ih hl ha.canonical (List.mem_of_ne_of_mem (Ne.symm hae) he) ((ha.engineWork_eq e).trans hw),
        ha.regs _ _ (by decide) fun hp => hpage hp.1, ha.rf_eq (by decide) fun hp => hpage hp.1]

/-! ### The step of an empty queue -/

/-- The registers in which time and the fabric count a cycle. -/
def timeReg (p off : Nat) : Prop := idleReg p off ∨ oneReg pgErr Reg.ERR_TIME p off

/-- The registers in which the engines count a cycle. -/
def sweepReg (p off : Nat) : Prop := blockOf p = some .sweep ∧ (off = Reg.BUSY_CYCLES ∨ off = Reg.MEM_WAIT)

theorem blockOf_pgSe : ∀ {e : Nat}, e < 64 → blockOf (pgSe e) = some .sweep := by decide

theorem not_timeReg_pgSe {e : Nat} (h : e < 64) (off : Nat) : ¬ timeReg (pgSe e) off := by
  rintro (⟨hp, -⟩ | ⟨hp, -⟩)
  · rw [blockOf_pgSe h] at hp; cases hp
  · simp only [pgSe, pgErr] at hp; omega

/-- A cycle of time and of the fabric, before the engines count theirs. -/
def timeCounted (s : State) : State := addReg (tickFabric s) pgErr Reg.ERR_TIME 1

/-- Nothing that waits for a manifest's accesses is settled where nothing waits. -/
theorem settleManifest_of_none {s : State} (hshares : s.xlat.shareWaits = []) (hresets : s.xlat.resets = []) :
    settleManifest s = s := by
  rw [settleManifest, settleShares, hshares, List.foldl_nil, settleResets, hresets, List.foldl_nil]

section Tick

variable {s : State}

/-- Time and the fabric count in their own registers, and move what the tick of the fabric moves (R251, R256, R416). -/
theorem timeCounted_regsBut (h : s.canonical) : ∃ tokens used, RegsBut timeReg
    { s with fab := { s.fab with tokens := tokens, clock := s.fab.clock + 80, used := used } } (timeCounted s) := by
  obtain ⟨tokens, used, hfab⟩ := tickFabric_regsBut h
  have htime := addReg_regsBut hfab.canonical pgErr 1 (show Reg.ERR_TIME < 0x10000 by decide)
  exact ⟨tokens, used, hfab.trans htime⟩

theorem rd_timeCounted_errTime (h : s.canonical) :
    rd (timeCounted s) pgErr Reg.ERR_TIME = rd s pgErr Reg.ERR_TIME + 1 := by
  obtain ⟨tokens, used, hfab⟩ := tickFabric_regsBut h
  rw [timeCounted, rd_addReg_same hfab.canonical, hfab.regs _ _ (by decide) fun hp => absurd hp.2 (by decide)]
  rfl

theorem enginesCounted_regsBut (h : s.canonical) : RegsBut sweepReg s ((List.range 64).foldl countBusy s) :=
  .foldl (fun _ e he ht => (countBusy_regsBut ht e).mono fun _ _ hp =>
    ⟨hp.1 ▸ blockOf_pgSe (List.mem_range.mp he), hp.2⟩) h

end Tick

/-- Settles O2: `timeCounted` is the cycle of time and of the fabric, `countBusy` that of each engine, and nothing waits. -/
theorem anIdleStepIsOneCycle : Obligations.AnIdleStepIsOneCycle := by
  intro s h hempty
  have hstep : step s = .next (tick s) := by rw [step, hempty]
  refine ⟨fun hpwr hclk hshares hresets => ?runs, fun hoff => ?stands⟩
  case stands =>
    rw [hstep, tick, if_neg]
    rcases hoff with hoff | hoff <;> simp [hoff]
  case runs =>
    obtain ⟨tokens, used, htime⟩ := timeCounted_regsBut h
    have hbusy := enginesCounted_regsBut htime.canonical
    have hall := htime.trans hbusy
    have htick : tick s = (List.range 64).foldl countBusy (timeCounted s) := by
      rw [tick, if_pos (by rw [hpwr, hclk]; rfl), ← timeCounted]
      exact settleManifest_of_none (by rw [hall.rest]; exact hshares) (by rw [hall.rest]; exact hresets)
    refine ⟨_, hstep.trans (congrArg _ htick), ?time, by rw [hall.rest], fun p off ho herr hidle hsweep => ?others,
      fun e w he hw => ?busy, by rw [hall.rest]⟩
    case time => rw [hbusy.regs _ _ (by decide) fun hp => absurd hp.2 (by decide), rd_timeCounted_errTime h]
    case others => exact hall.regs p off ho fun hp => hp.elim (fun hp => hp.elim hidle herr) hsweep
    case busy =>
      have hwork : engineWork (timeCounted s) e = some w := (htime.engineWork_eq e).trans hw
      rw [rd_foldl_countBusy List.nodup_range htime.canonical (List.mem_range.mpr he) hwork,
        htime.regs _ _ (by decide) (not_timeReg_pgSe he _), htime.rf_eq (by decide) (not_timeReg_pgSe he _)]
      rfl

end Sys2Proof.Machine
end


section
/-!
SUPPORT AND O29. The device physical addresses: which group or slice holds each, and what no leaf may target (R167, R168, R177).
-/

namespace Sys2Proof.Machine

open Sys2Proof

/-- Where at most one number below `n` satisfies `p`, the search finds it exactly when one does. -/
theorem find?_range_eq_some_of_unique {n k : Nat} {p : Nat → Bool} (hp : ∀ i j, p i = true → p j = true → i = j) :
    (List.range n).find? p = some k ↔ k < n ∧ p k = true := by
  rw [List.find?_range_eq_some]
  refine ⟨fun ⟨hk, hmem, _⟩ => ⟨List.mem_range.1 hmem, hk⟩,
    fun ⟨hmem, hk⟩ => ⟨hk, List.mem_range.2 hmem, fun j hj => ?_⟩⟩
  rw [Bool.not_eq_true']
  exact Bool.eq_false_iff.2 fun hpj => absurd (hp j k hpj hk) (Nat.ne_of_lt hj)

section Addresses

variable {a i j k n : Nat}

theorem inGroup_iff : inRange a (groupBase k) groupSize = true ↔
    k * 0x800000000 ≤ a ∧ a ≤ k * 0x800000000 + 0x59681FFFF := by
  rw [inRange, Bool.and_eq_true, decide_eq_true_eq, decide_eq_true_eq, groupBase, groupSize]
  omega

theorem inSlice_iff : inRange a (quayBase k) quaySize = true ↔
    0x10000000000 + k * 0x4000000 ≤ a ∧ a < 0x10000000000 + (k + 1) * 0x4000000 := by
  rw [inRange, Bool.and_eq_true, decide_eq_true_eq, decide_eq_true_eq, quayBase, quaySize]
  omega

/-- Groups lie apart, so that the group of an address is the one that holds it. -/
theorem groupOf_eq_some_iff : groupOf a = some k ↔ k < 16 ∧ inRange a (groupBase k) groupSize = true :=
  find?_range_eq_some_of_unique fun i j hi hj => by rw [inGroup_iff] at hi hj; omega

/-- Slices lie apart too. -/
theorem quayOf_eq_some_iff : quayOf a = some k ↔ k < 16 ∧ inRange a (quayBase k) quaySize = true :=
  find?_range_eq_some_of_unique fun i j hi hj => by rw [inSlice_iff] at hi hj; omega

theorem inPartition_iff (hj : j < 16) : inPartition j a = true ↔ groupOf a = some j ∨ quayOf a = some j := by
  simp only [inPartition, Bool.or_eq_true, groupOf_eq_some_iff, quayOf_eq_some_iff, hj, true_and]

/-- A byte of a partition's own range is in its group or in its slice. -/
theorem inPartition_of_ownRange (h : ownRange j a n = true) (hi : i < n) : inPartition j (a + i) = true := by
  simp only [ownRange, inPartition, inRange, Bool.or_eq_true, Bool.and_eq_true, decide_eq_true_eq] at h ⊢
  omega

/-- No partition's own range has a reserved byte. -/
theorem ownRange_reserved (hj : j < 16) (hi : i < n) (hgroup : groupOf (a + i) = none) (hquay : quayOf (a + i) = none) :
    ownRange j a n = false := by
  refine Bool.eq_false_iff.2 fun h => ?_
  rcases (inPartition_iff hj).1 (inPartition_of_ownRange h hi) with h | h
  · exact absurd (hgroup.symm.trans h) (by simp)
  · exact absurd (hquay.symm.trans h) (by simp)

/-- Nor has what a share window opens (R168, R169). -/
theorem windowRange_reserved (s : State) (k : Nat) (write : Bool) (hi : i < n) (hgroup : groupOf (a + i) = none)
    (hquay : quayOf (a + i) = none) : windowRange s k a n write = false := by
  refine List.any_eq_false.2 fun w _ => ?_
  cases hpart : partOfAddr a with
  | none => simp
  | some j =>
    have hj : j < 16 := List.mem_range.1 (List.mem_of_find?_eq_some hpart)
    simp [ownRange_reserved hj hi hgroup hquay]

theorem leafPa_lt (e : Word) : leafPa e < 2 ^ 46 := by
  have hfld : fld e 12 34 < 2 ^ 34 := Nat.mod_lt _ (by decide)
  rw [leafPa]
  omega

/-- Whoever walks, a leaf with a reserved byte ends TARGET_OUTSIDE (R168, R177). -/
theorem leafFault_reserved (s : State) {req level : Nat} {e : Word} (write : Bool) (hk : k < 16) (hi : i < levelSize level)
    (hgroup : groupOf (leafPa e + i) = none) (hquay : quayOf (leafPa e + i) = none) : leafFault s k req level e write = some 4 :=
  if_pos (by rw [ownRange_reserved hk hi hgroup hquay, windowRange_reserved s k write hi hgroup hquay]; rfl)

end Addresses

/-- Settles O29: the searches over the groups and slices are their ranges, and a reserved byte is in none of them. -/
theorem addressesMapAsTheTableSays : Obligations.AddressesMapAsTheTableSays := by
  refine ⟨fun a k => ?group, fun a k => ?slice, fun a hsome => ?width, fun s k req level i e write =>
    ⟨leafPa_lt e, fun hk hi hgroup hquay => leafFault_reserved s write hk hi hgroup hquay⟩⟩
  case group => rw [groupOf_eq_some_iff, inGroup_iff]
  case slice => rw [quayOf_eq_some_iff, inSlice_iff]
  case width =>
    rcases hsome with h | h
    · obtain ⟨k, hsome⟩ := Option.ne_none_iff_exists'.1 h
      rw [groupOf_eq_some_iff, inGroup_iff] at hsome
      omega
    · obtain ⟨k, hsome⟩ := Option.ne_none_iff_exists'.1 h
      rw [quayOf_eq_some_iff, inSlice_iff] at hsome
      omega

end Sys2Proof.Machine
end

section
/-!
SUPPORT, O5 AND O7. What every command answers: a next state, but for a controller's request to a reserved address (R167); and that
state in its canonical form.
-/

namespace Sys2Proof.Machine

open Sys2Proof

/-! ### The canonical form -/

/-- Each command keeps the canonical form and the queue, by the lemma that says so of its meaning, in the order of `exec`. -/
theorem exec_kept {s : State} {Q : List Instr} (c : Instr) (h : Kept Q s) : KeptRes Q (exec c s) := by
  cases c
  exacts [execPowerOn_kept h, execRomBoot_kept h, execSettings_kept h, execTrainingPhase_kept h, execDefects_kept h,
    execCores_kept h, execRoutes_kept h, execScrubPhase_kept h, execBringupEnd_kept h, execRomCheck_kept h,
    execSelfTest_kept h, execClear_kept h, execBroadcastAnswerTimeout_kept h, execRegisterWrite_kept h,
    execNarrowAccess_kept h, execRcRead_kept h, execPageEnable_kept h, execPageDisable_kept h, execQuiesceRequest_kept h,
    execQuiesceDrained_kept h, execQuiesceResume_kept h, execResetReq_kept h, execBlockTrained_kept h, execErrRearm_kept h,
    execEvtSet_kept h, execLock_kept h, execCoreFault_kept h, execSeqStall_kept h, execCoreFence_kept h,
    execCoreFenceDrained_kept h, execSpareTest_kept h, execSpareTestDone_kept h, execCacheAccessError_kept h,
    execCtxOpen_kept h, execCtxRun_kept h, execCtxPause_kept h, execCtxClose_kept h, execCtxAbort_kept h, execCtxTail_kept h,
    execContextFreed_kept h, execDispatch_kept h, execGemm_kept h, execGemmPot_kept h, execPotMerge_kept h,
    execPotRound_kept h, execPotMergeRound_kept h, execReduceRows_kept h, execReduceRowsPot_kept h, execReduceCols_kept h,
    execReduceColsPot_kept h, execDotRows_kept h, execSumsqRows_kept h, execMaxRows_kept h, execMinRows_kept h,
    execReduceCollect_kept h, execRedSlotFull_kept h, execRedSlotTimeout_kept h, execAttnPartial_kept h, execAttnMerge_kept h,
    execKvStore_kept h, execKvBound_kept h, execEwAdd_kept h, execEwSub_kept h, execEwMul_kept h, execEwMax_kept h,
    execEwMin_kept h, execEwUnary_kept h, execConvert_kept h, execEwClamp_kept h, execFence_kept h, execBarrier_kept h,
    execBarrierTimeout_kept h, execBarrierTargetWrite_kept h, execSignal_kept h, execWait_kept h, execWaitPoll_kept h,
    execWaitTimeout_kept h, execNop_kept h, execCopy_kept h, execGatherRows_kept h, execScatterRows_kept h,
    execTranspose_kept h, execFill_kept h, execCompare_kept h, execPrefetchTranslate_kept h, execPrefetchMigrate_kept h,
    execAdviseUnpin_kept h, execAdvisePin_kept h, execAdviseDontNeed_kept h, execEngineFault_kept h, execSeStall_kept h,
    execEngineFence_kept h, execEngineFenceDrained_kept h, execEngineTest_kept h, execEngineTestDone_kept h,
    execWalkEnd_kept h, execFaultRecordRelease_kept h, execFaultResolveRetry_kept h, execFaultResolveFail_kept h,
    execFaultTimeout_kept h, execFaultRingWrite_kept h, execFaultConsWrite_kept h, execInvCmdRange_kept h,
    execInvCmdPartition_kept h, execInvComplete_kept h, execMfRootWrite_kept h, execShareWinWrite_kept h,
    execHotRingWrite_kept h, execMicrotlbCountReport_kept h, execHotEpochEnd_kept h, execMcRead_kept h, execMcWrite_kept h,
    execMcPartialWrite_kept h, execWcEntryAged_kept h, execRowRepairComplete_kept h, execRefresh_kept h,
    execRefreshManagement_kept h, execTempSample_kept h, execPatrolRead_kept h, execMcZfCmd_kept h, execMcZfDone_kept h,
    execMcInject_kept h, execCaParity_kept h, execQuayRead_kept h, execQuayWrite_kept h, execBankReplaceComplete_kept h,
    execQuayStrictSet_kept h, execStrictDone_kept h, execQuayZfCmd_kept h, execQuayZfDone_kept h, execQuayInject_kept h,
    execPortParity_kept h, execPacketInject_kept h, execPacketTurn_kept h, execPacketDeliver_kept h, execIslandWake_kept h,
    execIslandSleep_kept h, execBroadcast_kept h, execBroadcastComplete_kept h, execDealCommit_kept h, execCommitDone_kept h,
    execRouteModeWrite_kept h, execRouteDataWrite_kept h, execCrcReplay_kept h, execLaneSpare_kept h, execRdS_kept h,
    execRdX_kept h, execUpg_kept h, execRdOnce_kept h, execWrLine_kept h, execWrPart_kept h, execAtomAdd_kept h, execWb_kept h,
    execEvictClean_kept h, execGrantAck_kept h, execAckMiss_kept h, execAckClean_kept h, execDataDirty_kept h,
    execWbInFlight_kept h, execDataS_kept h, execDataE_kept h, execGrantUpg_kept h, execFillHint_kept h, execSnpShr_kept h,
    execSnpInv_kept h, execRdData_kept h, execWrAck_kept h, execSnoopTimeout_kept h, execDomainLost_kept h,
    execSidebandTrained_kept h, execSiteEmpty_kept h, execIdData_kept h, execMainbandTrained_kept h,
    execSidebandUnknown_kept h, execSiteAssign_kept h, execAssignDone_kept h, execSiteCmdRetrain_kept h,
    execModuleRetrain_kept h, execModuleRetrainDone_kept h, execFlitReceive_kept h, execMemRd_kept h, execMemWr_kept h,
    execMemWrMask_kept h, execRdRsp_kept h, execWrRsp_kept h, execCrdS_kept h, execCrdX_kept h, execCUpg_kept h,
    execCWb_kept h, execCEvict_kept h, execCGack_kept h, execSnpRsp_kept h, execRedSubmit_kept h, execPartResetAck_kept h,
    execPartResetAckTimeout_kept h, execSiteReset_kept h, execPowerPeriod_kept h, execVoltageSettled_kept h,
    execRegulatorFault_kept h, execPwrCtlFixed_kept h, execPartAllocWrite_kept h, execSiteRelease_kept h,
    execThermalTrip_kept h, execFlr_kept h, execFlrDone_kept h, execPowerStateChange_kept h, execHostLinkReset_kept h,
    execLinkUp_kept h, execDmaAssign_kept h, execDmaTail_kept h, execH2d_kept h, execD2h_kept h, execImm_kept h,
    execHostCompletion_kept h, execCplTimeout_kept h, execDmaCtlStrict_kept h, execIdeFault_kept h, execLoadKey_kept h,
    execRetireKey_kept h, execKeySlotFreed_kept h, execPartCmdEnable_kept h, execPartCmdDisable_kept h,
    execPartCmdAssign_kept h, execPartCmdReset_kept h, execPartitionResetDrained_kept h, execPartitionResetComplete_kept h,
    execPartCmdRelease_kept h, execScrubDrainEnd_kept h, execScrubDone_kept h, execSeal_kept h, execSealComplete_kept h,
    execUnseal_kept h, execExtend_kept h, execGetVersion_kept h, execGetCapabilities_kept h, execNegotiateAlgorithms_kept h,
    execGetDigests_kept h, execGetCertificate_kept h, execChallenge_kept h, execGetMeasurements_kept h, execKeyExchange_kept h,
    execFinish_kept h, execKeyUpdate_kept h, execHeartbeat_kept h, execEndSession_kept h, execVendorDefinedRequest_kept h,
    execQuery_kept h, execKeyProg_kept h, execKSetGo_kept h, execKSetStop_kept h, execGetNonce_kept h, execLcTransition_kept h,
    execInstallOwnerKey_kept h, execRaiseSecVersion_kept h, execSetAdmissionList_kept h, execSetGeometry_kept h,
    execRaiseDebugEpoch_kept h, execInstallDebugCert_kept h, execRemoveDebugCert_kept h, execClearAudit_kept h,
    execStageData_kept h, execErrorReport_kept h, execCollClear_kept h, execHang_kept h, execTeardownStuck_kept h,
    execJobAbortCmd_kept h, execJobAbort_kept h, execDevReset_kept h, execDeviceResetDrained_kept h, execWdogTuiner_kept h,
    execDumpAck_kept h, execPerstAssert_kept h, execPerstRelease_kept h, execPowerLoss_kept h, execSysclkStop_kept h,
    execSysclkReturn_kept h, execSiteRailLost_kept h, execRailLost_kept h, execTrainingFail_kept h, execEntdaa_kept h,
    execRstdaa_kept h, execEnec_kept h, execDisec_kept h, execSetmwl_kept h, execSetmrl_kept h, execGetmwl_kept h,
    execGetmrl_kept h, execGetpid_kept h, execGetbcr_kept h, execGetdcr_kept h, execGetstatus_kept h, execStatus_kept h,
    execIdent_kept h, execThermal_kept h, execPower_kept h, execMbxWrite_kept h, execMbxSend_kept h, execMbxRead_kept h,
    execMbxStat_kept h, execMbxAck_kept h, execUnknownI3cCommand_kept h, execRecStatus_kept h, execRecReset_kept h,
    execIbi_kept h, execSend_kept h, execMbxTake_kept h, execMbxResponse_kept h, execAck_kept h, execMbxTimeout_kept h,
    execTriggerEnable_kept h, execRecorderFence_kept h, execFenceDone_kept h, execEvrClear_kept h, execAuditMirror_kept h,
    execSecondsSave_kept h, execCvuOpen_kept h, execCvuClose_kept h, execCvuFeed_kept h, execCvuAssign_kept h,
    execCvuRunWrite_kept h, execImgBegin_kept h, execImgChunk_kept h, execImgCommit_kept h, execBootStatus_kept h,
    execForceFullTraining_kept h, execBadPagesBegin_kept h, execBadPagesAppend_kept h, execBadPagesCommit_kept h,
    execShutdown_kept h, execBootConfigRead_kept h, execBootConfigWrite_kept h, execWatchdogKick_kept h, execPwrOkFall_kept h,
    execRailRestored_kept h, execConfigurationWrite_kept h, execPmeTurnOff_kept h]

/-- Settles O5: a step is a command on the rest of the queue, or a cycle of the clock, and each keeps the canonical form. -/
theorem everyStepKeepsTheCanonicalForm : Obligations.EveryStepKeepsTheCanonicalForm := by
  intro s t hs hstep
  rw [step] at hstep
  split at hstep
  · cases hstep
    exact (tick_kept hs.kept).1
  · next c rest _ =>
    have hrest : State.canonical { s with pending := rest } := hs
    exact (exec_kept c hrest.kept t hstep).1

/-! ### The answers -/

/-- The outcome is a next state. -/
def isNext : Res → Bool
  | .next _ => true
  | _ => false

theorem isNext_iff {r : Res} : isNext r = true ↔ ∃ t, r = .next t := by
  cases r <;> simp [isNext]

section Routes

variable (s : State) (fn p off : Nat) (v : Word)

theorem routePartition_isNext : (routePartition s fn p off v).all isNext = true := by
  unfold routePartition
  dsimp only
  split_ifs <;> rfl

theorem routeManifest_isNext : (routeManifest s fn p off v).all isNext = true := by
  unfold routeManifest
  split_ifs <;> rfl

theorem routeDevice_isNext : (routeDevice s fn p off v).all isNext = true := by
  unfold routeDevice
  repeat' split
  all_goals rfl

theorem routeManagement_isNext : (routeManagement s fn p off v).all isNext = true := by
  unfold routeManagement
  dsimp only
  repeat' split
  all_goals rfl

theorem routeUnits_isNext : (routeUnits s fn p off v).all isNext = true := by
  unfold routeUnits
  repeat' split
  all_goals rfl

/-- The command that a register write is answers a next state. -/
theorem routeWrite_isNext : (routeWrite s fn p off v).all isNext = true := by
  unfold routeWrite
  split_ifs
  any_goals rfl
  split
  exacts [routePartition_isNext .., routeManifest_isNext .., routeUnits_isNext .., routeUnits_isNext .., routeDevice_isNext ..,
    routeDevice_isNext .., routeDevice_isNext .., routeDevice_isNext .., routeDevice_isNext .., routeManagement_isNext ..]

theorem execRegisterWrite_next : ∃ t, execRegisterWrite fn off v s = .next t := by
  unfold execRegisterWrite
  split
  · split
    · exact ⟨_, rfl⟩
    · next p o _ =>
      have hroute := routeWrite_isNext s fn p o v
      split
      · next r hr => exact isNext_iff.1 (by simpa [hr] using hroute)
      · exact ⟨_, rfl⟩
  · exact ⟨_, rfl⟩

end Routes

theorem groupOf_of_hbmPlace_none {a : Nat} (h : hbmPlace a = none) : groupOf a = none := by
  unfold hbmPlace at h
  split at h
  · assumption
  · exact nomatch h

/-- A request at a controller answers a next state unless R167 reserves its address (log entry 62). -/
theorem atController_answers (s : State) (a n : Nat) (c : Instr) :
    (∃ t, atController s a n c = .next t) ∨
      atController s a n c = .fault .reservedAddress ∧ groupOf a = none ∧ quayOf a = none := by
  unfold atController
  split
  · exact .inl ⟨_, rfl⟩
  · next hplace =>
    split
    · exact .inl ⟨_, rfl⟩
    · next hquay => exact .inr ⟨rfl, groupOf_of_hbmPlace_none hplace, Option.not_isSome_iff_eq_none.1 hquay⟩

/-- Settles O7: the meaning of each command is a next state as it stands, but for a register write, which is one by the command it
is, and the three requests at a controller. -/
theorem onlyReservedAddressesStop : Obligations.OnlyReservedAddressesStop := by
  intro c s
  cases c with
  | mcRead a n ctx ecc =>
    exact (atController_answers s a n _).imp_right fun ⟨hstop, hgroup, hquay⟩ =>
      ⟨hstop, a, hgroup, hquay, .inl ⟨n, ctx, ecc, rfl⟩⟩
  | mcWrite a b =>
    exact (atController_answers s a _ _).imp_right fun ⟨hstop, hgroup, hquay⟩ =>
      ⟨hstop, a, hgroup, hquay, .inr (.inl ⟨b, rfl⟩)⟩
  | mcPartialWrite a b ecc =>
    exact (atController_answers s a _ _).imp_right fun ⟨hstop, hgroup, hquay⟩ =>
      ⟨hstop, a, hgroup, hquay, .inr (.inr ⟨b, ecc, rfl⟩)⟩
  | registerWrite fn off v => exact .inl (execRegisterWrite_next s fn off v)
  | _ => exact .inl ⟨_, rfl⟩

end Sys2Proof.Machine
end

section
/-!
SUPPORT AND O26. The fault ring, the hot-page ring and the counters of leaves (R171, R179, R182, R192, R194).
-/

namespace Sys2Proof.Machine
open Sys2Proof

/-! ### The registers of the rings (R182, R194) -/

section Rings

variable {s : State} {fn k : Nat}

/-- `FAULT_RING` or `HOT_RING` as a write of `v` describes the ring: its base, and a LOG2 of `n` bits (R179, R193, R194). -/
def ringDescribed (s : State) (p off n : Nat) (v : Word) : State :=
  wf (wf s p off 12 40 (fld v 12 40)) p off 52 n (fld v 52 n)

theorem ringDescribed_sameBut (h : s.canonical) (p : Nat) {off : Nat} (ho : off < 0x10000) (n : Nat) (v : Word) :
    SameBut (oneReg p off) s (ringDescribed s p off n v) :=
  (wf_sameBut h _ _ _ _ _ ho).trans' (wf_sameBut (wf_canonical h) _ _ _ _ _ ho)

theorem fld_mod (v : Word) (lo n : Nat) : fld v lo n % 2 ^ n = fld v lo n := Nat.mod_mod _ _

theorem ringDescribed_base (h : s.canonical) (p off n : Nat) (v : Word) :
    rf (ringDescribed s p off n v) p off 12 40 = fld v 12 40 := by
  rw [ringDescribed, rf_wf_other (wf_canonical h) _ _ _ _ _ _ _ (by omega) (by omega), rf_wf_same h _ _ _ _ _ (by omega), fld_mod]

theorem ringDescribed_log (h : s.canonical) (p off : Nat) {n : Nat} (hn : n ≤ 12) (v : Word) :
    rf (ringDescribed s p off n v) p off 52 n = fld v 52 n := by
  rw [ringDescribed, rf_wf_same (wf_canonical h) _ _ _ _ _ (by omega), fld_mod]

theorem faultRingWrite_accepted {v : Word} (hw : MayWrite s fn (pgMf k) Reg.FAULT_RING)
    (hok : fld v 52 4 = 0 ∨ 6 ≤ fld v 52 4 ∧ fld v 52 4 ≤ 12 ∧ ringIn k v 64 (fld v 52 4) = true)
    (hwait : ∀ i ∈ s.xlat.waiting, i.part ≠ k) :
    exec (.faultRingWrite fn k v) s = .next (ringDescribed s (pgMf k) Reg.FAULT_RING 4 v) := by
  refine congrArg Host.Outcome.next ?_
  rw [withWrite_accepted hw, guarded_accepted (by simpa [and_assoc] using hok)]
  exact pumpFaults_none (s := ringDescribed s (pgMf k) Reg.FAULT_RING 4 v) hwait _

theorem hotRingWrite_accepted {v : Word} (hw : MayWrite s fn (pgMf k) Reg.HOT_RING)
    (hok : fld v 52 5 = 0 ∨ 8 ≤ fld v 52 5 ∧ fld v 52 5 ≤ 16 ∧ ringIn k v 16 (fld v 52 5) = true) :
    exec (.hotRingWrite fn k v) s = .next (ringDescribed s (pgMf k) Reg.HOT_RING 5 v) := by
  refine congrArg Host.Outcome.next ?_
  rw [withWrite_accepted hw, guarded_accepted (by simpa [and_assoc] using hok)]
  rfl

theorem faultConsWrite_accepted {v : Word} (hw : MayWrite s fn (pgMf k) Reg.FAULT_CONS)
    (hwait : ∀ i ∈ s.xlat.waiting, i.part ≠ k) :
    exec (.faultConsWrite fn k v) s = .next (wf s (pgMf k) Reg.FAULT_CONS 0 32 (fld v 0 32)) := by
  refine congrArg Host.Outcome.next ?_
  rw [withWrite_accepted hw]
  exact pumpFaults_none (s := wf s (pgMf k) Reg.FAULT_CONS 0 32 (fld v 0 32)) hwait _

end Rings

/-! ### Reports of the micro-TLBs (R192) -/

section Reports

variable {s : State} {k req va units : Nat} {m : MicroEntry} {e : SliceEntry}

/-- With no ring nothing is recorded (R192; log entry 63). -/
theorem hotRecord_noRing (h : rf s (pgMf k) Reg.HOT_RING 52 5 = 0) (e : SliceEntry) : hotRecord s k e = s := if_pos h

/-- A report of `units` of 4 KiB brings the leaf's counter to the threshold, for the first time in the epoch. -/
abbrev reachesThreshold (s : State) (k : Nat) (e : SliceEntry) (units : Nat) : Prop :=
  e.hot = false ∧ rf s (pgMf k) Reg.MF_CFG 0 16 ≠ 0 ∧ rf s (pgMf k) Reg.MF_CFG 0 16 ≤ min (e.count + units) 65535

/-- The leaf with the report counted. -/
def leafCounted (s : State) (k : Nat) (e : SliceEntry) (units : Nat) : SliceEntry :=
  { e with count := min (e.count + units) 65535, hot := e.hot || decide (reachesThreshold s k e units) }

/-- The state with the report counted in the slice. -/
def sliceCounted (s : State) (k : Nat) (e : SliceEntry) (units : Nat) : State :=
  { s with xlat := { s.xlat with slice := s.xlat.slice.map fun x => if x = e then leafCounted s k e units else x } }

/-- A report to a leaf that counts, NOCOUNT clear, is counted, and recorded where it reaches the threshold (R171, R192). -/
theorem countSlice_eq (he : s.xlat.slice.find? (fun e => decide (e.part = k) && decide (e.va = pageVa e.level va)) = some e)
    (hbit : bit e.leaf 7 = false) : countSlice s k va units =
      if reachesThreshold s k e units then hotRecord (sliceCounted s k e units) k (leafCounted s k e units)
      else sliceCounted s k e units := by
  have hmark : (!e.hot && decide (rf s (pgMf k) Reg.MF_CFG 0 16 ≠ 0) &&
      decide (rf s (pgMf k) Reg.MF_CFG 0 16 ≤ min (e.count + units) 65535)) = decide (reachesThreshold s k e units) := by
    simp [reachesThreshold, Bool.and_assoc]
  unfold countSlice
  rw [he]
  simp only [hbit, Bool.false_eq_true, if_false, hmark, decide_eq_true_eq]
  rfl

/-- The state with an entry's whole units of 4 KiB reported. -/
def microSent (s : State) (m : MicroEntry) : State :=
  { s with xlat := { s.xlat with micro := s.xlat.micro.map fun x => if x = m then { m with bytes := m.bytes % 4096 } else x } }

theorem microReport_eq (s : State) (m : MicroEntry) :
    microReport s m = countSlice (microSent s m) m.part m.va (m.bytes / 4096) := by
  have hmicro : (fun v : MicroEntry => if v = m then { v with bytes := v.bytes % 4096 } else v) =
      fun v => if v = m then { m with bytes := m.bytes % 4096 } else v :=
    funext fun v => ite_congr rfl (fun h => by rw [h]) fun _ => rfl
  rw [microReport, hmicro, microSent]

/-- The report of a micro-TLB entry is counted at the leaf of the slice that holds its page (R192). -/
theorem microtlbCountReport_counts
    (hm : s.xlat.micro.find? (fun e => decide (e.part = k) && decide (e.req = req) && decide (e.va = pageVa e.level va)) = some m)
    (he : s.xlat.slice.find? (fun e => decide (e.part = k) && decide (e.va = pageVa e.level m.va)) = some e)
    (hbit : bit e.leaf 7 = false) : exec (.microtlbCountReport k req va) s = .next
      (if reachesThreshold s k e (m.bytes / 4096) then
        hotRecord (sliceCounted (microSent s m) k e (m.bytes / 4096)) k (leafCounted (microSent s m) k e (m.bytes / 4096))
      else sliceCounted (microSent s m) k e (m.bytes / 4096)) := by
  have hpart : m.part = k := by
    have hmine := List.find?_some hm
    simp only [Bool.and_eq_true, decide_eq_true_eq] at hmine
    obtain ⟨⟨hpart, -⟩, -⟩ := hmine
    exact hpart
  subst hpart
  refine congrArg Host.Outcome.next ?_
  rw [hm]
  exact (microReport_eq s m).trans (countSlice_eq (s := microSent s m) he hbit)

end Reports

/-- Settles O26: a ring's registers are written as described, and a report is `countSlice` on the leaf it finds. -/
theorem faultAndHotPageRingsAreKept : Obligations.FaultAndHotPageRingsAreKept := by
  intro fn k req va v s hs hk hwait
  refine ⟨fun hw hok => ?faultRing, fun hw => ?faultCons, fun hw hok => ?hotRing, fun m e hm he hbit => ?report, ?epoch⟩
  case faultRing =>
    refine ⟨_, faultRingWrite_accepted hw hok hwait, ?_, ringDescribed_sameBut hs _ (by decide) _ _⟩
    rw [faultRing, ringDescribed_base hs, ringDescribed_log hs _ _ (by decide)]
  case faultCons =>
    exact ⟨_, faultConsWrite_accepted hw hwait, (rf_wf_same hs _ _ _ _ _ (by decide)).trans (fld_mod _ _ _),
      wf_sameBut hs _ _ _ _ _ (by decide)⟩
  case hotRing =>
    exact ⟨_, hotRingWrite_accepted hw hok, ringDescribed_base hs _ _ _ _, ringDescribed_log hs _ _ (by decide) _,
      ringDescribed_sameBut hs _ (by decide) _ _⟩
  case report =>
    have hreport := microtlbCountReport_counts hm he hbit
    refine ⟨fun hmark => ?_, fun hmark hoff => ?_, fun hmark => ?_⟩
    · rw [if_neg hmark] at hreport; exact hreport
    · rw [if_pos hmark, hotRecord_noRing (s := sliceCounted (microSent s m) k e (m.bytes / 4096)) hoff] at hreport
      exact hreport
    · rw [if_pos hmark] at hreport; exact hreport
  case epoch =>
    refine ⟨_, rfl, fun e he hpart => ?_, ?_, rfl⟩
    · obtain ⟨x, _, rfl⟩ := List.mem_map.1 he
      by_cases hx : x.part = k
      · simp [hx]
      · simp [hx] at hpart
    · rw [List.map_map]
      exact List.map_congr_left fun x _ => apply_ite SliceEntry.count _ _ _

end Sys2Proof.Machine
end

section
/-!
SUPPORT AND O28. PREFETCH and ADVISE: the walk of one page, the range that is dropped, the move of one leaf (R189 to R191).
-/

namespace Sys2Proof.Machine
open Sys2Proof

section Advice

variable {s t s1 s2 s3 s4 : State} {k x q va level a op m : Nat} {e : Word} {w : Work} {c : Instr} {f : State → Work → State}

/-- The command of a mode ends in what its meaning comes to on a descriptor that names the mode (R189). -/
theorem onMode_ends (hc : exec c s = .next (onMode s k x q op m f)) (hw : findWork s k x q op = some w)
    (hm : dOpf w.desc % 4 = m) (ht : f (begun s) w = t) : Ends c s t :=
  onWork_ends hc hw ((if_pos hm).trans ht)

/-! ### The walk of one page (R189, R190) -/

/-- A page whose leaf the slice does not hold brings it there. -/
theorem walkRange_fills (hq : quietWalk s k va = (some (level, e), s1)) (hnone : sliceOf s1 k va = none) :
    walkRange s k false 1 va 1 = fillSlice s1 k va level e := by
  simp [walkRange, hq, hnone]

/-- A page whose leaf the slice holds is pinned, while pins are left. -/
theorem walkRange_pins {v : SliceEntry} (hq : quietWalk s k va = (some (level, e), s1)) (hv : sliceOf s1 k va = some v)
    (hpin : v.pin = false) (hroom : (s1.xlat.slice.countP fun v => decide (v.part = k) && v.pin) < 1024) :
    walkRange s k true 1 va 1 = { s1 with xlat := { s1.xlat with
      slice := s1.xlat.slice.map fun u => if u = v then { v with pin := true } else u } } := by
  simp [walkRange, hq, hv, pinEntry, hpin, hroom]

/-! ### The range that is not needed (R185, R189) -/

/-- What is left of a partition's leaves lies outside the range that was dropped. -/
theorem dropXlat_outside {len : Nat} (hlen : len ≠ 0) {v : SliceEntry} (hv : v ∈ (dropXlat s k va len).xlat.slice)
    (hk : v.part = k) :
    v.va + levelSize v.level ≤ va ∨ va + len ≤ v.va := by
  have hkeep := (List.mem_filter.1 hv).2
  simp only [hk, hlen, decide_true, decide_false, Bool.true_and, Bool.false_or, Bool.not_eq_true', Bool.and_eq_false_iff,
    decide_eq_false_iff_not] at hkeep
  omega

/-! ### The move of one leaf (R191) -/

section Migrate

variable {n dst : Nat}

theorem migrateCheck_end {fuel i : Nat} (h : n ≤ i) : migrateCheck s k va n dst fuel i = (0, s) := by
  cases fuel with
  | zero => rfl
  | succ fuel => rw [migrateCheck, if_pos h]

/-- One leaf of the size of the range, aligned as the target and apart from it, earns no DETAIL. -/
theorem migrateCheck_oneLeaf (hleaf : leafAt s k va = (.ok (level, e, a), s1)) (hlevel : level ≠ 1) (hpage : pageVa level va = va)
    (hsize : levelSize level = n * 65536) (hn : 0 < n) (hdst : dst % (n * 65536) = 0)
    (hapart : ¬(leafPa e < dst + n * 65536 ∧ dst < leafPa e + n * 65536)) :
    migrateCheck s k va n dst (n + 1) 0 = (0, s1) := by
  rw [migrateCheck, if_neg (by omega)]
  simp only [Nat.zero_mul, Nat.add_zero, Nat.zero_add, hleaf, hsize]
  rw [if_neg (by simp [hlevel, hpage, hdst]), if_neg hapart]
  exact migrateCheck_end (by omega)

theorem migrateFrom_end {fuel i : Nat} (h : dK w.desc ≤ i) : migrateFrom s k w dst (fuel + 1) i = completeSt s w 0 := by
  rw [migrateFrom, if_pos h]

section OneLeaf

variable {b : Bytes} (hn : 0 < dK w.desc) (hleaf : leafAt s k (dA w.desc) = (.ok (level, e, a), s1))
  (hsize : levelSize level = dK w.desc * 65536)
include hn hleaf hsize

/-- The move waits for the accesses to the page. -/
theorem migrateFrom_waits (hmoved : w.moved = 0)
    (hbusy : pageBusy s1 k (dA w.desc) (leafPa e) (dK w.desc * 65536) = true) :
    migrateFrom s k w dst (dK w.desc + 1) 0 = setWork s1 w w := by
  have hself : { w with moved := 0 } = w := by rw [← hmoved]
  rw [migrateFrom, if_neg (by omega)]
  simp only [Nat.zero_mul, Nat.add_zero, hleaf, hsize, hself, hbusy, if_true]

/-- The leaf's bytes are moved, its entry points to them, and its cached translations are dropped. -/
theorem migrateFrom_moves (hfree : pageBusy s1 k (dA w.desc) (leafPa e) (dK w.desc * 65536) = false)
    (hread : devRead (evictRange s1 k (leafPa e) (dK w.desc * 65536)) k 168 (leafPa e) (dK w.desc * 65536) = (some b, s2))
    (hwrite : devWrite s2 k 168 dst b = (true, s3))
    (hentry : devWrite s3 k walkerPort a (wordBytes (setFld e 12 34 (dst / 4096))) = (true, s4)) :
    migrateFrom s k w dst (dK w.desc + 1) 0 = completeSt
      (addReg (dropXlat s4 k (dA w.desc) (dK w.desc * 65536)) (pgMf k) Reg.PAGES_MIGRATED (dK w.desc)) w 0 := by
  have hpages : dK w.desc * 65536 / 65536 = dK w.desc := Nat.mul_div_cancel _ (by decide)
  have hfuel : dK w.desc = dK w.desc - 1 + 1 := by omega
  rw [migrateFrom, if_neg (by omega)]
  simp only [Nat.zero_mul, Nat.add_zero, Nat.zero_add, hleaf, hsize, hfree, Bool.false_eq_true, if_false, hread, hwrite, hentry,
    Bool.not_true, hpages]
  generalize addReg _ _ _ _ = u
  rw [hfuel]
  exact migrateFrom_end (by omega)

end OneLeaf

/-- PREFETCH_MIGRATE moves what its check lets pass. -/
theorem prefetchMigrate_ends (hw : findWork s k x q 0x55 = some w) (hmode : dOpf w.desc % 4 = 1) (hdst : dB w.desc < 2 ^ 46)
    (halign : dB w.desc % 65536 = 0) (hown : ownRange k (dB w.desc) (dK w.desc * 65536) = true)
    (hcheck : migrateCheck (begun s) k (dA w.desc) (dK w.desc) (dB w.desc) (dK w.desc + 1) w.moved = (0, s1))
    (ht : migrateFrom s1 k w (dB w.desc) (dK w.desc + 1) w.moved = t) : Ends (.prefetchMigrate k x q) s t := by
  refine onMode_ends rfl hw hmode ?_
  rw [if_neg (by simpa [halign, hown] using hdst)]
  simp only [hcheck, ht]

end Migrate

end Advice

/-- Settles O28: each command is its mode's meaning, and one page or one leaf is one round of the walk or of the move. -/
theorem prefetchAndAdviceCompleteOk : Obligations.PrefetchAndAdviceCompleteOk := by
  intro k x q level a e b w s s1 s2 s3 s4 s5 d va n mode
  refine ⟨fun hmode => ⟨?translate, fun hone hwalk hnone => ?fills⟩,
    fun hmode => ⟨?pin, fun v hone hwalk hv hfree hroom => ?pins⟩,
    fun hmode => ?unpin, fun hmode => ⟨?drop, fun v hv hpart hrange => ?outside⟩,
    fun hmode hmoved hleaf hlevel hpage hsize hn hdst halign hown hapart hagain => ?migrate⟩
  case translate => exact onMode_ends rfl hmode.1 hmode.2 rfl
  case fills =>
    refine onMode_ends rfl hmode.1 hmode.2 ?_
    rw [show dK w.desc = 1 from hone]
    exact congrArg (completeSt · w 0) (walkRange_fills hwalk hnone)
  case pin => exact onMode_ends rfl hmode.1 hmode.2 rfl
  case pins =>
    refine onMode_ends rfl hmode.1 hmode.2 ?_
    rw [show dK w.desc = 1 from hone]
    exact congrArg (completeSt · w 0) (walkRange_pins hwalk hv hfree hroom)
  case unpin =>
    refine onMode_ends rfl hmode.1 hmode.2 ?_
    simp only [inEntry, Bool.and_eq_true, decide_eq_true_eq]
    rfl
  case drop => exact onMode_ends rfl hmode.1 hmode.2 rfl
  case outside => exact dropXlat_outside (by omega) hv hpart
  case migrate =>
    have haligned : dB d % 65536 = 0 := by
      rw [← Nat.mod_mul_left_mod _ (dK d), halign]
    have hcheck : migrateCheck (begun s) k (dA d) (dK d) (dB d) (dK d + 1) w.moved = (0, s1) := by
      rw [hmoved]
      exact migrateCheck_oneLeaf hleaf hlevel hpage hsize hn halign hapart
    have hends : ∀ t, migrateFrom s1 k w (dB d) (dK d + 1) 0 = t → Ends (.prefetchMigrate k x q) s t := fun t ht =>
      prefetchMigrate_ends hmode.1 hmode.2 hdst haligned hown hcheck (by rw [hmoved]; exact ht)
    exact ⟨fun hbusy => hends _ (migrateFrom_waits hn hagain hsize hmoved hbusy),
      fun hfree hread hwrite hentry => hends _ (migrateFrom_moves hn hagain hsize hfree hread hwrite hentry)⟩

end Sys2Proof.Machine
end

section
/-!
SUPPORT AND O30. A replaced bank whose event the recorder watches, as the kernel evaluates it (R228, R451).
-/

namespace Sys2Proof.Machine

open Sys2Proof

/-- Bank 0 of slice 0 is being replaced while the slice is filled; trigger 0 of the recorder watches the replacement's event and
takes a snapshot of `QUAY_PORT_STAT`, which counts the requests in the slice's queue. -/
def spareWatched : State :=
  wr { fillWatched with quay := { fillWatched.quay with replacing := [(0, 0)] } } pgEvr (Reg.EVR_TRIG 0)
    (w64 (pgQuay 0 + 1 <<< 24 + 1 <<< 32))

/-- The same with a read in the slice's queue, which the fill goes on holding. -/
def spareWatchedHeld : State := { spareWatched with heldPorts := [waitingRead] }

theorem spareWatched_canonical : spareWatched.canonical :=
  wr_canonical (s := { fillWatched with quay := { fillWatched.quay with replacing := [(0, 0)] } }) fillWatchedHeld_canonical

theorem spareWatchedHeld_canonical : spareWatchedHeld.canonical := spareWatched_canonical

theorem spareWatched_snapshots :
    observe (fun u => (firstSnapshots u, portHeld u waitingRead.2)) (exec (.bankReplaceComplete 0 0) spareWatched) =
      some ([0, 656], true) := by
  decide +kernel

theorem spareWatchedHeld_snapshots :
    observe firstSnapshots (exec (.bankReplaceComplete 0 0) spareWatchedHeld) = some [1, 656] := by
  decide +kernel

/-- Refutes O30: a replacement raises its event before it serves what waits, so a recorder's snapshot of `QUAY_PORT_STAT` counts
the read that waits; with none waiting the command leaves another entry, where the statement has the two differ only by serving. -/
theorem not_deviceMemoryIsReadAndWritten : ¬ Obligations.DeviceMemoryIsReadAndWritten := by
  intro h
  obtain ⟨-, -, hreplaced, -⟩ := h.2 0 0 0 0 0 0 false [] .clean spareWatchedHeld spareWatchedHeld_canonical
    (by decide) (by decide) (by decide) (by decide)
  obtain ⟨u, hu, hserved⟩ := (hreplaced (by decide)).1
  have hnone := spareWatched_snapshots
  have hheld := spareWatchedHeld_snapshots
  rw [show spareWatched = { spareWatchedHeld with heldPorts := [] } from rfl, hu] at hnone
  obtain ⟨hzero, hwaits⟩ := Prod.mk.inj (Option.some.inj hnone)
  have hsame : spareWatchedHeld.heldPorts.foldl (fun t e => if portHeld t e.2 then holdPort t e else portNow t e.2) u =
      holdPort u waitingRead := if_pos hwaits
  rw [hserved, hsame] at hheld
  exact absurd ((Option.some.inj hheld).symm.trans hzero) (by decide)

end Sys2Proof.Machine
end

section
/-!
SUPPORT AND O31. A row repair whose event the recorder watches, as the kernel evaluates it (R213, R451).
-/

namespace Sys2Proof.Machine

open Sys2Proof

/-- The repair that runs on pseudo-channel 0 of controller 0: its row 0 of bank 0 goes to slot 0 of the pool. -/
def watchedRepair : PoolEntry := ⟨0, 0, 0, 0, 0, 0, 0, false, false⟩

/-- That repair runs while slice 0 is filled; trigger 0 of the recorder watches the repair's event and takes a snapshot of
`QUAY_PORT_STAT`, which counts the requests in the slice's queue. -/
def repairWatched : State :=
  wr { fillWatched with hbm := { fillWatched.hbm with pool := [watchedRepair], repairs := [(0, 0, 0)] } } pgEvr
    (Reg.EVR_TRIG 0) (w64 (pgMc 0 + 1 <<< 24 + 1 <<< 32))

/-- The same with a read in the slice's queue, which the fill goes on holding. -/
def repairWatchedHeld : State := { repairWatched with heldPorts := [waitingRead] }

theorem repairWatched_canonical : repairWatched.canonical :=
  wr_canonical (s := { fillWatched with hbm := { fillWatched.hbm with pool := [watchedRepair], repairs := [(0, 0, 0)] } })
    fillWatchedHeld_canonical

theorem repairWatchedHeld_canonical : repairWatchedHeld.canonical := repairWatched_canonical

theorem runningRepair_repairWatchedHeld : runningRepair repairWatchedHeld 0 0 = some watchedRepair := by
  decide +kernel

theorem repairWatched_snapshots :
    observe (fun u => (firstSnapshots u, portHeld u waitingRead.2)) (exec (.rowRepairComplete 0 0) repairWatched) =
      some ([0, 640], true) := by
  decide +kernel

theorem repairWatchedHeld_snapshots :
    observe firstSnapshots (exec (.rowRepairComplete 0 0) repairWatchedHeld) = some [1, 640] := by
  decide +kernel

/-- A command that shows one list of snapshots with nothing waiting, and another with the read in the slice's queue, does more
than serve the read where the slice still holds it: putting the read back into the queue makes no entry of the recorder. -/
theorem not_thenServes_of_snapshots {c : Instr} {s : State} {alone held : List Word} (hqueue : s.heldPorts = [waitingRead])
    (halone : observe (fun u => (firstSnapshots u, portHeld u waitingRead.2)) (exec c { s with heldPorts := [] }) =
      some (alone, true))
    (hheld : observe firstSnapshots (exec c s) = some held) (hne : held ≠ alone) : ¬ ThenServes c s := by
  rintro ⟨u, hu, hserved⟩
  rw [hu] at halone
  obtain ⟨hsnaps, hwaits⟩ := Prod.mk.inj (Option.some.inj halone)
  rw [hserved, hqueue, List.foldl_cons, List.foldl_nil, if_pos hwaits] at hheld
  exact hne ((Option.some.inj hheld).symm.trans hsnaps)

/-- Refutes O31: a row repair raises its event before it serves what waits, so a recorder's snapshot of `QUAY_PORT_STAT` counts
the read that waits; with none waiting the command leaves another entry, where the statement has the two differ only by serving. -/
theorem not_controllersRepairRefreshAndPatrol : ¬ Obligations.ControllersRepairRefreshAndPatrol := by
  intro h
  obtain ⟨hrepaired, -⟩ := h 0 0 0 0 .clean watchedRepair repairWatchedHeld repairWatchedHeld_canonical
    (by decide) (by decide) (by decide) (by decide)
  have hserves : ThenServes (.rowRepairComplete 0 0) repairWatchedHeld := (hrepaired runningRepair_repairWatchedHeld).1
  exact not_thenServes_of_snapshots rfl repairWatched_snapshots repairWatchedHeld_snapshots (by decide) hserves

end Sys2Proof.Machine
end

section
/-!
SUPPORT AND O33. A cycle of the clock with a share-window write that names no partition (R169, R256).
-/

namespace Sys2Proof.Machine

open Sys2Proof

/-- The package with power and a clock, and a write of a share window that waits for number 616, which is no partition: the
register it names is `BE_LIMIT_0` of ring 0, and the value a BURST of one slot.  The commands that the opcode table allows leave
no such write waiting; the state is canonical all the same. -/
def strayShare : State :=
  { State.reset with
    board := { State.reset.board with pwrOk := true }
    xlat := { State.reset.xlat with shareWaits := [(616, 2, w64 0x10000)] } }

theorem strayShare_canonical : strayShare.canonical := reset_canonical

theorem beFull_strayShare : rf strayShare (pgRing 0) (Reg.BE_LIMIT (0 % 16)) 16 8 * 256 = 16384 := by
  decide +kernel

theorem beTokens_strayShare : beTokens strayShare 0 0 false 0 = 16384 := by
  decide +kernel

theorem beTokens_step_strayShare : observe (fun t => beTokens t 0 0 false 0) (step strayShare) = some 256 := by
  decide +kernel

/-- Refutes O33: a cycle makes the share-window writes that wait (R169), and its clause on the regulators leaves out, where O2 has
it, that none waits.  One that names no partition sets a BURST of one slot, so that a full regulator holds 256 bytes after the
cycle, where the statement has it hold the 16,384 of the BURST before. -/
theorem not_packetsCrossTheRings : ¬ Obligations.PacketsCrossTheRings := by
  intro h
  obtain ⟨-, -, hcycle⟩ := h.2.1 .host .host .control 0 0 0 0 0 ⟨0, .host, .host, .control, 0, 0, 0, none, false⟩
    ⟨0, false, 0, 0⟩ [] strayShare strayShare_canonical (by decide) (by decide)
  obtain ⟨t, ht, htokens⟩ := hcycle rfl rfl rfl
  have hstep := beTokens_step_strayShare
  rw [ht] at hstep
  have hafter : beTokens t 0 0 false 0 = 256 := Option.some.inj hstep
  have hstated := htokens 0 false
  rw [hafter, beFull_strayShare, beTokens_strayShare, Nat.min_eq_left (Nat.le_add_right _ _)] at hstated
  exact absurd hstated (by decide)

end Sys2Proof.Machine
end

section
/-!
SUPPORT AND O34. Deals, the route table and the lanes of the rings (R246, R247, R255, R263, R264, R266).
-/

namespace Sys2Proof.Machine

open Sys2Proof

/-- RING pages are not the recorder's, whose registers mark events (R451). -/
theorem pgRing_ne_pgEvr (r : Nat) : pgRing r ≠ pgEvr := by simp only [pgRing, pgEvr]; omega

/-! ### Tallies: routes, spares and disabled lanes -/

section Tally

variable (l m : List (Nat × Nat)) (i : Nat)

theorem tally_removed : tally (l.filter fun e => decide (e.1 ≠ i)) i = 0 := by
  have hnone : (l.filter fun e => decide (e.1 ≠ i)).find? (fun e => decide (e.1 = i)) = none := by simp
  rw [tally, hnone]
  rfl

theorem tally_append_of_absent (h : ∀ e ∈ l, e.1 ≠ i) : tally (l ++ m) i = tally m i := by
  have hnone : l.find? (fun e => decide (e.1 = i)) = none := by simpa using h
  rw [tally, List.find?_append, hnone, Option.none_or, ← tally]

theorem tally_replaced_same (v : Nat) : tally ((l.filter fun e => decide (e.1 ≠ i)) ++ [(i, v)]) i = v := by
  rw [tally_append_of_absent _ _ _ (by simp)]
  simp [tally]

variable {l m i}

theorem tally_replaced_other {j : Nat} (hj : j ≠ i) (hm : ∀ e ∈ m, e.1 = i) :
    tally ((l.filter fun e => decide (e.1 ≠ i)) ++ m) j = tally l j := by
  have hkeep : (l.filter fun e => decide (e.1 ≠ i)).find? (fun e => decide (e.1 = j)) = l.find? fun e => decide (e.1 = j) := by
    rw [List.find?_filter]
    refine congrArg (List.find? · l) (funext fun e => ?_)
    by_cases he : e.1 = j
    · simp [he, hj]
    · simp [he]
  have hnone : m.find? (fun e => decide (e.1 = j)) = none := by
    simp only [List.find?_eq_none, decide_eq_true_eq]
    exact fun e he hej => hj (hej.symm.trans (hm e he))
  rw [tally, List.find?_append, hkeep, hnone, Option.or_none, ← tally]

end Tally

/-! ### Deals (R255) -/

section Deals

variable {s : State} {fn r : Nat}

theorem ringEntries_replaced_same (t u : List (Nat × Nat)) (r : Nat) :
    ringEntries ((t.filter fun e => decide (e.1 / 1024 ≠ r)) ++ ringEntries u r) r = ringEntries u r := by
  simp [ringEntries, List.filter_filter]

theorem ringEntries_replaced_other (t u : List (Nat × Nat)) {q : Nat} (hq : q ≠ r) :
    ringEntries ((t.filter fun e => decide (e.1 / 1024 ≠ r)) ++ ringEntries u r) q = ringEntries t q := by
  have hkept : ∀ e ∈ t, (decide (e.1 / 1024 = q) && decide (e.1 / 1024 ≠ r)) = decide (e.1 / 1024 = q) := by
    intro e _
    by_cases he : e.1 / 1024 = q
    · simp [he, hq]
    · simp [he]
  have hgone : (u.filter fun e => decide (e.1 / 1024 = q) && decide (e.1 / 1024 = r)) = [] := by
    simp only [List.filter_eq_nil_iff, Bool.and_eq_true, decide_eq_true_eq]
    exact fun e _ he => hq (he.1.symm.trans he.2)
  rw [ringEntries, List.filter_append, List.filter_filter, List.filter_congr hkept, ringEntries, List.filter_filter, hgone,
    List.append_nil, ← ringEntries]

/-- A commit of the ring would move an entry of a sealed partition in strict mode (R255). -/
abbrev commitMoves (s : State) (r : Nat) : Prop := rb s (pgRing r) Reg.RING_CTL 0 = true ∧ movesSealed s r = true

/-- The state with a commit of the ring pending. -/
def commitAsked (s : State) (r : Nat) : State :=
  wb { s with fab := { s.fab with commits := s.fab.commits ++ [r] } } (pgRing r) Reg.DEAL_STAT 16 true

/-- The state with the ring's commit pending no longer. -/
def commitEnded (s : State) (r : Nat) : State :=
  wb { s with fab := { s.fab with commits := s.fab.commits.filter fun q => q ≠ r } } (pgRing r) Reg.DEAL_STAT 16 false

/-- The state with the ring's shadow entries active and its generation advanced. -/
def dealAdvanced (s : State) (r : Nat) : State :=
  wf { commitEnded s r with fab := { (commitEnded s r).fab with
    active := (s.fab.active.filter fun e => e.1 / 1024 ≠ r) ++ ringEntries s.fab.shadow r } } (pgRing r) Reg.DEAL_STAT 0 16
    (rf s (pgRing r) Reg.DEAL_STAT 0 16 + 1)

theorem commitEnded_canonical (h : s.canonical) : (commitEnded s r).canonical := wb_canonical (s := { s with fab := _ }) h

theorem dealAdvanced_canonical (h : s.canonical) : (dealAdvanced s r).canonical :=
  wf_canonical (s := { commitEnded s r with fab := _ }) (commitEnded_canonical h)

theorem mem_commitEnded (q : Nat) : q ∈ (commitEnded s r).fab.commits ↔ q ∈ s.fab.commits ∧ q ≠ r := by
  simp [commitEnded, wb, wf, wr]

theorem rb_commitEnded (h : s.canonical) : rb (commitEnded s r) (pgRing r) Reg.DEAL_STAT 16 = false :=
  rb_wb_same (s := { s with fab := _ }) h _ _ _ _ (by decide)

theorem dealCommit_accepted (hr : r < 8) (hw : MayWrite s fn (pgRing r) Reg.DEAL_COMMIT) (hnew : r ∉ s.fab.commits)
    (hmoves : ¬ commitMoves s r) : exec (.dealCommit fn r) s = .next (commitAsked s r) := by
  refine congrArg Host.Outcome.next ((if_pos hr).trans ?_)
  rw [withWrite_accepted hw, guarded_accepted (by simpa [hnew, ← Bool.not_eq_true, or_iff_not_imp_left] using hmoves)]
  rfl

theorem commitDone_advances (hp : r ∈ s.fab.commits) (hmoves : ¬ commitMoves s r) :
    exec (.commitDone r) s = .next (raiseEvt (dealAdvanced s r) (pgRing r) 3) := by
  refine congrArg Host.Outcome.next ((if_pos (by simpa using hp)).trans (if_neg ?_))
  rw [Bool.and_eq_true]
  exact hmoves

theorem commitDone_rejected (hp : r ∈ s.fab.commits) (hmoves : commitMoves s r) :
    exec (.commitDone r) s = .next (reject (commitEnded s r) (pgRing r)) := by
  refine congrArg Host.Outcome.next ((if_pos (by simpa using hp)).trans (if_pos ?_))
  rw [Bool.and_eq_true]
  exact hmoves

theorem not_evtReg_dealStat : ¬ evtReg (pgRing r) Reg.DEAL_STAT := not_evtReg (by decide)

theorem dealAdvanced_sameBut (h : s.canonical) : SameBut (oneReg (pgRing r) Reg.DEAL_STAT)
    { s with fab := { s.fab with active := (dealAdvanced s r).fab.active, commits := (dealAdvanced s r).fab.commits } }
    (dealAdvanced s r) :=
  (wb_sameBut (s := { s with fab := { s.fab with
      active := (dealAdvanced s r).fab.active, commits := (dealAdvanced s r).fab.commits } }) h _ _ 16 false (by decide)).trans'
    (wf_sameBut (s := { commitEnded s r with fab := (dealAdvanced s r).fab }) (commitEnded_canonical h) _ _ 0 16
      (rf s (pgRing r) Reg.DEAL_STAT 0 16 + 1) (by decide))

theorem rb_dealAdvanced (h : s.canonical) : rb (dealAdvanced s r) (pgRing r) Reg.DEAL_STAT 16 = false :=
  (rb_wf_other (s := { commitEnded s r with fab := _ }) (commitEnded_canonical h) _ _ _ _ _ 16 (by decide) (by decide)).trans
    (rb_commitEnded h)

theorem rf_dealAdvanced (h : s.canonical) :
    rf (dealAdvanced s r) (pgRing r) Reg.DEAL_STAT 0 16 = (rf s (pgRing r) Reg.DEAL_STAT 0 16 + 1) % 2 ^ 16 :=
  rf_wf_same (s := { commitEnded s r with fab := _ }) (commitEnded_canonical h) _ _ _ _ _ (by decide)

end Deals

/-! ### The route table (R246, R247) -/

section Routes

variable {s : State} {fn : Nat}

theorem routeModeWrite_accepted (hw : MayWrite s fn (pgRing 0) Reg.FAB_CTL) (v : Word) :
    exec (.routeModeWrite fn v) s = .next (wb s (pgRing 0) Reg.FAB_CTL 0 (bit v 0)) :=
  congrArg Host.Outcome.next (withWrite_accepted hw _)

theorem setRoute_routes (s : State) (src dst e : Nat) : (setRoute s src dst e).fab.routes =
    (s.fab.routes.filter fun x => x.1 ≠ src * 64 + dst) ++ if e = 0 then [] else [(src * 64 + dst, e)] := rfl

theorem tally_setRoute_same (s : State) (src dst e : Nat) : tally (setRoute s src dst e).fab.routes (src * 64 + dst) = e := by
  rw [setRoute_routes]
  by_cases he : e = 0
  · rw [if_pos he, List.append_nil, he]
    exact tally_removed _ _
  · rw [if_neg he]
    exact tally_replaced_same _ _ _

theorem tally_setRoute_other (s : State) {src dst i : Nat} (e : Nat) (hi : i ≠ src * 64 + dst) :
    tally (setRoute s src dst e).fab.routes i = tally s.fab.routes i := by
  rw [setRoute_routes]
  refine tally_replaced_other hi fun x hx => ?_
  split at hx
  · simp at hx
  · rw [List.mem_singleton.1 hx]

theorem routeDataWrite_accepted {v : Word} {src dst : Nat} (hw : MayWrite s fn (pgRing 0) Reg.ROUTE_DATA)
    (hsrc : rf s (pgRing 0) Reg.ROUTE_SEL 0 6 = src) (hdst : rf s (pgRing 0) Reg.ROUTE_SEL 8 6 = dst)
    (hok : fld v 0 12 = tally s.fab.routes (src * 64 + dst) ∨
      locked s (pgRing 0) = false ∧ routeOk s src dst (fld v 0 12) = true) :
    exec (.routeDataWrite fn v) s = .next (setRoute s src dst (fld v 0 12)) := by
  subst hsrc hdst
  refine congrArg Host.Outcome.next ?_
  rw [withWrite_accepted hw, guarded_accepted]
  split
  · rfl
  · next hnew =>
    obtain ⟨hopen, hroute⟩ := hok.resolve_left hnew
    rw [hopen, hroute]
    rfl

end Routes

/-! ### Replays (R263, R266) -/

section Replays

variable {s : State} {r link lane group wire : Nat} {dir : Bool}

/-- The state with a failure of bit lane `w` noted and the slot's packet, if there is one, a frame later. -/
def replayNoted (s : State) (key w : Nat) : Option Nat → State
  | none => noteWire s w
  | some n => replayPacket (noteWire s w) n key

theorem replayPacket_moves (s : State) (id key : Nat) :
    ∃ packets used, replayPacket s id key = { s with fab := { s.fab with packets := packets, used := used } } := by
  unfold replayPacket
  split
  · exact ⟨_, _, rfl⟩
  · dsimp only
    split
    · exact ⟨_, _, rfl⟩
    · exact ⟨_, _, rfl⟩

theorem replayPacket_rest (s : State) (id key : Nat) :
    replayPacket s id key = { s with fab := (replayPacket s id key).fab } := by
  obtain ⟨packets, used, heq⟩ := replayPacket_moves s id key
  rw [heq]

theorem replayPacket_laneErrs (s : State) (id key : Nat) : (replayPacket s id key).fab.laneErrs = s.fab.laneErrs := by
  obtain ⟨packets, used, heq⟩ := replayPacket_moves s id key
  rw [heq]

theorem replayPacket_addReg (s : State) (p off n id key : Nat) :
    replayPacket (addReg s p off n) id key = addReg (replayPacket s id key) p off n := by
  unfold replayPacket
  rw [addReg_fab]
  split
  · rfl
  · dsimp only
    split
    · rfl
    · rfl

theorem replayNoted_rest (s : State) (key w : Nat) (id : Option Nat) :
    replayNoted s key w id = { s with fab := (replayNoted s key w id).fab } := by
  cases id with
  | none => rfl
  | some n => exact replayPacket_rest (noteWire s w) n key

theorem replayNoted_laneErrs (s : State) (key w : Nat) (id : Option Nat) :
    (replayNoted s key w id).fab.laneErrs = (noteWire s w).fab.laneErrs := by
  cases id with
  | none => rfl
  | some n => exact replayPacket_laneErrs _ _ _

theorem rd_replayNoted (s : State) (key w : Nat) (id : Option Nat) (p o : Nat) : rd (replayNoted s key w id) p o = rd s p o := by
  rw [replayNoted_rest]
  rfl

theorem replayNoted_canonical (h : s.canonical) (key w : Nat) (id : Option Nat) : (replayNoted s key w id).canonical := by
  rw [replayNoted_rest]
  exact h

theorem replayNoted_packets {key w i n : Nat} {k : Packet}
    (hk : s.fab.packets.find? (fun p => decide (p.load.id = i)) = some k)
    (hn : (legLinks k.leg).findIdx? (fun j => decide (linkKey k.leg.ring j k.leg.back = key)) = some n) :
    (replayNoted s key w (some i)).fab.packets =
      s.fab.packets.map fun x => if x = k then { k with cycle := k.cycle + 64 } else x := by
  have hk' : (noteWire s w).fab.packets.find? (fun p => decide (p.load.id = i)) = some k := hk
  rw [replayNoted, replayPacket, hk']
  simp only [hn]
  rfl

/-- The failures of a bit lane are read from the list and the clock. -/
theorem wireErrs_congr {t : State} (hlist : t.fab.laneErrs = s.fab.laneErrs)
    (htime : rd t pgErr Reg.ERR_TIME = rd s pgErr Reg.ERR_TIME) (w : Nat) : wireErrs t w = wireErrs s w := by
  rw [wireErrs, hlist, htime, ← wireErrs]

theorem wireErrs_noteWire (s : State) (w : Nat) : wireErrs (noteWire s w) w = wireErrs s w + 1 := by
  have htime : rd (noteWire s w) pgErr Reg.ERR_TIME = rd s pgErr Reg.ERR_TIME := rfl
  rw [wireErrs, htime]
  simp [noteWire, List.countP_append, List.countP_filter, wireErrs]

/-- The ring has the link, which is up, and the link has the lane and the group. -/
structure LaneOf (s : State) (r link lane group : Nat) (dir : Bool) : Prop where
  ringLt : r < 8
  linkLt : link < ringLinks r
  laneLt : lane < 4
  groupLt : group < 8
  up : linkKey r link dir ∉ s.fab.down

theorem LaneOf.notDown (hl : LaneOf s r link lane group dir) : (!(s.fab.down.contains (linkKey r link dir))) = true := by
  simpa using hl.up

/-- The state with a replay counted, before its slot fails again. -/
def replayCounted (s : State) (r link : Nat) (dir : Bool) (lane group wire : Nat) (id : Option Nat) : State :=
  addReg (replayNoted s (linkKey r link dir) (wireKey r link dir lane group wire) id) (pgRing r) Reg.CRC_REPLAYS 1

/-- A replay that `again` says fails once more is an error too (R263, R266); else it is only counted. -/
def replayEnded (s : State) (r again : Nat) : State :=
  if again = 1 then Machine.countError s (pgRing r) 1 3 0 none else s

theorem crcReplay_counts (hl : LaneOf s r link lane group dir) (hwire : wire < 34) (id : Option Nat) {again : Nat}
    (hagain : again ≠ 2) : exec (.crcReplay r link dir lane group wire id again) s =
      .next (replayEnded (replayCounted s r link dir lane group wire id) r again) := by
  refine congrArg Host.Outcome.next ((if_pos ⟨hl.ringLt, hl.linkLt, hl.laneLt, hl.groupLt, hwire, hl.notDown⟩).trans ?_)
  rw [if_neg hagain]
  cases id with
  | none => rfl
  | some n =>
    rw [replayCounted, replayNoted, ← replayPacket_addReg]
    rfl

theorem crcReplay_parity (hl : LaneOf s r link lane group dir) (hwire : wire < 34) (id : Option Nat) :
    exec (.crcReplay r link dir lane group wire id 2) s = .next (Machine.countError s (pgRing r) 4 3 0 none) :=
  congrArg Host.Outcome.next
    ((if_pos ⟨hl.ringLt, hl.linkLt, hl.laneLt, hl.groupLt, hwire, hl.notDown⟩).trans (if_pos rfl))

theorem replayCounted_canonical (h : s.canonical) (id : Option Nat) :
    (replayCounted s r link dir lane group wire id).canonical := addReg_canonical (replayNoted_canonical h _ _ _)

/-- The registers that a replay may write: its count, and those of an error (R263, R266). -/
abbrev replayReg (r p off : Nat) : Prop :=
  p = pgRing r ∧ (off = Reg.CRC_REPLAYS ∨ off = Reg.ERR_COUNT ∨ off = Reg.ERR_FIRST)

theorem replayCounted_sameBut (h : s.canonical) (id : Option Nat) : SameBut (replayReg r)
    { s with fab := (replayCounted s r link dir lane group wire id).fab } (replayCounted s r link dir lane group wire id) := by
  rw [replayCounted, addReg_fab, ← replayNoted_rest]
  exact (addReg_sameBut (replayNoted_canonical h _ _ _) _ _ _ (by decide)).mono fun _ _ hp => ⟨hp.1, .inl hp.2⟩

theorem rd_replayCounted (h : s.canonical) (id : Option Nat) {p o : Nat} (ho : o < 0x10000)
    (hne : ¬(p = pgRing r ∧ o = Reg.CRC_REPLAYS)) : rd (replayCounted s r link dir lane group wire id) p o = rd s p o :=
  (rd_wr_other (replayNoted_canonical h _ _ _) _ (by decide) ho hne).trans (rd_replayNoted _ _ _ _ _ _)

theorem rd_replayCounted_replays (h : s.canonical) (id : Option Nat) :
    rd (replayCounted s r link dir lane group wire id) (pgRing r) Reg.CRC_REPLAYS = rd s (pgRing r) Reg.CRC_REPLAYS + 1 := by
  rw [replayCounted, rd_addReg_same (replayNoted_canonical h _ _ _), rd_replayNoted]
  rfl

theorem wireErrs_replayCounted (h : s.canonical) (id : Option Nat) :
    wireErrs (replayCounted s r link dir lane group wire id) (wireKey r link dir lane group wire) =
      wireErrs s (wireKey r link dir lane group wire) + 1 := by
  refine Eq.trans (wireErrs_congr (s := noteWire s (wireKey r link dir lane group wire)) ?_ ?_ _) (wireErrs_noteWire _ _)
  · rw [replayCounted, addReg_fab, replayNoted_laneErrs]
  · exact rd_replayCounted h id (by decide) fun hp => absurd hp.2 (by decide)

theorem replayEnded_fab (s : State) (r again : Nat) : (replayEnded s r again).fab = s.fab := by
  unfold replayEnded
  split
  · exact countError_fab _ _ _ _ _ _
  · rfl

theorem replayEnded_sameBut (h : s.canonical) (again : Nat) :
    SameBut (fun p o => p = pgRing r ∧ (o = Reg.ERR_COUNT ∨ o = Reg.ERR_FIRST)) s (replayEnded s r again) := by
  unfold replayEnded
  split
  · exact countErrorAt_sameBut h _ _ _ _ _ _
  · exact .refl _ _

theorem rd_replayEnded_count (h : s.canonical) (again : Nat) : rd (replayEnded s r again) (pgRing r) Reg.ERR_COUNT =
    rd s (pgRing r) Reg.ERR_COUNT + if again = 1 then 1 else 0 := by
  unfold replayEnded
  split
  · exact rd_countError_count h (pgRing_ne_pgEvr r) _ _ _ _
  · exact (BitVec.add_zero _).symm

theorem rd_replayEnded (h : s.canonical) (again : Nat) {p o : Nat} (ho : o < 0x10000) (hp : p ≠ pgEvr)
    (hevt : o ≠ Reg.EVT_STAT) (hcount : o ≠ Reg.ERR_COUNT) (hfirst : o ≠ Reg.ERR_FIRST) :
    rd (replayEnded s r again) p o = rd s p o :=
  (replayEnded_sameBut h again).rd_eq ho (not_evtReg_of_page hp hevt) fun hq => hq.2.elim hcount hfirst

/-- A replayed slot is counted on its ring and its bit lane, and an error where it fails again; its packet goes one frame later
(R263, R266). -/
theorem replay_recorded (h : s.canonical) (id : Option Nat) (again : Nat) {t : State}
    (ht : replayEnded (replayCounted s r link dir lane group wire id) r again = t) :
    rd t (pgRing r) Reg.CRC_REPLAYS = rd s (pgRing r) Reg.CRC_REPLAYS + 1 ∧
    rd t (pgRing r) Reg.ERR_COUNT = rd s (pgRing r) Reg.ERR_COUNT + (if again = 1 then 1 else 0) ∧
    wireErrs t (wireKey r link dir lane group wire) = wireErrs s (wireKey r link dir lane group wire) + 1 ∧
    t.fab.packets = (replayNoted s (linkKey r link dir) (wireKey r link dir lane group wire) id).fab.packets ∧
    SameBut (replayReg r) { s with fab := t.fab } t := by
  have hc : (replayCounted s r link dir lane group wire id).canonical := replayCounted_canonical h id
  have hfab : t.fab = (replayCounted s r link dir lane group wire id).fab := by rw [← ht, replayEnded_fab]
  refine ⟨?_, ?_, ?_, ?_, ?_⟩
  · rw [← ht, rd_replayEnded hc again (by decide) (pgRing_ne_pgEvr r) (by decide) (by decide) (by decide),
      rd_replayCounted_replays h]
  · rw [← ht, rd_replayEnded_count hc, rd_replayCounted h id (by decide) fun hp => absurd hp.2 (by decide)]
  · rw [← wireErrs_replayCounted h id]
    refine wireErrs_congr (by rw [hfab]) ?_ _
    rw [← ht, rd_replayEnded hc again (by decide) (by decide) (by decide) (by decide) (by decide)]
  · rw [hfab, replayCounted, addReg_fab]
  · rw [hfab, ← ht]
    exact (replayCounted_sameBut h id).trans' ((replayEnded_sameBut hc again).mono fun _ _ hp => ⟨hp.1, .inr hp.2⟩)

end Replays

/-! ### Spares and lanes (R263, R264) -/

section Lanes

variable {s : State} {r link lane group wire cycle : Nat} {dir : Bool}

/-- The state with the failures of a bit lane forgotten. -/
def wireForgotten (s : State) (w : Nat) : State :=
  { s with fab := { s.fab with laneErrs := s.fab.laneErrs.filter fun e => e.1 ≠ w } }

theorem wireForgotten_canonical (h : s.canonical) (w : Nat) : (wireForgotten s w).canonical := h

/-- The state with a spare of group `g` in use, which the field map keeps. -/
def spareNoted (s : State) (g : Nat) : State :=
  { s with
    fab := { s.fab with spares := tallyUp s.fab.spares g }
    flash := { s.flash with fieldMap := { s.flash.fieldMap with spares := s.flash.fieldMap.spares ++ [g] } } }

/-- The state with a lane of the link `key` off. -/
def laneNoted (s : State) (key lane : Nat) : State :=
  { s with fab := { s.fab with
    lanesOff := (s.fab.lanesOff.filter fun e => e.1 ≠ key) ++ [(key, tally s.fab.lanesOff key ||| (1 <<< lane))] } }

/-- A lane of a link is disabled, before the link is looked at. -/
def laneDisabled (s : State) (r key lane : Nat) : State :=
  raiseEvt (Machine.countError (laneNoted s key lane) (pgRing r) 2 0 0 none) (pgRing r) 1

/-- The state with a link marked down, before its ring's page reports it. -/
def linkNoted (s : State) (r link : Nat) (back : Bool) (now : Nat) : State :=
  { s with
    fab := { s.fab with
      down := s.fab.down ++ [linkKey r link back]
      packets := s.fab.packets.map (turnBack r link back now)
      used := s.fab.used.filter fun u => !(u.1 = linkKey r link back && decide (now ≤ u.2))
      faulted := if s.fab.faulted.contains r then s.fab.faulted else s.fab.faulted ++ [r] }
    flash := { s.flash with fieldMap := { s.flash.fieldMap with links := s.flash.fieldMap.links ++ [linkKey r link back] } } }

/-- The recorder's entry of a lane that changed. -/
def laneRecorded (s : State) (r link : Nat) (dir : Bool) (lane : Nat) : State :=
  systemEntry s 3 (pgRing r) [laneWord s r link dir lane]

theorem laneSpare_waits (hfew : wireErrs s (wireKey r link dir lane group wire) ≤ 16) :
    exec (.laneSpare r link dir lane group wire cycle) s = .next s := by
  refine congrArg Host.Outcome.next (if_neg ?_)
  rintro ⟨-, -, -, -, -, -, hmany⟩
  omega

theorem laneSpare_repairs (hl : LaneOf s r link lane group dir)
    (hon : (tally s.fab.lanesOff (linkKey r link dir)).testBit lane = false)
    (hmany : 16 < wireErrs s (wireKey r link dir lane group wire)) {u : State}
    (hu : (if tally s.fab.spares ((linkKey r link dir * 4 + lane) * 8 + group) < 2 then
        raiseEvt (spareNoted (wireForgotten s (wireKey r link dir lane group wire)) ((linkKey r link dir * 4 + lane) * 8 + group))
          (pgRing r) 0
      else laneOff (wireForgotten s (wireKey r link dir lane group wire)) r link dir lane (s.fab.clock + cycle)) = u) :
    exec (.laneSpare r link dir lane group wire cycle) s = .next (laneRecorded u r link dir lane) := by
  subst hu
  exact congrArg Host.Outcome.next
    (if_pos ⟨hl.ringLt, hl.linkLt, hl.laneLt, hl.groupLt, hl.notDown, by simpa using hon, hmany⟩)

/-- A lane more is off once a lane that was on is disabled. -/
theorem popCount_disable {m : Nat} (hlane : lane < 4) (hon : m.testBit lane = false) :
    popCount (m ||| (1 <<< lane)) 4 = popCount m 4 + 1 := by
  have hbit : ∀ i, (m ||| (1 <<< lane)).testBit i = (m.testBit i || decide (lane = i)) := fun i => by
    rw [Nat.testBit_or, Nat.one_shiftLeft, Nat.testBit_two_pow]
  simp only [popCount, hbit]
  interval_cases lane <;> simp [List.range_succ, List.countP_cons, hon] <;> omega

theorem laneOff_first (hlane : lane < 4) (hoff : tally s.fab.lanesOff (linkKey r link dir) = 0) (now : Nat) :
    laneOff s r link dir lane now = laneDisabled s r (linkKey r link dir) lane := by
  refine if_neg ?_
  rw [popCount_disable hlane (by rw [hoff]; exact Nat.zero_testBit _), hoff]
  decide

theorem laneOff_second (hlane : lane < 4) (hon : (tally s.fab.lanesOff (linkKey r link dir)).testBit lane = false)
    (hoff : popCount (tally s.fab.lanesOff (linkKey r link dir)) 4 = 1) (now : Nat) :
    laneOff s r link dir lane now = linkDown (laneDisabled s r (linkKey r link dir) lane) r link dir now := by
  refine if_pos ?_
  rw [popCount_disable hlane hon, hoff]

theorem linkDown_eq (s : State) (r link : Nat) (back : Bool) (now : Nat) : linkDown s r link back now =
    setState (raiseEvt (Machine.countError (linkNoted s r link back now) (pgRing r) 3 0 3 none) (pgRing r) 2) (pgRing r) 5 := rfl

theorem laneDisabled_fab (s : State) (r key lane : Nat) : (laneDisabled s r key lane).fab = (laneNoted s key lane).fab := by
  rw [laneDisabled, raiseEvt_fab, countError_fab]

theorem laneDisabled_canonical (h : s.canonical) (key : Nat) : (laneDisabled s r key lane).canonical :=
  raiseEvt_canonical (countError_canonical (s := laneNoted s key lane) h)

theorem rb_laneDisabled (h : s.canonical) (key : Nat) : rb (laneDisabled s r key lane) (pgRing r) Reg.EVT_STAT 1 = true :=
  rb_raiseEvt_same (countError_canonical (s := laneNoted s key lane) h) (pgRing_ne_pgEvr r) (by decide)

theorem linkDown_fab (s : State) (r link : Nat) (back : Bool) (now : Nat) :
    (linkDown s r link back now).fab = (linkNoted s r link back now).fab := by
  rw [linkDown_eq, setState_fab, raiseEvt_fab, countError_fab]

theorem linkDown_flash (s : State) (r link : Nat) (back : Bool) (now : Nat) :
    (linkDown s r link back now).flash = (linkNoted s r link back now).flash := by
  rw [linkDown_eq, setState_flash, raiseEvt_flash, countError_flash]

theorem rb_setState_stays {p i st : Nat} (h : s.canonical) (hp : p ≠ pgEvr) (hi : i < 64)
    (hset : rb s p Reg.EVT_STAT i = true) : rb (setState s p st) p Reg.EVT_STAT i = true := by
  unfold setState
  split
  · exact hset
  · refine rb_raiseEvt_stays (wf_canonical h) 61 hp hi ?_
    rw [rb, wf, rd_wr_other h _ (by decide) (by decide) fun e => absurd e.2 (by decide)]
    exact hset

/-- A link that goes down leaves its ring's page in FAULT, with the event that says so (R264, R266). -/
theorem linkDown_marks (h : s.canonical) (now : Nat) : (linkDown s r link dir now).canonical ∧
    pageState (linkDown s r link dir now) (pgRing r) = 5 ∧ rb (linkDown s r link dir now) (pgRing r) Reg.EVT_STAT 2 = true := by
  have herr : (Machine.countError (linkNoted s r link dir now) (pgRing r) 3 0 3 none).canonical :=
    countError_canonical (s := linkNoted s r link dir now) h
  rw [linkDown_eq]
  exact ⟨setState_canonical (raiseEvt_canonical herr), pageState_setState (raiseEvt_canonical herr) _ _ (by decide),
    rb_setState_stays (raiseEvt_canonical herr) (pgRing_ne_pgEvr r) (by decide)
      (rb_raiseEvt_same herr (pgRing_ne_pgEvr r) (by decide))⟩

theorem laneRecorded_sameBut (h : s.canonical) : SameBut noReg s (laneRecorded s r link dir lane) := genWrite_sameBut h _

theorem laneRecorded_fab (s : State) (r link : Nat) (dir : Bool) (lane : Nat) :
    (laneRecorded s r link dir lane).fab = s.fab := by rw [laneRecorded, systemEntry, (genWrite_any s _).rest]

theorem laneRecorded_flash (s : State) (r link : Nat) (dir : Bool) (lane : Nat) :
    (laneRecorded s r link dir lane).flash = s.flash := by rw [laneRecorded, systemEntry, (genWrite_any s _).rest]

theorem rd_laneRecorded (h : s.canonical) {o : Nat} (ho : o < 0x10000) :
    rd (laneRecorded s r link dir lane) (pgRing r) o = rd s (pgRing r) o :=
  rd_genWrite_otherPage h _ (pgRing_ne_pgEvr r) ho

theorem rb_laneRecorded (h : s.canonical) {i : Nat} (hset : rb s (pgRing r) Reg.EVT_STAT i = true) :
    rb (laneRecorded s r link dir lane) (pgRing r) Reg.EVT_STAT i = true := by
  rw [rb, rd_laneRecorded h (by decide)]
  exact hset

/-- No failure of the bit lane is on the list of a state with its failures forgotten. -/
theorem wireErrs_forgotten {t : State} {w : Nat} (hlist : t.fab.laneErrs = (wireForgotten s w).fab.laneErrs) :
    wireErrs t w = 0 := by
  rw [wireErrs, hlist]
  refine List.countP_eq_zero.2 fun e he => ?_
  have hother : e.1 ≠ w := of_decide_eq_true (List.mem_filter.1 he).2
  simp [hother]

/-- A bit lane that takes a spare: the spare counts, the lane's failures are forgotten, the rest stays (R263). -/
theorem spareRecorded (h : s.canonical) (w g : Nat) {t : State}
    (ht : laneRecorded (raiseEvt (spareNoted (wireForgotten s w) g) (pgRing r) 0) r link dir lane = t) :
    tally t.fab.spares g = tally s.fab.spares g + 1 ∧ t.fab.lanesOff = s.fab.lanesOff ∧ wireErrs t w = 0 ∧
      rb t (pgRing r) Reg.EVT_STAT 0 = true ∧ SameBut noReg { s with fab := t.fab, flash := t.flash } t := by
  have hc : (spareNoted (wireForgotten s w) g).canonical := h
  have hfab : t.fab = (spareNoted (wireForgotten s w) g).fab := by rw [← ht, laneRecorded_fab, raiseEvt_fab]
  have hflash : t.flash = (spareNoted (wireForgotten s w) g).flash := by rw [← ht, laneRecorded_flash, raiseEvt_flash]
  refine ⟨?_, by rw [hfab]; rfl, wireErrs_forgotten (s := s) (by rw [hfab]; rfl), ?_, ?_⟩
  · rw [hfab]
    exact tally_replaced_same _ _ _
  · rw [← ht]
    exact rb_laneRecorded (raiseEvt_canonical hc) (rb_raiseEvt_same hc (pgRing_ne_pgEvr r) (by decide))
  · rw [hfab, hflash, ← ht]
    exact (raiseEvt_sameBut hc _ _).trans' (laneRecorded_sameBut (raiseEvt_canonical hc))

/-- The first lane that a link loses is off, and the link stays up (R264). -/
theorem laneDisabled_recorded (h : s.canonical) (w : Nat) (hoff : tally s.fab.lanesOff (linkKey r link dir) = 0) {t : State}
    (ht : laneRecorded (laneDisabled (wireForgotten s w) r (linkKey r link dir) lane) r link dir lane = t) :
    tally t.fab.lanesOff (linkKey r link dir) = 1 <<< lane ∧ t.fab.down = s.fab.down ∧
      rb t (pgRing r) Reg.EVT_STAT 1 = true := by
  have hc := wireForgotten_canonical h w
  have hfab : t.fab = (laneNoted (wireForgotten s w) (linkKey r link dir) lane).fab := by
    rw [← ht, laneRecorded_fab, laneDisabled_fab]
  refine ⟨?_, by rw [hfab]; rfl, ?_⟩
  · rw [hfab]
    exact (tally_replaced_same _ _ _).trans (by rw [show tally (wireForgotten s w).fab.lanesOff _ = 0 from hoff, Nat.zero_or])
  · rw [← ht]
    exact rb_laneRecorded (laneDisabled_canonical hc _) (rb_laneDisabled hc _)

/-- A link that loses a second lane is down, in the fabric and in the field map, and its ring's page is in FAULT (R264, R266). -/
theorem linkDown_recorded (h : s.canonical) (now : Nat) {t : State}
    (ht : laneRecorded (linkDown s r link dir now) r link dir lane = t) :
    linkKey r link dir ∈ t.fab.down ∧ linkKey r link dir ∈ t.flash.fieldMap.links ∧ pageState t (pgRing r) = 5 ∧
      rb t (pgRing r) Reg.EVT_STAT 2 = true := by
  obtain ⟨hc, hfault, hevent⟩ := linkDown_marks h (r := r) (link := link) (dir := dir) now
  subst ht
  refine ⟨?_, ?_, ?_, rb_laneRecorded hc hevent⟩
  · rw [laneRecorded_fab, linkDown_fab]
    exact List.mem_append_right _ (List.mem_singleton.2 rfl)
  · rw [laneRecorded_flash, linkDown_flash]
    exact List.mem_append_right _ (List.mem_singleton.2 rfl)
  · rw [pageState, rf, rd_laneRecorded hc (by decide)]
    exact hfault

end Lanes

/-- Settles O34: each command answers the state that its lemma above names, whose parts are then read. -/
theorem dealsRoutesAndLanesAreKept : Obligations.DealsRoutesAndLanesAreKept := by
  intro fn r link lane group wire cycle n dir id k v s hs hr moves key
  refine ⟨fun hw hnew hmoves => ?commit, fun hp => ⟨fun hmoves => ?done, fun hmoves => ?rejected⟩, fun hw => ?mode,
    fun hw hok => ?route, fun hlink hlane hgroup hup => ?lanes⟩
  case commit =>
    refine ⟨_, dealCommit_accepted hr hw hnew hmoves, by simp [commitAsked], ?_, ?_⟩
    · exact rb_wb_same (s := { s with fab := _ }) hs _ _ _ _ (by decide)
    · exact wb_sameBut (s := { s with fab := { s.fab with commits := s.fab.commits ++ [r] } }) hs _ _ 16 true (by decide)
  case done =>
    have hc := dealAdvanced_canonical (r := r) hs
    refine ⟨_, commitDone_advances hp hmoves, ?_, rb_raiseEvt_same hc (pgRing_ne_pgEvr r) (by decide), ?_,
      ⟨fun q => ?_, ?_, fun q hq => ?_, raiseEvt_mem _ _ _, raiseEvt_hostMem _ _ _⟩, ?_⟩
    · rw [raiseEvt_fab]
      exact ringEntries_replaced_same _ _ _
    · rw [rf, rd_raiseEvt hc (by decide) not_evtReg_dealStat]
      exact rf_dealAdvanced hs
    · rw [raiseEvt_fab]
      exact mem_commitEnded q
    · rw [rb, rd_raiseEvt hc (by decide) not_evtReg_dealStat]
      exact rb_dealAdvanced hs
    · rw [raiseEvt_fab]
      exact ringEntries_replaced_other _ _ hq
    · rw [raiseEvt_fab]
      exact (dealAdvanced_sameBut hs).trans' (raiseEvt_sameBut hc _ _).none
  case rejected =>
    have hc := commitEnded_canonical (r := r) hs
    refine ⟨_, commitDone_rejected hp hmoves, by rw [reject_fab]; rfl, fun q => ?_, ?_, fun q _ => by rw [reject_fab]; rfl,
      reject_mem _ _, reject_hostMem _ _⟩
    · rw [reject_fab]
      exact mem_commitEnded q
    · rw [rb, rd_reject hc (by decide) not_evtReg_dealStat (by decide)]
      exact rb_commitEnded hs
  case mode =>
    exact ⟨_, routeModeWrite_accepted hw v, rb_wb_same hs _ _ _ _ (by decide), wb_sameBut hs _ _ _ _ (by decide)⟩
  case route =>
    exact ⟨_, routeDataWrite_accepted hw rfl rfl hok, tally_setRoute_same _ _ _ _,
      fun i hi => tally_setRoute_other _ _ hi, rfl⟩
  case lanes =>
    have hl : LaneOf s r link lane group dir := ⟨hr, hlink, hlane, hgroup, hup⟩
    refine ⟨fun hwire => ⟨fun again _ => ?replay, ?parity⟩, laneSpare_waits, fun hmany hon =>
      ⟨fun hspare => ?spare, fun hnone hoff => ?first, fun hnone hoff => ?second⟩⟩
    case replay =>
      obtain ⟨hreplays, herrs, hwires, hpackets, hsame⟩ :=
        replay_recorded hs (r := r) (link := link) (dir := dir) (lane := lane) (group := group) (wire := wire) id again rfl
      refine ⟨_, crcReplay_counts hl hwire id (by omega), hreplays, herrs, hwires, fun hnone => ?_, fun hk hn => ?_, hsame⟩
      · rw [hpackets, hnone]
        rfl
      · obtain ⟨i, rfl, hk⟩ := Option.bind_eq_some_iff.1 hk
        rw [hpackets]
        exact replayNoted_packets hk hn
    case parity =>
      exact ⟨_, crcReplay_parity hl hwire id, rd_countError_count hs (pgRing_ne_pgEvr r) _ _ _ _,
        (countErrorAt_sameBut hs _ _ _ _ _ _).mono fun _ _ hq => ⟨hq.1, .inr hq.2⟩⟩
    case spare => exact ⟨_, laneSpare_repairs hl hon hmany (if_pos hspare), spareRecorded hs _ _ rfl⟩
    case first =>
      have hlast := laneOff_first (s := wireForgotten s (wireKey r link dir lane group wire)) hlane hoff (s.fab.clock + cycle)
      exact ⟨_, laneSpare_repairs hl hon hmany ((if_neg (Nat.not_lt.2 hnone)).trans hlast),
        laneDisabled_recorded hs _ hoff rfl⟩
    case second =>
      have hlast := laneOff_second (s := wireForgotten s (wireKey r link dir lane group wire)) hlane hon hoff
        (s.fab.clock + cycle)
      exact ⟨_, laneSpare_repairs hl hon hmany ((if_neg (Nat.not_lt.2 hnone)).trans hlast),
        linkDown_recorded (laneDisabled_canonical (wireForgotten_canonical hs _) _) _ rfl⟩

end Sys2Proof.Machine
end

section
/-!
SUPPORT. A state in which the denial of a chiplet's response is not counted, though the response is denied; the kernel evaluates
the command.
-/

namespace Sys2Proof.Machine

open Sys2Proof

/-! ### A reduction slot whose context's counter is `SITE_DENIED` (R308, R321, R420) -/

/-- Site 0 is in service under TRIP_ON_DENY, and the slot's counter is its `SITE_DENIED`. -/
def straySlotDenied : State := wr (straySlot Reg.SITE_DENIED 3 1) (pgSite 0) Reg.SITE_CFG 2

/-- The notice of an agent not assigned is denied and counted; the site enters QUARANTINE, its slot fails, and the release of the
slot's descriptor takes the one counted from `SITE_DENIED` again. -/
theorem straySlotDenied_uncounted :
    observe (fun t => rd t (pgSite 0) Reg.SITE_DENIED) (exec (.cWb 0 0 0 []) straySlotDenied) = some 0 := by
  decide +kernel

/-- Refutes O42: the statement bounds no slot's context, and with one whose number no context has a site under TRIP_ON_DENY
takes back the count of the response that it denies. -/
theorem not_chipletCoherenceAndSubmissions : ¬ Obligations.ChipletCoherenceAndSubmissions := by
  intro h
  obtain ⟨-, hdenied, -⟩ := h 0 0 0 [] ⟨0, 0, 0, .rdS, 0, 0, 0, none, false, 0, false⟩ straySlotDenied
    (wr_canonical (straySlot_canonical _ _ _)) (by decide) (by decide +kernel)
  obtain ⟨hwb, -⟩ := hdenied (.inl (by decide +kernel))
  obtain ⟨t, ⟨hcounted, -⟩, hnone⟩ := hwb.observed straySlotDenied_uncounted
  have hzero : rd straySlotDenied (pgSite 0) Reg.SITE_DENIED = 0 := by decide +kernel
  rw [hzero] at hcounted
  exact absurd (hnone.symm.trans hcounted) (by decide)

end Sys2Proof.Machine
end

section
/-!
SUPPORT. What goes on apart from the homes: a line that a home reads or writes in good memory, and the messages that it sends
(R203, R209, R221, R274, R311 to R313).
-/

namespace Sys2Proof.Machine

open Sys2Proof

/-- The coherent state is in `t` as in `s`, and what has been sent out is only added to. -/
structure Beside (s t : State) : Prop where
  coh : t.coh = s.coh
  out : s.out <+: t.out

section Beside

variable {s t u : State}

theorem Beside.of_eq (hcoh : t.coh = s.coh) (hout : t.out = s.out) : Beside s t := ⟨hcoh, hout ▸ List.prefix_refl _⟩

theorem Beside.refl (s : State) : Beside s s := .of_eq rfl rfl

theorem Beside.trans (h : Beside s t) (k : Beside t u) : Beside s u := ⟨k.coh.trans h.coh, h.out.trans k.out⟩

theorem Beside.foldl {α : Type} {f : State → α → State} (hf : ∀ s a, Beside s (f s a)) (l : List α) (s : State) :
    Beside s (l.foldl f s) :=
  List.foldlRecOn (motive := fun t => Beside s t) l f (.refl s) fun _ ht a _ => ht.trans (hf _ a)

theorem Beside.of_sameBut {q : Nat → Nat → Prop} (h : SameBut q s t) : Beside s t := ⟨by rw [h.rest], h.out⟩

theorem raiseEvt_beside (s : State) (p b : Nat) : Beside s (raiseEvt s p b) := .of_sameBut (raiseEvt_any s p b)

theorem countError_beside (s : State) (p code status cls : Nat) (ctx : Option Nat) :
    Beside s (countError s p code status cls ctx) := .of_sameBut (countError_any s p code status cls ctx)

/-! ### What a controller or slice does of its own accord (R210 to R214, R228, R229) -/

theorem retirePage_beside (s : State) (m page : Nat) : Beside s (retirePage s m page false) := by
  unfold retirePage
  extract_lets st p _ _ t
  split
  · exact .refl s
  · split
    · have hlisted : Beside s { s with hbm := { s.hbm with retired := s.hbm.retired ++ [⟨m, page, false⟩] } } := .of_eq rfl rfl
      have ht : Beside s t := hlisted.trans (countError_beside _ p 4 st 1 none)
      have hcounted : Beside t (wr t p Reg.MC_RETIRE_COUNT (rd t p Reg.MC_RETIRE_COUNT + 1)) := .of_eq rfl rfl
      exact (ht.trans hcounted).trans (raiseEvt_beside _ _ _)
    · exact countError_beside _ _ _ _ _ _

theorem needRepair_beside (s : State) (m pc q page : Nat) : Beside s (needRepair s m pc q page 2) := by
  unfold needRepair
  extract_lets row bank same key again
  split
  · exact .refl s
  · split
    · exact retirePage_beside s m page
    · extract_lets ne t
      have ht : Beside s t := .of_eq rfl rfl
      split
      · split
        · exact ht.trans (raiseEvt_beside _ _ _)
        · exact ht
      · exact retirePage_beside s m page

theorem mcCorr_beside (s : State) (a : Nat) : Beside s (mcCorr s a) := by
  unfold mcCorr
  split
  · exact .refl s
  · extract_lets t1 key mine n low drop ce _ t2
    have ht : Beside s t2 := .of_eq rfl rfl
    split
    · exact ht.trans (needRepair_beside _ _ _ _ _)
    · exact ht

theorem needBank_beside (s : State) (k bank : Nat) : Beside s (needBank s k bank) := by
  have hsave : Beside s (saveQuayBank s k bank) := .of_eq rfl rfl
  unfold needBank
  split
  · exact .refl s
  · split
    · exact .of_eq rfl rfl
    · split
      · split
        · exact .refl s
        · exact hsave
      · have hdegraded := hsave.trans (.of_eq (t := wb (saveQuayBank s k bank) (pgQuay k) Reg.QUAY_SPARE 8 true) rfl rfl)
        exact (hdegraded.trans (countError_beside _ _ _ _ _ _)).trans (raiseEvt_beside _ _ _)

theorem quayCorr_beside (s : State) (a : Nat) : Beside s (quayCorr s a) := by
  unfold quayCorr
  split
  · exact .refl s
  · extract_lets t1 bank _ t2
    have ht : Beside s t2 := .of_eq rfl rfl
    split
    · exact ht.trans (needBank_beside _ _ _)
    · exact ht

theorem countBytes_beside (s : State) (k req a n : Nat) (write : Bool) : Beside s (countBytes s k req a n write) := by
  unfold countBytes
  split
  · exact .of_eq rfl rfl
  · split
    · exact .of_eq rfl rfl
    · split
      · exact .of_eq rfl rfl
      · exact .refl s
  · exact .refl s

theorem activateRange_beside (s : State) (a n : Nat) : Beside s (activateRange s a n) := by
  refine .foldl (fun t g => ?_) _ s
  split
  · exact .of_eq rfl rfl
  · exact .refl t

end Beside

/-- `t` comes from `s` by what goes on apart from the homes: the coherent state, what memory holds and answers by, and the
registers below the controllers' pages are as they were, but for the marks of events. -/
structure Aside (s t : State) : Prop where
  canonical : t.canonical
  regs : ∀ p off, p < 640 → off < 0x10000 → ¬ evtReg p off → rd t p off = rd s p off
  memory : SameMemory s t
  faults : memoryFaults t = memoryFaults s
  beside : Beside s t

section Aside

variable {s t u : State} {k pos line : Nat}

theorem Aside.refl (h : s.canonical) : Aside s s := ⟨h, fun _ _ _ _ _ => rfl, ⟨rfl, rfl⟩, rfl, .refl s⟩

theorem Aside.trans (h : Aside s t) (g : Aside t u) : Aside s u where
  canonical := g.canonical
  regs p off hp ho he := (g.regs p off hp ho he).trans (h.regs p off hp ho he)
  memory := ⟨g.memory.1.trans h.memory.1, g.memory.2.trans h.memory.2⟩
  faults := g.faults.trans h.faults
  beside := h.beside.trans g.beside

theorem Aside.foldl {α : Type} {f : State → α → State} (hf : ∀ s a, s.canonical → Aside s (f s a)) (l : List α)
    (h : s.canonical) : Aside s (l.foldl f s) :=
  List.foldlRecOn (motive := fun t => Aside s t) l f (.refl h) fun _ ht a _ => ht.trans (hf _ a ht.canonical)

theorem Aside.of_served (h : Served s t) (hb : Beside s t) : Aside s t := ⟨h.canonical, h.regs, ⟨h.mem, h.hostMem⟩, h.faults, hb⟩

theorem Aside.lineTxn (h : Aside s t) (k line : Nat) : lineTxn t k line = lineTxn s k line :=
  congrArg (fun c : Coh => c.txns.find? _) h.beside.coh

theorem Aside.dirOf (h : Aside s t) (k line : Nat) : dirOf t k line = dirOf s k line :=
  congrArg (fun c : Coh => c.dir.find? _) h.beside.coh

theorem Aside.rd_part (h : Aside s t) (hk : k < 16) {off : Nat} (ho : off < 0x10000) (he : off ≠ Reg.EVT_STAT) :
    rd t (pgPart k) off = rd s (pgPart k) off :=
  h.regs _ _ (by simp only [pgPart]; omega) ho (not_evtReg_pgPart he)

/-! ### Lines that are read and written (R203, R209) -/

/-- What is held now only makes a unit's command wait (R213, R217, R228, R235). -/
theorem meetHolds_aside (h : s.canonical) (a n : Nat) : Aside s (meetHolds s a n) := by
  have hstall : ∀ x, Aside s (stallOn s x) := fun x => by
    unfold stallOn
    split
    · exact ⟨h, fun _ _ _ _ _ => rfl, ⟨rfl, rfl⟩, rfl, .of_eq rfl rfl⟩
    · exact .refl h
  unfold meetHolds
  extract_lets at128
  split
  · exact .refl h
  · split
    · exact .refl h
    · split
      · exact hstall _
      · exact .refl h

theorem approach_aside (h : s.canonical) (k req a n : Nat) (write : Bool) :
    Aside s (meetHolds (activateRange (countBytes s k req a n write) a n) a n) := by
  have hcount := Aside.of_served (countBytes_served h k req a n write) (countBytes_beside s k req a n write)
  have hact := Aside.of_served (activateRange_served hcount.canonical a n) (activateRange_beside _ a n)
  exact (hcount.trans hact).trans (meetHolds_aside hact.canonical a n)

/-- What the code corrects in a range. -/
def corrected (s : State) (a n : Nat) : State := (weakUnits s a n).foldl (fun s u => quayCorr (mcCorr s u) u) s

theorem corrected_aside (h : s.canonical) (a n : Nat) : Aside s (corrected s a n) := by
  refine .foldl (fun s u hs => ?_) _ h
  have hmc := mcCorr_served hs u
  exact .of_served (hmc.trans (quayCorr_served hmc.canonical u)) ((mcCorr_beside s u).trans (quayCorr_beside _ u))

theorem sense_clean {a n : Nat} (code : Nat) (ctx : Option Nat) (hclean : Clean s a n) :
    sense s a n code ctx = (true, corrected s a n) := by
  obtain ⟨hblocked, hbad, hstruck⟩ := clean_iff.1 hclean
  simp [sense, hblocked, hbad, meetInject, hstruck, corrected]

/-- A read of good memory brings its bytes, whatever is held. -/
theorem devRead_clean (h : s.canonical) (k req : Nat) {a n : Nat} (hclean : Clean s a n) :
    ∃ t, devRead s k req a n = (some (readBytes s a n), t) ∧ Aside s t := by
  have hto := approach_aside h k req a n false
  have hall := hto.trans (corrected_aside hto.canonical a n)
  refine ⟨_, ?_, hall⟩
  simp only [devRead, readAs, sense_clean 1 (ctxOf s k req) (hclean.congr hto.faults), readBytes, hall.memory.1, if_true]

/-- `t` comes from `s` by a write of `b` at `a` that memory takes. -/
structure LineWritten (s t : State) (a : Nat) (b : Bytes) : Prop where
  canonical : t.canonical
  regs : ∀ p off, p < 640 → off < 0x10000 → ¬ evtReg p off → rd t p off = rd s p off
  coh : t.coh = s.coh
  stored : Stored s t a b

/-- A line covers its bursts and words whole. -/
theorem partUnits_line (line : Nat) : partUnits (line * 128) 128 = [] := by
  refine List.eq_nil_iff_forall_not_mem.2 fun g hg => ?_
  obtain ⟨-, hside⟩ := mem_partUnits hg
  rw [partUnits, if_neg (by decide)] at hg
  have hpart := (List.mem_filter.1 hg).2
  simp only [coversUnit, Bool.not_eq_true', Bool.and_eq_false_iff, decide_eq_false_iff_not] at hpart
  rcases hside with rfl | rfl
  · have hof : unitOf (line * 128) = line * 128 / unitSize (line * 128) * unitSize (line * 128) := rfl
    rcases unitSize_cases (line * 128) with ⟨hx, hsize⟩ | ⟨hx, hsize⟩ <;> rw [hsize] at hof <;>
      rcases unitSize_cases (unitOf (line * 128)) with ⟨hu, hsize'⟩ | ⟨hu, hsize'⟩ <;> omega
  · have hof : unitOf (line * 128 + 128 - 1) =
        (line * 128 + 128 - 1) / unitSize (line * 128 + 128 - 1) * unitSize (line * 128 + 128 - 1) := rfl
    rcases unitSize_cases (line * 128 + 128 - 1) with ⟨hx, hsize⟩ | ⟨hx, hsize⟩ <;> rw [hsize] at hof <;>
      rcases unitSize_cases (unitOf (line * 128 + 128 - 1)) with ⟨hu, hsize'⟩ | ⟨hu, hsize'⟩ <;> omega

theorem lineWritten_of_aside (h : s.canonical) (hto : Aside s t) (ue weak : List Nat) (a n : Nat) (b : Bytes) :
    LineWritten s (wcRange (writeBytes { t with ue := ue, weak := weak } a b) a n) a b := by
  obtain ⟨hbm, hwc⟩ := wcRange_eq (writeBytes { t with ue := ue, weak := weak } a b) a n
  rw [hwc]
  exact ⟨writeBytes_canonical (s := { t with ue := ue, weak := weak }) hto.canonical, hto.regs, hto.beside.coh, hto.memory.2,
    readMem_written h (writeBytes_mem_congr hto.memory.1 a b)⟩

/-- A line written to good memory is stored, whatever is held. -/
theorem devWrite_line (h : s.canonical) (k req : Nat) {line : Nat} {b : Bytes} (hclean : Clean s (line * 128) 128)
    (hb : b.length = 128) : LineWritten s (devWrite s k req (line * 128) b).2 (line * 128) b := by
  have hto := approach_aside h k req (line * 128) 128 true
  have hblocked := (blockedRange_congr hto.faults (line * 128) 128).trans (clean_iff.1 hclean).1
  simp only [devWrite, writeAs, hb, hblocked, Bool.false_eq_true, if_false, partUnits_line, List.foldl_nil, if_true]
  exact lineWritten_of_aside h hto _ _ _ _ b

/-! ### Messages to agents (R274, R311 to R313, R315) -/

theorem setSite_aside (h : s.canonical) (i : Nat) (f : Site → Site) : Aside s (setSite s i f) :=
  ⟨h, fun _ _ _ _ _ => rfl, ⟨rfl, rfl⟩, rfl, .of_eq rfl rfl⟩

theorem dealFlit_aside (h : s.canonical) (i seq : Nat) : Aside s (dealFlit s i seq) := by
  rw [dealFlit]
  split
  · exact .refl h
  · exact ⟨h, fun _ _ _ _ _ => rfl, ⟨rfl, rfl⟩, rfl, .of_eq rfl rfl⟩

theorem emit_aside (h : s.canonical) (o : Out) : Aside s (emit s o) :=
  ⟨h, fun _ _ _ _ _ => rfl, ⟨rfl, rfl⟩, rfl, rfl, List.prefix_append _ _⟩

theorem transmit_aside (h : s.canonical) (i : Nat) (m : String × List Nat × Bytes) : Aside s (transmit s i m) := by
  have hemit := emit_aside h (.site i m.1 m.2.1 m.2.2)
  have hcount := hemit.trans (.of_served (addReg_served hemit.canonical (p := pgSite i) (by simp only [pgSite]; omega)
    Reg.SITE_TX_BYTES (16 * chunksOf m.2.2)) (.of_eq rfl rfl))
  refine hcount.trans (.foldl (fun s _ hs => ?_) _ hcount.canonical)
  have hdeal := dealFlit_aside hs i (siteOf s i).txNext
  exact hdeal.trans (setSite_aside hdeal.canonical i _)

theorem pumpSite_aside (h : s.canonical) (i n : Nat) : Aside s (pumpSite s i n) := by
  induction n generalizing s with
  | zero => exact .refl h
  | succ n ih =>
    rw [pumpSite]
    split
    · exact .refl h
    · next m rest _ =>
      split
      · exact .refl h
      · have hset := setSite_aside h i fun x => { x with toSend := rest }
        have hsent := hset.trans (transmit_aside hset.canonical i m)
        exact hsent.trans (ih hsent.canonical)

/-- A message of a home to an agent. -/
theorem sendAgent_aside (h : s.canonical) (k pos line : Nat) (msg : String) (d : Bytes) :
    Aside s (sendAgent s k pos line msg d) := by
  rw [sendAgent]
  split
  · have hset := setSite_aside h (pos - 12) fun x =>
      { x with toSend := x.toSend ++ [((if msg = "WB_CREDIT" then msg else "C_" ++ msg), [k, line * 128, homeOf line], d)] }
    exact hset.trans (pumpSite_aside hset.canonical _ _)
  · exact emit_aside h _

/-- To a cluster a message goes as it is (R274). -/
theorem sendAgent_cluster (hpos : pos < 12) (s : State) (k line : Nat) (msg : String) (d : Bytes) :
    sendAgent s k pos line msg d = emit s (.coh k pos line msg d) :=
  if_neg fun h => absurd h.1 (Nat.not_le.2 hpos)

end Aside

end Sys2Proof.Machine
end

section
/-!
SUPPORT. Rules of the coherent state: lines of clusters, directory entries and transactions after each change of them, and a home
that has nothing to take up (R272, R273, R276, R277).
-/

namespace Sys2Proof.Machine

open Sys2Proof

section Lists

variable {α : Type} {p : α → Bool} {l : List α} {x v : α}

theorem find?_filter_not (l : List α) (p : α → Bool) : (l.filter fun a => !p a).find? p = none :=
  List.find?_eq_none.2 fun a ha => by simpa using (List.mem_filter.1 ha).2

/-- What is found in a list is found replaced where it has been replaced. -/
theorem find?_map_replaced [DecidableEq α] (hv : p v = true) (hx : l.find? p = some x) :
    (l.map fun u => if u = x then v else u).find? p = some v := by
  have hpx : p x = true := List.find?_some hx
  induction l with
  | nil => cases hx
  | cons a l ih =>
    rw [List.map_cons]
    by_cases ha : p a = true
    · rw [List.find?_cons_of_pos ha, Option.some.injEq] at hx
      rw [if_pos hx, List.find?_cons_of_pos hv]
    · have hne : a ≠ x := fun e => ha (e ▸ hpx)
      rw [List.find?_cons_of_neg ha] at hx
      rw [if_neg hne, List.find?_cons_of_neg ha, ih hx]

end Lists

section Rules

variable {s : State} {k pos line : Nat} {x v : Txn}

theorem cached_dropLine (s : State) (k pos line : Nat) : cached (dropLine s k pos line) k pos line = none :=
  find?_filter_not s.coh.lines _

theorem cached_setLine (s : State) (k pos line : Nat) (st : LineState) (d : Bytes) :
    cached (setLine s k pos line st d) k pos line = some ⟨k, pos, line, st, d⟩ := by
  refine List.find?_append.trans ?_
  rw [show List.find? _ (dropLine s k pos line).coh.lines = none from cached_dropLine s k pos line]
  simp

theorem dirOf_setDir_zero (s : State) (k line : Nat) (owned : Bool) : dirOf (setDir s k line owned 0) k line = none :=
  find?_filter_not s.coh.dir _

theorem dirOf_setDir (s : State) (k line : Nat) (owned : Bool) {h : Nat} (hh : h ≠ 0) :
    dirOf (setDir s k line owned h) k line =
      some ⟨k, line, ((dirOf s k line).map fun d => d.way).getD (freeWay s k line), owned, h⟩ := by
  rw [dirOf, setDir, if_neg hh, List.find?_append, find?_filter_not s.coh.dir]
  simp

theorem lineTxn_setTxn (hx : lineTxn s k line = some x) (hpart : v.part = k) (hline : v.line = line) :
    lineTxn (setTxn s x v) k line = some v :=
  find?_map_replaced (by simp [hpart, hline]) hx

/-- What `lineTxn` finds is a transaction of the line. -/
theorem lineTxn_named (hx : lineTxn s k line = some x) : x.part = k ∧ x.line = line := by
  simpa using List.find?_some hx

/-- What `cached` finds is the line as the position holds it. -/
theorem cached_named {l : CLine} (hl : cached s k pos line = some l) : l.part = k ∧ l.pos = pos ∧ l.line = line := by
  simpa [and_assoc] using List.find?_some hl

/-- No request waits for a reserved entry at the home of the line (R277). -/
abbrev NoWaits (s : State) (k line : Nat) : Prop := ∀ e ∈ s.coh.waits, ¬(e.1 = k ∧ homeOf e.2.2.1 = homeOf line)

/-- No reserved retry of the line has come again (R277). -/
abbrev NoneBack (s : State) (k line : Nat) : Prop := ∀ r ∈ s.coh.retries, ¬(r.part = k ∧ r.line = line ∧ r.back = true)

theorem pumpLine_busy (hx : lineTxn s k line = some x) (n : Nat) : pumpLine s k line n = s := by
  cases n with
  | zero => rfl
  | succ n => rw [pumpLine, hx]

theorem pumpLine_noneBack (hback : NoneBack s k line) (n : Nat) : pumpLine s k line n = s := by
  have hfind : (s.coh.retries.find? fun r => r.part = k && r.line = line && r.back) = none :=
    List.find?_eq_none.2 fun r hr => by simpa [and_assoc] using hback r hr
  cases n with
  | zero => rfl
  | succ n =>
    rw [pumpLine, hfind]
    cases lineTxn s k line <;> rfl

theorem settle_pumped {u : State} (hpump : pumpLine s k line s.coh.retries.length = u) (hwaits : NoWaits u k line) :
    settle s k line = u := by
  have hnone : (u.coh.waits.filter fun w => w.1 = k && homeOf w.2.2.1 = homeOf line && !(entryUsed u k w.2.1 w.2.2.1)) = [] :=
    List.filter_eq_nil_iff.2 fun w hw => by
      have hother := hwaits w hw
      simp only [Bool.and_eq_true, decide_eq_true_eq]
      exact fun h => hother h.1
  rw [settle, hpump, hnone, List.foldl_nil]

theorem settle_of_pumpLine (hpump : ∀ n, pumpLine s k line n = s) (hwaits : NoWaits s k line) : settle s k line = s :=
  settle_pumped (hpump _) hwaits

/-- A home whose line has a transaction open takes up nothing (R276). -/
theorem settle_busy (hx : lineTxn s k line = some x) (hwaits : NoWaits s k line) : settle s k line = s :=
  settle_of_pumpLine (pumpLine_busy hx) hwaits

/-- A home for which nothing waits takes up nothing. -/
theorem settle_noneBack (hback : NoneBack s k line) (hwaits : NoWaits s k line) : settle s k line = s :=
  settle_of_pumpLine (pumpLine_noneBack hback) hwaits

theorem advance_awaiting (s : State) {t : Txn} (h : t.await ≠ 0) : advance s t = s := if_pos (.inl h)

end Rules

end Sys2Proof.Machine
end

section
/-!
SUPPORT. Snoops and their answers (R272, R273, R278, R279, R283).
-/

namespace Sys2Proof.Machine

open Sys2Proof

/-- The answer that the state of a cluster's copy calls for (R279, R283). -/
def answerOf (l : CLine) : Answer :=
  if l.st = .evicting then .inFlight else if l.st = .modified then .dirty l.data else .clean

/-- A cluster's answer is on its way to the home (R274). -/
def answering (s : State) (k m line : Nat) (a : Answer) : State :=
  { s with coh := { s.coh with answers := s.coh.answers ++ [(k, m, line, a)] } }

section Answers

variable {s : State} {k m line : Nat} {x : Txn} {inv : Bool} {l : CLine} {a : Answer}

/-- Every answer of the cluster for the line that is on its way is `a`, and one is. -/
def Asked (s : State) (k m line : Nat) (a : Answer) : Prop :=
  (k, m, line, a) ∈ s.coh.answers ∧ ∀ v ∈ s.coh.answers, v.1 = k → v.2.1 = m → v.2.2.1 = line → v.2.2.2 = a

/-- No answer of the cluster for the line is on its way. -/
abbrev Unanswered (s : State) (k m line : Nat) : Prop :=
  ∀ e ∈ s.coh.answers, ¬(e.1 = k ∧ e.2.1 = m ∧ e.2.2.1 = line)

theorem any_answers_of_unanswered (h : Unanswered s k m line) :
    (s.coh.answers.any fun e => e.1 = k && e.2.1 = m && e.2.2.1 = line) = false :=
  List.any_eq_false.2 fun e he => by simpa [and_assoc] using h e he

theorem any_answers_of_asked (h : Asked s k m line a) :
    (s.coh.answers.any fun e => e.1 = k && e.2.1 = m && e.2.2.1 = line) = true :=
  List.any_eq_true.2 ⟨_, h.1, by simp⟩

/-- The copy that a snoop leaves: none after SNP_INV, and none of a line whose notice has gone; else it is shared (R272). -/
def snooped (s : State) (k m line : Nat) (inv : Bool) (l : CLine) : State :=
  if l.st = .evicting ∨ inv = true then dropLine s k m line else setLine s k m line .shared l.data

theorem snoopCluster_held (hm : m < 8) (hx : lineTxn s k line = some x) (hbit : x.await.testBit m = true)
    (hshr : x.shr = !inv) (hnone : Unanswered s k m line) (hl : cached s k m line = some l) :
    snoopCluster s k m line inv = answering (snooped s k m line inv l) k m line (answerOf l) := by
  unfold snoopCluster
  simp only [hx, hbit, hshr, hm, hl, any_answers_of_unanswered hnone, decide_true, Bool.and_self, Bool.not_false, if_true]
  cases hst : l.st <;> cases inv <;> simp [snooped, answerOf, answering, hst]

theorem snoopCluster_missed (hm : m < 8) (hx : lineTxn s k line = some x) (hbit : x.await.testBit m = true)
    (hshr : x.shr = !inv) (hnone : Unanswered s k m line) (hl : cached s k m line = none) :
    snoopCluster s k m line inv = answering s k m line (if x.arrived.testBit m then .inFlight else .miss) := by
  unfold snoopCluster
  simp only [hx, hbit, hshr, hm, hl, any_answers_of_unanswered hnone, decide_true, Bool.and_self, Bool.not_false, if_true,
    answering]

/-- The answer `a` of a cluster has reached the home. -/
abbrev answerTaken (s : State) (k m line : Nat) (a : Answer) : State :=
  { s with coh := { s.coh with answers := s.coh.answers.erase (k, m, line, a) } }

/-- The answer of a cluster that the home awaits reaches it. -/
theorem takeAnswer_asked (hm : m < 8) (h : Asked s k m line a) (b : Answer) :
    takeAnswer s k m line a.kind b =
      cohAnswer (answerTaken s k m line a) k m line a := by
  obtain ⟨hmem, hall⟩ := h
  have hfind : (s.coh.answers.find? fun e => e.1 = k && e.2.1 = m && e.2.2.1 = line && e.2.2.2.kind = a.kind) =
      some (k, m, line, a) := by
    cases he : s.coh.answers.find? fun e => e.1 = k && e.2.1 = m && e.2.2.1 = line && e.2.2.2.kind = a.kind with
    | none => exact absurd (List.find?_eq_none.1 he _ hmem) (by simp)
    | some e =>
      have hp := List.find?_some he
      simp only [Bool.and_eq_true, decide_eq_true_eq] at hp
      obtain ⟨⟨⟨hk, hpos⟩, hline⟩, -⟩ := hp
      have hans := hall e (List.mem_of_find?_eq_some he) hk hpos hline
      rw [← hk, ← hpos, ← hline, ← hans]
  rw [takeAnswer, if_pos hm, hfind]

/-- The transaction once `m` is no longer awaited. -/
abbrev unawaited (x : Txn) (m : Nat) : Txn := { x with await := x.await ^^^ (1 <<< m) }

/-- The transaction once `m` has said that its notice is in flight: the notice is awaited, or has come already (R283). -/
def noticed (x : Txn) (m : Nat) : Txn :=
  { x with
    await := x.await ^^^ (1 <<< m)
    arrived := if x.arrived.testBit m then x.arrived ^^^ (1 <<< m) else x.arrived
    notices := if x.arrived.testBit m then x.notices else x.notices ||| (1 <<< m) }

section Rest

variable (hx : lineTxn s k line = some x) (hbit : x.await.testBit m = true) (hrest : x.await ^^^ (1 <<< m) ≠ 0)
  (hwaits : NoWaits s k line)
include hx hbit hrest hwaits

omit hbit in
/-- With answers still awaited, the home only notes what has come. -/
theorem settle_advance_awaiting {v : Txn} (hv : v.await = x.await ^^^ (1 <<< m)) (hpart : v.part = x.part) (hline : v.line = x.line) :
    settle (advance (setTxn s x v) v) k line = setTxn s x v := by
  obtain ⟨hk, hl⟩ := lineTxn_named hx
  rw [advance_awaiting _ (hv ▸ hrest)]
  exact settle_busy (lineTxn_setTxn hx (hpart.trans hk) (hline.trans hl)) hwaits

theorem cohAnswer_miss : cohAnswer s k m line .miss = setTxn s x (unawaited x m) := by
  simp only [cohAnswer, hx, hbit, if_true]
  exact settle_advance_awaiting hx hrest hwaits rfl rfl rfl

theorem cohAnswer_clean : cohAnswer s k m line .clean = setTxn s x (unawaited x m) := by
  simp only [cohAnswer, hx, hbit, if_true]
  exact settle_advance_awaiting hx hrest hwaits rfl rfl rfl

theorem cohAnswer_dirty (d : Bytes) :
    cohAnswer s k m line (.dirty d) = setTxn s x { unawaited x m with dirty := some (fitBytes d 128) } := by
  simp only [cohAnswer, hx, hbit, if_true]
  exact settle_advance_awaiting hx hrest hwaits rfl rfl rfl

theorem cohAnswer_inFlight :
    cohAnswer s k m line .inFlight = setTxn (addReg s (pgPart k) Reg.COH_CROSSINGS 1) x (noticed x m) := by
  simp only [cohAnswer, hx, hbit, if_true]
  exact settle_advance_awaiting (s := addReg s (pgPart k) Reg.COH_CROSSINGS 1) hx hrest hwaits rfl rfl rfl

end Rest

theorem rd_setTxn_crossing (h : s.canonical) (v : Txn) :
    rd (setTxn (addReg s (pgPart k) Reg.COH_CROSSINGS 1) x v) (pgPart k) Reg.COH_CROSSINGS =
      rd s (pgPart k) Reg.COH_CROSSINGS + 1 := rd_addReg_same h (pgPart k) Reg.COH_CROSSINGS 1

theorem noticed_new (hcome : x.arrived.testBit m = false) :
    noticed x m = { x with await := x.await ^^^ (1 <<< m), notices := x.notices ||| (1 <<< m) } := by
  simp only [noticed, hcome, Bool.false_eq_true, if_false]

theorem noticed_come (hcome : x.arrived.testBit m = true) :
    noticed x m = { x with await := x.await ^^^ (1 <<< m), arrived := x.arrived ^^^ (1 <<< m) } := by
  simp only [noticed, hcome, if_true]

/-- The notice of a cluster for its line, with the data of a modified one, is on its way, and the line is EVICTING (R272, R278). -/
def noticeSent (s : State) (l : CLine) (d : Option Bytes) : State :=
  setLine { s with coh := { s.coh with flight := s.coh.flight ++ [(l.part, l.pos, l.line, d)] } } l.part l.pos l.line .evicting l.data

theorem sendNotice_sent {wb : Bool} (hl : cached s k m line = some l) (hst : l.st = if wb then .modified else .exclusive)
    (hcredit : wbCredit s k m line = true) :
    sendNotice s k m line wb = some (noticeSent s l (if wb then some l.data else none)) := by
  obtain ⟨rfl, rfl, rfl⟩ := cached_named hl
  simp only [sendNotice, hl, hst, hcredit, decide_true, Bool.and_self, if_true, noticeSent]

theorem noticeSent_flight (hl : cached s k m line = some l) (d : Option Bytes) :
    (noticeSent s l d).coh.flight = s.coh.flight ++ [(k, m, line, d)] := by
  obtain ⟨rfl, rfl, rfl⟩ := cached_named hl
  rfl

theorem execWbInFlight_crossing (hm : m < 8) (hnone : Unanswered s k m line) (hx : lineTxn s k line = some x)
    (hbit : x.await.testBit m = true) (hflight : flightOf s k m line = none) (hl : cached s k m line = some l)
    (hst : l.st = .modified) (hcredit : wbCredit s k m line = true) :
    exec (.wbInFlight k m line) s =
      .next (cohAnswer (dropLine (noticeSent s l (some l.data)) k m line) k m line .inFlight) := by
  refine congrArg Host.Outcome.next ?_
  simp only [any_answers_of_unanswered hnone, hm, hx, hbit, hflight, sendNotice_sent (wb := true) hl hst hcredit, Bool.not_false,
    and_self, if_true, Option.isSome_none, Bool.false_eq_true, if_false]

theorem execWbInFlight_asked (hm : m < 8) (h : Asked s k m line .inFlight) :
    exec (.wbInFlight k m line) s =
      .next (cohAnswer (answerTaken s k m line .inFlight) k m line .inFlight) := by
  refine congrArg Host.Outcome.next ?_
  rw [if_neg (by rw [any_answers_of_asked h]; simp)]
  exact takeAnswer_asked hm h .inFlight

end Answers

/-- Settles O37: a snoop's answer is `answerOf` the copy, and while others are awaited the home notes each answer in the
transaction. -/
theorem snoopsAreAnswered : Obligations.SnoopsAreAnswered := by
  intro k m line d x s hs _ hm hx hbit _ hwaits asked rest answer
  refine ⟨fun hnone => ⟨fun hshr l hl => ?shared, fun hshr hl hcome => ?sharedMiss, fun hshr l hl => ?dropped,
    fun hshr hl => ?droppedMiss, fun l hl hst hrest hcome hflight hcredit => ?crossing⟩,
    fun hrest hasked => ?miss, fun hrest hasked => ?clean, fun hrest hasked => ?dirty, fun hrest hasked hcome => ?come⟩
  case shared =>
    refine ⟨_, congrArg Host.Outcome.next (snoopCluster_held hm hx hbit hshr hnone hl), ?_, ?_, ?_⟩
    · unfold snooped
      split <;> rfl
    · change cached (snooped s k m line false l) k m line = _
      by_cases hst : l.st = .evicting
      · rw [snooped, if_pos (.inl hst), if_pos hst, cached_dropLine]
      · rw [snooped, if_neg (by simp [hst]), if_neg hst, cached_setLine]
    · unfold snooped
      split <;> rfl
  case sharedMiss =>
    refine congrArg Host.Outcome.next ((snoopCluster_missed (inv := false) hm hx hbit hshr hnone hl).trans ?_)
    rw [hcome]
    rfl
  case dropped =>
    refine ⟨_, congrArg Host.Outcome.next (snoopCluster_held hm hx hbit hshr hnone hl), ?_, ?_, ?_⟩ <;>
      rw [snooped, if_pos (.inr rfl)]
    · rfl
    · exact cached_dropLine s k m line
    · rfl
  case droppedMiss => exact congrArg Host.Outcome.next (snoopCluster_missed hm hx hbit hshr hnone hl)
  case crossing =>
    have hdone := cohAnswer_inFlight (s := dropLine (noticeSent s l (some l.data)) k m line) hx hbit hrest hwaits
    refine ⟨_, (execWbInFlight_crossing hm hnone hx hbit hflight hl hst hcredit).trans (congrArg _ hdone),
      cached_dropLine _ k m line, ?_, ?_,
      rd_setTxn_crossing (s := dropLine (noticeSent s l (some l.data)) k m line) hs _⟩
    · change _ ∈ (noticeSent s l (some l.data)).coh.flight
      rw [noticeSent_flight hl]
      exact List.mem_append_right _ (List.mem_singleton_self _)
    obtain ⟨hk, hline⟩ := lineTxn_named hx
    exact (lineTxn_setTxn (s := addReg (dropLine (noticeSent s l (some l.data)) k m line) (pgPart k) Reg.COH_CROSSINGS 1)
      (v := noticed x m) hx hk hline).trans (congrArg some (noticed_new hcome))
  case miss =>
    obtain ⟨hk, hline⟩ := lineTxn_named hx
    have hdone := cohAnswer_miss (s := answerTaken s k m line .miss) hx hbit hrest hwaits
    exact ⟨_, congrArg Host.Outcome.next ((takeAnswer_asked hm hasked .miss).trans hdone), lineTxn_setTxn hx hk hline, rfl⟩
  case clean =>
    obtain ⟨hk, hline⟩ := lineTxn_named hx
    have hdone := cohAnswer_clean (s := answerTaken s k m line .clean) hx hbit hrest hwaits
    exact ⟨_, congrArg Host.Outcome.next ((takeAnswer_asked hm hasked .clean).trans hdone), lineTxn_setTxn hx hk hline, rfl⟩
  case dirty =>
    obtain ⟨hk, hline⟩ := lineTxn_named hx
    have hdone := cohAnswer_dirty (s := answerTaken s k m line (.dirty d)) hx hbit hrest hwaits d
    exact ⟨_, congrArg Host.Outcome.next ((takeAnswer_asked hm hasked (.dirty d)).trans hdone), lineTxn_setTxn hx hk hline, rfl⟩
  case come =>
    obtain ⟨hk, hline⟩ := lineTxn_named hx
    have hdone := cohAnswer_inFlight (s := answerTaken s k m line .inFlight) hx hbit hrest hwaits
    refine ⟨_, (execWbInFlight_asked hm hasked).trans (congrArg _ hdone), ?_,
      rd_setTxn_crossing (s := answerTaken s k m line .inFlight) hs _⟩
    exact (lineTxn_setTxn (s := addReg (answerTaken s k m line .inFlight) (pgPart k) Reg.COH_CROSSINGS 1)
      (v := noticed x m) hx hk hline).trans (congrArg some (noticed_come hcome))

end Sys2Proof.Machine
end

section
/-!
SUPPORT. Notices of a cluster: sent, on their way, and taken by the home of their line (R272, R275, R278, R283, R284).
-/

namespace Sys2Proof.Machine

open Sys2Proof

section Notices

variable {s t : State} {k m line : Nat} {l : CLine} {d : Option Bytes} {wb : Bool}

theorem length_fitBytes (b : Bytes) (n : Nat) : (fitBytes b n).length = n := by
  simp only [fitBytes, slice, zeroBytes, List.length_append, List.length_take, List.length_drop, List.length_replicate]
  omega

theorem flightOf_noticeSent (hl : cached s k m line = some l) (hflight : flightOf s k m line = none) :
    flightOf (noticeSent s l d) k m line = some (k, m, line, d) := by
  rw [flightOf, noticeSent_flight hl, List.find?_append, ← flightOf, hflight]
  simp

/-- A notice that arrives takes the line that it was about, and stands no longer among those on their way (R272). -/
theorem noticeArrives_noticeSent (hl : cached s k m line = some l) (hflight : flightOf s k m line = none) :
    noticeArrives (noticeSent s l d) (k, m, line, d) = homeNotice (dropLine s k m line) k m line d := by
  have hnot : (k, m, line, d) ∉ s.coh.flight := fun hmem => by
    simpa using List.find?_eq_none.1 hflight _ hmem
  have herase : (noticeSent s l d).coh.flight.erase (k, m, line, d) = s.coh.flight := by
    rw [noticeSent_flight hl, List.erase_append_right _ hnot, List.erase_cons_head, List.append_nil]
  obtain ⟨rfl, rfl, rfl⟩ := cached_named hl
  have hcached : cached { noticeSent s l d with coh := { (noticeSent s l d).coh with flight := s.coh.flight } } l.part l.pos l.line =
      some ⟨l.part, l.pos, l.line, .evicting, l.data⟩ := cached_setLine _ l.part l.pos l.line .evicting l.data
  have hdropped : dropLine { noticeSent s l d with coh := { (noticeSent s l d).coh with flight := s.coh.flight } }
      l.part l.pos l.line = dropLine s l.part l.pos l.line := by
    simp [dropLine, noticeSent, setLine, List.filter_append]
  rw [noticeArrives, herase]
  simp only [hcached, if_true]
  rw [hdropped]

section Owner

variable (hm : m < 8) (htxn : lineTxn s k line = none) (howned : ownedLine s k line = true)
  (hholders : holdersOf s k line = 1 <<< m) (hback : NoneBack s k line) (hwaits : NoWaits s k line)
include hm htxn howned hholders hback hwaits

/-- A line that its owner gives up is UNCACHED (R284). -/
theorem homeNotice_clean : homeNotice s k m line none = setDir s k line false 0 := by
  have hsettle : settle (setDir s k line false 0) k line = setDir s k line false 0 := settle_noneBack hback hwaits
  have hnear : ¬12 ≤ m := by omega
  simp only [homeNotice, cachingPos, hm, takeNotice, htxn, howned, hholders, hnear, decide_true, Bool.true_or, Bool.not_true,
    Bool.false_eq_true, Bool.and_self, if_true, if_false, hsettle]

/-- A line that its owner writes back is UNCACHED, and its data in memory (R284). -/
theorem homeNotice_modified (hs : s.canonical) (hclean : Clean s (line * 128) 128) (b : Bytes) :
    ∃ t, homeNotice s k m line (some b) = t ∧ LineWritten (setDir s k line false 0) t (line * 128) (fitBytes b 128) := by
  have hwritten := devWrite_line (s := setDir s k line false 0) hs k (reqOf m) hclean (length_fitBytes b 128)
  refine ⟨_, ?_, hwritten⟩
  have hsettle : settle (devWrite (setDir s k line false 0) k (reqOf m) (line * 128) (fitBytes b 128)).2 k line =
      (devWrite (setDir s k line false 0) k (reqOf m) (line * 128) (fitBytes b 128)).2 :=
    settle_noneBack (by rw [NoneBack, hwritten.coh]; exact hback) (by rw [NoWaits, hwritten.coh]; exact hwaits)
  have hnear : ¬12 ≤ m := by omega
  simp only [homeNotice, cachingPos, hm, takeNotice, htxn, howned, hholders, hnear, decide_true, Bool.true_or, Bool.not_true,
    Bool.false_eq_true, Bool.and_self, if_true, if_false, hsettle]

end Owner

theorem clusterNotice_sent (hl : cached s k m line = some l) (hflight : flightOf s k m line = none)
    (hst : l.st = if wb then .modified else .exclusive) (hcredit : wbCredit s k m line = true) (data : Option Bytes) :
    clusterNotice s k m line wb false data = noticeSent s l (if wb then some l.data else none) := by
  simp only [clusterNotice, hflight, sendNotice_sent hl hst hcredit, Bool.false_eq_true, if_false]

theorem clusterNotice_arrives (hl : cached s k m line = some l) (hflight : flightOf s k m line = none)
    (hst : l.st = if wb then .modified else .exclusive) (hcredit : wbCredit s k m line = true) (data : Option Bytes) :
    clusterNotice s k m line wb true data =
      homeNotice (dropLine s k m line) k m line (if wb then some l.data else none) := by
  simp only [clusterNotice, hflight, sendNotice_sent hl hst hcredit, flightOf_noticeSent hl hflight, if_true]
  exact noticeArrives_noticeSent hl hflight

theorem clusterNotice_onWay (hl : cached s k m line = some l) (hflight : flightOf s k m line = none) (hwb : d.isSome = wb)
    (data : Option Bytes) :
    clusterNotice (noticeSent s l d) k m line wb true data = homeNotice (dropLine s k m line) k m line d := by
  simp only [clusterNotice, flightOf_noticeSent hl hflight, hwb, decide_true, Bool.and_self, if_true]
  exact noticeArrives_noticeSent hl hflight

theorem exec_wb (hk : k < 16) (hm : m < 8) (hlost : domainLost s k = false) (b : Bytes) (arrives : Bool) :
    exec (.wb k m line b arrives) s = .next (clusterNotice s k m line true arrives (some b)) := by
  refine congrArg Host.Outcome.next ?_
  rw [if_neg (by rw [hlost]; simp only [Bool.false_eq_true, or_false]; omega), if_pos hm]

theorem exec_evictClean (hk : k < 16) (hm : m < 8) (hlost : domainLost s k = false) (arrives : Bool) :
    exec (.evictClean k m line arrives) s = .next (clusterNotice s k m line false arrives none) := by
  refine congrArg Host.Outcome.next ?_
  rw [if_neg (by rw [hlost]; simp only [Bool.false_eq_true, or_false]; omega), if_pos hm]

end Notices

end Sys2Proof.Machine
end

section
/-!
SUPPORT. Grants and placements taken by a cluster, and transactions that close (R276, R279, R281).
-/

namespace Sys2Proof.Machine

open Sys2Proof

section Grants

variable {s : State} {k m line : Nat} {x : Txn} {b : Bytes} {l : CLine}

/-- The cluster has room for the line: it holds fewer than twelve lines, or holds the line (R89, R272). -/
abbrev Room (s : State) (k m line : Nat) : Prop :=
  (s.coh.lines.countP fun l => l.part = k && l.pos = m) < 12 ∨ (cached s k m line).isSome = true

theorem takeLine_room (hroom : Room s k m line) (st : LineState) (d : Bytes) :
    takeLine s k m line st d = setLine s k m line st d := by
  rw [takeLine]
  rcases hroom with hfew | hheld
  · have hevict : evictFor s k m line = s := by
      rw [evictFor, ← List.countP_eq_length_filter, if_pos hfew]
    rw [hevict, ite_self]
  · rw [if_pos hheld]

theorem grantFor_waiting (hm : m < 8) (hx : lineTxn s k line = some x) (hpos : x.pos = m) (hreq : cachingReq x.req = true)
    (hphase : x.phase = 2) {excl upg : Bool} (hupg : (x.req = .upg) ↔ upg = true) (hexcl : upg = true ∨ ownedLine s k line = excl) :
    grantFor s k m line excl upg = x.dirty := by
  simp only [grantFor, hx, hm, hpos, hreq, hphase, hupg, hexcl, and_self, if_true]

theorem exec_dataS (h : grantFor s k m line false false = some b) :
    exec (.dataS k m line) s = .next (takeLine s k m line .shared b) := by
  refine congrArg Host.Outcome.next ?_
  rw [h]

theorem exec_dataE (h : grantFor s k m line true false = some b) :
    exec (.dataE k m line) s = .next (takeLine s k m line .exclusive b) := by
  refine congrArg Host.Outcome.next ?_
  rw [h]

theorem exec_grantUpg (h : grantFor s k m line true true = some b) (hl : cached s k m line = some l) (hst : l.st = .shared) :
    exec (.grantUpg k m line) s = .next (setLine s k m line .exclusive l.data) := by
  refine congrArg Host.Outcome.next ?_
  rw [h, hl]
  exact if_pos hst

/-- A transaction that closes lets nothing else begin where no retry of its line has come again. -/
theorem settle_closeTxn (hback : NoneBack s k line) (hwaits : NoWaits s k line) (x : Txn) :
    settle (closeTxn s x) k line = closeTxn s x := settle_noneBack (s := closeTxn s x) hback hwaits

theorem exec_grantAck (hx : lineTxn s k line = some x) (hpos : x.pos = m) (hreq : cachingReq x.req = true) (hphase : x.phase = 2)
    (hheld : (cached s k m line).isSome = true) :
    exec (.grantAck k m line) s = .next (settle (closeTxn s x) k line) := by
  refine congrArg Host.Outcome.next ?_
  simp only [hx, hpos, hreq, hphase, hheld, Nat.reduceEqDiff, false_and, if_false, decide_true, Bool.or_true, Bool.and_self,
    if_true]

theorem exec_grantAck_placed (hx : lineTxn s k line = some x) (hphase : x.phase = 3) (hhint : reqHint x.req % 8 = m) :
    exec (.grantAck k m line) s = .next (setTxn s x { x with phase := 2 }) := by
  refine congrArg Host.Outcome.next ?_
  simp only [hx, hphase, hhint, and_self, if_true]

theorem exec_rdData (hx : lineTxn s k line = some x) (hpos : x.pos = m) (hreq : x.req = .rdOnce) (hphase : x.phase = 2) :
    exec (.rdData k m line) s =
      .next (settle (closeTxn (emit s (.coh k m line "RD_DATA" (x.dirty.getD []))) x) k line) := by
  refine congrArg Host.Outcome.next ?_
  simp only [hx]
  exact if_pos ⟨hpos, hreq, hphase⟩

theorem exec_wrAck (hx : lineTxn s k line = some x) (hpos : x.pos = m) (hreq : writingReq x.req = true) (hphase : x.phase = 2) :
    exec (.wrAck k m line) s = .next (settle (closeTxn (emit s (.coh k m line "WR_ACK" [])) x) k line) := by
  refine congrArg Host.Outcome.next ?_
  simp only [hx]
  exact if_pos ⟨hpos, hreq, hphase⟩

/-- A set of the directory that has a way left needs none to give way (R273, R274). -/
theorem makeWay_room (h : (dirSetEntries s k line).length < 12) (whole : Bool) : makeWay s k line whole = s := by
  rw [makeWay]
  split
  · rfl
  · exact if_pos h

/-- The hinted cluster has taken the line in M (R281). -/
def placed (s : State) (k m line : Nat) (x : Txn) (b : Bytes) : State :=
  setTxn (addReg (setLine (setDir s k line true (1 <<< m)) k m line .modified b) (pgPart k) Reg.COH_HINT_PLACED 1) x
    { x with phase := 3 }

theorem exec_fillHint (hx : lineTxn s k line = some x) (hphase : x.phase = 1) (hhint : reqHint x.req % 8 = m) (hb : x.dirty = some b)
    (husable : hintUsable s k (reqHint x.req) = true) (hway : (dirSetEntries s k line).length < 12) (hroom : Room s k m line) :
    exec (.fillHint k m line) s = .next (placed s k m line x b) := by
  have hbytes : x.dirty.getD [] = b := by rw [hb, Option.getD_some]
  refine congrArg Host.Outcome.next ?_
  simp only [hx, hphase, hhint, husable, hbytes, makeWay_room hway, and_self, if_true]
  rw [takeLine_room (s := setDir s k line true (1 <<< m)) hroom]
  rfl

theorem one_shiftLeft_ne_zero (m : Nat) : 1 <<< m ≠ 0 := by
  rw [Nat.one_shiftLeft]
  exact (Nat.two_pow_pos m).ne'

end Grants

/-- Settles O38: a notice that arrives is `homeNotice` of its owner, a grant is what `grantFor` finds, and a transaction that
closes leaves nothing to take up. -/
theorem linesMoveBetweenCachesAndMemory : Obligations.LinesMoveBetweenCachesAndMemory := by
  intro k m line b l x s hs hk hm hlost hretries hwaits closed room onWay gone written given
  have hback : NoneBack s k line := fun r hr h => hretries r hr h
  refine ⟨fun htxn howned hholders hl hclean hflight hcredit => ⟨fun hst => ?modified, fun hst => ?exclusive⟩,
    fun hx hpos hphase hb => ⟨fun hroom hreq howned => ?dataS, fun hroom hreq howned => ?dataE, fun hreq hl hst => ?upg,
      fun hreq hheld => ?ack, fun hreq => ?read, fun hreq => ?write⟩,
    fun hx hphase hhint hb husable hway hroom => ?fill, fun hx hphase hhint => ?placed⟩
  case modified =>
    have hway : noticeSent s l (some l.data) = onWay (some l.data) := by
      obtain ⟨rfl, rfl, rfl⟩ := cached_named hl
      rfl
    obtain ⟨t, ht, hwritten⟩ := homeNotice_modified (s := dropLine s k m line) hm htxn howned hholders hback hwaits hs hclean l.data
    have hend : written t := by
      refine ⟨⟨?_, ?_, ?_⟩, hwritten.stored⟩
      · rw [dirOf, hwritten.coh, ← dirOf]
        exact dirOf_setDir_zero _ k line false
      · rw [cached, hwritten.coh, ← cached]
        exact cached_dropLine s k m line
      · rw [flightOf, hwritten.coh, ← flightOf]
        exact hflight
    refine ⟨?_, ⟨t, ?_, hend⟩, ⟨t, ?_, hend⟩⟩
    · rw [← hway, exec_wb hk hm hlost, clusterNotice_sent (wb := true) hl hflight hst hcredit]
      rfl
    · rw [exec_wb hk hm hlost, clusterNotice_arrives (wb := true) hl hflight hst hcredit]
      exact congrArg Host.Outcome.next ht
    · rw [← hway, exec_wb (s := noticeSent s l (some l.data)) hk hm hlost, clusterNotice_onWay (wb := true) hl hflight rfl]
      exact congrArg Host.Outcome.next ht
  case exclusive =>
    have hway : noticeSent s l none = onWay none := by
      obtain ⟨rfl, rfl, rfl⟩ := cached_named hl
      rfl
    have hdone := homeNotice_clean (s := dropLine s k m line) hm htxn howned hholders hback hwaits
    have hend : given (setDir (dropLine s k m line) k line false 0) :=
      ⟨⟨dirOf_setDir_zero _ k line false, cached_dropLine s k m line, hflight⟩, rfl⟩
    refine ⟨?_, ⟨_, ?_, hend⟩, ⟨_, ?_, hend⟩⟩
    · rw [← hway, exec_evictClean hk hm hlost, clusterNotice_sent (wb := false) hl hflight hst hcredit]
      rfl
    · rw [exec_evictClean hk hm hlost, clusterNotice_arrives (wb := false) hl hflight hst hcredit]
      exact congrArg Host.Outcome.next hdone
    · rw [← hway, exec_evictClean (s := noticeSent s l none) hk hm hlost, clusterNotice_onWay (wb := false) hl hflight rfl]
      exact congrArg Host.Outcome.next hdone
  case dataS =>
    have hcaching : cachingReq x.req = true := by rcases hreq with h | h <;> rw [h] <;> rfl
    have hgrant := (grantFor_waiting hm hx hpos hcaching hphase (excl := false) (upg := false)
      (by rcases hreq with h | h <;> simp [h]) (.inr howned)).trans hb
    refine ⟨_, exec_dataS hgrant, ?_⟩
    rw [takeLine_room hroom]
    exact ⟨cached_setLine s k m line .shared b, rfl⟩
  case dataE =>
    have hcaching : cachingReq x.req = true := by rcases hreq with h | h <;> rw [h] <;> rfl
    have hgrant := (grantFor_waiting hm hx hpos hcaching hphase (excl := true) (upg := false)
      (by rcases hreq with h | h <;> simp [h]) (.inr howned)).trans hb
    refine ⟨_, exec_dataE hgrant, ?_⟩
    rw [takeLine_room hroom]
    exact ⟨cached_setLine s k m line .exclusive b, rfl⟩
  case upg =>
    have hgrant := (grantFor_waiting hm hx hpos (by rw [hreq]; rfl) hphase (excl := true) (upg := true)
      (by simp [hreq]) (.inl rfl)).trans hb
    exact ⟨_, exec_grantUpg hgrant hl hst, cached_setLine s k m line .exclusive l.data, rfl⟩
  case ack =>
    have hcaching : cachingReq x.req = true := by rcases hreq with h | h | h <;> rw [h] <;> rfl
    exact completes_of_next (exec_grantAck hx hpos hcaching hphase hheld) (settle_closeTxn hback hwaits x)
      ⟨rfl, ⟨rfl, rfl⟩, rfl⟩
  case read =>
    refine completes_of_next (exec_rdData hx hpos hreq hphase)
      (settle_closeTxn (s := emit s (.coh k m line "RD_DATA" (x.dirty.getD []))) hback hwaits x) ?_
    rw [hb]
    exact ⟨rfl, rfl, ⟨rfl, rfl⟩, rfl⟩
  case write =>
    exact completes_of_next (exec_wrAck hx hpos hreq hphase)
      (settle_closeTxn (s := emit s (.coh k m line "WR_ACK" [])) hback hwaits x) ⟨rfl, rfl, ⟨rfl, rfl⟩, rfl⟩
  case fill =>
    obtain ⟨hpart, hline⟩ := lineTxn_named hx
    have hdir : dirOf (placed s k m line x b) k line = some ⟨k, line, _, true, 1 <<< m⟩ :=
      dirOf_setDir s k line true (one_shiftLeft_ne_zero m)
    refine ⟨_, exec_fillHint hx hphase hhint hb husable hway hroom, cached_setLine _ k m line .modified b, ?_, ?_, ?_,
      rd_addReg_same (s := setLine (setDir s k line true (1 <<< m)) k m line .modified b) hs _ _ 1, ⟨rfl, rfl⟩⟩
    · rw [ownedLine, hdir]
      rfl
    · rw [holdersOf, hdir]
      rfl
    · exact lineTxn_setTxn (s := addReg (setLine (setDir s k line true (1 <<< m)) k m line .modified b) _ _ _) hx hpart hline
  case placed =>
    obtain ⟨hpart, hline⟩ := lineTxn_named hx
    exact ⟨_, exec_grantAck_placed hx hphase hhint, lineTxn_setTxn hx hpart hline, rfl⟩

end Sys2Proof.Machine
end

section
/-!
SUPPORT. Requests at the home of their line: how they come, which wins, and the transaction that the home opens (R275 to R279).
-/

namespace Sys2Proof.Machine

open Sys2Proof

/-- Requests of one home cycle have come after those that were there (R276). -/
abbrev requestsCome (s : State) (come : List (Nat × Nat × Nat × CohReq)) : State :=
  { s with coh := { s.coh with arrivals := s.coh.arrivals ++ come } }

/-- A position has won at the home of the line (R276). -/
def won (s : State) (k line pos : Nat) : State :=
  { s with coh := { s.coh with
    rank := (s.coh.rank.filter fun e => e.1 ≠ 8 * k + homeOf line) ++ [(8 * k + homeOf line, pos)] } }

/-- The highest ranked of the requests that have come (R276). -/
def highest (s : State) (k line : Nat) (come : List (Nat × Nat × Nat × CohReq)) : Option (Nat × Nat × Nat × CohReq) :=
  come.foldl (fun (b : Option (Nat × Nat × Nat × CohReq)) r =>
    match b with
    | none => some r
    | some w => if rankOf s k line r.2.1 < rankOf s k line w.2.1 then some r else b) none

/-- What a request is served as: an UPG of a line not held shared as RD_X (R279). -/
def servedReq (s : State) (k pos line : Nat) (req : CohReq) : CohReq :=
  if req = .upg ∧ !((holdersOf s k line).testBit pos && !(ownedLine s k line)) then .rdX else req

/-- The holders that the home snoops for a request (R279). -/
def snoopTargets (s : State) (k pos line : Nat) (req : CohReq) : List Nat :=
  let others := (bitsOf (holdersOf s k line) 18).filter fun p => p ≠ pos
  match req with
  | .rdS | .rdOnce => if ownedLine s k line then others else []
  | _ => others

/-- The transaction of a request as the home opens it (R276). -/
def newTxn (k pos line : Nat) (req : CohReq) (await : Nat) (res : Bool) : Txn :=
  ⟨k, line, pos, req, await, 0, 0, none, decide (req = .rdS) || decide (req = .rdOnce), 0, res⟩

/-- The home has counted a request and opened its transaction (R276). -/
def txnOpened (s : State) (t : Txn) : State :=
  { addReg s (pgPart t.part) Reg.COH_REQUESTS 1 with coh := { s.coh with txns := s.coh.txns ++ [t] } }

section Requests

variable {s : State} {k pos p line : Nat} {req : CohReq} {come : List (Nat × Nat × Nat × CohReq)} {w : Nat × Nat × Nat × CohReq}

/-- A request of a position that may make it, for a line of a domain that stands (R268, R275, R289). -/
structure Admissible (s : State) (k pos line : Nat) (req : CohReq) : Prop where
  partition : k < 16
  position : pos < 18
  own : ownRange k (line * 128) 128 = true
  stands : domainLost s k = false
  agent : agentPos s k pos = true
  caching : cachingReq req = true → cachingPos s k pos = true

/-- The request passes the checks of its home. -/
theorem Admissible.passes (h : Admissible s k pos line req) : ¬(16 ≤ k ∨ 18 ≤ pos) ∧ ¬(!ownRange k (line * 128) 128) = true ∧
    ¬domainLost s k = true ∧ ¬(!agentPos s k pos) = true ∧ ¬(cachingReq req && !cachingPos s k pos) = true := by
  obtain ⟨hk, hpos, hown, hstands, hagent, hcaching⟩ := h
  refine ⟨by omega, by simp [hown], by simp [hstands], by simp [hagent], ?_⟩
  cases hreq : cachingReq req <;> simp [hcaching, hreq]

theorem cohRequest_new (h : Admissible s k pos line req) (more : Bool) :
    cohRequest s k pos line req false more =
      if more then requestsCome s [(k, pos, line, req)] else arbitrate (requestsCome s [(k, pos, line, req)]) k line := by
  obtain ⟨hpart, hown, hstands, hagent, hcaching⟩ := h.passes
  rw [cohRequest, if_neg hpart, if_neg hown, if_neg hstands, if_neg hagent, if_neg hcaching]
  rfl

section Arbitrate

variable (hnone : ∀ r ∈ s.coh.arrivals, ¬(r.1 = k ∧ r.2.2.1 = line)) (hcome : ∀ r ∈ come, r.1 = k ∧ r.2.2.1 = line)
include hnone hcome

theorem filter_arrived_come :
    ((requestsCome s come).coh.arrivals.filter fun r => decide (r.1 = k) && decide (r.2.2.1 = line)) = come := by
  rw [List.filter_append, List.filter_eq_nil_iff.2 fun r hr => by simpa using hnone r hr,
    List.filter_eq_self.2 fun r hr => by simpa using hcome r hr, List.nil_append]

theorem filter_arrived_before :
    ((requestsCome s come).coh.arrivals.filter fun r => !(decide (r.1 = k) && decide (r.2.2.1 = line))) = s.coh.arrivals := by
  rw [List.filter_append, List.filter_eq_self.2 fun r hr => by simpa [imp_iff_not_or] using hnone r hr,
    List.filter_eq_nil_iff.2 fun r hr => by simpa using hcome r hr, List.append_nil]

/-- Where none can be accepted each of them loses (R276). -/
theorem arbitrate_blocked (hblocked : blockedLine s k line = true) :
    arbitrate (requestsCome s come) k line = settle (come.foldl (fun s r => loseReq s k r.2.1 line r.2.2.2) s) k line := by
  rw [arbitrate]
  simp only [filter_arrived_come hnone hcome, filter_arrived_before hnone hcome]
  rw [if_pos hblocked]

/-- The highest ranked is accepted and the others lose (R276). -/
theorem arbitrate_won (hfree : blockedLine s k line = false) (hw : highest s k line come = some w) :
    arbitrate (requestsCome s come) k line =
      settle ((come.erase w).foldl (fun s r => loseReq s k r.2.1 line r.2.2.2)
        (openTxn (won s k line w.2.1) k w.2.1 line w.2.2.2 false)) k line := by
  rw [arbitrate]
  simp only [filter_arrived_come hnone hcome, filter_arrived_before hnone hcome]
  rw [if_neg (by rw [hfree]; decide)]
  split
  · next hb => exact nomatch hb.symm.trans hw
  · next v hb =>
    obtain rfl : v = w := Option.some.inj (hb.symm.trans hw)
    rfl

end Arbitrate

/-- A home that has a general entry left, no transaction of the line open and no retry of it back takes a request for it (R276,
R278). -/
theorem blockedLine_free (htxn : lineTxn s k line = none) (hback : NoneBack s k line) (hload : homeLoad s k (homeOf line) < 78) :
    blockedLine s k line = false := by
  have hnone : (s.coh.retries.any fun r => r.part = k && r.line = line && r.back) = false :=
    List.any_eq_false.2 fun r hr => by simpa [and_assoc] using hback r hr
  rw [blockedLine, htxn, hnone]
  simpa using hload

theorem HomeQuiet.noneBack (h : HomeQuiet s k line) : NoneBack s k line := fun r hr hmine =>
  h.2.2.1 r hr ⟨hmine.1, hmine.2.1 ▸ rfl⟩

theorem HomeReady.noWaits (h : HomeReady s k line) : NoWaits s k line := by
  obtain ⟨-, -, -, ⟨-, -, -, hwaits⟩, -, -, -⟩ := h
  exact hwaits

theorem HomeReady.clean (h : HomeReady s k line) : Clean s (line * 128) 128 := by
  obtain ⟨-, -, -, -, -, -, hclean⟩ := h
  exact hclean

/-- The only request of its home cycle is served at once by a home that is ready (R276). -/
theorem cohRequest_served (h : Admissible s k pos line req) (hready : HomeReady s k line) :
    cohRequest s k pos line req false false = settle (openTxn (won s k line pos) k pos line req false) k line := by
  obtain ⟨-, -, -, hquiet, hload, -, -⟩ := hready
  have hfree := blockedLine_free hquiet.1 (HomeQuiet.noneBack hquiet) hload
  rw [cohRequest_new h, if_neg (by decide),
    arbitrate_won (w := (k, pos, line, req)) hquiet.2.1 (by simp) hfree rfl, List.erase_cons_head, List.foldl_nil]

theorem openTxn_eq (s : State) (k pos line : Nat) (req : CohReq) (res : Bool) :
    openTxn s k pos line req res =
      advance (sendSnoops
        (txnOpened s (newTxn k pos line (servedReq s k pos line req) (maskOf (snoopTargets s k pos line (servedReq s k pos line req)))
          res)) k line
        (newTxn k pos line (servedReq s k pos line req) (maskOf (snoopTargets s k pos line (servedReq s k pos line req))) res).shr
        (snoopTargets s k pos line (servedReq s k pos line req)))
        (newTxn k pos line (servedReq s k pos line req) (maskOf (snoopTargets s k pos line (servedReq s k pos line req))) res) := rfl

/-- A request that needs no snoop goes on at once (R279). -/
theorem openTxn_unsnooped {r : CohReq} (hr : servedReq s k pos line req = r) (hnone : snoopTargets s k pos line r = [])
    (res : Bool) :
    openTxn s k pos line req res = advance (txnOpened s (newTxn k pos line r 0 res)) (newTxn k pos line r 0 res) := by
  rw [openTxn_eq, hr, hnone]
  rfl

theorem servedReq_of_ne_upg (h : req ≠ .upg) : servedReq s k pos line req = req := if_neg fun x => h x.1

theorem snoopTargets_uncached (h : dirOf s k line = none) (req : CohReq) : snoopTargets s k pos line req = [] := by
  have hzero : (bitsOf (holdersOf s k line) 18).filter (fun p => decide (p ≠ pos)) = [] := by
    simp [holdersOf, h, bitsOf]
  unfold snoopTargets
  rw [hzero]
  cases req <;> simp

theorem servedReq_uncached (h : dirOf s k line = none) : servedReq s k pos line .upg = .rdX := by
  simp [servedReq, holdersOf, h]

theorem lineTxn_txnOpened (htxn : lineTxn s k line = none) (r : CohReq) (await : Nat) (res : Bool) :
    lineTxn (txnOpened s (newTxn k pos line r await res)) k line = some (newTxn k pos line r await res) := by
  refine List.find?_append.trans ?_
  rw [← lineTxn, htxn]
  simp [newTxn]

theorem rd_txnOpened (hs : s.canonical) (t : Txn) :
    rd (txnOpened s t) (pgPart t.part) Reg.COH_REQUESTS = rd s (pgPart t.part) Reg.COH_REQUESTS + 1 := rd_addReg_same hs _ _ 1

end Requests

end Sys2Proof.Machine
end

section
/-!
SUPPORT. Transactions whose snoops are all answered go on: a grant, an answer to a plain reader, a line put in memory (R279 to
R281).
-/

namespace Sys2Proof.Machine

open Sys2Proof

section Advance

variable {s u : State} {k pos line : Nat} {res : Bool} {d : Bytes}

/-! ### What the next step of a transaction is -/

theorem advance_rdX (hread : devRead s k (reqOf pos) (line * 128) 128 = (some d, u)) :
    advance s (newTxn k pos line .rdX 0 res) =
      grantTxn (setDir (makeWay u k line false) k line true (1 <<< pos)) (newTxn k pos line .rdX 0 res) d "DATA_E" := by
  rw [advance, if_neg (by simp [newTxn])]
  simp only [newTxn, hread]

theorem advance_rdS_uncached (hread : devRead s k (reqOf pos) (line * 128) 128 = (some d, u)) (hdir : dirOf u k line = none) :
    advance s (newTxn k pos line .rdS 0 res) =
      grantTxn (setDir (makeWay u k line false) k line true (1 <<< pos)) (newTxn k pos line .rdS 0 res) d "DATA_E" := by
  rw [advance, if_neg (by simp [newTxn])]
  simp only [newTxn, hread, hdir]

theorem advance_rdS_shared {e : DirEntry} (hread : devRead s k (reqOf pos) (line * 128) 128 = (some d, u))
    (hdir : dirOf u k line = some e) :
    advance s (newTxn k pos line .rdS 0 res) =
      grantTxn (setDir u k line false (e.holders ||| 1 <<< pos)) (newTxn k pos line .rdS 0 res) d "DATA_S" := by
  rw [advance, if_neg (by simp [newTxn])]
  simp only [newTxn, hread, hdir]

theorem advance_upg : advance s (newTxn k pos line .upg 0 res) =
    grantTxn (setDir s k line true (1 <<< pos)) (newTxn k pos line .upg 0 res) [] "GRANT_UPG" := by
  rw [advance, if_neg (by simp [newTxn])]
  rfl

/-- A plain reader has been answered what memory holds of a line that nobody caches (R279). -/
def answeredUncached (s : State) (t : Txn) (d : Bytes) : State :=
  setTxn (setDir s t.part t.line false 0) t { t with phase := 2, dirty := some d }

theorem advance_rdOnce_uncached (hread : devRead s k (reqOf pos) (line * 128) 128 = (some d, u)) (hdir : dirOf u k line = none) :
    advance s (newTxn k pos line .rdOnce 0 res) = answeredUncached u (newTxn k pos line .rdOnce 0 res) d := by
  rw [advance, if_neg (by simp [newTxn])]
  simp [newTxn, hread, hdir, ownedLine, answeredUncached]

theorem advance_wrLine {hint : Nat} (hhint : hintUsable s k hint = false) :
    advance s (newTxn k pos line (.wrLine d hint) 0 res) =
      placeInMemory s (newTxn k pos line (.wrLine d hint) 0 res) (fitBytes d 128) := by
  rw [advance, if_neg (by simp [newTxn])]
  simp only [newTxn, hhint, Bool.false_eq_true, if_false]

theorem advance_wrPart {mask hint : Nat} {data : Bytes} (hread : devRead s k (reqOf pos) (line * 128) 128 = (some d, u))
    (hhint : hintUsable u k hint = false) :
    advance s (newTxn k pos line (.wrPart mask data hint) 0 res) =
      placeInMemory u (newTxn k pos line (.wrPart mask data hint) 0 res) (mergeReq (.wrPart mask data hint) d) := by
  rw [advance, if_neg (by simp [newTxn])]
  simp only [newTxn, hread, reqHint, hhint, Bool.false_eq_true, if_false]

theorem advance_atomAdd {pa : Nat} {v : Word} (hread : devRead s k (reqOf pos) (line * 128) 128 = (some d, u)) :
    advance s (newTxn k pos line (.atomAdd pa v) 0 res) =
      placeInMemory u (newTxn k pos line (.atomAdd pa v) 0 res) (mergeReq (.atomAdd pa v) d) := by
  have hhint : hintUsable u k 0 = false := by simp [hintUsable]
  rw [advance, if_neg (by simp [newTxn])]
  simp only [newTxn, hread, reqHint, hhint, Bool.false_eq_true, if_false]

end Advance

/-! ### What it leaves -/

/-- `u` comes from `s` by the grant of transaction `x` with the bytes `d`: the directory has the entry `e` for the line, and the
position has been told so (R279). -/
structure Granted (s : State) (x : Txn) (e : DirEntry) (msg : String) (d : Bytes) (u : State) : Prop where
  canonical : u.canonical
  dir : dirOf u x.part x.line = some e
  txn : lineTxn u x.part x.line = some { x with phase := 2, dirty := some d }
  txns : u.coh.txns = s.coh.txns.map fun y => if y = x then { x with phase := 2, dirty := some d } else y
  coh : u.coh = { s.coh with dir := u.coh.dir, txns := u.coh.txns }
  regs : ∀ off, off < 0x10000 → off ≠ Reg.EVT_STAT → rd u (pgPart x.part) off = rd s (pgPart x.part) off
  memory : SameMemory s u
  out : s.out <+: u.out
  sent : x.pos < 12 → Out.coh x.part x.pos x.line msg d ∈ u.out

section Granted

variable {s s1 u : State} {x : Txn} {e : DirEntry} {msg : String} {d : Bytes} {k pos line : Nat}

/-- What went on apart from the home before the grant makes no difference. -/
theorem Granted.after (h : Granted s1 x e msg d u) (hto : Aside s s1) (hk : x.part < 16) : Granted s x e msg d u where
  canonical := h.canonical
  dir := h.dir
  txn := h.txn
  txns := by rw [h.txns, hto.beside.coh]
  coh := by rw [h.coh, hto.beside.coh]
  regs off ho he := (h.regs off ho he).trans (hto.rd_part hk ho he)
  memory := ⟨h.memory.1.trans hto.memory.1, h.memory.2.trans hto.memory.2⟩
  out := hto.beside.out.trans h.out
  sent := h.sent

theorem grantTxn_granted (hs : s.canonical) (hk : x.part < 16) (hx : lineTxn s x.part x.line = some x) (owned : Bool) {h : Nat}
    (hh : h ≠ 0) (msg : String) (d : Bytes) :
    Granted s x ⟨x.part, x.line, ((dirOf s x.part x.line).map fun d => d.way).getD (freeWay s x.part x.line), owned, h⟩ msg d
      (grantTxn (setDir s x.part x.line owned h) x d msg) := by
  have hsend := sendAgent_aside (s := setDir s x.part x.line owned h) hs x.part x.pos x.line msg d
  have htxn := (hsend.lineTxn x.part x.line).trans hx
  refine ⟨hsend.canonical, (hsend.dirOf x.part x.line).trans (dirOf_setDir s x.part x.line owned hh),
    lineTxn_setTxn htxn rfl rfl, ?_, ?_, fun off ho he => hsend.rd_part hk ho he, hsend.memory, hsend.beside.out, fun hpos => ?_⟩
  · rw [grantTxn, setTxn, hsend.beside.coh]
    rfl
  · simp only [grantTxn, setTxn, hsend.beside.coh]
    rfl
  · change _ ∈ (sendAgent _ _ _ _ _ _).out
    rw [sendAgent_cluster hpos]
    exact List.mem_append_right _ (List.mem_singleton_self _)

theorem Granted.settled (h : Granted s x e msg d u) (hwaits : NoWaits s x.part x.line) : settle u x.part x.line = u :=
  settle_busy h.txn (by rw [NoWaits, h.coh]; exact hwaits)

section Served

variable (hs : s.canonical) (hk : k < 16) (hclean : Clean s (line * 128) 128)
include hs hk hclean

/-- A caching reader of a line that nobody caches becomes its owner (R279). -/
theorem advance_owner {req : CohReq} {res : Bool} (hreq : req = .rdS ∨ req = .rdX)
    (hx : lineTxn s k line = some (newTxn k pos line req 0 res)) (hdir : dirOf s k line = none)
    (hroom : (dirSetEntries s k line).length < 12) :
    Granted s (newTxn k pos line req 0 res) ⟨k, line, freeWay s k line, true, 1 <<< pos⟩ "DATA_E" (readBytes s (line * 128) 128)
      (advance s (newTxn k pos line req 0 res)) := by
  obtain ⟨s1, hread, hto⟩ := devRead_clean hs k (reqOf pos) hclean
  have hdir1 : dirOf s1 k line = none := (hto.dirOf k line).trans hdir
  have hentries : ∀ l, dirSetEntries s1 k l = dirSetEntries s k l := fun l => by
    simp only [dirSetEntries, homeDir, hto.beside.coh]
  have hway : makeWay s1 k line false = s1 := makeWay_room (by rw [hentries]; exact hroom) false
  have hgrant := grantTxn_granted hto.canonical (x := newTxn k pos line req 0 res) hk ((hto.lineTxn k line).trans hx) true
    (one_shiftLeft_ne_zero pos) "DATA_E" (readBytes s (line * 128) 128)
  have hfree : freeWay s1 k line = freeWay s k line := by simp only [freeWay, hentries]
  have hall := hgrant.after hto hk
  simp only [newTxn, hdir1, hfree, Option.map_none, Option.getD_none] at hall
  rcases hreq with rfl | rfl
  · rw [advance_rdS_uncached hread hdir1, hway]
    exact hall
  · rw [advance_rdX hread, hway]
    exact hall

/-- A reader joins the holders of a line that is shared (R279). -/
theorem advance_joined {w h : Nat} {res : Bool} (hx : lineTxn s k line = some (newTxn k pos line .rdS 0 res))
    (hdir : dirOf s k line = some ⟨k, line, w, false, h⟩) :
    Granted s (newTxn k pos line .rdS 0 res) ⟨k, line, w, false, h ||| 1 <<< pos⟩ "DATA_S" (readBytes s (line * 128) 128)
      (advance s (newTxn k pos line .rdS 0 res)) := by
  obtain ⟨s1, hread, hto⟩ := devRead_clean hs k (reqOf pos) hclean
  have hdir1 := (hto.dirOf k line).trans hdir
  have hgrant := grantTxn_granted hto.canonical (x := newTxn k pos line .rdS 0 res) hk ((hto.lineTxn k line).trans hx) false
    (h := h ||| 1 <<< pos) (fun hzero => one_shiftLeft_ne_zero pos (Nat.or_eq_zero_iff.1 hzero).2) "DATA_S"
    (readBytes s (line * 128) 128)
  have hall := hgrant.after hto hk
  simp only [newTxn, hdir1, Option.map_some, Option.getD_some] at hall
  rw [advance_rdS_shared hread hdir1]
  exact hall

end Served

end Granted

end Sys2Proof.Machine
end

section
/-!
SUPPORT. Lines that nobody caches are served from memory (R279 to R281).
-/

namespace Sys2Proof.Machine

open Sys2Proof

/-- `u` comes from `s` by transaction `x` having put the bytes `d` of its line into memory (R280, R281). -/
structure PutInMemory (s : State) (x : Txn) (d : Bytes) (u : State) : Prop where
  dir : dirOf u x.part x.line = none
  txn : lineTxn u x.part x.line = some { x with phase := 2, dirty := some d }
  waits : u.coh.waits = s.coh.waits
  requests : rd u (pgPart x.part) Reg.COH_REQUESTS = rd s (pgPart x.part) Reg.COH_REQUESTS
  stored : Stored s u (x.line * 128) d

section Uncached

variable {s s1 u : State} {x : Txn} {d : Bytes} {k pos line hint : Nat} {res : Bool}

theorem PutInMemory.after (h : PutInMemory s1 x d u) (hto : Aside s s1) (hk : x.part < 16) : PutInMemory s x d u where
  dir := h.dir
  txn := h.txn
  waits := by rw [h.waits, hto.beside.coh]
  requests := h.requests.trans (hto.rd_part hk (by decide) (by decide))
  stored := by
    obtain ⟨hhost, hread⟩ := h.stored
    refine ⟨hhost.trans hto.memory.2, fun a => (hread a).trans ?_⟩
    rw [readMem, readMem, hto.memory.1]

theorem PutInMemory.settled (h : PutInMemory s x d u) (hwaits : NoWaits s x.part x.line) : settle u x.part x.line = u :=
  settle_busy h.txn (by rw [NoWaits, h.waits]; exact hwaits)

theorem hintDropped_sameBut (h : s.canonical) (k : Nat) :
    SameBut (oneReg (pgPart k) Reg.COH_HINT_DROPPED) s (hintDropped s k) :=
  (addReg_sameBut h _ _ 1 (by decide)).trans' (raiseEvt_sameBut (addReg_canonical h) _ 5).none

/-- A line is put into memory whether or not its hint is counted as dropped (R281). -/
theorem placeInMemory_put (hs : s.canonical) (hk : x.part < 16) (hx : lineTxn s x.part x.line = some x)
    (hclean : Clean s (x.line * 128) 128) (hd : d.length = 128) : PutInMemory s x d (placeInMemory s x d) := by
  have hwritten := devWrite_line (s := setDir s x.part x.line false 0) hs x.part (reqOf x.pos) hclean hd
  have hput : ∃ w, placeInMemory s x d = setTxn w x { x with phase := 2, dirty := some d } ∧
      SameBut (oneReg (pgPart x.part) Reg.COH_HINT_DROPPED)
        (devWrite (setDir s x.part x.line false 0) x.part (reqOf x.pos) (x.line * 128) d).2 w := by
    unfold placeInMemory
    extract_lets _ w
    refine ⟨w, rfl, ?_⟩
    unfold w
    split
    · exact hintDropped_sameBut hwritten.canonical x.part
    · exact .refl _ _
  obtain ⟨w, hput, hsame⟩ := hput
  have hcoh : w.coh = (setDir s x.part x.line false 0).coh := (by rw [hsame.rest]; exact hwritten.coh)
  have htxn : lineTxn w x.part x.line = some x := by
    rw [lineTxn, hcoh]
    exact hx
  rw [hput]
  refine ⟨?_, lineTxn_setTxn htxn rfl rfl, ?_, ?_, ?_⟩
  · change dirOf w x.part x.line = none
    rw [dirOf, hcoh]
    exact dirOf_setDir_zero s x.part x.line false
  · change w.coh.waits = _
    rw [hcoh]
    rfl
  · refine (hsame.rd_eq (by decide) (not_evtReg_pgPart (by decide)) fun h => absurd h.2 (by decide)).trans ?_
    exact hwritten.regs _ _ (by simp only [pgPart]; omega) (by decide) (not_evtReg_pgPart (by decide))
  · obtain ⟨hhost, hread⟩ := hwritten.stored
    refine ⟨hsame.hostMem_eq.trans hhost, fun a => Eq.trans ?_ (hread a)⟩
    exact congrArg (sparseGet memZero · a) hsame.mem_eq

theorem length_mergeReq_wrPart (mask hint : Nat) (data old : Bytes) : (mergeReq (.wrPart mask data hint) old).length = 128 := by
  simp [mergeReq]

theorem length_mergeReq_atomAdd {pa : Nat} (v : Word) {old : Bytes} (hpa : pa % 8 = 0) (hold : old.length = 128) :
    (mergeReq (.atomAdd pa v) old).length = 128 := by
  simp only [mergeReq, putBytes, wordBytes, List.length_append, length_fitBytes, length_natBytes, List.length_drop, hold]
  omega

theorem length_readBytes (s : State) (a n : Nat) : (readBytes s a n).length = n := by
  simp [readBytes, sparseRun]

/-- A hint is usable by the partition's HINT_EN and the cluster's state (R281). -/
theorem hintUsable_congr (hcfg : rd s1 (pgPart k) Reg.COH_CFG = rd s (pgPart k) Reg.COH_CFG)
    (hpage : ∀ m, m < 8 → rd s1 (pgCl (8 * k + m)) Reg.PAGE_STAT = rd s (pgCl (8 * k + m)) Reg.PAGE_STAT) (hint : Nat) :
    hintUsable s1 k hint = hintUsable s k hint := by
  have hcluster := hpage _ (Nat.mod_lt hint (by decide))
  unfold hintUsable rb pageState rf
  rw [hcfg, hcluster]

theorem Aside.hintUsable (h : Aside s s1) (hk : k < 16) (hint : Nat) : hintUsable s1 k hint = hintUsable s k hint :=
  hintUsable_congr (h.rd_part hk (by decide) (by decide))
    (fun m hm => h.regs _ _ (by simp only [pgCl]; omega) (by decide) (not_evtReg_pageStat _)) hint

theorem hintUsable_txnOpened (hs : s.canonical) (t : Txn) (k hint : Nat) :
    hintUsable (txnOpened s t) k hint = hintUsable s k hint :=
  hintUsable_congr (rd_wr_other hs _ (by decide) (by decide) fun h => absurd h.2 (by decide))
    (fun _ _ => rd_wr_other hs _ (by decide) (by decide) fun h => absurd h.2 (by decide)) hint

section Served

variable (hs : s.canonical) (hk : k < 16) (hclean : Clean s (line * 128) 128)
include hs hk hclean

theorem advance_wrLine_put {data : Bytes} (hx : lineTxn s k line = some (newTxn k pos line (.wrLine data hint) 0 res))
    (hhint : hintUsable s k hint = false) :
    PutInMemory s (newTxn k pos line (.wrLine data hint) 0 res) (mergeReq (.wrLine data hint) (readBytes s (line * 128) 128))
      (advance s (newTxn k pos line (.wrLine data hint) 0 res)) := by
  rw [advance_wrLine hhint]
  exact placeInMemory_put hs hk hx hclean (length_fitBytes data 128)

theorem advance_wrPart_put {mask : Nat} {data : Bytes}
    (hx : lineTxn s k line = some (newTxn k pos line (.wrPart mask data hint) 0 res)) (hhint : hintUsable s k hint = false) :
    PutInMemory s (newTxn k pos line (.wrPart mask data hint) 0 res)
      (mergeReq (.wrPart mask data hint) (readBytes s (line * 128) 128))
      (advance s (newTxn k pos line (.wrPart mask data hint) 0 res)) := by
  obtain ⟨s1, hread, hto⟩ := devRead_clean hs k (reqOf pos) hclean
  rw [advance_wrPart hread ((hto.hintUsable hk hint).trans hhint)]
  have hput := placeInMemory_put (x := newTxn k pos line (.wrPart mask data hint) 0 res) hto.canonical hk
    ((hto.lineTxn k line).trans hx) (hclean.congr hto.faults) (length_mergeReq_wrPart mask hint data (readBytes s (line * 128) 128))
  exact hput.after hto hk

theorem advance_atomAdd_put {pa : Nat} {v : Word} (hx : lineTxn s k line = some (newTxn k pos line (.atomAdd pa v) 0 res))
    (hpa : pa % 8 = 0) :
    PutInMemory s (newTxn k pos line (.atomAdd pa v) 0 res) (mergeReq (.atomAdd pa v) (readBytes s (line * 128) 128))
      (advance s (newTxn k pos line (.atomAdd pa v) 0 res)) := by
  obtain ⟨s1, hread, hto⟩ := devRead_clean hs k (reqOf pos) hclean
  rw [advance_atomAdd hread]
  have hput := placeInMemory_put (x := newTxn k pos line (.atomAdd pa v) 0 res) hto.canonical hk
    ((hto.lineTxn k line).trans hx) (hclean.congr hto.faults) (length_mergeReq_atomAdd v hpa (length_readBytes s (line * 128) 128))
  exact hput.after hto hk

end Served

section Ready

variable {req : CohReq} (hadm : Admissible s k pos line req) (hready : HomeReady s k line) (hdir : dirOf s k line = none)
include hadm hready hdir

/-- The home opens the request's transaction, which goes on at once, and takes up nothing else (R276, R279). -/
theorem cohRequest_uncached {r : CohReq} (hr : servedReq s k pos line req = r) :
    cohRequest s k pos line req false false =
      settle (advance (txnOpened (won s k line pos) (newTxn k pos line r 0 false)) (newTxn k pos line r 0 false)) k line := by
  rw [cohRequest_served hadm hready,
    openTxn_unsnooped (s := won s k line pos) hr (snoopTargets_uncached (s := won s k line pos) hdir r) false]

/-- A write of a line that nobody caches is done in memory, and awaits its acknowledgement (R280). -/
theorem cohRequest_written (hs : s.canonical) (hr : req ≠ .upg) {d : Bytes}
    (hput : PutInMemory (txnOpened (won s k line pos) (newTxn k pos line req 0 false)) (newTxn k pos line req 0 false) d
      (advance (txnOpened (won s k line pos) (newTxn k pos line req 0 false)) (newTxn k pos line req 0 false))) :
    dirOf (cohRequest s k pos line req false false) k line = none ∧
      (∃ x, lineTxn (cohRequest s k pos line req false false) k line = some x ∧ x.pos = pos ∧ x.req = req ∧ x.phase = 2) ∧
      rd (cohRequest s k pos line req false false) (pgPart k) Reg.COH_REQUESTS = rd s (pgPart k) Reg.COH_REQUESTS + 1 ∧
      Stored s (cohRequest s k pos line req false false) (line * 128) d := by
  rw [cohRequest_uncached hadm hready hdir (servedReq_of_ne_upg hr)]
  have hwaits : NoWaits s k line := HomeReady.noWaits hready
  have hsettled := hput.settled hwaits
  simp only [newTxn] at hsettled
  simp only [newTxn, hsettled]
  exact ⟨hput.dir, ⟨_, hput.txn, rfl, rfl, rfl⟩, hput.requests.trans (rd_txnOpened (s := won s k line pos) hs _), hput.stored⟩

/-- A caching reader of a line that nobody caches becomes its owner and is granted it (R279). -/
theorem cohRequest_owner (hs : s.canonical) {r : CohReq} (hr : servedReq s k pos line req = r) (hread : r = .rdS ∨ r = .rdX) :
    Granted (txnOpened (won s k line pos) (newTxn k pos line r 0 false)) (newTxn k pos line r 0 false)
      ⟨k, line, freeWay s k line, true, 1 <<< pos⟩ "DATA_E" (readBytes s (line * 128) 128)
      (cohRequest s k pos line req false false) := by
  have hopen : (txnOpened (won s k line pos) (newTxn k pos line r 0 false)).canonical := addReg_canonical hs
  have hclean : Clean s (line * 128) 128 := HomeReady.clean hready
  have hwaits : NoWaits s k line := HomeReady.noWaits hready
  obtain ⟨hk, -, -, ⟨htxn, -, -, -⟩, -, hroom, -⟩ := id hready
  have hgrant := advance_owner hopen hk hclean hread (lineTxn_txnOpened (s := won s k line pos) htxn r 0 false) hdir hroom
  have hsettled : settle (advance (txnOpened (won s k line pos) (newTxn k pos line r 0 false)) (newTxn k pos line r 0 false)) k line =
    _ := hgrant.settled hwaits
  rw [cohRequest_uncached hadm hready hdir hr, hsettled]
  exact hgrant

/-- A plain reader of a line that nobody caches is answered what memory holds, and the line stays UNCACHED (R279). -/
theorem cohRequest_answered (hs : s.canonical) (hreq : req = .rdOnce) :
    dirOf (cohRequest s k pos line req false false) k line = none ∧
      lineTxn (cohRequest s k pos line req false false) k line =
        some ⟨k, line, pos, .rdOnce, 0, 0, 0, some (readBytes s (line * 128) 128), true, 2, false⟩ ∧
      SameMemory s (cohRequest s k pos line req false false) := by
  subst hreq
  have hopen : (txnOpened (won s k line pos) (newTxn k pos line .rdOnce 0 false)).canonical := addReg_canonical hs
  have hclean : Clean s (line * 128) 128 := HomeReady.clean hready
  have hwaits : NoWaits s k line := HomeReady.noWaits hready
  obtain ⟨hk, -, -, ⟨htxn, -, -, -⟩, -, -, -⟩ := id hready
  obtain ⟨s1, hread, hto⟩ := devRead_clean hopen k (reqOf pos) hclean
  have htxn1 := (hto.lineTxn k line).trans (lineTxn_txnOpened (s := won s k line pos) htxn .rdOnce 0 false)
  have hanswered : lineTxn (answeredUncached s1 (newTxn k pos line .rdOnce 0 false) (readBytes s (line * 128) 128)) k line =
      some ⟨k, line, pos, .rdOnce, 0, 0, 0, some (readBytes s (line * 128) 128), true, 2, false⟩ :=
    lineTxn_setTxn (s := setDir s1 k line false 0) htxn1 rfl rfl
  rw [cohRequest_uncached hadm hready hdir (servedReq_of_ne_upg (by decide)),
    advance_rdOnce_uncached hread ((hto.dirOf k line).trans hdir)]
  have hcoh : (answeredUncached s1 (newTxn k pos line .rdOnce 0 false) (readBytes s (line * 128) 128)).coh.waits = s.coh.waits := by
    change s1.coh.waits = _
    rw [hto.beside.coh]
    rfl
  have hsettled := settle_busy hanswered (by rw [NoWaits, hcoh]; exact hwaits)
  exact hsettled.symm ▸ ⟨dirOf_setDir_zero s1 k line false, hanswered, hto.memory⟩

end Ready

end Uncached

/-- A line of a domain may be requested by any of its agents, for caching by those that cache (R268, R275). -/
theorem HomeReady.admits {s : State} {k pos line : Nat} (h : HomeReady s k line) (hpos : pos < 18) (hagent : agentPos s k pos = true)
    {req : CohReq} (hcaching : cachingReq req = true → cachingPos s k pos = true) : Admissible s k pos line req := by
  obtain ⟨hk, hown, hstands, -⟩ := h
  exact ⟨hk, hpos, hown, hstands, hagent, hcaching⟩

/-- Settles O35: the home opens the transaction of a request for an uncached line, which goes on at once to its grant, its answer
or its write. -/
theorem uncachedLinesAreServedFromMemory : Obligations.UncachedLinesAreServedFromMemory := by
  intro k pos line hint mask pa data v s hs hpos hready hagent hdir _ old owner written comes
  have hplain : ∀ {req : CohReq}, cachingReq req = false → Admissible s k pos line req := fun h =>
    HomeReady.admits hready hpos hagent fun hreq => nomatch h.symm.trans hreq
  have hsignal : Admissible s k 17 line (.atomAdd pa v) := HomeReady.admits hready (by decide) rfl fun h => nomatch h
  have hmore : ∀ {p : Nat} {req : CohReq}, Admissible s k p line req →
      Host.Outcome.next (cohRequest s k p line req false true) = comes p req := fun h =>
    congrArg Host.Outcome.next (cohRequest_new h true)
  have hclean : Clean s (line * 128) 128 := HomeReady.clean hready
  obtain ⟨hk, -, -, ⟨htxn, -, -, -⟩, -, -, -⟩ := id hready
  have hopen : ∀ p t, (txnOpened (won s k line p) t).canonical := fun _ _ => addReg_canonical hs
  have htxns : ∀ p req, lineTxn (txnOpened (won s k line p) (newTxn k p line req 0 false)) k line = some (newTxn k p line req 0 false) :=
    fun p req => lineTxn_txnOpened (s := won s k line p) htxn req 0 false
  have hunhinted : hintUsable s k hint = false → ∀ t, hintUsable (txnOpened (won s k line pos) t) k hint = false :=
    fun h t => (hintUsable_txnOpened (s := won s k line pos) hs t k hint).trans h
  refine ⟨fun hcaching => ?caching, ⟨_, rfl, ?readOnce⟩, hmore (hplain rfl), fun hhint => ⟨⟨_, rfl, ?line⟩, ⟨_, rfl, ?part⟩⟩,
    hmore (hplain rfl), hmore (hplain rfl), fun hpa => ⟨fun haligned => ?add, ?addMore⟩⟩
  case caching =>
    have hadm : ∀ req, Admissible s k pos line req := fun req => HomeReady.admits hready hpos hagent fun _ => hcaching
    have howner : ∀ {req r : CohReq}, servedReq s k pos line req = r → r = .rdS ∨ r = .rdX →
        owner r (cohRequest s k pos line req false false) := fun {req r} hr hread => by
      have hgrant := cohRequest_owner (hadm req) hready hdir hs hr hread
      refine ⟨hgrant.dir, hgrant.txn.trans ?_,
        (hgrant.regs _ (by decide) (by decide)).trans (rd_txnOpened (s := won s k line pos) hs _), hgrant.memory⟩
      rcases hread with rfl | rfl <;> rfl
    exact ⟨⟨_, rfl, howner (servedReq_of_ne_upg (by decide)) (.inl rfl)⟩,
      ⟨_, rfl, howner (servedReq_of_ne_upg (by decide)) (.inr rfl)⟩, ⟨_, rfl, howner (servedReq_uncached hdir) (.inr rfl)⟩,
      hmore (hadm _), hmore (hadm _), hmore (hadm _)⟩
  case readOnce => exact cohRequest_answered (hplain rfl) hready hdir hs rfl
  case line =>
    exact cohRequest_written (hplain rfl) hready hdir hs (by simp)
      (advance_wrLine_put (hopen pos _) hk hclean (htxns pos _) (hunhinted hhint _))
  case part =>
    exact cohRequest_written (hplain rfl) hready hdir hs (by simp)
      (advance_wrPart_put (hopen pos _) hk hclean (htxns pos _) (hunhinted hhint _))
  case add =>
    have hwrite := cohRequest_written hsignal hready hdir hs (by simp)
      (advance_atomAdd_put (hopen 17 _) hk hclean (htxns 17 _) haligned)
    subst hpa
    exact ⟨_, rfl, hwrite⟩
  case addMore =>
    have hcome := hmore hsignal
    subst hpa
    exact hcome

end Sys2Proof.Machine
end

section
/-!
SUPPORT. Requests for lines that are held: readers that join, owners-to-be that snoop, and requests that lose (R276, R277, R279).
-/

namespace Sys2Proof.Machine

open Sys2Proof

theorem maskOf_ne_zero {l : List Nat} (h : l ≠ []) : maskOf l ≠ 0 := by
  obtain ⟨i, hi⟩ := List.exists_mem_of_ne_nil l h
  intro hzero
  have hbit : (maskOf l).testBit i = true := by simp [maskOf, testBit_foldl_setBit, hi]
  rw [hzero, Nat.zero_testBit] at hbit
  exact nomatch hbit

/-- A request has lost: it has been sent RETRY with its position's reserved entry (R277). -/
def retrySent (s : State) (k pos line : Nat) (req : CohReq) : State :=
  emit (addReg { s with coh := { s.coh with retries := s.coh.retries ++ [⟨k, line, pos, req, false⟩] } } (pgPart k) Reg.COH_RETRIES 1)
    (.coh k pos line "RETRY" [])

section Shared

variable {s u : State} {k pos p line w h : Nat} {res : Bool} {x : Txn} {e : DirEntry} {msg : String} {d : Bytes}

/-- A cluster that loses takes its reserved entry where that is free (R277). -/
theorem loseReq_retrySent (hpos : pos < 12) (hfree : entryUsed s k pos line = false) (req : CohReq) :
    loseReq s k pos line req = retrySent s k pos line req := by
  rw [loseReq, hfree, if_neg (by decide)]
  exact sendAgent_cluster hpos _ k line "RETRY" []

theorem rd_retrySent (hs : s.canonical) (req : CohReq) :
    rd (retrySent s k pos line req) (pgPart k) Reg.COH_RETRIES = rd s (pgPart k) Reg.COH_RETRIES + 1 :=
  rd_addReg_same (s := { s with coh := { s.coh with retries := s.coh.retries ++ [⟨k, line, pos, req, false⟩] } }) hs _ _ 1

/-- What snooping clusters does: each is sent its snoop (R279). -/
theorem sendSnoops_clusters {l : List Nat} (hl : ∀ q ∈ l, q < 12) (s : State) (k line : Nat) (shr : Bool) :
    (sendSnoops s k line shr l).out = s.out ++ l.map (fun q => .coh k q line (if shr then "SNP_SHR" else "SNP_INV") []) ∧
      (sendSnoops s k line shr l).coh = s.coh ∧ SameMemory s (sendSnoops s k line shr l) := by
  induction l generalizing s with
  | nil => exact ⟨(List.append_nil _).symm, rfl, rfl, rfl⟩
  | cons q l ih =>
    obtain ⟨hq, hl⟩ := List.forall_mem_cons.1 hl
    obtain ⟨hout, hcoh, hmemory⟩ := ih hl (sendAgent (countSnoop s k) k q line (if shr then "SNP_SHR" else "SNP_INV") [])
    have hsend := sendAgent_cluster hq (countSnoop s k) k line (if shr then "SNP_SHR" else "SNP_INV") []
    refine ⟨?_, ?_, ?_⟩
    · rw [List.map_cons, List.append_cons]
      refine hout.trans ?_
      rw [hsend]
      rfl
    · refine hcoh.trans ?_
      rw [hsend]
      rfl
    · have hemit : SameMemory s (sendAgent (countSnoop s k) k q line (if shr then "SNP_SHR" else "SNP_INV") []) := by
        rw [hsend]
        exact ⟨rfl, rfl⟩
      exact ⟨hmemory.1.trans hemit.1, hmemory.2.trans hemit.2⟩

/-- The entry of a line that is held keeps its way (R273). -/
theorem grantTxn_held (hs : s.canonical) (hk : x.part < 16) (hx : lineTxn s x.part x.line = some x)
    (hdir : dirOf s x.part x.line = some e) (owned : Bool) (hh : h ≠ 0) (msg : String) (d : Bytes) :
    Granted s x ⟨x.part, x.line, e.way, owned, h⟩ msg d (grantTxn (setDir s x.part x.line owned h) x d msg) := by
  have hgrant := grantTxn_granted hs hk hx owned hh msg d
  rw [hdir] at hgrant
  exact hgrant

section Entry

variable (hshared : dirOf s k line = some ⟨k, line, w, false, h⟩)
include hshared

/-- Readers of a shared line snoop nobody (R279). -/
theorem snoopTargets_shared_rdS (pos : Nat) : snoopTargets s k pos line .rdS = [] := by
  simp [snoopTargets, ownedLine, hshared]

theorem snoopTargets_shared {req : CohReq} (hreq : req = .rdX ∨ req = .upg) (pos : Nat) :
    snoopTargets s k pos line req = (bitsOf h 18).filter fun q => decide (q ≠ pos) := by
  rcases hreq with rfl | rfl <;> simp [snoopTargets, holdersOf, hshared]

/-- A sharer that asks to upgrade is served so (R279). -/
theorem servedReq_sharer (hbit : h.testBit pos = true) : servedReq s k pos line .upg = .upg := by
  simp [servedReq, holdersOf, ownedLine, hshared, hbit]

/-- The home opens a reader's transaction of a shared line and grants it (R279). -/
theorem openTxn_joined (hs : s.canonical) (hk : k < 16) (hclean : Clean s (line * 128) 128) (htxn : lineTxn s k line = none) :
    Granted (txnOpened s (newTxn k pos line .rdS 0 res)) (newTxn k pos line .rdS 0 res) ⟨k, line, w, false, h ||| 1 <<< pos⟩
      "DATA_S" (readBytes s (line * 128) 128) (openTxn s k pos line .rdS res) := by
  have hopen : (txnOpened s (newTxn k pos line .rdS 0 res)).canonical := addReg_canonical hs
  rw [openTxn_unsnooped (servedReq_of_ne_upg (by decide)) (snoopTargets_shared_rdS hshared pos) res]
  exact advance_joined hopen hk hclean (lineTxn_txnOpened htxn .rdS 0 res) hshared

/-- The only sharer is upgraded at once (R279). -/
theorem openTxn_upgraded (hs : s.canonical) (hk : k < 16) (hh : h = 1 <<< pos) (htxn : lineTxn s k line = none) :
    Granted (txnOpened s (newTxn k pos line .upg 0 res)) (newTxn k pos line .upg 0 res) ⟨k, line, w, true, 1 <<< pos⟩
      "GRANT_UPG" [] (openTxn s k pos line .upg res) := by
  have hopen : (txnOpened s (newTxn k pos line .upg 0 res)).canonical := addReg_canonical hs
  have hnone : snoopTargets s k pos line .upg = [] := by
    rw [snoopTargets_shared hshared (.inr rfl), List.filter_eq_nil_iff]
    intro q hq
    obtain ⟨-, hbit⟩ := List.mem_filter.1 hq
    rw [hh, Nat.one_shiftLeft, Nat.testBit_two_pow] at hbit
    exact fun hne => of_decide_eq_true hne (of_decide_eq_true hbit).symm
  have hbit : h.testBit pos = true := by rw [hh, Nat.one_shiftLeft, Nat.testBit_two_pow_self]
  rw [openTxn_unsnooped (servedReq_sharer hshared hbit) hnone res, advance_upg]
  exact grantTxn_held hopen (x := newTxn k pos line .upg 0 res) hk (lineTxn_txnOpened htxn .upg 0 res) hshared true
    (one_shiftLeft_ne_zero pos) "GRANT_UPG" []

/-- An owner-to-be of a line that clusters share snoops them and waits (R279). -/
theorem openTxn_snooped (hothers : (bitsOf h 18).filter (fun q => decide (q ≠ pos)) ≠ []) :
    openTxn s k pos line .rdX res =
      sendSnoops (txnOpened s (newTxn k pos line .rdX (maskOf ((bitsOf h 18).filter fun q => decide (q ≠ pos))) res)) k line false
        ((bitsOf h 18).filter fun q => decide (q ≠ pos)) := by
  rw [openTxn_eq, servedReq_of_ne_upg (by decide), snoopTargets_shared hshared (.inl rfl),
    advance_awaiting _ (maskOf_ne_zero hothers)]
  rfl

end Entry

/-- The holders among the clusters (R267). -/
theorem lt_of_mem_others (hh : h < 2 ^ 12) : ∀ q ∈ (bitsOf h 18).filter (fun q => decide (q ≠ pos)), q < 12 := by
  intro q hq
  have hbit := (List.mem_filter.1 (List.mem_filter.1 hq).1).2
  by_contra hge
  rw [Nat.testBit_lt_two_pow (hh.trans_le (Nat.pow_le_pow_right (by decide) (Nat.le_of_not_lt hge)))] at hbit
  exact nomatch hbit

/-- A grant of a transaction in a general entry leaves the reserved entries as they were (R277). -/
theorem Granted.entryUsed (hgrant : Granted (txnOpened s x) x e msg d u) (hres : x.res = false) (hfree : entryUsed s k pos line = false) :
    entryUsed u k pos line = false := by
  obtain ⟨hretries, htxns⟩ := Bool.or_eq_false_iff.1 hfree
  refine Bool.or_eq_false_iff.2 ⟨?_, List.any_eq_false.2 fun y hy => ?_⟩
  · rw [hgrant.coh]
    exact hretries
  · rw [hgrant.txns] at hy
    obtain ⟨y0, hy0, rfl⟩ := List.mem_map.1 hy
    split
    · simp [hres]
    · next hne =>
      rcases List.mem_append.1 hy0 with hold | hnew
      · exact List.any_eq_false.1 htxns y0 hold
      · exact absurd (List.mem_singleton.1 hnew) hne

/-- What is found of the retries is found among those of the line. -/
theorem find?_retries {l : List RetryRes} {r : RetryRes} {q : RetryRes → Bool}
    (hl : (l.filter fun e => e.part = k && e.line = line) = [r]) (hq : q r = true) :
    (l.find? fun e => e.part = k && e.line = line && q e) = some r := by
  have hfind : (l.filter fun e => e.part = k && e.line = line).find? q = some r := by simp [hl, hq]
  rw [List.find?_filter] at hfind
  simpa using hfind

/-- A reserved retry has been sent again (R277). -/
def cameBack (s : State) (r : RetryRes) : State :=
  { s with coh := { s.coh with retries := s.coh.retries.map fun v => if v = r then { v with back := true } else v } }

/-- A reserved retry is taken up (R277). -/
def takenUp (s : State) (r : RetryRes) : State := { s with coh := { s.coh with retries := s.coh.retries.erase r } }

/-- The only retry of a line is still its only one when it has been sent again. -/
theorem retries_cameBack {r : RetryRes} (h : (s.coh.retries.filter fun e => e.part = k && e.line = line) = [r]) :
    ((cameBack s r).coh.retries.filter fun e => e.part = k && e.line = line) = [{ r with back := true }] := by
  have hkeep : (fun e : RetryRes => (decide (e.part = k) && decide (e.line = line))) ∘
      (fun v => if v = r then { v with back := true } else v) = fun e => decide (e.part = k) && decide (e.line = line) := by
    funext v
    rw [Function.comp_apply]
    split <;> rfl
  refine List.filter_map.trans ?_
  rw [hkeep, h, List.map_singleton, if_pos rfl]

/-- Once the only retry of a line is taken up, none of the line is left. -/
theorem retries_takenUp {r : RetryRes} (h : (s.coh.retries.filter fun e => e.part = k && e.line = line) = [r]) :
    ∀ e ∈ (takenUp s r).coh.retries, ¬(e.part = k ∧ e.line = line) := by
  have hnone : ((takenUp s r).coh.retries.filter fun e => e.part = k && e.line = line) = [] := by
    refine (List.erase_filter).symm.trans ?_
    rw [h, List.erase_cons_head]
  intro e he hmine
  exact List.filter_eq_nil_iff.1 hnone e he (by simpa using hmine)

/-- A retry that has come again is taken up, and opens the line's transaction in its reserved entry (R276, R277). -/
theorem pumpLine_takenUp {r : RetryRes} (htxn : lineTxn s k line = none)
    (hfind : (s.coh.retries.find? fun e => e.part = k && e.line = line && e.back) = some r)
    (hopen : lineTxn (openTxn (takenUp s r) k r.pos line r.req true) k line = some x) :
    pumpLine s k line s.coh.retries.length = openTxn (takenUp s r) k r.pos line r.req true := by
  obtain ⟨n, hn⟩ : ∃ n, s.coh.retries.length = n + 1 :=
    Nat.exists_eq_succ_of_ne_zero fun hzero => by
      rw [List.length_eq_zero_iff.1 hzero] at hfind
      exact nomatch hfind
  rw [hn, pumpLine, htxn, hfind]
  exact pumpLine_busy hopen n

section Admitted

variable {req : CohReq} (hadm : Admissible s k pos line req)
include hadm

theorem cohRequest_retried {r : RetryRes} (hr : r = ⟨k, line, pos, req, false⟩)
    (hfilter : (s.coh.retries.filter fun e => e.part = k && e.line = line) = [r]) :
    cohRequest s k pos line req true false = settle (cameBack s r) k line := by
  subst hr
  obtain ⟨hpart, hown, hstands, hagent, hcaching⟩ := hadm.passes
  have hfind := find?_retries (q := fun e => e.pos = pos && e.req = req && !e.back) hfilter (by simp)
  simp only [← Bool.and_assoc] at hfind
  rw [cohRequest, if_neg hpart, if_neg hown, if_neg hstands, if_neg hagent, if_neg hcaching, if_pos rfl, hfind]
  rfl

/-- A request for a line with a transaction open loses (R276). -/
theorem cohRequest_blocked (htxn : (lineTxn s k line).isSome = true) (hnone : ∀ e ∈ s.coh.arrivals, ¬(e.1 = k ∧ e.2.2.1 = line))
    (hpos : pos < 12) (hfree : Machine.entryUsed s k pos line = false) (hwaits : NoWaits s k line) :
    cohRequest s k pos line req false false = retrySent s k pos line req := by
  obtain ⟨y, hy⟩ := Option.isSome_iff_exists.1 htxn
  rw [cohRequest_new hadm, if_neg (by decide), arbitrate_blocked hnone (by simp) (by simp [blockedLine, htxn]), List.foldl_cons,
    List.foldl_nil, loseReq_retrySent hpos hfree]
  exact settle_busy (x := y) hy hwaits

/-- A request that comes after one that ranks higher loses to it (R276). -/
theorem cohRequest_contended {first : CohReq} (hready : HomeReady s k line) (hpos : pos < 12)
    (hrank : rankOf s k line p < rankOf s k line pos)
    (hfree : Machine.entryUsed (openTxn (won s k line p) k p line first false) k pos line = false)
    (hopen : lineTxn (openTxn (won s k line p) k p line first false) k line = some x)
    (hwaits : NoWaits (openTxn (won s k line p) k p line first false) k line) :
    cohRequest (requestsCome s [(k, p, line, first)]) k pos line req false false =
      retrySent (openTxn (won s k line p) k p line first false) k pos line req := by
  have hadm' : Admissible (requestsCome s [(k, p, line, first)]) k pos line req :=
    ⟨hadm.partition, hadm.position, hadm.own, hadm.stands, hadm.agent, hadm.caching⟩
  have hboth : requestsCome (requestsCome s [(k, p, line, first)]) [(k, pos, line, req)] =
      requestsCome s [(k, p, line, first), (k, pos, line, req)] :=
    congrArg (fun l => { s with coh := { s.coh with arrivals := l } }) (List.append_assoc ..)
  have hbest : highest s k line [(k, p, line, first), (k, pos, line, req)] = some (k, p, line, first) :=
    if_neg (Nat.not_lt.2 hrank.le)
  obtain ⟨-, -, -, hquiet, hload, -, -⟩ := hready
  have hfreeLine := blockedLine_free hquiet.1 (HomeQuiet.noneBack hquiet) hload
  rw [cohRequest_new hadm', if_neg (by decide), hboth, arbitrate_won hquiet.2.1 (by simp) hfreeLine hbest, List.erase_cons_head,
    List.foldl_cons, List.foldl_nil, loseReq_retrySent hpos hfree]
  exact settle_busy (x := x) hopen hwaits

end Admitted

/-- The last winner ranks lowest (R276). -/
theorem rankOf_won (s : State) (k line p : Nat) : rankOf (won s k line p) k line p = 17 := by
  have hfind : (won s k line p).coh.rank.find? (fun e => decide (e.1 = 8 * k + homeOf line)) = some (8 * k + homeOf line, p) := by
    refine List.find?_append.trans ?_
    rw [List.find?_eq_none.2 fun e he => by simpa using (List.mem_filter.1 he).2]
    simp
  rw [rankOf, hfind]
  simp only [Option.map_some, Option.getD_some]
  omega

end Shared

end Sys2Proof.Machine
end

section
/-!
SUPPORT. Clusters' requests for lines that are shared, and for lines with something under way (R276, R277, R279).
-/

namespace Sys2Proof.Machine

open Sys2Proof

section ClusterRequests

variable {s t : State} {k pos p line w h : Nat} {req : CohReq}

/-- A cluster is an agent of the domain that caches (R267). -/
theorem Admissible.of_cluster (hk : k < 16) (hpos : pos < 8) (hown : ownRange k (line * 128) 128 = true)
    (hstands : domainLost s k = false) : Admissible s k pos line req := by
  have hsite : ¬12 ≤ pos := by omega
  exact ⟨hk, by omega, hown, hstands, by simp [agentPos, hsite], fun _ => by simp [cachingPos, hpos]⟩

theorem Admissible.of_ready (hready : HomeReady s k line) (hpos : pos < 8) : Admissible s k pos line req := by
  obtain ⟨hk, hown, hstands, -⟩ := hready
  exact .of_cluster hk hpos hown hstands

/-- `t` comes from `s` by the position having been sent the message, whatever else has been sent. -/
abbrev SentTo (s t : State) (k line pos : Nat) (msg : String) (d : Bytes) : Prop := Out.coh k pos line msg d ∈ t.out ∧ s.out <+: t.out

/-- `t` comes from `s` by the position having lost with its request and been sent RETRY (R277). -/
abbrev Retried (s t : State) (k line pos : Nat) (req : CohReq) : Prop :=
  (⟨k, line, pos, req, false⟩ : RetryRes) ∈ t.coh.retries ∧ SentTo s t k line pos "RETRY" [] ∧
    rd t (pgPart k) Reg.COH_RETRIES = rd s (pgPart k) Reg.COH_RETRIES + 1

/-- What is sent RETRY after a step that sent no RETRY has been sent it once (R277). -/
theorem retried_retrySent (ht : t.canonical) (hout : s.out <+: t.out)
    (hcount : rd t (pgPart k) Reg.COH_RETRIES = rd s (pgPart k) Reg.COH_RETRIES) (pos line : Nat) (req : CohReq) :
    Retried s (retrySent t k pos line req) k line pos req := by
  refine ⟨?_, ⟨?_, hout.trans (List.prefix_append _ _)⟩, (rd_retrySent ht req).trans (by rw [hcount])⟩
  · exact List.mem_append_right _ (List.mem_singleton_self _)
  · exact List.mem_append_right _ (List.mem_singleton_self _)

section Ready

variable (hs : s.canonical) (hready : HomeReady s k line) (hshared : dirOf s k line = some ⟨k, line, w, false, h⟩)
include hs hready hshared

/-- A reader that the home serves joins the sharers (R279). -/
theorem openTxn_won_joined (pos : Nat) :
    Granted (txnOpened (won s k line pos) (newTxn k pos line .rdS 0 false)) (newTxn k pos line .rdS 0 false)
      ⟨k, line, w, false, h ||| 1 <<< pos⟩ "DATA_S" (readBytes s (line * 128) 128)
      (openTxn (won s k line pos) k pos line .rdS false) := by
  have hclean : Clean s (line * 128) 128 := HomeReady.clean hready
  obtain ⟨hk, -, -, ⟨htxn, -, -, -⟩, -, -, -⟩ := id hready
  exact openTxn_joined (s := won s k line pos) hshared hs hk hclean htxn

theorem cohRequest_joined (hpos : pos < 8) :
    dirOf (cohRequest s k pos line .rdS false false) k line = some ⟨k, line, w, false, h ||| 1 <<< pos⟩ ∧
      SentTo s (cohRequest s k pos line .rdS false false) k line pos "DATA_S" (readBytes s (line * 128) 128) ∧
      SameMemory s (cohRequest s k pos line .rdS false false) := by
  have hwaits : NoWaits s k line := HomeReady.noWaits hready
  have hgrant := openTxn_won_joined hs hready hshared pos
  have hsettled : settle (openTxn (won s k line pos) k pos line .rdS false) k line = _ := hgrant.settled hwaits
  rw [cohRequest_served (.of_ready hready hpos) hready, hsettled]
  exact ⟨hgrant.dir, ⟨hgrant.sent (Nat.lt_trans hpos (by decide)), hgrant.out⟩, hgrant.memory⟩

theorem cohRequest_upgraded (hpos : pos < 8) (hh : h = 1 <<< pos) :
    dirOf (cohRequest s k pos line .upg false false) k line = some ⟨k, line, w, true, 1 <<< pos⟩ ∧
      SentTo s (cohRequest s k pos line .upg false false) k line pos "GRANT_UPG" [] ∧
      SameMemory s (cohRequest s k pos line .upg false false) := by
  have hwaits : NoWaits s k line := HomeReady.noWaits hready
  obtain ⟨hk, -, -, ⟨htxn, -, -, -⟩, -, -, -⟩ := id hready
  have hgrant := openTxn_upgraded (s := won s k line pos) (res := false) hshared hs hk hh htxn
  have hsettled : settle (openTxn (won s k line pos) k pos line .upg false) k line = _ := hgrant.settled hwaits
  rw [cohRequest_served (.of_ready hready hpos) hready, hsettled]
  exact ⟨hgrant.dir, ⟨hgrant.sent (Nat.lt_trans hpos (by decide)), hgrant.out⟩, hgrant.memory⟩

omit hs in
/-- An owner-to-be waits for the answers of the other sharers (R279). -/
theorem cohRequest_snooped {others : List Nat} (hothers : (bitsOf h 18).filter (fun q => decide (q ≠ pos)) = others)
    (hpos : pos < 8) (hsome : others ≠ []) (hh : h < 2 ^ 12) :
    (∃ x, lineTxn (cohRequest s k pos line .rdX false false) k line = some x ∧ x.pos = pos ∧ x.req = .rdX ∧ x.phase = 0 ∧
        x.await = maskOf others) ∧
      (cohRequest s k pos line .rdX false false).out = s.out ++ others.map (fun q => .coh k q line "SNP_INV" []) ∧
      (cohRequest s k pos line .rdX false false).coh.dir = s.coh.dir ∧ SameMemory s (cohRequest s k pos line .rdX false false) := by
  have hwaits : NoWaits s k line := HomeReady.noWaits hready
  obtain ⟨-, -, -, ⟨htxn, -, -, -⟩, -, -, -⟩ := id hready
  have hlow : ∀ q ∈ others, q < 12 := hothers ▸ lt_of_mem_others hh
  obtain ⟨hout, hcoh, hmemory⟩ := sendSnoops_clusters hlow
    (txnOpened (won s k line pos) (newTxn k pos line .rdX (maskOf others) false)) k line false
  have hopened : lineTxn (sendSnoops (txnOpened (won s k line pos) (newTxn k pos line .rdX (maskOf others) false)) k line false others)
      k line = some (newTxn k pos line .rdX (maskOf others) false) := by
    rw [lineTxn, hcoh]
    exact lineTxn_txnOpened (s := won s k line pos) htxn .rdX (maskOf others) false
  have hbusy := settle_busy hopened (by rw [NoWaits, hcoh]; exact hwaits)
  rw [cohRequest_served (.of_ready hready hpos) hready,
    openTxn_snooped (s := won s k line pos) hshared (by rw [hothers]; exact hsome), hothers, hbusy]
  refine ⟨⟨_, hopened, rfl, rfl, rfl, rfl⟩, hout, ?_, hmemory⟩
  rw [hcoh]
  rfl

/-- Of two readers of one home cycle the higher ranked joins the sharers and the other loses (R276). -/
theorem cohRequest_outranked (hpos : pos < 8) (hp : p < 8) (hrank : rankOf s k line p < rankOf s k line pos)
    (hfree : entryUsed s k pos line = false) {u : State}
    (hu : u = cohRequest (requestsCome s [(k, p, line, .rdS)]) k pos line .rdS false false) :
    dirOf u k line = some ⟨k, line, w, false, h ||| 1 <<< p⟩ ∧ SentTo s u k line p "DATA_S" (readBytes s (line * 128) 128) ∧
      Retried s u k line pos .rdS ∧ rankOf u k line p = 17 := by
  have hwaits : NoWaits s k line := HomeReady.noWaits hready
  have hgrant := openTxn_won_joined hs hready hshared p
  have hcount : rd (openTxn (won s k line p) k p line .rdS false) (pgPart k) Reg.COH_RETRIES = rd s (pgPart k) Reg.COH_RETRIES :=
    (hgrant.regs _ (by decide) (by decide)).trans (rd_wr_other (s := won s k line p) hs _ (by decide) (by decide)
      fun h => absurd h.2 (by decide))
  have hrank' : rankOf (openTxn (won s k line p) k p line .rdS false) k line p = rankOf (won s k line p) k line p := by
    rw [rankOf, hgrant.coh]
    rfl
  rw [cohRequest_contended (.of_ready hready hpos) hready (Nat.lt_trans hpos (by decide)) hrank
    (hgrant.entryUsed (s := won s k line p) rfl hfree) hgrant.txn (by rw [NoWaits, hgrant.coh]; exact hwaits)] at hu
  subst hu
  exact ⟨hgrant.dir, ⟨List.mem_append_left _ (hgrant.sent (Nat.lt_trans hp (by decide))), hgrant.out.trans (List.prefix_append _ _)⟩,
    retried_retrySent (s := s) hgrant.canonical hgrant.out hcount pos line .rdS, hrank'.trans (rankOf_won s k line p)⟩

end Ready

/-- A request sent again under its credit is served once the line is free (R277). -/
theorem cohRequest_again (hs : s.canonical) (hk : k < 16) (hpos : pos < 8) (hown : ownRange k (line * 128) 128 = true)
    (hstands : domainLost s k = false) (htxn : lineTxn s k line = none)
    (hretries : (s.coh.retries.filter fun e => e.part = k && e.line = line) = [⟨k, line, pos, .rdS, false⟩])
    (hwaits : NoWaits s k line) (hclean : Clean s (line * 128) 128) (hshared : dirOf s k line = some ⟨k, line, w, false, h⟩)
    {u : State} (hu : u = cohRequest s k pos line .rdS true false) :
    (∀ e ∈ u.coh.retries, ¬(e.part = k ∧ e.line = line)) ∧ SentTo s u k line pos "DATA_S" (readBytes s (line * 128) 128) ∧
      dirOf u k line = some ⟨k, line, w, false, h ||| 1 <<< pos⟩ ∧
      ∃ x, lineTxn u k line = some x ∧ x.pos = pos ∧ x.phase = 2 ∧ x.res = true := by
  have hback := retries_cameBack hretries
  have hgrant := openTxn_joined (s := takenUp (cameBack s ⟨k, line, pos, .rdS, false⟩) ⟨k, line, pos, .rdS, true⟩) (pos := pos)
    (res := true) hshared hs hk hclean htxn
  have hpump := pumpLine_takenUp (s := cameBack s ⟨k, line, pos, .rdS, false⟩) htxn
    (find?_retries (q := fun e => e.back) hback rfl) hgrant.txn
  rw [cohRequest_retried (.of_cluster hk hpos hown hstands) rfl hretries,
    settle_pumped hpump (by rw [NoWaits, hgrant.coh]; exact hwaits)] at hu
  subst hu
  refine ⟨?_, ⟨hgrant.sent (Nat.lt_trans hpos (by decide)), hgrant.out⟩, hgrant.dir, _, hgrant.txn, rfl, rfl, rfl⟩
  rw [hgrant.coh]
  exact retries_takenUp hback

end ClusterRequests

end Sys2Proof.Machine
end

section
/-!
SUPPORT. A partition's domain is lost: what is recorded, how its contexts and the partition itself end (R288 to R290, R372).
-/

namespace Sys2Proof.Machine

open Sys2Proof

/-- `t` comes from `s` by writes of registers `q` of the partition's page alone, and by events of its own: memory and the coherent
state are as they were, and DOMAIN_LOST stays raised where it was. -/
structure PartBut (k : Nat) (q : Nat → Prop) (s t : State) : Prop where
  canonical : t.canonical
  regs : ∀ off, off < 0x10000 → off ≠ Reg.EVT_STAT → ¬ q off → rd t (pgPart k) off = rd s (pgPart k) off
  raised : rb s (pgPart k) Reg.EVT_STAT 4 = true → rb t (pgPart k) Reg.EVT_STAT 4 = true
  memory : SameMemory s t
  coh : t.coh = s.coh

theorem pgPart_ne_pgEvr (k : Nat) : pgPart k ≠ pgEvr := by
  simp only [pgPart, pgEvr]
  omega

section PartBut

variable {k x : Nat} {q r : Nat → Prop} {s t u : State}

theorem PartBut.of_eq (h : t.canonical) (hregs : t.regs = s.regs) (hmem : SameMemory s t) (hcoh : t.coh = s.coh) : PartBut k q s t where
  canonical := h
  regs off _ _ _ := by rw [rd, rd, hregs]
  raised hset := by rwa [rb, rd, hregs]
  memory := hmem
  coh := hcoh

theorem PartBut.refl (h : s.canonical) : PartBut k q s s := .of_eq h rfl ⟨rfl, rfl⟩ rfl

theorem PartBut.trans (h : PartBut k q s t) (g : PartBut k q t u) : PartBut k q s u where
  canonical := g.canonical
  regs off ho he hq := (g.regs off ho he hq).trans (h.regs off ho he hq)
  raised hset := g.raised (h.raised hset)
  memory := ⟨g.memory.1.trans h.memory.1, g.memory.2.trans h.memory.2⟩
  coh := g.coh.trans h.coh

theorem PartBut.mono (h : PartBut k q s t) (hqr : ∀ off, q off → r off) : PartBut k r s t :=
  ⟨h.canonical, fun off ho he hr => h.regs off ho he fun hq => hr (hqr off hq), h.raised, h.memory, h.coh⟩

theorem PartBut.foldl {α : Type} {f : State → α → State} {l : List α}
    (hf : ∀ s, ∀ a ∈ l, s.canonical → PartBut k q s (f s a)) (h : s.canonical) : PartBut k q s (l.foldl f s) :=
  List.foldlRecOn (motive := fun t => PartBut k q s t) l f (.refl h) fun t ht a ha => ht.trans (hf t a ha ht.canonical)

theorem PartBut.rf (h : PartBut k q s t) {off : Nat} (ho : off < 0x10000) (he : off ≠ Reg.EVT_STAT) (hq : ¬ q off) (lo n : Nat) :
    rf t (pgPart k) off lo n = rf s (pgPart k) off lo n := congrArg (fld · lo n) (h.regs off ho he hq)

/-- A field of one of the registers is written. -/
theorem wf_partBut (h : s.canonical) {off : Nat} (lo n v : Nat) (hq : q off) (ho : off < 0x10000) (he : off ≠ Reg.EVT_STAT) :
    PartBut k q s (wf s (pgPart k) off lo n v) where
  canonical := wf_canonical h
  regs _ ho' _ hq' := rd_wr_other h _ ho ho' fun e => hq' (e.2 ▸ hq)
  raised hset := (congrArg (bit · 4) (rd_wr_other h _ ho (by decide) fun e => he e.2.symm)).trans hset
  memory := ⟨rfl, rfl⟩
  coh := rfl

theorem raiseEvt_partBut (h : s.canonical) (b : Nat) : PartBut k q s (raiseEvt s (pgPart k) b) where
  canonical := raiseEvt_canonical h
  regs _ ho he _ := rd_raiseEvt h ho (not_evtReg_pgPart he)
  raised hset := rb_raiseEvt_stays h b (pgPart_ne_pgEvr k) (by decide) hset
  memory := ⟨(raiseEvt_sameBut h _ b).mem_eq, (raiseEvt_sameBut h _ b).hostMem_eq⟩
  coh := (raiseEvt_beside s _ b).coh

theorem triggerJob_partBut (h : s.canonical) (j cause page : Nat) : PartBut k q s (triggerJob s j cause page) := by
  obtain ⟨l, hl⟩ := triggerJob_eq s j cause page
  rw [hl]
  exact .of_eq h rfl ⟨rfl, rfl⟩ rfl

/-! ### A context of a lost domain is aborted (R117, R132, R419) -/

/-- The registers of its partition's page that the abort of context `x` writes, events apart. -/
abbrev abortReg (x off : Nat) : Prop :=
  off = Reg.CTX_STATE x ∨ off = Reg.CTX_OUT x ∨ off = Reg.RED_ARMED ∨ off = Reg.ABORT_PEND (x / 64)

section Abort

variable (h : s.canonical) (hx : x < 256)
include h hx

theorem wf_ctxState_partBut (lo n v : Nat) : PartBut k (abortReg x) s (wf s (pgPart k) (Reg.CTX_STATE x) lo n v) :=
  wf_partBut h lo n v (.inl rfl) (ctxEntry_lt (by decide) hx) (by simp only [Reg.CTX_STATE, Reg.EVT_STAT]; omega)

theorem outDown_partBut (n : Nat) : PartBut k (abortReg x) s (outDown s k x n) :=
  wf_partBut h _ _ _ (.inr (.inl rfl)) (ctxOut_lt hx) (by simp only [Reg.CTX_OUT, Reg.EVT_STAT]; omega)

theorem updCtx_partBut : PartBut k (abortReg x) s (updCtx s k x) :=
  (wf_ctxState_partBut h hx 16 16 _).trans (wf_ctxState_partBut (wf_canonical h) hx 32 32 _)

theorem releaseWork_partBut {w : Work} (hpart : w.part = k) (hctx : w.ctx = x) : PartBut k (abortReg x) s (releaseWork s w) := by
  subst hpart hctx
  have hdrop : PartBut w.part (abortReg w.ctx) s (dropWork s w) := .of_eq h rfl ⟨rfl, rfl⟩ rfl
  have hout := hdrop.trans (outDown_partBut hdrop.canonical hx 1)
  exact hout.trans (updCtx_partBut hout.canonical hx)

theorem releaseAll_partBut : PartBut k (abortReg x) s (releaseAll s k x) := by
  have hall : PartBut k (abortReg x) s ((ctxWork s k x).foldl releaseWork s) := .foldl (fun t w hw ht => by
    have hmine := (List.mem_filter.1 hw).2
    simp only [Bool.and_eq_true, decide_eq_true_eq] at hmine
    exact releaseWork_partBut ht hx hmine.1 hmine.2) h
  exact hall.trans (.of_eq hall.canonical rfl ⟨rfl, rfl⟩ rfl)

theorem disarmCtx_partBut : PartBut k (abortReg x) s (disarmCtx s k x) := by
  refine .foldl (fun t r _ ht => ?_) h
  have hslots : PartBut k (abortReg x) t { t with slots := t.slots.erase r } := .of_eq ht rfl ⟨rfl, rfl⟩ rfl
  have harmed := hslots.trans (wf_partBut hslots.canonical (off := Reg.RED_ARMED) r.slot 1 0 (.inr (.inr (.inl rfl))) (by decide)
    (by decide))
  exact harmed.trans (outDown_partBut harmed.canonical hx 1)

theorem killCtx_partBut : PartBut k (abortReg x) s (killCtx s k x) := by
  have hrel := releaseAll_partBut (k := k) h hx
  have hdis := hrel.trans (disarmCtx_partBut hrel.canonical hx)
  exact hdis.trans (wf_ctxState_partBut hdis.canonical hx 32 32 _)

/-- The abort of a context writes its own registers, and leaves it ABORTED. -/
theorem abortedCtx_partBut (cause : Nat) :
    PartBut k (abortReg x) s (abortedCtx s k x cause) ∧ ctxState (abortedCtx s k x cause) k x = 5 := by
  have hpend : Reg.ABORT_PEND (x / 64) < 0x10000 ∧ Reg.ABORT_PEND (x / 64) ≠ Reg.EVT_STAT ∧
      Reg.ABORT_PEND (x / 64) ≠ Reg.CTX_STATE x := by
    simp only [Reg.ABORT_PEND, Reg.EVT_STAT, Reg.CTX_STATE]
    omega
  obtain ⟨hlow, hevt, hother⟩ := hpend
  have hset := wf_ctxState_partBut (k := k) h hx 0 3 5
  have hcause := hset.trans (wf_ctxState_partBut hset.canonical hx 8 8 cause)
  have hkill := hcause.trans (killCtx_partBut hcause.canonical hx)
  have hmark := hkill.trans (wf_partBut hkill.canonical (x % 64) 1 1 (.inr (.inr (.inr rfl))) hlow hevt)
  refine ⟨hmark.trans (raiseEvt_partBut hmark.canonical 2), ?_⟩
  have hentry := (killCtx_tornDown (k := k) hcause.canonical hx).trans (wf_tornDown_other hkill.canonical hx
    (x % 64) 1 1 hlow hother)
  calc ctxState (abortedCtx s k x cause) k x
      = _ := congrArg (fld · 0 3) (rd_raiseEvt hmark.canonical (ctxEntry_lt (by decide) hx)
          (not_evtReg_pgPart (by simp only [Reg.CTX_STATE, Reg.EVT_STAT]; omega)))
    _ = _ := hentry.entry 0 3 (by decide)
    _ = _ := rf_wf_other hset.canonical _ _ 8 8 cause 0 3 (.inl (by decide)) (by decide)
    _ = 5 := ctxState_setCtx h (by decide)

end Abort

/-- A context is free, or dead (R117, R419). -/
abbrev CtxEnded (s : State) (k x : Nat) : Prop := ctxState s k x = 0 ∨ ctxState s k x = 4 ∨ ctxState s k x = 5

theorem abortCtx_ended (h : s.canonical) (hx : x < 256) (cause : Nat) :
    PartBut k (abortReg x) s (abortCtx s k x cause false) ∧ CtxEnded (abortCtx s k x cause false) k x := by
  rw [abortCtx]
  split
  · next hended =>
    refine ⟨.refl h, hended.imp_right fun hdead => ?_⟩
    simpa [ctxDead] using hdead
  · obtain ⟨hto, hstate⟩ := abortedCtx_partBut (k := k) h hx cause
    have htrigger := triggerJob_partBut (k := k) (q := abortReg x) hto.canonical
      (rf (abortedCtx s k x cause) (pgPart k) (Reg.CTX_JOB x) 0 8) 1 (pgPart k)
    obtain ⟨l, hl⟩ := triggerJob_eq (abortedCtx s k x cause) (rf (abortedCtx s k x cause) (pgPart k) (Reg.CTX_JOB x) 0 8) 1 (pgPart k)
    refine ⟨hto.trans htrigger, .inr (.inr ?_)⟩
    refine Eq.trans (congrArg (ctxState · k x) hl) hstate

/-- The entries of other contexts are not the aborted one's. -/
theorem not_abortReg_ctxState {c : Nat} (hx : x < 256) (hc : c < 256) (hne : x ≠ c) : ¬ abortReg c (Reg.CTX_STATE x) := by
  simp only [abortReg, Reg.CTX_STATE, Reg.CTX_OUT, Reg.RED_ARMED, Reg.ABORT_PEND]
  omega

/-- Every context that is aborted has ended, and so has every one that had. -/
theorem foldl_abortCtx_ended {l : List Nat} (hl : ∀ c ∈ l, c < 256) (h : s.canonical) (cause : Nat) (hx : x < 256)
    (hended : x ∈ l ∨ CtxEnded s k x) : CtxEnded (l.foldl (fun s c => abortCtx s k c cause false) s) k x := by
  induction l generalizing s with
  | nil => exact hended.resolve_left List.not_mem_nil
  | cons c l ih =>
    obtain ⟨hc, hl⟩ := List.forall_mem_cons.1 hl
    obtain ⟨hto, hdone⟩ := abortCtx_ended (k := k) h hc cause
    refine ih hl hto.canonical ?_
    by_cases hxc : x = c
    · exact .inr (hxc ▸ hdone)
    · have hsame : ctxState (abortCtx s k c cause false) k x = ctxState s k x :=
        hto.rf (ctxEntry_lt (by decide) hx) (by simp only [Reg.EVT_STAT]; omega) (not_abortReg_ctxState hx hc hxc) 0 3
      exact hended.imp (fun hmem => (List.mem_cons.1 hmem).resolve_left hxc) fun he => by rwa [CtxEnded, hsame]

end PartBut

end Sys2Proof.Machine
end

section
/-!
SUPPORT. The loss of a domain as a whole (R287 to R290, R372), and the commands that bring it about (R275, R277, R288).
-/

namespace Sys2Proof.Machine

open Sys2Proof

/-- The word of COH_FAULT (R290). -/
def faultWord (code pos home line : Nat) : Word := w64 (code + pos <<< 8 + home <<< 13 + (line % 2 ^ 39) <<< 16 + 1 <<< 63)

section FaultWord

variable {code pos home : Nat} (hcode : code < 256) (hpos : pos < 32) (hhome : home < 8) (line : Nat)
include hcode hpos hhome

theorem toNat_faultWord : (faultWord code pos home line).toNat =
    code + pos * 2 ^ 8 + home * 2 ^ 13 + line % 2 ^ 39 * 2 ^ 16 + 2 ^ 63 := by
  simp only [faultWord, w64, BitVec.toNat_ofNat, Nat.shiftLeft_eq]
  omega

theorem fld_faultWord_code : fld (faultWord code pos home line) 0 8 = code := by
  rw [fld, toNat_faultWord hcode hpos hhome, Nat.shiftRight_eq_div_pow]
  omega

theorem fld_faultWord_home : fld (faultWord code pos home line) 13 3 = home := by
  rw [fld, toNat_faultWord hcode hpos hhome, Nat.shiftRight_eq_div_pow]
  omega

theorem fld_faultWord_line : fld (faultWord code pos home line) 16 39 = line % 2 ^ 39 := by
  rw [fld, toNat_faultWord hcode hpos hhome, Nat.shiftRight_eq_div_pow]
  omega

theorem bit_faultWord_valid : bit (faultWord code pos home line) 63 = true := by
  rw [bit, BitVec.getLsbD, toNat_faultWord hcode hpos hhome, Nat.testBit_eq_decide_div_mod_eq, decide_eq_true_eq]
  omega

end FaultWord

theorem homeOf_lt (line : Nat) : homeOf line < 8 :=
  Nat.xor_lt_two_pow (n := 3) (Nat.mod_lt _ (by decide)) (Nat.mod_lt _ (by decide))

/-- The requests that a lost domain leaves without an answer: position and line (R289). -/
def unanswered (s : State) (k : Nat) : List (Nat × Nat) :=
  ((s.coh.txns.filter fun t =>
      t.part = k && !(evictReq t.req) && (decide (t.phase ≠ 2) || !(cachingReq t.req))).map fun t => (t.pos, t.line)) ++
    ((s.coh.retries.filter fun t => t.part = k).map fun t => (t.pos, t.line)) ++
    (((s.coh.arrivals ++ s.coh.waits).filter fun t => t.1 = k).map fun t => (t.2.1, t.2.2.1))

/-- The loss is recorded and every request that waits is told so (R289, R290). -/
def lossTold (s : State) (k code pos home line : Nat) : State :=
  (unanswered s k).foldl (fun s t => sendAgent s k t.1 t.2 "UNCORRECTABLE" [])
    (wr s (pgPart k) Reg.COH_FAULT (faultWord code pos home line))

/-- The home keeps nothing of a lost domain (R289). -/
def domainDropped (s : State) (k : Nat) : State :=
  { s with coh := { s.coh with
      lost := s.coh.lost ++ [k]
      txns := s.coh.txns.filter fun t => t.part ≠ k
      retries := s.coh.retries.filter fun t => t.part ≠ k
      arrivals := s.coh.arrivals.filter fun t => t.1 ≠ k
      waits := s.coh.waits.filter fun t => t.1 ≠ k
      stuck := s.coh.stuck.filter fun t => t.1 ≠ k } }

/-- The loss is counted as an error and announced (R291). -/
def lossRaised (s : State) (k code : Nat) : State := raiseEvt (countError s (pgPart k) code 4 2 none) (pgPart k) 4

/-- Every context of the partition is aborted (R289). -/
def allAborted (s : State) (k : Nat) : State := (openCtxs s k).foldl (fun s x => abortCtx s k x 4 false) s

section Loss

variable {s : State} {k code pos home line : Nat}

theorem loseDomain_eq (h : domainLost s k = false) (code pos home line : Nat) :
    loseDomain s k code pos home line =
      faultPart (allAborted (lossRaised (domainDropped (lossTold s k code pos home line) k) k code) k) k := by
  rw [loseDomain, h, if_neg (by decide)]
  rfl

/-- The registers that every abort of a context of the partition's may write. -/
abbrev anyAbortReg (off : Nat) : Prop := ∃ x, x < 256 ∧ abortReg x off

theorem openCtxs_lt {x : Nat} (hx : x ∈ openCtxs s k) : x < 256 := List.mem_range.1 (List.mem_filter.1 hx).1

theorem allAborted_partBut (h : s.canonical) : PartBut k anyAbortReg s (allAborted s k) :=
  .foldl (fun _ _ hx ht => (abortCtx_ended ht (openCtxs_lt hx) 4).1.mono fun _ hoff => ⟨_, openCtxs_lt hx, hoff⟩) h

theorem allAborted_ended (h : s.canonical) {x : Nat} (hx : x < 256) : CtxEnded (allAborted s k) k x := by
  refine foldl_abortCtx_ended (fun _ => openCtxs_lt) h 4 hx ?_
  by_cases hopen : x ∈ openCtxs s k
  · exact .inl hopen
  · refine .inr (.inl ?_)
    simpa [openCtxs, hx] using hopen

theorem triggerJobsOf_partBut {q : Nat → Prop} (h : s.canonical) (cause : Nat) : PartBut k q s (triggerJobsOf s k cause) := by
  refine .foldl (fun t x _ ht => ?_) h
  split
  · exact .refl ht
  · exact triggerJob_partBut ht _ _ _

/-- A partition in use enters FAULT, and nothing else of its page but events is written (R372). -/
theorem faultPart_partBut (h : s.canonical) :
    PartBut k (fun off => off = Reg.PART_STATE) s (faultPart s k) ∧ (partLive s k = true → partState (faultPart s k) k = 5) := by
  rw [faultPart]
  split
  · next hlive =>
    have hnot : ¬ partState s k = 5 := fun hfault => by simp [partLive, hfault] at hlive
    have hset := wf_partBut (k := k) (q := fun off => off = Reg.PART_STATE) h (off := Reg.PART_STATE) 0 4 5 rfl (by decide) (by decide)
    have hraise := raiseEvt_partBut (k := k) (q := fun off => off = Reg.PART_STATE) hset.canonical 9
    have hjobs := triggerJobsOf_partBut (k := k) (q := fun _ => False) hraise.canonical 3
    rw [setPart, if_neg hnot]
    refine ⟨(hset.trans hraise).trans (hjobs.mono fun _ => False.elim), fun _ => ?_⟩
    calc partState _ k
        = _ := hjobs.rf (by decide) (by decide) id 0 4
      _ = _ := congrArg (fld · 0 4) (rd_raiseEvt hset.canonical (by decide) (not_evtReg_pgPart (by decide)))
      _ = 5 := rf_wf_same h _ _ _ _ _ (by decide)
  · next hidle => exact ⟨.refl h, fun hlive => absurd hlive hidle⟩

/-- The fault's word stands, nothing is written to memory, and the coherent state waits to be dropped. -/
theorem lossTold_aside (h : s.canonical) (code pos home line : Nat) :
    Aside (wr s (pgPart k) Reg.COH_FAULT (faultWord code pos home line)) (lossTold s k code pos home line) :=
  .foldl (fun _ _ ht => sendAgent_aside ht k _ _ _ _) _ (wr_canonical h)

theorem countError_partBut (h : s.canonical) (code status cls : Nat) (ctx : Option Nat) :
    PartBut k (fun off => off = Reg.ERR_COUNT ∨ off = Reg.ERR_FIRST) s (countError s (pgPart k) code status cls ctx) where
  canonical := countError_canonical h
  regs _ ho he hq := rd_countError h ho (not_evtReg_pgPart he) (fun e => hq (.inl e)) fun e => hq (.inr e)
  raised hset := rb_countError_stays h code status cls ctx (pgPart_ne_pgEvr k) (by decide) hset
  memory := ⟨(countError_any s _ code status cls ctx).mem_eq, (countError_any s _ code status cls ctx).hostMem_eq⟩
  coh := (countError_beside s _ code status cls ctx).coh

theorem lossRaised_partBut (h : s.canonical) (code : Nat) :
    PartBut k (fun off => off = Reg.ERR_COUNT ∨ off = Reg.ERR_FIRST) s (lossRaised s k code) ∧
      rb (lossRaised s k code) (pgPart k) Reg.EVT_STAT 4 = true := by
  have hcount := countError_partBut (k := k) h code 4 2 none
  exact ⟨hcount.trans (raiseEvt_partBut hcount.canonical 4),
    rb_raiseEvt_same hcount.canonical (pgPart_ne_pgEvr k) (by decide)⟩

/-- `t` comes from `s` by the loss of the partition's domain with this code (R288 to R290, R372). -/
abbrev DomainEnded (k : Nat) (s : State) (code : Nat) (t : State) : Prop :=
  domainLost t k = true ∧ (∀ y ∈ t.coh.txns, y.part ≠ k) ∧ (∀ v ∈ t.coh.retries, v.part ≠ k) ∧
    rf t (pgPart k) Reg.COH_FAULT 0 8 = code ∧ rb t (pgPart k) Reg.COH_FAULT 63 = true ∧
    rb t (pgPart k) Reg.EVT_STAT 4 = true ∧ (∀ c, c < 256 → CtxEnded t k c) ∧
    (partLive s k = true → partState t k = 5) ∧ SameMemory s t

theorem not_anyAbortReg {off : Nat} (hlow : off < 0x1000) (hpend : ¬(0x240 ≤ off ∧ off < 0x260)) (harmed : off ≠ Reg.RED_ARMED) :
    ¬ anyAbortReg off := by
  rintro ⟨x, hx, hoff⟩
  simp only [abortReg, Reg.CTX_STATE, Reg.CTX_OUT, Reg.ABORT_PEND] at hoff
  omega

section Whole

variable (h : s.canonical) (hk : k < 16)
include h hk

/-- What precedes the aborts leaves the partition's registers, but for its fault and its marks of errors and events. -/
theorem rd_lossRaised_domainDropped (code pos home line : Nat) {off : Nat} (ho : off < 0x10000) (he : off ≠ Reg.EVT_STAT)
    (hcount : off ≠ Reg.ERR_COUNT) (hfirst : off ≠ Reg.ERR_FIRST) :
    rd (lossRaised (domainDropped (lossTold s k code pos home line) k) k code) (pgPart k) off =
      rd (wr s (pgPart k) Reg.COH_FAULT (faultWord code pos home line)) (pgPart k) off := by
  have htold := lossTold_aside (k := k) h code pos home line
  have hdropped : (domainDropped (lossTold s k code pos home line) k).canonical := htold.canonical
  exact ((lossRaised_partBut hdropped code).1.regs off ho he fun e => e.elim hcount hfirst).trans (htold.rd_part hk ho he)

/-- The loss of a domain that stood: its fault is recorded, its requests and contexts end, memory stays. -/
theorem loseDomain_ended (hstands : domainLost s k = false) (hcode : code < 256) (hpos : pos < 32) (hhome : home < 8) (line : Nat) :
    DomainEnded k s code (loseDomain s k code pos home line) ∧
      rd (loseDomain s k code pos home line) (pgPart k) Reg.COH_FAULT = faultWord code pos home line := by
  rw [loseDomain_eq hstands]
  have htold := lossTold_aside (k := k) h code pos home line
  have hregs := fun {off} => rd_lossRaised_domainDropped h hk code pos home line (off := off)
  have hdropped : (domainDropped (lossTold s k code pos home line) k).canonical := htold.canonical
  have hlost : domainLost (domainDropped (lossTold s k code pos home line) k) k = true := by simp [domainLost, domainDropped]
  have hmem : SameMemory s (domainDropped (lossTold s k code pos home line) k) := htold.memory
  have htxns : ∀ y ∈ (domainDropped (lossTold s k code pos home line) k).coh.txns, y.part ≠ k := fun y hy => by
    simpa using (List.mem_filter.1 hy).2
  have hretries : ∀ v ∈ (domainDropped (lossTold s k code pos home line) k).coh.retries, v.part ≠ k := fun v hv => by
    simpa using (List.mem_filter.1 hv).2
  generalize domainDropped (lossTold s k code pos home line) k = s3 at *
  obtain ⟨hraised, hevt⟩ := lossRaised_partBut (k := k) hdropped code
  generalize lossRaised s3 k code = s4 at *
  have habort := allAborted_partBut (k := k) hraised.canonical
  have hended := fun {x} => allAborted_ended (k := k) hraised.canonical (x := x)
  generalize allAborted s4 k = s5 at *
  obtain ⟨hfault, hlive⟩ := faultPart_partBut (k := k) habort.canonical
  have hcoh : (faultPart s5 k).coh = s3.coh := hfault.coh.trans (habort.coh.trans hraised.coh)
  have hword : rd (faultPart s5 k) (pgPart k) Reg.COH_FAULT = faultWord code pos home line :=
    calc rd (faultPart s5 k) (pgPart k) Reg.COH_FAULT
        = rd s5 (pgPart k) Reg.COH_FAULT := hfault.regs _ (by decide) (by decide) (by decide)
      _ = rd s4 (pgPart k) Reg.COH_FAULT :=
          habort.regs _ (by decide) (by decide) (not_anyAbortReg (by decide) (by decide) (by decide))
      _ = _ := hregs (by decide) (by decide) (by decide) (by decide)
      _ = _ := rd_wr_same h _ _ _
  have hpart : partLive s5 k = partLive s k := by
    have hsame : partState s5 k = partState s k := congrArg (fld · 0 4)
      ((habort.regs _ (by decide) (by decide) (not_anyAbortReg (by decide) (by decide) (by decide))).trans
        ((hregs (by decide) (by decide) (by decide) (by decide)).trans (rd_wr_other h _ (by decide) (by decide) (by simp))))
    rw [partLive, partLive, hsame]
  have hctx : ∀ c, c < 256 → CtxEnded (faultPart s5 k) k c := fun c hc => by
    have hsame : ctxState (faultPart s5 k) k c = ctxState s5 k c :=
      hfault.rf (ctxEntry_lt (by decide) hc) (by simp only [Reg.EVT_STAT]; omega) (by simp only [Reg.PART_STATE]; omega) 0 3
    rw [CtxEnded, hsame]
    exact hended hc
  refine ⟨⟨?_, ?_, ?_, ?_, ?_, hfault.raised (habort.raised hevt), hctx, fun hs => hlive (hpart.trans hs), ?_⟩, hword⟩
  · rwa [domainLost, hcoh]
  · rwa [hcoh]
  · rwa [hcoh]
  · rw [rf, hword]
    exact fld_faultWord_code hcode hpos hhome line
  · rw [rb, hword]
    exact bit_faultWord_valid hcode hpos hhome line
  · exact ⟨hfault.memory.1.trans (habort.memory.1.trans (hraised.memory.1.trans hmem.1)),
      hfault.memory.2.trans (habort.memory.2.trans (hraised.memory.2.trans hmem.2))⟩

end Whole

end Loss

end Sys2Proof.Machine
end

section
/-!
SUPPORT. Messages that R275 forbids, and agents that stay silent (R275, R277, R287, R288).
-/

namespace Sys2Proof.Machine

open Sys2Proof

section Lost

variable {s : State} {k pos line : Nat}

/-- A silent agent loses the domain (R287, R288). -/
theorem exec_snoopTimeout {x : Txn} {r : RetryRes} (hk : k < 16)
    (hsilent : (lineTxn s k line = some x ∧ (x.await.testBit pos = true ∨ x.notices.testBit pos = true)) ∨
      (r ∈ s.coh.retries ∧ r.part = k ∧ r.line = line ∧ r.pos = pos ∧ r.back = false)) :
    exec (.snoopTimeout k pos line) s = .next (loseDomain s k 0x22 pos (homeOf line) line) := by
  refine congrArg Host.Outcome.next (if_pos ?_)
  rw [Bool.and_eq_true, Bool.or_eq_true]
  refine ⟨decide_eq_true hk, hsilent.imp (fun howes => ?_) fun hlate => List.any_eq_true.2 ⟨r, ?_⟩⟩
  · rw [howes.1]
    exact Bool.or_eq_true_iff.2 howes.2
  · simpa [and_assoc] using hlate

/-- A directory entry that cannot be corrected, of some line (R288). -/
theorem exec_domainLost (hk : k < 16) (hstands : domainLost s k = false) :
    exec (.domainLost k) s =
      .next (loseDomain { s with free := s.free + 1 } k 0x20 0x1F (homeOf (fld (Config.freeWord s.free) 0 39))
        (fld (Config.freeWord s.free) 0 39)) :=
  congrArg Host.Outcome.next (if_pos ⟨hk, by rw [hstands]; rfl⟩)

section NotCaching

variable (hcaching : cachingPos s k pos = false)
include hcaching

/-- RD_X of an agent that does not cache (R275). -/
theorem exec_rdX_notCaching (hk : k < 16) (hpos : pos < 18) (hstands : domainLost s k = false) (hagent : agentPos s k pos = true)
    (hown : ownRange k (line * 128) 128 = true) :
    exec (.rdX k pos line false false) s = .next (protocolLoss s k pos line) := by
  refine congrArg Host.Outcome.next ?_
  rw [cohRequest, if_neg (by omega), if_neg (by simp [hown]), if_neg (by simp [hstands]), if_neg (by simp [hagent]),
    if_pos (by simp [hcaching, cachingReq])]

/-- WB of an agent that does not cache (R275). -/
theorem exec_wb_notCaching (hk : k < 16) (hpos : pos < 18) (hhigh : 8 ≤ pos) (hstands : domainLost s k = false) (d : Bytes) :
    exec (.wb k pos line d true) s = .next (protocolLoss s k pos line) := by
  refine congrArg Host.Outcome.next ?_
  rw [if_neg (by simp [hstands]; omega), if_neg (Nat.not_lt.2 hhigh), homeNotice, if_pos (by simp [hcaching])]

end NotCaching

/-- WB of a line that its sender does not own (R275). -/
theorem exec_wb_notOwned (hk : k < 16) (hpos : pos < 8) (hstands : domainLost s k = false) (hflight : flightOf s k pos line = none)
    (hcached : cached s k pos line = none) (howned : ownedLine s k line = false) (htxn : lineTxn s k line = none) (d : Bytes) :
    exec (.wb k pos line d true) s = .next (protocolLoss s k pos line) := by
  have hsend : sendNotice s k pos line true = none := by rw [sendNotice, hcached]
  have htake : takeNotice s k pos line (some d) = none := by
    simp only [takeNotice, htxn, howned, Bool.false_and, Bool.false_eq_true, if_false]
  refine congrArg Host.Outcome.next ?_
  rw [if_neg (by simp [hstands]; omega), if_pos hpos, clusterNotice, hflight]
  simp only [hsend]
  rw [if_pos (by simp [howned]), homeNotice, if_neg (by simp [cachingPos, hpos]), htake]

end Lost

/-- Settles O36: requests for shared lines join, snoop, upgrade or lose as the directory and the rank have it, and every cause of a
loss ends in `loseDomain`. -/
theorem sharedLinesAreSnoopedAndLostDomainsEnd : Obligations.SharedLinesAreSnoopedAndLostDomainsEnd := by
  refine ⟨?shared, ?lost⟩
  case shared =>
    intro k pos p line w h s hs hpos hp _ shared others sent old retried
    refine ⟨fun hready hshared => ⟨⟨_, rfl, ?joined⟩, fun hsome hlow => ⟨_, rfl, ?snooped⟩, fun hh => ⟨_, rfl, ?upgraded⟩,
        fun _ hrank hfree => ⟨_, rfl, ?two⟩⟩,
      fun hk hown hstands => ⟨fun htxn hnone hfree hwaits => ?blocked,
        fun htxn hretries hwaits hclean hshared => ⟨_, rfl, ?again⟩⟩⟩
    case joined => exact cohRequest_joined hs hready hshared hpos
    case snooped => exact cohRequest_snooped hready hshared rfl hpos hsome hlow
    case upgraded => exact cohRequest_upgraded hs hready hshared hpos hh
    case two => exact cohRequest_outranked hs hready hshared hpos hp hrank hfree rfl
    case blocked =>
      have hadm : Admissible s k pos line .rdS := .of_cluster hk hpos hown hstands
      have hsent := cohRequest_blocked hadm htxn hnone (Nat.lt_trans hpos (by decide)) hfree hwaits
      exact ⟨_, congrArg Host.Outcome.next hsent, retried_retrySent hs (List.prefix_refl _) rfl pos line .rdS, rfl, rfl⟩
    case again => exact cohRequest_again hs hk hpos hown hstands htxn hretries hwaits hclean hshared rfl
  case lost =>
    intro k pos line x r d s hs hk hpos hstands lost
    have hprotocol : lost 0x23 (protocolLoss s k pos line) :=
      (loseDomain_ended hs hk hstands (by decide) (Nat.lt_trans hpos (by decide)) (homeOf_lt line) line).1
    refine ⟨fun hsilent => ⟨_, exec_snoopTimeout hk hsilent, ?timeout⟩, ⟨_, exec_domainLost hk hstands, ?directory⟩,
      fun hcaching => ⟨fun hagent hown => ⟨_, exec_rdX_notCaching hcaching hk hpos hstands hagent hown, hprotocol⟩,
        fun hhigh => ⟨_, exec_wb_notCaching hcaching hk hpos hhigh hstands d, hprotocol⟩⟩,
      fun hlow hflight hcached howned htxn => ⟨_, exec_wb_notOwned hk hlow hstands hflight hcached howned htxn d, hprotocol⟩⟩
    case timeout => exact (loseDomain_ended hs hk hstands (by decide) (Nat.lt_trans hpos (by decide)) (homeOf_lt line) line).1
    case directory =>
      have hline : ∀ w, fld w 0 39 < 2 ^ 39 := fun w => Nat.mod_lt _ (by decide)
      obtain ⟨hended, hword⟩ := loseDomain_ended (s := { s with free := s.free + 1 }) (k := k) hs hk hstands
        (code := 0x20) (pos := 0x1F) (by decide) (by decide) (homeOf_lt (fld (Config.freeWord s.free) 0 39)) (fld (Config.freeWord s.free) 0 39)
      refine ⟨hended, ?_⟩
      rw [rf, rf, hword, fld_faultWord_home (by decide) (by decide) (homeOf_lt _),
        fld_faultWord_line (by decide) (by decide) (homeOf_lt _), Nat.mod_eq_of_lt (hline _)]

end Sys2Proof.Machine
end

section
/-!
SUPPORT. What a step is, and the queue behind the command that it runs.
-/

namespace Sys2Proof.Machine

open Sys2Proof

/-- Settles O1: the queue's front and its rest are those of the step's definition. -/
theorem aStepRunsTheFrontCommand : Obligations.AStepRunsTheFrontCommand := fun _ _ => rfl

/-- Settles O6: each command keeps the queue behind it. -/
theorem commandsLeaveTheQueue : Obligations.CommandsLeaveTheQueue := by
  intro c s t hs hnext
  exact (exec_kept c hs.kept t hnext).2

end Sys2Proof.Machine
end

section
/-!
SUPPORT. States that refute five statements; the kernel evaluates each command.
-/

namespace Sys2Proof.Machine

open Sys2Proof

/-! ### A reduction slot whose context's counter is a site's `PAGE_STAT`, as the site enters FAULT (R304, R312, R314, R321) -/

/-- The site, in service, is reset for a broken protocol, and the release of the slot's descriptor takes one from `PAGE_STAT`. -/
theorem straySlotReady_reset :
    observe (fun u => siteAt u 0 5 7) (exec (.siteReset 0 5) straySlotReady) = some false := by
  decide +kernel

/-- Refutes O39: the statement bounds no slot's context, and with one whose number no context has a site that is reset for a
broken protocol shows QUIESCED, not FAULT. -/
theorem not_sitesTrainAndAreAdmitted : ¬ Obligations.SitesTrainAndAreAdmitted := by
  intro h
  obtain ⟨-, -, -, -, -, -, hbroken⟩ := h 0 0 0 0 0 0 straySlotReady (straySlot_canonical _ _ _) (by decide) (by decide)
    (by decide +kernel)
  obtain ⟨u, ⟨hfault, -⟩, hshown⟩ := (hbroken 5 (by decide +kernel) (by decide) (by decide)).observed straySlotReady_reset
  exact absurd (hshown.symm.trans hfault) (by decide)

/-- The site, in service, has still to acknowledge the reset of partition 0. -/
def straySlotWaiting : State :=
  { straySlotReady with sites := straySlotReady.sites.set 0 { siteOf straySlotReady 0 with resetWait := [0] } }

theorem straySlotWaiting_lost :
    observe (fun u => pageState u (pgSite 0)) (exec (.partResetAckTimeout 0 0) straySlotWaiting) = some 4 := by
  decide +kernel

/-- Refutes O40: the statement bounds no slot's context, and with one whose number no context has a site that does not
acknowledge a reset shows QUIESCED, not FAULT. -/
theorem not_sitesAreAssignedAndKeptUp : ¬ Obligations.SitesAreAssignedAndKeptUp := by
  intro h
  have hwaiting := h 0 0 0 0 0 0 0 [] straySlotWaiting (straySlot_canonical _ _ _) (by decide) (by decide) (by decide +kernel)
    (by decide +kernel)
  obtain ⟨-, -, -, -, -, -, htimeout⟩ := hwaiting
  obtain ⟨u, ⟨hfault, -, -⟩, hshown⟩ := (htimeout (by decide +kernel)).observed straySlotWaiting_lost
  exact absurd (hshown.symm.trans hfault) (by decide)

/-- The site, in service, holds every credit of partition 0. -/
def straySlotSpent : State :=
  { straySlotReady with sites := straySlotReady.sites.set 0 { siteOf straySlotReady 0 with kept := [32] } }

theorem straySlotSpent_broken :
    observe (fun u => siteAt u 0 5 7) (exec (.memWr 0 0 0 []) straySlotSpent) = some false := by
  decide +kernel

/-- Refutes O41: the statement bounds no slot's context, and with one whose number no context has a site that writes without a
credit shows QUIESCED, not FAULT. -/
theorem not_chipletRequestsRunAndAreAnswered : ¬ Obligations.ChipletRequestsRunAndAreAnswered := by
  intro h
  obtain ⟨-, -, -, -, -, -, -, hspent, -⟩ := h 0 0 0 0 [] [] none false false straySlotSpent straySlotSpent straySlotSpent
    (straySlot_canonical _ _ _) (by decide) (by decide +kernel)
  obtain ⟨u, hfault, hshown⟩ := (hspent (by decide +kernel)).observed straySlotSpent_broken
  exact absurd (hshown.symm.trans hfault) (by decide)

/-! ### A write that waits for a slice that is scrubbed (R235, R237, R391) -/

/-- Partition 0 is SCRUBBING and its memory is being written; a write by the ring port waits in the queue of its slice. -/
def scrubHoldsWrite : State :=
  let s := { State.reset with heldPorts := [(none, .quayWrite 0 0 0 false [7] .clean)] }
  wr (wr (wr s (pgPart 0) Reg.PART_STATE 1) (pgPart 0) Reg.SCRUB_STAT 2) (pgQuay 0) Reg.QUAY_ZF_STAT 1

theorem scrubHoldsWrite_canonical : scrubHoldsWrite.canonical :=
  wr_canonical (wr_canonical (wr_canonical reset_canonical))

/-- The scrub ends, the slice serves the write, and its byte stands in the memory of the slice. -/
theorem scrubHoldsWrite_written :
    observe (fun t => t.mem.isEmpty) (exec (.scrubDone 0 true) scrubHoldsWrite) = some false := by
  decide +kernel

/-- Refutes O46: the end of a scrub ends the slice's fill, which serves the requests that waited for it; one of them is a write,
and the statement has no memory change. -/
theorem not_partitionsAreEnabledResetAndScrubbed : ¬ Obligations.PartitionsAreEnabledResetAndScrubbed := by
  intro h
  obtain ⟨-, -, -, hdone⟩ := h 0 0 0 scrubHoldsWrite scrubHoldsWrite_canonical (by decide) (by decide)
  obtain ⟨t, ⟨-, -, -, -, -, hsame⟩, hwritten⟩ := (hdone true (by decide +kernel) (by decide +kernel)).observed
    scrubHoldsWrite_written
  have hmem : t.mem = [] := hsame.1
  rw [hmem] at hwritten
  exact absurd hwritten (by decide)

/-! ### A corrupted report that adds to one that waits (R413, R416) -/

/-- A report of the collector's own corrupted reports waits already. -/
def collectorReported : State :=
  { State.reset with err := { State.reset.err with reports := [⟨pgErr, pgErr, 4, 0, 1, none, 1⟩] } }

/-- A further one adds to it. -/
theorem collectorReported_merged :
    observe (fun t => collectorReported.err.reports.isPrefixOf t.err.reports) (exec (.errorReport true) collectorReported) =
      some false := by
  decide +kernel

/-- Refutes O52: a corrupted report counts as an error of the collector, whose own report adds to the one that waits for the
same error, so what waits changes. -/
theorem not_errorsAreCollectedAndJobsAborted : ¬ Obligations.ErrorsAreCollectedAndJobsAborted := by
  intro h
  obtain ⟨hreport, -⟩ := h 0 0 0 0 0 0 0 0 ⟨pgErr, pgErr, 4, 0, 1, none, 1⟩ [] ⟨0, 0, 0, 0, [], .run, [], 0⟩ collectorReported
    reset_canonical (by decide) (by decide)
  obtain ⟨-, -, -, -, hcorrupt⟩ := hreport rfl (by decide)
  obtain ⟨t, ⟨hprefix, -, -⟩, hmerged⟩ := hcorrupt.observed collectorReported_merged
  rw [List.isPrefixOf_iff_prefix.2 hprefix] at hmerged
  exact absurd hmerged (by decide)

end Sys2Proof.Machine
end

section
/-!
SUPPORT. What an SPDM request that the DOE instance takes does, and the sessions of a function.
-/

namespace Sys2Proof.Machine

open Sys2Proof

/-! ### SPDM requests and sessions (R383 to R385, R387) -/

/-- A request that the DOE instance takes has its effect (R383). -/
theorem spdmAsk_taken {s : State} {fn : Nat} {ok : Bool} (hopen : doeOpen s fn = true) (hok : ok = true) (f : State → State) :
    spdmAsk s fn ok f = f s := by
  rw [spdmAsk, if_pos hopen, if_pos hok]

theorem doeOpen_fn {s : State} {fn : Nat} (h : doeOpen s fn = true) : fn ≤ 16 := by
  simp only [doeOpen, Bool.and_eq_true, decide_eq_true_eq] at h
  exact h.1.1.1

/-- How far the responder of a function has come is what was set last. -/
theorem spdmOf_setSpdm {s : State} {fn : Nat} (h : fn < s.sec.spdm.length) (v : Spdm) : spdmOf (setSpdm s fn v) fn = v := by
  simp [spdmOf, setSpdm, List.getD_eq_getElem?_getD, List.getElem?_set_self h]

theorem sessionOf_fn {s : State} {fn : Nat} {z : Session} (h : sessionOf s fn = some z) : z.fn = fn := by
  simpa using List.find?_some h

/-- No session of a function is left once its sessions have ended. -/
theorem sessionOf_endSessions (s : State) (fn : Nat) : sessionOf (endSessions s fn) fn = none := by
  simp [sessionOf, endSessions, List.find?_filter]

/-- Where each session of a function is changed and keeps its function, the function's session is the changed one. -/
theorem find_map_session {g : Session → Session} (hfn : ∀ e, (g e).fn = e.fn) (fn : Nat) (l : List Session) :
    (l.map g).find? (fun e => decide (e.fn = fn)) = (l.find? fun e => decide (e.fn = fn)).map g := by
  simp only [List.find?_map, Function.comp_def, hfn]

theorem inSession_iff {s : State} {fn : Nat} : inSession s fn = true ↔ ∃ z, sessionOf s fn = some z ∧ z.established = true := by
  cases h : sessionOf s fn <;> simp [inSession, h]

/-- FINISH passes where the handshake verifies and, under mutual authentication, the signature does (R384). -/
theorem finish_checked {verified both signed : Bool} :
    (verified && (!both || signed)) = true ↔ verified = true ∧ (both = true → signed = true) := by
  cases both <;> simp

/-- Settles O50: each request that the instance takes has its effect and is answered. -/
theorem spdmNegotiatesReportsAndHoldsSessions : Obligations.SpdmNegotiatesReportsAndHoldsSessions := by
  intro fn off len op asym hash dhe aead x y s _ hopen hlen sent only
  have hfn : fn < s.sec.spdm.length := by have := doeOpen_fn hopen; omega
  refine ⟨?version, ?caps, ?algs, ?asked, ?finish, ?session⟩
  case version =>
    exact ⟨_, rfl, by rw [spdmAsk_taken hopen rfl]; exact ⟨spdmOf_setSpdm hfn _, ⟨rfl, ⟨rfl, rfl⟩, rfl⟩, rfl⟩⟩
  case caps =>
    intro hversion
    exact ⟨_, rfl, by rw [spdmAsk_taken hopen hversion]; exact ⟨spdmOf_setSpdm hfn _, ⟨rfl, ⟨rfl, rfl⟩, rfl⟩, rfl⟩⟩
  case algs =>
    intro hcaps hasym hhash hdhe haead
    have hoffers : ((spdmOf s fn).caps && asym.testBit 9 && hash.testBit 2 && dhe.testBit 4 && aead.testBit 1) = true := by
      simp [hcaps, hasym, hhash, hdhe, haead]
    exact ⟨_, rfl, by rw [spdmAsk_taken hopen hoffers]; exact ⟨spdmOf_setSpdm hfn _, ⟨rfl, ⟨rfl, rfl⟩, rfl⟩, rfl⟩⟩
  case asked =>
    intro halgs
    have hslot : ((spdmOf s fn).algs && decide (0 = 0)) = true := by simp [halgs]
    have hindex : ∀ n, n = 0 ∨ n = 0xF0 ∨ n = 0xFF → ((spdmOf s fn).algs && decide (n = 0 ∨ n = 0xF0 ∨ n = 0xFF)) = true := by
      intro n hn
      simp [halgs, hn]
    refine ⟨congrArg Host.Outcome.next (spdmAsk_taken hopen halgs _), congrArg Host.Outcome.next (spdmAsk_taken hopen hslot _),
      congrArg Host.Outcome.next (spdmAsk_taken hopen hslot _), congrArg Host.Outcome.next
        (spdmAsk_taken hopen (hindex 0 (by simp)) _),
      congrArg Host.Outcome.next (spdmAsk_taken hopen (hindex 0xF0 (by simp)) _),
      congrArg Host.Outcome.next (spdmAsk_taken hopen (hindex 0xFF (by simp)) _), ?exchange⟩
    case exchange =>
      exact ⟨_, rfl, by
        rw [spdmAsk_taken hopen halgs]; exact ⟨⟨_, rfl, rfl, rfl, rfl⟩, ⟨rfl, ⟨rfl, rfl⟩, rfl⟩, rfl⟩⟩
  case finish =>
    intro z hz hnew
    by_cases hverified : Config.finishVerify z.secret x = true ∧
        (z.mutualAuth = true → edVerify (tenantKey s (fn - 1)) (z.secret ++ x) y = true)
    · simp only [if_pos hverified]
      have hchecked := finish_checked.2 hverified
      refine ⟨_, rfl, ?_⟩
      simp only [hz, spdmAsk_taken hopen rfl, hnew, hchecked, if_true, Bool.false_eq_true, if_false]
      refine ⟨⟨inSession_iff.2 ?_, ⟨rfl, ⟨rfl, rfl⟩, rfl⟩⟩, rfl⟩
      refine ⟨{ z with established := true }, ?_, rfl⟩
      refine (find_map_session (fun e => by split <;> rfl) fn _).trans ?_
      rw [show s.sec.sessions.find? (fun e => decide (e.fn = fn)) = some z from hz]
      simp [sessionOf_fn hz]
    · simp only [if_neg hverified]
      have hchecked := Bool.eq_false_iff.2 (mt finish_checked.1 hverified)
      refine ⟨_, rfl, ?_⟩
      simp only [hz, spdmAsk_taken hopen rfl, hnew, hchecked, Bool.false_eq_true, if_false]
      exact ⟨⟨sessionOf_endSessions s fn, rfl⟩, rfl⟩
  case session =>
    intro hin
    obtain ⟨z, hz, hestablished⟩ := inSession_iff.1 hin
    refine ⟨?update, congrArg Host.Outcome.next (spdmAsk_taken hopen hin _), ?done⟩
    case update =>
      rintro ⟨hone, hthree⟩
      have hop : (inSession s fn && decide (1 ≤ op) && decide (op ≤ 3)) = true := by simp [hin, hone, hthree]
      refine ⟨_, rfl, ?_⟩
      rw [spdmAsk_taken hopen hop]
      by_cases hkept : op = 3
      · simp only [if_pos hkept]
        exact ⟨hin, ⟨rfl, ⟨rfl, rfl⟩, rfl⟩, rfl⟩
      · simp only [if_neg hkept]
        refine ⟨inSession_iff.2 ⟨{ z with secret := Config.sessionSecret fn z.secret s.free }, ?_, hestablished⟩,
          ⟨rfl, ⟨rfl, rfl⟩, rfl⟩, rfl⟩
        refine (find_map_session (fun e => by split <;> rfl) fn _).trans ?_
        rw [show (draw s).2.sec.sessions.find? (fun e => decide (e.fn = fn)) = some z from hz]
        simp [sessionOf_fn hz, draw]
    case done =>
      exact ⟨_, rfl, by rw [spdmAsk_taken hopen hin]; exact ⟨sessionOf_endSessions s fn, ⟨rfl, ⟨rfl, rfl⟩, rfl⟩, rfl⟩⟩

end Sys2Proof.Machine
end

section
/-!
SUPPORT. How a command answers the request that it took after it has recorded something, and what an audit entry says.
-/

namespace Sys2Proof.Machine

open Sys2Proof

/-! ### An answer to a request that still stands (R360, R447) -/

theorem takenReq_lt {s : State} {sec : Bool} {f code : Nat} {b : Bytes} (h : takenReq s sec f code = some b) : f < 17 := by
  unfold takenReq at h
  split at h
  · next hc => exact hc.1
  · exact absurd h (by simp)

/-- A handler runs on the request that is taken. -/
theorem onTaken_taken {s : State} {sec : Bool} {f code : Nat} {b : Bytes} (h : takenReq s sec f code = some b)
    (k : State → Bytes → State) : onTaken s sec f code k = k s b := by
  rw [onTaken, h]

/-- A mailbox's state and request stand in registers from 0x1000 on. -/
theorem mailbox_stays {s t : State} {sec : Bool} {f : Nat} (hf : f < 17)
    (h : ∀ off, 0x1000 ≤ off → off < 0x10000 → rd t (pgMbx sec) off = rd s (pgMbx sec) off) :
    mbxState t sec f = mbxState s sec f ∧ reqBytes t sec f = reqBytes s sec f := by
  refine ⟨congrArg (fld · 0 3) (h (Reg.MBX_STAT f) ?_ ?_), List.flatMap_congr fun i hi => congrArg wordBytes (h (Reg.REQ f i) ?_ ?_)⟩
  · simp only [Reg.MBX_STAT]; omega
  · simp only [Reg.MBX_STAT]; omega
  · simp only [Reg.REQ]; omega
  · have hlt := List.mem_range.1 hi
    simp only [Reg.REQ]; omega

/-- Neither the marks of events nor the registers of a page's header hold a mailbox. -/
theorem not_evtReg_mailbox (sec : Bool) {off : Nat} (h : 0x1000 ≤ off) : ¬ evtReg (pgMbx sec) off :=
  not_evtReg_of_page (by cases sec <;> decide) (by rintro rfl; exact absurd h (by decide))

/-- The page of a request's mailbox reads the same in two states from the first mailbox on. -/
abbrev SameMail (sec : Bool) (s u : State) : Prop :=
  ∀ off, 0x1000 ≤ off → off < 0x10000 → rd u (pgMbx sec) off = rd s (pgMbx sec) off

theorem SameBut.sameMail {q : Nat → Nat → Prop} {s u : State} {sec : Bool} (h : SameBut q s u)
    (hq : ∀ off, 0x1000 ≤ off → ¬ q (pgMbx sec) off) : SameMail sec s u :=
  fun off h1 h2 => h.rd_eq h2 (not_evtReg_mailbox sec h1) (hq off h1)

theorem Recorded.sameMail {s u : State} (h : Recorded s u) : SameMail true s u := by
  refine fun off h1 h2 => h.rd_eq h2 (not_evtReg_mailbox true h1) ?_
  rintro (x | x | rfl)
  · exact absurd x.1 (by decide)
  · exact absurd x.1 (by decide)
  · exact absurd h1 (by decide)

/-- A command that has changed no mailbox puts its answer into the one whose request it took. -/
theorem reply_stays {s u : State} {sec : Bool} {f code : Nat} {b : Bytes} (htaken : takenReq s sec f code = some b)
    (hmail : SameMail sec s u) (hmbx : u.mbx = s.mbx) (hcode : code < 0x8000) (status : Nat) (body : Bytes) :
    reply u sec f code status body = { u with mbx := s.mbx ++ [mbxAnswer sec f code status body] } := by
  obtain ⟨hstate, hmsg, hreq⟩ := takenReq_eq htaken
  obtain ⟨hstate', hreq'⟩ := mailbox_stays (takenReq_lt htaken) hmail
  rw [reply_taken ⟨hstate'.trans hstate, by rw [hreq', hreq, hmsg]⟩ hcode, hmbx]

theorem reply_after {q : Nat → Nat → Prop} {s u : State} {sec : Bool} {f code : Nat} {b : Bytes}
    (htaken : takenReq s sec f code = some b) (hsame : SameBut q s u) (hq : ∀ off, 0x1000 ≤ off → ¬ q (pgMbx sec) off)
    (hcode : code < 0x8000) (status : Nat) (body : Bytes) :
    reply u sec f code status body = { u with mbx := s.mbx ++ [mbxAnswer sec f code status body] } :=
  reply_stays htaken (hsame.sameMail hq) (by rw [hsame.rest]) hcode status body

/-- A command that changes no register answers the request that it took. -/
theorem reply_at_once {s : State} {sec : Bool} {f code : Nat} {b : Bytes} (htaken : takenReq s sec f code = some b)
    (hcode : code < 0x8000) (status : Nat) (body : Bytes) :
    reply s sec f code status body = { s with mbx := s.mbx ++ [mbxAnswer sec f code status body] } :=
  reply_stays htaken (fun _ _ _ => rfl) rfl hcode status body

/-- A command that leaves behind counts, errors and audit entries alone answers the request that it took. -/
theorem reply_recorded {s u : State} {f code : Nat} {b : Bytes} (htaken : takenReq s true f code = some b)
    (hrec : Recorded s u) (hcode : code < 0x8000) (status : Nat) (body : Bytes) :
    reply u true f code status body = { u with mbx := s.mbx ++ [mbxAnswer true f code status body] } :=
  reply_stays htaken hrec.sameMail hrec.mbx hcode status body

/-! ### What an audit entry says (R449, R455) -/

/-- The first word of an entry's content: the power cycle, the epoch, the code, the number of snapshots and the kind. -/
theorem mkEntry_fields (s : State) {kind code : Nat} (n : Nat) (snaps : List Word) (hkind : kind < 4) (hcode : code < 64) :
    fld ((mkEntry s kind code n snaps).getD 1 0) 48 6 = code ∧ fld ((mkEntry s kind code n snaps).getD 1 0) 57 4 = kind ∧
    bit ((mkEntry s kind code n snaps).getD 1 0) 63 = true := by
  have hepoch : rf s pgEvr Reg.EVR_EPOCH 0 16 < 2 ^ 16 := Nat.mod_lt _ (by decide)
  have hcycle := Nat.mod_lt (rd s 0 Reg.PWR_CYCLES).toNat (show 0 < 2 ^ 32 by decide)
  have hn := Nat.mod_lt n (show 0 < 8 by decide)
  simp only [mkEntry, List.cons_append, List.getD_cons_succ, List.getD_cons_zero, fld, bit, w64, BitVec.getLsbD,
    Nat.testBit_eq_decide_div_mod_eq,
    BitVec.toNat_ofNat, Nat.shiftLeft_eq, Nat.shiftRight_eq_div_pow, Nat.mod_eq_of_lt hkind, Nat.mod_eq_of_lt hcode, decide_eq_true_eq]
  omega

/-- What an entry of the event recorder's own pages leaves of the recorder's lists. -/
theorem evrErr_audit {s : State} (h : s.canonical) (code : Nat) : (evrErr s code).evr.audit = s.evr.audit :=
  (congrArg Evr.audit (evrErr_sameBut h code).evr).symm

/-- Where a place is free the entry is appended under the next number (R455). -/
theorem audit_appends {s : State} (h : s.canonical) (hroom : auditUsed s < 16384) (code : Nat) (snaps : List Word) :
    (audit s code snaps).evr.audit =
      s.evr.audit ++ [((rd s pgEvr Reg.AUDIT_NEXT).toNat, mkEntry s 2 code snaps.length snaps)] := by
  rw [audit, if_pos hroom]
  extract_lets n e _ entered numbered
  have hnumbered : numbered.canonical := wr_canonical h
  split
  · exact evrErr_audit (rawEvt_kept hnumbered.kept).1 2
  · rfl

theorem auditUsed_lt {s : State} (h : auditRoom s = true) : auditUsed s < 16384 := by
  have := of_decide_eq_true h
  omega

end Sys2Proof.Machine
end

section
/-!
SUPPORT. Runs of words in registers, and numbers that stand in messages.
-/

namespace Sys2Proof.Machine

open Sys2Proof

/-! ### Consecutive words (R6) -/

theorem wrWords_canonical {s : State} (h : s.canonical) {p off : Nat} {l : List Word} : (wrWords s p off l).canonical :=
  (wrWords_kept h.kept).1

/-- A run of words changes registers alone. -/
theorem wrWords_regs (s : State) (p off : Nat) (l : List Word) :
    wrWords s p off l = { s with regs := (wrWords s p off l).regs } := by
  induction l generalizing s off with
  | nil => rfl
  | cons v t ih => exact ih (wr s p off v) (off + 8)

/-- A register that none of the words goes to is as it was. -/
theorem rd_wrWords_other {s : State} (h : s.canonical) {p off q o : Nat} {l : List Word} (hoff : off + 8 * l.length ≤ 0x10000)
    (ho : o < 0x10000) (hne : ¬(q = p ∧ ∃ i, i < l.length ∧ o = off + 8 * i)) : rd (wrWords s p off l) q o = rd s q o := by
  induction l generalizing s off with
  | nil => rfl
  | cons v t ih =>
    rw [List.length_cons] at hoff hne
    refine (ih (s := wr s p off v) (off := off + 8) (wr_canonical h) (by omega) ?_).trans
      (rd_wr_other h v (by omega) ho fun x => hne ⟨x.1, 0, by omega, x.2⟩)
    rintro ⟨hq, i, hi, hat⟩
    exact hne ⟨hq, i + 1, by omega, by omega⟩

/-- Each word goes to its register. -/
theorem rd_wrWords_same {s : State} (h : s.canonical) {p off : Nat} {l : List Word} (hoff : off + 8 * l.length ≤ 0x10000) {i : Nat}
    (hi : i < l.length) : rd (wrWords s p off l) p (off + 8 * i) = l.getD i 0 := by
  induction l generalizing s off i with
  | nil => exact absurd hi (Nat.not_lt_zero i)
  | cons v t ih =>
    rw [List.length_cons] at hoff hi
    cases i with
    | zero =>
      refine (rd_wrWords_other (s := wr s p off v) (wr_canonical h) (by omega) (by omega) ?_).trans (rd_wr_same h p off v)
      rintro ⟨-, j, -, hat⟩
      omega
    | succ i =>
      have hat : off + 8 * (i + 1) = off + 8 + 8 * i := by omega
      rw [hat]
      exact ih (s := wr s p off v) (off := off + 8) (wr_canonical h) (by omega) (by omega)

theorem wrWords_sameBut {s : State} (h : s.canonical) {p off : Nat} {l : List Word} (hoff : off + 8 * l.length ≤ 0x10000) :
    SameBut (fun q o => q = p ∧ ∃ i, i < l.length ∧ o = off + 8 * i) s (wrWords s p off l) :=
  .of_regs (wrWords_regs s p off l) fun _ _ ho _ hne => rd_wrWords_other h hoff ho hne

theorem length_bytesWords (b : Bytes) (n : Nat) : (bytesWords b n).length = n := by
  induction n generalizing b with
  | zero => rfl
  | succ n ih => rw [bytesWords, List.length_cons, ih]

theorem bytesNat_append_zeros (b : Bytes) (n : Nat) : bytesNat (b ++ zeroBytes n) = bytesNat b := by
  induction b with
  | nil =>
    induction n with
    | zero => rfl
    | succ n ih => exact (congrArg (0 + 256 * ·) ih)
  | cons x t ih => rw [List.cons_append, bytesNat, ih, bytesNat]

theorem leAt_eq (b : Bytes) (off n : Nat) : leAt b off n = bytesNat ((b.drop off).take n) := bytesNat_append_zeros _ _

theorem bytesNat_lt (b : Bytes) : bytesNat b < 256 ^ b.length := by
  induction b with
  | nil => decide
  | cons x t ih =>
    have hx := x.isLt
    rw [bytesNat, List.length_cons, pow_succ]
    omega

theorem leAt_lt (b : Bytes) (off n : Nat) : leAt b off n < 256 ^ n := by
  rw [leAt_eq]
  exact (bytesNat_lt _).trans_le (Nat.pow_le_pow_right (by decide) (List.length_take_le _ _))

/-- Word `i` of a run of bytes spells its bytes from `8 i`. -/
theorem getD_bytesWords (b : Bytes) {n i : Nat} (hi : i < n) : (bytesWords b n).getD i 0 = w64 (leAt b (8 * i) 8) := by
  induction n generalizing b i with
  | zero => exact absurd hi (Nat.not_lt_zero i)
  | succ n ih =>
    cases i with
    | zero => exact congrArg w64 (leAt_eq b 0 8).symm
    | succ i =>
      rw [bytesWords, List.getD_cons_succ, ih _ (by omega), leAt_eq, leAt_eq, List.drop_drop]
      congr 4
      omega

/-- Padding or cutting a message leaves what stands within its length. -/
theorem leAt_fitBytes (b : Bytes) {off n m : Nat} (h : off + n ≤ m) : leAt (fitBytes b m) off n = leAt b off n := by
  rw [leAt_eq, leAt_eq, fitBytes, slice, List.drop_zero, List.drop_append, List.take_append, List.drop_take, List.take_take,
    Nat.min_eq_left (by omega)]
  simp only [zeroBytes, List.drop_replicate, List.take_replicate]
  exact bytesNat_append_zeros _ _

/-- A message of its full length is laid out as it is. -/
theorem fitBytes_self {b : Bytes} {n : Nat} (h : b.length = n) : fitBytes b n = b := h ▸ slice_all b

theorem length_zeroBytes (n : Nat) : (zeroBytes n).length = n := List.length_replicate

theorem length_wordBytes (w : Word) : (wordBytes w).length = 8 := length_natBytes _ _

/-! ### The words of a request (R443, R446) -/

/-- The registers that hold the request of a mailbox. -/
abbrev reqReg (sec : Bool) (f q o : Nat) : Prop := q = pgMbx sec ∧ ∃ i, i < 32 ∧ o = Reg.REQ f i

/-- 32 words become the request of a mailbox. -/
theorem reqWords_says {s : State} (h : s.canonical) (sec : Bool) {f : Nat} (hf : f ≤ 16) (b : Bytes) :
    let w := wrWords s (pgMbx sec) (Reg.REQ f 0) (bytesWords b 32)
    w.canonical ∧ (∀ i, i < 32 → rd w (pgMbx sec) (Reg.REQ f i) = (bytesWords b 32).getD i 0) ∧ SameBut (reqReg sec f) s w := by
  have hlen : (bytesWords b 32).length = 32 := length_bytesWords b 32
  have hfits : Reg.REQ f 0 + 8 * (bytesWords b 32).length ≤ 0x10000 := by rw [hlen]; simp only [Reg.REQ]; omega
  have hat : ∀ i, Reg.REQ f i = Reg.REQ f 0 + 8 * i := fun i => by simp only [Reg.REQ, Nat.mul_zero, Nat.add_zero]
  refine ⟨wrWords_canonical h, fun i hi => ?_, (wrWords_sameBut h hfits).mono fun _ _ x => ?_⟩
  · rw [hat]
    exact rd_wrWords_same h hfits (hlen.symm ▸ hi)
  · obtain ⟨hq, i, hi, ho⟩ := x
    exact ⟨hq, i, hlen ▸ hi, ho.trans (hat i).symm⟩

/-! ### Fields of messages laid out one after another -/

/-- A field that ends within the first part of a message stands there. -/
theorem leAt_append_left {b c : Bytes} {off n : Nat} (h : off + n ≤ b.length) : leAt (b ++ c) off n = leAt b off n := by
  rw [leAt_eq, leAt_eq, List.drop_append, List.take_append_of_le_length]
  rw [List.length_drop]
  omega

/-- A field that begins after the first part of a message stands in the rest. -/
theorem leAt_append_right {b c : Bytes} {off n : Nat} (h : b.length ≤ off) :
    leAt (b ++ c) off n = leAt c (off - b.length) n := by
  rw [leAt_eq, leAt_eq, List.drop_append, List.drop_eq_nil_of_le h, List.nil_append]

theorem leAt_natBytes (v n : Nat) : leAt (natBytes v n) 0 n = v % 256 ^ n := by
  have h := leAt_natBytes_append v n []
  rwa [List.append_nil] at h

theorem leAt_wordBytes (w : Word) : leAt (wordBytes w) 0 8 = w.toNat :=
  (leAt_natBytes _ _).trans (Nat.mod_eq_of_lt w.isLt)

theorem leAt_zeroBytes (m off n : Nat) : leAt (zeroBytes m) off n = 0 := by
  have h := bytesNat_append_zeros [] (min n (m - off))
  rw [leAt_eq, zeroBytes, List.drop_replicate, List.take_replicate]
  exact h

end Sys2Proof.Machine
end

section
/-!
SUPPORT. The image commands and Tuiner's mailbox commands.
-/

namespace Sys2Proof.Machine

open Sys2Proof

/-- A command that changes flash and the boot's record alone, and is answered OK with no body. -/
theorem reply_beside {s u : State} {sec : Bool} {f code : Nat} {b : Bytes} (htaken : takenReq s sec f code = some b)
    (hcode : code < 0x8000) (hu : u = { s with flash := u.flash, boot := u.boot } := by rfl) :
    reply u sec f code 0 [] = { u with mbx := s.mbx ++ [mbxAnswer sec f code 0 []] } := by
  have hregs : u.regs = s.regs := by rw [hu]
  exact reply_stays htaken (fun _ _ _ => by rw [rd, hregs, ← rd]) (by rw [hu]) hcode 0 []

/-! ### Image commands (R410, R450, R468) -/

theorem testAccess_recorded {s : State} (h : s.canonical) : Recorded (draw s).2 (testAccess s) := audit_recorded (s := (draw s).2) h _ _

/-- A TEST_ACCESS entry is appended where the audit part has room (R455, R468). -/
theorem testAccess_audited {s : State} (h : s.canonical) (hroom : auditRoom s = true) :
    ∃ e, (testAccess s).evr.audit = s.evr.audit ++ [((rd s pgEvr Reg.AUDIT_NEXT).toNat, e)] ∧ fld (e.getD 1 0) 48 6 = 0x0A :=
  ⟨_, audit_appends (s := (draw s).2) h (auditUsed_lt hroom) _ _, (mkEntry_fields _ _ _ (by decide) (by decide)).1⟩

theorem Recorded.boot {s t : State} (h : Recorded s t) : t.boot = s.boot := by rw [h.same.rest]; rfl

/-- A failed flash write is counted and answered UNCORRECTABLE (R410). -/
theorem imgFails_eq {s u : State} {code : Nat} {b : Bytes} (htaken : takenReq s true 0 code = some b) (hrec : Recorded s u)
    (hcode : code < 0x8000) :
    imgFails u code = { countError u pgSec 3 4 0 none with mbx := s.mbx ++ [mbxAnswer true 0 code 4 []] } :=
  reply_recorded htaken (hrec.trans (countError_recorded hrec.canonical _ _ _ _)) hcode 4 []

theorem imageCheck_fuse {s t : State} (h : t.fuse = s.fuse) (img : Bytes) : imageCheck t img = imageCheck s img := by
  rw [imageCheck, imageCheck, pairing, pairing, h]

/-- The load is closed with what the check of the image has found (R468). -/
def committed (cause : Nat) (u : State) : State := { u with boot := { u.boot with loadState := if cause = 0 then 2 else 3 } }

theorem committed_boot {s u : State} (cause : Nat) (h : u.boot = s.boot) :
    (committed cause u).boot = { s.boot with loadState := if cause = 0 then 2 else 3 } := by
  rw [committed, h]

/-! ### Tuiner's commands (R4, R482) -/

/-- The form of a message that a command answers, where it answers one form alone. -/
abbrev FormOf (b : Bytes) (sub : Option Nat) : Prop := ∀ n, sub = some n → leAt b 3 1 = n

theorem formOf_none (b : Bytes) : FormOf b none := fun _ h => nomatch h

theorem formOf_some {b : Bytes} {n : Nat} (h : leAt b 3 1 = n) : FormOf b (some n) := fun _ hn => h.trans (Option.some.inj hn)

/-- Tuiner serves a function that is listed for the command. -/
theorem tuiner_serves {s : State} {f code : Nat} {b : Bytes} {f0 : Bool} {sub : Option Nat}
    (htaken : takenReq s false f code = some b) (hform : FormOf b sub) (hlisted : f0 = true → f = 0) (k : State → Bytes → State) :
    tuiner s f code f0 sub k = k s b := by
  have hserved : ¬ (f0 && decide (f ≠ 0)) = true := by
    rw [Bool.and_eq_true, decide_eq_true_eq]
    exact fun h => h.2 (hlisted h.1)
  rw [tuiner, onTaken_taken htaken]
  cases sub with
  | none => exact if_neg hserved
  | some n => exact (if_neg (not_not.2 (hform n rfl))).trans (if_neg hserved)

/-- Tuiner refuses a partition function a command that F0 alone has. -/
theorem tuiner_refuses {s : State} {f code : Nat} {b : Bytes} {sub : Option Nat} (htaken : takenReq s false f code = some b)
    (hform : FormOf b sub) (hf : f ≠ 0) (k : State → Bytes → State) :
    tuiner s f code true sub k = reply (reject s (pgMbx false)) false f code 0xF [] := by
  have hrefused : (true && decide (f ≠ 0)) = true := by simp [hf]
  rw [tuiner, onTaken_taken htaken]
  cases sub with
  | none => exact if_pos hrefused
  | some n => exact (if_neg (not_not.2 (hform n rfl))).trans (if_pos hrefused)

/-- What waits to be put into the mailboxes may differ on both sides. -/
theorem SameBut.withMbx {q : Nat → Nat → Prop} {s t : State} (h : SameBut q s t) (l : List Pending) :
    SameBut q { s with mbx := l } { t with mbx := l } where
  regs := h.regs
  rest := by rw [h.rest]
  pcie := h.pcie
  cfg := h.cfg
  board := h.board
  evr := h.evr
  err := h.err
  out := h.out

/-- An answer after a request has been counted as rejected. -/
theorem reply_rejected {s : State} (h : s.canonical) {f code : Nat} {b : Bytes} {sec : Bool}
    (htaken : takenReq s sec f code = some b) (hcode : code < 0x8000) (status : Nat) (body : Bytes) :
    reply (reject s (pgMbx sec)) sec f code status body =
      { reject s (pgMbx sec) with mbx := s.mbx ++ [mbxAnswer sec f code status body] } :=
  reply_after htaken (reject_sameBut h _) (fun _ ho x => absurd (x.2 ▸ ho) (by decide)) hcode status body

/-- A refused command is counted and answered DENIED. -/
theorem tuiner_turned {c : Instr} {s : State} (h : s.canonical) {f code : Nat} {b : Bytes} {sub : Option Nat}
    {k : State → Bytes → State} (hc : exec c s = .next (tuiner s f code true sub k)) (htaken : takenReq s false f code = some b)
    (hform : FormOf b sub) (hf : f ≠ 0) (hcode : code < 0x8000) :
    Completes c s fun t =>
      t.mbx = s.mbx ++ [mbxAnswer false f code 0xF []] ∧
      rd t (pgMbx false) Reg.REJECT_COUNT = rd s (pgMbx false) Reg.REJECT_COUNT + 1 ∧
      rb t (pgMbx false) Reg.EVT_STAT 63 = true ∧ SameBut (oneReg (pgMbx false) Reg.REJECT_COUNT) { s with mbx := t.mbx } t := by
  refine completes_of_next hc ((tuiner_refuses htaken hform hf k).trans (reply_rejected h htaken hcode _ _)) ⟨rfl,
    rd_reject_count h _, rb_raiseEvt_same (addReg_canonical h) (by decide) (by decide),
    (reject_sameBut h _).withMbx _⟩

/-- Tuiner takes no further command (R482). -/
def shutDown (u : State) : State := { u with boot := { u.boot with shutdown := true } }

/-! ### The answer of BOOT_STATUS (R482) -/

/-- Which records have been trained afresh, and whether the boot is warm, as a byte shows them. -/
def pathByte (hbm sites pcie warm : Bool) : Nat := hbm.toNat + 2 * sites.toNat + 4 * pcie.toNat + 128 * warm.toNat

theorem testBit_pathByte (hbm sites pcie warm : Bool) :
    (pathByte hbm sites pcie warm).testBit 0 = hbm ∧ (pathByte hbm sites pcie warm).testBit 1 = sites ∧
    (pathByte hbm sites pcie warm).testBit 2 = pcie ∧ (pathByte hbm sites pcie warm).testBit 7 = warm ∧
    pathByte hbm sites pcie warm % 256 = pathByte hbm sites pcie warm := by
  revert hbm sites pcie warm
  decide

/-- The body of the answer of BOOT_STATUS. -/
def bootStatusBody (s : State) : Bytes :=
  let b := s.boot
  let path := (if b.fullHbm = 0 then 0 else 1) + (if b.fullSites = 0 then 0 else 2) + (if b.fullPcie then 4 else 0) +
    (if b.warm then 128 else 0)
  natBytes (phaseCode s) 1 ++ natBytes path 1 ++ natBytes b.fullSites 1 ++ natBytes b.fullHbm 1 ++ natBytes b.endMs 4 ++
    natBytes b.added 2

theorem bootPath (s : State) :
    (if s.boot.fullHbm = 0 then 0 else 1) + (if s.boot.fullSites = 0 then 0 else 2) + (if s.boot.fullPcie then 4 else 0) +
      (if s.boot.warm then 128 else 0) =
    pathByte (decide (s.boot.fullHbm ≠ 0)) (decide (s.boot.fullSites ≠ 0)) s.boot.fullPcie s.boot.warm := by
  by_cases h1 : s.boot.fullHbm = 0 <;> by_cases h2 : s.boot.fullSites = 0 <;> cases s.boot.fullPcie <;>
    cases s.boot.warm <;> simp [pathByte, h1, h2]

theorem phaseCode_lt (s : State) : phaseCode s < 256 := by
  cases h : s.boot.phase <;> simp [phaseCode, h]

theorem bootStatusBody_says (s : State) :
    let body := bootStatusBody s
    body.length = 10 ∧ leAt body 0 1 = phaseCode s ∧
      (leAt body 1 1).testBit 0 = decide (s.boot.fullHbm ≠ 0) ∧ (leAt body 1 1).testBit 1 = decide (s.boot.fullSites ≠ 0) ∧
      (leAt body 1 1).testBit 2 = s.boot.fullPcie ∧ (leAt body 1 1).testBit 7 = s.boot.warm ∧
      leAt body 2 1 = s.boot.fullSites % 256 ∧ leAt body 3 1 = s.boot.fullHbm % 256 ∧
      leAt body 4 4 = s.boot.endMs % 2 ^ 32 ∧ leAt body 8 2 = s.boot.added % 65536 := by
  obtain ⟨hhbm, hsites, hpcie, hwarm, hbyte⟩ := testBit_pathByte (decide (s.boot.fullHbm ≠ 0)) (decide (s.boot.fullSites ≠ 0))
    s.boot.fullPcie s.boot.warm
  simp only [bootStatusBody, bootPath, leAt_append_left, leAt_append_right, List.length_append, length_natBytes, leAt_natBytes,
    Nat.reduceAdd, Nat.reduceLeDiff, Nat.reduceSub, Nat.reducePow, hbyte, Nat.mod_eq_of_lt (phaseCode_lt s), hhbm, hsites, hpcie,
    hwarm, le_refl, and_self]

/-! ### The statement -/

theorem pagesOf_listed {b : Bytes} (h : leAt b 4 2 ≤ 30) :
    pagesOf b = some ((List.range (leAt b 4 2)).map fun i => leAt b (8 + 8 * i) 8 / 65536) :=
  if_neg (Nat.not_lt.2 h)

/-- Settles O60: each command answers the request that it took, after what it records on its way. -/
theorem imagesLoadAndTuinerAnswers : Obligations.ImagesLoadAndTuinerAnswers := by
  intro f ok b s hs len audited tuinerSays turned listed pages asked
  refine ⟨?begins, ?chunks, ?outOfOrder, ?commits, ?status, ?refused, ?served⟩
  case begins =>
    intro htaken hroom hlen
    have hroom' : ¬ (!auditRoom s) = true := by simp [hroom]
    constructor
    · let u : State := { s with flash := { s.flash with image := [] }, boot := { s.boot with loadState := 1, loadLen := leAt b 4 4 } }
      have hrec : Recorded (draw u).2 (testAccess u) := testAccess_recorded hs
      refine completes_of_next rfl ((onTaken_taken htaken _).trans ((if_neg hroom').trans ((if_neg (Nat.not_lt.2 hlen)).trans
        ((if_neg (by decide)).trans (reply_recorded (s := (draw u).2) htaken hrec (by decide) 0 []))))) ?_
      exact ⟨rfl, hrec.flash, hrec.boot, testAccess_audited (s := u) hs hroom, hrec.memory⟩
    · let u : State := { s with flash := { s.flash with image := [] }, boot := { s.boot with loadState := 0 } }
      have hrec : Recorded (draw u).2 (testAccess u) := testAccess_recorded hs
      have herr := countError_recorded hrec.canonical 3 4 0 none
      refine completes_of_next rfl ((onTaken_taken htaken _).trans ((if_neg hroom').trans ((if_neg (Nat.not_lt.2 hlen)).trans
        ((if_pos rfl).trans (imgFails_eq (s := (draw u).2) htaken hrec (by decide)))))) ?_
      exact ⟨rfl, (hrec.trans herr).boot, (hrec.trans herr).memory⟩
  case chunks =>
    intro htaken hload hplace
    have horder : ¬(s.boot.loadState ≠ 1 ∨ leAt b 4 4 ≠ s.flash.image.length) := by simp [hload, hplace]
    constructor
    · intro hone hmost hfits
      have hlegal : ¬(len = 0 ∨ 240 < len ∨ s.boot.loadLen < s.flash.image.length + len) := by omega
      constructor
      · exact congrArg Host.Outcome.next ((onTaken_taken htaken _).trans ((if_neg horder).trans ((if_neg hlegal).trans
          ((if_neg (by decide)).trans (reply_at_once (s := { s with
            flash := { s.flash with image := s.flash.image ++ slice b 16 len } }) htaken (by decide) 0 [])))))
      · have herr := countError_recorded hs 3 4 0 none
        exact completes_of_next rfl ((onTaken_taken htaken _).trans ((if_neg horder).trans ((if_neg hlegal).trans
          ((if_pos rfl).trans (imgFails_eq htaken (.refl hs) (by decide)))))) ⟨rfl, herr.flash, herr.boot⟩
    · intro hone hmost hover
      exact congrArg Host.Outcome.next ((onTaken_taken htaken _).trans ((if_neg horder).trans
        ((if_pos (.inr (.inr hover))).trans (reply_at_once htaken (by decide) 3 []))))
  case outOfOrder =>
    intro htaken horder
    have hsame := reject_sameBut hs pgSec
    have hflash : (reject s pgSec).flash = s.flash := reject_flash s pgSec
    have hboot : (reject s pgSec).boot = s.boot := reject_boot s pgSec
    exact completes_of_next rfl ((onTaken_taken htaken _).trans ((if_pos horder).trans
      (reply_after htaken hsame (fun off _ x => absurd x.1 (by decide)) (by decide) 0x0B []))) ⟨rfl, hflash, hboot⟩
  case commits =>
    intro htaken hroom hload hwhole
    have hrec := testAccess_recorded hs
    have hboot : (testAccess s).boot = s.boot := hrec.boot
    have hlate : ¬((testAccess s).boot.loadState ≠ 1 ∨ (testAccess s).flash.image.length < (testAccess s).boot.loadLen) := by
      rw [hboot, hrec.flash]
      exact fun h => h.elim (fun h => h hload) (Nat.not_lt.2 hwhole)
    have hcheck : imageCheck (testAccess s) (testAccess s).flash.image = imageCheck s s.flash.image := by
      rw [imageCheck_fuse hrec.fuse, hrec.flash]
      rfl
    have hanswered := reply_stays (u := committed (imageCheck s s.flash.image) (testAccess s)) htaken hrec.sameMail hrec.mbx
      (by decide) (if imageCheck s s.flash.image = 0 then 0 else 3) (natBytes (imageCheck s s.flash.image) 1)
    rw [← hcheck] at hanswered
    refine completes_of_next rfl ((onTaken_taken htaken _).trans ((if_neg (by simp [hroom])).trans ((if_neg hlate).trans
      hanswered))) ⟨testAccess_audited hs hroom, hrec.flash, hrec.memory, ?_, ?_⟩ <;> rw [hcheck]
    · intro hpass
      exact ⟨(committed_boot _ hboot).trans (by rw [if_pos hpass]), by rw [hpass]; rfl⟩
    · intro hfail
      exact ⟨(committed_boot _ hboot).trans (by rw [if_neg hfail]), by rw [if_neg hfail]; rfl⟩
  case status =>
    intro htaken
    exact ⟨bootStatusBody s, congrArg Host.Outcome.next ((tuiner_serves htaken (formOf_none b) (by simp) _).trans
      (reply_at_once htaken (by decide) 0 _)), bootStatusBody_says s⟩
  case refused =>
    intro hf
    exact ⟨fun htaken => tuiner_turned hs rfl htaken (formOf_none b) hf (by decide),
      fun htaken => tuiner_turned hs rfl htaken (formOf_none b) hf (by decide),
      fun htaken hform => tuiner_turned hs rfl htaken (formOf_some hform) hf (by decide),
      fun htaken hform => tuiner_turned hs rfl htaken (formOf_some hform) hf (by decide)⟩
  case served =>
    intro hf
    have hlisted : true = true → f = 0 := fun _ => hf
    refine ⟨?force, ?list, ?noList, ?shutdown, ?config⟩
    case force =>
      intro htaken
      refine congrArg Host.Outcome.next ((tuiner_serves htaken (formOf_none b) hlisted _).trans ?_)
      exact reply_beside htaken (by decide)
    case list =>
      intro htaken hpages
      have hpagesOf := pagesOf_listed hpages
      refine ⟨fun hform => congrArg Host.Outcome.next ((tuiner_serves htaken (formOf_some hform) hlisted _).trans ?_),
        fun l hl => ⟨fun hform => congrArg Host.Outcome.next ((tuiner_serves htaken (formOf_some hform) hlisted _).trans ?_),
          fun hform => congrArg Host.Outcome.next ((tuiner_serves htaken (formOf_some hform) hlisted _).trans ?_)⟩⟩
      · rw [hpagesOf]
        exact reply_beside htaken (by decide)
      · rw [hl, hpagesOf]
        exact reply_beside htaken (by decide)
      · rw [hl, hpagesOf]
        exact reply_beside htaken (by decide)
    case noList =>
      intro htaken hnone
      have hrejected := reply_rejected hs htaken (by decide) 0x0B []
      refine ⟨fun hform => completes_of_next rfl (tuiner_serves htaken (formOf_some hform) hlisted _) ?_,
        fun hform => completes_of_next rfl (tuiner_serves htaken (formOf_some hform) hlisted _) ?_⟩
      · rw [hnone]
        exact congrArg State.mbx hrejected
      · rw [hnone]
        exact congrArg State.mbx hrejected
    case shutdown =>
      intro htaken
      have hmirror := wr_sameBut (s := saveSeconds s) hs pgEvr Reg.AUDIT_MIRRORED (rd s pgEvr Reg.AUDIT_NEXT) (by decide)
      have hanswered := reply_stays (u := shutDown (mirrorAudit (saveSeconds s))) htaken
        (hmirror.sameMail fun _ _ x => absurd x.1 (by decide)) rfl (show 0x0504 < 0x8000 by decide) 0 []
      exact completes_of_next rfl ((tuiner_serves htaken (formOf_none b) hlisted _).trans hanswered)
        ⟨rfl, rfl, rfl, rfl, rd_wr_same (s := saveSeconds s) hs _ _ _, ⟨rfl, rfl⟩⟩
    case config =>
      intro htaken
      refine ⟨fun hform => congrArg Host.Outcome.next ((tuiner_serves htaken (formOf_some hform) hlisted _).trans
          (reply_at_once htaken (by decide) 0 _)),
        fun hform hlegal => congrArg Host.Outcome.next ((tuiner_serves htaken (formOf_some hform) hlisted _).trans
          ((if_pos hlegal).trans ?_)),
        fun hform hillegal => congrArg Host.Outcome.next ((tuiner_serves htaken (formOf_some hform) hlisted _).trans
          ((if_neg (by rw [hillegal]; decide)).trans (reply_at_once htaken (by decide) 3 [])))⟩
      exact reply_beside htaken (by decide)

end Sys2Proof.Machine
end

section
/-!
SUPPORT. The commands of the mailboxes.
-/

namespace Sys2Proof.Machine

open Sys2Proof

/-! ### The states of a mailbox (R443, R444) -/

theorem pgMbx_ne_evr (sec : Bool) : pgMbx sec ≠ pgEvr := by cases sec <;> decide

theorem mbxStat_lt {f : Nat} (hf : f ≤ 16) : Reg.MBX_STAT f < 0x10000 := by simp only [Reg.MBX_STAT]; omega

theorem mbxStat_not_evt (sec : Bool) {f : Nat} : ¬ evtReg (pgMbx sec) (Reg.MBX_STAT f) :=
  not_evtReg_mailbox sec (by simp only [Reg.MBX_STAT]; omega)

/-- A mailbox enters a state. -/
theorem setMbxState {s : State} (h : s.canonical) (sec : Bool) {f : Nat} (hf : f ≤ 16) {st : Nat} (hst : st < 8) :
    mbxState (wf s (pgMbx sec) (Reg.MBX_STAT f) 0 3 st) sec f = st ∧
    SameBut (oneReg (pgMbx sec) (Reg.MBX_STAT f)) s (wf s (pgMbx sec) (Reg.MBX_STAT f) 0 3 st) :=
  ⟨(rf_wf_same h _ _ _ _ _ (by decide)).trans (Nat.mod_eq_of_lt hst), wf_sameBut h _ _ _ _ _ (mbxStat_lt hf)⟩

/-- A message becomes FULL under the port that sends it (R443, R446). -/
theorem fillMbx_full {s : State} (h : s.canonical) (sec : Bool) {f : Nat} (hf : f ≤ 16) (port : Bool) :
    mbxState (fillMbx s sec f port.toNat) sec f = 1 ∧ rb (fillMbx s sec f port.toNat) (pgMbx sec) (Reg.MBX_STAT f) 4 = port ∧
    SameBut (oneReg (pgMbx sec) (Reg.MBX_STAT f)) s (fillMbx s sec f port.toNat) := by
  obtain ⟨hstate, hsame⟩ := setMbxState h sec hf (show 1 < 8 by decide)
  have hcan : (wf s (pgMbx sec) (Reg.MBX_STAT f) 0 3 1).canonical := wf_canonical h
  exact ⟨(rf_wf_other hcan _ _ _ _ _ 0 3 (by decide) (by decide)).trans hstate,
    rb_wb_same hcan _ _ 4 port (by decide), hsame.trans' (wf_sameBut hcan _ _ _ _ _ (mbxStat_lt hf))⟩

/-- The word of MBX_STAT as a response is written: RESP_READY, the flags kept, the status and the code. -/
def respondedWord (st : Nat) (b : Bytes) : Word := w64 (3 + st / 8 % 8 * 8 + (leAt b 2 1) <<< 8 + (msgCode b) <<< 16)

theorem respondedWord_fields (st : Nat) (b : Bytes) :
    fld (respondedWord st b) 0 3 = 3 ∧ fld (respondedWord st b) 8 8 = leAt b 2 1 ∧
    fld (respondedWord st b) 16 16 = leAt b 0 2 := by
  have hstatus := leAt_lt b 2 1
  have hcode := leAt_lt b 0 2
  simp only [respondedWord, msgCode, fld, w64, BitVec.toNat_ofNat, Nat.shiftLeft_eq, Nat.shiftRight_eq_div_pow]
  omega

/-- The registers that a response is written to. -/
abbrev respReg (sec : Bool) (f q o : Nat) : Prop :=
  q = pgMbx sec ∧ (o = Reg.MBX_STAT f ∨ ∃ i, i < 32 ∧ o = Reg.RESP f i)

/-- The response is written, and its sender's event is set. -/
def respWritten (s : State) (sec : Bool) (f : Nat) (b : Bytes) : State :=
  let w := wrWords s (pgMbx sec) (Reg.RESP f 0) (bytesWords (fitBytes b 256) 32)
  raiseEvt (wr w (pgMbx sec) (Reg.MBX_STAT f) (respondedWord (rd w (pgMbx sec) (Reg.MBX_STAT f)).toNat b)) (pgMbx sec) f

/-- `t` is `s` but for messages sent and in-band interrupts that wait. -/
def Told (s t : State) : Prop := ∃ o ibis, s.out <+: o ∧ t = { s with out := o, i3c := { s.i3c with ibis := ibis } }

theorem Told.refl (s : State) : Told s s := ⟨s.out, s.i3c.ibis, List.prefix_refl _, rfl⟩

theorem Told.trans {s t u : State} (h : Told s t) (k : Told t u) : Told s u := by
  obtain ⟨o, i, ho, rfl⟩ := h
  obtain ⟨o', i', ho', rfl⟩ := k
  exact ⟨o', i', ho.trans ho', rfl⟩

theorem emit_told (s : State) (m : Out) : Told s (emit s m) := ⟨s.out ++ [m], s.i3c.ibis, List.prefix_append _ _, rfl⟩

theorem queueIbi_told (s : State) (b : Nat) : Told s (queueIbi s b) := by
  unfold queueIbi
  split
  · exact ⟨s.out, s.i3c.ibis ++ [BitVec.ofNat 8 b], List.prefix_refl _, rfl⟩
  · exact .refl s

theorem SameBut.told {q : Nat → Nat → Prop} {s t u : State} (h : SameBut q s t) (k : Told t u) :
    SameBut q { s with i3c := { s.i3c with ibis := u.i3c.ibis } } u := by
  obtain ⟨o, ibis, ho, rfl⟩ := k
  exact
    { regs := h.regs, rest := by rw [h.rest], pcie := h.pcie, cfg := h.cfg, board := h.board, evr := h.evr, err := h.err
      out := h.out.trans ho }

/-- A response leaves messages sent and an in-band interrupt that waits (R443, R446). -/
theorem respond'_told (s : State) (sec : Bool) (f : Nat) (b : Bytes) : Told (respWritten s sec f b) (respond' s sec f b) := by
  have hsent : Told (respWritten s sec f b)
      (if sec ∧ 0 < f then emit (respWritten s sec f b) (.spdm f (fitBytes b 256)) else respWritten s sec f b) := by
    split
    · exact emit_told _ _
    · exact .refl _
  unfold respond'
  extract_lets p w st port v r u
  split
  · exact hsent.trans (queueIbi_told _ _)
  · exact hsent

/-- A response is written to its mailbox, whose sender's event is set (R443). -/
theorem respWritten_answered {s : State} (h : s.canonical) (sec : Bool) {f : Nat} (hf : f ≤ 16) (b : Bytes) :
    let t := respWritten s sec f b
    mbxState t sec f = 3 ∧ (∀ i, i < 32 → rd t (pgMbx sec) (Reg.RESP f i) = w64 (leAt (fitBytes b 256) (8 * i) 8)) ∧
    rf t (pgMbx sec) (Reg.MBX_STAT f) 8 8 = leAt b 2 1 ∧ rf t (pgMbx sec) (Reg.MBX_STAT f) 16 16 = leAt b 0 2 ∧
    rb t (pgMbx sec) Reg.EVT_STAT f = true ∧ SameBut (respReg sec f) s t := by
  let w := wrWords s (pgMbx sec) (Reg.RESP f 0) (bytesWords (fitBytes b 256) 32)
  have hlen : (bytesWords (fitBytes b 256) 32).length = 32 := length_bytesWords _ _
  have hfits : Reg.RESP f 0 + 8 * (bytesWords (fitBytes b 256) 32).length ≤ 0x10000 := by
    rw [hlen]; simp only [Reg.RESP]; omega
  have hw : w.canonical := wrWords_canonical h
  have hwords : SameBut (respReg sec f) s w := (wrWords_sameBut h hfits).mono fun q o x => by
    obtain ⟨hq, i, hi, ho⟩ := x
    exact ⟨hq, .inr ⟨i, hlen ▸ hi, ho.trans (by simp only [Reg.RESP]; omega)⟩⟩
  obtain ⟨hstate, hstatus, hcode⟩ := respondedWord_fields (rd w (pgMbx sec) (Reg.MBX_STAT f)).toNat b
  let v := wr w (pgMbx sec) (Reg.MBX_STAT f) (respondedWord (rd w (pgMbx sec) (Reg.MBX_STAT f)).toNat b)
  have hv : v.canonical := wr_canonical hw
  have hstat : rd (raiseEvt v (pgMbx sec) f) (pgMbx sec) (Reg.MBX_STAT f) =
      respondedWord (rd w (pgMbx sec) (Reg.MBX_STAT f)).toNat b :=
    (rd_raiseEvt hv (mbxStat_lt hf) (mbxStat_not_evt sec)).trans (rd_wr_same hw _ _ _)
  refine ⟨(congrArg (fld · 0 3) hstat).trans hstate, fun i hi => ?_, (congrArg (fld · 8 8) hstat).trans hstatus,
    (congrArg (fld · 16 16) hstat).trans hcode, rb_raiseEvt_same hv (pgMbx_ne_evr sec) (by omega),
    (hwords.trans' ((wr_sameBut hw _ _ _ (mbxStat_lt hf)).mono fun _ _ x => ⟨x.1, .inl x.2⟩)).trans' (raiseEvt_sameBut hv _ _).none⟩
  have hresp : Reg.RESP f i < 0x10000 := by simp only [Reg.RESP]; omega
  refine (rd_raiseEvt hv hresp (not_evtReg_mailbox sec (by simp only [Reg.RESP]; omega))).trans ?_
  refine (rd_wr_other hw _ (mbxStat_lt hf) hresp fun x => ?_).trans ?_
  · simp only [Reg.RESP, Reg.MBX_STAT] at x
    omega
  · exact (rd_wrWords_same h hfits (hlen.symm ▸ hi)).trans (getD_bytesWords _ hi)

/-- What the statement calls an answered mailbox: the response stands in its registers, and its sender's event is set. -/
abbrev Answered (sec : Bool) (f : Nat) (b : Bytes) (t : State) : Prop :=
  mbxState t sec f = 3 ∧ (∀ i, i < 32 → rd t (pgMbx sec) (Reg.RESP f i) = w64 (leAt b (8 * i) 8)) ∧
  rf t (pgMbx sec) (Reg.MBX_STAT f) 8 8 = leAt b 2 1 ∧ rf t (pgMbx sec) (Reg.MBX_STAT f) 16 16 = leAt b 0 2 ∧
  rb t (pgMbx sec) Reg.EVT_STAT f = true

theorem respond'_answered {s : State} (h : s.canonical) (sec : Bool) {f : Nat} (hf : f ≤ 16) (b : Bytes) :
    Answered sec f (fitBytes b 256) (respond' s sec f b) ∧ (respond' s sec f b).mbx = s.mbx := by
  obtain ⟨hstate, hwords, hstatus, hcode, hevent, hsame⟩ := respWritten_answered h sec hf b
  have hmbx : (respWritten s sec f b).mbx = s.mbx := by rw [hsame.rest]
  obtain ⟨o, ibis, -, heq⟩ := respond'_told s sec f b
  rw [heq, Answered, leAt_fitBytes b (by decide), leAt_fitBytes b (by decide)]
  exact ⟨⟨hstate, hwords, hstatus, hcode, hevent⟩, hmbx⟩

/-- Beside its mailbox a response leaves what waits for the I3C port alone. -/
theorem respond'_sameBut {q : Nat → Nat → Prop} {s u : State} (h : s.canonical) (sec : Bool) {f : Nat} (hf : f ≤ 16) (b : Bytes)
    (hu : SameBut q u s) (hq : ∀ p o, respReg sec f p o → q p o) :
    SameBut q { u with i3c := { u.i3c with ibis := (respond' s sec f b).i3c.ibis } } (respond' s sec f b) := by
  obtain ⟨-, -, -, -, -, hsame⟩ := respWritten_answered h sec hf b
  exact (hu.trans' (hsame.mono hq)).told (respond'_told s sec f b)

/-- An event that is set stays so as a response is written. -/
theorem respond'_event {s : State} (h : s.canonical) (sec : Bool) {f : Nat} (hf : f ≤ 16) (b : Bytes) {i : Nat} (hi : i < 64)
    (hset : rb s (pgMbx sec) Reg.EVT_STAT i = true) : rb (respond' s sec f b) (pgMbx sec) Reg.EVT_STAT i = true := by
  obtain ⟨o, ibis, -, heq⟩ := respond'_told s sec f b
  rw [heq]
  have hlen : (bytesWords (fitBytes b 256) 32).length = 32 := length_bytesWords _ _
  have hw : (wrWords s (pgMbx sec) (Reg.RESP f 0) (bytesWords (fitBytes b 256) 32)).canonical := wrWords_canonical h
  refine rb_raiseEvt_stays (wr_canonical hw) f (pgMbx_ne_evr sec) hi ?_
  refine (congrArg (bit · i) ?_).trans hset
  refine (rd_wr_other hw _ (mbxStat_lt hf) (by decide) ?_).trans (rd_wrWords_other h ?_ (by decide) ?_)
  · simp only [Reg.MBX_STAT, Reg.EVT_STAT]; omega
  · rw [hlen]; simp only [Reg.RESP]; omega
  · rintro ⟨-, j, -, hat⟩
    simp only [Reg.RESP, Reg.EVT_STAT] at hat
    omega

/-- The registers that an answer is written to, or counted in as a rejection. -/
abbrev answerReg (sec : Bool) (f q o : Nat) : Prop :=
  q = pgMbx sec ∧ (o = Reg.MBX_STAT f ∨ o = Reg.REJECT_COUNT ∨ ∃ i, i < 32 ∧ o = Reg.RESP f i)

theorem respReg_answers {sec : Bool} {f : Nat} (q o : Nat) (h : respReg sec f q o) : answerReg sec f q o :=
  ⟨h.1, h.2.imp_right .inr⟩

theorem respReg_not_reject (sec : Bool) (f : Nat) : ¬ respReg sec f (pgMbx sec) Reg.REJECT_COUNT := by
  rintro ⟨-, h | ⟨i, -, h⟩⟩
  · simp only [Reg.REJECT_COUNT, Reg.MBX_STAT] at h
    omega
  · simp only [Reg.REJECT_COUNT, Reg.RESP] at h
    omega

/-- Before it is answered, a command that its sender may not give is counted as a rejection (R4). -/
theorem refused_counted {s : State} (h : s.canonical) (sec : Bool) (f st : Nat) :
    let u := if st = 0xF then reject s (pgMbx sec) else s
    u.canonical ∧ SameBut (answerReg sec f) s u ∧
    rd u (pgMbx sec) Reg.REJECT_COUNT = rd s (pgMbx sec) Reg.REJECT_COUNT + (if st = 0xF then 1 else 0) ∧
    (st = 0xF → rb u (pgMbx sec) Reg.EVT_STAT 63 = true) := by
  by_cases hst : st = 0xF
  · simp only [if_pos hst]
    exact ⟨reject_canonical h, (reject_sameBut h _).mono fun _ _ x => ⟨x.1, .inr (.inl x.2)⟩, rd_reject_count h _,
      fun _ => rb_raiseEvt_same (addReg_canonical h) (pgMbx_ne_evr sec) (by decide)⟩
  · simp only [if_neg hst]
    exact ⟨h, .refl _ _, (BitVec.add_zero _).symm, fun x => absurd x hst⟩

/-! ### The statement -/

/-- Settles O54: each command of a mailbox moves it on from the state in which it acts. -/
theorem mailboxesPassThroughTheirStates : Obligations.MailboxesPassThroughTheirStates := by
  intro fn sec s hs hfn p answered
  refine ⟨fun hw => ⟨fun hown hidle => ?send, fun hready => ?ack⟩, fun hreceives hfull => ?take,
    fun htaken => ⟨fun m hm hlen => ?response, fun st hnone hrefused => ?refusal⟩, fun hfull => ?timeout⟩
  case send =>
    obtain ⟨hstate, hport, hsame⟩ := fillMbx_full hs sec hfn false
    have hlegal : (!(sec && decide (fn ≠ 0)) && decide (mbxState s sec fn = 0)) = true := by
      cases hsec : sec <;> simp_all
    exact completes_of_next rfl ((if_pos hfn).trans ((withWrite_accepted hw _).trans (guarded_accepted hlegal _)))
      ⟨hstate, hport, hsame⟩
  case ack =>
    obtain ⟨hstate, hsame⟩ := setMbxState hs sec hfn (show 0 < 8 by decide)
    exact completes_of_next rfl ((if_pos hfn).trans ((withWrite_accepted hw _).trans
      (guarded_accepted (decide_eq_true hready) _))) ⟨hstate, hsame⟩
  case take =>
    obtain ⟨hstate, hsame⟩ := setMbxState hs sec hfn (show 2 < 8 by decide)
    exact completes_of_next rfl (if_pos ⟨hfn, hreceives, hfull⟩) ⟨hstate, hsame⟩
  case response =>
    let u : State := { s with mbx := s.mbx.filter fun q => !(decide (q.sec = sec) && decide (q.fn = fn)) }
    have hfit : fitBytes m.bytes 256 = m.bytes := fitBytes_self hlen
    have hsame := respond'_sameBut (s := u) hs sec hfn m.bytes (SameBut.refl (respReg sec fn) u) fun _ _ h => h
    obtain ⟨⟨hstate, hwords, hstatus, hcode, hevent⟩, hmbx⟩ := respond'_answered (s := u) hs sec hfn m.bytes
    rw [hfit] at hwords hstatus hcode
    refine completes_of_next (u := respond' u sec fn m.bytes) ?_ rfl
      ⟨⟨hstate, hwords, hstatus, hcode, hevent, ?_⟩, hsame.rd_eq (by decide) ?_ ?_, hmbx⟩
    · simp only [exec, execMbxResponse, hm]
      exact congrArg Host.Outcome.next (if_pos htaken)
    · rw [hmbx]
      exact hsame.mono respReg_answers
    · exact not_evtReg (by decide)
    · exact respReg_not_reject sec fn
  case refusal =>
    let b := natBytes (msgCode (reqBytes s sec fn) % 0x8000 + 0x8000) 2 ++ [BitVec.ofNat 8 st]
    let u : State := if st = 0xF then reject s p else s
    have hu : u.canonical ∧ SameBut (answerReg sec fn) s u ∧
        rd u p Reg.REJECT_COUNT = rd s p Reg.REJECT_COUNT + (if st = 0xF then 1 else 0) ∧
        (st = 0xF → rb u p Reg.EVT_STAT 63 = true) := refused_counted hs sec fn st
    obtain ⟨hcan, hkept, hcount, hevent63⟩ := hu
    have hsame := respond'_sameBut hcan sec hfn b hkept respReg_answers
    have hrest := respond'_sameBut hcan sec hfn b (SameBut.refl (respReg sec fn) u) fun _ _ h => h
    obtain ⟨⟨hstate, hwords, hstatus, hcode, hevent⟩, hmbx⟩ := respond'_answered hcan sec hfn b
    have hmbx' : (respond' u sec fn b).mbx = s.mbx := hmbx.trans (by rw [hkept.rest])
    refine completes_of_next (u := respond' u sec fn b) ?_ rfl
      ⟨(hrest.rd_eq (by decide) (not_evtReg (by decide)) (respReg_not_reject sec fn)).trans hcount,
        fun hst => respond'_event hcan sec hfn b (by decide) (hevent63 hst),
        ⟨hstate, hwords, hstatus, hcode, hevent, ?_⟩, hmbx'⟩
    · simp only [exec, execMbxResponse, hnone]
      rw [if_pos ⟨hfn, htaken⟩, hrefused]
    · rw [hmbx']
      exact hsame
  case timeout =>
    obtain ⟨hstate, hsame⟩ := setMbxState hs sec hfn (show 0 < 8 by decide)
    have hcan : (wf s p (Reg.MBX_STAT fn) 0 3 0).canonical := wf_canonical hs
    have hmarked : (wb (wf s p (Reg.MBX_STAT fn) 0 3 0) p (Reg.MBX_STAT fn) 5 true).canonical := wb_canonical hcan
    have hstat := rd_raiseEvt (p := p) (b := 17 + fn) hmarked (mbxStat_lt hfn) (mbxStat_not_evt sec)
    refine completes_of_next rfl (if_pos ⟨hfn, hfull⟩) ⟨?_, ?_, rb_raiseEvt_same hmarked (pgMbx_ne_evr sec) (by omega),
      (hsame.trans' (wb_sameBut hcan _ _ _ _ (mbxStat_lt hfn))).trans' (raiseEvt_sameBut hmarked _ _).none⟩
    · exact (congrArg (fld · 0 3) hstat).trans ((rf_wf_other hcan _ _ _ _ _ 0 3 (by decide) (by decide)).trans hstate)
    · exact (congrArg (bit · 5) hstat).trans (rb_wb_same hcan _ _ _ _ (by decide))

end Sys2Proof.Machine
end

section
/-!
SUPPORT. The private reads of the I3C target, and what its tables say.
-/

namespace Sys2Proof.Machine

open Sys2Proof

/-! ### Bits of masks -/

/-- A mask of the numbers below `n` that are chosen shows each of its bits. -/
theorem testBit_maskOf_filter (f : Nat → Bool) {n i : Nat} (hi : i < n) :
    (maskOf ((List.range n).filter f)).testBit i = f i := by
  have h : (maskOf ((List.range n).filter f)).testBit i = decide (i ∈ (List.range n).filter f) := by
    simp [maskOf, testBit_foldl_setBit]
  rw [h]
  simp [hi]

theorem maskOf_filter_lt (f : Nat → Bool) (n : Nat) : maskOf ((List.range n).filter f) < 2 ^ n := by
  refine Nat.lt_pow_two_of_testBit _ fun i hi => ?_
  rw [Bool.eq_false_iff]
  intro h
  have hmem := (List.mem_filter.1 (mem_of_testBit_maskOf h)).1
  exact absurd (List.mem_range.1 hmem) (Nat.not_lt.2 hi)

/-! ### A private write or read of the target (R438, R441) -/

/-- A command byte and what follows it are counted, and nothing else in the registers moves. -/
theorem rd_i3cWrite_other {s : State} (h : s.canonical) (c : Byte) (n : Nat) {p o : Nat} (ho : o < 0x10000)
    (hne : ¬(p = pgI3c ∧ o = Reg.I3C_RX_BYTES)) : rd (i3cWrite s c n) p o = rd s p o :=
  rd_wr_other (s := { s with i3c := { s.i3c with last := some c } }) h _ (by decide) ho hne

theorem i3cWrite_canonical {s : State} (h : s.canonical) {c : Byte} {n : Nat} : (i3cWrite s c n).canonical :=
  addReg_canonical (s := { s with i3c := { s.i3c with last := some c } }) h

theorem i3cWrite_says {s : State} (h : s.canonical) (c : Byte) (n : Nat) :
    rd (i3cWrite s c n) pgI3c Reg.I3C_RX_BYTES = rd s pgI3c Reg.I3C_RX_BYTES + w64 (1 + n) ∧
    SameBut (oneReg pgI3c Reg.I3C_RX_BYTES) { s with i3c := { s.i3c with last := some c } } (i3cWrite s c n) :=
  ⟨rd_wr_same (s := { s with i3c := { s.i3c with last := some c } }) h _ _ _,
    addReg_sameBut (s := { s with i3c := { s.i3c with last := some c } }) h _ _ _ (by decide)⟩

/-- A command to a target with an address is written, and takes effect then. -/
theorem i3cCommand_taken {s : State} (h : i3cAddr s = true) (c : Byte) (n : Nat) (k : State → State) :
    i3cCommand s c n k = k (i3cWrite s c n) := if_pos h

/-- What a read sends, cut to the maximum read length, and counts (R435, R441). -/
theorem i3cSend_says {s : State} (h : s.canonical) (b : Bytes) :
    (i3cSend s b).out = s.out ++ [.i3c (b.take s.i3c.mrl)] ∧
    rd (i3cSend s b) pgI3c Reg.I3C_TX_BYTES = rd s pgI3c Reg.I3C_TX_BYTES + w64 (min s.i3c.mrl b.length) ∧
    SameBut (oneReg pgI3c Reg.I3C_TX_BYTES) { s with out := (i3cSend s b).out } (i3cSend s b) := by
  let u := emit s (.i3c (b.take s.i3c.mrl))
  refine ⟨rfl, ?_, addReg_sameBut (s := u) h _ _ _ (by decide)⟩
  exact (rd_wr_same (s := u) h _ _ _).trans (by rw [List.length_take]; rfl)

/-- The mailbox's answer that the I3C port may read is there whatever the target counts. -/
theorem i3cResponse_written {s : State} (h : s.canonical) (c : Byte) (n : Nat) :
    i3cResponse (i3cWrite s c n) = i3cResponse s := by
  have hstat : rd (i3cWrite s c n) (pgMbx true) (Reg.MBX_STAT 0) = rd s (pgMbx true) (Reg.MBX_STAT 0) :=
    rd_i3cWrite_other h c n (by decide) (by decide)
  rw [i3cResponse, i3cResponse, mbxState, mbxState, rf, rf, rb, rb, hstat]

/-- The tables that the reads show do not depend on what the target counts. -/
theorem i3cData_written {s : State} (h : s.canonical) (c : Byte) (n : Nat) (d : Byte) :
    i3cData (i3cWrite s c n) d = i3cData s d := by
  have hrd : ∀ p o, o < 0x10000 → p ≠ pgI3c → rd (i3cWrite s c n) p o = rd s p o :=
    fun p o ho hp => rd_i3cWrite_other h c n ho fun x => hp x.1
  have hrf : ∀ p o lo n', o < 0x10000 → p ≠ pgI3c → rf (i3cWrite s c n) p o lo n' = rf s p o lo n' :=
    fun p o lo n' ho hp => congrArg (fld · lo n') (hrd p o ho hp)
  have hrb : ∀ p o i, o < 0x10000 → p ≠ pgI3c → rb (i3cWrite s c n) p o i = rb s p o i :=
    fun p o i ho hp => congrArg (bit · i) (hrd p o ho hp)
  have hseal : sealHeld (i3cWrite s c n) = sealHeld s := 
    funext fun k => hrb _ _ 4 (by decide) (by simp only [pgPart, pgI3c]; omega)
  have hcoll : collUsed (i3cWrite s c n) = collUsed s := List.countP_congr fun i hi => by
    have := List.mem_range.1 hi
    rw [hrb pgErr _ 63 (by simp only [Reg.COLL]; omega) (by decide)]
  have htemp : ∀ m, rf (i3cWrite s c n) (pgMc m) Reg.MC_TEMP 0 8 = rf s (pgMc m) Reg.MC_TEMP 0 8 := fun m =>
    hrf _ _ 0 8 (by decide) (by simp only [pgMc, pgI3c]; omega)
  have hhot : hottestMc (i3cWrite s c n) = hottestMc s := by simp only [hottestMc, htemp]
  have hstatus : statusBytes (i3cWrite s c n) = statusBytes s := by
    simp only [statusBytes, hseal, hcoll, hrf pgLc Reg.LC_STATE _ _ (by decide) (by decide),
      hrb pgErr Reg.EVT_STAT _ (by decide) (by decide), hrb pgErr Reg.COLL_STAT _ (by decide) (by decide),
      hrb pgPwr Reg.PWR_STAT _ (by decide) (by decide), hrf pgErr Reg.RESET_CAUSE _ _ (by decide) (by decide)]
    rfl
  have hthermal : thermalBytes (i3cWrite s c n) = thermalBytes s := by
    simp only [thermalBytes, hhot, htemp, hrf pgPwr Reg.THERM_STAT _ _ (by decide) (by decide)]
  have hpower : powerBytes (i3cWrite s c n) = powerBytes s := by
    have hsite : (List.range 4).flatMap (fun t => natBytes (rf (i3cWrite s c n) pgPwr (Reg.SITE_PWR t) 0 16) 2) =
        (List.range 4).flatMap fun t => natBytes (rf s pgPwr (Reg.SITE_PWR t) 0 16) 2 :=
      List.flatMap_congr fun t ht => by
        have := List.mem_range.1 ht
        rw [hrf pgPwr _ _ _ (by simp only [Reg.SITE_PWR]; omega) (by decide)]
    simp only [powerBytes, hsite, hrf pgPwr Reg.PWR_MEAS _ _ (by decide) (by decide),
      hrf pgPwr Reg.HBM_PWR _ _ (by decide) (by decide)]
  have hresp : (List.range 32).flatMap (fun i => wordBytes (rd (i3cWrite s c n) (pgMbx true) (Reg.RESP 0 i))) =
      (List.range 32).flatMap fun i => wordBytes (rd s (pgMbx true) (Reg.RESP 0 i)) := by
    refine List.flatMap_congr fun i hi => congrArg wordBytes (hrd _ _ ?_ (by decide))
    have := List.mem_range.1 hi
    simp only [Reg.RESP]; omega
  simp only [i3cData, hstatus, hthermal, hpower, hresp, i3cResponse_written h, hrd (pgMbx true) (Reg.MBX_STAT 0) (by decide) (by decide)]
  rfl

/-! ### What the tables say (R438, R439, R470) -/

theorem length_flatMap_natBytes (f : Nat → Nat) (w n : Nat) :
    ((List.range n).flatMap fun i => natBytes (f i) w).length = w * n := by
  induction n with
  | zero => rfl
  | succ n ih => rw [List.range_succ, List.flatMap_append, List.length_append, ih]; simp [length_natBytes, Nat.mul_succ]

/-- Element `i` of numbers of `w` bytes laid out one after another. -/
theorem leAt_flatMap_natBytes (f : Nat → Nat) (w : Nat) {n i : Nat} (hi : i < n) :
    leAt ((List.range n).flatMap fun i => natBytes (f i) w) (w * i) w = f i % 256 ^ w := by
  induction n with
  | zero => exact absurd hi (Nat.not_lt_zero i)
  | succ n ih =>
    have hlen := length_flatMap_natBytes f w n
    rw [List.range_succ, List.flatMap_append]
    rcases Nat.lt_succ_iff_lt_or_eq.1 hi with h | rfl
    · have hmul : w * i + w ≤ w * n := Nat.mul_succ w i ▸ Nat.mul_le_mul_left w h
      rw [leAt_append_left (hlen.symm ▸ hmul), ih h]
    · rw [leAt_append_right hlen.le, hlen, Nat.sub_self, List.flatMap_singleton, leAt_natBytes]

theorem rf_lt (s : State) (p o lo n : Nat) : rf s p o lo n < 2 ^ n := Nat.mod_lt _ (Nat.two_pow_pos n)

theorem testBit_flagByte (l : List Bool) {i : Nat} (hi : i < l.length) : (flagByte l).testBit i = l.getD i false :=
  testBit_maskOf_filter _ hi

theorem flagByte_lt (l : List Bool) : flagByte l < 2 ^ l.length := maskOf_filter_lt _ _

theorem collUsed_le (s : State) : collUsed s ≤ 256 :=
  List.countP_le_length.trans (List.length_range (n := 256)).le

theorem statusBytes_says (s : State) :
    let b := statusBytes s
    b.length = 16 ∧ leAt b 0 1 = lcState s % 256 ∧ leAt b 1 1 = rf s pgLc Reg.LC_STATE 8 1 ∧
      (∀ k, k < 16 → (leAt b 2 2).testBit k = sealHeld s k) ∧ leAt b 4 2 = collUsed s ∧
      (leAt b 6 1).testBit 0 = rb s pgErr Reg.EVT_STAT 5 ∧ (leAt b 6 1).testBit 1 = rb s pgErr Reg.COLL_STAT 16 ∧
      (leAt b 6 1).testBit 2 = rb s pgPwr Reg.PWR_STAT 0 ∧ (leAt b 6 1).testBit 3 = s.board.thermtrip ∧
      leAt b 7 1 = rf s pgErr Reg.RESET_CAUSE 0 4 ∧ leAt b 8 1 = fld (devIdent s) 0 8 ∧ leAt b 9 1 = phaseCode s ∧
      leAt b 10 6 = 0 := by
  let flags := [rb s pgErr Reg.EVT_STAT 5, rb s pgErr Reg.COLL_STAT 16, rb s pgPwr Reg.PWR_STAT 0, s.board.thermtrip]
  have hflags : flagByte flags % 256 = flagByte flags := Nat.mod_eq_of_lt ((flagByte_lt flags).trans (show 2 ^ 4 < 256 by decide))
  have hseals : maskOf ((List.range 16).filter (sealHeld s)) % 65536 = maskOf ((List.range 16).filter (sealHeld s)) :=
    Nat.mod_eq_of_lt (maskOf_filter_lt _ 16)
  have hlc := rf_lt s pgLc Reg.LC_STATE 8 1
  have hcause := rf_lt s pgErr Reg.RESET_CAUSE 0 4
  have hident : fld (devIdent s) 0 8 < 256 := Nat.mod_lt _ (by decide)
  have hcoll := collUsed_le s
  have hphase := phaseCode_lt s
  simp only [statusBytes, leAt_append_left, leAt_append_right, List.length_append, length_natBytes, length_zeroBytes,
    leAt_natBytes, leAt_zeroBytes, Nat.reduceAdd, Nat.reduceLeDiff, Nat.reduceSub, Nat.reducePow, le_refl, true_and, and_true]
  rw [hflags, hseals]
  refine ⟨by omega, fun k hk => testBit_maskOf_filter _ hk, by omega, testBit_flagByte flags (show 0 < 4 by decide),
    testBit_flagByte flags (show 1 < 4 by decide), testBit_flagByte flags (show 2 < 4 by decide),
    testBit_flagByte flags (show 3 < 4 by decide), by omega, by omega, by omega⟩

/-- A scan that keeps the first of the greatest ends at one that nothing scanned exceeds. -/
theorem foldl_greatest (f : Nat → Int) (l : List Nat) (b : Nat) :
    let r := l.foldl (fun b m => if f b < f m then m else b) b
    (r = b ∨ r ∈ l) ∧ f b ≤ f r ∧ ∀ m ∈ l, f m ≤ f r := by
  induction l generalizing b with
  | nil => exact ⟨.inl rfl, le_refl _, fun _ h => nomatch h⟩
  | cons a l ih =>
    obtain ⟨hfrom, hstart, hall⟩ := ih (if f b < f a then a else b)
    rw [List.foldl_cons]
    refine ⟨?_, ?_, List.forall_mem_cons.2 ⟨?_, hall⟩⟩
    · rcases hfrom with h | h
      · rw [h]
        split
        · exact .inr List.mem_cons_self
        · exact .inl rfl
      · exact .inr (List.mem_cons_of_mem a h)
    · exact le_trans (by split <;> omega) hstart
    · exact le_trans (by split <;> omega) hstart

/-- The hottest controller is one of the eight, and none reads higher (R439). -/
theorem hottestMc_says (s : State) :
    hottestMc s < 8 ∧ ∀ m, m < 8 → sByte (rf s (pgMc m) Reg.MC_TEMP 0 8) ≤ sByte (rf s (pgMc (hottestMc s)) Reg.MC_TEMP 0 8) := by
  obtain ⟨hfrom, -, hall⟩ := foldl_greatest (fun m => sByte (rf s (pgMc m) Reg.MC_TEMP 0 8)) (List.range 8) 0
  refine ⟨?_, fun m hm => hall m (List.mem_range.2 hm)⟩
  rcases hfrom with h | h
  · exact (show hottestMc s = 0 from h) ▸ (by decide)
  · exact List.mem_range.1 h

theorem thermalBytes_says (s : State) :
    let b := thermalBytes s
    b.length = 8 ∧ leAt b 0 1 = rf s pgPwr Reg.THERM_STAT 0 8 ∧ leAt b 1 1 = rf s pgPwr Reg.THERM_STAT 8 7 ∧
      leAt b 2 1 = rf s pgPwr Reg.THERM_STAT 16 4 ∧ leAt b 3 1 = rf s pgPwr Reg.THERM_STAT 24 7 ∧
      leAt b 4 1 = rf s (pgMc (leAt b 5 1)) Reg.MC_TEMP 0 8 ∧ leAt b 5 1 < 8 ∧
      (∀ m, m < 8 → sByte (rf s (pgMc m) Reg.MC_TEMP 0 8) ≤ sByte (leAt b 4 1)) ∧ leAt b 6 2 = 0 := by
  obtain ⟨hlt, hmost⟩ := hottestMc_says s
  have h0 := rf_lt s pgPwr Reg.THERM_STAT 0 8
  have h1 := rf_lt s pgPwr Reg.THERM_STAT 8 7
  have h2 := rf_lt s pgPwr Reg.THERM_STAT 16 4
  have h3 := rf_lt s pgPwr Reg.THERM_STAT 24 7
  have htemp : rf s (pgMc (hottestMc s)) Reg.MC_TEMP 0 8 % 256 = rf s (pgMc (hottestMc s)) Reg.MC_TEMP 0 8 :=
    Nat.mod_eq_of_lt (rf_lt _ _ _ _ _)
  have hmc : hottestMc s % 256 = hottestMc s := Nat.mod_eq_of_lt (hlt.trans (by decide))
  simp only [thermalBytes, leAt_append_left, leAt_append_right, List.length_append, length_natBytes, length_zeroBytes,
    leAt_natBytes, leAt_zeroBytes, Nat.reduceAdd, Nat.reduceLeDiff, Nat.reduceSub, Nat.reducePow, le_refl, true_and, and_true, hmc, htemp]
  exact ⟨by omega, by omega, by omega, by omega, hlt, hmost⟩

theorem powerBytes_says (s : State) :
    let b := powerBytes s
    b.length = 16 ∧ leAt b 0 2 = rf s pgPwr Reg.PWR_MEAS 0 16 ∧ leAt b 2 2 = rf s pgPwr Reg.HBM_PWR 0 16 ∧
      (∀ i, i < 4 → leAt b (4 + 2 * i) 2 = rf s pgPwr (Reg.SITE_PWR i) 0 16) ∧ leAt b 12 4 = 0 := by
  have h0 := rf_lt s pgPwr Reg.PWR_MEAS 0 16
  have h1 := rf_lt s pgPwr Reg.HBM_PWR 0 16
  have hlen := length_flatMap_natBytes (fun t => rf s pgPwr (Reg.SITE_PWR t) 0 16) 2 4
  refine ⟨?_, ?_, ?_, fun i hi => ?_, ?_⟩
  · simp only [powerBytes, List.length_append, length_natBytes, length_zeroBytes, hlen]
  · simp only [powerBytes, leAt_append_left, List.length_append, length_natBytes, hlen, leAt_natBytes, Nat.reduceAdd, Nat.reduceMul,
      Nat.reduceLeDiff, Nat.reducePow]
    omega
  · simp only [powerBytes, leAt_append_left, leAt_append_right, List.length_append, length_natBytes, hlen, leAt_natBytes, Nat.reduceAdd, Nat.reduceMul,
      Nat.reduceLeDiff, Nat.reducePow, Nat.reduceSub, le_refl]
    omega
  · rw [powerBytes, leAt_append_left, leAt_append_right, List.length_append, length_natBytes, length_natBytes, Nat.add_sub_cancel_left,
      leAt_flatMap_natBytes _ 2 hi]
    · exact Nat.mod_eq_of_lt (rf_lt _ _ _ _ _)
    · simp only [List.length_append, length_natBytes]; omega
    · simp only [List.length_append, length_natBytes, hlen]; omega
  · simp only [powerBytes, leAt_append_right, List.length_append, length_natBytes, hlen, Nat.reduceAdd, Nat.reduceMul, leAt_zeroBytes, le_refl]

theorem recBytes_says (s : State) :
    let b := recBytes s
    b.length = 16 ∧ (s.boot.phase = .recovery → leAt b 0 1 = 1) ∧ (s.boot.phase ≠ .recovery → leAt b 0 1 = 0) ∧
      leAt b 1 1 = s.boot.cause % 256 ∧ leAt b 2 1 = s.boot.loadState % 256 ∧ leAt b 3 1 = 0 ∧
      leAt b 4 4 = (if s.boot.loadState = 0 then 0 else s.flash.image.length % 2 ^ 32) ∧ leAt b 8 8 = (devIdent s).toNat := by
  have hzero : leAt ([0] : Bytes) 0 1 = 0 := by decide
  simp only [recBytes, leAt_append_left, leAt_append_right, List.length_append, length_natBytes, length_wordBytes,
    List.length_singleton, leAt_natBytes, leAt_wordBytes, hzero, Nat.reduceAdd, Nat.reduceLeDiff, Nat.reduceSub, Nat.reducePow,
    le_refl, true_and, and_true, ne_eq, decide_eq_true_eq]
  refine ⟨fun h => by rw [if_pos h], fun h => by rw [if_neg h], ?_⟩
  split <;> rfl

/-! ### The statement -/

/-- A command that reads answers from its table, and counts what it takes and sends (R438, R441). -/
theorem i3cRead_says {s : State} (h : s.canonical) (haddr : i3cAddr s = true) (c : Byte) {ins : Instr}
    (hins : exec ins s = .next (i3cRead s c)) {P : Bytes → Prop} (hP : P (i3cData s c)) :
    Completes ins s fun t =>
      ∃ b, P b ∧ t.out = s.out ++ [.i3c (b.take s.i3c.mrl)] ∧ t.i3c = { s.i3c with last := some c } ∧
        rd t pgI3c Reg.I3C_RX_BYTES = rd s pgI3c Reg.I3C_RX_BYTES + w64 1 ∧
        rd t pgI3c Reg.I3C_TX_BYTES = rd s pgI3c Reg.I3C_TX_BYTES + w64 (min s.i3c.mrl b.length) ∧
        SameBut (fun q o => q = pgI3c ∧ (o = Reg.I3C_RX_BYTES ∨ o = Reg.I3C_TX_BYTES))
          { s with i3c := { s.i3c with last := some c }, out := t.out } t := by
  have hw : (i3cWrite s c 0).canonical := i3cWrite_canonical h
  obtain ⟨hrx, hwritten⟩ := i3cWrite_says h c 0
  obtain ⟨hout, htx, hsent⟩ := i3cSend_says hw (i3cData s c)
  refine completes_of_next hins ((i3cCommand_taken haddr c 0 _).trans (congrArg _ (i3cData_written h c 0 c)))
    ⟨i3cData s c, hP, hout, rfl, (hsent.rd_eq (by decide) (not_evtReg (by decide)) (by decide)).trans hrx, ?_, ?_⟩
  · rw [htx, rd_i3cWrite_other h c 0 (by decide) (by decide)]
    rfl
  · let u : State := { s with i3c := { s.i3c with last := some c }, out := s.out ++ [.i3c ((i3cData s c).take s.i3c.mrl)] }
    have hcounted : SameBut (oneReg pgI3c Reg.I3C_RX_BYTES) u (addReg u pgI3c Reg.I3C_RX_BYTES 1) :=
      addReg_sameBut (s := u) h _ _ _ (by decide)
    exact (hcounted.mono fun _ _ x => ⟨x.1, .inl x.2⟩).trans' (hsent.mono fun _ _ x => ⟨x.1, .inr x.2⟩)

/-- A read by itself answers, and counts what it sends alone (R438). -/
theorem i3cSend_completes {s : State} (h : s.canonical) {last : Option Byte} (hlast : s.i3c.last = last) {b : Bytes}
    {ins : Instr} (hins : exec ins s = .next (i3cSend s b)) {P : Bytes → Prop} (hP : P b) :
    Completes ins s fun t =>
      ∃ b, P b ∧ t.out = s.out ++ [.i3c (b.take s.i3c.mrl)] ∧ t.i3c = { s.i3c with last := last } ∧
        rd t pgI3c Reg.I3C_RX_BYTES = rd s pgI3c Reg.I3C_RX_BYTES + w64 0 ∧
        rd t pgI3c Reg.I3C_TX_BYTES = rd s pgI3c Reg.I3C_TX_BYTES + w64 (min s.i3c.mrl b.length) ∧
        SameBut (fun q o => q = pgI3c ∧ (o = Reg.I3C_RX_BYTES ∨ o = Reg.I3C_TX_BYTES))
          { s with i3c := { s.i3c with last := last }, out := t.out } t := by
  obtain ⟨hout, htx, hsent⟩ := i3cSend_says h b
  subst hlast
  exact ⟨_, hins, b, hP, hout, rfl, (hsent.rd_eq (by decide) (not_evtReg (by decide)) (by decide)).trans (BitVec.add_zero _).symm,
    htx, hsent.mono fun _ _ x => ⟨x.1, .inr x.2⟩⟩

/-- The response that the I3C port may read. -/
theorem i3cResponse_iff {s : State} : i3cResponse s = true ↔ mbxState s true 0 = 3 ∧ rb s (pgMbx true) (Reg.MBX_STAT 0) 4 = true := by
  rw [i3cResponse, Bool.and_eq_true, decide_eq_true_eq]

/-- A code that no command of R438 and R470 has answers 0xFF. -/
theorem i3cData_unlisted {s : State} {c : Byte} (h : i3cListed c = false) : i3cData s c = [0xFF] := by
  simp only [i3cListed, Bool.or_eq_false_iff, decide_eq_false_iff_not] at h
  obtain ⟨⟨⟨⟨⟨⟨⟨⟨⟨⟨h1, h2⟩, h3⟩, h4⟩, -⟩, -⟩, h12⟩, h13⟩, -⟩, h20⟩, -⟩ := h
  rw [i3cData, if_neg h1, if_neg h2, if_neg h3, if_neg h4, if_neg h12, if_neg h13, if_neg h20]

/-- The words of a response, byte by byte. -/
theorem respBytes_says (s : State) :
    let b := (List.range 32).flatMap fun i => wordBytes (rd s (pgMbx true) (Reg.RESP 0 i))
    b.length = 256 ∧ ∀ i, i < 32 → w64 (leAt b (8 * i) 8) = rd s (pgMbx true) (Reg.RESP 0 i) := by
  refine ⟨length_flatMap_natBytes _ 8 32, fun i hi => ?_⟩
  refine (congrArg w64 ((leAt_flatMap_natBytes (fun i => (rd s (pgMbx true) (Reg.RESP 0 i)).toNat) 8 hi).trans
    (Nat.mod_eq_of_lt (rd s (pgMbx true) (Reg.RESP 0 i)).isLt))).trans ?_
  exact BitVec.eq_of_toNat_eq (by simp [w64])

/-- Settles O56: each read answers from its table. -/
theorem i3cReadsAnswerTheirTables : Obligations.I3cReadsAnswerTheirTables := by
  intro code s hs haddr answered mine
  refine ⟨i3cRead_says hs haddr 0x01 rfl (statusBytes_says s), i3cRead_says hs haddr 0x02 rfl rfl,
    i3cRead_says hs haddr 0x03 rfl (thermalBytes_says s), i3cRead_says hs haddr 0x04 rfl (powerBytes_says s),
    fun hmine => i3cRead_says hs haddr 0x12 rfl ?_, fun hother => i3cRead_says hs haddr 0x12 rfl ?_,
    i3cRead_says hs haddr 0x13 rfl rfl, i3cRead_says hs haddr 0x20 rfl (recBytes_says s), fun hunlisted => ?_, fun hnone => ?_,
    fun hlast => ?_⟩
  · rw [show i3cData s 0x12 = _ from if_pos (i3cResponse_iff.2 hmine)]
    exact respBytes_says s
  · exact if_neg (mt i3cResponse_iff.1 hother)
  · have hread : exec (.unknownI3cCommand (some code)) s = .next (i3cRead s code) :=
      congrArg Host.Outcome.next (if_neg (by rw [hunlisted]; decide))
    exact i3cRead_says hs haddr code hread (i3cData_unlisted hunlisted)
  · have hread : exec (.unknownI3cCommand none) s = .next (i3cSend s [0xFF]) :=
      congrArg Host.Outcome.next ((if_pos haddr).trans (by rw [hnone]; rfl))
    exact i3cSend_completes hs hnone hread rfl
  · have hread : exec (.unknownI3cCommand none) s = .next (i3cSend s (statusBytes s)) :=
      congrArg Host.Outcome.next ((if_pos haddr).trans (by rw [hlast]; rfl))
    exact i3cSend_completes hs hlast hread rfl

end Sys2Proof.Machine
end

section
/-!
SUPPORT. The commands that the I3C target takes.
-/

namespace Sys2Proof.Machine

open Sys2Proof

/-! ### Fields within a field just written -/

/-- A field at the foot of another holds its low bits. -/
theorem fld_low (w : Word) {n m : Nat} (h : n ≤ m) : fld w 0 n = fld w 0 m % 2 ^ n :=
  (Nat.mod_mod_of_dvd _ (Nat.pow_dvd_pow 2 h)).symm

theorem bit_fld (w : Word) {i m : Nat} (h : i < m) : bit w i = (fld w 0 m).testBit i := by
  rw [testBit_fld, Nat.zero_add, decide_eq_true h, Bool.true_and]
  rfl

/-! ### Bytes of words -/

theorem natBytes_bytesNat (b : Bytes) : natBytes (bytesNat b) b.length = b := by
  induction b with
  | nil => rfl
  | cons x t ih =>
    have hx := x.isLt
    rw [List.length_cons, natBytes, bytesNat, show (x.toNat + 256 * bytesNat t) / 256 = bytesNat t by omega, ih]
    refine congrArg (· :: t) (BitVec.eq_of_toNat_eq ?_)
    rw [BitVec.toNat_ofNat]
    omega

theorem wordBytes_bytesWord {b : Bytes} (h : 8 ≤ b.length) : wordBytes (bytesWord b) = b.take 8 := by
  have hlen : (b.take 8).length = 8 := by rw [List.length_take]; omega
  have hlt : bytesNat (b.take 8) < 2 ^ 64 := by
    have := bytesNat_lt (b.take 8)
    rwa [hlen] at this
  have hbytes := natBytes_bytesNat (b.take 8)
  rwa [hlen, ← Nat.mod_eq_of_lt hlt] at hbytes

/-- The words that a run of whole words of bytes spells lay the same bytes out again. -/
theorem flatMap_bytesWords {b : Bytes} {n : Nat} (h : b.length = 8 * n) : (bytesWords b n).flatMap wordBytes = b := by
  induction n generalizing b with
  | zero => exact (List.length_eq_zero_iff.1 h).symm
  | succ n ih =>
    rw [bytesWords, List.flatMap_cons, wordBytes_bytesWord (by omega), ih (by rw [List.length_drop]; omega), List.take_append_drop]

/-- A request holds the words that were written to its registers (R446). -/
theorem reqBytes_of_words {t : State} {sec : Bool} {f : Nat} {b : Bytes} (hb : b.length = 256)
    (h : ∀ i, i < 32 → rd t (pgMbx sec) (Reg.REQ f i) = (bytesWords b 32).getD i 0) : reqBytes t sec f = b := by
  have hwords : (List.range 32).map (fun i => (bytesWords b 32).getD i 0) = bytesWords b 32 := by
    refine List.ext_getElem (by simp [length_bytesWords]) fun i h1 h2 => ?_
    simp [List.getD_eq_getElem?_getD, List.getElem?_eq_getElem h2]
  calc reqBytes t sec f = ((List.range 32).map fun i => (bytesWords b 32).getD i 0).flatMap wordBytes := by
        rw [List.flatMap_map]
        exact List.flatMap_congr fun i hi => congrArg wordBytes (h i (List.mem_range.1 hi))
    _ = b := by rw [hwords, flatMap_bytesWords hb]

/-! ### The first error of a page (R39) -/

/-- The first error that a page records shows its code. -/
theorem rf_countError_code {s : State} (h : s.canonical) {p : Nat} (hp : p ≠ pgEvr) (hnone : rb s p Reg.ERR_FIRST 63 = false)
    {code : Nat} (hcode : code < 256) : rf (countError s p code 0 0 none) p Reg.ERR_FIRST 0 8 = code := by
  have hword : fld (bitW 63 ||| w64 (code % 256 + (0 % 256) <<< 8 + 0)) 0 8 = code := by
    rw [fld, BitVec.toNat_or, Nat.shiftRight_zero, Nat.or_mod_two_pow]
    simp only [bitW, w64, BitVec.toNat_ofNat, Nat.reduceShiftLeft, Nat.reducePow, Nat.reduceMod, Nat.zero_shiftLeft, Nat.zero_or]
    omega
  rw [countError]
  unfold countErrorAt
  extract_lets s1 s2 _ s3
  have h1 : s1.canonical := addReg_canonical h
  have hfirst : rb s1 p Reg.ERR_FIRST 63 = false :=
    (congrArg (bit · 63) (rd_wr_other h _ (by decide) (by decide) fun e => absurd e.2 (by decide))).trans hnone
  have h2 : s2 = wr s1 p Reg.ERR_FIRST (bitW 63 ||| w64 (code % 256 + (0 % 256) <<< 8 + 0)) :=
    if_neg (by rw [hfirst]; decide)
  have h3 : s3.canonical := show s2.canonical from h2 ▸ wr_canonical h1
  refine (congrArg (fld · 0 8) ?_).trans hword
  rw [rd_raiseEvt h3 (by decide) (not_evtReg_of_page hp (by decide))]
  exact (congrArg (rd · p Reg.ERR_FIRST) h2).trans (rd_wr_same h1 _ _ _)

theorem rb_countError_event {s : State} (h : s.canonical) {p : Nat} (hp : p ≠ pgEvr) (code status cls : Nat) (ctx : Option Nat) :
    rb (countError s p code status cls ctx) p Reg.EVT_STAT 62 = true := by
  obtain ⟨t, ht, heq, -⟩ := rd_countError_cases h code status cls ctx (p := p)
  rw [heq]
  exact rb_raiseEvt_same ht hp (by decide)

/-! ### Commands that the target takes (R435, R436, R440) -/

theorem i3cAddr_of {s : State} (hon : i3cOn s = true) (haddr : rb s pgI3c Reg.I3C_STAT 7 = true) : i3cAddr s = true := by
  rw [i3cAddr, hon, haddr]; rfl

/-- The target's address field of `I3C_STAT`, with the bit that says it has one. -/
theorem i3cStat_set {s : State} (h : s.canonical) (v b : Nat) :
    rf (raiseEvt (wf s pgI3c Reg.I3C_STAT 0 8 v) pgI3c b) pgI3c Reg.I3C_STAT 0 8 = v % 256 := by
  have hstays := rd_raiseEvt (p := pgI3c) (b := b) (wf_canonical (p := pgI3c) (off := Reg.I3C_STAT) (lo := 0) (n := 8) (v := v) h)
    (q := pgI3c) (o := Reg.I3C_STAT) (by decide) (not_evtReg_of_page (by decide) (by decide))
  exact (congrArg (fld · 0 8) hstays).trans (rf_wf_same h _ _ _ _ _ (by decide))

theorem i3cStat_sameBut {s : State} (h : s.canonical) (v b : Nat) :
    SameBut (oneReg pgI3c Reg.I3C_STAT) s (raiseEvt (wf s pgI3c Reg.I3C_STAT 0 8 v) pgI3c b) :=
  (wf_sameBut h _ _ _ _ _ (by decide)).trans' (raiseEvt_sameBut (wf_canonical h) _ _).none

/-- A write with bad parity, or past the buffer, is recorded and its data dropped (R438, R441). -/
theorem mbxWrite_dropped {s : State} (haddr : i3cAddr s = true) {n : Nat} {data : Bytes} {bad : Bool}
    (hbad : bad = true ∨ 256 < n + data.length) :
    exec (.mbxWrite n data bad) s =
      .next (countError (i3cWrite s 0x10 (1 + data.length)) pgI3c (if bad then 1 else 2) 0 0 none) := by
  refine congrArg Host.Outcome.next ((i3cCommand_taken haddr _ _ _).trans ?_)
  cases bad with
  | true => rfl
  | false => exact (if_neg (by decide)).trans (if_pos (Or.inr (Or.inl (hbad.resolve_left (by decide)))))

/-- The staging buffer becomes the request of F0's secure mailbox, and is empty then (R446). -/
def stagedTaken (s : State) : State :=
  let v := wrWords s (pgMbx true) (Reg.REQ 0 0) (bytesWords (fitBytes s.i3c.staging 256) 32)
  { v with i3c := { v.i3c with staging := zeroBytes 256 } }

theorem stagedTaken_says {s : State} (h : s.canonical) :
    (stagedTaken s).canonical ∧ (stagedTaken s).i3c = { s.i3c with staging := zeroBytes 256 } ∧
    (∀ i, i < 32 → rd (stagedTaken s) (pgMbx true) (Reg.REQ 0 i) = (bytesWords (fitBytes s.i3c.staging 256) 32).getD i 0) ∧
    SameBut (reqReg true 0) { s with i3c := { s.i3c with staging := zeroBytes 256 } } (stagedTaken s) := by
  obtain ⟨hcan, hwords, hsame⟩ := reqWords_says h true (Nat.zero_le 16) (fitBytes s.i3c.staging 256)
  have hregs := wrWords_regs s (pgMbx true) (Reg.REQ 0 0) (bytesWords (fitBytes s.i3c.staging 256) 32)
  unfold stagedTaken
  generalize wrWords s (pgMbx true) (Reg.REQ 0 0) (bytesWords (fitBytes s.i3c.staging 256) 32) = v at hcan hwords hsame hregs ⊢
  exact ⟨hcan, by rw [hregs], hwords, .of_regs (by rw [hregs]) hsame.regs⟩

theorem mbxSend_next {s : State} (h : s.canonical) (haddr : i3cAddr s = true) (hidle : mbxState s true 0 = 0) :
    exec (.mbxSend false) s = .next (fillMbx (stagedTaken (i3cWrite s 0x11 0)) true 0 1) := by
  have hstate : mbxState (i3cWrite s 0x11 0) true 0 = 0 :=
    (congrArg (fld · 0 3) (rd_i3cWrite_other h _ _ (by decide) (by decide))).trans hidle
  have hlegal : (!false && decide (mbxState (i3cWrite s 0x11 0) true 0 = 0)) = true := decide_eq_true hstate
  exact congrArg Host.Outcome.next ((i3cCommand_taken haddr _ _ _).trans (guarded_accepted hlegal _))

/-- Settles O55: each command takes its effect at the target. -/
theorem theI3cTargetIsAddressedAndTakesCommands : Obligations.TheI3cTargetIsAddressedAndTakesCommands := by
  intro n data rest b s hs hon stat sent wrote
  refine ⟨fun hnone hsensed => ?entdaa, ?enec, ?disec, congrArg Host.Outcome.next (if_pos hon),
    congrArg Host.Outcome.next (if_pos hon), fun haddr => ?addressed⟩
  case entdaa =>
    have htakes : (i3cOn s && s.boot.sensed && !(rb s pgI3c Reg.I3C_STAT 7)) = true := by rw [hon, hsensed, hnone]; rfl
    have hfield := i3cStat_set hs (n % 128 + 128) 0
    refine completes_of_next rfl (if_pos htakes) ⟨(fld_low _ (show 7 ≤ 8 by decide)).trans ?_, (bit_fld _ (show 7 < 8 by decide)).trans ?_,
      rb_raiseEvt_same (wf_canonical hs) (by decide) (by decide), i3cStat_sameBut hs _ _⟩
    · refine (congrArg (· % 2 ^ 7) hfield).trans ?_
      omega
    · refine (congrArg (Nat.testBit · 7) hfield).trans ?_
      rw [Nat.testBit_eq_decide_div_mod_eq, decide_eq_true_eq]
      omega
  case enec =>
    exact completes_of_next rfl (if_pos hon) ⟨rb_wb_same hs _ _ _ _ (by decide), wb_sameBut hs _ _ _ _ (by decide)⟩
  case disec =>
    exact completes_of_next rfl (if_pos hon) ⟨rb_wb_same hs _ _ _ _ (by decide), wb_sameBut hs _ _ _ _ (by decide)⟩
  case addressed =>
    have htarget := i3cAddr_of hon haddr
    have hsends : ∀ bytes, cccSend s bytes = emit s (.i3c bytes) := fun _ => if_pos htarget
    refine ⟨?rstdaa, congrArg Host.Outcome.next (hsends _), congrArg Host.Outcome.next (hsends _),
      congrArg Host.Outcome.next (hsends _), congrArg Host.Outcome.next (hsends _), congrArg Host.Outcome.next (hsends _),
      ⟨_, length_fitBytes _ 2, congrArg Host.Outcome.next (if_pos htarget)⟩, fun heven hshort hfits hmwl => ?staged,
      fun bad hbad => ?dropped, fun hidle => ?send, fun hready hport => ?ack, fun hibis => ⟨fun henabled => ?won, ?lost⟩⟩
    case rstdaa =>
      refine completes_of_next rfl (if_pos htarget) ⟨(bit_fld _ (show 7 < 8 by decide)).trans
        ((congrArg (Nat.testBit · 7) (i3cStat_set hs 0 1)).trans (by decide)),
        rb_raiseEvt_same (wf_canonical hs) (by decide) (by decide), i3cStat_sameBut hs _ _⟩
    case staged =>
      let last : I3c := { s.i3c with last := some 0x10, staging := putBytes s.i3c.staging n data }
      obtain ⟨hrx, -⟩ := i3cWrite_says hs 0x10 (1 + data.length)
      exact completes_of_next rfl ((i3cCommand_taken htarget _ _ _).trans ((if_neg (by decide)).trans
        ((if_neg (show ¬(248 < data.length ∨ 256 < n + data.length ∨ s.i3c.mwl < 2 + data.length) by omega)).trans (if_pos heven))))
        ⟨rfl, ⟨rfl, hrx⟩, addReg_sameBut (s := { s with i3c := last }) hs _ _ _ (by decide)⟩
    case dropped =>
      have hw : (i3cWrite s 0x10 (1 + data.length)).canonical := i3cWrite_canonical hs
      obtain ⟨hrx, hwritten⟩ := i3cWrite_says hs 0x10 (1 + data.length)
      have hother : ∀ o, o < 0x10000 → o ≠ Reg.I3C_RX_BYTES → rd (i3cWrite s 0x10 (1 + data.length)) pgI3c o = rd s pgI3c o :=
        fun o ho hne => rd_i3cWrite_other hs _ _ ho fun x => hne x.2
      refine completes_of_next (mbxWrite_dropped htarget hbad) rfl ⟨⟨?_, ?_⟩, ?_, ?_, ?_, ?_, ?_⟩
      · rw [countError_i3c]; rfl
      · exact (rd_countError hw (by decide) (not_evtReg (by decide)) (by decide) (by decide)).trans hrx
      · rw [countError_i3c]; rfl
      · rw [rd_countError_count hw (by decide), hother _ (by decide) (by decide)]
      · exact rb_countError_event hw (by decide) _ _ _ _
      · intro hfirst
        exact rf_countError_code hw (by decide) ((congrArg (bit · 63) (hother _ (by decide) (by decide))).trans hfirst)
          (by split <;> decide)
      · exact (hwritten.mono fun _ _ x => ⟨x.1, .inl x.2⟩).trans'
          ((countErrorAt_sameBut hw _ _ _ _ _ _).mono fun _ _ x => ⟨x.1, .inr x.2⟩)
    case send =>
      have hw : (i3cWrite s 0x11 0).canonical := i3cWrite_canonical hs
      obtain ⟨hrx, -⟩ := i3cWrite_says hs 0x11 0
      obtain ⟨hcan, hi3c, hwords, hstaged⟩ := stagedTaken_says hw
      obtain ⟨hstate, hport, hsame⟩ := fillMbx_full hcan true (show 0 ≤ 16 by decide) true
      refine ⟨_, mbxSend_next hs htarget hidle, hstate, hport, ⟨?_, ?_⟩, fun hlen => ?_, ?_, ?_⟩
      · exact congrArg I3c.last hi3c
      · exact (hsame.rd_eq (by decide) (not_evtReg (by decide)) (by decide)).trans
          ((hstaged.rd_eq (by decide) (not_evtReg (by decide)) fun x => absurd x.1 (by decide)).trans hrx)
      · refine reqBytes_of_words hlen fun i hi => ?_
        have hreq : Reg.REQ 0 i < 0x10000 := by simp only [Reg.REQ]; omega
        refine (hsame.rd_eq hreq (not_evtReg_mailbox true (by simp only [Reg.REQ]; omega)) ?_).trans ((hwords i hi).trans ?_)
        · simp only [Reg.REQ, Reg.MBX_STAT]; omega
        · rw [fitBytes_self (show (i3cWrite s 0x11 0).i3c.staging.length = 256 from hlen)]
          rfl
      · exact congrArg I3c.staging hi3c
      · have hcounted : SameBut (oneReg pgI3c Reg.I3C_RX_BYTES)
            { s with i3c := { s.i3c with last := some 0x11, staging := zeroBytes 256 } }
            { i3cWrite s 0x11 0 with i3c := { (i3cWrite s 0x11 0).i3c with staging := zeroBytes 256 } } :=
          addReg_sameBut (s := { s with i3c := { s.i3c with last := some 0x11, staging := zeroBytes 256 } }) hs _ _ _ (by decide)
        exact ((hcounted.mono fun _ _ x => .inl x).trans' (hstaged.mono fun _ _ x => .inr ⟨x.1, .inr x.2⟩)).trans'
          (hsame.mono fun _ _ x => .inr ⟨x.1, .inl x.2⟩)
    case ack =>
      have hw : (i3cWrite s 0x14 0).canonical := i3cWrite_canonical hs
      obtain ⟨hrx, hwritten⟩ := i3cWrite_says hs 0x14 0
      obtain ⟨hstate, hsame⟩ := setMbxState hw true (show 0 ≤ 16 by decide) (show 0 < 8 by decide)
      have hresponse : i3cResponse (i3cWrite s 0x14 0) = true :=
        (i3cResponse_written hs _ _).trans (i3cResponse_iff.2 ⟨hready, hport⟩)
      exact completes_of_next rfl ((i3cCommand_taken htarget _ _ _).trans (if_pos hresponse))
        ⟨hstate, ⟨rfl, (hsame.rd_eq (by decide) (not_evtReg (by decide)) (by decide)).trans hrx⟩,
          (hwritten.mono fun _ _ x => .inl x).trans' (hsame.mono fun _ _ x => .inr x)⟩
    case won =>
      let u : State := { s with i3c := { s.i3c with ibis := rest }, out := s.out ++ [.ibi b] }
      have hwins : (true && i3cAddr s && rb s pgI3c Reg.I3C_STAT 16) = true := by rw [htarget, henabled]; rfl
      refine completes_of_next (u := addReg u pgI3c Reg.I3C_IBIS 1) ?_ rfl
        ⟨rfl, rfl, rd_wr_same (s := u) hs _ _ _, addReg_sameBut (s := u) hs _ _ _ (by decide)⟩
      simp only [exec, execIbi, hibis]
      exact congrArg Host.Outcome.next (if_pos hwins)
    case lost =>
      simp only [exec, execIbi, hibis]
      rfl

end Sys2Proof.Machine
end

section
/-!
SUPPORT. The commands of the event recorder.
-/

namespace Sys2Proof.Machine

open Sys2Proof

/-! ### A bit of `EVT_STAT` that is set stays set (R36) -/

theorem rawEvt_stays {s : State} (h : s.canonical) {p q b i : Nat} (hi : i < 64) (hset : rb s p Reg.EVT_STAT i = true) :
    rb (rawEvt s q b) p Reg.EVT_STAT i = true := by
  by_cases hq : p = q
  · subst hq
    by_cases hb : i = b
    · exact hb ▸ rb_wb_same h _ _ _ _ (hb ▸ hi)
    · exact (rb_wb_other h _ _ _ _ _ hb hi).trans hset
  · exact (congrArg (bit · i) (rd_wr_other h _ (by decide) (by decide) fun x => hq x.1)).trans hset

/-- What an error of the recorder leaves of the registers before the wire follows. -/
theorem rd_evrErr_other {s : State} (h : s.canonical) (code : Nat) {p o : Nat} (ho : o < 0x10000)
    (hne : ¬(p = pgEvr ∧ (o = Reg.ERR_COUNT ∨ o = Reg.ERR_FIRST ∨ o = Reg.EVT_STAT))) :
    rd (evrErr s code) p o = rd s p o := by
  unfold evrErr
  extract_lets t1 t2 t3
  have h1 : rd t1 p o = rd s p o := rd_wr_other h _ (by decide) ho fun x => hne ⟨x.1, .inl x.2⟩
  have k1 : t1.canonical := addReg_canonical h
  have h2 : rd t2 p o = rd t1 p o := by
    unfold t2
    split
    · exact rd_wr_other k1 _ (by decide) ho fun x => hne ⟨x.1, .inr (.inl x.2)⟩
    · exact rd_wr_other k1 _ (by decide) ho fun x => hne ⟨x.1, .inr (.inl x.2)⟩
  have k2 : t2.canonical := (Kept_ite (wb_kept k1.kept) (wr_kept k1.kept)).1
  have h3 : rd t3 p o = rd t2 p o := rd_wr_other k2 _ (by decide) ho fun x => hne ⟨x.1, .inr (.inr x.2)⟩
  rw [rd, updWire_regs]
  exact h3.trans (h2.trans h1)

theorem evrErr_stays {s : State} (h : s.canonical) (code : Nat) {p i : Nat} (hi : i < 64)
    (hset : rb s p Reg.EVT_STAT i = true) : rb (evrErr s code) p Reg.EVT_STAT i = true := by
  unfold evrErr
  extract_lets t1 t2 t3
  have h1 : rd t1 p Reg.EVT_STAT = rd s p Reg.EVT_STAT := rd_wr_other h _ (by decide) (by decide) fun x => absurd x.2 (by decide)
  have k1 : t1.canonical := addReg_canonical h
  have h2 : rd t2 p Reg.EVT_STAT = rd t1 p Reg.EVT_STAT := by
    unfold t2
    split
    · exact rd_wr_other k1 _ (by decide) (by decide) fun x => absurd x.2 (by decide)
    · exact rd_wr_other k1 _ (by decide) (by decide) fun x => absurd x.2 (by decide)
  have k2 : t2.canonical := (Kept_ite (wb_kept k1.kept) (wr_kept k1.kept)).1
  have h3 : rb t3 p Reg.EVT_STAT i = true := rawEvt_stays k2 hi ((congrArg (bit · i) (h2.trans h1)).trans hset)
  rw [rb, rd, updWire_regs]
  exact h3

theorem genWrite_stays {s : State} (h : s.canonical) (e : Entry) {p i : Nat} (hi : i < 64)
    (hset : rb s p Reg.EVT_STAT i = true) : rb (genWrite s e) p Reg.EVT_STAT i = true := by
  unfold genWrite
  split
  · extract_lets _ t1 t2
    have k1 : t1.canonical := h
    have h2 : rb t2 p Reg.EVT_STAT i = true :=
      (congrArg (bit · i) (rd_wr_other k1 _ (by decide) (by decide) fun x => absurd x.2 (by decide))).trans hset
    have k2 : t2.canonical := wf_canonical k1
    split
    · have k3 : (wb t2 pgEvr Reg.EVR_STAT 31 true).canonical := wb_canonical k2
      have h3 : rb (wb t2 pgEvr Reg.EVR_STAT 31 true) p Reg.EVT_STAT i = true :=
        (congrArg (bit · i) (rd_wr_other k2 _ (by decide) (by decide) fun x => absurd x.2 (by decide))).trans h2
      exact evrErr_stays (rawEvt_kept k3.kept).1 1 hi (rawEvt_stays k3 hi h3)
    · exact h2
  · extract_lets t1
    have h1 : rb t1 p Reg.EVT_STAT i = true := by
      unfold t1
      split
      · exact (congrArg (bit · i) (rd_wr_other h _ (by decide) (by decide) fun x => absurd x.2 (by decide))).trans hset
      · exact hset
    have k1 : t1.canonical := (Kept_ite (wr_kept h.kept) h.kept).1
    exact (congrArg (bit · i) (rd_wr_other k1 _ (by decide) (by decide) fun x => absurd x.2 (by decide))).trans h1

/-- An event of any page, the recorder's too, stands in the page's `EVT_STAT` once it is raised. -/
theorem rb_raiseEvt_sets {s : State} (h : s.canonical) (p : Nat) {b : Nat} (hb : b < 64) :
    rb (raiseEvt s p b) p Reg.EVT_STAT b = true := by
  unfold raiseEvt
  split
  · assumption
  · rw [rb, rd, updWire_regs]
    refine (List.foldlRecOn (motive := fun t : State => t.canonical ∧ rb t p Reg.EVT_STAT b = true) _ _
      ⟨(rawEvt_kept h.kept).1, rb_wb_same h p Reg.EVT_STAT b true hb⟩ fun t ht n _ => ?_).2
    extract_lets v
    split
    · exact ⟨(fireTrigger_kept ht.1.kept).1, genWrite_stays ht.1 _ hb ht.2⟩
    · exact ht

/-! ### CONFIG entries (R451, R453) -/

/-- Where the general part keeps room an entry is appended and counted, and nothing else happens. -/
theorem genWrite_room {s : State} (e : Entry) (h : s.evr.gen.length + 1 < 114688) :
    genWrite s e = wf { s with evr := { s.evr with gen := s.evr.gen ++ [e] } } pgEvr Reg.EVR_STAT 0 17 (s.evr.gen.length + 1) := by
  have hlen : (s.evr.gen ++ [e]).length = s.evr.gen.length + 1 := List.length_append
  rw [genWrite, if_pos (by omega)]
  extract_lets _ t1 t2
  have hlen1 : t1.evr.gen.length = s.evr.gen.length + 1 := hlen
  rw [if_neg (show ¬ t2.evr.gen.length = 114688 by rw [show t2.evr.gen = t1.evr.gen from rfl, hlen1]; omega)]
  show wf t1 _ _ _ _ t1.evr.gen.length = _
  rw [hlen1]

/-- The words of a CONFIG entry: each selector, whether it is taken, and in the first what the trigger watches (R451). -/
def configWord (s : State) (t i : Nat) : Word :=
  let v := rd s pgEvr (Reg.EVR_TRIG t)
  w64 (rf s pgEvr (Reg.EVR_SEL t i) 0 24 + (if i < min 6 (fld v 24 3) then 1 <<< 24 else 0) +
    (if i = 0 then (fld v 0 11) <<< 32 + (fld v 16 6) <<< 48 else 0))

/-- The CONFIG entry of a trigger. -/
def configOf (s : State) (t : Nat) : Entry := mkEntry s 3 t 6 ((List.range 6).map (configWord s t))

theorem configEntry_eq (s : State) (t : Nat) : configEntry s t = genWrite s (configOf s t) := rfl

theorem configOf_kind (s : State) (t : Nat) : fld ((configOf s t).getD 1 0) 57 4 = 3 := by
  have hkind : fld ((mkEntry s 3 (t % 64) 6 ((List.range 6).map (configWord s t))).getD 1 0) 57 4 = 3 :=
    (mkEntry_fields s 6 _ (by decide) (Nat.mod_lt t (by decide))).2.1
  rwa [mkEntry, Nat.mod_mod] at hkind

theorem selectorWord_fields {sel page evt : Nat} (hsel : sel < 2 ^ 24) (hpage : page < 2 ^ 11) (hevt : evt < 2 ^ 6)
    (taken first : Prop) [Decidable taken] [Decidable first] :
    let w := w64 (sel + (if taken then 1 <<< 24 else 0) + (if first then page <<< 32 + evt <<< 48 else 0))
    fld w 0 24 = sel ∧ bit w 24 = decide taken ∧ (first → fld w 32 11 = page ∧ fld w 48 6 = evt) := by
  by_cases htaken : taken <;> by_cases hfirst : first <;>
    simp only [htaken, hfirst, if_true, if_false, decide_true, decide_false, fld, bit, w64, BitVec.getLsbD,
      Nat.testBit_eq_decide_div_mod_eq, BitVec.toNat_ofNat, Nat.shiftLeft_eq, Nat.shiftRight_eq_div_pow, decide_eq_true_eq,
      decide_eq_false_iff_not, forall_const, false_imp_iff, and_true] <;>
    omega

theorem configWord_fields (s : State) (t : Nat) {i : Nat} (hi : i < 6) :
    fld (configWord s t i) 0 24 = rf s pgEvr (Reg.EVR_SEL t i) 0 24 ∧
    bit (configWord s t i) 24 = decide (i < fld (rd s pgEvr (Reg.EVR_TRIG t)) 24 3) ∧
    (i = 0 → fld (configWord s t i) 32 11 = fld (rd s pgEvr (Reg.EVR_TRIG t)) 0 11 ∧
      fld (configWord s t i) 48 6 = fld (rd s pgEvr (Reg.EVR_TRIG t)) 16 6) := by
  have hsel := rf_lt s pgEvr (Reg.EVR_SEL t i) 0 24
  have hpage : fld (rd s pgEvr (Reg.EVR_TRIG t)) 0 11 < 2 ^ 11 := Nat.mod_lt _ (by decide)
  have hbit : fld (rd s pgEvr (Reg.EVR_TRIG t)) 16 6 < 2 ^ 6 := Nat.mod_lt _ (by decide)
  have hmin : i < min 6 (fld (rd s pgEvr (Reg.EVR_TRIG t)) 24 3) ↔ i < fld (rd s pgEvr (Reg.EVR_TRIG t)) 24 3 := by omega
  obtain ⟨hlow, htaken, hwatch⟩ := selectorWord_fields hsel hpage hbit (i < min 6 (fld (rd s pgEvr (Reg.EVR_TRIG t)) 24 3)) (i = 0)
  exact ⟨hlow, htaken.trans (decide_eq_decide.2 hmin), hwatch⟩

theorem configOf_words (s : State) (t : Nat) :
    (configOf s t).length = 8 ∧ (configOf s t).getD 0 0 = evrNow s ∧
    ∀ j, j < 6 → (configOf s t).getD (2 + j) 0 = configWord s t j := by
  refine ⟨rfl, rfl, fun j hj => ?_⟩
  interval_cases j <;> rfl

/-! ### Triggers (R451) -/

theorem evrTrig_lt {i : Nat} (hi : i < 64) : Reg.EVR_TRIG i < 0x10000 := by simp only [Reg.EVR_TRIG]; omega

theorem evrTrig_not_evt {i : Nat} : ¬ evtReg pgEvr (Reg.EVR_TRIG i) := by
  simp only [evtReg, Reg.EVR_TRIG, Reg.EVT_STAT, Reg.EVR_STAT, Reg.EVR_LOST, Reg.EVR_FIRST_LOST, Reg.ERR_COUNT, Reg.ERR_FIRST]
  omega

/-- A mask that covers a field leaves it. -/
theorem fld_and_mask (v m : Word) {lo n : Nat} (h : ∀ i, i < n → m.getLsbD (lo + i) = true) : fld (v &&& m) lo n = fld v lo n := by
  refine Nat.eq_of_testBit_eq fun i => ?_
  rw [testBit_fld, testBit_fld, BitVec.getLsbD_and]
  by_cases hi : i < n
  · rw [h i hi, Bool.and_true]
  · rw [decide_eq_false hi, Bool.false_and, Bool.false_and]

/-- The fields of `EVR_TRIG` that a write keeps. -/
theorem trigMask_fields (v : Word) :
    fld (v &&& 0x1073F07FF) 0 11 = fld v 0 11 ∧ fld (v &&& 0x1073F07FF) 16 6 = fld v 16 6 ∧
    fld (v &&& 0x1073F07FF) 24 3 = fld v 24 3 ∧ bit (v &&& 0x1073F07FF) 32 = bit v 32 := by
  refine ⟨fld_and_mask _ _ (by decide), fld_and_mask _ _ (by decide), fld_and_mask _ _ (by decide), ?_⟩
  rw [bit, BitVec.getLsbD_and, show BitVec.getLsbD (0x1073F07FF : Word) 32 = true by decide, Bool.and_true]
  rfl

/-- A trigger that is enabled. -/
theorem writeTrig_enables {s : State} {i : Nat} {v : Word} (hoff : rb s pgEvr (Reg.EVR_TRIG i) 32 = false) (hon : bit v 32 = true) :
    writeTrig s i v = configEntry (wr s pgEvr (Reg.EVR_TRIG i) (v &&& 0x1073F07FF)) i := by
  have hold : bit (rd s pgEvr (Reg.EVR_TRIG i)) 32 = false := hoff
  have hnew : bit (v &&& 0x1073F07FF) 32 = true := (trigMask_fields v).2.2.2.trans hon
  rw [writeTrig, guarded_accepted (by rw [hold]; rfl), hold, hnew]
  rfl

/-! ### EVR_CLEAR (R453, R455) -/

/-- A CONFIG entry for a trigger that is enabled. -/
def configIfOn (s : State) (t : Nat) : State := if rb s pgEvr (Reg.EVR_TRIG t) 32 then configEntry s t else s

/-- `t` is `s` with `n` CONFIG entries more. -/
structure Configured (n : Nat) (s t : State) : Prop where
  canonical : t.canonical
  regs : ∀ p o, o < 0x10000 → ¬(p = pgEvr ∧ o = Reg.EVR_STAT) → rd t p o = rd s p o
  rest : t = { s with regs := t.regs, evr := { s.evr with gen := t.evr.gen } }
  count : t.evr.gen.length = s.evr.gen.length + n
  kinds : ∀ e ∈ t.evr.gen, e ∈ s.evr.gen ∨ fld (e.getD 1 0) 57 4 = 3

theorem Configured.refl {s : State} (h : s.canonical) : Configured 0 s s := ⟨h, fun _ _ _ _ => rfl, rfl, rfl, fun _ h => .inl h⟩

theorem Configured.trans {n m : Nat} {s t u : State} (h : Configured n s t) (k : Configured m t u) : Configured (n + m) s u where
  canonical := k.canonical
  regs p o ho hne := (k.regs p o ho hne).trans (h.regs p o ho hne)
  rest := by rw [k.rest, h.rest]
  count := by rw [k.count, h.count, Nat.add_assoc]
  kinds e he := (k.kinds e he).elim (h.kinds e) .inr

theorem configIfOn_configured {s : State} (h : s.canonical) (hroom : s.evr.gen.length + 1 < 114688) (t : Nat) :
    Configured (rb s pgEvr (Reg.EVR_TRIG t) 32).toNat s (configIfOn s t) := by
  unfold configIfOn
  by_cases hon : rb s pgEvr (Reg.EVR_TRIG t) 32 = true
  · rw [if_pos hon, hon, configEntry_eq, genWrite_room _ hroom]
    refine ⟨wf_canonical (s := { s with evr := { s.evr with gen := s.evr.gen ++ [configOf s t] } }) h, fun p o ho hne => ?_, rfl, ?_, ?_⟩
    · exact rd_wr_other (s := { s with evr := { s.evr with gen := s.evr.gen ++ [configOf s t] } }) h _ (by decide) ho hne
    · exact List.length_append
    · intro e he
      rcases List.mem_append.1 he with he | he
      · exact .inl he
      · exact .inr (List.mem_singleton.1 he ▸ configOf_kind s t)
  · rw [if_neg hon, Bool.eq_false_iff.2 hon]
    exact .refl h

/-- Every enabled trigger of a list writes its entry. -/
theorem configAll_configured {s : State} (h : s.canonical) (l : List Nat) (hl : ∀ j ∈ l, j < 64)
    (hroom : s.evr.gen.length + l.length < 114688) :
    Configured (l.countP fun j => rb s pgEvr (Reg.EVR_TRIG j) 32) s (l.foldl configIfOn s) := by
  induction l generalizing s with
  | nil => exact .refl h
  | cons j l ih =>
    rw [List.length_cons] at hroom
    have hone := configIfOn_configured h (by omega) j
    have hcount := hone.count
    have hsmall : (rb s pgEvr (Reg.EVR_TRIG j) 32).toNat ≤ 1 := Bool.toNat_le _
    have hrest := ih hone.canonical (fun i hi => hl i (List.mem_cons_of_mem j hi)) (by omega)
    have hsame : (l.countP fun j' => rb (configIfOn s j) pgEvr (Reg.EVR_TRIG j') 32) =
        l.countP fun j' => rb s pgEvr (Reg.EVR_TRIG j') 32 := List.countP_congr fun i hi => by
      have hlt := hl i (List.mem_cons_of_mem j hi)
      rw [rb, rb, hone.regs _ _ (evrTrig_lt hlt) (by simp only [Reg.EVR_TRIG, Reg.EVR_STAT]; omega)]
    rw [hsame] at hrest
    have hall := hone.trans hrest
    rw [List.foldl_cons, List.countP_cons]
    refine cast (congrArg (Configured · s _) ?_) hall
    cases rb s pgEvr (Reg.EVR_TRIG j) 32 <;> simp [Nat.add_comm]

/-- What an audit entry leaves of the registers. -/
theorem rd_audit_other {s : State} (h : s.canonical) (code : Nat) (snaps : List Word) {o : Nat} (ho : o < 0x10000)
    (hne : o ∉ [Reg.AUDIT_NEXT, Reg.AUDIT_LOST, Reg.ERR_COUNT, Reg.ERR_FIRST, Reg.EVT_STAT]) :
    rd (audit s code snaps) pgEvr o = rd s pgEvr o := by
  simp only [List.mem_cons, List.not_mem_nil, or_false, not_or] at hne
  obtain ⟨hnext, hlost, hcount, hfirst, hevt⟩ := hne
  unfold audit
  split
  · extract_lets n e _ entered numbered
    have hnumbered : numbered.canonical := wr_canonical h
    have hrd : rd numbered pgEvr o = rd s pgEvr o := rd_wr_other (s := entered) h _ (by decide) ho fun x => hnext x.2
    split
    · rw [rd_evrErr_other (rawEvt_kept hnumbered.kept).1 2 ho (by tauto), rawEvt, wb, wf,
        rd_wr_other hnumbered _ (by decide) ho fun x => hevt x.2, hrd]
    · exact hrd
  · exact rd_wr_other h _ (by decide) ho fun x => hlost x.2

theorem sendPme_evr (s : State) (rising : Nat) : (sendPme s rising).evr = s.evr := by
  refine List.foldlRecOn (motive := fun t : State => t.evr = s.evr) _ _ rfl fun t ht f _ => ?_
  split
  · split
    · exact ht
    · exact ht
  · exact ht

theorem updWire_evr (s : State) : (updWire s).evr = s.evr := by
  unfold updWire
  extract_lets lv rising t t1 wire t2 t3
  have h1 : t1.evr = s.evr := sendPme_evr _ _
  have h3 : t3.evr = t1.evr := by
    unfold t3
    split <;> rfl
  split
  · exact h3.trans h1
  · exact h3.trans h1

theorem evrErr_evr (s : State) (code : Nat) : (evrErr s code).evr = s.evr := by
  unfold evrErr
  extract_lets t1 t2 t3
  have h2 : t2.evr = s.evr := by unfold t2; split <;> rfl
  exact (updWire_evr _).trans h2

theorem audit_gen (s : State) (code : Nat) (snaps : List Word) : (audit s code snaps).evr.gen = s.evr.gen := by
  unfold audit
  split
  · extract_lets n e _ entered numbered
    split
    · rw [evrErr_evr]; rfl
    · rfl
  · rfl

/-- The general part is empty and nothing of it is lost (R453). -/
def evrCleared (s : State) : State :=
  wr (wb (wf { s with evr := { s.evr with gen := [] } } pgEvr Reg.EVR_STAT 0 17 0) pgEvr Reg.EVR_STAT 31 false) pgEvr Reg.EVR_LOST 0

theorem evrCleared_canonical {s : State} (h : s.canonical) : (evrCleared s).canonical :=
  wr_canonical (wb_canonical (wf_canonical (s := { s with evr := { s.evr with gen := [] } }) h))

theorem rd_evrCleared {s : State} (h : s.canonical) {o : Nat} (ho : o < 0x10000) (hstat : o ≠ Reg.EVR_STAT) (hlost : o ≠ Reg.EVR_LOST) :
    rd (evrCleared s) pgEvr o = rd s pgEvr o := by
  have h1 : (wf { s with evr := { s.evr with gen := [] } } pgEvr Reg.EVR_STAT 0 17 0).canonical :=
    wf_canonical (s := { s with evr := { s.evr with gen := [] } }) h
  rw [evrCleared, rd_wr_other (wb_canonical h1) _ (by decide) ho fun x => hlost x.2, wb, wf,
    rd_wr_other h1 _ (by decide) ho fun x => hstat x.2]
  exact rd_wr_other (s := { s with evr := { s.evr with gen := [] } }) h _ (by decide) ho fun x => hstat x.2

/-- The recorder once EVR_CLEAR has written its audit entry. -/
def evrAudited (s : State) : State := audit (evrCleared s) 0x0C [w64 s.evr.gen.length, rd s pgEvr Reg.EVR_LOST]

theorem evrAudited_says {s : State} (h : s.canonical) (hroom : auditRoom s = true) :
    (∃ e, (evrAudited s).evr.audit = s.evr.audit ++ [((rd s pgEvr Reg.AUDIT_NEXT).toNat, e)] ∧ fld (e.getD 1 0) 48 6 = 0x0C ∧
      e.getD 2 0 = w64 s.evr.gen.length ∧ e.getD 3 0 = rd s pgEvr Reg.EVR_LOST) ∧
    rd (evrAudited s) pgEvr Reg.EVR_LOST = 0 ∧ (evrAudited s).evr.gen = [] ∧
    (∀ j, j < 64 → rb (evrAudited s) pgEvr (Reg.EVR_TRIG j) 32 = rb s pgEvr (Reg.EVR_TRIG j) 32) ∧
    (evrAudited s).canonical ∧ SameMemory s (evrAudited s) := by
  have hcan := evrCleared_canonical h
  have hnext : rd (evrCleared s) pgEvr Reg.AUDIT_NEXT = rd s pgEvr Reg.AUDIT_NEXT := rd_evrCleared h (by decide) (by decide) (by decide)
  have hbase : rd (evrCleared s) pgEvr Reg.AUDIT_BASE = rd s pgEvr Reg.AUDIT_BASE := rd_evrCleared h (by decide) (by decide) (by decide)
  have hused : auditUsed (evrCleared s) < 16384 := by
    rw [auditUsed, hnext, hbase]
    exact auditUsed_lt hroom
  have hrec := audit_recorded hcan 0x0C [w64 s.evr.gen.length, rd s pgEvr Reg.EVR_LOST]
  refine ⟨⟨_, (audit_appends hcan hused _ _).trans (by rw [hnext]; rfl), (mkEntry_fields _ _ _ (by decide) (by decide)).1, rfl, rfl⟩,
    (rd_audit_other hcan _ _ (by decide) (by decide)).trans ?_, audit_gen _ _ _, fun j hj => congrArg (bit · 32) ?_, hrec.canonical,
    hrec.memory⟩
  · exact rd_wr_same (wb_canonical (wf_canonical (s := { s with evr := { s.evr with gen := [] } }) h)) _ _ _
  · refine (rd_audit_other hcan _ _ (evrTrig_lt hj) ?_).trans (rd_evrCleared h (evrTrig_lt hj) ?_ ?_)
    · simp only [List.mem_cons, List.not_mem_nil, or_false, not_or, Reg.EVR_TRIG, Reg.AUDIT_NEXT, Reg.AUDIT_LOST, Reg.ERR_COUNT, Reg.ERR_FIRST,
        Reg.EVT_STAT]
      omega
    · simp only [Reg.EVR_TRIG, Reg.EVR_STAT]; omega
    · simp only [Reg.EVR_TRIG, Reg.EVR_LOST]; omega

/-! ### The statement -/

/-- Settles O57: each command has its effect on the recorder. -/
theorem theRecorderIsConfiguredFencedAndCleared : Obligations.TheRecorderIsConfiguredFencedAndCleared := by
  intro fn i v s hs
  refine ⟨fun hw hi hoff hon hroom => ?trigger, fun hw hnone => ?fence, fun hfence => ?fenceDone, fun hw hroom => ?clear,
    fun hruns => ⟨?mirror, ?seconds, ?kick⟩⟩
  case trigger =>
    let u := wr s pgEvr (Reg.EVR_TRIG i) (v &&& 0x1073F07FF)
    have hu : u.canonical := wr_canonical hs
    have htrig : rd u pgEvr (Reg.EVR_TRIG i) = v &&& 0x1073F07FF := rd_wr_same hs _ _ _
    have hwritten : configEntry u i = _ := genWrite_room (configOf u i) (show u.evr.gen.length + 1 < 114688 from hroom)
    obtain ⟨hpage, hbit, hsnap, -⟩ := trigMask_fields v
    obtain ⟨hlen, htime, hwords⟩ := configOf_words u i
    obtain ⟨hcode, -, hvalid⟩ := mkEntry_fields u 6 ((List.range 6).map (configWord u i)) (show 3 < 4 by decide) hi
    have hclock : rd u pgErr Reg.ERR_TIME = rd s pgErr Reg.ERR_TIME :=
      rd_wr_other hs _ (evrTrig_lt hi) (by decide) fun x => absurd x.1 (by decide)
    have hnow : evrNow u = evrNow s := by
      simp only [evrNow, hclock]
      rfl
    have hsel : ∀ j, j < 6 → rf u pgEvr (Reg.EVR_SEL i j) 0 24 = rf s pgEvr (Reg.EVR_SEL i j) 0 24 := fun j hj =>
      congrArg (fld · 0 24) (rd_wr_other hs _ (evrTrig_lt hi) (by simp only [Reg.EVR_SEL]; omega) fun x => by
        simp only [Reg.EVR_SEL, Reg.EVR_TRIG] at x
        omega)
    obtain ⟨-, -, hwatch⟩ := configWord_fields u i (show 0 < 6 by decide)
    obtain ⟨hwatchPage, hwatchBit⟩ := hwatch rfl
    rw [htrig] at hwatchPage hwatchBit
    let w : State := { u with evr := { u.evr with gen := s.evr.gen ++ [configOf u i] } }
    have hcount : s.evr.gen.length + 1 < 2 ^ 17 := by omega
    refine completes_of_next rfl ((if_pos hi).trans ((withWrite_accepted hw _).trans ((writeTrig_enables hoff hon).trans hwritten)))
      ⟨?_, ?_, ⟨configOf u i, rfl, hlen, htime.trans hnow, configOf_kind u i, hcode, hvalid, ?_, ?_, fun j hj => ?_⟩, ?_⟩
    · refine (rd_wr_other (s := w) hu _ (by decide) (evrTrig_lt hi) fun x => ?_).trans htrig
      simp only [Reg.EVR_TRIG, Reg.EVR_STAT] at x
      omega
    · exact (rf_wf_same (s := w) hu _ _ _ _ _ (by decide)).trans (Nat.mod_eq_of_lt hcount)
    · exact (congrArg (fld · 32 11) (hwords 0 (by decide))).trans (hwatchPage.trans hpage)
    · exact (congrArg (fld · 48 6) (hwords 0 (by decide))).trans (hwatchBit.trans hbit)
    · obtain ⟨hlow, htaken, -⟩ := configWord_fields u i hj
      rw [hwords j hj]
      rw [htrig, hsnap] at htaken
      exact ⟨hlow.trans (hsel j hj), htaken⟩
    · have hsame : SameBut noReg u (configEntry u i) := genWrite_sameBut hu _
      rw [hwritten] at hsame
      exact ((wr_sameBut hs _ _ _ (evrTrig_lt hi)).mono fun _ _ x => ⟨x.1, .inl x.2⟩).trans' hsame.none
  case fence =>
    exact congrArg Host.Outcome.next ((withWrite_accepted hw _).trans (guarded_accepted (by rw [hnone]; rfl) _))
  case fenceDone =>
    let u : State := { s with evr := { s.evr with fence := false } }
    have hnext : (nextEpoch u).canonical := wf_canonical (s := u) hs
    have hsame := raiseEvt_sameBut hnext pgEvr 2
    refine completes_of_next rfl (if_pos hfence) ⟨?_, ?_, rb_raiseEvt_sets hnext _ (by decide),
      (wf_sameBut (s := u) hs _ _ _ _ _ (by decide)).trans' hsame.none⟩
    · exact (congrArg Evr.fence hsame.evr).symm
    · refine (hsame.rf_eq (by decide) ?_ id).trans (rf_wf_same (s := u) hs _ _ _ _ _ (by decide))
      decide
  case clear =>
    obtain ⟨haudit, hlost, hempty, htrigs, hcan, hmem⟩ := evrAudited_says hs hroom
    have hall := configAll_configured hcan (List.range 64) (fun _ => List.mem_range.1) (by rw [hempty]; decide)
    have hcounted : ((List.range 64).countP fun j => rb (evrAudited s) pgEvr (Reg.EVR_TRIG j) 32) =
        (List.range 64).countP fun j => rb s pgEvr (Reg.EVR_TRIG j) 32 :=
      List.countP_congr fun j hj => by rw [htrigs j (List.mem_range.1 hj)]
    refine completes_of_next (t := (List.range 64).foldl configIfOn (evrAudited s)) rfl
      ((withWrite_accepted hw _).trans (guarded_accepted hroom _)) ⟨?_, (hall.regs _ _ (by decide) (by decide)).trans hlost, ?_, ?_, ?_⟩
    · have hsame : ((List.range 64).foldl configIfOn (evrAudited s)).evr.audit = (evrAudited s).evr.audit := by rw [hall.rest]
      rw [hsame]
      exact haudit
    · rw [hall.count, hempty, hcounted, List.length_nil, Nat.zero_add]
    · intro e he
      refine (hall.kinds e he).resolve_left fun h => ?_
      rw [hempty] at h
      exact absurd h List.not_mem_nil
    · rw [hall.rest]
      exact hmem
  case mirror =>
    have hbase : rd (wr s pgEvr Reg.AUDIT_MIRRORED (rd s pgEvr Reg.AUDIT_NEXT)) pgEvr Reg.AUDIT_BASE = rd s pgEvr Reg.AUDIT_BASE :=
      rd_wr_other hs _ (by decide) (by decide) (by decide)
    let u : State := { s with evr := { s.evr with mirror := s.evr.audit, mirrorBase := (rd s pgEvr Reg.AUDIT_BASE).toNat } }
    refine completes_of_next rfl (if_pos hruns) ⟨rfl, rd_wr_same hs _ _ _, ?_⟩
    rw [mirrorAudit, hbase]
    exact wr_sameBut (s := u) hs _ _ _ (by decide)
  case seconds =>
    exact congrArg Host.Outcome.next (if_pos (by rw [secRuns, hruns]; rfl))
  case kick =>
    exact congrArg Host.Outcome.next (if_pos hruns)

end Sys2Proof.Machine
end

section
/-!
SUPPORT. IDE streams, vendor-defined requests and check-value units, and O51.
-/

namespace Sys2Proof.Machine

open Sys2Proof

/-! ### IDE streams (R367, R386) -/

/-- A message of F0's session that names a stream and a set reaches the stream (R386). -/
theorem ideKm_taken {s : State} {stream set : Nat} {v : IdeStream} (hopen : doeOpen s 0 = true) (hin : inSession s 0 = true)
    (hstream : s.pcie.ide[stream]? = some v) (hset : set < 2) (f : State → IdeStream → State) :
    ideKm s 0 stream set f = f s v := by
  have hok : (inSession s 0 && decide (0 = 0) && decide (set < 2)) = true := by simp [hin, hset]
  rw [ideKm, hstream]
  exact spdmAsk_taken hopen hok _

/-- A stream that is replaced. -/
theorem setIde_get {s : State} {stream : Nat} {v : IdeStream} (h : s.pcie.ide[stream]? = some v) (w : IdeStream) :
    (setIde s stream w).pcie.ide[stream]? = some w := by
  have hlt : stream < s.pcie.ide.length := (List.getElem?_eq_some_iff.1 h).1
  exact List.getElem?_set_self hlt

/-- The link's own stream shows in `LINK_STAT`, and nothing else changes (R367). -/
theorem showIde_says {s : State} (h : s.canonical) (stream : Nat) (on : Bool) :
    (stream = 0 → rb (showIde s stream on) pgPcie Reg.LINK_STAT 13 = on) ∧
    SameBut (oneReg pgPcie Reg.LINK_STAT) s (showIde s stream on) := by
  unfold showIde
  split
  · have hset : (wb s pgPcie Reg.LINK_STAT 13 on).canonical := wb_canonical h
    exact ⟨fun _ => (congrArg (bit · 13) (rd_raiseEvt hset (by decide) (not_evtReg_of_page (by decide) (by decide)))).trans
      (rb_wb_same h _ _ _ _ (by decide)), (wb_sameBut h _ _ _ _ (by decide)).trans' (raiseEvt_sameBut hset _ _).none⟩
  · next hshown => exact ⟨fun hstream => not_not.1 fun hne => hshown ⟨hstream, hne⟩, .refl _ _⟩

/-- What the endpoint held before does not matter where what it holds after is taken for granted. -/
theorem SameBut.fromPcie {q : Nat → Nat → Prop} {s t : State} {e : Pcie} (h : SameBut q { s with pcie := e } t) :
    SameBut q { s with pcie := t.pcie } t where
  regs := h.regs
  rest := h.rest
  pcie := rfl
  cfg := rfl
  board := h.board
  evr := h.evr
  err := h.err
  out := h.out

/-- The streams of the endpoint do not change with marks. -/
theorem SameBut.ide {q : Nat → Nat → Prop} {s t : State} (h : SameBut q s t) : t.pcie.ide = s.pcie.ide :=
  (congrArg Pcie.ide h.pcie).symm

/-- A stream is replaced, and what the link shows of it follows. -/
theorem ideShown_says {s : State} (h : s.canonical) {stream : Nat} {v : IdeStream} (hstream : s.pcie.ide[stream]? = some v)
    (w : IdeStream) (on : Bool) (code : Nat) (b : Bytes) :
    let t := spdmSend (showIde (setIde s stream w) stream on) 0 code b
    t.pcie.ide[stream]? = some w ∧ (stream = 0 → rb t pgPcie Reg.LINK_STAT 13 = on) ∧
    SameBut (oneReg pgPcie Reg.LINK_STAT) { s with pcie := t.pcie } t := by
  obtain ⟨hshown, hsame⟩ := showIde_says (s := setIde s stream w) h stream on
  refine ⟨?_, hshown, (hsame.trans' (emit_sameBut _ _).none).fromPcie⟩
  exact (congrArg (·[stream]?) hsame.ide).trans (setIde_get hstream w)

/-- The request of a session in the function's secure mailbox (R383, R442). -/
def vendorTaken (s : State) (fn : Nat) (b : Bytes) : State :=
  let w := wrWords s (pgMbx true) (Reg.REQ fn 0) (bytesWords (fitBytes b 256) 32)
  wf (wb w (pgMbx true) (Reg.MBX_STAT fn) 4 false) (pgMbx true) (Reg.MBX_STAT fn) 0 3 1

theorem vendorTaken_says {s : State} (h : s.canonical) {fn : Nat} (hfn : fn ≤ 16) (b : Bytes) :
    let t := vendorTaken s fn b
    mbxState t true fn = 1 ∧ rb t (pgMbx true) (Reg.MBX_STAT fn) 4 = false ∧
    (∀ i, i < 32 → rd t (pgMbx true) (Reg.REQ fn i) = (bytesWords (fitBytes b 256) 32).getD i 0) ∧
    SameBut (fun q o => q = pgMbx true ∧ (o = Reg.MBX_STAT fn ∨ ∃ i, i < 32 ∧ o = Reg.REQ fn i)) s t := by
  obtain ⟨hw, hwords, hsame⟩ := reqWords_says h true hfn (fitBytes b 256)
  have hb : (wb (wrWords s (pgMbx true) (Reg.REQ fn 0) (bytesWords (fitBytes b 256) 32)) (pgMbx true) (Reg.MBX_STAT fn) 4
      false).canonical := wb_canonical hw
  obtain ⟨hstate, hfull⟩ := setMbxState hb true hfn (show 1 < 8 by decide)
  have hstat := (wb_sameBut hw (pgMbx true) (Reg.MBX_STAT fn) 4 false (mbxStat_lt hfn)).trans' hfull
  refine ⟨hstate, (rb_wf_other hb _ _ _ _ _ _ (by decide) (by decide)).trans (rb_wb_same hw _ _ _ _ (by decide)), fun i hi => ?_,
    (hsame.mono fun _ _ x => ⟨x.1, .inr x.2⟩).trans' (hstat.mono fun _ _ x => ⟨x.1, .inl x.2⟩)⟩
  refine (hstat.rd_eq (p := pgMbx true) (by simp only [Reg.REQ]; omega)
    (not_evtReg_mailbox true (by simp only [Reg.REQ]; omega)) ?_).trans (hwords i hi)
  simp only [Reg.REQ, Reg.MBX_STAT]
  omega

/-! ### Check-value units (R458 to R462) -/

theorem pgCvu_ne_evr (u : Nat) : pgCvu u ≠ pgEvr := by simp only [pgCvu, pgEvr]; omega

/-- The registers that a block changes. -/
abbrev blockReg (u q o : Nat) : Prop :=
  q = pgCvu u ∧ (o = Reg.CVU_RUN ∨ o = Reg.CVU_STAT ∨ o = Reg.CVU_BLOCKS ∨ o = Reg.CVU_MISMATCHES ∨ o = Reg.CVU_ALIVE)

/-- Another register of the page after one is written. -/
theorem rd_wr_offset {s : State} (h : s.canonical) {p off o : Nat} (v : Word) (hoff : off < 0x10000) (ho : o < 0x10000)
    (hne : o ≠ off) : rd (wr s p off v) p o = rd s p o := rd_wr_other h v hoff ho fun x => hne x.2

/-- A block begins at Init, with the alive counter fed first where ALIVE_EN is set (R458, R459). -/
theorem cvuBegin_says {s : State} (h : s.canonical) (u : Nat) :
    cvuIsOpen (cvuBegin s u) u = true ∧
    rd (cvuBegin s u) (pgCvu u) Reg.CVU_RUN = (if rb s (pgCvu u) Reg.CVU_CFG 5 then
        w64 (crcFeed (cvuAlg s u) (w64 (crcParams (cvuAlg s u)).2.2.1).toNat [BitVec.ofNat 8 (rf s (pgCvu u) Reg.CVU_ALIVE 0 8)])
      else w64 (crcParams (cvuAlg s u)).2.2.1) ∧
    SameBut (blockReg u) s (cvuBegin s u) := by
  let init := wr s (pgCvu u) Reg.CVU_RUN (w64 (crcParams (cvuAlg s u)).2.2.1)
  let opened := wb init (pgCvu u) Reg.CVU_STAT 8 true
  have hinit : init.canonical := wr_canonical h
  have hopened : opened.canonical := wb_canonical hinit
  have hrd : ∀ o, o < 0x10000 → o ≠ Reg.CVU_STAT → rd opened (pgCvu u) o = rd init (pgCvu u) o :=
    fun o ho hne => rd_wr_offset hinit _ (by decide) ho hne
  have hrun : rd opened (pgCvu u) Reg.CVU_RUN = w64 (crcParams (cvuAlg s u)).2.2.1 :=
    (hrd _ (by decide) (by decide)).trans (rd_wr_same h _ _ _)
  have hcfg : rd opened (pgCvu u) Reg.CVU_CFG = rd s (pgCvu u) Reg.CVU_CFG :=
    (hrd _ (by decide) (by decide)).trans (rd_wr_offset h _ (by decide) (by decide) (by decide))
  have halive : rd opened (pgCvu u) Reg.CVU_ALIVE = rd s (pgCvu u) Reg.CVU_ALIVE :=
    (hrd _ (by decide) (by decide)).trans (rd_wr_offset h _ (by decide) (by decide) (by decide))
  have hsame : SameBut (blockReg u) s opened :=
    ((wr_sameBut h _ _ _ (by decide)).mono fun _ _ x => ⟨x.1, .inl x.2⟩).trans'
      ((wb_sameBut hinit _ _ _ _ (by decide)).mono fun _ _ x => ⟨x.1, .inr (.inl x.2)⟩)
  have hopen : rb opened (pgCvu u) Reg.CVU_STAT 8 = true := rb_wb_same hinit _ _ _ _ (by decide)
  have hbegin : cvuBegin s u = if rb s (pgCvu u) Reg.CVU_CFG 5 then
      cvuBytes opened u [BitVec.ofNat 8 (rf s (pgCvu u) Reg.CVU_ALIVE 0 8)] else opened := by
    rw [rb, ← hcfg, rf, ← halive]
    rfl
  rw [hbegin]
  by_cases hfed : rb s (pgCvu u) Reg.CVU_CFG 5 = true
  · rw [if_pos hfed, if_pos hfed]
    refine ⟨(congrArg (bit · 8) (rd_wr_offset hopened _ (by decide) (by decide) (by decide))).trans hopen,
      (rd_wr_same hopened _ _ _).trans ?_, hsame.trans' ((wr_sameBut hopened _ _ _ (by decide)).mono fun _ _ x => ⟨x.1, .inl x.2⟩)⟩
    rw [hrun, cvuAlg, rf, hcfg]
    rfl
  · rw [if_neg hfed, if_neg hfed]
    exact ⟨hopen, hrun, hsame⟩

/-- A block is closed, counted and compared (R459). -/
def cvuCompared (s : State) (u : Nat) (ok : Bool) : State :=
  wf (raiseEvt (addReg (wb (wr s (pgCvu u) Reg.CVU_RUN (w64 (cvuFinal s u))) (pgCvu u) Reg.CVU_STAT 8 false) (pgCvu u)
    Reg.CVU_BLOCKS 1) (pgCvu u) 1) (pgCvu u) Reg.CVU_STAT 0 2 (if ok then 1 else 2)

theorem cvuCompared_says {s : State} (h : s.canonical) (u : Nat) (ok : Bool) :
    let t := cvuCompared s u ok
    t.canonical ∧ cvuIsOpen t u = false ∧ rd t (pgCvu u) Reg.CVU_RUN = w64 (cvuFinal s u) ∧
    rf t (pgCvu u) Reg.CVU_STAT 0 2 = (if ok then 1 else 2) ∧
    rd t (pgCvu u) Reg.CVU_BLOCKS = rd s (pgCvu u) Reg.CVU_BLOCKS + 1 ∧
    rd t (pgCvu u) Reg.CVU_MISMATCHES = rd s (pgCvu u) Reg.CVU_MISMATCHES ∧
    rd t (pgCvu u) Reg.CVU_ALIVE = rd s (pgCvu u) Reg.CVU_ALIVE ∧ SameBut (blockReg u) s t := by
  let final := wr s (pgCvu u) Reg.CVU_RUN (w64 (cvuFinal s u))
  let closed := wb final (pgCvu u) Reg.CVU_STAT 8 false
  let counted := addReg closed (pgCvu u) Reg.CVU_BLOCKS 1
  let raised := raiseEvt counted (pgCvu u) 1
  have hfinal : final.canonical := wr_canonical h
  have hclosed : closed.canonical := wb_canonical hfinal
  have hcounted : counted.canonical := addReg_canonical hclosed
  have hraised : raised.canonical := raiseEvt_canonical hcounted
  have hevent : ∀ o, o < 0x10000 → o ≠ Reg.EVT_STAT → rd raised (pgCvu u) o = rd counted (pgCvu u) o :=
    fun o ho hne => rd_raiseEvt hcounted ho (not_evtReg_of_page (pgCvu_ne_evr u) hne)
  have hother : ∀ o, o < 0x10000 → o ≠ Reg.EVT_STAT → o ≠ Reg.CVU_STAT → o ≠ Reg.CVU_BLOCKS → o ≠ Reg.CVU_RUN →
      rd raised (pgCvu u) o = rd s (pgCvu u) o := fun o ho hevt hstat hblocks hrun =>
    (hevent o ho hevt).trans ((rd_wr_offset hclosed _ (by decide) ho hblocks).trans
      ((rd_wr_offset hfinal _ (by decide) ho hstat).trans (rd_wr_offset h _ (by decide) ho hrun)))
  have hlast : ∀ o, o < 0x10000 → o ≠ Reg.CVU_STAT → rd (cvuCompared s u ok) (pgCvu u) o = rd raised (pgCvu u) o :=
    fun o ho hne => rd_wr_offset hraised _ (by decide) ho hne
  refine ⟨wf_canonical hraised, ?_, ?_, ?_, ?_, ?_, ?_, ?_⟩
  · refine (rb_wf_other hraised _ _ _ _ _ _ (by decide) (by decide)).trans ((congrArg (bit · 8) (hevent _ (by decide) (by decide))).trans ?_)
    exact (congrArg (bit · 8) (rd_wr_offset hclosed _ (by decide) (by decide) (by decide))).trans (rb_wb_same hfinal _ _ _ _ (by decide))
  · refine (hlast _ (by decide) (by decide)).trans ((hevent _ (by decide) (by decide)).trans ?_)
    exact (rd_wr_offset hclosed _ (by decide) (by decide) (by decide)).trans
      ((rd_wr_offset hfinal _ (by decide) (by decide) (by decide)).trans (rd_wr_same h _ _ _))
  · exact (rf_wf_same hraised _ _ _ _ _ (by decide)).trans (by cases ok <;> rfl)
  · refine (hlast _ (by decide) (by decide)).trans ((hevent _ (by decide) (by decide)).trans ((rd_wr_same hclosed _ _ _).trans ?_))
    have hblocks : rd closed (pgCvu u) Reg.CVU_BLOCKS = rd s (pgCvu u) Reg.CVU_BLOCKS :=
      (rd_wr_offset hfinal _ (by decide) (by decide) (by decide)).trans (rd_wr_offset h _ (by decide) (by decide) (by decide))
    rw [hblocks]
    rfl
  · exact (hlast _ (by decide) (by decide)).trans (hother _ (by decide) (by decide) (by decide) (by decide) (by decide))
  · exact (hlast _ (by decide) (by decide)).trans (hother _ (by decide) (by decide) (by decide) (by decide) (by decide))
  · have hstat := fun {v w : State} (x : SameBut (oneReg (pgCvu u) Reg.CVU_STAT) v w) =>
      x.mono (r := blockReg u) fun _ _ y => ⟨y.1, .inr (.inl y.2)⟩
    exact ((((wr_sameBut h _ _ _ (by decide)).mono fun _ _ x => ⟨x.1, .inl x.2⟩).trans'
      (hstat (wb_sameBut hfinal _ _ _ _ (by decide)))).trans' (((addReg_sameBut hclosed _ _ _ (by decide)).mono fun _ _ x =>
        ⟨x.1, .inr (.inr (.inl x.2))⟩).trans' (raiseEvt_sameBut hcounted _ _).none)).trans'
      (hstat (wf_sameBut hraised _ _ _ _ _ (by decide)))

/-- A block is closed and its value compared: a match advances the alive counter, and a mismatch is counted (R459). -/
theorem cvuEnd_says {s : State} (h : s.canonical) (u : Nat) (ok : Bool) :
    let t := cvuEnd s u (some ok)
    cvuIsOpen t u = false ∧ rd t (pgCvu u) Reg.CVU_RUN = w64 (cvuFinal s u) ∧
    rf t (pgCvu u) Reg.CVU_STAT 0 2 = (if ok then 1 else 2) ∧
    rd t (pgCvu u) Reg.CVU_BLOCKS = rd s (pgCvu u) Reg.CVU_BLOCKS + 1 ∧
    rd t (pgCvu u) Reg.CVU_MISMATCHES = rd s (pgCvu u) Reg.CVU_MISMATCHES + (if ok then 0 else 1) ∧
    rf t (pgCvu u) Reg.CVU_ALIVE 0 8 = (rf s (pgCvu u) Reg.CVU_ALIVE 0 8 + (if ok then 1 else 0)) % 256 ∧
    SameBut (blockReg u) s t := by
  obtain ⟨hcan, hopen, hrun, hresult, hblocks, hmismatches, halive, hsame⟩ := cvuCompared_says h u ok
  cases ok with
  | true =>
    have hend : cvuEnd s u (some true) = wf (cvuCompared s u true) (pgCvu u) Reg.CVU_ALIVE 0 8
      (rf (cvuCompared s u true) (pgCvu u) Reg.CVU_ALIVE 0 8 + 1) := rfl
    have hrd : ∀ o, o < 0x10000 → o ≠ Reg.CVU_ALIVE → rd (cvuEnd s u (some true)) (pgCvu u) o = rd (cvuCompared s u true) (pgCvu u) o :=
      fun o ho hne => rd_wr_offset hcan _ (by decide) ho hne
    refine ⟨(congrArg (bit · 8) (hrd _ (by decide) (by decide))).trans hopen, (hrd _ (by decide) (by decide)).trans hrun,
      (congrArg (fld · 0 2) (hrd _ (by decide) (by decide))).trans hresult, (hrd _ (by decide) (by decide)).trans hblocks,
      ((hrd _ (by decide) (by decide)).trans hmismatches).trans (BitVec.add_zero _).symm, ?_,
      hsame.trans' ((wf_sameBut hcan _ _ _ _ _ (by decide)).mono fun _ _ x => ⟨x.1, .inr (.inr (.inr (.inr x.2)))⟩)⟩
    rw [hend, rf_wf_same hcan _ _ _ _ _ (by decide), rf, halive]
    rfl
  | false =>
    let counted := addReg (cvuCompared s u false) (pgCvu u) Reg.CVU_MISMATCHES 1
    have hcounted : counted.canonical := addReg_canonical hcan
    have hevent : ∀ o, o < 0x10000 → o ≠ Reg.EVT_STAT → rd (cvuEnd s u (some false)) (pgCvu u) o = rd counted (pgCvu u) o :=
      fun o ho hne => rd_raiseEvt hcounted ho (not_evtReg_of_page (pgCvu_ne_evr u) hne)
    have hrd : ∀ o, o < 0x10000 → o ≠ Reg.EVT_STAT → o ≠ Reg.CVU_MISMATCHES →
        rd (cvuEnd s u (some false)) (pgCvu u) o = rd (cvuCompared s u false) (pgCvu u) o := fun o ho hevt hne =>
      (hevent o ho hevt).trans (rd_wr_offset hcan _ (by decide) ho hne)
    refine ⟨(congrArg (bit · 8) (hrd _ (by decide) (by decide) (by decide))).trans hopen,
      (hrd _ (by decide) (by decide) (by decide)).trans hrun,
      (congrArg (fld · 0 2) (hrd _ (by decide) (by decide) (by decide))).trans hresult,
      (hrd _ (by decide) (by decide) (by decide)).trans hblocks, ?_, ?_,
      hsame.trans' (((addReg_sameBut hcan _ _ _ (by decide)).mono fun _ _ x => ⟨x.1, .inr (.inr (.inr (.inl x.2)))⟩).trans'
        (raiseEvt_sameBut hcounted _ _).none)⟩
    · refine (hevent _ (by decide) (by decide)).trans ((rd_wr_same hcan _ _ _).trans ?_)
      rw [hmismatches]
      rfl
    · rw [rf, hrd _ (by decide) (by decide) (by decide), halive]
      exact (Nat.mod_eq_of_lt (rf_lt s _ _ 0 8)).symm

/-- A unit that is assigned, with its page's owner (R461). -/
def cvuAssigned (s : State) (u : Nat) (v : Word) : State :=
  updWire (wr (wr s (pgCvu u) Reg.CVU_ASSIGN (v &&& 0x9F)) (pgCvu u) Reg.OWNER
    (w64 (if bit v 7 ∧ fld v 0 5 ≠ 0 then fld v 0 5 - 1 else 0xFF)))

theorem cvuAssigned_says {s : State} (h : s.canonical) (u : Nat) {v : Word} (hvalid : bit v 7 = true) (hfn : fld v 0 5 ≤ 16) :
    let t := cvuAssigned s u v
    rf t (pgCvu u) Reg.CVU_ASSIGN 0 5 = fld v 0 5 ∧ rb t (pgCvu u) Reg.CVU_ASSIGN 7 = true ∧
    rf t (pgCvu u) Reg.OWNER 0 8 = (if fld v 0 5 = 0 then 0xFF else fld v 0 5 - 1) ∧
    SameBut (fun q o => q = pgCvu u ∧ (o = Reg.CVU_ASSIGN ∨ o = Reg.OWNER)) s t := by
  let assigned := wr s (pgCvu u) Reg.CVU_ASSIGN (v &&& 0x9F)
  let owned := wr assigned (pgCvu u) Reg.OWNER (w64 (if bit v 7 ∧ fld v 0 5 ≠ 0 then fld v 0 5 - 1 else 0xFF))
  have hassigned : assigned.canonical := wr_canonical h
  have howned : owned.canonical := wr_canonical hassigned
  have hregs : ∀ o, rd (cvuAssigned s u v) (pgCvu u) o = rd owned (pgCvu u) o := fun o => by
    rw [rd, cvuAssigned, updWire_regs]
    rfl
  have hassign : rd (cvuAssigned s u v) (pgCvu u) Reg.CVU_ASSIGN = v &&& 0x9F :=
    (hregs _).trans ((rd_wr_offset hassigned _ (by decide) (by decide) (by decide)).trans (rd_wr_same h _ _ _))
  have howner : rd (cvuAssigned s u v) (pgCvu u) Reg.OWNER = w64 (if fld v 0 5 = 0 then 0xFF else fld v 0 5 - 1) := by
    refine (hregs _).trans ((rd_wr_same hassigned _ _ _).trans (congrArg w64 ?_))
    simp only [hvalid, true_and, ne_eq, ite_not]
  refine ⟨(congrArg (fld · 0 5) hassign).trans (fld_and_mask _ _ (by decide)), ?_, ?_,
    (((wr_sameBut h _ _ _ (by decide)).mono fun _ _ x => ⟨x.1, .inl x.2⟩).trans'
      ((wr_sameBut hassigned _ _ _ (by decide)).mono fun _ _ x => ⟨x.1, .inr x.2⟩)).trans' (updWire_sameBut howned).none⟩
  · rw [rb, hassign, bit, BitVec.getLsbD_and, show BitVec.getLsbD (0x9F : Word) 7 = true by decide, Bool.and_true]
    exact hvalid
  · rw [rf, howner]
    generalize fld v 0 5 = f at hfn ⊢
    revert f
    decide

/-! ### The statement -/

/-- Settles O51: a session's requests and a unit's commands take their effect. -/
theorem sessionsStreamKeysAndCheckValues : Obligations.SessionsStreamKeysAndCheckValues := by
  refine ⟨fun fn stream set x v s hs hfn hopen hin => ⟨fun hpart hidle => ?vendor, ?streams⟩,
    fun fn u v s hs hu => ?units⟩
  case vendor =>
    have hok : (inSession s fn && decide (0xB4A7 = 0xB4A7) && decide (fn ≠ 0)) = true := by simp [hin, hpart]
    exact completes_of_next rfl ((spdmAsk_taken hopen hok _).trans (if_pos hidle)) (vendorTaken_says hs (by omega) x)
  case streams =>
    rintro rfl hstream hset hkeys
    have hok : (inSession s 0 && decide (0 = 0)) = true := by simp [hin]
    refine ⟨congrArg Host.Outcome.next (spdmAsk_taken hopen hok _), ?_, fun hkey => ?_, fun hactive => ?_⟩
    · exact completes_of_next rfl (ideKm_taken hopen hin hstream hset _) ⟨setIde_get hstream _, rfl⟩
    · have hheld : ¬ (v.keys.getD set []).isEmpty = true := by simpa using hkey
      exact completes_of_next rfl ((ideKm_taken hopen hin hstream hset _).trans (if_neg hheld)) (ideShown_says hs hstream _ true 0x7E [5])
    · refine completes_of_next rfl ((ideKm_taken hopen hin hstream hset _).trans ?_) (ideShown_says hs hstream { v with active := none } false 0x7E [5])
      exact congrArg (spdmSend · 0 0x7E [5]) (if_pos hactive)
  case units =>
    have hunit : ¬ 8 ≤ u := by omega
    refine ⟨fun hmay hpath => ⟨?cvuOpen, fun hopen => ?cvuClose⟩, fun hmay hpath hopen hgo hone height => ?cvuFeed,
      fun hclosed => ⟨fun hmay hacts hvalid hfn => ?cvuAssign, fun hmay => ?cvuRun, fun hmay => ?cvuAlive⟩⟩
    case cvuOpen =>
      exact completes_of_next rfl ((if_neg hunit).trans ((withWrite_accepted hmay _).trans (guarded_accepted (by simp [hpath]) _)))
        (cvuBegin_says hs u)
    case cvuClose =>
      exact completes_of_next rfl ((if_neg hunit).trans ((withWrite_accepted hmay _).trans
        (guarded_accepted (by simp [hpath, hopen]) _))) (cvuEnd_says hs u _)
    case cvuFeed =>
      exact completes_of_next rfl ((if_neg hunit).trans ((withWrite_accepted hmay _).trans ((if_pos hgo).trans
        (guarded_accepted (by simp [hpath, hopen, hone, height]) _)))) ⟨rd_wr_same hs _ _ _, wr_sameBut hs _ _ _ (by decide)⟩
    case cvuAssign =>
      exact completes_of_next rfl ((if_neg hunit).trans ((withOperator_accepted hmay hacts _).trans
        (guarded_accepted (by simp [hclosed, hfn]) _))) (cvuAssigned_says hs u hvalid hfn)
    case cvuRun =>
      exact completes_of_next rfl ((if_neg hunit).trans ((withWrite_accepted hmay _).trans (guarded_accepted (by simp [hclosed]) _)))
        ⟨rd_wr_same hs _ _ _, wr_sameBut hs _ _ _ (by decide)⟩
    case cvuAlive =>
      exact completes_of_next rfl ((if_neg hunit).trans ((withWrite_accepted hmay _).trans (guarded_accepted (by simp [hclosed]) _)))
        ⟨(congrArg (fld · 0 8) (rd_wr_same hs _ _ _)).trans (fld_and_mask _ _ (by decide)), wr_sameBut hs _ _ _ (by decide)⟩

end Sys2Proof.Machine
end

section
/-!
SUPPORT. The security core's unsigned commands, debug certificates and intents.
-/

namespace Sys2Proof.Machine

open Sys2Proof

/-! ### How an unsigned command of the security core ends (R399, R410) -/

/-- A command that has changed no mailbox is answered, and what it has made stays as it is. -/
theorem secDone_answers {s u v : State} {code : Nat} {b : Bytes} (htaken : takenReq s true 0 code = some b)
    (hmail : SameMail true s u) (hmbx : u.mbx = s.mbx) (hmem : SameMemory s u) (hrec : Recorded u v) (hcode : code < 0x8000)
    (status : Nat) (body : Bytes) :
    let t := secDone v b status body
    SecLeaves u t ∧ t.mbx = s.mbx ++ [mbxAnswer true 0 code status body] ∧ SameMemory s t := by
  have hsame := secMarked_sameBut hrec.canonical b status
  have hmarked : SameMail true v (secMarked v b status) := hsame.sameMail fun _ _ x => absurd x.1 (by decide)
  have hstays : secDone v b status body = { secMarked v b status with mbx := s.mbx ++ [mbxAnswer true 0 code status body] } := by
    obtain ⟨-, rfl, -⟩ := takenReq_eq htaken
    refine reply_stays htaken (fun off h1 h2 => ((hmarked off h1 h2).trans (hrec.sameMail off h1 h2)).trans (hmail off h1 h2)) ?_
      hcode status body
    rw [hsame.rest]
    exact hrec.mbx.trans hmbx
  have hleaves : SecLeaves v (secDone v b status body) := by
    rw [hstays]
    exact ⟨congrArg (·.fuse) hsame.rest, congrArg (·.flash) hsame.rest, congrArg (·.sec) hsame.rest,
      (congrArg Evr.mirror hsame.evr).symm, (congrArg Evr.mirrorBase hsame.evr).symm, fun _ _ ho he _ hl => hsame.rd_eq ho he hl⟩
  refine ⟨hleaves.after hrec, by rw [hstays], ?_⟩
  rw [hstays]
  exact ⟨hsame.mem_eq.trans (hrec.memory.1.trans hmem.1), hsame.hostMem_eq.trans (hrec.memory.2.trans hmem.2)⟩

/-- A flash write that fails is answered UNCORRECTABLE (R410). -/
theorem writeFails_answers {s u v : State} {code : Nat} {b : Bytes} (htaken : takenReq s true 0 code = some b)
    (hmail : SameMail true s u) (hmbx : u.mbx = s.mbx) (hmem : SameMemory s u) (hrec : Recorded u v) (hcode : code < 0x8000)
    (err : Nat) :
    let t := writeFails v b err
    SecLeaves u t ∧ t.mbx = s.mbx ++ [mbxAnswer true 0 code 4 []] ∧ SameMemory s t :=
  secDone_answers htaken hmail hmbx hmem (hrec.trans (countError_recorded hrec.canonical err 4 0 none)) hcode 4 []

/-- A command that the recovery path does not keep out is served (R399, R466). -/
theorem unsigned_serves {s : State} {code : Nat} {b : Bytes} (htaken : takenReq s true 0 code = some b) {recovery : Bool}
    (hpath : recovery = true ∨ s.boot.phase ≠ .recovery) (k : State → Bytes → State) : unsigned s code recovery k = k s b := by
  refine (onTaken_taken htaken _).trans (if_neg ?_)
  rcases hpath with rfl | hphase
  · simp
  · simp [hphase]

/-! ### Nonces and staged data (R398, R399) -/

/-- The nonce that is given out next. -/
def nextNonce (s : State) : Bytes := fitBytes (Config.freeBytes (draw s).1 32) 32

def nonceGiven (s : State) : State := { (draw s).2 with sec := { (draw s).2.sec with nonce := some (nextNonce s) } }

theorem getNonce_says {s : State} (hs : s.canonical) {b : Bytes} (htaken : takenReq s true 0 0x0301 = some b) :
    Completes .getNonce s fun t =>
      ∃ n, n.length = 32 ∧ t.sec.nonce = some n ∧ t.mbx = s.mbx ++ [mbxAnswer true 0 0x0301 0 (zeroBytes 12 ++ n)] ∧
        t.fuse = s.fuse ∧ t.flash = s.flash ∧ SameMemory s t := by
  have hrec : Recorded (nonceGiven s) (nonceGiven s) := .refl hs
  obtain ⟨hleaves, hmbx, hmem⟩ := secDone_answers htaken (u := nonceGiven s) (fun _ _ _ => rfl) rfl ⟨rfl, rfl⟩ hrec (by decide) 0
    (zeroBytes 12 ++ nextNonce s)
  exact completes_of_next rfl (unsigned_serves htaken (.inl rfl) _)
    ⟨nextNonce s, length_fitBytes _ _, congrArg (·.nonce) hleaves.sec, hmbx, hleaves.fuse, hleaves.flash, hmem⟩

/-- Bytes that are staged. -/
def stagePut (s : State) (b : Bytes) : State :=
  { s with sec := { s.sec with stage := putBytes s.sec.stage (leAt b 4 2) (slice b 8 (leAt b 6 2)) } }

theorem stageData_says {s : State} (hs : s.canonical) {b : Bytes} (htaken : takenReq s true 0 0x030B = some b)
    (hfits : leAt b 4 2 % 8 = 0 ∧ leAt b 4 2 < 2048 ∧ 1 ≤ leAt b 6 2 ∧ leAt b 6 2 ≤ 192 ∧ leAt b 4 2 + leAt b 6 2 ≤ 2048) :
    Completes .stageData s fun t =>
      t.sec = { s.sec with stage := putBytes s.sec.stage (leAt b 4 2) (slice b 8 (leAt b 6 2)) } ∧
      t.mbx = s.mbx ++ [mbxAnswer true 0 0x030B 0 []] ∧ SameMemory s t := by
  have hrec : Recorded (stagePut s b) (stagePut s b) := .refl hs
  obtain ⟨hleaves, hmbx, hmem⟩ := secDone_answers htaken (u := stagePut s b) (fun _ _ _ => rfl) rfl ⟨rfl, rfl⟩ hrec (by decide) 0 []
  exact completes_of_next rfl ((unsigned_serves htaken (.inl rfl) _).trans (if_pos hfits)) ⟨hleaves.sec, hmbx, hmem⟩

/-! ### Debug certificates (R404 to R406) -/

theorem getD_set_same {l : List (Option Bytes)} {i : Nat} (h : i < l.length) (x : Option Bytes) : (l.set i x).getD i none = x := by
  rw [List.getD_eq_getElem?_getD, List.getElem?_set_self h]
  rfl

/-- A certificate that is installed, with its copy in flash. -/
def certPut (s : State) (slot : Nat) (c : Bytes) : State :=
  { s with
    sec := { s.sec with certs := s.sec.certs.set slot (some c), stage := [] }
    flash := { s.flash with certs := s.flash.certs.set slot (some c) } }

/-- An installation is audited and shown (R405, R455). -/
theorem certPut_recorded {s : State} (h : s.canonical) (slot : Nat) (c : Bytes) :
    Recorded (certPut s slot c) (updIso (raiseEvt (audit (certPut s slot c) 7 [certWord (some c)]) pgSec 1)) := by
  have haudit := audit_recorded (s := certPut s slot c) h 7 [certWord (some c)]
  have hraised := raiseEvt_recorded haudit.canonical pgSec 1
  exact (haudit.trans hraised).trans (updIso_recorded hraised.canonical)

theorem installDebugCert_says {s : State} (hs : s.canonical) {b : Bytes} (htaken : takenReq s true 0 0x0308 = some b)
    (hphase : s.boot.phase ≠ .recovery) (hroom : auditRoom s = true) (hslot : leAt b 56 1 < 4)
    (hlaid : certLaid s.sec.stage = true) (hmine : certMine s s.sec.stage = true) (hsigned : certSigned s s.sec.stage = true)
    (hcurrent : certCurrent s s.sec.stage = true) (hcerts : s.sec.certs.length = 4) (hsaved : s.flash.certs.length = 4)
    (hfree : s.sec.certs.getD (leAt b 56 1) none = none) (ok : Bool) :
    Completes (.installDebugCert ok) s fun t =>
      t.sec.certs.getD (leAt b 56 1) none = (if ok then some s.sec.stage else none) ∧
      t.flash.certs.getD (leAt b 56 1) none = (if ok then some s.sec.stage else s.flash.certs.getD (leAt b 56 1) none) ∧
      t.sec.stage = [] ∧ t.mbx = s.mbx ++ [mbxAnswer true 0 0x0308 (if ok then 0 else 4) []] ∧ t.fuse = s.fuse ∧ SameMemory s t := by
  have hfits : ¬(3 < leAt b 56 1 ∨ certLaid s.sec.stage = false) := by simp [hlaid]; omega
  have hheld : ¬(!(certCurrent s s.sec.stage) || (s.sec.certs.getD (leAt b 56 1) none).isSome) = true := by
    rw [hcurrent, hfree]
    decide
  have hexec : exec (.installDebugCert ok) s = .next (if !ok then writeFails (stageTaken s) b 3
      else secDone (updIso (raiseEvt (audit (certPut s (leAt b 56 1) s.sec.stage) 7 [certWord (some s.sec.stage)]) pgSec 1)) b 0 []) :=
    congrArg Host.Outcome.next ((unsigned_serves htaken (.inr hphase) _).trans ((if_neg (not_checkFails hroom)).trans ((if_neg hfits).trans
      ((if_neg (not_checkFails hmine)).trans ((if_neg (not_checkFails hsigned)).trans (if_neg hheld))))))
  cases ok with
  | true =>
    obtain ⟨hleaves, hmbx, hmem⟩ := secDone_answers htaken (u := certPut s (leAt b 56 1) s.sec.stage) (fun _ _ _ => rfl) rfl
      ⟨rfl, rfl⟩ (certPut_recorded hs _ _) (by decide) 0 []
    exact completes_of_next hexec rfl ⟨(congrArg (fun e : Sec => e.certs.getD (leAt b 56 1) none) hleaves.sec).trans (getD_set_same (hcerts ▸ hslot) _),
      (congrArg (fun e : Flash => e.certs.getD (leAt b 56 1) none) hleaves.flash).trans (getD_set_same (hsaved ▸ hslot) _), congrArg (·.stage) hleaves.sec, hmbx,
      hleaves.fuse, hmem⟩
  | false =>
    have hrec : Recorded (stageTaken s) (stageTaken s) := .refl hs
    obtain ⟨hleaves, hmbx, hmem⟩ := writeFails_answers htaken (u := stageTaken s) (fun _ _ _ => rfl) rfl ⟨rfl, rfl⟩ hrec (by decide) 3
    exact completes_of_next hexec rfl ⟨(congrArg (fun e : Sec => e.certs.getD (leAt b 56 1) none) hleaves.sec).trans hfree,
      congrArg (fun e : Flash => e.certs.getD (leAt b 56 1) none) hleaves.flash, congrArg (·.stage) hleaves.sec, hmbx, hleaves.fuse, hmem⟩

theorem set_none_of_getD {l : List (Option Bytes)} {i : Nat} (h : l.getD i none = none) : l.set i none = l := by
  refine List.ext_getElem? fun j => ?_
  rw [List.getElem?_set]
  split
  · next hij =>
    subst hij
    split
    · next hi =>
      rw [List.getD_eq_getElem?_getD, List.getElem?_eq_getElem hi] at h
      rw [List.getElem?_eq_getElem hi]
      exact congrArg some h.symm
    · next hi => exact (List.getElem?_eq_none (Nat.le_of_not_lt hi)).symm
  · rfl

/-- A slot that is dropped holds no certificate after it, whether it held one before or not (R406). -/
theorem dropCert_frees {s : State} (h : s.canonical) (slot reason : Nat) : Recorded (certFreed s slot) (dropCert s slot reason) := by
  have hdropped : Recorded (certFreed s slot) (raiseEvt (audit (certFreed s slot) 8 [w64 (slot + reason <<< 8)]) pgSec 1) := by
    have haudit := audit_recorded (s := certFreed s slot) h 8 [w64 (slot + reason <<< 8)]
    exact haudit.trans (raiseEvt_recorded haudit.canonical _ _)
  unfold dropCert
  split
  · next hsec hflash =>
    have hfreed : certFreed s slot = s := by rw [certFreed, set_none_of_getD hsec, set_none_of_getD hflash]
    rw [hfreed]
    exact .refl h
  · exact hdropped

/-- What flash holds stands beside what is recorded. -/
theorem Recorded.withFlash {s t : State} (h : Recorded s t) (f : Flash) :
    Recorded { s with flash := f } { t with flash := f } where
  canonical := h.canonical
  same := {
    regs := h.same.regs
    rest := by rw [h.same.rest]; rfl
    pcie := h.same.pcie
    cfg := h.same.cfg
    board := h.same.board
    evr := h.same.evr
    err := h.same.err
    out := h.same.out }

theorem removeDebugCert_says {s : State} (hs : s.canonical) {b : Bytes} (htaken : takenReq s true 0 0x0309 = some b)
    (hphase : s.boot.phase ≠ .recovery) (hroom : auditRoom s = true) (hslot : leAt b 56 1 < 4)
    (hcerts : s.sec.certs.length = 4) (hsaved : s.flash.certs.length = 4) (ok : Bool) :
    Completes (.removeDebugCert ok) s fun t =>
      t.sec.certs.getD (leAt b 56 1) none = none ∧
      t.flash.certs.getD (leAt b 56 1) none = (if ok then none else s.flash.certs.getD (leAt b 56 1) none) ∧
      t.mbx = s.mbx ++ [mbxAnswer true 0 0x0309 (if ok then 0 else 4) []] ∧ t.fuse = s.fuse ∧ SameMemory s t := by
  let dropped := dropCert s (leAt b 56 1) 3
  have hdropped : Recorded (certFreed s (leAt b 56 1)) dropped := dropCert_frees hs _ _
  have hrec : Recorded (certFreed s (leAt b 56 1)) (updIso dropped) := hdropped.trans (updIso_recorded hdropped.canonical)
  have hexec : exec (.removeDebugCert ok) s = .next (if ok then secDone (updIso dropped) b 0 []
      else writeFails { updIso dropped with flash := s.flash } b 3) :=
    congrArg Host.Outcome.next ((unsigned_serves htaken (.inr hphase) _).trans ((if_neg (not_checkFails hroom)).trans
      (if_neg (by omega))))
  have hfreed : (s.sec.certs.set (leAt b 56 1) none).getD (leAt b 56 1) none = none := getD_set_same (hcerts ▸ hslot) _
  cases ok with
  | true =>
    obtain ⟨hleaves, hmbx, hmem⟩ := secDone_answers htaken (u := certFreed s (leAt b 56 1)) (fun _ _ _ => rfl) rfl ⟨rfl, rfl⟩ hrec
      (by decide) 0 []
    exact completes_of_next hexec rfl ⟨(congrArg (fun e : Sec => e.certs.getD (leAt b 56 1) none) hleaves.sec).trans hfreed,
      (congrArg (fun e : Flash => e.certs.getD (leAt b 56 1) none) hleaves.flash).trans (getD_set_same (hsaved ▸ hslot) _), hmbx, hleaves.fuse, hmem⟩
  | false =>
    obtain ⟨hleaves, hmbx, hmem⟩ := writeFails_answers htaken (u := { certFreed s (leAt b 56 1) with flash := s.flash })
      (fun _ _ _ => rfl) rfl ⟨rfl, rfl⟩ (hrec.withFlash s.flash) (by decide) 3
    exact completes_of_next hexec rfl ⟨(congrArg (fun e : Sec => e.certs.getD (leAt b 56 1) none) hleaves.sec).trans hfreed,
      congrArg (fun e : Flash => e.certs.getD (leAt b 56 1) none) hleaves.flash, hmbx, hleaves.fuse, hmem⟩

/-! ### Intents (R401, R402) -/

/-- The intent of a request, whole or with a damaged CRC. -/
def intentOf (s : State) (b : Bytes) (whole : Bool) : Intent :=
  let crc := crc32c (intentBytes (rf s 0 Reg.PWR_CYCLES 0 32) b)
  ⟨0x4C430001, rf s 0 Reg.PWR_CYCLES 0 32, b, if whole then crc else crc ^^^ 1⟩

theorem intentOf_whole (s : State) (b : Bytes) (whole : Bool) : intentWhole (intentOf s b whole) = whole := by
  have hbroken : ∀ n : Nat, n ^^^ 1 ≠ n := fun n h => by
    have hone : n ^^^ (n ^^^ 1) = n ^^^ n := congrArg (n ^^^ ·) h
    rw [← Nat.xor_assoc, Nat.xor_self, Nat.zero_xor] at hone
    exact absurd hone (by decide)
  unfold intentWhole intentOf
  cases whole with
  | true => simp
  | false => simp [hbroken]

theorem nextIntent_lt (s : State) : nextIntent s < 8 := by
  unfold nextIntent
  extract_lets i j
  split
  · assumption
  · split
    · assumption
    · decide

/-- The flash with an intent in the row that takes it. -/
def intentKept (s : State) (b : Bytes) (whole : Bool) : State :=
  { s with flash := { s.flash with intents := s.flash.intents.set (nextIntent s) (some (intentOf s b whole)) } }

/-- The word of `LC_STATE` while an intent waits. -/
def waitWord (s : State) (b : Bytes) : Word :=
  w64 (1 <<< 8 + leAt b 53 1 <<< 16 + leAt b 3 1 <<< 24 + nextIntent s <<< 32)

theorem waitWord_fields (s : State) (b : Bytes) : bit (waitWord s b) 8 = true ∧ fld (waitWord s b) 16 8 = leAt b 53 1 := by
  have htarget := leAt_lt b 53 1
  have hsigner := leAt_lt b 3 1
  have hrow := nextIntent_lt s
  simp only [waitWord, bit, fld, w64, BitVec.getLsbD, Nat.testBit_eq_decide_div_mod_eq, BitVec.toNat_ofNat, Nat.shiftLeft_eq,
    Nat.shiftRight_eq_div_pow, decide_eq_true_eq]
  omega

/-- An intent that waits, shown in `LC_STATE`. -/
def intentShown (s : State) (b : Bytes) : State := wr (intentKept s b true) pgLc Reg.LC_STATE (waitWord s b)

/-- What a signed LC_TRANSITION is checked against (R395, R399). -/
def lcRule (s : State) (b : Bytes) : Rule :=
  ⟨[(53, 1)], true, fun g => mayTransit (lcState s) g (leAt b 53 1), lcNext s,
    legalTransit s (lcState s) (leAt b 53 1) && !(rb s pgLc Reg.LC_STATE 8) && decide (lcNext s < 48) &&
      (decide (leAt b 53 1 = 0x60) || decide (lcNext s ≠ 47))⟩

/-- A request that is accepted waits as an intent. -/
def lcWaits (ok : Bool) (s : State) (b : Bytes) : State :=
  if ok then
    secDone (audit (raiseEvt (intentShown s b) pgLc 0) 2 [w64 (nextIntent s + leAt b 53 1 <<< 8 + leAt b 3 1 <<< 16)]) b 0 []
  else writeFails (intentKept s b ok) b 3

theorem lcTransition_signed (ok : Bool) (s : State) :
    exec (.lcTransition ok) s = .next (signed 0x0302 lcRule (lcWaits ok) s) := by
  refine (show exec (.lcTransition ok) s = execLcTransition ok s from rfl).trans ?_
  unfold execLcTransition
  refine congrArg (fun k => Host.Outcome.next (signed 0x0302 lcRule k s)) ?_
  funext s b
  cases ok with
  | true => simp only [if_true, lcWaits, intentShown, intentKept, intentOf, waitWord]
  | false => simp only [Bool.false_eq_true, if_false, lcWaits, intentKept, intentOf]

theorem lcTransition_eq {s : State} {b : Bytes} (ok : Bool)
    (hsigned : SignedOk s 0x0302 b [(53, 1)] (fun g => mayTransit (lcState s) g (leAt b 53 1)) (lcNext s))
    (hlegal : legalTransit s (lcState s) (leAt b 53 1) = true) (hidle : rb s pgLc Reg.LC_STATE 8 = false) (hrows : lcNext s < 48)
    (hlast : leAt b 53 1 = 0x60 ∨ lcNext s ≠ 47) :
    exec (.lcTransition ok) s = .next (lcWaits ok (nonceSpent s) b) := by
  have hok : (legalTransit s (lcState s) (leAt b 53 1) && !(rb s pgLc Reg.LC_STATE 8) && decide (lcNext s < 48) &&
      (decide (leAt b 53 1 = 0x60) || decide (lcNext s ≠ 47))) = true := by
    rw [hlegal, hidle, decide_eq_true hrows, Bool.or_eq_true_iff.2 (hlast.imp decide_eq_true decide_eq_true)]
    rfl
  exact (lcTransition_signed ok s).trans (congrArg Host.Outcome.next (signed_accepted _ hsigned rfl hok))

theorem lcTransition_says {s : State} (hs : s.canonical) {b : Bytes} (ok : Bool)
    (hsigned : SignedOk s 0x0302 b [(53, 1)] (fun g => mayTransit (lcState s) g (leAt b 53 1)) (lcNext s))
    (hlegal : legalTransit s (lcState s) (leAt b 53 1) = true) (hidle : rb s pgLc Reg.LC_STATE 8 = false) (hrows : lcNext s < 48)
    (hlast : leAt b 53 1 = 0x60 ∨ lcNext s ≠ 47) (hlen : s.flash.intents.length = 8) :
    Completes (.lcTransition ok) s fun t =>
      (∃ r, t.flash.intents[nextIntent s]? = some (some r) ∧ intentWhole r = ok ∧ r.request = b) ∧
      rb t pgLc Reg.LC_STATE 8 = ok ∧ (ok = true → rf t pgLc Reg.LC_STATE 16 8 = leAt b 53 1) ∧ t.fuse = s.fuse ∧
      lcState t = lcState s ∧ t.mbx = s.mbx ++ [mbxAnswer true 0 0x0302 (if ok then 0 else 4) []] ∧ SameMemory s t := by
  have htaken := hsigned.1
  have hexec := lcTransition_eq ok hsigned hlegal hidle hrows hlast
  have hrow : ∀ whole, (intentKept (nonceSpent s) b whole).flash.intents[nextIntent s]? = some (some (intentOf s b whole)) :=
    fun whole => List.getElem?_set_self (hlen.symm ▸ nextIntent_lt s)
  have hstate : ∀ t : State, t.fuse = s.fuse → lcState t = lcState s := fun t h => by rw [lcState, h]; rfl
  cases ok with
  | true =>
    have hcan : (intentShown (nonceSpent s) b).canonical := wr_canonical (s := intentKept (nonceSpent s) b true) hs
    have hraised := raiseEvt_recorded hcan pgLc 0
    have hmail : SameMail true s (intentShown (nonceSpent s) b) :=
      (wr_sameBut (s := intentKept (nonceSpent s) b true) hs _ _ _ (by decide)).sameMail fun _ _ x => absurd x.1 (by decide)
    obtain ⟨hleaves, hmbx, hmem⟩ := secDone_answers htaken hmail rfl ⟨rfl, rfl⟩
      (hraised.trans (audit_recorded hraised.canonical 2 [w64 (nextIntent (nonceSpent s) + leAt b 53 1 <<< 8 + leAt b 3 1 <<< 16)])) (by decide) 0 []
    have hshown := (hleaves.regs pgLc Reg.LC_STATE (by decide) (not_evtReg_of_page (by decide) (by decide)) (by decide) (by decide)).trans
      (rd_wr_same (s := intentKept (nonceSpent s) b true) hs _ _ _)
    obtain ⟨hwaits, htarget⟩ := waitWord_fields s b
    exact completes_of_next hexec rfl ⟨⟨intentOf s b true, (congrArg (·.intents[nextIntent s]?) hleaves.flash).trans (hrow true),
      intentOf_whole s b true, rfl⟩, (congrArg (bit · 8) hshown).trans hwaits, fun _ => (congrArg (fld · 16 8) hshown).trans htarget,
      hleaves.fuse, hstate _ hleaves.fuse, hmbx, hmem⟩
  | false =>
    have hrec : Recorded (intentKept (nonceSpent s) b false) (intentKept (nonceSpent s) b false) := .refl hs
    obtain ⟨hleaves, hmbx, hmem⟩ := writeFails_answers htaken (u := intentKept (nonceSpent s) b false) (fun _ _ _ => rfl) rfl
      ⟨rfl, rfl⟩ hrec (by decide) 3
    have hshown := hleaves.regs pgLc Reg.LC_STATE (by decide) (not_evtReg_of_page (by decide) (by decide)) (by decide) (by decide)
    exact completes_of_next hexec rfl ⟨⟨intentOf s b false, (congrArg (·.intents[nextIntent s]?) hleaves.flash).trans (hrow false),
      intentOf_whole s b false, rfl⟩, (congrArg (bit · 8) hshown).trans hidle, fun h => absurd h (by decide), hleaves.fuse,
      hstate _ hleaves.fuse, hmbx, hmem⟩

/-! ### A spent or foreign nonce (R398) -/

/-- A signed command whose nonce is not the one in force changes no fuse and is answered STATE_REJECT. -/
theorem setGeometry_otherNonce {s : State} (hs : s.canonical) {b : Bytes} (ok : Bool)
    (hsigned : SignedOk (withNonce s (slice b 16 32)) 0x0306 b [(56, 2)]
      (signerIn s (fun st => decide (st = 0x30)) fun st => decide (st = 0x20)) s.fuse.geometryUsed)
    (hmask : leAt b 56 2 ≠ 0) (hnonce : s.sec.nonce ≠ some (slice b 16 32)) :
    Completes (.setGeometry ok) s fun t =>
      t.fuse = s.fuse ∧ t.flash = s.flash ∧ t.sec.nonce = none ∧ t.mbx = s.mbx ++ [mbxAnswer true 0 0x0306 0x0B []] ∧
      rd t pgSec Reg.REJECT_COUNT = rd s pgSec Reg.REJECT_COUNT + 1 := by
  obtain ⟨htaken, hroom, hrest, hsigner, hunit, hsig, -, -, -⟩ := hsigned
  have htaken' : takenReq s true 0 0x0306 = some b := htaken
  have hroom' : auditRoom (nonceSpent s) = true := hroom
  have hsig' : requestSigned (nonceSpent s) b = true := hsig
  have hfields : (restZero b (headFields ++ [(56, 2)]) && decide (leAt b 56 2 ≠ 0)) = true := by
    rw [hrest, decide_eq_true hmask]
    rfl
  have hexec : exec (.setGeometry ok) s = .next (signedFail (nonceSpent s) b 0x0B) :=
    congrArg Host.Outcome.next ((onTaken_taken htaken' _).trans ((if_neg (not_checkFails hroom')).trans
      ((if_neg (not_checkFails hfields)).trans ((if_neg (not_checkFails hsigner)).trans ((if_neg (not_not.2 hunit)).trans
        ((if_neg (not_checkFails hsig')).trans (if_pos (.inl hnonce))))))))
  have hsame := reject_sameBut (s := nonceSpent s) hs pgSec
  have hrejected : (reject (nonceSpent s) pgSec).canonical := reject_canonical hs
  obtain ⟨hleaves, hmbx, -⟩ := secDone_answers htaken' (u := reject (nonceSpent s) pgSec)
    (hsame.sameMail fun _ _ x => absurd x.1 (by decide)) (by rw [hsame.rest]; rfl) ⟨hsame.mem_eq, hsame.hostMem_eq⟩
    (audit_recorded hrejected 4 [w64 (msgCode b + leAt b 3 1 <<< 16 + 0x0B <<< 24)]) (by decide) 0x0B []
  refine completes_of_next hexec rfl ⟨hleaves.fuse.trans (congrArg (·.fuse) hsame.rest), hleaves.flash.trans (congrArg (·.flash) hsame.rest),
    (congrArg (·.nonce) hleaves.sec).trans (congrArg (·.sec.nonce) hsame.rest), hmbx, ?_⟩
  exact (hleaves.regs _ _ (by decide) (not_evtReg_of_page (by decide) (by decide)) (by decide) (by decide)).trans (rd_reject_count (s := nonceSpent s) hs _)

/-! ### The statement -/

/-- Settles O49: what the security core keeps of nonces, staged data, certificates and intents. -/
theorem noncesCertificatesAndIntentsAreKept : Obligations.NoncesCertificatesAndIntentsAreKept := by
  intro b c ok s hs slot target status
  refine ⟨getNonce_says hs, fun htaken halign hoff hone hlen hend => stageData_says hs htaken ⟨halign, hoff, hone, hlen, hend⟩,
    ?_, fun htaken hphase hroom hslot hcerts hsaved => removeDebugCert_says hs htaken hphase hroom hslot hcerts hsaved ok, ?_, setGeometry_otherNonce hs ok⟩
  · rintro htaken hphase hroom hslot rfl hlaid hmine hsigned hcurrent hcerts hsaved hfree
    exact installDebugCert_says hs htaken hphase hroom hslot hlaid hmine hsigned hcurrent hcerts hsaved hfree ok
  · exact fun hsigned hlegal hidle hrows hlast hlen => lcTransition_says hs ok hsigned hlegal hidle hrows hlast hlen

end Sys2Proof.Machine
end

section
/-!
SUPPORT. What a seal drops, a partition's state, and the tenants' measurements and keys.
-/

namespace Sys2Proof.Machine

open Sys2Proof

/-! ### What memory does of its own accord leaves the tenants' state alone (R203 to R228) -/

theorem ten_foldl {α : Type} {f : State → α → State} (hf : ∀ s a, (f s a).ten = s.ten) (l : List α) (s : State) :
    (l.foldl f s).ten = s.ten :=
  List.foldlRecOn (motive := fun t => t.ten = s.ten) l f rfl fun _ ht a _ => (hf _ a).trans ht

theorem retirePage_ten (s : State) (m page : Nat) (byUe : Bool) : (retirePage s m page byUe).ten = s.ten := by
  unfold retirePage
  extract_lets st p l _ t
  split
  · split
    · simp
    · rfl
  · split
    · simp [t]
    · simp

theorem needRepair_ten (s : State) (m pc q page cause : Nat) : (needRepair s m pc q page cause).ten = s.ten := by
  unfold needRepair
  extract_lets row bank same key again
  split
  · rfl
  · split
    · exact retirePage_ten _ _ _ _
    · extract_lets ne t
      split
      · split
        · exact raiseEvt_ten _ _ _
        · rfl
      · exact retirePage_ten _ _ _ _

theorem mcUe_ten (s : State) (a code : Nat) (ctx : Option Nat) : (mcUe s a code ctx).ten = s.ten := by
  unfold mcUe
  split
  · rfl
  · exact (needRepair_ten _ _ _ _ _ _).trans (by simp)

theorem mcCorr_ten (s : State) (a : Nat) : (mcCorr s a).ten = s.ten := by
  unfold mcCorr
  split
  · rfl
  · extract_lets t1 key mine n low drop ce _ t2
    split
    · exact needRepair_ten _ _ _ _ _ _
    · rfl

theorem needBank_ten (s : State) (k bank : Nat) : (needBank s k bank).ten = s.ten := by
  unfold needBank
  split
  · rfl
  · split
    · rfl
    · split
      · split
        · rfl
        · rfl
      · simp [saveQuayBank]

theorem quayCorr_ten (s : State) (a : Nat) : (quayCorr s a).ten = s.ten := by
  unfold quayCorr
  split
  · rfl
  · extract_lets t1 bank _ t2
    split
    · exact needBank_ten _ _ _
    · rfl

theorem bankFails_ten (s : State) (a : Nat) : (bankFails s a).ten = s.ten := by
  unfold bankFails
  split
  · rfl
  · exact needBank_ten _ _ _

theorem quayUe_ten (s : State) (a code : Nat) (ctx : Option Nat) : (quayUe s a code ctx).ten = s.ten := by
  unfold quayUe
  split
  · rfl
  · exact (bankFails_ten _ _).trans (by simp)

theorem granuleUe_ten (s : State) (a n g code : Nat) (ctx : Option Nat) : (granuleUe s a n g code ctx).ten = s.ten :=
  (ten_foldl bankFails_ten _ _).trans ((quayUe_ten _ _ _ _).trans (mcUe_ten _ _ _ _))

theorem spendInject_ten (s : State) (code : Nat) (ctx : Option Nat) (e : Nat × Nat × Nat × Bool × Bool) :
    (spendInject s code ctx e).ten = s.ten := by
  unfold spendInject
  split
  · extract_lets t
    split
    · exact mcUe_ten _ _ _ _
    · exact mcCorr_ten _ _
  · extract_lets t
    split
    · exact quayUe_ten _ _ _ _
    · exact quayCorr_ten _ _

theorem sense_ten (s : State) (a n code : Nat) (ctx : Option Nat) : (sense s a n code ctx).2.ten = s.ten := by
  unfold sense
  split
  · rfl
  · split
    · exact ten_foldl (fun _ _ => granuleUe_ten _ _ _ _ _ _) _ _
    · exact (ten_foldl (fun _ _ => (quayCorr_ten _ _).trans (mcCorr_ten _ _)) _ _).trans
        (ten_foldl (fun _ _ => spendInject_ten _ _ _ _) _ _)

theorem countBytes_ten (s : State) (k req a n : Nat) (write : Bool) : (countBytes s k req a n write).ten = s.ten := by
  unfold countBytes
  split
  · rfl
  · split
    · rfl
    · split
      · rfl
      · rfl
  · rfl

theorem activateRange_ten (s : State) (a n : Nat) : (activateRange s a n).ten = s.ten := by
  refine ten_foldl (fun t g => ?_) _ _
  split
  · rfl
  · rfl

theorem meetHolds_ten (s : State) (a n : Nat) : (meetHolds s a n).ten = s.ten := by
  have hstall : ∀ x, (stallOn s x).ten = s.ten := fun x => by
    unfold stallOn
    split
    · rfl
    · rfl
  unfold meetHolds
  extract_lets at128
  split
  · rfl
  · split
    · rfl
    · split
      · exact hstall _
      · rfl

theorem wcRange_ten (s : State) (a n : Nat) : (wcRange s a n).ten = s.ten := by
  obtain ⟨hbm, h⟩ := wcRange_eq s a n
  rw [h]

/-- What a write senses in the bursts and words that it covers in part. -/
theorem senseParts_ten (l : List Nat) (ctx : Option Nat) (r : Bool × State) :
    (l.foldl (fun (r : Bool × State) g => if r.1 then sense r.2 g (unitSize g) 2 ctx else r) r).2.ten = r.2.ten := by
  refine List.foldlRecOn (motive := fun t : Bool × State => t.2.ten = r.2.ten) l _ rfl fun t ht g _ => ?_
  split
  · exact (sense_ten _ _ _ _ _).trans ht
  · exact ht

theorem writeAs_ten (s : State) (k port : Nat) (ctx : Option Nat) (a : Nat) (b : Bytes) :
    (writeAs s k port ctx a b).2.ten = s.ten := by
  unfold writeAs
  extract_lets n t r _ bad weak
  have ht : t.ten = s.ten := (meetHolds_ten _ _ _).trans ((activateRange_ten _ _ _).trans (countBytes_ten _ _ _ _ _ _))
  have hr : r.2.ten = s.ten := (senseParts_ten _ _ _).trans ht
  split
  · exact ht
  · split
    · exact (wcRange_ten _ _ _).trans hr
    · exact hr

theorem hotRecord_ten (s : State) (k : Nat) (e : SliceEntry) : (hotRecord s k e).ten = s.ten := by
  unfold hotRecord
  extract_lets p log prod cons base size inQuay w0 w1 r
  have hr : r.2.ten = s.ten := writeAs_ten _ _ _ _ _ _
  split
  · rfl
  · split
    · simp
    · split
      · simp [hr]
      · simp [hr]

theorem countSlice_ten (s : State) (k va units : Nat) : (countSlice s k va units).ten = s.ten := by
  unfold countSlice
  split
  · rfl
  · split
    · rfl
    · extract_lets c thresh mark ne t
      split
      · exact hotRecord_ten _ _ _
      · rfl

/-! ### Translations into a partition are dropped (R169, R376) -/

theorem dropMicro_ten (s : State) (out : MicroEntry → Bool) : (dropMicro s out).ten = s.ten :=
  ten_foldl (fun _ _ => countSlice_ten _ _ _ _) _ _

/-- No entry that is dropped was held: nothing is reported. -/
theorem dropMicro_none {s : State} {out : MicroEntry → Bool} (h : ∀ e ∈ s.xlat.micro, out e = false) :
    (dropMicro s out).regs = s.regs ∧ SameMemory s (dropMicro s out) := by
  have hnone : s.xlat.micro.filter out = [] := List.filter_eq_nil_iff.2 fun e he => by simp [h e he]
  rw [dropMicro, hnone]
  exact ⟨rfl, rfl, rfl⟩

/-- An entry of another partition into `k`. -/
theorem into_false {k j : Nat} {leaf : Word} (h : (!(decide (j ≠ k) && inPartition k (leafPa leaf))) = true) (hj : j ≠ k) :
    inPartition k (leafPa leaf) = false := by
  simpa [hj] using h

theorem dropInto_says (s : State) (k : Nat) :
    let t := dropInto s k
    t.ten = s.ten ∧ (∀ e ∈ t.xlat.slice, e.part ≠ k → inPartition k (leafPa e.leaf) = false) ∧
    (∀ e ∈ t.xlat.micro, e.part ≠ k → inPartition k (leafPa e.leaf) = false) ∧
    ((∀ e ∈ s.xlat.micro, e.part ≠ k → inPartition k (leafPa e.leaf) = false) → t.regs = s.regs ∧ SameMemory s t) := by
  refine ⟨dropMicro_ten _ _, fun e he hpart => into_false (List.mem_filter.1 he).2 hpart,
    fun e he hpart => into_false (List.mem_filter.1 he).2 hpart, fun hnone => ?_⟩
  refine dropMicro_none (s := s) (out := fun e => decide (e.part ≠ k) && inPartition k (leafPa e.leaf)) fun e he => ?_
  by_cases hpart : e.part = k
  · simp [hpart]
  · simp [hnone e he hpart]

/-! ### The state of a partition (R370, R371, R393) -/

theorem not_secReg_pgPart {k off : Nat} (h : off ≠ Reg.ISO_STAT) : ¬ secReg (pgPart k) off := by
  rintro (x | x | x)
  · exact pgPart_ne_pgEvr k x.1
  · have hpage := x.1
    simp only [pgPart, pgSec] at hpage
    omega
  · exact h x

theorem pgPart_ne_pgMbx (k : Nat) (hk : k < 16) (sec : Bool) : pgMbx sec ≠ pgPart k := by
  cases sec
  · simp only [pgMbx, pgPart]; simp; omega
  · simp only [pgMbx, pgPart]; simp; omega

theorem setPart_says {s : State} (h : s.canonical) (k : Nat) {st : Nat} (hst : st < 16) :
    (setPart s k st).canonical ∧ partState (setPart s k st) k = st ∧ sealHeld (setPart s k st) k = sealHeld s k ∧
    SameBut (oneReg (pgPart k) Reg.PART_STATE) s (setPart s k st) := by
  unfold setPart
  split
  · next hstate => exact ⟨h, hstate, rfl, .refl _ _⟩
  · have hset : (wf s (pgPart k) Reg.PART_STATE 0 4 st).canonical := wf_canonical h
    have hread := rd_raiseEvt (p := pgPart k) (b := 9) hset (show Reg.PART_STATE < 0x10000 by decide) (not_evtReg_pgPart (k := k) (by decide))
    exact ⟨raiseEvt_canonical hset,
      (congrArg (fld · 0 4) hread).trans ((rf_wf_same h _ _ _ _ _ (by decide)).trans (Nat.mod_eq_of_lt hst)),
      (congrArg (bit · 4) hread).trans (rb_wf_other h _ _ _ _ _ _ (by decide) (by decide)),
      (wf_sameBut h _ _ _ _ _ (by decide)).trans' (raiseEvt_sameBut hset _ _).none⟩

theorem setSeal_says {s : State} (h : s.canonical) (k : Nat) (b : Bool) :
    (setSeal s k b).canonical ∧ sealHeld (setSeal s k b) k = b ∧ partState (setSeal s k b) k = partState s k ∧
    SameBut (oneReg (pgPart k) Reg.PART_STATE) s (setSeal s k b) := by
  unfold setSeal
  split
  · next hheld => exact ⟨h, hheld, rfl, .refl _ _⟩
  · have hset : (wb s (pgPart k) Reg.PART_STATE 4 b).canonical := wb_canonical h
    have hread := rd_raiseEvt (p := pgPart k) (b := 9) hset (show Reg.PART_STATE < 0x10000 by decide) (not_evtReg_pgPart (k := k) (by decide))
    exact ⟨raiseEvt_canonical hset, (congrArg (bit · 4) hread).trans (rb_wb_same h _ _ _ _ (by decide)),
      (congrArg (fld · 0 4) hread).trans (rf_wf_other h _ _ _ _ _ _ _ (by decide) (by decide)),
      (wb_sameBut h _ _ _ _ (by decide)).trans' (raiseEvt_sameBut hset _ _).none⟩

theorem Recorded.ten {s t : State} (h : Recorded s t) : t.ten = s.ten := by rw [h.same.rest]; rfl

theorem SameBut.ten {q : Nat → Nat → Prop} {s t : State} (h : SameBut q s t) : t.ten = s.ten := by rw [h.rest]

theorem SameBut.memory {q : Nat → Nat → Prop} {s t : State} (h : SameBut q s t) : SameMemory s t := ⟨h.mem_eq, h.hostMem_eq⟩

/-- A register of the partition's page through what is recorded. -/
theorem Recorded.rd_part {s t : State} (h : Recorded s t) (k : Nat) {off : Nat} (ho : off < 0x10000) (he : off ≠ Reg.EVT_STAT)
    (hi : off ≠ Reg.ISO_STAT) : rd t (pgPart k) off = rd s (pgPart k) off :=
  h.rd_eq ho (not_evtReg_pgPart he) (not_secReg_pgPart hi)

/-- An answer changes the mailboxes alone. -/
theorem reply_only (s : State) (sec : Bool) (f code status : Nat) (body : Bytes) :
    reply s sec f code status body = { s with mbx := (reply s sec f code status body).mbx } := by
  unfold reply
  split
  · rfl
  · rfl

/-! ### A tenant's commands (R361, R362, R375, R376, R381) -/

/-- A request of a partition's secure mailbox is handled for the partition. -/
theorem tenantCommand_taken {s : State} {k code : Nat} {b : Bytes} (h : takenReq s true (k + 1) code = some b)
    (f : State → Nat → Bytes → State) : tenantCommand s (k + 1) code f = f s k b :=
  (onTaken_taken h _).trans (if_neg (Nat.succ_ne_zero k))

/-- The partition is sealed under a key, before the session ends. -/
def sealedUnder (s : State) (k : Nat) (key : Bytes) : State :=
  setPart (setSeal (wrWords s (pgPart k) (Reg.TENANT_KEY 0) (bytesWords key 4)) k true) k 4

/-- The registers of the partition's page that sealing writes. -/
abbrev sealReg (k q o : Nat) : Prop := q = pgPart k ∧ (o = Reg.PART_STATE ∨ ∃ j, j < 4 ∧ o = Reg.TENANT_KEY j)

theorem sealedUnder_says {s : State} (h : s.canonical) (k : Nat) (key : Bytes) :
    let t := sealedUnder s k key
    t.canonical ∧ partState t k = 4 ∧ sealHeld t k = true ∧
    (∀ j, j < 4 → rd t (pgPart k) (Reg.TENANT_KEY j) = (bytesWords key 4).getD j 0) ∧ SameBut (sealReg k) s t := by
  have hlen : (bytesWords key 4).length = 4 := length_bytesWords key 4
  have hfits : Reg.TENANT_KEY 0 + 8 * (bytesWords key 4).length ≤ 0x10000 := by rw [hlen]; decide
  have hat : ∀ j, Reg.TENANT_KEY j = Reg.TENANT_KEY 0 + 8 * j := fun j => by simp only [Reg.TENANT_KEY]
  have hkey : (wrWords s (pgPart k) (Reg.TENANT_KEY 0) (bytesWords key 4)).canonical := wrWords_canonical h
  obtain ⟨hsealed, hheld, -, hseal⟩ := setSeal_says hkey k true
  obtain ⟨hcan, hstate, hheld', hpart⟩ := setPart_says hsealed k (show 4 < 16 by decide)
  have hlast := hseal.trans' hpart
  refine ⟨hcan, hstate, hheld'.trans hheld, fun j hj => ?_, ?_⟩
  · refine (hlast.rd_eq (p := pgPart k) ?_ (not_evtReg_pgPart ?_) fun x => ?_).trans ?_
    · simp only [Reg.TENANT_KEY]; omega
    · simp only [Reg.TENANT_KEY, Reg.EVT_STAT]; omega
    · have := x.2
      simp only [Reg.TENANT_KEY, Reg.PART_STATE] at this
      omega
    · rw [hat]
      exact rd_wrWords_same h hfits (hlen.symm ▸ hj)
  · refine ((wrWords_sameBut h hfits).mono fun _ _ x => ?_).trans' (hlast.mono fun _ _ x => ⟨x.1, .inl x.2⟩)
    obtain ⟨hq, j, hj, ho⟩ := x
    exact ⟨hq, .inr ⟨j, hlen ▸ hj, ho.trans (hat j).symm⟩⟩

/-- The seal that is under way is taken up. -/
def sealTaken (s : State) (k : Nat) : State := { s with ten := { s.ten with sealing := s.ten.sealing.filter fun e => e.1 ≠ k } }

/-- How a sealing ends, in the state with the partition sealed (R376, step 5). -/
def sealEnd (u : State) (k : Nat) (key : Bytes) : State :=
  let v := audit u 5 (w64 (k + rf u (pgPart k) Reg.ISO_STAT 0 16 <<< 16) :: bytesWords key 4)
  endSessions (reply v true (k + 1) 0x0101 0 (isoBytes v k)) (k + 1)

theorem sealEnd_leaves {u : State} (h : u.canonical) (k : Nat) (key : Bytes) :
    let t := sealEnd u k key
    (∀ off, off < 0x10000 → off ≠ Reg.EVT_STAT → off ≠ Reg.ISO_STAT → rd t (pgPart k) off = rd u (pgPart k) off) ∧
    (∀ e ∈ t.sec.sessions, e.fn ≠ k + 1) ∧ t.ten = u.ten ∧ SameMemory u t := by
  unfold sealEnd
  extract_lets v t
  have hrec : Recorded u v := audit_recorded h _ _
  have hreply : t = endSessions { v with mbx := (reply v true (k + 1) 0x0101 0 (isoBytes v k)).mbx } (k + 1) :=
    congrArg (endSessions · (k + 1)) (reply_only v true (k + 1) 0x0101 0 (isoBytes v k))
  clear_value t v
  subst hreply
  exact ⟨fun off ho he hi => hrec.rd_part k ho he hi, fun e he => of_decide_eq_true (List.mem_filter.1 he).2, hrec.ten, hrec.memory⟩

theorem sealEnd_says {s : State} (h : s.canonical) (k : Nat) (key : Bytes) :
    let t := sealEnd (sealedUnder (sealTaken s k) k key) k key
    partState t k = 4 ∧ sealHeld t k = true ∧ (∀ j, j < 4 → rd t (pgPart k) (Reg.TENANT_KEY j) = (bytesWords key 4).getD j 0) ∧
    (∀ e ∈ t.sec.sessions, e.fn ≠ k + 1) ∧ (∀ e ∈ t.ten.sealing, e.1 ≠ k) ∧ SameMemory s t := by
  obtain ⟨hcan, hstate, hheld, hkey, hsame⟩ := sealedUnder_says (s := sealTaken s k) h k key
  obtain ⟨hread, hsessions, hten, hmem⟩ := sealEnd_leaves hcan k key
  refine ⟨(congrArg (fld · 0 4) (hread _ (by decide) (by decide) (by decide))).trans hstate,
    (congrArg (bit · 4) (hread _ (by decide) (by decide) (by decide))).trans hheld, fun j hj => (hread _ ?_ ?_ ?_).trans (hkey j hj),
    hsessions, ?_, hmem.1.trans hsame.mem_eq, hmem.2.trans hsame.hostMem_eq⟩
  · simp only [Reg.TENANT_KEY]; omega
  · simp only [Reg.TENANT_KEY, Reg.EVT_STAT]; omega
  · simp only [Reg.TENANT_KEY, Reg.ISO_STAT]; omega
  · have hsealing := congrArg (·.sealing) (hten.trans hsame.ten)
    rw [hsealing]
    exact fun e he => of_decide_eq_true (List.mem_filter.1 he).2

/-- The partition is no longer sealed (R372). -/
def unsealedPart (s : State) (k : Nat) : State := audit (setSeal (setPart s k 3) k false) 6 [w64 k]

theorem unsealedPart_says {s : State} (h : s.canonical) {k : Nat} (hk : k < 16) :
    let t := unsealedPart s k
    partState t k = 3 ∧ sealHeld t k = false ∧ SameMail true s t ∧ t.mbx = s.mbx ∧ SameMemory s t := by
  obtain ⟨hpartCan, hstate, -, hpart⟩ := setPart_says h k (show 3 < 16 by decide)
  obtain ⟨hcan, hheld, hstate', hseal⟩ := setSeal_says hpartCan k false
  have hsame := hpart.trans' hseal
  have hrec : Recorded (setSeal (setPart s k 3) k false) (unsealedPart s k) := audit_recorded hcan _ _
  have hread := hrec.rd_part k (show Reg.PART_STATE < 0x10000 by decide) (by decide) (by decide)
  exact ⟨(congrArg (fld · 0 4) hread).trans (hstate'.trans hstate), (congrArg (bit · 4) hread).trans hheld,
    fun off h1 h2 => (hrec.sameMail off h1 h2).trans (hsame.sameMail (fun _ _ x => pgPart_ne_pgMbx k hk true x.1) off h1 h2),
    hrec.mbx.trans (by rw [hsame.rest]), hrec.memory.1.trans hsame.mem_eq, hrec.memory.2.trans hsame.hostMem_eq⟩

/-- A measurement register is extended (R381). -/
theorem extendMr_says {s : State} (h : s.canonical) (k : Nat) {m : Nat} (hm : m < 32) (v : Bytes) :
    let t := extendMr s k m v
    (∀ j, j < 8 → rd t (pgPart k) (Reg.MR m j) = (bytesWords (sha512 (mrBytes s k m ++ fitBytes v 64)) 8).getD j 0) ∧
    (∀ n, n < 32 → n ≠ m → mrBytes t k n = mrBytes s k n) ∧ SameMemory s t := by
  unfold extendMr
  generalize sha512 (mrBytes s k m ++ fitBytes v 64) = digest
  extract_lets w t
  have hlen : (bytesWords digest 8).length = 8 := length_bytesWords digest 8
  have hfits : Reg.MR m 0 + 8 * (bytesWords digest 8).length ≤ 0x10000 := by rw [hlen]; simp only [Reg.MR]; omega
  have hw : w.canonical := wrWords_canonical h
  have hsame := wrWords_sameBut (p := pgPart k) h hfits
  have hmem : SameMemory s t := ⟨hsame.mem_eq, hsame.hostMem_eq⟩
  have hcount : ∀ n j, n < 32 → j < 8 → rd t (pgPart k) (Reg.MR n j) = rd w (pgPart k) (Reg.MR n j) := fun n j hn hj => by
    refine rd_wr_offset hw _ ?_ ?_ ?_
    · simp only [Reg.EXT_COUNT]; omega
    · simp only [Reg.MR]; omega
    · simp only [Reg.MR, Reg.EXT_COUNT]; omega
  clear_value t
  refine ⟨fun j hj => (hcount m j hm hj).trans ?_,
    fun n hn hne => List.flatMap_congr fun j hj => congrArg wordBytes ?_, hmem⟩
  · rw [show Reg.MR m j = Reg.MR m 0 + 8 * j by simp only [Reg.MR]; omega]
    exact rd_wrWords_same h hfits (hlen.symm ▸ hj)
  · have hj8 : j < 8 := List.mem_range.1 hj
    refine (hcount n j hn hj8).trans (rd_wrWords_other h hfits ?_ fun x => ?_)
    · simp only [Reg.MR]; omega
    · obtain ⟨-, i, hi, ho⟩ := x
      rw [hlen] at hi
      simp only [Reg.MR] at ho
      omega

/-! ### Key slots (R361, R362) -/

theorem keySlot_lt {i : Nat} (hi : i < 8) : Reg.KEY_SLOT i < 0x10000 ∧ Reg.KEY_SLOT i ≠ Reg.EVT_STAT := by
  simp only [Reg.KEY_SLOT, Reg.EVT_STAT]
  omega

/-- The word of a slot that is loaded. -/
theorem keyWord_fields {id gen : Nat} (hid : id < 16) (hgen : gen < 2 ^ 16) :
    fld (w64 (1 + id <<< 4 + gen <<< 16)) 0 2 = 1 ∧ fld (w64 (1 + id <<< 4 + gen <<< 16)) 4 4 = id ∧
    fld (w64 (1 + id <<< 4 + gen <<< 16)) 16 16 = gen := by
  simp only [fld, w64, BitVec.toNat_ofNat, Nat.shiftLeft_eq, Nat.shiftRight_eq_div_pow]
  omega

/-- A key is held in a slot, under the next GEN of its KEY_ID. -/
def keyHeld (s : State) (k i id gen : Nat) (key : Bytes) : State :=
  { s with ten := { s.ten with
      keys := (s.ten.keys.filter fun e => !(e.part = k && e.slot = i)) ++ [⟨k, i, key⟩]
      gens := (s.ten.gens.filter fun e => e.1 ≠ 16 * k + id) ++ [(16 * k + id, gen)] } }

def keyLoaded (s : State) (k i id gen : Nat) (key : Bytes) : State :=
  raiseEvt (wr (keyHeld s k i id gen key) (pgPart k) (Reg.KEY_SLOT i) (w64 (1 + id <<< 4 + gen <<< 16))) (pgPart k) 7

theorem keyLoaded_says {s : State} (h : s.canonical) (k : Nat) {i id gen : Nat} (hi : i < 8) (hid : id < 16) (hgen : gen < 2 ^ 16)
    (key : Bytes) :
    let t := keyLoaded s k i id gen key
    keyState t k i = 1 ∧ rf t (pgPart k) (Reg.KEY_SLOT i) 4 4 = id ∧ rf t (pgPart k) (Reg.KEY_SLOT i) 16 16 = gen ∧
    lastGen t k id = gen ∧ keyOf t k i = key ∧ rb t (pgPart k) Reg.EVT_STAT 7 = true ∧
    SameBut (oneReg (pgPart k) (Reg.KEY_SLOT i)) (keyHeld s k i id gen key) t := by
  obtain ⟨hslot, hne⟩ := keySlot_lt hi
  have hcan : (wr (keyHeld s k i id gen key) (pgPart k) (Reg.KEY_SLOT i) (w64 (1 + id <<< 4 + gen <<< 16))).canonical :=
    wr_canonical (s := keyHeld s k i id gen key) h
  have hword := (rd_raiseEvt (b := 7) (p := pgPart k) hcan hslot (not_evtReg_pgPart hne)).trans
    (rd_wr_same (s := keyHeld s k i id gen key) h _ _ _)
  have hsame := (wr_sameBut (s := keyHeld s k i id gen key) h (pgPart k) _ (w64 (1 + id <<< 4 + gen <<< 16)) hslot).trans'
    (raiseEvt_sameBut hcan (pgPart k) 7).none
  obtain ⟨hlive, hidField, hgenField⟩ := keyWord_fields hid hgen
  have hfind : (keyHeld s k i id gen key).ten.keys.find? (fun e => decide (e.part = k) && decide (e.slot = i)) = some ⟨k, i, key⟩ := by
    have hnone : (s.ten.keys.filter fun e => !(decide (e.part = k) && decide (e.slot = i))).find?
        (fun e => decide (e.part = k) && decide (e.slot = i)) = none :=
      List.find?_eq_none.2 fun e he => by simpa [imp_iff_not_or] using (List.mem_filter.1 he).2
    simp only [keyHeld, List.find?_append, hnone]
    simp
  refine ⟨(congrArg (fld · 0 2) hword).trans hlive, (congrArg (fld · 4 4) hword).trans hidField,
    (congrArg (fld · 16 16) hword).trans hgenField, ?_, ?_, rb_raiseEvt_same hcan (pgPart_ne_pgEvr k) (by decide), hsame⟩
  · rw [lastGen, keyLoaded, hsame.ten]
    exact tally_replaced_same _ _ _
  · rw [keyOf, keyLoaded, hsame.ten, hfind]
    rfl

/-- A slot is RETIRING, and its RETIRE_KEY waits. -/
def keyRetired (s : State) (k i : Nat) : State :=
  let u := raiseEvt (wf s (pgPart k) (Reg.KEY_SLOT i) 0 2 2) (pgPart k) 7
  { u with ten := { u.ten with retireWaits := u.ten.retireWaits ++ [(k, i)] } }

theorem keyRetired_says {s : State} (h : s.canonical) (k : Nat) {i : Nat} (hi : i < 8) :
    let t := keyRetired s k i
    keyState t k i = 2 ∧ (k, i) ∈ t.ten.retireWaits ∧ t.mbx = s.mbx ∧ SameMemory s t := by
  obtain ⟨hslot, hne⟩ := keySlot_lt hi
  have hcan : (wf s (pgPart k) (Reg.KEY_SLOT i) 0 2 2).canonical := wf_canonical h
  have hword := rd_raiseEvt (b := 7) (p := pgPart k) hcan hslot (not_evtReg_pgPart (k := k) hne)
  have hsame := raiseEvt_sameBut hcan (pgPart k) 7
  exact ⟨(congrArg (fld · 0 2) hword).trans (rf_wf_same h _ _ _ _ _ (by decide)), List.mem_append_right _ (List.mem_singleton_self _),
    by rw [show (keyRetired s k i).mbx = (raiseEvt (wf s (pgPart k) (Reg.KEY_SLOT i) 0 2 2) (pgPart k) 7).mbx from rfl, hsame.rest]; rfl,
    hsame.mem_eq, hsame.hostMem_eq⟩

/-- A slot that is in use is zeroised and FREE (R362, R369). -/
theorem freeKey_says {s : State} (h : s.canonical) (k : Nat) {i : Nat} (hi : i < 8) (hused : keyState s k i ≠ 0) :
    let t := freeKey s k i
    keyState t k i = 0 ∧ (∀ e ∈ t.ten.keys, ¬(e.part = k ∧ e.slot = i)) ∧ rb t (pgPart k) Reg.EVT_STAT 7 = true ∧ SameMemory s t := by
  obtain ⟨hslot, hne⟩ := keySlot_lt hi
  let gone : State := { s with ten := { s.ten with keys := s.ten.keys.filter fun e => !(e.part = k && e.slot = i) } }
  have hgone : gone.canonical := h
  have hcan : (wr gone (pgPart k) (Reg.KEY_SLOT i) 0).canonical := wr_canonical hgone
  have hfreed : freeKey s k i = raiseEvt (wr gone (pgPart k) (Reg.KEY_SLOT i) 0) (pgPart k) 7 := if_neg hused
  have hsame := raiseEvt_sameBut hcan (pgPart k) 7
  have hword := (rd_raiseEvt (b := 7) (p := pgPart k) hcan hslot (not_evtReg_pgPart hne)).trans (rd_wr_same hgone _ _ _)
  rw [hfreed]
  refine ⟨(congrArg (fld · 0 2) hword).trans rfl, ?_, rb_raiseEvt_same hcan (pgPart_ne_pgEvr k) (by decide), hsame.mem_eq, hsame.hostMem_eq⟩
  rw [hsame.ten]
  exact fun e he hslots => by simpa [hslots.1, hslots.2] using (List.mem_filter.1 he).2

/-! ### The statement -/

/-- Settles O47: each tenant's command by what it makes of the partition, its measurements and its keys. -/
theorem tenantsSealMeasureAndHoldKeys : Obligations.TenantsSealMeasureAndHoldKeys := by
  intro k i b s hs hk hi fn p
  refine ⟨fun htaken hstate hroom hiso => ?sealing, fun hfind hstate hgroup hquay => ?sealComplete, fun htaken hstate hroom hsession => ?unsealing,
    fun htaken hlive hm => ?extend, fun htaken hlive hid hfree => ?loadKey, fun htaken hlive hslot => ?retireKey,
    fun hretiring hnone => ?freed⟩
  case sealing =>
    have hok : (decide (partState s k = 3) && auditRoom s && (!((leAt b 2 1).testBit 0) || rb s (pgPart k) Reg.ISO_STAT 15)) = true := by
      cases hbit : (leAt b 2 1).testBit 0
      · simp [hstate, hroom]
      · simp [hstate, hroom, hiso hbit, p]
    obtain ⟨hten, hrest⟩ := dropInto_says { s with ten := { s.ten with sealing := s.ten.sealing ++ [(k, slice b 8 32)] } } k
    exact completes_of_next rfl ((tenantCommand_taken htaken _).trans (if_pos hok)) ⟨congrArg (·.sealing) hten, hrest⟩
  case sealComplete =>
    have hquiet : ¬(accessInto s k (groupBase k) groupSize || accessInto s k (quayBase k) quaySize) = true := by simp [hgroup, hquay]
    have hexec : exec (.sealComplete k) s = .next (sealEnd (sealedUnder (sealTaken s k) k b) k b) := by
      refine congrArg Host.Outcome.next ?_
      rw [hfind]
      exact (if_neg hquiet).trans (if_pos hstate)
    exact completes_of_next hexec rfl (sealEnd_says hs k b)
  case unsealing =>
    obtain ⟨e, he, hauth⟩ := hsession
    have hmutual : ¬(!(((sessionOf s fn).map (·.mutualAuth)).getD false) && decide (partState s k = 4)) = true := by simp [he, hauth]
    have hok : (decide (partState s k = 4) && auditRoom s) = true := by simp [hstate, hroom]
    obtain ⟨hopen, hheld, hmail, hmbx, hmem⟩ := unsealedPart_says hs hk
    exact completes_of_next rfl ((tenantCommand_taken htaken _).trans ((if_neg hmutual).trans ((if_pos hok).trans
      (reply_stays (u := unsealedPart s k) htaken hmail hmbx (by decide) 0 [])))) ⟨hopen, hheld, rfl, hmem⟩
  case extend =>
    obtain ⟨hwords, hothers, hmem⟩ := extendMr_says hs k hm (slice b 8 64)
    rw [fitBytes_self (b := slice b 8 64) (length_fitBytes (b.drop 8) 64)] at hwords
    have hexec : exec (.extend fn) s = .next (reply (extendMr s k (leAt b 2 1) (slice b 8 64)) true fn 0x0103 0
        (natBytes (extCount (extendMr s k (leAt b 2 1) (slice b 8 64)) k (leAt b 2 1)) 2)) :=
      congrArg Host.Outcome.next ((tenantCommand_taken htaken _).trans ((if_neg (by omega)).trans (if_pos hlive)))
    generalize extendMr s k (leAt b 2 1) (slice b 8 64) = u at hwords hothers hmem hexec
    exact completes_of_next hexec (reply_only u true fn 0x0103 0 _) ⟨hwords, hothers, hmem⟩
  case loadKey =>
    intro gen
    have hgen : gen < 2 ^ 16 := Nat.mod_lt _ (by decide)
    obtain ⟨hstate, hidField, hgenField, hlast, hkey, hevent, hsame⟩ := keyLoaded_says hs k hi hid hgen (slice b 8 32)
    have hexec : exec (.loadKey fn) s =
        .next (reply (keyLoaded s k i (leAt b 2 1) gen (slice b 8 32)) true fn 0x0201 0 (natBytes gen 2 ++ natBytes i 1)) := by
      refine congrArg Host.Outcome.next ((tenantCommand_taken htaken _).trans ((if_neg (by omega)).trans ?_))
      rw [if_pos hlive, hfree]
      rfl
    have hmail : SameMail true s (keyLoaded s k i (leAt b 2 1) gen (slice b 8 32)) :=
      hsame.sameMail fun _ _ x => pgPart_ne_pgMbx k hk true x.1
    exact completes_of_next hexec (reply_stays htaken hmail (by rw [hsame.rest]; rfl) (by decide) 0 _)
      ⟨hstate, hidField, hgenField, hlast, hkey, hevent, rfl, hsame.mem_eq, hsame.hostMem_eq⟩
  case retireKey =>
    have hexec : exec (.retireKey fn) s = .next (keyRetired s k i) := by
      refine congrArg Host.Outcome.next ((tenantCommand_taken htaken _).trans ?_)
      rw [if_pos hlive, hslot]
      rfl
    exact completes_of_next hexec rfl (keyRetired_says hs k hi)
  case freed =>
    let erased : State := { s with ten := { s.ten with retireWaits := s.ten.retireWaits.erase (k, i) } }
    obtain ⟨hstate, hkeys, hevent, hmem⟩ := freeKey_says (s := erased) hs k hi (by rw [show keyState erased k i = 2 from hretiring]; decide)
    by_cases hwait : s.ten.retireWaits.contains (k, i) = true
    · exact completes_of_next rfl ((if_pos ⟨hk, hi, hretiring, hnone⟩).trans ((if_pos hwait).trans
        (reply_only (freeKey erased k i) true (k + 1) 0x0202 0 _))) ⟨hstate, hkeys, hevent, hmem⟩
    · exact completes_of_next rfl ((if_pos ⟨hk, hi, hretiring, hnone⟩).trans (if_neg hwait)) ⟨hstate, hkeys, hevent, hmem⟩

end Sys2Proof.Machine
end

section
/-!
SUPPORT. A function-level reset, the link and its integrity.
-/

namespace Sys2Proof.Machine

open Sys2Proof

/-! ### What a function's channels leave alone as they are reset (R351, R353) -/

/-- The low halves of the registers that `q` names, device memory and the number of configuration spaces stand, but for the marks
of events. -/
structure Stands (q : Nat → Nat → Prop) (s t : State) : Prop where
  canonical : t.canonical
  low : ∀ p off, off < 0x10000 → ¬ evtReg p off → q p off → rf t p off 0 32 = rf s p off 0 32
  mem : t.mem = s.mem
  cfg : t.pcie.cfg.length = s.pcie.cfg.length

section Stands

variable {q r : Nat → Nat → Prop} {s t u : State}

theorem Stands.refl (h : s.canonical) : Stands q s s := ⟨h, fun _ _ _ _ _ => rfl, rfl, rfl⟩

theorem Stands.trans (h : Stands q s t) (k : Stands q t u) : Stands q s u :=
  ⟨k.canonical, fun p off ho he hq => (k.low p off ho he hq).trans (h.low p off ho he hq), k.mem.trans h.mem, k.cfg.trans h.cfg⟩

theorem Stands.mono (h : Stands q s t) (hr : ∀ p off, r p off → q p off) : Stands r s t :=
  ⟨h.canonical, fun p off ho he hq => h.low p off ho he (hr p off hq), h.mem, h.cfg⟩

theorem Stands.of_regs (h : t.canonical) (hregs : t.regs = s.regs) (hmem : t.mem = s.mem)
    (hcfg : t.pcie.cfg.length = s.pcie.cfg.length) : Stands q s t :=
  ⟨h, fun p off _ _ _ => by rw [rf, rd, hregs, ← rd, ← rf], hmem, hcfg⟩

theorem Stands.of_sameBut (hcan : t.canonical) (h : SameBut r s t) (hq : ∀ p off, q p off → ¬ r p off) : Stands q s t where
  canonical := hcan
  low p off ho he hoff := congrArg (fld · 0 32) (h.rd_eq ho he (hq p off hoff))
  mem := h.mem_eq
  cfg := by simpa using congrArg List.length h.cfg

/-- A field of the low half. -/
theorem Stands.rf (h : Stands q s t) {p off : Nat} (ho : off < 0x10000) (he : ¬ evtReg p off) (hq : q p off) {lo n : Nat}
    (hlo : lo + n ≤ 32) : rf t p off lo n = rf s p off lo n := by
  have hfield : ∀ w : Word, fld w lo n = (fld w 0 32 >>> lo) % 2 ^ n := fun w => by
    refine Nat.eq_of_testBit_eq fun i => ?_
    rw [testBit_fld, Nat.testBit_mod_two_pow, Nat.testBit_shiftRight, testBit_fld, Nat.zero_add]
    by_cases hi : i < n
    · simp [hi, show lo + i < 32 by omega]
    · simp [hi]
  have hlow := h.low p off ho he hq
  rw [Machine.rf, Machine.rf] at hlow
  rw [Machine.rf, Machine.rf, hfield, hfield, hlow]

theorem Stands.rb (h : Stands q s t) {p off : Nat} (ho : off < 0x10000) (he : ¬ evtReg p off) (hq : q p off) {i : Nat}
    (hi : i < 32) : rb t p off i = rb s p off i := by
  rw [Machine.rb, Machine.rb, bit_fld _ hi, bit_fld _ hi]
  exact congrArg (Nat.testBit · i) (h.low p off ho he hq)

theorem writeHost_stands (h : s.canonical) (a : Nat) (b : Bytes) : Stands q s (writeHost s a b) :=
  .of_regs (writeHost_canonical h) rfl rfl rfl

/-- A count in the upper half, wherever it stands. -/
theorem wf_high_stands (h : s.canonical) (p off v : Nat) : Stands q s (wf s p off 32 16 v) := by
  refine ⟨wf_canonical h, fun p' off' _ _ _ => ?_, rfl, rfl⟩
  by_cases haddr : regAddr p' off' = regAddr p off
  · have hsame : ∀ t : State, rd t p' off' = rd t p off := fun t => congrArg (sparseGet regReset t.regs) haddr
    rw [Machine.rf, Machine.rf, hsame, hsame]
    exact rf_wf_other h _ _ _ _ _ _ _ (by decide) (by decide)
  · exact congrArg (fld · 0 32) (sparseGet_set_other regReset s.regs _ _ _ h.1 haddr)

end Stands

/-- The registers that the reset of channel `c` leaves alone: those of the endpoint, and the pages of the other channels. -/
abbrev besideChan (c p off : Nat) : Prop := (p = pgPcie ∧ off ≠ Reg.TX_BYTES) ∨ ∃ j, j < 32 ∧ j ≠ c ∧ p = pgDma j

section Channels

variable {s : State} {c f : Nat}

theorem besideChan_page {p off : Nat} (h : besideChan c p off) : p ≠ pgDma c ∧ (p = 7 ∨ (32 ≤ p ∧ p < 64)) := by
  rcases h with ⟨rfl, -⟩ | ⟨j, hj, hne, rfl⟩
  · exact ⟨pgPcie_ne_pgDma c, .inl rfl⟩
  · simp only [pgDma]
    omega

/-- A write of a page that is no other channel's, nor the endpoint's. -/
theorem wr_besideChan (h : s.canonical) {p off : Nat} (v : Word) (ho : off < 0x10000) (hp : p = pgDma c ∨ (p ≠ 7 ∧ (p < 32 ∨ 64 ≤ p))) :
    Stands (besideChan c) s (wr s p off v) := by
  refine .of_sameBut (wr_canonical h) (wr_sameBut h p off v ho) fun q o hq hreg => ?_
  obtain ⟨hne, hpage⟩ := besideChan_page hq
  obtain ⟨rfl, -⟩ := hreg
  omega

theorem addReg_besideChan (h : s.canonical) {off : Nat} (n : Nat) (ho : off < 0x10000) :
    Stands (besideChan c) s (addReg s (pgDma c) off n) := wr_besideChan h _ ho (.inl rfl)

theorem wf_besideChan (h : s.canonical) {p off : Nat} (lo n v : Nat) (ho : off < 0x10000)
    (hp : p = pgDma c ∨ (p ≠ 7 ∧ (p < 32 ∨ 64 ≤ p))) : Stands (besideChan c) s (wf s p off lo n v) := wr_besideChan h _ ho hp

theorem setChan_besideChan (h : s.canonical) (ch : Chan) : Stands (besideChan c) s (setChan s c ch) := .of_regs h rfl rfl rfl

theorem digestAfter_besideChan (h : s.canonical) (seq : Nat) (w : List Word) (plain : Bytes) :
    Stands (besideChan c) s (digestAfter s c f seq 0xE w plain) := by
  unfold digestAfter
  extract_lets ch
  split
  · exact .refl h
  · rw [if_pos (by decide)]
    exact setChan_besideChan h _

/-- The records of a descriptor that a reset ends (R356). -/
theorem dmaEnd_besideChan (h : s.canonical) (moved : Nat) : Stands (besideChan c) s (dmaEnd s c 0xE 0 0 moved 0 []) := by
  unfold dmaEnd
  extract_lets ch f p
  split
  · exact .refl h
  · next seq w hcur =>
    extract_lets s1 s2 s3 s4 s5 s6 s7 s8 s9
    have h1 : Stands (besideChan c) s s1 := writeHost_stands h _ _
    have h2 : Stands (besideChan c) s1 s2 :=
      .of_sameBut (addReg_canonical h1.canonical) (addReg_sameBut h1.canonical _ _ _ (by decide)) fun q o hq hreg => by
        rcases hq with hq | ⟨j, -, -, hj⟩
        · exact hq.2 hreg.2
        · exact absurd (hreg.1.symm.trans hj) (pgPcie_ne_pgDma j)
    have h3 : Stands (besideChan c) s2 s3 :=
      (addReg_besideChan h2.canonical 1 (by decide)).trans (wf_besideChan (addReg_canonical h2.canonical) 32 32 (seq + 1) (by decide) (.inl rfl))
    have h4 : Stands (besideChan c) s3 s4 := setChan_besideChan h3.canonical _
    have h5 : Stands (besideChan c) s4 s5 := by
      unfold s5
      split
      · exact wf_high_stands h4.canonical _ _ _
      · exact .refl h4.canonical
    have h6 : Stands (besideChan c) s5 s6 := by
      unfold s6
      split
      · next x hx =>
        refine wf_besideChan h5.canonical _ _ _ ?_ (.inr ?_)
        · simp only [Reg.CTX_OUT]; omega
        · simp only [pgPart]; omega
      · exact .refl h5.canonical
    have h7 : Stands (besideChan c) s6 s7 := by
      unfold s7
      split
      · next u hu =>
        have hlt : u < 8 := List.mem_range.1 (List.mem_of_find?_eq_some hu)
        split
        · refine wf_besideChan h6.canonical _ _ _ (by decide) (.inr ?_)
          simp only [pgCvu]
          omega
        · exact .refl h6.canonical
      · exact .refl h6.canonical
    have h8 : Stands (besideChan c) s7 s8 := digestAfter_besideChan h7.canonical _ _ _
    have h9 : Stands (besideChan c) s8 s9 := by
      unfold s9
      split
      · exact .of_sameBut (raiseEvt_canonical h8.canonical) (raiseEvt_sameBut h8.canonical _ _) fun _ _ _ => id
      · exact .refl h8.canonical
    rw [if_neg (by decide)]
    exact ((((((((h1.trans h2).trans h3).trans h4).trans h5).trans h6).trans h7).trans h8).trans h9)

theorem resetRegs_besideChan (h : s.canonical) : Stands (besideChan c) s (resetRegs s (pgDma c) 0x100 0x10000) :=
  ⟨resetRegs_canonical h, fun _ _ ho _ hq => congrArg (fld · 0 32)
    (rd_resetRegs_otherPage h _ (besideChan_page hq).1 ho (by decide) (Nat.le_refl _)), rfl, rfl⟩

theorem resetChan_besideChan (h : s.canonical) (c : Nat) : Stands (besideChan c) s (resetChan s c false) := by
  have hend := dmaEnd_besideChan (c := c) h (chanOf s c).moved
  have hreset := resetRegs_besideChan (c := c) hend.canonical
  have hinfo := wr_besideChan (c := c) hreset.canonical (off := Reg.DMA_INFO)
    (rd (dmaEnd s c 0xE 0 0 (chanOf s c).moved 0 []) (pgDma c) Reg.DMA_INFO) (by decide) (.inl rfl)
  exact ((hend.trans hreset).trans hinfo).trans (setChan_besideChan hinfo.canonical _)

/-- A channel of a function under an FLR returns to OFF (R351). -/
def chanStop (f : Nat) (s : State) (c : Nat) : State :=
  if chanFn s c = some f then setState (wf (resetChan s c false) (pgDma c) Reg.PAGE_CTL 0 2 0) (pgDma c) 0 else s

/-- The channel stands OFF and disabled. -/
abbrev ChanOff (s : State) (c : Nat) : Prop := pageState s (pgDma c) = 0 ∧ rf s (pgDma c) Reg.PAGE_CTL 0 2 = 0

theorem chanStop_says (h : s.canonical) (f c : Nat) :
    Stands (besideChan c) s (chanStop f s c) ∧ (chanFn s c = some f → ChanOff (chanStop f s c) c) := by
  have hreset := resetChan_besideChan h c
  have hctl := wr_besideChan (c := c) hreset.canonical (off := Reg.PAGE_CTL)
    (setFld (rd (resetChan s c false) (pgDma c) Reg.PAGE_CTL) 0 2 0) (by decide) (.inl rfl)
  have hoff := setState_sameBut hctl.canonical (pgDma c) 0
  have hstate : Stands (besideChan c) (wf (resetChan s c false) (pgDma c) Reg.PAGE_CTL 0 2 0)
      (setState (wf (resetChan s c false) (pgDma c) Reg.PAGE_CTL 0 2 0) (pgDma c) 0) :=
    .of_sameBut (setState_canonical hctl.canonical) hoff fun q o hq hreg => (besideChan_page hq).1 hreg.1
  unfold chanStop
  split
  · refine ⟨(hreset.trans hctl).trans hstate, fun _ => ⟨pageState_setState hctl.canonical _ 0 (by decide), ?_⟩⟩
    refine (congrArg (fld · 0 2) (hoff.rd_eq (by decide) (not_evtReg_of_page ?_ (by decide)) fun x => absurd x.2 (by decide))).trans
      (rf_wf_same hreset.canonical _ _ _ _ _ (by decide))
    simp only [pgDma, pgEvr]
    omega
  · next hfn => exact ⟨.refl h, fun hc => absurd hc hfn⟩

end Channels

/-! ### A function-level reset (R351) -/

/-- Its channels stopped. -/
def flrChans (s : State) (f : Nat) : State := (List.range 32).foldl (chanStop f) s

/-- The registers of the endpoint, but for the count of bytes sent. -/
abbrev pcieReg (p off : Nat) : Prop := p = pgPcie ∧ off ≠ Reg.TX_BYTES

theorem not_evtReg_pgPcie {off : Nat} (ho : off ≠ Reg.EVT_STAT) : ¬ evtReg pgPcie off := not_evtReg_of_page (by decide) ho

theorem not_evtReg_pgDma {c off : Nat} (hc : c < 32) (ho : off ≠ Reg.EVT_STAT) : ¬ evtReg (pgDma c) off := by
  refine not_evtReg_of_page ?_ ho
  simp only [pgDma, pgEvr]
  omega

/-- A channel's function, as its register assigns it. -/
theorem Stands.chanFn {q : Nat → Nat → Prop} {s t : State} (h : Stands q s t) {c : Nat} (hc : c < 32)
    (hq : q pgPcie (Reg.DMA_ASSIGN c)) : chanFn t c = chanFn s c := by
  have hevt : ¬ evtReg pgPcie (Reg.DMA_ASSIGN c) := not_evtReg_pgPcie (by simp only [Reg.DMA_ASSIGN, Reg.EVT_STAT]; omega)
  have hbit : bit (rd t pgPcie (Reg.DMA_ASSIGN c)) 7 = bit (rd s pgPcie (Reg.DMA_ASSIGN c)) 7 :=
    h.rb (DMA_ASSIGN_lt hc) hevt hq (by decide)
  have hfld : fld (rd t pgPcie (Reg.DMA_ASSIGN c)) 0 5 = fld (rd s pgPcie (Reg.DMA_ASSIGN c)) 0 5 :=
    h.rf (DMA_ASSIGN_lt hc) hevt hq (by decide)
  rw [Machine.chanFn, Machine.chanFn, hbit, hfld]

/-- A channel that is off stays off while another is stopped. -/
theorem ChanOff.stays {q : Nat → Nat → Prop} {s t : State} {c : Nat} (hoff : ChanOff s c) (h : Stands q s t) (hc : c < 32)
    (hq : ∀ off, q (pgDma c) off) : ChanOff t c :=
  ⟨(h.rf (by decide) (not_evtReg_pageStat _) (hq _) (by decide)).trans hoff.1,
    (h.rf (by decide) (not_evtReg_pgDma hc (by decide)) (hq _) (by decide)).trans hoff.2⟩

theorem chansStopped {s : State} (h : s.canonical) (f : Nat) {n : Nat} (hn : n ≤ 32) :
    let t := (List.range n).foldl (chanStop f) s
    Stands pcieReg s t ∧ ∀ c, c < n → chanFn s c = some f → ChanOff t c := by
  induction n with
  | zero => exact ⟨.refl h, fun c hc => absurd hc (Nat.not_lt_zero c)⟩
  | succ n ih =>
    obtain ⟨hstands, hoff⟩ := ih (by omega)
    obtain ⟨hstep, hstopped⟩ := chanStop_says hstands.canonical f n
    rw [List.range_succ, List.foldl_append]
    refine ⟨hstands.trans (hstep.mono fun _ _ => .inl), fun c hc hfn => ?_⟩
    by_cases hlast : c = n
    · subst hlast
      refine hstopped ((hstands.chanFn (by omega) ⟨rfl, ?_⟩).trans hfn)
      simp only [Reg.DMA_ASSIGN, Reg.TX_BYTES]
      omega
    · exact (hoff c (by omega) hfn).stays hstep (by omega) fun _ => .inr ⟨c, by omega, hlast, rfl⟩

/-- Pages 7, of the endpoint, and 32 to 63, of the channels. -/
abbrev linkPage (p : Nat) (_ : Nat) : Prop := p = 7 ∨ (32 ≤ p ∧ p < 64)

theorem wr_linkPage {s : State} (h : s.canonical) {p off : Nat} (v : Word) (ho : off < 0x10000) (hp : p ≠ 7 ∧ (p < 32 ∨ 64 ≤ p)) :
    Stands linkPage s (wr s p off v) := by
  refine .of_sameBut (wr_canonical h) (wr_sameBut h p off v ho) fun q o hq hreg => ?_
  obtain ⟨rfl, -⟩ := hreg
  omega

theorem wf_linkPage {s : State} (h : s.canonical) {p off : Nat} (lo n v : Nat) (ho : off < 0x10000)
    (hp : p ≠ 7 ∧ (p < 32 ∨ 64 ≤ p)) : Stands linkPage s (wf s p off lo n v) := wr_linkPage h _ ho hp

theorem pgMbx_linkPage (sec : Bool) : pgMbx sec ≠ 7 ∧ (pgMbx sec < 32 ∨ 64 ≤ pgMbx sec) := by cases sec <;> decide

theorem zeroWords_linkPage {s : State} (h : s.canonical) (sec : Bool) (off : Nat → Nat) (ho : ∀ i, i < 32 → off i < 0x10000) :
    Stands linkPage s (zeroWords s (pgMbx sec) off) :=
  List.foldlRecOn (motive := fun t => Stands linkPage s t) _ _ (.refl h) fun _ ht i hi =>
    ht.trans (wr_linkPage ht.canonical 0 (ho i (List.mem_range.1 hi)) (pgMbx_linkPage sec))

theorem clearMbx_linkPage {s : State} (h : s.canonical) (sec : Bool) {f : Nat} (hf : f ≤ 16) :
    Stands linkPage s (clearMbx s sec f) := by
  unfold clearMbx
  extract_lets p cleared idle
  have hreq := zeroWords_linkPage h sec (Reg.REQ f) fun i hi => by simp only [Reg.REQ]; omega
  have hresp : Stands linkPage s cleared := hreq.trans
    (zeroWords_linkPage hreq.canonical sec (Reg.RESP f) fun i hi => by simp only [Reg.RESP]; omega)
  have hstat : Reg.MBX_STAT f < 0x10000 := by simp only [Reg.MBX_STAT]; omega
  have hempty : Stands linkPage cleared (wb cleared p (Reg.MBX_STAT f) 4 false) :=
    wf_linkPage hresp.canonical 4 1 0 hstat (pgMbx_linkPage sec)
  have hidle : Stands linkPage s idle :=
    (hresp.trans hempty).trans (wf_linkPage hempty.canonical 0 3 0 hstat (pgMbx_linkPage sec))
  clear_value idle
  exact hidle.trans (.of_regs hidle.canonical rfl rfl rfl)

theorem freeKey_linkPage {s : State} (h : s.canonical) {k i : Nat} (hk : k < 16) (hi : i < 8) : Stands linkPage s (freeKey s k i) := by
  unfold freeKey
  extract_lets was _ t
  have hgone : Stands linkPage s { s with ten := { s.ten with keys := s.ten.keys.filter fun e => !(e.part = k && e.slot = i) } } :=
    .of_regs h rfl rfl rfl
  have hfree : Stands linkPage s t := hgone.trans (wr_linkPage hgone.canonical 0 (keySlot_lt hi).1 (by simp only [pgPart]; omega))
  split
  · exact hfree
  · exact hfree.trans (.of_sameBut (raiseEvt_canonical hfree.canonical) (raiseEvt_sameBut hfree.canonical _ _) fun _ _ _ => id)

theorem zeroiseKeys_linkPage {s : State} (h : s.canonical) {k : Nat} (hk : k < 16) : Stands linkPage s (zeroiseKeys s k) :=
  List.foldlRecOn (motive := fun t => Stands linkPage s t) _ _ (.refl h) fun _ ht _ hi =>
    ht.trans (freeKey_linkPage ht.canonical hk (List.mem_range.1 hi))

/-- A function's mailboxes, keys, sessions and configuration space are cleared. -/
def flrClear (s : State) (f : Nat) : State :=
  let s := clearMbx (clearMbx s true f) false f
  let s := if f = 0 then s else zeroiseKeys s (f - 1)
  let s := endSessions s f
  { s with
    pcie := { s.pcie with cfg := s.pcie.cfg.set f cfgReset }
    sec := { s.sec with spdm := s.sec.spdm.set f spdmReset } }

/-- The function is in D0 and under an FLR. -/
def flrMark (s : State) (f : Nat) : State := wb (wf s pgPcie Reg.DSTATE (2 * f) 2 0) pgPcie Reg.FLR_STAT f true

theorem flrStart_eq (s : State) (f : Nat) : flrStart s f = flrMark (flrClear (flrChans s f) f) f := rfl

theorem flrClear_says {s : State} (h : s.canonical) {f : Nat} (hf : f ≤ 16) (hlen : f < s.pcie.cfg.length) :
    Stands linkPage s (flrClear s f) ∧ (flrClear s f).pcie.cfg[f]? = some cfgReset := by
  unfold flrClear
  extract_lets s1 s2 s3
  have h1 : Stands linkPage s s1 := (clearMbx_linkPage h true hf).trans (clearMbx_linkPage (clearMbx_linkPage h true hf).canonical false hf)
  have h2 : Stands linkPage s s2 := by
    unfold s2
    split
    · exact h1
    · exact h1.trans (zeroiseKeys_linkPage h1.canonical (by omega))
  have h3 : Stands linkPage s s3 := h2.trans (.of_regs h2.canonical rfl rfl rfl)
  exact ⟨h3.trans (.of_regs h3.canonical rfl rfl (List.length_set ..)), List.getElem?_set_self (h3.cfg.symm ▸ hlen)⟩

/-- What an FLR makes of a function and of its channels (R351). -/
structure Flr (f : Nat) (s t : State) : Prop where
  canonical : t.canonical
  set : rb t pgPcie Reg.FLR_STAT f = true
  others : ∀ j, j < 17 → j ≠ f → rb t pgPcie Reg.FLR_STAT j = rb s pgPcie Reg.FLR_STAT j
  power : dState t f = 0
  space : t.pcie.cfg[f]? = some cfgReset
  spaces : t.pcie.cfg.length = s.pcie.cfg.length
  mem : t.mem = s.mem
  chans : ∀ c, c < 32 → chanFn s c = some f → ChanOff t c

theorem flrStart_says {s : State} (h : s.canonical) {f : Nat} (hf : f ≤ 16) (hlen : f < s.pcie.cfg.length) : Flr f s (flrStart s f) := by
  obtain ⟨hchans, hoff⟩ := chansStopped h f (Nat.le_refl 32)
  obtain ⟨hclear, hspace⟩ := flrClear_says (s := flrChans s f) hchans.canonical hf (hchans.cfg.symm ▸ hlen)
  have hpower : (wf (flrClear (flrChans s f) f) pgPcie Reg.DSTATE (2 * f) 2 0).canonical := wf_canonical hclear.canonical
  have hmarked : ∀ p off, off < 0x10000 → p ≠ pgPcie → rd (flrStart s f) p off = rd (flrClear (flrChans s f) f) p off :=
    fun p off ho hp => (rd_wr_other hpower _ (by decide) ho fun x => hp x.1).trans
      (rd_wr_other hclear.canonical _ (by decide) ho fun x => hp x.1)
  rw [flrStart_eq] at hmarked ⊢
  refine ⟨wb_canonical hpower, rb_wb_same hpower _ _ _ _ (by omega), fun j hj hne => ?_, ?_, hspace, hclear.cfg.trans hchans.cfg,
    hclear.mem.trans hchans.mem, fun c hc hfn => ?_⟩
  · refine (rb_wb_other hpower _ _ _ _ _ hne (by omega)).trans ((congrArg (bit · j) (rd_wr_offset hclear.canonical _ (by decide)
      (by decide) (by decide))).trans ?_)
    exact (hclear.rb (by decide) (not_evtReg_pgPcie (by decide)) (.inl rfl) (by omega)).trans
      (hchans.rb (by decide) (not_evtReg_pgPcie (by decide)) ⟨rfl, by decide⟩ (by omega))
  · exact (congrArg (fld · (2 * f) 2) (rd_wr_offset hpower _ (by decide) (by decide) (by decide))).trans
      (rf_wf_same hclear.canonical _ _ _ _ _ (by omega))
  · have hpage : pgDma c ≠ pgPcie := (pgPcie_ne_pgDma c).symm
    obtain ⟨hstate, hctl⟩ := (hoff c hc hfn).stays hclear hc fun _ => .inr (by simp only [pgDma]; omega)
    exact ⟨(congrArg (fld · 0 4) (hmarked _ _ (by decide) hpage)).trans hstate, (congrArg (fld · 0 2) (hmarked _ _ (by decide) hpage)).trans hctl⟩

/-! ### Levels and messages of the functions (R347, R350) -/

/-- A function that signals no PME keeps its settings. -/
theorem sendPme_quiet {s : State} {f : Nat} {cf : CfgFn} (h : s.pcie.cfg[f]? = some cf) (hoff : cf.pmeEn = false) (rising : Nat) :
    (sendPme s rising).pcie.cfg[f]? = some cf := by
  refine List.foldlRecOn (motive := fun t : State => t.pcie.cfg[f]? = some cf) _ _ h fun t ht j _ => ?_
  split
  · next c hc =>
    split
    · next hon =>
      have hne : j ≠ f := fun hj => by
        subst hj
        rw [ht] at hc
        cases hc
        simp [hoff] at hon
      exact (List.getElem?_set_ne hne).trans ht
    · exact ht
  · exact ht

theorem updWire_cfg (s : State) :
    (updWire s).pcie.cfg = (sendPme { s with pcie := { s.pcie with levels := levelMask s } }
      (maskOf ((bitsOf (levelMask s) 17).filter fun f => !s.pcie.levels.testBit f))).pcie.cfg := by
  unfold updWire
  extract_lets lv rising t t1 wire t2 t3
  have h3 : t3.pcie.cfg = t1.pcie.cfg := by
    unfold t3
    split
    · rfl
    · rfl
  split
  · exact h3
  · exact h3

theorem updWire_quiet {s : State} {f : Nat} {cf : CfgFn} (h : s.pcie.cfg[f]? = some cf) (hoff : cf.pmeEn = false) :
    (updWire s).pcie.cfg[f]? = some cf :=
  (congrArg (·[f]?) (updWire_cfg s)).trans (sendPme_quiet (s := { s with pcie := { s.pcie with levels := levelMask s } }) h hoff _)

/-- Where the levels are up to date none rises, and no PME is sent. -/
theorem updWire_cfg_level {s : State} (h : s.pcie.levels = levelMask s) : (updWire s).pcie.cfg = s.pcie.cfg := by
  have hnone : (bitsOf (levelMask s) 17).filter (fun f => !s.pcie.levels.testBit f) = [] := by
    refine List.filter_eq_nil_iff.2 fun f hf => ?_
    have hbit : (levelMask s).testBit f = true := (List.mem_filter.1 hf).2
    simp [h, hbit]
  rw [updWire_cfg, hnone]
  rfl

theorem rd_updWire_all (s : State) (p off : Nat) : rd (updWire s) p off = rd s p off :=
  congrArg (sparseGet regReset · (regAddr p off)) (updWire_regs s)

/-! ### The link (R344, R351, R367) -/

theorem SameBut.link {q : Nat → Nat → Prop} {s t : State} (h : SameBut q s t) : t.pcie.link = s.pcie.link :=
  (congrArg Pcie.link h.pcie).symm

/-- The link that goes down, before its event. -/
def linkLost (s : State) : State :=
  wr { s with pcie := { s.pcie with
    link := false, wire := false, l2 := false, ide := s.pcie.ide.map fun _ => ⟨[[], []], none⟩ } } pgPcie Reg.LINK_STAT 0

theorem linkLost_canonical {s : State} (h : s.canonical) : (linkLost s).canonical :=
  wr_canonical (s := { s with pcie := { s.pcie with
    link := false, wire := false, l2 := false, ide := s.pcie.ide.map fun _ => ⟨[[], []], none⟩ } }) h

theorem pcieDown_sameBut {s : State} (h : s.canonical) : (pcieDown s).canonical ∧ SameBut noReg (linkLost s) (pcieDown s) := by
  have hlost := linkLost_canonical h
  have hdown : pcieDown s = if rb s pgPcie Reg.LINK_STAT 16 then raiseEvt (linkLost s) pgPcie 0 else linkLost s := rfl
  rw [hdown]
  split
  · exact ⟨raiseEvt_canonical hlost, raiseEvt_sameBut hlost _ _⟩
  · exact ⟨hlost, .refl _ _⟩

/-- An FLR of every function that is not under one (R351). -/
def flrAll (s : State) (n : Nat) : State :=
  (List.range n).foldl (fun s f => if rb s pgPcie Reg.FLR_STAT f then s else flrStart s f) s

theorem flrAll_says {s : State} (h : s.canonical) (hlen : s.pcie.cfg.length = 17) {n : Nat} (hn : n ≤ 17) :
    let t := flrAll s n
    t.canonical ∧ t.mem = s.mem ∧ t.pcie.cfg.length = 17 ∧ ∀ f, f < n → rb t pgPcie Reg.FLR_STAT f = true := by
  induction n with
  | zero => exact ⟨h, rfl, hlen, fun f hf => absurd hf (Nat.not_lt_zero f)⟩
  | succ n ih =>
    obtain ⟨hcan, hmem, hspaces, hset⟩ := ih (by omega)
    have hstep : flrAll s (n + 1) = if rb (flrAll s n) pgPcie Reg.FLR_STAT n then flrAll s n else flrStart (flrAll s n) n := by
      rw [flrAll, List.range_succ, List.foldl_append]
      rfl
    rw [hstep]
    split
    · next hunder =>
      refine ⟨hcan, hmem, hspaces, fun f hf => ?_⟩
      by_cases hlast : f = n
      · exact hlast ▸ hunder
      · exact hset f (by omega)
    · have hflr := flrStart_says hcan (f := n) (by omega) (by omega)
      refine ⟨hflr.canonical, hflr.mem.trans hmem, hflr.spaces.trans hspaces, fun f hf => ?_⟩
      by_cases hlast : f = n
      · exact hlast ▸ hflr.set
      · exact (hflr.others f (by omega) hlast).trans (hset f (by omega))

/-- The error and the state of the endpoint's page once the link is down (R426). -/
def linkReported (s : State) : State := updWire (setState (countError (pcieDown s) pgPcie 1 0 3 none) pgPcie 2)

theorem linkReported_says {s : State} (h : s.canonical) :
    let t := linkReported s
    t.pcie.link = false ∧ rd t pgPcie Reg.LINK_STAT = 0 ∧ pageState t pgPcie = 2 ∧
    rd t pgPcie Reg.FLR_STAT = rd s pgPcie Reg.FLR_STAT ∧ t.mem = s.mem := by
  obtain ⟨hcan, hdown⟩ := pcieDown_sameBut h
  have hcounted : (countError (pcieDown s) pgPcie 1 0 3 none).canonical := countError_canonical hcan
  have hstate : (setState (countError (pcieDown s) pgPcie 1 0 3 none) pgPcie 2).canonical := setState_canonical hcounted
  have hsame : SameBut (fun q o => q = pgPcie ∧ (o = Reg.ERR_COUNT ∨ o = Reg.ERR_FIRST ∨ o = Reg.PAGE_STAT)) (linkLost s) (linkReported s) :=
    ((hdown.none.trans' ((countErrorAt_sameBut hcan pgPcie 1 0 3 none pgPcie).mono fun _ _ x =>
        ⟨x.1, x.2.elim .inl fun y => .inr (.inl y)⟩)).trans'
      ((setState_sameBut hcounted pgPcie 2).mono fun _ _ x => ⟨x.1, .inr (.inr x.2)⟩)).trans' (updWire_sameBut hstate).none
  refine ⟨hsame.link, ?_, (congrArg (fld · 0 4) (rd_updWire_all _ _ _)).trans (pageState_setState hcounted _ 2 (by decide)), ?_, hsame.mem_eq⟩
  · exact (hsame.rd_eq (by decide) (not_evtReg_pgPcie (by decide)) (by decide)).trans (rd_wr_same (s := { s with pcie := { s.pcie with
      link := false, wire := false, l2 := false, ide := s.pcie.ide.map fun _ => ⟨[[], []], none⟩ } }) h _ _ _)
  · exact (hsame.rd_eq (by decide) (not_evtReg_pgPcie (by decide)) (by decide)).trans (rd_wr_offset (s := { s with pcie := { s.pcie with
      link := false, wire := false, l2 := false, ide := s.pcie.ide.map fun _ => ⟨[[], []], none⟩ } }) h _ (by decide) (by decide) (by decide))

/-- What the endpoint holds beside is replaced. -/
theorem SameBut.withPcie {q : Nat → Nat → Prop} {s t : State} (h : SameBut q s t) (e : Pcie) :
    SameBut q { s with pcie := e } { t with pcie := e } where
  regs := h.regs
  rest := by rw [h.rest]
  pcie := rfl
  cfg := rfl
  board := h.board
  evr := h.evr
  err := h.err
  out := h.out

/-- The link is turned off (R350). -/
theorem pmeTurnedOff_says {s : State} (h : s.canonical) :
    let t : State := { pcieDown s with pcie := { (pcieDown s).pcie with l2 := true } }
    t.pcie.link = false ∧ t.pcie.l2 = true ∧ rd t pgPcie Reg.LINK_STAT = 0 ∧
    SameBut (oneReg pgPcie Reg.LINK_STAT) { s with pcie := t.pcie } t := by
  obtain ⟨-, hdown⟩ := pcieDown_sameBut h
  let forgotten : State := { s with pcie := { s.pcie with
    link := false, wire := false, l2 := false, ide := s.pcie.ide.map fun _ => ⟨[[], []], none⟩ } }
  have hlost : SameBut (oneReg pgPcie Reg.LINK_STAT) forgotten (linkLost s) := wr_sameBut (s := forgotten) h _ _ _ (by decide)
  have hzero : rd (pcieDown s) pgPcie Reg.LINK_STAT = 0 :=
    (hdown.rd_eq (by decide) (not_evtReg_pgPcie (by decide)) id).trans (rd_wr_same (s := forgotten) h _ _ _)
  have hlink : (pcieDown s).pcie.link = false := hdown.link
  have hsame := (hlost.trans' hdown.none).withPcie { (pcieDown s).pcie with l2 := true }
  generalize pcieDown s = u at hzero hlink hsame
  exact ⟨hlink, rfl, hzero, hsame⟩

/-- The word of `LINK_STAT` while the link is up. -/
theorem linkWord_fields {rate width : Nat} (flit : Bool) (hrate : rate < 16) (hwidth : width < 256) :
    let w := w64 (rate + width <<< 4 + flit.toNat <<< 12 + 1 <<< 16)
    fld w 0 4 = rate ∧ fld w 4 8 = width ∧ bit w 12 = flit ∧ bit w 16 = true := by
  cases flit <;>
  · simp only [bit, fld, w64, BitVec.getLsbD, Nat.testBit_eq_decide_div_mod_eq, BitVec.toNat_ofNat, Nat.shiftLeft_eq,
      Nat.shiftRight_eq_div_pow, Bool.toNat_true, Bool.toNat_false, decide_eq_true_eq, decide_eq_false_iff_not]
    omega

/-- The link that comes up, before the endpoint's page is READY (R344). -/
def linkTrained (s : State) (rate width : Nat) (flit : Bool) : State :=
  wr { s with pcie := { s.pcie with link := true, l2 := false, d3cold := false } } pgPcie Reg.LINK_STAT
    (w64 (rate + width <<< 4 + flit.toNat <<< 12 + 1 <<< 16))

/-- The page of an endpoint that trained is in service (R476). -/
def endpointReady (u : State) : State := updWire (if pageState u pgPcie = 2 then setState u pgPcie 3 else u)

theorem endpointReady_says {u : State} (h : u.canonical) :
    (pageState u pgPcie = 2 → pageState (endpointReady u) pgPcie = 3) ∧ SameBut (oneReg pgPcie Reg.PAGE_STAT) u (endpointReady u) := by
  unfold endpointReady
  split
  · exact ⟨fun _ => (congrArg (fld · 0 4) (rd_updWire_all _ _ _)).trans (pageState_setState h _ 3 (by decide)),
      (setState_sameBut h _ _).trans' (updWire_sameBut (setState_canonical h)).none⟩
  · next hother => exact ⟨fun hstate => absurd hstate hother, (updWire_sameBut h).none⟩

theorem linkUp_says {s : State} (h : s.canonical) {rate width : Nat} {flit : Bool} (hok : linkModeOk s rate width flit = true) :
    let t := endpointReady (raiseEvt (linkTrained s rate width flit) pgPcie 0)
    t.pcie.link = true ∧ rf t pgPcie Reg.LINK_STAT 0 4 = rate ∧ rf t pgPcie Reg.LINK_STAT 4 8 = width ∧
    rb t pgPcie Reg.LINK_STAT 12 = flit ∧ rb t pgPcie Reg.LINK_STAT 16 = true ∧
    (pageState s pgPcie = 2 → pageState t pgPcie = 3) ∧ SameMemory s t := by
  let linked : State := { s with pcie := { s.pcie with link := true, l2 := false, d3cold := false } }
  have hcan : (linkTrained s rate width flit).canonical := wr_canonical (s := linked) h
  have hraised := raiseEvt_sameBut hcan pgPcie 0
  obtain ⟨hready, hpage⟩ := endpointReady_says (raiseEvt_canonical (p := pgPcie) (b := 0) hcan)
  have hsame := hraised.none.trans' hpage
  have hmode : rate ≤ 6 ∧ width ≤ 16 := by
    simp only [linkModeOk, Bool.and_eq_true, Bool.or_eq_true, decide_eq_true_eq] at hok
    omega
  obtain ⟨hrate, hwidth, hflit, hup⟩ := linkWord_fields flit (show rate < 16 by omega) (show width < 256 by omega)
  have hword := (hsame.rd_eq (p := pgPcie) (off := Reg.LINK_STAT) (by decide) (not_evtReg_pgPcie (by decide)) (by decide)).trans
    (rd_wr_same (s := linked) h _ _ _)
  refine ⟨hsame.link, (congrArg (fld · 0 4) hword).trans hrate, (congrArg (fld · 4 8) hword).trans hwidth,
    (congrArg (bit · 12) hword).trans hflit, (congrArg (bit · 16) hword).trans hup, fun hstate => hready ?_, hsame.mem_eq, hsame.hostMem_eq⟩
  exact (congrArg (fld · 0 4) ((hraised.rd_eq (by decide) (not_evtReg_pageStat _) id).trans
    (rd_wr_offset (s := linked) h _ (by decide) (by decide) (by decide)))).trans hstate

/-! ### An integrity failure (R367, R386) -/

/-- A stream that is no longer secure, and what the link shows of it. -/
def streamLost (s : State) (stream : Nat) (x : IdeStream) : State :=
  let u := setIde s stream { x with active := none }
  if stream = 0 then raiseEvt (wb u pgPcie Reg.LINK_STAT 13 false) pgPcie 0 else u

theorem streamLost_says {s : State} (h : s.canonical) {stream : Nat} {x : IdeStream} (hstream : s.pcie.ide[stream]? = some x) :
    let t := streamLost s stream x
    t.canonical ∧ t.pcie.ide[stream]? = some { x with active := none } ∧ (stream = 0 → rb t pgPcie Reg.LINK_STAT 13 = false) ∧
    SameBut (oneReg pgPcie Reg.LINK_STAT) (setIde s stream { x with active := none }) t := by
  have hlost := setIde_get hstream { x with active := none }
  have hcan : (setIde s stream { x with active := none }).canonical := h
  unfold streamLost
  extract_lets u t
  by_cases hfirst : stream = 0
  · have hset : (wb u pgPcie Reg.LINK_STAT 13 false).canonical := wb_canonical hcan
    have hsame := (wb_sameBut hcan pgPcie Reg.LINK_STAT 13 false (by decide)).trans' (raiseEvt_sameBut hset pgPcie 0).none
    rw [show t = raiseEvt (wb u pgPcie Reg.LINK_STAT 13 false) pgPcie 0 from if_pos hfirst]
    exact ⟨raiseEvt_canonical hset, (congrArg (·[stream]?) hsame.ide).trans hlost,
      fun _ => (congrArg (bit · 13) (rd_raiseEvt hset (by decide) (not_evtReg_pgPcie (by decide)))).trans
        (rb_wb_same hcan _ _ _ _ (by decide)), hsame⟩
  · rw [show t = u from if_neg hfirst]
    exact ⟨hcan, hlost, fun hstream => absurd hstream hfirst, .refl _ _⟩

theorem ideFault_says {s : State} (h : s.canonical) {stream : Nat} {x : IdeStream} (hstream : s.pcie.ide[stream]? = some x) :
    let t := raiseEvt (countError (streamLost s stream x) pgPcie 4 0 1 none) pgPcie 4
    t.pcie.ide[stream]? = some { x with active := none } ∧ rb t pgPcie Reg.EVT_STAT 4 = true ∧
    rd t pgPcie Reg.ERR_COUNT = rd s pgPcie Reg.ERR_COUNT + 1 ∧ (stream = 0 → rb t pgPcie Reg.LINK_STAT 13 = false) ∧ SameMemory s t := by
  obtain ⟨hcan, hide, hshown, hsame⟩ := streamLost_says h hstream
  have hcounted : (countError (streamLost s stream x) pgPcie 4 0 1 none).canonical := countError_canonical hcan
  have hcount := countErrorAt_sameBut hcan pgPcie 4 0 1 none pgPcie
  have hraise := raiseEvt_sameBut hcounted pgPcie 4
  have hend := hcount.trans' hraise.none
  refine ⟨(congrArg (·[stream]?) hend.ide).trans hide, rb_raiseEvt_same hcounted (by decide) (by decide), ?_,
    fun hfirst => (congrArg (bit · 13) (hend.rd_eq (by decide) (not_evtReg_pgPcie (by decide)) (by decide))).trans (hshown hfirst),
    hend.mem_eq.trans hsame.mem_eq, hend.hostMem_eq.trans hsame.hostMem_eq⟩
  refine (hraise.rd_eq (by decide) (not_evtReg_pgPcie (by decide)) id).trans ((rd_countError_count hcan (by decide) _ _ _ _).trans ?_)
  exact congrArg (· + 1) (hsame.rd_eq (by decide) (not_evtReg_pgPcie (by decide)) (by decide))

/-! ### The statement -/

/-- Settles O44: each command of the link, of a function or of a stream by what it leaves at the endpoint. -/
theorem endpointCommandsTakeEffect : Obligations.EndpointCommandsTakeEffect := by
  intro fn d rate width stream c flit w s hs hfn hlen
  refine ⟨fun hlink hidle => ⟨?flr, fun hd hne hback => ?power, fun cf hcf hlevels hloaded => ?config⟩, fun hunder => ?flrDone,
    fun hlink => ⟨?hostReset, ?pmeOff⟩, fun hdown hperst hphase hok => ?linkUp, fun x hstream hactive => ?ideFault⟩
  case flr =>
    have hflr := flrStart_says hs (f := fn) (by omega) (by omega)
    have hread := rd_updWire_all (flrStart s fn)
    refine completes_of_next rfl (if_pos ⟨by omega, hlink, hidle⟩) ⟨(congrArg (bit · fn) (hread _ _)).trans hflr.set,
      (congrArg (fld · (2 * fn) 2) (hread _ _)).trans hflr.power, updWire_quiet hflr.space rfl, (updWire_mem _).trans hflr.mem,
      fun hc hchan => ?_⟩
    obtain ⟨hstate, hctl⟩ := hflr.chans c hc hchan
    exact ⟨(congrArg (fld · 0 4) (hread _ _)).trans hstate, (congrArg (fld · 0 2) (hread _ _)).trans hctl⟩
  case power =>
    have hset : (wf s pgPcie Reg.DSTATE (2 * fn) 2 d).canonical := wf_canonical hs
    have hraised := raiseEvt_sameBut hset pgPcie 2
    have hread := rd_updWire_all (raiseEvt (wf s pgPcie Reg.DSTATE (2 * fn) 2 d) pgPcie 2)
    refine completes_of_next rfl (if_pos ⟨by omega, hlink, hidle, hd, hne, hback⟩) ⟨?_,
      (congrArg (bit · 2) (hread _ _)).trans (rb_raiseEvt_same hset (by decide) (by decide)),
      ((wf_sameBut hs _ _ _ _ _ (by decide)).trans' hraised.none).trans' (updWire_sameBut (raiseEvt_canonical hset)).none⟩
    refine (congrArg (fld · (2 * fn) 2) ((hread _ _).trans (hraised.rd_eq (by decide) (not_evtReg_pgPcie (by decide)) id))).trans
      ((rf_wf_same hs _ _ _ _ _ (by omega)).trans (Nat.mod_eq_of_lt ?_))
    omega
  case config =>
    let written : State := { s with pcie := { s.pcie with cfg := s.pcie.cfg.set fn (cfgSet cf w) } }
    have hopen : (s.pcie.link && cfgLoaded s fn && !(rb s pgPcie Reg.FLR_STAT fn)) = true := by simp [hlink, hloaded, hidle]
    have hexec : exec (.configurationWrite fn w) s = .next (updWire written) := by
      refine congrArg Host.Outcome.next ?_
      rw [hcf]
      exact if_pos hopen
    exact completes_of_next hexec rfl ⟨updWire_cfg_level (s := written) hlevels, (updWire_sameBut (s := written) hs).fromPcie⟩
  case flrDone =>
    let cleared := wb s pgPcie Reg.FLR_STAT fn false
    have hcleared : cleared.canonical := wb_canonical hs
    have hcounted : (addReg cleared pgPcie Reg.FLR_COUNT 1).canonical := addReg_canonical hcleared
    have hraised := raiseEvt_sameBut hcounted pgPcie 1
    have hread : ∀ off, off < 0x10000 → off ≠ Reg.EVT_STAT →
        rd (flrEnd s fn) pgPcie off = rd (addReg cleared pgPcie Reg.FLR_COUNT 1) pgPcie off := fun off ho he =>
      (rd_updWire_all _ _ _).trans (hraised.rd_eq ho (not_evtReg_pgPcie he) id)
    have hcount : rd cleared pgPcie Reg.FLR_COUNT = rd s pgPcie Reg.FLR_COUNT := rd_wr_offset hs _ (by decide) (by decide) (by decide)
    refine completes_of_next rfl (if_pos ⟨by omega, hunder⟩) ⟨?_, ?_,
      (congrArg (bit · 1) (rd_updWire_all _ _ _)).trans (rb_raiseEvt_same hcounted (by decide) (by decide)), ?_⟩
    · exact (congrArg (bit · fn) ((hread _ (by decide) (by decide)).trans (rd_wr_offset hcleared _ (by decide) (by decide) (by decide)))).trans
        (rb_wb_same hs _ _ _ _ (by omega))
    · refine (hread _ (by decide) (by decide)).trans ((rd_wr_same hcleared _ _ _).trans ?_)
      rw [hcount]
      rfl
    · exact ((((wb_sameBut hs _ _ _ _ (by decide)).mono fun _ _ x => ⟨x.1, .inl x.2⟩).trans'
        ((addReg_sameBut hcleared _ _ _ (by decide)).mono fun _ _ x => ⟨x.1, .inr x.2⟩)).trans' hraised.none).trans'
        (updWire_sameBut (raiseEvt_canonical hcounted)).none
  case hostReset =>
    obtain ⟨hcan, hmem, -, hset⟩ := flrAll_says hs hlen (Nat.le_refl 17)
    obtain ⟨hdown, hzero, hpage, hstat, hkept⟩ := linkReported_says hcan
    exact completes_of_next rfl (if_pos hlink) ⟨hdown, hzero, hpage, (congrArg (bit · fn) hstat).trans (hset fn hfn), hkept.trans hmem⟩
  case pmeOff =>
    exact completes_of_next rfl (if_pos hlink) (pmeTurnedOff_says hs)
  case linkUp =>
    exact completes_of_next rfl (if_pos ⟨by simp [hdown], by simp [hperst], hphase, hok⟩) (linkUp_says hs hok)
  case ideFault =>
    have hsecure : ¬ x.active.isNone = true := by
      cases hx : x.active
      · simp [hx] at hactive
      · simp
    have hexec : exec (.ideFault stream) s = .next (raiseEvt (countError (streamLost s stream x) pgPcie 4 0 1 none) pgPcie 4) := by
      refine congrArg Host.Outcome.next ?_
      rw [hstream]
      exact if_neg hsecure
    exact completes_of_next hexec rfl (ideFault_says hs hstream)

end Sys2Proof.Machine
end

section
/-!
SUPPORT. What a step of the power controller leaves alone, and the clocks of islands.
-/

namespace Sys2Proof.Machine

open Sys2Proof

/-! ### What a step of the power controller leaves alone -/

/-- `t` comes from `s` by writes of registers `q` alone, and by events: memory and the energy charged are as they were, and an event
that was raised stays so. -/
structure Passes (q : Nat → Nat → Prop) (s t : State) : Prop where
  canonical : t.canonical
  regs : ∀ p off, off < 0x10000 → ¬ evtReg p off → ¬ q p off → rd t p off = rd s p off
  raised : ∀ p i, p ≠ pgEvr → i < 64 → rb s p Reg.EVT_STAT i = true → rb t p Reg.EVT_STAT i = true
  memory : SameMemory s t
  charged : t.pwr.charged = s.pwr.charged

section Passes

variable {q r : Nat → Nat → Prop} {s t u : State}

theorem Passes.of_regs (h : t.canonical) (hregs : t.regs = s.regs) (hmem : SameMemory s t) (hcharged : t.pwr.charged = s.pwr.charged) :
    Passes q s t :=
  ⟨h, fun p off _ _ _ => by rw [rd, rd, hregs], fun p i _ _ hset => by rwa [rb, rd, hregs], hmem, hcharged⟩

theorem Passes.refl (h : s.canonical) : Passes q s s := .of_regs h rfl ⟨rfl, rfl⟩ rfl

theorem Passes.trans (h : Passes q s t) (g : Passes q t u) : Passes q s u where
  canonical := g.canonical
  regs p off ho he hq := (g.regs p off ho he hq).trans (h.regs p off ho he hq)
  raised p i hp hi hset := g.raised p i hp hi (h.raised p i hp hi hset)
  memory := ⟨g.memory.1.trans h.memory.1, g.memory.2.trans h.memory.2⟩
  charged := g.charged.trans h.charged

theorem Passes.mono (h : Passes q s t) (hr : ∀ p off, q p off → r p off) : Passes r s t :=
  ⟨h.canonical, fun p off ho he hn => h.regs p off ho he fun hq => hn (hr p off hq), h.raised, h.memory, h.charged⟩

theorem Passes.foldl {α : Type} {f : State → α → State} {l : List α} (hf : ∀ s, ∀ a ∈ l, s.canonical → Passes q s (f s a))
    (h : s.canonical) : Passes q s (l.foldl f s) :=
  List.foldlRecOn (motive := fun t => Passes q s t) l f (.refl h) fun t ht a ha => ht.trans (hf t a ha ht.canonical)

theorem Passes.rf (h : Passes q s t) {p off : Nat} (ho : off < 0x10000) (he : ¬ evtReg p off) (hq : ¬ q p off) (lo n : Nat) :
    rf t p off lo n = rf s p off lo n := congrArg (fld · lo n) (h.regs p off ho he hq)

theorem Passes.rb (h : Passes q s t) {p off : Nat} (ho : off < 0x10000) (he : ¬ evtReg p off) (hq : ¬ q p off) (i : Nat) :
    rb t p off i = rb s p off i := congrArg (bit · i) (h.regs p off ho he hq)

theorem Passes.of_sameBut (hcan : t.canonical) (h : SameBut q s t)
    (hraised : ∀ p i, p ≠ pgEvr → i < 64 → Machine.rb s p Reg.EVT_STAT i = true → Machine.rb t p Reg.EVT_STAT i = true) : Passes q s t :=
  ⟨hcan, fun _ _ ho he hq => h.rd_eq ho he hq, hraised, ⟨h.mem_eq, h.hostMem_eq⟩, by rw [h.rest]⟩

theorem genWrite_passes (h : s.canonical) (e : Entry) : Passes q s (genWrite s e) :=
  .of_sameBut (genWrite_kept h.kept).1 (genWrite_sameBut h e).none fun _ _ _ hi hset => genWrite_stays h e hi hset

theorem wr_passes (h : s.canonical) {p off : Nat} (v : Word) (hq : q p off) (ho : off < 0x10000) (he : off ≠ Reg.EVT_STAT) :
    Passes q s (wr s p off v) where
  canonical := wr_canonical h
  regs _ _ ho' _ hq' := rd_wr_other h _ ho ho' fun e => hq' (e.1 ▸ e.2 ▸ hq)
  raised _ i _ _ hset := (congrArg (bit · i) (rd_wr_other h _ ho (by decide) fun e => he e.2.symm)).trans hset
  memory := ⟨rfl, rfl⟩
  charged := rfl

theorem wf_passes (h : s.canonical) {p off : Nat} (lo n v : Nat) (hq : q p off) (ho : off < 0x10000) (he : off ≠ Reg.EVT_STAT) :
    Passes q s (wf s p off lo n v) := wr_passes h _ hq ho he

theorem raiseEvt_passes (h : s.canonical) (p b : Nat) : Passes q s (raiseEvt s p b) where
  canonical := raiseEvt_canonical h
  regs _ _ ho he _ := rd_raiseEvt h ho he
  raised p' i hp hi hset := by
    by_cases hpage : p' = p
    · subst hpage
      exact rb_raiseEvt_stays h b hp hi hset
    · exact (congrArg (bit · i) (rd_raiseEvt_otherPage h b hpage hp (by decide))).trans hset
  memory := ⟨(raiseEvt_sameBut h p b).mem_eq, (raiseEvt_sameBut h p b).hostMem_eq⟩
  charged := congrArg (·.charged) (raiseEvt_pwr s p b)

theorem countError_passes (h : s.canonical) {p : Nat} (code status cls : Nat) (ctx : Option Nat) (hcount : q p Reg.ERR_COUNT)
    (hfirst : q p Reg.ERR_FIRST) : Passes q s (countError s p code status cls ctx) where
  canonical := countError_canonical h
  regs _ _ ho he hq := (countErrorAt_sameBut h p code status cls ctx p).rd_eq ho he fun x =>
    hq (x.1 ▸ x.2.elim (fun y => y ▸ hcount) fun y => y ▸ hfirst)
  raised p' i hp hi hset := by
    by_cases hpage : p' = p
    · subst hpage
      exact rb_countError_stays h code status cls ctx hp hi hset
    · exact (congrArg (bit · i) (rd_countError_otherPage h code status cls ctx hpage hp (by decide))).trans hset
  memory := ⟨(countErrorAt_sameBut h p code status cls ctx p).mem_eq, (countErrorAt_sameBut h p code status cls ctx p).hostMem_eq⟩
  charged := congrArg (·.charged) (countError_pwr s p code status cls ctx)

theorem queueIbi_passes (h : s.canonical) (b : Nat) : Passes q s (queueIbi s b) := by
  unfold queueIbi
  split
  · exact .of_regs h rfl ⟨rfl, rfl⟩ rfl
  · exact .refl h

end Passes

/-- What each index sets, and the others keep, holds of all of them after a loop. -/
theorem foldl_range_all {f : State → Nat → State} {P : Nat → State → Prop} {n : Nat}
    (hcan : ∀ s i, i < n → s.canonical → (f s i).canonical) (hsets : ∀ s i, i < n → s.canonical → P i (f s i))
    (hkeeps : ∀ s i j, i < n → j < n → j ≠ i → s.canonical → P j s → P j (f s i)) {s : State} (h : s.canonical) {m : Nat} (hm : m ≤ n) :
    let t := (List.range m).foldl f s
    t.canonical ∧ ∀ j, j < m → P j t := by
  induction m with
  | zero => exact ⟨h, fun j hj => absurd hj (Nat.not_lt_zero j)⟩
  | succ m ih =>
    obtain ⟨hbefore, hall⟩ := ih (by omega)
    rw [List.range_succ, List.foldl_append]
    refine ⟨hcan _ m (by omega) hbefore, fun j hj => ?_⟩
    by_cases hlast : j = m
    · exact hlast ▸ hsets _ m (by omega) hbefore
    · exact hkeeps _ m j (by omega) (by omega) hlast hbefore (hall j (by omega))

/-! ### Islands and their clocks (R331, R336) -/

/-- The clock of an island of partition `k`. -/
abbrev islandReg (k p off : Nat) : Prop :=
  (off = Reg.ISLAND_CLK ∧ ∃ m, m < 8 ∧ p = pgCl (8 * k + m)) ∨ (off = Reg.SE_ISLAND_CLK ∧ ∃ i, i < 4 ∧ p = pgSe (4 * k + i))

/-- The islands of partition `k` run at these frequencies. -/
abbrev IslandsAt (k a b : Nat) (t : State) : Prop :=
  (∀ m, m < 8 → rf t (pgCl (8 * k + m)) Reg.ISLAND_CLK 0 12 = a) ∧ ∀ i, i < 4 → rf t (pgSe (4 * k + i)) Reg.SE_ISLAND_CLK 0 12 = b

theorem not_evtReg_pgCl {c off : Nat} (ho : off ≠ Reg.EVT_STAT) : ¬ evtReg (pgCl c) off :=
  not_evtReg_of_page (by simp only [pgCl, pgEvr]; omega) ho

theorem not_evtReg_pgSe {e off : Nat} (ho : off ≠ Reg.EVT_STAT) : ¬ evtReg (pgSe e) off :=
  not_evtReg_of_page (by simp only [pgSe, pgEvr]; omega) ho

theorem setIslands_passes {s : State} (h : s.canonical) (k : Nat) (c : Nat × Nat) : Passes (islandReg k) s (setIslands s k c) := by
  have hclusters : Passes (islandReg k) s ((List.range 8).foldl (fun s m => wf s (pgCl (8 * k + m)) Reg.ISLAND_CLK 0 12 c.1) s) :=
    .foldl (fun t m hm ht => wf_passes ht _ _ _ (.inl ⟨rfl, m, List.mem_range.1 hm, rfl⟩) (by decide) (by decide)) h
  exact hclusters.trans (.foldl (fun t i hi ht => wf_passes ht _ _ _ (.inr ⟨rfl, i, List.mem_range.1 hi, rfl⟩) (by decide) (by decide))
    hclusters.canonical)

theorem setIslands_at {s : State} (h : s.canonical) {k : Nat} (hk : k < 16) {a b : Nat} (ha : a < 2 ^ 12) (hb : b < 2 ^ 12) :
    IslandsAt k a b (setIslands s k (a, b)) := by
  obtain ⟨hcan, hclusters⟩ := foldl_range_all (f := fun s m => wf s (pgCl (8 * k + m)) Reg.ISLAND_CLK 0 12 a)
    (P := fun m t => rf t (pgCl (8 * k + m)) Reg.ISLAND_CLK 0 12 = a) (n := 8) (fun s m _ ht => wf_canonical ht)
    (fun s m _ ht => (rf_wf_same ht _ _ _ _ _ (by decide)).trans (Nat.mod_eq_of_lt ha))
    (fun s m j _ _ hne ht hset => (congrArg (fld · 0 12) (rd_wr_other ht _ (by decide) (by decide) fun e => by
      have hpage := e.1
      simp only [pgCl] at hpage
      omega)).trans hset) h (Nat.le_refl 8)
  obtain ⟨-, hengines⟩ := foldl_range_all (f := fun s i => wf s (pgSe (4 * k + i)) Reg.SE_ISLAND_CLK 0 12 b)
    (P := fun i t => rf t (pgSe (4 * k + i)) Reg.SE_ISLAND_CLK 0 12 = b) (n := 4) (fun s i _ ht => wf_canonical ht)
    (fun s i _ ht => (rf_wf_same ht _ _ _ _ _ (by decide)).trans (Nat.mod_eq_of_lt hb))
    (fun s i j _ _ hne ht hset => (congrArg (fld · 0 12) (rd_wr_other ht _ (by decide) (by decide) fun e => by
      have hpage := e.1
      simp only [pgSe] at hpage
      omega)).trans hset) hcan (Nat.le_refl 4)
  have hkept : Passes (fun p _ => ∃ i, i < 4 ∧ p = pgSe (4 * k + i)) _ (setIslands s k (a, b)) :=
    .foldl (fun t i hi ht => wf_passes ht _ _ _ ⟨i, List.mem_range.1 hi, rfl⟩ (by decide) (by decide)) hcan
  refine ⟨fun m hm => (hkept.rf (by decide) (not_evtReg_pgCl (by decide)) ?_ 0 12).trans (hclusters m hm), hengines⟩
  rintro ⟨i, hi, hpage⟩
  simp only [pgCl, pgSe] at hpage
  omega

/-- The clocks of some islands are set. -/
theorem setClks_sameBut {s : State} (h : s.canonical) (l : List Nat) (page : Nat → Nat) {off : Nat} (ho : off < 0x10000) (v : Nat) :
    let t := l.foldl (fun s m => wf s (page m) off 0 12 v) s
    t.canonical ∧ SameBut (fun _ o => o = off) s t :=
  ⟨List.foldlRecOn (motive := fun t : State => t.canonical) _ _ h fun _ ht _ _ => wf_canonical ht,
    sameBut_foldl l h (fun _ _ ht => wf_canonical ht) fun _ _ ht => (wf_sameBut ht _ _ _ _ _ ho).mono fun _ _ e => e.2⟩

theorem setIslands_sameBut {s : State} (h : s.canonical) (k : Nat) (c : Nat × Nat) :
    SameBut (fun _ o => o = Reg.ISLAND_CLK ∨ o = Reg.SE_ISLAND_CLK) s (setIslands s k c) := by
  obtain ⟨hcan, hclusters⟩ := setClks_sameBut h (List.range 8) (fun m => pgCl (8 * k + m)) (off := Reg.ISLAND_CLK) (by decide) c.1
  obtain ⟨-, hengines⟩ := setClks_sameBut hcan (List.range 4) (fun i => pgSe (4 * k + i)) (off := Reg.SE_ISLAND_CLK) (by decide) c.2
  exact (hclusters.mono fun _ _ => .inl).trans' (hengines.mono fun _ _ => .inr)

/-- A raise that is pending no longer. -/
def raiseEnded (s : State) (k : Nat) : State := { s with pwr := { s.pwr with raising := s.pwr.raising.filter fun j => j ≠ k } }

theorem not_mem_raising (s : State) (k : Nat) : k ∉ (raiseEnded s k).pwr.raising := fun hk => by
  simpa using (List.mem_filter.1 hk).2

theorem voltageSettled_says {s : State} (h : s.canonical) {k : Nat} (hk : k < 16) (hraising : k ∈ s.pwr.raising)
    (htrip : s.board.thermtrip = false) :
    Completes (.voltageSettled k) s fun t =>
      k ∉ t.pwr.raising ∧ IslandsAt k (rf s (pgPart k) Reg.ECLOCKS 0 12) (rf s (pgPart k) Reg.ECLOCKS 16 12) t ∧
      SameBut (fun _ o => o = Reg.ISLAND_CLK ∨ o = Reg.SE_ISLAND_CLK) { s with pwr := t.pwr } t := by
  have hok : (s.pwr.raising.contains k && !s.board.thermtrip) = true := by simp [hraising, htrip]
  have hsame := setIslands_sameBut (s := raiseEnded s k) h k (rf s (pgPart k) Reg.ECLOCKS 0 12, rf s (pgPart k) Reg.ECLOCKS 16 12)
  have hpwr : (setIslands (raiseEnded s k) k (rf s (pgPart k) Reg.ECLOCKS 0 12, rf s (pgPart k) Reg.ECLOCKS 16 12)).pwr = (raiseEnded s k).pwr := by
    rw [hsame.rest]
  refine completes_of_next rfl (if_pos hok) ⟨?_, setIslands_at (s := raiseEnded s k) h hk (rf_lt _ _ _ _ _) (rf_lt _ _ _ _ _), ?_⟩
  · exact hpwr ▸ not_mem_raising s k
  · exact hpwr ▸ hsame

end Sys2Proof.Machine
end

section
/-!
SUPPORT. Regulators, registers and sites of the power controller.
-/

namespace Sys2Proof.Machine

open Sys2Proof

/-! ### Faults of a regulator (R343, R372) -/

theorem raised_of_regs {s t : State} (h : t.regs = s.regs) {p i : Nat} (hset : rb s p Reg.EVT_STAT i = true) :
    rb t p Reg.EVT_STAT i = true := by rwa [rb, rd, h]

theorem triggerJobsOf_beside (s : State) (k cause : Nat) :
    (triggerJobsOf s k cause).regs = s.regs ∧ (triggerJobsOf s k cause).pwr = s.pwr := by
  refine List.foldlRecOn (motive := fun t : State => t.regs = s.regs ∧ t.pwr = s.pwr) _ _ ⟨rfl, rfl⟩ fun t ht x _ => ?_
  split
  · exact ht
  · obtain ⟨l, hl⟩ := triggerJob_eq t (rf t (pgPart k) (Reg.CTX_JOB x) 0 8) cause (pgPart k)
    rw [hl]
    exact ht

/-- A partition that enters FAULT leaves the events of other pages and the power controller's state alone. -/
theorem faultPart_beside {s : State} (h : s.canonical) (k : Nat) :
    (rb s pgPwr Reg.EVT_STAT 62 = true → rb (faultPart s k) pgPwr Reg.EVT_STAT 62 = true) ∧ (faultPart s k).pwr = s.pwr := by
  unfold faultPart
  split
  · obtain ⟨hregs, hpwr⟩ := triggerJobsOf_beside (setPart s k 5) k 3
    refine ⟨fun hset => raised_of_regs hregs ?_, hpwr.trans (setPart_pwr _ _ _)⟩
    unfold setPart
    split
    · exact hset
    · have hstate : Passes (oneReg (pgPart k) Reg.PART_STATE) s (wf s (pgPart k) Reg.PART_STATE 0 4 5) :=
        wf_passes h _ _ _ ⟨rfl, rfl⟩ (by decide) (by decide)
      exact (hstate.trans (raiseEvt_passes hstate.canonical _ _)).raised _ _ (by decide) (by decide) hset
  · exact ⟨id, rfl⟩

/-- The registers of the power controller's page in which an error is recorded. -/
abbrev pwrErr (p off : Nat) : Prop := p = pgPwr ∧ (off = Reg.ERR_COUNT ∨ off = Reg.ERR_FIRST)

theorem pwrError_passes {s : State} (h : s.canonical) (code status cls : Nat) (ctx : Option Nat) :
    Passes pwrErr s (countError s pgPwr code status cls ctx) :=
  countError_passes h _ _ _ _ ⟨rfl, .inl rfl⟩ ⟨rfl, .inr rfl⟩

/-- An error of a page raises its event (R39). -/
theorem rb_countError_error {s : State} (h : s.canonical) {p : Nat} (hp : p ≠ pgEvr) (code status cls : Nat) (ctx : Option Nat) :
    rb (countError s p code status cls ctx) p Reg.EVT_STAT 62 = true := by
  obtain ⟨t, ht, heq, -⟩ := rd_countError_cases (p := p) h code status cls ctx
  rw [heq]
  exact rb_raiseEvt_same ht hp (by decide)

theorem pgPart_pwrErr {k off : Nat} : ¬ pwrErr (pgPart k) off := fun e => by
  have hpage := e.1
  simp only [pgPart, pgPwr] at hpage
  omega

theorem regulatorFault_says {s : State} (h : s.canonical) {k : Nat} (hk : k < 16) :
    Completes (.regulatorFault k) s fun t =>
      k ∉ t.pwr.raising ∧ rb t pgPwr Reg.EVT_STAT 62 = true ∧ (partLive s k = true → partState t k = 5) ∧ SameMemory s t := by
  have hended : (raiseEnded s k).canonical := h
  have herror := pwrError_passes hended 5 0 2 none
  obtain ⟨hpart, hfault⟩ := faultPart_partBut (k := k) herror.canonical
  obtain ⟨hevent, hpwr⟩ := faultPart_beside herror.canonical k
  have hlive : partLive (countError (raiseEnded s k) pgPwr 5 0 2 none) k = partLive s k := by
    have hstate := herror.rf (p := pgPart k) (off := Reg.PART_STATE) (by decide) (not_evtReg_pgPart (by decide)) pgPart_pwrErr 0 4
    rw [partLive, partState, hstate]
    rfl
  refine completes_of_next rfl (if_pos hk) ⟨?_, hevent (rb_countError_error hended (by decide) _ _ _ _),
    fun hs => hfault (hlive.trans hs), hpart.memory.1.trans herror.memory.1, hpart.memory.2.trans herror.memory.2⟩
  have hraising := hpwr.trans (countError_pwr (raiseEnded s k) _ _ _ _ _)
  show k ∉ (faultPart (countError (raiseEnded s k) pgPwr 5 0 2 none) k).pwr.raising
  rw [hraising]
  exact not_mem_raising s k

/-! ### The registers of the power controller (R333, R342) -/

theorem pwrCtlFixed_says {s : State} (h : s.canonical) {fn : Nat} {v : Word} (hmay : MayWrite s fn pgPwr Reg.PWR_CTL)
    (hok : if bit v 0 then fixOk s = true else anySealed s = false) :
    Completes (.pwrCtlFixed fn v) s fun t =>
      rb t pgPwr Reg.PWR_CTL 0 = bit v 0 ∧ SameBut (fun q o => (q = pgPwr ∧ o = Reg.PWR_CTL) ∨ o = Reg.ISO_STAT) s t := by
  have hallowed : (decide (bit v 0 = rb s pgPwr Reg.PWR_CTL 0) || (if bit v 0 then fixOk s else !(anySealed s))) = true := by
    cases hbit : bit v 0
    · have hnone : anySealed s = false := by simpa [hbit] using hok
      simp [hnone]
    · have hfits : fixOk s = true := by simpa [hbit] using hok
      simp [hfits]
  have hset := wb_sameBut h pgPwr Reg.PWR_CTL 0 (bit v 0) (by decide)
  have hiso := updIso_sameBut (wb_canonical (p := pgPwr) (off := Reg.PWR_CTL) (i := 0) (b := bit v 0) h)
  exact completes_of_next rfl ((withWrite_accepted hmay _).trans (guarded_accepted hallowed _))
    ⟨(hiso.rb_eq (by decide) (not_evtReg_of_page (by decide) (by decide)) (by decide)).trans (rb_wb_same h _ _ _ _ (by decide)),
      (hset.mono fun _ _ e => .inl e).trans' (hiso.mono fun _ _ e => .inr e)⟩

theorem partAllocWrite_says {s : State} (h : s.canonical) {fn k : Nat} (hk : k < 16) {v : Word} (hmay : MayWrite s fn pgPwr (Reg.PART_ALLOC k))
    (hclusters : 6 ≤ fld v 8 5 ∧ fld v 8 5 ≤ 20) (hengines : 6 ≤ fld v 16 5 ∧ fld v 16 5 ≤ 12)
    (hfree : ¬(rb s pgPwr Reg.PWR_CTL 0 = true ∧ sealHeld s k = true)) :
    Completes (.partAllocWrite fn k v) s fun t =>
      rd t pgPwr (Reg.PART_ALLOC k) = v &&& 0x0000FFFF001F1F0F ∧ SameBut (oneReg pgPwr (Reg.PART_ALLOC k)) s t := by
  have hcl : fld (v &&& 0x0000FFFF001F1F0F) 8 5 = fld v 8 5 := fld_and_mask _ _ (by decide)
  have hse : fld (v &&& 0x0000FFFF001F1F0F) 16 5 = fld v 16 5 := fld_and_mask _ _ (by decide)
  have hopen : (rb s pgPwr Reg.PWR_CTL 0 && sealHeld s k) = false := by
    cases hboth : rb s pgPwr Reg.PWR_CTL 0 && sealHeld s k
    · rfl
    · exact absurd (Bool.and_eq_true_iff.1 hboth) hfree
  have hok : (decide (v &&& 0x0000FFFF001F1F0F = rd s pgPwr (Reg.PART_ALLOC k)) ||
      (decide (6 ≤ fld (v &&& 0x0000FFFF001F1F0F) 8 5) && decide (fld (v &&& 0x0000FFFF001F1F0F) 8 5 ≤ 20) &&
        decide (6 ≤ fld (v &&& 0x0000FFFF001F1F0F) 16 5) && decide (fld (v &&& 0x0000FFFF001F1F0F) 16 5 ≤ 12) &&
        !(rb s pgPwr Reg.PWR_CTL 0 && sealHeld s k))) = true := by
    rw [hcl, hse, hopen, decide_eq_true hclusters.1, decide_eq_true hclusters.2, decide_eq_true hengines.1,
      decide_eq_true hengines.2]
    exact Bool.or_true _
  have hoff : Reg.PART_ALLOC k < 0x10000 := by simp only [Reg.PART_ALLOC]; omega
  exact completes_of_next rfl ((if_pos hk).trans ((withWrite_accepted hmay _).trans (guarded_accepted hok _)))
    ⟨rd_wr_same h _ _ _, wr_sameBut h _ _ _ hoff⟩

/-! ### Sites held at zero (R338) -/

theorem pumpAll_idle {s : State} {t : Nat} (h : (siteOf s t).toSend = []) : pumpAll s t = s := by
  rw [pumpAll, h]
  rfl

/-- A site that is no longer stopped, with its credits. -/
def siteFreed (s : State) (i : Nat) : State :=
  wakeSite { s with pwr := { s.pwr with stopped := s.pwr.stopped.filter fun x => x ≠ i } } i

theorem siteFreed_says {s : State} {i : Nat} (hi : i < s.sites.length) (hidle : (siteOf s i).toSend = []) :
    let u := siteFreed s i
    u = { s with pwr := u.pwr, sites := u.sites } ∧ i ∉ u.pwr.stopped ∧ (creditsKept u i = false → (siteOf u i).kept = List.replicate 16 0) := by
  let freed : State := { s with pwr := { s.pwr with stopped := s.pwr.stopped.filter fun x => x ≠ i } }
  have hpump : pumpAll freed i = freed := pumpAll_idle hidle
  have hnot : i ∉ freed.pwr.stopped := fun hin => by simpa using (List.mem_filter.1 hin).2
  have hwake : siteFreed s i = if creditsKept freed i then freed else setSite freed i fun x => { x with kept := List.replicate 16 0 } := by
    rw [siteFreed, wakeSite, hpump]
  rw [hwake]
  split
  · next hkept => exact ⟨rfl, hnot, fun hnone => absurd (hkept.symm.trans hnone) (by decide)⟩
  · refine ⟨rfl, hnot, fun _ => ?_⟩
    rw [siteOf, setSite, List.getD_eq_getElem?_getD, List.getElem?_set_self hi]
    rfl

/-- The caps and the counts of lanes bound a site's cap. -/
theorem siteCapMax_lt (s : State) (t : Nat) : siteCapMax s t / 64 < 2 ^ 12 := by
  have hrate := rf_lt s (pgSite t) Reg.SITE_LINK 40 8
  have hlanes := rf_lt s (pgSite t) Reg.SITE_LINK 32 6
  have hprod : rf s (pgSite t) Reg.SITE_LINK 40 8 * rf s (pgSite t) Reg.SITE_LINK 32 6 ≤ 255 * 63 := Nat.mul_le_mul (by omega) (by omega)
  rw [siteCapMax, Nat.mul_assoc]
  omega

/-- Its cap starts again from the floor. -/
def capFloor (u : State) (i : Nat) : State :=
  wf (wf u pgPwr (Reg.SITE_PWR i) 16 12 (siteCapMax u i / 64)) pgPwr (Reg.SITE_PWR i) 48 16 0

theorem capFloor_says {u : State} (h : u.canonical) {i : Nat} (hi : i < 4) :
    rf (capFloor u i) pgPwr (Reg.SITE_PWR i) 16 12 = siteCapMax u i / 64 ∧ SameBut (oneReg pgPwr (Reg.SITE_PWR i)) u (capFloor u i) := by
  have hoff : Reg.SITE_PWR i < 0x10000 := by simp only [Reg.SITE_PWR]; omega
  have hcap : (wf u pgPwr (Reg.SITE_PWR i) 16 12 (siteCapMax u i / 64)).canonical := wf_canonical h
  exact ⟨(rf_wf_other hcap _ _ _ _ _ _ _ (by decide) (by decide)).trans
    ((rf_wf_same h _ _ _ _ _ (by decide)).trans (Nat.mod_eq_of_lt (siteCapMax_lt u i))),
    (wf_sameBut h _ _ _ _ _ hoff).trans' (wf_sameBut hcap _ _ _ _ _ hoff)⟩

theorem creditsKept_congr {s t : State} (i : Nat) (hregs : ∀ off, off ≠ Reg.EVT_STAT → off < 0x10000 → rd t (pgSite i) off = rd s (pgSite i) off)
    (hparts : ∀ k, partState t k = partState s k) (hstopped : t.pwr.stopped = s.pwr.stopped) (htrip : t.board.thermtrip = s.board.thermtrip) :
    creditsKept t i = creditsKept s i := by
  have hquiet : siteQuiet t i = siteQuiet s i := by
    simp only [siteQuiet, rf, hregs Reg.SITE_ASSIGN (by decide) (by decide), hparts]
  simp only [creditsKept, rb, hregs Reg.PAGE_CTL (by decide) (by decide), hquiet, hstopped, htrip]

theorem siteRelease_says {s : State} (h : s.canonical) {fn i : Nat} (hi : i < 4) {v : Word} (hmay : MayWrite s fn pgPwr Reg.SITE_RELEASE)
    (hstopped : i ∈ s.pwr.stopped) (hmask : fld v 0 4 = 1 <<< i) (hsites : s.sites.length = 4) (hidle : (siteOf s i).toSend = []) :
    Completes (.siteRelease fn v) s fun t =>
      i ∉ t.pwr.stopped ∧ rf t pgPwr (Reg.SITE_PWR i) 16 12 = siteCapMax s i / 64 ∧
      (creditsKept t i = false → (siteOf t i).kept = List.replicate 16 0) ∧
      SameBut (oneReg pgPwr (Reg.SITE_PWR i)) { s with pwr := t.pwr, sites := t.sites } t := by
  obtain ⟨hfreed, hnot, hcredits⟩ := siteFreed_says (hsites.symm ▸ hi) hidle
  have hone : ∀ j, j < 4 → bitsOf (1 <<< j) 4 = [j] := by decide
  have hexec : exec (.siteRelease fn v) s = .next (capFloor (siteFreed s i) i) := by
    refine congrArg Host.Outcome.next ((withWrite_accepted hmay _).trans ?_)
    rw [hmask, hone i hi]
    exact if_pos (by simpa using hstopped)
  generalize siteFreed s i = u at hfreed hnot hcredits hexec
  have hcan : u.canonical := by
    rw [hfreed]
    exact h
  have hcapMax : siteCapMax u i = siteCapMax s i := by rw [hfreed]; rfl
  obtain ⟨hcap, hsame⟩ := capFloor_says hcan hi
  have hpwr : (capFloor u i).pwr = u.pwr := rfl
  refine completes_of_next hexec rfl ⟨hnot, hcap.trans (by rw [hcapMax]), fun hnone => hcredits ?_, ?_⟩
  · refine (creditsKept_congr (s := u) (t := capFloor u i) i (fun off he ho => ?_) (fun k => ?_) rfl rfl).symm.trans hnone
    · refine hsame.rd_eq ho (not_evtReg_of_page ?_ he) fun e => ?_
      · simp only [pgSite, pgEvr]; omega
      · have hpage := e.1
        simp only [pgSite, pgPwr] at hpage
        omega
    · refine congrArg (fld · 0 4) (hsame.rd_eq (by decide) (not_evtReg_pgPart (by decide)) fun e => ?_)
      have hpage := e.1
      simp only [pgPart, pgPwr] at hpage
      omega
  · show SameBut _ { s with pwr := u.pwr, sites := u.sites } (capFloor u i)
    rw [← hfreed]
    exact hsame

end Sys2Proof.Machine
end

section
/-!
SUPPORT. The thermal trip.
-/

namespace Sys2Proof.Machine

open Sys2Proof

/-! ### The thermal trip (R492) -/

/-- The islands of a partition stop. -/
def tripPart (s : State) (k : Nat) : State := wr (setIslands s k (0, 0)) (pgPart k) Reg.ECLOCKS 0

/-- The clocks of a partition. -/
abbrev clockReg (k p off : Nat) : Prop := islandReg k p off ∨ oneReg (pgPart k) Reg.ECLOCKS p off

theorem tripPart_passes {s : State} (h : s.canonical) (k : Nat) : Passes (clockReg k) s (tripPart s k) := by
  have hislands := (setIslands_passes h k (0, 0)).mono (r := clockReg k) fun _ _ => .inl
  exact hislands.trans (wr_passes hislands.canonical _ (.inr ⟨rfl, rfl⟩) (by decide) (by decide))

/-- The islands of a partition stand still. -/
abbrev Stopped (k : Nat) (t : State) : Prop := IslandsAt k 0 0 t ∧ rd t (pgPart k) Reg.ECLOCKS = 0

/-- A step that leaves a partition's clocks alone leaves them as they are. -/
theorem Stopped.passes {q : Nat → Nat → Prop} {k : Nat} {s t : State} (hstop : Stopped k s) (h : Passes q s t)
    (hq : ∀ p off, clockReg k p off → ¬ q p off) : Stopped k t := by
  obtain ⟨⟨hclusters, hengines⟩, hclocks⟩ := hstop
  refine ⟨⟨fun m hm => ?_, fun i hi => ?_⟩, ?_⟩
  · exact (h.rf (by decide) (not_evtReg_pgCl (by decide)) (hq _ _ (.inl (.inl ⟨rfl, m, hm, rfl⟩))) 0 12).trans (hclusters m hm)
  · exact (h.rf (by decide) (not_evtReg_pgSe (by decide)) (hq _ _ (.inl (.inr ⟨rfl, i, hi, rfl⟩))) 0 12).trans (hengines i hi)
  · exact (h.regs _ _ (by decide) (not_evtReg_pgPart (by decide)) (hq _ _ (.inr ⟨rfl, rfl⟩))).trans hclocks

/-- The pages on which the clocks of a partition stand. -/
theorem clockReg_page {k p off : Nat} (h : clockReg k p off) :
    (256 + 8 * k ≤ p ∧ p < 256 + 8 * k + 8) ∨ (512 + 4 * k ≤ p ∧ p < 512 + 4 * k + 4) ∨ p = 128 + k := by
  rcases h with (⟨-, m, hm, rfl⟩ | ⟨-, i, hi, rfl⟩) | ⟨rfl, -⟩
  · simp only [pgCl]; omega
  · simp only [pgSe]; omega
  · exact .inr (.inr rfl)

theorem clockReg_disjoint {j k : Nat} (hj : j < 16) (hk : k < 16) (hne : j ≠ k) {p off : Nat} (h : clockReg j p off) :
    ¬ clockReg k p off := fun h' => by
  have hpage := clockReg_page h
  have hpage' := clockReg_page h'
  clear h h'
  omega

theorem tripPart_stops {s : State} (h : s.canonical) {k : Nat} (hk : k < 16) : Stopped k (tripPart s k) := by
  have hislands := setIslands_passes h k (0, 0)
  have hlast : Passes (oneReg (pgPart k) Reg.ECLOCKS) (setIslands s k (0, 0)) (tripPart s k) :=
    wr_passes hislands.canonical _ ⟨rfl, rfl⟩ (by decide) (by decide)
  obtain ⟨hclusters, hengines⟩ := setIslands_at h hk (a := 0) (b := 0) (by decide) (by decide)
  refine ⟨⟨fun m hm => ?_, fun i hi => ?_⟩, rd_wr_same hislands.canonical _ _ _⟩
  · refine (hlast.rf (by decide) (not_evtReg_pgCl (by decide)) (fun e => ?_) 0 12).trans (hclusters m hm)
    have hpage := e.1
    simp only [pgCl, pgPart] at hpage
    omega
  · refine (hlast.rf (by decide) (not_evtReg_pgSe (by decide)) (fun e => ?_) 0 12).trans (hengines i hi)
    have hpage := e.1
    simp only [pgSe, pgPart] at hpage
    omega

/-- Every island stops, and every site's cap is zero. -/
def tripAll (s : State) : State :=
  (List.range 4).foldl (fun s t => wf s pgPwr (Reg.SITE_PWR t) 16 12 0) ((List.range 16).foldl tripPart s)

/-- Registers alone are written. -/
abbrev OnlyRegs (s t : State) : Prop := t = { s with regs := t.regs }

theorem OnlyRegs.trans {s t u : State} (h : OnlyRegs s t) (g : OnlyRegs t u) : OnlyRegs s u := by
  unfold OnlyRegs at h g ⊢
  rw [g, h]

theorem OnlyRegs.foldl {f : State → Nat → State} (hf : ∀ s i, OnlyRegs s (f s i)) (l : List Nat) (s : State) : OnlyRegs s (l.foldl f s) :=
  List.foldlRecOn (motive := fun t => OnlyRegs s t) l f rfl fun _ ht i _ => ht.trans (hf _ i)

theorem setIslands_onlyRegs (s : State) (k : Nat) (c : Nat × Nat) : OnlyRegs s (setIslands s k c) :=
  (OnlyRegs.foldl (f := fun s m => wf s (pgCl (8 * k + m)) Reg.ISLAND_CLK 0 12 c.1) (fun _ _ => rfl) (List.range 8) s).trans
    (.foldl (f := fun s i => wf s (pgSe (4 * k + i)) Reg.SE_ISLAND_CLK 0 12 c.2) (fun _ _ => rfl) (List.range 4) _)

theorem tripAll_onlyRegs (s : State) : OnlyRegs s (tripAll s) :=
  (OnlyRegs.foldl (f := tripPart) (fun s k => (setIslands_onlyRegs s k (0, 0)).trans rfl) (List.range 16) s).trans
    (.foldl (f := fun s t => wf s pgPwr (Reg.SITE_PWR t) 16 12 0) (fun _ _ => rfl) (List.range 4) _)

/-- The caps of the sites. -/
abbrev siteCap (p off : Nat) : Prop := p = pgPwr ∧ ∃ t, t < 4 ∧ off = Reg.SITE_PWR t

theorem sitePwr_lt {t : Nat} (h : t < 4) : Reg.SITE_PWR t < 0x10000 ∧ Reg.SITE_PWR t ≠ Reg.EVT_STAT := by
  simp only [Reg.SITE_PWR, Reg.EVT_STAT]
  omega

theorem tripAll_says {s : State} (h : s.canonical) :
    let t := tripAll s
    t.canonical ∧ (∀ k, k < 16 → Stopped k t) ∧ (∀ i, i < 4 → rf t pgPwr (Reg.SITE_PWR i) 16 12 = 0) ∧ t.pwr = s.pwr ∧
    t.board = s.board ∧ SameMemory s t := by
  have hparts : Passes (fun p off => ∃ k, k < 16 ∧ clockReg k p off) s ((List.range 16).foldl tripPart s) :=
    .foldl (fun t k hk ht => (tripPart_passes ht k).mono fun _ _ hq => ⟨k, List.mem_range.1 hk, hq⟩) h
  obtain ⟨hcan, hstopped⟩ := foldl_range_all (f := tripPart) (P := Stopped) (n := 16) (fun s k _ ht => (tripPart_passes ht k).canonical)
    (fun s k hk ht => tripPart_stops ht hk)
    (fun s k j hk hj hne ht hstop => hstop.passes (tripPart_passes ht k) fun _ _ => clockReg_disjoint hj hk hne) h (Nat.le_refl 16)
  have hsites : Passes siteCap ((List.range 16).foldl tripPart s) (tripAll s) :=
    .foldl (fun t i hi ht => wf_passes ht _ _ _ ⟨rfl, i, List.mem_range.1 hi, rfl⟩ (sitePwr_lt (List.mem_range.1 hi)).1
      (sitePwr_lt (List.mem_range.1 hi)).2) hparts.canonical
  obtain ⟨-, hcaps⟩ := foldl_range_all (f := fun s t => wf s pgPwr (Reg.SITE_PWR t) 16 12 0)
    (P := fun i t => rf t pgPwr (Reg.SITE_PWR i) 16 12 = 0) (n := 4) (fun s i _ ht => wf_canonical ht)
    (fun s i _ ht => rf_wf_same ht _ _ _ _ _ (by decide))
    (fun s i j hi hj hne ht hset => (congrArg (fld · 16 12) (rd_wr_other ht _ (sitePwr_lt hi).1 (sitePwr_lt hj).1 fun e => by
      have hoff := e.2
      simp only [Reg.SITE_PWR] at hoff
      omega)).trans hset) hcan (Nat.le_refl 4)
  have honly := tripAll_onlyRegs s
  refine ⟨hsites.canonical, fun k hk => (hstopped k hk).passes hsites fun p off hq hcap => ?_, hcaps, by rw [honly], by rw [honly],
    hsites.memory.1.trans hparts.memory.1, hsites.memory.2.trans hparts.memory.2⟩
  have hpage := clockReg_page hq
  have hpwr := hcap.1
  simp only [pgPwr] at hpwr
  omega

theorem queueIbi_board (s : State) (b : Nat) : (queueIbi s b).board = s.board := by
  unfold queueIbi
  split
  · rfl
  · rfl

/-- The trip is asserted, and the raises that were pending are given up. -/
def tripAsserted (s : State) : State :=
  let u := queueIbi { s with board := { s.board with thermtrip := true } } 2
  { u with pwr := { u.pwr with raising := [] } }

theorem tripAsserted_says {s : State} (h : s.canonical) :
    let t := tripAsserted s
    t.canonical ∧ t.board.thermtrip = true ∧ t.pwr.raising = [] ∧ SameMemory s t := by
  have hassert : Passes noReg s { s with board := { s.board with thermtrip := true } } := .of_regs h rfl ⟨rfl, rfl⟩ rfl
  have hqueued := queueIbi_passes (q := noReg) hassert.canonical 2
  refine ⟨hqueued.canonical, congrArg Board.thermtrip (queueIbi_board _ 2), rfl, hqueued.memory⟩

theorem thermalTrip_says {s : State} (h : s.canonical) (hdue : s.pwr.tripDue = true) (hidle : s.board.thermtrip = false) :
    Completes .thermalTrip s fun t =>
      t.board.thermtrip = true ∧ (∀ k, k < 16 → Stopped k t) ∧ (∀ i, i < 4 → rf t pgPwr (Reg.SITE_PWR i) 16 12 = 0) ∧
      t.pwr.raising = [] ∧ SameMemory s t := by
  have hok : (s.pwr.tripDue && !s.board.thermtrip) = true := by simp [hdue, hidle]
  obtain ⟨hasserted, htrip, hraising, hmem⟩ := tripAsserted_says h
  obtain ⟨hcan, hstopped, hcaps, hpwr, hboard, hmem'⟩ := tripAll_says hasserted
  have hexec : exec .thermalTrip s = .next (genWrite (tripAll (tripAsserted s)) (mkEntry (tripAll (tripAsserted s)) 1 5 2
      [rd (tripAll (tripAsserted s)) pgPwr Reg.THERM_STAT,
        rd (tripAll (tripAsserted s)) (pgMc (hottestMc (tripAll (tripAsserted s)))) Reg.MC_TEMP])) :=
    congrArg Host.Outcome.next (if_pos hok)
  generalize tripAll (tripAsserted s) = u at hcan hstopped hcaps hpwr hboard hmem' hexec
  have hwritten := genWrite_sameBut hcan (mkEntry u 1 5 2 [rd u pgPwr Reg.THERM_STAT, rd u (pgMc (hottestMc u)) Reg.MC_TEMP])
  have hpasses := genWrite_passes (q := noReg) hcan (mkEntry u 1 5 2 [rd u pgPwr Reg.THERM_STAT, rd u (pgMc (hottestMc u)) Reg.MC_TEMP])
  refine completes_of_next hexec rfl ⟨?_, fun k hk => (hstopped k hk).passes hpasses fun _ _ _ => id, fun i hi => ?_, ?_,
    hwritten.mem_eq.trans (hmem'.1.trans hmem.1), hwritten.hostMem_eq.trans (hmem'.2.trans hmem.2)⟩
  · exact (congrArg Board.thermtrip hwritten.board).symm.trans ((congrArg Board.thermtrip hboard).trans htrip)
  · obtain ⟨hoff, hevt⟩ := sitePwr_lt hi
    exact (hpasses.rf hoff (not_evtReg_of_page (by decide) hevt) id 16 12).trans (hcaps i hi)
  · rw [hwritten.rest, hpwr]
    exact hraising

end Sys2Proof.Machine
end

section
/-!
SUPPORT. The parts of a power period up to its budget.
-/

namespace Sys2Proof.Machine

open Sys2Proof

/-! ### Steps of the power controller one after the other -/

section Chain

variable {q : Nat → Nat → Prop} {s t : State}

theorem Passes.writes (h : Passes q s t) {p off : Nat} (v : Word) (hq : q p off) (ho : off < 0x10000) (he : off ≠ Reg.EVT_STAT) :
    Passes q s (wr t p off v) := h.trans (wr_passes h.canonical v hq ho he)

theorem Passes.event (h : Passes q s t) (p b : Nat) : Passes q s (raiseEvt t p b) := h.trans (raiseEvt_passes h.canonical p b)

theorem Passes.error (h : Passes q s t) (hq : ∀ p off, pwrErr p off → q p off) (code status cls : Nat) (ctx : Option Nat) :
    Passes q s (countError t pgPwr code status cls ctx) := h.trans ((pwrError_passes h.canonical code status cls ctx).mono hq)

theorem audit_passes (h : s.canonical) (code : Nat) (snaps : List Word) : Passes secReg s (audit s code snaps) := by
  have hsame := audit_recorded h code snaps
  refine ⟨hsame.canonical, fun p off ho he hq => hsame.rd_eq ho he hq, fun p i _ hi hset => ?_, hsame.memory,
    by rw [hsame.same.rest]; rfl⟩
  have hother : ∀ {u : State}, u.canonical → ∀ {p' off} (v : Word), off ≠ Reg.EVT_STAT → off < 0x10000 →
      rb (wr u p' off v) p Reg.EVT_STAT i = rb u p Reg.EVT_STAT i := fun hu _ _ _ hne ho =>
    congrArg (bit · i) (rd_wr_other hu _ ho (by decide) fun e => hne e.2.symm)
  unfold audit
  split
  · extract_lets n e _ entered numbered
    have hentered : entered.canonical := h
    have hnumbered : numbered.canonical := wr_canonical hentered
    have hkept : rb numbered p Reg.EVT_STAT i = true := (hother hentered _ (by decide) (by decide)).trans hset
    split
    · exact evrErr_stays (rawEvt_kept hnumbered.kept).1 2 hi (rawEvt_stays hnumbered hi hkept)
    · exact hkept
  · exact (hother h _ (by decide) (by decide)).trans hset

theorem updIso_passes (h : s.canonical) : Passes secReg s (updIso s) := by
  refine .foldl (fun t k _ ht => ?_) h
  extract_lets val
  split
  · exact .refl ht
  · exact (wf_passes ht _ _ _ (.inr (.inr rfl)) (by decide) (by decide)).event _ _

end Chain

/-! ### A period begins (R329) -/

/-- The highest of the 80 points. -/
def hotTemp (s : State) : Int := maxInt (s.pwr.model.headD 0) s.pwr.model

/-- The temperature above which the clocks fall, and the one at which the thermal factor is least. -/
def softTemp (s : State) : Int := 10 * rf s pgPwr Reg.THERM_CFG 0 8
def hardTemp (s : State) : Int := 10 * rf s pgPwr Reg.THERM_CFG 8 8

/-- The thermal factor at a boundary (R330). -/
def periodFactor (s : State) : Nat := thermalFactor (hotTemp s) (softTemp s) (hardTemp s)

/-- The readings are taken, and the period is counted. -/
def periodBegins (r : PowerReadings) (s : State) : State := addReg (sensePoints s r) pgPwr Reg.PWR_PERIODS 1

theorem sensePoints_passes {s : State} (h : s.canonical) (r : PowerReadings) : Passes pwrErr s (sensePoints s r) := by
  unfold sensePoints
  extract_lets fresh sensed failed hard reads model
  have hsensed : Passes pwrErr s sensed := .foldl (fun t _ _ ht => ((Passes.refl ht).error (fun _ _ => id) _ _ _ _).event _ _) h
  exact hsensed.trans (.of_regs hsensed.canonical rfl ⟨rfl, rfl⟩ rfl)

theorem sensePoints_model (s : State) (r : PowerReadings) : (sensePoints s r).pwr.model.length = 80 := by
  unfold sensePoints
  exact (List.length_map _).trans List.length_range

theorem periodBegins_says {s : State} (h : s.canonical) (r : PowerReadings) :
    Passes (fun p off => pwrErr p off ∨ oneReg pgPwr Reg.PWR_PERIODS p off) s (periodBegins r s) ∧
      rd (periodBegins r s) pgPwr Reg.PWR_PERIODS = rd s pgPwr Reg.PWR_PERIODS + 1 ∧ (periodBegins r s).pwr.model.length = 80 := by
  have hsensed := sensePoints_passes h r
  refine ⟨(hsensed.mono fun _ _ => .inl).writes _ (.inr ⟨rfl, rfl⟩) (by decide) (by decide), ?_, sensePoints_model s r⟩
  rw [periodBegins, rd_addReg_same hsensed.canonical, hsensed.regs _ _ (by decide) (not_evtReg_of_page (by decide) (by decide)) (by decide)]
  rfl

/-! ### What the boundary shows (R330, R335) -/

/-- `THERM_STAT` at a boundary. -/
def thermWord (s : State) : Word :=
  w64 (toByte (hotTemp s / 10) + ((s.pwr.model.findIdx? fun v => v = hotTemp s).getD 0) <<< 8 + periodFactor s <<< 16 +
    s.pwr.failed.length <<< 24)

/-- `THERM_STAT` is written, and a fall from the full factor is told. -/
def periodShown (s : State) : State :=
  let t := wr s pgPwr Reg.THERM_STAT (thermWord s)
  if periodFactor s < 8 ∧ 8 ≤ rf s pgPwr Reg.THERM_STAT 16 4 then queueIbi (raiseEvt t pgPwr 0) 2 else t

theorem periodFactor_le (s : State) : periodFactor s ≤ 8 := by
  rw [periodFactor, thermalFactor]
  split
  · exact Nat.le_refl 8
  · extract_lets n d
    omega

theorem findIdx?_getD_lt {α : Type} (l : List α) (p : α → Bool) {n : Nat} (h : l.length ≤ n) (hn : 0 < n) : (l.findIdx? p).getD 0 < n := by
  cases hfind : l.findIdx? p with
  | none => exact hn
  | some i => exact Nat.lt_of_lt_of_le (List.findIdx?_eq_some_iff_getElem.1 hfind).1 h

theorem fld_thermWord {s : State} (h : s.pwr.model.length = 80) : fld (thermWord s) 16 4 = periodFactor s := by
  have hbyte : toByte (hotTemp s / 10) < 256 := by rw [toByte]; omega
  have hpoint : (s.pwr.model.findIdx? fun v => v = hotTemp s).getD 0 < 80 := findIdx?_getD_lt _ _ (Nat.le_of_eq h) (by decide)
  have hfactor := periodFactor_le s
  rw [thermWord]
  generalize toByte (hotTemp s / 10) = b, (s.pwr.model.findIdx? fun v => v = hotTemp s).getD 0 = point, s.pwr.failed.length = n at *
  rw [fld, w64, BitVec.toNat_ofNat, Nat.shiftRight_eq_div_pow]
  simp only [Nat.shiftLeft_eq]
  omega

theorem periodShown_says {s : State} (h : s.canonical) (hmodel : s.pwr.model.length = 80) :
    Passes (oneReg pgPwr Reg.THERM_STAT) s (periodShown s) ∧ rf (periodShown s) pgPwr Reg.THERM_STAT 16 4 = periodFactor s := by
  have hwritten : Passes (oneReg pgPwr Reg.THERM_STAT) s (wr s pgPwr Reg.THERM_STAT (thermWord s)) :=
    wr_passes h _ ⟨rfl, rfl⟩ (by decide) (by decide)
  have hvalue : rf (wr s pgPwr Reg.THERM_STAT (thermWord s)) pgPwr Reg.THERM_STAT 16 4 = periodFactor s := by
    rw [rf, rd_wr_same h, fld_thermWord hmodel]
  unfold periodShown
  split
  · have htold : Passes noReg (wr s pgPwr Reg.THERM_STAT (thermWord s)) (queueIbi (raiseEvt (wr s pgPwr Reg.THERM_STAT (thermWord s)) pgPwr 0) 2) :=
      (raiseEvt_passes hwritten.canonical _ _).trans (queueIbi_passes (raiseEvt_passes (q := noReg) hwritten.canonical _ _).canonical 2)
    exact ⟨hwritten.trans (htold.mono fun _ _ => False.elim),
      (htold.rf (by decide) (not_evtReg_of_page (by decide) (by decide)) id 16 4).trans hvalue⟩
  · exact ⟨hwritten, hvalue⟩

/-! ### What was used is counted (R328, R335, R339) -/

/-- The state with no energy charged, in a run of periods above the ceiling. -/
def uncharged (s : State) (run : Nat) : State := { s with pwr := { s.pwr with charged := 0, overRun := run } }

/-- What was charged starts again from zero, and powers above their ceilings are counted. -/
def periodCounted (r : PowerReadings) (s : State) : State :=
  let hot := decide (5200 < r.hub)
  let s := uncharged s (if hot then s.pwr.overRun + 1 else 0)
  let s := if hot then raiseEvt (addReg s pgPwr Reg.PWR_OVER 1) pgPwr 1 else s
  let s := wf s pgPwr Reg.HBM_PWR 0 16 r.hbm
  if 2560 < r.hbm then raiseEvt s pgPwr 6 else s

/-- The counters of a period. -/
abbrev countReg (p off : Nat) : Prop := p = pgPwr ∧ (off = Reg.PWR_OVER ∨ off = Reg.HBM_PWR)

theorem periodCounted_passes {s : State} (h : s.canonical) (r : PowerReadings) :
    ∃ run, Passes countReg (uncharged s run) (periodCounted r s) := by
  unfold periodCounted
  extract_lets hot t u v
  have ht : Passes countReg t t := .refl h
  have hu : Passes countReg t u := by
    unfold u
    split
    · exact (ht.writes _ ⟨rfl, .inl rfl⟩ (by decide) (by decide)).event _ _
    · exact ht
  have hv : Passes countReg t v := hu.writes _ ⟨rfl, .inr rfl⟩ (by decide) (by decide)
  have hend : Passes countReg t (if 2560 < r.hbm then raiseEvt v pgPwr 6 else v) := by
    split
    · exact hv.event _ _
    · exact hv
  exact ⟨_, hend⟩

/-! ### Fixed budgets are left (R334) -/

/-- The registers that change when fixed budgets are left. -/
abbrev breakReg (p off : Nat) : Prop :=
  (p = pgPwr ∧ (off = Reg.PWR_CTL ∨ off = Reg.PWR_STAT)) ∨ pwrErr p off ∨ secReg p off

theorem breakFixed_says {s : State} (h : s.canonical) :
    let t := breakFixed s
    Passes breakReg s t ∧ rb t pgPwr Reg.PWR_CTL 0 = false ∧ rb t pgPwr Reg.PWR_STAT 0 = true ∧
      ∀ k, k < 16 → rb t (pgPart k) Reg.EVT_STAT 6 = true := by
  unfold breakFixed
  extract_lets cleared counted audited
  have hoff : (wb s pgPwr Reg.PWR_CTL 0 false).canonical := wb_canonical h
  have hcleared : Passes breakReg s cleared :=
    ((Passes.refl h).writes _ (.inl ⟨rfl, .inl rfl⟩) (by decide) (by decide)).writes _ (.inl ⟨rfl, .inr rfl⟩) (by decide) (by decide)
  have hcounted : Passes pwrErr cleared counted := ((Passes.refl hcleared.canonical).error (fun _ _ => id) _ _ _ _).event _ _
  have haudited : Passes secReg counted audited := audit_passes hcounted.canonical _ _
  obtain ⟨hcan, hall⟩ := foldl_range_all (f := fun s k => raiseEvt s (pgPart k) 6)
    (P := fun k t => rb t (pgPart k) Reg.EVT_STAT 6 = true) (n := 16) (fun s k _ ht => raiseEvt_canonical ht)
    (fun s k _ ht => rb_raiseEvt_same ht (by simp only [pgPart, pgEvr]; omega) (by decide))
    (fun s k j _ _ _ ht hset => (raiseEvt_passes (q := noReg) ht _ _).raised _ _ (by simp only [pgPart, pgEvr]; omega) (by decide) hset)
    haudited.canonical (Nat.le_refl 16)
  have htold : Passes secReg audited ((List.range 16).foldl (fun s k => raiseEvt s (pgPart k) 6) audited) :=
    .foldl (fun t k _ ht => raiseEvt_passes ht _ _) haudited.canonical
  have hiso := updIso_passes hcan
  have hend : Passes (fun p off => pwrErr p off ∨ secReg p off) cleared (updIso ((List.range 16).foldl (fun s k => raiseEvt s (pgPart k) 6) audited)) :=
    (hcounted.mono fun _ _ => .inl).trans ((haudited.trans (htold.trans hiso)).mono fun _ _ => .inr)
  refine ⟨hcleared.trans (hend.mono fun _ _ => .inr), ?_, ?_, fun k hk =>
    hiso.raised _ _ (by simp only [pgPart, pgEvr]; omega) (by decide) (hall k hk)⟩
  · refine (hend.rb (by decide) (not_evtReg_of_page (by decide) (by decide)) (by decide) 0).trans ?_
    exact (congrArg (bit · 0) (rd_wr_offset hoff _ (by decide) (by decide) (by decide))).trans (rb_wb_same h _ _ _ _ (by decide))
  · exact (hend.rb (by decide) (not_evtReg_of_page (by decide) (by decide)) (by decide) 0).trans (rb_wb_same hoff _ _ _ _ (by decide))

end Sys2Proof.Machine
end

section
/-!
SUPPORT. Refills, clocks and sites of a power period.
-/

namespace Sys2Proof.Machine

open Sys2Proof

/-! ### Buckets are refilled (R328, R330, R332) -/

/-- The registers of a partition's bucket. -/
abbrev bucketReg (k p off : Nat) : Prop := p = pgPart k ∧ (off = Reg.EBUCKET ∨ off = Reg.EREFILL_LAST)

theorem refill_passes {s : State} (h : s.canonical) (k eu : Nat) : Passes (bucketReg k) s (refill s k eu) :=
  ((Passes.refl h).writes _ ⟨rfl, .inl rfl⟩ (by decide) (by decide)).writes _ ⟨rfl, .inr rfl⟩ (by decide) (by decide)

/-- Partition `k` holds what it held and a refill, and none past its maximum. -/
abbrev RefilledBy (s : State) (k eu : Nat) (t : State) : Prop :=
  rf t (pgPart k) Reg.EBUCKET 0 24 = min (rf s (pgPart k) Reg.EBUCKET 0 24 + eu) (rf s (pgPart k) Reg.EBUCKET_MAX 0 24) ∧
    rf t (pgPart k) Reg.EREFILL_LAST 0 24 = eu % 2 ^ 24

theorem refill_says {s : State} (h : s.canonical) (k eu : Nat) : RefilledBy s k eu (refill s k eu) := by
  have hlevel : min (rf s (pgPart k) Reg.EBUCKET 0 24 + eu) (rf s (pgPart k) Reg.EBUCKET_MAX 0 24) < 2 ^ 24 :=
    Nat.lt_of_le_of_lt (Nat.min_le_right _ _) (rf_lt _ _ _ _ _)
  refine ⟨?_, rf_wf_same (wf_canonical h) _ _ _ _ _ (by decide)⟩
  refine (congrArg (fld · 0 24) (rd_wr_offset (wf_canonical h) _ (by decide) (by decide) (by decide))).trans ?_
  exact (rf_wf_same h _ _ _ _ _ (by decide)).trans (Nat.mod_eq_of_lt hlevel)

/-- What a partition is given at a boundary. -/
def shareOf (s : State) (total sum k : Nat) (fixed : Bool) : Nat :=
  if fixed then rf s pgPwr (Reg.PART_ALLOC k) 32 16 else total * weightOf s k / max 1 sum

/-- The weights of the partitions that are refilled. -/
def weights (s : State) : Nat := (((List.range 16).filter (refilled s)).map (weightOf s)).sum

/-- One step of a loop over the partitions. -/
theorem Passes.foldl_at {q : Nat → Nat → Nat → Prop} {f : State → Nat → State} {l : List Nat} {s : State} (h : s.canonical)
    (hf : ∀ s j, s.canonical → Passes (q j) s (f s j)) (hnodup : l.Nodup) {k : Nat} (hk : k ∈ l) :
    ∃ u, Passes (fun p off => ∃ j, j ∈ l ∧ j ≠ k ∧ q j p off) s u ∧
      Passes (fun p off => ∃ j, j ∈ l ∧ j ≠ k ∧ q j p off) (f u k) (l.foldl f s) := by
  obtain ⟨before, after, rfl⟩ := List.append_of_mem hk
  have hdistinct : ∀ j, j ∈ before ∨ j ∈ after → j ≠ k := by
    rintro j hj rfl
    rw [List.nodup_middle, List.nodup_cons, List.mem_append] at hnodup
    exact hnodup.1 hj
  have hbefore : Passes (fun p off => ∃ j, j ∈ before ++ k :: after ∧ j ≠ k ∧ q j p off) s (before.foldl f s) :=
    .foldl (fun t j hj ht => (hf t j ht).mono fun _ _ hq => ⟨j, List.mem_append_left _ hj, hdistinct j (.inl hj), hq⟩) h
  refine ⟨before.foldl f s, hbefore, ?_⟩
  rw [List.foldl_append, List.foldl_cons]
  exact .foldl (fun t j hj ht => (hf t j ht).mono fun _ _ hq =>
    ⟨j, List.mem_append_right _ (List.mem_cons_of_mem _ hj), hdistinct j (.inr hj), hq⟩) (hf _ k hbefore.canonical).canonical

/-- One partition's refill at a boundary. -/
def refillOne (ps : List Nat) (total sum : Nat) (fixed : Bool) (s : State) (k : Nat) : State :=
  if ps.contains k then refill s k (shareOf s total sum k fixed) else refill s k 0

theorem refillOne_passes {s : State} (h : s.canonical) (ps : List Nat) (total sum : Nat) (fixed : Bool) (k : Nat) :
    Passes (bucketReg k) s (refillOne ps total sum fixed s k) := by
  unfold refillOne
  split
  · exact refill_passes h _ _
  · exact refill_passes h _ _

theorem refillAll_eq (s : State) (total : Nat) (fixed : Bool) :
    refillAll s total fixed = (List.range 16).foldl (refillOne ((List.range 16).filter (refilled s)) total (weights s) fixed) s := rfl

theorem refillAll_passes {s : State} (h : s.canonical) (total : Nat) (fixed : Bool) :
    Passes (fun p off => ∃ k, k < 16 ∧ bucketReg k p off) s (refillAll s total fixed) := by
  rw [refillAll_eq]
  exact .foldl (fun t k hk ht => (refillOne_passes ht _ _ _ _ k).mono fun _ _ hq => ⟨k, List.mem_range.1 hk, hq⟩) h

theorem shareOf_congr {s t : State} (k : Nat) (h : rd t pgPwr (Reg.PART_ALLOC k) = rd s pgPwr (Reg.PART_ALLOC k)) (total sum : Nat)
    (fixed : Bool) : shareOf t total sum k fixed = shareOf s total sum k fixed := by
  simp only [shareOf, weightOf, rf, h]

theorem partAlloc_lt {k : Nat} (hk : k < 16) : Reg.PART_ALLOC k < 0x10000 ∧ Reg.PART_ALLOC k ≠ Reg.EVT_STAT := by
  simp only [Reg.PART_ALLOC, Reg.EVT_STAT]
  omega

theorem RefilledBy.congr {s s' t t' : State} {k eu : Nat} (h : RefilledBy s k eu t) (hbucket : rd s' (pgPart k) Reg.EBUCKET = rd s (pgPart k) Reg.EBUCKET)
    (hmax : rd s' (pgPart k) Reg.EBUCKET_MAX = rd s (pgPart k) Reg.EBUCKET_MAX)
    (hregs : ∀ off, bucketReg k (pgPart k) off → rd t' (pgPart k) off = rd t (pgPart k) off) : RefilledBy s' k eu t' := by
  simp only [RefilledBy, rf, hbucket, hmax, hregs _ ⟨rfl, .inl rfl⟩, hregs _ ⟨rfl, .inr rfl⟩]
  exact h

theorem refillAll_says {s : State} (h : s.canonical) (total : Nat) (fixed : Bool) {k : Nat} (hk : k < 16) (hrefilled : refilled s k = true) :
    RefilledBy s k (shareOf s total (weights s) k fixed) (refillAll s total fixed) := by
  have hin : ((List.range 16).filter (refilled s)).contains k = true := by simp [hk, hrefilled]
  rw [refillAll_eq]
  obtain ⟨u, hbefore, hafter⟩ := Passes.foldl_at (q := bucketReg) h
    (fun t j ht => refillOne_passes ht ((List.range 16).filter (refilled s)) total (weights s) fixed j) List.nodup_range (List.mem_range.2 hk)
  have hother : ∀ off, ¬ ∃ j, j ∈ List.range 16 ∧ j ≠ k ∧ bucketReg j (pgPart k) off := by
    rintro off ⟨j, -, hne, hpage, -⟩
    simp only [pgPart] at hpage
    omega
  have hpwr : ¬ ∃ j, j ∈ List.range 16 ∧ j ≠ k ∧ bucketReg j pgPwr (Reg.PART_ALLOC k) := by
    rintro ⟨j, -, -, hpage, -⟩
    simp only [pgPart, pgPwr] at hpage
    omega
  obtain ⟨hoff, hevt⟩ := partAlloc_lt hk
  have hshare : shareOf u total (weights s) k fixed = shareOf s total (weights s) k fixed :=
    shareOf_congr k (hbefore.regs _ _ hoff (not_evtReg_of_page (by decide) hevt) hpwr) _ _ _
  have hone : RefilledBy u k (shareOf s total (weights s) k fixed) (refillOne ((List.range 16).filter (refilled s)) total (weights s) fixed u k) := by
    rw [refillOne, if_pos hin, hshare]
    exact refill_says hbefore.canonical _ _
  refine hone.congr (hbefore.regs _ _ (by decide) (not_evtReg_pgPart (by decide)) (hother _)).symm
    (hbefore.regs _ _ (by decide) (not_evtReg_pgPart (by decide)) (hother _)).symm fun off hq => ?_
  obtain ⟨-, rfl | rfl⟩ := hq
  · exact hafter.regs _ _ (by decide) (not_evtReg_pgPart (by decide)) (hother _)
  · exact hafter.regs _ _ (by decide) (not_evtReg_pgPart (by decide)) (hother _)

/-! ### The budget of a period (R330, R332) -/

/-- `PWR_MEAS` at a boundary. -/
def measWord (r : PowerReadings) (rho : Nat) : Word :=
  w64 (r.hub % 65536 + (r.other % 65536) <<< 16 + (r.part % 65536) <<< 32 + rho <<< 48)

theorem fld_measWord (r : PowerReadings) {rho : Nat} (h : rho < 2 ^ 16) : fld (measWord r rho) 48 16 = rho := by
  rw [measWord, fld, w64, BitVec.toNat_ofNat, Nat.shiftRight_eq_div_pow]
  simp only [Nat.shiftLeft_eq]
  omega

theorem rhoOf_lt {prev : Nat} (h : prev < 2 ^ 16) (part charged : Nat) : rhoOf prev part charged < 2 ^ 16 := by
  rw [rhoOf]
  split
  · exact h
  · omega

/-- The ratio of measured to charged power at a boundary. -/
def periodRho (r : PowerReadings) (charged : Nat) (fixed : Bool) (s : State) : Nat :=
  if fixed then rf s pgPwr Reg.PWR_MEAS 48 16 else rhoOf (rf s pgPwr Reg.PWR_MEAS 48 16) r.part charged

/-- What the budget leaves for the partitions. -/
def periodTotal (r : PowerReadings) (e rho : Nat) : Nat := (5200 - r.other) * e * 256 / (8 * max rho 1)

/-- What was measured is shown, and the buckets are refilled. -/
def periodBudget (r : PowerReadings) (e charged : Nat) (fixed : Bool) (s : State) : State :=
  let rho := periodRho r charged fixed s
  let s := wr s pgPwr Reg.PWR_MEAS (measWord r rho)
  let s := if fixed then s else wf s pgPwr Reg.PWR_TOTAL 0 24 (periodTotal r e rho)
  refillAll s (periodTotal r e rho) fixed

/-- The registers of the budget. -/
abbrev budgetReg (p off : Nat) : Prop := p = pgPwr ∧ (off = Reg.PWR_MEAS ∨ off = Reg.PWR_TOTAL)

theorem refilled_congr {s t : State} {k : Nat} (h : rd t (pgPart k) Reg.PART_STATE = rd s (pgPart k) Reg.PART_STATE) :
    refilled t k = refilled s k := by
  have hstate : partState t k = partState s k := congrArg (fld · 0 4) h
  rw [refilled, refilled, hstate]

/-- A step that leaves the partitions' states and weights alone. -/
theorem Passes.weights {q : Nat → Nat → Prop} {s t : State} (h : Passes q s t)
    (hq : ∀ k, k < 16 → ¬ q (pgPart k) Reg.PART_STATE ∧ ¬ q pgPwr (Reg.PART_ALLOC k)) : Machine.weights t = Machine.weights s := by
  have hfilter : (List.range 16).filter (refilled t) = (List.range 16).filter (refilled s) :=
    List.filter_congr fun k hk => refilled_congr (h.regs _ _ (by decide) (not_evtReg_pgPart (by decide)) (hq k (List.mem_range.1 hk)).1)
  rw [Machine.weights, Machine.weights, hfilter]
  refine congrArg List.sum (List.map_congr_left fun k hk => ?_)
  have hlt := List.mem_range.1 (List.mem_filter.1 hk).1
  obtain ⟨hoff, hevt⟩ := partAlloc_lt hlt
  rw [weightOf, weightOf, h.rf hoff (not_evtReg_of_page (by decide) hevt) (hq k hlt).2]

theorem periodBudget_says {s : State} (h : s.canonical) (r : PowerReadings) (e charged : Nat) (fixed : Bool) {k : Nat} (hk : k < 16)
    (hrefilled : refilled s k = true) :
    let t := periodBudget r e charged fixed s
    Passes (fun p off => budgetReg p off ∨ ∃ k, k < 16 ∧ bucketReg k p off) s t ∧
      RefilledBy s k (shareOf s (periodTotal r e (periodRho r charged fixed s)) (weights s) k fixed) t ∧
      rf t pgPwr Reg.PWR_MEAS 48 16 = periodRho r charged fixed s ∧
      (fixed = false → rf t pgPwr Reg.PWR_TOTAL 0 24 = periodTotal r e (periodRho r charged fixed s) % 2 ^ 24) := by
  have hrho : periodRho r charged fixed s < 2 ^ 16 := by
    unfold periodRho
    split
    · exact rf_lt _ _ _ _ _
    · exact rhoOf_lt (rf_lt _ _ _ _ _) _ _
  unfold periodBudget
  extract_lets rho measured totalled
  have hmeasured : Passes budgetReg s measured := wr_passes h _ ⟨rfl, .inl rfl⟩ (by decide) (by decide)
  obtain ⟨htotalled, hmeas, htotal⟩ : Passes budgetReg s totalled ∧ rf totalled pgPwr Reg.PWR_MEAS 48 16 = rho ∧
      (fixed = false → rf totalled pgPwr Reg.PWR_TOTAL 0 24 = periodTotal r e rho % 2 ^ 24) := by
    have hmeas : rf measured pgPwr Reg.PWR_MEAS 48 16 = rho := by rw [rf, rd_wr_same h, fld_measWord r hrho]
    unfold totalled
    split
    · next hfixed => exact ⟨hmeasured, hmeas, fun hnot => absurd (hfixed.symm.trans hnot) (by decide)⟩
    · exact ⟨hmeasured.writes _ ⟨rfl, .inr rfl⟩ (by decide) (by decide),
        (congrArg (fld · 48 16) (rd_wr_offset hmeasured.canonical _ (by decide) (by decide) (by decide))).trans hmeas,
        fun _ => rf_wf_same hmeasured.canonical _ _ _ _ _ (by decide)⟩
  have hpart : ∀ {j off}, ¬ budgetReg (pgPart j) off := fun e => by
    have hpage := e.1
    simp only [pgPart, pgPwr] at hpage
    omega
  have halloc : ∀ j, j < 16 → ¬ budgetReg pgPwr (Reg.PART_ALLOC j) := fun j _ e => by
    have hoff := e.2
    simp only [Reg.PART_ALLOC, Reg.PWR_MEAS, Reg.PWR_TOTAL] at hoff
    omega
  have hkept : ∀ off, off < 0x10000 → off ≠ Reg.EVT_STAT → rd totalled (pgPart k) off = rd s (pgPart k) off := fun off ho he =>
    htotalled.regs _ _ ho (not_evtReg_pgPart he) hpart
  have hrefills := refillAll_passes htotalled.canonical (periodTotal r e rho) fixed
  have hbucket := refillAll_says htotalled.canonical (periodTotal r e rho) fixed hk
    ((refilled_congr (hkept _ (by decide) (by decide))).trans hrefilled)
  obtain ⟨hoff, hevt⟩ := partAlloc_lt hk
  rw [shareOf_congr k (htotalled.regs _ _ hoff (not_evtReg_of_page (by decide) hevt) (halloc k hk)),
    htotalled.weights fun j hj => ⟨hpart, halloc j hj⟩] at hbucket
  have hpwr : ∀ {off}, ¬ ∃ k, k < 16 ∧ bucketReg k pgPwr off := by
    rintro off ⟨j, -, hpage, -⟩
    simp only [pgPart, pgPwr] at hpage
    omega
  exact ⟨(htotalled.mono fun _ _ => .inl).trans (hrefills.mono fun _ _ => .inr),
    hbucket.congr (hkept _ (by decide) (by decide)).symm (hkept _ (by decide) (by decide)).symm fun _ _ => rfl,
    (hrefills.rf (by decide) (not_evtReg_of_page (by decide) (by decide)) hpwr _ _).trans hmeas,
    fun hnot => (hrefills.rf (by decide) (not_evtReg_of_page (by decide) (by decide)) hpwr _ _).trans (htotal hnot)⟩

/-! ### Clocks and sites of a period (R331, R336, R337) -/

theorem setClocks_passes {s : State} (h : s.canonical) (k : Nat) (c : Nat × Nat) : Passes (clockReg k) s (setClocks s k c) := by
  unfold setClocks
  extract_lets cur now t rest
  have ht : Passes (clockReg k) s t :=
    ((Passes.refl h).writes _ (.inr ⟨rfl, rfl⟩) (by decide) (by decide)).writes _ (.inr ⟨rfl, rfl⟩) (by decide) (by decide)
  have hraising : Passes (clockReg k) t { t with pwr := { t.pwr with raising := if now = c then rest else rest ++ [k] } } :=
    .of_regs ht.canonical rfl ⟨rfl, rfl⟩ rfl
  exact ht.trans (hraising.trans ((setIslands_passes hraising.canonical k now).mono fun _ _ => .inl))

/-- The registers of the sites' caps, and of errors. -/
abbrev siteReg (p off : Nat) : Prop := siteCap p off ∨ pwrErr p off

theorem sitePeriod_passes {s : State} (h : s.canonical) {i : Nat} (hi : i < 4) (meas : Nat) : Passes siteReg s (sitePeriod s i meas) := by
  obtain ⟨hoff, hevt⟩ := sitePwr_lt hi
  have hcap : ∀ {t : State} (lo n v : Nat), Passes siteReg s t → Passes siteReg s (wf t pgPwr (Reg.SITE_PWR i) lo n v) := fun _ _ _ ht =>
    ht.writes _ (.inl ⟨rfl, i, hi, rfl⟩) hoff hevt
  unfold sitePeriod
  extract_lets off measured cmax low cap run budget hot counted least new capped zeroed _ stopped moved
  have hmeasured : Passes siteReg s measured := hcap _ _ _ (.refl h)
  have hcapped : Passes siteReg s capped := hcap _ _ _ (hcap _ _ _ hmeasured)
  have hzeroed : Passes siteReg s zeroed := hcap _ _ _ hcapped
  have hstopped : Passes siteReg s stopped := hzeroed.trans (.of_regs hzeroed.canonical rfl ⟨rfl, rfl⟩ rfl)
  have hmoved : Passes siteReg s moved := hcap _ _ _ hcapped
  clear_value stopped moved
  split
  · exact hmeasured
  · split
    · exact hmeasured
    · split
      · exact (hstopped.error (fun _ _ => .inr) _ _ _ _).event _ _
      · split
        · exact hmoved.event _ _
        · exact hmoved

end Sys2Proof.Machine
end

section
/-!
SUPPORT. A power period as its parts.
-/

namespace Sys2Proof.Machine

open Sys2Proof

/-! ### What follows the refills (R331, R335, R337, R492) -/

/-- The steps by which the clocks fall after this period (R335). -/
def periodSteps (r : PowerReadings) (fixed : Bool) (s : State) : Nat :=
  let steps := rf s pgPwr Reg.PWR_STAT 8 8
  if fixed then 0 else if decide (5200 < r.hub) then min 14 (steps + 1) else if r.hub < 5200 then steps - 1 else steps

/-- A period above the ceiling is an error, and the steps are shown. -/
def periodStepped (r : PowerReadings) (fixed : Bool) (s : State) : State :=
  wf (if !fixed && decide (5200 < r.hub) then countError s pgPwr 4 0 0 none else s) pgPwr Reg.PWR_STAT 8 8 (periodSteps r fixed s)

/-- The clocks of a partition after a period. -/
def periodClock (model : List Int) (soft : Int) (steps : Nat) (fixed : Bool) (s : State) (k : Nat) : State :=
  let pts := [4 * k, 4 * k + 1, 4 * k + 2, 4 * k + 3, 64 + k].map fun i => model.getD i 0
  if s.board.thermtrip then s else setClocks s k (clocksOf s k (maxInt (pts.headD 0) pts - soft) steps fixed)

/-- The clocks and the sites' caps after a period, and whether a trip is due. -/
def periodEnds (r : PowerReadings) (model : List Int) (soft t : Int) (fixed : Bool) (s : State) : State :=
  let u := periodStepped r fixed s
  let u := (List.range 16).foldl (periodClock model soft (periodSteps r fixed s) fixed) u
  let u := (List.range 4).foldl (fun u i => sitePeriod u i (r.sites.getD i 0)) u
  if 1100 ≤ t then { u with pwr := { u.pwr with tripDue := true } } else u

/-- The registers of the clocks and of the sites. -/
abbrev clocksReg (p off : Nat) : Prop := (∃ k, k < 16 ∧ clockReg k p off) ∨ siteReg p off

/-- The registers that follow the refills. -/
abbrev endReg (p off : Nat) : Prop := clocksReg p off ∨ oneReg pgPwr Reg.PWR_STAT p off

theorem not_clocksReg_pwr {off : Nat} (hsites : ∀ i, i < 4 → off ≠ Reg.SITE_PWR i) (herr : ¬ pwrErr pgPwr off) : ¬ clocksReg pgPwr off := by
  rintro (⟨k, hk, hclock⟩ | ⟨-, i, hi, rfl⟩ | herror)
  · have hpage := clockReg_page hclock
    simp only [pgPwr] at hpage
    omega
  · exact hsites i hi rfl
  · exact herr herror

theorem pgPart_pgPwr (k : Nat) : pgPart k ≠ pgPwr := by
  simp only [pgPart, pgPwr]
  omega

theorem not_endReg_part {k off : Nat} (hk : k < 16) (ho : off ≠ Reg.ECLOCKS) : ¬ endReg (pgPart k) off := by
  rintro ((⟨j, hj, (⟨-, m, hm, hpage⟩ | ⟨-, i, hi, hpage⟩) | ⟨-, hoff⟩⟩ | ⟨hpage, -⟩ | ⟨hpage, -⟩) | ⟨hpage, -⟩)
  · simp only [pgPart, pgCl] at hpage; omega
  · simp only [pgPart, pgSe] at hpage; omega
  · exact ho hoff
  · exact pgPart_pgPwr k hpage
  · exact pgPart_pgPwr k hpage
  · exact pgPart_pgPwr k hpage

theorem not_endReg_pwr {off : Nat} (hoff : ∀ i, i < 4 → off ≠ Reg.SITE_PWR i) (herr : ¬ pwrErr pgPwr off) (hstat : off ≠ Reg.PWR_STAT) :
    ¬ endReg pgPwr off := fun h => h.elim (not_clocksReg_pwr hoff herr) fun e => hstat e.2

theorem periodEnds_says {s : State} (h : s.canonical) (r : PowerReadings) (model : List Int) (soft t : Int) (fixed : Bool) :
    Passes endReg s (periodEnds r model soft t fixed s) ∧
      rb (periodEnds r model soft t fixed s) pgPwr Reg.PWR_STAT 0 = rb s pgPwr Reg.PWR_STAT 0 := by
  have hstepped : Passes endReg s (periodStepped r fixed s) ∧ rb (periodStepped r fixed s) pgPwr Reg.PWR_STAT 0 = rb s pgPwr Reg.PWR_STAT 0 := by
    have herror : Passes pwrErr s (if !fixed && decide (5200 < r.hub) then countError s pgPwr 4 0 0 none else s) := by
      split
      · exact pwrError_passes h _ _ _ _
      · exact .refl h
    exact ⟨(herror.mono fun _ _ e => .inl (.inr (.inr e))).writes _ (.inr ⟨rfl, rfl⟩) (by decide) (by decide),
      (rb_wf_other herror.canonical _ _ _ _ _ _ (by decide) (by decide)).trans
        (herror.rb (by decide) (not_evtReg_of_page (by decide) (by decide)) (by decide) 0)⟩
  obtain ⟨hsteps, hstat⟩ := hstepped
  unfold periodEnds
  extract_lets stepped clocked capped
  have hclocked : Passes clocksReg stepped clocked := .foldl (fun u k hk hu => by
    unfold periodClock
    extract_lets pts
    split
    · exact .refl hu
    · exact (setClocks_passes hu _ _).mono fun _ _ hq => .inl ⟨k, List.mem_range.1 hk, hq⟩) hsteps.canonical
  have hcapped : Passes clocksReg stepped capped := hclocked.trans (.foldl (fun u i hi hu =>
    (sitePeriod_passes hu (List.mem_range.1 hi) _).mono fun _ _ => .inr) hclocked.canonical)
  clear_value capped
  have hrest : Passes clocksReg stepped (if 1100 ≤ t then { capped with pwr := { capped.pwr with tripDue := true } } else capped) := by
    split
    · exact hcapped.trans (.of_regs hcapped.canonical rfl ⟨rfl, rfl⟩ rfl)
    · exact hcapped
  refine ⟨hsteps.trans (hrest.mono fun _ _ => .inl), (hrest.rb (by decide) (not_evtReg_of_page (by decide) (by decide)) ?_ 0).trans hstat⟩
  exact not_clocksReg_pwr (by simp only [Reg.PWR_STAT, Reg.SITE_PWR]; omega) (by decide)

/-! ### A period as its parts -/

/-- The periods above the ceiling, this one counted. -/
def overRunOf (r : PowerReadings) (s : State) : Nat := if decide (5200 < r.hub) then s.pwr.overRun + 1 else 0

/-- Fixed budgets are left at this boundary (R334). -/
def fixedEnds (r : PowerReadings) (a c : State) : Bool :=
  rb c pgPwr Reg.PWR_CTL 0 && (decide (hardTemp a ≤ hotTemp a) || decide (10 ≤ overRunOf r (periodShown a)))

/-- The state in which a boundary deals out the budget. -/
def beforeBudget (r : PowerReadings) (s : State) : State :=
  let a := periodBegins r s
  let c := periodCounted r (periodShown a)
  if fixedEnds r a c then breakFixed c else c

/-- Fixed budgets last over the boundary. -/
def fixedLasts (r : PowerReadings) (s : State) : Bool :=
  let a := periodBegins r s
  let c := periodCounted r (periodShown a)
  rb c pgPwr Reg.PWR_CTL 0 && !(fixedEnds r a c)

theorem powerPeriod_eq (r : PowerReadings) (s : State) :
    powerPeriod r s =
      periodEnds r (periodBegins r s).pwr.model (softTemp (periodBegins r s)) (hotTemp (periodBegins r s)) (fixedLasts r s)
        (periodBudget r (periodFactor (periodBegins r s)) (periodShown (periodBegins r s)).pwr.charged (fixedLasts r s) (beforeBudget r s)) := by
  unfold powerPeriod
  extract_lets a soft hard model t e point was s1 shown charged hot run _ s3 s4 s5 counted fixed broken before lasts prev rho s6 total
    s7 refills steps0 steps s8 stepped clocked capped
  have ha : a = periodBegins r s := rfl
  have hsoft : softTemp a = soft := rfl
  have hhot : hotTemp a = t := rfl
  have hfactor : periodFactor a = e := rfl
  have hshown : shown = periodShown a := rfl
  have hcharged : shown.pwr.charged = charged := rfl
  have hcounted : counted = periodCounted r shown := rfl
  have hrun : run = overRunOf r shown := rfl
  have hbroken : broken = fixedEnds r a counted := by
    rw [fixedEnds, ← hshown, ← hrun]
    rfl
  clear_value counted run
  have hlasts : lasts = fixedLasts r s := by
    rw [fixedLasts, ← ha, ← hshown, ← hcounted, ← hbroken]
  have hbefore : before = beforeBudget r s := by
    rw [beforeBudget, ← ha, ← hshown, ← hcounted, ← hbroken]
  clear_value a shown before lasts
  have hrefills : refills = periodBudget r e charged lasts before := rfl
  clear_value refills t soft
  have hsteps : steps = periodSteps r lasts refills := rfl
  have hstepped : stepped = periodStepped r lasts refills := rfl
  clear_value stepped steps
  have hclocked : clocked = (List.range 16).foldl (periodClock model soft steps lasts) stepped := rfl
  clear_value clocked
  have hcapped : capped = (List.range 4).foldl (fun u i => sitePeriod u i (r.sites.getD i 0)) clocked := rfl
  clear_value capped
  rw [← ha, ← hshown, ← hlasts, ← hbefore]
  rw [hfactor, hcharged, ← hrefills, hsoft, hhot, periodEnds, ← hstepped, ← hsteps, ← hclocked, ← hcapped]

end Sys2Proof.Machine
end

section
/-!
SUPPORT. The power period as a whole, and O43.
-/

namespace Sys2Proof.Machine

open Sys2Proof

/-! ### A boundary up to its budget -/

/-- The registers that a boundary writes before it deals out the budget. -/
abbrev beforeReg (p off : Nat) : Prop :=
  (p = pgPwr ∧ off ∈ [Reg.PWR_PERIODS, Reg.THERM_STAT, Reg.PWR_OVER, Reg.HBM_PWR, Reg.PWR_CTL, Reg.PWR_STAT]) ∨ pwrErr p off ∨
    secReg p off

theorem not_evtReg_pgPwr {off : Nat} (ho : off ≠ Reg.EVT_STAT) : ¬ evtReg pgPwr off := not_evtReg_of_page (by decide) ho

theorem Passes.uncharged {q : Nat → Nat → Prop} {s t : State} (h : Passes q s t) (run : Nat) :
    Passes q (Machine.uncharged s run) (Machine.uncharged t run) := ⟨h.canonical, h.regs, h.raised, h.memory, rfl⟩

/-- The period is counted, its factor shown, and what was used counted. -/
theorem periodCounted_says {s : State} (h : s.canonical) (r : PowerReadings) :
    (periodShown (periodBegins r s)).pwr.charged = s.pwr.charged ∧
      rd (periodCounted r (periodShown (periodBegins r s))) pgPwr Reg.PWR_PERIODS = rd s pgPwr Reg.PWR_PERIODS + 1 ∧
      rf (periodCounted r (periodShown (periodBegins r s))) pgPwr Reg.THERM_STAT 16 4 = periodFactor (periodBegins r s) ∧
      rb (periodCounted r (periodShown (periodBegins r s))) pgPwr Reg.PWR_CTL 0 = rb s pgPwr Reg.PWR_CTL 0 ∧
      ∃ run, Passes beforeReg (uncharged s run) (periodCounted r (periodShown (periodBegins r s))) := by
  obtain ⟨hbegins, hperiods, hmodel⟩ := periodBegins_says h r
  obtain ⟨hshown, hfactor⟩ := periodShown_says hbegins.canonical hmodel
  obtain ⟨run, hcounted⟩ := periodCounted_passes hshown.canonical r
  generalize periodBegins r s = a at *
  generalize periodShown a = b at *
  generalize periodCounted r b = c at *
  refine ⟨hshown.charged.trans hbegins.charged, ?_, ?_, ?_, run, ?_⟩
  · exact (hcounted.regs _ _ (by decide) (not_evtReg_pgPwr (by decide)) (by decide)).trans
      ((hshown.regs _ _ (by decide) (not_evtReg_pgPwr (by decide)) (by decide)).trans hperiods)
  · exact (hcounted.rf (by decide) (not_evtReg_pgPwr (by decide)) (by decide) 16 4).trans hfactor
  · exact (hcounted.rb (by decide) (not_evtReg_pgPwr (by decide)) (by decide) 0).trans
      ((hshown.rb (by decide) (not_evtReg_pgPwr (by decide)) (by decide) 0).trans
        (hbegins.rb (by decide) (not_evtReg_pgPwr (by decide)) (by decide) 0))
  · have hfirst : Passes beforeReg s b := by
      refine (hbegins.mono ?_).trans (hshown.mono ?_)
      · rintro _ _ (herror | ⟨rfl, rfl⟩)
        · exact .inr (.inl herror)
        · exact .inl ⟨rfl, by decide⟩
      · rintro _ _ ⟨rfl, rfl⟩
        exact .inl ⟨rfl, by decide⟩
    refine (hfirst.uncharged run).trans (hcounted.mono ?_)
    rintro _ _ ⟨rfl, rfl | rfl⟩
    · exact .inl ⟨rfl, by decide⟩
    · exact .inl ⟨rfl, by decide⟩

/-- Fixed budgets last, or they are left and the lapse is told everywhere (R334). -/
theorem beforeBudget_says {s : State} (h : s.canonical) (r : PowerReadings) :
    (∃ run, Passes beforeReg (uncharged s run) (beforeBudget r s)) ∧
      rd (beforeBudget r s) pgPwr Reg.PWR_PERIODS = rd s pgPwr Reg.PWR_PERIODS + 1 ∧
      rf (beforeBudget r s) pgPwr Reg.THERM_STAT 16 4 = periodFactor (periodBegins r s) ∧
      rb (beforeBudget r s) pgPwr Reg.PWR_CTL 0 = fixedLasts r s ∧
      (rb s pgPwr Reg.PWR_CTL 0 = true → fixedLasts r s = false →
        rb (beforeBudget r s) pgPwr Reg.PWR_STAT 0 = true ∧ ∀ k, k < 16 → rb (beforeBudget r s) (pgPart k) Reg.EVT_STAT 6 = true) := by
  obtain ⟨-, hperiods, hfactor, hctl, run, hcounted⟩ := periodCounted_says h r
  unfold beforeBudget fixedLasts
  extract_lets a c
  by_cases hends : fixedEnds r a c = true
  · obtain ⟨hbreak, hcleared, hlapse, htold⟩ := breakFixed_says hcounted.canonical
    rw [if_pos hends, hends]
    refine ⟨⟨run, hcounted.trans (hbreak.mono ?_)⟩, ?_, ?_, ?_, fun _ _ => ⟨hlapse, htold⟩⟩
    · rintro _ _ (⟨rfl, rfl | rfl⟩ | hrecord)
      · exact .inl ⟨rfl, by decide⟩
      · exact .inl ⟨rfl, by decide⟩
      · exact .inr hrecord
    · exact (hbreak.regs _ _ (by decide) (not_evtReg_pgPwr (by decide)) (by decide)).trans hperiods
    · exact (hbreak.rf (by decide) (not_evtReg_pgPwr (by decide)) (by decide) 16 4).trans hfactor
    · rw [hcleared, Bool.not_true, Bool.and_false]
  · rw [if_neg hends, Bool.eq_false_iff.2 hends]
    refine ⟨⟨run, hcounted⟩, hperiods, hfactor, by rw [Bool.not_false, Bool.and_true], fun hfixed hleft => ?_⟩
    rw [Bool.not_false, Bool.and_true] at hleft
    exact absurd (hfixed.symm.trans (hctl.symm.trans hleft)) (by decide)

/-! ### A boundary as a whole -/

theorem not_endReg_low {off : Nat} (hlow : off < 0x158) (herr : ¬ pwrErr pgPwr off) : ¬ endReg pgPwr off :=
  not_endReg_pwr (fun i _ => by simp only [Reg.SITE_PWR]; omega) herr (by simp only [Reg.PWR_STAT]; omega)

/-- The buckets and the weights stand apart from what is written before the budget. -/
theorem not_beforeReg_part {k off : Nat} (hk : k < 16) (ho : off ≠ Reg.ISO_STAT) : ¬ beforeReg (pgPart k) off := by
  rintro (⟨hpage, -⟩ | ⟨hpage, -⟩ | ⟨hpage, -⟩ | ⟨hpage, -⟩ | hoff)
  · exact pgPart_pgPwr k hpage
  · exact pgPart_pgPwr k hpage
  · simp only [pgPart, pgEvr] at hpage; omega
  · simp only [pgPart, pgSec] at hpage; omega
  · exact ho hoff

theorem not_beforeReg_partAlloc {k : Nat} (hk : k < 16) : ¬ beforeReg pgPwr (Reg.PART_ALLOC k) := by
  rintro (⟨-, hoff⟩ | ⟨-, hoff⟩ | ⟨hpage, -⟩ | ⟨hpage, -⟩ | hoff)
  · simp only [Reg.PART_ALLOC, Reg.PWR_PERIODS, Reg.THERM_STAT, Reg.PWR_OVER, Reg.HBM_PWR, Reg.PWR_CTL, Reg.PWR_STAT, List.mem_cons,
      List.not_mem_nil, or_false] at hoff
    omega
  · simp only [Reg.PART_ALLOC, Reg.ERR_COUNT, Reg.ERR_FIRST] at hoff; omega
  · exact absurd hpage (by decide)
  · exact absurd hpage (by decide)
  · simp only [Reg.PART_ALLOC, Reg.ISO_STAT] at hoff; omega

theorem powerPeriod_says {s : State} (h : s.canonical) (r : PowerReadings) {k : Nat} (hk : k < 16) (hrefilled : refilled s k = true) :
    let t := powerPeriod r s
    let e := periodFactor (periodBegins r s)
    let rho := periodRho r s.pwr.charged (fixedLasts r s) s
    RefilledBy s k (shareOf s (periodTotal r e rho) (weights s) k (fixedLasts r s)) t ∧ rf t pgPwr Reg.THERM_STAT 16 4 = e ∧
      rf t pgPwr Reg.PWR_MEAS 48 16 = rho ∧ (fixedLasts r s = false → rf t pgPwr Reg.PWR_TOTAL 0 24 = periodTotal r e rho % 2 ^ 24) ∧
      rb t pgPwr Reg.PWR_CTL 0 = fixedLasts r s ∧
      (rb s pgPwr Reg.PWR_CTL 0 = true → fixedLasts r s = false →
        rb t pgPwr Reg.PWR_STAT 0 = true ∧ rb t (pgPart k) Reg.EVT_STAT 6 = true) ∧
      t.pwr.charged = 0 ∧ rd t pgPwr Reg.PWR_PERIODS = rd s pgPwr Reg.PWR_PERIODS + 1 ∧ SameMemory s t := by
  obtain ⟨hcharged, -⟩ := periodCounted_says h r
  obtain ⟨⟨run, hbefore⟩, hperiods, hfactor, hctl, hlapse⟩ := beforeBudget_says h r
  rw [powerPeriod_eq, hcharged]
  generalize beforeBudget r s = u at *
  have hpart : ∀ j off, j < 16 → off < 0x10000 → off ≠ Reg.EVT_STAT → off ≠ Reg.ISO_STAT → rd u (pgPart j) off = rd s (pgPart j) off :=
    fun j off hj ho he hiso => hbefore.regs _ _ ho (not_evtReg_pgPart he) (not_beforeReg_part hj hiso)
  have hrho : periodRho r s.pwr.charged (fixedLasts r s) u = periodRho r s.pwr.charged (fixedLasts r s) s := by
    have hmeas : rf u pgPwr Reg.PWR_MEAS 48 16 = rf s pgPwr Reg.PWR_MEAS 48 16 :=
      hbefore.rf (by decide) (not_evtReg_pgPwr (by decide)) (by decide) 48 16
    rw [periodRho, periodRho, hmeas]
  have hweights : weights u = weights s := (hbefore.weights fun j hj =>
    ⟨not_beforeReg_part hj (by decide), not_beforeReg_partAlloc hj⟩).trans rfl
  have hshare : ∀ total, shareOf u total (weights s) k (fixedLasts r s) = shareOf s total (weights s) k (fixedLasts r s) := fun total =>
    shareOf_congr k (hbefore.regs _ _ (partAlloc_lt hk).1 (not_evtReg_pgPwr (partAlloc_lt hk).2) (not_beforeReg_partAlloc hk)) _ _ _
  obtain ⟨hbudget, hbucket, hmeas, htotal⟩ := periodBudget_says hbefore.canonical r (periodFactor (periodBegins r s)) s.pwr.charged
    (fixedLasts r s) hk ((refilled_congr (hpart k _ hk (by decide) (by decide) (by decide))).trans hrefilled)
  rw [hrho, hweights, hshare] at hbucket
  rw [hrho] at hmeas htotal
  generalize periodBudget r (periodFactor (periodBegins r s)) s.pwr.charged (fixedLasts r s) u = v at *
  obtain ⟨hends, hstat⟩ := periodEnds_says hbudget.canonical r (periodBegins r s).pwr.model (softTemp (periodBegins r s))
    (hotTemp (periodBegins r s)) (fixedLasts r s)
  generalize periodEnds r (periodBegins r s).pwr.model (softTemp (periodBegins r s)) (hotTemp (periodBegins r s)) (fixedLasts r s) v = t at *
  have hdealt : ∀ off, off ≠ Reg.PWR_MEAS → off ≠ Reg.PWR_TOTAL → ¬ (budgetReg pgPwr off ∨ ∃ k, k < 16 ∧ bucketReg k pgPwr off) := by
    rintro off hm ht (⟨-, rfl | rfl⟩ | ⟨j, -, hpage, -⟩)
    · exact hm rfl
    · exact ht rfl
    · exact pgPart_pgPwr j hpage.symm
  have hlater : ∀ off, off < 0x158 → off ≠ Reg.EVT_STAT → ¬ pwrErr pgPwr off → off ≠ Reg.PWR_MEAS → off ≠ Reg.PWR_TOTAL →
      rd t pgPwr off = rd u pgPwr off := fun off ho he herr hm ht =>
    (hends.regs _ _ (by omega) (not_evtReg_pgPwr he) (not_endReg_low ho herr)).trans
      (hbudget.regs _ _ (by omega) (not_evtReg_pgPwr he) (hdealt off hm ht))
  refine ⟨?_, ?_, ?_, fun hleft => ?_, ?_, fun hfixed hleft => ?_, ?_, ?_, ?_⟩
  · refine hbucket.congr (hpart k _ hk (by decide) (by decide) (by decide)).symm (hpart k _ hk (by decide) (by decide) (by decide)).symm
      fun off hq => ?_
    obtain ⟨-, rfl | rfl⟩ := hq
    · exact hends.regs _ _ (by decide) (not_evtReg_pgPart (by decide)) (not_endReg_part hk (by decide))
    · exact hends.regs _ _ (by decide) (not_evtReg_pgPart (by decide)) (not_endReg_part hk (by decide))
  · exact (congrArg (fld · 16 4) (hlater _ (by decide) (by decide) (by decide) (by decide) (by decide))).trans hfactor
  · exact (hends.rf (by decide) (not_evtReg_pgPwr (by decide)) (not_endReg_low (by decide) (by decide)) 48 16).trans hmeas
  · exact (hends.rf (by decide) (not_evtReg_pgPwr (by decide)) (not_endReg_low (by decide) (by decide)) 0 24).trans (htotal hleft)
  · exact (congrArg (bit · 0) (hlater _ (by decide) (by decide) (by decide) (by decide) (by decide))).trans hctl
  · obtain ⟨hset, htold⟩ := hlapse hfixed hleft
    have hbudgetStat : rb v pgPwr Reg.PWR_STAT 0 = rb u pgPwr Reg.PWR_STAT 0 :=
      hbudget.rb (by decide) (not_evtReg_pgPwr (by decide)) (hdealt _ (by decide) (by decide)) 0
    refine ⟨hstat.trans (hbudgetStat.trans hset), ?_⟩
    have hpage : pgPart k ≠ pgEvr := by simp only [pgPart, pgEvr]; omega
    exact hends.raised _ _ hpage (by decide) (hbudget.raised _ _ hpage (by decide) (htold k hk))
  · exact hends.charged.trans (hbudget.charged.trans hbefore.charged)
  · exact (hlater _ (by decide) (by decide) (by decide) (by decide) (by decide)).trans hperiods
  · exact ⟨hends.memory.1.trans (hbudget.memory.1.trans hbefore.memory.1), hends.memory.2.trans (hbudget.memory.2.trans hbefore.memory.2)⟩

/-! ### The power period as its clauses say it -/

theorem fixedLasts_imp_fixed {s : State} (h : s.canonical) (r : PowerReadings) (hlasts : fixedLasts r s = true) :
    rb s pgPwr Reg.PWR_CTL 0 = true := by
  obtain ⟨-, -, -, hctl, -⟩ := periodCounted_says h r
  exact hctl.symm.trans (Bool.and_eq_true_iff.1 hlasts).1

theorem powerPeriod_fixed {s : State} (h : s.canonical) (r : PowerReadings) {k : Nat} (hk : k < 16) (hrefilled : refilled s k = true)
    (hfixed : rb s pgPwr Reg.PWR_CTL 0 = true) :
    Completes (.powerPeriod r) s fun t =>
      (rb t pgPwr Reg.PWR_CTL 0 = true →
        rf t (pgPart k) Reg.EBUCKET 0 24 = min (rf s (pgPart k) Reg.EBUCKET 0 24 + rf s pgPwr (Reg.PART_ALLOC k) 32 16)
          (rf s (pgPart k) Reg.EBUCKET_MAX 0 24) ∧
        rf t (pgPart k) Reg.EREFILL_LAST 0 24 = rf s pgPwr (Reg.PART_ALLOC k) 32 16) ∧
      (rb t pgPwr Reg.PWR_CTL 0 = false → rb t pgPwr Reg.PWR_STAT 0 = true ∧ rb t (pgPart k) Reg.EVT_STAT 6 = true) ∧
      t.pwr.charged = 0 ∧ rd t pgPwr Reg.PWR_PERIODS = rd s pgPwr Reg.PWR_PERIODS + 1 ∧ SameMemory s t := by
  obtain ⟨hbucket, -, -, -, hctl, hlapse, hcharged, hperiods, hmem⟩ := powerPeriod_says h r hk hrefilled
  refine ⟨powerPeriod r s, rfl, fun hlasts => ?_, fun hleft => hlapse hfixed (hctl.symm.trans hleft), hcharged, hperiods, hmem⟩
  rw [shareOf, if_pos (hctl.symm.trans hlasts)] at hbucket
  have hsmall := rf_lt s pgPwr (Reg.PART_ALLOC k) 32 16
  exact ⟨hbucket.1, hbucket.2.trans (Nat.mod_eq_of_lt (Nat.lt_trans hsmall (by decide)))⟩

theorem powerPeriod_weighted {s : State} (h : s.canonical) (r : PowerReadings) {k : Nat} (hk : k < 16) (hrefilled : refilled s k = true)
    (hfree : rb s pgPwr Reg.PWR_CTL 0 = false) :
    Completes (.powerPeriod r) s fun t =>
      let rho := rhoOf (rf s pgPwr Reg.PWR_MEAS 48 16) r.part s.pwr.charged
      let total := periodTotal r (rf t pgPwr Reg.THERM_STAT 16 4) rho
      RefilledBy s k (total * weightOf s k / max 1 (weights s)) t ∧ rf t pgPwr Reg.PWR_MEAS 48 16 = rho ∧
      rf t pgPwr Reg.PWR_TOTAL 0 24 = total % 2 ^ 24 ∧ t.pwr.charged = 0 ∧
      rd t pgPwr Reg.PWR_PERIODS = rd s pgPwr Reg.PWR_PERIODS + 1 ∧ SameMemory s t := by
  have hleft : fixedLasts r s = false := Bool.eq_false_iff.2 fun hlasts =>
    absurd ((fixedLasts_imp_fixed h r hlasts).symm.trans hfree) (by decide)
  obtain ⟨hbucket, hfactor, hmeas, htotal, -, -, hcharged, hperiods, hmem⟩ := powerPeriod_says h r hk hrefilled
  rw [hleft] at hbucket hmeas htotal
  refine ⟨powerPeriod r s, rfl, ?_, hmeas, ?_, hcharged, hperiods, hmem⟩
  · rw [hfactor]
    exact hbucket
  · rw [hfactor]
    exact htotal rfl

/-- Settles O43: a boundary as its parts, each of which says what it writes and leaves the rest alone; the other commands by the
registers they set. -/
theorem powerIsMeteredAndLimited : Obligations.PowerIsMeteredAndLimited := by
  unfold Obligations.PowerIsMeteredAndLimited
  refine ⟨fun k r s hs hk hrefilled => ⟨fun hfixed => powerPeriod_fixed hs r hk hrefilled hfixed, fun hfree => ?_⟩,
    fun fn k i m v s hs hk hi hm => ⟨fun hraising htrip => ?_, regulatorFault_says hs hk, pwrCtlFixed_says hs,
      fun hmay hlow hhigh hlow' hhigh' hfree => partAllocWrite_says hs hk hmay ⟨hlow, hhigh⟩ ⟨hlow', hhigh'⟩ hfree, siteRelease_says hs hi,
      fun hdue hidle => ?_⟩⟩
  · obtain ⟨t, hexec, ⟨hbucket, hlast⟩, hrest⟩ := powerPeriod_weighted hs r hk hrefilled hfree
    exact ⟨t, hexec, hbucket, hlast, hrest⟩
  · obtain ⟨t, hexec, hraised, ⟨hclusters, hengines⟩, hsame⟩ := voltageSettled_says hs hk hraising htrip
    exact ⟨t, hexec, hraised, hclusters m hm, hengines i hi, hsame⟩
  · obtain ⟨t, hexec, htrip, hstopped, hcaps, hrest⟩ := thermalTrip_says hs hdue hidle
    obtain ⟨⟨hclusters, hengines⟩, hclocks⟩ := hstopped k hk
    exact ⟨t, hexec, htrip, hclusters m hm, hengines i hi, hclocks, hcaps i hi, hrest⟩

end Sys2Proof.Machine
end
